-- ==== Sys2Proof/Word.lean ====
section
/-! DEFINITION. The word types of the Kaulo node: a byte, a 64-bit word, and the
identifier types that no command can send out of range because the die has exactly that many of the thing. -/

namespace Sys2Proof

/-- One byte. -/
abbrev Byte := BitVec 8

/-- A 64-bit word (R5: bit 0 is the least significant). -/
abbrev Word := BitVec 64

/-- One of the two PCI Express ports (R421), or one of the two Ethernet ports (R292). -/
abbrev Port := Fin 2

/-- A PCI Express function of a port: 0 is the physical function, 1 to 63 are virtual (R422). -/
abbrev Func := Fin 64

/-- A cluster, and the channel that lies beside it (R258). -/
abbrev Cluster := Fin 20

/-- A core within its cluster (R11). -/
abbrev Core := Fin 4

end Sys2Proof
end

