-- ==== Sys2Proof/Syntax.lean ====
section
/-! DEFINITION. The commands of the node: one constructor of `Instr` for each row of the spec's table of
operations and events, with the operands that come from outside the node. -/

namespace Sys2Proof

/-! ## Operands shared by many rows -/

/-- What the host's memory answers when the node reads a buffer that a command names (R291, R436). -/
inductive HostRead where
  /-- the bytes read, as one little-endian number -/
  | data (bytes : Nat)
  /-- Unsupported Request, Completer Abort or poisoned data (R291, code 5) -/
  | error
  /-- no answer, also after the one resumption (R291, code 6) -/
  | timeout
deriving DecidableEq, Repr, Inhabited

/-- What the world outside the model answers while a command runs: host buffers, signature checks, fuses.
Cryptographic verdicts are operands, never computed (assumption 12). -/
structure Env where
  host : HostRead := .data 0
  /-- the RSASSA-PSS signature verifies (R417) -/
  rsaOk : Bool := true
  /-- the SLH-DSA signature verifies (R417) -/
  slhOk : Bool := true
  /-- every authentication tag of what was read verifies (R462) -/
  tagsOk : Bool := true
  /-- the fuse read-back agrees (R419) -/
  fuseOk : Bool := true
  /-- the plaintext an encrypted host object decrypts to (R462), as one little-endian number -/
  plain : Nat := 0
deriving DecidableEq, Repr, Inhabited

/-- A Huavo descriptor as it reaches the ordering point (R435, R443). The opcode is the row's. `body` is the payload
(inline, or the host buffer when PTR is 1) as one little-endian number; `pad` is what stands in the descriptor's bytes
after the payload, or after the address when PTR is 1. -/
structure Desc where
  port : Port := 0
  func : Func := 0
  /-- fabric time NS stamped at the ordering point (R443) -/
  now : Nat := 0
  domain : BitVec 8 := 0
  tag : BitVec 16 := 0
  length : BitVec 16 := 0
  ptr : Bool := false
  secured : Bool := false
  ordered : Bool := false
  /-- header bits 47:43 and 127:64 (R435), reserved -/
  rsv : Nat := 0
  /-- the operational session that carried the secured message (R393) -/
  session : Nat := 0
  body : Nat := 0
  pad : Nat := 0
  env : Env := {}
  /-- the node that forwarded the command (R344); none for a command of this node's own hosts -/
  node : Option Nat := none
deriving DecidableEq, Repr, Inhabited

/-- A descriptor whose opcode no row of the table has (R450). -/
structure OddDesc where
  opcode : BitVec 16
  desc : Desc
deriving DecidableEq, Repr, Inhabited

/-- A timetable entry as the Marionette of cluster `cl` issues it for the running lap of `heat` (R72, R73).
`extA`, `extB` are the operands of an MXE.MM's extension entry. -/
structure Uop where
  heat : Nat := 0
  cl : Cluster := 0
  core : Core := 0
  a : BitVec 32 := 0
  b : BitVec 32 := 0
  c : BitVec 20 := 0
  extA : BitVec 32 := 0
  extB : BitVec 32 := 0
  /-- a transfer this operation consumes has a parity error (R84, R287) -/
  parity : Bool := false
  /-- a tag check at the receiving unit fails (R18, R19): the unit finds a mismatch -/
  tagBad : Bool := false
  /-- a weight block the operation reads fails its authentication (R286) -/
  weightBad : Bool := false
deriving DecidableEq, Repr, Inhabited

/-- A management message as delivered by the management endpoint (R318, R348). The row fixes MTYPE. -/
structure Mgmt where
  src : Nat := 0
  now : Nat := 0
  mver : Nat := 1
  /-- reserved bits of the management header (R348) -/
  rsv : Nat := 0
  bodyLen : Nat := 0
  /-- bytes that in fact follow the header in the message -/
  msgLen : Nat := 0
  corr : Nat := 0
  body : Nat := 0
  env : Env := {}
deriving DecidableEq, Repr, Inhabited

/-- A Coriskano packet at the transport engine, after its frame (R296, R299). Header fields are carried by name. -/
structure Packet where
  port : Port := 0
  now : Nat := 0
  /-- frame length from destination address to FCS -/
  frameLen : Nat := 64
  /-- the frame passes R293 and R297 -/
  frameOk : Bool := true
  /-- IPv6 source address -/
  ipSrc : Nat := 0
  /-- the trailer verifies: CRC-32C, or the tag under a phase held (R337, R339) -/
  trailerOk : Bool := true
  /-- the destination takes the payload now (R327); false when a host errs, a page is MIGRATING, ... -/
  destOk : Bool := true
  addr : Nat := 0
  regionKey : Nat := 0
  totalLen : Nat := 0
  offset : Nat := 0
  msgId : Nat := 0
  srcQueue : Nat := 0
  dstQueue : Nat := 0
  srcNode : Nat := 0
  domain : Nat := 0
  extLen : Nat := 0
  partition : Nat := 0
  rsvBit : Bool := false
  solicit : Bool := false
  ackNow : Bool := false
  retx : Bool := false
  enc : Bool := false
  attn : Bool := false
  mgmt : Bool := false
  op : Nat := 1
  txn : Nat := 0
  keyPhase : Bool := false
  atop : Nat := 0
  version : Nat := 1
  /-- the extensions, as one little-endian number -/
  ext : Nat := 0
  payLen : Nat := 0
  /-- the payload, as one little-endian number -/
  payload : Nat := 0
deriving DecidableEq, Repr, Inhabited

/-- A message that has arrived on a work queue: the queue and its MSG_ID (R329). -/
structure MsgRef where
  queue : Nat := 0
  msgId : Nat := 0
  now : Nat := 0
  /-- the host takes what the node writes, or gives what it reads (R327) -/
  hostOk : Bool := true
  /-- host memory that the operation reads (READ of a HOST region), as one little-endian number -/
  hostData : Nat := 0
deriving DecidableEq, Repr, Inhabited

/-- A 64-byte work request as posted (R309). -/
structure WorkRequest where
  wrId : Nat := 0
  localAddr : Nat := 0
  remoteAddr : Nat := 0
  remoteKey : Nat := 0
  localKey : Nat := 0
  length : Nat := 0
  tag : Nat := 0
  count : Nat := 0
  operand : Nat := 0
  compare : Nat := 0
  rsv : Nat := 0
  parked : Bool := false
  fence : Bool := false
  signal : Bool := false
  solicit : Bool := false
  op : Nat := 1
deriving DecidableEq, Repr, Inhabited

/-- Reference inputs judged by R483. -/
inductive RefClk where
  | pcie (p : Port)
  | eth
deriving DecidableEq, Repr, Inhabited

/-- The phase-locked loops of R482. -/
inductive Pll where
  | tpll | hpll | npll | cpllH | cpllM | cpllL
  | mpll (ch : Cluster)
  | ppll (p : Port)
  | epll (p : Port)
deriving DecidableEq, Repr, Inhabited

/-- The board flash as read at boot step 5 (R497): the calibration record's 512 bytes when there is one. -/
structure Flash where
  dirOk : Bool := true
  recLen : Nat := 0
  record : Nat := 0
deriving DecidableEq, Repr, Inhabited

/-- What boot training found on one channel (R259, R264). -/
structure ChannelTrain where
  trained : Bool := true
  /-- density code 0 to 3: 24, 32, 48 or 64 Gb (R503) -/
  density : Nat := 3
  clamshell : Bool := true
  eyeRd : Nat := 64
  eyeWr : Nat := 64
  levelMv : Nat := 50
  refMult : Nat := 0
deriving DecidableEq, Repr, Inhabited

/-- Instructions of the test access port (R517, R418). -/
inductive JtagIns where
  | bypass | idcode | samplePreload
  /-- the debug mailbox instruction, which follows R418 -/
  | debugMailbox
deriving DecidableEq, Repr, Inhabited

/-- Sources of an in-service margin (R386). -/
inductive MarginSrc where
  /-- timing margin of a PCIe lane, in 0.01 UI -/
  | pcieTiming (p : Port) (lane : Fin 8)
  /-- voltage margin of a PCIe lane, in mV -/
  | pcieVoltage (p : Port) (lane : Fin 8)
  /-- SNR of an Ethernet lane, in 0.1 dB -/
  | ethSnr (p : Port) (lane : Fin 8)
  /-- corrected symbols per 10^9 of an Ethernet lane -/
  | ethFec (p : Port) (lane : Fin 8)
  /-- deviation of a rail from its nominal value, in 0.1 % -/
  | rail (r : Fin 6)
  /-- optical module of an Ethernet port; the value is in 0.1 µW -/
  | optical (p : Port) (lane : Fin 8)
deriving DecidableEq, Repr, Inhabited

/-- A received PTP message (R36), as the servo sees it. -/
inductive PtpMsg where
  /-- Announce data that qualifies a master on the port; `rank` orders masters, lowest best -/
  | announce (rank : Nat)
  /-- the port's master is no longer valid -/
  | masterLost
  /-- a Sync (with its Follow_Up where two-step): the measured offset from the master in ns -/
  | sync (offset : Int)
  | delayResp
  | pdelayReq
  /-- master role, PTP management, unicast negotiation or IPv4: not supported -/
  | unsupported
deriving DecidableEq, Repr, Inhabited

/-- An IPv6 or layer-2 frame on an Ethernet port, as far as R293 and R297 look at it. -/
structure EthFrame where
  port : Port := 0
  now : Nat := 0
  etherType : Nat := 0x86DD
  tagged : Bool := false
  dstMac : Nat := 0
  len : Nat := 64
  fcsOk : Bool := true
  extHeader : Bool := false
  lenOk : Bool := true
  nextHeader : Nat := 17
  dstIp : Nat := 0
  udpDst : Nat := 0
  checksumOk : Bool := true
  padZero : Bool := true
  /-- for next header 58: it is a Neighbor Solicitation for ADDR -/
  solicit : Bool := false
deriving DecidableEq, Repr, Inhabited

/-- PLDM effecters (R449). -/
inductive Effecter where
  | powerCap (watts : Nat)
  | thermalStep (celsius : Int)
  | hostLimits (ignore : Bool)
deriving DecidableEq, Repr, Inhabited

/-- PLDM objects the BMC may read (R449). -/
inductive PldmObj where
  | thermal (n : Fin 24)
  | rail (r : Fin 6)
  | nodeStatus | powerCap | thermalStep | hostLimits | fru
deriving DecidableEq, Repr, Inhabited

/-- Algorithm fields a requester offers (R401): true where it offers the node's one choice. -/
structure SpdmOffer where
  baseAsym : Bool := true
  baseHash : Bool := true
  measHash : Bool := true
  dhe : Bool := true
  aead : Bool := true
  keySchedule : Bool := true
  measSpec : Bool := true
  reqAsym : Bool := true
deriving DecidableEq, Repr, Inhabited

/-- What one contributor of a collection query reports: item ID and FP32 score bits (R212). -/
structure CollRecord where
  id : Nat := 0
  score : Nat := 0
deriving DecidableEq, Repr, Inhabited

/-! ## The commands -/

/-- One constructor for each row of the spec's table of operations and events. -/
inductive Instr where
  -- pins, clocks, boot, resets, thermal, test port
  | porAssert (cycles : Nat)
  | porRelease (testMode : Bool) (refMode0 refMode1 : Fin 4)
  | crystalStable (cycles : Nat)
  | referencePresent (ref : RefClk) (cycles : Nat) (ppm : Int)
  | pllLocked (pll : Pll) (cycles : Nat)
  | pllLockTimeout (pll : Pll)
  | selftestComplete (failed : Fin 8) (flash : Flash)
  | calWindowTimeout (elapsedUs : Nat)
  | dramTrainingDone (results : List ChannelTrain) (identityOk : Bool)
  | warmReset (cycles : Nat)
  | portConventionalReset (p : Port)
  | functionLevelReset (p : Port) (f : Func)
  | pllLockLost (pll : Pll)
  | railOutOfRange (rail : Fin 6) (deviation : Int) (us : Nat)
  | railRecovered (us : Nat)
  | thermalSample (now : Nat) (temps : List Int)
  | thermalTrip (sensor : Fin 24) (temp : Int)
  | cclkSwitch (cl : Cluster)
  | cclkSwitchDone (cl : Cluster)
  | jtagExtest
  | jtagInstruction (ins : JtagIns)
  | marginSample (src : MarginSrc) (value : Int) (flagged : Bool)
  -- fabric time
  | epochBoundary (now : Nat) (measuredNj : Nat)
  | flushPoint (now : Nat)
  | partnerSilenceTimeout (now : Nat)
  | ptpMessage (p : Port) (now : Nat) (msg : PtpMsg)
  | announceTimeout (now : Nat)
  | holdoverDriftWarning (now : Nat) (driftNs : Nat)
  | timeReadLatch (p : Port) (f : Func) (size : Nat)
  -- the step unit
  | stepRowWrite (p : Port) (f : Func) (off len data : Nat)
  | stepMark (p : Port) (f : Func) (now : Nat) (slotHeat : Nat) (size : Nat) (value : Word)
  | lapStart (heat : Nat) (cl : Cluster) (now : Nat) (wait : Nat)
  -- micro-operations
  | mxeAtt (u : Uop)
  | mxeMm (u : Uop)
  | vecSmx (u : Uop)
  | vecCvt (u : Uop)
  | vecRot (u : Uop)
  | vecNrm (u : Uop)
  | vecFin (u : Uop)
  | vecMrg (u : Uop)
  | expPage (u : Uop)
  | qenApp (u : Uop)
  | qenSeal (u : Uop)
  | selReq (u : Uop)
  | selTake (u : Uop)
  | netBtn (u : Uop)
  | chnRd (u : Uop) (linkFailures : Nat) (authOk : Bool)
  | chnWr (u : Uop) (linkFailures : Nat)
  | marHurdle (u : Uop) (inserted : Nat)
  | marEnd (u : Uop) (inserted : Nat)
  -- laps
  | pageFaultResolved (heat : Nat) (cl : Cluster) (excluded : Bool) (now : Nat)
  | lapEnd (heat : Nat) (now : Nat)
  | relayFold (heat : Nat) (now : Nat)
  -- selector
  | selectorQuery (cl : Cluster) (now : Nat)
  | recallAudit (cl : Cluster)
  | auditAbandon (cl : Cluster)
  | indexBuild (seq layer group : Nat)
  | indexBuildComplete (seq layer group : Nat) (room : Bool)
  -- frames and pages
  | poolRefill (slice : Nat) (ch : Cluster) (frames : List Nat)
  | frameReclaim (frame : Nat)
  | frameTest (frame : Nat) (pass : Bool)
  | frameCopyCommit (src : Nat)
  | pageRepair (frame : Nat) (now : Nat)
  | reopenCopy (frame : Nat) (streamOk : Bool)
  | truncateCommit (seq : Nat) (now : Nat)
  | collectionFrameRenewal (frame : Nat)
  | metadataRekey
  -- directory
  | nodePublication (seq : Nat)
  | dominoShift (bank : Fin 64)
  | rowRecordRelease (record : Nat)
  -- channels, row engines, DMA
  | rowOpGroup (ch : Cluster)
  | refreshWindow (ch : Cluster)
  | dramRetrainPass (ch : Cluster) (eyeRd eyeWr levelMv refMult : Nat)
  | dmaFaultResolved (mover : Fin 28) (abandon : Bool) (now : Nat)
  | dmaNoRoomTimeout (mover : Fin 28) (now : Nat)
  | pcieCompletionTimeout (mover : Fin 28) (p : Port) (f : Func) (waitedUs : Nat) (now : Nat)
  | diePersistentFailure (unit : Nat)
  -- timers
  | leaseExpiry (seq : Nat) (now : Nat)
  | handoffDeadline (seq : Nat) (now : Nat)
  | forwardTimeout (corr : Nat) (now : Nat)
  | mergeTimeout (domain coll queryId : Nat) (now : Nat)
  | pskExpiry (hint : Nat) (now : Nat)
  | sessionIdleTimeout (session : Nat) (now : Nat)
  -- placement and resilience
  | promotion (failed : Nat) (seq : Nat) (now : Nat)
  | reseed (partner : Nat) (now : Nat)
  | spillRequest (seq : Nat) (now : Nat)
  | migration (heat : Nat) (seq : Nat) (group : Nat) (now : Nat)
  | sliceDrainComplete (slice : Nat) (now : Nat)
  | domainResetContinue (domain : Nat) (now : Nat)
  | courseVerifyDone (course : Nat) (now : Nat)
  | cryptoEraseDone (fuseOk : Bool)
  | revokeDrained (index : Nat) (now : Nat)
  -- Ethernet and Coriskano
  | ethFrameReceived (fr : EthFrame)
  | ethLinkDown (p : Port)
  | ethLinkUp (p : Port)
  | coriskanoPacket (k : Packet)
  | read (m : MsgRef)
  | readResp (m : MsgRef)
  | send (m : MsgRef)
  | atomic (m : MsgRef)
  | atomicResp (m : MsgRef)
  | flush (m : MsgRef)
  | flushResp (m : MsgRef)
  | trigger (m : MsgRef)
  | baton (m : MsgRef)
  | selectMerge (m : MsgRef)
  | pageMove (m : MsgRef)
  | pageReplicate (m : MsgRef)
  | ack (k : Packet)
  | nack (k : Packet)
  | ackDelayTimer (m : MsgRef)
  | retxTimeout (m : MsgRef)
  | rnrRetryTimeout (m : MsgRef)
  | reasmIdleTimeout (m : MsgRef)
  | mgmtSkipTimeout (peer : Nat) (now : Nat)
  | mgmtReplyTimeout (corr : Nat) (now : Nat)
  | calendarSlot (now : Nat)
  | egressFrameStart (p : Port) (now : Nat)
  | workRequestSend (queue : Nat) (now : Nat) (data : HostRead)
  -- management messages
  | capReport (m : Mgmt)
  | stripeReq (m : Mgmt)
  | stripeReply (m : Mgmt)
  | heartbeat (m : Mgmt)
  | failNotice (m : Mgmt)
  | failAck (m : Mgmt)
  | cmdForward (m : Mgmt)
  | cmdAnswer (m : Mgmt)
  | leaseRenew (m : Mgmt)
  | pairReq (m : Mgmt)
  | pairReply (m : Mgmt)
  | heldReport (m : Mgmt)
  | replDegraded (m : Mgmt)
  | recordRepl (m : Mgmt)
  | mapUpdate (m : Mgmt)
  | seqLost (m : Mgmt)
  | seqRelease (m : Mgmt)
  | ackRelease (m : Mgmt)
  -- SPDM and TDISP
  | keyExchange (p : Port) (now : Nat) (requester : Nat)
  | finish (p : Port) (now : Nat) (session : Nat) (rsaOk slhOk : Bool)
  | kemExchange (p : Port) (now : Nat) (session : Nat) (ciphertext : Bool)
  | pskExchange (p : Port) (now : Nat) (hint : Nat)
  | altSig (p : Port) (now : Nat) (supply : Bool)
  | getCertificate (p : Port) (slot : Nat)
  | challenge (p : Port) (slot : Nat)
  | getMeasurements (p : Port) (now : Nat) (session : Option Nat) (index : Nat)
  | ideKm (p : Port) (now : Nat) (session : Nat) (stream : Nat) (key : Nat)
  | lockInterface (p : Port) (f : Func) (now : Nat) (session : Nat)
  -- BMC
  | pldmSetEffecter (e : Effecter)
  | pldmReadSensor (o : PldmObj)
  -- host registers
  | cmdTailWrite (p : Port) (f : Func) (now : Nat) (value : BitVec 32) (odd : List OddDesc)
  | ringEnable (p : Port) (f : Func) (value : Word)
  | ringDisable (p : Port) (f : Func) (value : Word)
  | intCtrlWrite (p : Port) (f : Func) (value : Word)
  | interruptHoldoffExpiry (p : Port) (f : Func) (vector : Nat) (now : Nat)
  | msixUnmask (p : Port) (f : Func) (vector : Option Nat) (mask : Bool)
  | registerWrite (p : Port) (f : Func) (off size : Nat) (value : Word)
  | queueDbSqTail (p : Port) (f : Func) (now : Nat) (size : Nat) (value : Word) (wrs : List WorkRequest)
  | queueDbRqTail (p : Port) (f : Func) (now : Nat) (size : Nat) (value : Word) (wrs : List WorkRequest)
  | queueDbCqHead (p : Port) (f : Func) (now : Nat) (size : Nat) (value : Word)
  | queueDbCqArm (p : Port) (f : Func) (now : Nat) (size : Nat) (value : Word)
  | bulkWindowRead (p : Port) (off len : Nat) (linkFailures : Nat)
  | bulkWindowWrite (p : Port) (off len data : Nat)
  -- Huavo 0x01xx
  | deviceQuery (d : Desc)
  | funcAssign (d : Desc)
  | funcUnassign (d : Desc)
  | timeConfig (d : Desc)
  | powerLimit (d : Desc)
  | ctrlTransfer (d : Desc)
  | ctrlTake (d : Desc)
  -- Huavo 0x02xx
  | secStatus (d : Desc)
  | selftest (d : Desc)
  | lcNonce (d : Desc)
  | lcProvision (d : Desc)
  | lcOperate (d : Desc)
  | ownerRotate (d : Desc)
  | lcReturn (d : Desc)
  | lcScrap (d : Desc)
  | zeroise (d : Desc)
  | debugOpen (d : Desc)
  -- Huavo 0x03xx
  | domainCreate (d : Desc)
  | domainReset (d : Desc)
  | domainDestroy (d : Desc)
  | domainQuery (d : Desc)
  | sliceCreate (d : Desc)
  | sliceModify (d : Desc)
  | sliceDestroy (d : Desc)
  | sliceQuery (d : Desc)
  | shareSet (d : Desc)
  | arbSet (d : Desc)
  -- Huavo 0x04xx
  | modelRegister (d : Desc)
  | modelUnregister (d : Desc)
  | modelQuery (d : Desc)
  | weightKeyInstall (d : Desc)
  | weightLoad (d : Desc)
  | weightUnload (d : Desc)
  -- Huavo 0x05xx
  | memConfig (d : Desc)
  | seqCreate (d : Desc)
  | seqFree (d : Desc)
  | seqTruncate (d : Desc)
  | seqQuery (d : Desc)
  | seqGlobal (d : Desc)
  | frameQuery (d : Desc)
  -- Huavo 0x06xx
  | heatCreate (d : Desc)
  | heatSet (d : Desc)
  | heatQuery (d : Desc)
  | heatStart (d : Desc)
  | heatStop (d : Desc)
  | heatDestroy (d : Desc)
  | courseLoad (d : Desc)
  | courseUnload (d : Desc)
  | courseQuery (d : Desc)
  -- Huavo 0x07xx
  | prefixSearch (d : Desc)
  | prefixAttach (d : Desc)
  | prefixPublish (d : Desc)
  | prefixRetract (d : Desc)
  | prefixBulkLoad (d : Desc)
  | prefixStats (d : Desc)
  -- Huavo 0x08xx
  | selHeatSet (d : Desc)
  | selRebuild (d : Desc)
  | filterBind (d : Desc)
  | filterUnbind (d : Desc)
  | auditRead (d : Desc)
  | collCreate (d : Desc)
  | collDestroy (d : Desc)
  | collInsert (d : Desc)
  | collDelete (d : Desc)
  | collQuery (d : Desc)
  -- Huavo 0x09xx
  | netConfigPort (d : Desc)
  | netConfigAddresses (d : Desc)
  | netConfigLocality (d : Desc)
  | pdCreate (d : Desc)
  | pdDestroy (d : Desc)
  | regionRegister (d : Desc)
  | regionRevoke (d : Desc)
  | queueCreate (d : Desc)
  | queueModify (d : Desc)
  | queueReset (d : Desc)
  | queueDestroy (d : Desc)
  | cqCreate (d : Desc)
  | cqDestroy (d : Desc)
  | shaperSet (d : Desc)
  | domainNetSet (d : Desc)
  | jobKeyInstall (d : Desc)
  -- Huavo 0x0Axx
  | placeConfig (d : Desc)
  | replQuery (d : Desc)
  | ownQuery (d : Desc)
  | ownOffer (d : Desc)
  | ownAccept (d : Desc)
  | ownCommit (d : Desc)
  | ownClaim (d : Desc)
  | fence (d : Desc)
  -- Huavo 0x0Bxx, 0x0Cxx, 0x0Dxx
  | rowOp (d : Desc)
  | acctRead (d : Desc)
  | counterRead (d : Desc)
  | marginConfig (d : Desc)
  | dramConfig (d : Desc)
  | dramStatus (d : Desc)
  | calLoad (d : Desc)
  | calQuery (d : Desc)
  -- the rows the table lists last
  | pcieLinkUp (p : Port) (width : Nat) (gtps : Nat)
  | getVersion (p : Port)
  | negotiateAlgorithms (p : Port) (offer : SpdmOffer)
  | endSession (p : Port) (now : Nat) (session : Nat)
  | stopInterface (p : Port) (f : Func) (toError : Bool)
  | recordWalkDone (seq : Nat) (now : Nat)
  | metadataRekeyDone
deriving DecidableEq, Repr

end Sys2Proof
end

