-- ==== Sys2Proof/Decode.lean ====
section
/-! DEFINITION. The command a word spells by the bits of the spec's table of operations and events. -/

namespace Sys2Proof

/-- No row of the table gives bits: its commands are register accesses, descriptors, packets and pin events, which reach
the node through their own interfaces, so no word spells one. -/
def decodeTableWord (_nbits _w : Nat) : Option Instr := none

end Sys2Proof
end

