-- ==== Sys2Proof/Config.lean ====
section
/-! DEFINITION. What one implementation fixes and the spec leaves open: the free values. Nothing in Lean can evaluate
them or prove a value of them; a claim that mentions one holds whatever it is. -/

namespace Sys2Proof.Config

/-- A fresh value where the spec leaves a value open: applied to the counter `State.free`, which every use advances
(assumption 3). -/
opaque freeValue : Nat → BitVec 64

/-- The random bit generator's outputs (R390): nonces and PSK hints, by draw number (assumption 3). -/
opaque drbg : Nat → BitVec 256

/-- The channel-local address, in 64-byte units, that the Puppeteer chooses for the n-th object it places in a page-map
pool (R104, R219: deliberately left open; assumption 3). -/
opaque poolAddress : Nat → BitVec 35

/-- A value the spec does not state for some operands, by the place it arises and those operands (assumption 3). -/
opaque openBits : Nat → Nat → BitVec 64

/-- Fuses set at wafer test (R415): the ROM digest. -/
opaque romDigest : BitVec 384

/-- Fuses set at wafer test (R415): the digest of the vendor keys. -/
opaque vendorDigest : BitVec 384

/-- Fuses set at wafer test (R415): the node's serial number. -/
opaque serial : BitVec 64

/-- The speed grade of the part (R426): false is 40 Gb/s, true is 48 Gb/s. -/
opaque grade48 : Bool

/-- Energy coefficients of the event classes, in fJ (R254: in fuses; assumption 20). -/
opaque energyCoeff : Nat → BitVec 32

/-- The node's public identity keys as certified (R399), as a digest. -/
opaque identityKeys : BitVec 384

end Sys2Proof.Config
end

