-- ==== Sys2Proof/Machine/Bits.lean ====
section
/-! DEFINITION. Bit fields of numbers and of registers (R5: bit 0 is the least significant, bytes are little-endian). -/

namespace Sys2Proof.Machine

/-- Bits `hi` down to `lo` of a number. -/
def fld (x hi lo : Nat) : Nat := x / 2 ^ lo % 2 ^ (hi + 1 - lo)

/-- Bytes `a` to `b` of a payload, offsets as R451 writes them. -/
def byt (x a b : Nat) : Nat := fld x (8 * b + 7) (8 * a)

/-- One bit of a number. -/
def bit (x n : Nat) : Bool := x / 2 ^ n % 2 == 1

/-- A truth value as a bit. -/
def b2n (b : Bool) : Nat := if b then 1 else 0

/-- A number made of fields: each entry gives the lowest bit, the width and the value. -/
def pack : List (Nat × Nat × Nat) → Nat
  | [] => 0
  | (lo, w, v) :: t => v % 2 ^ w * 2 ^ lo + pack t

/-- Bits `hi` down to `lo` of a register. -/
def rf {n : Nat} (r : BitVec n) (hi lo : Nat) : Nat := fld r.toNat hi lo

/-- One bit of a register. -/
def rb {n : Nat} (r : BitVec n) (i : Nat) : Bool := bit r.toNat i

/-- A number with bits `hi` down to `lo` replaced. -/
def fldSet (x hi lo v : Nat) : Nat := x - fld x hi lo * 2 ^ lo + v % 2 ^ (hi + 1 - lo) * 2 ^ lo

/-- A register with bits `hi` down to `lo` replaced. -/
def rset {n : Nat} (r : BitVec n) (hi lo v : Nat) : BitVec n := BitVec.ofNat n (fldSet r.toNat hi lo v)

/-- A mask with ones in the bit ranges listed as (hi, lo). -/
def maskOf (l : List (Nat × Nat)) : Nat := pack (l.map fun r => (r.2, r.1 + 1 - r.2, 2 ^ (r.1 + 1 - r.2) - 1))

/-- `old` with the bits that `mask` names taken from `new`. -/
def merge {n : Nat} (old new : BitVec n) (mask : Nat) : BitVec n :=
  (old &&& ~~~ (BitVec.ofNat n mask)) ||| (new &&& BitVec.ofNat n mask)

/-- Two registers differ in a bit that `mask` names. -/
def differ {n : Nat} (old new : BitVec n) (mask : Nat) : Bool :=
  ((old ^^^ new) &&& BitVec.ofNat n mask) != 0

/-- A number read as a two's complement integer of `w` bits. -/
def sgn (w x : Nat) : Int := if x % 2 ^ w < 2 ^ (w - 1) then (x % 2 ^ w : Nat) else ((x % 2 ^ w : Nat) : Int) - (2 ^ w : Nat)

/-- An integer as a two's complement number of `w` bits. -/
def unsgn (w : Nat) (x : Int) : Nat := (x % (2 ^ w : Nat)).toNat

/-- Round a quotient up. -/
def ceilDiv (a b : Nat) : Nat := (a + b - 1) / b

/-- Round up to a multiple. -/
def roundUp (a m : Nat) : Nat := ceilDiv a m * m

/-- A saturating count. -/
def satAdd (w a b : Nat) : Nat := min (a + b) (2 ^ w - 1)

/-- How many of the lowest `n` bits are set. -/
def popCount (x : Nat) : Nat → Nat
  | 0 => 0
  | n + 1 => popCount x n + x / 2 ^ n % 2

/-- The set bits among the lowest `n`, ascending. -/
def bitsOf (x n : Nat) : List Nat := (List.range n).filter fun i => bit x i

/-- The mask of a list of bit numbers. -/
def maskFrom (l : List Nat) : Nat := l.foldl (fun m i => if bit m i then m else m + 2 ^ i) 0

/-- The `n` bytes of a number, lowest first. -/
def bytesOf (x : Nat) : Nat → List Nat
  | 0 => []
  | n + 1 => x % 256 :: bytesOf (x / 256) n

/-- A number from its bytes, lowest first. -/
def ofBytes : List Nat → Nat
  | [] => 0
  | b :: t => b % 256 + 256 * ofBytes t

/-- Elements of `w` bits packed from the least significant bit (R128). -/
def packElems (w : Nat) : List Nat → Nat
  | [] => 0
  | b :: t => b % 2 ^ w + 2 ^ w * packElems w t

/-- The first `n` elements of `w` bits. -/
def elems (w x : Nat) : Nat → List Nat
  | 0 => []
  | n + 1 => x % 2 ^ w :: elems w (x / 2 ^ w) n

end Sys2Proof.Machine

/-- Put an element before the first one that it does not come after. -/
def List.insertInOrder {α : Type} (le : α → α → Bool) (a : α) : List α → List α
  | [] => [a]
  | b :: t => if le a b then a :: b :: t else b :: List.insertInOrder le a t

/-- A list in order; elements of equal rank keep their places. -/
def List.stableSort {α : Type} (l : List α) (le : α → α → Bool) : List α := l.foldr (List.insertInOrder le) []
end

