-- ==== Sys2Proof/Machine/Map.lean ====
section
/-! DEFINITION. Tables of plain data: a finite map from numbers to values, kept as a list in strictly rising key
order so that equal tables are equal data, and the canonical byte memory over `Host.Cell`. -/

namespace Sys2Proof.Machine

/-- A finite map from numbers, in one canonical form: keys strictly rising (`Map.wf`). -/
structure Map (α : Type) where
  l : List (Nat × α)
deriving DecidableEq, Repr, Inhabited

end Sys2Proof.Machine

namespace Sys2Proof.Machine

variable {α β : Type}

/-- Keys strictly rising. -/
def risingKeys : List (Nat × α) → Bool
  | [] => true
  | [_] => true
  | a :: b :: t => decide (a.1 < b.1) && risingKeys (b :: t)

/-- The canonical form of a table. -/
def Map.wf (m : Map α) : Bool := risingKeys m.l

/-- The table that lists nothing. -/
def Map.empty : Map α := ⟨[]⟩

/-- Look a key up in a rising list. -/
def lookupKey (k : Nat) : List (Nat × α) → Option α
  | [] => none
  | (j, v) :: t => if j = k then some v else lookupKey k t

/-- Put a value at a key of a rising list, keeping it rising. -/
def insertKey (k : Nat) (v : α) : List (Nat × α) → List (Nat × α)
  | [] => [(k, v)]
  | (j, w) :: t => if k < j then (k, v) :: (j, w) :: t else if j = k then (k, v) :: t else (j, w) :: insertKey k v t

/-- Take a key out of a list. -/
def eraseKey (k : Nat) : List (Nat × α) → List (Nat × α)
  | [] => []
  | (j, w) :: t => if j = k then eraseKey k t else (j, w) :: eraseKey k t

/-- The value at a key. -/
def Map.get? (m : Map α) (k : Nat) : Option α := lookupKey k m.l

/-- The value at a key, or a default. -/
def Map.getD (m : Map α) (k : Nat) (d : α) : α := (m.get? k).getD d

/-- The key is listed. -/
def Map.has (m : Map α) (k : Nat) : Bool := (m.get? k).isSome

/-- Write a value at a key. -/
def Map.set (m : Map α) (k : Nat) (v : α) : Map α := ⟨insertKey k v m.l⟩

/-- Remove a key. -/
def Map.erase (m : Map α) (k : Nat) : Map α := ⟨eraseKey k m.l⟩

/-- Change the value at a key where there is one. -/
def Map.modify (m : Map α) (k : Nat) (f : α → α) : Map α :=
  match m.get? k with
  | some v => m.set k (f v)
  | none => m

/-- Change the value at a key, a default standing for an absent one. -/
def Map.upd (m : Map α) (k : Nat) (d : α) (f : α → α) : Map α := m.set k (f (m.getD k d))

/-- Keep the entries that pass a test. -/
def Map.filter (m : Map α) (p : Nat → α → Bool) : Map α := ⟨m.l.filter fun e => p e.1 e.2⟩

/-- Apply a function to every value. -/
def Map.mapVals (m : Map α) (f : Nat → α → α) : Map α := ⟨m.l.map fun e => (e.1, f e.1 e.2)⟩

/-- How many keys are listed. -/
def Map.size (m : Map α) : Nat := m.l.length

/-- The first entry that passes a test. -/
def Map.find? (m : Map α) (p : Nat → α → Bool) : Option (Nat × α) := m.l.find? fun e => p e.1 e.2

/-- Some entry passes a test. -/
def Map.any (m : Map α) (p : Nat → α → Bool) : Bool := m.l.any fun e => p e.1 e.2

/-- Every entry passes a test. -/
def Map.all (m : Map α) (p : Nat → α → Bool) : Bool := m.l.all fun e => p e.1 e.2

/-- Fold over the entries in rising key order. -/
def Map.fold (m : Map α) (f : β → Nat → α → β) (b : β) : β := m.l.foldl (fun b e => f b e.1 e.2) b

/-- The lowest number from `start` on that is no key, found within `fuel` numbers. -/
def Map.fresh (m : Map α) : (start fuel : Nat) → Option Nat
  | _, 0 => none
  | start, fuel + 1 => if m.has start then m.fresh (start + 1) fuel else some start

/-! ## Byte memory -/

/-- What an address that memory does not list reads as (assumption 4). -/
def unlistedByte : BitVec 8 := 0

/-- Addresses strictly rising and no entry equal to what an unlisted address reads as. -/
def memWf (m : List Host.Cell) : Bool := risingKeys m && m.all fun c => c.2 != unlistedByte

/-- Read one byte. -/
def memRead (m : List Host.Cell) (a : Nat) : BitVec 8 := (lookupKey a m).getD unlistedByte

/-- Write one byte, keeping the canonical form: writing what an unlisted address reads as removes the entry. -/
def memWrite (m : List Host.Cell) (a : Nat) (v : BitVec 8) : List Host.Cell :=
  if v = unlistedByte then eraseKey a m else insertKey a v m

/-- Read `n` bytes from `a` as one little-endian number (R5). -/
def memReadN (m : List Host.Cell) (a : Nat) : Nat → Nat
  | 0 => 0
  | n + 1 => (memRead m a).toNat + 256 * memReadN m (a + 1) n

/-- Write the low `n` bytes of `v` from `a` upward, little-endian (R5). -/
def memWriteN (m : List Host.Cell) (a : Nat) : (n : Nat) → (v : Nat) → List Host.Cell
  | 0, _ => m
  | n + 1, v => memWriteN (memWrite m a (BitVec.ofNat 8 v)) (a + 1) n (v / 256)

end Sys2Proof.Machine
end

