-- ==== Sys2Proof/Machine/Records.lean ====
section
/-! DEFINITION. The records the node holds, first part: statuses, outputs, clocks and boot, fabric time, the host
interface, security, slices and domains, power. Default values are the values after reset. -/

namespace Sys2Proof.Machine

/-! ## Statuses (R457) -/

/-- The status values of R457. -/
inductive Status where
  | ok | accepted | partly | busy | retryAfter | noHeadroom | exhausted | timeout | badOpcode | badReserved
  | badField | badState | notOwner | denied | authFail | revoked | fenced | lost | damaged
deriving DecidableEq, Repr, Inhabited

/-- The 16-bit value of a status (R457). -/
def Status.code : Status → Nat
  | .ok => 0x0000 | .accepted => 0x0001 | .partly => 0x0002 | .busy => 0x0010 | .retryAfter => 0x0011
  | .noHeadroom => 0x0012 | .exhausted => 0x0013 | .timeout => 0x0014 | .badOpcode => 0x0020
  | .badReserved => 0x0021 | .badField => 0x0022 | .badState => 0x0023 | .notOwner => 0x0030 | .denied => 0x0031
  | .authFail => 0x0032 | .revoked => 0x0040 | .fenced => 0x0041 | .lost => 0x0050 | .damaged => 0x0051

/-- The status a 16-bit value stands for. -/
def Status.ofCode (n : Nat) : Option Status :=
  [Status.ok, .accepted, .partly, .busy, .retryAfter, .noHeadroom, .exhausted, .timeout, .badOpcode, .badReserved,
   .badField, .badState, .notOwner, .denied, .authFail, .revoked, .fenced, .lost, .damaged].find? fun s => s.code == n

/-- The objects that R455 protects while an asynchronous command runs. -/
inductive ObjKey where
  | none
  | seq (n : Nat) | heat (n : Nat) | course (n : Nat) | coll (d n : Nat) | region (n : Nat) | slice (n : Nat)
  | domain (n : Nat) | pageMem | row (n : Nat) | selftest | index (seq layer group : Nat) | other (n : Nat)
deriving DecidableEq, Repr, Inhabited

/-! ## What leaves the node -/

/-- SPDM and TDISP answers (R401 to R406). -/
inductive SpdmAns where
  | ok | busy | unexpectedRequest | decryptError | denied
deriving DecidableEq, Repr, Inhabited

/-- How a read of BAR2 completes (R267, R268, R433). -/
inductive WindowAns where
  /-- the bytes, as one little-endian number -/
  | data (bytes : Nat)
  /-- Completer Abort -/
  | abort
  /-- poisoned data (EP set) -/
  | poisoned
deriving DecidableEq, Repr, Inhabited

/-- One thing that leaves the node. -/
inductive Output where
  /-- a response entry, and its place in the ring (R439) -/
  | response (p : Port) (f : Func) (index : Nat) (entry : BitVec 256)
  /-- an event entry, and its place in the ring (R477) -/
  | event (p : Port) (f : Func) (index : Nat) (entry : BitVec 512)
  /-- a PLDM platform event (R449) -/
  | bmcEvent (code reason : Nat)
  /-- an MSI-X message -/
  | msix (p : Port) (f : Func) (vector : Nat)
  /-- bytes a DMA mover writes to host memory -/
  | hostWrite (p : Port) (addr len data : Nat)
  /-- what a BAR0 read returns -/
  | regRead (p : Port) (f : Func) (value : Nat)
  /-- what a BAR2 read returns -/
  | windowRead (p : Port) (ans : WindowAns)
  /-- an SPDM answer of the port: the answer and what it carries -/
  | spdm (p : Port) (ans : SpdmAns) (data : List Nat)
  /-- a PLDM answer: completion code ok or ERROR_INVALID_DATA, and the value -/
  | pldm (ok : Bool) (value : Int)
  /-- an answer of the test access port -/
  | jtag (value : Nat)
  /-- the thermal trip output -/
  | trip
  /-- a Neighbor Advertisement (R294) -/
  | neighborAdvert (p : Port)
  /-- a PTP answer in two-step form (R36) -/
  | ptpAnswer (p : Port)
  /-- a management message to a node: MTYPE, CORR, body length, body (R348) -/
  | mgmt (dst mtype corr len body : Nat)
  /-- a message is built for a queue's peer: destination, queue, opcode, message, ADDR, length, extensions, payload -/
  | message (dst queue op msgId addr len : Nat) (ext : Nat) (data : Nat)
  /-- a data packet leaves a port: UDP source port, destination, queue, message, packet, TXN, RETX -/
  | packet (p : Port) (udpSrc dst queue msgId index txn : Nat) (retx : Bool)
  /-- an acknowledgement is built: destination node and queue, message, complete, arrival bitmap -/
  | ack (dst queue msgId : Nat) (complete : Bool) (bitmap : Nat)
  /-- a negative acknowledgement is built (R325) -/
  | nack (dst queue msgId status : Nat)
  /-- an Ethernet frame of a class (0 control, 1 to 3 for CLASS 0 to 2) leaves a port -/
  | frame (p : Port) (cls len : Nat)
  /-- a completion entry written to a CQ ring in host memory (R310) -/
  | completion (cq index : Nat) (entry : BitVec 256)
  /-- a baton bundle or share sent to the relay stage of another node (R170) -/
  | baton (dst heat step : Nat) (data : List Nat)
  /-- the node gives its debug mailbox (R418): opened, or refused because it is closed -/
  | debugPort (isOpen : Bool)
deriving DecidableEq, Repr

/-! ## Clocks, boot, power (chapter 16) -/

/-- Where the node is in the boot sequence (R499), or why it runs nothing. -/
inductive Phase where
  /-- POR_N low, or an internal cold reset in effect -/
  | held
  /-- step 1 -/
  | crystal
  /-- step 2 -/
  | plls
  /-- steps 3 to 5 -/
  | selfTest
  /-- step 6a: the calibration window is open -/
  | window
  /-- step 7 and 8 -/
  | training
  /-- step 9 passed: mailbox ready -/
  | ready
  /-- boot stopped (R484) or a self-test failed in boot (R396) -/
  | stopped
  /-- factory test mode (R516) -/
  | factoryTest
  /-- stopped by EXTEST until a cold reset (R517) -/
  | extest
  /-- every clock stopped by the thermal trip (R492) -/
  | tripped
deriving DecidableEq, Repr, Inhabited

/-- A phase-locked loop (R483, R484). -/
structure PllSt where
  locked : Bool := false
  /-- failed attempts to lock, of three -/
  attempts : Nat := 0
  /-- given up after three -/
  failed : Bool := false
deriving DecidableEq, Repr, Inhabited

/-- Reset, boot and clock state of the die. -/
structure Boot where
  phase : Phase := .held
  /-- the boot under way follows a warm reset (R501) -/
  warm : Bool := false
  /-- POR_N is low -/
  porLow : Bool := true
  /-- TIME_CONFIG has set the locked fields in the calibration window (R505) -/
  timeSet : Bool := false
  /-- an internal cold reset waits for the rails (R495) -/
  railHold : Bool := false
  crystal : Bool := false
  /-- references judged present: PCIe 0, PCIe 1, Ethernet (R483) -/
  refPcie0 : Bool := false
  refPcie1 : Bool := false
  refEth : Bool := false
  /-- lock state of the PLLs, by `pllKey`; an unlisted one is not locked -/
  plls : Map PllSt := .empty
  /-- reference-mode straps (R481) -/
  refMode0 : Fin 4 := 0
  refMode1 : Fin 4 := 0
  testMode : Bool := false
  /-- the management block answers the sideband (R448) -/
  sideband : Bool := false
  /-- the calibration window was open in this boot (R500) -/
  windowed : Bool := false
  /-- the node has failed (R289) -/
  failed : Bool := false
  /-- the identity check failed (R398) -/
  identityFault : Bool := false
  /-- THERMTRIP_N asserted (R492) -/
  trip : Bool := false
  /-- events raised during boot, oldest first: they are reported once the node is ready (R499) -/
  deferred : List Nat := []
deriving DecidableEq, Repr, Inhabited

/-- A PCI Express port (R421, R442, R499). -/
structure PortSt where
  linkUp : Bool := false
  width : Nat := 0
  gtps : Nat := 0
  /-- fabric time NS since which the data link is down -/
  downSince : Nat := 0
  /-- virtual functions enabled by SR-IOV (assumption 10) -/
  vfEnabled : Bool := false
  /-- this host's power cap, none when removed (R444) -/
  cap : Option Nat := none
deriving DecidableEq, Repr, Inhabited

/-- Clock and quarantine state of a cluster (R29, R487, R488, R90). -/
structure ClusterSt where
  /-- CCLK in use: 0, 1, 2 for 1.3, 1.1, 0.9 GHz -/
  cclk : Nat := 0
  /-- a setting that has fallen due and waits for the lap to end -/
  due : Option Nat := none
  switching : Bool := false
  quarantined : Bool := false
  /-- the heat whose lap the cluster holds -/
  holder : Option Nat := none
  /-- the heat whose lap was granted the cluster and has not started yet (R251) -/
  granted : Option Nat := none
  /-- replays of the epoch (R90) -/
  replays : Nat := 0
  replayRaised : Bool := false
deriving DecidableEq, Repr, Inhabited

/-- The thermal and power response (R489 to R491). -/
structure Thermal where
  /-- latest readings of the 24 sensors with the board offset applied, in 0.125 °C -/
  temps : List Int := []
  /-- step level: 0, 1, 2 for 1.3, 1.1, 0.9 GHz -/
  level : Nat := 0
  /-- fabric time NS of the last step -/
  lastStep : Option Nat := none
  /-- fabric time since which the step condition has held at every sample -/
  condSince : Option Nat := none
  /-- fabric time since which every reading allows a step up -/
  coolSince : Option Nat := none
  /-- fabric time since which every reading allows the stop to end -/
  resumeSince : Option Nat := none
  /-- some sensor read 105 °C or above at the last sample -/
  hot : Bool := false
  stopped : Bool := false
  /-- node power of the last two closed epochs in mW, latest first -/
  powers : List Nat := []
  /-- BMC effecters (R449) -/
  powerCap : Nat := 360
  stepC : Int := 95
  hostIgnore : Bool := false
  /-- rail readings in 0.1 % of nominal, by rail -/
  rails : Map Int := .empty
deriving DecidableEq, Repr, Inhabited

/-- The applied calibration (R503 to R506). -/
structure Cal where
  /-- DEVICE_STATUS.CAL: 0 record applied, 1 no record, 2 record rejected -/
  state : Nat := 0
  record : Option (BitVec 4096) := none
  digest : BitVec 384 := 0
deriving DecidableEq, Repr, Inhabited

/-! ## Fabric time (chapter 2) -/

/-- The reset value of the time base record of R39. -/
def timeRecReset : BitVec 128 := BitVec.ofNat 128 (pack [(48, 16, 1000), (38, 10, 100), (27, 11, 20), (24, 1, 1)])

/-- The time base (R34 to R39). -/
structure TimeBase where
  /-- fabric time: NS in bits 79:16, FRAC in 15:0 (R34) -/
  fabric : BitVec 80 := 0
  /-- the fraction below FRAC that the 32-bit fraction of the increment carries (R35) -/
  sub : BitVec 16 := 0
  /-- increment of each TCLK cycle: 8 integer and 32 fraction bits (R35) -/
  incr : BitVec 40 := 0x100000000
  enabled : Bool := false
  /-- the record of R39; RO fields live in it -/
  record : BitVec 128 := timeRecReset
  /-- values written and not yet in effect (R445) -/
  shadow : Option (BitVec 128) := none
  everLocked : Bool := false
  inLock : Nat := 0
  outLock : Nat := 0
  driftRaised : Bool := false
  /-- rank of each port's valid master (R36) -/
  master0 : Option Nat := none
  master1 : Option Nat := none
  /-- increments of the last 64 Sync messages, latest first (R37) -/
  incrs : List (BitVec 40) := []
  /-- the epoch in progress is IRREGULAR (R38) -/
  irregular : Bool := false
  /-- the accounting epoch in progress -/
  epoch : Nat := 0
deriving DecidableEq, Repr, Inhabited

/-! ## Host interface (chapter 14) -/

/-- TDISP interface states (R406). -/
inductive Tdisp where
  | unlocked | configLocked | run | error
deriving DecidableEq, Repr, Inhabited

/-- What one function of a port holds (R426 to R440). -/
structure FuncSt where
  cmdBase : BitVec 64 := 0
  rspBase : BitVec 64 := 0
  evtBase : BitVec 64 := 0
  ringCtrl : BitVec 64 := 0
  cmdTail : BitVec 16 := 0
  cmdHead : BitVec 16 := 0
  rspHead : BitVec 16 := 0
  evtHead : BitVec 16 := 0
  /-- the node's own indices and phases -/
  rspTail : BitVec 16 := 0
  evtTail : BitVec 16 := 0
  evtLost : BitVec 32 := 0
  cfgErr : Bool := false
  cmdErr : Bool := false
  evtOvf : Bool := false
  intCtrl : BitVec 64 := 0
  /-- the domain the function is assigned to; the physical function has domain 0 -/
  assigned : Option Nat := none
  /-- latch of TIME_0 to TIME_2 (R427) -/
  latch : BitVec 80 := 0
  /-- fetched commands without a final response (R437) -/
  outstanding : Nat := 0
  /-- fabric time NS of the last signal of each ring vector -/
  signalled : Map Nat := .empty
  /-- ring vectors that wait for the end of their holdoff -/
  heldVecs : List Nat := []
  /-- MSI-X: Function Mask, masked vectors, pending vectors (R434) -/
  maskAll : Bool := false
  masked : List Nat := []
  msixPending : List Nat := []
  tdisp : Tdisp := .unlocked
deriving DecidableEq, Repr, Inhabited

/-- A fetched command that has answered ACCEPTED and waits for its final response (R454). -/
structure Flight where
  port : Port := 0
  func : Func := 0
  tag : BitVec 16 := 0
  opcode : Nat := 0
  domain : Nat := 0
  key : ObjKey := .none
  /-- fabric time NS of the ordering point -/
  stamp : Nat := 0
  /-- the session whose secured service this is (R404) -/
  session : Option Nat := none
  /-- output buffer the command named -/
  outAddr : Nat := 0
  /-- the approved-service indicator of its responses (R391) -/
  approved : Bool := false
  /-- CORR of the request when the command was forwarded to this node, with the forwarding node (R344) -/
  remote : Option (Nat × Nat) := none
  /-- a number the command keeps until it ends: the selected fields, a position, a count -/
  arg : Nat := 0
deriving DecidableEq, Repr, Inhabited

/-- A response of a sealed domain that waits for its epoch (R414). -/
structure Delayed where
  release : Nat := 0
  port : Port := 0
  func : Func := 0
  /-- the entry without its PHASE -/
  entry : Nat := 0
  final : Bool := true
deriving DecidableEq, Repr, Inhabited

/-! ## Security (chapter 13) -/

/-- Module states (R391). -/
inductive ModState where
  | selfTest | approved | nonApproved | error | zeroised
deriving DecidableEq, Repr, Inhabited

/-- MODULE_STATE of DEVICE_STATUS. -/
def ModState.code : ModState → Nat
  | .selfTest => 0 | .approved => 1 | .nonApproved => 2 | .error => 3 | .zeroised => 4

/-- Life-cycle states (R415). -/
inductive LifeCycle where
  | manufacture | provisioned | operational | returned | scrapped
deriving DecidableEq, Repr, Inhabited

/-- The code of measurement index 3 (R405). -/
def LifeCycle.code : LifeCycle → Nat
  | .manufacture => 0 | .provisioned => 1 | .operational => 2 | .returned => 3 | .scrapped => 4

/-- The security fuses (R415). -/
structure Fuses where
  romDigest : BitVec 384 := Config.romDigest
  vendorDigest : BitVec 384 := Config.vendorDigest
  fuseRoot : BitVec 256 := 0
  owner0 : BitVec 384 := 0
  owner1 : BitVec 384 := 0
  owner2 : BitVec 384 := 0
  owner3 : BitVec 384 := 0
  serial : BitVec 64 := Config.serial
  lcProv : BitVec 3 := 0
  lcOper : BitVec 3 := 0
  lcRet : BitVec 3 := 0
  lcScrap : BitVec 3 := 0
deriving DecidableEq, Repr, Inhabited

/-- An SPDM session (R403, R404). -/
structure Session where
  /-- true: a KEY_EXCHANGE setup session; false: an operational PSK session -/
  setup : Bool := true
  port : Port := 0
  /-- digest of the requester's public keys (R392) -/
  requester : Nat := 0
  /-- FINISH has verified both signatures -/
  finished : Bool := false
  lastMsg : Nat := 0
  /-- the PSK hint that KEM_EXCHANGE step 1 returned, until the ciphertext comes -/
  hint : Option Nat := none
  /-- to be ended once its running services complete (R404) -/
  ending : Bool := false
deriving DecidableEq, Repr, Inhabited

/-- A hybrid pre-shared key not yet used (R403). -/
structure Psk where
  requester : Nat := 0
  madeAt : Nat := 0
  setup : Nat := 0
deriving DecidableEq, Repr, Inhabited

/-- The SPDM connection of one port (R401, R402). -/
structure SpdmConn where
  negotiated : Bool := false
  unexpected : Bool := false
  /-- a signed response whose companion ALT_SIG may fetch -/
  companion : Bool := false
  /-- the requester has supplied its own companion -/
  supplied : Bool := false
deriving DecidableEq, Repr, Inhabited

/-- Erase or reset work that runs after the response (R420, R459). -/
structure Erase where
  /-- true: SCRAPPED; false: RETURNED -/
  scrap : Bool := false
deriving DecidableEq, Repr, Inhabited

/-- The security block (R388 to R420). -/
structure Security where
  mod : ModState := .selfTest
  /-- DEVICE_STATUS.SELFTEST_FAIL -/
  failCode : Nat := 0
  /-- a SELFTEST command runs -/
  testing : Bool := false
  debugOpened : Bool := false
  fuses : Fuses := {}
  /-- the LC_NONCE nonce, until its first use (R417) -/
  nonce : Option (BitVec 256) := none
  sessions : Map Session := .empty
  psks : Map Psk := .empty
  conn0 : SpdmConn := {}
  conn1 : SpdmConn := {}
  /-- IDE stream keys, by port * 16 + stream; 0 is the link stream (R406) -/
  ide : Map Nat := .empty
  /-- identity keys present (R398) -/
  identity : Bool := false
  /-- metadata key identity, none when there is none (R285) -/
  metaKey : Option Nat := none
  metaRekeying : Option Nat := none
  /-- a running crypto-erase (R420) -/
  erase : Option Erase := none
  /-- random values drawn so far -/
  draws : Nat := 0
  /-- key identities handed out so far -/
  keys : Nat := 0
deriving DecidableEq, Repr, Inhabited

/-- States of a tenant domain (R407). -/
inductive DomState where
  | free | active | resetting
deriving DecidableEq, Repr, Inhabited

/-- STATE of the domain record. -/
def DomState.code : DomState → Nat
  | .free => 0 | .active => 1 | .resetting => 2

/-- A tenant domain: the record of R407, its key, its controlling port and its running reset. -/
structure DomainSt where
  state : DomState := .free
  owner : BitVec 384 := 0
  slice : Nat := 0
  sealed : Bool := false
  /-- identity of the domain key (R411) -/
  key : Option Nat := none
  ctrlPort : Port := 0
  /-- the reset under way ends in FREE (R408) -/
  destroying : Bool := false
deriving DecidableEq, Repr, Inhabited

/-- STATE of a slice record (R27). -/
inductive SliceState where
  | disabled | enabled | draining
deriving DecidableEq, Repr, Inhabited

/-- A slice: the record of R27 (its STATE field is `state`), its shadow, and its held marks' order. -/
structure SliceSt where
  record : BitVec 128 := 0
  shadow : Option (BitVec 128) := none
  state : SliceState := .disabled
deriving DecidableEq, Repr, Inhabited

/-- Margin thresholds at reset (R474). -/
def marginReset : BitVec 64 := BitVec.ofNat 64 (pack [(28, 8, 30), (24, 4, 5), (16, 8, 180), (8, 8, 15), (0, 8, 15)])

/-- A margin source: outside its threshold, and readings back inside since (R387). -/
structure MarginSt where
  raised : Bool := false
  good : Nat := 0
  /-- readings outside in a row (R386: a rail warns at the fourth) -/
  bad : Nat := 0
deriving DecidableEq, Repr, Inhabited

end Sys2Proof.Machine
end

