-- ==== Sys2Proof/Machine/RecordsChan.lean ====
section
/-! DEFINITION. The records the node holds, third part: DRAM channels and row operations (chapter 10). Default values
are the values after reset. -/

namespace Sys2Proof.Machine

/-- STATE of a channel record (R266). -/
inductive ChanState where
  | untrained | trained | degraded | failed | mismatch
deriving DecidableEq, Repr, Inhabited

/-- The 3-bit code of STATE. -/
def ChanState.code : ChanState → Nat
  | .untrained => 0 | .trained => 1 | .degraded => 2 | .failed => 3 | .mismatch => 4

/-- The thresholds and period of a channel record at reset (R266). -/
def chanRecReset : BitVec 24 := BitVec.ofNat 24 (pack [(16, 8, 20), (8, 8, 15), (0, 8, 10)])

/-- A DRAM channel: the record of R266, its shadow, what is fitted, and its slot frame. -/
structure ChanSt where
  state : ChanState := .untrained
  eyeRd : Nat := 0
  eyeWr : Nat := 0
  levelMv : Nat := 0
  crcRetries : Nat := 0
  refMult : Nat := 0
  /-- WARN_EYE, WARN_MV and RETRAIN, in bits 23:0 of the record -/
  cfg : BitVec 24 := chanRecReset
  shadow : Option (BitVec 24) := none
  /-- density code and organisation read from the devices (R259) -/
  density : Nat := 0
  clamshell : Bool := false
  /-- slot blocks since training ended (R64) -/
  block : Nat := 0
  /-- banks whose refresh the last window issued (R263), lowest of four -/
  refreshed : Nat := 0
  /-- steps taken of the retraining pass in progress, none between passes (R265) -/
  pass : Option Nat := none
  /-- fabric time NS at which the last pass ended, and a pass wanted before its time (R265, R268) -/
  lastPass : Nat := 0
  wanted : Bool := false
deriving DecidableEq, Repr, Inhabited

/-- A row operation accepted and not finished (R273, R275): its record, and the rows each channel has
done. -/
structure RowOpSt where
  op : Nat := 0
  rows : Nat := 0
  srcA : Nat := 0
  srcB : Nat := 0
  dst : Nat := 0
  /-- its number among the row operations since reset, which names it to the running command -/
  id : Nat := 0
  /-- the tenant domain charged -/
  domain : Nat := 0
  /-- rows done, by channel -/
  doneRows : Map Nat := .empty
deriving DecidableEq, Repr, Inhabited

end Sys2Proof.Machine
end

