-- ==== Sys2Proof/Machine/RecordsDir.lean ====
section
/-! DEFINITION. The records the node holds, fifth part: the prefix directory (chapter 8), the page selector and vector
collections (chapter 7). Default values are the values after reset. -/

namespace Sys2Proof.Machine

/-! ## Prefix directory -/

/-- A directory entry that is VALID or INVALID (R216). A place that no table lists is EMPTY. -/
structure DirEntry where
  hash : Nat := 0
  depthM1 : Nat := 0
  model : Nat := 0
  domain : Nat := 0
  valid : Bool := true
  /-- ORIGIN: host-directed publication -/
  byHost : Bool := false
  record : Nat := 0
deriving DecidableEq, Repr, Inhabited

/-- A row record (R219, R220), kept by its handle. HOLDS may be 0 until the record is released. -/
structure RowRec where
  hash : Nat := 0
  depthM1 : Nat := 0
  model : Nat := 0
  domain : Nat := 0
  parent : Option Nat := none
  broken : Bool := false
  holds : Nat := 1
  groupMask : Nat := 0
  frames : List Nat := []
deriving DecidableEq, Repr, Inhabited

/-- A host-directed update of the directory that waits for a bank (R227): one PREFIX_PUBLISH item. -/
structure PubItem where
  seq : Nat := 0
  replaces : Bool := false
  depth : Nat := 0
  hash : Nat := 0
  parentHash : Nat := 0
  /-- a reserved bit of the item is set -/
  bad : Bool := false
deriving DecidableEq, Repr, Inhabited

/-- What waits in the queue of a bank (R224). -/
inductive DirJob where
  /-- node-internal publication of a row of a sequence (R225) -/
  | node (seq row : Nat)
  /-- items left of a host's publication: the first goes to this bank (R227, R229) -/
  | host (work : Nat) (index : Nat) (items : List PubItem)
  /-- retraction of a key (R227) -/
  | retract (work : Nat) (model depth hash : Nat)
deriving DecidableEq, Repr, Inhabited

/-- A domino shift in progress (R224): the EMPTY place, the place the new entry goes to, and the job that
follows a host's publication. -/
structure DirShift where
  hole : Nat := 0
  goal : Nat := 0
  entry : DirEntry := {}
  next : Option DirJob := none
deriving DecidableEq, Repr, Inhabited

/-- A bank of the directory: its entries by address, and its running shift (R218, R224). -/
structure DirBank where
  entries : Map DirEntry := .empty
  shift : Option DirShift := none
deriving DecidableEq, Repr, Inhabited

/-- The prefix directory. -/
structure DirSt where
  /-- banks by number, and the jobs that wait for each -/
  banks : Map DirBank := .empty
  queues : Map (List DirJob) := .empty
  records : Map RowRec := .empty
  /-- counters of R226, by (domain * 65536 + model) * 8 + place -/
  counters : Map Nat := .empty
  /-- number of the next host-directed work -/
  works : Nat := 0
deriving DecidableEq, Repr, Inhabited

/-! ## Page selector -/

/-- Index states (R193). -/
inductive IdxState where
  | none | building | active | rebuilding
deriving DecidableEq, Repr, Inhabited

/-- A list entry (R190): the page, the cluster whose array holds it, its list in the set in use. -/
structure IdxEntry where
  page : Nat := 0
  cluster : Nat := 0
  sketch : Nat := 0
  visible : Bool := false
  gone : Bool := false
  list : Nat := 0
deriving DecidableEq, Repr, Inhabited

/-- A centroid set that is complete and waits for its commit (R192, R193). -/
structure IdxSet where
  centroids : List Nat := []
  /-- the list of each page -/
  lists : Map Nat := .empty
deriving DecidableEq, Repr, Inhabited

/-- The index of a (sequence, layer, group) row on this node (R190 to R194), or of a collection. -/
structure IndexSt where
  state : IdxState := .none
  entries : List IdxEntry := []
  centroids : List Nat := []
  /-- index cluster (R191) -/
  home : Nat := 0
  nBuild : Nat := 0
  /-- pages of the build under way -/
  building : List Nat := []
  /-- after INDEX_ROOM, the count at which the build is tried again -/
  retryAt : Nat := 0
  /-- a finished set that waits for the commit -/
  ready : Option IdxSet := none
  /-- pages whose entries become visible at the next commit -/
  fresh : List Nat := []
  /-- the set is released at the next commit -/
  release : Bool := false
deriving DecidableEq, Repr, Inhabited

/-- A selection request (R186, R201). -/
structure SelReq where
  cluster : Nat := 0
  heat : Nat := 0
  slot : Nat := 0
  group : Nat := 0
  layer : Nat := 0
  seq : Nat := 0
  /-- causal limit and window start (R154, R156) -/
  c : Nat := 0
  w0 : Nat := 0
  /-- decode step it was posted in, and the lap's number -/
  step : Nat := 0
  lap : Nat := 0
  /-- query heads as FP32 bits, head by head; none when some element is not finite -/
  heads : Option (List (List Nat)) := none
  /-- retrieved pages asked for, and the heat's selector record -/
  k : Nat := 0
  selRec : BitVec 64 := 0
deriving DecidableEq, Repr, Inhabited

/-- A committed list (R196, R201). -/
structure SelList where
  seq : Nat := 0
  step : Nat := 0
  pages : List Nat := []
  isPartial : Bool := false
deriving DecidableEq, Repr, Inhabited

/-- An audit that waits (R206): its request, and the list the query committed. -/
structure Audit where
  req : SelReq := {}
  list : List Nat := []
  /-- the cluster's share of the query (R197) -/
  share : Nat := 0
deriving DecidableEq, Repr, Inhabited

/-! ## Vector collections -/

/-- A collection (R208 to R211). -/
structure CollSt where
  port : Port := 0
  format : Nat := 0
  dim : Nat := 1
  sketchBits : Nat := 256
  params : BitVec 64 := 0
  capacity : Nat := 1
  /-- item frames in order of ordinal, then sketch frames, then index frames -/
  frames : List Nat := []
  itemFrames : Nat := 0
  sketchFrames : Nat := 0
  /-- ITEM_ID by ordinal -/
  items : Map Nat := .empty
  /-- sketch entries, by ordinal in the place of the page, with the centroid set -/
  index : IndexSt := {}
deriving DecidableEq, Repr, Inhabited

/-- A collection query that waits at its merge node (R213). -/
structure MergeSt where
  k : Nat := 1
  need : Nat := 1
  deadline : Nat := 0
  outAddr : Nat := 0
  port : Port := 0
  /-- contributors merged, and their records as (id, score) -/
  got : List Nat := []
  records : List (Nat × Nat) := []
  isPartial : Bool := false
deriving DecidableEq, Repr, Inhabited

/-- The selector. -/
structure SelSt where
  /-- indexes, by sequence * 2^14 + layer * 64 + group -/
  indexes : Map IndexSt := .empty
  /-- queued requests, oldest first -/
  queue : List SelReq := []
  /-- committed lists, by `listKey` -/
  lists : Map SelList := .empty
  /-- queries run, by heat * 32 + cluster; audits that wait, oldest first -/
  queries : Map Nat := .empty
  audits : List Audit := []
  /-- AUDITED, EXACT, OVERLAP, AUDIT_SKIPPED, by (domain * 65536 + model) * 4 + place -/
  auditCounts : Map Nat := .empty
  /-- collections, by domain * 256 + number; merges, by (domain * 256 + number) * 2^32 + QUERY_ID -/
  colls : Map CollSt := .empty
  merges : Map MergeSt := .empty
deriving DecidableEq, Repr, Inhabited

end Sys2Proof.Machine
end

