-- ==== Sys2Proof/Machine/RecordsMem.lean ====
section
/-! DEFINITION. The records the node holds, second part: page memory, sequences. Default values are the
values after reset. -/

namespace Sys2Proof.Machine

/-! ## Page memory (chapter 4) -/

/-- The reset value of the page memory record (R98). -/
def memRecReset : BitVec 64 := BitVec.ofNat 64 (pack [(48, 16, 1024), (34, 14, 1024)])

/-- Frame states (R107). -/
inductive FrameState where
  | free | reserved | opened | sealing | sealed | shared | replica | migrating | quarantined
deriving DecidableEq, Repr, Inhabited

/-- STATE of a frame-table entry (R107). -/
def FrameState.code : FrameState → Nat
  | .free => 0 | .reserved => 1 | .opened => 2 | .sealing => 3 | .sealed => 4 | .shared => 5 | .replica => 6
  | .migrating => 7 | .quarantined => 8

/-- The page header of a sidecar (R95). -/
structure PageHdr where
  identity : Nat := 0
  page : Nat := 0
  filled : Nat := 0
  kFmt : Nat := 0
  vFmt : Nat := 0
  latent : Bool := false
  quartersM1 : Nat := 0
  sealed : Bool := false
  layer : Nat := 0
  group : Nat := 0
deriving DecidableEq, Repr, Inhabited

/-- A page as it is stored or carried: header, payload bytes (little-endian number), block write counters, sketch,
landmarks, and which blocks or sidecar no longer verify (assumption 6). -/
structure PageData where
  hdr : PageHdr := {}
  payload : Nat := 0
  /-- 32 write counters of 16 bits -/
  counters : BitVec 512 := 0
  sketch : BitVec 256 := 0
  landmarks : BitVec 4096 := 0
  version : Nat := 0
  /-- identity of the key its blocks are written under; none when that key is gone -/
  key : Option Nat := none
  /-- blocks whose tag no longer verifies, and the sidecar's own tag -/
  badBlocks : BitVec 32 := 0
  badSidecar : Bool := false
deriving DecidableEq, Repr, Inhabited

/-- The slack record of a frame (R111) with the occupant's bytes. -/
structure SlackRec where
  /-- 1 replica, 2 prefetch -/
  kind : Nat := 1
  quarters : Nat := 1
  domain : Nat := 0
  origin : Nat := 0
  age : Nat := 0
  seq : Nat := 0
  data : PageData := {}
deriving DecidableEq, Repr, Inhabited

/-- What a MIGRATING frame is for (R109). -/
inductive MigSide where
  /-- source; its former state, its destination frame (or the node it moves to) -/
  | source (former : FrameState) (dst : Nat)
  /-- destination of a copy from a frame -/
  | dest (src : Nat)
  /-- destination of a repair of a frame -/
  | repair (src : Nat)
  /-- destination of a reopen of a frame: the offset it ends at, written or not -/
  | reopen (src : Nat) (filled : Nat) (written : Bool)
  /-- destination of a page that another node moves here, in sealed form or open -/
  | incoming (node : Nat) (asSealed : Bool)
deriving DecidableEq, Repr, Inhabited

/-- A frame: its frame-table entry (R107), sidecar and payload (R94, R95), slack occupant (R111), retire stamp (R119).
A frame that no list names is FREE and was never written since page memory was enabled. -/
structure FrameSt where
  version : Nat := 0
  refs : Nat := 0
  pins : Nat := 0
  qmap : BitVec 8 := 0
  state : FrameState := .free
  domain : Nat := 0
  retiring : Bool := false
  damaged : Bool := false
  heldRemote : Bool := false
  link : BitVec 36 := 0
  data : PageData := {}
  slack : Option SlackRec := none
  /-- retire stamp: the lap number last assigned when REFS reached 0 -/
  stamp : Nat := 0
  mig : Option MigSide := none
  /-- after reclamation the frame still has to pass the row-engine test (R110) -/
  test : Bool := false
  /-- the sequence whose open page a REPLICA frame holds, and the node it came from (R360) -/
  replicaOf : Nat := 0
deriving DecidableEq, Repr, Inhabited

/-- SLACK_LOW arming of a channel (R113). -/
structure SlackArm where
  /-- the count has reached SLACK_LOW since page memory was enabled -/
  reached : Bool := false
  /-- the event was raised and the count has not since risen above 2 × SLACK_LOW -/
  quiet : Bool := false
deriving DecidableEq, Repr, Inhabited

/-- A leaf entry of a page map (R104). `loc` 1 is this node, 2 another node. -/
structure Leaf where
  node : Nat := 0
  frame : Nat := 0
  loc : Nat := 0
  global : Bool := false
deriving DecidableEq, Repr, Inhabited

/-- Page memory as a whole. -/
structure PageMem where
  /-- the record of R98 -/
  record : BitVec 64 := memRecReset
  shadow : Option (BitVec 64) := none
  /-- frames per channel (R99), 0 while disabled -/
  fch : Nat := 0
  /-- bulk-window share per channel in bytes, R_w × 2,048 -/
  bulkShare : Nat := 0
  frames : Map FrameSt := .empty
  /-- reserved pools, by slice * 20 + channel (R114), head first -/
  pools : Map (List Nat) := .empty
  arms : Map SlackArm := .empty
  /-- per-node serial of content identities (R95) -/
  serial : Nat := 0
  /-- node lap counter (R119) -/
  lapNo : Nat := 0
  /-- page-map pool: blocks placed so far, and bytes in use per channel -/
  placed : Nat := 0
  poolUsed : Map Nat := .empty
deriving DecidableEq, Repr, Inhabited

/-- States of a sequence (R103). -/
inductive SeqState where
  | free | idle | running | abandoned | lost
deriving DecidableEq, Repr, Inhabited

/-- STATE of a sequence descriptor. -/
def SeqState.code : SeqState → Nat
  | .free => 0 | .idle => 1 | .running => 2 | .abandoned => 3 | .lost => 4

/-- Bounds of the replication promise (R364). -/
inductive Bound where
  | sBounded | lostOnFailure | noReplication
deriving DecidableEq, Repr, Inhabited

/-- BOUND of the replication status. -/
def Bound.code : Bound → Nat
  | .sBounded => 0 | .lostOnFailure => 1 | .noReplication => 2

/-- States of an ownership record (R367). -/
inductive OwnState where
  | held | offered | abandoned
deriving DecidableEq, Repr, Inhabited

/-- STATE of an ownership record. -/
def OwnState.code : OwnState → Nat
  | .held => 0 | .offered => 1 | .abandoned => 2

/-- An ownership record (R367). Functions are coded as FUNC of R304. -/
structure OwnRec where
  expiry : Nat := 0
  epoch : Nat := 0
  /-- fabric time NS of the end of the handoff; the record shows it in µs modulo 2^32 -/
  deadline : Nat := 0
  leaseMs : Nat := 0
  state : OwnState := .held
  accepted : Bool := false
  offerNode : Nat := 0
  offerFunc : Nat := 0
  ownerNode : Nat := 0
  ownerFunc : Nat := 0
deriving DecidableEq, Repr, Inhabited

/-- What one holder of a sequence last reported of its replicas (R349 HELD_REPORT). -/
structure HeldBy where
  held : Nat := 0
  missing : Nat := 0
  late : Nat := 0
deriving DecidableEq, Repr, Inhabited

/-- A change of a sequence's placement that waits for the heat's next layer-0 acceptance (R356, R359, R377). -/
structure MapChange where
  /-- 0 migration commit, 1 spill, 2 rollback -/
  kind : Nat := 0
  heat : Nat := 0
  length : Nat := 0
  groupMask : Nat := 0
  stripes : List Nat := []
  /-- group a migration moves, and its incoming frames by row and page -/
  group : Nat := 0
deriving DecidableEq, Repr, Inhabited

/-- A SEQ_TRUNCATE under way: the position, and each destination frame (R120). -/
structure Truncate where
  position : Nat := 0
  dests : List Nat := []
  /-- sources that the copies hold pinned (R108) -/
  pinned : List Nat := []
deriving DecidableEq, Repr, Inhabited

/-- A PREFIX_ATTACH whose walk runs (R230): the record it starts from and the depth asked for. -/
structure Attach where
  record : Nat := 0
  depth : Nat := 0
deriving DecidableEq, Repr, Inhabited

/-- A sequence descriptor (R103) with its page map (R104) and what the node keeps beside it. Keyed by global ID. -/
structure SeqSt where
  domain : Nat := 0
  model : Nat := 0
  state : SeqState := .idle
  heat : Nat := 0
  slot : Nat := 0
  ctrlPort : Port := 0
  /-- starting block: 0 none, 1 on this node, 2 on a spill node -/
  sb : Nat := 0
  sbFrames : List Nat := []
  sbRow : Nat := 0
  spillNode : Nat := 0
  length : Nat := 0
  maxCtxM1 : Nat := 0
  resume : Nat := 0
  l1Span : Nat := 0
  l1Addr : Nat := 0
  /-- bytes of the level-1 block placed on this node -/
  l1Bytes : Nat := 0
  globalsAddr : Nat := 0
  /-- pages pinned by the host (R158) -/
  globals : List Nat := []
  groupMask : Nat := 0
  /-- leaf entries, by (layer * 64 + group) * 2^20 + page -/
  leaves : Map Leaf := .empty
  /-- level-1 entries: channel and address of each leaf placed, by level-1 index -/
  leafAddrs : Map Nat := .empty
  /-- stripe nodes in stripe order (R352); the home's authoritative list -/
  stripes : List Nat := []
  /-- GROUP_MASK of each stripe node, as the home knows it -/
  masks : Map Nat := .empty
  /-- chain hashes by page index (R215) -/
  hashes : Map Nat := .empty
  /-- publication cursor (R225): the record's handle, HASH and DEPTH_M1; none is NONE -/
  cursor : Option (Nat × Nat × Nat) := none
  /-- first row that publication has not considered yet -/
  rowTried : Nat := 0
  /-- replication interval S (R361), held position, late steps, bound, reports of the holders -/
  replS : Nat := 8
  held : Nat := 0
  late : Nat := 0
  bound : Bound := .sBounded
  everHeld : Bool := false
  reports : Map HeldBy := .empty
  /-- positions of the open rows already sent to the partner, and held by it (R361) -/
  sentTo : Nat := 0
  batchHeld : Nat := 0
  own : OwnRec := {}
  /-- fabric time NS of the last renewal the heat node sent (R370) -/
  renewed : Nat := 0
  /-- filter bitmap in the bulk window: offset, length (R199) -/
  filter : Option (Nat × Nat) := none
  /-- a binding written while the sequence runs, in effect at the heat's next mark (R199) -/
  filterNext : Option (Option (Nat × Nat)) := none
  /-- LENGTH at a failure, until it is reached again (R148, R377) -/
  damagedTo : Option Nat := none
  /-- the sequence waits for a rollback: slots are inert (R377) -/
  awaiting : Bool := false
  change : Option MapChange := none
  trunc : Option Truncate := none
  attach : Option Attach := none
  /-- the stripe node this node answers for; release acknowledgements still awaited (R465) -/
  acks : List Nat := []
  /-- a group that moves onto this node: group, pages that have arrived -/
  moving : Option (Nat × List Nat) := none
deriving DecidableEq, Repr, Inhabited

/-! ## Models and courses (chapters 3, 6, 15) -/

/-- A registered model (R461, R462). -/
structure ModelSt where
  record : BitVec 512 := 0
  /-- FP32 sink values by query head (R149) -/
  sinks : List Nat := []
  /-- identity of the installed weight key -/
  key : Option Nat := none
  loaded : Bool := false
  damaged : Bool := false
  /-- plaintext of the package, its length, its measurement -/
  weights : Nat := 0
  weightBytes : Nat := 0
  digest : BitVec 384 := 0
  generation : Nat := 0
  /-- directory bank base and bank count granted at registration (R217) -/
  bankBase : Nat := 0
deriving DecidableEq, Repr, Inhabited

/-- Course states (R80). -/
inductive CourseState where
  | verifying | loaded
deriving DecidableEq, Repr, Inhabited

/-- A course in the store (R80): an absent one is EMPTY. -/
structure CourseSt where
  state : CourseState := .verifying
  domain : Nat := 0
  /-- the image as one little-endian number, and the length the command gave -/
  image : Nat := 0
  length : Nat := 0
  digest : BitVec 384 := 0
deriving DecidableEq, Repr, Inhabited

/-! ## Heats and laps (chapters 2, 3, 9) -/

/-- STATE of a heat record (R234). -/
inductive HeatState where
  | stopped | running | stopping
deriving DecidableEq, Repr, Inhabited

/-- STATE bits of a heat record. -/
def HeatState.code : HeatState → Nat
  | .stopped => 0 | .running => 1 | .stopping => 2

/-- The part a slot takes in a decode step (R239). -/
inductive Part where
  | idle | inert | appends | attends
deriving DecidableEq, Repr, Inhabited

/-- A slot of a heat. -/
structure SlotSt where
  seq : Option Nat := none
  part : Part := .idle
  /-- the status its layer-0 row fixed (R239), repeated on inert decode steps -/
  status : Status := .ok
  /-- the status of this step's row (R240) -/
  rowStatus : Status := .ok
  /-- this step the slot runs -/
  runs : Bool := false
  joined : Bool := false
  left : Bool := false
  retryUs : Nat := 0
  /-- LOST or removal on lease expiry, until the next layer-0 row (R248 order 3) -/
  gone : Option Status := none
deriving DecidableEq, Repr, Inhabited

/-- One row bank of a heat's step window (R46, R431): 64-byte granules written since the last accepted mark. -/
structure Bank where
  granules : Map (BitVec 512) := .empty
  poisoned : Bool := false
deriving DecidableEq, Repr, Inhabited

/-- A held step mark (R47 order 8). -/
structure HeldMark where
  step : BitVec 32 := 0
  /-- place among the held marks of the node, oldest lowest -/
  order : Nat := 0
  layer : Nat := 0
  entry : Nat := 0
deriving DecidableEq, Repr, Inhabited

/-- A page of a lap's page list (R81): its index, its frame, or its node when it lies elsewhere, and what became of it. -/
structure LapPage where
  page : Nat := 0
  frame : Nat := 0
  /-- first attended offset, and one past the last (R158) -/
  first : Nat := 0
  stop : Nat := 0
  /-- excluded: over a maximum, damaged, or declared excluded -/
  excluded : Bool := false
deriving DecidableEq, Repr, Inhabited

/-- Why a lap does not run in a cluster. -/
inductive LapPhase where
  /-- accepted; the 41-edge count runs, or it waits for a grant or a context slot (R50, R86) -/
  | waiting
  | running
  /-- parked for a page fault (R87): not ready until resolved -/
  | faultPark
  /-- parked for pre-emption: ready -/
  | preemptPark
  /-- MAR.END issued -/
  | ended
  /-- the cluster was quarantined under the lap (R90) -/
  | abandoned
deriving DecidableEq, Repr, Inhabited

/-- One 64-byte unit of core scratch: its format code, the bytes, and what the unit's contents belong to. -/
structure Scr where
  fmt : Nat := 7
  /-- (slot * 64 + group) * 16 + first head, of the data the unit holds; none for shared data -/
  own : Option Nat := none
  data : BitVec 512 := 0
deriving DecidableEq, Repr, Inhabited

/-- What a lap has accumulated in one cluster, saved and restored at hurdles: page lists by slot * 64 + group (R81), and
attended, excluded and non-finite counts and flags by (slot * 64 + group) * 16 + head (R171). -/
structure LapWork where
  pages : Map (List LapPage) := .empty
  attended : Map Nat := .empty
  excluded : Map Nat := .empty
  nonfinite : Map Nat := .empty
  flags : Map Nat := .empty
deriving DecidableEq, Repr, Inhabited

/-- A page copy in the cluster page buffer: its frame, the stored bytes as they were read, and whether all of it is there
(R67, R82). -/
structure BufPage where
  frame : Nat := 0
  copy : PageData := {}
  /-- the page was read whole; false: a page fault at its EXP.PAGE -/
  whole : Bool := true
  /-- its reads passed their tags (R283) -/
  authOk : Bool := true
deriving DecidableEq, Repr, Inhabited

/-- The page a core's expander holds: its reference, and the buffer address of its copy (R62). -/
structure ExpSt where
  slot : Nat := 0
  group : Nat := 0
  ord : Nat := 0
  addr : Nat := 0
deriving DecidableEq, Repr, Inhabited

/-- Scores of an MXE.ATT that its paired VEC.SMX has not taken yet: the operands, and the raw scores of the attended
offsets as FP32 bits, head by head (R159, R161). -/
structure AttPend where
  a : Nat := 0
  b : Nat := 0
  c : Nat := 0
  first : Nat := 0
  scores : List (List Nat) := []
deriving DecidableEq, Repr, Inhabited

/-- A lap in one cluster. -/
structure LapCl where
  phase : LapPhase := .waiting
  /-- fabric time NS at lap start in this cluster, and its WAIT in CCLK (R48, R50) -/
  start : Nat := 0
  wait : Nat := 0
  /-- next hurdle ordinal, parity attempts of the segment (R87) -/
  hurdle : Nat := 0
  attempts : Nat := 0
  /-- a transfer of the segment had a parity error (R84) -/
  parity : Bool := false
  /-- pages of the segment that were not in the buffer: slot, group, ordinal, and the buffer address -/
  faults : List (Nat × Nat × Nat × Nat) := []
  /-- CCLK offset of the last hurdle passed -/
  lastAt : Nat := 0
  work : LapWork := {}
  savedWork : LapWork := {}
  savedScratch : Map Scr := .empty
  /-- the page each core's expander holds; a core that is not listed holds none -/
  expander : Map ExpSt := .empty
  /-- scores that wait for their VEC.SMX, by core -/
  scores : Map AttPend := .empty
  /-- seals made by this lap in this cluster -/
  seals : Nat := 0
  /-- heads whose baton has been sent, keyed as above -/
  sent : List Nat := []
  /-- earliest lap start in this cluster, fabric time NS (R251) -/
  readyAt : Nat := 0
deriving DecidableEq, Repr, Inhabited

/-- A baton (R170, R171): running maximum, sum and value vector as FP32 bits, and the descriptor's counts and flags. -/
structure Baton where
  m : Nat := 0xFF800000
  l : Nat := 0
  o : List Nat := []
  attended : Nat := 0
  excluded : Nat := 0
  nonfinite : Nat := 0
  flags : Nat := 0
deriving DecidableEq, Repr, Inhabited

/-- A running lap (R20, R49, R51). -/
structure LapSt where
  /-- node lap number (R119) -/
  number : Nat := 0
  step : BitVec 32 := 0
  layer : Nat := 0
  /-- fabric time NS at acceptance -/
  accept : Nat := 0
  /-- result entry it writes (R244) -/
  entry : Nat := 0
  cls : Map LapCl := .empty
  /-- frames of the starting blocks of sequences that left: they go back at the lap's end (R49) -/
  leaving : List Nat := []
  /-- every term was folded and the result written (R178) -/
  folded : Bool := false
  /-- batons at the relay stage, by head key * 4096 + source (cluster, or 32 + stripe index) (R170) -/
  batons : Map Baton := .empty
  /-- partial-output shares at the relay stage, by slot * 4096 + source -/
  shares : Map (List Nat) := .empty
  /-- slot summaries of stripe nodes (R314), by slot * 64 + stripe index -/
  remote : Map Nat := .empty
  /-- the normalised heads as multicast to the input areas (R176), in 64-byte units; none before -/
  heads : Option (List Nat) := none
deriving DecidableEq, Repr, Inhabited

/-- A heat (R234): its record, slots, step window banks, held mark and lap. -/
structure HeatSt where
  /-- the record of R234 without STATE -/
  record : BitVec 192 := 0
  shadow : Option (BitVec 192) := none
  state : HeatState := .stopped
  /-- the function HEAT_CREATE came from -/
  func : Func := 0
  expected : BitVec 32 := 0
  layer : Nat := 0
  last : Option (BitVec 32) := none
  /-- marks admitted since HEAT_CREATE (R244) -/
  admitted : Nat := 0
  stepBase : Nat := 0
  rowBytes : Nat := 0
  entryBytes : Nat := 0
  bankBytes : Nat := 0
  slots : Map SlotSt := .empty
  bank0 : Bank := {}
  bank1 : Bank := {}
  held : Option HeldMark := none
  lap : Option LapSt := none
  /-- selector record (R189) and its shadow -/
  selRec : BitVec 64 := 0
  selShadow : Option (BitVec 64) := none
  /-- the heat is destroyed once its lap ends (R409, R424, R442) -/
  doomed : Bool := false
  /-- stripe heat: the node that sends its marks (R315) -/
  master : Option Nat := none
deriving DecidableEq, Repr, Inhabited

/-! ## Placement (chapter 12) -/

/-- A capacity report of a node for a domain (R350): frames, class, and the epoch it arrived in. -/
structure CapReport where
  free : Nat := 0
  total : Nat := 0
  sealed : Bool := false
  arrival : Nat := 0
deriving DecidableEq, Repr, Inhabited

/-- The placement record at reset (R346). -/
def placeRecReset : BitVec 64 :=
  BitVec.ofNat 64 (pack [(46, 6, 7), (32, 14, 100), (24, 8, 16), (17, 7, 5), (16, 1, 1), (8, 8, 5)])

/-- A management request that waits for its reply (R348). -/
inductive Asked where
  /-- STRIPE_REQ of a stripe search: the search's number, the candidate -/
  | stripe (search node : Nat)
  /-- STRIPE_REQ for a spill row: the sequence, the candidate -/
  | spill (seq node : Nat)
  /-- PAIR_REQ: the requester's queue, the node -/
  | pair (queue node : Nat)
  /-- CMD_FORWARD of the running command with this flight number -/
  | forward (node : Nat)
  /-- FAIL_NOTICE to a node -/
  | notice (failed node : Nat)
  /-- SEQ_RELEASE of a sequence to a node -/
  | release (seq node : Nat)
  /-- MAP_UPDATE of a sequence to a node -/
  | update (seq node : Nat)
deriving DecidableEq, Repr, Inhabited

/-- A pending request: what it asked and when (fabric time NS). -/
structure Request where
  what : Asked := .forward 0
  sent : Nat := 0
deriving DecidableEq, Repr, Inhabited

/-- A stripe search under way (R352, R355). -/
structure Search where
  /-- a spill search of a stripe node; otherwise the search of SEQ_CREATE -/
  spill : Bool := false
  domain : Nat := 0
  port : Port := 0
  func : Func := 0
  /-- fabric time NS of the command -/
  stamp : Nat := 0
  /-- the SEQ_CREATE payload -/
  payload : Nat := 0
  /-- candidates not yet asked, in order -/
  todo : List Nat := []
  accepted : List Nat := []
  /-- every refusal so far was NO_HEADROOM -/
  onlyRoom : Bool := true
deriving DecidableEq, Repr, Inhabited

/-- Placement, replication and failure (chapter 12). -/
structure Placement where
  record : BitVec 64 := placeRecReset
  shadow : Option (BitVec 64) := none
  /-- locality entries by node: TRAY in 31:16, LEAF in 15:0 (R347) -/
  locality : Map (BitVec 32) := .empty
  /-- capacity reports, by node * 64 + domain -/
  reports : Map CapReport := .empty
  /-- domains with a failed search in the current report period (R357) -/
  failedSearch : List Nat := []
  /-- pending requests by CORR; the next CORR -/
  asked : Map Request := .empty
  corr : Nat := 1
  searches : Map Search := .empty
  /-- failed nodes and their acting homes (R375) -/
  failed : Map Nat := .empty
  /-- a partner chosen after the first failed (R379) -/
  partner : Option Nat := none
  /-- fabric time NS of the last packet of each node that this node is the partner of (R374) -/
  heard : Map Nat := .empty
  /-- descriptors and ownership records this node holds for the homes it is partner of (R360) -/
  replicas : Map SeqSt := .empty
  /-- the node itself was declared failed (R375) -/
  stopped : Bool := false
  /-- domains for which REPLICA_DEGRADED was raised as absent on the partner (R365) -/
  absent : List Nat := []
  /-- degraded replicas reported and not yet cleared: sequences -/
  degraded : List Nat := []
  /-- ports by which this node's functions took sequences homed elsewhere, by sequence (R369) -/
  offers : Map Port := .empty
deriving DecidableEq, Repr, Inhabited

end Sys2Proof.Machine
end

