-- ==== Sys2Proof/Machine/RecordsNet.lean ====
section
/-! DEFINITION. The records the node holds, fourth part: the Coriskano transport (chapter 11). Default values are the
values after reset. -/

namespace Sys2Proof.Machine

/-- The Ethernet port record at reset (R294). -/
def ethRecReset : BitVec 320 := BitVec.ofNat 320 (pack [(80, 16, 0xB50E), (74, 6, 34), (68, 6, 10), (62, 6, 48)])

/-- An Ethernet port (R292 to R294): its record without LINK, LINK, and until when a frame is on the wire, in 1/256 ns. -/
structure EthSt where
  record : BitVec 320 := ethRecReset
  link : Nat := 0
  busyUntil : Nat := 0
deriving DecidableEq, Repr, Inhabited

/-- A protection domain (R303): its tenant domain and the identities of its job keys by phase (R339). -/
structure PdSt where
  domain : Nat := 0
  key0 : Option Nat := none
  key1 : Option Nat := none
  /-- phase of the key installed last: the one used for sending -/
  phase : Nat := 0
deriving DecidableEq, Repr, Inhabited

/-- A region that is VALID or REVOKING (R304, R305). One that no table lists is FREE. -/
structure RegionSt where
  record : BitVec 256 := 0
  revoking : Bool := false
  func : Nat := 0
  domain : Nat := 0
deriving DecidableEq, Repr, Inhabited

/-- STATE of a work queue (R307). -/
inductive QState where
  | reset | ready | error
deriving DecidableEq, Repr, Inhabited

/-- The 2-bit code of STATE. -/
def QState.code : QState → Nat
  | .reset => 0 | .ready => 1 | .error => 2

/-- What a message of the node's own Puppeteer is for. -/
inductive Purpose where
  /-- a host's work request, or an answer -/
  | host
  /-- a management message: MTYPE, CORR -/
  | mgmt (mtype corr : Nat)
  /-- a sealed page sent to the partner (R360): the sequence, the frame -/
  | replica (seq frame : Nat)
  /-- open positions sent to the partner (R361): the sequence, positions below the number -/
  | batch (seq upTo : Nat)
  /-- a page moved to another node (R359): the sequence, the frame -/
  | move (seq frame : Nat)
  /-- step traffic of a striped heat (R315) or a baton (R314) -/
  | step
  /-- SELECT_MERGE of a collection query (R213): the flight's domain, collection and QUERY_ID -/
  | merge (domain coll queryId : Nat)
  /-- the FLUSH of a replication queue at a flush point (R41) -/
  | flush
deriving DecidableEq, Repr, Inhabited

/-- A message being sent (R319 to R326). Bitmaps are by packet. -/
structure SendMsg where
  op : Nat := 0
  wr : WorkRequest := {}
  total : Nat := 0
  addr : Nat := 0
  key : Nat := 0
  atop : Nat := 0
  ext : Nat := 0
  extLen : Nat := 0
  data : Nat := 0
  packets : Nat := 1
  /-- sendings so far of each packet, and fabric time NS of the last -/
  sent : Map Nat := .empty
  lastSent : Map Nat := .empty
  acked : Nat := 0
  /-- packets that have left a port at least once -/
  left : Nat := 0
  rounds : Nat := 0
  timer : Nat := 0
  /-- resends after NACK BUSY; a resend is due RTO after the last NACK -/
  rnr : Nat := 0
  rnrAt : Option Nat := none
  /-- the request was completed at the sender -/
  completed : Bool := false
  /-- the whole message was acknowledged as complete -/
  whole : Bool := false
  /-- key phase it is protected under (R339) -/
  phase : Nat := 0
  purpose : Purpose := .host
deriving DecidableEq, Repr, Inhabited

/-- A message being received (R320, R321). -/
structure RecvMsg where
  op : Nat := 0
  total : Nat := 0
  addr : Nat := 0
  key : Nat := 0
  atop : Nat := 0
  ext : Nat := 0
  attn : Bool := false
  solicit : Bool := false
  packets : Nat := 1
  bitmap : Nat := 0
  data : Nat := 0
  /-- fabric time NS of the last arrival; acknowledgements sent -/
  last : Nat := 0
  acks : Nat := 0
  complete : Bool := false
  /-- the message was refused with a NACK (R306, R311, R312) -/
  refused : Option Status := none
  /-- the receive request a SEND fills -/
  rq : Option WorkRequest := none
deriving DecidableEq, Repr, Inhabited

/-- A work queue, or the management endpoint's state for one peer (R307, R308, R318). Messages are kept by MSG_ID, answers
(READ_RESP, ATOMIC_RESP, FLUSH_RESP) by 2^32 + MSG_ID. -/
structure QueueSt where
  /-- the record of R307 without STATE and FUNC -/
  record : BitVec 256 := 0
  state : QState := .ready
  func : Nat := 0
  domain : Nat := 0
  /-- an internal queue: PURPOSE of R349 and its heat -/
  internal : Option Nat := none
  heat : Nat := 0
  /-- posted and not yet sent, oldest first; free-running tails of the rings -/
  sq : List WorkRequest := []
  sqTail : Nat := 0
  rq : List WorkRequest := []
  rqTail : Nat := 0
  nextId : Nat := 0
  sent : Map SendMsg := .empty
  /-- messages of the management endpoint that wait for the window (R318) -/
  later : List SendMsg := []
  low : Nat := 0
  recv : Map RecvMsg := .empty
  /-- path label counters per port (R298) -/
  label0 : Nat := 0
  label1 : Nat := 0
  /-- recorded at the sender for the next FLUSH_RESP (R325), and the first message not placed at the receiver since the
  last FLUSH (R330) -/
  recorded : Option Status := none
  unplaced : Option Status := none
  /-- trigger list and tag counts (R312) -/
  parked : List WorkRequest := []
  tags : Map Nat := .empty
  /-- fault record (R327) -/
  fault : BitVec 128 := 0
  /-- since when the message at LOW has been missing while a later one has arrived (R318) -/
  gapSince : Option Nat := none
deriving DecidableEq, Repr, Inhabited

/-- A completion queue (R310). -/
structure CqSt where
  base : Nat := 0
  log2 : Nat := 6
  vector : Nat := 0
  port : Port := 0
  func : Func := 0
  domain : Nat := 0
  armed : Bool := false
  /-- entries written and consumed, free-running -/
  tail : Nat := 0
  head : Nat := 0
  error : Bool := false
deriving DecidableEq, Repr, Inhabited

/-- The shaper record at reset (R333). -/
def shaperReset : BitVec 64 := BitVec.ofNat 64 (pack [(27, 16, 1000), (21, 6, 20)])

/-- A shaper (R333, R334): its record, E in 1/256 ns, the wheel slot it waits in counted from time 0, and whether it
waits on the overflow list. -/
structure ShaperSt where
  record : BitVec 64 := shaperReset
  e : Nat := 0
  wheel : Option Nat := none
  far : Bool := false
deriving DecidableEq, Repr, Inhabited

/-- An ingress policer (R336): RATE, DEPTH, tokens in 1/8,000 byte, and when they were last brought up to date. -/
structure PolicerSt where
  rate : Nat := 0
  depth : Nat := 1
  tokens : Nat := 0
  last : Nat := 0
deriving DecidableEq, Repr, Inhabited

/-- What a frame in the egress queue carries. -/
inductive EgrKind where
  /-- packet `index` of the message kept under `key` -/
  | data (key index txn : Nat) (retx : Bool)
  | ack (msgId : Nat) (complete : Bool)
  | nack (msgId : Nat)
  | ptp
deriving DecidableEq, Repr, Inhabited

/-- A frame in the egress queue (R335): class 0 is control, 1 to 3 are CLASS 0 to 2. -/
structure EgrPkt where
  port : Port := 0
  cls : Nat := 0
  queue : Nat := 0
  dst : Nat := 0
  len : Nat := 64
  domain : Nat := 0
  shaper : Nat := 0
  udpSrc : Nat := 0
  kind : EgrKind := .ptp
deriving DecidableEq, Repr, Inhabited

/-- The transport (chapter 11). -/
structure NetSt where
  eth0 : EthSt := {}
  eth1 : EthSt := {}
  /-- node address table (R295): plane 0 address in bits 127:0; an unlisted node does not exist -/
  addrs : Map (BitVec 256) := .empty
  fencedNodes : List Nat := []
  pds : Map PdSt := .empty
  regions : Map RegionSt := .empty
  /-- generation of each region index's current or next key -/
  regionGen : Map Nat := .empty
  queues : Map QueueSt := .empty
  cqs : Map CqSt := .empty
  /-- queue shapers 1 to 4,095, domain shapers 4,096 + d, slice shapers 5,000 + 2 × slice + port, pools 6,000 + port -/
  shapers : Map ShaperSt := .empty
  policers : Map PolicerSt := .empty
  /-- frames waiting to leave, oldest first -/
  egress : List EgrPkt := []
deriving DecidableEq, Repr, Inhabited

end Sys2Proof.Machine
end

