-- ==== Sys2Proof/Machine/State.lean ====
section
/-! DEFINITION. The whole state of the node, its reasons to stop, and the state after a cold reset. -/

namespace Sys2Proof.Machine

/-- No command ends in a fault: every command runs, is refused with a status, or has no effect. -/
inductive Fault where
  /-- Never raised: a place for a stop that no rule of the spec asks for (safe). -/
  | none
deriving DecidableEq, Repr

/-- Reasons a command has no meaning here. -/
inductive Refusal where
  /-- Raised by the dispatcher for a command whose meaning is not written (safe). -/
  | notModelled (mnemonic : String)
deriving DecidableEq, Repr

/-- The node. -/
structure State where
  /-- commands that wait, first in first out (the model's own) -/
  pending : List Instr := []
  /-- what has left the node, newest first (the model's own, assumption 8) -/
  out : List Output := []
  /-- free values used so far (the model's own, assumption 3) -/
  free : Nat := 0
  boot : Boot := {}
  port0 : PortSt := {}
  port1 : PortSt := {}
  clusters : Map ClusterSt := .empty
  thermal : Thermal := {}
  cal : Cal := {}
  time : TimeBase := {}
  /-- functions, by port * 64 + function -/
  funcs : Map FuncSt := .empty
  flights : List Flight := []
  delayed : List Delayed := []
  sec : Security := {}
  domains : Map DomainSt := .empty
  slices : Map SliceSt := .empty
  /-- margin thresholds (R474) and sources (R386) -/
  marginRec : BitVec 64 := marginReset
  marginShadow : Option (BitVec 64) := none
  margins : Map MarginSt := .empty
  /-- counter sets of R475, by set * 65536 + index * 256 + place -/
  counters : Map Nat := .empty
  /-- DRAM channels, by number; row operations in the order accepted; the bulk window's bytes by window offset (R269) -/
  chans : Map ChanSt := .empty
  rowOps : List RowOpSt := []
  rowOpNo : Nat := 0
  bulk : List Host.Cell := []
  mem : PageMem := {}
  /-- sequences, by global ID; generations of the local indices (R103) -/
  seqs : Map SeqSt := .empty
  seqGen : Map Nat := .empty
  /-- models, by domain * 65536 + number -/
  models : Map ModelSt := .empty
  courses : Map CourseSt := .empty
  heats : Map HeatSt := .empty
  place : Placement := {}
  net : NetSt := {}
  dir : DirSt := {}
  sel : SelSt := {}
  /-- core scratch, by (cluster * 4 + core) * 16384 + unit -/
  scratch : Map Scr := .empty
  /-- cluster page buffers, by (cluster * 4096 + heat) * 2^17 + buffer address -/
  buffer : Map BufPage := .empty
  /-- accounting counters of the epoch in progress, by domain * 32 + field; closed records by epoch * 64 + domain, and
  the node's own records by epoch (R253, R254) -/
  acct : Map Nat := .empty
  closed : Map (BitVec 1024) := .empty
  nodeRecs : Map (BitVec 1024) := .empty
  /-- order number of the next held mark -/
  heldNext : Nat := 0
  /-- share records by domain and the arbitration record (R250), with shadows -/
  shares : Map (BitVec 32) := .empty
  shareShadow : Map (BitVec 32) := .empty
  arb : BitVec 32 := 262144
  arbShadow : Option (BitVec 32) := none
  /-- deficits, by cluster * 64 + domain (R251) -/
  deficits : Map Int := .empty
  /-- DMA fault records, by mover 0 to 27 (R290) -/
  dma : Map (BitVec 128) := .empty
  /-- the node's number and partition key (R31), set before the partition's restart -/
  nodeNo : Nat := 0
  partition : BitVec 16 := 0
  /-- the node is partition-fenced (R384) -/
  fenced : Bool := false
deriving DecidableEq, Repr

/-- The node right after a cold reset: POR_N is low, and every field is as its record says. -/
def State.reset : State := {}

end Sys2Proof.Machine
end

