-- ==== Sys2Proof/Machine/Base.lean ====
section
/-! DEFINITION. Time, free values and outputs: what every other operation uses. -/

namespace Sys2Proof.Machine

/-- The result of a meaning. -/
abbrev Res := Host.Outcome State Fault Refusal

/-! ## Time -/

/-- Fabric time NS (R34). -/
def State.ns (s : State) : Nat := s.time.fabric.toNat / 65536

/-- Fabric time in accounting epochs (R40). -/
def epochOf (ns : Nat) : Nat := ns / 1000000

/-- The clock has reached the stamp of a command or event; it never goes back (assumption 2). It runs only once the
time base is enabled (R500). -/
def clockTo (s : State) (now : Nat) : State :=
  if s.time.enabled && decide (s.ns < now) then
    { s with time := { s.time with fabric := BitVec.ofNat 80 (now * 65536) } }
  else s

/-- One TCLK cycle: the increment is added to fabric time, with the fraction that FRAC does not hold (R35). -/
def tclkCycle (s : State) : State :=
  if s.time.enabled then
    let sum := s.time.fabric.toNat * 65536 + s.time.sub.toNat + s.time.incr.toNat
    { s with time := { s.time with fabric := BitVec.ofNat 80 (sum / 65536), sub := BitVec.ofNat 16 sum } }
  else s

/-- One free value, and the counter behind it. -/
def freeVal (s : State) : Nat := (Config.freeValue s.free).toNat

/-- The counter of free values advances. -/
def useFree (s : State) : State := { s with free := s.free + 1 }

/-! ## Outputs -/

/-- Something leaves the node. -/
def emit (s : State) (o : Output) : State := { s with out := o :: s.out }

end Sys2Proof.Machine
end

