-- ==== Sys2Proof/Machine/Flags.lean ====
section
/-! DEFINITION. Flags: the life-cycle state read from its fuses, the conditions that DEVICE_STATUS shows, and the two
read-only identity registers (R98, R396, R415, R416, R426, R499). The node has no arithmetic flags. -/

namespace Sys2Proof.Machine

/-- A life-cycle bit is set when at least two of its three fuses are blown (R415). -/
def lcSet (b : BitVec 3) : Bool := decide (2 ≤ popCount b.toNat 3)

/-- The life-cycle state: the highest set bit (R415). -/
def lifeCycle (s : State) : LifeCycle :=
  if lcSet s.sec.fuses.lcScrap then .scrapped
  else if lcSet s.sec.fuses.lcRet then .returned
  else if lcSet s.sec.fuses.lcOper then .operational
  else if lcSet s.sec.fuses.lcProv then .provisioned
  else .manufacture

/-- The highest-numbered non-zero OWNER slot (R415). -/
def ownerSlot (s : State) : Option (Nat × BitVec 384) :=
  let x := s.sec.fuses
  if x.owner3 ≠ 0 then some (3, x.owner3) else if x.owner2 ≠ 0 then some (2, x.owner2)
  else if x.owner1 ≠ 0 then some (1, x.owner1) else if x.owner0 ≠ 0 then some (0, x.owner0) else none

/-- FUSE_ROOT is released: PROVISIONED or OPERATIONAL, debug not opened since the last cold reset (R416). -/
def rootReleased (s : State) : Bool :=
  (lifeCycle s == .provisioned || lifeCycle s == .operational) && !s.sec.debugOpened

/-- Page memory is enabled (R98). -/
def pageOn (s : State) : Bool := rb s.mem.record 0

/-- Mailbox ready (R499, R396). -/
def ready (s : State) : Bool := s.boot.phase == .ready && s.sec.mod != .error

/-- DEVICE_STATUS. -/
def deviceStatus (s : State) : Nat :=
  pack [(24, 8, s.sec.failCode), (22, 2, s.cal.state), (21, 1, b2n (pageOn s)), (20, 1, b2n s.boot.failed),
    (19, 1, b2n s.fenced), (18, 1, b2n s.boot.identityFault), (15, 3, (lifeCycle s).code),
    (12, 3, s.sec.mod.code), (0, 1, b2n (ready s))]

/-- MSI-X vectors of a function (R434). -/
def vectorsOf (f : Func) : Nat := if f = 0 then 2048 else 64

/-- DEVICE_INFO of a function. -/
def deviceInfo (p : Port) (f : Func) : Nat :=
  pack [(48, 16, 0x4831), (40, 8, 0xA1), (39, 1, b2n Config.grade48), (16, 12, vectorsOf f), (7, 1, p.val), (0, 7, f.val)]

end Sys2Proof.Machine
end

