-- ==== Sys2Proof/Machine/NetCore.lean ====
section
/-! DEFINITION. Building packets and putting them into the egress queue, and the sending side of the management endpoint
(R296, R298, R318, R319, R326). -/

namespace Sys2Proof.Machine

/-- Change the transport. -/
def modNet (s : State) (g : NetSt → NetSt) : State := { s with net := g s.net }

/-- A work queue, or a peer of the management endpoint. -/
def getWq (s : State) (k : Nat) : Option QueueSt := s.net.queues.get? k

/-- Replace a work queue. -/
def setWq (s : State) (k : Nat) (q : QueueSt) : State := modNet s fun n => { n with queues := n.queues.set k q }

/-- Change a work queue where it exists. -/
def modWq (s : State) (k : Nat) (g : QueueSt → QueueSt) : State := modNet s fun n => { n with queues := n.queues.modify k g }

/-- Fields of the work queue record (R307). -/
def qPeerNode (q : QueueSt) : Nat := rf q.record 127 116
def qPeerQueue (q : QueueSt) : Nat := rf q.record 115 100
def qPd (q : QueueSt) : Nat := rf q.record 99 88
def qCq (q : QueueSt) : Nat := rf q.record 87 74
def qSqLog2 (q : QueueSt) : Nat := rf q.record 73 70
def qRqLog2 (q : QueueSt) : Nat := rf q.record 69 66
def qShaper (q : QueueSt) : Nat := rf q.record 65 54
def qClass (q : QueueSt) : Nat := rf q.record 53 52
def qPaths (q : QueueSt) : Nat := rf q.record 51 46 + 1
def qPorts (q : QueueSt) : Nat := rf q.record 45 44
def qRetry (q : QueueSt) : Nat := rf q.record 43 40
def qRnr (q : QueueSt) : Nat := rf q.record 39 36
def qRto (q : QueueSt) : Nat := rf q.record 35 28 * 1000

/-- Key of a management endpoint peer. -/
def mgmtKey (node : Nat) : Nat := 65536 + node

/-- The record of the management endpoint for a peer: CLASS 2, RTO 16 µs, RETRY 15, 8 paths, both ports (R318). -/
def mgmtRecord (node : Nat) : BitVec 256 :=
  BitVec.ofNat 256 (pack [(116, 12, node), (52, 2, 2), (46, 6, 7), (44, 2, 3), (40, 4, 15), (28, 8, 16)])

/-- An Ethernet port. -/
def ethOf (s : State) (p : Port) : EthSt := if p = 0 then s.net.eth0 else s.net.eth1

/-- Replace an Ethernet port. -/
def setEth (s : State) (p : Port) (v : EthSt) : State :=
  modNet s fun n => if p = 0 then { n with eth0 := v } else { n with eth1 := v }

/-- The port's link is up and the port is enabled. -/
def ethUp (s : State) (p : Port) : Bool := (ethOf s p).link == 2 && rb (ethOf s p).record 0

/-- A node of the partition that is not fenced (R295, R341). -/
def nodeReachable (s : State) (n : Nat) : Bool := s.net.addrs.has n && !s.net.fencedNodes.contains n

/-- The node carries no Coriskano traffic: partition-fenced, in ERROR, or stopped as failed (R375, R384, R396). -/
def trafficOff (s : State) : Bool := s.fenced || s.sec.mod == .error || s.place.stopped

/-- The domain is sealed: its packets carry ENC and a 16-byte tag (R337). -/
def sealedDomain (s : State) (d : Nat) : Bool :=
  match s.domains.get? d with | some v => v.sealed && v.state != .free | none => false

/-- The port packet `i` of message `n` leaves on (R298); a retransmission prefers the other one. -/
def packetPort (s : State) (q : QueueSt) (n i : Nat) (other : Option Port) : Port :=
  let ok := fun (p : Port) => bit (qPorts q) p.val && ethUp s p
  if ok 0 && ok 1 then
    match other with
    | some p => if p = 0 then 1 else 0
    | none => if (i + n) % 2 = 0 then 0 else 1
  else if ok 1 then 1 else 0

/-- Payload bytes of packet `i` of a message of `total` bytes (R319). -/
def packetBytes (total i : Nat) : Nat := min 4096 (total - 4096 * i)

/-- Packets of a message: READ, FLUSH, FLUSH_RESP carry no payload and are one packet (R300, R319). -/
def packetsOf (op total : Nat) : Nat := if op = 2 ∨ op = 7 ∨ op = 8 then 1 else max 1 (ceilDiv total 4096)

/-- Payload bytes that packet `i` of a message carries. -/
def payloadOf (op total i : Nat) : Nat := if op = 2 ∨ op = 7 ∨ op = 8 then 0 else packetBytes total i

/-- Frame length of a data packet (R296, R337). -/
def frameLen (s : State) (d extLen pay : Nat) : Nat := 100 + 16 * extLen + pay + (if sealedDomain s d then 16 else 4)

/-- Build packet `i` of a message and put it into the egress queue: port, path label, TXN (R298, R326). -/
def sendPacket (s : State) (qk mk i : Nat) (retx : Bool) : State :=
  match getWq s qk with
  | none => s
  | some q => match q.sent.get? mk with
    | none => s
    | some m =>
      let txn := m.sent.getD i 0
      let p := packetPort s q (mk % 2 ^ 32) i (if retx then some (packetPort s q (mk % 2 ^ 32) (i + txn - 1) none) else none)
      let label := (if p = 0 then q.label0 else q.label1) % qPaths q
      let pkt : EgrPkt :=
        { port := p, cls := qClass q + 1, queue := qk, dst := qPeerNode q,
          len := frameLen s q.domain m.extLen (payloadOf m.op m.total i), domain := q.domain, shaper := qShaper q,
          udpSrc := 0xC000 + 256 * label + qk % 256, kind := .data mk i txn retx }
      let m := { m with sent := m.sent.set i (txn + 1), lastSent := m.lastSent.set i s.ns, timer := s.ns }
      let q := { q with sent := q.sent.set mk m, label0 := if p = 0 then q.label0 + 1 else q.label0,
                        label1 := if p = 0 then q.label1 else q.label1 + 1 }
      modNet (setWq s qk q) fun n => { n with egress := n.egress ++ [pkt] }

/-- Every packet of a message is built for the first time. -/
def sendAll (s : State) (qk mk packets : Nat) : State :=
  (List.range packets).foldl (fun s i => sendPacket s qk mk i false) s

/-- A queue takes a message under its next MSG_ID and builds it. -/
def launch (s : State) (qk : Nat) (m : SendMsg) : State :=
  match getWq s qk with
  | none => s
  | some q =>
    let id := q.nextId % 2 ^ 32
    let m := { m with packets := packetsOf m.op m.total, timer := s.ns,
                      phase := ((s.net.pds.get? (qPd q)).map (·.phase)).getD 0 }
    let s := setWq s qk { q with nextId := (q.nextId + 1) % 2 ^ 32, sent := q.sent.set id m }
    sendAll (emit s (.message (qPeerNode q) qk m.op id m.addr m.total m.ext m.data)) qk id m.packets

/-- Messages of a queue that are not acknowledged as complete, answers left out (R322). -/
def unacked (q : QueueSt) : Nat := q.sent.fold (fun n k m => if k < 2 ^ 32 ∧ !m.whole then n + 1 else n) 0

/-- A management message as bytes: header, then body (R348). -/
def mgmtBytes (mtype corr len body : Nat) : Nat :=
  pack [(64, 32, len), (32, 32, corr), (16, 8, 1), (0, 16, mtype)] + body * 2 ^ 128

/-- Hand a management message to the endpoint (R318): nothing goes to a node that does not exist or is fenced, nor from a
partition-fenced node (R341, R384). -/
def sendMgmt (s : State) (dst mtype corr len body : Nat) : State :=
  if trafficOff s || !nodeReachable s dst || dst == s.nodeNo then s
  else
    let s := emit s (.mgmt dst mtype corr len body)
    let k := mgmtKey dst
    let s := if (getWq s k).isSome then s else setWq s k { record := mgmtRecord dst }
    let m : SendMsg := { op := 4, total := 16 + len, data := mgmtBytes mtype corr len body, purpose := .mgmt mtype corr }
    match getWq s k with
    | none => s
    | some q => if unacked q < 64 then launch s k m else setWq s k { q with later := q.later ++ [m] }

/-! ## Internal queues (R307, R315, R349) -/

/-- A work queue number lies in the range of no slice (R25). -/
def outsideSlices (s : State) (k : Nat) : Bool :=
  !(s.slices.any fun _ v => v.state != .disabled &&
    (decide (rf v.record 90 75 ≤ k) && decide (k < rf v.record 90 75 + rf v.record 107 91)))

/-- The highest free queue number outside every slice's range. -/
def freeInternal (s : State) : (fuel : Nat) → Option Nat
  | 0 => none
  | n + 1 => if s.net.queues.has n || !outsideSlices s n then freeInternal s n else some n

/-- The record of an internal queue to a peer: CLASS, 8 paths, both ports, RETRY 7, RTO 16 µs as at reset (R307). -/
def internalRecord (node peer cls : Nat) : BitVec 256 :=
  BitVec.ofNat 256 (pack [(116, 12, node), (100, 16, peer), (52, 2, cls), (46, 6, 7), (44, 2, 3), (40, 4, 7), (36, 4, 7), (28, 8, 16)])

/-- A request that waits for its reply gets the next CORR (R348). -/
def ask (s : State) (what : Asked) : Nat × State :=
  let c := s.place.corr
  (c, { s with place := { s.place with corr := (c + 1) % 2 ^ 32,
                                       asked := s.place.asked.set c { what := what, sent := s.ns } } })

/-- The internal queue to a node for a purpose: the one there is, or a new one that PAIR_REQ asks to pair (R349,
assumption 25). -/
def internalQueue (s : State) (purpose node heat domain cls : Nat) : Option Nat × State :=
  match s.net.queues.find? fun k q => q.internal == some purpose && qPeerNode q == node && q.heat == heat
      && q.domain == domain && decide (k < 65536) with
  | some (k, _) => (some k, s)
  | none => match freeInternal s 65536 with
    | none => (none, s)
    | some k =>
      let s := setWq s k { record := internalRecord node 0 cls, state := .reset, domain := domain, internal := some purpose, heat := heat }
      let (c, s) := ask s (.pair k node)
      (some k, sendMgmt s node 0x000A c 6 (pack [(0, 16, k), (16, 8, purpose), (24, 8, cls), (32, 16, heat)]))

/-- Send a message on an internal queue, once it is paired and its window allows. -/
def launchInternal (s : State) (qk : Nat) (m : SendMsg) : State :=
  match getWq s qk with
  | none => s
  | some q =>
    if q.state = .ready ∧ unacked q < 64 ∧ q.later.isEmpty then launch s qk m
    else setWq s qk { q with later := q.later ++ [m] }

/-- Messages that waited are sent while the window allows. -/
def drainLater (s : State) (qk : Nat) : (fuel : Nat) → State
  | 0 => s
  | n + 1 => match getWq s qk with
    | none => s
    | some q => match q.later with
      | [] => s
      | x :: t => if q.state = .ready ∧ unacked q < 64 then drainLater (launch (setWq s qk { q with later := t }) qk x) qk n else s

/-- Every node of the partition but this one. -/
def otherNodes (s : State) : List Nat := (s.net.addrs.l.map (·.1)).filter fun n => n != s.nodeNo

end Sys2Proof.Machine
end

