-- ==== Sys2Proof/Machine/Ops.lean ====
section
/-! DEFINITION. Named operations over the state that many commands share: the functions of the two ports,
interrupts, responses, events, counters. -/

namespace Sys2Proof.Machine

/-! ## Functions -/

/-- Index of a function. -/
def fkey (p : Port) (f : Func) : Nat := p.val * 64 + f.val

/-- A function's registers. -/
def getF (s : State) (p : Port) (f : Func) : FuncSt := s.funcs.getD (fkey p f) {}

/-- Replace a function's registers. -/
def setF (s : State) (p : Port) (f : Func) (e : FuncSt) : State := { s with funcs := s.funcs.set (fkey p f) e }

/-- A PCIe port. -/
def getPort (s : State) (p : Port) : PortSt := if p = 0 then s.port0 else s.port1

/-- Replace a PCIe port. -/
def setPort (s : State) (p : Port) (v : PortSt) : State :=
  if p = 0 then { s with port0 := v } else { s with port1 := v }

/-- The domain a function belongs to: 0 for a physical function (R422). -/
def domainOf (s : State) (p : Port) (f : Func) : Option Nat := if f = 0 then some 0 else (getF s p f).assigned

/-- Ring sizes, as the base-2 logarithm (RING_CTRL). -/
def cmdLog2 (e : FuncSt) : Nat := rf e.ringCtrl 7 4
def rspLog2 (e : FuncSt) : Nat := rf e.ringCtrl 11 8
def evtLog2 (e : FuncSt) : Nat := rf e.ringCtrl 15 12

/-- RING_CTRL.ENABLE. -/
def ringsOn (e : FuncSt) : Bool := rb e.ringCtrl 0

/-- RING_STATUS.IDLE. -/
def ringsIdle (e : FuncSt) : Bool := !ringsOn e && e.outstanding == 0

/-- Entries between two free-running 16-bit indices. -/
def between (tail head : BitVec 16) : Nat := (tail - head).toNat

/-- PHASE of the entry at a free-running index: 1 in the first pass, flipped at each wrap (R439). -/
def phaseOf (idx : BitVec 16) (log2 : Nat) : Nat := if idx.toNat / 2 ^ log2 % 2 = 0 then 1 else 0

/-! ## Interrupts -/

/-- Send an MSI-X message, or set the vector's pending bit when it is masked (R434). -/
def msix (s : State) (p : Port) (f : Func) (v : Nat) : State :=
  let e := getF s p f
  if e.maskAll || e.masked.contains v then
    setF s p f { e with msixPending := if e.msixPending.contains v then e.msixPending else v :: e.msixPending }
  else emit s (.msix p f v)

/-- HOLDOFF of INT_CTRL in ns. -/
def holdoff (e : FuncSt) : Nat := rf e.intCtrl 39 32 * 1000

/-- Signal a ring vector: at once when HOLDOFF has passed since its last signal, otherwise at the holdoff's end. -/
def signalRing (s : State) (p : Port) (f : Func) (v : Nat) : State :=
  let e := getF s p f
  match e.signalled.get? v with
  | some t =>
    if t + holdoff e ≤ s.ns then
      msix (setF s p f { e with signalled := e.signalled.set v s.ns }) p f v
    else setF s p f { e with heldVecs := if e.heldVecs.contains v then e.heldVecs else v :: e.heldVecs }
  | none => msix (setF s p f { e with signalled := e.signalled.set v s.ns }) p f v

/-! ## Domains and slices -/

/-- A tenant domain; domain 0 always exists, is shared and bound to no slice (R407). -/
def getD (s : State) (d : Nat) : DomainSt := s.domains.getD d {}

/-- Replace a tenant domain. -/
def setD (s : State) (d : Nat) (v : DomainSt) : State := { s with domains := s.domains.set d v }

/-- A domain that commands may act in. -/
def domActive (s : State) (d : Nat) : Bool := d == 0 || (getD s d).state == .active

/-- A domain is sealed. -/
def domSealed (s : State) (d : Nat) : Bool := (getD s d).sealed && (getD s d).state != .free

/-- The slice a domain is bound to (R26). -/
def sliceOf (s : State) (d : Nat) : Option Nat :=
  if d == 0 || (getD s d).state == .free then none else some (getD s d).slice

/-- A slice. -/
def getS (s : State) (n : Nat) : SliceSt := s.slices.getD n {}

/-- Clusters of a slice, ascending (R27). -/
def sliceClusters (s : State) (n : Nat) : List Nat := bitsOf (rf (getS s n).record 42 23) 20

/-- A cluster. -/
def getC (s : State) (c : Nat) : ClusterSt := s.clusters.getD c {}

/-- Replace a cluster. -/
def setC (s : State) (c : Nat) (v : ClusterSt) : State := { s with clusters := s.clusters.set c v }

/-- The slice a cluster belongs to, none when it belongs to no enabled or draining slice (R25). -/
def clusterSlice (s : State) (c : Nat) : Option Nat :=
  (s.slices.find? fun _ v => v.state != .disabled && bit (rf v.record 42 23) c).map (·.1)

/-- The domain is bound to a slice whose record the function's domain shares. -/
def domInSlice (s : State) (d n : Nat) : Bool := sliceOf s d == some n

/-! ## Counters (R475) -/

/-- Where a counter stands. -/
def ckey (set idx place : Nat) : Nat := set * 65536 + idx * 256 + place

/-- Add to a counter, which saturates at 2^64 − 1. -/
def count (s : State) (set idx place : Nat) (n : Nat := 1) : State :=
  { s with counters := s.counters.upd (ckey set idx place) 0 fun c => satAdd 64 c n }

/-! ## Responses (R439, R414) -/

/-- A response entry without its PHASE. -/
def responseWord (result aux : Nat) (st : Status) (opcode tag domain : Nat) (final approved : Bool) : Nat :=
  pack [(128, 128, result), (64, 64, aux), (48, 16, st.code), (32, 16, opcode), (16, 16, tag), (10, 6, domain),
    (1, 1, b2n final), (0, 1, b2n approved)]

/-- Write a response entry into a function's response ring. -/
def writeResponse (s : State) (p : Port) (f : Func) (word : Nat) (final : Bool) : State :=
  let e := getF s p f
  let idx := e.rspTail
  let entry := BitVec.ofNat 256 (word + phaseOf idx (rspLog2 e) * 2 ^ 8)
  let s := setF s p f { e with rspTail := idx + 1, outstanding := if final then e.outstanding - 1 else e.outstanding }
  let s := emit s (.response p f (idx.toNat % 2 ^ rspLog2 e) entry)
  if rb e.intCtrl 15 then signalRing s p f (rf e.intCtrl 10 0) else s

/-- The epoch boundary at which a sealed domain's response is released (R414). -/
def releaseEpoch (s : State) (stamp : Nat) : Nat := max (ceilDiv stamp 1000000 + 1) (epochOf s.ns + 1)

/-- Answer a command: at once, or at an epoch boundary for a sealed domain. -/
def respond (s : State) (p : Port) (f : Func) (stamp : Nat) (opcode tag domain : Nat) (st : Status)
    (result aux : Nat) (final approved : Bool) : State :=
  let w := responseWord result aux st opcode tag domain final approved
  if domSealed s domain then
    { s with delayed := s.delayed ++ [{ release := releaseEpoch s stamp, port := p, func := f, entry := w, final := final }] }
  else writeResponse s p f w final

/-- The approved-service indicator of a service that runs now (R391). -/
def approvedNow (s : State) : Bool := s.sec.mod == .approved

/-- Answer a forwarded command with CMD_ANSWER: the response entry, and the output of `len` bytes (R349). -/
def answerForward (s : State) (node corr : Nat) (entry len output : Nat) : State :=
  sendMgmt s node 0x0008 corr (40 + len) (entry + len % 2 ^ 32 * 2 ^ 256 + output * 2 ^ 320)

/-- A session that waits for its services to complete ends with the last of them (R404). -/
def serviceEnds (s : State) (session : Option Nat) : State :=
  match session with
  | none => s
  | some k =>
    if (s.sec.sessions.get? k).any (fun x => x.ending) && !(s.flights.any fun g => g.session == some k) then
      { s with sec := { s.sec with sessions := s.sec.sessions.erase k } }
    else s

/-- Write the final response of a command that answered ACCEPTED, or that this node runs for another (R344). -/
def finishFlight (s : State) (g : Flight) (st : Status) (result aux : Nat) : State :=
  let s := serviceEnds s g.session
  match g.remote with
  | some (corr, node) =>
    answerForward s node corr (responseWord result aux st g.opcode g.tag.toNat g.domain true g.approved) 0 0
  | none => respond s g.port g.func g.stamp g.opcode g.tag.toNat g.domain st result aux true g.approved

/-- End every running command that passes a test, with a status. -/
def finishWhere (s : State) (q : Flight → Bool) (st : Status) (result aux : Nat) : State :=
  let gs := s.flights.filter q
  let s := { s with flights := s.flights.filter fun g => !q g }
  gs.foldl (fun s g => finishFlight s g st result aux) s

/-- The running command on an object, with an opcode. -/
def flightOn (s : State) (key : ObjKey) (opcode : Nat) : Option Flight :=
  s.flights.find? fun g => g.key == key && g.opcode == opcode

/-- An asynchronous command runs on the object (R455). -/
def objBusy (s : State) (key : ObjKey) : Bool :=
  key != .none && s.flights.any fun g => g.key == key

/-! ## Events (R440, R477, R478) -/

/-- The functions of both ports, physical first. -/
def allFuncs : List (Port × Func) :=
  (List.finRange 64).map (fun f => (0, f)) ++ (List.finRange 64).map (fun f => (1, f))

/-- Both physical functions. -/
def bothPf : List (Port × Func) := [(0, 0), (1, 0)]

/-- An event without its PHASE: code, reason, source, domain, time, payload. -/
def eventWord (code reason source domain time payload : Nat) (cleared : Bool := false) : Nat :=
  pack [(128, 376, payload), (64, 64, time), (50, 6, domain), (49, 1, b2n cleared), (32, 16, source),
    (16, 16, reason), (0, 16, code)]

/-- Deliver one event to one function, or drop and count it when the ring is full or disabled (R440). -/
def deliver (s : State) (w : Nat) (pf : Port × Func) : State :=
  let e := getF s pf.1 pf.2
  if ringsOn e && decide (between e.evtTail e.evtHead < 2 ^ evtLog2 e) then
    let entry := BitVec.ofNat 512 (w + phaseOf e.evtTail (evtLog2 e) * 2 ^ 504)
    let s := setF s pf.1 pf.2 { e with evtTail := e.evtTail + 1 }
    let s := emit s (.event pf.1 pf.2 (e.evtTail.toNat % 2 ^ evtLog2 e) entry)
    if rb e.intCtrl 31 then signalRing s pf.1 pf.2 (rf e.intCtrl 26 16) else s
  else setF s pf.1 pf.2 { e with evtLost := BitVec.ofNat 32 (satAdd 32 e.evtLost.toNat 1), evtOvf := true }

/-- Deliver one event to several functions. -/
def deliverAll (s : State) (w : Nat) (l : List (Port × Func)) : State := l.foldl (fun s pf => deliver s w pf) s

/-- Functions assigned a domain on a port, and that port's physical function (R440). -/
def domainFuncs (s : State) (d : Nat) (p : Port) : List (Port × Func) :=
  (p, 0) :: ((List.finRange 64).filter fun f => f ≠ 0 ∧ (getF s p f).assigned = some d).map fun f => (p, f)

/-- The node is booting: what it raises is reported once it is ready (R499). -/
def booting (s : State) : Bool :=
  match s.boot.phase with | .crystal | .plls | .selfTest | .window | .training => true | _ => false

/-- Raise an event at both physical functions (R440, third row). -/
def raiseNode (s : State) (code reason source domain payload : Nat) : State :=
  let w := eventWord code reason source domain s.ns payload
  if booting s then { s with boot := { s.boot with deferred := s.boot.deferred ++ [w] } } else deliverAll s w bothPf

/-- Raise an event at a domain's functions on a port (R440, first row). -/
def raiseObj (s : State) (code reason source domain : Nat) (p : Port) (payload : Nat) (cleared : Bool := false) : State :=
  deliverAll s (eventWord code reason source domain s.ns payload cleared) (domainFuncs s domain p)

/-- Raise a FAULT of a doorbell or ring check: to the writing function and its port's physical function. -/
def raiseRing (s : State) (p : Port) (f : Func) (reason off value : Nat) : State :=
  let w := eventWord 0x0001 reason 38 ((domainOf s p f).getD 0) s.ns
    (pack [(0, 8, p.val), (8, 8, f.val), (64, 64, off), (128, 64, value)])
  deliverAll s w (if f = 0 then [(p, 0)] else [(p, f), (p, 0)])

/-- Payload of a FAULT with "other reasons" (R478). -/
def otherPayload (seq obj detail : Nat) : Nat := pack [(0, 48, seq), (64, 32, obj), (96, 32, detail)]

/-! ## Keys -/

/-- A fresh key identity (assumption 6). -/
def newKey (s : State) : Nat × State := (s.sec.keys, { s with sec := { s.sec with keys := s.sec.keys + 1 } })

/-- A random value of the bit generator (R390). -/
def draw (s : State) : BitVec 256 × State :=
  (Config.drbg s.sec.draws, { s with sec := { s.sec with draws := s.sec.draws + 1 } })

end Sys2Proof.Machine
end

