-- ==== Sys2Proof/Machine/Operands.lean ====
section
/-! DEFINITION. The shapes that commands and courses work on: element formats and page geometry (R10, R100, R102), the
fields of model, course and heat records (R461, R70, R234), step-input rows and results (R238, R246), and the operand
forms of timetable entries (R72, R73). -/

namespace Sys2Proof.Machine

/-! ## Formats (R10) -/

/-- Bits of one element. -/
def fmtBits : Nat → Nat
  | 0 => 16 | 1 => 8 | 2 => 8 | 3 => 8 | 4 => 6 | 5 => 4 | 6 => 8 | 7 => 32 | _ => 0

/-- The MX formats carry one scale byte per 32 elements. -/
def fmtMx (f : Nat) : Bool := decide (3 ≤ f ∧ f ≤ 6)

/-- Bytes of a row of `n` elements with its scales (R100). -/
def rowBytesOf (f n : Nat) : Nat := n * fmtBits f / 8 + (if fmtMx f then n / 32 else 0)

/-- A stored page format: codes 0 to 6. -/
def storedFmt (f : Nat) : Bool := decide (f ≤ 6)

/-! ## Model records (R461, R121, R149, R188, R217) -/

/-- Layers of a model. -/
def mLayers (r : BitVec 512) : Nat := rf r 39 32 + 1
/-- KV head groups. -/
def mGroups (r : BitVec 512) : Nat := rf r 45 40 + 1
/-- Query heads per group. -/
def mHpg (r : BitVec 512) : Nat := rf r 49 46 + 1
/-- Latent-cache attention. -/
def mLatent (r : BitVec 512) : Bool := rb r 50
/-- HEAD_DIM. -/
def mHeadDim (r : BitVec 512) : Nat := rf r 73 64
/-- WIDTH. -/
def mWidth (r : BitVec 512) : Nat := rf r 31 16
/-- The append record (R121). -/
def mAppend (r : BitVec 512) : BitVec 64 := BitVec.ofNat 64 (rf r 191 128)
/-- The attention record (R149). -/
def mAttn (r : BitVec 512) : BitVec 128 := BitVec.ofNat 128 (rf r 319 192)
/-- The selector record (R188). -/
def mSel (r : BitVec 512) : BitVec 64 := BitVec.ofNat 64 (rf r 383 320)
/-- The directory record (R217). -/
def mDir (r : BitVec 512) : BitVec 32 := BitVec.ofNat 32 (rf r 415 384)
def mWFmt (r : BitVec 512) : Nat := rf (mAppend r) 63 59
def mInFmt (r : BitVec 512) : Nat := rf (mAppend r) 58 54
def mVFmt (r : BitVec 512) : Nat := rf (mAppend r) 53 49
def mKFmt (r : BitVec 512) : Nat := rf (mAppend r) 48 44
def mProjection (r : BitVec 512) : Bool := rb (mAppend r) 43
def mBias (r : BitVec 512) : Bool := rb (mAppend r) 41
def mOutFmt (r : BitVec 512) : Nat := rf (mAttn r) 55 51
def mBatonFmt (r : BitVec 512) : Nat := rf (mAttn r) 50 46
def mSinks (r : BitVec 512) : Bool := rb (mAttn r) 45
def mOproj (r : BitVec 512) : Bool := rb (mAttn r) 44

/-- Key elements per head (R59). -/
def dKey (headDim : Nat) : Nat := headDim
/-- Value elements per head: 512 in latent mode (R59). -/
def dVal (headDim : Nat) (latent : Bool) : Nat := if latent then 512 else headDim

/-- Bytes of a position's key row. -/
def keyRowBytes (headDim kFmt : Nat) : Nat := rowBytesOf kFmt headDim
/-- Bytes of a position's value row: none in latent mode. -/
def valRowBytes (headDim vFmt : Nat) (latent : Bool) : Nat := if latent then 0 else rowBytesOf vFmt headDim

/-- Positions per page (R100); 0 where none exists. -/
def pagePositions (headDim kFmt vFmt : Nat) (latent : Bool) : Nat :=
  let rb := keyRowBytes headDim kFmt + valRowBytes headDim vFmt latent
  if rb = 0 then 0 else min 256 (16384 / rb / 16 * 16)

/-- Positions per page of a registered model. -/
def mT (r : BitVec 512) : Nat := pagePositions (mHeadDim r) (mKFmt r) (mVFmt r) (mLatent r)

/-- HEAD_DIM and LATENT agree (R461). -/
def headDimOk (headDim : Nat) (latent : Bool) : Bool :=
  if latent then headDim == 576 else [64, 96, 128, 192, 256].contains headDim

/-- Key of a model. -/
def mkey (domain model : Nat) : Nat := domain * 65536 + model

/-- A model. -/
def getM (s : State) (domain model : Nat) : Option ModelSt := s.models.get? (mkey domain model)

/-- Leaves per (layer, group) (R104). -/
def l1SpanOf (maxCtxM1 t : Nat) : Nat := ceilDiv (ceilDiv (maxCtxM1 + 1) t) 256

/-- Key of a leaf entry. -/
def leafKey (layer group page : Nat) : Nat := (layer * 64 + group) * 2 ^ 20 + page

/-! ## Course images (R69 to R76) -/

/-- A byte range of an image as a number. -/
def imgBytes (image off len : Nat) : Nat := image / 2 ^ (8 * off) % 2 ^ (8 * len)

def cClusters (i : Nat) : Nat := fld i 100 96
def cCclkMask (i : Nat) : Nat := fld i 103 101
def cGradeMask (i : Nat) : Nat := fld i 105 104
def cAppendMode (i : Nat) : Nat := fld i 106 106
def cOutputMode (i : Nat) : Nat := fld i 107 107
def cLatent (i : Nat) : Bool := bit i 108
def cLayersM1 (i : Nat) : Nat := fld i 119 112
def cGroupsM1 (i : Nat) : Nat := fld i 125 120
def cHpgM1 (i : Nat) : Nat := fld i 129 126
def cHeadDim (i : Nat) : Nat := fld i 139 130
def cKFmt (i : Nat) : Nat := fld i 144 140
def cVFmt (i : Nat) : Nat := fld i 149 145
def cGpsM1 (i : Nat) : Nat := fld i 155 150
def cHeatMaxM1 (i : Nat) : Nat := fld i 169 160
def cWindow (i : Nat) : Nat := fld i 183 170
def cGlobalPages (i : Nat) : Nat := fld i 190 184
def cRetrieved (i : Nat) : Nat := fld i 200 192
def cDenseBound (i : Nat) : Nat := fld i 247 224
def cDirOff (i : Nat) : Nat := fld i 287 256
def cMaxOff (i : Nat) : Nat := fld i 319 288
def cMaxCount (i : Nat) : Nat := fld i 335 320
def cHurdleCount (i : Nat) : Nat := fld i 351 336
def cHurdleOff (i : Nat) : Nat := fld i 383 352
def cRangeOff (i : Nat) : Nat := fld i 415 384
def cRangeCount (i : Nat) : Nat := fld i 431 416
def cImageBytes (i : Nat) : Nat := fld i 95 64
/-- Positions per page of the course's shape. -/
def cT (i : Nat) : Nat := pagePositions (cHeadDim i) (cKFmt i) (cVFmt i) (cLatent i)

/-- A maxima entry's VALUE, none when the ID is absent (R74). -/
def maxima? (image id : Nat) : Option Nat :=
  (List.range (cMaxCount image)).findSome? fun k =>
    let e := imgBytes image (cMaxOff image + 8 * k) 8
    if fld e 15 0 = id then some (fld e 63 32) else none

/-- The declared maxima of R82 with their defaults. -/
def maxPagesPerRow (i : Nat) : Nat := (maxima? i 1).getD 65535
def maxPackedBytes (i : Nat) : Nat := (maxima? i 2).getD 16384
def maxSeals (i : Nat) : Nat := (maxima? i 3).getD ((cHeatMaxM1 i + 1) * (cGpsM1 i + 1))
def maxBufBytes (i : Nat) : Nat := (maxima? i 4).getD 0
def maxInputBytes (i : Nat) : Nat := (maxima? i 5).getD 0

/-- Directory entry of a timetable: byte offset and entry count (R71). -/
def ttOff (image t : Nat) : Nat := fld (imgBytes image (cDirOff image + 8 * t) 8) 31 0
def ttCount (image t : Nat) : Nat := fld (imgBytes image (cDirOff image + 8 * t) 8) 47 32 + 1

/-- A timetable entry as its 128-bit word (R72). -/
def ttEntry (image t i : Nat) : Nat := imgBytes image (ttOff image t + 16 * i) 16
def eOffset (e : Nat) : Nat := fld e 127 96
def eEngine (e : Nat) : Nat := fld e 95 93
def eCore (e : Nat) : Nat := fld e 92 91
def eOpcode (e : Nat) : Nat := fld e 90 84
def eA (e : Nat) : Nat := fld e 31 0
def eB (e : Nat) : Nat := fld e 63 32
def eC (e : Nat) : Nat := fld e 83 64

/-- A hurdle entry (R75). -/
def hurdleEntry (image k : Nat) : Nat := imgBytes image (cHurdleOff image + 16 * k) 16
def hOffset (e : Nat) : Nat := fld e 127 96
def hEntry (e : Nat) : Nat := fld e 95 80
def hCluster (e : Nat) : Nat := fld e 79 75
def hPreempt (e : Nat) : Bool := bit e 72
def hLive (e : Nat) : Nat := fld e 71 56
def hRangeFirst (e : Nat) : Nat := fld e 55 40
def hRangeCount (e : Nat) : Nat := fld e 39 32
def hSlotBase (e : Nat) : Nat := fld e 31 12

/-- A live-range entry (R76). -/
def rangeEntry (image k : Nat) : Nat := imgBytes image (cRangeOff image + 8 * k) 8
def rCore (e : Nat) : Nat := fld e 29 28
def rLength (e : Nat) : Nat := fld e 27 14
def rStart (e : Nat) : Nat := fld e 13 0

/-- Page references in an A operand (R73). -/
def refSlot (a : Nat) : Nat := fld a 31 22
def refGroup (a : Nat) : Nat := fld a 21 16
def refOrd (a : Nat) : Nat := fld a 15 0

/-! ## Heat records (R234) -/

def hResultAddr (r : BitVec 192) : Nat := rf r 191 128
def hVector (r : BitVec 192) : Nat := rf r 127 117
def hInt (r : BitVec 192) : Bool := rb r 116
def hDepth (r : BitVec 192) : Nat := rf r 115 108 + 1
def hCtrlPort (r : BitVec 192) : Port := if rb r 105 then 1 else 0
def hDomain (r : BitVec 192) : Nat := rf r 104 99
def hSlots (r : BitVec 192) : Nat := rf r 98 89 + 1
def hModel (r : BitVec 192) : Nat := rf r 88 73
def hCourse (r : BitVec 192) : Nat := rf r 72 57

/-- The heat record as it is read, with STATE (R234). -/
def heatWord (h : HeatSt) : BitVec 192 := rset h.record 107 106 h.state.code

/-! ## Rows and results (R238, R246) -/

/-- Bytes of one element of a host input format. -/
def inBytes (f : Nat) : Nat := fmtBits f / 8

/-- Bytes of a quantise-in cell: one group's key and value vectors, or the latent row. -/
def cellBytes (m : BitVec 512) : Nat :=
  (if mLatent m then 576 else 2 * mHeadDim m) * inBytes (mInFmt m)

/-- ROW_BYTES of a heat (R238). -/
def rowBytes (m : BitVec 512) (course : Nat) : Nat :=
  64 + roundUp (if mProjection m then mWidth m * inBytes (mInFmt m) else (cGpsM1 course + 1) * cellBytes m) 64

/-- Query heads of a model. -/
def mHeads (m : BitVec 512) : Nat := mGroups m * mHpg m

/-- Bytes of area A of a result row (R246). -/
def areaA (m : BitVec 512) (course : Nat) : Nat :=
  if cOutputMode course = 1 then 0
  else if mOproj m then roundUp (mWidth m * fmtBits (mOutFmt m) / 8) 64
  else mHeads m * dVal (mHeadDim m) (mLatent m) * fmtBits (mOutFmt m) / 8

/-- Bytes of one cell of area B: the head record with its descriptor (R246). -/
def cellB (m : BitVec 512) : Nat := roundUp (24 + dVal (mHeadDim m) (mLatent m) * fmtBits (mBatonFmt m) / 8) 64

/-- RESULT_ROW_BYTES (R244, R246). -/
def resultRowBytes (m : BitVec 512) (course : Nat) : Nat := 64 + areaA m course + mHeads m * cellB m

/-- ENTRY_BYTES (R244). -/
def entryBytes (m : BitVec 512) (course slots : Nat) : Nat := 64 + slots * resultRowBytes m course

/-- BANK_BYTES (R430). -/
def bankBytes (slots rowB : Nat) : Nat := roundUp (slots * rowB) 4096

end Sys2Proof.Machine
end

