-- ==== Sys2Proof/Machine/PageOps.lean ====
section
/-! DEFINITION. Operations on frames, pools, slack, page maps and sequences that many commands share (chapter 4). -/

namespace Sys2Proof.Machine

/-! ## Frames -/

/-- A frame; one that is not listed is FREE and never written. -/
def getFr (s : State) (f : Nat) : FrameSt := s.mem.frames.getD f {}

/-- Replace a frame. -/
def setFr (s : State) (f : Nat) (v : FrameSt) : State := { s with mem := { s.mem with frames := s.mem.frames.set f v } }

/-- Change a frame. -/
def modFr (s : State) (f : Nat) (g : FrameSt → FrameSt) : State := setFr s f (g (getFr s f))

/-- A frame number that exists (R93). -/
def frameOk (s : State) (f : Nat) : Bool := decide (f < 20 * s.mem.fch)

/-- Frames of a channel that are not FREE. -/
def usedIn (s : State) (ch : Nat) : Nat :=
  s.mem.frames.fold (fun n f v => if f % 20 = ch ∧ v.state ≠ .free then n + 1 else n) 0

/-- FREE frames of a channel, pool frames included (R114). -/
def freeIn (s : State) (ch : Nat) : Nat := s.mem.fch - usedIn s ch

/-- Frames of a channel that are not QUARANTINED, none of a quarantined cluster (R350, R382). -/
def totalIn (s : State) (ch : Nat) : Nat :=
  if (getC s ch).quarantined then 0
  else s.mem.fch - s.mem.frames.fold (fun n f v => if f % 20 = ch ∧ v.state = .quarantined then n + 1 else n) 0

/-- FREE frames of a slice's channels (R117, R350). -/
def freeInSlice (s : State) (sl : Nat) : Nat := (sliceClusters s sl).foldl (fun n c => n + freeIn s c) 0

/-- All frames of a slice's channels (R350). -/
def totalInSlice (s : State) (sl : Nat) : Nat := (sliceClusters s sl).foldl (fun n c => n + totalIn s c) 0

/-- A slice's reserved pool of a channel, head first (R114). -/
def poolOf (s : State) (sl ch : Nat) : List Nat := s.mem.pools.getD (sl * 20 + ch) []

/-- Replace a reserved pool. -/
def setPool (s : State) (sl ch : Nat) (l : List Nat) : State :=
  { s with mem := { s.mem with pools := s.mem.pools.set (sl * 20 + ch) l } }

/-- Some reserved pool holds the frame. -/
def inPool (s : State) (f : Nat) : Bool := s.mem.pools.any fun _ l => l.contains f

/-- Among channels, the one with the most free frames, the lowest winning ties (R114, R354). -/
def bestChannel (s : State) (chs : List Nat) : Option Nat :=
  chs.foldl (fun b c => match b with
    | none => some c
    | some x => if freeIn s x < freeIn s c then some c else some x) none

/-- A new frame of a domain in a state: the entry of R107 starts again, its VERSION stands. -/
def takeFrame (s : State) (f : Nat) (st : FrameState) (dom : Nat) (link : Nat := 0) (mig : Option MigSide := none) : State :=
  modFr s f fun v => { v with state := st, domain := dom, refs := 0, pins := 0, qmap := 0, retiring := false,
                              damaged := false, heldRemote := false, link := BitVec.ofNat 36 link, slack := none,
                              mig := mig, test := false }

/-- One frame of the slice's pools, by the channel rule (R114). -/
def drawPool (s : State) (sl dom : Nat) : Option (Nat × State) :=
  match bestChannel s ((sliceClusters s sl).filter fun c => !(poolOf s sl c).isEmpty) with
  | none => none
  | some c =>
    match poolOf s sl c with
    | [] => none
    | f :: t => some (f, takeFrame (setPool s sl c t) f .reserved dom)

/-- A whole row of `n` frames, or nothing (R114). -/
def drawRow (s : State) (sl dom : Nat) : Nat → Option (List Nat × State)
  | 0 => some ([], s)
  | n + 1 =>
    match drawPool s sl dom with
    | none => none
    | some (f, s) => match drawRow s sl dom n with
      | none => none
      | some (l, s) => some (f :: l, s)

/-- The first FREE frame of a channel that no pool holds, from index `i` on, wrapping, within `fuel` frames. -/
def scanFree (s : State) (ch : Nat) : (i fuel : Nat) → Option Nat
  | _, 0 => none
  | i, fuel + 1 =>
    let f := i % s.mem.fch * 20 + ch
    if (getFr s f).state = .free ∧ !inPool s f then some f else scanFree s ch (i + 1) fuel

/-- The frame the Puppeteer picks from a channel's free list: its choice among the FREE frames (R114, assumption 3). -/
def pickFree (s : State) (ch : Nat) : Option Nat :=
  if s.mem.fch = 0 then none
  else scanFree s ch (freeVal s % s.mem.fch) (s.mem.frames.size + s.mem.pools.fold (fun n _ l => n + l.length) 0 + 1)

/-- A frame for any other purpose of a domain (R354): the channel with the most free frames, the pool's head first. -/
def drawFrame (s : State) (sl dom : Nat) (st : FrameState) (link : Nat := 0) (mig : Option MigSide := none) :
    Option (Nat × State) :=
  match bestChannel s ((sliceClusters s sl).filter fun c => decide (0 < freeIn s c) && !(getC s c).quarantined) with
  | none => none
  | some c =>
    match poolOf s sl c with
    | f :: t => some (f, takeFrame (setPool s sl c t) f st dom link mig)
    | [] => match pickFree s c with
      | none => none
      | some f => some (f, takeFrame (useFree s) f st dom link mig)

/-- A fresh content identity: node number over a per-node serial (R95, R97). -/
def newIdentity (s : State) : Nat × State :=
  (s.nodeNo % 4096 * 2 ^ 52 + s.mem.serial % 2 ^ 52, { s with mem := { s.mem with serial := s.mem.serial + 1 } })

/-! ## References and reclamation (R118, R119) -/

/-- A SEALED frame becomes SHARED at its second reference, and SEALED again at its last but one (R109). -/
def shareState (v : FrameSt) : FrameSt :=
  if v.state = .sealed ∧ 2 ≤ v.refs then { v with state := .shared }
  else if v.state = .shared ∧ v.refs ≤ 1 then { v with state := .sealed }
  else v

/-- REFS can rise by one (R108, R118). -/
def canRef (s : State) (f : Nat) : Bool :=
  decide ((getFr s f).refs < 65535) && ((getFr s f).state == .sealed || (getFr s f).state == .shared)

/-- One more holder. -/
def addRef (s : State) (f : Nat) : State := modFr s f fun v => shareState { v with refs := v.refs + 1 }

/-- A holder's reference is dropped; at 0 the frame retires with the lap number last assigned (R119). -/
def dropRef (s : State) (f : Nat) : State :=
  let stamp := s.mem.lapNo
  modFr s f fun v =>
    if v.refs ≤ 1 then { shareState { v with refs := 0 } with retiring := true, stamp := stamp }
    else shareState { v with refs := v.refs - 1 }

/-! ## Slack (R111, R113) -/

/-- Quarters of a QMAP with a code. -/
def quartersWith (q : BitVec 8) (code : Nat) : Nat :=
  ((List.range 4).filter fun k => rf q (2 * k + 1) (2 * k) = code).length

/-- Free slack quarters of a channel. -/
def freeSlack (s : State) (ch : Nat) : Nat :=
  s.mem.frames.fold (fun n f v =>
    if f % 20 = ch ∧ (v.state = .sealed ∨ v.state = .shared) then n + quartersWith v.qmap 1 else n) 0

/-- The SLACK_LOW setting in effect. -/
def slackLow (s : State) : Nat := rf s.mem.record 63 48

/-- Functions assigned any domain of a slice, and both physical functions (R440). -/
def sliceFuncs (s : State) (sl : Nat) : List (Port × Func) :=
  allFuncs.filter fun pf => pf.2 == 0 || (match (getF s pf.1 pf.2).assigned with
    | some d => domInSlice s d sl
    | none => false)

/-- A channel's free slack has changed from `before`: arm, or raise SLACK_LOW on a fall below the setting (R113). -/
def slackCheck (s : State) (ch before : Nat) : State :=
  let low := slackLow s
  let now := freeSlack s ch
  let arm := s.mem.arms.getD ch {}
  let reached := arm.reached || decide (low ≤ before) || decide (low ≤ now)
  let quiet := arm.quiet && !decide (2 * low < now)
  let fall := decide (low ≤ before ∧ now < low) && reached && !quiet
  let s := { s with mem := { s.mem with arms := s.mem.arms.set ch { reached := reached, quiet := quiet || fall } } }
  if fall then
    match clusterSlice s ch with
    | some sl => deliverAll s (eventWord 0x0006 0 ch 0 s.ns (pack [(0, 8, ch), (32, 32, now), (64, 16, low)])) (sliceFuncs s sl)
    | none => raiseNode s 0x0006 0 ch 0 (pack [(0, 8, ch), (32, 32, now), (64, 16, low)])
  else s

/-! ## Page-map pools (R99, R104) -/

/-- Bytes of a channel's page-map pool: 32 per frame. -/
def poolSize (s : State) : Nat := 32 * s.mem.fch

/-- Free bytes of a channel's page-map pool. -/
def poolFree (s : State) (ch : Nat) : Nat := poolSize s - s.mem.poolUsed.getD ch 0

/-- Place a block in the pool with the most free space, the lowest channel winning ties: channel in bits 39:35, address
below. None when it does not fit. -/
def placeBlock (s : State) (sl bytes : Nat) : Option (Nat × State) :=
  let best := (sliceClusters s sl).foldl (fun b c => match b with
    | none => some c
    | some x => if poolFree s x < poolFree s c then some c else some x) none
  match best with
  | none => none
  | some c =>
    if bytes ≤ poolFree s c then
      some (pack [(35, 5, c), (0, 35, (Config.poolAddress s.mem.placed).toNat)],
        { s with mem := { s.mem with placed := s.mem.placed + 1,
                                     poolUsed := s.mem.poolUsed.upd c 0 fun n => n + bytes } })
    else none

/-- Give a block's bytes back to its pool. -/
def unplaceBlock (s : State) (addr bytes : Nat) : State :=
  { s with mem := { s.mem with poolUsed := s.mem.poolUsed.upd (fld addr 39 35) 0 fun n => n - bytes } }

/-! ## Sequences -/

/-- A sequence by its global ID. -/
def getQ (s : State) (id : Nat) : Option SeqSt := s.seqs.get? id

/-- Replace a sequence. -/
def setQ (s : State) (id : Nat) (q : SeqSt) : State := { s with seqs := s.seqs.set id q }

/-- Change a sequence where it exists. -/
def modQ (s : State) (id : Nat) (g : SeqSt → SeqSt) : State := { s with seqs := s.seqs.modify id g }

/-- Home node, index and generation of a global ID (R9). -/
def seqHome (id : Nat) : Nat := fld id 47 36
def seqIndex (id : Nat) : Nat := fld id 35 16
def seqGenOf (id : Nat) : Nat := fld id 15 0

/-- Head groups the node hosts for a sequence, ascending (R103). -/
def groupsOf (q : SeqSt) : List Nat := bitsOf q.groupMask 64

/-- The model record a sequence is of. -/
def seqModel (s : State) (q : SeqSt) : BitVec 512 := ((getM s q.domain q.model).map (·.record)).getD 0

/-- Frames of one page row, one for each (layer, group) hosted. -/
def rowFrames (s : State) (q : SeqSt) : Nat := mLayers (seqModel s q) * (groupsOf q).length

/-- The leaf entry of a page. -/
def getLeaf (q : SeqSt) (layer group page : Nat) : Option Leaf := q.leaves.get? (leafKey layer group page)

/-- Write a leaf entry. -/
def putLeaf (q : SeqSt) (layer group page : Nat) (e : Leaf) : SeqSt :=
  { q with leaves := q.leaves.set (leafKey layer group page) e }

/-- Index of a page's level-1 entry (R104). -/
def l1Index (m : BitVec 512) (q : SeqSt) (layer group page : Nat) : Nat :=
  (layer * mGroups m + group) * q.l1Span + page / 256

/-- The LINK of a frame that a leaf entry names (R107): channel, leaf in 2 KiB units, entry. -/
def leafLink (m : BitVec 512) (q : SeqSt) (layer group page : Nat) : Nat :=
  let a := q.leafAddrs.getD (l1Index m q layer group page) 0
  pack [(31, 5, fld a 39 35), (8, 23, fld a 34 0 / 32), (0, 8, page % 256)]

/-- The leaf of a page exists, placed now if it must be (R104). -/
def ensureLeaf (s : State) (id layer group page : Nat) : Option State :=
  match getQ s id with
  | none => none
  | some q =>
    let m := seqModel s q
    let i := l1Index m q layer group page
    if q.leafAddrs.has i then some s
    else match sliceOf s q.domain with
      | none => none
      | some sl => match placeBlock s sl 2048 with
        | none => none
        | some (a, s) => some (modQ s id fun q => { q with leafAddrs := q.leafAddrs.set i a })

/-! ## Selector indexes: fields of the model selector record (R188), and pages that leave (R193, R194) -/

def sSeed (r : BitVec 64) : Nat := rf r 63 48
def sIters (r : BitVec 64) : Nat := rf r 47 44
def sTarget (r : BitVec 64) : Nat := rf r 39 32
def sThreshold (r : BitVec 64) : Nat := rf r 31 16

/-- A selector record out of range (R188). -/
def selBad (r : BitVec 64) : Bool := sIters r == 0 || decide (sTarget r < 32) || decide (sThreshold r < 16)

/-- Key of a row's index. -/
def idxKey (id layer group : Nat) : Nat := id * 2 ^ 14 + layer * 64 + group

/-- Indexed pages: N of R191. -/
def idxCount (x : IndexSt) : Nat := (x.entries.filter fun e => !e.gone).length

/-- A page leaves the index of its row (R194); a set whose pages fall below half of THRESHOLD goes, at the next commit
(R193). -/
def idxGone (s : State) (id layer group page : Nat) (q : SeqSt) : State :=
  let k := idxKey id layer group
  match s.sel.indexes.get? k with
  | none => s
  | some x =>
    let y : IndexSt := { x with entries := x.entries.map fun e => if e.page = page then { e with gone := true } else e }
    let few := (y.state == .active || y.state == .rebuilding) && decide (2 * idxCount y < sThreshold (mSel (seqModel s q)))
    let z : IndexSt := if !few then y else if q.state = .running then { y with release := true }
      else { y with state := .none, centroids := [], building := [], ready := none, nBuild := 0 }
    { s with sel := { s.sel with indexes := s.sel.indexes.set k z } }

/-- The row and page of a leaf key. -/
def keyPage (k : Nat) : Nat := k % 2 ^ 20
def keyGroup (k : Nat) : Nat := k / 2 ^ 20 % 64
def keyLayer (k : Nat) : Nat := k / 2 ^ 26

/-- Clear the leaf entries of a sequence that pass a test, dropping the references of those on this node (R118). -/
def clearLeaves (s : State) (id : Nat) (p : Nat → Leaf → Bool) : State :=
  match getQ s id with
  | none => s
  | some q =>
    let gone := q.leaves.filter p
    let s := setQ s id { q with leaves := q.leaves.filter fun k e => !p k e }
    gone.fold (fun s k e => if e.loc = 1 then idxGone (dropRef s e.frame) id (keyLayer k) (keyGroup k) (keyPage k) q else s) s

/-- Frames of a starting block go back to FREE (R109). -/
def freeReserved (s : State) (l : List Nat) : State :=
  l.foldl (fun s f => modFr s f fun v => { v with state := .free, domain := 0, link := 0 }) s

/-- A sequence's starting block is released (R49, R106). -/
def releaseBlock (s : State) (id : Nat) : State :=
  match getQ s id with
  | none => s
  | some q => setQ (freeReserved s (if q.sb = 1 then q.sbFrames else [])) id { q with sb := 0, sbFrames := [] }

/-- Page index of a position of a sequence. -/
def pageOf (s : State) (q : SeqSt) (pos : Nat) : Nat :=
  let t := mT (seqModel s q)
  if t = 0 then 0 else pos / t

/-- Drop every reference of a sequence and its pool space; the descriptor index is free with its next generation
(R106). -/
def freeSeq (s : State) (id : Nat) : State :=
  match getQ s id with
  | none => s
  | some q =>
    let s := releaseBlock s id
    let s := clearLeaves s id fun _ _ => true
    let s := q.leafAddrs.fold (fun s _ a => unplaceBlock s a 2048) s
    let s := unplaceBlock s q.l1Addr q.l1Bytes
    { s with seqs := s.seqs.erase id,
             sel := { s.sel with indexes := s.sel.indexes.filter fun k _ => k / 2 ^ 14 != id },
             seqGen := if seqHome id = s.nodeNo then s.seqGen.set (seqIndex id) ((seqGenOf id + 1) % 65536) else s.seqGen }

/-! ## Heats -/

/-- A heat. -/
def getH (s : State) (h : Nat) : Option HeatSt := s.heats.get? h

/-- Replace a heat. -/
def setH (s : State) (h : Nat) (v : HeatSt) : State := { s with heats := s.heats.set h v }

/-- Change a heat where it exists. -/
def modH (s : State) (h : Nat) (g : HeatSt → HeatSt) : State := { s with heats := s.heats.modify h g }

/-- A slot. -/
def getSlot (h : HeatSt) (n : Nat) : SlotSt := h.slots.getD n {}

/-- Change a slot. -/
def modSlot (h : HeatSt) (n : Nat) (g : SlotSt → SlotSt) : HeatSt := { h with slots := h.slots.upd n {} g }

/-- Course image of a heat, 0 when the course is gone. -/
def heatImage (s : State) (h : HeatSt) : Nat := ((s.courses.get? (hCourse h.record)).map (·.image)).getD 0

/-- Model record of a heat. -/
def heatModel (s : State) (h : HeatSt) : BitVec 512 := ((getM s (hDomain h.record) (hModel h.record)).map (·.record)).getD 0

/-- The slice of a heat. -/
def heatSlice (s : State) (h : HeatSt) : Option Nat := sliceOf s (hDomain h.record)

/-- Take a sequence out of whatever heat holds it; its slot reports a status until its next layer-0 row (R248). -/
def removeFromHeat (s : State) (id : Nat) (st : Status) : State :=
  match getQ s id with
  | none => s
  | some q =>
    if q.state = .running then
      modH s q.heat fun h =>
        if (getSlot h q.slot).seq = some id then
          modSlot h q.slot fun x => { x with seq := none, gone := some st, runs := false, part := .inert, status := st }
        else h
    else s

end Sys2Proof.Machine
end

