-- ==== Sys2Proof/Machine/Acct.lean ====
section
/-! DEFINITION. Accounting: what each domain used in the epoch in progress (R252 to R256). -/

namespace Sys2Proof.Machine

/-- Places of the accounting counters of a domain. -/
inductive Use where
  | engine | dramRead | dramWrite | pcieIn | pcieOut | netIn | netOut | slowdown | selFresh | selStale | selNone | held
  /-- energy in fJ on the node's rails and in the DRAM devices -/
  | energy | devEnergy
deriving DecidableEq, Repr

/-- Number of a counter. -/
def Use.place : Use → Nat
  | .engine => 0 | .dramRead => 1 | .dramWrite => 2 | .pcieIn => 3 | .pcieOut => 4 | .netIn => 5 | .netOut => 6
  | .slowdown => 7 | .selFresh => 8 | .selStale => 9 | .selNone => 10 | .held => 11 | .energy => 12 | .devEnergy => 13

/-- A counter of the epoch in progress. -/
def used (s : State) (d : Nat) (u : Use) : Nat := s.acct.getD (d * 32 + u.place) 0

/-- Charge a domain. -/
def charge (s : State) (d : Nat) (u : Use) (n : Nat) : State :=
  { s with acct := s.acct.upd (d * 32 + u.place) 0 fun c => c + n }

/-- ENERGY_SCALE of a rail in units of 2^−12: 1.0 on factory values (R502, R505). -/
def energyScale (s : State) (rail : Nat) : Nat :=
  match s.cal.record with | some r => rf r (783 + 16 * rail) (768 + 16 * rail) | none => 4096

/-- Energy of `n` events of a class on a rail (R254): the class coefficient in fJ is in fuses (assumption 20). -/
def chargeEnergy (s : State) (d cls rail n : Nat) : State :=
  charge s d .energy (n * (Config.energyCoeff cls).toNat * energyScale s rail / 4096)

/-- Traffic of a domain with the DRAM devices: bytes, interface energy, device energy (R254, R503). -/
def chargeDram (s : State) (d : Nat) (write : Bool) (bytes : Nat) : State :=
  let s := charge s d (if write then .dramWrite else .dramRead) bytes
  let s := chargeEnergy s d 4 5 bytes
  let dev := match s.cal.record with
    | some r => if write then rf r 895 880 else rf r 879 864
    | none => 0
  charge s d .devEnergy (bytes * dev * 10)

/-- Traffic of a domain with the hosts. -/
def chargePcie (s : State) (d : Nat) (out : Bool) (bytes : Nat) : State :=
  chargeEnergy (charge s d (if out then .pcieOut else .pcieIn) bytes) d 5 3 bytes

/-- Traffic of a domain on the Ethernet ports. -/
def chargeNet (s : State) (d : Nat) (out : Bool) (bytes : Nat) : State :=
  chargeEnergy (charge s d (if out then .netOut else .netIn) bytes) d 6 4 bytes

end Sys2Proof.Machine
end

