-- ==== Sys2Proof/Machine/Mailbox.lean ====
section
/-! DEFINITION. The Huavo mailbox: fetching a descriptor at the ordering point, the checks of R436 and R453 that every
command shares, and the answers (R435 to R443, R450 to R456). -/

namespace Sys2Proof.Machine

/-- Who may ask for a secured service (R393). -/
inductive Role where
  | anyone
  /-- the Crypto Officer -/
  | cryptoOfficer
  /-- LC_OPERATE: before an owner exists, any operational session (R392) -/
  | officerOrFirst
  /-- the User of a sealed domain, the Crypto Officer for a shared one: the descriptor's domain -/
  | keyHolder
  /-- the Crypto Officer, or the User of the domain that payload byte 0 names -/
  | resetHolder
deriving DecidableEq, Repr

/-- What one row of the command tables fixes (R458 to R476): opcode, marks, payload length and named payload bits. -/
structure HRow where
  opcode : Nat
  /-- mark D0 -/
  d0 : Bool := false
  /-- mark PF -/
  pf : Bool := false
  /-- marks S and CO -/
  role : Role := .anyone
  /-- mark PTR -/
  ptr : Bool := false
  /-- LENGTH fits the payload (R451): payload, length -/
  lenOk : Nat → Nat → Bool := fun _ n => n == 0
  /-- payload bits some field names, as (hi, lo); the others are reserved: payload, length -/
  named : Nat → Nat → List (Nat × Nat) := fun _ _ => []

/-- Group of an opcode (R450). -/
def groupOf (opcode : Nat) : Nat := opcode / 256

/-- What a command's own part answers. -/
inductive Ans where
  /-- one final response with a status other than OK -/
  | fail (st : Status) (result : Nat := 0) (aux : Nat := 0)
  /-- one final response OK, after an output buffer of `len` bytes has been written (R452) -/
  | done (result : Nat := 0) (aux : Nat := 0) (addr : Nat := 0) (len : Nat := 0) (data : Nat := 0)
  /-- ACCEPTED; the final response comes later -/
  | accept (key : ObjKey) (outAddr : Nat := 0) (arg : Nat := 0)
  /-- ACCEPTED, then the final response at once -/
  | acceptDone (st : Status) (result : Nat := 0) (aux : Nat := 0)
  /-- no response yet; one final response comes later -/
  | wait (key : ObjKey) (outAddr : Nat := 0) (arg : Nat := 0)
deriving DecidableEq, Repr

/-! ## Fetching (R437, R438) -/

/-- The node takes descriptors: mailbox ready, the calibration window (physical functions only), or ERROR (R396). -/
def mailboxOpen (s : State) (f : Func) : Bool :=
  s.boot.phase == .ready || (s.boot.phase == .window && f = 0)

/-- The next descriptor of the function can be fetched now. -/
def fetchable (s : State) (d : Desc) : Bool :=
  let e := getF s d.port d.func
  mailboxOpen s d.func && ringsOn e && e.cmdHead != e.cmdTail && decide (e.outstanding < 256)
    && decide (2 * (e.outstanding + 1) + between e.rspTail e.rspHead ≤ 2 ^ rspLog2 e)
    && (!d.ordered || e.outstanding == 0)

/-- The descriptor is fetched and stamped at the ordering point (R443). -/
def fetchCmd (s : State) (d : Desc) : State :=
  let s := clockTo s d.now
  let e := getF s d.port d.func
  setF s d.port d.func { e with cmdHead := e.cmdHead + 1, outstanding := e.outstanding + 1 }

/-! ## Checks (R436, R423, R393, R453) -/

/-- An operational session carried the secured message (R393). -/
def sessionOf (s : State) (d : Desc) : Option Session :=
  if d.secured && d.ptr && d.env.tagsOk then
    match s.sec.sessions.get? d.session with
    | some x => if x.setup then none else if x.port = d.port then some x else none
    | none => none
  else none

/-- The session's requester is the Crypto Officer (R392). -/
def isOfficer (s : State) (x : Session) : Bool :=
  match ownerSlot s with
  | some (_, k) => k.toNat == x.requester
  | none => false

/-- The session's requester is the User of a sealed domain (R392). -/
def isUser (s : State) (x : Session) (n : Nat) : Bool := domSealed s n && (getD s n).owner.toNat == x.requester

/-- The role that the row asks for is met (R393). -/
def roleOk (r : HRow) (d : Desc) (s : State) : Bool :=
  match r.role with
  | .anyone => true
  | .cryptoOfficer => match sessionOf s d with | some x => isOfficer s x | none => false
  | .officerOrFirst =>
    match sessionOf s d with | some x => isOfficer s x || (ownerSlot s).isNone | none => false
  | .keyHolder =>
    match sessionOf s d with
    | some x => if domSealed s d.domain.toNat then isUser s x d.domain.toNat else isOfficer s x
    | none => false
  | .resetHolder =>
    match sessionOf s d with | some x => isOfficer s x || isUser s x (byt d.body 0 0) | none => false

/-- R423: the function may name the domain, and issue the command in it. -/
def mayName (r : HRow) (d : Desc) (s : State) : Bool :=
  let n := d.domain.toNat
  let g := groupOf r.opcode
  if d.func = 0 then
    if domSealed s n then g == 1 || g == 3 || g == 0x0C || d.secured else true
  else
    match (getF s d.port d.func).assigned with
    | some a => n == a && !r.d0
    | none => g == 1 && n == 0

/-- What the module state lets through (R391, R396, R398, R416; assumption 9). -/
def moduleAllows (r : HRow) (s : State) : Option Status :=
  let g := groupOf r.opcode
  let status := g == 1 || g == 0x0C || g == 0x0D || r.opcode == 0x0201
  match s.sec.mod with
  | .error => some .badState
  | .selfTest => some .badState
  | .approved => if s.boot.identityFault && g == 2 && !status then some .denied else none
  | .nonApproved => if status || g == 2 || g == 3 || (g == 9 && r.d0) then none else some .denied
  | .zeroised => if status then none else some .denied

/-- The commands the calibration window takes (R500). -/
def windowAllows (opcode : Nat) : Bool := [0x0101, 0x0104, 0x0D01, 0x0D02].contains opcode

/-- R436 step 3: LENGTH out of range for PTR, DOMAIN above 63, or PTR missing. A secured message is never empty, and the
length kept of it is that of the payload it carries, which may be 0 (assumption 13). -/
def shapeBad (r : HRow) (d : Desc) : Bool :=
  decide (63 < d.domain.toNat) || (if d.ptr then d.length.toNat == 0 && !d.secured else decide (48 < d.length.toNat)) || (r.ptr && !d.ptr)

/-- R436 step 6: a byte or bit that no field names is not zero. -/
def reservedBad (r : HRow) (d : Desc) : Bool :=
  let n := d.length.toNat
  let p := d.body % 2 ^ (8 * n)
  d.pad != 0 || (p &&& maskOf (r.named d.body n)) != p

/-- The checks of R436 steps 1 to 6 and R453 steps 1 and 2, with the states of R396, R408 and R500. -/
def huavoChecks (r : HRow) (d : Desc) (s : State) : Option Status :=
  if s.boot.phase != .ready && !windowAllows r.opcode then some .badState
  else if s.sec.mod == .error then some .badState
  else if d.rsv != 0 then some .badReserved
  else if shapeBad r d then some .badField
  else if !mayName r d s || !roleOk r d s || (d.secured && (sessionOf s d).isNone) then some .denied
  else if !r.lenOk d.body d.length.toNat then some .badField
  else if reservedBad r d then some .badReserved
  else if s.fenced && groupOf r.opcode != 1 && groupOf r.opcode != 0x0C then some .fenced
  else if (r.d0 && (d.domain != 0 || d.func ≠ 0)) || (r.pf && d.func ≠ 0) then some .denied
  else if s.boot.phase == .ready && (moduleAllows r s).isSome then moduleAllows r s
  else if d.domain != 0 && (getD s d.domain.toNat).state == .free then some .badState
  else if d.domain != 0 && (getD s d.domain.toNat).state == .resetting then some .busy
  else none

/-! ## Host memory (R290, R291) -/

/-- A DMA fault record (R290). -/
def dmaRecord (context len off reason op domain mover state : Nat) : BitVec 128 :=
  BitVec.ofNat 128 (pack [(96, 32, context), (64, 32, len), (32, 32, off), (24, 8, reason), (20, 4, op), (14, 6, domain),
    (9, 5, mover), (0, 2, state)])

/-- A mover writes its fault record, and the FAULT event reports it. -/
def dmaFault (s : State) (mover : Nat) (r : BitVec 128) : State :=
  let s := { s with dma := s.dma.set mover r }
  raiseNode s 0x0001 0x0020 (if mover < 4 then 34 + mover / 2 else if mover < 8 then 33 else mover - 8)
    (rf r 19 14) r.toNat

/-- The first mover of a PCIe port serves command buffers (assumption 14). -/
def portMover (p : Port) : Nat := 2 * p.val

/-- The status a host buffer ends a command with (R291), none when the host serves it. -/
def hostStatus (h : HostRead) : Option Status :=
  match h with
  | .data _ => none
  | .error => some .badField
  | .timeout => some .timeout

/-- A command's buffer failed at the host: the fault record is abandoned (R291 codes 5 and 6). -/
def hostFault (s : State) (d : Desc) : State :=
  let reason := if d.env.host = .timeout then 6 else 5
  dmaFault s (portMover d.port)
    (dmaRecord d.tag.toNat d.length.toNat 0 reason 3 d.domain.toNat (portMover d.port) 3)

/-- What the host's memory holds at the buffer a command reads. -/
def hostData (d : Desc) : Nat := match d.env.host with | .data b => b | _ => 0

/-- Write an output buffer of a running command at once, or say which status ends the command (R291). -/
def putOut (s : State) (d : Desc) (addr len data : Nat) : State × Status :=
  match hostStatus d.env.host with
  | none => (emit s (.hostWrite d.port addr len data), .ok)
  | some st => (hostFault s d, st)

/-- Read the buffer that a command names, or end the command under R291. -/
def withBuffer (s : State) (d : Desc) (k : State × Ans) : State × Ans :=
  match hostStatus d.env.host with
  | none => k
  | some st => (hostFault s d, .fail st)

/-- An output buffer address: a multiple of 64 (R452). -/
def outOk (addr : Nat) : Bool := addr % 64 == 0

/-! ## Answers -/

/-- The approved-service indicator of the command's responses (R391). -/
def approvedFor (r : HRow) (s : State) : Bool := approvedNow s && groupOf r.opcode != 1

/-- The answer of a command's own part. -/
def finishAns (r : HRow) (d : Desc) (s : State) (a : Ans) : State :=
  let go := fun (s : State) (st : Status) (result aux : Nat) (isFinal : Bool) =>
    respond s d.port d.func s.ns r.opcode d.tag.toNat d.domain.toNat st result aux isFinal (approvedFor r s)
  let fly := fun (s : State) (key : ObjKey) (outAddr arg : Nat) =>
    let g : Flight :=
      { port := d.port, func := d.func, tag := d.tag, opcode := r.opcode, domain := d.domain.toNat, key := key,
        stamp := s.ns, outAddr := outAddr, arg := arg, session := if d.secured then some d.session else none,
        approved := approvedFor r s }
    { s with flights := s.flights ++ [g] }
  match a with
  | .fail st result aux => go s st result aux true
  | .done result aux addr len data =>
    if len = 0 then go s .ok result aux true
    else
      let (s, st) := putOut s d addr len data
      if st = .ok then go s .ok result aux true else go s st 0 0 true
  | .accept key outAddr arg => fly (go s .accepted 0 0 false) key outAddr arg
  | .acceptDone st result aux => go (go s .accepted 0 0 false) st result aux true
  | .wait key outAddr arg => fly s key outAddr arg

/-- A secured message keeps its session alive (R404). -/
def touchSession (s : State) (d : Desc) : State :=
  if d.secured then
    { s with sec := { s.sec with sessions := s.sec.sessions.modify d.session fun x => { x with lastMsg := s.ns } } }
  else s

/-- A security service waits while SELFTEST runs (R395). -/
def waitsForTests (r : HRow) (s : State) : Bool :=
  s.sec.testing && ((groupOf r.opcode == 2 && r.opcode != 0x0201 && r.opcode != 0x0202) || r.role != .anyone)

/-- One Huavo command: fetched at the ordering point, checked, run and answered. A descriptor that cannot be fetched
now waits, and nothing changes (assumption 5). -/
def huavo (r : HRow) (body : Desc → State → State × Ans) (d : Desc) (s : State) : State :=
  if fetchable s d && !waitsForTests r s then
    let s := fetchCmd s d
    match huavoChecks r d s with
    | some st => finishAns r d s (.fail st)
    | none =>
      let s := touchSession s d
      if d.ptr && (hostStatus d.env.host).isSome then
        finishAns r d (hostFault s d) (.fail ((hostStatus d.env.host).getD .badField))
      else
        let (s, a) := body d s
        finishAns r d s a
  else s

/-- The meaning of a Huavo row. -/
def runHuavo (r : HRow) (body : Desc → State → State × Ans) (d : Desc) (s : State) : Res := .next (huavo r body d s)

/-! ## Shared shapes of a command's own checks -/

/-- Stop with a status when a condition holds. -/
def failIf (c : Bool) (st : Status) (s : State) (k : State × Ans) : State × Ans := if c then (s, .fail st) else k

/-- Named payload bytes as bit ranges: (first byte, last byte). -/
def bytesNamed (l : List (Nat × Nat)) : List (Nat × Nat) := l.map fun r => (8 * r.2 + 7, 8 * r.1)

/-- A row with a fixed payload whose named bytes are listed. -/
def fixedRow (opcode len : Nat) (l : List (Nat × Nat)) (d0 pf : Bool := false) (role : Role := .anyone) : HRow :=
  { opcode := opcode, d0 := d0, pf := pf, role := role, lenOk := fun _ n => n == len, named := fun _ _ => bytesNamed l }

/-- A descriptor whose opcode no row defines: fetched and refused (R436 steps 1 and 2). -/
def oddCmd (s : State) (o : OddDesc) : State :=
  if fetchable s o.desc then
    let s := fetchCmd s o.desc
    let st := if s.boot.phase != .ready || s.sec.mod == .error then .badState
      else if o.desc.rsv != 0 then .badReserved else .badOpcode
    respond s o.desc.port o.desc.func s.ns o.opcode.toNat o.desc.tag.toNat o.desc.domain.toNat st 0 0 true false
  else s

end Sys2Proof.Machine
end

