-- ==== Sys2Proof/Machine/Visible.lean ====
section
/-! DEFINITION. Which object a command names, whether it may, and whether it is busy: R453 steps 3, 4 and 6, R441, R455. -/

namespace Sys2Proof.Machine

/-- Go on with the object a command names, or end it with the status that forbids it. -/
def withObj {α : Type} (r : Except Status α) (s : State) (k : α → State × Ans) : State × Ans :=
  match r with
  | .error st => (s, .fail st)
  | .ok x => k x

/-- The command's domain sees an object of a domain: domain 0 sees every one (R453). -/
def sees (d : Desc) (owner : Nat) : Bool := d.domain == 0 || owner == d.domain.toNat

/-- The sequence of a command: it exists and is visible (R98, R453), is not LOST (R106), and the command comes from its
controlling port (R441). A forwarded command was checked where it arrived. -/
def seqFor (d : Desc) (s : State) (id : Nat) (lostOk : Bool := false) (anyPort : Bool := false) : Except Status SeqSt :=
  if !pageOn s then .error .badState
  else match getQ s id with
    | none => .error .badState
    | some q =>
      if !sees d q.domain then .error .badState
      else if !anyPort && d.node.isNone && q.ctrlPort != d.port then .error .notOwner
      else if q.state = .lost && !lostOk then .error .lost
      else .ok q

/-- A command from its owner that names a sequence renews the lease, unless it has run out (R42, R370). -/
def renewBy (d : Desc) (s : State) (id : Nat) : State :=
  { s with seqs := s.seqs.modify id fun q =>
    if q.own.state ≠ .abandoned ∧ q.own.ownerNode = d.node.getD s.nodeNo ∧ q.own.ownerFunc = d.port.val * 128 + d.func.val
        ∧ s.ns < q.own.expiry then { q with own := { q.own with expiry := s.ns + q.own.leaseMs * 1000000 } } else q }

/-- A command acting on a tenant domain itself comes from its controlling port; domain 0 has none (R441). -/
def domPortOk (d : Desc) (s : State) (n : Nat) : Bool := n == 0 || (getD s n).ctrlPort == d.port

/-- A tenant domain that a command's payload names: FREE and RESETTING ones stop it (R408). -/
def domFor (s : State) (n : Nat) : Except Status Unit :=
  if 63 < n then .error .badField
  else if n = 0 then .ok ()
  else match (getD s n).state with
    | .free => .error .badState
    | .resetting => .error .busy
    | .active => .ok ()

/-- The heat of a command (R453, R441). -/
def heatFor (d : Desc) (s : State) (k : Nat) : Except Status HeatSt :=
  if 4095 < k then .error .badField
  else match getH s k with
    | none => .error .badState
    | some h =>
      if h.doomed || !sees d (hDomain h.record) then .error .badState
      else if h.master.isNone && hCtrlPort h.record != d.port then .error .notOwner
      else .ok h

/-- The model of a command that may change it (R453): one of another domain gives DENIED. -/
def modelFor (d : Desc) (s : State) (n : Nat) : Except Status ModelSt :=
  match getM s d.domain.toNat n with
  | some m => .ok m
  | none => if s.models.any fun k _ => k % 65536 == n then .error .denied else .error .badState

/-- The course of a command that may change it (R80, R453). -/
def courseFor (d : Desc) (s : State) (n : Nat) : Except Status CourseSt :=
  match s.courses.get? n with
  | none => .error .badState
  | some c => if c.domain = d.domain.toNat then .ok c else .error .denied

/-- Change a model. -/
def modM (s : State) (domain model : Nat) (g : ModelSt → ModelSt) : State :=
  { s with models := s.models.modify (mkey domain model) g }

end Sys2Proof.Machine
end

