-- ==== Sys2Proof/Machine/Index.lean ====
section
/-! DEFINITION. The selector's index structures: list entries, centroid sets, their builds and commits (R190 to R194). -/

namespace Sys2Proof.Machine

/-! ## Centroid sets (R191, R192) -/

/-- Hamming distance of two sketches of `bits` bits. -/
def hamming (bits a b : Nat) : Nat := popCount (a ^^^ b) bits

/-- Centroids of a set over `n` pages. -/
def centroidCount (n target : Nat) : Nat :=
  min 4096 (max 16 (2 ^ (((List.range 33).find? fun k => decide (n ≤ target * 2 ^ k)).getD 32)))

/-- The nearest centroid of a sketch, the lowest winning ties. -/
def nearest (bits : Nat) (cents : List Nat) (sketch : Nat) : Nat :=
  (cents.zipIdx.foldl (fun (b : Option (Nat × Nat)) x =>
    let h := hamming bits x.1 sketch
    match b with
    | none => some (h, x.2)
    | some y => if h < y.1 then some (h, x.2) else b) none |>.map (·.2)).getD 0

/-- The majority of one bit over some sketches; the old bit on an even split or without members. -/
def majorityBit (old : Bool) (members : List Nat) (i : Nat) : Bool :=
  let ones := (members.filter fun x => bit x i).length
  if 2 * ones = members.length then old else decide (members.length < 2 * ones)

/-- One refinement pass. -/
def refineSet (bits : Nat) (cents sketches : List Nat) : List Nat :=
  let lists := sketches.map fun x => (nearest bits cents x, x)
  cents.zipIdx.map fun c =>
    let members := (lists.filter fun e => e.1 == c.2).map (·.2)
    maskFrom ((List.range bits).filter fun i => majorityBit (bit c.1 i) members i)

/-- Repeat a function. -/
def iterate {α : Type} (f : α → α) : Nat → α → α
  | 0, x => x
  | n + 1, x => iterate f n (f x)

/-- The centroid set of some sketches in ascending page order. -/
def centroidSet (bits target iters : Nat) (sketches : List Nat) : List Nat :=
  let n := sketches.length
  let c := centroidCount n target
  iterate (fun cents => refineSet bits cents sketches) iters ((List.range c).map fun i => sketches.getD (i * n / c) 0)

/-! ## Indexes -/

/-- The index of a row. -/
def getIdx (s : State) (k : Nat) : IndexSt := s.sel.indexes.getD k {}

/-- Replace an index. -/
def setIdx (s : State) (k : Nat) (x : IndexSt) : State := { s with sel := { s.sel with indexes := s.sel.indexes.set k x } }

/-- A queued commit takes effect (R193). -/
def idxCommit (bits : Nat) (x : IndexSt) : IndexSt :=
  let x : IndexSt := match x.ready with
    | none => x
    | some r =>
      let entries := (x.entries.filter fun e => !e.gone).map fun e =>
        { e with list := r.lists.getD e.page (nearest bits r.centroids e.sketch) }
      { x with ready := none, centroids := r.centroids, state := .active, nBuild := idxCount x, building := [],
               entries := entries.stableSort fun a b => decide (a.list ≤ b.list) }
  let x : IndexSt := if x.release then { x with release := false, state := .none, centroids := [], building := [], nBuild := 0 } else x
  { x with entries := x.entries.map (fun e => if x.fresh.contains e.page then { e with visible := true } else e), fresh := [] }

/-- Every index of a sequence commits. -/
def commitIndexes (s : State) (id : Nat) : State :=
  let done := s.sel.indexes.fold (fun l k x => if k / 2 ^ 14 = id ∧ x.ready.isSome then l ++ [k] else l) []
  let s := { s with sel := { s.sel with
    indexes := s.sel.indexes.mapVals fun k x => if k / 2 ^ 14 = id then idxCommit 256 x else x } }
  done.foldl (fun s k => finishWhere s (fun g => g.key == .index id (k % 2 ^ 14 / 64) (k % 64)) .ok 0 0) s

/-- Commits take effect at once for a sequence that does not run. -/
def commitIdle (s : State) (id : Nat) : State :=
  if (getQ s id).any fun q => q.state == .running then s else commitIndexes s id

/-- A sealed page joins the index of its row (R190, R193). -/
def idxAdd (s : State) (id layer group page cluster sketch : Nat) : State :=
  let k := idxKey id layer group
  let x := getIdx s k
  let e : IdxEntry := { page := page, cluster := cluster, sketch := sketch, list := nearest 256 x.centroids sketch }
  commitIdle (setIdx s k { x with entries := x.entries.filter (fun y => y.page != page || y.gone) ++ [e], fresh := x.fresh ++ [page] }) id

/-- The indexes of a sequence are released (R193). -/
def idxRelease (s : State) (id : Nat) (p : Nat → Bool := fun _ => true) : State :=
  { s with sel := { s.sel with indexes := s.sel.indexes.filter fun k _ => !(k / 2 ^ 14 == id && p (k % 64)) } }

/-- Key of a committed list (R201). -/
def listKey (cluster heat slot group layer : Nat) : Nat := (((cluster * 4096 + heat) * 1024 + slot) * 64 + group) * 256 + layer

/-- A JOIN or LEAVE of a slot discards its committed lists (R201). -/
def dropLists (s : State) (heat slot : Nat) : State :=
  { s with sel := { s.sel with lists := s.sel.lists.filter fun k _ => k / 16384 % 4194304 != heat * 1024 + slot } }

/-- A build or rebuild starts over the pages indexed now (R192, R193). -/
def idxBegin (s : State) (k : Nat) (st : IdxState) : State :=
  let x := getIdx s k
  let slice := ((getQ s (k / 2 ^ 14)).bind fun q => sliceOf s q.domain).getD 64
  let pages := ((x.entries.filter fun e => !e.gone).map (·.page)).stableSort fun a b => decide (a ≤ b)
  setIdx s k { x with state := st, building := pages, home := (bestChannel s (sliceClusters s slice)).getD 0 }

/-- What INDEX_BUILD finds to do: a first build at THRESHOLD, or a rebuild at twice the count of the last (R193). -/
def indexBuildOp (s : State) (id layer group : Nat) : State :=
  let k := idxKey id layer group
  let x := getIdx s k
  let m := ((getQ s id).map fun q => seqModel s q).getD 0
  if !s.sel.indexes.has k then s
  else if x.state = .none ∧ sThreshold (mSel m) ≤ idxCount x ∧ x.retryAt ≤ idxCount x then idxBegin s k .building
  else if x.state = .active ∧ 2 * x.nBuild ≤ idxCount x then idxBegin s k .rebuilding
  else s

/-- INDEX_BUILD (R192, R193). -/
def execIndexBuild (seq layer group : Nat) (s : State) : Res := .next (indexBuildOp s seq layer group)

/-- The end of a build: the set is ready for its commit, or the structures had no room (R193). -/
def indexDoneOp (s : State) (id layer group : Nat) (room : Bool) : State :=
  let k := idxKey id layer group
  let x := getIdx s k
  let m := ((getQ s id).map fun q => seqModel s q).getD 0
  if (x.state = .building ∨ x.state = .rebuilding) ∧ x.ready.isNone then
    if room then
      let sketchOf := fun p => ((x.entries.find? fun e => e.page == p).map (·.sketch)).getD 0
      let cents := centroidSet 256 (sTarget (mSel m)) (sIters (mSel m)) (x.building.map sketchOf)
      let lists := x.entries.foldl (fun (t : Map Nat) e => t.set e.page (nearest 256 cents e.sketch)) .empty
      commitIdle (setIdx s k { x with ready := some { centroids := cents, lists := lists } }) id
    else
      let s := setIdx s k { x with state := if x.state = .building then .none else .active, building := [],
                                   retryAt := 2 * idxCount x }
      let q := (getQ s id).getD {}
      let s := raiseObj s 0x0001 0x0012 x.home q.domain q.ctrlPort
        (pack [(0, 8, x.home), (128, 48, id), (176, 8, layer), (184, 8, group)])
      finishWhere s (fun g => g.key == .index id layer group) .noHeadroom 0 0
  else s

/-- INDEX_BUILD_COMPLETE (R192, R193). -/
def execIndexBuildComplete (seq layer group : Nat) (room : Bool) (s : State) : Res :=
  .next (indexDoneOp s seq layer group room)

/-- The row of SEL_REBUILD (R193, R468). -/
def rowSelRebuild : HRow :=
  fixedRow 0x0802 8 [(0, 5), (6, 6), (7, 7)]

/-- SEL_REBUILD: its own part (R193, R468). -/
def bodySelRebuild (d : Desc) (s : State) : State × Ans :=
  let id := byt d.body 0 5
  let layer := byt d.body 6 6
  let group := byt d.body 7 7
  let s := renewBy d s id
  withObj (seqFor d s id) s fun q =>
    let m := seqModel s q
    failIf (decide (mLayers m ≤ layer ∨ mGroups m ≤ group)) .badField s
      (match (getIdx s (idxKey id layer group)).state with
       | .none => (s, .fail .badState)
       | .active => (idxBegin s (idxKey id layer group) .rebuilding, .accept (.index id layer group))
       | _ => (s, .fail .busy))

/-- SEL_REBUILD (R193, R468): the final OK comes at the commit. -/
def execSelRebuild (d : Desc) (s : State) : Res := runHuavo rowSelRebuild bodySelRebuild d s

end Sys2Proof.Machine
end

