-- ==== Sys2Proof/Machine/Directory.lean ====
section
/-! DEFINITION. The prefix directory: banks, row records, publication, retraction, search and attachment (chapter 8). -/

namespace Sys2Proof.Machine

/-! ## Banks and entries (R216 to R218) -/

/-- Directory fields of a model (R217). -/
def dBanks (m : ModelSt) : Nat := rf (mDir m.record) 3 0
def dPublish (m : ModelSt) : Bool := rb (mDir m.record) 4

/-- A bank. -/
def dirBank (s : State) (b : Nat) : DirBank := s.dir.banks.getD b {}

/-- Replace a bank. -/
def setDirBank (s : State) (b : Nat) (v : DirBank) : State := { s with dir := { s.dir with banks := s.dir.banks.set b v } }

/-- The bank a hash belongs to. -/
def bankOf (m : ModelSt) (hash : Nat) : Nat := (m.bankBase + hash % 65536 % max 1 (dBanks m)) % 64

/-- A VALID entry with a key; a hash of 0 never matches (R214, R216). -/
def dirMatch (e : DirEntry) (domain model depth hash : Nat) : Bool :=
  e.valid && hash != 0 && e.hash == hash && e.depthM1 + 1 == depth && e.model == model && e.domain == domain

/-- The first VALID entry of a model with a key. -/
def dirFind (s : State) (m : ModelSt) (domain model depth hash : Nat) : Option (Nat × DirEntry) :=
  (dirBank s (bankOf m hash)).entries.find? fun _ e => dirMatch e domain model depth hash

/-! ## Row records (R219, R220) -/

/-- A record with its holds above 0. -/
def liveRecord (s : State) (r : Nat) : Option RowRec := (s.dir.records.get? r).filter fun v => decide (0 < v.holds)

/-- Change a record. -/
def modRecord (s : State) (r : Nat) (g : RowRec → RowRec) : State :=
  { s with dir := { s.dir with records := s.dir.records.modify r g } }

/-- One holder of a record goes. -/
def dropHold (s : State) (r : Nat) : State := modRecord s r fun v => { v with holds := v.holds - 1 }

/-- Bytes of a record of `n` frames. -/
def recordBytes (n : Nat) : Nat := 64 + roundUp (4 * n) 64

/-- An address of the pool of a channel that no record uses (R104, R219). -/
def recordAddr (s : State) (ch : Nat) : (k fuel : Nat) → Option Nat
  | _, 0 => none
  | k, fuel + 1 =>
    let a := pack [(35, 5, ch), (0, 35, (Config.poolAddress s.mem.placed).toNat + k)]
    if s.dir.records.has a then recordAddr s ch (k + 1) fuel else some a

/-- Space for a record in a channel's pool. -/
def placeRecord (s : State) (ch bytes : Nat) : Option (Nat × State) :=
  if poolFree s ch < bytes then none
  else (recordAddr s ch 0 (s.dir.records.size + 1)).map fun a =>
    (a, { s with mem := { s.mem with placed := s.mem.placed + 1, poolUsed := s.mem.poolUsed.upd ch 0 fun n => n + bytes } })

/-- The release of a record without holders: references, parent's hold, space (R220). -/
def releaseRecord (s : State) (r : Nat) : State :=
  match s.dir.records.get? r with
  | none => s
  | some v =>
    if v.holds ≠ 0 then s
    else
      let s := v.frames.foldl dropRef s
      let s := { s with dir := { s.dir with records := s.dir.records.erase r } }
      let s := match v.parent with | some p => dropHold s p | none => s
      unplaceBlock s r (recordBytes v.frames.length)

/-- ROW_RECORD_RELEASE (R220). -/
def execRowRecordRelease (record : Nat) (s : State) : Res := .next (releaseRecord s record)

/-! ## Rows of a sequence -/

/-- The (layer, group) rows that this node hosts for a sequence, in record order (R219). -/
def hostedRows (s : State) (q : SeqSt) : List (Nat × Nat) :=
  (List.range (mLayers (seqModel s q))).flatMap fun l => (groupsOf q).map fun g => (l, g)

/-- The frames of one block of a sequence, none when some page is not on this node. -/
def rowFramesOf (s : State) (q : SeqSt) (row : Nat) : Option (List Nat) :=
  (hostedRows s q).mapM fun r => match getLeaf q r.1 r.2 row with
    | some e => if e.loc = 1 then some e.frame else none
    | none => none

/-- The frame holds a sealed page. -/
def isSealed (s : State) (f : Nat) : Bool := (getFr s f).state == .sealed || (getFr s f).state == .shared

/-- The frames of a block when every one is sealed. -/
def sealedRow (s : State) (q : SeqSt) (row : Nat) : Option (List Nat) :=
  (rowFramesOf s q row).filter fun l => !l.isEmpty && l.all (isSealed s)

/-! ## Placing entries (R224) -/

/-- Where a new entry of a depth may stand without a shift: from, and one past. -/
def dirGap (b : DirBank) (d : Nat) : Nat × Nat :=
  (b.entries.fold (fun n a e => if d < e.depthM1 then a + 1 else n) 0,
   b.entries.fold (fun n a e => if e.depthM1 < d then min n a else n) 2048)

/-- Put a new entry into a bank that has room: at once, or by a domino shift. -/
def placeEntry (s : State) (b : Nat) (e : DirEntry) (next : Option DirJob) : State :=
  let bank := dirBank s b
  let (lo, hi) := dirGap bank e.depthM1
  match (List.range (hi - lo)).find? fun i => !bank.entries.has (lo + i) with
  | some i => setDirBank s b { bank with entries := bank.entries.set (lo + i) e }
  | none =>
    let empties := (List.range 2048).filter fun a => !bank.entries.has a
    let far := fun a => if a < lo then lo - a else a - (hi - 1)
    match empties.foldl (fun (t : Option Nat) a => match t with
      | none => some a
      | some x => if far a < far x then some a else some x) none with
    | none => s
    | some a => setDirBank s b { bank with shift := some { hole := a, goal := if a < lo then lo - 1 else hi, entry := e, next := next } }

/-- A bank without an EMPTY entry. -/
def bankFull (s : State) (b : Nat) : Bool := decide (2048 ≤ (dirBank s b).entries.size)

/-- A hash, depth, model and domain of a record under its entry. -/
def newRecord (q : SeqSt) (hash depth : Nat) (parent : Option Nat) (frames : List Nat) : RowRec :=
  { hash := hash, depthM1 := depth - 1, model := q.model, domain := q.domain, parent := parent, groupMask := q.groupMask,
    frames := frames }

/-- Build a record: space, parent's hold, frame references (R225). -/
def buildRecord (s : State) (r : Nat) (v : RowRec) : State :=
  let s := { s with dir := { s.dir with records := s.dir.records.set r v } }
  let s := match v.parent with | some p => modRecord s p fun x => { x with holds := x.holds + 1 } | none => s
  v.frames.foldl addRef s

/-! ## Node-internal publication (R225, R226) -/

/-- Counters of R226. -/
inductive PubCount where
  | published | duplicate | noHash | full | damaged
deriving DecidableEq, Repr

/-- Place of a counter, in PREFIX_STATS order. -/
def PubCount.place : PubCount → Nat
  | .published => 0 | .duplicate => 1 | .noHash => 2 | .full => 3 | .damaged => 4

/-- Count a publication outcome of a model. -/
def countPub (s : State) (domain model : Nat) (c : PubCount) : State :=
  { s with dir := { s.dir with counters := s.dir.counters.upd (mkey domain model * 8 + c.place) 0 fun n => satAdd 64 n 1 } }

/-- The cursor's record, when it has not been released (R225). -/
def cursorRecord (s : State) (q : SeqSt) : Option (Nat × RowRec) :=
  q.cursor.bind fun c => ((liveRecord s c.1).filter fun v =>
    v.hash == c.2.1 && v.depthM1 == c.2.2 && v.model == q.model && v.domain == q.domain).map fun v => (c.1, v)

/-- Depth of the cursor. -/
def cursorDepth (q : SeqSt) : Nat := match q.cursor with | some c => c.2.2 + 1 | none => 0

/-- A row of a sequence is published, or counted as not published (R225, R226). -/
def publishNode (s : State) (id row : Nat) : State :=
  match getQ s id with
  | none => s
  | some q => match getM s q.domain q.model, sealedRow s q row with
    | some m, some frames =>
      let hash := q.hashes.getD row 0
      let fail := fun (c : PubCount) => countPub (modQ s id fun q => { q with cursor := none }) q.domain q.model c
      let parent := cursorRecord s q
      let b := bankOf m hash
      if hash = 0 then fail .noHash
      else if (frames.any fun f => (getFr s f).damaged) || (q.cursor.isSome && !(parent.any fun p => !p.2.broken)) then fail .damaged
      else match dirFind s m q.domain q.model (row + 1) hash with
        | some (_, e) =>
          countPub (modQ s id fun q => { q with cursor := some (e.record, hash, row) }) q.domain q.model .duplicate
        | none =>
          if bankFull s b then fail .full
          else match placeRecord s (frames.headD 0 % 20) (recordBytes frames.length) with
            | none => fail .full
            | some (r, s') =>
              if (parent.any fun p => decide (65535 ≤ p.2.holds)) || (frames.any fun f => decide (65535 ≤ (getFr s f).refs)) then
                fail .full
              else
                let s := buildRecord s' r (newRecord q hash (row + 1) (parent.map (·.1)) frames)
                let s := placeEntry s b
                  { hash := hash, depthM1 := row, model := q.model, domain := q.domain, record := r } none
                countPub (modQ s id fun q => { q with cursor := some (r, hash, row) }) q.domain q.model .published
    | _, _ => s

/-! ## Jobs of the banks (R224, R227) -/

/-- Key of the command behind a host-directed work. -/
def workKey (w : Nat) : ObjKey := .other (2 ^ 50 + w)

/-- A host-directed work ends. -/
def endWork (s : State) (w : Nat) (st : Status) (aux : Nat) : State := finishWhere s (fun g => g.key == workKey w) st 0 aux

/-- Put a job at the end of a bank's queue. -/
def queueJob (s : State) (b : Nat) (j : DirJob) : State :=
  { s with dir := { s.dir with queues := s.dir.queues.upd b [] fun l => l ++ [j] } }

/-- The model of an item's sequence. -/
def itemModel (s : State) (i : PubItem) : Option ModelSt := (getQ s i.seq).bind fun q => getM s q.domain q.model

/-- The rest of a publication goes to the bank of its next item, or the work ends. -/
def nextItem (s : State) (w index : Nat) : List PubItem → State
  | [] => endWork s w .ok 0
  | i :: t => queueJob s (((itemModel s i).map fun m => bankOf m i.hash).getD 0) (.host w index (i :: t))

/-- Is a shift running in the bank? -/
def shifting (s : State) (b : Nat) : Bool := (dirBank s b).shift.isSome

/-- What forbids a publication item, in the order of R229; otherwise the model, the frames and the parent. -/
def itemCheck (s : State) (d : Desc) (i : PubItem) : Except Status (SeqSt × ModelSt × List Nat × Option Nat) :=
  if i.bad then .error .badReserved
  else match seqFor d s i.seq with
    | .error st => .error st
    | .ok q =>
      if i.depth = 0 ∨ 1048576 < i.depth ∨ i.hash = 0 ∨ (i.depth = 1 ∧ i.parentHash ≠ 0) then .error .badField
      else match getM s q.domain q.model with
        | none => .error .badState
        | some m =>
          if dBanks m = 0 then .error .badState
          else match sealedRow s q (i.depth - 1) with
            | none => .error .badState
            | some frames =>
              if frames.any fun f => (getFr s f).damaged then .error .badState
              else
                let parent := (dirFind s m q.domain q.model (i.depth - 1) i.parentHash).map (·.2.record)
                let parentBad := decide (1 < i.depth) && !(parent.any fun r => (liveRecord s r).any fun v => !v.broken)
                let there := dirFind s m q.domain q.model i.depth i.hash
                if parentBad ∨ (there.isSome ∧ !i.replaces) then .error .badState
                else if there.isNone ∧ bankFull s (bankOf m i.hash) then .error .noHeadroom
                else if poolFree s (frames.headD 0 % 20) < recordBytes frames.length then .error .noHeadroom
                else if (parent.any fun r => (liveRecord s r).any fun v => decide (65535 ≤ v.holds))
                    || (frames.any fun f => decide (65535 ≤ (getFr s f).refs)) then .error .exhausted
                else .ok (q, m, frames, if 1 < i.depth then parent else none)

/-- One item of a host's publication (R227). -/
def publishHost (s : State) (b w index : Nat) (i : PubItem) (rest : List PubItem) : State :=
  match s.flights.find? fun g => g.key == workKey w with
  | none => s
  | some g =>
    let d : Desc := { port := g.port, func := g.func, domain := BitVec.ofNat 8 g.domain }
    match itemCheck s d i with
    | .error st => endWork s w st (if g.opcode = 0x0705 then index else 0)
    | .ok (q, m, frames, parent) =>
      match placeRecord s (frames.headD 0 % 20) (recordBytes frames.length) with
      | none => endWork s w .noHeadroom (if g.opcode = 0x0705 then index else 0)
      | some (r, s) =>
        let s := buildRecord s r (newRecord q i.hash i.depth parent frames)
        match dirFind s m q.domain q.model i.depth i.hash with
        | some (a, e) =>
          let bank := dirBank s b
          let s := setDirBank s b { bank with entries := bank.entries.set a { e with record := r, byHost := true } }
          nextItem (dropHold s e.record) w (index + 1) rest
        | none =>
          let s := placeEntry s b
            { hash := i.hash, depthM1 := i.depth - 1, model := q.model, domain := q.domain, byHost := true, record := r }
            (some (.host w (index + 1) rest))
          if shifting s b then s else nextItem s w (index + 1) rest

/-- An entry leaves the directory: INVALID, EMPTY, then its hold goes (R227). -/
def removeEntry (s : State) (b a : Nat) : State :=
  let bank := dirBank s b
  match bank.entries.get? a with
  | none => s
  | some e => dropHold (setDirBank s b { bank with entries := bank.entries.erase a }) e.record

/-- A retraction (R229). -/
def retractKey (s : State) (b w model depth hash : Nat) : State :=
  match s.flights.find? fun g => g.key == workKey w with
  | none => s
  | some g => match (dirBank s b).entries.find? fun _ e => dirMatch e g.domain model depth hash with
    | none => endWork s w .badState 0
    | some (a, _) => endWork (removeEntry s b a) w .ok 0

/-- An attachment walk is under way: later updates wait for it (R230). -/
def attaching (s : State) : Bool := s.seqs.any fun _ q => q.attach.isSome

/-- Run one job of a bank. -/
def runJob (s : State) (b : Nat) : DirJob → State
  | .node id row => publishNode s id row
  | .host w index (i :: rest) => publishHost s b w index i rest
  | .host w _ [] => endWork s w .ok 0
  | .retract w model depth hash => retractKey s b w model depth hash

/-- Banks take their jobs in order, one at a time, while no shift holds them (R224). -/
def dirDrain (s : State) : (fuel : Nat) → State
  | 0 => s
  | fuel + 1 =>
    if attaching s then s
    else match s.dir.queues.find? fun b l => !l.isEmpty && !shifting s b with
      | none => s
      | some (b, j :: t) => dirDrain (runJob { s with dir := { s.dir with queues := s.dir.queues.set b t } } b j) fuel
      | some (_, []) => s

/-- Enough rounds for everything that waits. -/
def dirFuel (s : State) : Nat :=
  s.dir.queues.fold (fun n _ l => l.foldl (fun n j => match j with | .host _ _ items => n + items.length + 1 | _ => n + 1) n) 0

/-- Let the banks work. -/
def dirRun (s : State) : State := dirDrain s (dirFuel s)

/-- One step of a domino shift: an entry moves one place; the new entry is written once its place is free (R224). -/
def shiftStep (s : State) (b : Nat) : State :=
  let bank := dirBank s b
  match bank.shift with
  | none => s
  | some x =>
    let src := if x.goal < x.hole then x.hole - 1 else x.hole + 1
    let move := if x.hole = x.goal then bank.entries else match bank.entries.get? src with
      | some e => bank.entries.set x.hole e
      | none => bank.entries.erase x.hole
    let hole := if x.hole = x.goal then x.goal else src
    if hole = x.goal then
      let s := setDirBank s b { bank with entries := move.set x.goal x.entry, shift := none }
      match x.next with
      | some (.host w index rest) => nextItem s w index rest
      | _ => s
    else setDirBank s b { bank with entries := move, shift := some { x with hole := hole } }

/-- DOMINO_SHIFT (R224). -/
def execDominoShift (bank : Fin 64) (s : State) : Res := .next (dirRun (shiftStep s bank.val))

/-- NODE_PUBLICATION (R225): the next row of a sequence, once every frame of it is sealed. -/
def publicationOp (s : State) (id : Nat) : State :=
  match getQ s id with
  | none => s
  | some q => match getM s q.domain q.model, sealedRow s q q.rowTried with
    | some m, some _ =>
      let row := q.rowTried
      let s := modQ s id fun q => { q with rowTried := row + 1 }
      if dPublish m && cursorDepth q == row then
        dirRun (queueJob s (bankOf m (q.hashes.getD row 0)) (.node id row))
      else s
    | _, _ => s

/-- NODE_PUBLICATION (R225, R226). -/
def execNodePublication (seq : Nat) (s : State) : Res := .next (publicationOp s seq)

/-! ## Withdrawal (R217, R229, R232) -/

/-- A shift is carried to its end. -/
def settleBank (s : State) (b : Nat) : (fuel : Nat) → State
  | 0 => s
  | fuel + 1 => if shifting s b then settleBank (shiftStep s b) b fuel else s

/-- Every entry of a model is retracted. -/
def retractModel (s : State) (domain model : Nat) : State :=
  (s.dir.banks.l.map (·.1)).foldl (fun s b =>
    let s := settleBank s b 2048
    ((dirBank s b).entries.l.filter fun e => e.2.domain == domain && e.2.model == model).foldl (fun s e => removeEntry s b e.1) s) s

/-- A frame has lost both copies: its records are BROKEN and their entries go (R232). -/
def breakRecords (s : State) (frame : Nat) : State :=
  let hit := (s.dir.records.l.filter fun e => e.2.frames.contains frame).map (·.1)
  let s := hit.foldl (fun s r => modRecord s r fun v => { v with broken := true }) s
  (s.dir.banks.l).foldl (fun s b =>
    (b.2.entries.l.filter fun e => hit.contains e.2.record).foldl (fun s e => removeEntry s b.1 e.1) s) s

/-- Repair and migration switch the frame that records name (R220). -/
def switchRecords (s : State) (old new : Nat) : State :=
  { s with dir := { s.dir with records := s.dir.records.mapVals fun _ v =>
    { v with frames := v.frames.map fun f => if f = old then new else f } } }

/-- The cursor after a truncation to a position (R233). -/
def truncCursor (s : State) (q : SeqSt) (row : Nat) : Option (Nat × Nat × Nat) :=
  match cursorRecord s q with
  | none => none
  | some (r, v) => go r v (v.depthM1 + 1)
where
  /-- walk PARENT to the wanted depth -/
  go (r : Nat) (v : RowRec) : (fuel : Nat) → Option (Nat × Nat × Nat)
    | 0 => none
    | fuel + 1 =>
      if v.depthM1 + 1 = row then some (r, v.hash, v.depthM1)
      else match v.parent with
        | none => none
        | some p => match s.dir.records.get? p with
          | none => none
          | some w => go p w fuel

/-! ## Commands (R221, R229, R467) -/

/-- Checks that the directory commands on a model share (R221). -/
def dirModel (d : Desc) (s : State) (n : Nat) : Except Status ModelSt := modelFor d s n

/-- The row of PREFIX_SEARCH (R221). -/
def rowPrefixSearch : HRow :=
  { opcode := 0x0701, ptr := false,
    lenOk := fun p n => decide (16 ≤ n) && n == 16 + 12 * byt p 2 2,
    named := fun p _ => [(23, 0), (55, 32), (127 + 96 * byt p 2 2, 128)] }

/-- PREFIX_SEARCH: its own part (R221). -/
def bodyPrefixSearch (d : Desc) (s : State) : State × Ans :=
  let n := byt d.body 2 2
  let d0 := byt d.body 4 6
  let model := byt d.body 0 1
  withObj (dirModel d s model) s fun m =>
    failIf (decide (n = 0 ∨ 32 < n ∨ d0 = 0 ∨ 1048577 < d0 + n)) .badField s
      (failIf (dBanks m == 0) .badState s
        (let hits := (List.range n).filterMap fun i =>
           (dirFind s m d.domain.toNat model (d0 + i) (fld d.body (223 + 96 * i) (128 + 96 * i))).map fun e => (d0 + i, e.2)
         match hits.getLast? with
         | none => (s, .done)
         | some (depth, e) => (s, .done (pack [(0, 21, depth), (24, 40, e.record), (64, 1, b2n e.byHost)]))))

/-- PREFIX_SEARCH (R221): N hashes of 12 bytes follow the fixed part. -/
def execPrefixSearch (d : Desc) (s : State) : Res :=
  runHuavo
    rowPrefixSearch
    bodyPrefixSearch d s

/-- A fresh work of the directory. -/
def newWork (s : State) : Nat × State := (s.dir.works, { s with dir := { s.dir with works := s.dir.works + 1 } })

/-- One 40-byte publication item. -/
def pubItem (x : Nat) : PubItem :=
  { seq := byt x 0 5, replaces := fld x 48 48 == 1, depth := byt x 8 10, hash := byt x 16 27, parentHash := byt x 28 39,
    bad := (x % 2 ^ 384 &&& maskOf [(48, 0), (87, 64), (319, 128)]) != x % 2 ^ 384 }

/-- The row of PREFIX_PUBLISH (R227, R229). -/
def rowPrefixPublish : HRow :=
  { opcode := 0x0703, lenOk := fun _ n => n == 40, named := fun _ _ => [(48, 0), (87, 64), (319, 128)] }

/-- PREFIX_PUBLISH: its own part (R227, R229). -/
def bodyPrefixPublish (d : Desc) (s : State) : State × Ans :=
  let i := pubItem (d.body % 2 ^ 320)
  withObj (seqFor d s i.seq) s fun q =>
    failIf (objBusy s (.seq i.seq)) .busy s
    (match getM s q.domain q.model with
     | none => (s, .fail .badState)
     | some _ =>
       let (w, s) := newWork s
       (nextItem s w 0 [i], .accept (workKey w)))

/-- PREFIX_PUBLISH (R227, R229). -/
def execPrefixPublish (d : Desc) (s : State) : Res :=
  .next (dirRun (huavo
    rowPrefixPublish
    bodyPrefixPublish d s))

/-- The row of PREFIX_RETRACT (R227, R229). -/
def rowPrefixRetract : HRow :=
  fixedRow 0x0704 28 [(0, 1), (8, 10), (16, 27)]

/-- PREFIX_RETRACT: its own part (R227, R229). -/
def bodyPrefixRetract (d : Desc) (s : State) : State × Ans :=
  let model := byt d.body 0 1
  let depth := byt d.body 8 10
  let hash := byt d.body 16 27
  withObj (dirModel d s model) s fun m =>
    failIf (decide (depth = 0 ∨ 1048576 < depth)) .badField s
      (failIf (dBanks m == 0) .badState s
        (let (w, s) := newWork s
         (queueJob s (bankOf m hash) (.retract w model depth hash), .accept (workKey w))))

/-- PREFIX_RETRACT (R227, R229). -/
def execPrefixRetract (d : Desc) (s : State) : Res :=
  .next (dirRun (huavo rowPrefixRetract
    bodyPrefixRetract d s))

/-- The row of PREFIX_BULK_LOAD (R229). -/
def rowPrefixBulkLoad : HRow :=
  fixedRow 0x0705 10 [(0, 7), (8, 9)]

/-- PREFIX_BULK_LOAD: its own part (R229). -/
def bodyPrefixBulkLoad (d : Desc) (s : State) : State × Ans :=
  let n := byt d.body 8 9
  failIf (decide (n = 0 ∨ 4096 < n)) .badField s
    (withBuffer s d
      (let items := (List.range n).map fun i => pubItem (hostData d / 2 ^ (384 * i) % 2 ^ 384)
       let (w, s) := newWork s
       (nextItem s w 0 items, .accept (workKey w))))

/-- PREFIX_BULK_LOAD (R229): the items come from a host buffer. -/
def execPrefixBulkLoad (d : Desc) (s : State) : Res :=
  .next (dirRun (huavo rowPrefixBulkLoad
    bodyPrefixBulkLoad d s))

/-- VALID entries of a bank. -/
def validCount (s : State) (b : Nat) : Nat := (dirBank s b).entries.fold (fun n _ e => if e.valid then n + 1 else n) 0

/-- The row of PREFIX_STATS (R229, R467). -/
def rowPrefixStats : HRow :=
  { opcode := 0x0706, lenOk := fun _ n => n == 16, named := fun _ _ => [(16, 0), (127, 64)] }

/-- PREFIX_STATS: its own part (R229, R467). -/
def bodyPrefixStats (d : Desc) (s : State) : State × Ans :=
  let model := byt d.body 0 1
  withObj (dirModel d s model) s fun m =>
    failIf (!outOk (byt d.body 8 15)) .badField s
      (let k := mkey d.domain.toNat model * 8
       let counts := (List.range 5).map fun i => s.dir.counters.getD (k + i) 0
       let banks := (List.range (dBanks m)).map fun i => validCount s ((m.bankBase + i) % 64)
       let s := if bit d.body 16 then { s with dir := { s.dir with counters := s.dir.counters.filter fun j _ => j / 8 != k / 8 } } else s
       (s, .done 0 0 (byt d.body 8 15) (40 + 8 * dBanks m) (packElems 64 (counts ++ banks))))

/-- PREFIX_STATS (R229, R467). -/
def execPrefixStats (d : Desc) (s : State) : Res := runHuavo rowPrefixStats bodyPrefixStats d s

/-! ## Attaching (R230) -/

/-- The row of PREFIX_ATTACH (R230). -/
def rowPrefixAttach : HRow :=
  fixedRow 0x0702 28 [(0, 5), (8, 10), (16, 27)]

/-- PREFIX_ATTACH: its own part (R230). -/
def bodyPrefixAttach (d : Desc) (s : State) : State × Ans :=
  let id := byt d.body 0 5
  let depth := byt d.body 8 10
  let hash := byt d.body 16 27
  let s := renewBy d s id
  withObj (seqFor d s id) s fun q =>
    failIf (decide (depth = 0 ∨ 1048576 < depth)) .badField s
      (failIf (objBusy s (.seq id)) .busy s
        (failIf (q.state != .idle || q.length != 0) .badState s
          (match getM s q.domain q.model with
           | none => (s, .fail .badState)
           | some m =>
             failIf (dBanks m == 0) .badState s
               (match dirFind s m q.domain q.model depth hash with
                | none => (s, .fail .badState)
                | some (_, e) =>
                  (modQ s id fun q => { q with attach := some { record := e.record, depth := depth } }, .accept (.seq id))))))

/-- PREFIX_ATTACH (R230): the key is searched again, and the walk begins. -/
def execPrefixAttach (d : Desc) (s : State) : Res := runHuavo rowPrefixAttach bodyPrefixAttach d s

/-- The chain of records from one back to depth 1, deepest first. -/
def recordChain (s : State) (r : Nat) : (fuel : Nat) → List (Nat × RowRec)
  | 0 => []
  | fuel + 1 => match s.dir.records.get? r with
    | none => []
    | some v => (r, v) :: (match v.parent with | some p => recordChain s p fuel | none => [])

/-- The frame a record holds for a (layer, group). -/
def recordFrame (v : RowRec) (layer group : Nat) : Nat :=
  let per := popCount v.groupMask 64
  v.frames.getD (layer * per + popCount v.groupMask group) 0

/-- References that the attachment takes on one frame. -/
def takes (s : State) (q : SeqSt) (chain : List (Nat × RowRec)) (f : Nat) : Nat :=
  chain.foldl (fun n v => (hostedRows s q).foldl (fun n r => if recordFrame v.2 r.1 r.2 = f then n + 1 else n) n) 0

/-- The walk has ended: leaf entries, references, LENGTH and cursor are set, and the command completes. -/
def walkDone (s : State) (id : Nat) : State :=
  match getQ s id with
  | none => s
  | some q => match q.attach with
    | none => s
    | some a =>
      let s := setQ s id { q with attach := none }
      let q := { q with attach := none }
      let fin := fun (s : State) (st : Status) (n : Nat) => dirRun (finishWhere s (fun g => g.key == .seq id && g.opcode == 0x0702) st n 0)
      let chain := (recordChain s a.record (a.depth + 1)).reverse
      let good := chain.takeWhile fun v => !v.2.broken
      let t := mT (seqModel s q)
      let rows := hostedRows s q
      if chain.length ≠ a.depth then fin s .badState 0
      else if good.any fun v => (v.2.groupMask &&& q.groupMask) != q.groupMask then fin s .badState 0
      else if q.maxCtxM1 + 1 < good.length * t then fin s .badField 0
      else if (good.any fun v => rows.any fun r => decide (65535 < (getFr s (recordFrame v.2 r.1 r.2)).refs
          + takes s q good (recordFrame v.2 r.1 r.2))) then fin s .exhausted 0
      else
        let pages := good.zipIdx.flatMap fun v => rows.map fun r => (r, v.2, recordFrame v.1.2 r.1 r.2)
        match pages.foldl (fun (o : Option State) p => o.bind fun s => ensureLeaf s id p.1.1 p.1.2 p.2.1) (some s) with
        | none => fin s .noHeadroom 0
        | some s =>
          let s := pages.foldl (fun s p =>
            let s := modQ s id fun q => putLeaf q p.1.1 p.1.2 p.2.1 { node := s.nodeNo, frame := p.2.2, loc := 1 }
            let s := addRef s p.2.2
            let h := (getFr s p.2.2).data
            idxAdd s id p.1.1 p.1.2 p.2.1 (p.2.2 % 20) h.sketch.toNat) s
          let cursor := (good.getLast?).map fun v => (v.1, v.2.hash, v.2.depthM1)
          let s := modQ s id fun q => { q with length := good.length * t, cursor := cursor, rowTried := good.length }
          fin s (if good.length < a.depth then .partly else .ok) good.length

/-- RECORD_WALK_DONE (R230). -/
def execRecordWalkDone (seq now : Nat) (s : State) : Res := .next (walkDone (clockTo s now) seq)

end Sys2Proof.Machine
end

