-- ==== Sys2Proof/Machine/Fp.lean ====
section
/-! DEFINITION. Exact arithmetic on the numbers of the engines, with the one rounding each rule asks for: FP32, the
stored formats and their scales, exp2, tanh, sine, cosine and the rotary frequencies (R125 to R130, R151, R160, R161). -/

namespace Sys2Proof.Machine

/-! ## Numbers -/

/-- A number an engine holds: NaN, an infinity, or exactly m × 2^e. Zero has no sign here: every zero is written as +0
(R129). -/
inductive Num where
  | nan
  | inf (neg : Bool)
  | fin (m e : Int)
deriving DecidableEq, Repr, Inhabited

/-- Zero. -/
def Num.zero : Num := .fin 0 0

/-- One. -/
def Num.one : Num := .fin 1 0

/-- The number is zero. -/
def Num.isZero : Num → Bool | .fin m _ => m == 0 | _ => false

/-- The number is neither NaN nor infinite. -/
def Num.isFinite : Num → Bool | .fin .. => true | _ => false

/-- Bits of a positive number: its bit length. -/
def bitLen (n : Nat) : Nat := if n = 0 then 0 else Nat.log2 n + 1

/-- An integer scaled by a power of two that is not negative. -/
def scaleUp (m : Int) (k : Nat) : Int := m * (2 ^ k : Nat)

/-- The exact sum of two finite numbers, as mantissa and exponent. -/
def addExact (a b : Int × Int) : Int × Int :=
  let e := min a.2 b.2
  (scaleUp a.1 (a.2 - e).toNat + scaleUp b.1 (b.2 - e).toNat, e)

/-- The exact sum. -/
def Num.add : Num → Num → Num
  | .nan, _ => .nan
  | _, .nan => .nan
  | .inf a, .inf b => if a == b then .inf a else .nan
  | .inf a, _ => .inf a
  | _, .inf b => .inf b
  | .fin m e, .fin n f => let r := addExact (m, e) (n, f); .fin r.1 r.2

/-- The exact product. -/
def Num.mul : Num → Num → Num
  | .nan, _ => .nan
  | _, .nan => .nan
  | .inf a, .inf b => .inf (a != b)
  | .inf a, .fin m _ => if m = 0 then .nan else .inf (a != decide (m < 0))
  | .fin m _, .inf b => if m = 0 then .nan else .inf (b != decide (m < 0))
  | .fin m e, .fin n f => .fin (m * n) (e + f)

/-- The negated number. -/
def Num.neg : Num → Num | .nan => .nan | .inf a => .inf !a | .fin m e => .fin (-m) e

/-- The magnitude. -/
def Num.abs : Num → Num | .nan => .nan | .inf _ => .inf false | .fin m e => .fin m.natAbs e

/-- Below, among numbers that are not NaN. -/
def Num.lt : Num → Num → Bool
  | .nan, _ => false
  | _, .nan => false
  | .inf a, .inf b => a && !b
  | .inf a, _ => a
  | _, .inf b => !b
  | .fin m e, .fin n f => decide ((addExact (m, e) (-n, f)).1 < 0)

/-- The larger of two numbers; the first when they are equal. -/
def Num.max (a b : Num) : Num := if a.lt b then b else a

/-! ## Rounding -/

/-- Round m × 2^e to `prec` significant bits, its unit no smaller than 2^emin, to nearest, ties to even: the unit count
and the unit's exponent. -/
def roundParts (prec : Nat) (emin : Int) (m e : Int) : Nat × Int :=
  let n := m.natAbs
  let t := if n = 0 then emin else Max.max (e + bitLen n - prec) emin
  if t ≤ e then (n * 2 ^ (e - t).toNat, t)
  else
    let s := (t - e).toNat
    let q := n / 2 ^ s
    let r := n % 2 ^ s
    let half := 2 ^ (s - 1)
    (if half < r ∨ (r = half ∧ q % 2 = 1) then q + 1 else q, t)

/-- Round to FP32, to nearest even, an overflow giving the infinity of its sign. -/
def round32 : Num → Num
  | .fin m e =>
    let r := roundParts 24 (-149) m e
    if (128 : Int) < r.2 + bitLen r.1 then .inf (decide (m < 0))
    else .fin (if m < 0 then -(r.1 : Int) else r.1) r.2
  | x => x

/-- The largest finite FP32 value. -/
def max32 (neg : Bool) : Num := .fin (if neg then -16777215 else 16777215) 104

/-- Round to FP32, an overflow saturating (R165): the value, and whether it saturated. -/
def roundSat (x : Num) : Num × Bool :=
  match x, round32 x with
  | .fin .., .inf a => (max32 a, true)
  | _, y => (y, false)

/-- FP32 sum and product. -/
def add32 (a b : Num) : Num := round32 (a.add b)
def mul32 (a b : Num) : Num := round32 (a.mul b)

/-! ## Encodings (R127, R129) -/

/-- A floating format: exponent bits, mantissa bits, bias, largest finite encoding, infinity and NaN encodings. -/
structure MiniFmt where
  ebits : Nat
  mbits : Nat
  bias : Int
  maxEnc : Nat
  inf : Option Nat
  nan : Nat
deriving DecidableEq, Repr

/-- The floating formats by code; code 6 is not floating. -/
def miniFmt : Nat → MiniFmt
  | 0 => { ebits := 8, mbits := 7, bias := 127, maxEnc := 0x7F7F, inf := some 0x7F80, nan := 0x7FC0 }
  | 2 => { ebits := 5, mbits := 2, bias := 15, maxEnc := 0x7B, inf := some 0x7C, nan := 0x7E }
  | 4 => { ebits := 3, mbits := 2, bias := 3, maxEnc := 31, inf := none, nan := 0 }
  | 5 => { ebits := 2, mbits := 1, bias := 1, maxEnc := 7, inf := none, nan := 0 }
  | 7 => { ebits := 8, mbits := 23, bias := 127, maxEnc := 0x7F7FFFFF, inf := some 0x7F800000, nan := 0x7FC00000 }
  | _ => { ebits := 4, mbits := 3, bias := 7, maxEnc := 0x7E, inf := none, nan := 0x7F }

/-- Unit exponent of a format's subnormals. -/
def MiniFmt.emin (f : MiniFmt) : Int := 1 - f.bias - f.mbits

/-- Weight of a format's sign bit. -/
def MiniFmt.sign (f : MiniFmt) : Nat := 2 ^ (f.ebits + f.mbits)

/-- Encode a magnitude: nearest, ties to the even encoding, saturating (R129). -/
def MiniFmt.magnitude (f : MiniFmt) (m e : Int) : Nat :=
  let r := roundParts (f.mbits + 1) f.emin m e
  let enc := if r.1 < 2 ^ f.mbits then r.1 else (r.2 - f.emin).toNat * 2 ^ f.mbits + r.1
  min enc f.maxEnc

/-- Encode a number in a floating format (R129). -/
def MiniFmt.encode (f : MiniFmt) : Num → Nat
  | .nan => f.nan
  | .inf a => (f.inf.getD f.maxEnc) + (if a then f.sign else 0)
  | .fin m e =>
    let x := f.magnitude m e
    if x = 0 then 0 else x + (if m < 0 then f.sign else 0)

/-- Decode an element of a floating format (R127). -/
def MiniFmt.decode (f : MiniFmt) (x : Nat) : Num :=
  let neg := f.sign ≤ x
  let a := x % f.sign
  let top := a / 2 ^ f.mbits
  let man := a % 2 ^ f.mbits
  if some a = f.inf then .inf neg
  else if f.maxEnc < a then .nan
  else
    let n : Nat := if top = 0 then man else 2 ^ f.mbits + man
    let e : Int := if top = 0 then f.emin else f.emin + (top - 1 : Nat)
    .fin (if neg then -(n : Int) else n) e

/-- An element of a format code (MXINT8 is code 6). -/
def decodeElem (fmt x : Nat) : Num := if fmt = 6 then .fin (sgn 8 x) (-6) else (miniFmt fmt).decode x

/-- MXINT8 (R130): v × 64 to nearest even, saturated to ±127. -/
def encodeInt8 : Num → Nat
  | .fin m e =>
    let q := (roundParts 64 (-6) m e)
    let k := min 127 (q.1 * 2 ^ (q.2 + 6).toNat)
    unsgn 8 (if m < 0 then -(k : Int) else k)
  | _ => 0

/-- An element in a format code. -/
def encodeElem (fmt : Nat) (x : Num) : Nat := if fmt = 6 then encodeInt8 x else (miniFmt fmt).encode x

/-- FP32 bits. -/
def ofBits32 (x : Nat) : Num := (miniFmt 7).decode x
def toBits32 (x : Num) : Nat := (miniFmt 7).encode (round32 x)

/-- An E8M0 scale. -/
def scaleNum (b : Nat) : Num := if b % 256 = 255 then .nan else .fin 1 ((b % 256 : Nat) - 127)

/-- emax of an MX element format (R130). -/
def emaxOf : Nat → Int | 5 => 2 | 4 => 4 | 6 => 0 | _ => 8

/-- ⌊log2⌋ of a positive number. -/
def log2Num (m e : Int) : Int := e + bitLen m.natAbs - 1

/-- Quantise one block with a given emax (R130): the scale and the element encodings. -/
def quantBlock (fmt : Nat) (emax : Int) (l : List Num) : Nat × List Nat :=
  if l.any fun x => !x.isFinite then (255, l.map fun _ => 0)
  else
    match l.foldl (fun a x => a.max x.abs) Num.zero with
    | .fin m e =>
      if m = 0 then (0, l.map fun _ => 0)
      else
        let k : Int := Max.max (-127) (min 127 (log2Num m e - emax))
        ((k + 127).toNat, l.map fun x => encodeElem fmt (x.mul (.fin 1 (-k))))
    | _ => (255, l.map fun _ => 0)

/-- Split a list in pieces of `n`. -/
def chunks {α : Type} (n : Nat) : (fuel : Nat) → List α → List (List α)
  | 0, _ => []
  | _, [] => []
  | fuel + 1, l => l.take n :: chunks n fuel (l.drop n)

/-- A row of numbers as a stored row: elements, then scales (R128), as one number. -/
def encodeRow (fmt : Nat) (l : List Num) : Nat :=
  if fmtMx fmt then
    let bs := (chunks 32 l.length l).map (quantBlock fmt (emaxOf fmt))
    packElems (fmtBits fmt) (bs.flatMap (·.2)) + packElems 8 (bs.map (·.1)) * 2 ^ (fmtBits fmt * l.length)
  else packElems (fmtBits fmt) (l.map (encodeElem fmt))

/-- The elements of a stored row, with the scale of each. -/
def decodeRow (fmt n x : Nat) : List (Num × Num) :=
  let es := (elems (fmtBits fmt) x n).map (decodeElem fmt)
  if fmtMx fmt then es.zipIdx.map fun e => (e.1, scaleNum (x / 2 ^ (fmtBits fmt * n + 8 * (e.2 / 32))))
  else es.map fun e => (e, Num.one)

/-- The values of a stored row. -/
def rowValues (fmt n x : Nat) : List Num := (decodeRow fmt n x).map fun e => e.1.mul e.2

/-! ## Dot products (R125) -/

/-- The exact sum of a list. -/
def sumExact (l : List Num) : Num := l.foldl Num.add Num.zero

/-- One tile: products summed exactly, scaled exactly, rounded once. -/
def tileDot (a b : List (Num × Num)) : Num :=
  let s := sumExact ((a.zip b).map fun p => p.1.1.mul p.2.1)
  match a, b with
  | x :: _, y :: _ => round32 ((s.mul x.2).mul y.2)
  | _, _ => Num.zero

/-- A dot product in tiles of 32, added to the accumulator one after another. -/
def dotTiles (a b : List (Num × Num)) : Num :=
  ((chunks 32 a.length a).zip (chunks 32 b.length b)).foldl (fun acc t => add32 acc (tileDot t.1 t.2)) Num.zero

/-! ## exp2, tanh, sine, cosine: fixed point with 256 fraction bits, correctly rounded -/

/-- 2^256. -/
def fixOne : Nat := 2 ^ 256

/-- ⌊2^256 × ln 2⌋, ⌊2^256 × π⌋, ⌊2^256 / ln 2⌋. -/
def fixLn2 : Nat := 80260960185991308862233904206310070533990667611589946606122867505419956976171
def fixPi : Nat := 363771576891766324280234942777729862653393377328392429958772151117938894466185
def fixLog2e : Nat := 167052672916848388242985626561247531987276682633131050150846402744536260568207

/-- exp of a fixed-point number, by its series. -/
def expSeries (y : Nat) : (fuel k term acc : Nat) → Nat
  | 0, _, _, acc => acc
  | fuel + 1, k, term, acc =>
    let t := term * y / fixOne / k
    if t = 0 then acc else expSeries y fuel (k + 1) t (acc + t)

/-- exp of a fixed-point number. -/
def expFix (y : Nat) : Nat := expSeries y 300 1 fixOne fixOne

/-- m × 2^e in fixed point, rounded down. -/
def toFix (m e : Int) : Int := if 0 ≤ e + 256 then scaleUp m (e + 256).toNat else m / (2 ^ (-(e + 256)).toNat : Nat)

/-- FP32 exp2 (R161). -/
def exp2_32 : Num → Num
  | .nan => .nan
  | .inf true => Num.zero
  | .inf false => .inf false
  | .fin m e =>
    let x := toFix m e
    let n := x / (fixOne : Int)
    let f := (x % (fixOne : Int)).toNat
    if n < -400 then Num.zero
    else if 400 < n then .inf false
    else if f = 0 then round32 (.fin 1 n)
    else round32 (.fin (2 * expFix (f * fixLn2 / fixOne) + 1) (n - 257))

/-- FP32 tanh (R160): below 2^−13 it rounds to its argument, above 10 to 1. -/
def tanh_32 : Num → Num
  | .fin m e =>
    if m = 0 then Num.zero
    else
      let neg := decide (m < 0)
      let l := log2Num m e
      if l < -13 then .fin m e
      else if 3 < l then .fin (if neg then -1 else 1) 0
      else
        let y := (toFix m.natAbs e).toNat
        let x := expFix (2 * y)
        let q := (x - fixOne) * fixOne / (x + fixOne)
        let v : Int := 2 * q + 1
        round32 (.fin (if neg then -v else v) (-257))
  | .nan => .nan
  | .inf a => .fin (if a then -1 else 1) 0

/-- Alternating series of sine (first power 1) or cosine (first power 0) of a fixed-point angle. -/
def trigSeries (y2 : Nat) : (fuel k : Nat) → (term acc : Int) → Int
  | 0, _, _, acc => acc
  | fuel + 1, k, term, acc =>
    let t := -(term * y2 / fixOne / ((k + 1) * (k + 2) : Nat))
    trigSeries y2 fuel (k + 2) t (acc + t)

/-- Sine and cosine of a fixed-point angle below π / 2. -/
def sinFix (y : Nat) : Int := trigSeries (y * y / fixOne) 60 1 y y
def cosFix (y : Nat) : Int := trigSeries (y * y / fixOne) 60 0 fixOne fixOne

/-- FP32 cosine and sine of 2π × φ / 2^40 (R126). -/
def rotary (phi : Nat) : Num × Num :=
  let quad := phi / 2 ^ 38 % 4
  let r := phi % 2 ^ 38
  let ang := 2 * fixPi * r / 2 ^ 40
  let fix := fun (v : Int) => round32 (.fin (2 * v + 1) (-257))
  let c := if r = 0 then Num.one else fix (cosFix ang)
  let s := if r = 0 then Num.zero else fix (sinFix ang)
  match quad with
  | 0 => (c, s)
  | 1 => (s.neg, c)
  | 2 => (c.neg, s.neg)
  | _ => (s, c.neg)

/-- Series of the inverse hyperbolic tangent. -/
def atanhSeries (z2 : Nat) : (fuel k pow acc : Nat) → Nat
  | 0, _, _, acc => acc
  | fuel + 1, k, pow, acc => let p := pow * z2 / fixOne; atanhSeries z2 fuel (k + 2) p (acc + p / k)

/-- log2 of a finite number above 1, in fixed point. -/
def log2Fix (m e : Int) : Nat :=
  let k := (log2Num m e).toNat
  let x := (toFix m (e - k)).toNat
  let z := (x - fixOne) * fixOne / (x + fixOne)
  let ln := 2 * atanhSeries (z * z / fixOne) 90 3 z z
  k * fixOne + ln * fixLog2e / fixOne

/-- F_i of R126: round(2^40 × θ^(−i/P) / 2π). -/
def rotaryFreq (theta i pairs : Nat) : Nat :=
  match ofBits32 theta with
  | .fin m e =>
    let x := log2Fix m e * i / pairs
    let n := x / fixOne
    let f := x % fixOne
    let v := fixOne * fixOne / expFix (f * fixLn2 / fixOne) / 2 ^ n
    (v * 2 ^ 40 * fixOne / (2 * fixPi) + fixOne / 2) / fixOne
  | _ => 0

/-! ## Constants of a registration (R151) -/

/-- FP32 product of a value with log2 e. -/
def mulLog2e : Num → Num
  | .fin m e => if m = 0 then Num.zero else
      let v : Int := 2 * (m.natAbs * fixLog2e : Nat) + 1
      round32 (.fin (if m < 0 then -v else v) (e - 257))
  | x => x

/-- FP32 quotient. -/
def div32 : Num → Num → Num
  | .fin m e, .fin n f =>
    if n = 0 then (if m = 0 then .nan else .inf (decide (m < 0)))
    else if m = 0 then Num.zero
    else
      let k := bitLen n.natAbs + 64
      let q := m.natAbs * 2 ^ k / n.natAbs
      let v : Int := 2 * q + (if m.natAbs * 2 ^ k % n.natAbs = 0 then 0 else 1)
      round32 (.fin (if (m < 0) != (n < 0) then -v else v) (e - f - k - 1))
  | _, _ => .nan

/-- SCALE, CAP, and QS, QA, QB of an attention record. -/
def attnScale (r : BitVec 512) : Num := ofBits32 (rf (mAttn r) 127 96)
def attnCap (r : BitVec 512) : Num := ofBits32 (rf (mAttn r) 95 64)
def attnQs (r : BitVec 512) : Num := mulLog2e (attnScale r)
def attnQa (r : BitVec 512) : Num := div32 (attnScale r) (attnCap r)
def attnQb (r : BitVec 512) : Num := mulLog2e (attnCap r)

/-- The sink score z_h of a head (R151). -/
def sinkScore (m : ModelSt) (head : Nat) : Num := mulLog2e (ofBits32 (m.sinks.getD head 0))

/-- The scaled score (R160). -/
def scaledScore (r : BitVec 512) (s : Num) : Num :=
  if (attnCap r).isZero then mul32 s (attnQs r)
  else
    match mul32 s (attnQa r) with
    | .fin m e => mul32 (tanh_32 (.fin m e)) (attnQb r)
    | x => x

end Sys2Proof.Machine
end

