-- ==== Sys2Proof/Machine/Packed.lean ====
section
/-! DEFINITION. The Farane packed stream: the node's encoder and the expander's decoder with its checks (R102, R128,
R135 to R142, R145), and page headers (R95). -/

namespace Sys2Proof.Machine

/-! ## Page shapes -/

/-- What fixes the layout of a page: head dimension, stored formats, latent mode. -/
structure Shape where
  dim : Nat
  kFmt : Nat
  vFmt : Nat
  latent : Bool
deriving DecidableEq, Repr

/-- Shape of a model's pages. -/
def shapeOf (m : BitVec 512) : Shape := { dim := mHeadDim m, kFmt := mKFmt m, vFmt := mVFmt m, latent := mLatent m }

def Shape.t (x : Shape) : Nat := pagePositions x.dim x.kFmt x.vFmt x.latent
def Shape.keyRow (x : Shape) : Nat := keyRowBytes x.dim x.kFmt
def Shape.valRow (x : Shape) : Nat := valRowBytes x.dim x.vFmt x.latent

/-- Areas of a page: (area, format) (R136). -/
def Shape.areas (x : Shape) : List (Nat × Nat) := if x.latent then [(0, x.kFmt)] else [(0, x.kFmt), (1, x.vFmt)]

/-- Byte offset and row length of an area in the open layout (R102). -/
def Shape.areaOff (x : Shape) (area : Nat) : Nat := if area = 0 then 0 else x.t * x.keyRow
def Shape.areaRow (x : Shape) (area : Nat) : Nat := if area = 0 then x.keyRow else x.valRow

/-- A stored row of an open page. -/
def openRowOf (x : Shape) (payload area p : Nat) : Nat := imgBytes payload (x.areaOff area + p * x.areaRow area) (x.areaRow area)

/-- Bytes of a payload replaced. -/
def putPayload (payload off len v : Nat) : Nat := if len = 0 then payload else fldSet payload (8 * (off + len) - 1) (8 * off) v

/-! ## Segments (R136) -/

/-- A segment: its scale byte and its 32 element encodings. -/
structure Seg where
  scale : Nat
  els : List Nat
deriving DecidableEq, Repr

/-- Segments of a stored row of n elements. -/
def rowSegs (fmt n row : Nat) : List Seg :=
  let es := elems (fmtBits fmt) row n
  (chunks 32 n es).zipIdx.map fun c =>
    { scale := if fmtMx fmt then row / 2 ^ (fmtBits fmt * n + 8 * c.2) % 256 else 0, els := c.1 }

/-- A stored row from its segments. -/
def segsRow (fmt : Nat) (l : List Seg) : Nat :=
  let es := l.flatMap (·.els)
  packElems (fmtBits fmt) es + (if fmtMx fmt then packElems 8 (l.map (·.scale)) * 2 ^ (fmtBits fmt * es.length) else 0)

/-- Segments of an area of an open page. -/
def areaSegs (x : Shape) (payload area fmt : Nat) : List Seg :=
  (List.range x.t).flatMap fun p => rowSegs fmt x.dim (openRowOf x payload area p)

/-- An area of an open page from its segments. -/
def putArea (x : Shape) (area fmt : Nat) (segs : List Seg) (payload : Nat) : Nat :=
  ((chunks (x.dim / 32) segs.length segs).zipIdx).foldl (fun pl r =>
    putPayload pl (x.areaOff area + r.2 * x.areaRow area) (x.areaRow area) (segsRow fmt r.1)) payload

/-! ## Symbols (R139) -/

/-- Bits of the symbol, and mantissa bits. -/
def symBits (fmt : Nat) : Nat := if fmt = 6 then 3 else (miniFmt fmt).ebits

/-- An element's symbol. -/
def symOf (fmt x : Nat) : Nat :=
  if fmt = 6 then bitLen (sgn 8 x).natAbs else x / 2 ^ (miniFmt fmt).mbits % 2 ^ (miniFmt fmt).ebits

/-- An element's residual: width and value (R138). -/
def residualOf (fmt x : Nat) : Nat × Nat :=
  if fmt = 6 then
    let a := (sgn 8 x).natAbs
    let c := bitLen a
    (c - 1, a % 2 ^ (c - 1))
  else ((miniFmt fmt).mbits, x % 2 ^ (miniFmt fmt).mbits)

/-- Residual width that a symbol calls for. -/
def residualBits (fmt sym : Nat) : Nat := if fmt = 6 then sym - 1 else (miniFmt fmt).mbits

/-- The element is zero. -/
def elemZero (fmt x : Nat) : Bool := if fmt = 6 then x % 256 == 0 else x % (miniFmt fmt).sign == 0

/-- The element is negative. -/
def elemNeg (fmt x : Nat) : Bool := if fmt = 6 then decide (128 ≤ x % 256) else decide ((miniFmt fmt).sign ≤ x)

/-- An element from its symbol, residual and sign. -/
def elemOf (fmt sym res : Nat) (neg : Bool) : Nat :=
  if fmt = 6 then
    let a : Nat := if sym = 0 then 0 else 2 ^ (sym - 1) + res
    unsgn 8 (if neg then -(a : Int) else a)
  else sym * 2 ^ (miniFmt fmt).mbits + res + (if neg then (miniFmt fmt).sign else 0)

/-! ## Code words (R139, R140) -/

/-- A table set with its mapping and centre. -/
structure Coder where
  tset : Nat
  down : Bool
  centre : Nat
deriving DecidableEq, Repr

def Coder.r (c : Coder) : Nat := c.tset / 3
def Coder.u (c : Coder) : Nat := match c.tset % 3 with | 0 => 2 | 1 => 4 | _ => 8

/-- Code value of a symbol, none above the centre of a downward mapping. -/
def Coder.value (c : Coder) (x : Nat) : Option Nat :=
  if c.down then (if x ≤ c.centre then some (c.centre - x) else none)
  else some (if c.centre ≤ x then 2 * (x - c.centre) else 2 * (c.centre - x) - 1)

/-- Length of a symbol's code word. -/
def Coder.len (c : Coder) (e x : Nat) : Nat :=
  if c.tset = 15 then e
  else match c.value x with
    | some d => if d / 2 ^ c.r < c.u then d / 2 ^ c.r + 1 + c.r else c.u + e
    | none => c.u + e

/-- The bits of a field, most significant first. -/
def msbBits (w v : Nat) : List Bool := ((List.range w).map fun i => bit v i).reverse

/-- The bits of a field, least significant first. -/
def lsbBits (w v : Nat) : List Bool := (List.range w).map fun i => bit v i

/-- A code word, first bit first. -/
def Coder.word (c : Coder) (e x : Nat) : List Bool :=
  if c.tset = 15 then msbBits e x
  else match c.value x with
    | some d =>
      if d / 2 ^ c.r < c.u then List.replicate (d / 2 ^ c.r) true ++ [false] ++ msbBits c.r (d % 2 ^ c.r)
      else List.replicate c.u true ++ msbBits e x
    | none => List.replicate c.u true ++ msbBits e x

/-- A field read most significant bit first. -/
def ofMsb (l : List Bool) : Nat := l.foldl (fun n b => 2 * n + b2n b) 0

/-- A field read least significant bit first. -/
def ofLsb : List Bool → Nat
  | [] => 0
  | b :: t => b2n b + 2 * ofLsb t

/-- The symbol of a code value, none below 0. -/
def Coder.symbol (c : Coder) (d : Nat) : Option Nat :=
  if c.down then (if d ≤ c.centre then some (c.centre - d) else none)
  else if d % 2 = 0 then some (c.centre + d / 2)
  else if (d + 1) / 2 ≤ c.centre then some (c.centre - (d + 1) / 2) else none

/-- Leading ones of a bit string, at most `n`. -/
def leadingOnes : (n : Nat) → List Bool → Nat
  | n + 1, true :: t => 1 + leadingOnes n t
  | _, _ => 0

/-- Read one code word: the symbol and the bits after it; none when it is malformed (R145). -/
def Coder.read (c : Coder) (e : Nat) (l : List Bool) : Option (Nat × List Bool) :=
  if c.tset = 15 then
    if l.length < e then none else some (ofMsb (l.take e), l.drop e)
  else
    let q := leadingOnes c.u l
    if q = c.u then
      let t := l.drop c.u
      if t.length < e then none
      else
        let x := ofMsb (t.take e)
        let escaped := match c.value x with | some d => decide (c.u ≤ d / 2 ^ c.r) | none => true
        if escaped then some (x, t.drop e) else none
    else
      let t := l.drop (q + 1)
      if t.length < c.r then none
      else match c.symbol (q * 2 ^ c.r + ofMsb (t.take c.r)) with
        | some x => if x < 2 ^ e then some (x, t.drop c.r) else none
        | none => none

/-! ## The encoder (R142) -/

/-- How often each symbol stands in an area, by symbol. -/
def histogram (fmt : Nat) (segs : List Seg) : Map Nat :=
  segs.foldl (fun m s => s.els.foldl (fun (m : Map Nat) x => m.upd (symOf fmt x) 0 fun n => n + 1) m) .empty

/-- Exponent-plane bits of an area under a coder. -/
def planeCost (c : Coder) (e : Nat) (h : Map Nat) : Nat := h.fold (fun n x k => n + k * c.len e x) 0

/-- The coders in the order that breaks ties. -/
def coders (e : Nat) : List Coder :=
  ((List.range 15).flatMap fun t => [false, true].flatMap fun d => (List.range (2 ^ e)).map fun c =>
    ({ tset := t, down := d, centre := c } : Coder)) ++ [{ tset := 15, down := false, centre := 0 }]

/-- The coder that the node's encoder chooses for an area. -/
def chooseCoder (fmt : Nat) (segs : List Seg) : Coder :=
  let e := symBits fmt
  let h := histogram fmt segs
  ((coders e).foldl (fun (b : Coder × Nat) c => let n := planeCost c e h; if n < b.2 then (c, n) else b)
    ({ tset := 15, down := false, centre := 0 }, planeCost { tset := 15, down := false, centre := 0 } e h + 1)).1

/-- Body bits of a segment. -/
def segBits (fmt : Nat) (c : Coder) (s : Seg) : Nat :=
  (if fmtMx fmt then 8 else 0) + s.els.foldl (fun n x =>
    n + c.len (symBits fmt) (symOf fmt x) + (residualOf fmt x).1 + (if elemZero fmt x then 0 else 1)) 0

/-- Decoded bytes of a segment. -/
def segBytes (fmt : Nat) : Nat := 32 * fmtBits fmt / 8 + (if fmtMx fmt then 1 else 0)

/-- Fill blocks with segments in order. -/
def fillBlocks (fmt : Nat) (c : Coder) : (l cur : List Seg) → (bits : Nat) → List (List Seg)
  | [], cur, _ => if cur.isEmpty then [] else [cur.reverse]
  | s :: t, cur, bits =>
    let n := segBits fmt c s
    if cur.isEmpty || (decide (bits + n ≤ 4032) && decide ((cur.length + 1) * segBytes fmt ≤ 1024)) then
      fillBlocks fmt c t (s :: cur) (bits + n)
    else cur.reverse :: fillBlocks fmt c t [s] n

/-- The body of a block (R138). -/
def blockBody (fmt : Nat) (c : Coder) (segs : List Seg) : List Bool :=
  let es := segs.flatMap (·.els)
  (if fmtMx fmt then segs.flatMap fun s => lsbBits 8 s.scale else [])
    ++ es.flatMap (fun x => c.word (symBits fmt) (symOf fmt x))
    ++ es.flatMap (fun x => lsbBits (residualOf fmt x).1 (residualOf fmt x).2)
    ++ (es.filter fun x => !elemZero fmt x).map (elemNeg fmt)

/-- A block of 512 bytes (R137). -/
def blockWord (fmt area firstSeg : Nat) (c : Coder) (segs : List Seg) (isLast : Bool) : Nat :=
  let body := blockBody fmt c segs
  pack [(60, 4, c.tset), (59, 1, b2n c.down), (58, 1, area), (57, 1, b2n isLast), (47, 10, firstSeg),
    (36, 11, 32 * segs.length), (24, 12, body.length), (16, 8, c.centre)] + ofLsb body * 2 ^ 64

/-- First segment numbers of the blocks of an area. -/
def withFirst : (n : Nat) → List (List Seg) → List (Nat × List Seg)
  | _, [] => []
  | n, b :: t => (n, b) :: withFirst (n + b.length) t

/-- The packed stream of an open-layout page: its blocks; none when it needs more than 32 (R134). -/
def encodePage (x : Shape) (payload : Nat) : Option (Nat × Nat) :=
  let blocks := x.areas.flatMap fun a =>
    let segs := areaSegs x payload a.1 a.2
    let c := chooseCoder a.2 segs
    (withFirst 0 (fillBlocks a.2 c segs [] 0)).map fun b => (a.1, a.2, c, b)
  let n := blocks.length
  if 32 < n then none
  else some (n, packElems 4096 (blocks.zipIdx.map fun b =>
    blockWord b.1.2.1 b.1.1 b.1.2.2.2.1 b.1.2.2.1 b.1.2.2.2.2 (b.2 + 1 == n)))

/-! ## The decoder and its checks (R145) -/

/-- Read `n` code words. -/
def readWords (c : Coder) (e : Nat) : (n : Nat) → List Bool → Option (List Nat × List Bool)
  | 0, l => some ([], l)
  | n + 1, l => match c.read e l with
    | none => none
    | some (x, t) => match readWords c e n t with
      | none => none
      | some (xs, r) => some (x :: xs, r)

/-- Read the residuals of symbols. -/
def readResiduals (fmt : Nat) : List Nat → List Bool → List (Nat × Nat) × List Bool
  | [], l => ([], l)
  | x :: t, l =>
    let w := residualBits fmt x
    let r := readResiduals fmt t (l.drop w)
    ((x, ofLsb (l.take w)) :: r.1, r.2)

/-- Read the signs. -/
def readSigns (fmt : Nat) : List (Nat × Nat) → List Bool → List Nat × List Bool
  | [], l => ([], l)
  | (x, r) :: t, l =>
    let z := elemOf fmt x r false
    if elemZero fmt z then
      let k := readSigns fmt t l
      (z :: k.1, k.2)
    else
      let k := readSigns fmt t (l.drop 1)
      (elemOf fmt x r (l.headD false) :: k.1, k.2)

/-- The segments of one block, or none when it does not conform. -/
def decodeBlock (fmt : Nat) (c : Coder) (nseg bits body : Nat) : Option (List Seg) :=
  let l := lsbBits 4032 body
  let mx := fmtMx fmt
  let scales := if mx then elems 8 (body % 2 ^ (8 * nseg)) nseg else List.replicate nseg 0
  let l0 := if mx then l.drop (8 * nseg) else l
  match readWords c (symBits fmt) (32 * nseg) l0 with
  | none => none
  | some (syms, l1) =>
    let (rs, l2) := readResiduals fmt syms l1
    let (es, l3) := readSigns fmt rs l2
    if 4032 - l3.length = bits ∧ body / 2 ^ bits = 0 ∧ l3.length ≤ 4032 then
      some ((scales.zip (chunks 32 es.length es)).map fun p => { scale := p.1, els := p.2 })
    else none

/-- Decode blocks from a number on: area by area, checking order, coder and counts. -/
def decodeFrom (x : Shape) (stream : Nat) : (left area seg : Nat) → (coder : Option Coder) → Option (List (Nat × List Seg))
  | 0, _, _, _ => none
  | left + 1, area, seg, coder =>
    let b := stream % 2 ^ 4096
    let c : Coder := { tset := fld b 63 60, down := bit b 59, centre := fld b 23 16 }
    let a := fld b 58 58
    let isLast := bit b 57
    let nEl := fld b 46 36
    let bits := fld b 35 24
    let fmt := if a = 0 then x.kFmt else x.vFmt
    let total := x.t * x.dim / 32
    let fresh := a == area + 1
    let headOk := fld b 15 0 == 0 && nEl % 32 == 0 && nEl != 0 && decide (1 ≤ bits ∧ bits ≤ 4032)
      && decide (nEl / 32 * segBytes fmt ≤ 1024) && decide (c.centre < 2 ^ symBits fmt)
      && (c.tset != 15 || (!c.down && c.centre == 0)) && (a == 0 || !x.latent)
      && (if fresh then fld b 56 47 == 0 && seg == total && coder.isSome
          else a == area && fld b 56 47 == seg && (coder.isNone || coder == some c))
    if !headOk then none
    else match decodeBlock fmt c (nEl / 32) bits (b / 2 ^ 64) with
      | none => none
      | some segs =>
        let seg' := (if fresh then 0 else seg) + segs.length
        if total < seg' then none
        else if isLast then
          if seg' = total ∧ (x.latent ∨ a = 1) then some [(a, segs)] else none
        else match decodeFrom x (stream / 2 ^ 4096) left a seg' (some c) with
          | none => none
          | some r => some ((a, segs) :: r)

/-- Decode a sealed packed page to the open layout; none is the damaged verdict (R145). -/
def decodePage (x : Shape) (payload filled quartersM1 : Nat) : Option Nat :=
  if filled ≠ x.t then none
  else match decodeFrom x payload 32 0 0 none with
    | none => none
    | some bs =>
      let n := bs.length
      let quarters := quartersM1 + 1
      if 8 * quartersM1 < n ∧ n ≤ 8 * quarters ∧ payload % 2 ^ (32768 * quarters) / 2 ^ (4096 * n) = 0 then
        some (x.areas.foldl (fun pl a =>
          putArea x a.1 a.2 ((bs.filter fun b => b.1 == a.1).flatMap (·.2)) pl) 0)
      else none

/-! ## Page headers (R95) -/

/-- A page header as 16 bytes. -/
def hdrWord (h : PageHdr) : Nat :=
  pack [(64, 64, h.identity), (40, 24, h.page), (31, 9, h.filled), (26, 5, h.kFmt), (21, 5, h.vFmt), (20, 1, b2n h.latent),
    (18, 2, h.quartersM1), (17, 1, b2n h.sealed), (9, 8, h.layer), (3, 6, h.group)]

/-- The header that 16 bytes hold. -/
def hdrOfWord (x : Nat) : PageHdr :=
  { identity := fld x 127 64, page := fld x 63 40, filled := fld x 39 31, kFmt := fld x 30 26, vFmt := fld x 25 21,
    latent := bit x 20, quartersM1 := fld x 19 18, sealed := bit x 17, layer := fld x 16 9, group := fld x 8 3 }

/-- Shape of a page by its header. -/
def shapeOfHdr (h : PageHdr) (dim : Nat) : Shape := { dim := dim, kFmt := h.kFmt, vFmt := h.vFmt, latent := h.latent }

/-- The open-layout bytes of a page as it is stored: as they stand, or decoded; none is the damaged verdict. -/
def pageOpenBytes (d : PageData) (dim : Nat) : Option Nat :=
  if d.hdr.sealed then decodePage (shapeOfHdr d.hdr dim) d.payload d.hdr.filled d.hdr.quartersM1 else some d.payload

/-- Stored length of a page (R67). -/
def storedBytes (d : PageData) (x : Shape) (isSealed : Bool) : Nat :=
  if d.hdr.sealed then 4096 * (d.hdr.quartersM1 + 1) else if isSealed then 16384 else x.t * (x.keyRow + x.valRow)

end Sys2Proof.Machine
end

