-- ==== Sys2Proof/Machine/Reopen.lean ====
section
/-! DEFINITION. The reopen path: a sealed page rewritten uncompressed under a new identity (R97, R120, R168). -/

namespace Sys2Proof.Machine

/-- The 512-byte blocks that `n` payload bytes from an offset on lie in. -/
def touched (off n : Nat) : List Nat := if n = 0 then [] else (List.range ((off + n - 1) / 512 - off / 512 + 1)).map fun i => off / 512 + i

/-- Blocks of the open layout that a position's key and value rows lie in (R102). -/
def rowBlocks (x : Shape) (j : Nat) : List Nat :=
  (touched (j * x.keyRow) x.keyRow ++ touched (x.t * x.keyRow + j * x.valRow) x.valRow).eraseDups

/-- Every needed block and the sidecar of a page verify: they were written under the domain's page key, and no tag is
marked bad (R144, R281). -/
def pageGood (s : State) (domain : Nat) (d : PageData) : Bool :=
  d.key == (getD s domain).key && d.badBlocks.toNat % 2 ^ (if d.hdr.sealed then 8 * (d.hdr.quartersM1 + 1) else 32) == 0 && !d.badSidecar

/-- The rows of offsets 0 to n − 1 of an open layout; what lies beyond reads as zeros (R96, R168). -/
def firstRows (x : Shape) (payload n : Nat) : Nat :=
  payload % 2 ^ (8 * n * x.keyRow) + imgBytes payload (x.t * x.keyRow) (n * x.valRow) * 2 ^ (8 * x.t * x.keyRow)

/-- What a reopen makes of a sealed page, with FILLED n, under an identity; none when the copy fails its checks (R145,
R168). -/
def reopened (s : State) (domain dim identity n version : Nat) (d : PageData) : Option PageData :=
  match if pageGood s domain d then pageOpenBytes d dim else none with
  | none => none
  | some p =>
    let x := shapeOfHdr d.hdr dim
    let blocks := ((List.range n).flatMap (rowBlocks x)).eraseDups
    let counters : BitVec 512 := blocks.foldl (fun c b => rset c (16 * b + 15) (16 * b) 1) 0
    let hdr : PageHdr := { d.hdr with identity := identity, filled := n, sealed := false, quartersM1 := 0 }
    some { hdr := hdr, payload := firstRows x p n, counters := counters, version := version, key := (getD s domain).key }

/-- The rewritten page stands in its destination, which stays MIGRATING; none when the copy fails its checks. -/
def reopenInto (s : State) (src dst n dim : Nat) : Option State :=
  let v := getFr s src
  let (i, s) := newIdentity s
  (reopened s v.domain dim i n (v.version + 1) v.data).map fun d =>
    modFr s dst fun w => { w with data := d, version := v.version + 1, mig := some (.reopen src n true) }

/-- A destination returns to FREE (R109). -/
def freeDest (s : State) (dst : Nat) : State :=
  modFr s dst fun w => { w with state := .free, domain := 0, link := 0, mig := none }

/-- A written destination of a reopen commits: it is OPEN with one reference, held by the sequence's leaf entry, and the
sequence's reference on the sealed page goes (R109, R120). -/
def commitReopen (s : State) (id layer group page dst : Nat) : State :=
  match getQ s id with
  | none => s
  | some q => match getLeaf q layer group page with
    | none => s
    | some e =>
      let s := setQ s id (putLeaf q layer group page { e with frame := dst })
      let s := modFr s dst fun w => { w with state := .opened, refs := 1, mig := none, damaged := false, heldRemote := false,
                                             link := BitVec.ofNat 36 (leafLink (seqModel s q) q layer group page) }
      idxGone (dropRef s e.frame) id layer group page q

/-- A sealed page of a sequence is reopened at once with FILLED n; none when no frame can be drawn or the copy fails. -/
def reopenPage (s : State) (id layer group page n : Nat) : Option State :=
  match getQ s id with
  | none => none
  | some q => match getLeaf q layer group page, sliceOf s q.domain with
    | some e, some sl =>
      match drawFrame s sl q.domain .migrating 0 (some (.reopen e.frame n false)) with
      | none => none
      | some (dst, s) => (reopenInto s e.frame dst n (mHeadDim (seqModel s q))).map fun s => commitReopen s id layer group page dst
    | _, _ => none

end Sys2Proof.Machine
end

