-- ==== Sys2Proof/Machine/Repl.lean ====
section
/-! DEFINITION. The held position of a sequence and what holders report of it (R361 to R366). -/

namespace Sys2Proof.Machine

/-- The partner that holds this node's replicas: the one chosen after a failure, otherwise PARTNER (R346, R379). -/
def partnerOf (s : State) : Nat := s.place.partner.getD (rf s.place.record 63 52)

/-- Placement is enabled (R346). -/
def placeOn (s : State) : Bool := rb s.place.record 0

/-- The home of a sequence, or its acting home after a failure (R343, R375). -/
def homeOf (s : State) (id : Nat) : Nat := (s.place.failed.get? (seqHome id)).getD (seqHome id)

/-- Pages of a sequence on this node without a held replica (R364). -/
def missingHere (s : State) (q : SeqSt) : Nat :=
  q.leaves.fold (fun n _ e =>
    let f := getFr s e.frame
    if e.loc = 1 ∧ (f.state = .sealed ∨ f.state = .shared) ∧ !f.heldRemote then n + 1 else n) 0

/-- The held position of this node's rows of a sequence (R362): the first page in any row whose replica is not held
bounds it, up to the open positions held. -/
def heldHere (s : State) (q : SeqSt) : Nat :=
  let t := mT (seqModel s q)
  q.leaves.fold (fun h k e =>
    if e.loc = 1 ∧ !(getFr s e.frame).heldRemote then
      min h (max (keyPage k * t) (min q.batchHeld ((keyPage k + 1) * t)))
    else h) q.length

/-- The home recomputes h from the reports of all stripe nodes (R362). When nothing is missing any more BOUND returns to 0,
and REPLICA_DEGRADED is raised once more with CLEARED set (R366). -/
def recomputeHeld (s : State) (id : Nat) : State :=
  match getQ s id with
  | none => s
  | some q =>
    let known := q.stripes.all fun n => q.reports.has n
    let h := q.stripes.foldl (fun h n => min h (q.reports.getD n {}).held) q.length
    let missing := q.stripes.foldl (fun m n => m + (q.reports.getD n {}).missing) 0
    let late := q.stripes.foldl (fun m n => max m (q.reports.getD n {}).late) 0
    let whole := q.bound = .lostOnFailure ∧ known ∧ missing = 0
    let s := setQ s id { q with held := if known then h else q.held, late := max q.late late,
                                everHeld := q.everHeld || (known && decide (0 < h)),
                                bound := if whole then .sBounded else q.bound }
    if whole ∧ s.place.degraded.contains id then
      raiseObj { s with place := { s.place with degraded := s.place.degraded.filter fun x => x != id } }
        0x0005 1 38 q.domain q.ctrlPort (1 + id * 2 ^ 16) true
    else s

/-- This node's report of a sequence changes: the home recomputes, or is told by HELD_REPORT (R349, R362). -/
def reportHeld (s : State) (id : Nat) : State :=
  match getQ s id with
  | none => s
  | some q =>
    let r : HeldBy := { held := heldHere s q, missing := missingHere s q, late := q.late }
    if q.reports.get? s.nodeNo = some r then s
    else
      let s := setQ s id { q with reports := q.reports.set s.nodeNo r }
      if homeOf s id = s.nodeNo then recomputeHeld s id
      else sendMgmt s (homeOf s id) 0x000C 0 18 (pack [(0, 48, id), (64, 24, r.held), (96, 24, r.missing), (128, 16, r.late)])

/-- The replica of a frame is held (HELD_REMOTE, R107): every sequence that names the frame reports. -/
def heldReplica (s : State) (frame : Nat) : State :=
  let s := modFr s frame fun v => { v with heldRemote := true }
  s.seqs.fold (fun s id q => if q.leaves.any (fun _ e => e.loc == 1 && e.frame == frame) then reportHeld s id else s) s

/-- A batch of open positions is held (R361). -/
def heldBatch (s : State) (id upTo : Nat) : State :=
  reportHeld (modQ s id fun q => { q with batchHeld := max q.batchHeld upTo }) id

end Sys2Proof.Machine
end

