-- ==== Sys2Proof/Machine/SeqWords.lean ====
section
/-! DEFINITION. How descriptors, ownership records and leaf entries are read and sent (R103, R104, R364, R367). -/

namespace Sys2Proof.Machine

/-- A sequence descriptor as SEQ_QUERY returns it (R103). -/
def descWord (id : Nat) (q : SeqSt) : Nat :=
  let run := q.state == .running
  pack [(384, 64, q.groupMask), (352, 7, q.globals.length), (312, 40, q.globalsAddr), (272, 40, q.l1Addr), (256, 16, q.l1Span),
    (224, 32, q.sbRow), (177, 24, q.resume), (153, 24, q.maxCtxM1), (128, 25, q.length), (96, 2, q.sb), (95, 1, q.ctrlPort.val),
    (85, 10, if run then q.slot else 0), (73, 12, if run then q.heat else 0), (70, 3, q.state.code), (54, 16, q.model),
    (48, 6, q.domain), (0, 48, id)]

/-- The sequence state of a code. -/
def seqStateOf : Nat → SeqState
  | 0 => .free | 1 => .idle | 2 => .running | 3 => .abandoned | _ => .lost

/-- An ownership record as OWN_QUERY returns it (R367). -/
def ownWord (id : Nat) (o : OwnRec) : Nat :=
  pack [(192, 64, o.expiry), (160, 32, o.epoch), (128, 32, o.deadline / 1000), (114, 14, o.leaseMs), (112, 2, o.state.code),
    (111, 1, b2n o.accepted), (99, 12, o.offerNode), (91, 8, o.offerFunc), (79, 12, o.ownerNode), (71, 8, o.ownerFunc), (0, 48, id)]

/-- The record an ownership word stands for. -/
def ownOfWord (x : Nat) : OwnRec :=
  { expiry := fld x 255 192, epoch := fld x 191 160, deadline := fld x 159 128 * 1000, leaseMs := fld x 127 114,
    state := (match fld x 113 112 with | 0 => .held | 1 => .offered | _ => .abandoned), accepted := bit x 111,
    offerNode := fld x 110 99, offerFunc := fld x 98 91, ownerNode := fld x 90 79, ownerFunc := fld x 78 71 }

/-- A leaf entry as stored (R104). -/
def leafWord (e : Leaf) : Nat := pack [(52, 12, e.node), (28, 24, e.frame), (26, 2, e.loc), (25, 1, b2n e.global)]

/-- The leaf entry of a word. -/
def leafOfWord (x : Nat) : Leaf := { node := fld x 63 52, frame := fld x 51 28, loc := fld x 27 26, global := bit x 25 }

/-- The replica of a descriptor that a word of R103 carries, over what was held of the sequence before. -/
def seqOfWord (old : SeqSt) (x : Nat) : SeqSt :=
  { old with
    groupMask := fld x 447 384, l1Span := fld x 271 256, resume := fld x 200 177, maxCtxM1 := fld x 176 153,
    length := fld x 152 128, ctrlPort := if bit x 95 then 1 else 0, slot := fld x 94 85, heat := fld x 84 73,
    state := seqStateOf (fld x 72 70), model := fld x 69 54, domain := fld x 53 48 }

/-- The stripe list as SEQ_QUERY returns it: 64 node numbers, 0xFFFF where unused. -/
def stripeWord (l : List Nat) : Nat := packElems 16 ((List.range 64).map fun i => l.getD i 0xFFFF)

/-- The stripe list of such a word. -/
def stripesOfWord (x : Nat) : List Nat := (elems 16 x 64).filter fun n => n != 0xFFFF

/-- The replication status of a sequence (R364). -/
def replWord (id : Nat) (q : SeqSt) : Nat :=
  let missing := q.reports.fold (fun n _ r => n + r.missing) 0
  pack [(104, 24, missing), (88, 16, q.late), (63, 25, q.held), (57, 6, q.replS - 1), (55, 2, q.bound.code), (0, 48, id)]

end Sys2Proof.Machine
end

