-- ==== Sys2Proof/Machine/Lost.lean ====
section
/-! DEFINITION. Replicated records, LOST sequences, and the rollback of a sequence to its held position (R360, R371, R377,
R381). -/

namespace Sys2Proof.Machine

/-! ## Replicated records (R360, R371) -/

/-- RECORD_REPL of a sequence to this node's partner, with the leaf entries of pages from `from` on. -/
def replRecord (s : State) (id : Nat) (q : SeqSt) (page : Nat) : State :=
  let l := (q.leaves.l.filter fun e => page ≤ keyPage e.1).map fun e =>
    pack [(0, 8, keyLayer e.1), (8, 8, keyGroup e.1), (32, 24, keyPage e.1), (64, 64, leafWord e.2)]
  let l := l.take 65535
  let body := pack [(0, 48, id), (64, 2048, descWord id q), (2112, 256, ownWord id q.own), (2368, 16, l.length)]
    + packElems 128 l * 2 ^ 2432
  sendMgmt s (partnerOf s) 0x000E 0 (304 + 16 * l.length) body

/-- The page that holds the first position not sent yet. -/
def sentPage (s : State) (q : SeqSt) : Nat := pageOf s q q.sentTo

/-- The home sends a changed descriptor or ownership record to its partner. -/
def recordChanged (s : State) (id : Nat) : State :=
  match getQ s id with
  | none => s
  | some q => if homeOf s id = s.nodeNo then replRecord s id q (sentPage s q) else s

/-! ## LOST sequences (R381) -/

/-- Commands that wait for a sequence end. -/
def endSeqWork (s : State) (id : Nat) (st : Status) : State :=
  let s := finishWhere s (fun g => g.key == .seq id && g.opcode != 0x0503 && g.opcode != 0x0502) st 0 0
  modQ s id fun q => { q with trunc := none, attach := none, change := none }

/-- A sequence becomes LOST: its rows go; the home tells every stripe node and raises SEQUENCE_LOST. -/
def loseSeq (s : State) (id pos reason : Nat) : State :=
  match getQ s id with
  | none => s
  | some q =>
    if q.state = .lost then s
    else
      let s := endSeqWork (removeFromHeat s id .lost) id .lost
      let s := clearLeaves (releaseBlock s id) id fun _ _ => true
      let s := modQ s id fun q => { q with state := .lost, awaiting := false }
      if homeOf s id = s.nodeNo then
        let s := raiseObj s 0x0004 reason 38 q.domain q.ctrlPort (pack [(0, 48, id), (64, 24, pos)])
        let s := (q.stripes.filter fun n => n != s.nodeNo).foldl (fun s n =>
          sendMgmt s n 0x0010 0 12 (pack [(0, 48, id), (64, 24, pos), (88, 8, reason)])) s
        recordChanged s id
      else s

/-- The position a failure leaves safe: h, or 0 when no replica was ever held (R381). -/
def safePos (q : SeqSt) : Nat := if q.everHeld then q.held else 0

/-! ## Rollback (R377) -/

/-- A frame's page with FILLED set: the sidecar is rewritten under VERSION + 1 (R109). -/
def refill (v : FrameSt) (n : Nat) : FrameSt :=
  let d := { v.data with hdr := { v.data.hdr with filled := n }, version := v.version + 1 }
  { v with version := v.version + 1, data := d }

/-- The pages that hold position h − 1, with their frames, where h lies within them. -/
def pagesWithin (s : State) (q : SeqSt) (h : Nat) : List (Nat × Nat) :=
  let t := mT (seqModel s q)
  if t = 0 ∨ h % t = 0 then []
  else q.leaves.l.filterMap fun e => if e.2.loc = 1 ∧ keyPage e.1 = h / t then some (e.1, e.2.frame) else none

/-- The sealed ones among them are reopened; none when a frame is missing. -/
def reopenWithin (s : State) (id h t : Nat) : List (Nat × Nat) → Option State
  | [] => some s
  | (k, f) :: l =>
    if (getFr s f).state = .sealed ∨ (getFr s f).state = .shared then
      (reopenPage s id (keyLayer k) (keyGroup k) (keyPage k) (h % t)).bind fun s => reopenWithin s id h t l
    else reopenWithin s id h t l

/-- Roll a sequence's rows back to position h: pages wholly above go, open pages keep FILLED below it, sealed pages that
hold h are reopened (R120, R377); without a frame for that the sequence is LOST. -/
def rollBack (s : State) (id h : Nat) : State :=
  match getQ s id with
  | none => s
  | some q =>
    let t := mT (seqModel s q)
    if t = 0 then s
    else
      let within := pagesWithin s q h
      match reopenWithin s id h t within with
      | none => loseSeq s id (safePos q) 4
      | some s =>
        let s := clearLeaves s id fun k _ => decide (h ≤ keyPage k * t)
        let s := within.foldl (fun s e =>
          if (getFr s e.2).state = .opened then modFr s e.2 fun v => refill v (min v.data.hdr.filled (h % t)) else s) s
        let cursor := truncCursor s q (h / t)
        modQ s id fun q => { q with cursor := cursor, rowTried := min q.rowTried (h / t), length := h, resume := h, sentTo := min q.sentTo h, batchHeld := min q.batchHeld h,
                                    held := min q.held h, damagedTo := some (max q.length (q.damagedTo.getD 0)), awaiting := false }

end Sys2Proof.Machine
end

