-- ==== Sys2Proof/Machine/Steps.lean ====
section
/-! DEFINITION. The step unit: step-window writes, step marks, and the acceptance of a mark with its leaves, joins and
boundary draws (chapters 2 and 9). -/

namespace Sys2Proof.Machine

/-! ## Admission throttle (R357) -/

/-- CAP_PERIOD in effect. -/
def capPeriod (s : State) : Nat := rf s.place.record 31 24

/-- First report epoch of this node after epoch `n` (R350). -/
def nextReport (s : State) (n : Nat) : Nat :=
  let p := capPeriod s
  let x := s.nodeNo % p
  n + 1 + (x + p - (n + 1) % p) % p

/-- A report is current: it arrived at most 4 × CAP_PERIOD epochs ago (R351). -/
def reportCurrent (s : State) (r : CapReport) : Bool := decide (epochOf s.ns ≤ r.arrival + 4 * capPeriod s)

/-- Free and total frames of a domain over this node and the current reports (R357). -/
def domainFrames (s : State) (d : Nat) : Nat × Nat :=
  let own := match sliceOf s d with | some sl => (freeInSlice s sl, totalInSlice s sl) | none => (0, 0)
  s.place.reports.fold (fun a k r =>
    if k % 64 = d ∧ reportCurrent s r then (a.1 + r.free, a.2 + r.total) else a) own

/-- The admission throttle is active for a domain (R357). -/
def throttled (s : State) (d : Nat) : Bool :=
  let ft := domainFrames s d
  decide (100 * ft.1 < rf s.place.record 23 17 * ft.2) || s.place.failedSearch.contains d

/-- RETRY_US: microseconds until the end of the current report period, at least 1 (R357). -/
def retryUs (s : State) : Nat :=
  max 1 (ceilDiv (nextReport s (epochOf s.ns) * 1000000 - s.ns) 1000)

/-! ## Step window (R46, R431) -/

/-- The heat whose banks hold a BAR0 offset of a function, if any. -/
def heatAt (s : State) (p : Port) (f : Func) (off : Nat) : Option Nat :=
  (s.heats.find? fun _ h => hCtrlPort h.record = p && h.func = f && h.stepBase ≤ off
    && off < h.stepBase + 2 * h.bankBytes && h.master.isNone).map (·.1)

/-- The step window of a function (R426). -/
def inStepWindow (f : Func) (off : Nat) : Bool :=
  if f = 0 then 0x20000000 ≤ off && off < 0x40000000 else 0x04000000 ≤ off && off < 0x08000000

/-- A bank of a heat. -/
def getBank (h : HeatSt) (b : Nat) : Bank := if b = 0 then h.bank0 else h.bank1

/-- Replace a bank. -/
def setBank (h : HeatSt) (b : Nat) (v : Bank) : HeatSt := if b = 0 then { h with bank0 := v } else { h with bank1 := v }

/-- The lap that last used a bank still runs. -/
def bankBusy (h : HeatSt) (b : Nat) : Bool :=
  match h.lap with | some l => l.step.toNat % 2 == b | none => false

/-- Bytes `lo` to `lo + n - 1` of a granule replaced; bytes never written read as zero. -/
def putBytes (old : BitVec 512) (lo n v : Nat) : BitVec 512 := if n = 0 then old else rset old (8 * (lo + n) - 1) (8 * lo) v

/-- The part of a step-window write that falls into one 64-byte granule. -/
def writeGranule (s : State) (p : Port) (f : Func) (off n v : Nat) : State :=
  match heatAt s p f off with
  | none => count s 1 ((domainOf s p f).getD 0) 3
  | some k => match getH s k with
    | none => s
    | some h =>
      let b := (off - h.stepBase) / h.bankBytes
      if bankBusy h b then
        count (setH s k (setBank h b { getBank h b with poisoned := true })) 1 ((domainOf s p f).getD 0) 3
      else
        let g := (off - h.stepBase) % h.bankBytes / 64
        let bank := getBank h b
        setH s k (setBank h b { bank with granules := bank.granules.upd g 0 fun w => putBytes w (off % 64) n v })

/-- A step-window write, granule by granule. -/
def writeRows (s : State) (p : Port) (f : Func) (off data : Nat) : (len fuel : Nat) → State
  | _, 0 => s
  | len, fuel + 1 =>
    if len = 0 then s
    else
      let n := min len (64 - off % 64)
      writeRows (writeGranule s p f off n (data % 2 ^ (8 * n))) p f (off + n) (data / 2 ^ (8 * n)) (len - n) fuel

/-! ## Results (R48, R244, R245) -/

/-- A step result header (R48). -/
def resultHeader (lapStart accept wait status slots layer heat step : Nat) : Nat :=
  pack [(256, 64, lapStart), (192, 64, accept), (160, 32, wait), (128, 16, status), (108, 10, slots - 1),
    (92, 8, layer), (68, 12, heat), (0, 32, step)]

/-- Host address of a result entry. -/
def entryAddr (h : HeatSt) (n : Nat) : Nat := hResultAddr h.record + n * h.entryBytes

/-- Bytes of one result row of a heat. -/
def resultRowLen (h : HeatSt) : Nat := (h.entryBytes - 64) / hSlots h.record

/-- The result of a mark that is not admitted: the same status in the header and in every slot's row (R47, R48). -/
def rejectResult (s : State) (k : Nat) (h : HeatSt) (step : BitVec 32) (st : Status) : State :=
  let p := hCtrlPort h.record
  let base := entryAddr h (hDepth h.record)
  let s := (List.range (hSlots h.record)).foldl (fun s n =>
    let x := getSlot h n
    let q := x.seq.bind (getQ s)
    let w := pack [(103, 1, b2n x.seq.isNone), (108, 1, b2n (q.any fun q => q.sb == 0)),
      (74, 25, (q.map (·.length)).getD 0), (64, 10, n), (48, 16, st.code), (0, 48, x.seq.getD 0)]
    emit s (.hostWrite p (base + 64 + n * resultRowLen h) 64 w)) s
  let s := emit s (.hostWrite p base 64 (resultHeader 0 0 0 st.code (hSlots h.record) h.layer k step.toNat))
  if hInt h.record then msix s p h.func (hVector h.record) else s

/-! ## Rows (R237, R239, R240) -/

/-- The bank's granule `g`. -/
def granule (h : HeatSt) (b g : Nat) : Nat := ((getBank h b).granules.getD g 0).toNat

/-- A slot's row header. -/
def rowHeader (h : HeatSt) (b n : Nat) : Nat := granule h b (n * h.rowBytes / 64)

/-- Some granule of a slot's row was written since the last mark accepted on the bank (R431). -/
def rowWritten (h : HeatSt) (b n : Nat) : Bool :=
  (getBank h b).granules.any fun g _ => n * h.rowBytes / 64 ≤ g && g < (n + 1) * h.rowBytes / 64

def rwJoin (w : Nat) : Bool := bit w 0
def rwLeave (w : Nat) : Bool := bit w 1
def rwAppend (w : Nat) : Bool := bit w 2
def rwNoAppend (w : Nat) : Bool := bit w 3

/-- Check 1 of R239: a reserved bit of the row header. -/
def rowReserved (w : Nat) : Bool := fld w 293 4 != 0

/-- Check 2 of R239. -/
def rowNames (w n layer : Nat) (step : BitVec 32) : Bool :=
  fld w 303 294 == n && fld w 367 336 == step.toNat && fld w 311 304 == layer

/-- The causal limit c of a slot (R154) as POSITION carries it. -/
def causalLimit (q : SeqSt) (append : Bool) : Nat :=
  if append then q.length else if q.length = 0 then 0xFFFFFF else q.length - 1

/-- Checks 1 to 4 of R239, for a row of layer 0. -/
def earlyCheck (w n : Nat) (step : BitVec 32) (x : SlotSt) : Option Status :=
  if rowReserved w then some .badReserved
  else if !rowNames w n 0 step then some .badField
  else if rwAppend w && rwNoAppend w then some .badField
  else if (rwLeave w && x.seq.isNone) || (rwJoin w && x.seq.isSome && !rwLeave w) then some .badState
  else none

/-! ## Leaves and joins (R49, R241, R242) -/

/-- A slot's sequence leaves: it is IDLE, and its starting block waits for the step's writes. -/
def leaveSlot (s : State) (k n : Nat) : State :=
  match getH s k with
  | none => s
  | some h => match (getSlot h n).seq with
    | none => s
    | some id =>
      let frames := match getQ s id with | some q => if q.sb = 1 then q.sbFrames else [] | none => []
      let s := dropLists (modQ s id fun q => { q with state := .idle, sb := 0, sbFrames := [] }) k n
      setH s k { modSlot h n (fun x => { x with seq := none, left := true }) with
        lap := h.lap.map fun l => { l with leaving := l.leaving ++ frames } }

/-- The checks of R242, orders 1 to 7. -/
def joinCheck (s : State) (h : HeatSt) (id : Nat) : Option Status :=
  match getQ s id with
  | none => some .badState
  | some q =>
    if q.domain ≠ hDomain h.record then some .badState
    else if q.state = .lost then some .lost
    else if h.master.isNone ∧ q.ctrlPort ≠ hCtrlPort h.record then some .notOwner
    else if q.model ≠ hModel h.record then some .badField
    else if q.state ≠ .idle then some .badState
    else if cGpsM1 (heatImage s h) + 1 < (groupsOf q).length then some .badState
    else if throttled s q.domain then some .retryAfter
    else none

/-- A sequence draws its starting block from the slice's pools (R114). -/
def drawBlock (s : State) (id : Nat) : Option State :=
  match getQ s id with
  | none => none
  | some q => match sliceOf s q.domain with
    | none => none
    | some sl => match drawRow s sl q.domain (rowFrames s q) with
      | none => none
      | some (l, s) =>
        let row := freeVal s % 2 ^ 32
        some (modQ (useFree s) id fun q => { q with sb := 1, sbFrames := l, sbRow := row })

/-- A slot's JOIN: refused with a status, or the sequence runs in the slot. -/
def joinSlot (s : State) (k n id : Nat) : State :=
  match getH s k with
  | none => s
  | some h =>
    let refuse := fun (s : State) (st : Status) =>
      setH s k (modSlot h n fun x => { x with seq := none, part := .idle, status := st,
                                              retryUs := if st = .retryAfter then retryUs s else 0 })
    match joinCheck s h id with
    | some st => refuse s st
    | none => match drawBlock s id with
      | none => refuse s .noHeadroom
      | some s =>
        let s := dropLists (modQ s id fun q => { q with state := .running, heat := k, slot := n }) k n
        setH s k (modSlot h n fun x => { x with seq := some id, joined := true })

/-! ## The layer-0 row (R239 orders 6 to 11) -/

/-- The step appends the first position of a page. -/
def atBoundary (s : State) (q : SeqSt) : Bool :=
  let t := mT (seqModel s q)
  t != 0 && q.length % t == 0

/-- Head groups of a sequence that other stripe nodes hold, with the node: the home maps their pages too (R105). -/
def otherGroups (s : State) (id : Nat) (q : SeqSt) : List (Nat × Nat) :=
  if homeOf s id = s.nodeNo then
    (q.stripes.filter fun n => n != s.nodeNo).flatMap fun n =>
      ((bitsOf (q.masks.getD n 0) 64).filter fun g => !bit q.groupMask g).map fun g => (g, n)
  else []

/-- The starting block becomes the open row: a leaf entry for each (layer, group), on this node or the spill node; the
home maps the other stripe nodes' pages with frames that they alone know (R105, R115, R356; assumption 3). -/
def openRow (s : State) (id : Nat) : Option State :=
  match getQ s id with
  | none => none
  | some q =>
    let m := seqModel s q
    let page := pageOf s q q.length
    let rows := (List.range (mLayers m)).flatMap fun l => (groupsOf q).map fun g => (l, g)
    let far := (List.range (mLayers m)).flatMap fun l => (otherGroups s id q).map fun g => (l, g.1, g.2)
    let s1 := (rows ++ far.map fun x => (x.1, x.2.1)).foldl (fun (o : Option State) r => o.bind fun s => ensureLeaf s id r.1 r.2 page) (some s)
    s1.map fun s =>
      let hidden := freeVal s % 2 ^ 24
      let s := if q.sb = 2 ∨ !far.isEmpty then useFree s else s
      let entry := fun (f : Nat) => if q.sb = 2 then ({ node := q.spillNode, frame := hidden, loc := 2 } : Leaf)
        else { node := s.nodeNo, frame := f, loc := 1 }
      let frames := if q.sb = 2 then rows.map fun _ => 0 else q.sbFrames
      let s := modQ s id fun q =>
        { (rows.zip frames).foldl (fun q rf => putLeaf q rf.1.1 rf.1.2 page (entry rf.2)) q with sb := 0, sbFrames := [] }
      let s := modQ s id fun q => far.foldl (fun q x => putLeaf q x.1 x.2.1 page { node := x.2.2, frame := hidden, loc := 2 }) q
      if q.sb = 2 then s
      else (rows.zip frames).foldl (fun s rf =>
        modFr s rf.2 fun v => { v with link := BitVec.ofNat 36 (((getQ s id).map fun q => leafLink m q rf.1.1 rf.1.2 page).getD 0) }) s

/-- Fix a slot's part in the decode step from its layer-0 row, after leaves and joins. -/
def fixPart (s : State) (k n w : Nat) : State :=
  match getH s k with
  | none => s
  | some h =>
    let set := fun (s : State) (p : Part) (st : Status) =>
      setH s k (modSlot h n fun x => { x with part := p, status := st, rowStatus := .ok, runs := p == .appends || p == .attends })
    match (getSlot h n).seq with
    | none => if rwAppend w || rwNoAppend w then set s .idle .badState else set s .idle .ok
    | some id => match getQ s id with
      | none => set s .inert .badState
      | some q =>
        if q.awaiting then set s .inert .damaged
        else if !(rwAppend w) && !(rwNoAppend w) then set s .inert .badField
        else if fld w 335 312 != causalLimit q (rwAppend w) then set s .inert .badField
        else if rwAppend w && decide (q.maxCtxM1 + 1 ≤ q.length) then set s .inert .exhausted
        else if rwAppend w && atBoundary s q then
          if q.sb = 0 then set s .inert .noHeadroom
          else match openRow s id with
            | none => set s .inert .noHeadroom
            | some s => set s .appends .ok
        else set s (if rwAppend w then .appends else .attends) .ok

/-- The chain hash a layer-0 row carries for the page its position ends (R215). -/
def noteHash (s : State) (k n w : Nat) : State :=
  match getH s k with
  | none => s
  | some h =>
    let x := getSlot h n
    match x.seq with
    | none => s
    | some id => match getQ s id with
      | none => s
      | some q =>
        let t := mT (seqModel s q)
        if x.part = .appends ∧ t ≠ 0 ∧ (q.length + 1) % t = 0 ∧ fld w 511 416 ≠ 0 then
          setQ s id { q with hashes := q.hashes.set (q.length / t) (fld w 511 416) }
        else s

/-- After the joins: draw a new starting block for every running slot that holds none (R115, R116). -/
def drawMissing (s : State) (k n : Nat) : State :=
  match (getH s k).bind fun h => (getSlot h n).seq with
  | none => s
  | some id => match getQ s id with
    | none => s
    | some q => if q.state = .running ∧ q.sb = 0 then (drawBlock s id).getD s else s

/-- A frame of an open row turns OPEN at its layer's append: a new identity, an empty page, one reference (R97, R109). -/
def openFrame (s : State) (frame layer group page domain : Nat) (m : BitVec 512) : State :=
  let (i, s) := newIdentity s
  let key := (getD s domain).key
  modFr s frame fun v =>
    let hdr : PageHdr := { identity := i, page := page, kFmt := mKFmt m, vFmt := mVFmt m, latent := mLatent m,
                           layer := layer, group := group }
    let data : PageData := { hdr := hdr, version := v.version + 1, key := key }
    { v with state := .opened, refs := 1, version := v.version + 1, data := data, damaged := false, heldRemote := false }

/-- At a step in which a slot appends the first position of a page, the frames of the row turn OPEN at their own layer
(R115). -/
def openLayer (s : State) (k n layer : Nat) : State :=
  match getH s k with
  | none => s
  | some h =>
    let x := getSlot h n
    match x.seq with
    | none => s
    | some id => match getQ s id with
      | none => s
      | some q =>
        let m := seqModel s q
        if x.part = .appends ∧ mT m ≠ 0 ∧ q.length % mT m = 0 then
          (groupsOf q).foldl (fun s g => match getLeaf q layer g (q.length / mT m) with
            | some e => if e.loc = 1 ∧ (getFr s e.frame).state = .reserved then openFrame s e.frame layer g (q.length / mT m) q.domain m else s
            | none => s) s
        else s

/-- A decode step accepted while a batch of the sequence has fallen due and is not held counts as LATE (R363). -/
def countLate (s : State) (k n : Nat) : State :=
  match (getH s k).bind fun h => (getSlot h n).seq with
  | none => s
  | some id => modQ s id fun q =>
    if q.state = .running ∧ q.bound ≠ .noReplication ∧ q.batchHeld < q.sentTo then { q with late := min 65535 (q.late + 1) } else q

/-! ## Later layers (R240) -/

/-- A row of layer 1 to L − 1. -/
def laterRow (s : State) (k n layer : Nat) (step : BitVec 32) (w : Nat) : State :=
  modH s k fun h =>
    let x := getSlot h n
    match x.seq.bind (getQ s) with
    | none => h
    | some q =>
      if x.part = .appends ∨ x.part = .attends then
        let bad : Option Status :=
          if rowReserved w then some .badReserved
          else if !rowNames w n layer step then some .badField
          else if rwJoin w || rwLeave w then some .badField
          else if rwAppend w != (x.part == .appends) || rwNoAppend w != (x.part == .attends) then some .badField
          else if fld w 335 312 != causalLimit q (x.part == .appends) then some .badField
          else none
        modSlot h n fun x => { x with rowStatus := bad.getD .ok, runs := bad.isNone }
      else h

/-! ## Placement changes that wait for layer 0 (R356, R359, R377) -/

/-- Frames that hold the pages of a group another node has moved here: the leaf key of each page, and its frame (R359). -/
def incomingPages (s : State) (id group : Nat) : List (Nat × Nat) :=
  s.mem.frames.l.filterMap fun e => match e.2.mig with
    | some (.incoming _ _) =>
      if e.2.replicaOf = id ∧ e.2.data.hdr.group = group then
        some (leafKey e.2.data.hdr.layer e.2.data.hdr.group e.2.data.hdr.page, e.1) else none
    | _ => none

/-- Every page of a moving group has fully arrived (R359). -/
def moveArrived (s : State) (id group : Nat) (q : SeqSt) : Bool :=
  let m := seqModel s q
  let t := mT m
  let l := incomingPages s id group
  t != 0 && (List.range (mLayers m)).all fun y => (List.range (ceilDiv q.length t)).all fun p =>
    l.any fun e => e.1 == leafKey y group p && decide (min t (q.length - p * t) ≤ (getFr s e.2).data.hdr.filled)

/-- A page that has moved here takes its place in the page map (R109, R359). -/
def installPage (s : State) (id : Nat) (e : Nat × Nat) : State :=
  let layer := keyLayer e.1
  let group := keyGroup e.1
  let page := keyPage e.1
  match ensureLeaf s id layer group page with
  | none => s
  | some s =>
    let v := getFr s e.2
    let done := match v.mig with | some (.incoming _ b) => b | _ => false
    let s := modQ s id fun q => putLeaf q layer group page
      { ((getLeaf q layer group page).getD {}) with node := s.nodeNo, frame := e.2, loc := 1 }
    let link := ((getQ s id).map fun q => leafLink (seqModel s q) q layer group page).getD 0
    let s := modFr s e.2 fun v => { v with state := if done then .sealed else .opened, refs := 1, mig := none, replicaOf := 0,
                                           link := BitVec.ofNat 36 link, heldRemote := false }
    if done then idxAdd s id layer group page (e.2 % 20) v.data.sketch.toNat else s

/-- A migration commits: the groups it brings are installed, those that leave lose their references (R359). -/
def commitMove (s : State) (id : Nat) (c : MapChange) : State :=
  match getQ s id with
  | none => s
  | some q =>
    let came := (bitsOf c.groupMask 64).filter fun g => !bit q.groupMask g
    let s := setQ s id { q with change := none, moving := none, groupMask := c.groupMask,
                                masks := if q.masks.has s.nodeNo then q.masks.set s.nodeNo c.groupMask else q.masks,
                                stripes := if c.stripes.isEmpty then q.stripes else c.stripes }
    let s := came.foldl (fun s g => (incomingPages s id g).foldl (fun s e => installPage s id e) s) s
    clearLeaves s id fun k e => e.loc == 1 && !bit c.groupMask (keyGroup k)

/-- Commit the change a sequence waits for. A migration waits until every page of its groups has arrived. -/
def commitChange (s : State) (id : Nat) : State :=
  match getQ s id with
  | none => s
  | some q => match q.change with
    | none => s
    | some c =>
      let came := (bitsOf c.groupMask 64).filter fun g => !bit q.groupMask g
      if c.kind = 0 then if came.all fun g => moveArrived s id g q then commitMove s id c else s
      else
        let s := setQ s id { q with change := none, groupMask := if c.kind = 2 then q.groupMask else c.groupMask,
                                    stripes := if c.stripes.isEmpty then q.stripes else c.stripes }
        if c.kind = 2 then rollBack s id c.length else s

/-! ## Acceptance -/

/-- The shadowed heat fields take effect (R445). -/
def applyHeatShadow (h : HeatSt) : HeatSt :=
  { h with record := h.shadow.getD h.record, shadow := none, selRec := h.selShadow.getD h.selRec, selShadow := none }

/-- The clusters a heat's course runs on. -/
def heatClusters (s : State) (h : HeatSt) : List Nat :=
  match heatSlice s h with | some sl => sliceClusters s sl | none => []

/-- Fold over the slots of a heat. -/
def overSlots (k slots : Nat) (f : State → Nat → State) (s : State) : State :=
  (List.range slots).foldl (fun s n => if (getH s k).isSome then f s n else s) s

/-- The layer-0 work of an accepted mark: placement changes, leaves, joins, parts, boundary draws (R241). -/
def layer0Work (s : State) (k : Nat) (step : BitVec 32) : State :=
  match getH s k with
  | none => s
  | some h =>
    let b := step.toNat % 2
    let n := hSlots h.record
    let row := fun i => rowHeader h b i
    let waits := fun (i : Nat) => ((getSlot h i).seq.bind (getQ s)).any fun q =>
      q.awaiting || q.change.any fun c => c.kind == 2
    let acts := fun i => !waits i && (rowWritten h b i || (getSlot h i).seq.isSome)
    let ok := fun (i : Nat) => acts i && (earlyCheck (row i) i step (getSlot h i)).isNone
    let s := overSlots k n (fun s i => match (getSlot h i).seq with | some id => commitChange s id | none => s) s
    let s := overSlots k n (fun s i => modH s k fun h => modSlot h i fun x =>
      { x with joined := false, left := false, retryUs := 0, gone := none, part := .idle, status := .ok,
               rowStatus := .ok, runs := false }) s
    let s := overSlots k n (fun s i => if ok i && rwLeave (row i) then leaveSlot s k i else s) s
    let s := overSlots k n (fun s i => if ok i && rwJoin (row i) then joinSlot s k i (fld (row i) 415 368) else s) s
    let s := overSlots k n (fun s i =>
      if waits i then modH s k fun h => modSlot h i fun x => { x with part := .inert, status := .damaged }
      else if !acts i then s
      else match earlyCheck (row i) i step (getSlot h i) with
        | some st => modH s k fun h => modSlot h i fun x => { x with part := .inert, status := st }
        | none =>
          if rwJoin (row i) && ((getH s k).any fun h => (getSlot h i).seq.isNone) then s
          else fixPart (noteHash s k i (row i)) k i (row i)) s
    let s := overSlots k n (fun s i => noteHash s k i (row i)) s
    overSlots k n (fun s i => drawMissing s k i) s

/-- The later-layer work of an accepted mark. -/
def laterWork (s : State) (k layer : Nat) (step : BitVec 32) : State :=
  match getH s k with
  | none => s
  | some h =>
    let b := step.toNat % 2
    let n := hSlots h.record
    let s := overSlots k n (fun s i => modH s k fun h => modSlot h i fun x =>
      { x with joined := false, left := false, runs := x.part == .appends || x.part == .attends, rowStatus := .ok }) s
    let s := overSlots k n (fun s i => laterRow s k i layer step (rowHeader h b i)) s
    overSlots k n (fun s i => drawMissing s k i) s

/-- A lease renewal for each running sequence of a heat, at most one per LEASE_MS / 4 (R370). -/
def renewLeases (s : State) (k : Nat) : State :=
  match getH s k with
  | none => s
  | some h =>
    overSlots k (hSlots h.record) (fun s i =>
      match (getH s k).bind fun h => (getSlot h i).seq with
      | none => s
      | some id => match getQ s id with
        | none => s
        | some q =>
          if q.renewed + q.own.leaseMs * 250000 ≤ s.ns then
            let s := setQ s id { q with renewed := s.ns }
            let func := (hCtrlPort h.record).val * 128 + h.func.val
            let home := (s.place.failed.get? (seqHome id)).getD (seqHome id)
            if home = s.nodeNo then
              if s.ns < q.own.expiry ∧ q.own.ownerNode = s.nodeNo ∧ q.own.ownerFunc = func then
                modQ s id fun q => { q with own := { q.own with expiry := s.ns + q.own.leaseMs * 1000000 } }
              else s
            else sendMgmt s home 0x0009 0 24
              (pack [(0, 48, id), (64, 32, q.own.epoch), (96, 16, s.nodeNo), (112, 8, func), (128, 64, s.ns)])
          else s) s

/-- Bytes of a slot's row as written, unwritten granules as zero. -/
def rowBytesAt (h : HeatSt) (b n : Nat) : Nat :=
  ofGranules ((List.range (h.rowBytes / 64)).map fun g => granule h b (n * h.rowBytes / 64 + g))
where
  /-- granules in ascending order as one number -/
  ofGranules : List Nat → Nat
    | [] => 0
    | g :: t => g + 2 ^ 512 * ofGranules t

/-- The attention extension of a heat's step traffic (R301). -/
def attnExt (step layer slot heat seq group : Nat) : Nat :=
  pack [(96, 32, step), (48, 48, seq), (40, 8, layer), (34, 6, group), (24, 10, slot), (12, 12, heat)]

/-- Other nodes that hold stripes of the heat's sequences. -/
def stripeNodes (s : State) (h : HeatSt) : List Nat :=
  ((List.range (hSlots h.record)).flatMap fun n => (((getSlot h n).seq.bind (getQ s)).map (·.stripes)).getD []).eraseDups.filter
    fun x => x != s.nodeNo && nodeReachable s x

/-- A striped heat's home forwards the step's rows and the mark to each stripe node (R315): one row message with every
row the host wrote. -/
def forwardStep (s : State) (k : Nat) (step : BitVec 32) (layer : Nat) : State :=
  match getH s k with
  | none => s
  | some h =>
    let b := step.toNat % 2
    let rows := (List.range (hSlots h.record)).filter fun n => rowWritten h b n
    let data := (rows.map fun n => rowBytesAt h b n).foldr (fun r t => r + 2 ^ (8 * h.rowBytes) * t) 0
    (stripeNodes s h).foldl (fun s node =>
      let (q, s) := internalQueue s 0 node k (hDomain h.record) 0
      match q with
      | none => s
      | some qk =>
        let s := if rows.isEmpty then s else launchInternal s qk
          { op := 4, total := rows.length * h.rowBytes, ext := attnExt step.toNat layer (rows.headD 0) k (((getSlot h (rows.headD 0)).seq).getD 0) 0, extLen := 1, data := data,
            purpose := .step }
        launchInternal s qk { op := 4, total := 32, ext := attnExt step.toNat layer 0 k 0 0, extLen := 1,
                              data := pack [(0, 16, if rows.isEmpty then 0 else 1), (64, 64, s.ns)], purpose := .step }) s

/-- What takes effect for a heat's sequences at a mark: index commits and filter bindings (R193, R199). -/
def commitHeat (s : State) (k : Nat) : State :=
  match getH s k with
  | none => s
  | some h =>
    overSlots k (hSlots h.record) (fun s i =>
      match (getH s k).bind fun h => (getSlot h i).seq with
      | none => s
      | some id =>
        modQ (commitIndexes s id) id fun q => { q with filter := q.filterNext.getD q.filter, filterNext := none }) s

/-- The step unit accepts a mark: the lap's snapshot is taken and its clusters begin to count lap start (R20, R49). -/
def acceptMark (s : State) (k : Nat) (step : BitVec 32) (layer entry : Nat) : State :=
  match getH s k with
  | none => s
  | some h0 =>
    let h := applyHeatShadow h0
    let number := (s.mem.lapNo + 1) % 2 ^ 48
    let s := { s with mem := { s.mem with lapNo := number } }
    let lap : LapSt :=
      { number := number, step := step, layer := layer, accept := s.ns, entry := entry,
        cls := (heatClusters s h).foldl (fun m c => m.set c { readyAt := s.ns + 32 }) .empty }
    let s := setH s k { h with lap := some lap, held := none }
    let s := if layer = 0 then overSlots k (hSlots h.record) (fun s n => countLate s k n) (layer0Work s k step) else laterWork s k layer step
    let s := overSlots k (hSlots h.record) (fun s n => openLayer s k n layer) s
    let s := forwardStep (renewLeases (commitHeat s k) k) k step layer
    modH s k fun h => setBank h (step.toNat % 2) { getBank h (step.toNat % 2) with poisoned := false }

/-! ## Step marks (R47) -/

/-- The heat's slice is sealed. -/
def sliceSealed (s : State) (sl : Nat) : Bool := rb (getS s sl).record 43

/-- Some lap of a heat of the slice has not ended. -/
def lapInSlice (s : State) (sl : Nat) : Bool := s.heats.any fun _ h => h.lap.isSome && heatSlice s h == some sl

/-- Some cluster of the slice is switching its CCLK (R488). -/
def sliceSwitching (s : State) (sl : Nat) : Bool := (sliceClusters s sl).any fun c => (getC s c).switching

/-- A mark must wait: the heat's lap runs, the sealed slice has a lap, CCLK switches, or the node is stopped (R47, R488,
R491). -/
def mustHold (s : State) (h : HeatSt) : Bool :=
  h.lap.isSome || s.thermal.stopped || match heatSlice s h with
    | some sl => (sliceSealed s sl && lapInSlice s sl) || sliceSwitching s sl
    | none => false

/-- The course of the heat claims a quarantined cluster (R30). -/
def claimsQuarantined (s : State) (h : HeatSt) : Bool := (heatClusters s h).any fun c => (getC s c).quarantined

/-- The mark is admitted: held or accepted (R43). -/
def admitMark (s : State) (k : Nat) (h : HeatSt) (step : BitVec 32) : State :=
  let layers := mLayers (heatModel s h)
  let layer := h.layer
  let entry := h.admitted % hDepth h.record
  let h' := { h with expected := h.expected + 1, layer := (h.layer + 1) % layers, last := some step,
                     admitted := h.admitted + 1 }
  if mustHold s h then
    { setH s k { h' with held := some { step := step, order := s.heldNext, layer := layer, entry := entry } } with
      heldNext := s.heldNext + 1 }
  else acceptMark (setH s k h') k step layer entry

/-- Whether a doorbell write names a heat its function may ring (R429). -/
def heatVisible (s : State) (p : Port) (f : Func) (h : HeatSt) : Bool :=
  h.master.isNone && (f = 0 || (getF s p f).assigned == some (hDomain h.record))

/-- A step-mark doorbell, in the order of R47. -/
def markOp (s : State) (p : Port) (f : Func) (k size : Nat) (value : Word) : State :=
  let step := BitVec.ofNat 32 (rf value 63 32)
  let off := 0x10000 + 64 * k
  if size ≠ 8 ∨ rf value 31 12 ≠ 0 ∨ rf value 11 0 ≠ k then raiseRing s p f 0x0030 off value.toNat
  else match (getH s k).filter fun h => !h.doomed with
    | none => raiseRing s p f 0x0031 off value.toNat
    | some h =>
      if !heatVisible s p f h then raiseRing s p f 0x0031 off value.toNat
      else if hCtrlPort h.record ≠ p then raiseRing s p f 0x0032 off value.toNat
      else if h.last = some step then count s 1 (hDomain h.record) 4
      else if s.fenced then rejectResult s k h step .fenced
      else if step ≠ h.expected ∨ h.state ≠ .running ∨ (getBank h (step.toNat % 2)).poisoned ∨ claimsQuarantined s h
          ∨ s.boot.failed then
        rejectResult (setH s k (setBank h (step.toNat % 2) { getBank h (step.toNat % 2) with poisoned := false })) k h step .badState
      else if h.held.isSome then rejectResult s k h step .busy
      else admitMark s k h step

/-- The held marks of a slice's heats, earliest first, as (order, heat). -/
def heldIn (s : State) (sl : Nat) : Option Nat :=
  (s.heats.fold (fun (b : Option (Nat × Nat)) k h => match h.held with
    | none => b
    | some m => if heatSlice s h ≠ some sl then b else match b with
      | none => some (m.order, k)
      | some (o, _) => if m.order < o then some (m.order, k) else b) none).map (·.2)

/-- Accept a heat's held mark when nothing holds it back any more. -/
def acceptHeld (s : State) (k : Nat) : State :=
  match getH s k with
  | none => s
  | some h => match h.held with
    | none => s
    | some m => if mustHold s h || s.fenced then s else acceptMark s k m.step m.layer m.entry

/-- Accept what may be accepted in a slice: in a sealed slice only the earliest-held mark (R51). -/
def acceptHeldIn (s : State) (sl : Nat) : State :=
  if sliceSealed s sl then
    match heldIn s sl with | some k => acceptHeld s k | none => s
  else s.heats.fold (fun s k h => if heatSlice s h = some sl then acceptHeld s k else s) s

/-! ## The commands -/

/-- STEP_ROW_WRITE (R46, R431). -/
def execStepRowWrite (p : Port) (f : Func) (off len data : Nat) (s : State) : Res :=
  .next (if inStepWindow f off then writeRows s p f off data len (len + 1) else s)

/-- STEP_MARK (R47). -/
def execStepMark (p : Port) (f : Func) (now slotHeat size : Nat) (value : Word) (s : State) : Res :=
  .next (if s.sec.mod = .error then s else markOp (clockTo s now) p f slotHeat size value)

end Sys2Proof.Machine
end

