-- ==== Sys2Proof/Machine/Laps.lean ====
section
/-! DEFINITION. Laps in the clusters: page lists, lap start, hurdles, parking, replay, arbitration, quarantine
(R50, R81 to R90, R155 to R158, R250, R251). -/

namespace Sys2Proof.Machine

/-! ## Reading and writing a lap in a cluster -/

/-- The lap of a heat in a cluster. -/
def getCl (s : State) (k c : Nat) : Option LapCl := ((getH s k).bind (·.lap)).bind fun l => l.cls.get? c

/-- Replace the lap of a heat in a cluster. -/
def setCl (s : State) (k c : Nat) (v : LapCl) : State :=
  modH s k fun h => { h with lap := h.lap.map fun l => { l with cls := l.cls.set c v } }

/-- Change the lap of a heat in a cluster where there is one. -/
def modCl (s : State) (k c : Nat) (g : LapCl → LapCl) : State :=
  match getCl s k c with | some v => setCl s k c (g v) | none => s

/-- Change the running lap of a heat. -/
def modLap (s : State) (k : Nat) (g : LapSt → LapSt) : State := modH s k fun h => { h with lap := h.lap.map g }

/-- Key of a page row of a slot, and of a head of it. -/
def rowKey (slot group : Nat) : Nat := slot * 64 + group
def headKey (slot group head : Nat) : Nat := rowKey slot group * 16 + head

/-- Laps that hold a context slot of a cluster: started and not ended over the slice (R85, R86). -/
def contextsUsed (s : State) (c : Nat) : Nat :=
  s.heats.fold (fun n _ h => match h.lap.bind fun l => l.cls.get? c with
    | some v => if v.phase = .waiting then n else n + 1
    | none => n) 0

/-- OLDEST: the lowest lap number among the laps with a context slot in a cluster, none when there is none (R119). -/
def oldestLap (s : State) (c : Nat) : Option Nat :=
  s.heats.fold (fun (b : Option Nat) _ h => match h.lap with
    | none => b
    | some l => match l.cls.get? c with
      | none => b
      | some v => if v.phase = .waiting then b else match b with
        | none => some l.number
        | some m => some (min m l.number)) none

/-! ## Page lists (R81, R155 to R158) -/

/-- First position of the local window (R156). -/
def windowStart (c window t : Nat) : Nat := min (c + 1 - window) (t * (c / t))

/-- The lap is dense for a slot (R155). -/
def denseLap (image c : Nat) : Bool := cDenseBound image != 0 && decide (c + 1 ≤ cDenseBound image)

/-- A page's place in a sparse or dense lap at lap start: its first and one-past-last attended offsets, none when it is
not attended (R156, R157). -/
def pageMask (image c t page : Nat) (isGlobal : Bool) : Option (Nat × Nat) :=
  if t = 0 ∨ c < page * t then none
  else
    let stop := min t (c + 1 - page * t)
    let w0 := windowStart c (cWindow image) t
    if denseLap image c || isGlobal then some (0, stop)
    else if w0 / t ≤ page then some (w0 - page * t, stop)
    else none

/-- The globals of a sequence that a lap takes (R156). -/
def lapGlobals (image : Nat) (q : SeqSt) : List Nat := (q.globals.stableSort fun a b => decide (a ≤ b)).take (cGlobalPages image)

/-- The page list of one slot and group in a cluster at lap start, in ordinal order. -/
def buildPages (image c t layer group cl : Nat) (q : SeqSt) : List LapPage :=
  q.leaves.l.filterMap fun e =>
    if keyLayer e.1 = layer ∧ keyGroup e.1 = group ∧ e.2.loc = 1 ∧ e.2.frame % 20 = cl then
      (pageMask image c t (keyPage e.1) ((lapGlobals image q).contains (keyPage e.1))).map fun r =>
        { page := keyPage e.1, frame := e.2.frame, first := r.1, stop := r.2 }
    else none

/-- Offsets of a page that a lap attends. -/
def pageCount (x : LapPage) : Nat := x.stop - x.first

/-- Add a count for every head of a group. -/
def addHeads (m : Map Nat) (slot group hpg n : Nat) : Map Nat :=
  if n = 0 then m else (List.range hpg).foldl (fun m h => m.upd (headKey slot group h) 0 fun c => satAdd 24 c n) m

/-- Set flag bits for every head of a group. -/
def orHeads (m : Map Nat) (slot group hpg bits : Nat) : Map Nat :=
  if bits = 0 then m else (List.range hpg).foldl (fun m h => m.upd (headKey slot group h) 0 fun c => c ||| bits) m

/-- Flag bits of a descriptor kept here: OVERFLOW 1, GLOBAL_CAP 2, PARTIAL_SEL 4 (R171). -/
def flagOverflow : Nat := 1
def flagGlobalCap : Nat := 2
def flagPartialSel : Nat := 4

/-- Place of a cluster among its slice's clusters: the timetable it runs (R54). -/
def ttIndex (s : State) (h : HeatSt) (c : Nat) : Nat := ((heatClusters s h).takeWhile fun x => x < c).length

/-- The entries of a timetable, in order. -/
def ttEntries (image tt : Nat) : List Nat := (List.range (ttCount image tt)).map (ttEntry image tt)

/-- An entry is an operation. -/
def isOp (e engine opcode : Nat) : Bool := eEngine e == engine && eOpcode e == opcode

/-- A page reference as an A operand. -/
def refWord (slot group ord : Nat) : Nat := slot * 2 ^ 22 + group * 2 ^ 16 + ord

/-- Page references that some MXE.ATT of a timetable names. -/
def attended (image tt : Nat) : List Nat := ((ttEntries image tt).filter fun e => isOp e 0 1).map eA

/-- The work record of a lap in a cluster at lap start, with the rows that hold pages it will not attend, as (sequence,
group, page): pages beyond PAGES_PER_ROW (R82), pages no MXE.ATT names (R81). Pages whose frame is DAMAGED are excluded
too (R147). -/
def startWork (s : State) (h : HeatSt) (layer cl tt : Nat) : LapWork × List (Nat × Nat × Nat) :=
  let image := heatImage s h
  let m := heatModel s h
  let t := mT m
  let hpg := mHpg m
  let refs := attended image tt
  (List.range (hSlots h.record)).foldl (fun (a : LapWork × List (Nat × Nat × Nat)) n =>
    let x := getSlot h n
    match x.seq, x.seq.bind (getQ s) with
    | some id, some q =>
      let append := x.part == .appends
      if !x.runs || (!append && q.length == 0) then a
      else
        let c := if append then q.length else q.length - 1
        (groupsOf q).foldl (fun (a : LapWork × List (Nat × Nat × Nat)) g =>
          let all := buildPages image c t layer g cl q
          let keep := (all.take (maxPagesPerRow image)).zipIdx.map fun e =>
            ({ e.1 with excluded := (getFr s e.1.frame).damaged || !refs.contains (refWord n g e.2) }, refs.contains (refWord n g e.2))
          let beyond := all.drop (maxPagesPerRow image)
          let out := (keep.filter fun e => e.1.excluded).map (·.1) ++ beyond
          let lost := (keep.filter fun e => !e.2).map (·.1) ++ beyond
          let w := a.1
          let cap := if cGlobalPages image < q.globals.length ∧ !denseLap image c then flagGlobalCap else 0
          ({ w with pages := w.pages.set (rowKey n g) (keep.map (·.1)),
                    excluded := addHeads w.excluded n g hpg (out.foldl (fun n x => n + pageCount x) 0),
                    flags := orHeads w.flags n g hpg cap },
           match lost with | [] => a.2 | x :: _ => a.2 ++ [(id, g, x.page)])) a
    | _, _ => a) ({}, [])

/-- FAULT of a memory reason (R478): channel, address, sequence, row, page, frame. -/
def raisePage (s : State) (reason c domain : Nat) (p : Port) (addr id layer group page frame : Nat) : State :=
  raiseObj s 0x0001 reason c domain p
    (pack [(0, 8, c), (64, 64, addr), (128, 48, id), (176, 8, layer), (184, 8, group), (192, 24, page), (224, 24, frame)])

/-- The lap's timetable starts in a cluster. -/
def startLap (s : State) (k c wait : Nat) : State :=
  match getH s k with
  | none => s
  | some h => match h.lap with
    | none => s
    | some l =>
      let (w, lost) := startWork s h l.layer c (ttIndex s h c)
      let sealed := match heatSlice s h with | some sl => sliceSealed s sl | none => false
      let s := modCl s k c fun v => { v with phase := .running, start := s.ns, wait := if sealed then 0 else wait,
                                             work := w, savedWork := w, savedScratch := .empty, lastAt := 0 }
      let s := setC s c { getC s c with holder := some k, granted := none }
      lost.foldl (fun s x => raisePage s 0x0011 c (hDomain h.record) (hCtrlPort h.record) 0 x.1 l.layer x.2.1 x.2.2 0) s

/-- The lap may start in the cluster now (R50, R86). -/
def canStart (s : State) (k c : Nat) : Bool :=
  match getCl s k c with
  | none => false
  | some v => v.phase == .waiting && decide (v.readyAt ≤ s.ns) && (getC s c).holder.isNone && !(getC s c).quarantined
      && !(getC s c).switching && decide (contextsUsed s c < 64)
      && (match (getC s c).granted with | some g => g == k | none => true)

/-- LAP_START (R50, R86, R105). -/
def execLapStart (heat : Nat) (cl : Cluster) (now wait : Nat) (s : State) : Res :=
  let s := clockTo s now
  .next (if canStart s heat cl.val then startLap s heat cl.val wait else s)

/-! ## Arbitration (R250, R251) -/

/-- WEIGHT of a domain. -/
def weightOf (s : State) (d : Nat) : Nat := rf (s.shares.getD d 16) 9 0

/-- QUANTUM. -/
def quantum (s : State) : Nat := rf s.arb 23 0

/-- A domain's deficit in a cluster. -/
def deficit (s : State) (c d : Nat) : Int := s.deficits.getD (c * 64 + d) 0

/-- A signed 40-bit saturating value. -/
def sat40 (x : Int) : Int := max (-(2 ^ 39)) (min (2 ^ 39 - 1) x)

/-- Set a deficit. -/
def setDeficit (s : State) (c d : Nat) (x : Int) : State := { s with deficits := s.deficits.set (c * 64 + d) (sat40 x) }

/-- Laps ready in a cluster, as (lap number, heat, domain): waiting past their earliest start with a context slot to be
had, or parked for pre-emption. -/
def readyLaps (s : State) (c : Nat) : List (Nat × Nat × Nat) :=
  s.heats.l.filterMap fun e => match e.2.lap with
    | none => none
    | some l => match l.cls.get? c with
      | none => none
      | some v =>
        let ok := match v.phase with
          | .waiting => decide (v.readyAt ≤ s.ns) && decide (contextsUsed s c < 64)
          | .preemptPark => true
          | _ => false
        if ok then some (l.number, e.1, hDomain e.2.record) else none

/-- The refill loop of R251 in closed form: how many refills until some ready domain is above 0. -/
def refills (ds : List (Int × Nat)) : Nat :=
  (ds.foldl (fun (b : Option Nat) (x : Int × Nat) =>
    let n : Nat := if 0 < x.1 then 0 else if x.2 = 0 then 0 else ((-x.1) / (x.2 : Int)).toNat + 1
    match b with
    | none => some n
    | some m => some (min m n)) none).getD 0

/-- The domain the decision grants, and the deficits it leaves (R251). -/
def decide251 (s : State) (c : Nat) (doms : List Nat) : Option (Nat × State) :=
  if doms.isEmpty then none
  else
    let wq := fun d => weightOf s d * quantum s
    let n := refills (doms.map fun d => (deficit s c d, wq d))
    let s := if n = 0 then s else doms.foldl (fun s d =>
      setDeficit s c d (min (deficit s c d + (n * wq d : Nat)) (wq d : Nat))) s
    let best := doms.foldl (fun (b : Option Nat) d => match b with
      | none => some d
      | some x => if deficit s c x < deficit s c d ∨ (deficit s c x = deficit s c d ∧ d < x) then some d else some x) none
    best.map fun d => (d, s)

/-- Of the ready laps of a domain, the heat whose lap was accepted earliest. -/
def earliestOf (l : List (Nat × Nat × Nat)) (d : Nat) : Option Nat :=
  ((l.filter fun e => e.2.2 == d).foldl (fun (b : Option (Nat × Nat)) e => match b with
    | none => some (e.1, e.2.1)
    | some x => if e.1 < x.1 then some (e.1, e.2.1) else some x) none).map (·.2)

/-- A parked lap gets its checkpoint and its cluster back. -/
def restoreCheckpoint (s : State) (k c : Nat) : State :=
  match getCl s k c with
  | none => s
  | some v =>
    let s := { s with scratch := v.savedScratch.fold (fun m u x => m.set u x) s.scratch }
    setCl s k c { v with work := v.savedWork, parity := false }

/-- Give a cluster to a heat's lap: a parked one resumes, a waiting one may start. -/
def grant (s : State) (k c : Nat) : State :=
  match getCl s k c with
  | none => s
  | some v =>
    if v.phase = .preemptPark then
      let s := restoreCheckpoint s k c
      let s := modCl s k c fun v => { v with phase := .running }
      setC s c { getC s c with holder := some k, granted := none }
    else setC s c { getC s c with granted := some k }

/-- A decision at a lap end or a park: the cluster is free. -/
def arbitrateFree (s : State) (c : Nat) : State :=
  let l := readyLaps s c
  match decide251 s c (l.map (·.2.2)).eraseDups with
  | none => s
  | some (d, s) => match earliestOf l d with
    | none => s
    | some k => grant s k c

/-- Time a lap has held a cluster: its domain's deficit falls, engine time is charged, others' laps slow down (R251,
R252, R255). -/
def holdFor (s : State) (k c cycles : Nat) : State :=
  match getH s k with
  | none => s
  | some h =>
    let d := hDomain h.record
    let s := setDeficit s c d (deficit s c d - 4 * cycles)
    let s := charge (charge s d .engine (4 * cycles)) d .held cycles
    let s := chargeEnergy s d 0 2 (4 * cycles)
    (readyLaps s c).foldl (fun s e => if e.2.2 = d then s else charge s e.2.2 .slowdown cycles) s

/-- The CCLK setting that is due is applied now that the cluster holds no lap (R29, R488). -/
def startSwitch (s : State) (c : Nat) : State :=
  let v := getC s c
  if v.due.isSome ∧ v.holder.isNone then setC s c { v with switching := true } else s

/-! ## Quarantine (R30, R90, R382) -/

/-- A lap abandons a cluster: no further operation there. -/
def abandonCl (v : LapCl) : LapCl := if v.phase = .ended then v else { v with phase := .abandoned }

/-- Pages of a quarantined cluster's channel count as having failed authentication; SEALING ones stay uncompressed
(R109, R382). -/
def loseFrames (s : State) (c : Nat) : State :=
  let frames := s.mem.frames.mapVals fun f v =>
    if f % 20 ≠ c then v
    else
      let v := if v.state = .sealing then { v with state := .opened } else v
      if v.state = .opened ∨ v.state = .sealed ∨ v.state = .shared then { v with damaged := true } else v
  { s with mem := { s.mem with frames := frames } }

/-- Sequences with an open row in a channel wait for their rollback (R382, R377). -/
def awaitRollback (s : State) (c : Nat) : State :=
  let hit := fun (q : SeqSt) => q.leaves.any fun _ e => e.loc == 1 && e.frame % 20 == c &&
    ((getFr s e.frame).state == .opened)
  { s with seqs := s.seqs.mapVals fun _ q => if hit q then { q with awaiting := true } else q }

/-- A cluster is quarantined: reason 1 parity, 2 channel FAILED, 3 training failed (R478). -/
def quarantineCluster (s : State) (c reason : Nat) : State :=
  if (getC s c).quarantined then s
  else
    let s := awaitRollback s c
    let s := loseFrames s c
    let s := setC s c { getC s c with quarantined := true, holder := none, granted := none }
    let s := { s with heats := s.heats.mapVals fun _ h => match h.lap with
      | none => h
      | some l => { h with lap := some { l with cls := l.cls.modify c abandonCl } } }
    raiseNode s 0x000A reason c 0 (pack [(0, 8, (clusterSlice s c).getD 0)])

/-! ## Hurdles (R84 to R89) -/

/-- The hurdle-list entry of a hurdle of a timetable. -/
def hurdleOf (image tt ordinal : Nat) : Option Nat :=
  (((List.range (cHurdleCount image)).map (hurdleEntry image)).filter fun e => hCluster e == tt)[ordinal]?

/-- The live ranges of a hurdle as scratch units of a cluster. -/
def liveUnits (image c e : Nat) : List Nat :=
  (List.range (hRangeCount e)).flatMap fun i =>
    let r := rangeEntry image (hRangeFirst e + i)
    (List.range (rLength r)).map fun j => (c * 4 + rCore r) * 16384 + rStart r + j

/-- Copy the live ranges of a hurdle into the lap's context slot (R85). -/
def writeCheckpoint (s : State) (k c image e : Nat) : State :=
  let saved := (liveUnits image c e).foldl (fun (m : Map Scr) u => m.set u (s.scratch.getD u {})) .empty
  modCl s k c fun v => { v with savedScratch := saved, savedWork := v.work, hurdle := v.hurdle + 1, attempts := 0,
                                lastAt := hOffset e }

/-- Count a replay; PARITY_REPLAY once per epoch and cluster (R90). -/
def noteReplay (s : State) (c : Nat) : State :=
  let v := getC s c
  let s := setC s c { v with replays := v.replays + 1, replayRaised := true }
  if v.replayRaised then s
  else raiseNode s 0x0009 0 c 0 (pack [(0, 32, v.replays + 1), (64, 64, epochOf s.ns)])

/-- A segment ended with an error: quarantine at the fourth parity failure, a park while a page is absent, otherwise
restore and replay (R87). True when the hurdle is passed. -/
def segmentEnd (s : State) (k c : Nat) : State × Bool :=
  match getCl s k c, getH s k with
  | some v, some h =>
    if !v.parity && v.faults.isEmpty then (s, true)
    else
      let attempts := if v.parity then v.attempts + 1 else v.attempts
      let s := setCl s k c { v with attempts := attempts }
      if 3 < attempts then
        let s := quarantineCluster s c 1
        (raiseNode s 0x0001 0x0022 c (hDomain h.record) (otherPayload 0 k v.hurdle), false)
      else if !v.faults.isEmpty then
        let s := modCl s k c fun v => { v with phase := .faultPark }
        let s := setC s c { getC s c with holder := none }
        (arbitrateFree s c, false)
      else (noteReplay (restoreCheckpoint s k c) c, false)
  | _, _ => (s, false)

/-- Pre-emption at a hurdle that allows it, once the holder's deficit is 0 or below (R251). -/
def preempt (s : State) (k c : Nat) : State :=
  match getH s k with
  | none => s
  | some h =>
    let d := hDomain h.record
    if 0 < deficit s c d then s
    else
      let l := readyLaps s c
      match decide251 s c (d :: l.map (·.2.2)).eraseDups with
      | none => s
      | some (g, s) =>
        if g = d then s
        else match earliestOf l g with
          | none => s
          | some j =>
            let s := modCl s k c fun v => { v with phase := .preemptPark }
            grant (setC s c { getC s c with holder := none }) j c

/-- A hurdle of the running lap. -/
def hurdleOp (u : Uop) (inserted : Nat) (s : State) : State :=
  let k := u.heat
  let c := u.cl.val
  match getCl s k c, getH s k with
  | some v, some h =>
    if v.phase = .running ∧ (getC s c).holder = some k ∧ u.a.toNat = v.hurdle then
      let image := heatImage s h
      match hurdleOf image (ttIndex s h c) v.hurdle with
      | none => s
      | some e =>
        let s := setCl s k c { v with parity := v.parity || u.parity }
        let s := holdFor s k c (hOffset e - v.lastAt + inserted)
        let (s, ok) := segmentEnd s k c
        if ok then
          let s := writeCheckpoint s k c image e
          if hPreempt e then preempt s k c else s
        else s
    else s
  | _, _ => s

/-- MAR_HURDLE (R87). -/
def execMarHurdle (u : Uop) (inserted : Nat) (s : State) : Res := .next (hurdleOp u inserted s)

/-- The end of the timetable in a cluster: the cluster is free, and a CCLK switch or another lap may follow. -/
def marEndOp (u : Uop) (inserted : Nat) (s : State) : State :=
  let k := u.heat
  let c := u.cl.val
  match getCl s k c, getH s k with
  | some v, some h =>
    if v.phase = .running ∧ (getC s c).holder = some k then
      let image := heatImage s h
      let tt := ttIndex s h c
      let s := setCl s k c { v with parity := v.parity || u.parity }
      let s := holdFor s k c (eOffset (ttEntry image tt (ttCount image tt - 1)) - v.lastAt + inserted)
      let (s, ok) := segmentEnd s k c
      if ok then
        let s := modCl s k c fun v => { v with phase := .ended }
        let s := setC s c { getC s c with holder := none }
        arbitrateFree (startSwitch s c) c
      else s
    else s
  | _, _ => s

/-- MAR_END (R251). -/
def execMarEnd (u : Uop) (inserted : Nat) (s : State) : Res := .next (marEndOp u inserted s)

/-! ## Page faults (R84, R87) -/

/-- A faulting page is excluded: its positions count as excluded for every head of its group. -/
def excludePage (v : LapCl) (hpg slot group ord : Nat) : LapCl :=
  let ex := fun (w : LapWork) =>
    let l := w.pages.getD (rowKey slot group) []
    match l[ord]? with
    | none => w
    | some x =>
      if x.excluded then w
      else { w with pages := w.pages.set (rowKey slot group) (l.set ord { x with excluded := true }),
                    excluded := addHeads w.excluded slot group hpg (pageCount x) }
  { v with work := ex v.work, savedWork := ex v.savedWork }

/-- Key of a page copy in a cluster page buffer. -/
def bufKey (c heat addr : Nat) : Nat := (c * 4096 + heat) * 2 ^ 17 + addr

/-- The pages of the segment that were absent are there now, or are declared excluded: the lap is ready again. -/
def faultResolvedOp (s : State) (k c : Nat) (excluded : Bool) : State :=
  match getCl s k c, getH s k with
  | some v, some h =>
    if v.phase = .faultPark then
      let hpg := mHpg (heatModel s h)
      let frames := v.faults.filterMap fun f => ((v.work.pages.getD (rowKey f.1 f.2.1) [])[f.2.2.1]?).map fun x => (f.2.2.2, x.frame)
      let s := if excluded then s else { s with buffer := frames.foldl (fun m e =>
        m.set (bufKey c k e.1) { frame := e.2, copy := (getFr s e.2).data }) s.buffer }
      let v := if excluded then v.faults.foldl (fun v f => excludePage v hpg f.1 f.2.1 f.2.2.1) v else v
      let s := setCl s k c { v with phase := .preemptPark, faults := [] }
      if (getC s c).holder.isNone ∧ (getC s c).granted.isNone then arbitrateFree s c else s
    else s
  | _, _ => s

/-- PAGE_FAULT_RESOLVED (R87, R251). -/
def execPageFaultResolved (heat : Nat) (cl : Cluster) (excluded : Bool) (now : Nat) (s : State) : Res :=
  .next (faultResolvedOp (clockTo s now) heat cl.val excluded)

/-! ## CCLK switches (R488) -/

/-- The setting a cluster should run at: pinned in a sealed slice, otherwise the slower of ceiling and step level
(R487). -/
def cclkFor (s : State) (c : Nat) : Nat :=
  match clusterSlice s c with
  | none => s.thermal.level
  | some sl =>
    let sel := rf (getS s sl).record 45 44
    if sliceSealed s sl then sel else max sel s.thermal.level

/-- A setting falls due: the cluster switches at once when it is idle, otherwise at the lap's end. -/
def clockDue (s : State) (c : Nat) : State :=
  let v := getC s c
  let want := cclkFor s c
  if want = v.cclk then setC s c { v with due := none } else setC s c { v with due := some want }

/-- Every cluster of every slice is told its setting. -/
def clockDueAll (s : State) : State := (List.range 20).foldl clockDue s

/-- No lap start is being counted for the cluster. -/
def notCounting (s : State) (c : Nat) : Bool :=
  !(s.heats.any fun _ h => match h.lap.bind fun l => l.cls.get? c with
    | some v => v.phase == .waiting
    | none => false)

/-- CCLK_SWITCH (R29, R488). -/
def execCclkSwitch (cl : Cluster) (s : State) : Res :=
  .next (if notCounting s cl.val then startSwitch s cl.val else s)

/-- The selector finishes: the new CCLK is in use, and marks held behind the switch are accepted. -/
def switchDoneOp (s : State) (c : Nat) : State :=
  let v := getC s c
  if v.switching then
    let s := setC s c { v with cclk := v.due.getD v.cclk, due := none, switching := false }
    match clusterSlice s c with | some sl => acceptHeldIn s sl | none => s
  else s

/-- CCLK_SWITCH_DONE (R488). -/
def execCclkSwitchDone (cl : Cluster) (s : State) : Res := .next (switchDoneOp s cl.val)

end Sys2Proof.Machine
end

