-- ==== Sys2Proof/Machine/Margins.lean ====
section
/-! DEFINITION. In-service margins: thresholds, readings, and MARGIN_WARNING (R386, R387, R474). -/

namespace Sys2Proof.Machine

/-- A reading of a margin source: MARGIN_WARNING once, and again only after 8 readings back inside (R387). `need` is how
many readings outside in a row it takes. -/
def marginReading (s : State) (key need : Nat) (outside : Bool) (reason source payload : Nat) : State :=
  let m := s.margins.getD key {}
  if outside then
    let bad := m.bad + 1
    if need ≤ bad then
      let s := { s with margins := s.margins.set key { raised := true, good := 0, bad := bad } }
      if m.raised then s
      else
        let s := raiseNode s 0x0002 reason source 0 payload
        if reason = 0x0106 then emit s (.bmcEvent 0x0002 reason) else s
    else { s with margins := s.margins.set key { m with good := 0, bad := bad } }
  else
    let good := m.good + 1
    { s with margins := s.margins.set key { raised := m.raised && decide (good < 8), good := min good 8, bad := 0 } }

/-- Payload of MARGIN_WARNING: lane, channel, rail or module; measured value, signed; threshold (R478). -/
def marginPayload (what : Nat) (value : Int) (threshold : Nat) : Nat :=
  pack [(0, 8, what), (32, 32, unsgn 32 value), (64, 32, threshold)]

/-- Thresholds in effect (R474). -/
def thVolt (s : State) : Nat := rf s.marginRec 35 28
def thFec (s : State) : Nat := rf s.marginRec 27 24
def thSnr (s : State) : Nat := rf s.marginRec 23 16
def thPcieV (s : State) : Nat := rf s.marginRec 15 8
def thPcieT (s : State) : Nat := rf s.marginRec 7 0

/-- One margin measurement compared with its threshold (R386). -/
def marginOp (s : State) (src : MarginSrc) (value : Int) (flagged : Bool) : State :=
  match src with
  | .pcieTiming p l =>
    marginReading s (p.val * 8 + l.val) 1 (decide (value < thPcieT s)) 0x0104 (34 + p.val) (marginPayload l.val value (thPcieT s))
  | .pcieVoltage p l =>
    marginReading s (16 + p.val * 8 + l.val) 1 (decide (value < thPcieV s)) 0x0104 (34 + p.val)
      (marginPayload l.val value (thPcieV s))
  | .ethSnr p l =>
    marginReading s (32 + p.val * 8 + l.val) 1 (decide (value < thSnr s)) 0x0105 (36 + p.val) (marginPayload l.val value (thSnr s))
  | .ethFec p l =>
    let limit : Nat := 10 ^ (9 - thFec s)
    marginReading s (48 + p.val * 8 + l.val) 1 (decide ((limit : Int) < value)) 0x0105 (36 + p.val) (marginPayload l.val value limit)
  | .rail r =>
    let s := { s with thermal := { s.thermal with rails := s.thermal.rails.set r.val value } }
    marginReading s (64 + r.val) 4 (decide ((thVolt s : Int) < value ∨ value < -(thVolt s : Int))) 0x0106 43
      (marginPayload r.val value (thVolt s))
  | .optical p l =>
    marginReading s (80 + p.val * 8 + l.val) 1 flagged 0x0107 (36 + p.val) (marginPayload l.val value 0)

/-- MARGIN_SAMPLE (R386, R387). -/
def execMarginSample (src : MarginSrc) (value : Int) (flagged : Bool) (s : State) : Res :=
  .next (if s.boot.phase = .ready then marginOp s src value flagged else s)

/-- Every field of the threshold record lies in its range (R474). -/
def marginRecOk (r : Nat) : Bool :=
  decide (5 ≤ fld r 35 28 ∧ fld r 35 28 ≤ 100 ∧ 3 ≤ fld r 27 24 ∧ fld r 27 24 ≤ 9 ∧ 100 ≤ fld r 23 16
    ∧ 5 ≤ fld r 15 8 ∧ fld r 15 8 ≤ 100 ∧ 5 ≤ fld r 7 0 ∧ fld r 7 0 ≤ 50)

/-- Row of MARGIN_CONFIG (R473). -/
def rowMarginConfig : HRow :=
  { opcode := 0x0C03, d0 := true, lenOk := fun _ n => n == 8, named := fun _ _ => [(35, 0)] }

/-- MARGIN_CONFIG: its own part (R474). -/
def bodyMarginConfig (d : Desc) (s : State) : State × Ans :=
  failIf (!marginRecOk (byt d.body 0 7)) .badField s
    ({ s with marginShadow := some (BitVec.ofNat 64 (byt d.body 0 7)) }, .done)

/-- MARGIN_CONFIG (R474): effective at the next epoch. -/
def execMarginConfig (d : Desc) (s : State) : Res := runHuavo rowMarginConfig bodyMarginConfig d s

end Sys2Proof.Machine
end

