-- ==== Sys2Proof/Machine/Channels.lean ====
section
/-! DEFINITION. DRAM channels, the bulk window and row operations (chapter 10). -/

namespace Sys2Proof.Machine

/-! ## Channel records (R258, R266) -/

/-- A channel. -/
def getCh (s : State) (n : Nat) : ChanSt := s.chans.getD n {}

/-- Replace a channel. -/
def setCh (s : State) (n : Nat) (v : ChanSt) : State := { s with chans := s.chans.set n v }

/-- The record of R266 as it is read. -/
def chanWord (c : ChanSt) : Nat :=
  pack [(56, 8, c.eyeRd), (48, 8, c.eyeWr), (40, 8, c.levelMv), (32, 8, c.crcRetries), (29, 3, c.state.code),
    (27, 2, c.refMult), (0, 24, c.cfg.toNat)]

/-- WARN_EYE, WARN_MV and RETRAIN in effect. -/
def warnEye (c : ChanSt) : Nat := rf c.cfg 23 16
def warnMv (c : ChanSt) : Nat := rf c.cfg 15 8
def retrainNs (c : ChanSt) : Nat := rf c.cfg 7 0 * 100000000

/-- Capacity of a channel in bytes, by density code and organisation (R258). -/
def chanBytes (density : Nat) (clamshell : Bool) : Nat :=
  (match density with | 0 => 3 | 1 => 4 | 2 => 6 | _ => 8) * 2 ^ 30 * (if clamshell then 2 else 1)

/-- Row of DRAM_CONFIG (R473). -/
def rowDramConfig : HRow :=
  { opcode := 0x0C04, d0 := true, lenOk := fun _ n => n == 16, named := fun _ _ => [(7, 0), (127, 91), (87, 64)] }

/-- DRAM_CONFIG: its own part (R266). -/
def bodyDramConfig (d : Desc) (s : State) : State × Ans :=
  let ch := byt d.body 0 0
  let r := byt d.body 8 10
  let bad := (19 < ch ∧ ch ≠ 255) ∨ fld r 23 16 < 4 ∨ 96 < fld r 23 16 ∨ fld r 15 8 < 2 ∨ 100 < fld r 15 8 ∨ fld r 7 0 = 0
  failIf (decide bad) .badField s
    ((if ch = 255 then List.range 20 else [ch]).foldl (fun s c =>
      setCh s c { getCh s c with shadow := some (BitVec.ofNat 24 r) }) s, .done)

/-- DRAM_CONFIG (R266): the RWS fields take effect at the next accounting epoch. -/
def execDramConfig (d : Desc) (s : State) : Res := runHuavo rowDramConfig bodyDramConfig d s

/-- The row of DRAM_STATUS (R266). -/
def rowDramStatus : HRow :=
  fixedRow 0x0C05 1 [(0, 0)]

/-- DRAM_STATUS: its own part (R266). -/
def bodyDramStatus (d : Desc) (s : State) : State × Ans :=
  let ch := byt d.body 0 0
  failIf (decide (19 < ch)) .badField s (s, .done (chanWord (getCh s ch)))

/-- DRAM_STATUS (R266). -/
def execDramStatus (d : Desc) (s : State) : Res := runHuavo rowDramStatus bodyDramStatus d s

/-! ## Refresh and retraining (R263, R265, R267) -/

/-- The slot frame runs in a channel (R64, R264). -/
def frameRuns (c : ChanSt) : Bool := c.state != .untrained && c.state != .failed

/-- One refresh window: the banks of the block are refreshed, and a retraining pass takes one step, or starts when it is
due or wanted. -/
def refreshOp (s : State) (ch : Nat) : State :=
  let c := getCh s ch
  if frameRuns c then
    let pass := match c.pass with
      | some n => some (min (n + 1) 4096)
      | none => if c.wanted || decide (c.lastPass + retrainNs c ≤ s.ns) then some 1 else none
    setCh s ch { c with block := c.block + 1, refreshed := 4 * (c.block % 4), pass := pass, wanted := false }
  else s

/-- REFRESH_WINDOW (R263, R265). -/
def execRefreshWindow (ch : Cluster) (s : State) : Res := .next (refreshOp s ch.val)

/-- What a finished pass makes of a channel (R267). -/
def passState (c : ChanSt) : ChanState :=
  let eye := min c.eyeRd c.eyeWr
  if decide (2 * eye < warnEye c ∨ 2 * c.levelMv < warnMv c) then .failed
  else if c.state = .mismatch then .mismatch
  else if decide (eye < warnEye c ∨ c.levelMv < warnMv c) then .degraded
  else .trained

/-- The value a DRAM_MARGIN warning carries, with its threshold: the first that is below. -/
def passValue (c : ChanSt) : Nat × Nat :=
  if c.eyeRd < warnEye c then (c.eyeRd, warnEye c) else if c.eyeWr < warnEye c then (c.eyeWr, warnEye c)
  else (c.levelMv, warnMv c)

/-- The measured eyes and levels of a finished pass or training take effect, with the consequences of R267. -/
def applyPass (s : State) (ch : Nat) (reason eyeRd eyeWr levelMv refMult : Nat) : State :=
  let c := { getCh s ch with eyeRd := min eyeRd 255, eyeWr := min eyeWr 255, levelMv := min levelMv 255,
                             refMult := refMult % 4, crcRetries := 0, pass := none, wanted := false, lastPass := s.ns }
  let st := passState c
  let low := decide (c.eyeRd < warnEye c ∨ c.eyeWr < warnEye c ∨ c.levelMv < warnMv c)
  let s := setCh s ch { c with state := st }
  let s := marginReading s (100 + ch) 1 low 0x0103 ch (marginPayload ch (passValue c).1 (passValue c).2)
  if st = .failed then quarantineCluster s ch reason else s

/-- DRAM_RETRAIN_PASS (R265, R267). -/
def execDramRetrainPass (ch : Cluster) (eyeRd eyeWr levelMv refMult : Nat) (s : State) : Res :=
  .next (if frameRuns (getCh s ch.val) then applyPass s ch.val 2 eyeRd eyeWr levelMv refMult else s)

/-- Link CRC failures of one transfer on a channel (R268): true when it was the fourth, so the transfer is lost. -/
def linkFailed (s : State) (ch n : Nat) : State × Bool :=
  let c := getCh s ch
  let c := { c with crcRetries := satAdd 8 c.crcRetries n }
  if 4 ≤ n then (setCh s ch { c with state := if c.state = .trained then .degraded else c.state, wanted := true }, true)
  else (setCh s ch c, false)

/-! ## The bulk window (R269 to R271, R433) -/

/-- Bytes of the window: 40,960 × R_w. -/
def windowBytes (s : State) : Nat := s.mem.bulkShare / 2048 * 40960

/-- Channel of a window offset (R269). -/
def windowChannel (w : Nat) : Nat := (w % 40960 / 256) ^^^ (w / 40960 % 8) |>.mod 20

/-- Channel-local address of a window offset above the share's base (R269). -/
def windowLocal (w : Nat) : Nat :=
  let r := w / 40960
  let k2 := (w % 40960 / 256) ^^^ (r % 8)
  2048 * r + 256 * (k2 / 20) + w % 256

/-- Window offset of a channel and an address above the share's base (R270). -/
def windowOffset (c a : Nat) : Nat :=
  let r := a / 2048
  let k := (20 * (a % 2048 / 256) + c) ^^^ (r % 8)
  40960 * r + 256 * k + a % 256

/-- Channel-local base of the bulk-window share (R99). -/
def bulkBase (s : State) : Nat := 17536 * s.mem.fch + (80 + rf s.mem.record 19 9) * 2 ^ 20

/-- Granule offsets that an access touches. -/
def granulesOf (off len : Nat) : List Nat :=
  if len = 0 then [] else (List.range ((off + len - 1) / 256 - off / 256 + 1)).map fun i => (off / 256 + i) * 256

/-- The first granule of an access whose channel is FAILED (R267). -/
def failedGranule (s : State) (off len : Nat) : Option Nat :=
  (granulesOf off len).find? fun w => (getCh s (windowChannel w)).state == .failed

/-- FAULT of an access to a FAILED channel (R267, R478). -/
def raiseFailed (s : State) (w : Nat) : State :=
  raiseNode s 0x0001 0x0016 (windowChannel w) 0
    (pack [(0, 8, windowChannel w), (64, 64, bulkBase s + windowLocal w)])

/-- An access outside the window (R433). -/
def raiseWindow (s : State) (p : Port) (off value : Nat) : State := raiseRing s p 0 0x0035 off value

/-- The access lies within the carved window. -/
def inWindow (s : State) (off len : Nat) : Bool := pageOn s && decide (off + len ≤ windowBytes s)

/-- A read of the bulk window. -/
def bulkReadOp (s : State) (p : Port) (off len failures : Nat) : State :=
  if !inWindow s off len then emit (raiseWindow s p off 0) (.windowRead p .abort)
  else match failedGranule s off len with
    | some w => emit (raiseFailed s w) (.windowRead p .abort)
    | none =>
      let s := chargePcie (chargeDram s 0 false len) 0 true len
      let (s, lost) := linkFailed s (windowChannel off) failures
      emit s (.windowRead p (if lost then .poisoned else .data (memReadN s.bulk off len)))

/-- Write the bytes of an access that do not lie in FAILED channels. -/
def bulkPut (s : State) (off data : Nat) : (len : Nat) → State
  | 0 => s
  | n + 1 =>
    let s := bulkPut s off data n
    if (getCh s (windowChannel (off + n))).state = .failed then s
    else { s with bulk := memWrite s.bulk (off + n) (BitVec.ofNat 8 (data / 2 ^ (8 * n))) }

/-- A write to the bulk window. -/
def bulkWriteOp (s : State) (p : Port) (off len data : Nat) : State :=
  if !inWindow s off len then count (raiseWindow s p off (data % 2 ^ 64)) 2 0 1
  else
    let s := chargePcie (chargeDram s 0 true len) 0 false len
    let s := bulkPut s off data len
    match failedGranule s off len with
    | some w => count (raiseFailed s w) 2 0 1
    | none => s

/-- BULK_WINDOW_READ (R267, R268, R271, R433). -/
def execBulkWindowRead (p : Port) (off len linkFailures : Nat) (s : State) : Res :=
  .next (if (getPort s p).linkUp then bulkReadOp s p off len linkFailures else s)

/-- BULK_WINDOW_WRITE (R267, R271, R433). -/
def execBulkWindowWrite (p : Port) (off len data : Nat) (s : State) : Res :=
  .next (if (getPort s p).linkUp then bulkWriteOp s p off len data else s)

/-! ## Row operations (R272 to R279) -/

/-- The operation uses its second source. -/
def rowUsesB (op : Nat) : Bool := decide (2 ≤ op ∧ op ≤ 5)

/-- The operation's first operand is a source offset, not a pattern. -/
def rowUsesA (op : Nat) : Bool := op != 1

/-- The offsets of the ranges an operation uses. -/
def rowUsed (op a b d : Nat) : List Nat := d :: ((if rowUsesA op then [a] else []) ++ (if rowUsesB op then [b] else []))

/-- Two equal-sized ranges overlap without being equal. -/
def partlyOver (x y len : Nat) : Bool := x != y && decide (x < y + len ∧ y < x + len)

/-- The BAD_FIELD conditions of R273. -/
def rowBad (s : State) (op rows a b d : Nat) : Bool :=
  let used := rowUsed op a b d
  op == 7 || rows == 0 || used.any (fun x => x % 40960 != 0)
    || used.any (fun x => decide (windowBytes s < x + 40960 * rows))
    || used.any (fun x => x % 327680 != d % 327680)
    || used.any (fun x => used.any fun y => partlyOver x y (40960 * rows))
    || (!rowUsesB op && b != 0)

/-- Row of ROW_OP (R472). -/
def rowRowOp : HRow :=
  { opcode := 0x0B01, pf := true, lenOk := fun _ n => n == 32,
    named := fun _ _ => [(255, 192), (191, 128), (127, 64), (63, 32), (2, 0)] }

/-- ROW_OP: its own part (R273). -/
def bodyRowOp (d : Desc) (s : State) : State × Ans :=
  let op := fld d.body 2 0
  let rows := fld d.body 63 32
  let a := fld d.body 127 64
  let b := fld d.body 191 128
  let dst := fld d.body 255 192
  failIf (rowBad s op rows a b dst) .badField s <|
  failIf (decide (16 ≤ s.rowOps.length)) .busy s
    ({ s with rowOps := s.rowOps ++ [{ op := op, rows := rows, srcA := a, srcB := b, dst := dst, id := s.rowOpNo,
                                       domain := d.domain.toNat }],
              rowOpNo := s.rowOpNo + 1 }, .accept (.row s.rowOpNo))

/-- ROW_OP (R273). -/
def execRowOp (d : Desc) (s : State) : Res := runHuavo rowRowOp bodyRowOp d s

/-- A 64-bit pattern repeated over a 256-byte granule. -/
def repeat64 (x : Nat) : Nat := packElems 64 (List.replicate 32 x)

/-- The result of an operation on one granule of 2,048 bits (R272). -/
def rowResult (op pattern a b : Nat) : Nat :=
  let ones := 2 ^ 2048 - 1
  match op with
  | 0 => a
  | 1 => repeat64 pattern
  | 2 => a &&& b
  | 3 => a ||| b
  | 4 => a ^^^ b
  | 5 => a &&& (b ^^^ ones)
  | _ => a ^^^ ones

/-- One span of a channel: the granules of one window row that lie in it. -/
def rowSpan (s : State) (ch row : Nat) (o : RowOpSt) : State :=
  let offs := (List.range 8).map fun j => windowOffset ch (2048 * (o.dst / 40960 + row) + 256 * j) - o.dst
  let vals := offs.map fun x => (x, rowResult o.op o.srcA (memReadN s.bulk (o.srcA + x) 256) (memReadN s.bulk (o.srcB + x) 256))
  { s with bulk := vals.foldl (fun m v => memWriteN m (o.dst + v.1) 256 v.2) s.bulk }

/-- Spans of a group (R274): 8 or 4, and 3 or 2 in the channel of a sealed slice. -/
def groupSize (s : State) (ch op : Nat) : Nat :=
  let sealed := match clusterSlice s ch with | some sl => sliceSealed s sl | none => false
  if rowUsesB op then (if sealed then 2 else 4) else (if sealed then 3 else 8)

/-- Every channel has finished the operation. -/
def rowDone (o : RowOpSt) : Bool := (List.range 20).all fun c => decide (o.rows ≤ o.doneRows.getD c 0)

/-- A finished row operation leaves the list and its command completes (R472). -/
def rowFinish (s : State) (o : RowOpSt) : State :=
  finishWhere { s with rowOps := s.rowOps.filter fun x => x.id != o.id } (fun g => g.key == .row o.id) .ok 0 0

/-- One group in a channel: the earliest operation that the channel has not finished (R275). Spans of a FAILED channel
pass without effect (assumption 22). -/
def rowGroupOp (s : State) (ch : Nat) : State :=
  match s.rowOps.find? fun o => decide (o.doneRows.getD ch 0 < o.rows) with
  | none => s
  | some o =>
    let k := o.doneRows.getD ch 0
    let n := min (groupSize s ch o.op) (o.rows - k)
    let s := if (getCh s ch).state = .failed then s else
      let s := chargeDram (chargeDram s o.domain true (2048 * n)) o.domain false
        (2048 * n * (if rowUsesB o.op then 2 else if rowUsesA o.op then 1 else 0))
      (List.range n).foldl (fun s i => rowSpan s ch (k + i) o) s
    let o := { o with doneRows := o.doneRows.set ch (k + n) }
    let s := { s with rowOps := s.rowOps.map fun x => if x.id = o.id then o else x }
    if rowDone o then rowFinish s o else s

/-- ROW_OP_GROUP (R274, R275). -/
def execRowOpGroup (ch : Cluster) (s : State) : Res := .next (rowGroupOp s ch.val)

/-! ## Metadata key (R285) -/

/-- METADATA_REKEY (R285): a new metadata key; blocks not yet converted still verify under the old one. -/
def execMetadataRekey (s : State) : Res :=
  .next (if pageOn s && s.sec.metaKey.isSome && s.sec.metaRekeying.isNone then
    let (k, s) := newKey s
    { s with sec := { s.sec with metaRekeying := s.sec.metaKey, metaKey := some k } } else s)

/-- METADATA_REKEY_DONE (R285): the old key is destroyed. -/
def execMetadataRekeyDone (s : State) : Res :=
  .next (if s.sec.metaRekeying.isSome then { s with sec := { s.sec with metaRekeying := none } } else s)

end Sys2Proof.Machine
end

