-- ==== Sys2Proof/Machine/HostRegs.lean ====
section
/-! DEFINITION. The host's register accesses in BAR0 and BAR4: rings, interrupts, time snapshots (R426 to R440), and a
PCI Express link coming up (R421). -/

namespace Sys2Proof.Machine

/-- The function answers MMIO: link up, past Request Retry, and enabled by SR-IOV (R422, R499, R500). -/
def mmioOk (s : State) (p : Port) (f : Func) : Bool :=
  (getPort s p).linkUp && (f = 0 || (getPort s p).vfEnabled)
    && (s.boot.phase == .window || (s.boot.phase == .training && s.boot.windowed) || s.boot.phase == .ready)

/-! ## RING_CTRL (R438) -/

/-- Bits of RING_CTRL that hold the ring sizes. -/
def ringSizeMask : Nat := maskOf [(15, 12), (11, 8), (7, 4)]

/-- A ring size lies in its range. -/
def log2Ok (n : Nat) : Bool := decide (6 ≤ n ∧ n ≤ 12)

/-- RING_CTRL as a write of `value` would leave its size fields: locked while the rings are enabled. -/
def ringSizes (e : FuncSt) (value : Word) : BitVec 64 :=
  if ringsIdle e then merge e.ringCtrl value ringSizeMask else e.ringCtrl

/-- The rings start: indices 0, phases 1 (R438). -/
def ringStart (e : FuncSt) (ctrl : BitVec 64) : FuncSt :=
  { e with ringCtrl := rset ctrl 0 0 1, cmdTail := 0, cmdHead := 0, rspHead := 0, evtHead := 0, rspTail := 0,
           evtTail := 0, evtLost := 0, signalled := .empty, heldVecs := [] }

/-- A write of RING_CTRL with ENABLE 1. -/
def ringEnableOp (s : State) (p : Port) (f : Func) (value : Word) : State :=
  let e := getF s p f
  let ctrl := ringSizes e value
  if ringsOn e then s
  else if s.boot.phase == .window && f ≠ 0 then s
  else if log2Ok (rf ctrl 15 12) && log2Ok (rf ctrl 11 8) && log2Ok (rf ctrl 7 4) then
    setF s p f (ringStart e ctrl)
  else setF s p f { e with cfgErr := true }

/-- A write of RING_CTRL with ENABLE 0. -/
def ringDisableOp (s : State) (p : Port) (f : Func) (value : Word) : State :=
  let e := getF s p f
  setF s p f { e with ringCtrl := rset (ringSizes e value) 0 0 0 }

/-- RING_ENABLE (R438). -/
def execRingEnable (p : Port) (f : Func) (value : Word) (s : State) : Res :=
  .next (if mmioOk s p f then ringEnableOp s p f value else s)

/-- RING_DISABLE (R438). -/
def execRingDisable (p : Port) (f : Func) (value : Word) (s : State) : Res :=
  .next (if mmioOk s p f then ringDisableOp s p f value else s)

/-! ## INT_CTRL -/

/-- Bits of INT_CTRL that a write sets. -/
def intCtrlMask : Nat := maskOf [(39, 32), (31, 31), (26, 16), (15, 15), (10, 0)]

/-- A write of INT_CTRL. -/
def intCtrlOp (s : State) (p : Port) (f : Func) (value : Word) : State :=
  let e := getF s p f
  if decide (rf value 26 16 < vectorsOf f ∧ rf value 10 0 < vectorsOf f) then
    setF s p f { e with intCtrl := merge 0 value intCtrlMask }
  else setF s p f { e with cfgErr := true }

/-- INT_CTRL_WRITE (INT_CTRL table). -/
def execIntCtrlWrite (p : Port) (f : Func) (value : Word) (s : State) : Res :=
  .next (if mmioOk s p f then intCtrlOp s p f value else s)

/-- The holdoff of a held ring vector has passed: one signal for all entries written meanwhile. -/
def holdoffOp (s : State) (p : Port) (f : Func) (vector : Nat) : State :=
  let e := getF s p f
  if e.heldVecs.contains vector && decide (e.signalled.getD vector 0 + holdoff e ≤ s.ns) then
    msix (setF s p f { e with heldVecs := e.heldVecs.erase vector, signalled := e.signalled.set vector s.ns }) p f vector
  else s

/-- INTERRUPT_HOLDOFF_EXPIRY (INT_CTRL table). -/
def execInterruptHoldoffExpiry (p : Port) (f : Func) (vector now : Nat) (s : State) : Res :=
  .next (holdoffOp (clockTo s now) p f vector)

/-! ## MSI-X (R434) -/

/-- Send every pending message that no mask holds back any more. -/
def msixFlush (s : State) (p : Port) (f : Func) : State :=
  let e := getF s p f
  if e.maskAll then s
  else
    let go := e.msixPending.filter fun v => !e.masked.contains v
    let s := setF s p f { e with msixPending := e.msixPending.filter fun v => e.masked.contains v }
    go.foldl (fun s v => emit s (.msix p f v)) s

/-- Write Function Mask or one vector's mask. -/
def msixMaskOp (s : State) (p : Port) (f : Func) (vector : Option Nat) (mask : Bool) : State :=
  let e := getF s p f
  match vector with
  | none => msixFlush (setF s p f { e with maskAll := mask }) p f
  | some v =>
    if v < vectorsOf f then
      msixFlush (setF s p f { e with
        masked := if mask then (if e.masked.contains v then e.masked else v :: e.masked) else e.masked.erase v }) p f
    else s

/-- MSIX_UNMASK (R434). -/
def execMsixUnmask (p : Port) (f : Func) (vector : Option Nat) (mask : Bool) (s : State) : Res :=
  .next (if mmioOk s p f then msixMaskOp s p f vector mask else s)

/-! ## CMD_TAIL (R437) -/

/-- A write of CMD_TAIL; descriptors with undefined opcodes among those posted are answered in ring order
(assumption 15). -/
def cmdTailOp (s : State) (p : Port) (f : Func) (value : BitVec 32) (odd : List OddDesc) : State :=
  let e := getF s p f
  let tail := BitVec.ofNat 16 (rf value 15 0)
  if !ringsOn e then s
  else if between tail e.cmdHead ≤ 2 ^ cmdLog2 e then
    odd.foldl oddCmd (setF s p f { e with cmdTail := tail })
  else raiseRing (setF s p f { e with cmdErr := true }) p f 0x0034 0x60 value.toNat

/-- CMD_TAIL_WRITE (R437, R443). -/
def execCmdTailWrite (p : Port) (f : Func) (now : Nat) (value : BitVec 32) (odd : List OddDesc) (s : State) : Res :=
  .next (if mmioOk s p f then cmdTailOp (clockTo s now) p f value odd else s)

/-! ## Registers without a row of their own (R426) -/

/-- A naturally aligned access of 4 or 8 bytes. -/
def accessOk (off size : Nat) : Bool := (size == 4 || size == 8) && off % size == 0

/-- A 64-bit register after a write of 4 or 8 bytes at `off`, `base` being the register's own offset. -/
def word64 (old : BitVec 64) (base off size : Nat) (value : Word) : BitVec 64 :=
  if size = 8 then value
  else if off = base then rset old 31 0 (rf value 31 0)
  else rset old 63 32 (rf value 31 0)

/-- ADDR of a ring base register, locked while the rings are enabled. -/
def baseWrite (e : FuncSt) (old : BitVec 64) (base off size : Nat) (value : Word) : BitVec 64 :=
  if ringsIdle e then merge 0 (word64 old base off size value) (maskOf [(63, 12)]) else old

/-- The 32-bit lane of a write that covers the register at `base`, none when it does not. -/
def lane32 (base off size : Nat) (value : Word) : Option Nat :=
  if off = base then some (rf value 31 0)
  else if size = 8 ∧ off + 4 = base then some (rf value 63 32)
  else none

/-- A write to a BAR0 register; one to a register that has a row of its own does what that row does. -/
def registerOp (s : State) (p : Port) (f : Func) (off size : Nat) (value : Word) : State :=
  let e := getF s p f
  if !accessOk off size then s
  else if off = 0x40 ∨ off = 0x44 then setF s p f { e with cmdBase := baseWrite e e.cmdBase 0x40 off size value }
  else if off = 0x48 ∨ off = 0x4C then setF s p f { e with rspBase := baseWrite e e.rspBase 0x48 off size value }
  else if off = 0x50 ∨ off = 0x54 then setF s p f { e with evtBase := baseWrite e e.evtBase 0x50 off size value }
  else if off = 0x58 then
    if rb value 0 then ringEnableOp s p f value else ringDisableOp s p f value
  else if off = 0x60 then cmdTailOp s p f (BitVec.ofNat 32 value.toNat) []
  else if off = 0x68 ∨ off = 0x6C then
    setF s p f { e with rspHead := ((lane32 0x68 off size value).map (BitVec.ofNat 16)).getD e.rspHead,
                        evtHead := ((lane32 0x6C off size value).map (BitVec.ofNat 16)).getD e.evtHead }
  else if off = 0x70 then
    setF s p f { e with cfgErr := e.cfgErr && !rb value 3, cmdErr := e.cmdErr && !rb value 2,
                        evtOvf := e.evtOvf && !rb value 1 }
  else if off = 0x78 ∨ off = 0x7C then intCtrlOp s p f (word64 e.intCtrl 0x78 off size value)
  else s

/-- REGISTER_WRITE (R426, R447). -/
def execRegisterWrite (p : Port) (f : Func) (off size : Nat) (value : Word) (s : State) : Res :=
  .next (if mmioOk s p f then registerOp s p f off size value else s)

/-! ## Time snapshot (R427) -/

/-- A read at TIME_0 latches the 80 bits and returns the low 4 or 8 bytes. -/
def timeLatchOp (s : State) (p : Port) (f : Func) (size : Nat) : State :=
  if size = 4 ∨ size = 8 then
    emit (setF s p f { getF s p f with latch := s.time.fabric }) (.regRead p f (s.time.fabric.toNat % 2 ^ (8 * size)))
  else emit s (.regRead p f 0)

/-- TIME_READ_LATCH (R427). -/
def execTimeReadLatch (p : Port) (f : Func) (size : Nat) (s : State) : Res :=
  .next (if mmioOk s p f then timeLatchOp s p f size else s)

/-! ## A link comes up (R421, R481) -/

/-- Key of a port's PPLL among the PLLs. -/
def ppllKey (p : Port) : Nat := 26 + p.val

/-- A port's reference-mode strap. -/
def refModeOf (s : State) (p : Port) : Fin 4 := if p = 0 then s.boot.refMode0 else s.boot.refMode1

/-- The link trains once the PPLL has locked and the strap is not the reserved one. -/
def linkUpOp (s : State) (p : Port) (width gtps : Nat) : State :=
  if (s.boot.plls.getD (ppllKey p) {}).locked && refModeOf s p ≠ 3 then
    let s := setPort s p { getPort s p with linkUp := true, width := width, gtps := gtps, vfEnabled := true }
    if width = 8 ∧ gtps = 64 then s else raiseNode s 0x0001 0x0042 (34 + p.val) 0 (otherPayload 0 p.val 0)
  else s

/-- PCIE_LINK_UP (R421). -/
def execPcieLinkUp (p : Port) (width gtps : Nat) (s : State) : Res := .next (linkUpOp s p width gtps)

end Sys2Proof.Machine
end

