-- ==== Sys2Proof/Machine/Transport.lean ====
section
/-! DEFINITION. Coriskano transport, first part: completion queues, regions, egress, acknowledgements and work requests
(R303 to R313, R319 to R335). -/

namespace Sys2Proof.Machine

/-! ## Regions (R303 to R306) -/

/-- Fields of the region record (R304). -/
def gBase (r : RegionSt) : Nat := rf r.record 255 192
def gLength (r : RegionSt) : Nat := rf r.record 191 144
def gPd (r : RegionSt) : Nat := rf r.record 143 132
def gKind (r : RegionSt) : Nat := rf r.record 131 130
def gWrite (r : RegionSt) : Bool := rb r.record 129
def gRead (r : RegionSt) : Bool := rb r.record 128
def gAtomic (r : RegionSt) : Bool := rb r.record 127
def gLocal (r : RegionSt) : Bool := rb r.record 126

/-- Generation of a region index's current or next key. -/
def genOf (s : State) (i : Nat) : Nat := s.net.regionGen.getD i 0

/-- The key of a region index (R8). -/
def regionKey (s : State) (i : Nat) : Nat := pack [(0, 18, i), (18, 14, genOf s i)]

/-- The region a key names, when its generation matches. -/
def regionAt (s : State) (key : Nat) : Option RegionSt :=
  if genOf s (fld key 17 0) = fld key 31 18 then s.net.regions.get? (fld key 17 0) else none

/-- Port and function of the 8-bit FUNC code (R304). -/
def codePort (f : Nat) : Port := if bit f 7 then 1 else 0
def codeFunc (f : Nat) : Func := ⟨f % 64, Nat.mod_lt _ (by decide)⟩

/-- The 8-bit FUNC code of a function. -/
def funcCode (p : Port) (f : Func) : Nat := p.val * 128 + f.val

/-- Place bytes at an offset of a region (R330). -/
def regionPut (s : State) (r : RegionSt) (off len data : Nat) : State :=
  match gKind r with
  | 0 => emit (chargePcie s r.domain true len) (.hostWrite (codePort r.func) (gBase r + off) len data)
  | 1 => bulkPut (chargeDram s r.domain true len) (gBase r + off) data len
  | _ => s

/-- Read bytes at an offset of a region: host memory is what the host answers. -/
def regionGet (s : State) (r : RegionSt) (off len hostData : Nat) : Nat :=
  match gKind r with | 1 => memReadN s.bulk (gBase r + off) len | _ => hostData % 2 ^ (8 * len)

/-- The region checks of R306 for an operation: none when it passes. -/
def regionCheck (s : State) (pd op key addr total : Nat) : Option Status :=
  match regionAt s key with
  | none => some .denied
  | some r =>
    if r.revoking then some .revoked
    else if gPd r ≠ pd then some .denied
    else if (op = 1 ∨ op = 9) ∧ !gWrite r then some .denied
    else if op = 2 ∧ !gRead r then some .denied
    else if op = 5 ∧ (!gAtomic r ∨ gKind r = 0) then some .denied
    else if op = 5 ∧ (addr % 8 ≠ 0 ∨ gLength r < addr + 8) then some .badField
    else if op ≠ 5 ∧ gLength r < addr + total then some .badField
    else none

/-- The local region of a work request, when the buffer lies in it: its offset there (R309). LOCAL_ADDR is an address of
the region's own space (assumption 23). -/
def localBuffer (s : State) (pd : Nat) (w : WorkRequest) (len : Nat) : Option (RegionSt × Nat) :=
  match regionAt s w.localKey with
  | none => none
  | some r =>
    if !r.revoking && gPd r == pd && gLocal r && decide (gBase r ≤ w.localAddr ∧ w.localAddr + len ≤ gBase r + gLength r) then
      some (r, w.localAddr - gBase r)
    else none

/-! ## Completions (R310) -/

/-- Requests of a queue that were sent and wait for their completion, in MSG_ID order. -/
def openRequests (q : QueueSt) : List (Nat × SendMsg) := q.sent.l.filter fun e => !e.2.completed && e.2.purpose == .host && e.1 < 2 ^ 32

/-- A completion entry without its PHASE (R310). -/
def completionWord (qk wrId bytes msgId op : Nat) (st : Status) : Nat :=
  pack [(192, 64, wrId), (160, 32, bytes), (144, 16, st.code), (128, 16, qk), (96, 32, msgId), (5, 4, op)]

/-- Take a queue to ERROR: frames of it leave the egress queue (R308). -/
def markError (s : State) (qk : Nat) : State :=
  let s := modWq s qk fun q => { q with state := .error }
  modNet s fun n => { n with egress := n.egress.filter fun e => e.queue != qk || (match e.kind with | .data .. => false | _ => true) }

/-- A CQ overflows: it becomes ERROR, and so does every queue that uses it (R308, R310). -/
def cqOverflow (s : State) (cq : Nat) : State :=
  match s.net.cqs.get? cq with
  | none => s
  | some c =>
    let s := modNet s fun n => { n with cqs := n.cqs.set cq { c with error := true } }
    let s := s.net.queues.fold (fun s k q => if qCq q = cq ∧ q.internal.isNone ∧ k < 65536 ∧ q.state = .ready then markError s k else s) s
    raiseObj s 0x0001 0x0041 33 c.domain c.port (otherPayload 0 cq 0)

/-- Write a completion entry, and signal the vector when the CQ is armed or the SEND asks for it (R299, R310). -/
def cqPush (s : State) (cq word : Nat) (solicit : Bool := false) : State :=
  match s.net.cqs.get? cq with
  | none => s
  | some c =>
    if c.error then s
    else if 2 ^ c.log2 ≤ c.tail - c.head then cqOverflow s cq
    else
      let phase := if c.tail / 2 ^ c.log2 % 2 = 0 then 1 else 0
      let s := modNet s fun n => { n with cqs := n.cqs.set cq { c with tail := c.tail + 1, armed := false } }
      let s := emit s (.completion cq (c.tail % 2 ^ c.log2) (BitVec.ofNat 256 (word + phase)))
      if c.armed || solicit then msix s c.port c.func c.vector else s

/-- Write a completion entry to a queue's CQ; internal queues have none. -/
def pushFor (s : State) (qk word : Nat) (solicit : Bool := false) : State :=
  match getWq s qk with
  | none => s
  | some q => if q.internal.isSome ∨ 65536 ≤ qk then s else cqPush s (qCq q) word solicit

/-- Complete a work request: failures always write an entry, successes when SIGNAL is set (R309). -/
def completeWr (s : State) (qk : Nat) (w : WorkRequest) (st : Status) (bytes msgId : Nat) (solicit : Bool := false) : State :=
  if st ≠ .ok ∨ w.signal then pushFor s qk (completionWord qk w.wrId bytes msgId w.op st) solicit else s

/-- Commands on a collection that wait for the queries posted before them end once none is left (R211, R468). -/
def collSettle (s : State) (d c : Nat) : State :=
  let due := (s.flights.filter fun g => g.key == .coll d c).takeWhile fun g => g.opcode != 0x0814
  finishWhere s (fun g => due.contains g) .ok 0 0

/-- A contributor's SELECT_MERGE has left, or cannot be sent: its COLL_QUERY ends (R469). -/
def mergeSent (s : State) (d c id : Nat) (st : Status) (n : Nat) : State :=
  collSettle (finishWhere s (fun g => g.key == .coll d c && g.arg == id && g.opcode == 0x0814) st n 0) d c

/-- A queue enters ERROR (R308): the failing request completes with its status, later ones with BAD_STATE. -/
def queueError (s : State) (qk : Nat) (failing : Option Nat) (st : Status) : State :=
  match getWq s qk with
  | none => s
  | some q =>
    if q.state ≠ .ready then s
    else
      let s := markError s qk
      let s := modWq s qk fun q => { q with sq := [], parked := [],
                                            sent := q.sent.mapVals fun _ m => { m with completed := true, whole := true } }
      let s := (openRequests q).foldl (fun s e =>
        completeWr s qk e.2.wr (if some e.1 = failing then st else .badState) e.2.total e.1) s
      let s := match failing with
        | some id => if (q.sent.get? id).any (fun m => !m.completed) then s
                     else pushFor s qk (completionWord qk 0 0 id 0 st)
        | none => s
      let s := q.sent.fold (fun s k m => match m.purpose with
        | .merge d c id => if m.completed then s else mergeSent s d c id (if some k = failing then st else .badState) 0
        | _ => s) s
      (q.parked ++ q.sq).foldl (fun s w => completeWr s qk w .badState w.length 0) s

/-! ## Egress (R332 to R335, R414) -/

/-- Rate key of the slice or pool shaper of a frame on its port. -/
def portShaper (s : State) (e : EgrPkt) : Nat :=
  let internal := decide (65536 ≤ e.queue) || ((getWq s e.queue).any fun q => q.internal.isSome)
  match sliceOf s e.domain with
  | some sl => if internal ∨ rf (getS s sl).record 121 108 = 0 then 6000 + e.port.val else 5000 + 2 * sl + e.port.val
  | none => 6000 + e.port.val

/-- The shapers of a data packet (R332). -/
def shapersOf (s : State) (e : EgrPkt) : List Nat :=
  (if e.shaper = 0 then [] else [e.shaper]) ++ [4096 + e.domain, portShaper s e]

/-- A shaper. -/
def getSh (s : State) (k : Nat) : ShaperSt := s.net.shapers.getD k {}

/-- Replace a shaper. -/
def setSh (s : State) (k : Nat) (v : ShaperSt) : State := modNet s fun n => { n with shapers := n.shapers.set k v }

/-- Sum of the egress shares of the slices. -/
def shareSum (s : State) : Nat := s.slices.fold (fun n _ v => if v.state = .disabled then n else n + rf v.record 121 108) 0

/-- What one frame of `len` bytes adds to E, in 1/256 ns; 0 where the rate is 0 (R27, R332, R333). -/
def shaperCharge (s : State) (k len : Nat) : Nat :=
  let bytes := len + rf (getSh s k).record 26 21
  if k < 5000 then
    let rate := rf (getSh s k).record 63 43
    if rate = 0 then 0 else ceilDiv (bytes * 8000 * 256) rate
  else
    let share := if k < 6000 then rf (getS s ((k - 5000) / 2)).record 121 108 else 8192 - shareSum s
    if share = 0 then 0 else ceilDiv (bytes * 65536 * 256) (share * 1600)

/-- A shaper with a rate is eligible once its E has come and its wheel slot is in use (R333, R334). -/
def shaperReady (s : State) (k now : Nat) : Bool :=
  shaperCharge s k 1 == 0 || (decide ((getSh s k).e ≤ now * 256) && (getSh s k).wheel.isNone && !(getSh s k).far)

/-- A frame that starts at `now` charges its shapers (R333). -/
def chargeShapers (s : State) (e : EgrPkt) (now : Nat) : State :=
  (shapersOf s e).foldl (fun s k =>
    let c := shaperCharge s k e.len
    if c = 0 then s
    else
      let v := getSh s k
      setSh s k { v with e := max v.e (now * 256 - rf v.record 42 27 * 256) + c }) s

/-- Enter a shaper that has packets waiting and lies ahead of time into the wheel or the overflow list (R334). -/
def enterWheel (s : State) (k now : Nat) : State :=
  let v := getSh s k
  if v.e ≤ now * 256 ∨ v.wheel.isSome ∨ v.far ∨ shaperCharge s k 1 = 0 then s
  else if now * 256 + 65536 * 256 ≤ v.e then setSh s k { v with far := true }
  else setSh s k { v with wheel := some (ceilDiv v.e 2048) }

/-- Every shaper of a waiting packet that lies ahead of time waits in the wheel. -/
def enterAll (s : State) (now : Nat) : State :=
  s.net.egress.foldl (fun s e => if e.cls = 0 then s else (shapersOf s e).foldl (fun s k => enterWheel s k now) s) s

/-- When a packet becomes eligible, in 1/256 ns. -/
def eligibleAt (s : State) (e : EgrPkt) : Nat :=
  (shapersOf s e).foldl (fun t k => if shaperCharge s k 1 = 0 then t else max t (getSh s k).e) 0

/-- Time a frame with its preamble and gap is on the wire at 1.6 Tb/s, in 1/256 ns (R292, R335). -/
def wireTime (len : Nat) : Nat := ceilDiv ((len + 20) * 256) 200

/-- The frame would still be on the wire when a sealed slice's packet of another owner becomes eligible (R414). -/
def blocksSealed (s : State) (p : Port) (c : EgrPkt) (now : Nat) : Bool :=
  s.net.egress.any fun e => e.port == p && e.cls != 0 && sealedDomain s e.domain && e.domain != c.domain
    && decide (now * 256 < eligibleAt s e ∧ eligibleAt s e < now * 256 + wireTime c.len)

/-- The first waiting frame of its queue, or a control frame. -/
def firstOfQueue (l : List EgrPkt) (i : Nat) (e : EgrPkt) : Bool :=
  e.cls == 0 || !((l.take i).any fun x => x.queue == e.queue && x.cls != 0 && x.port == e.port)

/-- The better of two candidates: class, then eligibility time, then queue number (R335); control frames oldest first. -/
def betterFrame (s : State) (a b : Nat × EgrPkt) : Bool :=
  if a.2.cls ≠ b.2.cls then decide (a.2.cls < b.2.cls)
  else if a.2.cls = 0 then decide (a.1 < b.1)
  else if eligibleAt s a.2 ≠ eligibleAt s b.2 then decide (eligibleAt s a.2 < eligibleAt s b.2)
  else decide (a.2.queue < b.2.queue ∨ (a.2.queue = b.2.queue ∧ a.1 < b.1))

/-- The frame an idle port starts, with its place in the egress queue. -/
def chooseFrame (s : State) (p : Port) (now : Nat) : Option (Nat × EgrPkt) :=
  let l := s.net.egress
  let cand := (l.zipIdx.map fun x => (x.2, x.1)).filter fun x =>
    x.2.port == p && firstOfQueue l x.1 x.2 && (x.2.cls == 0 || (shapersOf s x.2).all fun k => shaperReady s k now)
      && ((!trafficOff s && (!s.boot.failed || decide (65536 ≤ x.2.queue))) || (match x.2.kind with | .ptp => true | _ => false))
  match cand.foldl (fun (b : Option (Nat × EgrPkt)) x => match b with
    | none => some x
    | some y => if betterFrame s x y then some x else some y) none with
  | none => none
  | some x => if blocksSealed s p x.2 now then none else some x

/-- Packet `i` of a message has left a port; when all have, the sender's completion follows (R328). -/
def packetLeft (s : State) (qk mk i : Nat) : State :=
  match getWq s qk with
  | none => s
  | some q => match q.sent.get? mk with
    | none => s
    | some m =>
      let left := if bit m.left i then m.left else m.left + 2 ^ i
      let all := popCount left m.packets == m.packets
      let s := setWq s qk { q with sent := q.sent.set mk { m with left := left, timer := s.ns } }
      if !all || m.completed || 2 ^ 32 ≤ mk then s
      else match m.purpose with
        | .host =>
          if m.op = 1 ∨ m.op = 4 ∨ m.op = 9 then
            completeWr (modWq s qk fun q => { q with sent := q.sent.modify mk fun m => { m with completed := true } })
              qk m.wr .ok m.total mk
          else s
        | .merge d c id =>
          mergeSent (modWq s qk fun q => { q with sent := q.sent.modify mk fun m => { m with completed := true } })
            d c id .ok (fld m.ext 65 55)
        | _ => s

/-- An idle port starts the first ready frame (R335). -/
def egressOp (s : State) (p : Port) (now : Nat) : State :=
  let s := enterAll s now
  if !ethUp s p || decide (now * 256 < (ethOf s p).busyUntil) then s
  else match chooseFrame s p now with
    | none => s
    | some (i, e) =>
      let s := modNet s fun n => { n with egress := n.egress.eraseIdx i }
      let s := setEth s p { ethOf s p with busyUntil := now * 256 + wireTime e.len }
      let s := emit s (.frame p e.cls e.len)
      match e.kind with
      | .data mk idx txn retx =>
        let s := chargeNet (chargeShapers s e now) e.domain true e.len
        let s := emit s (.packet p e.udpSrc e.dst e.queue (mk % 2 ^ 32) idx txn retx)
        enterAll (packetLeft s e.queue mk idx) now
      | _ => s

/-- EGRESS_FRAME_START (R335). -/
def execEgressFrameStart (p : Port) (now : Nat) (s : State) : Res :=
  let s := clockTo s now
  .next (egressOp s p s.ns)

/-- A shaper at the start of a wheel slot: a slot that has come releases it, and the overflow list moves up (R334). -/
def calendarShaper (t : Nat) (v : ShaperSt) : ShaperSt :=
  let v := match v.wheel with
    | some k => if k ≤ t / 8 then { v with wheel := none } else v
    | none => v
  if v.far && decide (v.e < t * 256 + 65536 * 256) then { v with far := false, wheel := some (ceilDiv v.e 2048) } else v

/-- The wheel slot of the present time comes into use (R41, R334). -/
def calendarOp (s : State) : State := modNet s fun n => { n with shapers := n.shapers.mapVals fun _ v => calendarShaper s.ns v }

/-- CALENDAR_SLOT (R334). -/
def execCalendarSlot (now : Nat) (s : State) : Res := .next (calendarOp (clockTo s now))

/-! ## Acknowledgements out (R323, R325) -/

/-- A control frame of a queue: class 0, with `pay` payload bytes. -/
def ctrlFrame (s : State) (p : Port) (qk node domain pay : Nat) (kind : EgrKind) : State :=
  let p := if ethUp s p then p else if p = 0 then 1 else 0
  modNet s fun n => { n with egress := n.egress ++
    [{ port := p, cls := 0, queue := qk, dst := node, len := frameLen s domain 0 pay, domain := domain, kind := kind }] }

/-- Send an ACK of a received message: complete, or with the arrival bitmap. At most 65,535 for one message. -/
def sendAck (s : State) (p : Port) (qk mk node dq domain : Nat) (complete : Bool) : State :=
  let m := ((getWq s qk).bind fun q => q.recv.get? mk).getD {}
  if 65535 ≤ m.acks then s
  else
    let s := modWq s qk fun q => { q with recv := q.recv.modify mk fun m => { m with acks := m.acks + 1 } }
    let s := emit s (.ack node dq (mk % 2 ^ 32) complete (if complete then 0 else m.bitmap))
    ctrlFrame s p qk node domain (if complete then 0 else ceilDiv m.packets 8) (.ack (mk % 2 ^ 32) complete)

/-- Send a NACK (R325). -/
def sendNack (s : State) (p : Port) (qk msgId node dq domain : Nat) (st : Status) : State :=
  ctrlFrame (emit s (.nack node dq msgId st.code)) p qk node domain 0 (.nack msgId)

/-! ## Delivery (R329) -/

/-- Messages that need no action when they are delivered: WRITE, refused ones, management messages. -/
def passive (qk : Nat) (m : RecvMsg) : Bool := m.complete && (m.op == 1 || m.refused.isSome || decide (65536 ≤ qk))

/-- LOW moves past every delivered message that needs no action. -/
def advanceLow (s : State) (qk : Nat) : (fuel : Nat) → State
  | 0 => s
  | fuel + 1 =>
    match getWq s qk with
    | none => s
    | some q => match q.recv.get? q.low with
      | none => s
      | some m =>
        if passive qk m then
          advanceLow (setWq s qk { q with recv := q.recv.erase q.low, low := (q.low + 1) % 2 ^ 32, gapSince := none }) qk fuel
        else s

/-- The message at LOW has been delivered and acted on. -/
def delivered (s : State) (qk : Nat) : State :=
  advanceLow (modWq s qk fun q => { q with recv := q.recv.erase q.low, low := (q.low + 1) % 2 ^ 32 }) qk 64

/-- The message that may be delivered now, when it has the operation asked for (R329). -/
def deliverable (s : State) (m : MsgRef) (op : Nat) : Option (QueueSt × RecvMsg) :=
  match getWq s m.queue with
  | none => none
  | some q =>
    if m.msgId ≠ q.low ∨ q.state ≠ .ready then none
    else match q.recv.get? m.msgId with
      | none => none
      | some r => if r.complete && r.op == op && r.refused.isNone then some (q, r) else none

/-- An answer that has completely arrived, with the request it answers. -/
def answerFor (s : State) (m : MsgRef) (op : Nat) : Option (QueueSt × RecvMsg × SendMsg) :=
  match getWq s m.queue with
  | none => none
  | some q => match q.recv.get? (2 ^ 32 + m.msgId), q.sent.get? m.msgId with
    | some r, some w => if r.complete && r.op == op && !w.completed then some (q, r, w) else none
    | _, _ => none

/-- The first message not placed since the last FLUSH is noted at the receiver (R330). -/
def noteUnplaced (s : State) (qk : Nat) (st : Status) : State :=
  modWq s qk fun q => { q with unplaced := some (q.unplaced.getD st) }

/-- Refuse the message at LOW with a NACK. -/
def refuse (s : State) (qk : Nat) (q : QueueSt) (st : Status) : State :=
  delivered (noteUnplaced (sendNack s 0 qk q.low (qPeerNode q) (qPeerQueue q) q.domain st) qk st) qk

/-- Answer a request with a message of the same MSG_ID (R311). -/
def launchAnswer (s : State) (qk msgId op addr total data : Nat) : State :=
  let m : SendMsg := { op := op, addr := addr, total := total, data := data, packets := packetsOf op total, timer := s.ns,
                       completed := true }
  let s := modWq s qk fun q => { q with sent := q.sent.set (2 ^ 32 + msgId) m }
  let s := emit s (.message (((getWq s qk).map qPeerNode).getD 0) qk op msgId addr total 0 data)
  sendAll s qk (2 ^ 32 + msgId) m.packets

/-- A finished request leaves the table once it is acknowledged as well. -/
def closeRequest (s : State) (qk id : Nat) : State :=
  modWq s qk fun q => { q with
    sent := (q.sent.modify id fun m => { m with completed := true }).filter fun k m => k != id || !m.whole,
    recv := q.recv.erase (2 ^ 32 + id) }

/-- A fault record of a queue (R290, R327), reported for the mover that serves the queue. -/
def queueFault (s : State) (qk len off reason st : Nat) : State :=
  let d := ((getWq s qk).map (·.domain)).getD 0
  let r := dmaRecord qk len off reason 7 d (4 + qk % 4) st
  dmaFault (modWq s qk fun q => { q with fault := r }) (4 + qk % 4) r

/-- READ (R311): the range is read and returned as READ_RESP. -/
def readOp (s : State) (m : MsgRef) : State :=
  match deliverable s m 2 with
  | none => s
  | some (q, r) => match regionAt s r.key with
    | none => refuse s m.queue q .denied
    | some g =>
      if gKind g = 0 ∧ !m.hostOk then refuse (queueFault s m.queue r.total 0 5 3) m.queue q .badField
      else
        let s := if gKind g = 0 then chargePcie s g.domain false r.total else chargeDram s g.domain false r.total
        delivered (launchAnswer s m.queue m.msgId 3 0 r.total (regionGet s g r.addr r.total m.hostData)) m.queue

/-- READ (R311). -/
def execRead (m : MsgRef) (s : State) : Res := .next (readOp (clockTo s m.now) m)

/-- READ_RESP (R311): placed into the requester's local buffer, and the READ completes. -/
def readRespOp (s : State) (m : MsgRef) : State :=
  match answerFor s m 3 with
  | none => s
  | some (q, r, w) =>
    match localBuffer s (qPd q) w.wr w.total with
    | none => closeRequest (completeWr s m.queue w.wr .badField w.total m.msgId) m.queue m.msgId
    | some (g, off) =>
      if gKind g = 0 ∧ !m.hostOk then
        closeRequest (completeWr (queueFault s m.queue w.total 0 5 3) m.queue w.wr .badField w.total m.msgId) m.queue m.msgId
      else
        closeRequest (completeWr (regionPut s g off w.total r.data) m.queue w.wr .ok w.total m.msgId) m.queue m.msgId

/-- READ_RESP (R311). -/
def execReadResp (m : MsgRef) (s : State) : Res := .next (readRespOp (clockTo s m.now) m)

/-- ATOMIC (R313): the aligned word is read and updated, and its old value returned. -/
def atomicOp (s : State) (m : MsgRef) : State :=
  match deliverable s m 5 with
  | none => s
  | some (q, r) => match regionAt s r.key with
    | none => refuse s m.queue q .denied
    | some g =>
      let old := regionGet s g r.addr 8 m.hostData
      let operand := fld r.data 63 0
      let s :=
        if r.atop = 1 then regionPut s g r.addr 8 ((old + operand) % 2 ^ 64)
        else if old = fld r.data 127 64 then regionPut s g r.addr 8 operand
        else s
      delivered (launchAnswer s m.queue m.msgId 6 0 8 old) m.queue

/-- ATOMIC (R313). -/
def execAtomic (m : MsgRef) (s : State) : Res := .next (atomicOp (clockTo s m.now) m)

/-- ATOMIC_RESP (R311): the 8 bytes go to LOCAL_ADDR and the request completes. -/
def atomicRespOp (s : State) (m : MsgRef) : State :=
  match answerFor s m 6 with
  | none => s
  | some (q, r, w) =>
    match localBuffer s (qPd q) w.wr 8 with
    | none => closeRequest (completeWr s m.queue w.wr .badField 8 m.msgId) m.queue m.msgId
    | some (g, off) => closeRequest (completeWr (regionPut s g off 8 r.data) m.queue w.wr .ok 8 m.msgId) m.queue m.msgId

/-- ATOMIC_RESP (R311). -/
def execAtomicResp (m : MsgRef) (s : State) : Res := .next (atomicRespOp (clockTo s m.now) m)

/-- FLUSH (R330): every message before it is placed, so FLUSH_RESP leaves with OK or the first failure's status. -/
def flushOp (s : State) (m : MsgRef) : State :=
  match deliverable s m 7 with
  | none => s
  | some (q, _) =>
    let st := q.unplaced.getD .ok
    let s := modWq s m.queue fun q => { q with unplaced := none }
    delivered (launchAnswer s m.queue m.msgId 8 st.code 0 0) m.queue

/-- FLUSH (R330). -/
def execFlush (m : MsgRef) (s : State) : Res := .next (flushOp (clockTo s m.now) m)

/-- Replica writes that the FLUSH covers count as held (R41, R361). -/
def heldBefore (s : State) (qk id : Nat) : State :=
  match getWq s qk with
  | none => s
  | some q =>
    let done := q.sent.l.filter fun e => e.2.whole && decide (e.1 < 2 ^ 32) && decide ((id + 2 ^ 32 - e.1) % 2 ^ 32 < 2 ^ 31)
    let s := modWq s qk fun q => { q with sent := q.sent.filter fun k m =>
      !(done.any fun e => e.1 == k) || (match m.purpose with | .replica .. => false | .batch .. => false | _ => true) }
    let left : List SendMsg := match getWq s qk with | some q => (q.sent.l.map fun e => e.2) ++ q.later | none => []
    done.foldl (fun s e => match e.2.purpose with
      | .replica _ f => heldReplica s f
      | .batch i n => if left.any (fun m => match m.purpose with | .batch j k => j == i && decide (k ≤ n) | _ => false) then s
                      else heldBatch s i n
      | _ => s) s

/-- FLUSH_RESP (R311, R330): the FLUSH completes with its status. -/
def flushRespOp (s : State) (m : MsgRef) : State :=
  match answerFor s m 8 with
  | none => s
  | some (q, r, w) =>
    let st := (Status.ofCode (r.addr % 65536)).getD .ok
    let st := if st = .ok then q.recorded.getD .ok else st
    let s := modWq s m.queue fun q => { q with recorded := none }
    let s := if st = .ok then heldBefore s m.queue m.msgId else s
    closeRequest (match w.purpose with
      | .host => completeWr s m.queue w.wr st w.total m.msgId
      | _ => s) m.queue m.msgId

/-- FLUSH_RESP (R311). -/
def execFlushResp (m : MsgRef) (s : State) : Res := .next (flushRespOp (clockTo s m.now) m)

/-- Fire parked requests of a tag while its count is met: each goes to the end of the send queue as if just posted
(R312). -/
def fireTag (s : State) (qk tag : Nat) : (fuel : Nat) → State
  | 0 => s
  | fuel + 1 =>
    match getWq s qk with
    | none => s
    | some q => match q.parked.find? fun w => w.tag == tag with
      | none => s
      | some w =>
        if q.tags.getD tag 0 < w.count then s
        else
          fireTag (setWq s qk { q with parked := q.parked.erase w, sq := q.sq ++ [{ w with parked := false }],
                                       tags := q.tags.set tag (q.tags.getD tag 0 - w.count) }) qk tag fuel

/-- TRIGGER (R312): the tag counts, or a 65th tag is refused with EXHAUSTED. -/
def triggerOp (s : State) (m : MsgRef) : State :=
  match deliverable s m 9 with
  | none => s
  | some (q, r) =>
    let tag := fld r.ext (if r.attn then 159 else 31) (if r.attn then 128 else 0)
    if !q.tags.has tag && decide (64 ≤ q.tags.size) then refuse s m.queue q .exhausted
    else delivered (fireTag (modWq s m.queue fun q => { q with tags := q.tags.upd tag 0 fun n => n + 1 }) m.queue tag 64) m.queue

/-- TRIGGER (R312). -/
def execTrigger (m : MsgRef) (s : State) : Res := .next (triggerOp (clockTo s m.now) m)

/-! ## Acknowledgements in, timers (R324 to R327) -/

/-- Key of the ownership command that waits for a sequence's record to be held (R371). -/
def ownKey (id : Nat) : ObjKey := .other (2 ^ 48 + id)

/-- The partner has a changed ownership record, at the EPOCH of the command or a later one: the command that waited for it
completes (R371). -/
def recordHeld (s : State) (m : SendMsg) : State :=
  match m.purpose with
  | .mgmt 0x000E _ =>
    let epoch := fld m.data 2431 2400
    finishWhere s (fun g => g.key == ownKey (fld m.data 175 128) && decide ((epoch + 2 ^ 32 - g.arg) % 2 ^ 32 < 2 ^ 31)) .ok 0 0
  | _ => s

/-- A message whose every packet is acknowledged: it leaves the window, and what waits on it proceeds. -/
def wholeAck (s : State) (qk mk : Nat) : State :=
  match getWq s qk with
  | none => s
  | some q => match q.sent.get? mk with
    | none => s
    | some m =>
      let keep := !m.completed && (m.purpose == .host || (match m.purpose with | .replica .. => true | .batch .. => true | .merge .. => true | .flush => true | _ => false))
      let q := { q with sent := if keep then q.sent.set mk { m with whole := true, acked := 2 ^ m.packets - 1 } else q.sent.erase mk }
      let q := if m.completed then { q with sent := q.sent.erase mk } else q
      let s := recordHeld (setWq s qk q) m
      match q.later with
      | [] => s
      | x :: t => if unacked q < 64 then launch (setWq s qk { q with later := t }) qk x else s

/-- Resend packet `i`; a packet whose TXN would be 16 is not sent and the message fails (R326). -/
def resend (s : State) (qk mk i : Nat) : State × Bool :=
  match (getWq s qk).bind fun q => q.sent.get? mk with
  | none => (s, true)
  | some m => if 16 ≤ m.sent.getD i 0 then (s, false) else (sendPacket s qk mk i true, true)

/-- Resend a list of packets until one can not be sent any more. -/
def resendAll (s : State) (qk mk : Nat) : List Nat → State × Bool
  | [] => (s, true)
  | i :: t => match resend s qk mk i with
    | (s, true) => resendAll s qk mk t
    | (s, false) => (s, false)

/-- A message fails: the queue enters ERROR, or the management endpoint goes on with the next MSG_ID (R318, R324). -/
def failMessage (s : State) (qk mk : Nat) (st : Status) : State :=
  if 65536 ≤ qk then wholeAck s qk mk else queueError s qk (some (mk % 2 ^ 32)) st

/-- Packets of a message that no selective ACK shows as arrived. -/
def missingPackets (m : SendMsg) : List Nat := (List.range m.packets).filter fun i => !bit m.acked i

/-- The message an acknowledgement of a MSG_ID is about: the request, or the answer of the same number (assumption 24). -/
def ackTarget (q : QueueSt) (id : Nat) : Nat :=
  match q.sent.get? id with
  | some m => if m.whole then 2 ^ 32 + id else id
  | none => 2 ^ 32 + id

/-- An ACK arrives (R324). -/
def ackOp (s : State) (qk msgId : Nat) (complete : Bool) (bitmap : Nat) : State :=
  match getWq s qk with
  | none => s
  | some q =>
    let mk := ackTarget q msgId
    match q.sent.get? mk with
    | none => s
    | some m =>
      if complete then wholeAck s qk mk
      else
        let new := (List.range m.packets).any fun i => bit bitmap i && !bit m.acked i
        let m := { m with acked := m.acked ||| (bitmap % 2 ^ m.packets), rounds := if new then 0 else m.rounds }
        let s := setWq s qk { q with sent := q.sent.set mk m }
        let late := (missingPackets m).filter fun i => decide (m.lastSent.getD i 0 + qRto q / 4 ≤ s.ns)
        let (s, ok) := resendAll s qk mk late
        if ok then s else failMessage s qk mk .timeout

/-- The retransmission timer of a message: RTO × 2^(r − 1), capped at 8 × RTO (R324). -/
def retxDue (q : QueueSt) (m : SendMsg) (now : Nat) : Bool :=
  decide (m.timer + qRto q * 2 ^ (min m.rounds 3) ≤ now) && !m.whole && m.rnrAt.isNone && decide (m.left ≠ 0)

/-- RETX_TIMEOUT (R324, R326). -/
def retxOp (s : State) (m : MsgRef) : State :=
  match getWq s m.queue with
  | none => s
  | some q =>
    let mk := ackTarget q m.msgId
    match q.sent.get? mk with
    | none => s
    | some x =>
      if !retxDue q x s.ns then s
      else if qRetry q ≤ x.rounds then failMessage s m.queue mk .timeout
      else
        let s := setWq s m.queue { q with sent := q.sent.set mk { x with rounds := x.rounds + 1 } }
        let (s, ok) := resendAll s m.queue mk (missingPackets x)
        if ok then s else failMessage s m.queue mk .timeout

/-- RETX_TIMEOUT (R324). -/
def execRetxTimeout (m : MsgRef) (s : State) : Res := .next (retxOp (clockTo s m.now) m)

/-- The partner refused a page of a sequence: its domain is absent there (R365). -/
def absentOn (s : State) (id : Nat) : State :=
  match getQ s id with
  | none => s
  | some q =>
    let s := modQ s id fun q => { q with bound := .noReplication }
    if s.place.absent.contains q.domain then s
    else
      raiseObj { s with place := { s.place with absent := s.place.absent ++ [q.domain] } } 0x0005 3 38 q.domain q.ctrlPort 0

/-- A NACK arrives (R325). -/
def nackOp (s : State) (qk msgId : Nat) (st : Status) : State :=
  match getWq s qk with
  | none => s
  | some q =>
    let mk := ackTarget q msgId
    match q.sent.get? mk with
    | none => s
    | some m =>
      match st with
      | .revoked | .exhausted =>
        wholeAck (modWq s qk fun q => { q with recorded := some (q.recorded.getD st) }) qk mk
      | .busy =>
        if m.op = 4 then
          if qRnr q ≤ m.rnr then failMessage s qk mk .exhausted
          else setWq s qk { q with sent := q.sent.set mk { m with rnrAt := some s.ns } }
        else s
      | .denied | .badField | .badState =>
        if 65536 ≤ qk then wholeAck s qk mk
        else if q.internal.isSome then
          let s := setWq s qk { q with sent := q.sent.erase mk }
          match m.purpose with
          | .replica id _ => absentOn s id
          | .batch id _ => absentOn s id
          | _ => s
        else
          pushFor (queueError s qk none .badState) qk (completionWord qk 0 0 msgId m.wr.op st)
      | _ => s

/-- RNR_RETRY_TIMEOUT (R325, R326): RTO after NACK BUSY the SEND is resent whole. -/
def rnrOp (s : State) (m : MsgRef) : State :=
  match getWq s m.queue with
  | none => s
  | some q => match q.sent.get? m.msgId with
    | none => s
    | some x => match x.rnrAt with
      | none => s
      | some t =>
        if s.ns < t + qRto q then s
        else
          let s := setWq s m.queue { q with sent := q.sent.set m.msgId { x with rnr := x.rnr + 1, rnrAt := none, acked := 0 } }
          let (s, ok) := resendAll s m.queue m.msgId (List.range x.packets)
          if ok then s else failMessage s m.queue m.msgId .exhausted

/-- RNR_RETRY_TIMEOUT (R325). -/
def execRnrRetryTimeout (m : MsgRef) (s : State) : Res := .next (rnrOp (clockTo s m.now) m)

/-- ACK_DELAY_TIMER (R323): 4 µs without arrival for an incomplete message. -/
def ackDelayOp (s : State) (m : MsgRef) : State :=
  match getWq s m.queue with
  | none => s
  | some q => match q.recv.get? m.msgId with
    | none => s
    | some r =>
      if r.complete || r.bitmap == 0 || decide (s.ns < r.last + 4000) then s
      else sendAck (modWq s m.queue fun q => { q with recv := q.recv.modify m.msgId fun r => { r with last := s.ns } })
        0 m.queue m.msgId (qPeerNode q) (qPeerQueue q) q.domain false

/-- ACK_DELAY_TIMER (R323). -/
def execAckDelayTimer (m : MsgRef) (s : State) : Res := .next (ackDelayOp (clockTo s m.now) m)

/-- REASM_IDLE_TIMEOUT (R321): a context idle for 1 ms is released and its message starts a new bitmap. -/
def reasmOp (s : State) (m : MsgRef) : State :=
  match getWq s m.queue with
  | none => s
  | some q => match q.recv.get? m.msgId with
    | none => s
    | some r =>
      if r.complete || decide (r.packets < 2) || r.bitmap == 0 || decide (s.ns < r.last + 1000000) then s
      else setWq s m.queue { q with recv := q.recv.set m.msgId { r with bitmap := 0, last := s.ns } }

/-- REASM_IDLE_TIMEOUT (R321). -/
def execReasmIdleTimeout (m : MsgRef) (s : State) : Res := .next (reasmOp (clockTo s m.now) m)

/-- MGMT_SKIP_TIMEOUT (R318): LOW moves past a message missing for 10 ms behind later arrivals. -/
def mgmtSkipOp (s : State) (peer : Nat) : State :=
  match getWq s (mgmtKey peer) with
  | none => s
  | some q => match q.gapSince with
    | none => s
    | some t =>
      if s.ns < t + 10000000 then s
      else
        let s := setWq s (mgmtKey peer) { q with recv := q.recv.erase q.low, low := (q.low + 1) % 2 ^ 32, gapSince := none }
        advanceLow (count s 2 0 4) (mgmtKey peer) 64

/-- MGMT_SKIP_TIMEOUT (R318). -/
def execMgmtSkipTimeout (peer now : Nat) (s : State) : Res := .next (mgmtSkipOp (clockTo s now) peer)

/-! ## Work requests (R309, R311, R312, R322) -/

/-- What is wrong with a posted send request (R309, R319). -/
def sendBad (s : State) (q : QueueSt) (w : WorkRequest) : Option Status :=
  if w.rsv ≠ 0 then some .badReserved
  else if w.op = 0 ∨ 7 < w.op then some .badField
  else if 16777216 < w.length then some .badField
  else if (w.op = 4 ∨ w.op = 5) ∧ w.length ≠ 8 then some .badField
  else if w.parked ∧ w.count = 0 then some .badField
  else if w.op ≠ 6 ∧ (localBuffer s (qPd q) w w.length).isNone ∧ ¬ (w.length = 0 ∧ w.localKey = 0) then some .badField
  else none

/-- What is wrong with a posted receive request (R309). -/
def recvBad (s : State) (q : QueueSt) (w : WorkRequest) : Option Status :=
  if w.rsv ≠ 0 then some .badReserved
  else if w.op ≠ 8 then some .badField
  else if 16777216 < w.length then some .badField
  else if (localBuffer s (qPd q) w w.length).isNone ∧ ¬ (w.length = 0 ∧ w.localKey = 0) then some .badField
  else none

/-- The operation code a work request sends (R300). -/
def wireOp : Nat → Nat
  | 1 => 1 | 2 => 2 | 3 => 4 | 4 => 5 | 5 => 5 | 6 => 7 | 7 => 9 | n => n

/-- The message of a work request: its fields and its payload (R299, R311, R313). -/
def wrMessage (w : WorkRequest) (data : Nat) : SendMsg :=
  let op := wireOp w.op
  let payload := if op = 5 then w.operand % 2 ^ 64 + w.compare % 2 ^ 64 * 2 ^ 64 else if op = 2 ∨ op = 7 then 0 else data
  { op := op, wr := w, total := if op = 5 then 16 else if op = 7 then 0 else w.length, addr := w.remoteAddr,
    key := if op = 4 ∨ op = 7 then 0 else w.remoteKey, atop := if w.op = 4 then 1 else if w.op = 5 then 2 else 0,
    ext := if op = 9 then w.tag else 0, extLen := if op = 9 then 1 else 0, data := payload }

/-- Every earlier READ and ATOMIC of the queue has completed (FENCE, R309). -/
def fenceClear (q : QueueSt) : Bool := q.sent.all fun _ m => m.completed || !(m.op == 2 || m.op == 5)

/-- A job key of the queue's protection domain is there when its domain is sealed (R339). -/
def keyReady (s : State) (q : QueueSt) : Bool :=
  !sealedDomain s q.domain || ((s.net.pds.get? (qPd q)).any fun p => p.key0.isSome || p.key1.isSome)

/-- Whether a sequence of MSG_ID would repeat under one key (R339). -/
def idWraps (s : State) (q : QueueSt) : Bool := sealedDomain s q.domain && q.nextId == 2 ^ 32 - 1

/-- The front of a queue's send requests is sent, parked, refused, or waits (R309, R312, R322). -/
def sendRequest (s : State) (qk : Nat) (host : HostRead) : State :=
  match getWq s qk with
  | none => s
  | some q => match q.sq with
    | [] => s
    | w :: rest =>
      let pop := fun (s : State) => modWq s qk fun q => { q with sq := rest }
      if q.state ≠ .ready || trafficOff s || s.boot.failed then s
      else if s.net.fencedNodes.contains (qPeerNode q) then completeWr (pop s) qk w .fenced w.length 0
      else match sendBad s q w with
        | some st => completeWr (pop s) qk w st w.length 0
        | none =>
          if w.parked then
            if 64 ≤ q.parked.length then completeWr (pop s) qk w .exhausted w.length 0
            else fireTag (setWq s qk { q with sq := rest, parked := q.parked ++ [w] }) qk w.tag 64
          else if 64 ≤ unacked q || (w.fence && !fenceClear q) || !keyReady s q then s
          else if idWraps s q then queueError (pop s) qk none .exhausted |> fun s => completeWr s qk w .exhausted w.length 0
          else
            let src := localBuffer s (qPd q) w w.length
            let readsHost := (w.op = 1 ∨ w.op = 3 ∨ w.op = 7) && src.any fun x => gKind x.1 == 0
            match readsHost, host with
            | true, .error => completeWr (queueFault (pop s) qk w.length 0 5 3) qk w .badField w.length 0
            | true, .timeout =>
              if rf q.fault 1 0 = 2 then completeWr (queueFault (pop s) qk w.length 0 6 3) qk w .timeout w.length 0
              else queueFault s qk w.length 0 6 1
            | _, _ =>
              let bytes := match host with | .data b => b | _ => 0
              let data := match src with | some (g, off) => regionGet s g off w.length bytes | none => 0
              launch (pop s) qk (wrMessage w (data % 2 ^ (8 * w.length)))

/-- WORK_REQUEST_SEND (R311, R319, R322). -/
def execWorkRequestSend (queue now : Nat) (data : HostRead) (s : State) : Res := .next (sendRequest (clockTo s now) queue data)

/-! ## Doorbells (R428, R308) -/

/-- Requests posted on a queue: in ERROR they complete with BAD_STATE. -/
def postSend (s : State) (qk : Nat) (q : QueueSt) (idx : Nat) (ws : List WorkRequest) : State :=
  if q.state = .error then ws.foldl (fun s w => completeWr s qk w .badState w.length 0) (setWq s qk { q with sqTail := idx })
  else setWq s qk { q with sqTail := idx, sq := q.sq ++ ws }

/-- Receive requests posted on a queue. -/
def postRecv (s : State) (qk : Nat) (q : QueueSt) (idx : Nat) (ws : List WorkRequest) : State :=
  let s := setWq s qk { q with rqTail := idx }
  if q.state = .error then ws.foldl (fun s w => completeWr s qk w .badState w.length 0) s
  else ws.foldl (fun s w => match recvBad s q w with
    | some st => completeWr s qk w st w.length 0
    | none => modWq s qk fun q => { q with rq := q.rq ++ [w] }) s

/-- The entries a tail doorbell posts, from what stands in the ring. -/
def posted (wrs : List WorkRequest) (n : Nat) : List WorkRequest := (List.range n).map fun i => wrs.getD i {}

/-- A write of QUEUE_DB: KIND says which ring it is for (R428). -/
def doorbellOp (s : State) (p : Port) (f : Func) (size : Nat) (value : Word) (wrs : List WorkRequest) : State :=
  let kind := rf value 63 62
  let idx := rf value 31 16
  let bad := raiseRing s p f 0x0033 0x1000 value.toNat
  if size ≠ 8 then s
  else if rf value 61 32 ≠ 0 then bad
  else if kind < 2 then
    let qk := rf value 15 0
    match getWq s qk with
    | none => bad
    | some q =>
      if q.func ≠ funcCode p f ∨ q.internal.isSome ∨ q.state = .reset then bad
      else if kind = 0 then
        let n := (idx + 65536 - q.sqTail) % 65536
        if 2 ^ qSqLog2 q < q.sq.length + n then bad else postSend s qk q idx (posted wrs n)
      else
        let n := (idx + 65536 - q.rqTail) % 65536
        if qRqLog2 q = 0 ∨ 2 ^ qRqLog2 q < q.rq.length + n then bad else postRecv s qk q idx (posted wrs n)
  else
    let ck := rf value 13 0
    match s.net.cqs.get? ck with
    | none => bad
    | some c =>
      if c.port ≠ p ∨ c.func ≠ f then bad
      else
        let head := min c.tail (c.head + (idx + 65536 - c.head % 65536) % 65536)
        modNet s fun n => { n with cqs := n.cqs.set ck { c with head := head, armed := c.armed || kind == 3 } }

/-- QUEUE_DB_SQ_TAIL (R428). -/
def execQueueDbSqTail (p : Port) (f : Func) (now size : Nat) (value : Word) (wrs : List WorkRequest) (s : State) : Res :=
  .next (if mmioOk s p f then doorbellOp (clockTo s now) p f size value wrs else s)

/-- QUEUE_DB_RQ_TAIL (R428). -/
def execQueueDbRqTail (p : Port) (f : Func) (now size : Nat) (value : Word) (wrs : List WorkRequest) (s : State) : Res :=
  .next (if mmioOk s p f then doorbellOp (clockTo s now) p f size value wrs else s)

/-- QUEUE_DB_CQ_HEAD (R428, R310). -/
def execQueueDbCqHead (p : Port) (f : Func) (now size : Nat) (value : Word) (s : State) : Res :=
  .next (if mmioOk s p f then doorbellOp (clockTo s now) p f size value [] else s)

/-- QUEUE_DB_CQ_ARM (R428, R310). -/
def execQueueDbCqArm (p : Port) (f : Func) (now size : Nat) (value : Word) (s : State) : Res :=
  .next (if mmioOk s p f then doorbellOp (clockTo s now) p f size value [] else s)

/-! ## Regions and queues of a function or domain that is reset (R305, R308) -/

/-- Queues that pass a test enter RESET, without completions. -/
def resetQueues (s : State) (p : Nat → QueueSt → Bool) : State :=
  let gone := (s.net.queues.l.filter fun e => p e.1 e.2 && decide (e.1 < 65536)).map (·.1)
  modNet s fun n => { n with
    queues := n.queues.mapVals fun k q => if gone.contains k then
      { record := q.record, state := .reset, func := q.func, domain := q.domain, internal := q.internal, heat := q.heat } else q,
    egress := n.egress.filter fun e => !gone.contains e.queue }

/-- Regions that pass a test enter REVOKING. -/
def revokeRegions (s : State) (p : RegionSt → Bool) : State :=
  modNet s fun n => { n with regions := n.regions.mapVals fun _ r => if p r then { r with revoking := true } else r }

/-- REVOKE_DRAINED (R305, R331): placements are drained, the region is FREE and its generation moves on. -/
def drainedOp (s : State) (i : Nat) : State :=
  match s.net.regions.get? i with
  | none => s
  | some r =>
    if !r.revoking then s
    else
      let s := modNet s fun n => { n with regions := n.regions.erase i, regionGen := n.regionGen.set i ((genOf s i + 1) % 2 ^ 14) }
      finishWhere s (fun g => g.key == .region i) .ok 0 0

/-- REVOKE_DRAINED (R305). -/
def execRevokeDrained (index now : Nat) (s : State) : Res := .next (drainedOp (clockTo s now) index)

end Sys2Proof.Machine
end

