-- ==== Sys2Proof/Machine/Ingress.lean ====
section
/-! DEFINITION. Coriskano transport, second part: frames and packets that arrive, their checks and placement (R292 to
R302, R306, R320 to R323, R336, R341). -/

namespace Sys2Proof.Machine

/-! ## Ethernet frames and links (R292 to R297) -/

/-- Fields of the port record (R294). -/
def pAddr (e : EthSt) : Nat := rf e.record 319 192
def pMac (e : EthSt) : Nat := rf e.record 191 144
def pUdp (e : EthSt) : Nat := rf e.record 95 80

/-- A destination Ethernet address that the port accepts (R293). -/
def macOk (e : EthSt) (mac : Nat) : Bool :=
  mac == pMac e || mac == 0x3333FF000000 + pAddr e % 2 ^ 24 || mac == 0x333300000181 || mac == 0x33330000006B
    || mac == 0x011B19000000 || mac == 0x0180C200000E

/-- TRANSPORT of the time base record: true is UDP on IPv6 (R39). -/
def ptpUdp (s : State) : Bool := rb s.time.record 24

/-- An IPv6 multicast address of PTP: FF0X::181 or FF02::6B. -/
def ptpGroup (a : Nat) : Bool := (a / 2 ^ 120 == 0xFF && a / 2 ^ 116 % 16 == 0 && a % 2 ^ 112 == 0x181) || a == 0xFF02 * 2 ^ 112 + 0x6B

/-- The solicited-node multicast address of ADDR. -/
def solicited (a : Nat) : Nat := 0xFF02 * 2 ^ 112 + 0x1FF * 2 ^ 24 + a % 2 ^ 24

/-- A frame passes R293. -/
def frameAccepted (s : State) (fr : EthFrame) : Bool :=
  let e := ethOf s fr.port
  fr.fcsOk && !fr.tagged && decide (64 ≤ fr.len ∧ fr.len ≤ 4468) && macOk e fr.dstMac
    && (fr.etherType == 0x86DD || (fr.etherType == 0x88F7 && !ptpUdp s))

/-- A frame that arrives: dropped and counted, answered as a Neighbor Solicitation, or handed to PTP or Coriskano. -/
def ethFrameOp (s : State) (fr : EthFrame) : State :=
  let e := ethOf s fr.port
  let drop := count s 0 fr.port.val 0
  if !ethUp s fr.port then s
  else if !frameAccepted s fr then drop
  else if fr.etherType = 0x88F7 then s
  else if fr.extHeader || !fr.lenOk then drop
  else if fr.nextHeader = 58 ∧ (fr.dstIp = pAddr e ∨ fr.dstIp = solicited (pAddr e)) then
    if !fr.checksumOk then drop
    else if fr.solicit then emit s (.neighborAdvert fr.port) else s
  else if fr.nextHeader = 17 ∧ (fr.udpDst = 319 ∨ fr.udpDst = 320) ∧ (fr.dstIp = pAddr e ∨ ptpGroup fr.dstIp) then
    if ptpUdp s then (if fr.checksumOk then s else drop) else count s 0 fr.port.val 10
  else if fr.dstIp = pAddr e ∧ fr.nextHeader = 17 ∧ fr.udpDst = pUdp e ∧ fr.checksumOk ∧ fr.padZero then s
  else drop

/-- ETH_FRAME_RECEIVED (R293, R297). -/
def execEthFrameReceived (fr : EthFrame) (s : State) : Res := .next (ethFrameOp (clockTo s fr.now) fr)

/-- The EPLL of a port among the PLLs. -/
def epllKey (p : Port) : Nat := 28 + p.val

/-- A link comes up once its EPLL has locked and the port is enabled (R292, R484). -/
def ethUpOp (s : State) (p : Port) : State :=
  let e := ethOf s p
  if rb e.record 0 && (s.boot.plls.getD (epllKey p) {}).locked then setEth s p { e with link := 2 } else s

/-- ETH_LINK_UP (R292). -/
def execEthLinkUp (p : Port) (s : State) : Res := .next (ethUpOp s p)

/-- Waiting frames of a port move to the other one. -/
def moveFrames (s : State) (p : Port) : State :=
  let o : Port := if p = 0 then 1 else 0
  modNet s fun n => { n with egress := n.egress.map fun x => if x.port = p then { x with port := o } else x }

/-- A link goes down: FAULT LINK_DOWN, and every packet goes on the other port (R294). -/
def ethDownOp (s : State) (p : Port) : State :=
  let e := ethOf s p
  if e.link = 0 then s
  else
    let s := setEth s p { e with link := if rb e.record 0 then 1 else 0 }
    raiseNode (moveFrames s p) 0x0001 0x0040 (36 + p.val) 0 (otherPayload 0 p.val 0)

/-- ETH_LINK_DOWN (R294). -/
def execEthLinkDown (p : Port) (s : State) : Res := .next (ethDownOp s p)

/-! ## Ingress checks (R302) -/

/-- Extension units that an operation needs besides the attention extension (R301). -/
def opExt : Nat → Nat
  | 9 => 1 | 10 => 2 | 11 => 1 | 12 => 2 | 13 => 2 | _ => 0

/-- An operation code of R300. -/
def opKnown (op : Nat) : Bool := decide (1 ≤ op ∧ op ≤ 13) || op == 16 || op == 17

/-- Check 2: malformed (R301, R302, R313, R319). -/
def malformed (k : Packet) : Bool :=
  k.version != 1 || !opKnown k.op || k.rsvBit || k.extLen != opExt k.op + b2n k.attn
    || (if k.op = 5 then k.atop != 1 && k.atop != 2 else k.atop != 0)
    || (k.mgmt && !(k.op == 4 || k.op == 16 || k.op == 17))
    || (if k.op = 16 ∨ k.op = 17 then k.payLen != k.totalLen
        else k.offset % 4096 != 0 || decide (16777216 < k.totalLen) || decide (packetsOf k.op k.totalLen ≤ k.offset / 4096)
          || k.payLen != payloadOf k.op k.totalLen (k.offset / 4096))

/-- The policer of a domain (R336), its tokens brought up to date. -/
def policerNow (s : State) (d : Nat) : PolicerSt :=
  let p := s.net.policers.getD d {}
  { p with tokens := min (p.depth * 8000) (p.tokens + (s.ns - p.last) * p.rate), last := s.ns }

/-- The key under which the receiving node keeps the packet's queue. -/
def packetQueue (k : Packet) : Nat := if k.mgmt then mgmtKey k.srcNode else k.dstQueue

/-- The key a packet's protection needs is held (R339). -/
def phaseHeld (s : State) (k : Packet) : Bool :=
  match (getWq s k.dstQueue).bind fun q => s.net.pds.get? (qPd q) with
  | some p => if k.keyPhase then p.key1.isSome else p.key0.isSome
  | none => true

/-- Check 8: the packet names a queue paired with its sender, in its domain; management messages name queue 0 (R302). -/
def misdirected (s : State) (k : Packet) : Bool :=
  if k.mgmt then k.domain != 0 || k.srcQueue != 0 || k.dstQueue != 0
  else match getWq s k.dstQueue with
    | none => true
    | some q => qPeerNode q != k.srcNode || qPeerQueue q != k.srcQueue
        || (q.domain != k.domain && !(q.internal.isSome && q.domain == 0))

/-- The responder of an internal pair takes the tenant domain of its first packet (assumption 25). -/
def adoptDomain (s : State) (qk domain : Nat) : State :=
  modWq s qk fun q => if q.internal.isSome ∧ q.domain = 0 then { q with domain := domain } else q

/-- Checks 1 to 8 of R302: the state with what they count, and whether the packet passes. -/
def ingress (s : State) (k : Packet) : State × Bool :=
  let p := k.port.val
  if trafficOff s || (s.boot.failed && !k.mgmt) || !ethUp s k.port then (s, false)
  else if !k.frameOk then (count s 0 p 0, false)
  else if malformed k then (count s 0 p 1, false)
  else if k.partition ≠ s.partition.toNat then (count s 0 p 2, false)
  else match s.net.addrs.get? k.srcNode with
    | none => (count s 0 p 3, false)
    | some a =>
      if k.ipSrc ≠ rf a (if k.port = 0 then 127 else 255) (if k.port = 0 then 0 else 128) then (count s 0 p 3, false)
      else if s.net.fencedNodes.contains k.srcNode then (count s 0 p 4, false)
      else if k.enc ≠ sealedDomain s k.domain ∨ !k.trailerOk ∨ (k.enc ∧ !phaseHeld s k) then
        (count s 0 p (if k.enc then 5 else 6), false)
      else
        let data := k.op ≠ 16 ∧ k.op ≠ 17 ∧ !k.mgmt
        let pol := policerNow s k.domain
        if data ∧ pol.rate ≠ 0 ∧ pol.tokens < k.frameLen * 8000 then (count s 1 k.domain 0, false)
        else
          let s := if data ∧ pol.rate ≠ 0 then
            modNet s fun n => { n with policers := n.policers.set k.domain { pol with tokens := pol.tokens - k.frameLen * 8000 } }
            else s
          if misdirected s k then (count s 0 p 7, false)
          else
            let s := if s.place.heard.has k.srcNode then
              { s with place := { s.place with heard := s.place.heard.set k.srcNode s.ns } } else s
            (chargeNet s k.domain false k.frameLen, true)

/-! ## Placement (R306, R320 to R323) -/

/-- The key of the received message: answers are kept apart from requests. -/
def recvKey (k : Packet) : Nat := if k.op = 3 ∨ k.op = 6 ∨ k.op = 8 then 2 ^ 32 + k.msgId else k.msgId

/-- Reassembly contexts in use (R321). -/
def contextsInUse (s : State) : Nat :=
  s.net.queues.fold (fun n _ q => q.recv.fold (fun n _ m =>
    if m.complete ∨ m.packets < 2 ∨ m.bitmap = 0 then n else n + ceilDiv m.packets 512) n) 0

/-- The operation names a region (R300). -/
def namesRegion (k : Packet) : Bool := k.op == 1 || k.op == 2 || k.op == 5 || (k.op == 9 && k.regionKey != 0)

/-- Place a packet's payload (R311, R320). -/
def placePayload (s : State) (qk : Nat) (k : Packet) (m : RecvMsg) : State × RecvMsg :=
  if k.op = 1 ∨ (k.op = 9 ∧ k.regionKey ≠ 0) then
    match regionAt s k.regionKey with
    | some r => (regionPut s r (k.addr + k.offset) k.payLen k.payload, m)
    | none => (s, m)
  else if k.op = 4 then
    match m.rq with
    | some w => match localBuffer s (((getWq s qk).map qPd).getD 0) w m.total with
      | some (r, off) => (regionPut s r (off + k.offset) k.payLen k.payload, m)
      | none => (s, m)
    | none => (s, { m with data := m.data + k.payload % 2 ^ (8 * k.payLen) * 2 ^ (8 * k.offset) })
  else (s, { m with data := m.data + k.payload % 2 ^ (8 * k.payLen) * 2 ^ (8 * k.offset) })

/-- The message a packet belongs to, made at its first packet; a SEND takes the next receive request (R311, R321). The
status is a NACK that refuses the message; a missing context is `none` twice. -/
def openMessage (s : State) (qk : Nat) (q : QueueSt) (k : Packet) : Option RecvMsg × Option Status × State :=
  match q.recv.get? (recvKey k) with
  | some m => (some m, none, s)
  | none =>
    let n := packetsOf k.op k.totalLen
    let m : RecvMsg := { op := k.op, total := k.totalLen, addr := k.addr, key := k.regionKey, atop := k.atop, ext := k.ext,
                         attn := k.attn, solicit := k.solicit, packets := n }
    if 1 < n ∧ 8192 < contextsInUse s + ceilDiv n 512 then (none, none, s)
    else if k.op = 4 ∧ !k.mgmt ∧ q.internal.isNone then
      match q.rq with
      | [] => (none, some .busy, s)
      | w :: rest =>
        let s := setWq s qk { q with rq := rest }
        if w.length < k.totalLen then (none, some .badField, completeWr s qk w .badField k.totalLen k.msgId)
        else (some { m with rq := some w }, none, s)
    else (some m, none, s)

/-- A refused message: the NACK leaves, and a refusal that leaves the queue READY lets LOW pass it (R325, R330). -/
def refusePacket (s : State) (qk : Nat) (k : Packet) (st : Status) : State :=
  let s := sendNack s k.port qk k.msgId k.srcNode k.srcQueue k.domain st
  match st with
  | .revoked | .exhausted =>
    let s := noteUnplaced s qk st
    let new : RecvMsg := { op := k.op, packets := packetsOf k.op k.totalLen }
    let mark := fun (m : RecvMsg) => { m with complete := true, refused := some st }
    let s := modWq s qk fun q => { q with recv := q.recv.upd (recvKey k) new mark }
    advanceLow s qk 64
  | _ => s

/-- A later message of a management peer has arrived while the one at LOW is missing (R318). -/
def noteGap (s : State) (qk : Nat) : State :=
  modWq s qk fun q =>
    if decide (65536 ≤ qk) && !((q.recv.get? q.low).any fun m => m.complete) && q.recv.any (fun k _ => k != q.low) then
      { q with gapSince := some (q.gapSince.getD s.ns) }
    else { q with gapSince := none }

/-- Place a packet that passed every check: bitmap, complete arrival, acknowledgement (R320, R323). -/
def placePacket (s : State) (qk : Nat) (k : Packet) : State :=
  match getWq s qk with
  | none => s
  | some q =>
    match openMessage s qk q k with
    | (none, none, s) => count s 0 k.port.val 9
    | (none, some st, s) => refusePacket s qk k st
    | (some m, _, s) =>
      let i := k.offset / 4096
      if m.refused.isSome then refusePacket s qk k (m.refused.getD .revoked)
      else if bit m.bitmap i ∨ m.complete then count s 0 k.port.val 8
      else if !k.destOk then
        queueFault (modWq s qk fun q => { q with recv := q.recv.set (recvKey k) { m with last := s.ns } }) qk m.total k.offset 5 1
      else
        let (s, m) := placePayload s qk k m
        let bitmap := m.bitmap + 2 ^ i
        let whole := popCount bitmap m.packets == m.packets
        let s := modWq s qk fun q => { q with recv := q.recv.set (recvKey k) { m with bitmap := bitmap, last := s.ns, complete := whole } }
        if whole then noteGap (advanceLow (sendAck s k.port qk (recvKey k) k.srcNode k.srcQueue k.domain true) qk 64) qk
        else noteGap (if k.ackNow then sendAck s k.port qk (recvKey k) k.srcNode k.srcQueue k.domain false else s) qk

/-- Where MSG_ID lies against the receive window (R322): 0 in it, 1 below it, 2 outside. Answers match an open request. -/
def windowPlace (q : QueueSt) (k : Packet) : Nat :=
  if k.op = 3 ∨ k.op = 6 ∨ k.op = 8 then
    if (q.sent.get? k.msgId).any (fun m => !m.completed) then 0 else 1
  else
    let d := (k.msgId + 2 ^ 32 - q.low) % 2 ^ 32
    if d < 64 then 0 else if 2 ^ 31 ≤ d then 1 else 2

/-- An arriving packet of a message (R302, R320). -/
def packetOp (s : State) (k : Packet) : State :=
  let (s, ok) := ingress s k
  if !ok ∨ k.op = 16 ∨ k.op = 17 then s
  else
    let qk := packetQueue k
    let s := if k.mgmt ∧ (getWq s qk).isNone then setWq s qk { record := mgmtRecord k.srcNode } else s
    let s := if k.mgmt then s else adoptDomain s qk k.domain
    match getWq s qk with
    | none => s
    | some q =>
      if q.state ≠ .ready then sendNack s k.port qk k.msgId k.srcNode k.srcQueue k.domain .badState
      else match windowPlace q k with
        | 0 =>
          match if namesRegion k then regionCheck s (qPd q) k.op k.regionKey k.addr k.totalLen else none with
          | some st => refusePacket s qk k st
          | none => placePacket s qk k
        | 1 => sendAck s k.port qk (recvKey k) k.srcNode k.srcQueue k.domain true
        | _ => count s 2 0 2

/-- CORISKANO_PACKET (R302). -/
def execCoriskanoPacket (k : Packet) (s : State) : Res := .next (packetOp (clockTo s k.now) k)

/-- ACK (R324). -/
def execAck (k : Packet) (s : State) : Res :=
  let (s, ok) := ingress (clockTo s k.now) k
  .next (if ok && k.op == 16 then ackOp s (packetQueue k) k.msgId (k.totalLen == 0) k.payload else s)

/-- NACK (R325). -/
def execNack (k : Packet) (s : State) : Res :=
  let (s, ok) := ingress (clockTo s k.now) k
  .next (if ok && k.op == 17 then
    match Status.ofCode (k.addr % 65536) with | some st => nackOp s (packetQueue k) k.msgId st | none => s
  else s)

end Sys2Proof.Machine
end

