-- ==== Sys2Proof/Machine/Send.lean ====
section
/-! DEFINITION. SEND: a receive request is completed, and the step traffic of a striped heat reaches its stripe heat
(R311, R315). -/

namespace Sys2Proof.Machine

/-- The stripe heat bound to a heat of a home node (R315, assumption 25). -/
def stripeHeat (s : State) (peer heat : Nat) : Option Nat :=
  if (getH s heat).any fun h => h.master == some peer then some heat else none

/-- A 64-byte granule written into a bank. -/
def putGranule (h : HeatSt) (b g v : Nat) : HeatSt :=
  let bank := getBank h b
  setBank h b { bank with granules := bank.granules.set g (BitVec.ofNat 512 v) }

/-- A step-input row placed in a bank at the slot its header names (R315, R431). -/
def putRow (h : HeatSt) (b row : Nat) : HeatSt :=
  let n := fld row 303 294
  if hSlots h.record ≤ n then h
  else (List.range (h.rowBytes / 64)).foldl (fun h g =>
    putGranule h b (n * h.rowBytes / 64 + g) (row / 2 ^ (512 * g) % 2 ^ 512)) h

/-- A row message of a home node: whole rows in ascending slot order. -/
def stripeRows (s : State) (k step total data : Nat) : State :=
  match getH s k with
  | none => s
  | some h =>
    if h.rowBytes = 0 ∨ bankBusy h (step % 2) then s
    else
      let rows := (List.range (total / h.rowBytes)).map fun i => data / 2 ^ (8 * h.rowBytes * i) % 2 ^ (8 * h.rowBytes)
      setH s k (rows.foldl (fun h r => putRow h (step % 2) r) h)

/-- The mark of a home node, as a step-mark doorbell under R47. A stripe heat has no result buffer: a mark that is not
admitted writes nothing (R249). -/
def stripeMark (s : State) (k : Nat) (step : BitVec 32) : State :=
  match getH s k with
  | none => s
  | some h =>
    if h.last = some step then count s 1 (hDomain h.record) 4
    else if s.fenced ∨ step ≠ h.expected ∨ h.state ≠ .running ∨ claimsQuarantined s h ∨ s.boot.failed ∨ h.held.isSome then s
    else admitMark s k h step

/-- A SEND of a striped heat's home node: the mark is 32 bytes and names no sequence (R301, R315). -/
def stripeSend (s : State) (peer : Nat) (r : RecvMsg) : State :=
  match stripeHeat s peer (fld r.ext 23 12) with
  | none => s
  | some k =>
    if r.total = 32 ∧ fld r.ext 95 48 = 0 then stripeMark s k (BitVec.ofNat 32 (fld r.ext 127 96))
    else stripeRows s k (fld r.ext 127 96) r.total r.data

/-- SEND, delivered: the request it filled completes, or the Puppeteer takes it. -/
def sendOp (s : State) (m : MsgRef) : State :=
  match deliverable s m 4 with
  | none => s
  | some (q, r) =>
    let s := match r.rq with
      | some w => completeWr s m.queue w .ok r.total m.msgId r.solicit
      | none => if q.internal = some 0 ∧ r.attn then stripeSend s (qPeerNode q) r else s
    delivered s m.queue

/-- SEND (R311, R315). -/
def execSend (m : MsgRef) (s : State) : Res := .next (sendOp (clockTo s m.now) m)

end Sys2Proof.Machine
end

