-- ==== Sys2Proof/Machine/Resets.lean ====
section
/-! DEFINITION. What the reset kinds do: destroying heats, zeroisation, the module's ERROR state, function and port resets,
cold and warm resets, node failure (R236, R289, R396, R397, R424, R501). -/

namespace Sys2Proof.Machine

/-! ## Heats -/

/-- A slot of a heat that goes away leaves as for LEAVE: its starting block is released, its sequence is IDLE (R236). -/
def vacateSlot (s : State) (k n : Nat) : State :=
  match (getH s k).bind fun h => (getSlot h n).seq with
  | none => s
  | some id => modQ (releaseBlock s id) id fun q => if q.state = .running then { q with state := .idle } else q

/-- A heat is destroyed (R236). -/
def destroyHeat (s : State) (k : Nat) : State :=
  match getH s k with
  | none => s
  | some h =>
    let s := overSlots k (hSlots h.record) (fun s n => vacateSlot s k n) s
    { s with heats := s.heats.erase k, buffer := s.buffer.filter fun key _ => key / 2 ^ 17 % 4096 != k }

/-- A heat is destroyed now, or when its running lap ends; a held mark is not accepted (R409, R424, R442). -/
def dropHeat (s : State) (k : Nat) : State :=
  match getH s k with
  | none => s
  | some h => if h.lap.isNone then destroyHeat s k else setH s k { h with doomed := true, held := none }

/-- Drop every heat that passes a test. -/
def dropHeats (s : State) (p : HeatSt → Bool) : State := s.heats.fold (fun s k h => if p h then dropHeat s k else s) s

/-! ## DMA fault records (R291) -/

/-- Waiting fault records that pass a test are abandoned with a reason. -/
def abandonDma (s : State) (p : Nat → BitVec 128 → Bool) (reason : Nat) : State :=
  { s with dma := s.dma.mapVals fun m r => if (rf r 1 0 = 1 ∨ rf r 1 0 = 2) ∧ p m r then rset (rset r 31 24 reason) 1 0 3 else r }

/-! ## Zeroisation and ERROR (R396, R397) -/

/-- Every key is overwritten. -/
def zeroiseKeys (s : State) : State :=
  { s with
    sec := { s.sec with sessions := .empty, psks := .empty, ide := .empty, identity := false, metaKey := none, metaRekeying := none },
    domains := s.domains.mapVals fun _ d => { d with key := none },
    models := s.models.mapVals fun _ m => { m with key := none },
    net := { s.net with pds := s.net.pds.mapVals fun _ p => { p with key0 := none, key1 := none } } }

/-- All laps, transport traffic and DMA stop. -/
def stopAll (s : State) : State :=
  let s := { s with
    heats := s.heats.mapVals fun _ h => { h with lap := none, held := none, state := .stopped },
    clusters := s.clusters.mapVals fun _ c => { c with holder := none, granted := none },
    rowOps := [] }
  abandonDma (modNet s fun n => { n with egress := [] }) (fun _ _ => true) 9

/-- A self-test has failed: the node is in ERROR (R396). -/
def enterError (s : State) (code : Nat) : State :=
  let s := stopAll (zeroiseKeys s)
  let s := { s with sec := { s.sec with mod := .error, failCode := code, testing := false } }
  emit (finishWhere s (fun _ => true) .badState 0 0) (.bmcEvent 0 code)

/-! ## Function level reset (R424) -/

/-- What remains of a function: its assignment and its TDISP state. -/
def freshFunc (e : FuncSt) : FuncSt := { assigned := e.assigned, tdisp := e.tdisp }

/-- One function is reset: rings and registers, its heats, its queues, regions and fault records. -/
def resetFunc (s : State) (p : Port) (f : Func) : State :=
  let dom := (domainOf s p f).getD 0
  let s := setF s p f (freshFunc (getF s p f))
  let s := { s with flights := s.flights.filter fun g => g.remote.isSome || g.port != p || g.func != f,
                    delayed := s.delayed.filter fun g => g.port != p || g.func != f }
  let s := dropHeats s fun h => hCtrlPort h.record == p && h.func == f && h.master.isNone
  let s := resetQueues s fun _ q => q.internal.isNone && q.func == funcCode p f
  let s := revokeRegions s fun r => r.func == funcCode p f
  abandonDma s (fun m r => m / 2 == p.val && rf r 19 14 == dom) 9

/-- A virtual function loses its domain. -/
def unassign (s : State) (p : Port) (f : Func) : State := setF s p f { getF s p f with assigned := none, tdisp := .unlocked }

/-- Virtual functions. -/
def virtualFuncs : List Func := (List.finRange 64).filter fun f => f ≠ 0

/-- A Function Level Reset; that of the physical function also unassigns every virtual function of its port. -/
def flrOp (s : State) (p : Port) (f : Func) : State :=
  let s := resetFunc s p f
  if f = 0 then virtualFuncs.foldl (fun s v => unassign s p v) s else s

/-- The node runs its host interface. -/
def running (s : State) : Bool := s.boot.phase == .window || s.boot.phase == .training || s.boot.phase == .ready

/-- FUNCTION_LEVEL_RESET (R424). -/
def execFunctionLevelReset (p : Port) (f : Func) (s : State) : Res := .next (if running s then flrOp s p f else s)

/-- Every function of a port is reset and its link is down (R501). -/
def portResetOp (s : State) (p : Port) : State :=
  let s := flrOp (virtualFuncs.foldl (fun s v => resetFunc s p v) s) p 0
  let v := getPort s p
  setPort s p { v with linkUp := false, downSince := if v.linkUp then s.ns else v.downSince, vfEnabled := false }

/-- PORT_CONVENTIONAL_RESET (R501). -/
def execPortConventionalReset (p : Port) (s : State) : Res := .next (if running s then portResetOp s p else s)

/-! ## Cold and warm resets (R501) -/

/-- What survives every reset: the fuses, the node's place in its partition, and the model's own bookkeeping. -/
def resetBase (s : State) : State :=
  { State.reset with
    pending := s.pending, out := s.out, free := s.free, nodeNo := s.nodeNo, partition := s.partition,
    sec := { fuses := s.sec.fuses, draws := s.sec.draws, keys := s.sec.keys } }

/-- Reset of everything. The boot starts again once POR_N is high and no rail holds the reset (R495). -/
def coldReset (s : State) (porLow railHold : Bool) : State :=
  { resetBase s with boot :=
      { phase := if porLow || railHold then .held else .crystal, porLow := porLow, railHold := railHold,
        refMode0 := s.boot.refMode0, refMode1 := s.boot.refMode1 } }

/-- A channel after a warm reset: its trained settings stay. -/
def warmChannel (c : ChanSt) : ChanSt :=
  { state := c.state, eyeRd := c.eyeRd, eyeWr := c.eyeWr, levelMv := c.levelMv, refMult := c.refMult, density := c.density,
    clamshell := c.clamshell, block := c.block }

/-- Warm reset: oscillator, PLLs, trained settings and DRAM contents stay, and the debug-opened flag. -/
def warmReset (s : State) : State :=
  let b : Boot :=
    { phase := .selfTest, warm := true, porLow := false, crystal := s.boot.crystal, refPcie0 := s.boot.refPcie0,
      refPcie1 := s.boot.refPcie1, refEth := s.boot.refEth, plls := s.boot.plls, refMode0 := s.boot.refMode0,
      refMode1 := s.boot.refMode1, sideband := s.boot.sideband }
  let r := resetBase s
  { r with boot := b, chans := s.chans.mapVals fun _ c => warmChannel c, bulk := s.bulk,
           sec := { r.sec with debugOpened := s.sec.debugOpened } }

/-- WARM_RESET (R501, R516): in ERROR it is carried out as a cold reset; during a cold boot it has no effect. -/
def warmOp (s : State) (cycles : Nat) : State :=
  if cycles < 25 then s
  else if s.sec.mod = .error then coldReset s s.boot.porLow s.boot.railHold
  else if s.boot.phase = .ready ∨ (s.boot.warm ∧ (booting s ∨ s.boot.phase = .stopped)) then warmReset s
  else s

/-- WARM_RESET (R501, R516). -/
def execWarmReset (cycles : Nat) (s : State) : Res := .next (warmOp s cycles)

/-- POR_ASSERT (R501, R516). -/
def execPorAssert (cycles : Nat) (s : State) : Res := .next (if 25 ≤ cycles then coldReset s true s.boot.railHold else s)

/-- RAIL_OUT_OF_RANGE (R495): more than 8 % for 2 µs. -/
def execRailOutOfRange (_rail : Fin 6) (deviation : Int) (us : Nat) (s : State) : Res :=
  .next (if (80 < deviation ∨ deviation < -80) ∧ 2 ≤ us then coldReset s s.boot.porLow true else s)

/-! ## Node failure (R289) -/

/-- A die-level unit fails for good: the node has failed. -/
def nodeFail (s : State) (source : Nat) : State :=
  let s := { s with boot := { s.boot with failed := true } }
  emit (raiseNode s 0x0001 0x0060 source 0 (otherPayload 0 0 0)) (.bmcEvent 0x0001 0x0060)

/-- DIE_PERSISTENT_FAILURE (R289): in a cluster, the cluster is quarantined. -/
def execDiePersistentFailure (unit : Nat) (s : State) : Res :=
  .next (if unit < 20 then quarantineCluster s unit 1 else if s.boot.failed then s else nodeFail s unit)

end Sys2Proof.Machine
end

