-- ==== Sys2Proof/Machine/Boot.lean ====
section
/-! DEFINITION. Boot: clocks, self-tests, calibration, the calibration window, DRAM training (R259, R264, R394 to R398,
R415, R480 to R506, R516, R517). -/

namespace Sys2Proof.Machine

/-! ## PLLs (R482 to R485) -/

/-- Number of a PLL among the PLLs. -/
def pllKey : Pll → Nat
  | .tpll => 0 | .hpll => 1 | .npll => 2 | .cpllH => 3 | .cpllM => 4 | .cpllL => 5
  | .mpll c => 6 + c.val | .ppll p => 26 + p.val | .epll p => 28 + p.val

/-- A PLL. -/
def getPll (s : State) (k : Nat) : PllSt := s.boot.plls.getD k {}

/-- Replace a PLL. -/
def setPll (s : State) (k : Nat) (v : PllSt) : State := { s with boot := { s.boot with plls := s.boot.plls.set k v } }

/-- The reference of a PLL is there (R480, R483). -/
def hasReference (s : State) : Pll → Bool
  | .ppll p => if p = 0 then s.boot.refPcie0 else s.boot.refPcie1
  | .epll _ => s.boot.refEth
  | _ => s.boot.crystal

/-- Clocks run: the crystal is stable and nothing has stopped the node. -/
def clocksRun (s : State) : Bool := s.boot.crystal && (booting s || s.boot.phase == .ready)

/-- Step 2 is over: the die-level PLLs have locked, and each channel PLL has locked or was given up. -/
def pllsDone (s : State) : Bool :=
  (List.range 6).all (fun k => (getPll s k).locked) && (List.range 20).all fun c => (getPll s (6 + c)).locked || (getPll s (6 + c)).failed

/-- Boot goes on once step 2 is over. -/
def afterPlls (s : State) : State :=
  if s.boot.phase = .plls ∧ pllsDone s then { s with boot := { s.boot with phase := .selfTest } } else s

/-- POR_RELEASE (R481, R499, R516): straps and TEST_MODE are sampled at the rise of POR_N. -/
def execPorRelease (testMode : Bool) (refMode0 refMode1 : Fin 4) (s : State) : Res :=
  .next (if s.boot.porLow then
    { s with boot := { s.boot with
        porLow := false, testMode := testMode, refMode0 := refMode0, refMode1 := refMode1,
        phase := if s.boot.railHold then .held else if testMode then .factoryTest else .crystal } }
  else s)

/-- RAIL_RECOVERED (R495): the internal cold reset ends after 1 ms within range. -/
def execRailRecovered (us : Nat) (s : State) : Res :=
  .next (if s.boot.railHold ∧ 1000 ≤ us then
    { s with boot := { s.boot with
        railHold := false,
        phase := if s.boot.porLow then .held else if s.boot.testMode then .factoryTest else .crystal } }
  else s)

/-- CRYSTAL_STABLE (R483): the management block answers the sideband from here on. -/
def execCrystalStable (cycles : Nat) (s : State) : Res :=
  .next (if s.boot.phase = .crystal ∧ 131072 ≤ cycles then
    { s with boot := { s.boot with crystal := true, sideband := true, phase := .plls } }
  else s)

/-- REFERENCE_PRESENT (R483). -/
def execReferencePresent (ref : RefClk) (cycles : Nat) (ppm : Int) (s : State) : Res :=
  .next (if clocksRun s ∧ 131072 ≤ cycles ∧ -1000 ≤ ppm ∧ ppm ≤ 1000 then
    { s with boot := match ref with
        | .pcie p => if p = 0 then { s.boot with refPcie0 := true } else { s.boot with refPcie1 := true }
        | .eth => { s.boot with refEth := true } }
  else s)

/-- PLL_LOCKED (R483). -/
def execPllLocked (pll : Pll) (cycles : Nat) (s : State) : Res :=
  .next (if clocksRun s ∧ hasReference s pll ∧ 65536 ≤ cycles ∧ !(getPll s (pllKey pll)).failed then
    afterPlls (setPll s (pllKey pll) { getPll s (pllKey pll) with locked := true })
  else s)

/-- A channel is FAILED (R264, R267, R484). -/
def failChannel (s : State) (ch reason : Nat) : State :=
  quarantineCluster (setCh s ch { getCh s ch with state := .failed }) ch reason

/-- A PLL was given up after three attempts (R484). -/
def pllGivenUp (s : State) (pll : Pll) : State :=
  match pll with
  | .ppll _ => s
  | .epll _ => s
  | .mpll c => afterPlls (failChannel s c.val 3)
  | _ => { s with boot := { s.boot with phase := .stopped, failed := true } }

/-- PLL_LOCK_TIMEOUT (R484): restarted, and given up after the third attempt. -/
def execPllLockTimeout (pll : Pll) (s : State) : Res :=
  let v := getPll s (pllKey pll)
  .next (if clocksRun s ∧ hasReference s pll ∧ !v.locked ∧ !v.failed then
    let n := v.attempts + 1
    let s := setPll s (pllKey pll) { v with attempts := n, failed := decide (3 ≤ n) }
    if 3 ≤ n then pllGivenUp s pll else s
  else s)

/-- A PLL loses lock in service (R485). -/
def lockLostOp (s : State) (pll : Pll) : State :=
  let s := setPll s (pllKey pll) {}
  match pll with
  | .mpll c => failChannel s c.val 2
  | .ppll p => portResetOp s p
  | .epll p => ethDownOp s p
  | _ => nodeFail s 38

/-- PLL_LOCK_LOST (R485). -/
def execPllLockLost (pll : Pll) (s : State) : Res :=
  .next (if s.boot.phase = .ready ∧ (getPll s (pllKey pll)).locked then lockLostOp s pll else s)

/-! ## Fuses (R415) -/

/-- The third fuse of a bit with exactly two blown is blown. -/
def mendBit (b : BitVec 3) : BitVec 3 := if popCount b.toNat 3 = 2 then 7 else b

/-- The fuses as boot mends them. -/
def mendFuses (f : Fuses) : Fuses :=
  { f with lcProv := mendBit f.lcProv, lcOper := mendBit f.lcOper, lcRet := mendBit f.lcRet, lcScrap := mendBit f.lcScrap }

/-- The module state after the self-tests pass (R391, R418). -/
def modAfterTests (s : State) : ModState :=
  match lifeCycle s with
  | .operational => .approved
  | .provisioned => if s.sec.debugOpened then .nonApproved else .approved
  | _ => .nonApproved

/-! ## The calibration record (R503 to R506) -/

/-- One step of CRC-32C for one bit, reflected polynomial (R337). -/
def crcBit (c : Nat) : Nat := if c % 2 = 1 then (c / 2) ^^^ 0x82F63B78 else c / 2

/-- CRC-32C over a list of bytes (R337). -/
def crc32c (l : List Nat) : Nat :=
  (l.foldl (fun c b => (List.range 8).foldl (fun c _ => crcBit c) (c ^^^ b)) 0xFFFFFFFF) ^^^ 0xFFFFFFFF

/-- A signed byte lies within a bound. -/
def sByteIn (x bound : Nat) : Bool := decide (-(bound : Int) ≤ sgn 8 x ∧ sgn 8 x ≤ bound)

/-- Every byte of a field lies within a bound. -/
def bytesIn (x n bound : Nat) : Bool := (bytesOf x n).all fun b => sByteIn b bound

/-- A lane of SERDES: cursors, CTLE, and a reserved byte. -/
def laneIn (x : Nat) : Bool := sByteIn (byt x 0 0) 4 && sByteIn (byt x 1 1) 4 && sByteIn (byt x 2 2) 2 && byt x 3 3 == 0

/-- Reserved bits of the record. -/
def calReserved : Nat :=
  maskOf [(4095, 3328), (1023, 896), (767, 752), (511, 192), (159, 152), (143, 139), (135, 133), (131, 130)]

/-- The record passes R505. -/
def calOk (s : State) (r : Nat) : Bool :=
  fld r 31 0 == 0x4C414342 && fld r 47 32 == 1 && fld r 63 48 == 512
    && fld r 191 160 == crc32c (bytesOf (fldSet r 191 160 0) 512)
    && r &&& calReserved == 0
    && (fld r 127 64 == 0 || fld r 127 64 == s.sec.fuses.serial.toNat)
    && bytesIn (fld r 703 512) 24 32 && bytesIn (fld r 751 704) 6 20
    && ((elems 32 (fld r 2047 1024) 32).all laneIn) && bytesIn (fld r 3327 2048) 160 16
    && ((elems 16 (fld r 863 768) 6).all fun x => decide (3072 ≤ x ∧ x ≤ 5120))
    && decide (100 ≤ fld r 879 864 ∧ fld r 879 864 ≤ 10000) && decide (100 ≤ fld r 895 880 ∧ fld r 895 880 ≤ 10000)

/-- The time base fields that the record sets (R39, R503). -/
def calTime (s : State) (r : Nat) : State :=
  let t := rset (rset (rset s.time.record 24 24 (fld r 137 137)) 23 23 (fld r 138 138)) 7 0 (fld r 151 144)
  { s with time := { s.time with record := t } }

/-- A rejected record: factory values, and the reset values of R39 where TIME_CONFIG has set none (R505). -/
def rejectCal (s : State) : State :=
  let s := { s with cal := { state := 2 } }
  if s.boot.timeSet then s
  else { s with time := { s.time with record := merge s.time.record timeRecReset (maskOf [(24, 23), (7, 0)]) } }

/-- A record is applied, or rejected as a whole; the digest is given by the caller. -/
def takeCal (s : State) (r : Nat) (digest : BitVec 384) : State :=
  if calOk s r then calTime { s with cal := { state := 0, record := some (BitVec.ofNat 4096 r), digest := digest } } r
  else rejectCal s

/-! ## The calibration window (R500) -/

/-- The time base is enabled: fabric time starts at 0 with the nominal increment (R37). -/
def enableTime (s : State) : State :=
  { s with time := { s.time with fabric := 0, sub := 0, incr := 0x100000000, enabled := true, epoch := 0 } }

/-- The window closes, or there is none: boot goes on with DRAM training. -/
def startTraining (s : State) : State :=
  let s := enableTime s
  { s with boot := { s.boot with phase := .training } }

/-- CAL_WINDOW_TIMEOUT (R500). -/
def execCalWindowTimeout (elapsedUs : Nat) (s : State) : Res :=
  .next (if s.boot.phase = .window ∧ 300000 ≤ elapsedUs then startTraining s else s)

/-! ## DRAM training (R259, R264, R265) -/

/-- What a channel should hold: the record's population, otherwise channel 0's (R258, R259). -/
def wantedPopulation (s : State) (l : List ChannelTrain) : Nat × Bool :=
  match s.cal.record with
  | some r => (rf r 129 128, rb r 132)
  | none => ((l.getD 0 {}).density % 4, (l.getD 0 {}).clamshell)

/-- The result of training on one channel. -/
def trainChannel (l : List ChannelTrain) (s : State) (ch : Nat) : State :=
  let r := l.getD ch {}
  let c := { getCh s ch with density := r.density % 4, clamshell := r.clamshell }
  let s := setCh s ch { c with block := 0 }
  if (getCh s ch).state = .failed ∨ !r.trained then failChannel s ch 3
  else
    let bad := (r.density % 4, r.clamshell) ≠ wantedPopulation s l
    let s := applyPass (setCh s ch { getCh s ch with state := .trained }) ch 3 r.eyeRd r.eyeWr r.levelMv r.refMult
    if bad ∧ (getCh s ch).state ≠ .failed then setCh s ch { getCh s ch with state := .mismatch } else s

/-- A FAULT of the population check (R259). -/
def populationCheck (s : State) : State :=
  if s.chans.any fun _ c => c.state == .mismatch then raiseNode s 0x0001 0x0015 38 0 0 else s

/-- Identity is derived at boot where FUSE_ROOT is released; a failure raises FAULT IDENTITY (R398, R416). -/
def deriveIdentity (s : State) (ok : Bool) : State :=
  if !rootReleased s then s
  else if ok then { s with sec := { s.sec with identity := true } }
  else raiseNode { s with boot := { s.boot with identityFault := true } } 0x0001 0x0050 42 0 (otherPayload 0 0 0)

/-- A port strapped to the reserved reference mode stays down: PCIE_DEGRADED on the other port (R481). -/
def strapFaults (s : State) : State :=
  let w := fun (p : Port) => eventWord 0x0001 0x0042 (34 + p.val) 0 s.ns (otherPayload 0 p.val 0)
  let s := if s.boot.refMode0 = 3 then deliver s (w 0) (1, 0) else s
  if s.boot.refMode1 = 3 then deliver s (w 1) (0, 0) else s

/-- Mailbox ready: what boot raised is reported now (R499). -/
def becomeReady (s : State) : State :=
  let ws := s.boot.deferred
  let s := { s with boot := { s.boot with phase := .ready, deferred := [] } }
  strapFaults (ws.foldl (fun s w => deliverAll s w bothPf) s)

/-- Steps 7 to 9 of the boot. -/
def trainingDoneOp (s : State) (l : List ChannelTrain) (identityOk : Bool) : State :=
  let s := (List.range 20).foldl (trainChannel l) s
  becomeReady (deriveIdentity (populationCheck s) identityOk)

/-- DRAM_TRAINING_DONE (R259, R264, R398, R499). -/
def execDramTrainingDone (results : List ChannelTrain) (identityOk : Bool) (s : State) : Res :=
  .next (if s.boot.phase = .training then trainingDoneOp s results identityOk else s)

/-! ## Test access port (R517, R418) -/

/-- JTAG_EXTEST (R517): every key is gone and the node stays stopped until a cold reset. -/
def execJtagExtest (s : State) : Res :=
  .next (if s.boot.phase = .held ∨ s.boot.phase = .tripped then s
  else { resetBase s with boot :=
      { phase := .extest, porLow := s.boot.porLow, railHold := s.boot.railHold, refMode0 := s.boot.refMode0,
        refMode1 := s.boot.refMode1 } })

/-- The debug mailbox opens to the test port (R418). -/
def debugIsOpen (s : State) : Bool :=
  match lifeCycle s with
  | .manufacture => true
  | .provisioned => s.sec.debugOpened
  | .returned => s.sec.debugOpened
  | _ => false

/-- JTAG_INSTRUCTION (R517): IDCODE reads a constant; BYPASS and SAMPLE/PRELOAD change nothing in the node. -/
def execJtagInstruction (ins : JtagIns) (s : State) : Res :=
  .next (match ins with
    | .idcode => emit s (.jtag 0x140207C3)
    | .debugMailbox => emit s (.debugPort (debugIsOpen s))
    | _ => s)

/-! ## Thermal trip (R492) -/

/-- THERMAL_TRIP (R492): at 110 °C every clock stops until a cold reset. -/
def execThermalTrip (_sensor : Fin 24) (temp : Int) (s : State) : Res :=
  .next (if 880 ≤ temp ∧ s.boot.phase ≠ .held ∧ s.boot.phase ≠ .tripped then
    emit { resetBase s with boot :=
      { phase := .tripped, trip := true, porLow := s.boot.porLow, railHold := s.boot.railHold, refMode0 := s.boot.refMode0,
        refMode1 := s.boot.refMode1 } } .trip
  else s)

end Sys2Proof.Machine
end

