-- ==== Sys2Proof/Machine/Hash.lean ====
section
/-! DEFINITION. SHA-384 (FIPS 180-4) for measurements, and SHAKE128 (FIPS 202) for the selector's sign matrices (R183,
R390). -/

namespace Sys2Proof.Machine

/-! ## SHA-384 -/

/-- 64-bit word arithmetic. -/
def w64 (x : Nat) : Nat := x % 2 ^ 64

/-- Rotate a 64-bit word right. -/
def rotr64 (x n : Nat) : Nat := x / 2 ^ n + x % 2 ^ n * 2 ^ (64 - n)

/-- The largest `r` below `2^n` for which `p r` holds, built from the top bit down; `p` is downward closed. -/
def largest (p : Nat → Bool) : (n acc : Nat) → Nat
  | 0, acc => acc
  | n + 1, acc => if p (acc + 2 ^ n) then largest p n (acc + 2 ^ n) else largest p n acc

/-- First 64 bits of the fraction of the square root of a prime. -/
def sqrtFrac (p : Nat) : Nat := w64 (largest (fun r => decide (r * r ≤ p * 2 ^ 128)) 70 0)

/-- First 64 bits of the fraction of the cube root of a prime. -/
def cbrtFrac (p : Nat) : Nat := w64 (largest (fun r => decide (r * r * r ≤ p * 2 ^ 192)) 70 0)

/-- The first 80 primes. -/
def primes80 : List Nat := ((List.range 410).filter fun n => decide (2 ≤ n) && (List.range 21).all fun d => decide (d < 2 ∨ n ≤ d) || n % d != 0)

/-- Round constants. -/
def shaK : List Nat := primes80.map cbrtFrac

/-- Initial value of SHA-384: the ninth to sixteenth primes. -/
def shaInit : List Nat := (primes80.drop 8 |>.take 8).map sqrtFrac

/-- Big-endian words of 64 bits from bytes. -/
def beWords : (n : Nat) → List Nat → List Nat
  | 0, _ => []
  | n + 1, l => (l.take 8).foldl (fun a b => a * 256 + b) 0 :: beWords n (l.drop 8)

/-- Extend a message schedule, kept latest word first. -/
def shaExtend : (n : Nat) → List Nat → List Nat
  | 0, w => w
  | n + 1, w =>
    let a := w.getD 14 0
    let b := w.getD 1 0
    let s0 := rotr64 a 1 ^^^ rotr64 a 8 ^^^ (a / 2 ^ 7)
    let s1 := rotr64 b 19 ^^^ rotr64 b 61 ^^^ (b / 2 ^ 6)
    shaExtend n (w64 (w.getD 15 0 + s0 + w.getD 6 0 + s1) :: w)

/-- One round on the eight working words. -/
def shaRound (v : List Nat) (kw : Nat) : List Nat :=
  match v with
  | [a, b, c, d, e, f, g, h] =>
    let s1 := rotr64 e 14 ^^^ rotr64 e 18 ^^^ rotr64 e 41
    let ch := (e &&& f) ^^^ ((2 ^ 64 - 1 - e) &&& g)
    let t1 := h + s1 + ch + kw
    let s0 := rotr64 a 28 ^^^ rotr64 a 34 ^^^ rotr64 a 39
    let maj := (a &&& b) ^^^ (a &&& c) ^^^ (b &&& c)
    [w64 (t1 + s0 + maj), a, b, c, w64 (d + t1), e, f, g]
  | v => v

/-- One 128-byte block. -/
def shaBlock (h : List Nat) (block : List Nat) : List Nat :=
  let w := (shaExtend 64 (beWords 16 block).reverse).reverse
  let v := (shaK.zip w).foldl (fun v kw => shaRound v (kw.1 + kw.2)) h
  (h.zip v).map fun x => w64 (x.1 + x.2)

/-- All blocks of a padded message. -/
def shaBlocks : (n : Nat) → (h l : List Nat) → List Nat
  | 0, h, _ => h
  | n + 1, h, l => shaBlocks n (shaBlock h (l.take 128)) (l.drop 128)

/-- The big-endian bytes of a number. -/
def beBytes (x n : Nat) : List Nat := (bytesOf x n).reverse

/-- SHA-384 of bytes, as the number whose byte 0 is the digest's first byte. -/
def sha384 (l : List Nat) : Nat :=
  let n := l.length
  let pad := (127 + 128 - (n + 16) % 128) % 128
  let m := l ++ [0x80] ++ List.replicate pad 0 ++ beBytes (8 * n) 16
  ofBytes ((shaBlocks ((n + 17 + pad) / 128) shaInit m).take 6 |>.flatMap fun w => beBytes w 8)

/-- SHA-384 of the first `n` bytes of a number. -/
def digestOf (x n : Nat) : BitVec 384 := BitVec.ofNat 384 (sha384 (bytesOf x n))

/-! ## SHAKE128 -/

/-- Rotate a 64-bit lane left. -/
def rotl64 (x n : Nat) : Nat := if n = 0 then x else rotr64 x (64 - n)

/-- Bit of the round-constant register after `t` steps: x^t mod x^8 + x^6 + x^5 + x^4 + 1. -/
def keccakRc : (t : Nat) → (r : Nat) → Nat
  | 0, r => r % 2
  | t + 1, r =>
    let r := 2 * r
    keccakRc t (if 256 ≤ r then (r - 256) ^^^ 0x71 else r)

/-- Round constant of a round. -/
def keccakRound (i : Nat) : Nat := (List.range 7).foldl (fun c j => c + keccakRc ((j + 7 * i) % 255) 1 * 2 ^ (2 ^ j - 1)) 0

/-- Rotation offsets by lane x + 5y, from the walk (x, y) → (y, 2x + 3y), with the steps left. -/
def keccakOffsets : (left t x y : Nat) → List (Nat × Nat)
  | 0, _, _, _ => []
  | n + 1, t, x, y => (x + 5 * y, (t + 1) * (t + 2) / 2 % 64) :: keccakOffsets n (t + 1) y ((2 * x + 3 * y) % 5)

/-- Rotation offset of each of the 25 lanes. -/
def keccakRot : List Nat :=
  let l := keccakOffsets 24 0 1 0
  (List.range 25).map fun k => ((l.find? fun e => e.1 == k).map (·.2)).getD 0

/-- The five steps of one round of Keccak-f[1600]. -/
def keccakStep (rot : List Nat) (a : List Nat) (rc : Nat) : List Nat :=
  let col := (List.range 5).map fun x => (List.range 5).foldl (fun c y => c ^^^ a.getD (x + 5 * y) 0) 0
  let th := (List.range 5).map fun x => col.getD ((x + 4) % 5) 0 ^^^ rotl64 (col.getD ((x + 1) % 5) 0) 1
  let a := (List.range 25).map fun k => rotl64 (a.getD k 0 ^^^ th.getD (k % 5) 0) (rot.getD k 0)
  let b := (List.range 25).map fun k =>
    let x := k % 5
    let y := k / 5
    a.getD ((x + 3 * y) % 5 + 5 * x) 0
  (List.range 25).map fun k =>
    let x := k % 5
    let y := k / 5
    let v := b.getD k 0 ^^^ ((2 ^ 64 - 1 - b.getD ((x + 1) % 5 + 5 * y) 0) &&& b.getD ((x + 2) % 5 + 5 * y) 0)
    if k = 0 then v ^^^ rc else v

/-- Keccak-f[1600]. -/
def keccakF (a : List Nat) : List Nat :=
  let rot := keccakRot
  (List.range 24).foldl (fun a i => keccakStep rot a (keccakRound i)) a

/-- Bytes squeezed from a state, 168 at a time. -/
def squeeze : (blocks : Nat) → List Nat → List Nat
  | 0, _ => []
  | n + 1, a => ((a.take 21).flatMap fun w => bytesOf w 8) ++ squeeze n (keccakF a)

/-- SHAKE128 of a message shorter than 168 bytes: the first `n` bytes of output. -/
def shake128 (msg : List Nat) (n : Nat) : List Nat :=
  let m := msg ++ [0x1F] ++ List.replicate (167 - msg.length) 0
  let m := m.set 167 (m.getD 167 0 ^^^ 0x80)
  let a := (List.range 25).map fun k => if k < 21 then ofBytes ((m.drop (8 * k)).take 8) else 0
  (squeeze (ceilDiv n 168) (keccakF a)).take n

end Sys2Proof.Machine
end

