-- ==== Sys2Proof/Machine/Calib.lean ====
section
/-! DEFINITION. The end of the self-tests, the board calibration record, and its commands (R394 to R396, R476, R497,
R500, R505, R506). -/

namespace Sys2Proof.Machine

/-- The record read from the flash at boot step 5 (R497, R505). -/
def flashRecord (s : State) (f : Flash) : State :=
  if !f.dirOk ∨ f.recLen = 0 then { s with cal := { state := 1 } }
  else if f.recLen = 512 then takeCal s (f.record % 2 ^ 4096) (digestOf (f.record % 2 ^ 4096) 512)
  else rejectCal s

/-- The window opens: no valid record, or the record asks for it (R500). -/
def windowOpens (s : State) : Bool := match s.cal.record with | some r => rb r 136 | none => true

/-- Boot steps 3 to 6 (R499): the self-tests have ended. -/
def bootTests (s : State) (failed : Nat) (f : Flash) : State :=
  if failed ≠ 0 then
    let s := enterError s failed
    { s with boot := { s.boot with phase := .stopped } }
  else
    let s := { s with sec := { s.sec with fuses := mendFuses s.sec.fuses } }
    let s := flashRecord { s with sec := { s.sec with mod := modAfterTests s } } f
    if windowOpens s then { s with boot := { s.boot with phase := .window, windowed := true } } else startTraining s

/-- SELFTEST ends (R395, R459). -/
def onDemandTests (s : State) (failed : Nat) : State :=
  let s := { s with sec := { s.sec with testing := false } }
  if failed = 0 then finishWhere s (fun g => g.key == .selftest) .ok 0 0
  else enterError (finishWhere s (fun g => g.key == .selftest) .badState failed 0) failed

/-- SELFTEST_COMPLETE (R394, R395, R396). -/
def execSelftestComplete (failed : Fin 8) (flash : Flash) (s : State) : Res :=
  .next (if s.boot.phase = .selfTest then bootTests s failed.val flash
  else if s.boot.phase = .ready ∧ s.sec.testing then onDemandTests s failed.val
  else s)

/-- The row of CAL_LOAD (R476, R500). -/
def rowCalLoad : HRow :=
  { fixedRow 0x0D01 12 [(0, 7), (8, 11)] with d0 := true }

/-- CAL_LOAD: its own part (R476, R500). -/
def bodyCalLoad (d : Desc) (s : State) : State × Ans :=
  let len := byt d.body 8 11
  failIf (s.boot.phase != .window) .badState s
    (if len = 0 then (startTraining s, .acceptDone .ok)
     else match hostStatus d.env.host with
       | some .badField => (startTraining (hostFault s d), .acceptDone .badField)
       | some st => (hostFault s d, .acceptDone st)
       | none =>
         let r := hostData d % 2 ^ 4096
         let s := if len = 512 then takeCal s r (digestOf r 512) else rejectCal s
         (startTraining s, .acceptDone (if s.cal.state = 0 then .ok else .badField)))

/-- CAL_LOAD (R476, R500): taken only in the window, which it closes. -/
def execCalLoad (d : Desc) (s : State) : Res := runHuavo rowCalLoad bodyCalLoad d s

/-- The row of CAL_QUERY (R476). -/
def rowCalQuery : HRow :=
  fixedRow 0x0D02 8 [(0, 7)]

/-- CAL_QUERY: its own part (R476). -/
def bodyCalQuery (d : Desc) (s : State) : State × Ans :=
  failIf (!outOk (byt d.body 0 7)) .badField s
    (s, .done s.cal.state 0 (byt d.body 0 7) 48 s.cal.digest.toNat)

/-- CAL_QUERY (R476). -/
def execCalQuery (d : Desc) (s : State) : Res := runHuavo rowCalQuery bodyCalQuery d s

/-- The row of SELFTEST (R395, R459). -/
def rowSelftest : HRow :=
  { opcode := 0x0202, d0 := true }

/-- SELFTEST: its own part (R395, R459). -/
def bodySelftest (_ : Desc) (s : State) : State × Ans :=
  failIf s.sec.testing .busy s ({ s with sec := { s.sec with testing := true } }, .accept .selftest)

/-- SELFTEST (R395, R459). -/
def execSelftest (d : Desc) (s : State) : Res := runHuavo rowSelftest bodySelftest d s

end Sys2Proof.Machine
end

