-- ==== Sys2Proof/Machine/NetCmds.lean ====
section
/-! DEFINITION. Huavo commands of group 0x09xx: ports, addresses, protection domains, regions, queues, completion queues,
shapers, policers, job keys (R294, R295, R303 to R310, R333, R336, R339, R347, R470). -/

namespace Sys2Proof.Machine

/-! ## NET_CONFIG (R294, R295, R347) -/

/-- Row of NET_CONFIG: the payload's KIND decides its length and fields. -/
def rowNetConfig : HRow :=
  { opcode := 0x0901, d0 := true, ptr := true,
    lenOk := fun p n => n == (if byt p 0 0 = 0 then 56 else 16),
    named := fun p _ =>
      if byt p 0 0 = 0 then [(15, 0), (128 + 319, 128 + 60), (128, 128)] else [(15, 0), (63, 32), (127, 64)] }

/-- Locked fields of the port record. -/
def ethLocked : Nat := maskOf [(319, 80)]

/-- Fields of the port record that a command writes. -/
def ethWritable : Nat := maskOf [(319, 62), (0, 0)]

/-- Write a port record: ENABLE brings the port up or takes it down. -/
def netPort (s : State) (p : Port) (r : BitVec 320) : State × Ans :=
  let e := ethOf s p
  failIf (rb e.record 0 && differ e.record r ethLocked) .busy s
    (let e' := { e with record := merge e.record r ethWritable }
     let s := setEth s p e'
     if rb e.record 0 && !rb r 0 then (ethDownOp s p, .done)
     else if !rb e.record 0 && rb r 0 then (setEth s p { e' with link := 1 }, .done)
     else (s, .done))

/-- Entries of a table read from a host buffer, `bits` wide, as (index, value). -/
def netEntries (first n bits data : Nat) : List (Nat × Nat) :=
  (List.range n).map fun i => (first + i, data / 2 ^ (bits * i) % 2 ^ bits)

/-- NET_CONFIG, whichever KIND its payload names. -/
def netConfigBody (d : Desc) (s : State) : State × Ans :=
  let kind := byt d.body 0 0
  let p := byt d.body 1 1
  let first := byt d.body 4 5
  let n := byt d.body 6 7
  if kind = 0 then
    failIf (decide (1 < p)) .badField s (netPort s (if p = 0 then 0 else 1) (BitVec.ofNat 320 (byt d.body 16 55)))
  else
    failIf (decide (2 < kind ∨ 4095 < first ∨ 4096 < first + n)) .badField s
      (failIf (placeOn s) .badState s
        (if kind = 1 then
          (modNet s fun t => { t with addrs := (netEntries first n 256 (hostData d)).foldl (fun m e =>
            if e.2 = 0 then m.erase e.1 else m.set e.1 (BitVec.ofNat 256 e.2)) t.addrs }, .done)
        else
          ({ s with place := { s.place with
              locality := (netEntries first n 32 (hostData d)).foldl (fun m e => m.set e.1 (BitVec.ofNat 32 e.2))
                s.place.locality } }, .done)))

/-- NET_CONFIG, KIND 0 (R294). -/
def execNetConfigPort (d : Desc) (s : State) : Res := runHuavo rowNetConfig netConfigBody d s

/-- NET_CONFIG, KIND 1 (R295). -/
def execNetConfigAddresses (d : Desc) (s : State) : Res := runHuavo rowNetConfig netConfigBody d s

/-- NET_CONFIG, KIND 2 (R347). -/
def execNetConfigLocality (d : Desc) (s : State) : Res := runHuavo rowNetConfig netConfigBody d s

/-! ## Protection domains (R303) -/

/-- A transport object of a domain is visible from a descriptor's domain: domain 0 sees all (R453). -/
def seesDomain (d : Desc) (owner : Nat) : Bool := d.domain == 0 || owner == d.domain.toNat

/-- A protection domain that the descriptor may see. -/
def visiblePd (d : Desc) (s : State) (pd : Nat) : Option PdSt := (s.net.pds.get? pd).filter fun x => seesDomain d x.domain

/-- The row of PD_CREATE (R303). -/
def rowPdCreate : HRow :=
  fixedRow 0x0902 2 [(0, 1)]

/-- PD_CREATE: its own part (R303). -/
def bodyPdCreate (d : Desc) (s : State) : State × Ans :=
  let pd := byt d.body 0 1
  failIf (decide (4095 < pd)) .badField s
    (failIf (s.net.pds.has pd) .badState s
      (modNet s fun t => { t with pds := t.pds.set pd { domain := d.domain.toNat } }, .done))

/-- PD_CREATE (R303). -/
def execPdCreate (d : Desc) (s : State) : Res := runHuavo rowPdCreate bodyPdCreate d s

/-- Some queue or region belongs to the protection domain. -/
def pdInUse (s : State) (pd : Nat) : Bool :=
  (s.net.queues.any fun k q => decide (k < 65536) && q.internal.isNone && qPd q == pd) || s.net.regions.any fun _ r => gPd r == pd

/-- The row of PD_DESTROY (R303). -/
def rowPdDestroy : HRow :=
  fixedRow 0x0903 2 [(0, 1)]

/-- PD_DESTROY: its own part (R303). -/
def bodyPdDestroy (d : Desc) (s : State) : State × Ans :=
  let pd := byt d.body 0 1
  failIf (decide (4095 < pd)) .badField s
    (failIf ((visiblePd d s pd).isNone || pdInUse s pd) .badState s
      (modNet s fun t => { t with pds := t.pds.erase pd }, .done))

/-- PD_DESTROY (R303): its job keys are zeroised with it. -/
def execPdDestroy (d : Desc) (s : State) : Res := runHuavo rowPdDestroy bodyPdDestroy d s

/-! ## Regions (R304, R305) -/

/-- The first free number from `i` on, wrapping below `n`. -/
def freshFrom {α : Type} (m : Map α) (n : Nat) : (i fuel : Nat) → Option Nat
  | _, 0 => none
  | i, fuel + 1 => if m.has (i % n) then freshFrom m n (i + 1) fuel else some (i % n)

/-- A free number below `n`, the Puppeteer's choice (assumption 3). -/
def chooseFree {α : Type} (s : State) (m : Map α) (n : Nat) : Option Nat :=
  if n ≤ m.size then none else freshFrom m n (freeVal s % n) (m.size + 1)

/-- Fields of a region record out of range (R304). -/
def regionBad (s : State) (r : BitVec 256) : Bool :=
  let kind := rf r 131 130
  rf r 191 144 == 0 || decide (2 ≤ kind) || (kind == 0 && rb r 127)
    || (kind == 1 && decide (windowBytes s < rf r 255 192 + rf r 191 144))

/-- The row of REGION_REGISTER (R304, R305). -/
def rowRegionRegister : HRow :=
  { opcode := 0x0904, lenOk := fun _ n => n == 32, named := fun _ _ => [(255, 102)] }

/-- REGION_REGISTER: its own part (R304, R305). -/
def bodyRegionRegister (d : Desc) (s : State) : State × Ans :=
  let r := BitVec.ofNat 256 (byt d.body 0 31)
  failIf (visiblePd d s (rf r 143 132)).isNone .badState s
    (failIf (regionBad s r) .badField s
      (match chooseFree s s.net.regions 262144 with
       | none => (s, .fail .exhausted)
       | some i =>
         let keep := BitVec.ofNat 256 (r.toNat &&& maskOf [(255, 126)])
         let v : RegionSt :=
           { record := keep, func := funcCode d.port d.func, domain := ((s.net.pds.get? (rf r 143 132)).map (·.domain)).getD 0 }
         let s := useFree s
         (modNet s fun t => { t with regions := t.regions.set i v }, .done (regionKey s i))))

/-- REGION_REGISTER (R304, R305). -/
def execRegionRegister (d : Desc) (s : State) : Res := runHuavo rowRegionRegister bodyRegionRegister d s

/-- The row of REGION_REVOKE (R305, R331). -/
def rowRegionRevoke : HRow :=
  fixedRow 0x0905 4 [(0, 3)]

/-- REGION_REVOKE: its own part (R305, R331). -/
def bodyRegionRevoke (d : Desc) (s : State) : State × Ans :=
  let key := byt d.body 0 3
  match (regionAt s key).filter fun r => seesDomain d r.domain with
  | none => (s, .fail .badState)
  | some r =>
    failIf r.revoking .busy s
      (modNet s fun t => { t with regions := t.regions.set (fld key 17 0) { r with revoking := true } },
        .accept (.region (fld key 17 0)))

/-- REGION_REVOKE (R305, R331): the mark is set at once, the command ends when placements have drained. -/
def execRegionRevoke (d : Desc) (s : State) : Res := runHuavo rowRegionRevoke bodyRegionRevoke d s

/-! ## Work queues (R307, R308) -/

/-- A queue number lies in the range of the domain's slice, or outside every slice's range for domain 0 (R307). -/
def queueInRange (s : State) (dom k : Nat) : Bool :=
  match sliceOf s dom with
  | some sl =>
    let r := (getS s sl).record
    decide (rf r 90 75 ≤ k ∧ k < rf r 90 75 + rf r 107 91)
  | none => outsideSlices s k

/-- A field of a work queue record out of range (R307). -/
def queueBad (dom : Nat) (r : BitVec 256) : Bool :=
  let log := fun (n : Nat) => decide (6 ≤ n ∧ n ≤ 15)
  rf r 255 192 % 4096 != 0 || rf r 191 128 % 4096 != 0 || !log (rf r 73 70) || !(rf r 69 66 == 0 || log (rf r 69 66))
    || rf r 53 52 == 3 || (rf r 53 52 == 2 && dom != 0) || rf r 45 44 == 0 || rf r 43 40 == 0 || decide (rf r 35 28 < 4)

/-- Fields of the work queue record: those a command writes, and those that are locked while enabled. -/
def queueWritable : Nat := maskOf [(255, 28)]
def queueLocked : Nat := maskOf [(255, 66)]

/-- A payload of QUEUE_CREATE and QUEUE_MODIFY. -/
def rowQueue (opcode : Nat) : HRow :=
  { opcode := opcode, lenOk := fun _ n => n == 48, named := fun _ _ => [(15, 0), (128 + 255, 128 + 18)] }

/-- A host's queue that the descriptor may see: internal queues are no host's. -/
def visibleQueue (d : Desc) (s : State) (k : Nat) : Option QueueSt :=
  (getWq s k).filter fun q => q.internal.isNone && seesDomain d q.domain

/-- The protection domain of the record lacks a job key that its sealed domain asks for (R308). -/
def lacksKey (s : State) (p : PdSt) : Bool := sealedDomain s p.domain && p.key0.isNone && p.key1.isNone

/-- The row of QUEUE_CREATE (R308). -/
def rowQueueCreate : HRow :=
  rowQueue 0x0910

/-- QUEUE_CREATE: its own part (R308). -/
def bodyQueueCreate (d : Desc) (s : State) : State × Ans :=
  let k := byt d.body 0 1
  let r := BitVec.ofNat 256 (byt d.body 16 47)
  let r := BitVec.ofNat 256 (r.toNat &&& queueWritable)
  match visiblePd d s (rf r 99 88), (s.net.cqs.get? (rf r 87 74)).filter fun c => seesDomain d c.domain with
  | some p, some _ =>
    failIf (queueBad p.domain r || !queueInRange s p.domain k) .badField s
      (failIf (((getWq s k).any fun q => q.state != .reset || q.internal.isSome || !seesDomain d q.domain) || lacksKey s p)
        .badState s
        (setWq s k { record := r, func := funcCode d.port d.func, domain := p.domain }, .done))
  | _, _ => (s, .fail .badState)

/-- QUEUE_CREATE (R308). -/
def execQueueCreate (d : Desc) (s : State) : Res := runHuavo rowQueueCreate bodyQueueCreate d s

/-- The row of QUEUE_MODIFY (R307, R447). -/
def rowQueueModify : HRow :=
  rowQueue 0x0911

/-- QUEUE_MODIFY: its own part (R307, R447). -/
def bodyQueueModify (d : Desc) (s : State) : State × Ans :=
  let k := byt d.body 0 1
  let r := BitVec.ofNat 256 (byt d.body 16 47)
  match visibleQueue d s k with
  | none => (s, .fail .badState)
  | some q =>
    failIf (queueBad q.domain r) .badField s
      (failIf (q.state != .reset && differ q.record r queueLocked) .busy s
        (setWq s k { q with record := merge q.record r queueWritable }, .done))

/-- QUEUE_MODIFY (R307, R447): locked fields may change only in RESET. -/
def execQueueModify (d : Desc) (s : State) : Res := runHuavo rowQueueModify bodyQueueModify d s

/-- The row of QUEUE_RESET (R308). -/
def rowQueueReset : HRow :=
  fixedRow 0x0912 2 [(0, 1)]

/-- QUEUE_RESET: its own part (R308). -/
def bodyQueueReset (d : Desc) (s : State) : State × Ans :=
  let k := byt d.body 0 1
  match visibleQueue d s k with
  | none => (s, .fail .badState)
  | some q =>
    failIf (q.state != .error) .badState s (resetQueues s fun j _ => j == k, .done)

/-- QUEUE_RESET (R308). -/
def execQueueReset (d : Desc) (s : State) : Res := runHuavo rowQueueReset bodyQueueReset d s

/-- The row of QUEUE_DESTROY (R308). -/
def rowQueueDestroy : HRow :=
  fixedRow 0x0913 2 [(0, 1)]

/-- QUEUE_DESTROY: its own part (R308). -/
def bodyQueueDestroy (d : Desc) (s : State) : State × Ans :=
  let k := byt d.body 0 1
  match visibleQueue d s k with
  | none => (s, .fail .badState)
  | some q =>
    failIf (q.state == .ready) .badState s
      (modNet s fun t => { t with queues := t.queues.erase k, egress := t.egress.filter fun e => e.queue != k }, .done)

/-- QUEUE_DESTROY (R308). -/
def execQueueDestroy (d : Desc) (s : State) : Res := runHuavo rowQueueDestroy bodyQueueDestroy d s

/-! ## Completion queues (R310) -/

/-- A completion queue number lies in the range of the domain's slice, or outside every slice's range. -/
def cqInRange (s : State) (dom k : Nat) : Bool :=
  match sliceOf s dom with
  | some sl =>
    let r := (getS s sl).record
    decide (rf r 59 46 ≤ k ∧ k < rf r 59 46 + rf r 74 60)
  | none => !(s.slices.any fun _ v => v.state != .disabled &&
      (decide (rf v.record 59 46 ≤ k) && decide (k < rf v.record 59 46 + rf v.record 74 60)))

/-- The row of CQ_CREATE (R310). -/
def rowCqCreate : HRow :=
  fixedRow 0x0914 16 [(0, 1), (2, 2), (4, 5), (8, 15)]

/-- CQ_CREATE: its own part (R310). -/
def bodyCqCreate (d : Desc) (s : State) : State × Ans :=
  let k := byt d.body 0 1
  let log := byt d.body 2 2
  let vec := byt d.body 4 5
  let base := byt d.body 8 15
  failIf (decide (16383 < k ∨ log < 6 ∨ 16 < log ∨ vectorsOf d.func ≤ vec ∨ base % 4096 ≠ 0)
      || !cqInRange s d.domain.toNat k) .badField s
    (failIf (s.net.cqs.has k) .badState s
      (let c : CqSt := { base := base, log2 := log, vector := vec, port := d.port, func := d.func, domain := d.domain.toNat }
       (modNet s fun t => { t with cqs := t.cqs.set k c }, .done)))

/-- CQ_CREATE (R310): created disarmed. -/
def execCqCreate (d : Desc) (s : State) : Res := runHuavo rowCqCreate bodyCqCreate d s

/-- The row of CQ_DESTROY (R310). -/
def rowCqDestroy : HRow :=
  fixedRow 0x0915 2 [(0, 1)]

/-- CQ_DESTROY: its own part (R310). -/
def bodyCqDestroy (d : Desc) (s : State) : State × Ans :=
  let k := byt d.body 0 1
  failIf (decide (16383 < k)) .badField s
    (match (s.net.cqs.get? k).filter fun c => seesDomain d c.domain with
     | none => (s, .fail .badState)
     | some _ =>
       failIf (s.net.queues.any fun j q => decide (j < 65536) && q.internal.isNone && qCq q == k) .badState s
         (modNet s fun t => { t with cqs := t.cqs.erase k }, .done))

/-- CQ_DESTROY (R310). -/
def execCqDestroy (d : Desc) (s : State) : Res := runHuavo rowCqDestroy bodyCqDestroy d s

/-! ## Shapers, policers, job keys -/

/-- A shaper record out of range (R333). -/
def shaperBad (r : Nat) : Bool := decide (1600000 < fld r 63 43)

/-- The row of SHAPER_SET (R333). -/
def rowShaperSet : HRow :=
  { opcode := 0x0920, d0 := true, lenOk := fun _ n => n == 16, named := fun _ _ => [(15, 0), (127, 64 + 21)] }

/-- SHAPER_SET: its own part (R333). -/
def bodyShaperSet (d : Desc) (s : State) : State × Ans :=
  let k := byt d.body 0 1
  let r := byt d.body 8 15
  failIf (decide (k = 0 ∨ 4095 < k) || shaperBad r) .badField s
    (setSh s k { getSh s k with record := BitVec.ofNat 64 r }, .done)

/-- SHAPER_SET (R333). -/
def execShaperSet (d : Desc) (s : State) : Res := runHuavo rowShaperSet bodyShaperSet d s

/-- The row of DOMAIN_NET_SET (R333, R336). -/
def rowDomainNetSet : HRow :=
  { opcode := 0x0921, d0 := true, lenOk := fun _ n => n == 24,
    named := fun _ _ => [(7, 0), (127, 64 + 21), (159, 128), (191, 160)] }

/-- DOMAIN_NET_SET: its own part (R333, R336). -/
def bodyDomainNetSet (d : Desc) (s : State) : State × Ans :=
  let n := byt d.body 0 0
  let r := byt d.body 8 15
  let rate := byt d.body 16 19
  let depth := byt d.body 20 23
  failIf (decide (63 < n ∨ depth = 0 ∨ 1048575 < depth) || shaperBad r) .badField s
    (let p := policerNow s n
     let s := setSh s (4096 + n) { getSh s (4096 + n) with record := BitVec.ofNat 64 r }
     let p := { p with rate := rate, depth := depth, tokens := min p.tokens (depth * 8000) }
     (modNet s fun t => { t with policers := t.policers.set n p }, .done))

/-- DOMAIN_NET_SET (R333, R336): the tokens are cut to the new DEPTH at once. -/
def execDomainNetSet (d : Desc) (s : State) : Res := runHuavo rowDomainNetSet bodyDomainNetSet d s

/-- A phase is in use: some queue's message under it is not yet acknowledged (R411). -/
def phaseInUse (s : State) (pd phase : Nat) : Bool :=
  s.net.queues.any fun k q => decide (k < 65536) && qPd q == pd && q.internal.isNone
    && q.sent.any fun _ m => m.phase == phase && !m.whole

/-- The row of JOB_KEY_INSTALL (R339, R411). -/
def rowJobKeyInstall : HRow :=
  { opcode := 0x0922, role := .keyHolder, lenOk := fun _ n => n == 48,
    named := fun _ _ => [(15, 0), (16, 16), (383, 128)] }

/-- JOB_KEY_INSTALL: its own part (R339, R411). -/
def bodyJobKeyInstall (d : Desc) (s : State) : State × Ans :=
  let pd := byt d.body 0 1
  let phase := fld d.body 16 16
  failIf (decide (4095 < pd)) .badField s
    (match visiblePd d s pd with
     | none => (s, .fail .badState)
     | some p =>
       failIf (!domPortOk d s p.domain) .notOwner s <|
       failIf (!sealedDomain s p.domain) .badField s
         (failIf (((if phase = 1 then p.key1 else p.key0).isSome) && phaseInUse s pd phase) .badState s
           (let (k, s) := newKey s
            let p := { p with phase := phase, key0 := if phase = 0 then some k else p.key0,
                              key1 := if phase = 1 then some k else p.key1 }
            (modNet s fun t => { t with pds := t.pds.set pd p }, .done))))

/-- JOB_KEY_INSTALL (R339, R411): the new phase is used for sending from here on. -/
def execJobKeyInstall (d : Desc) (s : State) : Res := runHuavo rowJobKeyInstall bodyJobKeyInstall d s

end Sys2Proof.Machine
end

