-- ==== Sys2Proof/Machine/Sketch.lean ====
section
/-! DEFINITION. Projections, page sketches, landmark keys and re-rank scores of the selector (R183 to R187). -/

namespace Sys2Proof.Machine

/-- Row i of the ±1 matrix for a seed: its sign bits as a number, bit d set where the entry is −1 (R183). `first` is 0x47
for sketches, 0x4C for landmarks. -/
def signRow (first seed dim i : Nat) : Nat :=
  ofBytes (shake128 [first, seed % 256, seed / 256 % 256, i % 256, i / 256 % 256] (ceilDiv dim 8))

/-- Σ ± x over a row of signs, in ascending order from +0, each addition rounded. -/
def signSum (row : Nat) (scale : Num) (l : List Num) : Num :=
  (l.zipIdx.foldl (fun a e => add32 a (let y := e.1.mul scale; if bit row e.2 then y.neg else y)) Num.zero)

/-- A vector is negative. -/
def isNeg (x : Num) : Bool := x.lt Num.zero

/-- The sketch of a vector: bit i is set when the i-th projection is negative (R184). -/
def sketchOf (seed bits : Nat) (l : List Num) : Nat :=
  maskFrom ((List.range bits).filter fun i => isNeg (signSum (signRow 0x47 seed l.length i) Num.one l))

/-- Element-wise FP32 sum of vectors in order, from +0. -/
def sumRows (dim : Nat) (rows : List (List Num)) : List Num :=
  rows.foldl (fun a r => (a.zip r).map fun e => add32 e.1 e.2) (List.replicate dim Num.zero)

/-- Rows all of whose elements are finite (R164). -/
def finiteRows (rows : List (List Num)) : List (List Num) := rows.filter fun r => r.all Num.isFinite

/-- The page sketch of key rows in ascending offset (R184). -/
def pageSketch (seed dim : Nat) (rows : List (List Num)) : Nat :=
  match finiteRows rows with
  | [] => 0
  | f => sketchOf seed 256 (sumRows dim f)

/-- Squared norm in FP32, in ascending order. -/
def normSq (l : List Num) : Num := l.foldl (fun a x => add32 a (mul32 x x)) Num.zero

/-- The four rows of largest norm, in descending norm, ties to the lowest offset; the last chosen fills up (R185). -/
def topFour (rows : List (List Num)) : List (List Num) := pick (rows.map fun r => (normSq r, r)) 4 []
where
  /-- choose and remove the largest, `n` times; with none left, repeat the last -/
  pick (l : List (Num × List Num)) : (n : Nat) → (last : List Num) → List (List Num)
    | 0, _ => []
    | n + 1, last =>
      match l with
      | [] => last :: pick l n last
      | x :: t =>
        let best := t.foldl (fun (b : Num × List Num) y => if b.1.lt y.1 then y else b) x
        best.2 :: pick (l.erase best) n best.2

/-- The projection Λ of a vector: 128 elements in FP32 (R183, R185). -/
def landmarkOf (seed : Nat) (l : List Num) : List Num :=
  (List.range 128).map fun i => signSum (signRow 0x4C seed l.length i) (.fin 1 (-4)) l

/-- A vector as the re-rank unit compares it: itself, or its projection when it is longer than 128 (R185, R186). -/
def rankVector (seed : Nat) (l : List Num) : List Num := if l.length ≤ 128 then l else landmarkOf seed l

/-- Four landmark records of 128 bytes (R185). -/
def pageLandmarks (seed : Nat) (rows : List (List Num)) : Nat :=
  match finiteRows rows with
  | [] => 0
  | f => packElems 1024 ((topFour f).map fun r => packElems 8 ((rankVector seed r).map (encodeElem 1)))

/-- The re-rank score of landmark records for the heads of a query (R187). -/
def rankScore (landmarks : Nat) (heads : List (List Num)) : Num :=
  let recs := (elems 1024 landmarks 4).map fun r => (elems 8 r 128).map fun x => (decodeElem 1 x, Num.one)
  let dots := recs.flatMap fun r => heads.map fun h => dotTiles (h.map fun x => (x, Num.one)) r
  match dots with
  | [] => Num.zero
  | x :: t => t.foldl Num.max x

end Sys2Proof.Machine
end

