-- ==== Sys2Proof/Machine/Thermal.lean ====
section
/-! DEFINITION. The thermal and power response (R444, R487 to R491). -/

namespace Sys2Proof.Machine

/-- Board offset of a sensor, in 0.125 °C (R503). -/
def thermalOffset (s : State) (n : Nat) : Int :=
  match s.cal.record with | some r => sgn 8 (rf r (519 + 8 * n) (512 + 8 * n)) | none => 0

/-- The effective power cap in W (R444): the lowest in force. -/
def effectiveCap (s : State) : Nat :=
  let t := s.thermal
  if t.hostIgnore then t.powerCap
  else min t.powerCap (min (s.port0.cap.getD 360) (s.port1.cap.getD 360))

/-- The hottest sensor with its reading, the lowest number winning ties. -/
def hottest (l : List Int) : Nat × Int :=
  (l.zipIdx).foldl (fun (b : Nat × Int) x => if b.2 < x.1 then (x.2, x.1) else b) (0, l.headD 0)

/-- Both of the last two closed epochs exceeded the cap (R489). -/
def overCap (s : State) : Bool :=
  match s.thermal.powers with
  | a :: b :: _ => decide (effectiveCap s * 1000 < a ∧ effectiveCap s * 1000 < b)
  | _ => false

/-- Every epoch kept has stayed below 90 % of the cap; at 90 % counts too where `le` is set. -/
def underCap (s : State) (le : Bool) : Bool :=
  s.thermal.powers.all fun p => if le then decide (10 * p ≤ 9000 * effectiveCap s) else decide (10 * p < 9000 * effectiveCap s)

/-- Clusters of shared slices. -/
def sharedClusters (s : State) : List Nat :=
  (List.range 20).filter fun c => match clusterSlice s c with | some sl => !sliceSealed s sl | none => false

/-- The CCLK setting a cluster of a shared slice would run at for a step level (R487). -/
def settingAt (s : State) (c level : Nat) : Nat :=
  match clusterSlice s c with | some sl => max (rf (getS s sl).record 45 44) level | none => level

/-- Functions that receive THERMAL_STEP: both physical ones, and those of shared domains (R440). -/
def stepFuncs (s : State) : List (Port × Func) :=
  allFuncs.filter fun pf => pf.2 == 0 || (match (getF s pf.1 pf.2).assigned with | some d => !domSealed s d | none => false)

/-- The step level moves, and each cluster's setting falls due (R488, R490). -/
def stepTo (s : State) (level : Nat) (why : Nat × Int) : State :=
  let mask := maskFrom ((sharedClusters s).filter fun c => settingAt s c s.thermal.level != settingAt s c level)
  let s := { s with thermal := { s.thermal with level := level, lastStep := some s.ns, coolSince := none } }
  let payload := pack [(0, 8, why.1), (16, 16, unsgn 16 why.2), (32, 8, level), (64, 32, mask)]
  let s := deliverAll s (eventWord 0x0007 0 43 0 s.ns payload) (stepFuncs s)
  clockDueAll (emit s (.bmcEvent 0x0007 0))

/-- The node enters THERMAL_STOP: every function with enabled rings is told (R440, R491). -/
def thermalStop (s : State) (why : Nat × Int) : State :=
  let s := { s with thermal := { s.thermal with stopped := true, resumeSince := none } }
  let w := eventWord 0x0008 0 43 0 s.ns (pack [(0, 8, why.1), (16, 16, unsgn 16 why.2)])
  emit (deliverAll s w (allFuncs.filter fun pf => ringsOn (getF s pf.1 pf.2))) (.bmcEvent 0x0008 0)

/-- Heats with a held mark, earliest first. -/
def heldHeats (s : State) : List Nat :=
  ((s.heats.l.filterMap fun e => e.2.held.map fun m => (m.order, e.1)).stableSort fun a b => decide (a.1 ≤ b.1)).map (·.2)

/-- The stop ends: shared slices resume at 0.9 GHz and held marks are accepted (R491). -/
def thermalResume (s : State) : State :=
  let s := { s with thermal :=
    { s.thermal with stopped := false, level := 2, lastStep := some s.ns, coolSince := some s.ns, resumeSince := none } }
  let s := clockDueAll s
  (heldHeats s).foldl (fun s k => acceptHeld s k) s

/-- Some shared slice can step further: one exists that is not at 0.9 GHz (R491). -/
def canStep (s : State) : Bool := (sharedClusters s).any fun c => decide (settingAt s c s.thermal.level < 2)

/-- The moment since which a condition has held at every sample. -/
def since (c : Bool) (old : Option Nat) (now : Nat) : Option Nat := if c then some (old.getD now) else none

/-- A moment lies at least `ns` in the past. -/
def lasted (t : Option Nat) (now ns : Nat) : Bool := match t with | some x => decide (x + ns ≤ now) | none => false

/-- The cause a stop or step names: the hottest sensor; when only the cap was exceeded a stop names 0xFF, and what else the
payload shows is free (R478, R491; assumption 26). -/
def thermalCause (s : State) (stop byTemp : Bool) (l : List Int) : (Nat × Int) × State :=
  if byTemp then (hottest l, s)
  else ((if stop then 0xFF else freeVal s / 65536 % 256, (freeVal s % 65536 : Nat)), useFree s)

/-- What a sample does while the node runs: step down, stop, or step up (R490, R491). -/
def sampleRunning (s : State) (l : List Int) (hotTwice byTemp cond : Bool) : State :=
  let now := s.ns
  let t := s.thermal
  let may := match t.lastStep with | some x => decide (x + 10000000 ≤ now) | none => true
  if hotTwice then thermalStop s (hottest l)
  else if cond && may && decide (t.level < 2) then
    let (why, s) := thermalCause s false byTemp l
    stepTo s (t.level + 1) why
  else if lasted t.condSince now 10000000 && !canStep s then
    let (why, s) := thermalCause s true byTemp l
    thermalStop s why
  else if lasted t.coolSince now 100000000 && decide (0 < t.level) then
    let s := stepTo s (t.level - 1) (hottest l)
    { s with thermal := { s.thermal with coolSince := some now } }
  else s

/-- One sample of the 24 sensors, as factory-trimmed readings in 0.125 °C (R489). -/
def sampleOp (s : State) (readings : List Int) : State :=
  let l := (List.range 24).map fun n => readings.getD n 0 + thermalOffset s n
  let now := s.ns
  let t := s.thermal
  let byTemp := l.any fun x => decide (t.stepC * 8 ≤ x)
  let cond := byTemp || overCap s
  let hot := l.any fun x => decide (840 ≤ x)
  let cool := l.all (fun x => decide (x < (t.stepC - 5) * 8)) && underCap s false
  let cold := l.all (fun x => decide (x ≤ (t.stepC - 10) * 8)) && underCap s true
  let t := { t with
    temps := l, condSince := since cond t.condSince now, coolSince := since cool t.coolSince now,
    resumeSince := since (t.stopped && cold) t.resumeSince now, hot := hot }
  let hotTwice := hot && s.thermal.hot
  let s := { s with thermal := t }
  if t.stopped then (if lasted t.resumeSince now 100000000 then thermalResume s else s)
  else sampleRunning s l hotTwice byTemp cond

/-- THERMAL_SAMPLE (R489, R490, R491). -/
def execThermalSample (now : Nat) (temps : List Int) (s : State) : Res :=
  .next (if s.boot.phase = .ready then sampleOp (clockTo s now) temps else s)

end Sys2Proof.Machine
end

