-- ==== Sys2Proof/Machine/Place.lean ====
section
/-! DEFINITION. Placement: management messages, capacity reports, stripe and spill searches, replicated records, lost and
abandoned sequences, failed nodes (R343 to R357, R360, R371 to R376, R381). -/

namespace Sys2Proof.Machine

/-! ## Management messages (R348) -/

/-- The body of a management message. -/
def mgmtBody (m : Mgmt) : Nat := m.body % 2 ^ (8 * m.bodyLen)

/-- A management message that passes R348: its header, its length, its reserved bits. -/
def mgmtOk (m : Mgmt) (len : Nat) (named : List (Nat × Nat)) : Bool :=
  m.mver == 1 && m.rsv == 0 && m.bodyLen == len && m.msgLen == len && (mgmtBody m &&& maskOf named) == mgmtBody m

/-- A delivered management message: dropped and counted when it breaks R348, otherwise acted on. -/
def runMgmt (m : Mgmt) (len : Nat) (named : List (Nat × Nat)) (op : State → State) (s : State) : Res :=
  let s := clockTo s m.now
  .next (if trafficOff s || !nodeReachable s m.src then s
    else if mgmtOk m len named then op s else count s 2 0 3)

/-- A request of this node that a reply answers: the entry goes. -/
def answered (s : State) (corr : Nat) : State := { s with place := { s.place with asked := s.place.asked.erase corr } }

/-- Change the placement state. -/
def modPl (s : State) (g : Placement → Placement) : State := { s with place := g s.place }

/-! ## Capacity reports (R350, R351) -/

/-- Tenant domains bound to a slice of this node, ascending. -/
def boundDomains (s : State) : List Nat :=
  (s.domains.l.map (·.1)).filter fun d => d != 0 && (sliceOf s d).isSome

/-- The report entries of this node: domain, class, free and total frames. -/
def capEntries (s : State) : List Nat :=
  ((boundDomains s).take 63).map fun d =>
    let sl := (sliceOf s d).getD 0
    pack [(0, 6, d), (6, 1, b2n (domSealed s d)), (32, 24, freeInSlice s sl), (64, 24, totalInSlice s sl)]

/-- A capacity report goes to every other node. -/
def sendCapReport (s : State) : State :=
  let l := capEntries s
  let body := pack [(0, 64, epochOf s.ns), (64, 8, l.length)] + packElems 128 l * 2 ^ 128
  (otherNodes s).foldl (fun s n => sendMgmt s n 0x0001 0 (16 + 16 * l.length) body) s

/-- Distance of a node from this one by the locality table (R347). -/
def distance (s : State) (x : Nat) : Nat :=
  if x = s.nodeNo then 0
  else if rf (s.place.locality.getD x 0) 15 0 = rf (s.place.locality.getD s.nodeNo 0) 15 0 then 1 else 2

/-- Free frames of a domain on this node. -/
def ownFree (s : State) (d : Nat) : Nat := match sliceOf s d with | some sl => freeInSlice s sl | none => 0

/-- Candidates of a stripe search in order (R352): this node and every node with a current report. -/
def candidates (s : State) (d : Nat) (near : Bool) : List Nat :=
  let others := s.place.reports.l.filterMap fun e =>
    if e.1 % 64 = d ∧ reportCurrent s e.2 ∧ nodeReachable s (e.1 / 64) ∧ e.1 / 64 ≠ s.nodeNo then some (e.1 / 64, e.2.free) else none
  let before := fun (a b : Nat × Nat) =>
    if a.2 ≠ b.2 then decide (b.2 < a.2)
    else if distance s a.1 ≠ distance s b.1 then decide (distance s a.1 < distance s b.1) else decide (a.1 ≤ b.1)
  let l := (((s.nodeNo, ownFree s d) :: others).stableSort before).map (·.1)
  if near then s.nodeNo :: l.filter (fun x => x != s.nodeNo) else l

/-! ## SEQ_CREATE payload (R464) and stripes (R353) -/

def pModel (p : Nat) : Nat := fld p 15 0
def pMaxCtxM1 (p : Nat) : Nat := fld p 39 16
def pStripes (p : Nat) : Nat := fld p 46 40 + 1
def pNear (p : Nat) : Bool := bit p 47
def pReplS (p : Nat) : Nat := fld p 54 48
def pLease (p : Nat) : Nat := fld p 69 56
def pDeclared (p : Nat) : Nat := fld p 120 96

/-- Head groups of stripe `i` of `n`. -/
def stripeGroups (groups n i : Nat) : Nat :=
  maskFrom ((List.range groups).filter fun g => decide (i * groups / n ≤ g ∧ g < (i + 1) * groups / n))

/-- REG_DIGEST: SHA-384 over the registration record and sink table (R349). -/
def regDigest (m : ModelSt) : Nat :=
  (digestOf (m.record.toNat + packElems 32 m.sinks * 2 ^ 512) (64 + 4 * m.sinks.length)).toNat

/-- What a node answers when it is asked for a stripe or a spill row (R349, R352): the groups' starting block and the
declared rows are counted against FREE frames. -/
def stripeVerdict (s : State) (d model mask rows digest : Nat) : Status :=
  match sliceOf s d with
  | none => .badState
  | some sl => match getM s d model with
    | none => .badField
    | some m =>
      if regDigest m ≠ digest then .badField
      else if freeInSlice s sl < (1 + rows) * mLayers m.record * popCount mask 64 then .noHeadroom
      else .ok

/-- Body of STRIPE_REQ. -/
def stripeReqBody (id d kind model idx rows mask digest : Nat) : Nat :=
  pack [(0, 48, id), (48, 8, d), (56, 8, kind), (64, 16, model), (80, 8, idx), (96, 32, rows), (128, 64, mask), (192, 384, digest)]

/-- Body of MAP_UPDATE (R349). -/
def mapUpdateBody (id kind heat length mask : Nat) (stripes : List Nat) : Nat :=
  pack [(0, 48, id), (64, 8, kind), (80, 16, heat), (96, 24, length), (128, 64, mask)] + stripeWord stripes * 2 ^ 192

/-- MAP_UPDATE to every other stripe node of a sequence. -/
def sendMapUpdate (s : State) (id kind length : Nat) : State :=
  match getQ s id with
  | none => s
  | some q =>
    (q.stripes.filter fun n => n != s.nodeNo).foldl (fun s n =>
      let (c, s) := ask s (.update id n)
      sendMgmt s n 0x000F c 152 (mapUpdateBody id kind q.heat length (q.masks.getD n 0) q.stripes)) s

/-! ## ABANDONED sequences (R372) -/

/-- The last sealed position of a sequence: T × the lowest page index that is not sealed in some hosted row (R372). -/
def lastSealed (s : State) (q : SeqSt) : Nat :=
  let t := mT (seqModel s q)
  if t = 0 then 0
  else
    let pages := ceilDiv q.length t
    let low := (hostedRows s q).foldl (fun n r =>
      ((List.range n).find? fun p => match getLeaf q r.1 r.2 p with
        | some e => e.loc == 1 && !isSealed s e.frame
        | none => true).getD n) pages
    min (low * t) q.length

/-- Open rows of a sequence go; every sealed page stays (R372). -/
def freeOpenRows (s : State) (id resume : Nat) : State :=
  match getQ s id with
  | none => s
  | some q =>
    let t := max 1 (mT (seqModel s q))
    let s := clearLeaves (releaseBlock s id) id fun k e => decide (resume ≤ keyPage k * t) || (e.loc == 1 && !isSealed s e.frame)
    modQ s id fun q => { q with length := min q.length resume, resume := resume, sentTo := min q.sentTo resume,
                                held := min q.held resume }

/-- A sequence becomes ABANDONED (R372). -/
def abandonSeq (s : State) (id : Nat) : State :=
  match getQ s id with
  | none => s
  | some q =>
    let s := endSeqWork (removeFromHeat s id .badState) id .badState
    let resume := lastSealed s q
    let s := modQ (freeOpenRows s id resume) id fun q => { q with state := .abandoned, awaiting := false }
    (q.stripes.filter fun n => n != s.nodeNo).foldl (fun s n =>
      let (c, s) := ask s (.release id n)
      sendMgmt s n 0x0011 c 11 (pack [(0, 48, id), (48, 8, 1), (64, 24, resume)])) s

/-! ## Creating a sequence (R103, R104, R352) -/

/-- Bytes of a level-1 block (R104). -/
def l1Size (m : BitVec 512) (span : Nat) : Nat := 8 * mLayers m * mGroups m * span

/-- Some stripe search failed: the domain's admission throttle is active until the report period ends (R357). -/
def searchFailed (s : State) (d : Nat) : State :=
  modPl s fun p => { p with failedSearch := if p.failedSearch.contains d then p.failedSearch else p.failedSearch ++ [d] }

/-- Accepted candidates of a search that failed are told to release. -/
def releaseAccepted (s : State) (id : Nat) (l : List Nat) : State :=
  (l.filter fun n => n != s.nodeNo).foldl (fun s n => sendMgmt s n 0x0011 0 11 (pack [(0, 48, id)])) s

/-- The descriptor, level-1 block and ownership record of a new sequence; none when the pools have no room. -/
def createSeq (s : State) (id : Nat) (x : Search) (m : BitVec 512) (stripes : List Nat) : Option State :=
  let p := x.payload
  let span := l1SpanOf (pMaxCtxM1 p) (mT m)
  let bytes := l1Size m span
  match sliceOf s x.domain with
  | none => none
  | some sl => match placeBlock s sl bytes with
    | none => none
    | some (a, s) =>
      let n := stripes.length
      let masks := stripes.zipIdx.foldl (fun (t : Map Nat) e => t.set e.1 (stripeGroups (mGroups m) n e.2)) .empty
      let s' := if pReplS p = 0 then rf s.place.record 51 46 + 1 else pReplS p
      let own : OwnRec :=
        { expiry := x.stamp + pLease p * 1000000, leaseMs := pLease p, ownerNode := s.nodeNo, ownerFunc := funcCode x.port x.func }
      let q : SeqSt :=
        { domain := x.domain, model := pModel p, ctrlPort := x.port, maxCtxM1 := pMaxCtxM1 p, l1Span := span, l1Addr := a,
          l1Bytes := bytes, groupMask := masks.getD s.nodeNo 0, stripes := stripes, masks := masks, replS := s', own := own,
          bound := if s.place.absent.contains x.domain then .noReplication else .sBounded }
      some (recordChanged (setQ s id q) id)

/-- The outcome of a search that has ended: the state, the status, RESULT and AUX. -/
abbrev SearchEnd := State × Status × Nat × Nat

/-- SEQ_CREATE's search has its stripes, or no candidate left (R352). -/
def endCreate (s : State) (id : Nat) (x : Search) : SearchEnd :=
  let s := modPl s fun p => { p with searches := p.searches.erase id }
  let fail := fun (s : State) (st : Status) =>
    let s := searchFailed (releaseAccepted s id x.accepted) x.domain
    (s, st, 0, if st = .retryAfter then retryUs s else 0)
  match getM s x.domain (pModel x.payload) with
  | none => (releaseAccepted s id x.accepted, .badState, 0, 0)
  | some m =>
    if x.accepted.length < pStripes x.payload then fail s (if x.onlyRoom then .noHeadroom else .retryAfter)
    else match createSeq s id x m.record x.accepted with
      | none => (releaseAccepted s id x.accepted, .noHeadroom, 0, 0)
      | some s => (s, .ok, id + x.accepted.length * 2 ^ 48, 0)

/-- Page rows that a declared length needs (R464). -/
def declaredRows (m : BitVec 512) (declared : Nat) : Nat := if mT m = 0 then 0 else ceilDiv declared (mT m)

/-- Ask candidates in turn: this node answers at once, another by STRIPE_REPLY. -/
def createStep (s : State) (id : Nat) (x : Search) : (todo : List Nat) → State × Option SearchEnd
  | [] => (s, some (endCreate s id { x with todo := [] }))
  | n :: t =>
    if pStripes x.payload ≤ x.accepted.length then (s, some (endCreate s id { x with todo := [] }))
    else match getM s x.domain (pModel x.payload) with
      | none => (s, some (endCreate s id { x with todo := [] }))
      | some m =>
        let mask := stripeGroups (mGroups m.record) (pStripes x.payload) x.accepted.length
        let rows := declaredRows m.record (pDeclared x.payload)
        if n = s.nodeNo then
          match stripeVerdict s x.domain (pModel x.payload) mask rows (regDigest m) with
          | .ok => createStep s id { x with accepted := x.accepted ++ [n] } t
          | st => createStep s id { x with onlyRoom := x.onlyRoom && st == .noHeadroom } t
        else
          let (c, s) := ask s (.stripe id n)
          let s := sendMgmt s n 0x0002 c 72
            (stripeReqBody id x.domain 0 (pModel x.payload) x.accepted.length rows mask (regDigest m))
          (modPl s fun p => { p with searches := p.searches.set id { x with todo := t } }, none)

/-- Key of the spill search of a sequence among the searches. -/
def spillKey (id : Nat) : Nat := id + 2 ^ 48

/-- Ask candidates for a spill row in turn (R355). -/
def spillStep (s : State) (id : Nat) (x : Search) : State :=
  match x.todo, getQ s id with
  | n :: t, some q => match getM s q.domain q.model with
    | none => s
    | some m =>
      let (c, s) := ask s (.spill id n)
      let s := sendMgmt s n 0x0002 c 72
        (stripeReqBody id q.domain 1 q.model q.stripes.length 0 q.groupMask (regDigest m))
      modPl s fun p => { p with searches := p.searches.set (spillKey id) { x with todo := t } }
  | _, _ => searchFailed (modPl s fun p => { p with searches := p.searches.erase (spillKey id) }) x.domain

/-- The running SEQ_CREATE of a search ends. -/
def searchEnds (s : State) (id : Nat) (r : Option SearchEnd) : State :=
  match r with
  | none => s
  | some (s, st, result, aux) => finishWhere s (fun g => g.key == .seq id && g.opcode == 0x0502) st result aux

/-- Go on with a search of SEQ_CREATE. -/
def goOnCreate (s : State) (id : Nat) : State :=
  match s.place.searches.get? id with
  | none => s
  | some x =>
    let (s, r) := createStep s id x x.todo
    searchEnds s id r

/-- A candidate has answered, or stayed silent. -/
def candidateSays (s : State) (id node : Nat) (spill : Bool) (st : Status) : State :=
  if spill then
    match s.place.searches.get? (spillKey id) with
    | none => s
    | some x =>
      if st = .ok then
        modQ (modPl s fun p => { p with searches := p.searches.erase (spillKey id) }) id fun q =>
          if q.sb = 0 then { q with sb := 2, spillNode := node } else q
      else spillStep s id x
  else
    match s.place.searches.get? id with
    | none => s
    | some x =>
      let x : Search := if st = .ok then { x with accepted := x.accepted ++ [node] }
        else { x with onlyRoom := x.onlyRoom && st == .noHeadroom }
      goOnCreate (modPl s fun p => { p with searches := p.searches.set id x }) id

/-- Searches that have asked nobody yet begin. -/
def startSearches (s : State) : State :=
  s.place.searches.fold (fun s id x =>
    if x.spill ∨ (s.place.asked.any fun _ a => match a.what with | .stripe i _ => i == id | _ => false) then s
    else goOnCreate s id) s

/-! ## Spill rows (R116, R355) -/

/-- A stripe node that holds no starting block for a running sequence asks for a spill row. -/
def spillOp (s : State) (id : Nat) : State :=
  match getQ s id with
  | none => s
  | some q =>
    if q.state ≠ .running ∨ q.sb ≠ 0 ∨ s.place.searches.has (spillKey id) ∨ !placeOn s then s
    else if 64 ≤ q.stripes.length then searchFailed s q.domain
    else
      let l := (candidates s q.domain false).filter fun n => n != s.nodeNo
      let l := l.filter (fun n => !q.stripes.contains n) ++ l.filter fun n => q.stripes.contains n
      spillStep s id { spill := true, domain := q.domain, todo := l }

/-- SPILL_REQUEST (R355). -/
def execSpillRequest (seq now : Nat) (s : State) : Res := .next (spillOp (clockTo s now) seq)

/-- Every sequence without a starting block asks again (R355). -/
def spillAll (s : State) : State := s.seqs.fold (fun s id q => if q.state = .running ∧ q.sb = 0 then spillOp s id else s) s

/-! ## Failed nodes (R374 to R376, R341) -/

/-- What is in flight to a fenced peer is abandoned, and FENCED is recorded (R341). -/
def abandonPeer (s : State) (node : Nat) : State :=
  let ks := (s.net.queues.l.filter fun e => qPeerNode e.2 == node).map (·.1)
  ks.foldl (fun s k => match getWq s k with
    | none => s
    | some q =>
      let busy := !q.sent.l.isEmpty
      let s := setWq s k { q with sent := .empty, sq := [], later := [], recorded := if busy then some (q.recorded.getD .fenced) else q.recorded }
      let s := modNet s fun n => { n with egress := n.egress.filter fun e => e.queue != k }
      let s := (openRequests q).foldl (fun s e => completeWr s k e.2.wr .fenced e.2.total e.1) s
      q.sq.foldl (fun s w => completeWr s k w .fenced w.length 0) s) s

/-- A node is fenced for this node. -/
def fenceNode (s : State) (node : Nat) : State :=
  if s.net.fencedNodes.contains node then s
  else abandonPeer (modNet s fun n => { n with fencedNodes := n.fencedNodes ++ [node] }) node

/-- What the failure of a node means for the sequences this node serves: affected slots are inert until the rollback
(R377), or the sequence is LOST where its promise did not hold (R363). -/
def seqsAfterFailure (s : State) (node : Nat) : State :=
  s.seqs.fold (fun s id q =>
    if q.state = .lost ∨ !q.stripes.contains node then s
    else if homeOf s id = s.nodeNo ∧ q.bound ≠ .sBounded then loseSeq s id (safePos q) 1
    else modQ s id fun q => { q with awaiting := true }) s

/-- The replicas of this node's pages were with a node that failed. -/
def replicasGone (s : State) (node : Nat) : State :=
  if partnerOf s ≠ node then s
  else
    let s := { s with mem := { s.mem with frames := s.mem.frames.mapVals fun _ v => { v with heldRemote := false } } }
    let s := { s with seqs := s.seqs.mapVals fun _ q => { q with batchHeld := 0, sentTo := 0 } }
    (s.seqs.l.map (·.1)).foldl (fun s id =>
      reportHeld (modQ s id fun q => { q with bound := if q.bound = .sBounded then .lostOnFailure else q.bound }) id) s

/-- A failure before the commit abandons a move: the source remains the holder (R359). -/
def movesAbandoned (s : State) (node : Nat) : State :=
  let frames := s.mem.frames.mapVals fun _ v => match v.mig with
    | some (.source former dst) => if dst = node then { v with state := former, mig := none } else v
    | some (.incoming n _) => if n = node then { v with state := .free, domain := 0, link := 0, mig := none } else v
    | _ => v
  { s with mem := { s.mem with frames := frames } }

/-- A node is failed: it is fenced, its home role is with its partner, and its stripe heats here go (R375, R378). -/
def markFailed (s : State) (node acting : Nat) : State :=
  if s.place.failed.has node then s
  else
    let s := fenceNode (modPl s fun p => { p with failed := p.failed.set node acting, heard := p.heard.erase node }) node
    let s := dropHeats s fun h => h.master == some node
    let s := movesAbandoned s node
    replicasGone (seqsAfterFailure s node) node

/-- This node is named failed: it stops as R289 states (R375). -/
def stopSelf (s : State) : State := { s with place := { s.place with stopped := true }, boot := { s.boot with failed := true } }

/-- This node declares a failure: every node of the partition is told (R375). REASON: 1 silence, 2 self-reported, 3 fence. -/
def declareFailed (s : State) (node acting reason : Nat) : State :=
  if s.place.failed.has node then s
  else
    let s := markFailed s node acting
    (otherNodes s).foldl (fun s n =>
      if s.net.fencedNodes.contains n then s
      else
        let (c, s) := ask s (.notice node n)
        sendMgmt s n 0x0005 c 16 (pack [(0, 16, node), (16, 16, acting), (32, 8, reason), (64, 64, s.ns)])) s

/-- FAIL_MS in ns. -/
def failNs (s : State) : Nat := rf s.place.record 15 8 * 1000000

/-- PARTNER_SILENCE_TIMEOUT (R374): every node this node is partner of, silent for FAIL_MS. -/
def silenceOp (s : State) : State :=
  if !placeOn s then s
  else s.place.heard.fold (fun s n t => if t + failNs s ≤ s.ns then declareFailed s n s.nodeNo 1 else s) s

/-- PARTNER_SILENCE_TIMEOUT (R374). -/
def execPartnerSilenceTimeout (now : Nat) (s : State) : Res :=
  let s := clockTo s now
  .next (if trafficOff s then s else silenceOp s)

end Sys2Proof.Machine
end

