-- ==== Sys2Proof/Machine/PlaceMsgs.lean ====
section
/-! DEFINITION. The management messages of placement, replication and failure as they are delivered, and the silence that
answers a request (R348 to R376, R465). -/

namespace Sys2Proof.Machine

/-! ## Capacity reports (R350, R351, R355) -/

/-- The bits of a CAP_REPORT body that a field names. -/
def capNamed (n : Nat) : List (Nat × Nat) :=
  (71, 0) :: (List.range n).flatMap fun i =>
    [(128 * i + 134, 128 * i + 128), (128 * i + 183, 128 * i + 160), (128 * i + 215, 128 * i + 192)]

/-- A report replaces what was known of its sender; a sequence without a starting block asks again. -/
def capOp (s : State) (m : Mgmt) : State :=
  let now := epochOf s.ns
  let es := elems 128 (m.body / 2 ^ 128) (byt m.body 8 8)
  let kept := s.place.reports.filter fun k _ => k / 64 != m.src
  let all := es.foldl (fun (r : Map CapReport) e =>
    r.set (m.src * 64 + fld e 5 0) { free := fld e 55 32, total := fld e 87 64, sealed := bit e 6, arrival := now }) kept
  spillAll (modPl s fun p => { p with reports := all })

/-- CAP_REPORT (R350). -/
def execCapReport (m : Mgmt) (s : State) : Res :=
  let n := byt m.body 8 8
  if 63 < n then runMgmt m (m.bodyLen + 1) [] id s
  else runMgmt m (16 + 16 * n) (capNamed n) (fun s => capOp s m) s

/-! ## Stripe and spill requests (R352, R355) -/

/-- A descriptor at a stripe node (R344): the home's limits are not carried, so it sets none (assumption 28). -/
def stripeDesc (s : State) (id d model mask : Nat) : SeqSt :=
  { domain := d, model := model, ctrlPort := s.place.offers.getD id 0, maxCtxM1 := 2 ^ 24 - 1, groupMask := mask,
    l1Span := (getM s d model).elim 0 fun m => l1SpanOf (2 ^ 24 - 1) (mT m.record),
    own := { ownerNode := seqHome id } }

/-- STRIPE_REPLY goes back. -/
def stripeReply (s : State) (m : Mgmt) (st : Status) (frames : Nat) : State :=
  sendMgmt s m.src 0x0003 m.corr 8 (pack [(0, 16, st.code), (32, 32, frames)])

/-- An accepted stripe: the node's descriptor takes the groups; a spill draws the starting block at once. -/
def stripeTake (s : State) (m : Mgmt) : State :=
  let id := byt m.body 0 5
  let d := byt m.body 6 6
  let model := byt m.body 8 9
  let mask := fld m.body 191 128
  let s := if (getQ s id).isSome then s else setQ s id (stripeDesc s id d model 0)
  if byt m.body 7 7 = 0 then
    stripeReply (modQ s id fun q => { q with groupMask := q.groupMask ||| mask }) m .ok 0
  else match sliceOf s d, getM s d model with
    | some sl, some x =>
      let n := mLayers x.record * popCount mask 64
      match drawRow s sl d n with
      | none => stripeReply s m .noHeadroom 0
      | some (l, s) =>
        stripeReply (modQ s id fun q => { q with sb := 1, sbFrames := l, masks := q.masks.set s.nodeNo (q.groupMask ||| mask) })
          m .ok n
    | _, _ => stripeReply s m .badState 0

/-- STRIPE_REQ (R349, R352, R355). -/
def execStripeReq (m : Mgmt) (s : State) : Res :=
  runMgmt m 72 [(87, 0), (575, 96)] (fun s =>
    match stripeVerdict s (byt m.body 6 6) (byt m.body 8 9) (fld m.body 191 128) (fld m.body 127 96) (fld m.body 575 192) with
    | .ok => if 1 < byt m.body 7 7 ∨ 63 < byt m.body 6 6 then stripeReply s m .badField 0 else stripeTake s m
    | st => stripeReply s m st 0) s

/-- A reply's STATUS field; a value of no status counts as a refusal. -/
def replyStatus (x : Nat) : Status := (Status.ofCode x).getD .badState

/-- STRIPE_REPLY (R349). -/
def execStripeReply (m : Mgmt) (s : State) : Res :=
  runMgmt m 8 [(15, 0), (63, 32)] (fun s =>
    match s.place.asked.get? m.corr with
    | none => s
    | some a => match a.what with
      | .stripe id n => if n = m.src then candidateSays (answered s m.corr) id n false (replyStatus (byt m.body 0 1)) else s
      | .spill id n => if n = m.src then candidateSays (answered s m.corr) id n true (replyStatus (byt m.body 0 1)) else s
      | _ => s) s

/-! ## Heartbeats and failures (R374, R375) -/

/-- HEARTBEAT (R374): the sender has this node as its partner; a failed one says so. -/
def execHeartbeat (m : Mgmt) (s : State) : Res :=
  runMgmt m 9 [(71, 0)] (fun s =>
    let s := modPl s fun p => { p with heard := p.heard.set m.src s.ns }
    if byt m.body 8 8 = 1 then declareFailed s m.src s.nodeNo 2 else s) s

/-- A node acknowledges a notice. -/
def failAck (s : State) (m : Mgmt) : State := sendMgmt s m.src 0x0006 m.corr 2 (byt m.body 0 1)

/-- FAIL_NOTICE (R375). -/
def execFailNotice (m : Mgmt) (s : State) : Res :=
  runMgmt m 16 [(11, 0), (27, 16), (39, 32), (127, 64)] (fun s =>
    let failed := byt m.body 0 1
    if failed = s.nodeNo then stopSelf s else failAck (markFailed s failed (byt m.body 2 3)) m) s

/-- FAIL_ACK (R375). -/
def execFailAck (m : Mgmt) (s : State) : Res := runMgmt m 2 [(11, 0)] (fun s => answered s m.corr) s

/-! ## Leases (R370) -/

/-- A renewal that reaches the home before EXPIRY, from the owner, extends the lease. -/
def leaseRenewOp (s : State) (m : Mgmt) : State :=
  let id := byt m.body 0 5
  match getQ s id with
  | none => s
  | some q =>
    if homeOf s id = s.nodeNo ∧ q.own.state ≠ .abandoned ∧ q.own.ownerNode = byt m.body 12 13
        ∧ q.own.ownerFunc = byt m.body 14 14 ∧ s.ns < q.own.expiry then
      recordChanged (modQ s id fun q => { q with own := { q.own with expiry := s.ns + q.own.leaseMs * 1000000 } }) id
    else s

/-- LEASE_RENEW (R370, R42). -/
def execLeaseRenew (m : Mgmt) (s : State) : Res :=
  runMgmt m 24 [(47, 0), (107, 64), (119, 112), (191, 128)] (fun s => leaseRenewOp s m) s

/-! ## Internal queue pairs (R307, R349) -/

/-- The responder's queue of a pair; for a stripe heat the local heat of the number is bound (assumption 25). -/
def pairOp (s : State) (m : Mgmt) : State :=
  let purpose := byt m.body 2 2
  let heat := byt m.body 4 5
  let reply := fun (s : State) (st : Status) (q : Nat) =>
    sendMgmt s m.src 0x000B m.corr 4 (pack [(0, 16, st.code), (16, 16, q)])
  match freeInternal s 65536 with
  | none => reply s .exhausted 0
  | some k =>
    let s := setWq s k { record := internalRecord m.src (byt m.body 0 1) (byt m.body 3 3), internal := some purpose,
                         heat := if purpose = 0 then heat else 0 }
    let s := if purpose = 0 then modH s heat fun h => { h with master := some (h.master.getD m.src) } else s
    reply s .ok k

/-- PAIR_REQ (R349). -/
def execPairReq (m : Mgmt) (s : State) : Res :=
  runMgmt m 6 [(47, 0)] (fun s => if 2 < byt m.body 2 2 then count s 2 0 3 else pairOp s m) s

/-- An internal queue that could not be paired goes, with what waited on it. -/
def unpaired (s : State) (qk : Nat) : State := modNet s fun n => { n with queues := n.queues.erase qk }

/-- PAIR_REPLY (R349). -/
def execPairReply (m : Mgmt) (s : State) : Res :=
  runMgmt m 4 [(31, 0)] (fun s =>
    match s.place.asked.get? m.corr with
    | none => s
    | some a => match a.what with
      | .pair k n =>
        if n ≠ m.src then s
        else if byt m.body 0 1 ≠ 0 then unpaired (answered s m.corr) k
        else
          let s := modWq (answered s m.corr) k fun q =>
            { q with state := .ready, record := rset q.record 115 100 (byt m.body 2 3) }
          drainLater s k (((getWq s k).map fun q => q.later.length).getD 0)
      | _ => s) s

/-! ## Replication reports (R362, R366, R360) -/

/-- A stripe whose node failed is served again: its acting node takes the index, and the rollback to h waits for the
heat's next layer-0 acceptance on every holder (R377). -/
def promoted (s : State) (id old new : Nat) : State :=
  match getQ s id with
  | none => s
  | some q =>
    let stripes := q.stripes.map fun n => if n = old then new else n
    let masks := (q.masks.erase old).set new (q.masks.getD old 0 ||| q.masks.getD new 0)
    let s := setQ s id { q with stripes := stripes, masks := masks, reports := q.reports.erase old, awaiting := true,
                                change := some { kind := 2, heat := q.heat, length := q.held, stripes := stripes } }
    sendMapUpdate s id 2 q.held

/-- HELD_REPORT at the home: h is computed anew; a report of the acting node of a failed stripe says that its promotion
is done. -/
def heldReportOp (s : State) (m : Mgmt) : State :=
  let id := byt m.body 0 5
  match getQ s id with
  | none => s
  | some q =>
    let r : HeldBy := { held := byt m.body 8 10, missing := byt m.body 12 14, late := byt m.body 16 17 }
    match q.stripes.find? fun n => s.place.failed.get? n == some m.src with
    | some old => promoted (modQ s id fun q => { q with reports := q.reports.set m.src r }) id old m.src
    | none => recomputeHeld (modQ s id fun q => { q with reports := q.reports.set m.src r }) id

/-- HELD_REPORT (R362, R377). -/
def execHeldReport (m : Mgmt) (s : State) : Res :=
  runMgmt m 18 [(47, 0), (88, 64), (119, 96), (143, 128)] (fun s => heldReportOp s m) s

/-- Payload of REPLICA_DEGRADED (R478). -/
def degradedPayload (l : List Nat) : Nat := pack [(0, 8, l.length)] + packElems 48 l * 2 ^ 16

/-- One page of a sequence loses its replica; the message does not name it (a free choice). -/
def loseReplica (s : State) (id : Nat) : State :=
  match getQ s id with
  | none => s
  | some q =>
    let l := q.leaves.l.filter fun e => e.2.loc == 1 && (getFr s e.2.frame).heldRemote
    match l[freeVal s % max 1 l.length]? with
    | none => s
    | some e => modFr (useFree s) e.2.frame fun v => { v with heldRemote := false }

/-- The partner has given up replicas of a sequence, or holds them again; a condition clears once. -/
def degradedSeq (s : State) (id reason : Nat) (cleared : Bool) : State :=
  match getQ s id with
  | none => s
  | some q =>
    let s := if cleared then s else loseReplica s id
    let s := modQ s id fun q => { q with bound := if cleared then q.bound else .lostOnFailure }
    let was := s.place.degraded.contains id
    let s := modPl s fun p => { p with degraded := if cleared then p.degraded.filter (fun x => x != id)
                                                   else if p.degraded.contains id then p.degraded else p.degraded ++ [id] }
    if cleared && !was then s else raiseObj (reportHeld s id) 0x0005 reason 38 q.domain q.ctrlPort (degradedPayload [id]) cleared

/-- REPL_DEGRADED (R366). -/
def execReplDegraded (m : Mgmt) (s : State) : Res :=
  let n := byt m.body 0 0
  if 7 < n then runMgmt m (m.bodyLen + 1) [] id s
  else runMgmt m (8 + 6 * n) [(16, 0), (63 + 48 * n, 64)] (fun s =>
    (elems 48 (m.body / 2 ^ 64) n).foldl (fun s id => degradedSeq s id (byt m.body 1 1) (bit m.body 16)) s) s

/-- The replica of a descriptor, its ownership record and its leaf entries. -/
def replicaOp (s : State) (m : Mgmt) : State :=
  let id := byt m.body 0 5
  let d := fld m.body 2111 64
  let old := s.place.replicas.getD id {}
  let q : SeqSt := { seqOfWord old d with own := ownOfWord (fld m.body 2367 2112) }
  let ups := elems 128 (m.body / 2 ^ 2432) (fld m.body 2383 2368)
  let leaves := ups.foldl (fun (l : Map Leaf) u =>
    l.set (leafKey (fld u 7 0) (fld u 15 8 % 64) (fld u 55 32 % 2 ^ 20)) (leafOfWord (fld u 127 64))) old.leaves
  modPl s fun p => { p with replicas := if fld d 72 70 = 0 then p.replicas.erase id else p.replicas.set id { q with leaves := leaves } }

/-- The bits of a RECORD_REPL body that a field names. -/
def replNamed (n : Nat) : List (Nat × Nat) :=
  [(47, 0), (2383, 64)] ++ (List.range n).flatMap fun i =>
    [(2432 + 128 * i + 15, 2432 + 128 * i), (2432 + 128 * i + 55, 2432 + 128 * i + 32), (2432 + 128 * i + 127, 2432 + 128 * i + 64)]

/-- RECORD_REPL (R360, R371). -/
def execRecordRepl (m : Mgmt) (s : State) : Res :=
  let n := fld m.body 2383 2368
  runMgmt m (304 + 16 * n) (replNamed n) (fun s => replicaOp s m) s

/-! ## Changes that the home decides (R356, R359, R377, R381, R465) -/

/-- ACK_RELEASE goes back. -/
def ackReleaseTo (s : State) (m : Mgmt) (id : Nat) (st : Status) : State :=
  sendMgmt s m.src 0x0012 m.corr 8 (pack [(0, 48, id), (48, 16, st.code)])

/-- MAP_UPDATE: the change waits for the heat's next layer-0 acceptance here; a rollback of a sequence in no heat, which is
also what a truncation at the home asks for, takes place at once (assumption 36). -/
def mapUpdateOp (s : State) (m : Mgmt) : State :=
  let id := byt m.body 0 5
  if (getQ s id).isNone then ackReleaseTo s m id .badState
  else
    let c : MapChange := { kind := byt m.body 8 8, heat := byt m.body 10 11, length := byt m.body 12 14,
                           groupMask := fld m.body 191 128, stripes := stripesOfWord (fld m.body 1215 192) }
    let idle := (getQ s id).any fun q => q.state != .running
    if c.kind = 2 ∧ idle then
      let before := (getQ s id).bind (·.damagedTo)
      ackReleaseTo (modQ (rollBack s id c.length) id fun q =>
        { q with damagedTo := before, stripes := if c.stripes.isEmpty then q.stripes else c.stripes }) m id .ok
    else ackReleaseTo (modQ s id fun q => { q with change := some c, awaiting := q.awaiting || c.kind == 2 }) m id .ok

/-- MAP_UPDATE (R356, R359, R377). -/
def execMapUpdate (m : Mgmt) (s : State) : Res :=
  runMgmt m 152 [(47, 0), (71, 64), (119, 80), (1215, 128)] (fun s => mapUpdateOp s m) s

/-- SEQ_LOST (R381): the stripe node frees its rows. -/
def execSeqLost (m : Mgmt) (s : State) : Res :=
  runMgmt m 12 [(47, 0), (95, 64)] (fun s => loseSeq s (byt m.body 0 5) (byt m.body 8 10) (byt m.body 11 11)) s

/-- SEQ_RELEASE (R465, R372). -/
def execSeqRelease (m : Mgmt) (s : State) : Res :=
  runMgmt m 11 [(55, 0), (87, 64)] (fun s =>
    let id := byt m.body 0 5
    match getQ s id with
    | none => ackReleaseTo s m id .ok
    | some _ =>
      if byt m.body 6 6 = 0 then ackReleaseTo (freeSeq (removeFromHeat s id .badState) id) m id .ok
      else
        let s := freeOpenRows (endSeqWork (removeFromHeat s id .badState) id .badState) id (byt m.body 8 10)
        ackReleaseTo (modQ s id fun q => { q with state := .abandoned, awaiting := false }) m id .ok) s

/-- Some stripe node has not said yet that it released a sequence. -/
def releasing (s : State) (id : Nat) : Bool :=
  s.place.asked.any fun _ a => match a.what with | .release i _ => i == id | _ => false

/-- A sequence whose rows are released everywhere is FREE, and its partner forgets it. -/
def forgetSeq (s : State) (id : Nat) : State :=
  match getQ s id with
  | none => s
  | some q => freeSeq (replRecord s id { q with state := .free, leaves := .empty } 0) id

/-- The last release of a SEQ_FREE has come, or stays away: the sequence is FREE and the command ends. -/
def releaseEnds (s : State) (id : Nat) (st : Status) : State :=
  if releasing s id ∨ (flightOn s (.seq id) 0x0503).isNone then s
  else finishWhere (forgetSeq s id) (fun g => g.key == .seq id && g.opcode == 0x0503) st 0 0

/-- ACK_RELEASE (R465). -/
def execAckRelease (m : Mgmt) (s : State) : Res :=
  runMgmt m 8 [(63, 0)] (fun s =>
    match s.place.asked.get? m.corr with
    | none => s
    | some a => match a.what with
      | .release id n => if n = m.src then releaseEnds (answered s m.corr) id .ok else s
      | .update _ n => if n = m.src then answered s m.corr else s
      | _ => s) s

/-! ## Silence (R348, R352) -/

/-- How long a request waits for its reply, in ns. -/
def replyTime : Asked → Nat
  | .stripe .. => 1000000
  | .spill .. => 1000000
  | _ => 10000000

/-- A request that nobody answered: silence counts as refusal. -/
def silent (s : State) (corr : Nat) : State :=
  match s.place.asked.get? corr with
  | none => s
  | some a =>
    if s.ns < a.sent + replyTime a.what then s
    else match a.what with
      | .stripe id n => candidateSays (answered s corr) id n false .timeout
      | .spill id n => candidateSays (answered s corr) id n true .timeout
      | .pair k _ => unpaired (answered s corr) k
      | .release id _ => releaseEnds (answered s corr) id .timeout
      | .forward _ => s
      | _ => answered s corr

/-- MGMT_REPLY_TIMEOUT (R348). -/
def execMgmtReplyTimeout (corr now : Nat) (s : State) : Res := .next (silent (clockTo s now) corr)

end Sys2Proof.Machine
end

