-- ==== Sys2Proof/Machine/Replicate.lean ====
section
/-! DEFINITION. The sending side of replication and page moves: sealed pages, open positions, page extensions (R317, R360,
R361), and pages that fail their checks (R147, R148). -/

namespace Sys2Proof.Machine

/-! ## Page messages (R317) -/

/-- The page extension. -/
def pageExt (id layer group page first count kind quartersM1 identity frame : Nat) : Nat :=
  pack [(208, 48, id), (200, 8, layer), (194, 6, group), (174, 20, page), (166, 8, first), (157, 9, count), (155, 2, kind),
    (153, 2, quartersM1), (89, 64, identity), (65, 24, frame)]

/-- Quarters minus 1 that a page in sealed form carries: its packed stream, or all four in verbatim form. -/
def carriedQuarters (d : PageData) : Nat := if d.hdr.sealed then d.hdr.quartersM1 else 3

/-- The payload of a sealed page: header, sketch, landmarks, stream. -/
def sealedBytes (d : PageData) : Nat :=
  hdrWord d.hdr + d.sketch.toNat * 2 ^ 128 + d.landmarks.toNat * 2 ^ 384 + d.payload % 2 ^ (32768 * (carriedQuarters d + 1)) * 2 ^ 4480

/-- Length of that payload. -/
def sealedLen (d : PageData) : Nat := 560 + 4096 * (carriedQuarters d + 1)

/-- Key and value rows of `n` positions from `first` on, in the open layout. -/
def openRows (x : Shape) (payload first n : Nat) : Nat :=
  imgBytes payload (first * x.keyRow) (n * x.keyRow)
    + imgBytes payload (x.t * x.keyRow + first * x.valRow) (n * x.valRow) * 2 ^ (8 * n * x.keyRow)

/-- The same rows put into a payload. -/
def putRows (x : Shape) (payload first n rows : Nat) : Nat :=
  putPayload (putPayload payload (first * x.keyRow) (n * x.keyRow) (rows % 2 ^ (8 * n * x.keyRow)))
    (x.t * x.keyRow + first * x.valRow) (n * x.valRow) (rows / 2 ^ (8 * n * x.keyRow))

/-- A message that carries a sealed page. -/
def sealedMsg (id frame : Nat) (d : PageData) (op kind : Nat) (purpose : Purpose) : SendMsg :=
  { op := op, total := sealedLen d, extLen := 2, data := sealedBytes d, purpose := purpose,
    ext := pageExt id d.hdr.layer d.hdr.group d.hdr.page 0 d.hdr.filled kind (carriedQuarters d) d.hdr.identity frame }

/-- A message that carries open positions. -/
def openMsg (x : Shape) (id frame : Nat) (d : PageData) (first n op kind : Nat) (purpose : Purpose) : SendMsg :=
  { op := op, total := n * (x.keyRow + x.valRow), extLen := 2, data := openRows x d.payload first n, purpose := purpose,
    ext := pageExt id d.hdr.layer d.hdr.group d.hdr.page first n kind 0 d.hdr.identity frame }

/-! ## Replication (R360, R361) -/

/-- The node replicates a sequence's pages. -/
def replicates (s : State) (q : SeqSt) : Bool :=
  placeOn s && partnerOf s != s.nodeNo && nodeReachable s (partnerOf s) && q.bound != .noReplication

/-- Send a message to the partner on the replication queue of a domain. -/
def toPartner (s : State) (domain : Nat) (m : SendMsg) : State :=
  let (q, s) := internalQueue s 2 (partnerOf s) 0 domain 1
  match q with | some k => launchInternal s k m | none => s

/-- A sealed page goes to the partner with KIND 0. -/
def replicatePage (s : State) (id frame : Nat) : State :=
  match getQ s id with
  | none => s
  | some q => if replicates s q then toPartner s q.domain (sealedMsg id frame (getFr s frame).data 13 0 (.replica id frame)) else s

/-- The positions of the open rows of a sequence that have not been sent go to the partner with KIND 1 (R361). -/
def sendBatch (s : State) (id : Nat) : State :=
  match getQ s id with
  | none => s
  | some q =>
    if replicates s q ∧ q.sentTo < q.length then
      let m := seqModel s q
      let x := shapeOf m
      let s := (hostedRows s q).foldl (fun s r => q.leaves.fold (fun s k e =>
        let lo := max q.sentTo (keyPage k * x.t)
        let hi := min q.length ((keyPage k + 1) * x.t)
        if keyLayer k = r.1 ∧ keyGroup k = r.2 ∧ e.loc = 1 ∧ (getFr s e.frame).state = .opened ∧ lo < hi then
          toPartner s q.domain (openMsg x id e.frame (getFr s e.frame).data (lo - keyPage k * x.t) (hi - lo) 13 1 (.batch id q.length))
        else s) s) s
      modQ s id fun q => { q with sentTo := q.length }
    else s

/-! ## Pages that fail their checks (R144 to R148, R286) -/

/-- Sequences of this node whose page map names a frame, with the place of the page. -/
def holdersOf (s : State) (frame : Nat) : List (Nat × Nat) :=
  s.seqs.l.filterMap fun e => (e.2.leaves.find? fun _ x => x.loc == 1 && x.frame == frame).map fun k => (e.1, k.1)

/-- Channel-local byte address of a frame's payload (R94). -/
def frameAddr (frame : Nat) : Nat := 16384 * (frame / 20)

/-- A frame that lost both copies: every sequence that holds it becomes LOST, records that name it are BROKEN (R147,
R381). -/
def loseFrame (s : State) (frame : Nat) : State :=
  breakRecords ((holdersOf s frame).foldl (fun s h => loseSeq s h.1 (((getQ s h.1).map safePos).getD 0) 1) s) frame

/-- A damaged verdict or a failed tag (R147, R148): DAMAGED and FAULT once; without a held replica the page is lost. The
sequence of a damaged open page waits for its rollback. -/
def damageFrame (s : State) (frame : Nat) : State :=
  let v := getFr s frame
  if v.damaged then s
  else
    let s := setFr s frame { v with damaged := true }
    let (id, k) := (holdersOf s frame).headD (0, 0)
    let q := (getQ s id).getD {}
    let s := raisePage s 0x0010 (frame % 20) v.domain q.ctrlPort (frameAddr frame) id (keyLayer k) (keyGroup k) (keyPage k) frame
    if v.state = .opened ∨ v.state = .sealing then
      (holdersOf s frame).foldl (fun s h => modQ s h.1 fun q => { q with awaiting := true }) s
    else if v.heldRemote then s
    else loseFrame s frame

end Sys2Proof.Machine
end

