-- ==== Sys2Proof/Machine/Engine.lean ====
section
/-! DEFINITION. What the engines share: the running lap of an operation, page references, operands in scratch and input
areas, running statistics and their fold (R17 to R20, R63, R73, R161, R165, R177). -/

namespace Sys2Proof.Machine

/-! ## The lap an operation belongs to -/

/-- The running lap of an operation in its cluster. -/
structure Run where
  h : HeatSt
  l : LapSt
  v : LapCl
  image : Nat
  m : BitVec 512

/-- The lap of an operation, when it runs in the cluster. -/
def runOf (s : State) (u : Uop) : Option Run :=
  match getH s u.heat with
  | none => none
  | some h => match h.lap with
    | none => none
    | some l => match l.cls.get? u.cl.val with
      | none => none
      | some v =>
        if v.phase = .running ∧ (getC s u.cl.val).holder = some u.heat then
          some { h := h, l := l, v := v, image := heatImage s h, m := heatModel s h }
        else none

/-- Run an operation of a lap; a parity error of a transfer it consumes is recorded for the hurdle (R84, R287). -/
def withRun (s : State) (u : Uop) (f : Run → State → State) : State :=
  match runOf s u with
  | none => s
  | some r => f r (if u.parity then modCl s u.heat u.cl.val fun v => { v with parity := true } else s)

/-- Head dimensions of a lap. -/
def Run.dk (r : Run) : Nat := dKey (mHeadDim r.m)
def Run.dv (r : Run) : Nat := dVal (mHeadDim r.m) (mLatent r.m)
def Run.shape (r : Run) : Shape := shapeOf r.m

/-- The sequence of a slot that runs in the lap. -/
def slotSeq (s : State) (r : Run) (n : Nat) : Option (Nat × SeqSt) :=
  let x := getSlot r.h n
  if x.runs then x.seq.bind fun id => (getQ s id).map fun q => (id, q) else none

/-- Causal limit c of a running slot (R154). -/
def slotLimit (r : Run) (n : Nat) (q : SeqSt) : Nat :=
  if (getSlot r.h n).part == .appends then q.length else q.length - 1

/-- The listed page that a page reference names (R63, R81). -/
def pageRef (r : Run) (a : Nat) : Option LapPage := (r.v.work.pages.getD (rowKey (refSlot a) (refGroup a)) [])[refOrd a]?

/-! ## Rejected transfers (R19) -/

/-- FAULT of a tag reason (R478). What the tag was checked against and the offset from lap start are left open
(assumption 3). -/
def raiseTag (s : State) (u : Uop) (r : Run) (reason slot group fmt : Nat) : State :=
  let seq := ((getSlot r.h slot).seq.map seqIndex).getD 0
  let tag := pack [(45, 5, fmt), (39, 6, group), (31, 8, r.l.layer), (11, 20, seq), (6, 5, (heatSlice s r.h).getD 0),
    (0, 6, hDomain r.h.record)]
  let state := freeVal s
  let s := useFree s
  let off := freeVal s % 2 ^ 32
  raiseObj (useFree s) 0x0001 reason u.cl.val (hDomain r.h.record) (hCtrlPort r.h.record)
    (pack [(0, 64, tag), (64, 64, state), (128, 32, off)])

/-- A page of the running lap is excluded: its positions count as excluded for every head of its group (R19, R146). -/
def excludeHere (s : State) (u : Uop) (r : Run) (a : Nat) : State :=
  modCl s u.heat u.cl.val fun v =>
    let l := v.work.pages.getD (rowKey (refSlot a) (refGroup a)) []
    match l[refOrd a]? with
    | none => v
    | some x =>
      if x.excluded then v
      else
        let pages := v.work.pages.set (rowKey (refSlot a) (refGroup a)) (l.set (refOrd a) { x with excluded := true })
        let w := { v.work with pages := pages, excluded := addHeads v.work.excluded (refSlot a) (refGroup a) (mHpg r.m) (pageCount x) }
        { v with work := w }

/-! ## Operands in scratch (R73, assumption 17) -/

/-- Key of a scratch unit. -/
def unitKey (c core addr : Nat) : Nat := (c * 4 + core) * 16384 + addr % 16384

/-- Units of one slot's share of the multicast heads: every hosted head in OUT_FMT, padded to 64 bytes (R176). -/
def headsPitch (r : Run) : Nat := ceilDiv ((cGpsM1 r.image + 1) * mHpg r.m * r.dv * fmtBits (mOutFmt r.m) / 8) 64

/-- A 64-byte unit of the heat's input area of the step's parity: row payloads slot by slot, or the multicast heads. -/
def inputUnit (r : Run) (i : Nat) : Scr :=
  match r.l.heads with
  | some d =>
    if i < d.length then { fmt := mOutFmt r.m, own := some (headKey (i / max 1 (headsPitch r)) 0 0), data := BitVec.ofNat 512 (d.getD i 0) }
    else {}
  | none =>
    let p := r.h.rowBytes / 64 - 1
    if p = 0 ∨ hSlots r.h.record ≤ i / p then {}
    else { fmt := mInFmt r.m, own := some (headKey (i / p) 0 0),
           data := BitVec.ofNat 512 (granule r.h (r.l.step.toNat % 2) (i / p * (r.h.rowBytes / 64) + 1 + i % p)) }

/-- `n` units of an operand. -/
def operandUnits (s : State) (u : Uop) (r : Run) (core addr : Nat) (input : Bool) (n : Nat) : List Scr :=
  (List.range n).map fun j => if input then inputUnit r (addr + j) else s.scratch.getD (unitKey u.cl.val core (addr + j)) {}

/-- The bytes of some units. -/
def unitBytes (l : List Scr) : Nat := l.foldr (fun x n => x.data.toNat + 2 ^ 512 * n) 0

/-- What an operand's contents belong to: the slot, group and head of its first unit. -/
def unitOwn (l : List Scr) : Option Nat := (l.headD {}).own

/-- An operand of `n` elements in the format its first unit carries: the format, and the elements with their scales. -/
def operandElems (s : State) (u : Uop) (r : Run) (core addr : Nat) (input : Bool) (n : Nat) : Nat × List (Num × Num) × Option Nat :=
  let fmt := ((operandUnits s u r core addr input 1).headD {}).fmt
  let l := operandUnits s u r core addr input (ceilDiv (rowBytesOf fmt n) 64)
  (fmt, decodeRow fmt n (unitBytes l), unitOwn l)

/-- The value of an element with its scale. -/
def elemValue (e : Num × Num) : Num := e.1.mul e.2

/-- Write units of a core's scratch; `own` names what each belongs to. -/
def writeUnits (s : State) (c core addr fmt n data : Nat) (own : Nat → Option Nat) : State :=
  { s with scratch := (List.range n).foldl (fun m j =>
      m.set (unitKey c core (addr + j)) { fmt := fmt, own := own j, data := BitVec.ofNat 512 (data / 2 ^ (512 * j)) }) s.scratch }

/-- Write a row of elements in a format. -/
def writeElems (s : State) (c core addr fmt : Nat) (l : List Num) (own : Nat → Option Nat) : State :=
  writeUnits s c core addr fmt (ceilDiv (rowBytesOf fmt l.length) 64) (encodeRow fmt l) own

/-! ## Running statistics (R161, R165, R177) -/

/-- Running maximum, sum and vector of a head. -/
structure Stat where
  m : Num := .inf true
  l : Num := Num.zero
  o : List Num := []

/-- The initial statistics of a head. -/
def statZero (dv : Nat) : Stat := { o := List.replicate dv Num.zero }

/-- Bytes of one head's statistics (R523). -/
def statBytes (dv : Nat) : Nat := 8 + 4 * dv

/-- A head's statistics from its bytes. -/
def statOf (dv x : Nat) : Stat :=
  { m := ofBits32 (x % 2 ^ 32), l := ofBits32 (x / 2 ^ 32 % 2 ^ 32), o := (elems 32 (x / 2 ^ 64) dv).map ofBits32 }

/-- Bytes of a head's statistics. -/
def statWord (x : Stat) : Nat := toBits32 x.m + toBits32 x.l * 2 ^ 32 + packElems 32 (x.o.map toBits32) * 2 ^ 64

/-- Units of the statistics of some heads. -/
def statUnits (dv heads : Nat) : Nat := ceilDiv (heads * statBytes dv) 64

/-- Read the statistics of some heads, with what they belong to. -/
def readStats (s : State) (u : Uop) (core addr dv heads : Nat) : List Stat × Option Nat :=
  let l := (List.range (statUnits dv heads)).map fun j => s.scratch.getD (unitKey u.cl.val core (addr + j)) {}
  ((elems (8 * statBytes dv) (unitBytes l) heads).map (statOf dv), unitOwn l)

/-- Write the statistics of some heads. -/
def writeStats (s : State) (u : Uop) (core addr dv : Nat) (own : Option Nat) (l : List Stat) : State :=
  writeUnits s u.cl.val core addr 7 (statUnits dv l.length) (packElems (8 * statBytes dv) (l.map statWord)) fun _ => own

/-- A saturating product and sum: the value, and whether it saturated (R165). -/
def mulSat (a b : Num) : Num × Bool := roundSat (a.mul b)
def addSat (a b : Num) : Num × Bool := roundSat (a.add b)

/-- a × x + b × y with every operation rounded (R177). -/
def foldPair (a x b y : Num) : Num × Bool :=
  let p := mulSat x a
  let q := mulSat y b
  let r := addSat p.1 q.1
  (r.1, p.2 || q.2 || r.2)

/-- The fold of a term into an accumulator (R177): the sum, and whether it saturated. -/
def foldStat (acc t : Stat) : Stat × Bool :=
  if t.m = .inf true then (acc, false)
  else if acc.m = .inf true then (t, false)
  else
    let mn := acc.m.max t.m
    let a := exp2_32 (add32 acc.m mn.neg)
    let b := exp2_32 (add32 t.m mn.neg)
    let l := foldPair a acc.l b t.l
    let o := (acc.o.zip t.o).map fun p => foldPair a p.1 b p.2
    ({ m := mn, l := l.1, o := o.map (·.1) }, l.2 || o.any (·.2))

/-- Terms folded in order, from the zero baton. -/
def foldStats (dv : Nat) (l : List Stat) : Stat × Bool :=
  l.foldl (fun a t => let r := foldStat a.1 t; (r.1, a.2 || r.2)) (statZero dv, false)

end Sys2Proof.Machine
end

