-- ==== Sys2Proof/Machine/Attend.lean ====
section
/-! DEFINITION. Attention over one page: EXP.PAGE, MXE.ATT, VEC.SMX (R62, R81, R84, R145 to R147, R152 to R166). -/

namespace Sys2Proof.Machine

/-! ## Operand fields (R73) -/

/-- Heads of an attention operation, its first head, its INPUT flag. -/
def attHeads (b : Nat) : Nat := fld b 17 14 + 1
def attFirst (b : Nat) : Nat := fld b 21 18
def attInput (b : Nat) : Bool := bit b 22
/-- Statistics address in 64-byte units: C[13:2] counts 256-byte units. -/
def attStats (c : Nat) : Nat := fld c 13 2 * 4

/-! ## EXP.PAGE -/

/-- The buffer copy that an EXP.PAGE finds for a listed page: the copy of its frame as the frame now stands. -/
def pageCopy (s : State) (c heat addr frame : Nat) : Option BufPage :=
  match s.buffer.get? (bufKey c heat addr) with
  | none => none
  | some b =>
    let d := (getFr s frame).data
    if b.whole && b.frame == frame && b.copy.hdr.identity == d.hdr.identity && b.copy.version == d.version then some b else none

/-- A listed page that is not in the buffer: a page fault for the next hurdle (R84). -/
def pageFault (s : State) (u : Uop) (a addr : Nat) : State :=
  modCl s u.heat u.cl.val fun v =>
    let f := (refSlot a, refGroup a, refOrd a, addr)
    { v with faults := if v.faults.contains f then v.faults else v.faults ++ [f] }

/-- What a core's expander holds. -/
def setExpander (s : State) (u : Uop) (e : Option ExpSt) : State :=
  modCl s u.heat u.cl.val fun v =>
    { v with expander := match e with | some x => v.expander.set u.core.val x | none => v.expander.erase u.core.val }

/-- The expander takes a page: a fault, a damaged verdict, or the page. -/
def expand (r : Run) (s : State) (u : Uop) : State :=
  let a := u.a.toNat
  let addr := fld u.b.toNat 16 0
  match pageRef r a with
  | none => setExpander s u none
  | some x =>
    if x.excluded then setExpander s u none
    else if u.tagBad then excludeHere (setExpander (raiseTag s u r 0x0001 (refSlot a) (refGroup a) (mKFmt r.m)) u none) u r a
    else match pageCopy s u.cl.val u.heat addr x.frame with
      | none => pageFault (setExpander s u none) u a addr
      | some b =>
        let good := b.authOk && pageGood s (hDomain r.h.record) b.copy && (pageOpenBytes b.copy (mHeadDim r.m)).isSome
        if good then setExpander s u (some { slot := refSlot a, group := refGroup a, ord := refOrd a, addr := addr })
        else damageFrame (excludeHere (setExpander s u none) u r a) x.frame

/-- EXP.PAGE (R62, R84, R145, R147). -/
def execExpPage (u : Uop) (s : State) : Res := .next (withRun s u fun r s => expand r s u)

/-! ## The page a core works on -/

/-- The page that an attention operation's reference names, when the core's expander holds it: the listed page, its
payload in the open layout, and the offsets it may attend. -/
def heldPage (s : State) (r : Run) (u : Uop) : Option (LapPage × Nat × Nat × Nat) :=
  let a := u.a.toNat
  match pageRef r a, r.v.expander.get? u.core.val with
  | some x, some e =>
    if x.excluded || e.slot != refSlot a || e.group != refGroup a || e.ord != refOrd a then none
    else match s.buffer.get? (bufKey u.cl.val u.heat e.addr) with
      | none => none
      | some b => (pageOpenBytes b.copy (mHeadDim r.m)).map fun p => (x, p, x.first, min x.stop b.copy.hdr.filled)
  | _, _ => none

/-- A position's key row, with its scales (R152). -/
def keyElems (x : Shape) (payload j : Nat) : List (Num × Num) := decodeRow x.kFmt x.dim (openRowOf x payload 0 j)

/-- A position's value elements: the value row, or the first 512 elements of the latent row (R152). -/
def valElems (x : Shape) (dv payload j : Nat) : List Num :=
  if x.latent then (rowValues x.kFmt x.dim (openRowOf x payload 0 j)).take dv
  else rowValues x.vFmt x.dim (openRowOf x payload 1 j)

/-- A position's value row as a whole is finite (R164). -/
def valFinite (x : Shape) (payload j : Nat) : Bool :=
  (if x.latent then rowValues x.kFmt x.dim (openRowOf x payload 0 j) else rowValues x.vFmt x.dim (openRowOf x payload 1 j)).all Num.isFinite

/-- Offsets from `lo` up to `hi`. -/
def offsets (lo hi : Nat) : List Nat := (List.range (hi - lo)).map fun i => lo + i

/-! ## MXE.ATT -/

/-- C[1] sets the statistics of the operation's heads to their initial value (R161). -/
def initStats (r : Run) (s : State) (u : Uop) : State :=
  if bit u.c.toNat 1 then
    writeStats s u u.core.val (attStats u.c.toNat) r.dv (some (headKey (refSlot u.a.toNat) (refGroup u.a.toNat) (attFirst u.b.toNat)))
      (List.replicate (attHeads u.b.toNat) (statZero r.dv))
  else s

/-- The raw scores of every head against a page (R159). -/
def formScores (r : Run) (s : State) (u : Uop) : State :=
  let n := attHeads u.b.toNat
  let (fmt, q, _) := operandElems s u r u.core.val (fld u.b.toNat 13 0) (attInput u.b.toNat) (n * r.dk)
  match heldPage s r u with
  | none => s
  | some (_, payload, lo, hi) =>
    if u.tagBad then excludeHere (raiseTag s u r 0x0001 (refSlot u.a.toNat) (refGroup u.a.toNat) fmt) u r u.a.toNat
    else if fmt ≠ 0 ∧ fmt ≠ 1 ∧ fmt ≠ 3 then
      excludeHere (raiseTag s u r 0x0003 (refSlot u.a.toNat) (refGroup u.a.toNat) fmt) u r u.a.toNat
    else
      let keys := (offsets lo hi).map fun j => keyElems r.shape payload j
      let scores := (chunks r.dk n q).map fun qh => keys.map fun k => toBits32 (dotTiles qh k)
      let pend : AttPend := { a := u.a.toNat, b := u.b.toNat, c := u.c.toNat, first := lo, scores := scores }
      modCl s u.heat u.cl.val fun v => { v with scores := v.scores.set u.core.val pend }

/-- MXE.ATT (R152, R153, R159, R161). -/
def execMxeAtt (u : Uop) (s : State) : Res := .next (withRun s u fun r s => formScores r (initStats r s u) u)

/-! ## VEC.SMX -/

/-- Probabilities of the offsets of one sub-block after R162: exact values. -/
def quantProbs (l : List Num) : List Num :=
  let q := quantBlock 1 7 l
  q.2.map fun e => (decodeElem 1 e).mul (scaleNum q.1)

/-- What one page does to the statistics of one head (R161): the statistics, attended and non-finite offsets, and whether
a result saturated. `l` lists the page's 256 offsets: the scaled score where the offset is attended with a finite score,
whether its value row is finite, and the value elements. -/
def pageUpdate (st : Stat) (scores : Nat → Option Num) (fin : Nat → Bool) (vals : Nat → List Num) (t : Nat) : Stat × Bool :=
  let a := (List.range t).filterMap fun j => (scores j).map fun x => (j, x)
  match a with
  | [] => (st, false)
  | (_, x0) :: rest =>
    let mp := rest.foldl (fun m e => m.max e.2) x0
    let mn := st.m.max mp
    let alpha := if st.m = .inf true then Num.zero else exp2_32 (add32 st.m mn.neg)
    let p := fun j => match scores j with | some x => exp2_32 (add32 x mn.neg) | none => Num.zero
    let blocks := (List.range (ceilDiv t 16)).map fun b => offsets (16 * b) (min t (16 * b + 16))
    let ph := blocks.map fun js => (js, (quantProbs (js.map p)).zip js |>.map fun e => if (scores e.2).isSome && fin e.2 then e.1 else Num.zero)
    let l0 := mulSat st.l alpha
    let l := ph.foldl (fun (x : Num × Bool) b => let g := roundSat (sumExact b.2); let r := addSat x.1 g.1; (r.1, x.2 || g.2 || r.2)) l0
    let rows := ph.map fun b => (b.2, b.1.map fun j => if fin j then vals j else [])
    let o := st.o.zipIdx.map fun e =>
      rows.foldl (fun (x : Num × Bool) b =>
        let g := roundSat (sumExact ((b.1.zip b.2).map fun pv => pv.1.mul (pv.2.getD e.2 Num.zero)))
        let r := addSat x.1 g.1
        (r.1, x.2 || g.2 || r.2)) (mulSat e.1 alpha)
    ({ m := mn, l := l.1, o := o.map (·.1) }, l.2 || o.any (·.2))

/-- The online softmax of the paired MXE.ATT: statistics, counts and flags of every head (R160 to R166). -/
def softmax (r : Run) (s : State) (u : Uop) : State :=
  match r.v.scores.get? u.core.val, heldPage s r u with
  | some p, some (_, payload, lo, hi) =>
    if p.a ≠ u.a.toNat ∨ p.b ≠ u.b.toNat ∨ p.c ≠ u.c.toNat ∨ p.first ≠ lo then s
    else
      let x := r.shape
      let slot := refSlot u.a.toNat
      let group := refGroup u.a.toNat
      let first := attFirst u.b.toNat
      let (sts, own) := readStats s u u.core.val (attStats u.c.toNat) r.dv (attHeads u.b.toNat)
      let fins := (offsets lo hi).map fun j => valFinite x payload j
      let vals := (offsets lo hi).map fun j => valElems x r.dv payload j
      let res := (sts.zip p.scores).map fun e =>
        let us := e.2.map fun w => let n := scaledScore r.m (ofBits32 w); if n.isFinite then some n else none
        let at_ := fun (j : Nat) => if lo ≤ j then (us.getD (j - lo) none) else none
        let up := pageUpdate e.1 at_ (fun j => fins.getD (j - lo) false) (fun j => vals.getD (j - lo) []) x.t
        let good := ((us.zip fins).filter fun e => e.1.isSome && e.2).length
        (up.1, up.2, good, us.length - good)
      let s := writeStats s u u.core.val (attStats u.c.toNat) r.dv own (res.map (·.1))
      modCl s u.heat u.cl.val fun v =>
        let w := (res.zipIdx).foldl (fun (w : LapWork) e =>
          let k := headKey slot group (first + e.2)
          let flags := if e.1.2.1 then w.flags.upd k 0 fun f => f ||| flagOverflow else w.flags
          let more := w.attended.upd k 0 fun n => satAdd 24 n e.1.2.2.1
          { w with attended := more, nonfinite := w.nonfinite.upd k 0 fun n => satAdd 24 n e.1.2.2.2, flags := flags }) v.work
        { v with work := w, scores := v.scores.erase u.core.val }
  | _, _ => s

/-- VEC.SMX (R160 to R166). -/
def execVecSmx (u : Uop) (s : State) : Res := .next (withRun s u fun r s => softmax r s u)

end Sys2Proof.Machine
end

