-- ==== Sys2Proof/Machine/Vector.lean ====
section
/-! DEFINITION. Matrix products and the vector engine: MXE.MM, VEC.CVT, VEC.ROT, VEC.NRM, VEC.FIN, VEC.MRG (R73, R124 to
R126, R129, R130, R163, R167, R177, R178). -/

namespace Sys2Proof.Machine

/-! ## MXE.MM -/

/-- `n` 64-bit words whose contents the spec does not give, from one free value (assumption 3). -/
def freeWords (s : State) (place n : Nat) : Nat :=
  (List.range n).foldr (fun i x => (Config.openBits place (s.free * 2 ^ 32 + i)).toNat + 2 ^ 64 * x) 0

/-- The page copy that covers a buffer address of a heat: its base and its bytes. -/
def bufferAt (s : State) (c heat addr : Nat) : Option (Nat × Nat) :=
  (s.buffer.find? fun k _ => k / 2 ^ 17 == c * 4096 + heat && decide (k % 2 ^ 17 ≤ addr) && decide (addr < k % 2 ^ 17 + 256)).map
    fun e => (e.1 % 2 ^ 17, e.2.copy.payload)

/-- The second operand's bytes, and a bias for each output element: scratch, a page copy in the buffer, or weights of the
weight region, whose place in the buffer the spec does not give (assumption 31). -/
def secondOperand (r : Run) (s : State) (u : Uop) (bytes n : Nat) : Nat × List Num × State :=
  let zeros := List.replicate n Num.zero
  if bit u.b.toNat 31 then
    let addr := fld u.b.toNat 30 14
    match bufferAt s u.cl.val u.heat addr with
    | some (base, data) => (imgBytes data (64 * (addr - base)) bytes, zeros, s)
    | none =>
      let w := freeWords s 1 (ceilDiv bytes 8) % 2 ^ (8 * bytes)
      let bias := if mBias r.m then (elems 32 (freeWords s 2 (ceilDiv n 2)) n).map ofBits32 else zeros
      (w, bias, useFree s)
  else (unitBytes (operandUnits s u r u.core.val (fld u.b.toNat 13 0) false (ceilDiv bytes 64)) % 2 ^ (8 * bytes), zeros, s)

/-- A weight block fails its authentication (R286): the model is DAMAGED. The address is left open (assumption 3). -/
def weightFault (r : Run) (s : State) (u : Uop) : State :=
  let d := hDomain r.h.record
  let s := modM s d (hModel r.h.record) fun m => { m with damaged := true }
  raisePage (useFree s) 0x0013 u.cl.val d (hCtrlPort r.h.record) (freeVal s) 0 r.l.layer 0 0 0

/-- The product of two operands, and its rows' biases (R125, R167). -/
def matProduct (r : Run) (s : State) (u : Uop) : State :=
  let a := u.a.toNat
  let m := (fld a 15 14 + 1) * 8
  let k := fld u.extA.toNat 15 0
  let n := fld u.extB.toNat 15 0
  let fa := fld u.extA.toNat 20 16
  let fb := fld u.extB.toNat 20 16
  if 6 < fa ∨ 6 < fb then s
  else if u.tagBad then raiseTag s u r 0x0001 0 0 fb
  else if u.weightBad ∧ bit u.b.toNat 31 then weightFault r s u
  else
    let ua := operandUnits s u r u.core.val (fld a 13 0) (bit a 16) (ceilDiv (rowBytesOf fa (m * k)) 64)
    let rows := chunks k m (decodeRow fa (m * k) (unitBytes ua))
    let rb := rowBytesOf fb k
    let (second, bias, s) := secondOperand r s u (n * rb) n
    let cols := (List.range n).map fun j => decodeRow fb k (imgBytes second (j * rb) rb)
    let out := rows.flatMap fun x => (cols.zip bias).map fun y =>
      if y.2.isZero then dotTiles x y.1 else add32 (dotTiles x y.1) y.2
    let own := fun j => (ua.getD (16 * j / max 1 n * k * fmtBits fa / 512) {}).own
    writeUnits s u.cl.val u.core.val (fld u.c.toNat 13 0) 7 (ceilDiv (m * n) 16) (packElems 32 (out.map toBits32)) own

/-- MXE.MM (R124, R125, R167). -/
def execMxeMm (u : Uop) (s : State) : Res := .next (withRun s u fun r s => matProduct r s u)

/-! ## VEC.CVT -/

/-- Format conversion of `n` elements. -/
def convertOp (r : Run) (s : State) (u : Uop) : State :=
  let n := fld u.c.toNat 15 0
  let fmt := fld u.c.toNat 19 16
  if 7 < fmt then s
  else
    let input := bit u.a.toNat 14
    let addr := fld u.a.toNat 13 0
    let (sf, l, _) := operandElems s u r u.core.val addr input n
    let src := operandUnits s u r u.core.val addr input (ceilDiv (rowBytesOf sf n) 64)
    let own := fun j => (src.getD (512 * j / fmtBits fmt * fmtBits sf / 512) {}).own
    writeElems s u.cl.val u.core.val (fld u.b.toNat 13 0) fmt (l.map elemValue) own

/-- VEC.CVT (R129, R130, R153). -/
def execVecCvt (u : Uop) (s : State) : Res := .next (withRun s u fun r s => convertOp r s u)

/-! ## VEC.ROT -/

/-- ROPE fields of the append record (R121). -/
def ropeHalf (m : BitVec 512) : Bool := rb (mAppend m) 42
def ropePairs (m : BitVec 512) : Nat := rf (mAppend m) 39 32
def ropeTheta (m : BitVec 512) : Nat := rf (mAppend m) 31 0

/-- One head rotated for a position (R126): elements before and after the rotated ones stay. -/
def rotateHead (m : BitVec 512) (pos : Nat) (l : List Num) : List Num :=
  let p := ropePairs m
  let base := if mLatent m then 512 else 0
  let cs := (List.range p).map fun i => rotary (pos * rotaryFreq (ropeTheta m) i p % 2 ^ 40)
  let el := fun i => l.getD (base + i) Num.zero
  l.zipIdx.map fun e =>
    let i := e.2 - base
    if e.2 < base ∨ 2 * p ≤ i then e.1
    else
      let pair := if ropeHalf m then i % p else i / 2
      let second := if ropeHalf m then decide (p ≤ i) else i % 2 == 1
      let a := el (if ropeHalf m then pair else 2 * pair)
      let b := el (if ropeHalf m then pair + p else 2 * pair + 1)
      let c := (cs.getD pair (Num.one, Num.zero)).1
      let s := (cs.getD pair (Num.one, Num.zero)).2
      if second then round32 ((a.mul s).add (b.mul c)) else round32 ((a.mul c).add (b.mul s).neg)

/-- Rotary positions of `n` elements, head by head; a head's position is the causal limit of the slot its data belongs
to (assumption 32). -/
def rotateOp (r : Run) (s : State) (u : Uop) : State :=
  let n := fld u.c.toNat 15 0
  let input := bit u.a.toNat 14
  let addr := fld u.a.toNat 13 0
  let (sf, l, _) := operandElems s u r u.core.val addr input n
  let src := operandUnits s u r u.core.val addr input (ceilDiv (rowBytesOf sf n) 64)
  let ownAt := fun e => (src.getD (e * fmtBits sf / 512) {}).own
  let d := mHeadDim r.m
  let out := ((chunks d n (l.map elemValue)).zipIdx).flatMap fun e =>
    let slot := (ownAt (e.2 * d)).getD 0 / 1024
    let pos := match slotSeq s r slot with | some (_, q) => slotLimit r slot q | none => 0
    rotateHead r.m pos e.1
  writeElems s u.cl.val u.core.val (fld u.b.toNat 13 0) 7 out fun j => ownAt (16 * j)

/-- VEC.ROT (R126). -/
def execVecRot (u : Uop) (s : State) : Res := .next (withRun s u fun r s => rotateOp r s u)

/-! ## Statistics -/

/-- The elements of a head divided by its sum through the reciprocal (R166, R178). -/
def normalise (x : Stat) : List Num :=
  if x.l.isZero then x.o.map fun _ => Num.zero
  else
    let r := div32 Num.one x.l
    x.o.map fun e => mul32 e r

/-- VEC.NRM: the heads at A, normalised, as FP32 at B (assumption 33). -/
def normOp (r : Run) (s : State) (u : Uop) : State :=
  let (l, own) := readStats s u u.core.val (fld u.a.toNat 13 0) r.dv (fld u.c.toNat 15 0)
  writeElems s u.cl.val u.core.val (fld u.b.toNat 13 0) 7 (l.flatMap normalise) fun _ => own

/-- VEC.NRM (R59, R178). -/
def execVecNrm (u : Uop) (s : State) : Res := .next (withRun s u fun r s => normOp r s u)

/-- VEC.FIN: the statistics are already final after the last page (R161), and are written to B (assumption 33). -/
def finOp (r : Run) (s : State) (u : Uop) : State :=
  let (l, own) := readStats s u u.core.val (fld u.a.toNat 13 0) r.dv (fld u.c.toNat 4 0)
  writeStats s u u.core.val (fld u.b.toNat 13 0) r.dv own l

/-- VEC.FIN (R59). -/
def execVecFin (u : Uop) (s : State) : Res := .next (withRun s u fun r s => finOp r s u)

/-- VEC.MRG: the statistics of the cluster's four cores folded in ascending core number (R163). -/
def mergeOp (r : Run) (s : State) (u : Uop) : State :=
  let h := fld u.c.toNat 4 0
  let cores := (List.range 4).map fun k => readStats s u k (fld u.a.toNat 13 0) r.dv h
  let own := (cores.find? fun c => c.2.isSome).bind (·.2)
  let res := (List.range h).map fun i => foldStats r.dv (cores.map fun c => c.1.getD i (statZero r.dv))
  let s := writeStats s u u.core.val (fld u.b.toNat 13 0) r.dv own (res.map (·.1))
  match own with
  | none => s
  | some k => modCl s u.heat u.cl.val fun v =>
      let flags := res.zipIdx.foldl (fun (m : Map Nat) e => if e.1.2 then m.upd (k + e.2) 0 fun f => f ||| flagOverflow else m) v.work.flags
      { v with work := { v.work with flags := flags } }

/-- VEC.MRG (R163, R177). -/
def execVecMrg (u : Uop) (s : State) : Res := .next (withRun s u fun r s => mergeOp r s u)

end Sys2Proof.Machine
end

