-- ==== Sys2Proof/Machine/Quant.lean ====
section
/-! DEFINITION. The quantiser-encoder and the channel claims: QEN.APP, QEN.SEAL, CHN.RD, CHN.WR (R66, R67, R82, R109, R111,
R129 to R134, R144, R184, R185, R268). -/

namespace Sys2Proof.Machine

/-! ## Where an operation stands in its timetable -/

/-- Entries of the cluster's timetable from the first one that is this operation. -/
def fromEntry (image tt engine opcode : Nat) (u : Uop) : List Nat :=
  (ttEntries image tt).dropWhile fun e =>
    !(isOp e engine opcode && eA e == u.a.toNat && eB e == u.b.toNat && eC e == u.c.toNat)

/-- Entries before it. -/
def beforeEntry (image tt engine opcode : Nat) (u : Uop) : List Nat :=
  (ttEntries image tt).takeWhile fun e =>
    !(isOp e engine opcode && eA e == u.a.toNat && eB e == u.b.toNat && eC e == u.c.toNat)

/-- The buffer address of a QEN.APP: of the nearest earlier EXP.PAGE or CHN.RD with the same page reference, otherwise of
the last such entry (R523). -/
def appendAddr (image tt : Nat) (u : Uop) : Nat :=
  let hit := fun (e : Nat) => (isOp e 2 1 || isOp e 4 1) && eA e == u.a.toNat
  let before := (beforeEntry image tt 3 1 u).filter hit
  let all := (ttEntries image tt).filter hit
  fld (eB ((before.getLast?).getD (all.getLast?.getD 0))) 16 0

/-! ## QEN.APP -/

/-- Write counters increased by 1 for some blocks (R131, R282). -/
def bumpCounters (c : BitVec 512) (blocks : List Nat) : BitVec 512 :=
  blocks.foldl (fun c b => if b < 32 then rset c (16 * b + 15) (16 * b) (rf c (16 * b + 15) (16 * b) + 1) else c) c

/-- A page with a position's rows written (R131). -/
def appendRow (x : Shape) (d : PageData) (j : Nat) (key val : List Num) : PageData :=
  let kb := encodeRow x.kFmt key
  let vb := if x.latent then 0 else encodeRow x.vFmt val
  let p := putPayload (putPayload d.payload (j * x.keyRow) x.keyRow kb) (x.t * x.keyRow + j * x.valRow) x.valRow vb
  { d with payload := p, counters := bumpCounters d.counters (rowBlocks x j), hdr := { d.hdr with filled := max d.hdr.filled (j + 1) } }

/-- A seal follows in the timetable for the page, and the lap still has seal time (R82, R109). -/
def sealFollows (r : Run) (tt : Nat) (u : Uop) : Bool :=
  decide (r.v.seals < maxSeals r.image) && (fromEntry r.image tt 3 1 u).any fun e => isOp e 3 2 && eA e == u.a.toNat

/-- The append of a slot's position to one open page. -/
def appendOp (r : Run) (s : State) (u : Uop) : State :=
  let a := u.a.toNat
  match pageRef r a, slotSeq s r (refSlot a) with
  | some x, some (_, q) =>
    let sh := r.shape
    if (getSlot r.h (refSlot a)).part ≠ .appends ∨ sh.t = 0 ∨ x.page ≠ q.length / sh.t then s
    else if (getFr s x.frame).state ≠ .opened then raiseTag s u r 0x0002 (refSlot a) (refGroup a) sh.kFmt
    else if u.tagBad then raiseTag s u r 0x0001 (refSlot a) (refGroup a) sh.kFmt
    else
      let tt := ttIndex s r.h u.cl.val
      let addr := appendAddr r.image tt u
      match pageCopy s u.cl.val u.heat addr x.frame with
      | none => pageFault s u a addr
      | some b =>
        let j := q.length % sh.t
        let (_, l, _) := operandElems s u r u.core.val (fld u.b.toNat 13 0) (bit u.b.toNat 14) (r.dk + if sh.latent then 0 else r.dv)
        let v := l.map elemValue
        let d := appendRow sh b.copy j (v.take r.dk) (v.drop r.dk)
        let s := { s with buffer := s.buffer.set (bufKey u.cl.val u.heat addr) { b with copy := d } }
        if j + 1 = sh.t ∧ sealFollows r tt u then modFr s x.frame fun v => { v with state := .sealing } else s
  | _, _ => s

/-- QEN.APP (R109, R123, R129 to R131). -/
def execQenApp (u : Uop) (s : State) : Res := .next (withRun s u fun r s => appendOp r s u)

/-! ## QEN.SEAL -/

/-- A full page in its sealed form: packed, or verbatim when the encoder needs more than 32 blocks (R133, R134). -/
def sealData (m : BitVec 512) (d : PageData) : PageData :=
  let x := shapeOf m
  let rows := (List.range x.t).map fun j => rowValues x.kFmt x.dim (openRowOf x d.payload 0 j)
  let seed := sSeed (mSel m)
  let hdr := { d.hdr with filled := x.t }
  let d := { d with sketch := BitVec.ofNat 256 (pageSketch seed x.dim rows), landmarks := BitVec.ofNat 4096 (pageLandmarks seed rows),
                    version := d.version + 1 }
  match encodePage x d.payload with
  | some (n, stream) =>
    let q := ceilDiv n 8
    { d with payload := stream, hdr := { hdr with sealed := true, quartersM1 := q - 1 }, counters := bumpCounters d.counters (List.range (8 * q)) }
  | none => { d with hdr := { hdr with sealed := false, quartersM1 := 3 } }

/-- QMAP of a sealed page: the quarters after its stream are free slack (R111). -/
def sealedQmap (d : PageData) : BitVec 8 :=
  if d.hdr.sealed then
    (List.range 4).foldl (fun q k => if d.hdr.quartersM1 < k then rset q (2 * k + 1) (2 * k) 1 else q) 0
  else 0

/-- A page seals: the frame is SEALED under a new version, its sketch joins the index of its row, and its replication
starts (R109, R190, R360). -/
def sealFrame (s : State) (id frame : Nat) (m : BitVec 512) (d : PageData) : State :=
  let before := freeSlack s (frame % 20)
  let data := { sealData m { d with version := (getFr s frame).version } with key := (getD s (getFr s frame).domain).key }
  let s := modFr s frame fun v => { v with state := .sealed, qmap := sealedQmap data, version := v.version + 1, data := data, heldRemote := false }
  let s := slackCheck s (frame % 20) before
  let s := idxAdd s id data.hdr.layer data.hdr.group data.hdr.page (frame % 20) data.sketch.toNat
  replicatePage (reportHeld s id) id frame

/-- A page that a lap of the cluster holds and that is full and not sealed yet: the page the operation names, or the
first one kept OPEN (R82, R109). -/
def sealTarget (r : Run) (s : State) (u : Uop) : Option (Nat × Nat × PageData) :=
  let a := u.a.toNat
  let full := fun (d : PageData) => d.hdr.filled == r.shape.t && !d.hdr.sealed
  let named := match pageRef r a, slotSeq s r (refSlot a) with
    | some x, some (id, _) =>
      let v : FrameSt := getFr s x.frame
      match pageCopy s u.cl.val u.heat (fld u.b.toNat 16 0) x.frame with
      | some b => if (v.state == FrameState.opened || v.state == FrameState.sealing) && full b.copy && !v.damaged then some (id, x.frame, b.copy) else none
      | none => none
    | _, _ => none
  match named with
  | some x => some x
  | none => r.v.work.pages.l.findSome? fun (e : Nat × List LapPage) => match slotSeq s r (e.1 / 64) with
    | none => none
    | some (id, _) => e.2.findSome? fun (x : LapPage) =>
        let v : FrameSt := getFr s x.frame
        if v.state == .opened && full v.data && !v.damaged then some (id, x.frame, v.data) else none

/-- QEN.SEAL within the lap's seal time. -/
def sealOp (r : Run) (s : State) (u : Uop) : State :=
  if maxSeals r.image ≤ r.v.seals ∨ r.shape.t = 0 then s
  else match sealTarget r s u with
    | none => s
    | some (id, frame, d) =>
      if u.tagBad then raiseTag s u r 0x0001 (refSlot u.a.toNat) (refGroup u.a.toNat) r.shape.kFmt
      else
        let s := sealFrame s id frame r.m d
        let s := chargeDram s (hDomain r.h.record) true (4096 * ((getFr s frame).data.hdr.quartersM1 + 1) + 1024)
        modCl s u.heat u.cl.val fun v => { v with seals := v.seals + 1 }

/-- QEN.SEAL (R82, R109, R111, R133, R134). -/
def execQenSeal (u : Uop) (s : State) : Res := .next (withRun s u fun r s => sealOp r s u)

/-! ## CHN.RD -/

/-- A frame's state lets a lap of its heat read it (R109, R132). -/
def lapReadable (v : FrameSt) : Bool :=
  v.state == .opened || v.state == .sealing || v.state == .sealed || v.state == .shared
    || (v.state == .migrating && match v.mig with | some (.source ..) => true | _ => false)

/-- The frame a read claim fetches: the lap's page when a later entry of the timetable uses the reference, otherwise the
page that the reference will name in the heat's next lap (R51, R92, R523; assumption 34). -/
def claimFrame (r : Run) (s : State) (u : Uop) : Option Nat :=
  let a := u.a.toNat
  let tt := ttIndex s r.h u.cl.val
  let later := ((fromEntry r.image tt 4 1 u).drop 1).any fun e => (isOp e 2 1 || isOp e 3 1 || isOp e 3 2) && eA e == a
  if later then ((pageRef r a).filter fun x => !x.excluded).map (·.frame)
  else match slotSeq s r (refSlot a) with
    | none => none
    | some (_, q) =>
      let layers := mLayers r.m
      let wrap := decide (layers ≤ r.l.layer + 1)
      let c := slotLimit r (refSlot a) q + if wrap && (getSlot r.h (refSlot a)).part == .appends then 1 else 0
      ((buildPages r.image c (mT r.m) ((r.l.layer + 1) % max 1 layers) (refGroup a) u.cl.val q)[refOrd a]?).map (·.frame)

/-- A read claim of k slots: the page's copy, whole when its stored length is at most 2,048 × k (R67, R82). A link CRC
failure drops the data (R268). -/
def claimRead (r : Run) (s : State) (u : Uop) (linkFailures : Nat) (authOk : Bool) : State :=
  match claimFrame r s u with
  | none => s
  | some f =>
    let v := getFr s f
    if v.damaged || !lapReadable v then s
    else
      let bytes := storedBytes v.data (shapeOfHdr v.data.hdr (mHeadDim r.m)) (v.state == .sealed || v.state == .shared)
      let claim := 2048 * (fld u.b.toNat 19 17 + 1)
      let s := chargeDram s (hDomain r.h.record) false (min bytes claim)
      let (s, _) := linkFailed s u.cl.val linkFailures
      let b : BufPage := { frame := f, copy := v.data, whole := decide (bytes ≤ claim) && linkFailures == 0, authOk := authOk }
      { s with buffer := s.buffer.set (bufKey u.cl.val u.heat (fld u.b.toNat 16 0)) b }

/-- CHN.RD (R66, R67, R82, R109, R268). -/
def execChnRd (u : Uop) (linkFailures : Nat) (authOk : Bool) (s : State) : Res :=
  .next (withRun s u fun r s => claimRead r s u linkFailures authOk)

/-! ## CHN.WR -/

/-- A write claim writes the appended rows' blocks and then the sidecar under VERSION + 1 (R109, R131). -/
def claimWrite (r : Run) (s : State) (u : Uop) (linkFailures : Nat) : State :=
  let a := u.a.toNat
  match pageRef r a with
  | none => s
  | some x =>
    let addr := fld u.b.toNat 16 0
    match pageCopy s u.cl.val u.heat addr x.frame with
    | none => s
    | some b =>
      let v := getFr s x.frame
      if b.copy = v.data then s
      else if (v.state ≠ .opened ∧ v.state ≠ .sealing) ∨ v.domain ≠ hDomain r.h.record then
        raiseTag s u r 0x0002 (refSlot a) (refGroup a) r.shape.kFmt
      else
        let d := { b.copy with version := v.version + 1, key := (getD s v.domain).key }
        let s := setFr s x.frame { v with data := d, version := v.version + 1 }
        let s := { s with buffer := s.buffer.set (bufKey u.cl.val u.heat addr) { b with copy := d } }
        let rows := (rowBlocks r.shape (d.hdr.filled - 1)).length
        let s := chargeDram s (hDomain r.h.record) true (512 * rows + 1024)
        let (s, lost) := linkFailed s u.cl.val linkFailures
        if lost then damageFrame s x.frame else s

/-- CHN.WR (R109, R131, R268). -/
def execChnWr (u : Uop) (linkFailures : Nat) (s : State) : Res := .next (withRun s u fun r s => claimWrite r s u linkFailures)

end Sys2Proof.Machine
end

