-- ==== Sys2Proof/Machine/Select.lean ====
section
/-! DEFINITION. The page selector: SEL.REQ, queries, SEL.TAKE, recall audits (R81, R92, R186, R195 to R198, R201, R203,
R206, R207). -/

namespace Sys2Proof.Machine

/-! ## Heat selector records (R189) -/

def hsProbe (r : BitVec 64) : Nat := rf r 57 52 + 1
def hsProbeMax (r : BitVec 64) : Nat := rf r 51 46 + 1
def hsWiden (r : BitVec 64) : Bool := rb r 45
def hsOver (r : BitVec 64) : Nat := rf r 44 40
def hsCand (r : BitVec 64) : Nat := rf r 39 30 + 1
def hsAudit (r : BitVec 64) : Nat := rf r 15 0

/-! ## Posting (R186, R201) -/

/-- Decode steps of a heat that have begun: the number that tells FRESH lists from STALE ones (R203). -/
def decodeStep (r : Run) : Nat := (r.h.admitted - 1) / max 1 (mLayers r.m)

/-- Requests for the same row of the same lap slot. -/
def sameReq (a b : SelReq) : Bool :=
  a.cluster == b.cluster && a.heat == b.heat && a.slot == b.slot && a.group == b.group && a.layer == b.layer

/-- Queue a request: it replaces one for the same row, or joins the queue of 512, or is dropped and counted. -/
def postReq (s : State) (domain : Nat) (q : SelReq) : State :=
  if s.sel.queue.any (sameReq q) then
    { s with sel := { s.sel with queue := s.sel.queue.map fun x => if sameReq q x then q else x } }
  else if 512 ≤ (s.sel.queue.filter fun x => x.cluster == q.cluster).length then count s 1 domain 1
  else { s with sel := { s.sel with queue := s.sel.queue ++ [q] } }

/-- SEL.REQ: the query of a running slot's row is posted. -/
def selReqOp (r : Run) (s : State) (u : Uop) : State :=
  let slot := refSlot u.a.toNat
  let group := refGroup u.a.toNat
  match slotSeq s r slot with
  | none => s
  | some (id, q) =>
    let (fmt, l, _) := operandElems s u r u.core.val (fld u.b.toNat 13 0) false (mHpg r.m * r.dk)
    if fmt ≠ 0 ∧ fmt ≠ 1 ∧ fmt ≠ 3 then raiseTag s u r 0x0003 slot group fmt
    else if u.tagBad then raiseTag s u r 0x0001 slot group fmt
    else
      let v := l.map elemValue
      let heads := if v.all Num.isFinite then some ((chunks r.dk (mHpg r.m) v).map fun h => h.map toBits32) else none
      let c := slotLimit r slot q
      let req : SelReq :=
        { cluster := u.cl.val, heat := u.heat, slot := slot, group := group, layer := r.l.layer, seq := id, c := c,
          w0 := windowStart c (cWindow r.image) (max 1 (mT r.m)), step := decodeStep r, lap := r.l.number, heads := heads,
          k := cRetrieved r.image, selRec := r.h.selRec }
      postReq s q.domain req

/-- SEL.REQ (R92, R186, R201). -/
def execSelReq (u : Uop) (s : State) : Res := .next (withRun s u fun r s => selReqOp r s u)

/-! ## The query (R195 to R198) -/

/-- A sequence's filter bitmap allows a page (R200). -/
def filterAllows (s : State) (q : SeqSt) (page : Nat) : Bool :=
  match q.filter with
  | none => true
  | some (off, _) => (memRead s.bulk (off + page / 8)).getLsbD (page % 8)

/-- An entry is eligible for a request (R195). -/
def eligible (s : State) (req : SelReq) (q : SeqSt) (t : Nat) (e : IdxEntry) : Bool :=
  e.cluster == req.cluster && e.visible && !e.gone && decide (e.page < ceilDiv req.w0 t) && decide (e.page < req.c / t)
    && (match getLeaf q req.layer req.group e.page with
      | some f => !f.global && !q.globals.contains e.page && !(getFr s f.frame).damaged
      | none => false)
    && filterAllows s q e.page

/-- Sort by a key, then by page. -/
def sortBy (key : IdxEntry → Nat) (l : List IdxEntry) : List IdxEntry :=
  l.stableSort fun a b => decide (key a < key b) || (key a == key b && decide (a.page ≤ b.page))

/-- The cluster's share of k (R197). -/
def clusterShare (req : SelReq) (x : IndexSt) (t : Nat) : Nat :=
  let n := (x.entries.filter fun e => e.cluster == req.cluster && e.visible && !e.gone).length
  min req.k (ceilDiv (req.k * n * (8 + hsOver req.selRec)) (8 * max 1 (req.c / t)))

/-- Lists probed one after another: the first `probe`, then further ones while too few are found (R196). -/
def probeLists (lists : List (List IdxEntry)) (probe probeMax want : Nat) (widen : Bool) : List IdxEntry × Nat :=
  lists.zipIdx.foldl (fun (a : List IdxEntry × Nat) x =>
    if x.2 < probe ∨ (widen ∧ x.2 < probeMax ∧ a.1.length < want) then (a.1 ++ x.1, a.2 + 1) else a) ([], 0)

/-- A page's re-rank score for a request (R187). -/
def pageScore (s : State) (q : SeqSt) (seed : Nat) (req : SelReq) (heads : List (List Num)) (page : Nat) : Num :=
  match getLeaf q req.layer req.group page with
  | some f => rankScore (getFr s f.frame).data.landmarks.toNat (heads.map (rankVector seed))
  | none => .inf true

/-- Pages ranked by score descending, then page ascending. -/
def rankPages (s : State) (q : SeqSt) (seed : Nat) (req : SelReq) (heads : List (List Num)) (l : List IdxEntry) : List Nat :=
  ((l.map fun e => (pageScore s q seed req heads e.page, e.page)).stableSort fun a b =>
    b.1.lt a.1 || (!a.1.lt b.1 && decide (a.2 ≤ b.2))).map (·.2)

/-- What a query finds: the pages of its list, and whether it is PARTIAL (R198). -/
def queryList (s : State) (req : SelReq) (q : SeqSt) : List Nat × Bool :=
  match req.heads with
  | none => ([], false)
  | some hs =>
    let m := seqModel s q
    let t := max 1 (mT m)
    let seed := sSeed (mSel m)
    let heads := hs.map fun h => h.map ofBits32
    let sk := sketchOf seed 256 (sumRows (dKey (mHeadDim m)) heads)
    let x := getIdx s (idxKey req.seq req.layer req.group)
    let ok := x.entries.filter (eligible s req q t)
    let kc := clusterShare req x t
    let cand := hsCand req.selRec
    let active := (x.state == .active || x.state == .rebuilding) && !x.centroids.isEmpty
    let order := ((List.range x.centroids.length).map fun j => (hamming 256 (x.centroids.getD j 0) sk, j)).stableSort fun a b =>
      decide (a.1 < b.1) || (a.1 == b.1 && decide (a.2 ≤ b.2))
    let (found, probed) :=
      if active then probeLists (order.map fun j => ok.filter fun e => e.list == j.2) (hsProbe req.selRec) (hsProbeMax req.selRec) kc (hsWiden req.selRec)
      else (ok, 0)
    let kept := (sortBy (fun e => hamming 256 e.sketch sk) found).take cand
    let list := (rankPages s q seed req heads kept).take (min kc cand)
    (list, active && decide (list.length < min kc cand) && decide (probed < x.centroids.length))

/-- The oldest queued request of a cluster. -/
def nextReq (s : State) (c : Nat) : Option SelReq := s.sel.queue.find? fun x => x.cluster == c

/-- The n-th query of a heat in a cluster is audited (R206). -/
def auditDue (n rate : Nat) : Bool := decide ((n - 1) * rate / 65536 < n * rate / 65536)

/-- A request runs to its commit. -/
def runQuery (s : State) (c : Nat) : State :=
  match nextReq s c with
  | none => s
  | some req =>
    let s := { s with sel := { s.sel with queue := s.sel.queue.erase req } }
    match getQ s req.seq with
    | none => s
    | some q =>
      let (pages, isPartial) := queryList s req q
      let n := s.sel.queries.getD (req.heat * 32 + c) 0 + 1
      let x := getIdx s (idxKey req.seq req.layer req.group)
      let share := clusterShare req x (max 1 (mT (seqModel s q)))
      let item : SelList := { seq := req.seq, step := req.step, pages := pages, isPartial := isPartial }
      let audits := if auditDue n (hsAudit req.selRec) then s.sel.audits ++ [{ req := req, list := pages, share := share }] else s.sel.audits
      let sel := { s.sel with lists := s.sel.lists.set (listKey c req.heat req.slot req.group req.layer) item,
                              queries := s.sel.queries.set (req.heat * 32 + c) n, audits := audits }
      chargeDram { s with sel := sel } q.domain false (40 * (x.entries.filter fun e => e.cluster == c).length + 1024 * pages.length)

/-- SELECTOR_QUERY (R195 to R198, R201, R202). -/
def execSelectorQuery (cl : Cluster) (now : Nat) (s : State) : Res := .next (runQuery (clockTo s now) cl.val)

/-! ## Installation (R81, R201, R203) -/

/-- Pages of a committed list that the lap takes: on this node, in the cluster's channel, not listed yet. -/
def takePages (r : Run) (c slot group : Nat) (q : SeqSt) (l : List Nat) : List LapPage :=
  let have_ := (r.v.work.pages.getD (rowKey slot group) []).map (·.page)
  let pages := (l.filter fun p => !have_.contains p).stableSort fun a b => decide (a ≤ b)
  pages.filterMap fun p => match getLeaf q r.l.layer group p with
    | some f => if f.loc = 1 ∧ f.frame % 20 = c then some { page := p, frame := f.frame, first := 0, stop := mT r.m } else none
    | none => none

/-- SEL.TAKE: install the list most recently committed for the row. -/
def selTakeOp (r : Run) (s : State) (u : Uop) : State :=
  let slot := refSlot u.a.toNat
  let group := refGroup u.a.toNat
  let c := u.cl.val
  match slotSeq s r slot with
  | none => s
  | some (id, q) =>
    match (s.sel.lists.get? (listKey c u.heat slot group r.l.layer)).filter fun x => x.seq == id with
    | none => charge s q.domain .selNone 1
    | some x =>
      let old := r.v.work.pages.getD (rowKey slot group) []
      let refs := attended r.image (ttIndex s r.h c)
      let new := ((takePages r c slot group q x.pages).zipIdx).map fun e =>
        let ord := old.length + e.2
        let reached := decide (ord < maxPagesPerRow r.image) && refs.contains (refWord slot group ord)
        ({ e.1 with excluded := !reached || (getFr s e.1.frame).damaged }, reached)
      let lost := (new.filter fun e => e.1.excluded).foldl (fun n e => n + pageCount e.1) 0
      let s := modCl s u.heat c fun v =>
        let w := v.work
        { v with work := { w with pages := w.pages.set (rowKey slot group) (old ++ new.map (·.1)),
                                  excluded := addHeads w.excluded slot group (mHpg r.m) lost,
                                  flags := orHeads w.flags slot group (mHpg r.m) (if x.isPartial then flagPartialSel else 0) } }
      let s := match new.find? fun e => !e.2 with
        | some e => raisePage s 0x0011 c q.domain (hCtrlPort r.h.record) 0 id r.l.layer group e.1.page 0
        | none => s
      charge s q.domain (if x.step = decodeStep r then .selFresh else .selStale) 1

/-- SEL.TAKE (R81, R92, R201, R203). -/
def execSelTake (u : Uop) (s : State) : Res := .next (withRun s u fun r s => selTakeOp r s u)

/-! ## Recall audit (R206, R207) -/

/-- An audit counter of a model: 0 AUDITED, 1 EXACT, 2 OVERLAP, 3 AUDIT_SKIPPED. -/
def countAudit (s : State) (domain model place n : Nat) : State :=
  { s with sel := { s.sel with auditCounts := s.sel.auditCounts.upd ((domain * 65536 + model) * 4 + place) 0 fun c => satAdd 64 c n } }

/-- The oldest audit of a cluster. -/
def nextAudit (s : State) (c : Nat) : Option Audit := s.sel.audits.find? fun a => a.req.cluster == c

/-- An audit that was not started within 64 laps of its query (R206; laps by the node's lap counter). -/
def auditLate (s : State) (a : Audit) : Bool := decide (64 ≤ s.mem.lapNo - a.req.lap)

/-- The exhaustive list of an audit: every eligible entry of the cluster, ranked, with the same share. -/
def auditList (s : State) (a : Audit) (q : SeqSt) : List Nat :=
  match a.req.heads with
  | none => []
  | some hs =>
    let m := seqModel s q
    let x := getIdx s (idxKey a.req.seq a.req.layer a.req.group)
    let ok := x.entries.filter (eligible s a.req q (max 1 (mT m)))
    (rankPages s q (sSeed (mSel m)) a.req (hs.map fun h => h.map ofBits32) ok).take a.share

/-- An audit runs after every ordinary query of its cluster. -/
def auditOp (s : State) (c : Nat) : State :=
  if (nextReq s c).isSome then s
  else match nextAudit s c with
    | none => s
    | some a =>
      if auditLate s a then s
      else
        let s := { s with sel := { s.sel with audits := s.sel.audits.erase a } }
        match getQ s a.req.seq with
        | none => s
        | some q =>
          let exact := auditList s a q
          let same := (exact.filter fun p => a.list.contains p).length
          countAudit (countAudit (countAudit s q.domain q.model 0 1) q.domain q.model 1 exact.length) q.domain q.model 2 same

/-- RECALL_AUDIT (R206). -/
def execRecallAudit (cl : Cluster) (s : State) : Res := .next (auditOp s cl.val)

/-- An audit that waited too long is abandoned and counted. -/
def abandonAudit (s : State) (c : Nat) : State :=
  match nextAudit s c with
  | none => s
  | some a =>
    if auditLate s a then
      let s := { s with sel := { s.sel with audits := s.sel.audits.erase a } }
      match getQ s a.req.seq with
      | none => s
      | some q => count (countAudit s q.domain q.model 3 1) 1 q.domain 2
    else s

/-- AUDIT_ABANDON (R206). -/
def execAuditAbandon (cl : Cluster) (s : State) : Res := .next (abandonAudit s cl.val)

end Sys2Proof.Machine
end

