-- ==== Sys2Proof/Machine/Relay.lean ====
section
/-! DEFINITION. Batons, the relay stage, step results, stripe contributions and the lap's end (R51, R90, R163, R165, R170 to
R180, R244 to R249, R314, R361, R376). -/

namespace Sys2Proof.Machine

/-! ## Batons -/

/-- The statistics of a baton. -/
def batonStat (b : Baton) : Stat := { m := ofBits32 b.m, l := ofBits32 b.l, o := b.o.map ofBits32 }

/-- A vector through BATON_FMT and back (R173). -/
def throughFmt (fmt : Nat) (l : List Num) : List Num := l.map fun x => decodeElem fmt (encodeElem fmt x)

/-- Source of a stripe node's terms, after the 20 clusters. -/
def stripeSource (i : Nat) : Nat := 32 + i

/-- Key of a term at the relay stage. -/
def termKey (head source : Nat) : Nat := head * 4096 + source

/-- Positions of a row that a lap's page list holds in a cluster; before lap start, those it would hold. -/
def clusterPositions (s : State) (r : Run) (v : LapCl) (c slot group : Nat) : Nat :=
  let l := if v.phase = .waiting ∨ v.start = 0 ∧ v.work.pages.l.isEmpty then
      match slotSeq s r slot with
      | some (_, q) => buildPages r.image (slotLimit r slot q) (mT r.m) r.l.layer group c q
      | none => []
    else v.work.pages.getD (rowKey slot group) []
  l.foldl (fun n x => n + pageCount x) 0

/-- A baton that carries no result: every position of the cluster for the head is excluded (R90). -/
def lostBaton (s : State) (r : Run) (v : LapCl) (c slot group : Nat) : Baton :=
  { o := List.replicate r.dv 0, excluded := satAdd 24 0 (clusterPositions s r v c slot group) }

/-! ## NET.BTN (R24, R170, R173, R176) -/

/-- Batons of the heads of a mask, from the statistics at the source. -/
def sendBatons (r : Run) (s : State) (u : Uop) : State :=
  let heads := bitsOf (fld u.a.toNat 31 16) 16
  let (l, own) := readStats s u u.core.val (fld u.a.toNat 13 0) r.dv heads.length
  match own with
  | none => s
  | some k =>
    let slot := k / 1024
    let group := k / 16 % 64
    let bad := u.tagBad
    let s := if bad then raiseTag s u r 0x0001 slot group (mBatonFmt r.m) else s
    let w := r.v.work
    let batons := (heads.zip l).foldl (fun (m : Map Baton) e =>
      let key := headKey slot group e.1
      let b : Baton := if bad then lostBaton s r r.v u.cl.val slot group
        else { m := toBits32 e.2.m, l := toBits32 e.2.l, o := (throughFmt (mBatonFmt r.m) e.2.o).map toBits32,
               attended := w.attended.getD key 0, excluded := w.excluded.getD key 0, nonfinite := w.nonfinite.getD key 0,
               flags := w.flags.getD key 0 }
      m.set (termKey key u.cl.val) b) r.l.batons
    let s := modLap s u.heat fun x => { x with batons := batons }
    modCl s u.heat u.cl.val fun v => { v with sent := (v.sent ++ heads.map (headKey slot group)).eraseDups }

/-- A column share of a slot's partial output. -/
def sendShare (r : Run) (s : State) (u : Uop) : State :=
  let units := operandUnits s u r u.core.val (fld u.a.toNat 13 0) false (fld u.b.toNat 15 0)
  let fmt := (units.headD {}).fmt
  let slot := (unitOwn units).getD 0 / 1024
  if u.tagBad ∨ (fmt ≠ 0 ∧ fmt ≠ 7) then raiseTag s u r 0x0001 slot 0 fmt
  else
    let n := units.length * 512 / fmtBits fmt
    let l := (elems (fmtBits fmt) (unitBytes units) n).map fun x => toBits32 (decodeElem fmt x)
    modLap s u.heat fun x => { x with shares := x.shares.set (termKey slot u.cl.val) l }

/-- NET.BTN (R24, R170, R173, R176). -/
def execNetBtn (u : Uop) (s : State) : Res :=
  .next (withRun s u fun r s => if bit u.c.toNat 0 then sendShare r s u else sendBatons r s u)

/-! ## What the relay stage waits for (R90, R178, R376) -/

/-- The lap of a heat as the relay stage sees it. -/
def relayRun (s : State) (k : Nat) : Option Run :=
  match getH s k with
  | none => none
  | some h => h.lap.map fun l => { h := h, l := l, v := {}, image := heatImage s h, m := heatModel s h }

/-- The cluster issues nothing more for the lap. -/
def clusterDone (v : LapCl) : Bool := v.phase == .ended || v.phase == .abandoned

/-- Heads of a slot that this node hosts, by (group, head). -/
def slotHeads (r : Run) (q : SeqSt) : List (Nat × Nat) :=
  (groupsOf q).flatMap fun g => (List.range (mHpg r.m)).map fun h => (g, h)

/-- Slots that hold a sequence, with it. -/
def heldSlots (s : State) (r : Run) : List (Nat × Nat × SeqSt) :=
  (List.range (hSlots r.h.record)).filterMap fun n => match (getSlot r.h n).seq with
    | none => none
    | some id => (getQ s id).map fun q => (n, id, q)

/-- Every baton of a cluster has arrived, or none will come any more. -/
def batonsReady (s : State) (r : Run) : Bool :=
  r.l.cls.all fun _ v => clusterDone v || (heldSlots s r).all fun x =>
    !(getSlot r.h x.1).runs || (slotHeads r x.2.2).all fun gh => v.sent.contains (headKey x.1 gh.1 gh.2)

/-- The lap returns normalised heads projected to a partial output (R174). -/
def projects (r : Run) : Bool := cOutputMode r.image == 0 && mOproj r.m

/-- Every column share has arrived, or none will come any more. -/
def sharesReady (s : State) (r : Run) : Bool :=
  r.l.heads.isSome && r.l.cls.all fun c v => clusterDone v || (heldSlots s r).all fun x =>
    !(getSlot r.h x.1).runs || r.l.shares.has (termKey x.1 c)

/-- A stripe node whose contribution is waited for: not this node, not fenced, not declared failed (R376). -/
def contributes (s : State) (node : Nat) : Bool := node != s.nodeNo && !s.net.fencedNodes.contains node && !s.place.failed.has node

/-- Every contribution of stripe nodes has arrived. -/
def stripesReady (s : State) (r : Run) : Bool :=
  (heldSlots s r).all fun x => x.2.2.stripes.zipIdx.all fun e =>
    !contributes s e.1 || r.l.remote.has (x.1 * 64 + e.2)

/-! ## Folds (R163, R177 to R180) -/

/-- Terms of a head folded in order, with their counts and flags (R177, R179). -/
def mergeTerms (dv : Nat) (l : List Baton) : Baton :=
  let f := foldStats dv (l.map batonStat)
  let sum := fun (g : Baton → Nat) => l.foldl (fun n b => satAdd 24 n (g b)) 0
  { m := toBits32 f.1.m, l := toBits32 f.1.l, o := f.1.o.map toBits32, attended := sum (·.attended), excluded := sum (·.excluded),
    nonfinite := sum (·.nonfinite), flags := l.foldl (fun n b => n ||| b.flags) (if f.2 then flagOverflow else 0) }

/-- The node's own term of a head: its clusters' batons in ascending cluster number. -/
def localTerm (s : State) (r : Run) (slot group head : Nat) : Baton :=
  mergeTerms r.dv (r.l.cls.l.map fun e =>
    match r.l.batons.get? (termKey (headKey slot group head) e.1) with
    | some b => b
    | none => if (getSlot r.h slot).runs then lostBaton s r e.2 e.1 slot group else { o := List.replicate r.dv 0 })

/-- A group is complete on this node: every page from 0 to the page that holds c lies here (R175). -/
def groupComplete (r : Run) (slot group : Nat) (q : SeqSt) : Bool :=
  let t := mT r.m
  !(getSlot r.h slot).runs || t == 0 || (List.range (slotLimit r slot q / t + 1)).all fun p =>
    (getLeaf q r.l.layer group p).any fun e => e.loc == 1

/-- A head with its sink folded, normalised (R178): the elements, and whether the sink's fold saturated. -/
def finishHead (s : State) (r : Run) (group head : Nat) (b : Baton) : List Num × Bool :=
  let st := batonStat b
  match getM s (hDomain r.h.record) (hModel r.h.record) with
  | some md =>
    if mSinks r.m then
      let f := foldStat st { m := sinkScore md (group * mHpg r.m + head), l := Num.one, o := List.replicate r.dv Num.zero }
      (normalise f.1, f.2)
    else (normalise st, false)
  | none => (normalise st, false)

/-! ## The multicast of normalised heads (R176) -/

/-- The heads of every slot's complete groups, normalised, in OUT_FMT; slots at equal distances (assumption 17). -/
def multicastUnits (s : State) (r : Run) : List Nat :=
  let fmt := mOutFmt r.m
  (List.range (hSlots r.h.record)).flatMap fun n =>
    let l : List Num := match (getSlot r.h n).seq.bind (getQ s) with
      | none => []
      | some q => (slotHeads r q).flatMap fun (gh : Nat × Nat) =>
          if groupComplete r n gh.1 q then (finishHead s r gh.1 gh.2 (localTerm s r n gh.1 gh.2)).1 else List.replicate r.dv Num.zero
    let bytes := packElems (fmtBits fmt) (l.map (encodeElem fmt))
    (List.range (headsPitch r)).map fun j => bytes / 2 ^ (512 * j) % 2 ^ 512

/-! ## Contributions of a slot -/

/-- The partial output of a slot from its column shares, in ascending cluster number; columns whose share never came are
zero (assumption 35). -/
def partialOutput (r : Run) (slot : Nat) : List Num :=
  let width := mWidth r.m
  let got := r.l.cls.l.map fun e => r.l.shares.get? (termKey slot e.1)
  let have_ := got.foldl (fun n x => n + (x.getD []).length) 0
  let missing := (got.filter Option.isNone).length
  let pad := if missing = 0 then 0 else (width - have_) / missing
  (((got.flatMap fun x => x.getD (List.replicate pad 0)).map ofBits32) ++ List.replicate width Num.zero).take width

/-- SPLIT_MASK of this node's groups of a slot: those not complete here, in head-complete laps (R175). -/
def ownSplit (r : Run) (slot : Nat) (q : SeqSt) : Nat :=
  if cOutputMode r.image = 1 then 0 else maskFrom ((groupsOf q).filter fun g => !groupComplete r slot g q)

/-- Status of a slot's row on this node (R248). -/
def slotStatus (s : State) (r : Run) (n : Nat) : Status :=
  let x := getSlot r.h n
  let q := x.seq.bind (getQ s)
  let bad := (getM s (hDomain r.h.record) (hModel r.h.record)).any (·.damaged)
  if x.status ≠ .ok then x.status
  else match x.gone with
    | some st => st
    | none =>
      if x.rowStatus ≠ .ok then x.rowStatus
      else if (q.any fun q => q.damagedTo.isSome) ∨ (bad ∧ x.seq.isSome) then .damaged
      else if q.any fun q => q.sb == 0 then .noHeadroom
      else .ok

/-- Place of a status in the order of R248. -/
def statusOrder (st : Status) : Nat :=
  match st with
  | .ok => 9
  | .noHeadroom => 8
  | .damaged => 7
  | .lost => 3
  | _ => 4

/-- The later statuses give way to the earlier ones. -/
def worseStatus (a b : Status) : Status := if statusOrder b < statusOrder a then b else a

/-- LENGTH at the end of the step. -/
def endLength (r : Run) (n : Nat) (q : SeqSt) : Nat :=
  if (getSlot r.h n).part = .appends ∧ mLayers r.m ≤ r.l.layer + 1 then q.length + 1 else q.length

/-- The part of a slot header that the node's own slot gives (R245), with places as in the header. -/
def ownSlotWord (s : State) (r : Run) (n : Nat) : Nat :=
  let x := getSlot r.h n
  let q := x.seq.bind (getQ s)
  pack [(272, 16, x.retryUs), (108, 1, b2n (q.any fun q => q.sb == 0)), (107, 1, b2n x.runs),
    (106, 1, b2n (x.runs && x.part == .appends)), (105, 1, b2n x.left), (104, 1, b2n x.joined), (103, 1, b2n x.seq.isNone),
    (74, 25, (q.map (endLength r n)).getD 0), (64, 10, n), (0, 48, x.seq.getD 0)]

/-- A descriptor (R171). -/
def descriptor (r : Run) (slot group head : Nat) (b : Baton) (split norm sink : Bool) : Nat :=
  pack [(104, 24, b.attended), (80, 24, b.excluded), (56, 24, b.nonfinite), (54, 1, b2n split), (53, 1, b2n norm), (52, 1, b2n sink),
    (51, 1, b.flags / 4 % 2), (50, 1, b.flags / 2 % 2), (49, 1, b.flags % 2), (48, 1, b2n (b.attended == 0)), (38, 10, slot),
    (32, 6, group), (28, 4, head), (20, 8, r.l.layer), (15, 5, mBatonFmt r.m)]

/-- A head record as it travels (R170): m, l, o in BATON_FMT. -/
def headRecord (r : Run) (b : Baton) : Nat :=
  let f := mBatonFmt r.m
  b.m + b.l * 2 ^ 32 + packElems (fmtBits f) (b.o.map fun x => encodeElem f (ofBits32 x)) * 2 ^ 64

/-- Length of a head record. -/
def recordLen (r : Run) : Nat := 8 + r.dv * fmtBits (mBatonFmt r.m) / 8

/-! ## The contribution of a stripe node (R249, R314) -/

/-- Descriptors of a group: one for all heads, and one for each head that differs from it. -/
def groupDescriptors (s : State) (r : Run) (slot group : Nat) (split : Bool) : List Nat :=
  let l := (List.range (mHpg r.m)).map fun h => (h, localTerm s r slot group h)
  match l with
  | [] => []
  | (_, b0) :: _ =>
    let differs := fun (b : Baton) => b.attended != b0.attended || b.excluded != b0.excluded || b.nonfinite != b0.nonfinite || b.flags != b0.flags
    (descriptor r slot group 0 b0 split false false + 2 ^ 14) ::
      ((l.filter fun e => differs e.2).map fun e => descriptor r slot group e.1 e.2 split false false)

/-- The BATON message of a slot. -/
def batonMsg (s : State) (r : Run) (k n id : Nat) (q : SeqSt) : SendMsg :=
  let split := ownSplit r n q
  let part := projects r
  let descs := (groupsOf q).flatMap fun g => groupDescriptors s r n g (bit split g)
  let groups := if part then bitsOf split 64 else groupsOf q
  let recs := groups.flatMap fun g => (List.range (mHpg r.m)).map fun h => headRecord r (localTerm s r n g h)
  let f := mOutFmt r.m
  let po := if part then packElems (fmtBits f) ((partialOutput r n).map (encodeElem f)) else 0
  let poLen := if part then mWidth r.m * fmtBits f / 8 else 0
  let w := ownSlotWord s r n
  let summary := pack [(128, 11, descs.length), (112, 16, (slotStatus s r n).code), (106, 6, fld w 108 103), (111, 1, fld w 108 108),
    (110, 1, fld w 107 107), (109, 1, fld w 106 106), (108, 1, fld w 105 105), (107, 1, fld w 104 104), (81, 25, fld w 98 74),
    (65, 16, fld w 287 272), (64, 1, b2n part), (0, 64, if part then split else q.groupMask)]
  { op := 10, total := 16 * descs.length + poLen + recs.length * recordLen r, extLen := 3, purpose := .step,
    ext := attnExt r.l.step.toNat r.l.layer n k id 0 + summary * 2 ^ 128,
    data := packElems 128 descs + (po + packElems (8 * recordLen r) recs * 2 ^ (8 * poLen)) * 2 ^ (128 * descs.length) }

/-- A stripe node sends every occupied slot's results to the home node of the heat. -/
def sendContributions (s : State) (r : Run) (k peer : Nat) : State :=
  (heldSlots s r).foldl (fun s x =>
    let (q, s) := internalQueue s 0 peer k (hDomain r.h.record) 0
    match q with
    | none => s
    | some qk => launchInternal s qk (batonMsg s r k x.1 x.2.1 x.2.2)) s

/-! ## The merged result of a slot (R175, R180, R246, R249) -/

/-- Contributions of stripe nodes to a slot that have arrived: stripe index, node, summary. -/
def remoteParts (s : State) (r : Run) (n : Nat) (q : SeqSt) : List (Nat × Nat × Nat) :=
  q.stripes.zipIdx.filterMap fun e =>
    if contributes s e.1 then (r.l.remote.get? (n * 64 + e.2)).map fun w => (e.2, e.1, w) else none

/-- The node's own stripe index. -/
def ownIndex (s : State) (q : SeqSt) : Nat := (q.stripes.findIdx? fun n => n == s.nodeNo).getD 0

/-- Groups that a fenced or failed stripe node holds (R376). -/
def lostGroups (s : State) (q : SeqSt) : Nat :=
  q.stripes.foldl (fun m n => if n ≠ s.nodeNo ∧ !contributes s n then m ||| q.masks.getD n 0 else m) 0

/-- A head's merged baton: the node's own term and those of stripe nodes, in ascending stripe index (R163). -/
def mergedHead (s : State) (r : Run) (n : Nat) (q : SeqSt) (g h : Nat) : Baton :=
  let own := if bit q.groupMask g then [(ownIndex s q, localTerm s r n g h)] else []
  let rest := (remoteParts s r n q).filterMap fun p => (r.l.batons.get? (termKey (headKey n g h) (stripeSource p.1))).map fun b => (p.1, b)
  let l := ((own ++ rest).stableSort fun a b => decide (a.1 ≤ b.1)).map (·.2)
  let merged := mergeTerms r.dv (l.filter fun b => !b.o.isEmpty)
  { merged with attended := l.foldl (fun n b => satAdd 24 n b.attended) 0, excluded := l.foldl (fun n b => satAdd 24 n b.excluded) 0,
                nonfinite := l.foldl (fun n b => satAdd 24 n b.nonfinite) 0, flags := merged.flags ||| l.foldl (fun n b => n ||| b.flags) 0 }

/-- Groups of a slot that some node returns as SPLIT batons. -/
def splitMask (s : State) (r : Run) (n : Nat) (q : SeqSt) : Nat :=
  (remoteParts s r n q).foldl (fun m p =>
    m ||| (if bit p.2.2 64 then fld p.2.2 63 0 else 0)
      ||| maskFrom ((List.range 64).filter fun g => (List.range (mHpg r.m)).any fun h =>
        (r.l.batons.get? (termKey (headKey n g h) (stripeSource p.1))).any fun b => bit b.flags 3)) (ownSplit r n q)

/-- Groups whose results the relay has. -/
def resultMask (s : State) (r : Run) (n : Nat) (q : SeqSt) : Nat :=
  let m := (remoteParts s r n q).foldl (fun m p => m ||| q.masks.getD p.2.1 0 ||| (if bit p.2.2 64 then 0 else fld p.2.2 63 0)) q.groupMask
  m ^^^ (m &&& lostGroups s q)

/-- The partial outputs of a slot, summed in ascending stripe index from +0, saturating (R180). -/
def summedPartial (s : State) (r : Run) (n : Nat) (q : SeqSt) : List Num :=
  let own := [(ownIndex s q, partialOutput r n)]
  let rest := (remoteParts s r n q).filterMap fun p => (r.l.shares.get? (termKey n (stripeSource p.1))).map fun l => (p.1, l.map ofBits32)
  let l := ((own ++ rest).stableSort fun a b => decide (a.1 ≤ b.1)).map (·.2)
  l.foldl (fun acc x => (acc.zip x).map fun e => (addSat e.1 e.2).1) (List.replicate (mWidth r.m) Num.zero)

/-- A write to a host, charged to a domain. -/
def hostPut (s : State) (p : Port) (domain addr len data : Nat) : State :=
  if len = 0 then s else emit (chargePcie s domain true len) (.hostWrite p addr len data)

/-- The slot header of a result row (R245, R247, R249). -/
def slotHeader (s : State) (r : Run) (n : Nat) : Nat :=
  let own := ownSlotWord s r n
  match (getSlot r.h n).seq.bind (getQ s) with
  | none => own + pack [(48, 16, (slotStatus s r n).code)]
  | some q =>
    let mask := resultMask s r n q
    let heads := (bitsOf mask 64).flatMap fun g => (List.range (mHpg r.m)).map fun h => mergedHead s r n q g h
    let sum := fun (g : Baton → Nat) => heads.foldl (fun n b => satAdd 32 n (g b)) 0
    let flags := heads.foldl (fun n b => n ||| b.flags) 0
    let parts := remoteParts s r n q
    let st0 := parts.foldl (fun st p => worseStatus st ((Status.ofCode (fld p.2.2 127 112)).getD .badState)) (slotStatus s r n)
    let st := if lostGroups s q = 0 then st0 else worseStatus st0 .damaged
    let ors := parts.foldl (fun m p => m ||| pack [(108, 1, fld p.2.2 111 111), (107, 1, fld p.2.2 110 110), (106, 1, fld p.2.2 109 109),
      (105, 1, fld p.2.2 108 108), (104, 1, fld p.2.2 107 107)]) 0
    (own ||| ors) + pack [(448, 64, splitMask s r n q &&& mask), (384, 64, mask), (352, 32, sum (·.nonfinite)), (320, 32, sum (·.excluded)),
      (288, 32, sum (·.attended)), (111, 1, flags % 2), (110, 1, flags / 2 % 2), (109, 1, flags / 4 % 2), (48, 16, st.code)]

/-- The areas of a slot's result row (R246). -/
def writeAreas (s : State) (r : Run) (n base : Nat) (q : SeqSt) : State :=
  let p := hCtrlPort r.h.record
  let d := hDomain r.h.record
  let mask := resultMask s r n q
  let split := splitMask s r n q
  let mode1 := cOutputMode r.image == 1
  let f := mOutFmt r.m
  let cellA := r.dv * fmtBits f / 8
  let baseB := base + 64 + areaA r.m r.image
  let s := if projects r then hostPut s p d (base + 64) (areaA r.m r.image) (packElems (fmtBits f) ((summedPartial s r n q).map (encodeElem f))) else s
  (bitsOf mask 64).foldl (fun s g => (List.range (mHpg r.m)).foldl (fun s h =>
    let b := mergedHead s r n q g h
    let i := g * mHpg r.m + h
    if mode1 || bit split g then
      let w := headRecord r b + descriptor r n g h b (!mode1) false false * 2 ^ (8 * recordLen r)
      hostPut s p d (baseB + i * cellB r.m) (cellB r.m) w
    else if projects r then s
    else hostPut s p d (base + 64 + i * cellA) cellA (packElems (fmtBits f) ((finishHead s r g h b).1.map (encodeElem f)))) s) s

/-- One slot's result row. -/
def writeRow (s : State) (r : Run) (n : Nat) : State :=
  let base := entryAddr r.h r.l.entry + 64 + n * resultRowLen r.h
  let s := hostPut s (hCtrlPort r.h.record) (hDomain r.h.record) base 64 (slotHeader s r n)
  match (getSlot r.h n).seq.bind (getQ s) with
  | none => s
  | some q => writeAreas s r n base q

/-- The lowest cluster's lap start and WAIT (R48). -/
def lowStart (r : Run) : Nat × Nat := match r.l.cls.l with | [] => (0, 0) | e :: _ => (e.2.start, e.2.wait)

/-- A step's result: the rows, then the header, then the interrupt (R48, R247). -/
def writeResult (s : State) (r : Run) (k : Nat) : State :=
  let p := hCtrlPort r.h.record
  let s := (List.range (hSlots r.h.record)).foldl (fun s n => writeRow s r n) s
  let t := lowStart r
  let s := hostPut s p (hDomain r.h.record) (entryAddr r.h r.l.entry) 64
    (resultHeader t.1 r.l.accept t.2 0 (hSlots r.h.record) r.l.layer k r.l.step.toNat)
  if hInt r.h.record then msix s p r.h.func (hVector r.h.record) else s

/-- The relay stage of a heat's slice does what it can: the multicast, then the result (R176, R178). -/
def relayOp (s : State) (k : Nat) : State :=
  match relayRun s k with
  | none => s
  | some r =>
    if r.l.folded || !batonsReady s r then s
    else if projects r && r.l.heads.isNone then modLap s k fun l => { l with heads := some (multicastUnits s r) }
    else if projects r && !sharesReady s r then s
    else match r.h.master with
      | some peer => modLap (sendContributions s r k peer) k fun l => { l with folded := true }
      | none =>
        if stripesReady s r then modLap (writeResult s r k) k fun l => { l with folded := true } else s

/-- RELAY_FOLD (R163, R165, R174 to R181, R244 to R249). -/
def execRelayFold (heat now : Nat) (s : State) : Res := .next (relayOp (clockTo s now) heat)

/-! ## BATON (R249, R314) -/

/-- The counts and flags of a descriptor; flag bit 3 is SPLIT. -/
def batonOf (d : Nat) : Baton :=
  { attended := fld d 127 104, excluded := fld d 103 80, nonfinite := fld d 79 56,
    flags := fld d 49 49 + 2 * fld d 50 50 + 4 * fld d 51 51 + 8 * fld d 54 54 }

/-- The descriptor that applies to a head: its own, or the one for all heads of its group. -/
def descFor (l : List Nat) (g h : Nat) : Baton :=
  match l.find? fun d => fld d 37 32 == g && !bit d 14 && fld d 31 28 == h with
  | some d => batonOf d
  | none => match l.find? fun d => fld d 37 32 == g && bit d 14 with
    | some d => batonOf d
    | none => {}

/-- A stripe node's contribution is taken into the running lap it belongs to. -/
def takeBaton (s : State) (r : Run) (k n idx : Nat) (m : RecvMsg) : State :=
  let w := m.ext / 2 ^ 128
  let nd := fld w 138 128
  let descs := elems 128 m.data nd
  let part := bit w 64
  let f := mOutFmt r.m
  let poLen := if part then mWidth r.m * fmtBits f / 8 else 0
  let rest := m.data / 2 ^ (128 * nd)
  let po := (elems (fmtBits f) (rest % 2 ^ (8 * poLen)) (if part then mWidth r.m else 0)).map fun x => toBits32 (decodeElem f x)
  let bf := mBatonFmt r.m
  let carried := (bitsOf (fld w 63 0) 64).flatMap fun g => (List.range (mHpg r.m)).map fun h => (g, h)
  let recs := elems (8 * recordLen r) (rest / 2 ^ (8 * poLen)) carried.length
  let named := (descs.map fun d => fld d 37 32).eraseDups
  let all := named.flatMap fun g => (List.range (mHpg r.m)).map fun h => (g, h)
  let batons := all.foldl (fun (b : Map Baton) gh =>
    let c := descFor descs gh.1 gh.2
    let x := match carried.findIdx? fun e => e == gh with
      | none => c
      | some i =>
        let y := recs.getD i 0
        { c with m := y % 2 ^ 32, l := y / 2 ^ 32 % 2 ^ 32,
                 o := (elems (fmtBits bf) (y / 2 ^ 64) r.dv).map fun e => toBits32 (decodeElem bf e) }
    b.set (termKey (headKey n gh.1 gh.2) (stripeSource idx)) x) r.l.batons
  modLap s k fun l => { l with batons := batons, remote := l.remote.set (n * 64 + idx) w,
                               shares := if part then l.shares.set (termKey n (stripeSource idx)) po else l.shares }

/-- A delivered BATON: dropped when no lap of its step runs. -/
def batonOp (s : State) (m : MsgRef) : State :=
  match deliverable s m 10 with
  | none => s
  | some (q, x) =>
    let k := fld x.ext 23 12
    let n := fld x.ext 33 24
    let s1 := match relayRun s k with
      | none => s
      | some r => match (getSlot r.h n).seq.bind (getQ s) with
        | none => s
        | some sq => match sq.stripes.findIdx? fun node => node == qPeerNode q with
          | none => s
          | some i =>
            if r.h.master.isNone ∧ r.l.step.toNat = fld x.ext 127 96 ∧ hDomain r.h.record = q.domain then takeBaton s r k n i x else s
    delivered s1 m.queue

/-- BATON (R249, R314). -/
def execBaton (m : MsgRef) (s : State) : Res := .next (batonOp (clockTo s m.now) m)

/-! ## The lap's end (R51, R131, R240, R361) -/

/-- An open page of a row reads as written up to a position, holes and all (R240). -/
def fillHoles (s : State) (q : SeqSt) (p : Nat) : State :=
  let t := mT (seqModel s q)
  if t = 0 then s
  else q.leaves.fold (fun s k e =>
    let v := getFr s e.frame
    if e.loc = 1 ∧ keyPage k = p / t ∧ v.state = .opened ∧ v.data.hdr.filled < p % t + 1 then modFr s e.frame fun v => refill v (p % t + 1)
    else s) s

/-- The decode step of a slot is over: LENGTH advances when it appended, and a batch falls due at multiples of S (R131,
R361). Results carry DAMAGED until LENGTH has returned to its value at the failure (R148). -/
def endDecode (s : State) (k n : Nat) : State :=
  match getH s k with
  | none => s
  | some h =>
    let x := getSlot h n
    match x.seq with
    | none => s
    | some id => match getQ s id with
      | none => s
      | some q =>
        if x.part = .appends then
          let s := fillHoles s q q.length
          let s := modQ s id fun q => { q with length := q.length + 1, damagedTo := q.damagedTo.filter fun d => decide (q.length + 1 < d) }
          let s := recordChanged s id
          if (q.length + 1) % max 1 q.replS = 0 then sendBatch s id else s
        else s

/-- Frames whose seal never came stay OPEN (R109). -/
def unsealFrames (s : State) (r : Run) : State :=
  r.l.cls.fold (fun s _ v => v.work.pages.fold (fun s _ l => l.foldl (fun s x =>
    if (getFr s x.frame).state = .sealing then modFr s x.frame fun v => { v with state := .opened } else s) s) s) s

/-- After a lap's end: a STOPPING heat is STOPPED, a doomed one is destroyed. -/
def settleHeat (s : State) (k : Nat) : State :=
  match getH s k with
  | none => s
  | some h =>
    let s := if h.state = .stopping then
        finishWhere (setH s k { h with state := .stopped }) (fun g => g.key == .heat k && g.opcode == 0x0605) .ok 0 0
      else s
    if h.doomed then destroyHeat s k else s

/-- The lap of a heat ends once every cluster is through and the result is written. -/
def lapEndOp (s : State) (k : Nat) : State :=
  match relayRun s k with
  | none => s
  | some r =>
    if !r.l.folded || !(r.l.cls.all fun _ v => clusterDone v) then s
    else
      let s := unsealFrames s r
      let s := if mLayers r.m ≤ r.l.layer + 1 then overSlots k (hSlots r.h.record) (fun s n => endDecode s k n) s else s
      let s := freeReserved s r.l.leaving
      let s := modH s k fun h => { h with lap := none }
      let s := settleHeat s k
      let s := r.l.cls.fold (fun s c _ => if (getC s c).holder.isNone && (getC s c).granted.isNone then arbitrateFree s c else s) s
      match heatSlice s r.h with | some sl => acceptHeldIn s sl | none => s

/-- LAP_END (R51). -/
def execLapEnd (heat now : Nat) (s : State) : Res := .next (lapEndOp (clockTo s now) heat)

end Sys2Proof.Machine
end

