-- ==== Sys2Proof/Machine/Frames.lean ====
section
/-! DEFINITION. Pools, reclamation, slack, repair, copies and truncation of frames (R109 to R120, R168, R210, R279). -/

namespace Sys2Proof.Machine

/-! ## Reserved pools (R114) -/

/-- RESERVE_DEPTH in effect. -/
def reserveDepth (s : State) : Nat := rf s.mem.record 47 34

/-- One frame joins a pool, when it is FREE, of the channel, in no list, and the pool is short of its depth. -/
def refillOne (s : State) (sl ch f : Nat) : State :=
  if frameOk s f ∧ f % 20 = ch ∧ (getFr s f).state = .free ∧ !inPool s f ∧ (poolOf s sl ch).length < reserveDepth s then
    setPool s sl ch (poolOf s sl ch ++ [f])
  else s

/-- POOL_REFILL (R114): the frames the Puppeteer chose. -/
def execPoolRefill (slice : Nat) (ch : Cluster) (frames : List Nat) (s : State) : Res :=
  .next (if pageOn s && (getS s slice).state == .enabled && (sliceClusters s slice).contains ch.val && !(getC s ch.val).quarantined then
    frames.foldl (fun s f => refillOne s slice ch.val f) s else s)

/-! ## Slack (R111, R112) -/

/-- Quarters of a frame's slack that no occupant uses, when the frame can take one of a domain. -/
def slackRoom (s : State) (f dom : Nat) : Nat :=
  let v := getFr s f
  if (v.state = .sealed ∨ v.state = .shared) ∧ !v.retiring ∧ !v.damaged ∧ v.slack.isNone
      ∧ (!domSealed s v.domain ∨ v.domain = dom) ∧ !(getC s (f % 20)).quarantined then quartersWith v.qmap 1 else 0

/-- Quarters a frame would have without its occupant. -/
def slackTotal (s : State) (f dom : Nat) : Nat :=
  let v := getFr s f
  slackRoom (setFr s f { v with slack := none, qmap := (List.range 4).foldl (fun q k =>
    if rf q (2 * k + 1) (2 * k) = 2 ∨ rf q (2 * k + 1) (2 * k) = 3 then rset q (2 * k + 1) (2 * k) 1 else q) v.qmap }) f dom

/-- Put an occupant into a frame's last quarters. -/
def occupy (s : State) (f : Nat) (r : SlackRec) : State :=
  let before := freeSlack s (f % 20)
  let s := modFr s f fun v => { v with slack := some r, qmap := (List.range r.quarters).foldl (fun q i =>
    rset q (2 * (3 - i) + 1) (2 * (3 - i)) (r.kind + 1)) v.qmap }
  slackCheck s (f % 20) before

/-- Take a frame's occupant out: its quarters are free slack again. -/
def vacate (s : State) (f : Nat) : State :=
  let before := freeSlack s (f % 20)
  let s := modFr s f fun v => { v with slack := none, qmap := (List.range 4).foldl (fun q k =>
    if rf q (2 * k + 1) (2 * k) = 2 ∨ rf q (2 * k + 1) (2 * k) = 3 then rset q (2 * k + 1) (2 * k) 1 else q) v.qmap }
  slackCheck s (f % 20) before

/-- A replica is given up: its origin is told (R349, R366). -/
def reportEvicted (s : State) (origin seq reason : Nat) : State :=
  sendMgmt s origin 0x000D 0 14 (pack [(0, 8, 1), (8, 8, reason), (64, 48, seq)])

/-- The occupants of a slice's channels, by frame. -/
def occupants (s : State) (sl : Nat) : List (Nat × SlackRec) :=
  let chs := sliceClusters s sl
  s.mem.frames.l.filterMap fun e => if chs.contains (e.1 % 20) then e.2.slack.map fun r => (e.1, r) else none

/-- Frames of a slice that could take an occupant now. -/
def slackHost (s : State) (sl : Nat) (r : SlackRec) : Option Nat :=
  let chs := sliceClusters s sl
  (s.mem.frames.l.find? fun e => chs.contains (e.1 % 20) && decide (r.quarters ≤ slackRoom s e.1 r.domain)).map (·.1)

/-- Place an occupant in the free slack of a slice. Room for a replica is made from prefetched occupants first, then from
the oldest replica by AGE, itself counted, among those whose room would do (R112). -/
def placeSlack (s : State) (sl : Nat) (r : SlackRec) : State :=
  match slackHost s sl r with
  | some f => occupy s f r
  | none =>
    if r.kind ≠ 1 then s
    else
      let could := (occupants s sl).filter fun e => decide (r.quarters ≤ slackTotal s e.1 r.domain)
      match could.find? fun e => e.2.kind == 2 with
      | some e => occupy (vacate s e.1) e.1 r
      | none =>
        let oldest := could.foldl (fun (b : Option (Nat × SlackRec)) e => match b with
          | none => if e.2.age < r.age then some e else none
          | some x => if e.2.age < x.2.age then some e else some x) none
        match oldest with
        | none => reportEvicted s r.origin r.seq 1
        | some e => occupy (reportEvicted (vacate s e.1) e.2.origin e.2.seq 1) e.1 r

/-- A frame's occupant is lost with its channel or its tags (R286). -/
def loseOccupant (s : State) (f : Nat) : State :=
  match (getFr s f).slack with
  | none => s
  | some r => if r.kind = 1 then reportEvicted (vacate s f) r.origin r.seq 1 else vacate s f

/-! ## Reclamation (R110, R119) -/

/-- No lap of the frame's cluster that could read it is left (R119). -/
def lapsClear (s : State) (f : Nat) : Bool :=
  match oldestLap s (f % 20) with
  | none => true
  | some n => decide ((getFr s f).stamp < n)

/-- A frame becomes FREE: its entry of R107 starts again. -/
def freeFrame (s : State) (f : Nat) : State :=
  let before := freeSlack s (f % 20)
  let s := modFr s f fun v => { version := v.version, data := v.data }
  slackCheck s (f % 20) before

/-- A retired frame goes: its occupant moves on first; a damaged one waits for the row engine's test (R110 to R112). -/
def reclaimOp (s : State) (f : Nat) : State :=
  let v := getFr s f
  if !v.retiring ∨ v.refs ≠ 0 ∨ v.pins ≠ 0 ∨ v.test ∨ !lapsClear s f then s
  else
    let s := match v.slack with
      | none => s
      | some r => match clusterSlice s (f % 20) with
        | none => loseOccupant s f
        | some sl => placeSlack (vacate s f) sl r
    if v.damaged then modFr s f fun v => { v with test := true } else freeFrame s f

/-- FRAME_RECLAIM (R119). -/
def execFrameReclaim (frame : Nat) (s : State) : Res := .next (reclaimOp s frame)

/-- The frame test (R110, R279): two initialisations under new identities, then counters 0 and one more sidecar write. -/
def frameTestOp (s : State) (f : Nat) (pass : Bool) : State :=
  if !(getFr s f).test then s
  else
    let (_, s) := newIdentity s
    let (i, s) := newIdentity s
    let version := (getFr s f).version + 3
    let s := setFr s f { version := version, data := { hdr := { identity := i }, version := version } }
    if pass then s else modFr s f fun v => { v with state := .quarantined }

/-- FRAME_TEST (R110). -/
def execFrameTest (frame : Nat) (pass : Bool) (s : State) : Res := .next (frameTestOp s frame pass)

/-! ## Copies, repair (R109, R110, R148) -/

/-- The destination of a frame's copy or repair. -/
def destOf (s : State) (src : Nat) : Option Nat :=
  (s.mem.frames.find? fun _ v => v.state == .migrating && (v.mig == some (.dest src) || v.mig == some (.repair src))).map (·.1)

/-- A page's entry in the index of its row moves to the channel of its new frame (R190, R194). -/
def reindex (s : State) (holders : List (Nat × Nat)) (frame : Nat) : State :=
  holders.foldl (fun s h => match getQ s h.1 with
    | none => s
    | some q =>
      let s := idxGone s h.1 (keyLayer h.2) (keyGroup h.2) (keyPage h.2) q
      idxAdd s h.1 (keyLayer h.2) (keyGroup h.2) (keyPage h.2) (frame % 20) (getFr s frame).data.sketch.toNat) s

/-- A copy commits: every page-map entry and record that names the source names the destination (R109, R110, R220). -/
def copyCommit (s : State) (src : Nat) : State :=
  match destOf s src with
  | none => s
  | some dst =>
    let v := getFr s src
    let former := match v.mig with | some (.source f _) => f | _ => v.state
    let holders := holdersOf s src
    let s := { s with seqs := s.seqs.mapVals fun _ q =>
      { q with leaves := q.leaves.mapVals fun _ e => if e.loc = 1 ∧ e.frame = src then { e with frame := dst } else e } }
    let s := switchRecords s src dst
    let stamp := s.mem.lapNo
    let before := freeSlack s (dst % 20)
    let s := modFr s dst fun w => { w with state := former, refs := v.refs, link := v.link, mig := none, qmap := sealedQmap w.data,
                                           heldRemote := v.heldRemote }
    let s := slackCheck s (dst % 20) before
    let s := modFr s src fun w => { w with refs := 0, retiring := true, stamp := stamp }
    let s := if dst % 20 = src % 20 then s else reindex s holders dst
    holders.foldl (fun s h => reportHeld s h.1) s

/-- FRAME_COPY_COMMIT (R109). -/
def execFrameCopyCommit (src : Nat) (s : State) : Res := .next (copyCommit s src)

/-- Open pages of a sequence that wait for their repair. -/
def brokenOpen (s : State) (q : SeqSt) : Bool :=
  q.leaves.any fun _ e => e.loc == 1 && (getFr s e.frame).damaged && (getFr s e.frame).state == .opened

/-- The sequence rolls back to its held position at the heat's next layer-0 acceptance, here and on the other holders (R148,
R377). -/
def askRollback (s : State) (id : Nat) : State :=
  match getQ s id with
  | none => s
  | some q =>
    let home := homeOf s id == s.nodeNo
    let h := if home then q.held else heldHere s q
    let s := setQ s id { q with awaiting := true, change := some { kind := 2, heat := q.heat, length := h, stripes := q.stripes } }
    let s := if q.state = .running then s else commitChange s id
    if home then sendMapUpdate s id 2 h else reportHeld s id

/-- A damaged open page is rebuilt from its open-page replica under a new identity, up to the positions held (R97, R148). -/
def rebuildOpen (s : State) (f : Nat) : State :=
  let v := getFr s f
  match (holdersOf s f).head? with
  | none => s
  | some (id, k) => match getQ s id with
    | none => s
    | some q =>
      if q.bound ≠ .sBounded then loseFrame s f
      else match sliceOf s q.domain with
        | none => s
        | some sl =>
          let x := shapeOf (seqModel s q)
          let n := min v.data.hdr.filled (q.batchHeld - keyPage k * x.t)
          match drawFrame s sl q.domain .opened (leafLink (seqModel s q) q (keyLayer k) (keyGroup k) (keyPage k)) with
          | none => s
          | some (dst, s) =>
            let (i, s) := newIdentity s
            let blocks := ((List.range n).flatMap (rowBlocks x)).eraseDups
            let counters : BitVec 512 := blocks.foldl (fun c b => rset c (16 * b + 15) (16 * b) 1) 0
            let key := (getD s q.domain).key
            let s := modFr s dst fun w =>
              let hdr : PageHdr := { v.data.hdr with identity := i, filled := n }
              let d : PageData := { hdr := hdr, payload := firstRows x v.data.payload n, counters := counters,
                                    version := w.version + 1, key := key }
              { w with refs := 1, version := w.version + 1, data := d }
            let s := modQ s id fun q => { q with leaves := q.leaves.modify k fun e => { e with frame := dst } }
            let s := dropRef s f
            if (getQ s id).any (brokenOpen s) then s else askRollback s id

/-- A damaged sealed page is copied from its replica into a new frame, which waits for its commit (R110). -/
def repairOp (s : State) (f : Nat) : State :=
  let v := getFr s f
  if !v.damaged ∨ v.test ∨ v.refs = 0 then s
  else
    let s := if (getC s (f % 20)).quarantined then loseOccupant s f else s
    if v.state = .opened then rebuildOpen s f
    else if v.state ≠ .sealed ∧ v.state ≠ .shared ∨ (destOf s f).isSome then s
    else if !v.heldRemote then loseFrame s f
    else match sliceOf s v.domain with
      | none => s
      | some sl => match drawFrame s sl v.domain .migrating v.link.toNat (some (.repair f)) with
        | none => s
        | some (dst, s) =>
          let key := (getD s v.domain).key
          modFr s dst fun w => { w with version := v.version, data := { v.data with badBlocks := 0, badSidecar := false, key := key } }

/-- PAGE_REPAIR (R110, R147, R148). -/
def execPageRepair (frame now : Nat) (s : State) : Res := .next (repairOp (clockTo s now) frame)

/-! ## Reopening and truncation (R120, R168) -/

/-- The sequence whose SEQ_TRUNCATE draws a destination. -/
def truncOf (s : State) (dst : Nat) : Option (Nat × SeqSt × Truncate) :=
  s.seqs.l.findSome? fun e => match e.2.trunc with
    | some t => if t.dests.contains dst then some (e.1, e.2, t) else none
    | none => none

/-- The copies of a truncation end: sources are unpinned. -/
def unpinAll (s : State) (t : Truncate) : State := t.pinned.foldl (fun s f => modFr s f fun v => { v with pins := v.pins - 1 }) s

/-- A reopen copy failed its checks: nothing is committed, every destination returns to FREE, and the source is handled as
damaged (R120, R147). -/
def abortTruncate (s : State) (id src : Nat) (t : Truncate) : State :=
  let s := t.dests.foldl freeDest (unpinAll s t)
  let s := damageFrame (modQ s id fun q => { q with trunc := none }) src
  finishWhere s (fun g => g.key == .seq id && g.opcode == 0x0504) .damaged 0 0

/-- The reopen copy into a destination. -/
def reopenOp (s : State) (dst : Nat) (streamOk : Bool) : State :=
  match (getFr s dst).mig, truncOf s dst with
  | some (.reopen src n false), some (id, q, t) =>
    let pinned := t.pinned.contains src
    if !pinned ∧ 32 ≤ (getFr s src).pins then s
    else
      let t := if pinned then t else { t with pinned := t.pinned ++ [src] }
      let s := if pinned then s else modQ (modFr s src fun v => { v with pins := v.pins + 1 }) id fun q => { q with trunc := some t }
      match if streamOk then reopenInto s src dst n (mHeadDim (seqModel s q)) else none with
      | some s => s
      | none => abortTruncate s id src t
  | _, _ => s

/-- REOPEN_COPY (R120, R168). -/
def execReopenCopy (frame : Nat) (streamOk : Bool) (s : State) : Res := .next (reopenOp s frame streamOk)

/-- Every destination of a truncation has been written. -/
def truncReady (s : State) (t : Truncate) : Bool :=
  t.dests.all fun d => match (getFr s d).mig with | some (.reopen _ _ w) => w | _ => false

/-- The destinations of a truncation are switched in. -/
def truncSwitch (s : State) (id : Nat) (t : Truncate) : State :=
  t.dests.foldl (fun s d =>
    let h := (getFr s d).data.hdr
    commitReopen s id h.layer h.group h.page d) s

/-- SEQ_TRUNCATE commits in one table update and completes (R120, R233). -/
def truncCommit (s : State) (id : Nat) : State :=
  match getQ s id with
  | none => s
  | some q => match q.trunc with
    | none => s
    | some t =>
      if !truncReady s t then s
      else
        let p := t.position
        let n := max 1 (mT (seqModel s q))
        let kept := pagesWithin s q p
        let cursor := truncCursor s q (p / n)
        let s := truncSwitch (unpinAll s t) id t
        let s := clearLeaves s id fun k _ => decide (p ≤ keyPage k * n)
        let s := kept.foldl (fun s e =>
          if (getFr s e.2).state = .opened ∧ p % n < (getFr s e.2).data.hdr.filled then modFr s e.2 fun v => refill v (p % n) else s) s
        let s := modQ s id fun q =>
          { q with trunc := none, length := p, cursor := cursor, rowTried := min q.rowTried (p / n), sentTo := min q.sentTo p,
                   batchHeld := min q.batchHeld p, held := min q.held p, hashes := q.hashes.filter fun k _ => decide ((k + 1) * n ≤ p) }
        let s := recordChanged s id
        let s := if q.stripes.length < 2 then s else sendMapUpdate s id 2 p
        finishWhere s (fun g => g.key == .seq id && g.opcode == 0x0504) .ok 0 0

/-- TRUNCATE_COMMIT (R120). -/
def execTruncateCommit (seq now : Nat) (s : State) : Res := .next (truncCommit (clockTo s now) seq)

/-! ## Collection frames (R209, R210) -/

/-- The frame belongs to a collection. -/
def inCollection (s : State) (f : Nat) : Bool := s.sel.colls.any fun _ c => c.frames.contains f

/-- The frame's identity is renewed: written blocks take counter 1, unwritten ones keep 0 (R210). -/
def renewFrame (s : State) (f : Nat) : State :=
  let (i, s) := newIdentity s
  modFr s f fun v =>
    let d := v.data
    let counters : BitVec 512 := (List.range 32).foldl (fun c b =>
      if rf c (16 * b + 15) (16 * b) = 0 then c else rset c (16 * b + 15) (16 * b) 1) d.counters
    let hdr : PageHdr := { d.hdr with identity := i }
    { v with version := v.version + 1, data := { d with hdr := hdr, counters := counters, version := v.version + 1 } }

/-- Some block counter of a frame stands at its last value. -/
def counterFull (v : FrameSt) : Bool := (List.range 32).any fun b => decide (65534 ≤ rf v.data.counters (16 * b + 15) (16 * b))

/-- COLLECTION_FRAME_RENEWAL (R210). -/
def execCollectionFrameRenewal (frame : Nat) (s : State) : Res :=
  .next (if inCollection s frame && counterFull (getFr s frame) && pageGood s (getFr s frame).domain (getFr s frame).data then
    renewFrame s frame else s)

end Sys2Proof.Machine
end

