-- ==== Sys2Proof/Machine/Replicas.lean ====
section
/-! DEFINITION. The receiving side of replication and page moves, promotion, re-seeding, migration, leases and flush points
(R41, R42, R358 to R381). -/

namespace Sys2Proof.Machine

/-! ## Page messages as they arrive (R317) -/

/-- The page extension of a message, without the attention extension. -/
def pageExtOf (x : RecvMsg) : Nat := if x.attn then x.ext / 2 ^ 128 else x.ext

/-- The sealed page a message carries, as it is written here under a version and a key of this node. -/
def arrivedSealed (data version : Nat) (key : Option Nat) (identity : Nat) : PageData :=
  let hdr := { hdrOfWord (data % 2 ^ 128) with identity := identity }
  let counters : BitVec 512 := (List.range (if hdr.sealed then 8 * (hdr.quartersM1 + 1) else 32)).foldl (fun c b => rset c (16 * b + 15) (16 * b) 1) 0
  { hdr := hdr, payload := data / 2 ^ 4480, sketch := BitVec.ofNat 256 (fld data 383 128),
    landmarks := BitVec.ofNat 4096 (fld data 4479 384), version := version, key := key, counters := counters }

/-- Positions of an open page put into what is held of it; FILLED covers them. -/
def withPositions (x : Shape) (d : PageData) (first n rows version : Nat) (key : Option Nat) : PageData :=
  let blocks := ((List.range n).flatMap fun j => rowBlocks x (first + j)).eraseDups
  { d with hdr := { d.hdr with filled := max d.hdr.filled (first + n) }, payload := putRows x d.payload first n rows,
           counters := bumpCounters d.counters blocks, version := version, key := key }

/-- An open page begins to be held here. -/
def emptyPage (m : BitVec 512) (e identity : Nat) : PageData :=
  { hdr := { identity := identity, page := fld e 193 174, kFmt := mKFmt m, vFmt := mVFmt m, latent := mLatent m,
             layer := fld e 207 200, group := fld e 199 194 } }

/-- The model of a sequence as this node knows it: its own descriptor, or the replica of one. -/
def modelHere (s : State) (id : Nat) : Option ModelSt :=
  match (match getQ s id with | some q => some q | none => s.place.replicas.get? id) with
  | none => none
  | some q => getM s q.domain q.model

/-- The page of an extension. -/
def samePage (h : PageHdr) (e : Nat) : Bool :=
  h.layer == fld e 207 200 && h.group == fld e 199 194 && h.page == fld e 193 174

/-- The node a REPLICA frame's page came from (R107). -/
def originOf (v : FrameSt) : Nat := fld v.link.toNat 35 24

/-- The REPLICA frame of a page of another node. -/
def replicaFrame (s : State) (origin id e : Nat) : Option Nat :=
  (s.mem.frames.find? fun _ v => v.state == .replica && v.replicaOf == id && originOf v == origin && samePage v.data.hdr e).map (·.1)

/-! ## PAGE_REPLICATE (R360, R366) -/

/-- A sealed replica goes into slack; the open replica of the page is released on its complete arrival. -/
def takeSealed (s : State) (origin id sl dom e data : Nat) : State :=
  let old := (occupants s sl).find? fun o => o.2.kind == 1 && o.2.origin == origin && o.2.seq == id && samePage o.2.data.hdr e
  let s := match old with | some o => vacate s o.1 | none => s
  let r : SlackRec := { kind := 1, quarters := fld e 154 153 + 1, domain := dom, origin := origin, age := s.ns / 1000000 % 2 ^ 32,
                        seq := id, data := arrivedSealed data 1 (getD s dom).key (fld e 152 89) }
  let s := placeSlack s sl r
  match replicaFrame s origin id e with
  | some f => freeFrame s f
  | none => s

/-- Open positions go into a REPLICA frame, drawn at the page's first message; without one the row is degraded. -/
def takeOpen (s : State) (origin id sl dom e data : Nat) (m : BitVec 512) : State :=
  let at_ := match replicaFrame s origin id e with
    | some f => some (f, s)
    | none => (drawFrame s sl dom .replica (origin * 2 ^ 24 + fld e 88 65)).map fun x =>
        (x.1, modFr x.2 x.1 fun v => { v with refs := 1, replicaOf := id, data := emptyPage m e (fld e 152 89) })
  match at_ with
  | none => reportEvicted s origin id 2
  | some (f, s) =>
    let key := (getD s dom).key
    modFr s f fun v =>
      { v with version := v.version + 1,
               data := withPositions (shapeOf m) v.data (fld e 173 166) (fld e 165 157) data (v.version + 1) key }

/-- A delivered PAGE_REPLICATE. A domain that is not bound here is refused; so are open positions of a sequence whose model
is not known here (assumption 37). -/
def replicateOp (s : State) (m : MsgRef) : State :=
  match deliverable s m 13 with
  | none => s
  | some (q, x) =>
    let e := pageExtOf x
    let id := fld e 255 208
    match sliceOf s q.domain with
    | none => refuse s m.queue q .badState
    | some sl =>
      if fld e 156 155 = 0 then delivered (takeSealed s (qPeerNode q) id sl q.domain e x.data) m.queue
      else if fld e 156 155 = 1 then
        match modelHere s id with
        | none => refuse s m.queue q .exhausted
        | some md => delivered (takeOpen s (qPeerNode q) id sl q.domain e x.data md.record) m.queue
      else refuse s m.queue q .badField

/-- PAGE_REPLICATE (R360, R366). -/
def execPageReplicate (m : MsgRef) (s : State) : Res := .next (replicateOp (clockTo s m.now) m)

/-! ## PAGE_MOVE (R317, R359) -/

/-- The frame a moved page is arriving in. -/
def incomingFrame (s : State) (id e : Nat) : Option Nat :=
  (s.mem.frames.find? fun _ v => (match v.mig with | some (.incoming _ _) => v.replicaOf == id | _ => false) && samePage v.data.hdr e).map (·.1)

/-- Every group that moves onto this node has arrived: the home commits at the heat's next layer-0 acceptance, on every
holder (R359). -/
def moveProgress (s : State) (id : Nat) : State :=
  match getQ s id with
  | none => s
  | some q => match q.moving with
    | none => s
    | some (g, _) =>
      if q.change.isSome ∨ homeOf s id ≠ s.nodeNo ∨ !moveArrived s id g q then s
      else
        let b := 2 ^ g
        let masks := (q.masks.mapVals fun n k => if n ≠ s.nodeNo ∧ bit k g then k - b else k).set s.nodeNo
          (if bit q.groupMask g then q.groupMask else q.groupMask + b)
        let stripes := q.stripes.filter fun n => n == s.nodeNo || masks.getD n 0 != 0
        let stripes := if stripes.contains s.nodeNo then stripes else stripes ++ [s.nodeNo]
        let c : MapChange := { kind := 0, heat := q.heat, length := q.length, group := g, groupMask := masks.getD s.nodeNo 0,
                               stripes := stripes }
        let s := setQ s id { q with masks := masks, change := some c }
        (q.stripes.filter fun n => n != s.nodeNo).foldl (fun s n =>
          let (c, s) := ask s (.update id n)
          sendMgmt s n 0x000F c 152 (mapUpdateBody id 0 q.heat q.length (masks.getD n 0) stripes)) s

/-- A moved page is written into a MIGRATING frame; without a frame the message waits (R327). -/
def moveOp (s : State) (m : MsgRef) : State :=
  match deliverable s m 12 with
  | none => s
  | some (q, x) =>
    let e := pageExtOf x
    let id := fld e 255 208
    let kind := fld e 156 155
    match sliceOf s q.domain, modelHere s id with
    | some sl, some md =>
      if kind ≠ 2 ∧ kind ≠ 3 then refuse s m.queue q .badField
      else
        let at_ := match incomingFrame s id e with
          | some f => some (f, s)
          | none => (drawFrame s sl q.domain .migrating).map fun y =>
              (y.1, modFr y.2 y.1 fun v => { v with replicaOf := id, data := emptyPage md.record e (fld e 152 89) })
        match at_ with
        | none => s
        | some (f, s) =>
          let key := (getD s q.domain).key
          let s := modFr s f fun v =>
            let d := if kind = 2 then arrivedSealed x.data (v.version + 1) key (fld e 152 89)
              else withPositions (shapeOf md.record) v.data (fld e 173 166) (fld e 165 157) x.data (v.version + 1) key
            { v with version := v.version + 1, data := d, mig := some (.incoming (qPeerNode q) (kind == 2)),
                     qmap := if kind = 2 then sealedQmap d else 0 }
          moveProgress (delivered s m.queue) id
    | _, _ => refuse s m.queue q .badState

/-- PAGE_MOVE (R317, R359). -/
def execPageMove (m : MsgRef) (s : State) : Res := .next (moveOp (clockTo s m.now) m)

/-! ## Migration (R358, R359) -/

/-- Pages of a group of a sequence on this node. -/
def groupPages (q : SeqSt) (g : Nat) : List (Nat × Leaf) := q.leaves.l.filter fun e => keyGroup e.1 = g ∧ e.2.loc = 1

/-- The source sends its sealed pages, and between decode steps its open positions. -/
def sendMove (s : State) (h : HeatSt) (id g dst : Nat) (q : SeqSt) : State :=
  let x := shapeOf (seqModel s q)
  let (qk, s) := internalQueue s 1 dst 0 q.domain 1
  match qk with
  | none => s
  | some qk =>
    (groupPages q g).foldl (fun s e =>
      let v := getFr s e.2.frame
      if v.state = .sealed ∧ v.mig.isNone then
        let s := setFr s e.2.frame { v with state := .migrating, mig := some (.source .sealed dst) }
        launchInternal s qk (sealedMsg id e.2.frame v.data 12 2 (.move id e.2.frame))
      else if v.state = .opened ∧ h.lap.isNone ∧ h.layer = 0 ∧ 0 < v.data.hdr.filled then
        launchInternal s qk (openMsg x id e.2.frame v.data 0 v.data.hdr.filled 12 3 (.move id e.2.frame))
      else s) s

/-- Frames of a slice's pools stand at RESERVE_DEPTH after a number of draws (R358). -/
def poolsRefill (s : State) (sl n : Nat) : Bool :=
  (sliceClusters s sl).all fun c => decide (reserveDepth s + n ≤ freeIn s c)

/-- The heat node takes a group: what must hold before it may (R358). -/
def mayMove (s : State) (h : HeatSt) (id g : Nat) (q : SeqSt) : Bool :=
  rb s.place.record 16 && placeOn s && homeOf s id == s.nodeNo && h.master.isNone && h.state == .running
    && q.change.isNone && !(s.seqs.any fun _ x => x.moving.isSome) && !bit q.groupMask g && (q.stripes.any fun n => bit (q.masks.getD n 0) g)
    && decide (popCount q.groupMask 64 + 1 ≤ cGpsM1 (heatImage s h) + 1)
    && (match sliceOf s q.domain with
      | some sl => poolsRefill s sl (mLayers (seqModel s q) * ceilDiv q.length (max 1 (mT (seqModel s q))))
      | none => false)

/-- MIGRATION: at the heat node the group's move begins; at the node that holds the group its pages are sent, none of its
frames being SHARED (assumption 38). -/
def migrationOp (s : State) (k id g : Nat) : State :=
  match getH s k, getQ s id with
  | some h, some q =>
    match h.master with
    | some dst =>
      if bit q.groupMask g ∧ !((groupPages q g).any fun e => (getFr s e.2.frame).state == .shared) then sendMove s h id g dst q else s
    | none =>
      if mayMove s h id g q then moveProgress (setQ s id { q with moving := some (g, []) }) id else s
  | _, _ => s

/-- MIGRATION (R358, R359). -/
def execMigration (heat seq group now : Nat) (s : State) : Res := .next (migrationOp (clockTo s now) heat seq group)

/-! ## Promotion (R377, R378, R380) -/

/-- Open replicas of a sequence from a failed node: frames. -/
def openFrom (s : State) (failed id : Nat) : List Nat :=
  s.mem.frames.l.filterMap fun e => if e.2.state = .replica ∧ e.2.replicaOf = id ∧ originOf e.2 = failed then some e.1 else none

/-- Sealed replicas of a sequence from a failed node: the frames that host them. -/
def sealedFrom (s : State) (failed id : Nat) : List (Nat × SlackRec) :=
  s.mem.frames.l.filterMap fun e => match e.2.slack with
    | some r => if r.kind = 1 ∧ r.origin = failed ∧ r.seq = id then some (e.1, r) else none
    | none => none

/-- The sequences of which this node holds something for a failed node. -/
def promotable (s : State) (failed : Nat) : List Nat :=
  let a := s.mem.frames.l.filterMap fun e => if e.2.state = .replica ∧ originOf e.2 = failed then some e.2.replicaOf else none
  let b := s.mem.frames.l.filterMap fun e => match e.2.slack with
    | some r => if r.kind = 1 ∧ r.origin = failed then some r.seq else none
    | none => none
  let c := s.place.replicas.l.filterMap fun e => if seqHome e.1 = failed then some e.1 else none
  (a ++ b ++ c).eraseDups

/-- A page of an open replica becomes OPEN under a new identity (R97, R109). -/
def promoteOpen (s : State) (id f : Nat) : State :=
  let h := (getFr s f).data.hdr
  match ensureLeaf s id h.layer h.group h.page with
  | none => s
  | some s =>
    let (i, s) := newIdentity s
    let s := modQ s id fun q => putLeaf q h.layer h.group h.page { node := s.nodeNo, frame := f, loc := 1 }
    let link := ((getQ s id).map fun q => leafLink (seqModel s q) q h.layer h.group h.page).getD 0
    modFr s f fun v =>
      let hdr : PageHdr := { v.data.hdr with identity := i }
      { v with state := .opened, refs := 1, replicaOf := 0, version := v.version + 1, link := BitVec.ofNat 36 link,
               data := { v.data with hdr := hdr, version := v.version + 1 } }

/-- A sealed replica is copied into a frame drawn as for a starting block (R112). -/
def promoteSealed (s : State) (id sl : Nat) (e : Nat × SlackRec) : State :=
  let h := e.2.data.hdr
  match drawPool s sl e.2.domain with
  | none => s
  | some (f, s) => match ensureLeaf s id h.layer h.group h.page with
    | none => s
    | some s =>
      let s := modQ s id fun q => putLeaf q h.layer h.group h.page { node := s.nodeNo, frame := f, loc := 1 }
      let link := ((getQ s id).map fun q => leafLink (seqModel s q) q h.layer h.group h.page).getD 0
      let before := freeSlack s (f % 20)
      let s := modFr s f fun v => { v with state := .sealed, refs := 1, version := v.version + 1, qmap := sealedQmap e.2.data,
                                           link := BitVec.ofNat 36 link, data := { e.2.data with version := v.version + 1 } }
      let s := slackCheck s (f % 20) before
      idxAdd (vacate s e.1) id h.layer h.group h.page (f % 20) e.2.data.sketch.toNat

/-- The descriptor under which promoted pages are served: this node's own, the replica of the home's, or a stripe
descriptor of a model of the domain whose formats are the pages' (R377, R378; assumption 39). -/
def promotedDesc (s : State) (failed id : Nat) : Option SeqSt :=
  match getQ s id with
  | some q => some q
  | none => match s.place.replicas.get? id with
    | some r =>
      let home := seqHome id = failed
      some { r with state := if r.state = .running then .idle else r.state, sb := 0, sbFrames := [], leafAddrs := .empty,
                    leaves := r.leaves.filter fun _ e => e.loc == 2, groupMask := if home then r.groupMask else 0,
                    bound := .lostOnFailure, l1Bytes := 0 }
    | none =>
      let hdrs := ((openFrom s failed id).map fun f => ((getFr s f).data.hdr, (getFr s f).domain))
        ++ (sealedFrom s failed id).map fun e => (e.2.data.hdr, e.2.domain)
      match hdrs with
      | [] => none
      | (h, d) :: _ =>
        (s.models.find? fun k m => k / 65536 == d && mKFmt m.record == h.kFmt && mVFmt m.record == h.vFmt && mLatent m.record == h.latent).map
          fun e => { stripeDesc s id d (e.1 % 65536) 0 with bound := .lostOnFailure }

/-- Positions of a row that this node holds without a gap. -/
def covered (s : State) (q : SeqSt) (t layer group : Nat) : (page fuel : Nat) → Nat
  | p, 0 => p * t
  | p, fuel + 1 => match getLeaf q layer group p with
    | none => p * t
    | some e =>
      if e.loc ≠ 1 then p * t
      else
        let v := getFr s e.frame
        if isSealed s e.frame then covered s q t layer group (p + 1) fuel else p * t + min t v.data.hdr.filled

/-- The acting home takes the failed node's place: its stripe index, its groups, and as home the descriptor; then every
holder rolls back to what is held (R377). -/
def takeOver (s : State) (failed id : Nat) (groups : Nat) : State :=
  match getQ s id with
  | none => s
  | some q =>
    let t := mT (seqModel s q)
    let rows := hostedRows s q
    let h := rows.foldl (fun n r => min n (covered s q t r.1 r.2 0 (q.leaves.size + 1))) (if q.length = 0 then 2 ^ 24 else q.length)
    let home := homeOf s id == s.nodeNo
    let stripes := if q.stripes.contains s.nodeNo then q.stripes.filter fun n => n != failed
      else q.stripes.map fun n => if n = failed then s.nodeNo else n
    let s := setQ s id { q with stripes := stripes, masks := (q.masks.erase failed).set s.nodeNo (q.groupMask ||| groups),
                                reports := q.reports.erase failed, held := h, batchHeld := 0, sentTo := 0, bound := .lostOnFailure }
    let s := modPl s fun p => { p with replicas := if seqHome id = failed then p.replicas.erase id else p.replicas }
    if !home then reportHeld s id
    else if q.length = 0 then s
    else if (rows.any fun r => decide (covered s q t r.1 r.2 0 (q.leaves.size + 1) + q.replS < q.length)) then
      loseSeq s id h (if rows.all fun r => decide (h ≤ covered s q t r.1 r.2 0 (q.leaves.size + 1)) ∧ 0 < h then 3 else 1)
    else askRollback s id

/-- Promotion of one sequence, the lowest on its home that is left (R377). -/
def promotionOp (s : State) (failed id : Nat) : State :=
  let l := promotable s failed
  if s.place.failed.get? failed ≠ some s.nodeNo ∨ !l.contains id ∨ l.any (fun x => decide (seqIndex x < seqIndex id)) then s
  else match promotedDesc s failed id with
    | none => s
    | some q => match sliceOf s q.domain with
      | none => s
      | some sl =>
        let opens := openFrom s failed id
        let slacks := sealedFrom s failed id
        let groups := maskFrom (((opens.map fun f => (getFr s f).data.hdr.group) ++ slacks.map fun e => e.2.data.hdr.group).eraseDups)
        let s := setQ s id { q with groupMask := q.groupMask ||| groups }
        let s := opens.foldl (fun s f => promoteOpen s id f) s
        let s := slacks.foldl (fun s e => promoteSealed s id sl e) s
        takeOver s failed id groups

/-- PROMOTION (R377). -/
def execPromotion (failed seq now : Nat) (s : State) : Res := .next (promotionOp (clockTo s now) failed seq)

/-! ## Re-seeding (R379) -/

/-- TRAY and LEAF of a node by the locality table (R347). -/
def trayOf (s : State) (n : Nat) : Nat := rf (s.place.locality.getD n 0) 31 16

/-- The partner that follows one that failed: the first of the order of R352 outside this node's tray that reports every
domain of this node. -/
def nextPartner (s : State) : Option Nat :=
  let doms := boundDomains s
  (candidates s (doms.headD 0) false).find? fun n =>
    n != s.nodeNo && !s.place.failed.has n && trayOf s n != trayOf s s.nodeNo
      && doms.all fun d => (s.place.reports.get? (n * 64 + d)).any (reportCurrent s)

/-- The partner to copy to: the one there is, or the next one when it failed. -/
def seedPartner (s : State) : Option Nat :=
  let p := partnerOf s
  if s.place.failed.has p ∨ s.net.fencedNodes.contains p then nextPartner s else some p

/-- Pages of a sequence whose replica is not held, in ascending page index, one for each frame. -/
def unheld (s : State) (q : SeqSt) : List Nat :=
  let l := (q.leaves.l.filter fun e => e.2.loc == 1 && isSealed s e.2.frame && !(getFr s e.2.frame).heldRemote).stableSort
    fun a b => decide (keyPage a.1 ≤ keyPage b.1)
  (l.map fun e => e.2.frame).eraseDups

/-- Copy a sequence's pages and records to the partner; until they are held it is LOST on failure. -/
def seedSeq (s : State) (id : Nat) : State :=
  match getQ s id with
  | none => s
  | some q =>
    let s := recordChanged s id
    let l := unheld s q
    if l.isEmpty ∧ q.sentTo = q.length then s
    else
      let s := modQ s id fun q => { q with bound := if q.bound = .noReplication then q.bound else .lostOnFailure }
      let s := modPl s fun p => { p with degraded := if p.degraded.contains id then p.degraded else p.degraded ++ [id] }
      let s := raiseObj s 0x0005 4 38 q.domain q.ctrlPort (degradedPayload [id])
      sendBatch (l.foldl (fun s f => replicatePage s id f) s) id

/-- RESEED: a node without a valid replica set copies its pages, sequence by sequence in ascending index. -/
def reseedOp (s : State) (partner : Nat) : State :=
  if !placeOn s ∨ seedPartner s ≠ some partner then s
  else
    let s := if partner = partnerOf s then s else modPl s fun p => { p with partner := some partner, absent := [] }
    let ids := (s.seqs.l.filter fun e => e.2.state != .lost).map (·.1)
    (ids.stableSort fun a b => decide (seqIndex a ≤ seqIndex b)).foldl seedSeq s

/-- RESEED (R379). -/
def execReseed (partner now : Nat) (s : State) : Res := .next (reseedOp (clockTo s now) partner)

/-! ## Leases and handoffs (R42, R369, R372) -/

/-- The fields of a record as events carry them (R478). -/
def ownPayload (id : Nat) (o : OwnRec) : Nat := pack [(0, 48, id), (64, 32, o.epoch), (96, 16, o.ownerNode), (112, 8, o.ownerFunc)]

/-- The offer is cleared. -/
def clearOffer (o : OwnRec) : OwnRec := { o with accepted := false, offerNode := 0, offerFunc := 0, deadline := 0 }

/-- EPOCH increases by 1 (R367). -/
def bumpEpoch (o : OwnRec) : OwnRec := { o with epoch := (o.epoch + 1) % 2 ^ 32 }

/-- The owner's lease has expired: the sequence is ABANDONED. -/
def leaseOp (s : State) (id : Nat) : State :=
  match getQ s id with
  | none => s
  | some q =>
    if homeOf s id ≠ s.nodeNo ∨ q.own.state = .abandoned ∨ s.ns < q.own.expiry ∨ (q.state ≠ .idle ∧ q.state ≠ .running) then s
    else
      let former := q.own.state.code
      let own := bumpEpoch { clearOffer q.own with state := .abandoned }
      let s := modQ (abandonSeq s id) id fun q => { q with own := own }
      let s := recordChanged s id
      let resume := ((getQ s id).map (·.resume)).getD 0
      let s := raiseObj s 0x0003 0 38 q.domain q.ctrlPort (pack [(0, 48, id), (64, 24, resume), (96, 32, own.epoch), (128, 8, former)])
      if former = 1 then raiseObj s 0x000B 2 38 q.domain q.ctrlPort (ownPayload id own) else s

/-- LEASE_EXPIRY (R42, R372). -/
def execLeaseExpiry (seq now : Nat) (s : State) : Res := .next (leaseOp (clockTo s now) seq)

/-- DEADLINE passed without commit: the record reverts to its owner (R369). -/
def handoffOp (s : State) (id : Nat) : State :=
  match getQ s id with
  | none => s
  | some q =>
    if homeOf s id ≠ s.nodeNo ∨ q.own.state ≠ .offered ∨ s.ns < q.own.deadline then s
    else
      let own := bumpEpoch { clearOffer q.own with state := .held }
      let s := recordChanged (setQ s id { q with own := own }) id
      raiseObj s 0x000B 1 38 q.domain q.ctrlPort (ownPayload id own)

/-- HANDOFF_DEADLINE (R369). -/
def execHandoffDeadline (seq now : Nat) (s : State) : Res := .next (handoffOp (clockTo s now) seq)

/-! ## Flush points (R41, R361, R366, R374) -/

/-- FLUSH_PERIOD in ns (R39). -/
def flushPeriod (s : State) : Nat := rf s.time.record 37 27 * 1000

/-- Writes of a replication queue that no FLUSH has covered yet. -/
def outstanding (q : QueueSt) : Bool :=
  q.sent.any fun _ m => match m.purpose with | .replica .. => true | .batch .. => true | _ => false

/-- Pages whose replica was evicted are sent again when the partner has room: that it has is a free choice (R366,
assumption 3). -/
def resendEvicted (s : State) : State :=
  if s.place.degraded.isEmpty then s
  else
    let yes := freeVal s % 2 = 1
    let s := useFree s
    if !yes then s
    else s.place.degraded.foldl (fun s id => match getQ s id with
      | none => s
      | some q => (unheld s q).foldl (fun s f => replicatePage s id f) s) s

/-- A flush point: FLUSH on every replication queue with writes outstanding, or a heartbeat to the partner. -/
def flushPointOp (s : State) : State :=
  if !placeOn s ∨ flushPeriod s = 0 ∨ s.ns % flushPeriod s ≠ 0 ∨ s.fenced ∨ s.sec.mod = .error then s
  else
    let s := if trafficOff s then s else resendEvicted s
    let ks := (s.net.queues.l.filter fun e => e.2.internal == some 2 && outstanding e.2 && e.2.state == .ready
      && decide (e.1 < 65536) && qPeerNode e.2 == partnerOf s).map (·.1)
    if ks.isEmpty ∨ s.place.stopped then
      if partnerOf s = s.nodeNo ∨ !nodeReachable s (partnerOf s) then s
      else sendMgmt s (partnerOf s) 0x0004 0 9 (pack [(0, 64, s.ns), (64, 8, b2n s.place.stopped)])
    else ks.foldl (fun s k => launchInternal s k { op := 7, total := 0, purpose := .flush }) s

/-- FLUSH_POINT (R41). -/
def execFlushPoint (now : Nat) (s : State) : Res := .next (flushPointOp (clockTo s now))

end Sys2Proof.Machine
end

