-- ==== Sys2Proof/Machine/MemCmds.lean ====
section
/-! DEFINITION. Huavo 0x05xx: page memory and sequences (R98, R99, R107, R120, R464, R465), and how a command on a sequence
homed elsewhere is forwarded (R344, R456). -/

namespace Sys2Proof.Machine

/-! ## Forwarding (R344, R349, R456) -/

/-- Key of a command that waits for the answer of another node, by CORR. -/
def fwdKey (corr : Nat) : ObjKey := .other (2 ^ 47 + corr)

/-- The descriptor as received (R435); the address of a payload buffer is the host's (assumption 3). -/
def descBytes (d : Desc) (opcode addr : Nat) : Nat :=
  pack [(48, 16, d.length.toNat), (42, 1, b2n d.ordered), (41, 1, b2n d.secured), (40, 1, b2n d.ptr), (32, 8, d.domain.toNat),
    (16, 16, d.tag.toNat), (0, 16, opcode)] + (if d.ptr then addr % 2 ^ 58 * 64 else d.body % 2 ^ (8 * d.length.toNat)) * 2 ^ 128

/-- Send a command to a sequence's home. -/
def forward (d : Desc) (s : State) (home opcode : Nat) : Nat × State :=
  let addr := freeVal s
  let s := if d.ptr then useFree s else s
  let (c, s) := ask s (.forward home)
  let len := if d.ptr then d.length.toNat else 0
  let body := descBytes d opcode addr
    + pack [(512, 8, d.port.val), (520, 8, d.port.val * 128 + d.func.val), (528, 16, s.nodeNo), (576, 64, s.ns)]
    + d.body % 2 ^ (8 * len) * 2 ^ 640
  (c, sendMgmt s home 0x0007 c (80 + len) body)

/-- A command on a sequence runs at the home, or is forwarded there; an asynchronous one is accepted here. The port by which
an OWN_ACCEPT or OWN_CLAIM goes is that of the descriptor this node may come to hold (R369). -/
def atHome (opcode : Nat) (async : Bool) (out : Nat → Nat) (body : Desc → State → State × Ans) (d : Desc) (s : State) : State × Ans :=
  let id := byt d.body 0 5
  let home := homeOf s id
  if d.node.isSome ∨ home = s.nodeNo then body d (renewBy d s id)
  else if !pageOn s ∨ !nodeReachable s home then (s, .fail .badState)
  else
    let seen := match getQ s id with
      | none => none
      | some _ => match seqFor d s id true (opcode == 0x0A03) with | .error st => some st | .ok _ => none
    match seen with
    | some st => (s, .fail st)
    | none =>
      let s := if opcode = 0x0A05 ∨ opcode = 0x0A07 then modPl s fun p => { p with offers := p.offers.set id d.port } else s
      let (c, s) := forward d s home opcode
      (s, if async then .accept (fwdKey c) (out d.body) else .wait (fwdKey c) (out d.body))

/-! ## MEM_CONFIG (R98, R99) -/

/-- Bytes of a channel's fixed metadata. -/
def fixedMeta : Nat := 80 * 2 ^ 20

/-- Capacity of the smallest channel (R258): all are alike in a valid population. -/
def channelBytes (s : State) : Nat :=
  (List.range 20).foldl (fun n c => min n (chanBytes (getCh s c).density (getCh s c).clamshell)) (2 ^ 40)

/-- F_ch of a record (R99). -/
def framesPerChannel (bytes weight bulk : Nat) : Nat :=
  min 838860 ((bytes - fixedMeta - weight * 2 ^ 20 - bulk * 2 ^ 20) / 17536)

/-- The bulk-window share of a channel. -/
def bulkShareOf (bytes weight fch : Nat) : Nat :=
  min ((bytes - 17536 * fch - fixedMeta - weight * 2 ^ 20) / 2048 * 2048) (3355442 * 1024)

/-- RWS and locked fields of the record. -/
def memRws : Nat := maskOf [(63, 34)]
def memLocked : Nat := maskOf [(31, 9), (0, 0)]

/-- Memory is carved and page memory enabled, under a fresh metadata key (R99, R411). -/
def carve (s : State) (r : BitVec 64) : Option State :=
  let c := channelBytes s
  let f := framesPerChannel c (rf r 19 9) (rf r 31 20)
  if f < 16384 then none
  else
    let (k, s) := newKey s
    some { s with mem := { s.mem with record := merge s.mem.record r memLocked, fch := f, bulkShare := bulkShareOf c (rf r 19 9) f,
                                      frames := .empty, pools := .empty, arms := .empty },
                  sec := { s.sec with metaKey := some k } }

/-- MEM_CONFIG (R98, R99, R259, R264, R447). -/
def memConfig (d : Desc) (s : State) : State × Ans :=
  let r : BitVec 64 := BitVec.ofNat 64 (byt d.body 0 7)
  let on := rb r 0
  let bad := rf r 47 34 < 64 ∨ 3276 < rf r 31 20 ∨ 1638 < rf r 19 9
  failIf (decide bad) .badField s <|
  failIf (pageOn s && differ s.mem.record r memLocked) .busy s <|
  failIf (on && !pageOn s && ((List.range 20).any fun c => (getCh s c).state == .mismatch || (getCh s c).state == .failed
    || (getCh s c).state == .untrained)) .badState s <|
    let s := { s with mem := { s.mem with shadow := some (merge (s.mem.shadow.getD s.mem.record) r memRws) } }
    if pageOn s then (s, .acceptDone .ok)
    else if on then match carve s r with
      | none => (s, .fail .noHeadroom)
      | some s => (s, .acceptDone .ok)
    else ({ s with mem := { s.mem with record := merge s.mem.record r memLocked } }, .acceptDone .ok)

/-- The row of MEM_CONFIG (R465). -/
def rowMemConfig : HRow :=
  { opcode := 0x0501, d0 := true, lenOk := fun _ n => n == 8, named := fun _ _ => [(63, 34), (31, 9), (0, 0)] }

/-- MEM_CONFIG (R465). -/
def execMemConfig (d : Desc) (s : State) : Res := runHuavo rowMemConfig memConfig d s

/-! ## SEQ_CREATE (R464) -/

/-- A sequence index that is free, by the Puppeteer's choice. -/
def freeSeqIndex (s : State) : (i fuel : Nat) → Option Nat
  | _, 0 => none
  | i, fuel + 1 =>
    let k := i % 2 ^ 20
    let id := s.nodeNo % 4096 * 2 ^ 36 + k * 2 ^ 16 + s.seqGen.getD k 0
    if s.seqs.has id ∨ s.place.searches.has id then freeSeqIndex s (i + 1) fuel else some id

/-- The payload's ranges (R464). -/
def seqCreateBad (m : BitVec 512) (p : Nat) : Bool :=
  decide (mGroups m < pStripes p ∨ pLease p = 0 ∨ 10000 < pLease p ∨ pMaxCtxM1 p + 1 < pDeclared p ∨ 64 < pReplS p)
    || decide (2 ^ 20 < l1Size m (l1SpanOf (pMaxCtxM1 p) (mT m)))

/-- SEQ_CREATE (R352, R357, R464). -/
def seqCreate (d : Desc) (s : State) : State × Ans :=
  let p := byt d.body 0 15
  let dom := d.domain.toNat
  failIf (!pageOn s) .badState s <|
  match getM s dom (pModel p) with
  | none => (s, .fail .badState)
  | some m =>
    failIf (seqCreateBad m.record p) .badField s <|
    failIf (!placeOn s) .badState s <|
    if throttled s dom then (s, .fail .retryAfter 0 (retryUs s))
    else match freeSeqIndex s (freeVal s % 2 ^ 20) (min (2 ^ 20) (s.seqs.size + s.place.searches.size + 1)) with
      | none => (s, .fail .exhausted)
      | some id =>
        let x : Search := { domain := dom, port := d.port, func := d.func, stamp := s.ns, payload := p, todo := candidates s dom (pNear p) }
        (modPl (useFree s) fun pl => { pl with searches := pl.searches.set id x }, .accept (.seq id))

/-- The row of SEQ_CREATE (R464). -/
def rowSeqCreate : HRow :=
  { opcode := 0x0502, lenOk := fun _ n => n == 16, named := fun _ _ => [(120, 96), (69, 56), (54, 0)] }

/-- SEQ_CREATE (R464): the search begins once the command is accepted. -/
def execSeqCreate (d : Desc) (s : State) : Res :=
  .next (startSearches (huavo
    rowSeqCreate seqCreate d s))

/-! ## SEQ_FREE, SEQ_TRUNCATE, SEQ_QUERY, SEQ_GLOBAL (R465) -/

/-- SEQ_FREE (R106, R118): every stripe node releases its rows first. -/
def seqFree (d : Desc) (s : State) : State × Ans :=
  let id := byt d.body 0 5
  withObj (seqFor d s id true) s fun q =>
    failIf (q.state == .running) .badState s <|
    failIf (objBusy s (.seq id)) .busy s <|
      let others := q.stripes.filter fun n => n != s.nodeNo && nodeReachable s n
      if others.isEmpty then (forgetSeq s id, .acceptDone .ok)
      else (others.foldl (fun s n =>
        let (c, s) := ask s (.release id n)
        sendMgmt s n 0x0011 c 11 (pack [(0, 48, id)])) s, .accept (.seq id))

/-- The row of SEQ_FREE (R106). -/
def rowSeqFree : HRow :=
  fixedRow 0x0503 6 [(0, 5)]

/-- SEQ_FREE (R106). -/
def execSeqFree (d : Desc) (s : State) : Res :=
  runHuavo rowSeqFree (atHome 0x0503 true (fun _ => 0) seqFree) d s

/-- Destinations for the sealed pages that hold position p − 1, drawn and pinned; none when one cannot be drawn (R120). -/
def drawDests (s : State) (sl dom n : Nat) (t : Truncate) : List (Nat × Nat) → Option (State × Truncate)
  | [] => some (s, t)
  | (k, f) :: l =>
    if isSealed s f then
      match drawFrame s sl dom .migrating 0 (some (.reopen f n false)) with
      | none => none
      | some (dst, s) =>
        let s := modFr s dst fun v =>
          let hdr : PageHdr := { layer := keyLayer k, group := keyGroup k, page := keyPage k }
          { v with data := { hdr := hdr } }
        if (getFr s f).pins < 32 then
          drawDests (modFr s f fun v => { v with pins := v.pins + 1 }) sl dom n { t with dests := t.dests ++ [dst], pinned := t.pinned ++ [f] } l
        else drawDests s sl dom n { t with dests := t.dests ++ [dst] } l
    else drawDests s sl dom n t l

/-- SEQ_TRUNCATE (R120): the destinations are drawn; the commit follows when all are written. -/
def seqTruncate (d : Desc) (s : State) : State × Ans :=
  let id := byt d.body 0 5
  let p := byt d.body 8 10
  withObj (seqFor d s id) s fun q =>
    failIf (decide (q.length ≤ p)) .badField s <|
    failIf (q.state != .idle) .badState s <|
    failIf (objBusy s (.seq id)) .busy s <|
    match sliceOf s q.domain with
    | none => (s, .fail .badState)
    | some sl =>
      match drawDests s sl q.domain (p % max 1 (mT (seqModel s q))) { position := p } (pagesWithin s q p) with
      | none => (s, .fail .noHeadroom)
      | some (s, t) => (modQ s id fun q => { q with trunc := some t }, .accept (.seq id))

/-- The row of SEQ_TRUNCATE (R120). -/
def rowSeqTruncate : HRow :=
  fixedRow 0x0504 11 [(0, 5), (8, 10)]

/-- SEQ_TRUNCATE (R120). -/
def execSeqTruncate (d : Desc) (s : State) : Res :=
  runHuavo rowSeqTruncate (atHome 0x0504 true (fun _ => 0) seqTruncate) d s

/-- SEQ_QUERY (R465). -/
def seqQuery (d : Desc) (s : State) : State × Ans :=
  let id := byt d.body 0 5
  let out := byt d.body 8 15
  withObj (seqFor d s id true) s fun q =>
    failIf (!outOk out) .badField s (s, .done 0 0 out 384 (descWord id q + stripeWord q.stripes * 2 ^ 2048))

/-- The row of SEQ_QUERY (R465). -/
def rowSeqQuery : HRow :=
  fixedRow 0x0505 16 [(0, 5), (8, 15)]

/-- SEQ_QUERY (R465). -/
def execSeqQuery (d : Desc) (s : State) : Res :=
  runHuavo rowSeqQuery (atHome 0x0505 false (fun b => byt b 8 15) seqQuery) d s

/-- SEQ_GLOBAL (R158, R465): the page's GLOBAL bit in this node's map. -/
def seqGlobal (d : Desc) (s : State) : State × Ans :=
  let id := byt d.body 0 5
  let page := byt d.body 8 10
  let pin := bit d.body 88
  withObj (seqFor d s id) s fun q =>
    let t := mT (seqModel s q)
    failIf (decide (t = 0 ∨ ceilDiv q.length t ≤ page)) .badField s <|
    failIf (objBusy s (.seq id)) .busy s <|
    failIf (pin && !q.globals.contains page && decide (64 ≤ q.globals.length)) .exhausted s <|
      let globals := if pin then (if q.globals.contains page then q.globals else q.globals ++ [page]) else q.globals.filter fun x => x != page
      let addr := if q.globals.isEmpty ∧ pin then freeVal s % 2 ^ 40 else q.globalsAddr
      let s := if q.globals.isEmpty ∧ pin then useFree s else s
      (modQ s id fun q => { q with globals := globals, globalsAddr := addr,
                                   leaves := q.leaves.mapVals fun k e => if keyPage k = page then { e with global := pin } else e },
       .acceptDone .ok)

/-- The row of SEQ_GLOBAL (R465). -/
def rowSeqGlobal : HRow :=
  { opcode := 0x0506, lenOk := fun _ n => n == 12, named := fun _ _ => [(47, 0), (88, 64)] }

/-- SEQ_GLOBAL (R465). -/
def execSeqGlobal (d : Desc) (s : State) : Res :=
  runHuavo rowSeqGlobal
    (atHome 0x0506 true (fun _ => 0) seqGlobal) d s

/-! ## FRAME_QUERY (R107) -/

/-- The next frame of the list that holds a FREE frame: the pool's, or the Puppeteer's free list (R114, assumption 3). -/
def nextFree (s : State) (f : Nat) : Nat :=
  match s.mem.pools.find? fun _ l => l.contains f with
  | some (_, l) => ((l.dropWhile fun x => x != f)[1]?).getD 0xFFFFFF
  | none => freeVal s % 2 ^ 24

/-- A frame-table entry (R107). -/
def frameWord (s : State) (f : Nat) : Nat :=
  let v := getFr s f
  pack [(88, 40, v.version), (72, 16, v.refs), (64, 8, v.pins), (56, 8, v.qmap.toNat), (52, 4, v.state.code), (46, 6, v.domain),
    (41, 5, f % 20), (40, 1, b2n v.retiring), (39, 1, b2n v.damaged), (38, 1, b2n v.heldRemote),
    (0, 36, if v.state = .free then nextFree s f else v.link.toNat)]

/-- The row of FRAME_QUERY (R465). -/
def rowFrameQuery : HRow :=
  fixedRow 0x0507 3 [(0, 2)] (d0 := true)

/-- FRAME_QUERY: its own part (R465). -/
def bodyFrameQuery (d : Desc) (s : State) : State × Ans :=
  let f := byt d.body 0 2
  failIf (!pageOn s || !frameOk s f) .badState s
    ((if (getFr s f).state = .free ∧ !inPool s f then useFree s else s), .done (frameWord s f))

/-- FRAME_QUERY (R465). -/
def execFrameQuery (d : Desc) (s : State) : Res := runHuavo rowFrameQuery bodyFrameQuery d s

end Sys2Proof.Machine
end

