-- ==== Sys2Proof/Machine/PlaceCmds.lean ====
section
/-! DEFINITION. Huavo 0x0Axx: placement, ownership, fences (R346, R364, R367 to R371, R383, R384), and forwarded commands at
the home and on their way back (R344, R349, R456). -/

namespace Sys2Proof.Machine

/-! ## PLACE_CONFIG, REPL_QUERY (R346, R364) -/

/-- RWS and locked fields of the placement record. -/
def placeRws : Nat := maskOf [(51, 8)]
def placeLocked : Nat := maskOf [(63, 52), (0, 0)]

/-- The ranges of R346. -/
def placeBad (s : State) (r : BitVec 64) : Bool :=
  let p := rf r 63 52
  p == s.nodeNo || !s.net.addrs.has p || trayOf s p == trayOf s s.nodeNo
    || decide (rf r 45 32 = 0 ∨ 10000 < rf r 45 32 ∨ rf r 31 24 < 4 ∨ 100 < rf r 23 17 ∨ rf r 15 8 < 2)

/-- PLACE_CONFIG (R346, R445, R447). -/
def placeConfig (d : Desc) (s : State) : State × Ans :=
  let r : BitVec 64 := BitVec.ofNat 64 (byt d.body 0 7)
  failIf (placeBad s r) .badField s <|
  failIf (placeOn s && differ s.place.record r placeLocked) .busy s
    (modPl s fun p => { p with record := merge p.record r placeLocked, shadow := some (merge (p.shadow.getD p.record) r placeRws) }, .done)

/-- The row of PLACE_CONFIG (R346). -/
def rowPlaceConfig : HRow :=
  { opcode := 0x0A01, d0 := true, lenOk := fun _ n => n == 8, named := fun _ _ => [(63, 8), (0, 0)] }

/-- PLACE_CONFIG (R346). -/
def execPlaceConfig (d : Desc) (s : State) : Res := runHuavo rowPlaceConfig placeConfig d s

/-- REPL_QUERY (R364). -/
def replQuery (d : Desc) (s : State) : State × Ans :=
  withObj (seqFor d s (byt d.body 0 5)) s fun q => (s, .done (replWord (byt d.body 0 5) q))

/-- The row of REPL_QUERY (R364). -/
def rowReplQuery : HRow :=
  fixedRow 0x0A02 6 [(0, 5)]

/-- REPL_QUERY (R364). -/
def execReplQuery (d : Desc) (s : State) : Res :=
  runHuavo rowReplQuery (atHome 0x0A02 false (fun _ => 0) replQuery) d s

/-! ## Ownership (R367 to R371) -/

/-- OWN_QUERY (R367): either port may ask. -/
def ownQuery (d : Desc) (s : State) : State × Ans :=
  let id := byt d.body 0 5
  let out := byt d.body 8 15
  withObj (seqFor d s id false true) s fun q =>
    failIf (!outOk out) .badField s (s, .done 0 0 out 32 (ownWord id q.own))

/-- The row of OWN_QUERY (R367). -/
def rowOwnQuery : HRow :=
  fixedRow 0x0A03 16 [(0, 5), (8, 15)]

/-- OWN_QUERY (R367). -/
def execOwnQuery (d : Desc) (s : State) : Res :=
  runHuavo rowOwnQuery (atHome 0x0A03 false (fun b => byt b 8 15) ownQuery) d s

/-- The node and function that sent a command. -/
def senderOf (d : Desc) (s : State) : Nat × Nat := (d.node.getD s.nodeNo, funcCode d.port d.func)

/-- The sender is a record's owner, or the function it is offered to. -/
def byOwner (d : Desc) (s : State) (o : OwnRec) : Bool := senderOf d s == (o.ownerNode, o.ownerFunc)
def byOffer (d : Desc) (s : State) (o : OwnRec) : Bool := senderOf d s == (o.offerNode, o.offerFunc)

/-- A changed ownership record completes its command once the partner holds it (R371). -/
def ownDone (s : State) (id : Nat) (q : SeqSt) (o : OwnRec) : State × Ans :=
  let o := bumpEpoch o
  let s := recordChanged (setQ s id { q with own := o }) id
  if partnerOf s = s.nodeNo ∨ !nodeReachable s (partnerOf s) then (s, .done) else (s, .wait (ownKey id) 0 o.epoch)

/-- An ownership command of a record: EPOCH compares first, then the table of R369 decides. -/
def ownCommand (d : Desc) (s : State) (k : Nat → SeqSt → State × Ans) : State × Ans :=
  let id := byt d.body 0 5
  withObj (seqFor d s id) s fun q =>
    failIf (byt d.body 8 11 != q.own.epoch) .notOwner s <|
    failIf (objBusy s (.seq id)) .busy s (k id q)

/-- The function an OWN_OFFER names can be one of the sequence's domain: on this node it must be (R369). -/
def offerBad (s : State) (q : SeqSt) (node f : Nat) : Bool :=
  decide (4095 < node ∨ 63 < f % 128) || (node == s.nodeNo && domainOf s (codePort f) (codeFunc f) != some q.domain)

/-- OWN_OFFER (R369). -/
def ownOffer (d : Desc) (s : State) : State × Ans :=
  ownCommand d s fun id q =>
    let node := byt d.body 12 13
    let f := byt d.body 14 14
    failIf (q.own.state != .abandoned && !byOwner d s q.own) .notOwner s <|
    failIf (offerBad s q node f) .badField s <|
    failIf (q.own.state != .held) .badState s
      (ownDone s id q { q.own with state := .offered, accepted := false, offerNode := node, offerFunc := f,
                                   deadline := s.ns + rf s.place.record 45 32 * 1000000 })

/-- The row of OWN_OFFER (R369). -/
def rowOwnOffer : HRow :=
  fixedRow 0x0A04 15 [(0, 5), (8, 14)]

/-- OWN_OFFER (R369). -/
def execOwnOffer (d : Desc) (s : State) : Res :=
  runHuavo rowOwnOffer (atHome 0x0A04 false (fun _ => 0) ownOffer) d s

/-- OWN_ACCEPT (R369). -/
def ownAccept (d : Desc) (s : State) : State × Ans :=
  ownCommand d s fun id q =>
    failIf (q.own.state != .offered) .badState s <|
    failIf (!byOffer d s q.own) .notOwner s <|
    failIf q.own.accepted .badState s (ownDone s id q { q.own with accepted := true })

/-- Row of OWN_ACCEPT, OWN_COMMIT and OWN_CLAIM. -/
def ownRow (opcode : Nat) : HRow := fixedRow opcode 12 [(0, 5), (8, 11)]

/-- The row of OWN_ACCEPT (R369). -/
def rowOwnAccept : HRow :=
  ownRow 0x0A05

/-- OWN_ACCEPT (R369). -/
def execOwnAccept (d : Desc) (s : State) : Res := runHuavo rowOwnAccept (atHome 0x0A05 false (fun _ => 0) ownAccept) d s

/-- The new owner's node holds a descriptor, with no groups when it held none (R345, R369). -/
def ownerDescriptor (s : State) (id node : Nat) : State :=
  match getQ s id with
  | none => s
  | some q =>
    if node = s.nodeNo ∨ q.stripes.contains node then s
    else match getM s q.domain q.model with
      | none => s
      | some m =>
        let (c, s) := ask s (.stripe id node)
        sendMgmt s node 0x0002 c 72 (stripeReqBody id q.domain 0 q.model q.stripes.length 0 0 (regDigest m))

/-- OWN_COMMIT (R369). -/
def ownCommit (d : Desc) (s : State) : State × Ans :=
  ownCommand d s fun id q =>
    failIf (q.own.state != .offered) .badState s <|
    failIf (!byOwner d s q.own) .notOwner s <|
    failIf (!q.own.accepted || q.state == .running) .badState s <|
      let o := q.own
      let s := ownerDescriptor s id o.offerNode
      ownDone s id { q with ctrlPort := codePort o.offerFunc }
        { clearOffer o with state := .held, ownerNode := o.offerNode, ownerFunc := o.offerFunc, expiry := s.ns + o.leaseMs * 1000000 }

/-- The row of OWN_COMMIT (R369). -/
def rowOwnCommit : HRow :=
  ownRow 0x0A06

/-- OWN_COMMIT (R369). -/
def execOwnCommit (d : Desc) (s : State) : Res := runHuavo rowOwnCommit (atHome 0x0A06 false (fun _ => 0) ownCommit) d s

/-- OWN_CLAIM (R106, R369). -/
def ownClaim (d : Desc) (s : State) : State × Ans :=
  ownCommand d s fun id q =>
    failIf (q.own.state != .abandoned) .badState s <|
      let x := senderOf d s
      let s := ownerDescriptor s id x.1
      ownDone s id { q with state := if q.state = .abandoned then .idle else q.state, ctrlPort := d.port }
        { q.own with state := .held, ownerNode := x.1, ownerFunc := x.2, expiry := s.ns + q.own.leaseMs * 1000000 }

/-- The row of OWN_CLAIM (R369). -/
def rowOwnClaim : HRow :=
  ownRow 0x0A07

/-- OWN_CLAIM (R369). -/
def execOwnClaim (d : Desc) (s : State) : Res := runHuavo rowOwnClaim (atHome 0x0A07 false (fun _ => 0) ownClaim) d s

/-! ## FENCE (R383, R384) -/

/-- The partition-fenced state: marks complete with FENCED, traffic stops, DMA fault records are abandoned (R384). -/
def fencePartition (s : State) : State :=
  let s := { s with fenced := true }
  let s := s.heats.fold (fun s k h => match h.held with
    | none => s
    | some m => modH (rejectResult s k h m.step .fenced) k fun h => { h with held := none }) s
  abandonDma (modNet s fun n => { n with egress := [] }) (fun _ _ => true) 8

/-- The partner of another node is known to that node alone: the acting home a fence names for it is its choice among the
other nodes (R375, assumption 3). -/
def actingHome (s : State) (node : Nat) : Nat × State :=
  if s.place.heard.has node then (s.nodeNo, s)
  else
    let l := (s.net.addrs.l.map (·.1)).filter fun n => n != node
    (l.getD (freeVal s % max 1 l.length) s.nodeNo, useFree s)

/-- A named node is fenced and declared failed. -/
def fenceOne (s : State) (node : Nat) : State :=
  if node = s.nodeNo then stopSelf s
  else if s.place.failed.has node then fenceNode s node
  else
    let (a, s) := actingHome s node
    declareFailed s node a 3

/-- FENCE (R383). -/
def fenceBody (d : Desc) (s : State) : State × Ans :=
  let scope := byt d.body 0 0
  let n := byt d.body 1 1
  let v := byt d.body 2 3
  let nodes := elems 16 (d.body / 2 ^ 64) n
  let known := s.net.addrs.l.map (·.1)
  let bad := 3 < scope ∨ (scope = 0 ∧ (n = 0 ∨ 64 < n)) ∨ (scope = 0 ∧ nodes.any fun x => decide (4095 < x))
  failIf (decide bad) .badField s
    (match scope with
     | 0 => (nodes.foldl fenceOne s, .done)
     | 1 => ((known.filter fun x => rf (s.place.locality.getD x 0) 15 0 == v).foldl fenceOne s, .done)
     | 2 => ((known.filter fun x => trayOf s x == v).foldl fenceOne s, .done)
     | _ => (fencePartition s, .done))

/-- The row of FENCE (R383). -/
def rowFence : HRow :=
  { opcode := 0x0A08, d0 := true, ptr := true, lenOk := fun b n => n == 8 + 2 * byt b 1 1,
    named := fun b _ => (31, 0) :: (if byt b 1 1 = 0 then [] else [(63 + 16 * byt b 1 1, 64)]) }

/-- FENCE (R383). -/
def execFence (d : Desc) (s : State) : Res := runHuavo rowFence fenceBody d s

/-! ## CMD_FORWARD at the home (R344, R349, R368) -/

/-- What a forwarded opcode runs. -/
def forwardedBody : Nat → Option (Desc → State → State × Ans)
  | 0x0503 => some seqFree
  | 0x0504 => some seqTruncate
  | 0x0505 => some seqQuery
  | 0x0506 => some seqGlobal
  | 0x0A02 => some replQuery
  | 0x0A03 => some ownQuery
  | 0x0A04 => some ownOffer
  | 0x0A05 => some ownAccept
  | 0x0A06 => some ownCommit
  | 0x0A07 => some ownClaim
  | _ => none

/-- The command a CMD_FORWARD carries. -/
def forwardedDesc (m : Mgmt) : Desc :=
  let b := m.body
  { port := codePort (byt b 65 65), func := codeFunc (byt b 65 65), now := m.now, domain := BitVec.ofNat 8 (byt b 4 4),
    tag := BitVec.ofNat 16 (byt b 2 3), length := BitVec.ofNat 16 (byt b 6 7), ptr := bit b 40, secured := bit b 41, ordered := bit b 42,
    body := if bit b 40 then b / 2 ^ 640 else fld b 511 128, env := m.env, node := some (byt b 66 67) }

/-- The answer of a forwarded command: at once, or when it ends. -/
def answerAns (s : State) (m : Mgmt) (d : Desc) (opcode : Nat) (a : Ans) : State :=
  let go := fun (s : State) (st : Status) (result aux len data : Nat) =>
    answerForward s m.src m.corr (responseWord result aux st opcode d.tag.toNat d.domain.toNat true (approvedNow s)) len data
  let fly := fun (s : State) (key : ObjKey) (arg : Nat) =>
    let g : Flight := { port := d.port, func := d.func, tag := d.tag, opcode := opcode, domain := d.domain.toNat, key := key,
                        stamp := s.ns, approved := approvedNow s, remote := some (m.corr, m.src), arg := arg }
    { s with flights := s.flights ++ [g] }
  match a with
  | .fail st result aux => go s st result aux 0 0
  | .done result aux _ len data => go s .ok result aux len data
  | .accept key _ arg => fly s key arg
  | .acceptDone st result aux => go s st result aux 0 0
  | .wait key _ arg => fly s key arg

/-- A forwarded command runs at its home. -/
def forwardedOp (s : State) (m : Mgmt) : State :=
  let opcode := byt m.body 0 1
  let d := forwardedDesc m
  let dom := d.domain.toNat
  match forwardedBody opcode with
  | none => answerAns s m d opcode (.fail .badOpcode)
  | some body =>
    if dom ≠ 0 ∧ (getD s dom).state = .free then answerAns s m d opcode (.fail .badState)
    else if dom ≠ 0 ∧ (getD s dom).state = .resetting then answerAns s m d opcode (.fail .busy)
    else
      let (s, a) := body d (renewBy d s (byt d.body 0 5))
      answerAns s m d opcode a

/-- CMD_FORWARD (R344). -/
def execCmdForward (m : Mgmt) (s : State) : Res :=
  let len := 80 + (if bit m.body 40 then byt m.body 6 7 else 0)
  runMgmt m len [(543, 0), (8 * len - 1, 576)] (fun s => forwardedOp s m) s

/-! ## CMD_ANSWER and the timeout (R349, R456) -/

/-- The forwarded command with a CORR completes: its output first, then the response (R452). -/
def answerTo (s : State) (corr : Nat) (st : Status) (result aux len data : Nat) (host : HostRead) : State :=
  let s := answered s corr
  match s.flights.find? fun g => g.key == fwdKey corr with
  | none => s
  | some g =>
    let finish := fun (s : State) (st : Status) (result aux : Nat) => finishWhere s (fun x => x.key == fwdKey corr) st result aux
    if len = 0 ∨ st ≠ .ok then finish s st result aux
    else match hostStatus host with
      | none => finish (emit s (.hostWrite g.port g.outAddr len data)) st result aux
      | some e =>
        let r := dmaRecord g.tag.toNat len 0 (if host = .timeout then 6 else 5) 3 g.domain (portMover g.port) 3
        finish (dmaFault s (portMover g.port) r) e 0 0

/-- CMD_ANSWER (R456). -/
def execCmdAnswer (m : Mgmt) (s : State) : Res :=
  let len := byt m.body 32 35
  runMgmt m (40 + len) [(287, 0), (8 * (40 + len) - 1, 320)] (fun s =>
    match s.place.asked.get? m.corr with
    | none => s
    | some a => match a.what with
      | .forward _ =>
        answerTo s m.corr (replyStatus (byt m.body 6 7)) (byt m.body 16 31) (byt m.body 8 15) len (m.body / 2 ^ 320) m.env.host
      | _ => s) s

/-- A forwarded command without an answer in 100 ms completes with TIMEOUT (R456). -/
def forwardLate (s : State) (corr : Nat) : State :=
  match s.place.asked.get? corr with
  | none => s
  | some a => match a.what with
    | .forward _ => if s.ns < a.sent + 100000000 then s else answerTo s corr .timeout 0 0 0 0 (.data 0)
    | _ => s

/-- FORWARD_TIMEOUT (R456). -/
def execForwardTimeout (corr now : Nat) (s : State) : Res := .next (forwardLate (clockTo s now) corr)

end Sys2Proof.Machine
end

