-- ==== Sys2Proof/Machine/Colls.lean ====
section
/-! DEFINITION. Selector settings, filters, audit counters, vector collections and their queries (R188, R189, R199, R200,
R207 to R213, R316, R468, R469). -/

namespace Sys2Proof.Machine

/-! ## Settings and filters -/

/-- The row of SEL_HEAT_SET (R189, R468). -/
def rowSelHeatSet : HRow :=
  { opcode := 0x0801, lenOk := fun _ n => n == 16, named := fun _ _ => [(15, 0), (121, 94), (79, 64)] }

/-- SEL_HEAT_SET: its own part (R189, R468). -/
def bodySelHeatSet (d : Desc) (s : State) : State × Ans :=
  let k := byt d.body 0 1
  let r := BitVec.ofNat 64 (byt d.body 8 15)
  withObj (heatFor d s k) s fun _ =>
    failIf (decide (hsProbeMax r < hsProbe r)) .badField s <|
    failIf (objBusy s (.heat k)) .busy s
      (modH s k fun h => { h with selShadow := some r }, .done)

/-- SEL_HEAT_SET (R189, R468). -/
def execSelHeatSet (d : Desc) (s : State) : Res := runHuavo rowSelHeatSet bodySelHeatSet d s

/-- A bitmap range of the bulk window that can hold a number of bits (R199). -/
def bitmapOk (s : State) (off len bits : Nat) : Bool :=
  off % 40960 == 0 && len % 40960 == 0 && decide (ceilDiv bits 8 ≤ len) && inWindow s off len

/-- A binding takes effect: at the heat's next step mark while the sequence runs, else at once (R199). -/
def bindFilter (s : State) (id : Nat) (b : Option (Nat × Nat)) : State :=
  modQ s id fun q => if q.state = .running then { q with filterNext := some b } else { q with filter := b, filterNext := none }

/-- The row of FILTER_BIND (R199, R468). -/
def rowFilterBind : HRow :=
  fixedRow 0x0803 24 [(0, 5), (8, 15), (16, 23)]

/-- FILTER_BIND: its own part (R199, R468). -/
def bodyFilterBind (d : Desc) (s : State) : State × Ans :=
  let id := byt d.body 0 5
  let off := byt d.body 8 15
  let len := byt d.body 16 23
  let s := renewBy d s id
  withObj (seqFor d s id) s fun q =>
    failIf (!bitmapOk s off len (ceilDiv (q.maxCtxM1 + 1) (max 1 (mT (seqModel s q))))) .badField s <|
    failIf (objBusy s (.seq id)) .busy s (bindFilter s id (some (off, len)), .done)

/-- FILTER_BIND (R199, R468). -/
def execFilterBind (d : Desc) (s : State) : Res := runHuavo rowFilterBind bodyFilterBind d s

/-- The row of FILTER_UNBIND (R199, R468). -/
def rowFilterUnbind : HRow :=
  fixedRow 0x0804 6 [(0, 5)]

/-- FILTER_UNBIND: its own part (R199, R468). -/
def bodyFilterUnbind (d : Desc) (s : State) : State × Ans :=
  let id := byt d.body 0 5
  let s := renewBy d s id
  withObj (seqFor d s id) s fun q =>
    failIf (objBusy s (.seq id)) .busy s <|
    failIf (q.filterNext.getD q.filter).isNone .badState s (bindFilter s id none, .done)

/-- FILTER_UNBIND (R199, R468). -/
def execFilterUnbind (d : Desc) (s : State) : Res := runHuavo rowFilterUnbind bodyFilterUnbind d s

/-- The four audit counters of a model (R207), 64 bits each. -/
def auditWords (s : State) (domain model : Nat) : Nat :=
  packElems 64 ((List.range 4).map fun i => s.sel.auditCounts.getD ((domain * 65536 + model) * 4 + i) 0)

/-- The audit counters of a model start again (R207). -/
def clearAudit (s : State) (domain model : Nat) : State :=
  { s with sel := { s.sel with auditCounts := s.sel.auditCounts.filter fun k _ => k / 4 != domain * 65536 + model } }

/-- The row of AUDIT_READ (R207, R468). -/
def rowAuditRead : HRow :=
  { opcode := 0x0805, lenOk := fun _ n => n == 16, named := fun _ _ => [(15, 0), (16, 16), (127, 64)] }

/-- AUDIT_READ: its own part (R207, R468). -/
def bodyAuditRead (d : Desc) (s : State) : State × Ans :=
  let n := byt d.body 0 1
  let out := byt d.body 8 15
  withObj (modelFor d s n) s fun _ =>
    failIf (!outOk out) .badField s <|
      let w := auditWords s d.domain.toNat n
      let (s, st) := putOut s d out 32 w
      if st = .ok then (if bit d.body 16 then clearAudit s d.domain.toNat n else s, .done) else (s, .fail st)

/-- AUDIT_READ (R207, R468). -/
def execAuditRead (d : Desc) (s : State) : Res := runHuavo rowAuditRead bodyAuditRead d s

/-! ## Layout of a collection (R208, R209) -/

/-- Key of a collection. -/
def collKey (domain n : Nat) : Nat := domain * 256 + n

/-- Bytes of an element. -/
def collElem (format : Nat) : Nat := if format = 0 then 2 else 1

/-- Bytes of an item's slot. -/
def collSlot (format dim : Nat) : Nat := roundUp (8 + dim * collElem format) 64

/-- Items in a frame. -/
def collPerFrame (format dim : Nat) : Nat := 16384 / collSlot format dim

/-- Bytes of a sketch entry, and entries in a frame. -/
def sketchEntry (bits : Nat) : Nat := bits / 8 + 8
def sketchesPerFrame (bits : Nat) : Nat := 16384 / sketchEntry bits

/-- Centroids in an index frame. -/
def centsPerFrame (bits : Nat) : Nat := 16384 / (bits / 8)

/-- A collection of a domain. -/
def getColl (s : State) (domain n : Nat) : Option CollSt := s.sel.colls.get? (collKey domain n)

/-- Replace a collection. -/
def setColl (s : State) (domain n : Nat) (c : CollSt) : State :=
  { s with sel := { s.sel with colls := s.sel.colls.set (collKey domain n) c } }

/-- Draw `n` frames from ordinal `ord` on: OPEN, under new identities, with the sidecar of R209. -/
def drawColl (s : State) (sl dom : Nat) : (n ord : Nat) → Option (List Nat × State)
  | 0, _ => some ([], s)
  | n + 1, ord =>
    match drawFrame s sl dom .opened with
    | none => none
    | some (f, s) =>
      let (i, s) := newIdentity s
      let key := (getD s dom).key
      let s := modFr s f fun v =>
        let hdr : PageHdr := { identity := i, page := ord, layer := 255, group := 63 }
        let data : PageData := { hdr := hdr, version := v.version + 1, key := key }
        { v with refs := 1, version := v.version + 1, data := data }
      (drawColl s sl dom n (ord + 1)).map fun r => (f :: r.1, r.2)

/-- Write bytes into a collection frame: an OPEN write of every block touched, after a renewal when a counter stands at its
last value (R109, R210). -/
def collWrite (s : State) (f off n value : Nat) : State :=
  let blocks := touched off n
  let full := blocks.any fun b => decide (65534 ≤ rf (getFr s f).data.counters (16 * b + 15) (16 * b))
  let s := if full then renewFrame s f else s
  modFr s f fun v =>
    let d := v.data
    let counters : BitVec 512 := blocks.foldl (fun c b => rset c (16 * b + 15) (16 * b) (rf c (16 * b + 15) (16 * b) + 1)) d.counters
    let data : PageData := { d with payload := fldSet d.payload (8 * (off + n) - 1) (8 * off) value, counters := counters,
                                    version := v.version + 1 }
    { v with version := v.version + 1, data := data }

/-- Frame and offset of an item's slot, and of its sketch entry. -/
def itemPlace (c : CollSt) (ord : Nat) : Nat × Nat :=
  (c.frames.getD (ord / collPerFrame c.format c.dim) 0, ord % collPerFrame c.format c.dim * collSlot c.format c.dim)
def sketchPlace (c : CollSt) (ord : Nat) : Nat × Nat :=
  (c.frames.getD (c.itemFrames + ord / sketchesPerFrame c.sketchBits) 0, ord % sketchesPerFrame c.sketchBits * sketchEntry c.sketchBits)

/-- The vector an item's slot holds. -/
def itemVector (s : State) (c : CollSt) (ord : Nat) : List Num :=
  let (f, off) := itemPlace c ord
  (elems (8 * collElem c.format) ((getFr s f).data.payload / 2 ^ (8 * (off + 8))) c.dim).map (decodeElem c.format)

/-- A sketch entry's bytes: the sketch, the ordinal, VISIBLE and GONE (R209). -/
def sketchWord (bits : Nat) (e : IdxEntry) : Nat :=
  pack [(0, bits, e.sketch), (bits, 24, e.page), (bits + 24, 1, b2n e.visible), (bits + 25, 1, b2n e.gone)]

/-- Write an item's sketch entry. -/
def writeEntry (s : State) (c : CollSt) (e : IdxEntry) : State :=
  let (f, off) := sketchPlace c e.page
  collWrite s f off (sketchEntry c.sketchBits) (sketchWord c.sketchBits e)

/-! ## The collection's index (R191 to R193, R211) -/

/-- Build or rebuild the centroid set over the live items, and commit it at once. -/
def collBuild (c : CollSt) : CollSt :=
  let x := c.index
  let live := (x.entries.filter fun e => !e.gone).stableSort fun a b => decide (a.page ≤ b.page)
  let cents := centroidSet c.sketchBits (sTarget c.params) (sIters c.params) (live.map (·.sketch))
  let lists := live.foldl (fun (t : Map Nat) (e : IdxEntry) => t.set e.page (nearest c.sketchBits cents e.sketch)) .empty
  { c with index := idxCommit c.sketchBits { x with ready := some { centroids := cents, lists := lists } } }

/-- Write the centroids of a new set into the index frames. -/
def writeCents (s : State) (c : CollSt) : State :=
  let per := centsPerFrame c.sketchBits
  c.index.centroids.zipIdx.foldl (fun s e =>
    collWrite s (c.frames.getD (c.itemFrames + c.sketchFrames + e.2 / per) 0) (e.2 % per * (c.sketchBits / 8)) (c.sketchBits / 8) e.1) s

/-- The index follows the count of live items. -/
def collIndex (s : State) (domain n : Nat) (c : CollSt) : State :=
  let x := c.index
  let count := idxCount x
  let build := (x.state == .none && decide (sThreshold c.params ≤ count)) || (x.state == .active && decide (2 * x.nBuild ≤ count))
  if build then
    let c := collBuild c
    writeCents (setColl s domain n c) c
  else if x.state = .active ∧ 2 * count < sThreshold c.params then
    setColl s domain n { c with index := { x with state := .none, centroids := [], nBuild := 0 } }
  else setColl s domain n c

/-! ## Creation, items (R208, R209, R211) -/

/-- Another command that changes the collection runs (R455): queries do not. -/
def collBusy (s : State) (domain n : Nat) : Bool := s.flights.any fun g => g.key == .coll domain n && g.opcode != 0x0814

/-- The collection a command names. -/
def collFor (d : Desc) (s : State) : Except Status (Nat × CollSt) :=
  let n := byt d.body 0 0
  match getColl s d.domain.toNat n with
  | none => .error .badState
  | some c => .ok (n, c)

/-- COLL_CREATE's own part. -/
def collCreate (d : Desc) (s : State) : State × Ans :=
  let n := byt d.body 0 0
  let dom := d.domain.toNat
  let format := byt d.body 1 1
  let dim := byt d.body 2 3
  let bits := 256 * 2 ^ byt d.body 4 4
  let params := BitVec.ofNat 64 (byt d.body 8 15)
  let cap := byt d.body 16 18
  failIf (decide (1 < format ∨ dim = 0 ∨ 4096 < dim ∨ 1024 < bits ∨ cap = 0) || selBad params) .badField s <|
  failIf (getColl s dom n).isSome .badState s <|
  failIf (collBusy s dom n) .busy s <|
    let items := ceilDiv cap (collPerFrame format dim)
    let sketches := ceilDiv cap (sketchesPerFrame bits)
    let index := ceilDiv (centroidCount cap (sTarget params)) (centsPerFrame bits)
    match (sliceOf s dom).bind fun sl => drawColl s sl dom (items + sketches + index) 0 with
    | none => (s, .fail .noHeadroom)
    | some (l, s) =>
      let c : CollSt := { port := d.port, format := format, dim := dim, sketchBits := bits, params := params, capacity := cap,
                          frames := l, itemFrames := items, sketchFrames := sketches }
      (setColl s dom n c, .acceptDone .ok)

/-- The row of COLL_CREATE (R208, R468). -/
def rowCollCreate : HRow :=
  { opcode := 0x0810, lenOk := fun _ n => n == 19,
    named := fun _ _ => [(39, 0), (127, 108), (103, 80), (151, 128)] }

/-- COLL_CREATE (R208, R468). -/
def execCollCreate (d : Desc) (s : State) : Res := runHuavo rowCollCreate collCreate d s

/-- COLL_DESTROY's own part: the frames retire, and the command ends after the queries posted before it. -/
def collDestroy (d : Desc) (s : State) : State × Ans :=
  withObj (collFor d s) s fun x =>
    let dom := d.domain.toNat
    failIf (collBusy s dom x.1) .busy s <|
      let s := x.2.frames.foldl dropRef s
      let s := { s with sel := { s.sel with colls := s.sel.colls.erase (collKey dom x.1) } }
      (s, if s.flights.any fun g => g.key == .coll dom x.1 then .accept (.coll dom x.1) else .acceptDone .ok)

/-- The row of COLL_DESTROY (R468). -/
def rowCollDestroy : HRow :=
  fixedRow 0x0811 1 [(0, 0)]

/-- COLL_DESTROY (R468). -/
def execCollDestroy (d : Desc) (s : State) : Res := runHuavo rowCollDestroy collDestroy d s

/-- The sketch of an item's vector; zero when an element is not finite (R184, R209). -/
def itemSketch (c : CollSt) (v : List Num) : Nat := if v.all Num.isFinite then sketchOf (sSeed c.params) c.sketchBits v else 0

/-- COLL_INSERT's own part. -/
def collInsert (d : Desc) (s : State) : State × Ans :=
  withObj (collFor d s) s fun x =>
    let dom := d.domain.toNat
    let (n, c) := x
    let id := byt d.body 8 15
    failIf (collBusy s dom n) .busy s <|
    failIf (c.items.any fun _ y => y == id) .badState s <|
      match chooseFree s c.items c.capacity with
      | none => (s, .fail .exhausted)
      | some ord =>
        withBuffer s d <|
          let s := useFree s
          let bytes := hostData d % 2 ^ (8 * (c.dim * collElem c.format))
          let v := (elems (8 * collElem c.format) bytes c.dim).map (decodeElem c.format)
          let (f, off) := itemPlace c ord
          let s := collWrite s f off (collSlot c.format c.dim) (id + 2 ^ 64 * bytes)
          let sk := itemSketch c v
          let e : IdxEntry := { page := ord, cluster := f % 20, sketch := sk, visible := true,
                                list := nearest c.sketchBits c.index.centroids sk }
          let s := writeEntry s c e
          let s := chargeDram (chargePcie s dom false (c.dim * collElem c.format)) dom true (collSlot c.format c.dim + sketchEntry c.sketchBits)
          let x : IndexSt := { c.index with entries := c.index.entries.filter (fun y => y.page != ord) ++ [e] }
          (collIndex s dom n { c with items := c.items.set ord id, index := x }, .acceptDone .ok)

/-- The row of COLL_INSERT (R211, R468). -/
def rowCollInsert : HRow :=
  fixedRow 0x0812 24 [(0, 0), (8, 15), (16, 23)]

/-- COLL_INSERT (R211, R468). -/
def execCollInsert (d : Desc) (s : State) : Res := runHuavo rowCollInsert collInsert d s

/-- COLL_DELETE's own part: GONE at once, and the command ends after the queries posted before it. -/
def collDelete (d : Desc) (s : State) : State × Ans :=
  withObj (collFor d s) s fun x =>
    let dom := d.domain.toNat
    let (n, c) := x
    let id := byt d.body 8 15
    failIf (collBusy s dom n) .busy s <|
      match c.items.find? fun _ y => y == id with
      | none => (s, .fail .badState)
      | some (ord, _) =>
        let x := c.index
        let entries := x.entries.map fun e => if e.page = ord then { e with gone := true } else e
        let s := match entries.find? fun e => e.page == ord with
          | some e => chargeDram (writeEntry s c e) dom true (sketchEntry c.sketchBits)
          | none => s
        let s := collIndex s dom n { c with items := c.items.erase ord, index := { x with entries := entries } }
        (s, if s.flights.any fun g => g.key == .coll dom n then .accept (.coll dom n) else .acceptDone .ok)

/-- The row of COLL_DELETE (R211, R468). -/
def rowCollDelete : HRow :=
  fixedRow 0x0813 16 [(0, 0), (8, 15)]

/-- COLL_DELETE (R211, R468). -/
def execCollDelete (d : Desc) (s : State) : Res := runHuavo rowCollDelete collDelete d s

/-! ## Queries (R212, R213, R469) -/

/-- Records by score descending, then ID ascending; the best `k` (R212, R213). A record is (ID, FP32 bits). -/
def bestRecords (k : Nat) (l : List (Nat × Nat)) : List (Nat × Nat) :=
  (l.stableSort fun a b => (ofBits32 b.2).lt (ofBits32 a.2) || (!(ofBits32 a.2).lt (ofBits32 b.2) && decide (a.1 ≤ b.1))).take k

/-- The collection's bitmap allows an ordinal (R200, R212). -/
def bitmapAllows (s : State) (off len ord : Nat) : Bool := len == 0 || (memRead s.bulk (off + ord / 8)).getLsbD (ord % 8)

/-- The three phases of R196 in one cluster: its records, and whether it left a list unprobed. -/
def collScan (s : State) (c : CollSt) (body : Nat) (q : List Num) (sketch cl : Nat) : List (Nat × Nat) × Bool :=
  let k := byt body 2 3
  let cand := byt body 8 9 + 1
  let x := c.index
  let ok := x.entries.filter fun e => e.cluster == cl && e.visible && !e.gone && bitmapAllows s (byt body 40 47) (byt body 48 55) e.page
    && pageGood s (getFr s (itemPlace c e.page).1).domain (getFr s (itemPlace c e.page).1).data
  let active := (x.state == .active || x.state == .rebuilding) && !x.centroids.isEmpty
  let order := ((List.range x.centroids.length).map fun j => (hamming c.sketchBits (x.centroids.getD j 0) sketch, j)).stableSort fun a b =>
    decide (a.1 < b.1) || (a.1 == b.1 && decide (a.2 ≤ b.2))
  let (found, probed) :=
    if active then probeLists (order.map fun j => ok.filter fun e => e.list == j.2) (fld body 37 32 + 1) (fld body 45 40 + 1) k (bit body 48)
    else (ok, 0)
  let kept := (sortBy (fun e => hamming c.sketchBits e.sketch sketch) found).take cand
  let one := fun (l : List Num) => l.map fun y => (y, Num.one)
  let scored := kept.map fun e => (c.items.getD e.page 0, toBits32 (dotTiles (one q) (one (itemVector s c e.page))))
  (bestRecords (min k cand) scored, active && decide (probed < x.centroids.length))

/-- A query over every cluster: its records, and whether it is PARTIAL (R198, R212). -/
def collSearch (s : State) (c : CollSt) (body data : Nat) : List (Nat × Nat) × Bool :=
  let q := (elems (8 * collElem c.format) data c.dim).map (decodeElem c.format)
  let k := byt body 2 3
  if !q.all Num.isFinite then ([], false)
  else
    let parts := (List.range 20).map (collScan s c body q (itemSketch c q))
    let l := bestRecords k (parts.flatMap (·.1))
    (l, parts.any (·.2) && decide (l.length < min k (byt body 8 9 + 1)))

/-- Records as they are written and carried: 12 bytes each. -/
def collBytes (l : List (Nat × Nat)) : Nat := packElems 96 (l.map fun r => r.1 % 2 ^ 64 + 2 ^ 64 * (r.2 % 2 ^ 32))

/-- Write the records of a query to its output buffer. -/
def putRecords (s : State) (domain : Nat) (p : Port) (addr : Nat) (l : List (Nat × Nat)) : State :=
  if l.isEmpty then s else emit (chargePcie s domain true (12 * l.length)) (.hostWrite p addr (12 * l.length) (collBytes l))

/-- Key of a merge. -/
def mergeKey (domain coll queryId : Nat) : Nat := collKey domain coll * 2 ^ 32 + queryId

/-- A merge ends: the records are written, and the COLL_QUERY completes (R213, R469). -/
def endMerge (s : State) (domain coll queryId : Nat) (x : MergeSt) (st : Status) : State :=
  let s := putRecords s domain x.port x.outAddr x.records
  let s := { s with sel := { s.sel with merges := s.sel.merges.erase (mergeKey domain coll queryId) } }
  collSettle (finishWhere s (fun g => g.key == .coll domain coll && g.arg == queryId && g.opcode == 0x0814) st
    x.records.length x.got.length) domain coll

/-- The status of a merge. -/
def mergeStatus (isPartial : Bool) : Status := if isPartial then .partly else .ok

/-- Fields of COLL_QUERY out of range (R212, R213, R469). -/
def queryBad (s : State) (c : CollSt) (body : Nat) : Bool :=
  let k := byt body 2 3
  let ms := byt body 14 15
  decide (k = 0 ∨ 1024 < k ∨ 4095 < byt body 8 9 ∨ 4095 < byt body 10 11 ∨ 63 < byt body 13 13 ∨ ms = 0 ∨ 1000 < ms)
    || !outOk (byt body 32 39) || (byt body 48 55 != 0 && !bitmapOk s (byt body 40 47) (byt body 48 55) c.capacity)

/-- A contributor's message to the merge node (R316). -/
def mergeMsg (domain coll body : Nat) (l : List (Nat × Nat)) (isPartial : Bool) : SendMsg :=
  { op := 11, total := 12 * l.length, packets := packetsOf 11 (12 * l.length), extLen := 1, data := collBytes l,
    ext := pack [(96, 32, byt body 16 19), (88, 8, coll), (82, 6, byt body 13 13), (66, 16, (mergeStatus isPartial).code), (55, 11, l.length)],
    purpose := .merge domain coll (byt body 16 19) }

/-- COLL_QUERY's own part. -/
def collQuery (d : Desc) (s : State) : State × Ans :=
  withObj (collFor d s) s fun x =>
    let dom := d.domain.toNat
    let (n, c) := x
    let b := d.body
    let id := byt b 16 19
    let node := byt b 10 11
    let need := fld b 101 96 + 1
    failIf (queryBad s c b) .badField s <|
    failIf (s.sel.merges.has (mergeKey dom n id)) .busy s <|
    withBuffer s d <|
      let (l, part) := collSearch s c b (hostData d)
      let s := chargePcie s dom false (c.dim * collElem c.format)
      let s := chargeDram s dom false (c.index.entries.length * sketchEntry c.sketchBits + l.length * collSlot c.format c.dim)
      if node = s.nodeNo then
        if need = 1 then (putRecords s dom d.port (byt b 32 39) l, .acceptDone (mergeStatus part) l.length 1)
        else
          let m : MergeSt := { k := byt b 2 3, need := need, deadline := s.ns + byt b 14 15 * 1000000, outAddr := byt b 32 39,
                               port := d.port, got := [byt b 13 13], records := l, isPartial := part }
          ({ s with sel := { s.sel with merges := s.sel.merges.set (mergeKey dom n id) m } }, .accept (.coll dom n) (byt b 32 39) id)
      else
        let (qk, s) := internalQueue s 1 node 0 dom 1
        match qk with
        | none => (s, .fail .exhausted)
        | some qk => (launchInternal s qk (mergeMsg dom n b l part), .accept (.coll dom n) 0 id)

/-- The row of COLL_QUERY (R212, R213, R469). -/
def rowCollQuery : HRow :=
  { opcode := 0x0814, ptr := true, lenOk := fun _ n => n == 56,
    named := fun _ _ => [(7, 0), (31, 16), (37, 32), (45, 40), (48, 48), (95, 64), (101, 96), (127, 104), (159, 128), (447, 192)] }

/-- COLL_QUERY (R212, R213, R469). -/
def execCollQuery (d : Desc) (s : State) : Res :=
  runHuavo rowCollQuery
    collQuery d s

/-- A contributor's records arrive (R213, R316). -/
def selectMergeOp (s : State) (m : MsgRef) : State :=
  match deliverable s m 11 with
  | none => s
  | some (q, r) =>
    let s := delivered s m.queue
    let coll := fld r.ext 95 88
    let id := fld r.ext 127 96
    match s.sel.merges.get? (mergeKey q.domain coll id) with
    | none => count s 2 0 0
    | some x =>
      let new := (elems 96 r.data (r.total / 12)).map fun w => (w % 2 ^ 64, w / 2 ^ 64)
      let x : MergeSt := { x with got := x.got ++ [fld r.ext 87 82], records := bestRecords x.k (x.records ++ new),
                                  isPartial := x.isPartial || fld r.ext 81 66 == Status.partly.code }
      if x.need ≤ x.got.length then endMerge s q.domain coll id x (mergeStatus x.isPartial)
      else { s with sel := { s.sel with merges := s.sel.merges.set (mergeKey q.domain coll id) x } }

/-- SELECT_MERGE (R213, R316). -/
def execSelectMerge (m : MsgRef) (s : State) : Res := .next (selectMergeOp (clockTo s m.now) m)

/-- The merge timeout passes (R213). -/
def mergeLate (s : State) (domain coll id : Nat) : State :=
  match s.sel.merges.get? (mergeKey domain coll id) with
  | none => s
  | some x => if s.ns < x.deadline then s else endMerge s domain coll id x .timeout

/-- MERGE_TIMEOUT (R213). -/
def execMergeTimeout (domain coll queryId now : Nat) (s : State) : Res := .next (mergeLate (clockTo s now) domain coll queryId)

end Sys2Proof.Machine
end

