-- ==== Sys2Proof/Machine/Epochs.lean ====
section
/-! DEFINITION. Accounting epochs, the PTP servo and the time base states, DMA fault records (R35 to R41, R250 to R257, R290,
R291, R327, R350, R357, R414, R445). -/

namespace Sys2Proof.Machine

/-! ## Accounting records (R253, R254, R256) -/

/-- The class of a ratio: the highest of 1/16, 1/4 and 1/2 that it reaches; 0 for no denominator (R256). -/
def classOf (num den : Nat) : Nat :=
  if den = 0 then 0 else if den ≤ 2 * num then 3 else if den ≤ 4 * num then 2 else if den ≤ 16 * num then 1 else 0

/-- A domain's ENERGY in nJ. -/
def energyNj (s : State) (d : Nat) : Nat := used s d .energy / 1000000

/-- The record of a domain for the epoch in progress. -/
def acctRecord (s : State) (d : Nat) (irregular : Bool) : BitVec 1024 :=
  let fresh := used s d .selFresh
  let stale := used s d .selStale
  let none_ := used s d .selNone
  BitVec.ofNat 1024 (pack
    [(896, 64, none_), (832, 64, stale), (768, 64, fresh), (704, 64, used s d .slowdown), (640, 64, used s d .devEnergy / 1000000),
     (576, 64, energyNj s d), (512, 64, used s d .netOut), (448, 64, used s d .netIn), (384, 64, used s d .pcieOut),
     (320, 64, used s d .pcieIn), (256, 64, used s d .dramWrite), (192, 64, used s d .dramRead), (128, 64, used s d .engine),
     (78, 2, classOf (stale + none_) (fresh + stale + none_)),
     (76, 2, classOf (used s d .slowdown) (used s d .slowdown + used s d .held)),
     (73, 1, b2n irregular), (64, 6, d), (0, 64, s.time.epoch)])

/-- Domains with a counter above zero in the epoch in progress: the records of the others are all zero. -/
def chargedDomains (s : State) : List Nat := (s.acct.l.map fun e => e.1 / 32).eraseDups

/-- The node's own record (R473). -/
def nodeRecord (s : State) (measured : Nat) (irregular : Bool) : BitVec 1024 :=
  let sum := (chargedDomains s).foldl (fun n d => n + energyNj s d) 0
  BitVec.ofNat 1024 (pack [(0, 64, s.time.epoch), (64, 64, measured), (128, 64, sum), (192, 64, unsgn 64 ((measured : Int) - sum)),
    (256, 1, b2n irregular)])

/-- The epoch in progress closes: records are kept for the last 1,024 epochs, and its power joins the last two (R257, R489). -/
def closeEpoch (s : State) (measured : Nat) (irregular : Bool) : State :=
  let n := s.time.epoch
  let closed := (chargedDomains s).foldl (fun (m : Map (BitVec 1024)) d => m.set (n * 64 + d) (acctRecord s d irregular)) s.closed
  let recs := s.nodeRecs.set n (nodeRecord s measured irregular)
  let recs : Map (BitVec 1024) := ⟨recs.l.drop (recs.l.length - 1024)⟩
  let t := s.thermal
  { s with closed := closed.filter fun k _ => recs.has (k / 64), nodeRecs := recs, acct := .empty,
           thermal := { t with powers := (measured / 1000 :: t.powers).take 2 } }

/-! ## The epoch boundary (R40, R250, R414, R445) -/

/-- RWS fields of the time base record and of the slice record. -/
def timeRws : Nat := maskOf [(63, 27)]
def sliceRws : Nat := maskOf [(121, 108), (45, 44)]

/-- Node-wide shadowed fields take effect together. -/
def applyShadows (s : State) : State :=
  let t := s.time
  let pl := s.place
  let me := s.mem
  let s := { s with
    time := { t with record := match t.shadow with | some x => merge t.record x timeRws | none => t.record, shadow := none },
    place := { pl with record := match pl.shadow with | some x => merge pl.record x placeRws | none => pl.record, shadow := none },
    mem := { me with record := match me.shadow with | some x => merge me.record x memRws | none => me.record, shadow := none },
    marginRec := s.marginShadow.getD s.marginRec, marginShadow := none,
    arb := s.arbShadow.getD s.arb, arbShadow := none,
    shares := s.shareShadow.fold (fun (m : Map (BitVec 32)) k v => m.set k v) s.shares, shareShadow := .empty,
    chans := s.chans.mapVals fun _ c => { c with cfg := c.shadow.getD c.cfg, shadow := none },
    slices := s.slices.mapVals fun _ v =>
      { v with record := match v.shadow with | some x => merge v.record x sliceRws | none => v.record, shadow := none } }
  clockDueAll s

/-- Responses of sealed domains that were held for this boundary are written (R414). -/
def releaseDelayed (s : State) : State :=
  let (due, rest) := s.delayed.partition fun g => decide (g.release ≤ s.time.epoch)
  due.foldl (fun s g => writeResponse s g.port g.func g.entry g.final) { s with delayed := rest }

/-- A report epoch of this node: its capacity report goes out, and a new report period begins (R350, R357). -/
def reportEpoch (s : State) : State :=
  if placeOn s ∧ s.time.epoch % max 1 (capPeriod s) = s.nodeNo % max 1 (capPeriod s) then
    sendCapReport (modPl s fun p => { p with failedSearch := [] })
  else s

/-- A new epoch begins. -/
def beginEpoch (s : State) : State :=
  let n := epochOf s.ns
  let s := { s with time := { s.time with epoch := n, irregular := false },
                    clusters := s.clusters.mapVals fun _ v => { v with replays := 0, replayRaised := false } }
  reportEpoch (releaseDelayed (applyShadows s))

/-- EPOCH_BOUNDARY (R40, R253): `measuredNj` is the whole-node rail measurement of the epoch. -/
def execEpochBoundary (now measuredNj : Nat) (s : State) : Res :=
  let s := clockTo s now
  .next (if s.time.enabled && decide (s.time.epoch < epochOf s.ns) then beginEpoch (closeEpoch s measuredNj s.time.irregular) else s)

/-! ## The time base states (R36, R37, R39) -/

/-- STATE of the time base record. -/
def tState (s : State) : Nat := rf s.time.record 86 85
def setTState (s : State) (x : Nat) : State :=
  { s with time := { s.time with record := rset s.time.record 86 85 x, inLock := 0, outLock := 0, driftRaised := false } }

/-- The port followed. -/
def tSource (s : State) : Nat := rf s.time.record 87 87
def setTSource (s : State) (p : Nat) : State := { s with time := { s.time with record := rset s.time.record 87 87 p } }

/-- The port whose master is selected: PORT_PREF first, else the better rank, port 0 on a tie (R36). -/
def bestMaster (s : State) : Option Nat :=
  let t := s.time
  let pref := rf t.record 26 25
  match t.master0, t.master1 with
  | none, none => none
  | some _, none => some 0
  | none, some _ => some 1
  | some a, some b => some (if pref = 1 then 0 else if pref = 2 then 1 else if b < a then 1 else 0)

/-- The average of the increments of the last 64 Sync messages; the one in use when there were none. -/
def averageIncr (t : TimeBase) : BitVec 40 :=
  if t.incrs.isEmpty then t.incr else BitVec.ofNat 40 (t.incrs.foldl (fun n x => n + x.toNat) 0 / t.incrs.length)

/-- No port has a valid master any more. -/
def noMaster (s : State) : State :=
  let st := tState s
  let s := { s with time := { s.time with master0 := none, master1 := none } }
  if st = 1 ∨ st = 2 then
    let s := { s with time := { s.time with incr := averageIncr s.time } }
    setTState s (if st = 1 ∧ !s.time.everLocked then 0 else 3)
  else s

/-- A master may be selected: FREE_RUN and HOLDOVER turn to ACQUIRING. -/
def selectMaster (s : State) : State :=
  match bestMaster s with
  | none => noMaster s
  | some p =>
    let s := setTSource s p
    if tState s = 0 ∨ tState s = 3 then setTState s 1 else s

/-- The servo's new increment: the adjustment within ±200 ppm is free (assumption 11). -/
def servo (s : State) : State :=
  let i : BitVec 40 := BitVec.ofNat 40 (2 ^ 32 - 858993 + freeVal s % 1717987)
  useFree { s with time := { s.time with incr := i, incrs := (i :: s.time.incrs).take 64 } }

/-- A moment shifted by a number of nanoseconds. -/
def shiftNs (x : Nat) (delta : Int) : Nat := ((x : Int) + delta).toNat

/-- Fabric time jumps (R38): leases keep what is left of them, the epoch in progress is marked IRREGULAR, and closed when
the new time lies in another; the egress calendar is realigned. -/
def jump (s : State) (delta : Int) : State :=
  let t := s.time
  let measured := freeVal s
  let shift := fun (q : SeqSt) => if q.own.state = .abandoned then q else { q with own := { q.own with expiry := shiftNs q.own.expiry delta } }
  let s := { s with
    seqs := s.seqs.mapVals fun _ q => shift q,
    place := { s.place with replicas := s.place.replicas.mapVals fun _ q => shift q },
    net := { s.net with shapers := s.net.shapers.mapVals fun _ v =>
      let e := shiftNs v.e (delta * 256)
      { v with e := e, wheel := v.wheel.map fun _ => ceilDiv e 2048 } } }
  let fabric := BitVec.ofInt 80 ((t.fabric.toNat : Int) + delta * 65536)
  let rec2 := rset t.record 95 88 (min 255 (rf t.record 95 88 + 1))
  let moved := { s with time := { t with fabric := fabric, record := rec2, irregular := true } }
  if epochOf moved.ns = t.epoch then moved
  else
    let s := closeEpoch s measured true
    beginEpoch (useFree { s with time := { t with fabric := fabric, record := rec2 } })

/-- What the time base does with the offset it has just recorded (R37). -/
def syncJudge (s : State) (offset : Int) : State :=
  let within := decide (offset.natAbs ≤ rf s.time.record 47 38)
  let t := s.time
  if tState s = 1 then
    if 100000 < offset.natAbs then jump { s with time := { t with inLock := 0 } } (-offset)
    else if !within then servo { s with time := { t with inLock := 0 } }
    else if t.inLock = 15 then servo (setTState { s with time := { t with everLocked := true } } 2)
    else servo { s with time := { t with inLock := t.inLock + 1 } }
  else if tState s = 2 then
    if within then servo { s with time := { t with outLock := 0 } }
    else if t.outLock = 7 then
      raiseNode (servo (setTState s 1)) 0x0002 0x0101 39 0 (marginPayload 0 offset (rf t.record 47 38))
    else servo { s with time := { t with outLock := t.outLock + 1 } }
  else s

/-- A Sync of the port followed: its offset is recorded and judged (R37, R39). -/
def syncOp (s : State) (offset : Int) : State :=
  syncJudge { s with time := { s.time with record := rset s.time.record 127 96 (unsgn 32 offset) } } offset

/-- Set the rank of a port's master. -/
def setMaster (s : State) (p : Port) (m : Option Nat) : State :=
  if p = 0 then { s with time := { s.time with master0 := m } } else { s with time := { s.time with master1 := m } }

/-- A port has a valid master. -/
def masterValid (s : State) (p : Nat) : Bool := if p = 0 then s.time.master0.isSome else s.time.master1.isSome

/-- What a PTP message does while the time base is enabled. -/
def ptpOp (s : State) (p : Port) (msg : PtpMsg) : State :=
  match msg with
  | .announce rank => selectMaster (setMaster s p (some rank))
  | .masterLost => selectMaster (setMaster s p none)
  | .sync offset => if tSource s = p.val ∧ masterValid s p.val then syncOp s offset else s
  | .delayResp => s
  | .pdelayReq => emit s (.ptpAnswer p)
  | .unsupported => count s 0 p.val 10

/-- PTP_MESSAGE (R36, R37, R38). -/
def execPtpMessage (p : Port) (now : Nat) (msg : PtpMsg) (s : State) : Res :=
  let s := clockTo s now
  .next (if s.time.enabled then ptpOp s p msg else s)

/-- ANNOUNCE_TIMEOUT (R37): on both ports. -/
def execAnnounceTimeout (now : Nat) (s : State) : Res :=
  let s := clockTo s now
  .next (if s.time.enabled then noMaster s else s)

/-- HOLDOVER_DRIFT_WARNING (R37): once per entry to HOLDOVER. -/
def execHoldoverDriftWarning (now driftNs : Nat) (s : State) : Res :=
  let s := clockTo s now
  .next (if s.time.enabled && tState s == 3 && decide (rf s.time.record 63 48 < driftNs) && !s.time.driftRaised then
    raiseNode { s with time := { s.time with driftRaised := true } } 0x0002 0x0102 39 0 (marginPayload 0 driftNs (rf s.time.record 63 48))
  else s)

/-! ## DMA fault records (R290, R291, R327) -/

/-- The status an abandoned transfer ends its owner with (R291). -/
def dmaStatus (reason : Nat) : Option Status :=
  match reason with
  | 3 => some .lost | 4 => some .badState | 5 => some .badField | 6 => some .timeout | 7 => some .noHeadroom | 8 => some .fenced
  | _ => none

/-- The owner of an abandoned transfer ends: a command, a queue's message, or a step result whose heat goes on. -/
def dmaOwner (s : State) (r : BitVec 128) : State :=
  let ctx := rf r 127 96
  let dom := rf r 19 14
  match dmaStatus (rf r 31 24) with
  | none => s
  | some st =>
    if rf r 23 20 = 3 then
      finishWhere s (fun g => g.tag.toNat == ctx && g.domain == dom && portMover g.port / 2 == rf r 13 9 / 2) st 0 0
    else if rf r 23 20 = 5 ∨ rf r 23 20 = 7 then queueError s ctx none st
    else if rf r 23 20 = 1 then raiseNode s 0x0001 0x0021 (34 + rf r 13 9 / 2) dom (otherPayload 0 (ctx / 2 ^ 20) (ctx % 2 ^ 20))
    else s

/-- The record of a mover, zero when it has none. -/
def dmaRec (s : State) (m : Nat) : BitVec 128 := s.dma.getD m 0

/-- A transfer is abandoned, with the reason that stands. -/
def dmaAbandon (s : State) (m : Nat) : State :=
  let r := dmaRec s m
  dmaOwner { s with dma := s.dma.set m (rset r 1 0 3) } r

/-- DMA_FAULT_RESOLVED (R291): a waiting transfer resumes from OFFSET, or is abandoned. -/
def execDmaFaultResolved (mover : Fin 28) (abandon : Bool) (now : Nat) (s : State) : Res :=
  let s := clockTo s now
  let r := dmaRec s mover.val
  .next (if rf r 1 0 ≠ 1 then s
    else if abandon then dmaAbandon s mover.val
    else { s with dma := s.dma.set mover.val (rset r 1 0 2) })

/-- DMA_NO_ROOM_TIMEOUT (R291, code 7). -/
def execDmaNoRoomTimeout (mover : Fin 28) (now : Nat) (s : State) : Res :=
  let s := clockTo s now
  let r := dmaRec s mover.val
  .next (if rf r 1 0 = 1 ∧ rf r 31 24 = 7 then dmaAbandon s mover.val else s)

/-- A read of host memory went unanswered (R291, code 6): resumed once, and at the second time abandoned. What was read and
how far it had come is free (assumption 3). -/
def hostTimeout (s : State) (m : Nat) (p : Port) (f : Func) : State :=
  let r := dmaRec s m
  if rf r 1 0 = 2 ∧ rf r 31 24 = 6 then
    let s := dmaAbandon s m
    raiseNode s 0x0001 0x0020 (34 + p.val) (rf r 19 14) (dmaRec s m).toNat
  else
    let v := freeVal s
    let dom := (domainOf s p f).getD 0
    let op := if m < 4 then 3 else 7
    dmaFault (useFree s) m (dmaRecord (v % 2 ^ 16) (v / 2 ^ 16 % 2 ^ 24) 0 6 op dom m 1)

/-- PCIE_COMPLETION_TIMEOUT (R421, R291). -/
def execPcieCompletionTimeout (mover : Fin 28) (p : Port) (f : Func) (waitedUs now : Nat) (s : State) : Res :=
  let s := clockTo s now
  .next (if 50000 ≤ waitedUs ∧ mover.val < 8 ∧ (mover.val < 4 → mover.val / 2 = p.val) ∧ s.boot.phase = .ready
    then hostTimeout s mover.val p f else s)

end Sys2Proof.Machine
end

