-- ==== Sys2Proof/Machine/DeviceCmds.lean ====
section
/-! DEFINITION. Huavo 0x01xx and the telemetry reads of 0x0Cxx: device, functions, fabric time, power, control of domains and
sequences, accounting and counters (R39, R257, R422, R424, R441, R442, R444, R458, R473, R475). -/

namespace Sys2Proof.Machine

/-! ## Device and functions (R458) -/

/-- The row of DEVICE_QUERY. -/
def rowDeviceQuery : HRow :=
  { opcode := 0x0101 }

/-- DEVICE_QUERY: its own part. -/
def bodyDeviceQuery (d : Desc) (s : State) : State × Ans :=
  (s, .done (deviceStatus s + deviceInfo d.port d.func * 2 ^ 64) s.sec.fuses.serial.toNat)

/-- DEVICE_QUERY. -/
def execDeviceQuery (d : Desc) (s : State) : Res := runHuavo rowDeviceQuery bodyDeviceQuery d s

/-- A virtual function by its number. -/
def vfOf (n : Nat) : Func := ⟨n % 64, Nat.mod_lt _ (by decide)⟩

/-- The row of FUNC_ASSIGN (R422). -/
def rowFuncAssign : HRow :=
  fixedRow 0x0102 2 [(0, 1)] (d0 := true)

/-- FUNC_ASSIGN: its own part (R422). -/
def bodyFuncAssign (d : Desc) (s : State) : State × Ans :=
  let n := byt d.body 0 0
  let dom := byt d.body 1 1
  let e := getF s d.port (vfOf n)
  failIf (decide (n = 0 ∨ 63 < n ∨ dom = 0 ∨ 63 < dom)) .badField s <|
  failIf (!(getPort s d.port).vfEnabled || e.assigned.isSome || (getD s dom).state != .active) .badState s
    (setF s d.port (vfOf n) { e with assigned := some dom }, .done)

/-- FUNC_ASSIGN (R422). -/
def execFuncAssign (d : Desc) (s : State) : Res := runHuavo rowFuncAssign bodyFuncAssign d s

/-- The row of FUNC_UNASSIGN (R422, R424). -/
def rowFuncUnassign : HRow :=
  fixedRow 0x0103 1 [(0, 0)] (d0 := true)

/-- FUNC_UNASSIGN: its own part (R422, R424). -/
def bodyFuncUnassign (d : Desc) (s : State) : State × Ans :=
  let n := byt d.body 0 0
  let e := getF s d.port (vfOf n)
  failIf (decide (n = 0 ∨ 63 < n)) .badField s <|
  failIf e.assigned.isNone .badState s <|
  failIf (e.tdisp == .configLocked || e.tdisp == .run) .busy s
    (unassign (flrOp s d.port (vfOf n)) d.port (vfOf n), .acceptDone .ok)

/-- FUNC_UNASSIGN (R422, R424). -/
def execFuncUnassign (d : Desc) (s : State) : Res := runHuavo rowFuncUnassign bodyFuncUnassign d s

/-! ## TIME_CONFIG, POWER_LIMIT (R39, R444) -/

/-- Fields of the time base record that are locked once it is enabled. -/
def timeLocked : Nat := maskOf [(24, 23), (7, 0)]

/-- A field of the time base record is out of range. -/
def timeBad (r : BitVec 128) : Bool :=
  decide (rf r 47 38 < 10 ∨ 1000 < rf r 47 38 ∨ rf r 37 27 < 10 ∨ 1000 < rf r 37 27 ∨ rf r 26 25 = 3)

/-- TIME_CONFIG's own part: PORT_PREF at once, RWS fields at the next epoch, locked fields only while the node boots. -/
def timeConfig (d : Desc) (s : State) : State × Ans :=
  if d.length = 0 then (s, .done s.time.record.toNat)
  else
    let r : BitVec 128 := BitVec.ofNat 128 (byt d.body 0 15)
    let t := s.time
    failIf (timeBad r) .badField s <|
    failIf (t.enabled && differ t.record r timeLocked) .busy s <|
      let rec2 := merge t.record r (maskOf [(26, 23), (7, 0)])
      let s := { s with time := { t with record := rec2, shadow := some (merge (t.shadow.getD t.record) r timeRws) },
                        boot := { s.boot with timeSet := s.boot.timeSet || !t.enabled } }
      (s, .done rec2.toNat)

/-- The row of TIME_CONFIG (R39, R458). -/
def rowTimeConfig : HRow :=
  { opcode := 0x0104, d0 := true, lenOk := fun _ n => n == 0 || n == 16,
    named := fun _ _ => [(127, 85), (63, 23), (7, 0)] }

/-- TIME_CONFIG (R39, R458). -/
def execTimeConfig (d : Desc) (s : State) : Res := runHuavo rowTimeConfig timeConfig d s

/-- The row of POWER_LIMIT (R444). -/
def rowPowerLimit : HRow :=
  fixedRow 0x0105 2 [(0, 1)] (d0 := true)

/-- POWER_LIMIT: its own part (R444). -/
def bodyPowerLimit (d : Desc) (s : State) : State × Ans :=
  let w := byt d.body 0 1
  failIf (decide (w ≠ 0 ∧ (w < 100 ∨ 360 < w))) .badField s <|
    let s := setPort s d.port { getPort s d.port with cap := if w = 0 then none else some w }
    (s, .done (effectiveCap s))

/-- POWER_LIMIT (R444). -/
def execPowerLimit (d : Desc) (s : State) : Res := runHuavo rowPowerLimit bodyPowerLimit d s

/-! ## CTRL_TRANSFER, CTRL_TAKE (R442) -/

/-- The other port. -/
def otherPort (p : Port) : Port := if p = 0 then 1 else 0

/-- A tenant domain changes its controlling port. -/
def moveDomain (s : State) (n : Nat) (p : Port) : State := setD s n { getD s n with ctrlPort := p }

/-- A sequence changes its controlling port. -/
def moveSeq (s : State) (id : Nat) (p : Port) : State := modQ s id fun q => { q with ctrlPort := p }

/-- CTRL_TRANSFER's own part. -/
def ctrlTransfer (d : Desc) (s : State) : State × Ans :=
  let kind := byt d.body 0 0
  let n := d.domain.toNat
  failIf (decide (1 < kind)) .badField s <|
    if kind = 0 then
      failIf (n == 0) .badState s <|
      failIf (!domPortOk d s n) .notOwner s <|
      failIf (objBusy s (.domain n)) .busy s (moveDomain s n (otherPort d.port), .done)
    else
      let id := byt d.body 8 13
      let s := renewBy d s id
      withObj (seqFor d s id) s fun q =>
        failIf (q.state != .idle) .badState s <|
        failIf (objBusy s (.seq id)) .busy s (moveSeq s id (otherPort d.port), .done)

/-- The row of CTRL_TRANSFER (R442). -/
def rowCtrlTransfer : HRow :=
  fixedRow 0x0106 14 [(0, 0), (8, 13)]

/-- CTRL_TRANSFER (R442). -/
def execCtrlTransfer (d : Desc) (s : State) : Res := runHuavo rowCtrlTransfer ctrlTransfer d s

/-- The data link of a port has been down for 1,000 ms. -/
def portGone (s : State) (p : Port) : Bool := !(getPort s p).linkUp && decide ((getPort s p).downSince + 1000000000 ≤ s.ns)

/-- CTRL_TAKE's own part. -/
def ctrlTake (d : Desc) (s : State) : State × Ans :=
  let kind := byt d.body 0 0
  let n := d.domain.toNat
  let p := otherPort d.port
  failIf (decide (1 < kind)) .badField s <|
    if kind = 0 then
      failIf (n == 0) .badState s <|
      failIf ((getD s n).ctrlPort != p || !portGone s p) .notOwner s <|
      failIf (objBusy s (.domain n)) .busy s <|
        let s := moveDomain s n d.port
        if bit d.body 8 then
          let s := { s with seqs := s.seqs.mapVals fun _ q => if q.domain = n ∧ q.ctrlPort = p then { q with ctrlPort := d.port } else q }
          (dropHeats s fun h => hDomain h.record == n && hCtrlPort h.record == p && h.master.isNone, .done)
        else (s, .done)
    else
      let id := byt d.body 8 13
      withObj (seqFor d s id (anyPort := true)) s fun q =>
        failIf (q.ctrlPort != p || !portGone s p) .notOwner s <|
        failIf (objBusy s (.seq id)) .busy s (moveSeq s id d.port, .done)

/-- The row of CTRL_TAKE (R442). -/
def rowCtrlTake : HRow :=
  { opcode := 0x0107, pf := true, lenOk := fun _ n => n == 14, named := fun _ _ => [(7, 0), (8, 8), (111, 64)] }

/-- CTRL_TAKE (R442). -/
def execCtrlTake (d : Desc) (s : State) : Res := runHuavo rowCtrlTake ctrlTake d s

/-! ## Accounting and counters (R257, R473, R475) -/

/-- The record kept for a domain and an epoch: one that charged nothing is all zero but for its names. -/
def keptRecord (s : State) (d n : Nat) : BitVec 1024 :=
  match s.closed.get? (n * 64 + d) with
  | some r => r
  | none => BitVec.ofNat 1024 (pack [(73, 1, rf (s.nodeRecs.getD n 0) 256 256), (64, 6, d), (0, 64, n)])

/-- A record as a reader receives it: 0 domain 0, 1 a shared domain, 2 a sealed one. -/
def deliveredRecord (reader : Nat) (r : BitVec 1024) : BitVec 1024 :=
  if reader = 0 then r
  else
    let r := rset (rset r 959 704 0) 75 75 1
    if reader = 2 then rset r 79 76 0 else r

/-- Epochs that a reader can have, ascending. -/
def readable (s : State) (reader first n : Nat) : List Nat :=
  (s.nodeRecs.l.map (·.1)).filter fun e => decide (first ≤ e ∧ e < first + n) && (reader != 1 || s.nodeRecs.has (e + 1))

/-- ACCT_READ's own part. -/
def acctRead (d : Desc) (s : State) : State × Ans :=
  let n := byt d.body 0 0
  let node := bit d.body 8
  let own := d.domain.toNat
  let first := byt d.body 4 11
  let cnt := byt d.body 12 13
  let out := byt d.body 16 23
  failIf (own != 0 && (node || n != own)) .denied s <|
  withObj (if node then .ok () else domFor s n) s fun _ =>
    failIf (decide (cnt = 0 ∨ 1024 < cnt) || !outOk out) .badField s <|
      let reader := if own = 0 then 0 else if domSealed s own then 2 else 1
      let l := (readable s reader first cnt).map fun e =>
        if node then (s.nodeRecs.getD e 0).toNat else (deliveredRecord reader (keptRecord s n e)).toNat
      let (s, st) := if l.isEmpty then (s, Status.ok) else putOut s d out (128 * l.length) (packElems 1024 l)
      if st ≠ .ok then (s, .fail st)
      else if l.length < cnt then (s, .fail .partly l.length) else (s, .done l.length)

/-- The row of ACCT_READ (R257, R473). -/
def rowAcctRead : HRow :=
  { opcode := 0x0C01, lenOk := fun _ n => n == 24,
    named := fun _ _ => [(8, 0), (111, 32), (191, 128)] }

/-- ACCT_READ (R257, R473). -/
def execAcctRead (d : Desc) (s : State) : Res := runHuavo rowAcctRead acctRead d s

/-- Counters of a set. -/
def setSize (set : Nat) : Nat := if set = 0 then 11 else 5

/-- COUNTER_READ's own part. -/
def counterRead (d : Desc) (s : State) : State × Ans :=
  let set := byt d.body 0 0
  let idx := byt d.body 1 1
  let own := d.domain.toNat
  let out := byt d.body 8 15
  failIf (own != 0 && (set != 1 || idx != own)) .denied s <|
  failIf (decide (2 < set ∨ (set = 0 ∧ 1 < idx) ∨ (set = 1 ∧ 63 < idx) ∨ (set = 2 ∧ idx ≠ 0)) || !outOk out) .badField s <|
    let l := (List.range (setSize set)).map fun i => s.counters.getD (ckey set idx i) 0
    let (s, st) := putOut s d out (8 * l.length) (packElems 64 l)
    if st ≠ .ok then (s, .fail st)
    else if bit d.body 16 then ({ s with counters := s.counters.filter fun k _ => k / 256 != ckey set idx 0 / 256 }, .done)
    else (s, .done)

/-- The row of COUNTER_READ (R475). -/
def rowCounterRead : HRow :=
  { opcode := 0x0C02, lenOk := fun _ n => n == 16, named := fun _ _ => [(16, 0), (127, 64)] }

/-- COUNTER_READ (R475). -/
def execCounterRead (d : Desc) (s : State) : Res := runHuavo rowCounterRead counterRead d s

end Sys2Proof.Machine
end

