-- ==== Sys2Proof/Machine/Secure.lean ====
section
/-! DEFINITION. Security: SPDM sessions and measurements, IDE and TDISP, the life-cycle commands of Huavo 0x02xx, the BMC's
PLDM objects (R391 to R406, R415 to R420, R448, R449, R459). -/

namespace Sys2Proof.Machine

/-! ## SPDM connections (R401, R402, R416) -/

/-- Answer an SPDM request. -/
def spdmAns (s : State) (p : Port) (a : SpdmAns) (data : List Nat := []) : State := emit s (.spdm p a data)

/-- The SPDM connection of a port. -/
def getConn (s : State) (p : Port) : SpdmConn := if p = 0 then s.sec.conn0 else s.sec.conn1
def setConn (s : State) (p : Port) (c : SpdmConn) : State :=
  if p = 0 then { s with sec := { s.sec with conn0 := c } } else { s with sec := { s.sec with conn1 := c } }

/-- The responder answers at all. -/
def spdmUp (s : State) : Bool := s.boot.phase == .ready && s.sec.mod != .error && s.sec.mod != .selfTest

/-- The node has its identity and offers more than GET_VERSION and GET_CAPABILITIES (R391, R398, R416). -/
def spdmFull (s : State) : Bool := spdmUp s && s.sec.mod == .approved && rootReleased s && s.sec.identity

/-- A request that needs a negotiated connection: UnexpectedRequest without one; DENIED after a failed identity check. -/
def spdmReq (s : State) (p : Port) (k : State) : State :=
  if !spdmUp s then s
  else if s.boot.identityFault then spdmAns s p .denied
  else if !spdmFull s || !(getConn s p).negotiated || (getConn s p).unexpected then spdmAns s p .unexpectedRequest
  else k

/-- GET_VERSION (R401): the connection starts over. -/
def execGetVersion (p : Port) (s : State) : Res := .next (if spdmUp s then spdmAns (setConn s p {}) p .ok else s)

/-- Every field offers the node's one choice (R401). -/
def offerOk (o : SpdmOffer) : Bool :=
  o.baseAsym && o.baseHash && o.measHash && o.dhe && o.aead && o.keySchedule && o.measSpec && o.reqAsym

/-- NEGOTIATE_ALGORITHMS (R401). -/
def execNegotiateAlgorithms (p : Port) (offer : SpdmOffer) (s : State) : Res :=
  .next (if !spdmUp s then s
    else if s.boot.identityFault then spdmAns s p .denied
    else if !spdmFull s || (getConn s p).unexpected then spdmAns s p .unexpectedRequest
    else spdmAns (setConn s p { getConn s p with negotiated := offerOk offer, unexpected := !offerOk offer }) p .ok)

/-- A message that the node signs has a companion for ALT_SIG (R402). -/
def signed (s : State) (p : Port) : State := setConn s p { getConn s p with companion := true }

/-- GET_CERTIFICATE (R399): slot 0 holds the node's chain. -/
def execGetCertificate (p : Port) (slot : Nat) (s : State) : Res :=
  .next (spdmReq s p (if slot = 0 then spdmAns s p .ok [Config.identityKeys.toNat, s.sec.fuses.serial.toNat]
    else spdmAns s p .unexpectedRequest))

/-- CHALLENGE (R402). -/
def execChallenge (p : Port) (slot : Nat) (s : State) : Res :=
  .next (spdmReq s p (if slot = 0 then spdmAns (signed s p) p .ok else spdmAns s p .unexpectedRequest))

/-- ALT_SIG (R402): the node's last companion, or the requester's own. -/
def execAltSig (p : Port) (now : Nat) (supply : Bool) (s : State) : Res :=
  let s := clockTo s now
  .next (spdmReq s p (
    if supply then spdmAns (setConn s p { getConn s p with supplied := true }) p .ok
    else if (getConn s p).companion then spdmAns s p .ok else spdmAns s p .unexpectedRequest))

/-! ## Sessions (R403, R404) -/

/-- Sessions of a kind. -/
def sessionCount (s : State) (setup : Bool) : Nat := (s.sec.sessions.l.filter fun e => e.2.setup == setup).length

/-- A session ends: its keys go, and with a setup session every PSK it made and nobody used (R403). -/
def dropSession (s : State) (k : Nat) : State :=
  { s with sec := { s.sec with sessions := s.sec.sessions.erase k, psks := s.sec.psks.filter fun _ x => x.setup != k } }

/-- A session ends now, or with the last secured service that runs in it (R404). -/
def endSession (s : State) (k : Nat) : State :=
  if s.flights.any fun g => g.session == some k then
    { s with sec := { s.sec with sessions := s.sec.sessions.modify k fun x => { x with ending := true } } }
  else dropSession s k

/-- A new session under the lowest unused number. -/
def newSession (s : State) (x : Session) : Nat × State :=
  let k := (s.sec.sessions.fresh 0 (s.sec.sessions.size + 1)).getD 0
  (k, { s with sec := { s.sec with sessions := s.sec.sessions.set k x } })

/-- KEY_EXCHANGE (R403, R404). -/
def execKeyExchange (p : Port) (now requester : Nat) (s : State) : Res :=
  let s := clockTo s now
  .next (spdmReq s p (
    if 4 ≤ sessionCount s true then spdmAns s p .busy
    else
      let (k, s) := newSession s { port := p, requester := requester, lastMsg := s.ns }
      spdmAns (signed (setConn s p { getConn s p with supplied := false }) p) p .ok [k]))

/-- A session of a port. -/
def sessionAt (s : State) (p : Port) (k : Nat) : Option Session := (s.sec.sessions.get? k).filter fun x => x.port == p

/-- Change a session. -/
def modSession (s : State) (k : Nat) (g : Session → Session) : State :=
  { s with sec := { s.sec with sessions := s.sec.sessions.modify k g } }

/-- FINISH (R402): both signatures of the requester verify, or the session ends. -/
def execFinish (p : Port) (now session : Nat) (rsaOk slhOk : Bool) (s : State) : Res :=
  let s := clockTo s now
  .next (spdmReq s p (
    match sessionAt s p session with
    | none => spdmAns s p .unexpectedRequest
    | some x =>
      if !x.setup ∨ x.finished then spdmAns s p .unexpectedRequest
      else if rsaOk && slhOk && (getConn s p).supplied then
        spdmAns (setConn (modSession s session fun x => { x with finished := true, lastMsg := s.ns }) p
          { getConn s p with supplied := false }) p .ok
      else spdmAns (dropSession s session) p .decryptError))

/-- KEM_EXCHANGE (R403): step 1 returns a hint, step 2 brings the ciphertext and makes the PSK. -/
def kemOp (s : State) (p : Port) (session : Nat) (ciphertext : Bool) : State :=
  match sessionAt s p session with
  | none => spdmAns s p .unexpectedRequest
  | some x =>
    if !x.setup ∨ !x.finished then spdmAns s p .unexpectedRequest
    else if !ciphertext then
      let (r, s) := draw s
      let hint := r.toNat % 2 ^ 128
      spdmAns (modSession s session fun x => { x with hint := some hint, lastMsg := s.ns }) p .ok [hint]
    else match x.hint with
      | none => spdmAns s p .unexpectedRequest
      | some h =>
        let psk : Psk := { requester := x.requester, madeAt := s.ns, setup := session }
        let s := modSession s session fun x => { x with hint := none, lastMsg := s.ns }
        spdmAns { s with sec := { s.sec with psks := s.sec.psks.set h psk } } p .ok

/-- KEM_EXCHANGE (R403). -/
def execKemExchange (p : Port) (now session : Nat) (ciphertext : Bool) (s : State) : Res :=
  let s := clockTo s now
  .next (spdmReq s p (kemOp s p session ciphertext))

/-- PSK_EXCHANGE (R403, R404): an operational session under a PSK, which is used up. -/
def execPskExchange (p : Port) (now hint : Nat) (s : State) : Res :=
  let s := clockTo s now
  .next (spdmReq s p (
    match s.sec.psks.get? hint with
    | none => spdmAns s p .unexpectedRequest
    | some x =>
      if 16 ≤ sessionCount s false then spdmAns s p .busy
      else
        let s := { s with sec := { s.sec with psks := s.sec.psks.erase hint } }
        let (k, s) := newSession s { setup := false, port := p, requester := x.requester, finished := true, lastMsg := s.ns }
        spdmAns s p .ok [k]))

/-- PSK_EXPIRY (R403): 10 s without use. -/
def execPskExpiry (hint now : Nat) (s : State) : Res :=
  let s := clockTo s now
  .next (match s.sec.psks.get? hint with
    | some x => if x.madeAt + 10000000000 ≤ s.ns then { s with sec := { s.sec with psks := s.sec.psks.erase hint } } else s
    | none => s)

/-- SESSION_IDLE_TIMEOUT (R404): an operational session without a message for 60 s. -/
def execSessionIdleTimeout (session now : Nat) (s : State) : Res :=
  let s := clockTo s now
  .next (match s.sec.sessions.get? session with
    | some x => if !x.setup ∧ x.lastMsg + 60000000000 ≤ s.ns then endSession s session else s
    | none => s)

/-- END_SESSION (R403, R404). -/
def execEndSession (p : Port) (now session : Nat) (s : State) : Res :=
  let s := clockTo s now
  .next (spdmReq s p (
    match sessionAt s p session with
    | some _ => spdmAns (endSession s session) p .ok
    | none => spdmAns s p .unexpectedRequest))

/-- An operational session of a port. -/
def opSession (s : State) (p : Port) (k : Nat) : Option Session := (sessionAt s p k).filter fun x => !x.setup

/-! ## Measurements (R405) -/

/-- Bytes of every fuse word but FUSE_ROOT, the lowest bit first. -/
def fuseBytes (x : Fuses) : Nat :=
  let low := pack [(1312, 384, x.owner3.toNat), (928, 384, x.owner2.toNat), (544, 384, x.owner1.toNat), (160, 384, x.owner0.toNat),
    (96, 64, x.serial.toNat), (9, 3, x.lcScrap.toNat), (6, 3, x.lcRet.toNat), (3, 3, x.lcOper.toNat), (0, 3, x.lcProv.toNat)]
  low + (x.vendorDigest.toNat + x.romDigest.toNat * 2 ^ 384) * 2 ^ 1696

/-- LOADED courses of a domain, and its loaded weight packages: number and digest, ascending. -/
def courseItems (s : State) (d : Nat) : List (Nat × Nat) :=
  s.courses.l.filterMap fun e => if e.2.domain = d ∧ e.2.state = .loaded then some (e.1, e.2.digest.toNat) else none
def weightItems (s : State) (d : Nat) : List (Nat × Nat) :=
  s.models.l.filterMap fun e => if e.1 / 65536 = d ∧ e.2.loaded then some (e.1 % 65536, e.2.digest.toNat) else none

/-- The list behind block 5 or behind a domain's block: its bytes and their number. -/
def measList (s : State) (d : Nat) : Nat × Nat :=
  if d = 0 then
    let l := courseItems s 0
    (packElems 400 (l.map fun e => e.1 % 65536 + e.2 * 2 ^ 16), 50 * l.length)
  else
    let l := (courseItems s d).map (fun e => e.1 % 65536 * 2 ^ 8 + e.2 * 2 ^ 24)
      ++ (weightItems s d).map fun e => 1 + e.1 % 65536 * 2 ^ 8 + e.2 * 2 ^ 24
    (packElems 408 l, 51 * l.length)

/-- Measurement index 3: life-cycle state, debug opened, approved mode. -/
def modeBytes (s : State) : Nat := (lifeCycle s).code + pack [(8, 1, b2n s.sec.debugOpened), (9, 1, b2n (approvedNow s))]

/-- The domain an operational session is bound to (R392). -/
def boundDomain (s : State) (x : Session) : Option Nat :=
  (s.domains.find? fun n _ => domSealed s n && isUser s x n).map (·.1)

/-- A measurement block that a requester may see. -/
def measBlock (s : State) (bound : Option Nat) (index : Nat) : Option Nat :=
  match index with
  | 1 => some s.sec.fuses.romDigest.toNat
  | 2 => some (digestOf (fuseBytes s.sec.fuses) 308).toNat
  | 3 => some (modeBytes s)
  | 4 => some s.cal.digest.toNat
  | 5 => some (digestOf (measList s 0).1 (measList s 0).2).toNat
  | 0xFD => some (measList s (bound.getD 0)).1
  | 0xFE => some (modeBytes s / 256 % 2)
  | n => match bound with
    | some d => if n = 0x10 + d then some (digestOf (measList s d).1 (measList s d).2).toNat else none
    | none => none

/-- The blocks a request returns, each as its index and its value. -/
def measAnswer (s : State) (bound : Option Nat) (index : Nat) : List Nat :=
  let l := if index = 0xFF then [1, 2, 3, 4, 5] ++ (bound.map fun d => 0x10 + d).toList ++ [0xFD, 0xFE] else [index]
  l.flatMap fun i => match measBlock s bound i with | some v => [i, v] | none => []

/-- GET_MEASUREMENTS (R402, R405). -/
def execGetMeasurements (p : Port) (now : Nat) (session : Option Nat) (index : Nat) (s : State) : Res :=
  let s := clockTo s now
  .next (spdmReq s p (
    match session with
    | none => spdmAns (signed s p) p .ok (measAnswer s none index)
    | some k => match sessionAt s p k with
      | none => spdmAns s p .unexpectedRequest
      | some x =>
        let bound := if x.setup then none else boundDomain s x
        spdmAns (signed (modSession s k fun x => { x with lastMsg := s.ns }) p) p .ok (measAnswer s bound index)))

/-! ## IDE and TDISP (R406) -/

/-- A request of an operational session of the Crypto Officer. -/
def officerReq (s : State) (p : Port) (session : Nat) (k : State → State) : State :=
  spdmReq s p (match opSession s p session with
    | none => spdmAns s p .denied
    | some x => if isOfficer s x then k (modSession s session fun x => { x with lastMsg := s.ns }) else spdmAns s p .denied)

/-- IDE_KM (R406): stream 0 is the link stream, 1 to 8 the selective ones. -/
def execIdeKm (p : Port) (now session stream key : Nat) (s : State) : Res :=
  let s := clockTo s now
  .next (officerReq s p session fun s =>
    if 8 < stream then spdmAns s p .unexpectedRequest
    else spdmAns { s with sec := { s.sec with ide := s.sec.ide.set (p.val * 16 + stream) key } } p .ok)

/-- Change the TDISP state of a function. -/
def setTdisp (s : State) (p : Port) (f : Func) (t : Tdisp) : State := setF s p f { getF s p f with tdisp := t }

/-- LOCK_INTERFACE (R406). -/
def execLockInterface (p : Port) (f : Func) (now session : Nat) (s : State) : Res :=
  let s := clockTo s now
  .next (officerReq s p session fun s =>
    if (domainOf s p f).getD 0 = 0 ∨ (getF s p f).tdisp ≠ .unlocked then spdmAns s p .unexpectedRequest
    else spdmAns (setTdisp s p f .configLocked) p .ok)

/-- STOP_INTERFACE (R406): leaving RUN, or entering ERROR, acts as an FLR of the function. -/
def execStopInterface (p : Port) (f : Func) (toError : Bool) (s : State) : Res :=
  let t := (getF s p f).tdisp
  .next (if !running s ∨ t = .unlocked then s
    else if toError then (if t = .error then s else setTdisp (flrOp s p f) p f .error)
    else if t = .run then setTdisp (flrOp s p f) p f .unlocked
    else setTdisp s p f .unlocked)

/-! ## Tokens and requests (R417) -/

/-- MAGIC of a vendor token. -/
def isToken (x : Nat) : Bool := byt x 0 3 == 0x544B4E56

/-- MAGIC of an owner request. -/
def isRequest (x : Nat) : Bool := byt x 0 3 == 0x52514E4F

/-- A token or request verifies (R417). -/
def verifies (s : State) (d : Desc) : Bool :=
  let x := hostData d
  let token := isToken x
  let keys := if token then byt x 64 499 else byt x 112 547
  let want := if token then some s.sec.fuses.vendorDigest else (ownerSlot s).map (·.2)
  (token || isRequest x) && byt x 4 5 == 1 && byt x 8 15 == s.sec.fuses.serial.toNat
    && s.sec.nonce == some (BitVec.ofNat 256 (byt x 16 47)) && want == some (digestOf keys 436) && d.env.rsaOk && d.env.slhOk

/-- SCOPE of a token, OPERATION of a request. -/
def tokenScope (x : Nat) : Nat := byt x 6 7

/-- The nonce is consumed by its first use. -/
def useNonce (s : State) : State := { s with sec := { s.sec with nonce := none } }

/-- Read the token or request that a command names, check the event it stands for, verify it, and go on. -/
def withToken (d : Desc) (s : State) (listed : Nat → Bool) (k : State → State × Ans) : State × Ans :=
  withBuffer s d (
    let x := hostData d
    if lifeCycle s = .operational ∧ isToken x then (s, .fail .denied)
    else if !verifies s d then (useNonce s, .fail .authFail)
    else if !listed x then (useNonce s, .fail .denied)
    else k (useNonce s))

/-! ## Fuses (R419) -/

/-- `n` bytes that nothing states (assumption 3). -/
def freeBytes (s : State) (n : Nat) : Nat :=
  packElems 64 ((List.range (ceilDiv n 8)).map fun i => (Config.openBits 60 (s.free * 65536 + i)).toNat)

/-- Fuses are blown and read back; after a failure, which of them are blown is open. -/
def blow {w : Nat} (s : State) (ok : Bool) (old new : BitVec w) : BitVec w :=
  if ok then old ||| new else old ||| (new &&& BitVec.ofNat w (freeBytes s (w / 8 + 1)))

/-- Replace the fuses. -/
def setFuses (s : State) (x : Fuses) : State := { s with sec := { s.sec with fuses := x } }

/-- A read-back failed: FAULT, and the command completes with BAD_STATE (R419). -/
def fuseFault (s : State) : State := raiseNode (useFree s) 0x0001 0x0051 42 0 (otherPayload 0 0 0)

/-! ## Huavo 0x02xx (R459) -/

/-- The row of SEC_STATUS. -/
def rowSecStatus : HRow :=
  { opcode := 0x0201 }

/-- SEC_STATUS: its own part. -/
def bodySecStatus (_ : Desc) (s : State) : State × Ans :=
  (s, .done (pack [(0, 3, s.sec.mod.code), (8, 3, (lifeCycle s).code), (16, 2, ((ownerSlot s).map (·.1)).getD 0),
    (18, 1, b2n s.sec.debugOpened), (24, 3, sessionCount s true), (32, 5, sessionCount s false)]) s.sec.failCode)

/-- SEC_STATUS. -/
def execSecStatus (d : Desc) (s : State) : Res := runHuavo rowSecStatus bodySecStatus d s

/-- The row of LC_NONCE (R417). -/
def rowLcNonce : HRow :=
  fixedRow 0x0203 8 [(0, 7)]

/-- LC_NONCE: its own part (R417). -/
def bodyLcNonce (d : Desc) (s : State) : State × Ans :=
  failIf (!outOk (byt d.body 0 7)) .badField s <|
    let (n, s) := draw s
    ({ s with sec := { s.sec with nonce := some n } }, .done 0 0 (byt d.body 0 7) 32 n.toNat)

/-- LC_NONCE (R417). -/
def execLcNonce (d : Desc) (s : State) : Res := runHuavo rowLcNonce bodyLcNonce d s

/-- LC_PROVISION's own part (R416, R419): the length of the wrapped blob, and what the keys are, is open. -/
def lcProvision (d : Desc) (s : State) : State × Ans :=
  let out := byt d.body 8 15
  failIf (lifeCycle s != .manufacture) .denied s <|
  failIf (!outOk out) .badField s <|
    withToken d s (fun x => isToken x && bit (tokenScope x) 0) fun s =>
      let len := 436 + freeVal s % 4096
      if byt d.body 16 19 < len then (useFree s, .fail .badField 0 len)
      else
        let (root, s) := draw (useFree s)
        let x := s.sec.fuses
        let ok := d.env.fuseOk
        let s := setFuses s { x with fuseRoot := blow s ok x.fuseRoot root, lcProv := blow s ok x.lcProv 7 }
        if ok then
          let data := freeBytes s len % 2 ^ (8 * len)
          (emit (useFree s) (.hostWrite d.port out len data), .acceptDone .ok)
        else (fuseFault s, .acceptDone .badState)

/-- The row of LC_PROVISION (R419, R459). -/
def rowLcProvision : HRow :=
  fixedRow 0x0204 20 [(0, 7), (8, 15), (16, 19)]

/-- LC_PROVISION (R419, R459). -/
def execLcProvision (d : Desc) (s : State) : Res := runHuavo rowLcProvision lcProvision d s

/-- The row of LC_OPERATE (R419, R459). -/
def rowLcOperate : HRow :=
  { opcode := 0x0205, role := .officerOrFirst }

/-- LC_OPERATE: its own part (R419, R459). -/
def bodyLcOperate (d : Desc) (s : State) : State × Ans :=
  failIf (lifeCycle s != .provisioned || s.sec.debugOpened) .denied s <|
    let who := ((sessionOf s d).map (·.requester)).getD 0
    let x := s.sec.fuses
    let ok := d.env.fuseOk
    let s := setFuses s { x with owner0 := blow s ok x.owner0 (BitVec.ofNat 384 who), lcOper := blow s ok x.lcOper 7 }
    if ok then (s, .done) else (fuseFault s, .fail .badState)

/-- LC_OPERATE (R419, R459). -/
def execLcOperate (d : Desc) (s : State) : Res := runHuavo rowLcOperate bodyLcOperate d s

/-- NEW_OWNER is blown into the slot after the current one. -/
def nextOwner (s : State) (ok : Bool) (o : BitVec 384) : Option State :=
  let x := s.sec.fuses
  match (ownerSlot s).map (·.1) with
  | some 0 => some (setFuses s { x with owner1 := blow s ok x.owner1 o })
  | some 1 => some (setFuses s { x with owner2 := blow s ok x.owner2 o })
  | some 2 => some (setFuses s { x with owner3 := blow s ok x.owner3 o })
  | _ => none

/-- The row of OWNER_ROTATE (R419, R459). -/
def rowOwnerRotate : HRow :=
  fixedRow 0x0206 8 [(0, 7)]

/-- OWNER_ROTATE: its own part (R419, R459). -/
def bodyOwnerRotate (d : Desc) (s : State) : State × Ans :=
  failIf (lifeCycle s != .operational) .denied s <|
    withToken d s (fun x => isRequest x && tokenScope x == 1) fun s =>
      match nextOwner s d.env.fuseOk (BitVec.ofNat 384 (byt (hostData d) 64 111)) with
      | none => (s, .fail .exhausted)
      | some s => if d.env.fuseOk then (s, .done) else (fuseFault s, .fail .badState)

/-- OWNER_ROTATE (R419, R459). -/
def execOwnerRotate (d : Desc) (s : State) : Res := runHuavo rowOwnerRotate bodyOwnerRotate d s

/-- The tenant keys go: domain, weight, job, session and pre-shared keys (R420). -/
def zeroiseTenants (s : State) : State :=
  { s with
    sec := { s.sec with sessions := .empty, psks := .empty },
    domains := s.domains.mapVals fun _ d => { d with key := none },
    models := s.models.mapVals fun _ m => { m with key := none },
    net := { s.net with pds := s.net.pds.mapVals fun _ p => { p with key0 := none, key1 := none } } }

/-- The crypto-erase begins: the node fences itself (R420). -/
def startErase (s : State) (scrap : Bool) : State :=
  let s := zeroiseTenants { s with fenced := true }
  { s with sec := { s.sec with erase := some { scrap := scrap } } }

/-- The life-cycle bit of a transition is blown. -/
def blowEnd (s : State) (ok scrap : Bool) : State :=
  let x := s.sec.fuses
  setFuses s (if scrap then { x with lcScrap := blow s ok x.lcScrap 7 } else { x with lcRet := blow s ok x.lcRet 7 })

/-- LC_RETURN and LC_SCRAP's own part (R419, R420). -/
def lcEnd (scrap : Bool) (d : Desc) (s : State) : State × Ans :=
  let lc := lifeCycle s
  let able := lc == .provisioned || lc == .operational || (scrap && (lc == .manufacture || lc == .returned))
  failIf (!able) .denied s <|
  failIf s.sec.erase.isSome .busy s <|
    withToken d s (fun x => if lc = .operational then isRequest x && tokenScope x == (if scrap then 3 else 2)
                            else isToken x && bit (tokenScope x) (if scrap then 3 else 2)) fun s =>
      if lc = .provisioned ∨ lc = .operational then (startErase s scrap, .accept (.other 0))
      else
        let s := blowEnd s d.env.fuseOk scrap
        if d.env.fuseOk then (s, .acceptDone .ok) else (fuseFault s, .acceptDone .badState)

/-- The row of LC_RETURN (R420, R459). -/
def rowLcReturn : HRow :=
  fixedRow 0x0207 8 [(0, 7)]

/-- LC_RETURN (R420, R459). -/
def execLcReturn (d : Desc) (s : State) : Res := runHuavo rowLcReturn (lcEnd false) d s

/-- The row of LC_SCRAP (R420, R459). -/
def rowLcScrap : HRow :=
  fixedRow 0x0208 8 [(0, 7)]

/-- LC_SCRAP (R420, R459). -/
def execLcScrap (d : Desc) (s : State) : Res := runHuavo rowLcScrap (lcEnd true) d s

/-- CRYPTO_ERASE_DONE (R420): every span is erased; the fuses are blown, every key goes, and the node resets. -/
def execCryptoEraseDone (fuseOk : Bool) (s : State) : Res :=
  .next (match s.sec.erase with
    | none => s
    | some e =>
      let s := blowEnd { s with bulk := [], mem := { s.mem with frames := .empty } } fuseOk e.scrap
      if fuseOk then coldReset (zeroiseKeys s) s.boot.porLow s.boot.railHold
      else
        let s := fuseFault { s with sec := { s.sec with erase := none } }
        finishWhere s (fun g => g.key == .other 0) .badState 0 0)

/-- ZEROISE's row. -/
def rowZeroise : HRow := { opcode := 0x0209, role := .cryptoOfficer }

/-- ZEROISE: its own part (R397, R459). -/
def bodyZeroise (_ : Desc) (s : State) : State × Ans :=
  (s, .done)

/-- ZEROISE (R397, R459): the final OK is written before the keys are destroyed. -/
def execZeroise (d : Desc) (s : State) : Res :=
  let runs := fetchable s d && !waitsForTests rowZeroise s && (huavoChecks rowZeroise d (fetchCmd s d)).isNone
    && (!d.ptr || (hostStatus d.env.host).isNone)
  let s := huavo rowZeroise bodyZeroise d s
  .next (if runs then { zeroiseKeys s with sec := { (zeroiseKeys s).sec with mod := .zeroised } } else s)

/-- DEBUG_OPEN's own part (R418). -/
def debugOpen (d : Desc) (s : State) : State × Ans :=
  let lc := lifeCycle s
  failIf (lc == .operational || lc == .scrapped) .denied s <|
    withToken d s (fun x => isToken x && (lc == .manufacture || bit (tokenScope x) (if lc = .returned then 4 else 1))) fun s =>
      let s := { s with sec := { s.sec with debugOpened := true, identity := false, mod := if lc = .provisioned then .nonApproved else s.sec.mod } }
      (emit s (.debugPort true), .done)

/-- The row of DEBUG_OPEN (R418, R459). -/
def rowDebugOpen : HRow :=
  fixedRow 0x020A 8 [(0, 7)]

/-- DEBUG_OPEN (R418, R459). -/
def execDebugOpen (d : Desc) (s : State) : Res := runHuavo rowDebugOpen debugOpen d s

/-! ## The BMC (R448, R449) -/

/-- An effecter value is in its range. -/
def effecterOk : Effecter → Bool
  | .powerCap w => decide (100 ≤ w ∧ w ≤ 360)
  | .thermalStep c => decide (70 ≤ c ∧ c ≤ 100)
  | .hostLimits _ => true

/-- Set an effecter. -/
def setEffecter (t : Thermal) : Effecter → Thermal
  | .powerCap w => { t with powerCap := w }
  | .thermalStep c => { t with stepC := c }
  | .hostLimits i => { t with hostIgnore := i }

/-- PLDM_SET_EFFECTER (R449): refused out of range. -/
def execPldmSetEffecter (e : Effecter) (s : State) : Res :=
  .next (if !s.boot.sideband then s
    else if effecterOk e then emit { s with thermal := setEffecter s.thermal e } (.pldm true 0) else emit s (.pldm false 0))

/-- What the BMC reads of an object; a reading nothing states is free (assumption 3). -/
def pldmValue (s : State) : PldmObj → Int
  | .thermal n => s.thermal.temps.getD n.val (freeVal s : Nat)
  | .rail r => s.thermal.rails.getD r.val (freeVal s : Nat)
  | .nodeStatus => (deviceStatus s : Nat)
  | .powerCap => (s.thermal.powerCap : Nat)
  | .thermalStep => s.thermal.stepC
  | .hostLimits => if s.thermal.hostIgnore then 1 else 0
  | .fru => ((s.sec.fuses.serial.toNat + 0xA1 * 2 ^ 64 + 0x4831 * 2 ^ 72 + freeVal s * 2 ^ 88 : Nat) : Int)

/-- PLDM_READ_SENSOR (R449). -/
def execPldmReadSensor (o : PldmObj) (s : State) : Res :=
  .next (if !s.boot.sideband then s else emit (useFree s) (.pldm true (pldmValue s o)))

end Sys2Proof.Machine
end

