-- ==== Sys2Proof/Machine/Domains.lean ====
section
/-! DEFINITION. Huavo 0x03xx: tenant domains, their reset in order, slices, shares and arbitration (R25 to R30, R250, R407 to
R409, R460). -/

namespace Sys2Proof.Machine

/-! ## Slice records (R25, R27, R28) -/

def sEgress (r : BitVec 128) : Nat := rf r 121 108
def sWqCount (r : BitVec 128) : Nat := rf r 107 91
def sWqBase (r : BitVec 128) : Nat := rf r 90 75
def sCqCount (r : BitVec 128) : Nat := rf r 74 60
def sCqBase (r : BitVec 128) : Nat := rf r 59 46
def sCclk (r : BitVec 128) : Nat := rf r 45 44
def sSealed (r : BitVec 128) : Bool := rb r 43
def sClusters (r : BitVec 128) : Nat := rf r 42 23

/-- Two ranges share a number. -/
def rangesMeet (a n b m : Nat) : Bool := decide (a < b + m ∧ b < a + n)

/-- Two slice records share a cluster or a queue number (R25). -/
def slicesMeet (r t : BitVec 128) : Bool :=
  sClusters r &&& sClusters t != 0 || rangesMeet (sWqBase r) (sWqCount r) (sWqBase t) (sWqCount t)
    || rangesMeet (sCqBase r) (sCqCount r) (sCqBase t) (sCqCount t)

/-- A slice record that BAD_FIELD rejects for slice `n` (R27, R28). -/
def sliceBad (s : State) (n : Nat) (r : BitVec 128) : Bool :=
  sClusters r == 0 || decide (sWqCount r = 0 ∨ 65536 < sWqBase r + sWqCount r ∨ sCqCount r = 0 ∨ 16384 < sCqBase r + sCqCount r
    ∨ sCclk r = 3 ∨ 8192 < sEgress r) || s.slices.any fun k v => k != n && v.state != .disabled && slicesMeet r v.record

/-- The record names a quarantined cluster (R28). -/
def sliceQuarantined (s : State) (r : BitVec 128) : Bool := (bitsOf (sClusters r) 20).any fun c => (getC s c).quarantined

/-- Calendar slots of the other slices once every write has taken effect. -/
def otherShares (s : State) (n : Nat) : Nat :=
  s.slices.fold (fun (a : Nat) k v => if k = n ∨ v.state = .disabled then a else a + sEgress (v.shadow.getD v.record)) 0

/-- The record's share does not fit (R28). -/
def shareFull (s : State) (n : Nat) (r : BitVec 128) : Bool := decide (8192 < otherShares s n + sEgress r)

/-- The slice record as it is read, with STATE (R27). -/
def sliceWord (v : SliceSt) : BitVec 128 :=
  rset v.record 22 21 (match v.state with | .disabled => 0 | .enabled => 1 | .draining => 2)

/-- Replace a slice. -/
def setS (s : State) (n : Nat) (v : SliceSt) : State := { s with slices := s.slices.set n v }

/-- Bits of the record that a command writes. -/
def sliceWritten : Nat := maskOf [(121, 23)]

/-- The record of a SLICE_CREATE or SLICE_MODIFY payload. -/
def slicePayload (d : Desc) : BitVec 128 := BitVec.ofNat 128 (byt d.body 16 31 &&& sliceWritten)

/-- The RWS fields of a record: CCLK_SEL of a sealed slice is locked (R27). -/
def sliceShadowed (r : BitVec 128) : Nat := if sSealed r then maskOf [(121, 108)] else maskOf [(121, 108), (45, 44)]

/-- Row of SLICE_CREATE and SLICE_MODIFY. -/
def rowSlice (opcode : Nat) : HRow :=
  { opcode := opcode, d0 := true, lenOk := fun _ n => n == 32, named := fun _ _ => [(7, 0), (128 + 121, 128 + 21)] }

/-- SLICE_CREATE's own part: locked fields at once, RWS fields at the next epoch (R27, R445). -/
def sliceCreate (d : Desc) (s : State) : State × Ans :=
  let n := byt d.body 0 0
  let r := slicePayload d
  failIf (decide (31 < n) || sliceBad s n r) .badField s <|
  failIf ((getS s n).state == .draining) .busy s <|
  failIf ((getS s n).state != .disabled || sliceQuarantined s r) .badState s <|
  failIf (shareFull s n r) .noHeadroom s <|
    let now : BitVec 128 := BitVec.ofNat 128 (r.toNat &&& (sliceWritten - sliceShadowed r))
    let s := setS s n { record := now, shadow := some r, state := .enabled }
    ((bitsOf (sClusters r) 20).foldl clockDue s, .done)

/-- The row of SLICE_CREATE (R30, R460). -/
def rowSliceCreate : HRow :=
  rowSlice 0x0310

/-- SLICE_CREATE (R30, R460). -/
def execSliceCreate (d : Desc) (s : State) : Res := runHuavo rowSliceCreate sliceCreate d s

/-- SLICE_MODIFY's own part. -/
def sliceModify (d : Desc) (s : State) : State × Ans :=
  let n := byt d.body 0 0
  let r := slicePayload d
  let v := getS s n
  failIf (decide (31 < n) || sliceBad s n r) .badField s <|
  failIf (v.state == .draining) .busy s <|
  failIf (v.state == .disabled || sliceQuarantined s r) .badState s <|
  failIf (differ v.record r (sliceWritten - sliceShadowed v.record)) .busy s <|
  failIf (shareFull s n r) .noHeadroom s <|
    (setS s n { v with shadow := some (merge v.record r (sliceShadowed v.record)) }, .done)

/-- The row of SLICE_MODIFY (R30, R445, R447). -/
def rowSliceModify : HRow :=
  rowSlice 0x0311

/-- SLICE_MODIFY (R30, R445, R447). -/
def execSliceModify (d : Desc) (s : State) : Res := runHuavo rowSliceModify sliceModify d s

/-- Some tenant domain is bound to a slice (R26). -/
def sliceBound (s : State) (n : Nat) : Bool := s.domains.any fun k v => k != 0 && v.state != .free && v.slice == n

/-- SLICE_DESTROY's own part. -/
def sliceDestroy (d : Desc) (s : State) : State × Ans :=
  let n := byt d.body 0 0
  let v := getS s n
  failIf (decide (31 < n)) .badField s <|
  failIf (v.state == .draining) .busy s <|
  failIf (v.state == .disabled || sliceBound s n) .badState s (setS s n { v with state := .draining }, .accept (.slice n))

/-- The row of SLICE_DESTROY (R30). -/
def rowSliceDestroy : HRow :=
  fixedRow 0x0312 1 [(0, 0)] (d0 := true)

/-- SLICE_DESTROY (R30). -/
def execSliceDestroy (d : Desc) (s : State) : Res := runHuavo rowSliceDestroy sliceDestroy d s

/-- SLICE_QUERY's own part. -/
def sliceQuery (d : Desc) (s : State) : State × Ans :=
  let n := byt d.body 0 0
  failIf (decide (31 < n)) .badField s <|
  failIf ((getS s n).state == .draining) .busy s (s, .done (sliceWord (getS s n)).toNat)

/-- The row of SLICE_QUERY (R27, R30). -/
def rowSliceQuery : HRow :=
  fixedRow 0x0313 1 [(0, 0)] (d0 := true)

/-- SLICE_QUERY (R27, R30). -/
def execSliceQuery (d : Desc) (s : State) : Res := runHuavo rowSliceQuery sliceQuery d s

/-- No work is left in a slice's clusters. -/
def sliceQuiet (s : State) (n : Nat) : Bool :=
  (sliceClusters s n).all fun c => (getC s c).holder.isNone && (getC s c).granted.isNone

/-- A drained slice is DISABLED: its clusters, queue ranges, share and reserved pools are free again (R30, R114). -/
def drainOp (s : State) (n : Nat) : State :=
  if (getS s n).state = .draining ∧ sliceQuiet s n then
    let s := { s with slices := s.slices.erase n,
                      mem := { s.mem with pools := s.mem.pools.filter fun k _ => k / 20 != n } }
    finishWhere s (fun g => g.key == .slice n) .ok 0 0
  else s

/-- SLICE_DRAIN_COMPLETE (R30). -/
def execSliceDrainComplete (slice now : Nat) (s : State) : Res := .next (drainOp (clockTo s now) slice)

/-! ## Shares and arbitration (R250) -/

/-- The row of SHARE_SET. -/
def rowShareSet : HRow :=
  { opcode := 0x0320, d0 := true, lenOk := fun _ n => n == 8, named := fun _ _ => [(7, 0), (41, 32)] }

/-- SHARE_SET: its own part. -/
def bodyShareSet (d : Desc) (s : State) : State × Ans :=
  let n := byt d.body 0 0
  let w := byt d.body 4 7
  failIf (decide (63 < n ∨ w = 0)) .badField s <|
  withObj (domFor s n) s fun _ =>
  failIf (!domPortOk d s n) .notOwner s
    ({ s with shareShadow := s.shareShadow.set n (BitVec.ofNat 32 w) }, .done)

/-- SHARE_SET. -/
def execShareSet (d : Desc) (s : State) : Res := runHuavo rowShareSet bodyShareSet d s

/-- The row of ARB_SET. -/
def rowArbSet : HRow :=
  { opcode := 0x0321, d0 := true, lenOk := fun _ n => n == 4, named := fun _ _ => [(23, 0)] }

/-- ARB_SET: its own part. -/
def bodyArbSet (d : Desc) (s : State) : State × Ans :=
  let q := byt d.body 0 3
  failIf (decide (q < 4096)) .badField s ({ s with arbShadow := some (BitVec.ofNat 32 q) }, .done)

/-- ARB_SET. -/
def execArbSet (d : Desc) (s : State) : Res := runHuavo rowArbSet bodyArbSet d s

/-! ## Domains (R407, R408) -/

/-- The tenant domain record (R407). -/
def domainWord (n : Nat) (v : DomainSt) : Nat :=
  pack [(128, 384, v.owner.toNat), (11, 5, v.slice), (10, 1, b2n v.sealed), (8, 2, if n = 0 then 1 else v.state.code), (0, 6, n)]

/-- A DOMAIN_CREATE that R407 rejects. -/
def domainBad (s : State) (sl : Nat) (isSealed : Bool) (owner : BitVec 384) : Bool :=
  if isSealed then
    !sSealed (getS s sl).record || sliceBound s sl || owner == 0 || (ownerSlot s).any fun x => x.2 == owner
  else sSealed (getS s sl).record || owner != 0

/-- A domain starts in each cluster with a deficit of 0 (R250). -/
def freshDeficits (s : State) (n : Nat) : State := { s with deficits := s.deficits.filter fun k _ => k % 64 != n }

/-- DOMAIN_CREATE's own part. -/
def domainCreate (d : Desc) (s : State) : State × Ans :=
  let n := byt d.body 0 0
  let cls := byt d.body 1 1
  let sl := byt d.body 2 2
  let owner := BitVec.ofNat 384 (byt d.body 16 63)
  failIf (d.domain != 0 || decide (n = 0 ∨ 63 < n ∨ 1 < cls ∨ 31 < sl) || domainBad s sl (cls == 1) owner) .badField s <|
  failIf ((getD s n).state == .resetting) .busy s <|
  failIf ((getD s n).state != .free || (getS s sl).state != .enabled) .badState s <|
    let (key, s) := newKey s
    let v : DomainSt := { state := .active, owner := owner, slice := sl, sealed := cls == 1, key := some key, ctrlPort := d.port }
    (freshDeficits (setD s n v) n, .done)

/-- The row of DOMAIN_CREATE (R407, R408, R460). -/
def rowDomainCreate : HRow :=
  fixedRow 0x0301 64 [(0, 2), (16, 63)] (role := .cryptoOfficer)

/-- DOMAIN_CREATE (R407, R408, R460). -/
def execDomainCreate (d : Desc) (s : State) : Res := runHuavo rowDomainCreate domainCreate d s

/-- A held mark of a heat that goes away is not accepted: its result carries BAD_STATE (R409). -/
def refuseHeld (s : State) (k : Nat) : State :=
  match getH s k with
  | none => s
  | some h => match h.held with
    | none => s
    | some m =>
      let s := setH s k { h with held := none }
      if h.master.isNone then rejectResult s k { h with layer := m.layer } m.step .badState else s

/-- A reset of a domain begins: its heats go (R409 step 1). -/
def beginReset (s : State) (n : Nat) (destroying : Bool) : State :=
  let s := setD s n { getD s n with state := .resetting, destroying := destroying }
  let mine := (s.heats.l.filter fun e => hDomain e.2.record == n).map (·.1)
  dropHeats (mine.foldl refuseHeld s) fun h => hDomain h.record == n

/-- The own part of DOMAIN_RESET and DOMAIN_DESTROY. -/
def domainReset (destroying : Bool) (d : Desc) (s : State) : State × Ans :=
  let n := byt d.body 0 0
  failIf (n == 0) .denied s <|
  failIf (decide (63 < n)) .badField s <|
  failIf ((getD s n).state == .free) .badState s <|
  failIf (!domPortOk d s n) .notOwner s <|
  failIf ((getD s n).state == .resetting || objBusy s (.domain n)) .busy s (beginReset s n destroying, .accept (.domain n))

/-- The row of DOMAIN_RESET (R408, R409, R460). -/
def rowDomainReset : HRow :=
  fixedRow 0x0302 1 [(0, 0)] (role := .resetHolder)

/-- DOMAIN_RESET (R408, R409, R460). -/
def execDomainReset (d : Desc) (s : State) : Res :=
  runHuavo rowDomainReset (domainReset false) d s

/-- The row of DOMAIN_DESTROY (R408, R409, R460). -/
def rowDomainDestroy : HRow :=
  fixedRow 0x0303 1 [(0, 0)] (role := .cryptoOfficer)

/-- DOMAIN_DESTROY (R408, R409, R460). -/
def execDomainDestroy (d : Desc) (s : State) : Res :=
  runHuavo rowDomainDestroy (domainReset true) d s

/-- DOMAIN_QUERY's own part. -/
def domainQuery (d : Desc) (s : State) : State × Ans :=
  let n := byt d.body 0 0
  let out := byt d.body 8 15
  failIf (decide (63 < n)) .badField s <|
  failIf (!sees d n) .badState s <|
  withObj (domFor s n) s fun _ =>
  failIf (!outOk out) .badField s (s, .done 0 0 out 64 (domainWord n (getD s n)))

/-- The row of DOMAIN_QUERY (R407, R460). -/
def rowDomainQuery : HRow :=
  fixedRow 0x0304 16 [(0, 0), (8, 15)]

/-- DOMAIN_QUERY (R407, R460). -/
def execDomainQuery (d : Desc) (s : State) : Res := runHuavo rowDomainQuery domainQuery d s

/-! ## The reset goes on (R409 steps 2 to 6) -/

/-- Step 2: regions enter REVOKING, queues RESET, and fault records are abandoned. -/
def resetTraffic (s : State) (n : Nat) : State :=
  let s := revokeRegions s fun r => r.domain == n
  let s := resetQueues s fun _ q => q.internal.isNone && q.domain == n
  abandonDma s (fun _ r => rf r 19 14 == n) 9

/-- Models of a domain, by number. -/
def modelsOf (s : State) (n : Nat) : List Nat := (s.models.l.filter fun e => e.1 / 65536 == n).map (·.1 % 65536)

/-- Step 3: the domain's prefix entries are retracted. -/
def retractDomain (s : State) (n : Nat) : State := (modelsOf s n).foldl (fun s m => retractModel s n m) s

/-- Step 4: the domain key, every weight key and every job key are zeroised. -/
def zeroiseDomain (s : State) (n : Nat) : State :=
  { s with
    domains := s.domains.modify n fun v => { v with key := none },
    models := s.models.mapVals fun k m => if k / 65536 = n then { m with key := none } else m,
    net := { s.net with pds := s.net.pds.mapVals fun _ p => if p.domain = n then { p with key0 := none, key1 := none } else p } }

/-- Step 5: the domain's frames are FREE, not overwritten; its slack occupants are dropped. -/
def freeDomainFrames (s : State) (n : Nat) : State :=
  s.mem.frames.l.foldl (fun s e =>
    let s := if (getFr s e.1).slack.any fun r => r.domain == n then vacate s e.1 else s
    let v := getFr s e.1
    if v.domain = n ∧ v.state ≠ .free ∧ v.state ≠ .quarantined then takeFrame s e.1 .free 0 else s) s

/-- Step 6, sequences: their descriptors go, and the partner forgets their replicas (step 5). -/
def freeDomainSeqs (s : State) (n : Nat) : State :=
  let ids := (s.seqs.l.filter fun e => e.2.domain == n).map (·.1)
  let s := ids.foldl forgetSeq s
  let mine := fun (id : Nat) => ids.contains id
  { s with
    sel := { s.sel with queue := s.sel.queue.filter (fun r => !mine r.seq), audits := s.sel.audits.filter (fun a => !mine a.req.seq),
                        lists := s.sel.lists.filter fun _ l => !mine l.seq },
    place := { s.place with searches := s.place.searches.filter (fun k x => !mine k && x.domain != n),
                            replicas := s.place.replicas.filter (fun _ q => q.domain != n),
                            degraded := s.place.degraded.filter (fun id => !mine id),
                            absent := s.place.absent.filter (fun x => x != n) } }

/-- Step 6, the rest: collections with their merges, models, courses, and what the directory kept for the domain. -/
def freeDomainRest (s : State) (n : Nat) : State :=
  { s with
    sel := { s.sel with colls := s.sel.colls.filter (fun k _ => k / 256 != n), merges := s.sel.merges.filter (fun k _ => k / 2 ^ 40 != n),
                        auditCounts := s.sel.auditCounts.filter fun k _ => k / 4 / 65536 != n },
    models := s.models.filter fun k _ => k / 65536 != n,
    courses := s.courses.filter fun _ c => c.domain != n,
    dir := { s.dir with records := s.dir.records.filter (fun _ r => r.domain != n),
                        counters := s.dir.counters.filter fun k _ => k / 8 / 65536 != n } }

/-- The flights that the reset of a domain waits with. -/
def isResetOf (n : Nat) (g : Flight) : Bool := g.key == .domain n && (g.opcode == 0x0302 || g.opcode == 0x0303)

/-- Every lap of a domain has ended. -/
def domainQuiet (s : State) (n : Nat) : Bool := !(s.heats.any fun _ h => hDomain h.record == n && h.lap.isSome)

/-- The end of a reset: ACTIVE under a new domain key, or FREE (R408). -/
def endReset (s : State) (n : Nat) : State :=
  let v := getD s n
  let s :=
    if v.destroying then freshDeficits { s with domains := s.domains.erase n } n
    else
      let (key, s) := newKey s
      setD s n { v with state := .active, key := some key }
  finishWhere s (isResetOf n) .ok 0 0

/-- Once every lap of the domain has ended, the reset goes through its steps in order. -/
def resetContinue (s : State) (n : Nat) : State :=
  if n ≠ 0 ∧ (getD s n).state = .resetting ∧ domainQuiet s n then
    let s := dropHeats s fun h => hDomain h.record == n
    let s := zeroiseDomain (retractDomain (resetTraffic s n) n) n
    let s := freeDomainFrames (freeDomainSeqs s n) n
    let s := finishWhere (freeDomainRest s n) (fun g => g.domain == n && !isResetOf n g) .badState 0 0
    endReset s n
  else s

/-- DOMAIN_RESET_CONTINUE (R409). -/
def execDomainResetContinue (domain now : Nat) (s : State) : Res := .next (resetContinue (clockTo s now) domain)

end Sys2Proof.Machine
end

