-- ==== Sys2Proof/Machine/Models.lean ====
section
/-! DEFINITION. Huavo 0x04xx: model registrations, their checks and directory banks, weight keys and weight packages
(R100, R122, R150, R188, R217, R412, R461 to R463). -/

namespace Sys2Proof.Machine

/-! ## Registration checks -/

def mModel (r : BitVec 512) : Nat := rf r 15 0
def mRopeHalf (r : BitVec 512) : Bool := rb (mAppend r) 42
def mRopePairs (r : BitVec 512) : Nat := rf (mAppend r) 39 32
def mRopeTheta (r : BitVec 512) : Nat := rf (mAppend r) 31 0
def mBanks (r : BitVec 512) : Nat := rf (mDir r) 3 0
def mPublish (r : BitVec 512) : Bool := rb (mDir r) 4

/-- A finite FP32 number above another. -/
def finiteAbove (x y : Num) : Bool := x.isFinite && y.lt x

/-- R122: the append record and the shape. -/
def appendBad (r : BitVec 512) : Bool :=
  let pairs := mRopePairs r
  decide (6 < mKFmt r ∨ 6 < mVFmt r ∨ 6 < mWFmt r ∨ 2 < mInFmt r)
    || (mLatent r && mVFmt r != mKFmt r) || mT r == 0
    || (!mProjection r && (mWFmt r != 0 || mBias r || mRopeHalf r || pairs != 0 || mRopeTheta r != 0))
    || decide (mHeadDim r < 2 * pairs) || (mLatent r && pairs != 0 && pairs != 32)
    || (pairs != 0 && !finiteAbove (ofBits32 (mRopeTheta r)) Num.one)

/-- R150: the attention record and the sinks. -/
def attnBad (m : ModelSt) : Bool :=
  let r := m.record
  let cap := rf (mAttn r) 95 64
  let fmtOk := fun (f : Nat) => f == 0 || f == 7
  !finiteAbove (attnScale r) Num.zero || (cap != 0 && !finiteAbove (ofBits32 cap) Num.zero)
    || !fmtOk (mOutFmt r) || !fmtOk (mBatonFmt r) || (mOproj r && !mProjection r)
    || (List.range m.sinks.length).any (fun h => !(ofBits32 (m.sinks.getD h 0)).isFinite || !(sinkScore m h).isFinite)
    || (mLatent r && mGroups r != 1)

/-- R217: the directory record. -/
def dirBad (r : BitVec 512) : Bool := decide (8 < mBanks r) || (mPublish r && mBanks r == 0)

/-- A registration that BAD_FIELD rejects (R461). -/
def modelBad (m : ModelSt) : Bool :=
  let r := m.record
  !headDimOk (mHeadDim r) (mLatent r) || decide (1024 < mHeads r) || mWidth r % 32 != 0 || decide (mWidth r < 32 ∨ 16384 < mWidth r)
    || appendBad r || attnBad m || selBad (mSel r) || dirBad r

/-! ## The bank set of a model (R217) -/

/-- Banks a run holds, wrapping from 63 to 0. -/
def bankRun (base n : Nat) : List Nat := (List.range n).map fun i => (base + i) % 64

/-- A registered model uses a bank. -/
def usesBank (m : ModelSt) (b : Nat) : Bool := (bankRun m.bankBase (dBanks m)).contains b

/-- A bank that a domain may not take: one a sealed domain owns, or for a sealed domain one that any other domain uses. -/
def bankTaken (s : State) (domain b : Nat) : Bool :=
  s.models.any fun k m => k / 65536 != domain && (domSealed s domain || domSealed s (k / 65536)) && usesBank m b

/-- The base of the run with the fewest VALID entries, the lowest winning ties. -/
def chooseBanks (s : State) (domain n : Nat) : Option Nat :=
  if n = 0 then some 0
  else
    let ok := (List.range 64).filter fun base => !((bankRun base n).any fun b => bankTaken s domain b)
    let load := fun (base : Nat) => (bankRun base n).foldl (fun a b => a + validCount s b) 0
    ok.foldl (fun (x : Option Nat) base => match x with
      | none => some base
      | some y => if load base < load y then some base else some y) none

/-! ## MODEL_REGISTER, MODEL_UNREGISTER, MODEL_QUERY -/

/-- Bits of the registration record that a field names (R461, R121, R149, R188, R217). -/
def modelNamed : List (Nat × Nat) :=
  [(397, 392), (388, 384), (383, 364), (359, 352), (351, 336), (319, 256), (247, 236), (191, 169), (167, 128), (73, 64), (50, 0)]

/-- Bytes of the payload: the record, and with SINKS the sink table. -/
def modelLen (payload : Nat) : Nat :=
  let r := BitVec.ofNat 512 payload
  64 + (if mSinks r then 4 * mHeads r else 0)

/-- The registration a payload carries. -/
def modelOf (d : Desc) : ModelSt :=
  let r := BitVec.ofNat 512 d.body
  { record := r, sinks := if mSinks r then elems 32 (d.body / 2 ^ 512) (mHeads r) else [] }

/-- MODEL_REGISTER's own part. -/
def modelRegister (d : Desc) (s : State) : State × Ans :=
  let m := modelOf d
  let dom := d.domain.toNat
  let n := mModel m.record
  failIf (modelBad m) .badField s <|
  failIf (getM s dom n).isSome .badState s <|
  failIf (decide (256 ≤ s.models.size)) .exhausted s <|
    match chooseBanks s dom (mBanks m.record) with
    | none => (s, .fail .noHeadroom)
    | some base =>
      let r := rset m.record 397 392 base
      ({ s with models := s.models.set (mkey dom n) { m with record := r, bankBase := base } }, .done (base + mT r * 2 ^ 8))

/-- The row of MODEL_REGISTER (R461, R463). -/
def rowModelRegister : HRow :=
  { opcode := 0x0401, ptr := true, lenOk := fun p n => n == modelLen p,
    named := fun p n => modelNamed ++ (if mSinks (BitVec.ofNat 512 p) then [(8 * n - 1, 512)] else []) }

/-- MODEL_REGISTER (R461, R463). -/
def execModelRegister (d : Desc) (s : State) : Res := runHuavo rowModelRegister modelRegister d s

/-- A heat of a model exists. -/
def modelHasHeat (s : State) (dom n : Nat) : Bool := s.heats.any fun _ h => hDomain h.record == dom && hModel h.record == n

/-- MODEL_UNREGISTER's own part. -/
def modelUnregister (d : Desc) (s : State) : State × Ans :=
  let n := byt d.body 0 1
  let dom := d.domain.toNat
  withObj (modelFor d s n) s fun _ =>
    failIf (modelHasHeat s dom n || s.seqs.any fun _ q => q.domain == dom && q.model == n) .badState s <|
      let s := clearAudit (retractModel s dom n) dom n
      ({ s with models := s.models.erase (mkey dom n) }, .acceptDone .ok)

/-- The row of MODEL_UNREGISTER (R229, R463). -/
def rowModelUnregister : HRow :=
  fixedRow 0x0402 2 [(0, 1)]

/-- MODEL_UNREGISTER (R229, R463). -/
def execModelUnregister (d : Desc) (s : State) : Res := runHuavo rowModelUnregister modelUnregister d s

/-- The model a query names: the domain's own; for domain 0 otherwise the lowest-numbered domain's (R453). -/
def modelSeen (d : Desc) (s : State) (n : Nat) : Except Status ModelSt :=
  match modelFor d s n with
  | .ok m => .ok m
  | .error st =>
    if d.domain = 0 then
      match s.models.find? fun k _ => k % 65536 == n with
      | some (_, m) => .ok m
      | none => .error st
    else .error st

/-- MODEL_QUERY's own part. -/
def modelQuery (d : Desc) (s : State) : State × Ans :=
  let out := byt d.body 8 15
  withObj (modelSeen d s (byt d.body 0 1)) s fun m =>
    failIf (!outOk out) .badField s
      (s, .done (pack [(0, 1, b2n m.loaded), (1, 1, b2n m.damaged), (2, 1, b2n m.key.isSome)]) 0 out 64 m.record.toNat)

/-- The row of MODEL_QUERY (R463). -/
def rowModelQuery : HRow :=
  fixedRow 0x0403 16 [(0, 1), (8, 15)]

/-- MODEL_QUERY (R463). -/
def execModelQuery (d : Desc) (s : State) : Res := runHuavo rowModelQuery modelQuery d s

/-! ## Weights (R412, R462) -/

/-- WEIGHT_KEY_INSTALL's own part. -/
def weightKeyInstall (d : Desc) (s : State) : State × Ans :=
  let n := byt d.body 0 1
  let dom := d.domain.toNat
  withObj (modelFor d s n) s fun m =>
    failIf (!domPortOk d s dom) .notOwner s <|
    failIf (!mProjection m.record || (m.loaded && !m.damaged)) .badState s <|
      let (key, s) := newKey s
      (modM s dom n fun m => { m with key := some key }, .done)

/-- The row of WEIGHT_KEY_INSTALL (R411, R463). -/
def rowWeightKeyInstall : HRow :=
  fixedRow 0x0404 48 [(0, 1), (16, 47)] (role := .keyHolder)

/-- WEIGHT_KEY_INSTALL (R411, R463). -/
def execWeightKeyInstall (d : Desc) (s : State) : Res := runHuavo rowWeightKeyInstall weightKeyInstall d s

/-- The package header agrees with the registration and the length (R462). -/
def headerAgrees (r : BitVec 512) (n plain bytes : Nat) : Bool :=
  let h := plain % 2 ^ 4096
  fld h 31 0 == 0x57544B50 && fld h 47 32 == 1 && fld h 63 48 == n && fld h 79 64 == mWidth r
    && fld h 87 80 + 1 == mLayers r && fld h 93 88 + 1 == mGroups r && fld h 97 94 + 1 == mHpg r && fld h 107 98 == mHeadDim r
    && fld h 112 108 == mWFmt r && bit h 113 == mBias r && bit h 114 == mOproj r && bit h 115 == mLatent r
    && fld h 127 116 == 0 && h / 2 ^ 192 == 0 && fld h 191 128 % 512 == 0 && 528 * (fld h 191 128 / 512) == bytes
    && 512 ≤ fld h 191 128

/-- Bytes of a stored package: its 512-byte blocks and their 12-byte tags. -/
def packageRoom (plainBytes : Nat) : Nat := plainBytes / 512 * 524

/-- Room of the node's weight region that other models leave (R99). -/
def weightRoom (s : State) (key : Nat) : Nat :=
  let all := if pageOn s then 20 * rf s.mem.record 19 9 * 2 ^ 20 else 0
  all - s.models.fold (fun (a : Nat) k m => if k = key ∨ !m.loaded then a else a + packageRoom m.weightBytes) 0

/-- What the verified package does to its model. -/
def keepPackage (d : Desc) (s : State) (dom n bytes : Nat) (m : ModelSt) : State × Ans :=
  let plainBytes := bytes / 528 * 512
  let plain := d.env.plain % 2 ^ (8 * plainBytes)
  let s := chargeDram (chargePcie s dom false bytes) dom true (packageRoom plainBytes)
  if !d.env.tagsOk then (s, .acceptDone .authFail)
  else if !headerAgrees m.record n plain bytes then (s, .acceptDone .badField)
  else
    (modM s dom n fun m => { m with loaded := true, damaged := false, weights := plain, weightBytes := plainBytes,
                                    digest := digestOf plain plainBytes, generation := m.generation + 1 }, .acceptDone .ok)

/-- WEIGHT_LOAD's own part: the length must be whole blocks, and the region must have room, before the buffer is read. -/
def weightLoad (d : Desc) (s : State) : State × Ans :=
  let n := byt d.body 0 1
  let bytes := byt d.body 16 23
  let dom := d.domain.toNat
  withObj (modelFor d s n) s fun m =>
    failIf (bytes == 0 || bytes % 528 != 0) .badField s <|
    failIf (m.key.isNone || (m.loaded && !m.damaged)) .badState s <|
    failIf (decide (weightRoom s (mkey dom n) < packageRoom (bytes / 528 * 512))) .noHeadroom s <|
      match hostStatus d.env.host with
      | some st => (hostFault s d, .acceptDone st)
      | none => keepPackage d s dom n bytes m

/-- The row of WEIGHT_LOAD (R462, R463). -/
def rowWeightLoad : HRow :=
  fixedRow 0x0405 24 [(0, 1), (8, 15), (16, 23)]

/-- WEIGHT_LOAD (R462, R463). -/
def execWeightLoad (d : Desc) (s : State) : Res := runHuavo rowWeightLoad weightLoad d s

/-- WEIGHT_UNLOAD's own part. -/
def weightUnload (d : Desc) (s : State) : State × Ans :=
  let n := byt d.body 0 1
  let dom := d.domain.toNat
  withObj (modelFor d s n) s fun _ =>
    failIf (modelHasHeat s dom n) .badState s
      (modM s dom n fun m => { m with loaded := false, damaged := false, weights := 0, weightBytes := 0, digest := 0 }, .done)

/-- The row of WEIGHT_UNLOAD (R463). -/
def rowWeightUnload : HRow :=
  fixedRow 0x0406 2 [(0, 1)]

/-- WEIGHT_UNLOAD (R463). -/
def execWeightUnload (d : Desc) (s : State) : Res := runHuavo rowWeightUnload weightUnload d s

end Sys2Proof.Machine
end

