-- ==== Sys2Proof/Machine/Verify.lean ====
section
/-! DEFINITION. The course verifier: timing of micro-operations, footprints, and rules V1 to V11 with their report (R57 to
R79, R523). A rule that depends on the clocks is applied for each pair of a CCLK setting and a grade. -/

namespace Sys2Proof.Machine

/-! ## Micro-operations (R72) -/

/-- The operations a timetable entry can name. -/
inductive MOp where
  | att | mm | ext | smx | cvt | rot | nrm | fin | mrg | exp | app | seal | rd | wr | req | take | btn | hurdle | stop
deriving DecidableEq, Repr, Inhabited

/-- The operation of an engine and opcode. -/
def mopOf : (engine opcode : Nat) → Option MOp
  | 0, 1 => some .att | 0, 2 => some .mm | 0, 3 => some .ext
  | 1, 1 => some .smx | 1, 2 => some .cvt | 1, 3 => some .rot | 1, 4 => some .nrm | 1, 5 => some .fin | 1, 6 => some .mrg
  | 2, 1 => some .exp
  | 3, 1 => some .app | 3, 2 => some .seal
  | 4, 1 => some .rd | 4, 2 => some .wr
  | 5, 1 => some .req | 5, 2 => some .take
  | 6, 1 => some .btn
  | 7, 1 => some .hurdle | 7, 0x7F => some .stop
  | _, _ => none

/-- An entry of a timetable; `ext` is the extension entry behind an MXE.MM. -/
structure Ent where
  op : MOp := .stop
  off : Nat := 0
  engine : Nat := 7
  core : Nat := 0
  a : Nat := 0
  b : Nat := 0
  c : Nat := 0
  extA : Nat := 0
  extB : Nat := 0
deriving DecidableEq, Repr, Inhabited

/-- The entries of a timetable word by word, an MXE.MM taking its shape from the word behind it. -/
def entsOf : List Nat → List Ent
  | [] => []
  | w :: t =>
    let n := t.headD 0
    { op := (mopOf (eEngine w) (eOpcode w)).getD .stop, off := eOffset w, engine := eEngine w, core := eCore w,
      a := eA w, b := eB w, c := eC w, extA := eA n, extB := eB n } :: entsOf t

/-- The operation names a page reference in A (R73). -/
def MOp.paged : MOp → Bool
  | .att | .smx | .exp | .app | .seal | .rd | .wr => true
  | _ => false

/-! ## Timing (R57 to R67) -/

/-- What a verification is of: the image, CCLK and MCLK in MHz. -/
structure Course where
  image : Nat := 0
  fc : Nat := 1300
  fm : Nat := 1250
deriving DecidableEq, Repr, Inhabited

/-- CCLK of a CCLK_SEL and MCLK of a grade bit, in MHz (R57). -/
def cclkMhz : Nat → Nat | 0 => 1300 | 1 => 1100 | _ => 900
def mclkMhz : Nat → Nat | 0 => 1250 | _ => 1500

/-- `m` cycles of a clock as CCLK (R57). -/
def convClk (fc fx m : Nat) : Nat := ceilDiv (m * fc) fx + 1

/-- Key and value elements per head, and bytes of a decoded page (R59). -/
def Course.dk (x : Course) : Nat := cHeadDim x.image
def Course.dv (x : Course) : Nat := dVal (cHeadDim x.image) (cLatent x.image)
def Course.pageBytes (x : Course) : Nat :=
  cT x.image * (keyRowBytes (cHeadDim x.image) (cKFmt x.image) + valRowBytes (cHeadDim x.image) (cVFmt x.image) (cLatent x.image))

/-- The matrix rate of formats (R60). -/
def rateOf (fmts : List Nat) : Nat :=
  if fmts.contains 0 then 256 else if fmts.all fun f => f == 5 then 2048 else 1024

/-- Heads of an MXE.ATT; rows of an MXE.MM. -/
def Ent.heads (e : Ent) : Nat := fld e.b 17 14 + 1
def Ent.rows (e : Ent) : Nat := 8 * (fld e.a 15 14 + 1)
/-- Inner dimension, width and operand formats of an MXE.MM. -/
def Ent.k (e : Ent) : Nat := fld e.extA 15 0
def Ent.n (e : Ent) : Nat := fld e.extB 15 0
def Ent.fa (e : Ent) : Nat := fld e.extA 20 16
def Ent.fb (e : Ent) : Nat := fld e.extB 20 16
/-- Elements of a VEC operation; slots and first slot of a claim. -/
def Ent.count (e : Ent) : Nat := fld e.c 15 0
def Ent.slots (e : Ent) : Nat := fld e.b 19 17 + 1

/-- Issue interval in CCLK (R59); `q` is the query's format. -/
def issueInterval (x : Course) (q : Nat) (e : Ent) : Nat :=
  match e.op with
  | .att | .smx =>
    max (ceilDiv (e.heads * cT x.image * (x.dk + x.dv)) (rateOf [q, 1, cKFmt x.image, cVFmt x.image])) (ceilDiv x.pageBytes 256)
  | .mm => ceilDiv (max e.rows 8 * e.k * e.n) (rateOf [e.fa, e.fb])
  | .cvt => ceilDiv e.count 128
  | .rot => ceilDiv e.count 64
  | .nrm => ceilDiv (e.count * x.dv) 64
  | .fin => 16
  | .mrg => 2 * fld e.c 4 0
  | .exp => ceilDiv x.pageBytes 256
  | .app => 4
  | .seal => ceilDiv x.pageBytes 64 + 32
  | .req => 2
  | .take => 4
  | .btn => ceilDiv ((3 + fld e.b 15 0) * x.fc) 1200 + 2
  | .ext | .rd | .wr | .hurdle | .stop => 0

/-- S_min and S_max of a usable slot, in MCLK after lap start (R65). -/
def slotMin (u : Nat) : Nat := 4 + 16 * u
def slotMax (u : Nat) : Nat := 4 + 16 + 16 * (u + 8 * (u / 248 + 1))

/-- Latest CCLK at which a read claim's last byte is in the page buffer (R66). -/
def readDone (x : Course) (u k : Nat) : Nat := convClk x.fc x.fm (slotMax (u + k - 1) + 16 + 289) + 3

/-- Earliest CCLK at which a read claim's first byte can arrive. -/
def readSoon (x : Course) (u : Nat) : Nat := (slotMin u + 288) * x.fc / x.fm

/-- CCLK by which the data of a write claim must be complete (R66). -/
def writeDue (x : Course) (u : Nat) : Int := (((16 * u + 1) * x.fc / x.fm : Nat) : Int) - 2

/-- CCLK from issue until the result can be used (R59). -/
def opLatency (x : Course) (q : Nat) (e : Ent) : Nat :=
  let n := issueInterval x q e
  match e.op with
  | .mm => n + 6
  | .cvt => n + 2
  | .rot => n + 4
  | .nrm => n + 6
  | .seal => n + 8
  | .att | .smx | .mrg => n
  | .fin => 20
  | .exp => 12
  | .app => 10
  | .take => 6
  | .btn => 1 + convClk x.fc 1200 (3 + fld e.b 15 0)
  | .ext | .req | .rd | .wr | .hurdle | .stop => 0

/-! ## Footprints (R523), in units of 64 bytes -/

/-- Where a range lies. -/
inductive Space where
  | scratch (core : Nat) | input (core : Nat) | buffer
deriving DecidableEq, Repr, Inhabited

/-- A range of units. -/
structure Rng where
  space : Space := .buffer
  lo : Nat := 0
  n : Nat := 0
deriving DecidableEq, Repr, Inhabited

/-- A range of bytes from a unit on. -/
def rngOf (space : Space) (lo bytes : Nat) : Rng := { space := space, lo := lo, n := ceilDiv bytes 64 }

/-- The range covers a unit. -/
def Rng.has (r : Rng) (space : Space) (u : Nat) : Bool := r.space == space && decide (r.lo ≤ u ∧ u < r.lo + r.n)

/-- Two ranges share a unit. -/
def Rng.meets (r t : Rng) : Bool := r.space == t.space && rangesMeet r.lo r.n t.lo t.n

/-- Formats of scratch ranges as last written, newest first. -/
abbrev Fmts := List (Rng × Nat)

/-- The format last recorded at a scratch address; 7, FP32's 4 bytes, when there is none. -/
def fmtAt (f : Fmts) (core unit : Nat) : Nat :=
  match f.find? fun e => e.1.has (.scratch core) unit with
  | some e => e.2
  | none => 7

/-- Data of `n` elements that an operation reads: 2 bytes each in an input area. -/
def dataRng (f : Fmts) (core unit : Nat) (inp : Bool) (n : Nat) : Rng :=
  if inp then rngOf (.input core) unit (2 * n) else rngOf (.scratch core) unit (rowBytesOf (fmtAt f core unit) n)

/-- Bytes of a head's statistics. -/
def rowStats (x : Course) : Nat := 8 + 4 * x.dv

/-- The buffer address a QEN.APP writes: the nearest earlier EXP.PAGE or CHN.RD of its page, else the last of them. -/
def appPlace (a : Nat) (before after : List Ent) : Option Nat :=
  let ok := fun (e : Ent) => (e.op == .exp || e.op == .rd) && e.a == a
  match before.find? ok with
  | some e => some (fld e.b 16 0)
  | none => (after.reverse.find? ok).map fun e => fld e.b 16 0

/-- Ranges an entry reads and writes; `before` are the entries ahead of it, nearest first. None: a QEN.APP with no copy. -/
def footOf (x : Course) (f : Fmts) (before after : List Ent) (e : Ent) : Option (List Rng × List Rng) :=
  let own : Space := .scratch e.core
  match e.op with
  | .att | .smx =>
    let st := rngOf own (fld e.c 13 2 * 4) (e.heads * rowStats x)
    some ([dataRng f e.core (fld e.b 13 0) (bit e.b 22) (e.heads * x.dk), st], [st])
  | .mm =>
    let first := if bit e.a 16 then rngOf (.input e.core) (fld e.a 13 0) (rowBytesOf e.fa (max e.rows 8 * e.k))
      else rngOf own (fld e.a 13 0) (rowBytesOf e.fa (max e.rows 8 * e.k))
    let second := if bit e.b 31 then rngOf .buffer (fld e.b 30 14) (rowBytesOf e.fb (e.k * e.n))
      else rngOf own (fld e.b 13 0) (rowBytesOf e.fb (e.k * e.n))
    some ([first, second], [rngOf own (fld e.c 13 0) (4 * e.rows * e.n)])
  | .cvt =>
    some ([dataRng f e.core (fld e.a 13 0) (bit e.a 14) e.count], [rngOf own (fld e.b 13 0) (rowBytesOf (fld e.c 19 16) e.count)])
  | .rot => some ([dataRng f e.core (fld e.a 13 0) (bit e.a 14) e.count], [rngOf own (fld e.b 13 0) (4 * e.count)])
  | .nrm =>
    let sp : Space := if bit e.a 14 then .input e.core else own
    some ([rngOf sp (fld e.a 13 0) (e.count * rowStats x)], [rngOf own (fld e.b 13 0) (4 * e.count * x.dv)])
  | .fin =>
    let st := rngOf own (fld e.a 13 0) (fld e.c 4 0 * rowStats x)
    some ([st], [st, rngOf own (fld e.b 13 0) (fld e.c 4 0 * rowStats x)])
  | .mrg =>
    let bytes := fld e.c 4 0 * rowStats x
    some ((List.range 4).map (fun c => rngOf (.scratch c) (fld e.a 13 0) bytes), [rngOf own (fld e.b 13 0) bytes])
  | .exp => some ([rngOf .buffer (fld e.b 16 0) 16384], [])
  | .app =>
    (appPlace e.a before after).map fun p =>
      let n := if cLatent x.image then x.dk else x.dk + x.dv
      ([dataRng f e.core (fld e.b 13 0) (bit e.b 14) n], [rngOf .buffer p 16384])
  | .seal => some ([rngOf .buffer (fld e.b 16 0) 16384], [rngOf .buffer (fld e.b 16 0) 16384])
  | .rd => some ([], [rngOf .buffer (fld e.b 16 0) (2048 * e.slots)])
  | .wr => some ([rngOf .buffer (fld e.b 16 0) (2048 * e.slots)], [])
  | .req => some ([dataRng f e.core (fld e.b 13 0) false ((cHpgM1 x.image + 1) * x.dk)], [])
  | .btn => some ([rngOf own (fld e.a 13 0) (64 * fld e.b 15 0)], [])
  | .ext | .take | .hurdle | .stop => some ([], [])

/-- The format of the query of an MXE.ATT: 2-byte elements, BF16, in an input area; otherwise as recorded (R60). -/
def queryFmt (f : Fmts) (e : Ent) : Nat := if bit e.b 22 then 0 else fmtAt f e.core (fld e.b 13 0)

/-- The format an entry gives what it writes. -/
def Ent.writes (e : Ent) : Nat := if e.op = .cvt then fld e.c 19 16 else 7

/-- An entry with its footprints and its query's format. -/
structure Foot where
  e : Ent := {}
  q : Nat := 7
  /-- a QEN.APP without a copy has none -/
  ok : Bool := true
  reads : List Rng := []
  writes : List Rng := []
deriving DecidableEq, Repr, Inhabited

/-- The footprints of a timetable in entry order. -/
def footprints (x : Course) (f : Fmts) (before : List Ent) : List Ent → List Foot
  | [] => []
  | e :: t =>
    let r := footOf x f before t e
    let (reads, writes) := r.getD ([], [])
    let new := (writes.filter fun w => w.space != .buffer).map fun w => (w, e.writes)
    { e := e, q := queryFmt f e, ok := r.isSome, reads := reads, writes := writes } :: footprints x (new ++ f) (e :: before) t

/-- The footprints of timetable `t`. -/
def feet (x : Course) (t : Nat) : List Foot := footprints x [] [] (entsOf (ttEntries x.image t))

/-! ## Violations (R79) -/

/-- Where a rule is violated: timetable (31 for the header or the whole image) and entry. -/
abbrev At := Nat × Nat

/-- The first violation over the timetables, in timetable order. -/
def overTables (x : Course) (p : Nat → Option Nat) : Option At :=
  (List.range (cClusters x.image)).findSome? fun t => (p t).map fun i => (t, i)

/-- The first index of a list whose element fails. -/
def firstBad {α : Type} (l : List α) (bad : Nat → α → Bool) : Option Nat :=
  (l.zipIdx.find? fun e => bad e.2 e.1).map (·.2)

/-- A violation of the whole image. -/
def whole (bad : Bool) : Option At := if bad then some (31, 0) else none

/-! ## V1 to V3: header, digest, layout -/

/-- Reserved bits of the header (R70). -/
def headerReserved : Nat :=
  maskOf [(1023, 432), (255, 248), (223, 201), (191, 191), (159, 156), (111, 109), (63, 48)]

/-- V1: the header, against the length the command gave (R466). -/
def ruleV1 (image len : Nat) : Bool :=
  fld image 31 0 == 0x43534E4F && fld image 47 32 == 1 && cImageBytes image == len && decide (len ≤ 4194304)
    && (image % 2 ^ 1024) &&& headerReserved == 0 && decide (1 ≤ cClusters image ∧ cClusters image ≤ 20)
    && cCclkMask image != 0 && cGradeMask image != 0 && decide (cKFmt image ≤ 6 ∧ cVFmt image ≤ 6)
    && headDimOk (cHeadDim image) (cLatent image) && (!cLatent image || cKFmt image == cVFmt image)
    && decide (cWindow image ≤ 8192 ∧ cGlobalPages image ≤ 64 ∧ cRetrieved image ≤ 256) && cT image != 0

/-- V2: the digest (R77). -/
def ruleV2 (image len : Nat) : Bool := (digestOf image (len - 48)).toNat == imgBytes image (len - 48) 48

/-- The regions of an image besides header and digest: timetable number (31: whole image), offset, bytes (R69). An empty one
occupies nothing. -/
def regionsOf (image : Nat) : List (Nat × Nat × Nat) :=
  ([(31, cDirOff image, 8 * cClusters image)]
    ++ (List.range (cClusters image)).map (fun t => (t, ttOff image t, 16 * ttCount image t))
    ++ [(31, cMaxOff image, 8 * cMaxCount image), (31, cHurdleOff image, 16 * cHurdleCount image),
        (31, cRangeOff image, 8 * cRangeCount image)]).filter fun r => r.2.2 != 0

/-- Every byte of a range is zero. -/
def zeroBytes (image off n : Nat) : Bool := imgBytes image off n == 0

/-- Bytes between consecutive regions, in order of offset, are zero. -/
def gapsZero (image : Nat) (pos : Nat) : List (Nat × Nat) → Bool
  | [] => true
  | (off, n) :: t => (decide (off ≤ pos) || zeroBytes image pos (off - pos)) && gapsZero image (max pos (off + n)) t

/-- A region that starts off a 64-byte boundary, leaves the image, or meets an earlier one. -/
def badRegion (len : Nat) (seen : List (Nat × Nat)) : List (Nat × Nat × Nat) → Option At
  | [] => none
  | (t, off, n) :: rest =>
    if off % 64 ≠ 0 ∨ len < off + n ∨ seen.any fun r => rangesMeet off n r.1 r.2 then some (t, 0)
    else badRegion len ((off, n) :: seen) rest

/-- V3: the layout of R69, the directory's reserved bits, and zeros outside every region. -/
def ruleV3 (image len : Nat) : Option At :=
  let ends := [(0, 128), (len - 48, 48)]
  (whole (decide (len < 176))) <|>
  ((List.range (cClusters image)).findSome? fun t =>
    if fld (imgBytes image (cDirOff image + 8 * t) 8) 63 48 ≠ 0 then some (t, 0) else none) <|>
  (badRegion len ends (regionsOf image)) <|>
    whole (!gapsZero image 0 ((ends ++ (regionsOf image).map fun r => (r.2.1, r.2.2)).stableSort fun a b => decide (a.1 ≤ b.1)))

/-! ## V4, V5: entries and order -/

/-- Bits of A, B and C that an operation uses (R73). -/
def usedBits : MOp → Nat × Nat × Nat
  | .att | .smx => (maskOf [(31, 0)], maskOf [(22, 0)], maskOf [(13, 0)])
  | .mm => (maskOf [(16, 0)], maskOf [(31, 0)], maskOf [(13, 0)])
  | .ext => (maskOf [(20, 0)], maskOf [(20, 0)], 0)
  | .cvt => (maskOf [(14, 0)], maskOf [(13, 0)], maskOf [(19, 0)])
  | .rot | .nrm => (maskOf [(14, 0)], maskOf [(13, 0)], maskOf [(15, 0)])
  | .fin | .mrg => (maskOf [(13, 0)], maskOf [(13, 0)], maskOf [(4, 0)])
  | .exp => (maskOf [(31, 0)], maskOf [(16, 0)], 1)
  | .app => (maskOf [(31, 0)], maskOf [(14, 0)], 0)
  | .seal => (maskOf [(31, 0)], maskOf [(16, 0)], 0)
  | .rd | .wr => (maskOf [(31, 0)], maskOf [(19, 0)], maskOf [(19, 0)])
  | .req => (maskOf [(31, 16)], maskOf [(13, 0)], 0)
  | .take => (maskOf [(31, 16)], 0, 0)
  | .btn => (maskOf [(31, 16), (13, 0)], maskOf [(15, 0)], 1)
  | .hurdle => (maskOf [(31, 0)], 0, 0)
  | .stop => (0, 0, 0)

/-- A reserved operand bit is set. -/
def strayBits (e : Ent) : Bool :=
  let u := usedBits e.op
  (e.a &&& u.1) != e.a || (e.b &&& u.2.1) != e.b || (e.c &&& u.2.2) != e.c

/-- The reference names a slot, a group and an ordinal within range. -/
def refInRange (image a : Nat) (paged : Bool) : Bool :=
  decide (refSlot a ≤ cHeatMaxM1 image ∧ refGroup a ≤ cGroupsM1 image) && (!paged || decide (refOrd a < maxPagesPerRow image))

/-- Operands of an entry within range (R59, R67, R73). -/
def operandsOk (image : Nat) (e : Ent) : Bool :=
  let h := fld e.c 4 0
  (!e.op.paged || refInRange image e.a true) && match e.op with
    | .att | .smx => decide (fld e.b 21 18 + e.heads ≤ cHpgM1 image + 1)
    | .mm => bit e.b 31 || fld e.b 30 14 == 0
    | .cvt => decide (fld e.c 19 16 ≤ 7)
    | .nrm => decide (1 ≤ e.count ∧ e.count ≤ 16)
    | .fin | .mrg => decide (1 ≤ h ∧ h ≤ 16)
    | .rd => decide (ceilDiv (maxPackedBytes image) 2048 ≤ e.slots)
    | .req | .take => refInRange image e.a false
    | _ => true

/-- The entry behind an MXE.MM is its extension entry, with valid formats. -/
def extFollows (e : Ent) : List Ent → Bool
  | [] => false
  | n :: _ => n.op == .ext && n.off == e.off && n.core == e.core && decide (e.fa ≤ 6 ∧ e.fb ≤ 6)

/-- V4 over a timetable: `w` are the words, `prev` the entry before. -/
def entryBad (image : Nat) (prev : Option Ent) : (i : Nat) → List Nat → List Ent → Option Nat
  | _, [], _ => none
  | _, _, [] => none
  | i, w :: ws, e :: t =>
    let stray := (mopOf (eEngine w) (eOpcode w)).isNone || strayBits e || (decide (3 < e.engine) && e.core != 0)
    let lone := e.op == .ext && !(prev.any fun p => p.op == .mm && p.off == e.off && p.core == e.core)
    if stray || lone || (e.op == .mm && !extFollows e t) || !operandsOk image e then some i
    else entryBad image (some e) (i + 1) ws t

/-- V4. -/
def ruleV4 (x : Course) : Option At :=
  overTables x fun t =>
    let ws := ttEntries x.image t
    entryBad x.image none 0 ws (entsOf ws)

/-- V5: offsets do not decrease, MAR.END is the last entry, and the fetch queue keeps up (R68). -/
def ruleV5 (x : Course) : Option At :=
  overTables x fun t =>
    let l := entsOf (ttEntries x.image t)
    let last := l.length - 1
    firstBad l fun i e =>
      (decide (0 < i) && decide (e.off < ((l[i - 1]?).map (·.off)).getD 0)) || (e.op == .stop) != (i == last)
        || decide (e.off + 40 < i / 4)

/-! ## V6: engine intervals -/

/-- The issuing resource of an operation: engine and core. -/
def resourceOf (e : Ent) : Option (Nat × Nat) :=
  match e.op with
  | .ext | .rd | .wr | .hurdle | .stop => none
  | _ => some (e.engine, e.core)

/-- V6 over a timetable: until when each resource is busy. -/
def overlapAt (x : Course) (busy : List ((Nat × Nat) × Nat)) : (i : Nat) → List Foot → Option Nat
  | _, [] => none
  | i, f :: t =>
    match resourceOf f.e with
    | none => overlapAt x busy (i + 1) t
    | some r =>
      if busy.any fun b => b.1 == r && decide (f.e.off < b.2) then some i
      else overlapAt x ((r, f.e.off + issueInterval x f.q f.e) :: busy) (i + 1) t

/-- V6. -/
def ruleV6 (x : Course) : Option At := overTables x fun t => overlapAt x [] 0 (feet x t)

/-! ## V7: operands and their producers -/

/-- A footprint lies within 1 MiB of scratch, INPUT_BYTES or BUF_BYTES. -/
def withinLimits (image : Nat) (r : Rng) : Bool :=
  let upTo := fun (m : Option Nat) => match m with | some v => decide (64 * (r.lo + r.n) ≤ v) | none => true
  match r.space with
  | .scratch _ => decide (64 * (r.lo + r.n) ≤ 2 ^ 20)
  | .input _ => upTo (maxima? image 5)
  | .buffer => upTo (maxima? image 4)

/-- CCLK after lap start at which an entry's results can be used. -/
def readyAt (x : Course) (f : Foot) : Nat :=
  if f.e.op = .rd then readDone x f.e.c f.e.slots else f.e.off + opLatency x f.q f.e

/-- The entry that last wrote a unit; `done` are the entries before, newest first. -/
def producerOf (done : List Foot) (space : Space) (u : Nat) : Option Foot :=
  done.find? fun f => f.writes.any fun w => w.has space u

/-- The producers of a range, one for each unit that has one. -/
def producersOf (done : List Foot) (r : Rng) : List Foot :=
  (List.range r.n).filterMap fun i => producerOf done r.space (r.lo + i)

/-- MXE.ATT and VEC.SMX of one page on one core at one offset are one paired operation (R62). -/
def paired (e g : Ent) : Bool :=
  ((e.op == .att && g.op == .smx) || (e.op == .smx && g.op == .att)) && e.off == g.off && e.core == g.core && e.a == g.a && e.b == g.b

/-- V7 of one entry. -/
def v7Bad (x : Course) (done : List Foot) (f : Foot) : Bool :=
  !f.ok || (f.reads ++ f.writes).any (fun r => !withinLimits x.image r)
    || (f.e.op != .wr && f.reads.any fun r => (producersOf done r).any fun p => decide (f.e.off < readyAt x p) && !paired p.e f.e)
    || (f.e.op == .rd && f.writes.any fun w => done.any fun g =>
          g.reads.any (fun r => r.meets w) && decide (readSoon x f.e.c < g.e.off))

/-- V7 over a timetable. -/
def v7At (x : Course) (done : List Foot) : (i : Nat) → List Foot → Option Nat
  | _, [] => none
  | i, f :: t => if v7Bad x done f then some i else v7At x (f :: done) (i + 1) t

/-- V7. -/
def ruleV7 (x : Course) : Option At := overTables x fun t => v7At x [] 0 (feet x t)

/-! ## V8: expander and matrix engine (R62) -/

/-- The EXP.PAGE whose page a core's expander holds, `done` newest first. -/
def expanded (done : List Foot) (core : Nat) : Option Foot := done.find? fun f => f.e.op == .exp && f.e.core == core

/-- The last MXE.ATT on the core since its expander took the page. -/
def consumer (done : List Foot) (core : Nat) : Option Foot :=
  (done.takeWhile fun f => !(f.e.op == .exp && f.e.core == core)).find? fun f => f.e.op == .att && f.e.core == core

/-- V8 of one entry. -/
def v8Bad (x : Course) (all done : List Foot) (f : Foot) : Bool :=
  match f.e.op with
  | .exp => match consumer done f.e.core with
    | some a => decide (f.e.off + 12 < a.e.off + issueInterval x a.q a.e)
    | none => false
  | .att => !(all.any fun g => paired f.e g.e) || match expanded done f.e.core with
    | some p => p.e.a != f.e.a || decide (f.e.off < p.e.off + 12)
    | none => true
  | .smx => !(all.any fun g => paired f.e g.e)
  | _ => false

/-- V8 over a timetable. -/
def v8At (x : Course) (all done : List Foot) : (i : Nat) → List Foot → Option Nat
  | _, [] => none
  | i, f :: t => if v8Bad x all done f then some i else v8At x all (f :: done) (i + 1) t

/-- V8. -/
def ruleV8 (x : Course) : Option At := overTables x fun t => v8At x (feet x t) [] 0 (feet x t)

/-! ## V9: claims (R65 to R67) -/

/-- Hurdle entries of a timetable. -/
def hurdlesOf (image t : Nat) : List Nat :=
  ((List.range (cHurdleCount image)).map (hurdleEntry image)).filter fun h => hCluster h == t

/-- Origins ahead of entry `i`: offset and SLOT_BASE of lap start and of every preceding hurdle. -/
def originsAt (image t i : Nat) : List (Nat × Nat) :=
  (0, 0) :: ((hurdlesOf image t).filter fun h => decide (hEntry h < i)).map fun h => (hOffset h, hSlotBase h)

/-- Two claims of a channel conflict: they overlap, or change direction without a free slot between. -/
def claimsMeet (e g : Ent) : Bool :=
  rangesMeet e.c e.slots g.c g.slots || (e.op != g.op && (e.c + e.slots == g.c || g.c + g.slots == e.c))

/-- A claim. -/
def isClaim (e : Ent) : Bool := e.op == .rd || e.op == .wr

/-- V9 of one entry, against the entries before it. -/
def v9Bad (x : Course) (t i : Nat) (done : List Foot) (f : Foot) : Bool :=
  let origins := originsAt x.image t i
  (isClaim f.e && (done.any (fun g => isClaim g.e && claimsMeet f.e g.e) || origins.any fun o => decide (f.e.c < o.2)))
    || (f.e.op == .wr && f.reads.any fun r => (producersOf done r).any fun p => origins.any fun o =>
          decide (writeDue x (f.e.c - o.2) < (readyAt x p : Int) - o.1))
    || (f.e.op != .wr && f.reads.any fun r => (producersOf done r).any fun p => p.e.op == .rd && origins.any fun o =>
          decide (o.2 ≤ p.e.c) && decide (o.1 ≤ p.e.off) && decide (f.e.off - o.1 < readDone x (p.e.c - o.2) p.e.slots))

/-- V9 over a timetable. -/
def v9At (x : Course) (t : Nat) (done : List Foot) : (i : Nat) → List Foot → Option Nat
  | _, [] => none
  | i, f :: r => if v9Bad x t i done f then some i else v9At x t (f :: done) (i + 1) r

/-- V9. -/
def ruleV9 (x : Course) : Option At := overTables x fun t => v9At x t [] 0 (feet x t)

/-! ## V10: maxima and coverage (R74, R82) -/

/-- A maxima list entry. -/
def maximaEntry (image j : Nat) : Nat := imgBytes image (cMaxOff image + 8 * j) 8

/-- A value within the hardware limit of its ID. -/
def maximumOk (id v : Nat) : Bool :=
  match id with
  | 1 => decide (v ≤ 65535)
  | 2 => v == 4096 || v == 8192 || v == 12288 || v == 16384
  | 3 => decide (v ≤ 65536)
  | 4 => decide (v ≤ 4980736)
  | 5 => decide (v ≤ 262144)
  | _ => false

/-- A maxima list entry with reserved bits, an unknown or repeated ID, or a value beyond its limit. -/
def maximaBad (image j : Nat) : Bool :=
  let e := maximaEntry image j
  fld e 31 16 != 0 || !maximumOk (fld e 15 0) (fld e 63 32)
    || (List.range j).any fun k => fld (maximaEntry image k) 15 0 == fld e 15 0

/-- The page of an ordinal is expanded, and its MXE.ATT entries cover every query head. -/
def pageCovered (image : Nat) (l : List Ent) (row ord : Nat) : Bool :=
  let a := row * 2 ^ 16 + ord
  (l.any fun e => e.op == .exp && e.a == a) && (List.range (cHpgM1 image + 1)).all fun h =>
    l.any fun e => e.op == .att && e.a == a && decide (fld e.b 21 18 ≤ h ∧ h < fld e.b 21 18 + e.heads)

/-- V10 over a timetable: the first entry that names a row some page of which is not covered. -/
def v10At (image : Nat) (l : List Ent) : Option Nat :=
  firstBad l fun _ e => e.op.paged && !((List.range (maxPagesPerRow image)).all fun o => pageCovered image l (e.a / 2 ^ 16) o)

/-- V10. -/
def ruleV10 (x : Course) : Option At :=
  (((List.range (cMaxCount x.image)).find? (maximaBad x.image)).map fun j => ((31, j) : At)) <|>
  (whole ((maxima? x.image 4).isNone || (maxima? x.image 5).isNone)) <|>
    overTables x fun t => v10At x.image (entsOf (ttEntries x.image t))

/-! ## V11: hurdles (R75, R76, R85) -/

/-- Reserved bits of hurdle and live-range entries, the hurdle's cluster and the range's length. -/
def hurdleOk (image h : Nat) : Bool := fld h 74 73 == 0 && fld h 11 0 == 0 && decide (hCluster h < cClusters image)
def rangeOk (r : Nat) : Bool := r / 2 ^ 30 == 0 && decide (1 ≤ rLength r)

/-- Live ranges of a hurdle. -/
def liveOf (image h : Nat) : List Rng :=
  (List.range (hRangeCount h)).map fun k =>
    let r := rangeEntry image (hRangeFirst h + k)
    { space := .scratch (rCore r), lo := rStart r, n := rLength r }

/-- Sorted by cluster, then by offset. -/
def hurdlesSorted : List Nat → Bool
  | a :: b :: t => decide (hCluster a < hCluster b ∨ (hCluster a = hCluster b ∧ hOffset a ≤ hOffset b)) && hurdlesSorted (b :: t)
  | _ => true

/-- The fields of a hurdle that its MAR.HURDLE and its ranges fix. -/
def hurdleMatches (image h i ordinal : Nat) (e : Ent) : Bool :=
  let live := liveOf image h
  hEntry h == i && hOffset h == e.off && e.a == ordinal && decide (hRangeCount h ≤ 64)
    && decide (hRangeFirst h + hRangeCount h ≤ cRangeCount image) && decide (hLive h ≤ 16320)
    && hLive h == 64 * live.foldl (fun n r => n + r.n) 0

/-- Some range of a list covers a unit. -/
def covers (l : List Rng) (space : Space) (u : Nat) : Bool := l.any fun r => r.has space u

/-- The contents of a unit are read by some entry before one writes it again. -/
def readAgain (space : Space) (u : Nat) : List Foot → Bool
  | [] => false
  | f :: t => covers f.reads space u || (!covers f.writes space u && readAgain space u t)

/-- A lifetime that crosses the hurdle lies outside its live ranges: written in `before`, read again in `after`. -/
def lifetimeLost (live : List Rng) (before after : List Foot) : Bool :=
  before.any fun f => f.writes.any fun w => w.space != .buffer && (List.range w.n).any fun i =>
    !covers live w.space (w.lo + i) && readAgain w.space (w.lo + i) after

/-- An entry writes a live range while the checkpoint is copied, from `start` for `len` cycles (R85). -/
def writesLive (x : Course) (live : List Rng) (start len : Nat) (f : Foot) : Bool :=
  decide (f.e.off < start + len ∧ start < f.e.off + max 1 (opLatency x f.q f.e)) && f.writes.any fun w => live.any fun r => r.meets w

/-- V11 over a timetable: its MAR.HURDLE entries by index, against the hurdles of the list. -/
def v11Hurdles (x : Course) (all : List Foot) : (ordinal : Nat) → (marks : List (Foot × Nat)) → (hs : List Nat) → Option Nat
  | _, [], [] => none
  | _, [], _ :: _ => some (all.length - 1)
  | _, (_, i) :: _, [] => some i
  | k, (f, i) :: t, h :: hs =>
    let live := liveOf x.image h
    if !hurdleMatches x.image h i k f.e || lifetimeLost live (all.take i) (all.drop (i + 1)) then some i
    else match firstBad all fun _ g => writesLive x live f.e.off (8 + hLive h / 64) g with
      | some j => some j
      | none => v11Hurdles x all (k + 1) t hs

/-- At most 32,768 CCLK between consecutive points. -/
def spacedOut : List Nat → Bool
  | a :: b :: t => decide (b ≤ a + 32768) && spacedOut (b :: t)
  | _ => true

/-- V11 of one timetable. -/
def v11At (x : Course) (t : Nat) : Option Nat :=
  let all := feet x t
  let marks := all.zipIdx.filter fun f => f.1.e.op == .hurdle
  let hs := hurdlesOf x.image t
  if 1024 < hs.length then some 0
  else match v11Hurdles x all 0 marks hs with
    | some i => some i
    | none =>
      let points := 0 :: marks.map (fun f => f.1.e.off) ++ (all.getLast?.map fun f => f.e.off).toList
      if spacedOut points then none else some 0

/-- V11. -/
def ruleV11 (x : Course) : Option At :=
  let hs := (List.range (cHurdleCount x.image)).map (hurdleEntry x.image)
  let rs := (List.range (cRangeCount x.image)).map (rangeEntry x.image)
  ((firstBad hs fun _ h => !hurdleOk x.image h).map fun j => ((31, j) : At)) <|>
  ((firstBad rs fun _ r => !rangeOk r).map fun j => ((31, j) : At)) <|>
  (whole (!hurdlesSorted hs)) <|>
    overTables x fun t => v11At x t

/-! ## The verification (R78, R79) -/

/-- A rejection. -/
structure Rejection where
  rule : Nat := 0
  table : Nat := 31
  entry : Nat := 0
  cclk : Nat := 0
  grade : Nat := 0
deriving DecidableEq, Repr, Inhabited

/-- Pairs of a CCLK setting and a grade that the masks allow, in the order of R78. -/
def clockPairs (image : Nat) : List (Nat × Nat) :=
  (bitsOf (cCclkMask image) 3).flatMap fun c => (bitsOf (cGradeMask image) 2).map fun g => (c, g)

/-- The course under a pair of clocks. -/
def courseAt (image : Nat) (p : Nat × Nat) : Course := { image := image, fc := cclkMhz p.1, fm := mclkMhz p.2 }

/-- A rule that is applied once: the report shows the lowest set bits. -/
def applyOnce (image rule : Nat) (v : Option At) : Option Rejection :=
  let p := ((bitsOf (cCclkMask image) 3).headD 0, (bitsOf (cGradeMask image) 2).headD 0)
  v.map fun (x : At) => { rule := rule, table := x.1, entry := x.2, cclk := p.1, grade := p.2 }

/-- A rule that is applied to every pair of clocks. -/
def applyEach (image rule : Nat) (v : Course → Option At) : Option Rejection :=
  (clockPairs image).findSome? fun p =>
    (v (courseAt image p)).map fun (x : At) => { rule := rule, table := x.1, entry := x.2, cclk := p.1, grade := p.2 }

/-- The verifier: the first violation of an image of `len` bytes, if any. -/
def verifyCourse (image len : Nat) : Option Rejection :=
  let x := courseAt image ((bitsOf (cCclkMask image) 3).headD 0, (bitsOf (cGradeMask image) 2).headD 0)
  (applyOnce image 1 (whole (!ruleV1 image len))) <|>
  (applyOnce image 2 (whole (!ruleV2 image len))) <|>
  (applyOnce image 3 (ruleV3 image len)) <|>
  (applyOnce image 4 (ruleV4 x)) <|>
  (applyOnce image 5 (ruleV5 x)) <|>
  (applyEach image 6 ruleV6) <|>
  (applyEach image 7 ruleV7) <|>
  (applyEach image 8 ruleV8) <|>
  (applyEach image 9 ruleV9) <|>
  (applyOnce image 10 (ruleV10 x)) <|>
    applyOnce image 11 (ruleV11 x)

/-- RESULT of a rejected COURSE_LOAD (R466). -/
def rejectionWord (r : Rejection) : Nat := pack [(0, 8, r.rule), (8, 8, r.table), (16, 16, r.entry), (32, 2, r.cclk), (34, 1, r.grade)]

/-- Scratch extent of a course: the highest byte any operation addresses outside an input area, plus 1 (R54). -/
def scratchExtent (image : Nat) : Nat :=
  let x := courseAt image (0, 0)
  (List.range (cClusters image)).foldl (fun m t => (feet x t).foldl (fun m f =>
    (f.reads ++ f.writes).foldl (fun m r => match r.space with
      | .scratch _ => max m (64 * (r.lo + r.n))
      | _ => m) m) m) 0

end Sys2Proof.Machine
end

