-- ==== Sys2Proof/Machine/Heats.lean ====
section
/-! DEFINITION. Huavo 0x06xx: heats, their step windows and binding checks, and the course store (R54, R80, R83, R234 to
R236, R430, R466, R524). -/

namespace Sys2Proof.Machine

/-! ## Binding (R54, R80, R83, R124) -/

/-- The record a heat will run under once its shadow has taken effect. -/
def nextRecord (h : HeatSt) : BitVec 192 := h.shadow.getD h.record

/-- A heat is bound to a course: the one in effect, or the one its next mark brings. -/
def boundTo (h : HeatSt) (course : Nat) : Bool := hCourse h.record == course || hCourse (nextRecord h) == course

/-- Bind count of a course (R80). -/
def bindCount (s : State) (course : Nat) : Nat := s.heats.fold (fun (n : Nat) _ h => if boundTo h course then n + 1 else n) 0

/-- CCLK settings a course must allow in a slice: the pinned one, or the ceiling and every lower setting. -/
def cclkNeeded (r : BitVec 128) : List Nat := if sSealed r then [sCclk r] else (List.range 3).filter fun c => sCclk r ≤ c

/-- The slice record as every write so far leaves it. -/
def sliceNext (s : State) (sl : Nat) : BitVec 128 := (getS s sl).shadow.getD (getS s sl).record

/-- The shape fields of a course equal a model's registration. -/
def shapeAgrees (i : Nat) (m : BitVec 512) : Bool :=
  cLayersM1 i + 1 == mLayers m && cGroupsM1 i + 1 == mGroups m && cHpgM1 i + 1 == mHpg m && cHeadDim i == mHeadDim m
    && cKFmt i == mKFmt m && cVFmt i == mVFmt m && cLatent i == mLatent m && cAppendMode i == b2n (mProjection m)

/-- Images of the courses bound in a slice, one for each heat but `except`, with `image` for the heat that binds. -/
def boundImages (s : State) (sl except image : Nat) : List Nat :=
  image :: s.heats.fold (fun (l : List Nat) k h =>
    if k ≠ except ∧ heatSlice s h = some sl then ((s.courses.get? (hCourse (nextRecord h))).map (·.image)).toList ++ l else l) []

/-- Page buffers and core scratch of a slice have room for the bound heats and their courses' timetables (R54, R83). -/
def bindRoom (s : State) (sl except image : Nat) : Bool :=
  let images := boundImages s sl except image
  let courses := images.eraseDups
  let regions := images.foldl (fun (n : Nat) i => n + maxBufBytes i) 0
  let buffers := (List.range (sliceClusters s sl).length).all fun t =>
    decide (2 ^ 20 + 2 ^ 18 + courses.foldl (fun (n : Nat) i => n + 16 * ttCount i t) 0 + regions ≤ 6 * 2 ^ 20)
  let inputs := images.foldl (fun (n : Nat) i => n + 2 * maxInputBytes i) 0
  buffers && decide (courses.foldl (fun (n : Nat) i => max n (scratchExtent i)) 0 + inputs ≤ 2 ^ 20)

/-- The binding checks, in the order of R54: the first status that forbids the binding. -/
def bindCheck (s : State) (heat domain sl course slots : Nat) (m : BitVec 512) : Option Status :=
  match (s.courses.get? course).filter fun c => c.state == .loaded && c.domain == domain with
  | none => some .denied
  | some c =>
    let i := c.image
    let fits := cClusters i == (sliceClusters s sl).length && shapeAgrees i m && decide (slots ≤ cHeatMaxM1 i + 1)
      && bit (cGradeMask i) (b2n Config.grade48) && (cclkNeeded (sliceNext s sl)).all fun x => bit (cCclkMask i) x
    if !fits then some .badField else if !bindRoom s sl heat i then some .noHeadroom else none

/-- A projection-mode model whose weights are not loaded cannot be bound (R124). -/
def weightsMissing (m : ModelSt) : Bool := mProjection m.record && !m.loaded

/-! ## Step windows (R430) -/

/-- A function's step window in its BAR0: first offset, and the offset behind it. -/
def windowOf (f : Func) : Nat × Nat := if f = 0 then (0x20000000, 0x40000000) else (0x04000000, 0x08000000)

/-- Allocations of a function's step window, without a heat's own. -/
def allocations (s : State) (p : Port) (f : Func) (except : Nat) : List (Nat × Nat) :=
  s.heats.fold (fun (l : List (Nat × Nat)) k h =>
    if k ≠ except ∧ hCtrlPort h.record = p ∧ h.func = f then (h.stepBase, 2 * h.bankBytes) :: l else l) []

/-- The lowest free offset of a function's step window that fits two banks. -/
def placeBanks (s : State) (p : Port) (f : Func) (except bank : Nat) : Option Nat :=
  let (first, last) := windowOf f
  let used := allocations s p f except
  let ok := (first :: used.map fun r => r.1 + r.2).filter fun o =>
    decide (o + 2 * bank ≤ last) && !used.any fun r => rangesMeet o (2 * bank) r.1 r.2
  ok.foldl (fun (b : Option Nat) o => match b with
    | none => some o
    | some x => some (min x o)) none

/-- RESULT of HEAT_CREATE, and of a HEAT_SET that reallocates (R466). -/
def windowResult (h : HeatSt) : Nat := pack [(0, 64, h.stepBase), (64, 32, h.rowBytes), (96, 32, h.entryBytes)]

/-- The heat with its row and entry sizes for a model and course, its banks placed anew when a size changes. -/
def sizeHeat (s : State) (k : Nat) (h : HeatSt) (r : BitVec 192) (m : BitVec 512) (image : Nat) : Option (HeatSt × Bool) :=
  let row := rowBytes m image
  let entry := entryBytes m image (hSlots r)
  if row = h.rowBytes ∧ entry = h.entryBytes then some (h, false)
  else
    let bank := bankBytes (hSlots r) row
    (placeBanks s (hCtrlPort h.record) h.func k bank).map fun base =>
      ({ h with stepBase := base, rowBytes := row, entryBytes := entry, bankBytes := bank, bank0 := {}, bank1 := {} }, true)

/-! ## HEAT_CREATE (R235) -/

/-- The selector record of a new heat (R189). -/
def selRecReset : BitVec 64 := BitVec.ofNat 64 (pack [(52, 6, 7), (46, 6, 15), (40, 5, 2), (30, 10, 15)])

/-- Bits of the heat record that a command writes: all but STATE, CTRL_PORT, DOMAIN and the reserved ones. -/
def heatWritten : Nat := maskOf [(191, 108), (98, 57)]

/-- RWS and locked fields of the heat record (R234). -/
def heatShadowed : Nat := maskOf [(127, 116), (72, 57)]
def heatLocked : Nat := maskOf [(191, 128), (115, 108), (98, 73)]

/-- A field of a heat record is out of range. -/
def heatBad (f : Func) (r : BitVec 192) : Bool := hResultAddr r % 64 != 0 || decide (vectorsOf f ≤ hVector r)

/-- The record a HEAT_CREATE or HEAT_SET carries. -/
def heatPayload (d : Desc) : BitVec 192 := BitVec.ofNat 192 (byt d.body 8 31 &&& heatWritten)

/-- Row of HEAT_CREATE and HEAT_SET. -/
def rowHeat (opcode : Nat) : HRow :=
  { opcode := opcode, lenOk := fun _ n => n == 32, named := fun _ _ => [(15, 0), (64 + 191, 64 + 57)] }

/-- HEAT_CREATE's own part, in the order of R235. -/
def heatCreate (d : Desc) (s : State) : State × Ans :=
  let k := byt d.body 0 1
  let dom := d.domain.toNat
  let r := rset (rset (heatPayload d) 105 105 d.port.val) 104 99 dom
  failIf (decide (4095 < k)) .badField s <|
  match getM s dom (hModel r), sliceOf s dom with
  | some m, some sl =>
    failIf (s.heats.has k || weightsMissing m) .badState s <|
    failIf (heatBad d.func r) .badField s <|
      match bindCheck s k dom sl (hCourse r) (hSlots r) m.record with
      | some st => (s, .fail st)
      | none =>
        let image := ((s.courses.get? (hCourse r)).map (·.image)).getD 0
        let h : HeatSt := { record := r, func := d.func, selRec := selRecReset }
        match sizeHeat s k h r m.record image with
        | none => (s, .fail .noHeadroom)
        | some (h, _) => (setH s k h, .done (windowResult h))
  | _, _ => (s, .fail .badState)

/-- The row of HEAT_CREATE (R235, R466). -/
def rowHeatCreate : HRow :=
  rowHeat 0x0601

/-- HEAT_CREATE (R235, R466). -/
def execHeatCreate (d : Desc) (s : State) : Res := runHuavo rowHeatCreate heatCreate d s

/-! ## HEAT_SET (R236, R445, R524) -/

/-- A slot from `n` on is occupied. -/
def occupiedFrom (h : HeatSt) (n : Nat) : Bool := h.slots.any fun i x => decide (n ≤ i) && x.seq.isSome

/-- A change of MODEL or SLOTS_M1 that occupied slots forbid (R236). -/
def slotsForbid (h : HeatSt) (r : BitVec 192) : Bool :=
  (hModel r != hModel h.record && occupiedFrom h 0) || occupiedFrom h (hSlots r)

/-- What a HEAT_SET that passed its checks writes. -/
def heatWrite (s : State) (k : Nat) (h : HeatSt) (r : BitVec 192) (moved : Bool) : State × Ans :=
  let h := { h with record := merge h.record r heatLocked, shadow := some r }
  (setH s k h, .done (if moved then windowResult h else 0))

/-- The checks of a change of course, model or slots, and the write. -/
def heatChange (s : State) (k : Nat) (h : HeatSt) (r : BitVec 192) (m : ModelSt) (sl : Nat) : State × Ans :=
  let rebind := hCourse r != hCourse h.record || hModel r != hModel h.record || hSlots r != hSlots h.record
  match (if rebind then bindCheck s k (hDomain r) sl (hCourse r) (hSlots r) m.record else none) with
  | some st => (s, .fail st)
  | none =>
    let image := ((s.courses.get? (hCourse r)).map (·.image)).getD 0
    if !rebind then heatWrite s k h r false
    else
      match sizeHeat s k h r m.record image with
      | none => (s, .fail (if h.state = .stopped then .noHeadroom else .badState))
      | some (h2, moved) => failIf (moved && h.state != .stopped) .badState s (heatWrite s k h2 r moved)

/-- HEAT_SET's own part. -/
def heatSet (d : Desc) (s : State) : State × Ans :=
  let k := byt d.body 0 1
  withObj (heatFor d s k) s fun h =>
    let r := merge h.record (heatPayload d) heatWritten
    failIf (heatBad h.func r) .badField s <|
    failIf (h.state == .stopping || objBusy s (.heat k)) .busy s <|
    failIf (h.state == .running && differ h.record r heatLocked) .busy s <|
    match getM s (hDomain r) (hModel r), sliceOf s (hDomain r) with
    | some m, some sl =>
      failIf (slotsForbid h r || (hModel r != hModel h.record || hCourse r != hCourse h.record) && weightsMissing m) .badState s
        (heatChange s k h r m sl)
    | _, _ => (s, .fail .badState)

/-- The row of HEAT_SET (R236, R466). -/
def rowHeatSet : HRow :=
  rowHeat 0x0602

/-- HEAT_SET (R236, R466). -/
def execHeatSet (d : Desc) (s : State) : Res := runHuavo rowHeatSet heatSet d s

/-! ## HEAT_QUERY, HEAT_START, HEAT_STOP, HEAT_DESTROY (R236) -/

/-- AUX of HEAT_QUERY (R466). -/
def heatAux (h : HeatSt) : Nat :=
  pack [(0, 32, h.expected.toNat), (32, 8, h.layer), (40, 8, h.admitted % hDepth h.record), (48, 1, b2n (decide (0 < h.admitted)))]

/-- The row of HEAT_QUERY. -/
def rowHeatQuery : HRow :=
  fixedRow 0x0603 2 [(0, 1)]

/-- HEAT_QUERY: its own part. -/
def bodyHeatQuery (d : Desc) (s : State) : State × Ans :=
  withObj (heatFor d s (byt d.body 0 1)) s fun h =>
    failIf (h.state == .stopping) .busy s (s, .done ((heatWord h).toNat % 2 ^ 128) (heatAux h))

/-- HEAT_QUERY. -/
def execHeatQuery (d : Desc) (s : State) : Res := runHuavo rowHeatQuery bodyHeatQuery d s

/-- The row of HEAT_START. -/
def rowHeatStart : HRow :=
  fixedRow 0x0604 2 [(0, 1)]

/-- HEAT_START: its own part. -/
def bodyHeatStart (d : Desc) (s : State) : State × Ans :=
  let k := byt d.body 0 1
  withObj (heatFor d s k) s fun h =>
    failIf (h.state == .stopping) .busy s <|
    failIf (h.state != .stopped) .badState s (setH s k { h with state := .running }, .done)

/-- HEAT_START. -/
def execHeatStart (d : Desc) (s : State) : Res := runHuavo rowHeatStart bodyHeatStart d s

/-- HEAT_STOP's own part: a heat stops between decode steps only. -/
def heatStop (d : Desc) (s : State) : State × Ans :=
  let k := byt d.body 0 1
  withObj (heatFor d s k) s fun h =>
    failIf (h.state == .stopping) .busy s <|
    failIf (h.state != .running || h.layer != 0 || h.held.isSome) .badState s <|
      if h.lap.isNone then (setH s k { h with state := .stopped }, .done)
      else (setH s k { h with state := .stopping }, .accept (.heat k))

/-- The row of HEAT_STOP. -/
def rowHeatStop : HRow :=
  fixedRow 0x0605 2 [(0, 1)]

/-- HEAT_STOP. -/
def execHeatStop (d : Desc) (s : State) : Res := runHuavo rowHeatStop heatStop d s

/-- The row of HEAT_DESTROY. -/
def rowHeatDestroy : HRow :=
  fixedRow 0x0606 2 [(0, 1)]

/-- HEAT_DESTROY: its own part. -/
def bodyHeatDestroy (d : Desc) (s : State) : State × Ans :=
  let k := byt d.body 0 1
  withObj (heatFor d s k) s fun h =>
    failIf (h.state == .stopping) .busy s <|
    failIf (h.state != .stopped) .badState s (destroyHeat s k, .done)

/-- HEAT_DESTROY. -/
def execHeatDestroy (d : Desc) (s : State) : Res := runHuavo rowHeatDestroy bodyHeatDestroy d s

/-! ## Courses (R80, R466) -/

/-- COURSE_LOAD's own part: the image is copied, and verification begins. -/
def courseLoad (d : Desc) (s : State) : State × Ans :=
  let n := byt d.body 0 1
  let len := byt d.body 16 19
  let dom := d.domain.toNat
  let begin : State × Ans :=
    failIf (decide (256 ≤ s.courses.size)) .exhausted s <|
      withBuffer s d <|
        let c : CourseSt := { domain := dom, image := hostData d % 2 ^ (8 * len), length := len }
        let s := chargeDram (chargePcie s dom false len) dom true len
        ({ s with courses := s.courses.set n c }, .accept (.course n))
  match s.courses.get? n with
  | none => begin
  | some c =>
    failIf (c.domain != dom) .denied s <|
    failIf (c.state == .verifying) .busy s (s, .fail .badState)

/-- The row of COURSE_LOAD (R80, R466). -/
def rowCourseLoad : HRow :=
  fixedRow 0x0610 20 [(0, 1), (8, 15), (16, 19)]

/-- COURSE_LOAD (R80, R466). -/
def execCourseLoad (d : Desc) (s : State) : Res := runHuavo rowCourseLoad courseLoad d s

/-- Verification ends: the course is LOADED, or EMPTY with the report of R79. -/
def verifyDone (s : State) (n : Nat) : State :=
  match s.courses.get? n with
  | none => s
  | some c =>
    if c.state ≠ .verifying then s
    else
      let mine := fun (g : Flight) => g.key == .course n && g.opcode == 0x0610
      match verifyCourse c.image c.length with
      | none =>
        let c : CourseSt := { c with state := .loaded, digest := BitVec.ofNat 384 (imgBytes c.image (c.length - 48) 48) }
        finishWhere { s with courses := s.courses.set n c } mine .ok 0 0
      | some r =>
        finishWhere { s with courses := s.courses.erase n } mine (if r.rule = 2 then .authFail else .badField) (rejectionWord r) 0

/-- COURSE_VERIFY_DONE (R79, R80). -/
def execCourseVerifyDone (course now : Nat) (s : State) : Res := .next (verifyDone (clockTo s now) course)

/-- COURSE_UNLOAD's own part. -/
def courseUnload (d : Desc) (s : State) : State × Ans :=
  let n := byt d.body 0 1
  withObj (courseFor d s n) s fun c =>
    failIf (c.state == .verifying) .busy s <|
    failIf (decide (0 < bindCount s n)) .badState s ({ s with courses := s.courses.erase n }, .done)

/-- The row of COURSE_UNLOAD (R80, R466). -/
def rowCourseUnload : HRow :=
  fixedRow 0x0611 2 [(0, 1)]

/-- COURSE_UNLOAD (R80, R466). -/
def execCourseUnload (d : Desc) (s : State) : Res := runHuavo rowCourseUnload courseUnload d s

/-- STATE of a course: 0 EMPTY, 1 VERIFYING, 2 LOADED. -/
def courseCode (c : CourseSt) : Nat := match c.state with | .verifying => 1 | .loaded => 2

/-- COURSE_QUERY's own part. What an EMPTY course writes is open (assumption 3). -/
def courseQuery (d : Desc) (s : State) : State × Ans :=
  let n := byt d.body 0 1
  let out := byt d.body 8 15
  match s.courses.get? n with
  | none => failIf (!outOk out) .badField s (useFree s, .done 0 0 out 176 (freeWords s 3 22))
  | some c =>
    failIf (d.domain != 0 && c.domain != d.domain.toNat) .denied s <|
    failIf (!outOk out) .badField s <|
      (s, .done (courseCode c + 2 ^ 16 * (bindCount s n % 2 ^ 16)) 0 out 176
        (c.image % 2 ^ 1024 + 2 ^ 1024 * imgBytes c.image (c.length - 48) 48))

/-- The row of COURSE_QUERY (R466). -/
def rowCourseQuery : HRow :=
  fixedRow 0x0612 16 [(0, 1), (8, 15)]

/-- COURSE_QUERY (R466). -/
def execCourseQuery (d : Desc) (s : State) : Res := runHuavo rowCourseQuery courseQuery d s

end Sys2Proof.Machine
end

