-- ==== Sys2Proof/Machine/Dispatch.lean ====
section
/-! DEFINITION. One arm for each command: a direct call of its meaning. -/

namespace Sys2Proof.Machine

/-- The effect of a command on everything but the queue. -/
def exec (i : Instr) (s : State) : Host.Outcome State Fault Refusal :=
  match i with
  | .porAssert cycles => Sys2Proof.Machine.execPorAssert cycles s
  | .porRelease testMode refMode0 refMode1 => Sys2Proof.Machine.execPorRelease testMode refMode0 refMode1 s
  | .crystalStable cycles => Sys2Proof.Machine.execCrystalStable cycles s
  | .referencePresent ref cycles ppm => Sys2Proof.Machine.execReferencePresent ref cycles ppm s
  | .pllLocked pll cycles => Sys2Proof.Machine.execPllLocked pll cycles s
  | .pllLockTimeout pll => Sys2Proof.Machine.execPllLockTimeout pll s
  | .selftestComplete failed flash => Sys2Proof.Machine.execSelftestComplete failed flash s
  | .calWindowTimeout elapsedUs => Sys2Proof.Machine.execCalWindowTimeout elapsedUs s
  | .dramTrainingDone results identityOk => Sys2Proof.Machine.execDramTrainingDone results identityOk s
  | .warmReset cycles => Sys2Proof.Machine.execWarmReset cycles s
  | .portConventionalReset p => Sys2Proof.Machine.execPortConventionalReset p s
  | .functionLevelReset p f => Sys2Proof.Machine.execFunctionLevelReset p f s
  | .pllLockLost pll => Sys2Proof.Machine.execPllLockLost pll s
  | .railOutOfRange rail deviation us => Sys2Proof.Machine.execRailOutOfRange rail deviation us s
  | .railRecovered us => Sys2Proof.Machine.execRailRecovered us s
  | .thermalSample now temps => Sys2Proof.Machine.execThermalSample now temps s
  | .thermalTrip sensor temp => Sys2Proof.Machine.execThermalTrip sensor temp s
  | .cclkSwitch cl => Sys2Proof.Machine.execCclkSwitch cl s
  | .cclkSwitchDone cl => Sys2Proof.Machine.execCclkSwitchDone cl s
  | .jtagExtest => Sys2Proof.Machine.execJtagExtest s
  | .jtagInstruction ins => Sys2Proof.Machine.execJtagInstruction ins s
  | .marginSample src value flagged => Sys2Proof.Machine.execMarginSample src value flagged s
  | .epochBoundary now measuredNj => Sys2Proof.Machine.execEpochBoundary now measuredNj s
  | .flushPoint now => Sys2Proof.Machine.execFlushPoint now s
  | .partnerSilenceTimeout now => Sys2Proof.Machine.execPartnerSilenceTimeout now s
  | .ptpMessage p now msg => Sys2Proof.Machine.execPtpMessage p now msg s
  | .announceTimeout now => Sys2Proof.Machine.execAnnounceTimeout now s
  | .holdoverDriftWarning now driftNs => Sys2Proof.Machine.execHoldoverDriftWarning now driftNs s
  | .timeReadLatch p f size => Sys2Proof.Machine.execTimeReadLatch p f size s
  | .stepRowWrite p f off len data => Sys2Proof.Machine.execStepRowWrite p f off len data s
  | .stepMark p f now slotHeat size value => Sys2Proof.Machine.execStepMark p f now slotHeat size value s
  | .lapStart heat cl now wait => Sys2Proof.Machine.execLapStart heat cl now wait s
  | .mxeAtt u => Sys2Proof.Machine.execMxeAtt u s
  | .mxeMm u => Sys2Proof.Machine.execMxeMm u s
  | .vecSmx u => Sys2Proof.Machine.execVecSmx u s
  | .vecCvt u => Sys2Proof.Machine.execVecCvt u s
  | .vecRot u => Sys2Proof.Machine.execVecRot u s
  | .vecNrm u => Sys2Proof.Machine.execVecNrm u s
  | .vecFin u => Sys2Proof.Machine.execVecFin u s
  | .vecMrg u => Sys2Proof.Machine.execVecMrg u s
  | .expPage u => Sys2Proof.Machine.execExpPage u s
  | .qenApp u => Sys2Proof.Machine.execQenApp u s
  | .qenSeal u => Sys2Proof.Machine.execQenSeal u s
  | .selReq u => Sys2Proof.Machine.execSelReq u s
  | .selTake u => Sys2Proof.Machine.execSelTake u s
  | .netBtn u => Sys2Proof.Machine.execNetBtn u s
  | .chnRd u linkFailures authOk => Sys2Proof.Machine.execChnRd u linkFailures authOk s
  | .chnWr u linkFailures => Sys2Proof.Machine.execChnWr u linkFailures s
  | .marHurdle u inserted => Sys2Proof.Machine.execMarHurdle u inserted s
  | .marEnd u inserted => Sys2Proof.Machine.execMarEnd u inserted s
  | .pageFaultResolved heat cl excluded now => Sys2Proof.Machine.execPageFaultResolved heat cl excluded now s
  | .lapEnd heat now => Sys2Proof.Machine.execLapEnd heat now s
  | .relayFold heat now => Sys2Proof.Machine.execRelayFold heat now s
  | .selectorQuery cl now => Sys2Proof.Machine.execSelectorQuery cl now s
  | .recallAudit cl => Sys2Proof.Machine.execRecallAudit cl s
  | .auditAbandon cl => Sys2Proof.Machine.execAuditAbandon cl s
  | .indexBuild seq layer group => Sys2Proof.Machine.execIndexBuild seq layer group s
  | .indexBuildComplete seq layer group room => Sys2Proof.Machine.execIndexBuildComplete seq layer group room s
  | .poolRefill slice ch frames => Sys2Proof.Machine.execPoolRefill slice ch frames s
  | .frameReclaim frame => Sys2Proof.Machine.execFrameReclaim frame s
  | .frameTest frame pass => Sys2Proof.Machine.execFrameTest frame pass s
  | .frameCopyCommit src => Sys2Proof.Machine.execFrameCopyCommit src s
  | .pageRepair frame now => Sys2Proof.Machine.execPageRepair frame now s
  | .reopenCopy frame streamOk => Sys2Proof.Machine.execReopenCopy frame streamOk s
  | .truncateCommit seq now => Sys2Proof.Machine.execTruncateCommit seq now s
  | .collectionFrameRenewal frame => Sys2Proof.Machine.execCollectionFrameRenewal frame s
  | .metadataRekey => Sys2Proof.Machine.execMetadataRekey s
  | .nodePublication seq => Sys2Proof.Machine.execNodePublication seq s
  | .dominoShift bank => Sys2Proof.Machine.execDominoShift bank s
  | .rowRecordRelease record => Sys2Proof.Machine.execRowRecordRelease record s
  | .rowOpGroup ch => Sys2Proof.Machine.execRowOpGroup ch s
  | .refreshWindow ch => Sys2Proof.Machine.execRefreshWindow ch s
  | .dramRetrainPass ch eyeRd eyeWr levelMv refMult => Sys2Proof.Machine.execDramRetrainPass ch eyeRd eyeWr levelMv refMult s
  | .dmaFaultResolved mover abandon now => Sys2Proof.Machine.execDmaFaultResolved mover abandon now s
  | .dmaNoRoomTimeout mover now => Sys2Proof.Machine.execDmaNoRoomTimeout mover now s
  | .pcieCompletionTimeout mover p f waitedUs now => Sys2Proof.Machine.execPcieCompletionTimeout mover p f waitedUs now s
  | .diePersistentFailure unit => Sys2Proof.Machine.execDiePersistentFailure unit s
  | .leaseExpiry seq now => Sys2Proof.Machine.execLeaseExpiry seq now s
  | .handoffDeadline seq now => Sys2Proof.Machine.execHandoffDeadline seq now s
  | .forwardTimeout corr now => Sys2Proof.Machine.execForwardTimeout corr now s
  | .mergeTimeout domain coll queryId now => Sys2Proof.Machine.execMergeTimeout domain coll queryId now s
  | .pskExpiry hint now => Sys2Proof.Machine.execPskExpiry hint now s
  | .sessionIdleTimeout session now => Sys2Proof.Machine.execSessionIdleTimeout session now s
  | .promotion failed seq now => Sys2Proof.Machine.execPromotion failed seq now s
  | .reseed partner now => Sys2Proof.Machine.execReseed partner now s
  | .spillRequest seq now => Sys2Proof.Machine.execSpillRequest seq now s
  | .migration heat seq group now => Sys2Proof.Machine.execMigration heat seq group now s
  | .sliceDrainComplete slice now => Sys2Proof.Machine.execSliceDrainComplete slice now s
  | .domainResetContinue domain now => Sys2Proof.Machine.execDomainResetContinue domain now s
  | .courseVerifyDone course now => Sys2Proof.Machine.execCourseVerifyDone course now s
  | .cryptoEraseDone fuseOk => Sys2Proof.Machine.execCryptoEraseDone fuseOk s
  | .revokeDrained index now => Sys2Proof.Machine.execRevokeDrained index now s
  | .ethFrameReceived fr => Sys2Proof.Machine.execEthFrameReceived fr s
  | .ethLinkDown p => Sys2Proof.Machine.execEthLinkDown p s
  | .ethLinkUp p => Sys2Proof.Machine.execEthLinkUp p s
  | .coriskanoPacket k => Sys2Proof.Machine.execCoriskanoPacket k s
  | .read m => Sys2Proof.Machine.execRead m s
  | .readResp m => Sys2Proof.Machine.execReadResp m s
  | .send m => Sys2Proof.Machine.execSend m s
  | .atomic m => Sys2Proof.Machine.execAtomic m s
  | .atomicResp m => Sys2Proof.Machine.execAtomicResp m s
  | .flush m => Sys2Proof.Machine.execFlush m s
  | .flushResp m => Sys2Proof.Machine.execFlushResp m s
  | .trigger m => Sys2Proof.Machine.execTrigger m s
  | .baton m => Sys2Proof.Machine.execBaton m s
  | .selectMerge m => Sys2Proof.Machine.execSelectMerge m s
  | .pageMove m => Sys2Proof.Machine.execPageMove m s
  | .pageReplicate m => Sys2Proof.Machine.execPageReplicate m s
  | .ack k => Sys2Proof.Machine.execAck k s
  | .nack k => Sys2Proof.Machine.execNack k s
  | .ackDelayTimer m => Sys2Proof.Machine.execAckDelayTimer m s
  | .retxTimeout m => Sys2Proof.Machine.execRetxTimeout m s
  | .rnrRetryTimeout m => Sys2Proof.Machine.execRnrRetryTimeout m s
  | .reasmIdleTimeout m => Sys2Proof.Machine.execReasmIdleTimeout m s
  | .mgmtSkipTimeout peer now => Sys2Proof.Machine.execMgmtSkipTimeout peer now s
  | .mgmtReplyTimeout corr now => Sys2Proof.Machine.execMgmtReplyTimeout corr now s
  | .calendarSlot now => Sys2Proof.Machine.execCalendarSlot now s
  | .egressFrameStart p now => Sys2Proof.Machine.execEgressFrameStart p now s
  | .workRequestSend queue now data => Sys2Proof.Machine.execWorkRequestSend queue now data s
  | .capReport m => Sys2Proof.Machine.execCapReport m s
  | .stripeReq m => Sys2Proof.Machine.execStripeReq m s
  | .stripeReply m => Sys2Proof.Machine.execStripeReply m s
  | .heartbeat m => Sys2Proof.Machine.execHeartbeat m s
  | .failNotice m => Sys2Proof.Machine.execFailNotice m s
  | .failAck m => Sys2Proof.Machine.execFailAck m s
  | .cmdForward m => Sys2Proof.Machine.execCmdForward m s
  | .cmdAnswer m => Sys2Proof.Machine.execCmdAnswer m s
  | .leaseRenew m => Sys2Proof.Machine.execLeaseRenew m s
  | .pairReq m => Sys2Proof.Machine.execPairReq m s
  | .pairReply m => Sys2Proof.Machine.execPairReply m s
  | .heldReport m => Sys2Proof.Machine.execHeldReport m s
  | .replDegraded m => Sys2Proof.Machine.execReplDegraded m s
  | .recordRepl m => Sys2Proof.Machine.execRecordRepl m s
  | .mapUpdate m => Sys2Proof.Machine.execMapUpdate m s
  | .seqLost m => Sys2Proof.Machine.execSeqLost m s
  | .seqRelease m => Sys2Proof.Machine.execSeqRelease m s
  | .ackRelease m => Sys2Proof.Machine.execAckRelease m s
  | .keyExchange p now requester => Sys2Proof.Machine.execKeyExchange p now requester s
  | .finish p now session rsaOk slhOk => Sys2Proof.Machine.execFinish p now session rsaOk slhOk s
  | .kemExchange p now session ciphertext => Sys2Proof.Machine.execKemExchange p now session ciphertext s
  | .pskExchange p now hint => Sys2Proof.Machine.execPskExchange p now hint s
  | .altSig p now supply => Sys2Proof.Machine.execAltSig p now supply s
  | .getCertificate p slot => Sys2Proof.Machine.execGetCertificate p slot s
  | .challenge p slot => Sys2Proof.Machine.execChallenge p slot s
  | .getMeasurements p now session index => Sys2Proof.Machine.execGetMeasurements p now session index s
  | .ideKm p now session stream key => Sys2Proof.Machine.execIdeKm p now session stream key s
  | .lockInterface p f now session => Sys2Proof.Machine.execLockInterface p f now session s
  | .pldmSetEffecter e => Sys2Proof.Machine.execPldmSetEffecter e s
  | .pldmReadSensor o => Sys2Proof.Machine.execPldmReadSensor o s
  | .cmdTailWrite p f now value odd => Sys2Proof.Machine.execCmdTailWrite p f now value odd s
  | .ringEnable p f value => Sys2Proof.Machine.execRingEnable p f value s
  | .ringDisable p f value => Sys2Proof.Machine.execRingDisable p f value s
  | .intCtrlWrite p f value => Sys2Proof.Machine.execIntCtrlWrite p f value s
  | .interruptHoldoffExpiry p f vector now => Sys2Proof.Machine.execInterruptHoldoffExpiry p f vector now s
  | .msixUnmask p f vector mask => Sys2Proof.Machine.execMsixUnmask p f vector mask s
  | .registerWrite p f off size value => Sys2Proof.Machine.execRegisterWrite p f off size value s
  | .queueDbSqTail p f now size value wrs => Sys2Proof.Machine.execQueueDbSqTail p f now size value wrs s
  | .queueDbRqTail p f now size value wrs => Sys2Proof.Machine.execQueueDbRqTail p f now size value wrs s
  | .queueDbCqHead p f now size value => Sys2Proof.Machine.execQueueDbCqHead p f now size value s
  | .queueDbCqArm p f now size value => Sys2Proof.Machine.execQueueDbCqArm p f now size value s
  | .bulkWindowRead p off len linkFailures => Sys2Proof.Machine.execBulkWindowRead p off len linkFailures s
  | .bulkWindowWrite p off len data => Sys2Proof.Machine.execBulkWindowWrite p off len data s
  | .deviceQuery d => Sys2Proof.Machine.execDeviceQuery d s
  | .funcAssign d => Sys2Proof.Machine.execFuncAssign d s
  | .funcUnassign d => Sys2Proof.Machine.execFuncUnassign d s
  | .timeConfig d => Sys2Proof.Machine.execTimeConfig d s
  | .powerLimit d => Sys2Proof.Machine.execPowerLimit d s
  | .ctrlTransfer d => Sys2Proof.Machine.execCtrlTransfer d s
  | .ctrlTake d => Sys2Proof.Machine.execCtrlTake d s
  | .secStatus d => Sys2Proof.Machine.execSecStatus d s
  | .selftest d => Sys2Proof.Machine.execSelftest d s
  | .lcNonce d => Sys2Proof.Machine.execLcNonce d s
  | .lcProvision d => Sys2Proof.Machine.execLcProvision d s
  | .lcOperate d => Sys2Proof.Machine.execLcOperate d s
  | .ownerRotate d => Sys2Proof.Machine.execOwnerRotate d s
  | .lcReturn d => Sys2Proof.Machine.execLcReturn d s
  | .lcScrap d => Sys2Proof.Machine.execLcScrap d s
  | .zeroise d => Sys2Proof.Machine.execZeroise d s
  | .debugOpen d => Sys2Proof.Machine.execDebugOpen d s
  | .domainCreate d => Sys2Proof.Machine.execDomainCreate d s
  | .domainReset d => Sys2Proof.Machine.execDomainReset d s
  | .domainDestroy d => Sys2Proof.Machine.execDomainDestroy d s
  | .domainQuery d => Sys2Proof.Machine.execDomainQuery d s
  | .sliceCreate d => Sys2Proof.Machine.execSliceCreate d s
  | .sliceModify d => Sys2Proof.Machine.execSliceModify d s
  | .sliceDestroy d => Sys2Proof.Machine.execSliceDestroy d s
  | .sliceQuery d => Sys2Proof.Machine.execSliceQuery d s
  | .shareSet d => Sys2Proof.Machine.execShareSet d s
  | .arbSet d => Sys2Proof.Machine.execArbSet d s
  | .modelRegister d => Sys2Proof.Machine.execModelRegister d s
  | .modelUnregister d => Sys2Proof.Machine.execModelUnregister d s
  | .modelQuery d => Sys2Proof.Machine.execModelQuery d s
  | .weightKeyInstall d => Sys2Proof.Machine.execWeightKeyInstall d s
  | .weightLoad d => Sys2Proof.Machine.execWeightLoad d s
  | .weightUnload d => Sys2Proof.Machine.execWeightUnload d s
  | .memConfig d => Sys2Proof.Machine.execMemConfig d s
  | .seqCreate d => Sys2Proof.Machine.execSeqCreate d s
  | .seqFree d => Sys2Proof.Machine.execSeqFree d s
  | .seqTruncate d => Sys2Proof.Machine.execSeqTruncate d s
  | .seqQuery d => Sys2Proof.Machine.execSeqQuery d s
  | .seqGlobal d => Sys2Proof.Machine.execSeqGlobal d s
  | .frameQuery d => Sys2Proof.Machine.execFrameQuery d s
  | .heatCreate d => Sys2Proof.Machine.execHeatCreate d s
  | .heatSet d => Sys2Proof.Machine.execHeatSet d s
  | .heatQuery d => Sys2Proof.Machine.execHeatQuery d s
  | .heatStart d => Sys2Proof.Machine.execHeatStart d s
  | .heatStop d => Sys2Proof.Machine.execHeatStop d s
  | .heatDestroy d => Sys2Proof.Machine.execHeatDestroy d s
  | .courseLoad d => Sys2Proof.Machine.execCourseLoad d s
  | .courseUnload d => Sys2Proof.Machine.execCourseUnload d s
  | .courseQuery d => Sys2Proof.Machine.execCourseQuery d s
  | .prefixSearch d => Sys2Proof.Machine.execPrefixSearch d s
  | .prefixAttach d => Sys2Proof.Machine.execPrefixAttach d s
  | .prefixPublish d => Sys2Proof.Machine.execPrefixPublish d s
  | .prefixRetract d => Sys2Proof.Machine.execPrefixRetract d s
  | .prefixBulkLoad d => Sys2Proof.Machine.execPrefixBulkLoad d s
  | .prefixStats d => Sys2Proof.Machine.execPrefixStats d s
  | .selHeatSet d => Sys2Proof.Machine.execSelHeatSet d s
  | .selRebuild d => Sys2Proof.Machine.execSelRebuild d s
  | .filterBind d => Sys2Proof.Machine.execFilterBind d s
  | .filterUnbind d => Sys2Proof.Machine.execFilterUnbind d s
  | .auditRead d => Sys2Proof.Machine.execAuditRead d s
  | .collCreate d => Sys2Proof.Machine.execCollCreate d s
  | .collDestroy d => Sys2Proof.Machine.execCollDestroy d s
  | .collInsert d => Sys2Proof.Machine.execCollInsert d s
  | .collDelete d => Sys2Proof.Machine.execCollDelete d s
  | .collQuery d => Sys2Proof.Machine.execCollQuery d s
  | .netConfigPort d => Sys2Proof.Machine.execNetConfigPort d s
  | .netConfigAddresses d => Sys2Proof.Machine.execNetConfigAddresses d s
  | .netConfigLocality d => Sys2Proof.Machine.execNetConfigLocality d s
  | .pdCreate d => Sys2Proof.Machine.execPdCreate d s
  | .pdDestroy d => Sys2Proof.Machine.execPdDestroy d s
  | .regionRegister d => Sys2Proof.Machine.execRegionRegister d s
  | .regionRevoke d => Sys2Proof.Machine.execRegionRevoke d s
  | .queueCreate d => Sys2Proof.Machine.execQueueCreate d s
  | .queueModify d => Sys2Proof.Machine.execQueueModify d s
  | .queueReset d => Sys2Proof.Machine.execQueueReset d s
  | .queueDestroy d => Sys2Proof.Machine.execQueueDestroy d s
  | .cqCreate d => Sys2Proof.Machine.execCqCreate d s
  | .cqDestroy d => Sys2Proof.Machine.execCqDestroy d s
  | .shaperSet d => Sys2Proof.Machine.execShaperSet d s
  | .domainNetSet d => Sys2Proof.Machine.execDomainNetSet d s
  | .jobKeyInstall d => Sys2Proof.Machine.execJobKeyInstall d s
  | .placeConfig d => Sys2Proof.Machine.execPlaceConfig d s
  | .replQuery d => Sys2Proof.Machine.execReplQuery d s
  | .ownQuery d => Sys2Proof.Machine.execOwnQuery d s
  | .ownOffer d => Sys2Proof.Machine.execOwnOffer d s
  | .ownAccept d => Sys2Proof.Machine.execOwnAccept d s
  | .ownCommit d => Sys2Proof.Machine.execOwnCommit d s
  | .ownClaim d => Sys2Proof.Machine.execOwnClaim d s
  | .fence d => Sys2Proof.Machine.execFence d s
  | .rowOp d => Sys2Proof.Machine.execRowOp d s
  | .acctRead d => Sys2Proof.Machine.execAcctRead d s
  | .counterRead d => Sys2Proof.Machine.execCounterRead d s
  | .marginConfig d => Sys2Proof.Machine.execMarginConfig d s
  | .dramConfig d => Sys2Proof.Machine.execDramConfig d s
  | .dramStatus d => Sys2Proof.Machine.execDramStatus d s
  | .calLoad d => Sys2Proof.Machine.execCalLoad d s
  | .calQuery d => Sys2Proof.Machine.execCalQuery d s
  | .pcieLinkUp p width gtps => Sys2Proof.Machine.execPcieLinkUp p width gtps s
  | .getVersion p => Sys2Proof.Machine.execGetVersion p s
  | .negotiateAlgorithms p offer => Sys2Proof.Machine.execNegotiateAlgorithms p offer s
  | .endSession p now session => Sys2Proof.Machine.execEndSession p now session s
  | .stopInterface p f toError => Sys2Proof.Machine.execStopInterface p f toError s
  | .recordWalkDone seq now => Sys2Proof.Machine.execRecordWalkDone seq now s
  | .metadataRekeyDone => Sys2Proof.Machine.execMetadataRekeyDone s

end Sys2Proof.Machine
end

