-- ==== Sys2Proof/Machine/Step.lean ====
section
/-! DEFINITION. One step of the node: the command at the front of its queue, or one TCLK cycle of the time base. -/

namespace Sys2Proof.Machine

/-- The queue without its front command. -/
def State.rest (s : State) : State := { s with pending := s.pending.tail }

/-- One step: the front command runs over the rest of the queue; on an empty queue one TCLK cycle passes (R35,
assumption 1). -/
def step (s : State) : Host.Outcome State Fault Refusal :=
  match s.pending with
  | [] => .next (tclkCycle s)
  | c :: _ => exec c s.rest

/-- The command that a table word spells, put at the front of the queue; no word spells one (`decodeTableWord`). -/
def State.withFetchWord (s : State) (nbits w : Nat) : State :=
  match decodeTableWord nbits w with
  | some c => { s with pending := c :: s.pending }
  | none => s

end Sys2Proof.Machine
end

