-- ==== Sys2Proof/WellFormed.lean ====
section
/-! DEFINITION. Well-formed commands: every operand fits the field that carries it from outside the node. A command that
is not well-formed cannot arrive. -/

namespace Sys2Proof

/-- A number fits a field of `w` bits. -/
def fits (w x : Nat) : Bool := decide (x < 2 ^ w)

/-- A register access moves 1 to 8 bytes; sizes other than 4 and 8 arrive and have no effect (R426). -/
def accessOk (n : Nat) : Bool := decide (1 ≤ n ∧ n ≤ 8)

/-- A descriptor (R435): its payload is LENGTH bytes. -/
def Desc.wf (d : Desc) : Bool := fits 64 d.now && fits (8 * d.length.toNat) d.body && fits 32 d.session && d.node.all (fits 12)

/-- A micro-operation of a heat (R234). -/
def Uop.wf (u : Uop) : Bool := fits 12 u.heat

/-- A management message (R348): its bytes are there. -/
def Mgmt.wf (m : Mgmt) : Bool :=
  fits 12 m.src && fits 64 m.now && fits 8 m.mver && fits 32 m.bodyLen && fits 32 m.corr && fits (8 * m.msgLen) m.body

/-- A packet's header fields (R299), its extensions and its payload of at most 4,096 bytes (R298). -/
def Packet.wf (k : Packet) : Bool :=
  fits 64 k.now && fits 128 k.ipSrc && fits 48 k.addr && fits 32 k.regionKey && fits 25 k.totalLen && fits 24 k.offset
    && fits 32 k.msgId && fits 16 k.srcQueue && fits 16 k.dstQueue && fits 12 k.srcNode && fits 6 k.domain && fits 6 k.extLen
    && fits 16 k.partition && fits 5 k.op && fits 4 k.txn && fits 2 k.atop && fits 4 k.version
    && fits (128 * k.extLen) k.ext && fits (8 * k.payLen) k.payload

/-- A message on a work queue (R329). -/
def MsgRef.wf (m : MsgRef) : Bool := fits 32 m.msgId && fits 64 m.now

/-- A work request's fields (R309). -/
def WorkRequest.wf (w : WorkRequest) : Bool :=
  fits 64 w.wrId && fits 64 w.localAddr && fits 48 w.remoteAddr && fits 32 w.remoteKey && fits 32 w.localKey && fits 25 w.length
    && fits 32 w.tag && fits 8 w.count && fits 64 w.operand && fits 64 w.compare && fits 4 w.op

/-- A frame on an Ethernet port (R293). -/
def EthFrame.wf (f : EthFrame) : Bool :=
  fits 64 f.now && fits 16 f.etherType && fits 48 f.dstMac && fits 8 f.nextHeader && fits 128 f.dstIp && fits 16 f.udpDst

/-- Every operand of the command is in range: identifiers as R8 gives them, link rates as R421 does (2 stands for
2.5 GT/s). -/
def Instr.wf : Instr → Bool
  | .porAssert _ => true
  | .porRelease _ _ _ => true
  | .crystalStable _ => true
  | .referencePresent _ _ _ => true
  | .pllLocked _ _ => true
  | .pllLockTimeout _ => true
  | .selftestComplete _ flash => fits 4096 flash.record
  | .calWindowTimeout _ => true
  | .dramTrainingDone results _ => results.length == 20 && results.all fun r => decide (r.density < 4)
  | .warmReset _ => true
  | .portConventionalReset _ => true
  | .functionLevelReset _ _ => true
  | .pllLockLost _ => true
  | .railOutOfRange _ _ _ => true
  | .railRecovered _ => true
  | .thermalSample now temps => fits 64 now && temps.length == 24
  | .thermalTrip _ _ => true
  | .cclkSwitch _ => true
  | .cclkSwitchDone _ => true
  | .jtagExtest => true
  | .jtagInstruction _ => true
  | .marginSample _ _ _ => true
  | .epochBoundary now _ => fits 64 now
  | .flushPoint now => fits 64 now
  | .partnerSilenceTimeout now => fits 64 now
  | .ptpMessage _ now _ => fits 64 now
  | .announceTimeout now => fits 64 now
  | .holdoverDriftWarning now _ => fits 64 now
  | .timeReadLatch _ _ size => accessOk size
  | .stepRowWrite _ _ off len data => decide (off + len ≤ 2 ^ 32) && fits (8 * len) data
  | .stepMark _ _ now slotHeat size _ => fits 64 now && fits 12 slotHeat && accessOk size
  | .lapStart heat _ now _ => fits 12 heat && fits 64 now
  | .mxeAtt u => u.wf
  | .mxeMm u => u.wf
  | .vecSmx u => u.wf
  | .vecCvt u => u.wf
  | .vecRot u => u.wf
  | .vecNrm u => u.wf
  | .vecFin u => u.wf
  | .vecMrg u => u.wf
  | .expPage u => u.wf
  | .qenApp u => u.wf
  | .qenSeal u => u.wf
  | .selReq u => u.wf
  | .selTake u => u.wf
  | .netBtn u => u.wf
  | .chnRd u _ _ => u.wf
  | .chnWr u _ => u.wf
  | .marHurdle u _ => u.wf
  | .marEnd u _ => u.wf
  | .pageFaultResolved heat _ _ now => fits 12 heat && fits 64 now
  | .lapEnd heat now => fits 12 heat && fits 64 now
  | .relayFold heat now => fits 12 heat && fits 64 now
  | .selectorQuery _ now => fits 64 now
  | .recallAudit _ => true
  | .auditAbandon _ => true
  | .indexBuild seq layer group => fits 48 seq && decide (layer < 256) && decide (group < 64)
  | .indexBuildComplete seq layer group _ => fits 48 seq && decide (layer < 256) && decide (group < 64)
  | .poolRefill slice _ frames => decide (slice < 32) && frames.all (fits 24)
  | .frameReclaim frame => fits 24 frame
  | .frameTest frame _ => fits 24 frame
  | .frameCopyCommit src => fits 24 src
  | .pageRepair frame now => fits 24 frame && fits 64 now
  | .reopenCopy frame _ => fits 24 frame
  | .truncateCommit seq now => fits 48 seq && fits 64 now
  | .collectionFrameRenewal frame => fits 24 frame
  | .metadataRekey => true
  | .nodePublication seq => fits 48 seq
  | .dominoShift _ => true
  | .rowRecordRelease record => fits 32 record
  | .rowOpGroup _ => true
  | .refreshWindow _ => true
  | .dramRetrainPass _ _ _ _ _ => true
  | .dmaFaultResolved _ _ now => fits 64 now
  | .dmaNoRoomTimeout _ now => fits 64 now
  | .pcieCompletionTimeout _ _ _ _ now => fits 64 now
  | .diePersistentFailure unit => fits 8 unit
  | .leaseExpiry seq now => fits 48 seq && fits 64 now
  | .handoffDeadline seq now => fits 48 seq && fits 64 now
  | .forwardTimeout corr now => fits 32 corr && fits 64 now
  | .mergeTimeout domain coll queryId now => decide (domain < 64) && fits 8 coll && fits 32 queryId && fits 64 now
  | .pskExpiry hint now => fits 128 hint && fits 64 now
  | .sessionIdleTimeout session now => fits 32 session && fits 64 now
  | .promotion failed seq now => fits 48 seq && fits 64 now && fits 12 failed
  | .reseed partner now => fits 12 partner && fits 64 now
  | .spillRequest seq now => fits 48 seq && fits 64 now
  | .migration heat seq group now => fits 12 heat && fits 48 seq && decide (group < 64) && fits 64 now
  | .sliceDrainComplete slice now => decide (slice < 32) && fits 64 now
  | .domainResetContinue domain now => decide (domain < 64) && fits 64 now
  | .courseVerifyDone course now => fits 16 course && fits 64 now
  | .cryptoEraseDone _ => true
  | .revokeDrained index now => fits 18 index && fits 64 now
  | .ethFrameReceived fr => fr.wf
  | .ethLinkDown _ => true
  | .ethLinkUp _ => true
  | .coriskanoPacket k => k.wf
  | .read m => m.wf
  | .readResp m => m.wf
  | .send m => m.wf
  | .atomic m => m.wf
  | .atomicResp m => m.wf
  | .flush m => m.wf
  | .flushResp m => m.wf
  | .trigger m => m.wf
  | .baton m => m.wf
  | .selectMerge m => m.wf
  | .pageMove m => m.wf
  | .pageReplicate m => m.wf
  | .ack k => k.wf
  | .nack k => k.wf
  | .ackDelayTimer m => m.wf
  | .retxTimeout m => m.wf
  | .rnrRetryTimeout m => m.wf
  | .reasmIdleTimeout m => m.wf
  | .mgmtSkipTimeout peer now => fits 12 peer && fits 64 now
  | .mgmtReplyTimeout corr now => fits 32 corr && fits 64 now
  | .calendarSlot now => fits 64 now
  | .egressFrameStart _ now => fits 64 now
  | .workRequestSend queue now _ => fits 16 queue && fits 64 now
  | .capReport m => m.wf
  | .stripeReq m => m.wf
  | .stripeReply m => m.wf
  | .heartbeat m => m.wf
  | .failNotice m => m.wf
  | .failAck m => m.wf
  | .cmdForward m => m.wf
  | .cmdAnswer m => m.wf
  | .leaseRenew m => m.wf
  | .pairReq m => m.wf
  | .pairReply m => m.wf
  | .heldReport m => m.wf
  | .replDegraded m => m.wf
  | .recordRepl m => m.wf
  | .mapUpdate m => m.wf
  | .seqLost m => m.wf
  | .seqRelease m => m.wf
  | .ackRelease m => m.wf
  | .keyExchange _ now requester => fits 64 now && fits 384 requester
  | .finish _ now session _ _ => fits 64 now && fits 32 session
  | .kemExchange _ now session _ => fits 64 now && fits 32 session
  | .pskExchange _ now hint => fits 64 now && fits 128 hint
  | .altSig _ now _ => fits 64 now
  | .getCertificate _ slot => fits 8 slot
  | .challenge _ slot => fits 8 slot
  | .getMeasurements _ now session index => fits 64 now && fits 8 index && session.all (fits 32)
  | .ideKm _ now session stream _ => fits 64 now && fits 32 session && fits 8 stream
  | .lockInterface _ _ now session => fits 64 now && fits 32 session
  | .pldmSetEffecter _ => true
  | .pldmReadSensor _ => true
  | .cmdTailWrite _ _ now _ odd => fits 64 now && odd.all fun o => o.desc.wf
  | .ringEnable _ _ _ => true
  | .ringDisable _ _ _ => true
  | .intCtrlWrite _ _ _ => true
  | .interruptHoldoffExpiry _ _ vector now => decide (vector < 2048) && fits 64 now
  | .msixUnmask _ _ vector _ => vector.all fun v => decide (v < 2048)
  | .registerWrite _ _ off size _ => accessOk size && fits 20 off
  | .queueDbSqTail _ _ now size _ wrs => fits 64 now && accessOk size && wrs.all WorkRequest.wf
  | .queueDbRqTail _ _ now size _ wrs => fits 64 now && accessOk size && wrs.all WorkRequest.wf
  | .queueDbCqHead _ _ now size _ => fits 64 now && accessOk size
  | .queueDbCqArm _ _ now size _ => fits 64 now && accessOk size
  | .bulkWindowRead _ _ _ _ => true
  | .bulkWindowWrite _ _ len data => fits (8 * len) data
  | .deviceQuery d => d.wf
  | .funcAssign d => d.wf
  | .funcUnassign d => d.wf
  | .timeConfig d => d.wf
  | .powerLimit d => d.wf
  | .ctrlTransfer d => d.wf
  | .ctrlTake d => d.wf
  | .secStatus d => d.wf
  | .selftest d => d.wf
  | .lcNonce d => d.wf
  | .lcProvision d => d.wf
  | .lcOperate d => d.wf
  | .ownerRotate d => d.wf
  | .lcReturn d => d.wf
  | .lcScrap d => d.wf
  | .zeroise d => d.wf
  | .debugOpen d => d.wf
  | .domainCreate d => d.wf
  | .domainReset d => d.wf
  | .domainDestroy d => d.wf
  | .domainQuery d => d.wf
  | .sliceCreate d => d.wf
  | .sliceModify d => d.wf
  | .sliceDestroy d => d.wf
  | .sliceQuery d => d.wf
  | .shareSet d => d.wf
  | .arbSet d => d.wf
  | .modelRegister d => d.wf
  | .modelUnregister d => d.wf
  | .modelQuery d => d.wf
  | .weightKeyInstall d => d.wf
  | .weightLoad d => d.wf
  | .weightUnload d => d.wf
  | .memConfig d => d.wf
  | .seqCreate d => d.wf
  | .seqFree d => d.wf
  | .seqTruncate d => d.wf
  | .seqQuery d => d.wf
  | .seqGlobal d => d.wf
  | .frameQuery d => d.wf
  | .heatCreate d => d.wf
  | .heatSet d => d.wf
  | .heatQuery d => d.wf
  | .heatStart d => d.wf
  | .heatStop d => d.wf
  | .heatDestroy d => d.wf
  | .courseLoad d => d.wf
  | .courseUnload d => d.wf
  | .courseQuery d => d.wf
  | .prefixSearch d => d.wf
  | .prefixAttach d => d.wf
  | .prefixPublish d => d.wf
  | .prefixRetract d => d.wf
  | .prefixBulkLoad d => d.wf
  | .prefixStats d => d.wf
  | .selHeatSet d => d.wf
  | .selRebuild d => d.wf
  | .filterBind d => d.wf
  | .filterUnbind d => d.wf
  | .auditRead d => d.wf
  | .collCreate d => d.wf
  | .collDestroy d => d.wf
  | .collInsert d => d.wf
  | .collDelete d => d.wf
  | .collQuery d => d.wf
  | .netConfigPort d => d.wf
  | .netConfigAddresses d => d.wf
  | .netConfigLocality d => d.wf
  | .pdCreate d => d.wf
  | .pdDestroy d => d.wf
  | .regionRegister d => d.wf
  | .regionRevoke d => d.wf
  | .queueCreate d => d.wf
  | .queueModify d => d.wf
  | .queueReset d => d.wf
  | .queueDestroy d => d.wf
  | .cqCreate d => d.wf
  | .cqDestroy d => d.wf
  | .shaperSet d => d.wf
  | .domainNetSet d => d.wf
  | .jobKeyInstall d => d.wf
  | .placeConfig d => d.wf
  | .replQuery d => d.wf
  | .ownQuery d => d.wf
  | .ownOffer d => d.wf
  | .ownAccept d => d.wf
  | .ownCommit d => d.wf
  | .ownClaim d => d.wf
  | .fence d => d.wf
  | .rowOp d => d.wf
  | .acctRead d => d.wf
  | .counterRead d => d.wf
  | .marginConfig d => d.wf
  | .dramConfig d => d.wf
  | .dramStatus d => d.wf
  | .calLoad d => d.wf
  | .calQuery d => d.wf
  | .pcieLinkUp _ width gtps => [1, 2, 4, 8].contains width && [2, 5, 8, 16, 32, 64].contains gtps
  | .getVersion _ => true
  | .negotiateAlgorithms _ _ => true
  | .endSession _ now session => fits 64 now && fits 32 session
  | .stopInterface _ _ _ => true
  | .recordWalkDone seq now => fits 48 seq && fits 64 now
  | .metadataRekeyDone => true

end Sys2Proof
end

