-- ==== Sys2Proof/Safety.lean ====
section
/-! DEFINITION. What a safe run is, and the words that claims are written in: what every step keeps, what a reset of the
node leaves, when a Huavo command reaches its own part, and how it then ends. -/

namespace Sys2Proof.Machine

/-! ## What every step keeps -/

/-- The bytes of the bulk window stand in their one canonical form (R269). -/
def State.bulkOk (s : State) : Prop := memWf s.bulk = true

/-- A bit that is 1 in the first number is 1 in the second. -/
def BitsKept {n : Nat} (x y : BitVec n) : Prop := x &&& y = x

/-- No fuse that was blown is whole again: the life-cycle fuses, the owner slots and FUSE_ROOT (R415). -/
structure FusesKept (x y : Fuses) : Prop where
  prov : BitsKept x.lcProv y.lcProv
  oper : BitsKept x.lcOper y.lcOper
  ret : BitsKept x.lcRet y.lcRet
  scrap : BitsKept x.lcScrap y.lcScrap
  owner0 : BitsKept x.owner0 y.owner0
  owner1 : BitsKept x.owner1 y.owner1
  owner2 : BitsKept x.owner2 y.owner2
  owner3 : BitsKept x.owner3 y.owner3
  root : BitsKept x.fuseRoot y.fuseRoot
  wafer : y.romDigest = x.romDigest ∧ y.vendorDigest = x.vendorDigest ∧ y.serial = x.serial

/-- A step that went on, from one state to the next. -/
def Steps (s t : State) : Prop := step s = .next t

/-! ## What a reset of the whole node leaves (R501) -/

/-- Everything is at its reset value but the fuses, the node's place in its partition, the reset's own boot record and the
model's bookkeeping. -/
def Cleared (s t : State) : Prop :=
  t = { State.reset with
    pending := s.pending, out := t.out, free := s.free, nodeNo := s.nodeNo, partition := s.partition,
    sec := { fuses := s.sec.fuses, draws := s.sec.draws, keys := s.sec.keys }, boot := t.boot }

/-! ## Huavo commands -/

/-- A descriptor is fetched, passes the checks that all commands share (R436, R453 steps 1 and 2), and the host serves the
buffer its payload stands in. -/
def reaches (r : HRow) (d : Desc) (s : State) : Bool :=
  fetchable s d && !waitsForTests r s && (huavoChecks r d (fetchCmd s d)).isNone
    && (!d.ptr || (hostStatus d.env.host).isNone)

/-- The state in which the own part of a fetched command runs (R443, R404). -/
def atBody (d : Desc) (s : State) : State := touchSession (fetchCmd s d) d

/-- Of every command that reaches its own part and meets a condition there: `exec` answers the next state in which the
command's effect has happened and its answer is written. -/
def Does (run : Desc → Instr) (r : HRow) (pre : Desc → State → Prop) (effect : Desc → State → State × Ans) : Prop :=
  ∀ d s, reaches r d s = true → pre d (atBody d s) →
    exec (run d) s = .next (finishAns r d (effect d (atBody d s)).1 (effect d (atBody d s)).2)

/-- The same of a command whose effect is said by what holds after it: `post` relates the state in which its own part ran
with the state that part left and its answer. -/
def Ends (run : Desc → Instr) (r : HRow) (pre : Desc → State → Prop) (post : Desc → State → State → Ans → Prop) : Prop :=
  ∀ d s, reaches r d s = true → pre d (atBody d s) →
    ∃ u a, exec (run d) s = .next (finishAns r d u a) ∧ post d (atBody d s) u a

/-! ## Management messages -/

/-- Of every management message that is delivered, keeps R348 and meets a condition: `exec` answers the next state in which
its effect has happened. -/
def OnMessage (run : Mgmt → Instr) (len : Mgmt → Nat) (named : Mgmt → List (Nat × Nat)) (pre : Mgmt → State → Prop)
    (effect : Mgmt → State → State) : Prop :=
  ∀ m s, trafficOff (clockTo s m.now) = false → nodeReachable (clockTo s m.now) m.src = true →
    mgmtOk m (len m) (named m) = true → pre m (clockTo s m.now) → exec (run m) s = .next (effect m (clockTo s m.now))

/-- A management message that breaks R348 is counted, and one that does not reach this node has no effect. -/
def DropsBad (run : Mgmt → Instr) (len : Mgmt → Nat) (named : Mgmt → List (Nat × Nat)) : Prop :=
  ∀ m s, ((trafficOff (clockTo s m.now) = true ∨ nodeReachable (clockTo s m.now) m.src = false) →
      exec (run m) s = .next (clockTo s m.now))
    ∧ (trafficOff (clockTo s m.now) = false → nodeReachable (clockTo s m.now) m.src = true →
      mgmtOk m (len m) (named m) = false → exec (run m) s = .next (count (clockTo s m.now) 2 0 3))

/-! ## Messages of work queues -/

/-- The message that stands at LOW of its queue may be delivered: it has completely arrived and was not refused (R329). -/
structure AtLow (s : State) (m : MsgRef) (op : Nat) (q : QueueSt) (r : RecvMsg) : Prop where
  queue : getWq s m.queue = some q
  low : q.low = m.msgId
  ready : q.state = .ready
  here : q.recv.get? m.msgId = some r
  whole : r.complete = true
  op : r.op = op
  taken : r.refused = none

/-- An answer has completely arrived, and the request it answers is open (R311). -/
structure AnswerIn (s : State) (m : MsgRef) (op : Nat) (q : QueueSt) (r : RecvMsg) (w : SendMsg) : Prop where
  queue : getWq s m.queue = some q
  here : q.recv.get? (2 ^ 32 + m.msgId) = some r
  request : q.sent.get? m.msgId = some w
  whole : r.complete = true
  op : r.op = op
  waiting : w.completed = false

/-! ## Words of single statements -/

/-- The node has its identity, and the SPDM connection of a port has negotiated the node's algorithms (R398, R401). -/
structure Negotiated (s : State) (p : Port) : Prop where
  full : spdmFull s = true
  identity : s.boot.identityFault = false
  negotiated : (getConn s p).negotiated = true
  expected : (getConn s p).unexpected = false

/-- The record with which a HEAT_CREATE makes its heat (R235): the payload's, with the port and the domain it came by. -/
def heatRec (d : Desc) : BitVec 192 := rset (rset (heatPayload d) 105 105 d.port.val) 104 99 d.domain.toNat

/-- The heat a HEAT_CREATE makes, before its sizes are known. -/
def freshHeat (d : Desc) : HeatSt := { record := heatRec d, func := d.func, selRec := selRecReset }

/-- The record that a HEAT_SET asks for (R236). -/
def heatAsked (d : Desc) (h : HeatSt) : BitVec 192 := merge h.record (heatPayload d) heatWritten

/-- Units of a core's scratch hold a row of bytes, as far as the row fits the scratch. -/
def UnitsAt (s : State) (u : Uop) (addr fmt n data : Nat) : Prop :=
  n ≤ 16384 → ∀ j, j < n → ∃ x, s.scratch.get? (unitKey u.cl.val u.core.val (addr + j)) = some x ∧ x.fmt = fmt
    ∧ x.data = BitVec.ofNat 512 (data / 2 ^ (512 * j))

/-- Units of a core's scratch hold a row of numbers in a format. -/
def RowAt (s : State) (u : Uop) (addr fmt : Nat) (l : List Num) : Prop :=
  UnitsAt s u addr fmt (ceilDiv (rowBytesOf fmt l.length) 64) (encodeRow fmt l)

/-- Of the scratch, only `n` units of an operation's core are written. -/
def WritesOnly (s t : State) (u : Uop) (addr n : Nat) : Prop :=
  ∀ k, (∀ j, j < n → k ≠ unitKey u.cl.val u.core.val (addr + j)) → t.scratch.get? k = s.scratch.get? k

end Sys2Proof.Machine
end

