-- ==== Sys2Proof/Certificates/Slice0/Obligations.lean ====
section
/-! DEFINITION. What the provers are to prove of the node: one statement a family of commands, and what every step keeps. -/

open Sys2Proof Sys2Proof.Machine


/-! ## Resets, boot, clocks (R385 to R398, R480 to R501, R516, R517) -/

/-- R501, R516, R492, R495, R517: the resets of the whole node, and the two stops that only a reset leaves. -/
def Obligations.ResetsClearTheNode : Prop :=
  (∀ (n : Nat) (s : State), 25 ≤ n → ∃ t, exec (.porAssert n) s = .next t ∧ Cleared s t ∧ t.out = s.out
      ∧ t.boot.phase = .held ∧ t.boot.porLow = true)
  ∧ (∀ (r : Fin 6) (v : Int) (us : Nat) (s : State), (80 < v ∨ v < -80) → 2 ≤ us →
      ∃ t, exec (.railOutOfRange r v us) s = .next t ∧ Cleared s t ∧ t.out = s.out ∧ t.boot.phase = .held ∧ t.boot.railHold = true)
  ∧ (∀ (k : Fin 24) (v : Int) (s : State), 880 ≤ v → s.boot.phase ≠ .held → s.boot.phase ≠ .tripped →
      ∃ t, exec (.thermalTrip k v) s = .next t ∧ Cleared s t ∧ t.out = .trip :: s.out ∧ t.boot.phase = .tripped ∧ t.boot.trip = true)
  ∧ (∀ s : State, s.boot.phase ≠ .held → s.boot.phase ≠ .tripped →
      ∃ t, exec .jtagExtest s = .next t ∧ Cleared s t ∧ t.out = s.out ∧ t.boot.phase = .extest)
  ∧ (∀ (n : Nat) (s : State), 25 ≤ n → s.sec.mod = .error → ∃ t, exec (.warmReset n) s = .next t ∧ Cleared s t)
  ∧ (∀ (n : Nat) (s : State), 25 ≤ n → s.sec.mod ≠ .error → s.boot.phase = .ready →
      ∃ t, exec (.warmReset n) s = .next t ∧ t.boot.phase = .selfTest ∧ t.boot.warm = true ∧ t.boot.plls = s.boot.plls
        ∧ t.boot.crystal = s.boot.crystal ∧ t.bulk = s.bulk ∧ t.sec.debugOpened = s.sec.debugOpened ∧ t.sec.fuses = s.sec.fuses
        ∧ t.sec.sessions = .empty ∧ t.sec.metaKey = none ∧ t.domains = .empty ∧ t.heats = .empty ∧ t.seqs = .empty
        ∧ pageOn t = false)

/-- R499, R481, R483, R495, R500, R516: each event of the boot takes it one step on. R394 to R396, R415, R500: the self-tests
end in the window, in training, or in ERROR with every key gone. -/
def Obligations.BootAndSelfTests : Prop :=
  ((∀ (m0 m1 : Fin 4) (s : State), s.boot.porLow = true → s.boot.railHold = false →
      ∃ t, exec (.porRelease false m0 m1) s = .next t ∧ t = { s with boot :=
        { s.boot with porLow := false, testMode := false, refMode0 := m0, refMode1 := m1, phase := .crystal } })
  ∧ (∀ (us : Nat) (s : State), s.boot.railHold = true → 1000 ≤ us → s.boot.porLow = false → s.boot.testMode = false →
      exec (.railRecovered us) s = .next { s with boot := { s.boot with railHold := false, phase := .crystal } })
  ∧ (∀ (n : Nat) (s : State), s.boot.phase = .crystal → 131072 ≤ n →
      exec (.crystalStable n) s = .next { s with boot := { s.boot with crystal := true, sideband := true, phase := .plls } })
  ∧ (∀ (n : Nat) (v : Int) (s : State), clocksRun s = true → 131072 ≤ n → -1000 ≤ v → v ≤ 1000 →
      exec (.referencePresent .eth n v) s = .next { s with boot := { s.boot with refEth := true } }
      ∧ exec (.referencePresent (.pcie 0) n v) s = .next { s with boot := { s.boot with refPcie0 := true } }
      ∧ exec (.referencePresent (.pcie 1) n v) s = .next { s with boot := { s.boot with refPcie1 := true } })
  ∧ (∀ (p : Pll) (n : Nat) (s : State), clocksRun s = true → hasReference s p = true → 65536 ≤ n →
      (getPll s (pllKey p)).failed = false →
      ∃ t, exec (.pllLocked p n) s = .next t ∧ (getPll t (pllKey p)).locked = true
        ∧ (s.boot.phase = .plls → pllsDone t = true → t.boot.phase = .selfTest)
        ∧ (s.boot.phase = .plls → pllsDone t = false → t.boot.phase = .plls)
        ∧ (s.boot.phase ≠ .plls → t.boot.phase = s.boot.phase) ∧ t = { s with boot := t.boot })
  ∧ (∀ (p : Pll) (s : State), clocksRun s = true → hasReference s p = true → (getPll s (pllKey p)).locked = false →
      (getPll s (pllKey p)).failed = false → (getPll s (pllKey p)).attempts < 2 →
      exec (.pllLockTimeout p) s = .next (setPll s (pllKey p)
        { getPll s (pllKey p) with attempts := (getPll s (pllKey p)).attempts + 1, failed := false }))
  ∧ (∀ (us : Nat) (s : State), s.boot.phase = .window → 300000 ≤ us →
      ∃ t, exec (.calWindowTimeout us) s = .next t ∧ t.boot.phase = .training ∧ t.time.enabled = true ∧ t.time.fabric = 0
        ∧ t.time.incr = 0x100000000 ∧ t = { s with time := t.time, boot := t.boot })
  ∧ (∀ (l : List ChannelTrain) (ok : Bool) (s : State), s.boot.phase = .training →
      ∃ t, exec (.dramTrainingDone l ok) s = .next t ∧ t.boot.phase = .ready ∧ t.boot.deferred = []))
  ∧ ((∀ (f : Flash) (s : State), s.boot.phase = .selfTest →
      ∃ t, exec (.selftestComplete 0 f) s = .next t ∧ (t.boot.phase = .window ∨ t.boot.phase = .training)
        ∧ t.sec.fuses = mendFuses s.sec.fuses)
  ∧ (∀ (k : Fin 8) (f : Flash) (s : State), k ≠ 0 → s.boot.phase = .selfTest →
      ∃ t, exec (.selftestComplete k f) s = .next t ∧ t.boot.phase = .stopped ∧ t.sec.mod = .error ∧ t.sec.failCode = k.val
        ∧ t.sec.sessions = .empty ∧ t.sec.metaKey = none ∧ t.rowOps = [])
  ∧ (∀ (k : Fin 8) (f : Flash) (s : State), k ≠ 0 → s.boot.phase = .ready → s.sec.testing = true →
      ∃ t, exec (.selftestComplete k f) s = .next t ∧ t.sec.mod = .error ∧ t.sec.failCode = k.val))

/-! ## Huavo 0x01xx and 0x0Cxx: the device, its functions, its time and its counters -/

/-- R458, R422, R444, R442, R473, R475: what each command of the device group does when it succeeds. R422, R442, R444, R369:
what the same commands refuse, and with which status; nothing of the node changes. -/
def Obligations.DeviceCommandsAnswer : Prop :=
  (Does .deviceQuery rowDeviceQuery (fun _ _ => True) (fun d s =>
    (s, .done (deviceStatus s + deviceInfo d.port d.func * 2 ^ 64) s.sec.fuses.serial.toNat))
  ∧ Does .funcAssign rowFuncAssign (fun d s =>
      0 < byt d.body 0 0 ∧ byt d.body 0 0 ≤ 63 ∧ 0 < byt d.body 1 1 ∧ byt d.body 1 1 ≤ 63
        ∧ (getPort s d.port).vfEnabled = true ∧ (getF s d.port (vfOf (byt d.body 0 0))).assigned = none
        ∧ (getD s (byt d.body 1 1)).state = .active) (fun d s =>
    (setF s d.port (vfOf (byt d.body 0 0))
      { getF s d.port (vfOf (byt d.body 0 0)) with assigned := some (byt d.body 1 1) }, .done))
  ∧ Ends .funcUnassign rowFuncUnassign (fun d s =>
      0 < byt d.body 0 0 ∧ byt d.body 0 0 ≤ 63 ∧ (getF s d.port (vfOf (byt d.body 0 0))).assigned.isSome
        ∧ (getF s d.port (vfOf (byt d.body 0 0))).tdisp ≠ .configLocked ∧ (getF s d.port (vfOf (byt d.body 0 0))).tdisp ≠ .run)
      (fun d s u a => a = .acceptDone .ok ∧ (getF u d.port (vfOf (byt d.body 0 0))).assigned = none
        ∧ (getF u d.port (vfOf (byt d.body 0 0))).tdisp = .unlocked
        ∧ u = { s with funcs := u.funcs, flights := u.flights, delayed := u.delayed, mem := u.mem, seqs := u.seqs,
                       heats := u.heats, buffer := u.buffer, net := u.net, dma := u.dma })
  ∧ Does .timeConfig rowTimeConfig (fun d _ => d.length = 0) (fun _ s => (s, .done s.time.record.toNat))
  ∧ Ends .timeConfig rowTimeConfig (fun d s => d.length = 16 ∧ timeBad (BitVec.ofNat 128 (byt d.body 0 15)) = false
        ∧ (s.time.enabled = false ∨ differ s.time.record (BitVec.ofNat 128 (byt d.body 0 15)) timeLocked = false))
      (fun d s u a =>
        u.time.record = merge s.time.record (BitVec.ofNat 128 (byt d.body 0 15)) (maskOf [(26, 23), (7, 0)])
        ∧ u.time.shadow = some (merge (s.time.shadow.getD s.time.record) (BitVec.ofNat 128 (byt d.body 0 15)) timeRws)
        ∧ a = .done u.time.record.toNat ∧ (s.time.enabled = true → u.boot = s.boot)
        ∧ u = { s with time := { s.time with record := u.time.record, shadow := u.time.shadow }, boot := u.boot })
  ∧ Does .powerLimit rowPowerLimit (fun d _ => byt d.body 0 1 = 0 ∨ (100 ≤ byt d.body 0 1 ∧ byt d.body 0 1 ≤ 360)) (fun d s =>
      let t := setPort s d.port
        { getPort s d.port with cap := if byt d.body 0 1 = 0 then none else some (byt d.body 0 1) }
      (t, .done (effectiveCap t)))
  ∧ Does .ctrlTransfer rowCtrlTransfer (fun d s =>
      byt d.body 0 0 = 0 ∧ d.domain ≠ 0 ∧ domPortOk d s d.domain.toNat = true ∧ objBusy s (.domain d.domain.toNat) = false)
      (fun d s => (setD s d.domain.toNat
        { getD s d.domain.toNat with ctrlPort := if d.port = 0 then 1 else 0 }, .done))
  ∧ Does .ctrlTake rowCtrlTake (fun d s =>
      byt d.body 0 0 = 0 ∧ bit d.body 8 = false ∧ d.domain ≠ 0 ∧ (getD s d.domain.toNat).ctrlPort = otherPort d.port
        ∧ (getPort s (otherPort d.port)).linkUp = false
        ∧ (getPort s (otherPort d.port)).downSince + 1000000000 ≤ s.ns ∧ objBusy s (.domain d.domain.toNat) = false)
      (fun d s => (setD s d.domain.toNat { getD s d.domain.toNat with ctrlPort := d.port }, .done))
  ∧ Does .acctRead rowAcctRead (fun d s =>
      d.domain = 0 ∧ bit d.body 8 = true ∧ 0 < byt d.body 12 13 ∧ byt d.body 12 13 ≤ 1024 ∧ byt d.body 16 23 % 64 = 0
        ∧ hostStatus d.env.host = none ∧ (readable s 0 (byt d.body 4 11) (byt d.body 12 13)).length = byt d.body 12 13)
      (fun d s =>
        let l := (readable s 0 (byt d.body 4 11) (byt d.body 12 13)).map fun e => (s.nodeRecs.getD e 0).toNat
        (emit s (.hostWrite d.port (byt d.body 16 23) (128 * l.length) (packElems 1024 l)), .done l.length))
  ∧ Does .counterRead rowCounterRead (fun d _ =>
      d.domain = 0 ∧ byt d.body 0 0 = 1 ∧ byt d.body 1 1 ≤ 63 ∧ byt d.body 8 15 % 64 = 0 ∧ hostStatus d.env.host = none
        ∧ bit d.body 16 = false) (fun d s =>
      (emit s (.hostWrite d.port (byt d.body 8 15) 40
        (packElems 64 ((List.range 5).map fun i => s.counters.getD (ckey 1 (byt d.body 1 1) i) 0))), .done)))
  ∧ (Does .funcAssign rowFuncAssign (fun d _ => byt d.body 0 0 = 0 ∨ 63 < byt d.body 0 0 ∨ byt d.body 1 1 = 0 ∨ 63 < byt d.body 1 1)
      (fun _ s => (s, .fail .badField))
  ∧ Does .funcUnassign rowFuncUnassign (fun d s => 0 < byt d.body 0 0 ∧ byt d.body 0 0 ≤ 63
        ∧ (getF s d.port (vfOf (byt d.body 0 0))).assigned.isSome ∧ (getF s d.port (vfOf (byt d.body 0 0))).tdisp = .run)
      (fun _ s => (s, .fail .busy))
  ∧ Does .powerLimit rowPowerLimit (fun d _ => byt d.body 0 1 ≠ 0 ∧ (byt d.body 0 1 < 100 ∨ 360 < byt d.body 0 1))
      (fun _ s => (s, .fail .badField))
  ∧ Does .timeConfig rowTimeConfig (fun d s => d.length = 16 ∧ timeBad (BitVec.ofNat 128 (byt d.body 0 15)) = false
        ∧ s.time.enabled = true ∧ differ s.time.record (BitVec.ofNat 128 (byt d.body 0 15)) timeLocked = true)
      (fun _ s => (s, .fail .busy))
  ∧ Does .ctrlTransfer rowCtrlTransfer (fun d s => byt d.body 0 0 = 0 ∧ d.domain ≠ 0
        ∧ (getD s d.domain.toNat).ctrlPort ≠ d.port) (fun _ s => (s, .fail .notOwner))
  ∧ Does .ctrlTake rowCtrlTake (fun d s => byt d.body 0 0 = 0 ∧ d.domain ≠ 0 ∧ (getPort s (otherPort d.port)).linkUp = true)
      (fun _ s => (s, .fail .notOwner))
  ∧ Does .counterRead rowCounterRead (fun d _ => d.domain ≠ 0 ∧ byt d.body 0 0 ≠ 1) (fun _ s => (s, .fail .denied)))

/-! ## The host's registers, interrupts and the bulk window (R426 to R440, R269) -/

/-- R436, R437, R438, R450: RING_CTRL starts and stops the rings, and CMD_TAIL posts descriptors; one whose opcode no row
defines completes with BAD_OPCODE. That a command whose condition is not met changes nothing (but the time) is the model's
choice (assumption 5). Descriptors are answered as the tail is written (assumption 15). -/
def Obligations.RingsAreFed : Prop :=
  ((∀ (p : Port) (f : Func) (v : Word) (s : State), mmioOk s p f = true → ringsIdle (getF s p f) = true →
      (s.boot.phase = .window → f = 0) →
      6 ≤ rf (ringSizes (getF s p f) v) 15 12 → rf (ringSizes (getF s p f) v) 15 12 ≤ 12 →
      6 ≤ rf (ringSizes (getF s p f) v) 11 8 → rf (ringSizes (getF s p f) v) 11 8 ≤ 12 →
      6 ≤ rf (ringSizes (getF s p f) v) 7 4 → rf (ringSizes (getF s p f) v) 7 4 ≤ 12 →
      exec (.ringEnable p f v) s = .next (setF s p f { getF s p f with
        ringCtrl := rset (merge (getF s p f).ringCtrl v ringSizeMask) 0 0 1, cmdTail := 0, cmdHead := 0, rspHead := 0,
        evtHead := 0, rspTail := 0, evtTail := 0, evtLost := 0, signalled := .empty, heldVecs := [] }))
  ∧ (∀ (p : Port) (f : Func) (v : Word) (s : State), mmioOk s p f = true → ringsOn (getF s p f) = false →
      (s.boot.phase = .window → f = 0) → log2Ok (rf (ringSizes (getF s p f) v) 15 12) = false →
      exec (.ringEnable p f v) s = .next (setF s p f { getF s p f with cfgErr := true }))
  ∧ (∀ (p : Port) (f : Func) (v : Word) (s : State), mmioOk s p f = true → ringsOn (getF s p f) = true →
      exec (.ringEnable p f v) s = .next s
      ∧ exec (.ringDisable p f v) s =
          .next (setF s p f { getF s p f with ringCtrl := rset (getF s p f).ringCtrl 0 0 0 })))
  ∧ ((∀ (p : Port) (f : Func) (n : Nat) (v : BitVec 32) (s : State), mmioOk s p f = true →
      ringsOn (getF s p f) = true →
      between (BitVec.ofNat 16 (rf v 15 0)) (getF s p f).cmdHead ≤ 2 ^ cmdLog2 (getF s p f) →
      exec (.cmdTailWrite p f n v []) s =
        .next (setF (clockTo s n) p f { getF s p f with cmdTail := BitVec.ofNat 16 (rf v 15 0) }))
  ∧ (∀ (p : Port) (f : Func) (n : Nat) (v : BitVec 32) (l : List OddDesc) (s : State), mmioOk s p f = true →
      ringsOn (getF s p f) = true →
      2 ^ cmdLog2 (getF s p f) < between (BitVec.ofNat 16 (rf v 15 0)) (getF s p f).cmdHead →
      exec (.cmdTailWrite p f n v l) s = .next (raiseRing
        (setF (clockTo s n) p f { getF s p f with cmdErr := true }) p f 0x0034 0x60 v.toNat))
  ∧ (∀ (p : Port) (f : Func) (n : Nat) (v : BitVec 32) (o : OddDesc) (s : State), mmioOk s p f = true →
      ringsOn (getF s p f) = true →
      between (BitVec.ofNat 16 (rf v 15 0)) (getF s p f).cmdHead ≤ 2 ^ cmdLog2 (getF s p f) →
      s.boot.phase = .ready → s.sec.mod ≠ .error → o.desc.rsv = 0 →
      let u := setF (clockTo s n) p f { getF s p f with cmdTail := BitVec.ofNat 16 (rf v 15 0) }
      fetchable u o.desc = true →
      exec (.cmdTailWrite p f n v [o]) s = .next (respond (fetchCmd u o.desc) o.desc.port o.desc.func (fetchCmd u o.desc).ns
        o.opcode.toNat o.desc.tag.toNat o.desc.domain.toNat .badOpcode 0 0 true false)))

/-- R426, R427, R447: the other registers of BAR0, and the snapshot of fabric time. R434 and the INT_CTRL table: vectors,
masks and holdoff; a message that no mask holds is sent, a masked one is pending. -/
def Obligations.RegistersAndInterrupts : Prop :=
  ((∀ (p : Port) (f : Func) (v : Word) (s : State), mmioOk s p f = true → ringsIdle (getF s p f) = true →
      exec (.registerWrite p f 0x40 8 v) s = .next (setF s p f { getF s p f with cmdBase := merge 0 v (maskOf [(63, 12)]) })
      ∧ exec (.registerWrite p f 0x48 8 v) s = .next (setF s p f { getF s p f with rspBase := merge 0 v (maskOf [(63, 12)]) })
      ∧ exec (.registerWrite p f 0x50 8 v) s = .next (setF s p f { getF s p f with evtBase := merge 0 v (maskOf [(63, 12)]) }))
  ∧ (∀ (p : Port) (f : Func) (v : Word) (s : State), mmioOk s p f = true → ringsIdle (getF s p f) = false →
      exec (.registerWrite p f 0x40 8 v) s = .next (setF s p f (getF s p f)))
  ∧ (∀ (p : Port) (f : Func) (v : Word) (s : State), mmioOk s p f = true →
      exec (.registerWrite p f 0x68 4 v) s =
        .next (setF s p f { getF s p f with rspHead := BitVec.ofNat 16 (rf v 31 0) })
      ∧ exec (.registerWrite p f 0x6C 4 v) s =
        .next (setF s p f { getF s p f with evtHead := BitVec.ofNat 16 (rf v 31 0) })
      ∧ exec (.registerWrite p f 0x70 4 v) s = .next (setF s p f { getF s p f with
          cfgErr := (getF s p f).cfgErr && !rb v 3, cmdErr := (getF s p f).cmdErr && !rb v 2,
          evtOvf := (getF s p f).evtOvf && !rb v 1 }))
  ∧ (∀ (p : Port) (f : Func) (s : State), mmioOk s p f = true →
      exec (.timeReadLatch p f 8) s = .next (emit (setF s p f { getF s p f with latch := s.time.fabric })
        (.regRead p f (s.time.fabric.toNat % 2 ^ 64)))))
  ∧ ((∀ (p : Port) (f : Func) (v : Word) (s : State), mmioOk s p f = true → rf v 26 16 < vectorsOf f → rf v 10 0 < vectorsOf f →
      exec (.intCtrlWrite p f v) s = .next (setF s p f { getF s p f with intCtrl := merge 0 v intCtrlMask }))
  ∧ (∀ (p : Port) (f : Func) (v : Word) (s : State), mmioOk s p f = true → (vectorsOf f ≤ rf v 26 16 ∨ vectorsOf f ≤ rf v 10 0) →
      exec (.intCtrlWrite p f v) s = .next (setF s p f { getF s p f with cfgErr := true }))
  ∧ (∀ (p : Port) (f : Func) (n t : Nat) (s : State), (getF s p f).heldVecs.contains n = true →
      (getF s p f).signalled.getD n 0 + holdoff (getF s p f) ≤ (clockTo s t).ns →
      (getF s p f).maskAll = false → (getF s p f).masked = [] →
      ∃ u, exec (.interruptHoldoffExpiry p f n t) s = .next u ∧ u.out = .msix p f n :: s.out
        ∧ (getF u p f).heldVecs = (getF s p f).heldVecs.erase n
        ∧ u = { clockTo s t with out := u.out, funcs := u.funcs })
  ∧ (∀ (p : Port) (f : Func) (n : Nat) (s : State), mmioOk s p f = true → n < vectorsOf f → (getF s p f).maskAll = false →
      (getF s p f).masked = [n] → (getF s p f).msixPending = [n] →
      ∃ u, exec (.msixUnmask p f (some n) false) s = .next u ∧ u.out = .msix p f n :: s.out
        ∧ (getF u p f).msixPending = [] ∧ (getF u p f).masked = [] ∧ u = { s with out := u.out, funcs := u.funcs })
  ∧ (∀ (p : Port) (f : Func) (n : Nat) (s : State), (getF s p f).masked.contains n = true → (getF s p f).msixPending = [] →
      (msix s p f n).out = s.out ∧ (getF (msix s p f n) p f).msixPending = [n]))

/-! ## Fabric time, epochs and DMA fault records (R35 to R41, R250 to R257, R290, R291) -/

/-- R40, R250, R253, R414: at an epoch boundary the epoch in progress closes with a record, every shadowed field of the node
takes effect, and the charges start again at nothing. Deltas of the energy record are free values (assumption 20). -/
def Obligations.EpochsTurn : Prop :=
  ∀ (n m : Nat) (s : State), s.time.enabled = true → s.time.epoch < epochOf (clockTo s n).ns →
    ∃ t, exec (.epochBoundary n m) s = .next t
      ∧ t.time.epoch = epochOf (clockTo s n).ns ∧ t.time.irregular = false ∧ t.time.shadow = none
      ∧ t.time.record = (match s.time.shadow with | some x => merge s.time.record x timeRws | none => s.time.record)
      ∧ t.acct = .empty
      ∧ t.marginRec = s.marginShadow.getD s.marginRec ∧ t.marginShadow = none
      ∧ t.arb = s.arbShadow.getD s.arb ∧ t.arbShadow = none ∧ t.shareShadow = .empty
      ∧ t.chans = s.chans.mapVals (fun _ c => { c with cfg := c.shadow.getD c.cfg, shadow := none })
      ∧ (s.nodeRecs.l = [] → t.nodeRecs = Map.empty.set s.time.epoch (nodeRecord (clockTo s n) m s.time.irregular))
      ∧ t.delayed = s.delayed.filter (fun g => !decide (g.release ≤ epochOf (clockTo s n).ns))
      ∧ t.seqs = s.seqs ∧ t.heats = s.heats ∧ t.models = s.models ∧ t.dir = s.dir ∧ t.sel = s.sel ∧ t.dma = s.dma
      ∧ t.domains = s.domains ∧ t.counters = s.counters ∧ t.flights = s.flights

/-- R36 to R38: what the time base does with PTP messages, and with their absence. -/
def Obligations.TimeFollowsItsMaster : Prop :=
  (∀ (p : Port) (n : Nat) (s : State), s.time.enabled = true →
      exec (.ptpMessage p n .pdelayReq) s = .next (emit (clockTo s n) (.ptpAnswer p))
      ∧ exec (.ptpMessage p n .unsupported) s = .next (count (clockTo s n) 0 p.val 10))
  ∧ (∀ (p : Port) (n r : Nat) (s : State), s.time.enabled = true → s.time.master0 = none → s.time.master1 = none →
      rf s.time.record 86 85 = 0 →
      ∃ t, exec (.ptpMessage p n (.announce r)) s = .next t ∧ rf t.time.record 86 85 = 1 ∧ rf t.time.record 87 87 = p.val
        ∧ t = { s with time := t.time })
  ∧ (∀ (p : Port) (n : Nat) (x : Int) (s : State), s.time.enabled = true → rf s.time.record 87 87 = p.val →
      masterValid s p.val = true → rf s.time.record 86 85 = 1 → s.time.inLock = 15 →
      x.natAbs ≤ rf s.time.record 47 38 →
      ∃ t, exec (.ptpMessage p n (.sync x)) s = .next t ∧ rf t.time.record 86 85 = 2 ∧ t.time.everLocked = true
        ∧ rf t.time.record 127 96 = unsgn 32 x ∧ t = { s with time := t.time, free := s.free + 1 })
  ∧ (∀ (n : Nat) (s : State), s.time.enabled = true → rf s.time.record 86 85 = 2 →
      ∃ t, exec (.announceTimeout n) s = .next t ∧ rf t.time.record 86 85 = 3 ∧ t.time.master0 = none ∧ t.time.master1 = none
        ∧ t.time.incr = averageIncr s.time ∧ t = { s with time := t.time })
  ∧ (∀ (n x : Nat) (s : State), s.time.enabled = true → rf s.time.record 86 85 = 3 → rf s.time.record 63 48 < x →
      s.time.driftRaised = false →
      exec (.holdoverDriftWarning n x) s = .next (raiseNode
        { clockTo s n with time := { (clockTo s n).time with driftRaised := true } } 0x0002 0x0102 39 0
        (marginPayload 0 x (rf s.time.record 63 48))))
  ∧ (∀ s : State, s.time.enabled = true → (tclkCycle s).time.fabric = BitVec.ofNat 80
      ((s.time.fabric.toNat * 65536 + s.time.sub.toNat + s.time.incr.toNat) / 65536))

/-- R290, R291: a waiting DMA fault record resumes or is abandoned with the status of its reason. R473, R474, R386, R387:
margin thresholds and readings. -/
def Obligations.DmaFaultsEndAndMarginsWarnOnce : Prop :=
  ((∀ (m : Fin 28) (n : Nat) (s : State), rf (dmaRec s m.val) 1 0 = 1 →
      exec (.dmaFaultResolved m false n) s = .next { clockTo s n with dma := s.dma.set m.val (rset (dmaRec s m.val) 1 0 2) }
      ∧ exec (.dmaFaultResolved m true n) s = .next (dmaOwner
          { clockTo s n with dma := s.dma.set m.val (rset (dmaRec s m.val) 1 0 3) } (dmaRec s m.val)))
  ∧ (∀ (m : Fin 28) (n : Nat) (s : State), rf (dmaRec s m.val) 1 0 = 1 → rf (dmaRec s m.val) 31 24 = 7 →
      exec (.dmaNoRoomTimeout m n) s = .next (dmaOwner
        { clockTo s n with dma := s.dma.set m.val (rset (dmaRec s m.val) 1 0 3) } (dmaRec s m.val)))
  ∧ (∀ (p : Port) (f : Func) (w n : Nat) (s : State), 50000 ≤ w → s.boot.phase = .ready → s.dma = .empty →
      ∃ r t, exec (.pcieCompletionTimeout 4 p f w n) s = .next t ∧ t.dma = Map.empty.set 4 r
        ∧ rf r 1 0 = 1 ∧ rf r 31 24 = 6 ∧ t = { s with
          time := t.time, free := s.free + 1, dma := t.dma, out := t.out, funcs := t.funcs, boot := t.boot })
  ∧ (∀ (s : State) (g : Flight) (r : BitVec 128), s.flights = [g] → rf r 23 20 = 3 → rf r 31 24 = 6 →
      g.tag.toNat = rf r 127 96 → g.domain = rf r 19 14 → portMover g.port / 2 = rf r 13 9 / 2 →
      dmaOwner s r = finishFlight { s with flights := [] } g .timeout 0 0))
  ∧ (Does .marginConfig rowMarginConfig (fun d _ => marginRecOk (byt d.body 0 7) = true) (fun d s =>
    ({ s with marginShadow := some (BitVec.ofNat 64 (byt d.body 0 7)) }, .done))
  ∧ Does .marginConfig rowMarginConfig (fun d _ => marginRecOk (byt d.body 0 7) = false) (fun _ s => (s, .fail .badField))
  ∧ (∀ (p : Port) (l : Fin 8) (v : Int) (b : Bool) (s : State), s.boot.phase = .ready → v < thPcieT s →
      (s.margins.getD (p.val * 8 + l.val) {}).raised = true →
      ∃ t, exec (.marginSample (.pcieTiming p l) v b) s = .next t ∧ t.out = s.out
        ∧ (t.margins.getD (p.val * 8 + l.val) {}).raised = true ∧ t = { s with margins := t.margins })
  ∧ (∀ (p : Port) (l : Fin 8) (v : Int) (b : Bool) (s : State), s.boot.phase = .ready → v < thPcieT s →
      (s.margins.getD (p.val * 8 + l.val) {}).raised = false →
      ∃ t, exec (.marginSample (.pcieTiming p l) v b) s = .next (raiseNode t 0x0002 0x0104 (34 + p.val) 0
          (marginPayload l.val v (thPcieT s)))
        ∧ (t.margins.getD (p.val * 8 + l.val) {}).raised = true ∧ t = { s with margins := t.margins })
  ∧ (∀ (p : Port) (l : Fin 8) (v : Int) (b : Bool) (s : State), s.boot.phase = .ready → (thPcieT s : Int) ≤ v →
      (s.margins.getD (p.val * 8 + l.val) {}).good = 7 →
      ∃ t, exec (.marginSample (.pcieTiming p l) v b) s = .next t
        ∧ (t.margins.getD (p.val * 8 + l.val) {}).raised = false ∧ t = { s with margins := t.margins }))

/-- R424, R501, R421, R481, R485, R289: functions, ports, PLLs in service, and units that fail for good. -/
def Obligations.PartsOfTheNodeFailAndReset : Prop :=
  (∀ (p : Port) (f : Func) (s : State), running s = true → f ≠ 0 →
      ∃ t, exec (.functionLevelReset p f) s = .next t
        ∧ getF t p f = { assigned := (getF s p f).assigned, tdisp := (getF s p f).tdisp }
        ∧ t.flights = s.flights.filter (fun g => g.remote.isSome || g.port != p || g.func != f)
        ∧ t.delayed = s.delayed.filter (fun g => g.port != p || g.func != f)
        ∧ t = { s with funcs := t.funcs, flights := t.flights, delayed := t.delayed, mem := t.mem, seqs := t.seqs,
                       heats := t.heats, buffer := t.buffer, net := t.net, dma := t.dma })
  ∧ (∀ (p : Port) (s : State), running s = true →
      ∃ t, exec (.portConventionalReset p) s = .next t ∧ (getPort t p).linkUp = false ∧ (getPort t p).vfEnabled = false
        ∧ (∀ q, q ≠ p → getPort t q = getPort s q)
        ∧ t = { s with port0 := t.port0, port1 := t.port1, funcs := t.funcs, flights := t.flights, delayed := t.delayed,
                       mem := t.mem, seqs := t.seqs, heats := t.heats, buffer := t.buffer, net := t.net, dma := t.dma })
  ∧ (∀ (p : Port) (s : State), (s.boot.plls.getD (26 + p.val) {}).locked = true → refModeOf s p ≠ 3 →
      exec (.pcieLinkUp p 8 64) s =
        .next (setPort s p { getPort s p with linkUp := true, width := 8, gtps := 64, vfEnabled := true })
      ∧ exec (.pcieLinkUp p 4 64) s = .next (raiseNode
          (setPort s p { getPort s p with linkUp := true, width := 4, gtps := 64, vfEnabled := true })
          0x0001 0x0042 (34 + p.val) 0 (otherPayload 0 p.val 0)))
  ∧ (∀ s : State, s.boot.phase = .ready → (getPll s 0).locked = true →
      ∃ t, exec (.pllLockLost .tpll) s = .next t ∧ (getPll t 0).locked = false ∧ t.boot.failed = true
        ∧ t = { s with boot := t.boot, funcs := t.funcs, out := t.out })
  ∧ (∀ (p : Port) (s : State), s.boot.phase = .ready → (getPll s (26 + p.val)).locked = true →
      ∃ t, exec (.pllLockLost (.ppll p)) s = .next t ∧ (getPort t p).linkUp = false)
  ∧ (∀ (u : Nat) (s : State), 20 ≤ u → s.boot.failed = false →
      ∃ t, exec (.diePersistentFailure u) s = .next t ∧ t.boot.failed = true ∧ t.out.head? = some (.bmcEvent 0x0001 0x0060)
        ∧ t = { s with boot := t.boot, funcs := t.funcs, out := t.out })
  ∧ (∀ (u : Nat) (s : State), u < 20 → (getC s u).quarantined = false →
      ∃ t, exec (.diePersistentFailure u) s = .next t ∧ (getC t u).quarantined = true ∧ (getC t u).holder = none
        ∧ (∀ c, c ≠ u → getC t c = getC s c)
        ∧ t = { s with seqs := t.seqs, mem := t.mem, clusters := t.clusters, heats := t.heats, boot := t.boot,
                       funcs := t.funcs, out := t.out })
  ∧ (∀ (p : Pll) (s : State), clocksRun s = true → hasReference s p = true → (getPll s (pllKey p)).locked = false →
      (getPll s (pllKey p)).failed = false → (getPll s (pllKey p)).attempts = 2 → p = .hpll →
      ∃ t, exec (.pllLockTimeout p) s = .next t ∧ t.boot.phase = .stopped ∧ t.boot.failed = true ∧ t = { s with boot := t.boot })

/-- R487 to R491, R29: sensors, the two stops of the clocks, and the CCLK switch of a cluster. -/
def Obligations.HeatIsAnswered : Prop :=
  (∀ (n : Nat) (l : List Int) (s : State), s.boot.phase = .ready → s.cal.record = none → s.thermal.stopped = false →
      s.thermal.hot = true → (∃ x ∈ (List.range 24).map (fun k => l.getD k 0), 840 ≤ x) →
      ∃ t, exec (.thermalSample n l) s = .next t ∧ t.thermal.stopped = true ∧ t.thermal.hot = true
        ∧ t.thermal.temps = (List.range 24).map (fun k => l.getD k 0) ∧ t.out.head? = some (.bmcEvent 0x0008 0)
        ∧ t = { s with time := t.time, thermal := t.thermal, funcs := t.funcs, out := t.out })
  ∧ (∀ (n : Nat) (s : State), s.boot.phase = .ready → s.cal.record = none → s.thermal.stopped = false → s.thermal.stepC = 85 →
      s.thermal.lastStep = none → s.thermal.level = 0 →
      ∃ t, exec (.thermalSample n (List.replicate 24 680)) s = .next t ∧ t.thermal.level = 1
        ∧ t.thermal.stopped = false ∧ t.thermal.lastStep = some (clockTo s n).ns
        ∧ t = { s with time := t.time, thermal := t.thermal, funcs := t.funcs, out := t.out, clusters := t.clusters })
  ∧ (∀ (c : Cluster) (s : State), notCounting s c.val = true → (getC s c.val).due.isSome = true → (getC s c.val).holder = none →
      exec (.cclkSwitch c) s = .next (setC s c.val { getC s c.val with switching := true }))
  ∧ (∀ (c : Cluster) (n : Nat) (s : State), (getC s c.val).switching = true → (getC s c.val).due = some n →
      clusterSlice s c.val = none →
      exec (.cclkSwitchDone c) s = .next (setC s c.val { getC s c.val with cclk := n, due := none, switching := false }))

/-- R476, R500, R505, R506, R395: the calibration record's commands, and the self-tests on demand. R517, R418: the test port
reads the identity code; the debug mailbox is open in MANUFACTURE and after DEBUG_OPEN. -/
def Obligations.CalibrationAndTestPorts : Prop :=
  (Does .calLoad rowCalLoad (fun d s => s.boot.phase = .window ∧ byt d.body 8 11 = 0)
      (fun _ s => (startTraining s, .acceptDone .ok))
  ∧ Does .calLoad rowCalLoad (fun _ s => s.boot.phase ≠ .window) (fun _ s => (s, .fail .badState))
  ∧ Does .calLoad rowCalLoad (fun d s => s.boot.phase = .window ∧ byt d.body 8 11 ≠ 0 ∧ byt d.body 8 11 ≠ 512
        ∧ hostStatus d.env.host = none)
      (fun _ s => (startTraining (rejectCal s), .acceptDone .badField))
  ∧ Does .calLoad rowCalLoad (fun d s => s.boot.phase = .window ∧ byt d.body 8 11 = 512 ∧ hostStatus d.env.host = none
        ∧ calOk s (hostData d % 2 ^ 4096) = true)
      (fun d s =>
        let r := hostData d % 2 ^ 4096
        (startTraining (calTime { s with cal := { state := 0, record := some (BitVec.ofNat 4096 r), digest := digestOf r 512 } } r),
          .acceptDone .ok))
  ∧ Does .calQuery rowCalQuery (fun d _ => byt d.body 0 7 % 64 = 0)
      (fun d s => (s, .done s.cal.state 0 (byt d.body 0 7) 48 s.cal.digest.toNat))
  ∧ Does .selftest rowSelftest (fun _ s => s.sec.testing = false)
      (fun _ s => ({ s with sec := { s.sec with testing := true } }, .accept .selftest))
  ∧ Does .selftest rowSelftest (fun _ s => s.sec.testing = true) (fun _ s => (s, .fail .busy)))
  ∧ ((∀ s : State, exec (.jtagInstruction .idcode) s = .next { s with out := .jtag 0x140207C3 :: s.out })
  ∧ (∀ s : State, exec (.jtagInstruction .debugMailbox) s = .next { s with out := .debugPort (debugIsOpen s) :: s.out })
  ∧ (∀ s : State, lifeCycle s = .operational ∨ lifeCycle s = .scrapped → debugIsOpen s = false))

/-! ## Huavo 0x03xx and 0x04xx: slices, domains, models and weights -/

/-- R27, R28, R30, R250: slices, shares and arbitration. Locked fields of a new slice take effect at once, the others wait in
the shadow for the next epoch. -/
def Obligations.SlicesAreKept : Prop :=
  Ends .sliceCreate rowSliceCreate (fun d s => byt d.body 0 0 ≤ 31 ∧ sliceBad s (byt d.body 0 0) (slicePayload d) = false
        ∧ (getS s (byt d.body 0 0)).state = .disabled ∧ sliceQuarantined s (slicePayload d) = false
        ∧ shareFull s (byt d.body 0 0) (slicePayload d) = false)
      (fun d s u a => a = .done ∧ (getS u (byt d.body 0 0)).state = .enabled
        ∧ (getS u (byt d.body 0 0)).shadow = some (slicePayload d)
        ∧ (getS u (byt d.body 0 0)).record
            = BitVec.ofNat 128 ((slicePayload d).toNat &&& (sliceWritten - sliceShadowed (slicePayload d)))
        ∧ u = { s with slices := u.slices, clusters := u.clusters })
  ∧ Does .sliceCreate rowSliceCreate (fun d s => 31 < byt d.body 0 0 ∨ sliceBad s (byt d.body 0 0) (slicePayload d) = true)
      (fun _ s => (s, .fail .badField))
  ∧ Does .sliceModify rowSliceModify (fun d s => byt d.body 0 0 ≤ 31 ∧ sliceBad s (byt d.body 0 0) (slicePayload d) = false
        ∧ (getS s (byt d.body 0 0)).state = .enabled ∧ sliceQuarantined s (slicePayload d) = false
        ∧ differ (getS s (byt d.body 0 0)).record (slicePayload d)
            (sliceWritten - sliceShadowed (getS s (byt d.body 0 0)).record) = false
        ∧ shareFull s (byt d.body 0 0) (slicePayload d) = false)
      (fun d s => (setS s (byt d.body 0 0) { getS s (byt d.body 0 0) with
        shadow := some (merge (getS s (byt d.body 0 0)).record (slicePayload d) (sliceShadowed (getS s (byt d.body 0 0)).record)) },
        .done))
  ∧ Does .sliceDestroy rowSliceDestroy (fun d s => byt d.body 0 0 ≤ 31 ∧ (getS s (byt d.body 0 0)).state = .enabled
        ∧ sliceBound s (byt d.body 0 0) = false)
      (fun d s => (setS s (byt d.body 0 0) { getS s (byt d.body 0 0) with state := .draining }, .accept (.slice (byt d.body 0 0))))
  ∧ Does .sliceDestroy rowSliceDestroy (fun d s => byt d.body 0 0 ≤ 31 ∧ (getS s (byt d.body 0 0)).state = .enabled
        ∧ sliceBound s (byt d.body 0 0) = true) (fun _ s => (s, .fail .badState))
  ∧ Does .sliceQuery rowSliceQuery (fun d s => byt d.body 0 0 ≤ 31 ∧ (getS s (byt d.body 0 0)).state ≠ .draining)
      (fun d s => (s, .done (sliceWord (getS s (byt d.body 0 0))).toNat))
  ∧ (∀ (n t : Nat) (s : State), (getS s n).state = .draining → sliceQuiet s n = true →
      ∃ u, exec (.sliceDrainComplete n t) s = .next u ∧ u.slices = s.slices.erase n
        ∧ u.mem = { s.mem with pools := s.mem.pools.filter fun k _ => k / 20 != n }
        ∧ u.flights = s.flights.filter (fun g => !(g.key == .slice n))
        ∧ u = { s with time := u.time, slices := u.slices, mem := u.mem, flights := u.flights, sec := u.sec,
                       funcs := u.funcs, out := u.out, delayed := u.delayed, net := u.net })
  ∧ Does .shareSet rowShareSet (fun d s => byt d.body 0 0 ≤ 63 ∧ byt d.body 4 7 ≠ 0 ∧ domFor s (byt d.body 0 0) = .ok ()
        ∧ domPortOk d s (byt d.body 0 0) = true)
      (fun d s => ({ s with shareShadow := s.shareShadow.set (byt d.body 0 0) (BitVec.ofNat 32 (byt d.body 4 7)) }, .done))
  ∧ Does .arbSet rowArbSet (fun d _ => 4096 ≤ byt d.body 0 3)
      (fun d s => ({ s with arbShadow := some (BitVec.ofNat 32 (byt d.body 0 3)) }, .done))
  ∧ Does .arbSet rowArbSet (fun d _ => byt d.body 0 3 < 4096) (fun _ s => (s, .fail .badField))

/-- R407 to R409: tenant domains begin under a fresh key; a reset waits for their laps, takes every key, and ends in ACTIVE
under a new key, or in FREE. -/
def Obligations.DomainsBeginAndEnd : Prop :=
  Ends .domainCreate rowDomainCreate (fun d s => d.domain = 0 ∧ 0 < byt d.body 0 0 ∧ byt d.body 0 0 ≤ 63 ∧ byt d.body 1 1 ≤ 1
        ∧ byt d.body 2 2 ≤ 31
        ∧ domainBad s (byt d.body 2 2) (byt d.body 1 1 == 1) (BitVec.ofNat 384 (byt d.body 16 63)) = false
        ∧ (getD s (byt d.body 0 0)).state = .free ∧ (getS s (byt d.body 2 2)).state = .enabled)
      (fun d s u a => a = .done ∧ getD u (byt d.body 0 0) =
          { state := .active, owner := BitVec.ofNat 384 (byt d.body 16 63), slice := byt d.body 2 2,
            sealed := byt d.body 1 1 == 1, key := some s.sec.keys, ctrlPort := d.port }
        ∧ u.sec.keys = s.sec.keys + 1 ∧ u = { s with sec := u.sec, domains := u.domains, deficits := u.deficits })
  ∧ Ends .domainReset rowDomainReset (fun d s => 0 < byt d.body 0 0 ∧ byt d.body 0 0 ≤ 63
        ∧ (getD s (byt d.body 0 0)).state = .active ∧ domPortOk d s (byt d.body 0 0) = true
        ∧ objBusy s (.domain (byt d.body 0 0)) = false)
      (fun d s u a => a = .accept (.domain (byt d.body 0 0)) ∧ u = beginReset s (byt d.body 0 0) false)
  ∧ Ends .domainDestroy rowDomainDestroy (fun d s => 0 < byt d.body 0 0 ∧ byt d.body 0 0 ≤ 63
        ∧ (getD s (byt d.body 0 0)).state = .active ∧ domPortOk d s (byt d.body 0 0) = true
        ∧ objBusy s (.domain (byt d.body 0 0)) = false)
      (fun d s u a => a = .accept (.domain (byt d.body 0 0)) ∧ u = beginReset s (byt d.body 0 0) true)
  ∧ Does .domainReset rowDomainReset (fun d s => 0 < byt d.body 0 0 ∧ byt d.body 0 0 ≤ 63
        ∧ (getD s (byt d.body 0 0)).state ≠ .free ∧ (getD s (byt d.body 0 0)).ctrlPort ≠ d.port)
      (fun _ s => (s, .fail .notOwner))
  ∧ Does .domainQuery rowDomainQuery (fun d s => byt d.body 0 0 ≤ 63 ∧ sees d (byt d.body 0 0) = true
        ∧ domFor s (byt d.body 0 0) = .ok () ∧ byt d.body 8 15 % 64 = 0)
      (fun d s => (s, .done 0 0 (byt d.body 8 15) 64 (domainWord (byt d.body 0 0) (getD s (byt d.body 0 0)))))
  ∧ (∀ (n : Nat) (b : Bool) (s : State), (∀ k h, getH s k = some h → hDomain h.record ≠ n) → s.heats = .empty →
      (getD (beginReset s n b) n).state = .resetting ∧ (getD (beginReset s n b) n).destroying = b)
  ∧ (∀ (n t : Nat) (s : State), n ≠ 0 → (getD s n).state = .resetting → (getD s n).destroying = false → s.heats = .empty →
      s.seqs = .empty → s.mem.frames = .empty → s.models = .empty →
      ∃ u, exec (.domainResetContinue n t) s = .next u ∧ (getD u n).state = .active ∧ (getD u n).key = some s.sec.keys
        ∧ u.courses = s.courses.filter (fun _ c => c.domain != n))
  ∧ (∀ (n t : Nat) (s : State), n ≠ 0 → (getD s n).state = .resetting → (getD s n).destroying = true → s.heats = .empty →
      s.seqs = .empty → s.mem.frames = .empty → s.models = .empty → s.domains.wf = true →
      ∃ u, exec (.domainResetContinue n t) s = .next u ∧ (getD u n).state = .free ∧ (getD u n).key = none)

/-- R461 to R463, R411, R412: models and their weights. -/
def Obligations.ModelsAndWeights : Prop :=
  Does .modelRegister rowModelRegister (fun d s => modelBad (modelOf d) = false
        ∧ getM s d.domain.toNat (mModel (modelOf d).record) = none ∧ s.models.size < 256 ∧ mBanks (modelOf d).record = 0)
      (fun d s =>
        let m : ModelSt := { modelOf d with record := rset (modelOf d).record 397 392 0, bankBase := 0 }
        ({ s with models := s.models.set (mkey d.domain.toNat (mModel (modelOf d).record)) m }, .done (mT m.record * 2 ^ 8)))
  ∧ Does .modelRegister rowModelRegister (fun d s => modelBad (modelOf d) = false
        ∧ getM s d.domain.toNat (mModel (modelOf d).record) = none ∧ 256 ≤ s.models.size) (fun _ s => (s, .fail .exhausted))
  ∧ Does .modelRegister rowModelRegister (fun d _ => modelBad (modelOf d) = true) (fun _ s => (s, .fail .badField))
  ∧ Ends .modelUnregister rowModelUnregister (fun d s => (getM s d.domain.toNat (byt d.body 0 1)).isSome
        ∧ modelHasHeat s d.domain.toNat (byt d.body 0 1) = false
        ∧ (s.seqs.any fun _ q => q.domain == d.domain.toNat && q.model == byt d.body 0 1) = false)
      (fun d s u a => a = .acceptDone .ok ∧ u.models = s.models.erase (mkey d.domain.toNat (byt d.body 0 1))
        ∧ ((s.dir.banks.any fun _ v => v.shift.isSome) = false → u = { s with models := u.models, dir := u.dir, sel := u.sel }))
  ∧ Does .modelUnregister rowModelUnregister (fun d s => (getM s d.domain.toNat (byt d.body 0 1)).isSome
        ∧ modelHasHeat s d.domain.toNat (byt d.body 0 1) = true) (fun _ s => (s, .fail .badState))
  ∧ Ends .modelQuery rowModelQuery (fun d s => (getM s d.domain.toNat (byt d.body 0 1)).isSome ∧ byt d.body 8 15 % 64 = 0)
      (fun d s u a => u = s ∧ ∃ m, getM s d.domain.toNat (byt d.body 0 1) = some m
        ∧ a = .done (pack [(0, 1, b2n m.loaded), (1, 1, b2n m.damaged), (2, 1, b2n m.key.isSome)]) 0 (byt d.body 8 15) 64
          m.record.toNat)
  ∧ Ends .weightKeyInstall rowWeightKeyInstall (fun d s => domPortOk d s d.domain.toNat = true
        ∧ ∃ m, getM s d.domain.toNat (byt d.body 0 1) = some m ∧ mProjection m.record = true ∧ m.loaded = false)
      (fun d s u a => a = .done ∧ (getM u d.domain.toNat (byt d.body 0 1)).bind (·.key) = some s.sec.keys
        ∧ u.sec.keys = s.sec.keys + 1 ∧ u = { s with sec := u.sec, models := u.models })
  ∧ Ends .weightLoad rowWeightLoad (fun d s => byt d.body 16 23 ≠ 0 ∧ byt d.body 16 23 % 528 = 0
        ∧ packageRoom (byt d.body 16 23 / 528 * 512) ≤ weightRoom s (mkey d.domain.toNat (byt d.body 0 1))
        ∧ hostStatus d.env.host = none ∧ d.env.tagsOk = false
        ∧ ∃ m, getM s d.domain.toNat (byt d.body 0 1) = some m ∧ m.key.isSome ∧ m.loaded = false)
      (fun _ s u a => a = .acceptDone .authFail ∧ u.models = s.models ∧ u = { s with acct := u.acct })
  ∧ Ends .weightLoad rowWeightLoad (fun d s => byt d.body 16 23 ≠ 0 ∧ byt d.body 16 23 % 528 = 0
        ∧ packageRoom (byt d.body 16 23 / 528 * 512) ≤ weightRoom s (mkey d.domain.toNat (byt d.body 0 1))
        ∧ hostStatus d.env.host = none ∧ d.env.tagsOk = true
        ∧ ∃ m, getM s d.domain.toNat (byt d.body 0 1) = some m ∧ m.key.isSome ∧ m.loaded = false
          ∧ headerAgrees m.record (byt d.body 0 1) (d.env.plain % 2 ^ (8 * (byt d.body 16 23 / 528 * 512))) (byt d.body 16 23) = true)
      (fun d s u a => a = .acceptDone .ok ∧ u = { s with acct := u.acct, models := u.models }
        ∧ ∃ m, getM u d.domain.toNat (byt d.body 0 1) = some m ∧ m.loaded = true ∧ m.damaged = false
          ∧ m.weights = d.env.plain % 2 ^ (8 * (byt d.body 16 23 / 528 * 512)) ∧ m.weightBytes = byt d.body 16 23 / 528 * 512
          ∧ m.digest = digestOf m.weights m.weightBytes)
  ∧ Ends .weightUnload rowWeightUnload (fun d s => (getM s d.domain.toNat (byt d.body 0 1)).isSome
        ∧ modelHasHeat s d.domain.toNat (byt d.body 0 1) = false)
      (fun d s u a => a = .done ∧ u = { s with models := u.models }
        ∧ ∃ m, getM u d.domain.toNat (byt d.body 0 1) = some m ∧ m.loaded = false ∧ m.weights = 0 ∧ m.weightBytes = 0)

/-! ## Huavo 0x05xx and 0x06xx: page memory, sequences, heats and courses -/

/-- R98, R99, R447, R465: page memory is carved under a fresh key; its size fields stay locked while it is enabled. -/
def Obligations.PageMemoryIsConfigured : Prop :=
  Ends .memConfig rowMemConfig (fun d s => 64 ≤ rf (BitVec.ofNat 64 (byt d.body 0 7)) 47 34
        ∧ rf (BitVec.ofNat 64 (byt d.body 0 7)) 31 20 ≤ 3276 ∧ rf (BitVec.ofNat 64 (byt d.body 0 7)) 19 9 ≤ 1638
        ∧ pageOn s = true ∧ differ s.mem.record (BitVec.ofNat 64 (byt d.body 0 7)) memLocked = false)
      (fun d s u a => a = .acceptDone .ok ∧ u.mem.record = s.mem.record
        ∧ u.mem.shadow = some (merge (s.mem.shadow.getD s.mem.record) (BitVec.ofNat 64 (byt d.body 0 7)) memRws)
        ∧ u = { s with mem := { s.mem with shadow := u.mem.shadow } })
  ∧ Does .memConfig rowMemConfig (fun d s => 64 ≤ rf (BitVec.ofNat 64 (byt d.body 0 7)) 47 34
        ∧ rf (BitVec.ofNat 64 (byt d.body 0 7)) 31 20 ≤ 3276 ∧ rf (BitVec.ofNat 64 (byt d.body 0 7)) 19 9 ≤ 1638
        ∧ pageOn s = true ∧ differ s.mem.record (BitVec.ofNat 64 (byt d.body 0 7)) memLocked = true)
      (fun _ s => (s, .fail .busy))
  ∧ (∀ (s t : State) (r : BitVec 64), carve s r = some t → t.sec.metaKey = some s.sec.keys ∧ t.sec.keys = s.sec.keys + 1
        ∧ t.mem.frames = .empty ∧ 16384 ≤ t.mem.fch ∧ t.mem.fch ≤ 838860
        ∧ t = { s with mem := t.mem, sec := t.sec })
  ∧ (∀ (s t : State) (r : BitVec 64), carve s r = some t → rb r 0 = true → pageOn t = true)
  ∧ Does .frameQuery rowFrameQuery (fun d s => pageOn s = true ∧ frameOk s (byt d.body 0 2) = true
        ∧ (getFr s (byt d.body 0 2)).state ≠ .free) (fun d s => (s, .done (frameWord s (byt d.body 0 2))))
  ∧ Does .frameQuery rowFrameQuery (fun _ s => pageOn s = false) (fun _ s => (s, .fail .badState))

/-- R106, R120, R158, R464, R465: what the sequence commands do at a sequence's home. -/
def Obligations.SequencesObeyTheirHome : Prop :=
  (∀ (d : Desc) (s : State), reaches rowSeqCreate d s = true → ∀ x, modelFor d (atBody d s) (pModel (byt d.body 0 15)) = .ok x →
      pageOn (atBody d s) = true → seqCreateBad x.record (byt d.body 0 15) = false → placeOn (atBody d s) = true →
      throttled (atBody d s) d.domain.toNat = true →
      exec (.seqCreate d) s = .next (startSearches (finishAns rowSeqCreate d (atBody d s)
        (.fail .retryAfter 0 (retryUs (atBody d s))))))
  ∧ (∀ (d : Desc) (s : State), reaches rowSeqCreate d s = true → pageOn (atBody d s) = false →
      exec (.seqCreate d) s = .next (startSearches (finishAns rowSeqCreate d (atBody d s) (.fail .badState))))
  ∧ (∀ (d : Desc) (s : State) (x : ModelSt) (id : Nat), reaches rowSeqCreate d s = true →
      getM (atBody d s) d.domain.toNat (pModel (byt d.body 0 15)) = some x → pageOn (atBody d s) = true →
      seqCreateBad x.record (byt d.body 0 15) = false → placeOn (atBody d s) = true →
      throttled (atBody d s) d.domain.toNat = false →
      freeSeqIndex (atBody d s) (freeVal (atBody d s) % 2 ^ 20)
        (min (2 ^ 20) ((atBody d s).seqs.size + (atBody d s).place.searches.size + 1)) = some id →
      ∃ u y, exec (.seqCreate d) s = .next (startSearches (finishAns rowSeqCreate d u (.accept (.seq id))))
        ∧ u.place.searches.get? id = some y ∧ y.domain = d.domain.toNat ∧ y.payload = byt d.body 0 15
        ∧ u = { atBody d s with place := u.place, free := (atBody d s).free + 1 })
  ∧ Ends .seqFree rowSeqFree (fun d s => homeOf s (byt d.body 0 5) = s.nodeNo
        ∧ ∃ q, seqFor d (renewBy d s (byt d.body 0 5)) (byt d.body 0 5) true = .ok q ∧ q.state ≠ .running ∧ q.stripes = []
          ∧ objBusy s (.seq (byt d.body 0 5)) = false)
      (fun d s u a => a = .acceptDone .ok ∧ u = forgetSeq (renewBy d s (byt d.body 0 5)) (byt d.body 0 5))
  ∧ Ends .seqFree rowSeqFree (fun d s => homeOf s (byt d.body 0 5) = s.nodeNo
        ∧ ∃ q, seqFor d (renewBy d s (byt d.body 0 5)) (byt d.body 0 5) true = .ok q ∧ q.state = .running)
      (fun d s u a => a = .fail .badState ∧ u = renewBy d s (byt d.body 0 5))
  ∧ Ends .seqTruncate rowSeqTruncate (fun d s => homeOf s (byt d.body 0 5) = s.nodeNo
        ∧ objBusy s (.seq (byt d.body 0 5)) = false
        ∧ ∃ q, seqFor d (renewBy d s (byt d.body 0 5)) (byt d.body 0 5) = .ok q ∧ byt d.body 8 10 < q.length ∧ q.state = .idle
          ∧ (sliceOf s q.domain).isSome ∧ pagesWithin (renewBy d s (byt d.body 0 5)) q (byt d.body 8 10) = [])
      (fun d s u a => a = .accept (.seq (byt d.body 0 5))
        ∧ (getQ u (byt d.body 0 5)).bind (·.trunc) = some { position := byt d.body 8 10 } ∧ u = { s with seqs := u.seqs })
  ∧ Ends .seqTruncate rowSeqTruncate (fun d s => homeOf s (byt d.body 0 5) = s.nodeNo
        ∧ ∃ q, seqFor d (renewBy d s (byt d.body 0 5)) (byt d.body 0 5) = .ok q ∧ q.length ≤ byt d.body 8 10)
      (fun d s u a => a = .fail .badField ∧ u = renewBy d s (byt d.body 0 5))
  ∧ Ends .seqQuery rowSeqQuery (fun d s => homeOf s (byt d.body 0 5) = s.nodeNo ∧ byt d.body 8 15 % 64 = 0
        ∧ ∃ q, seqFor d (renewBy d s (byt d.body 0 5)) (byt d.body 0 5) true = .ok q)
      (fun d s u a => u = renewBy d s (byt d.body 0 5) ∧ ∃ q, getQ u (byt d.body 0 5) = some q
        ∧ a = .done 0 0 (byt d.body 8 15) 384 (descWord (byt d.body 0 5) q + stripeWord q.stripes * 2 ^ 2048))
  ∧ Ends .seqGlobal rowSeqGlobal (fun d s => homeOf s (byt d.body 0 5) = s.nodeNo ∧ objBusy s (.seq (byt d.body 0 5)) = false
        ∧ bit d.body 88 = false
        ∧ ∃ q, seqFor d (renewBy d s (byt d.body 0 5)) (byt d.body 0 5) = .ok q ∧ 0 < mT (seqModel (renewBy d s (byt d.body 0 5)) q)
          ∧ byt d.body 8 10 < ceilDiv q.length (mT (seqModel (renewBy d s (byt d.body 0 5)) q)))
      (fun d s u a => a = .acceptDone .ok ∧ u = { s with seqs := u.seqs }
        ∧ ∃ q, getQ u (byt d.body 0 5) = some q ∧ byt d.body 8 10 ∉ q.globals)

/-- R54, R234 to R236, R430, R466, R524: heats. -/
def Obligations.HeatsRunAndStop : Prop :=
  Ends .heatCreate rowHeatCreate (fun d s => byt d.body 0 1 ≤ 4095 ∧ s.heats.has (byt d.body 0 1) = false
        ∧ ∃ m sl h moved, getM s d.domain.toNat (hModel (heatRec d)) = some m
          ∧ sliceOf s d.domain.toNat = some sl ∧ weightsMissing m = false
          ∧ heatBad d.func (heatRec d) = false
          ∧ bindCheck s (byt d.body 0 1) d.domain.toNat sl
              (hCourse (heatRec d))
              (hSlots (heatRec d)) m.record = none
          ∧ sizeHeat s (byt d.body 0 1) (freshHeat d) (heatRec d) m.record
              (((s.courses.get? (hCourse (heatRec d))).map (·.image)).getD 0) = some (h, moved))
      (fun d s u a => u = { s with heats := u.heats } ∧ ∃ h, getH u (byt d.body 0 1) = some h ∧ h.state = .stopped
        ∧ h.func = d.func ∧ h.lap = none ∧ a = .done (windowResult h))
  ∧ Does .heatCreate rowHeatCreate (fun d _ => 4095 < byt d.body 0 1) (fun _ s => (s, .fail .badField))
  ∧ Ends .heatSet rowHeatSet (fun d s => ∃ h m sl, heatFor d s (byt d.body 0 1) = .ok h ∧ h.state = .running
        ∧ objBusy s (.heat (byt d.body 0 1)) = false
        ∧ heatBad h.func (heatAsked d h) = false
        ∧ differ h.record (heatAsked d h) heatLocked = false
        ∧ getM s (hDomain (heatAsked d h)) (hModel (heatAsked d h)) = some m
        ∧ sliceOf s (hDomain (heatAsked d h)) = some sl
        ∧ hCourse (heatAsked d h) = hCourse h.record
        ∧ hModel (heatAsked d h) = hModel h.record
        ∧ hSlots (heatAsked d h) = hSlots h.record
        ∧ slotsForbid h (heatAsked d h) = false)
      (fun d s u a => a = .done 0 ∧ u = { s with heats := u.heats } ∧ ∃ h g, getH s (byt d.body 0 1) = some h
        ∧ getH u (byt d.body 0 1) = some g ∧ g.shadow = some (heatAsked d h)
        ∧ g.record = merge h.record (heatAsked d h) heatLocked ∧ g.state = .running)
  ∧ Ends .heatSet rowHeatSet (fun d s => ∃ h, heatFor d s (byt d.body 0 1) = .ok h ∧ h.state = .running
        ∧ objBusy s (.heat (byt d.body 0 1)) = false
        ∧ heatBad h.func (heatAsked d h) = false
        ∧ differ h.record (heatAsked d h) heatLocked = true)
      (fun _ s u a => a = .fail .busy ∧ u = s)
  ∧ Ends .heatQuery rowHeatQuery (fun d s => ∃ h, heatFor d s (byt d.body 0 1) = .ok h ∧ h.state ≠ .stopping)
      (fun d s u a => u = s ∧ ∃ h, getH s (byt d.body 0 1) = some h ∧ a = .done ((heatWord h).toNat % 2 ^ 128) (heatAux h))
  ∧ Ends .heatStart rowHeatStart (fun d s => ∃ h, heatFor d s (byt d.body 0 1) = .ok h ∧ h.state = .stopped)
      (fun d s u a => a = .done ∧ ∃ h, getH s (byt d.body 0 1) = some h ∧ u = setH s (byt d.body 0 1) { h with state := .running })
  ∧ Ends .heatStart rowHeatStart (fun d s => ∃ h, heatFor d s (byt d.body 0 1) = .ok h ∧ h.state = .running)
      (fun _ s u a => a = .fail .badState ∧ u = s)
  ∧ Ends .heatStop rowHeatStop (fun d s => ∃ h, heatFor d s (byt d.body 0 1) = .ok h ∧ h.state = .running ∧ h.layer = 0
        ∧ h.held = none ∧ h.lap = none)
      (fun d s u a => a = .done ∧ ∃ h, getH s (byt d.body 0 1) = some h ∧ u = setH s (byt d.body 0 1) { h with state := .stopped })
  ∧ Ends .heatStop rowHeatStop (fun d s => ∃ h, heatFor d s (byt d.body 0 1) = .ok h ∧ h.state = .running ∧ h.layer = 0
        ∧ h.held = none ∧ h.lap.isSome)
      (fun d s u a => a = .accept (.heat (byt d.body 0 1)) ∧ ∃ h, getH s (byt d.body 0 1) = some h
        ∧ u = setH s (byt d.body 0 1) { h with state := .stopping })
  ∧ Ends .heatDestroy rowHeatDestroy (fun d s => ∃ h, heatFor d s (byt d.body 0 1) = .ok h ∧ h.state = .stopped)
      (fun d s u a => a = .done ∧ (s.heats.wf = true → getH u (byt d.body 0 1) = none)
        ∧ u = { s with mem := u.mem, seqs := u.seqs, heats := u.heats, buffer := u.buffer })

/-- R79, R80, R466: a course is copied, verified, and held until it is unloaded; one a heat is bound to stays. -/
def Obligations.CoursesAreVerified : Prop :=
  Ends .courseLoad rowCourseLoad (fun d s => s.courses.get? (byt d.body 0 1) = none ∧ s.courses.size < 256
        ∧ hostStatus d.env.host = none)
      (fun d s u a => a = .accept (.course (byt d.body 0 1)) ∧ u = { s with courses := u.courses, acct := u.acct }
        ∧ ∃ c, u.courses.get? (byt d.body 0 1) = some c ∧ c.domain = d.domain.toNat ∧ c.length = byt d.body 16 19
          ∧ c.image = hostData d % 2 ^ (8 * byt d.body 16 19) ∧ c.state = .verifying)
  ∧ Does .courseLoad rowCourseLoad (fun d s => s.courses.get? (byt d.body 0 1) = none ∧ 256 ≤ s.courses.size)
      (fun _ s => (s, .fail .exhausted))
  ∧ (∀ (n t : Nat) (c : CourseSt) (s : State), s.courses.get? n = some c → c.state = .verifying →
      verifyCourse c.image c.length = none →
      ∃ u, exec (.courseVerifyDone n t) s = .next u ∧ u.courses = s.courses.set n
          { c with state := .loaded, digest := BitVec.ofNat 384 (imgBytes c.image (c.length - 48) 48) }
        ∧ u.heats = s.heats ∧ u.models = s.models ∧ u.seqs = s.seqs)
  ∧ (∀ (n t : Nat) (c : CourseSt) (r : Rejection) (s : State), s.courses.get? n = some c → c.state = .verifying →
      verifyCourse c.image c.length = some r →
      ∃ u, exec (.courseVerifyDone n t) s = .next u ∧ u.courses = s.courses.erase n
        ∧ u.heats = s.heats ∧ u.models = s.models ∧ u.seqs = s.seqs)
  ∧ Ends .courseUnload rowCourseUnload (fun d s => bindCount s (byt d.body 0 1) = 0
        ∧ ∃ c, courseFor d s (byt d.body 0 1) = .ok c ∧ c.state = .loaded)
      (fun d s u a => a = .done ∧ u = { s with courses := s.courses.erase (byt d.body 0 1) })
  ∧ Ends .courseUnload rowCourseUnload (fun d s => 0 < bindCount s (byt d.body 0 1)
        ∧ ∃ c, courseFor d s (byt d.body 0 1) = .ok c ∧ c.state = .loaded)
      (fun _ s u a => a = .fail .badState ∧ u = s)
  ∧ Ends .courseQuery rowCourseQuery (fun d s => byt d.body 8 15 % 64 = 0
        ∧ ∃ c, s.courses.get? (byt d.body 0 1) = some c ∧ c.domain = d.domain.toNat)
      (fun d s u a => u = s ∧ ∃ c, s.courses.get? (byt d.body 0 1) = some c
        ∧ a = .done (courseCode c + 2 ^ 16 * (bindCount s (byt d.body 0 1) % 2 ^ 16)) 0 (byt d.body 8 15) 176
          (c.image % 2 ^ 1024 + 2 ^ 1024 * imgBytes c.image (c.length - 48) 48))

/-! ## Huavo 0x09xx: the network (R294, R295, R303 to R310, R333, R336, R339, R347) -/

/-- R294, R295, R347, R303: port records, the tables, and protection domains. R333, R336, R339, R411: shapers, policers and
job keys. -/
def Obligations.NetworkShapersAndJobKeysAreConfigured : Prop :=
  (Does .netConfigPort rowNetConfig (fun d s => byt d.body 0 0 = 0 ∧ byt d.body 1 1 = 0 ∧ rb (ethOf s 0).record 0 = false
        ∧ rb (BitVec.ofNat 320 (byt d.body 16 55)) 0 = true)
      (fun d s => (setEth s 0 { ethOf s 0 with
        record := merge (ethOf s 0).record (BitVec.ofNat 320 (byt d.body 16 55)) ethWritable, link := 1 }, .done))
  ∧ Does .netConfigPort rowNetConfig (fun d s => byt d.body 0 0 = 0 ∧ byt d.body 1 1 = 1 ∧ rb (ethOf s 1).record 0 = true
        ∧ differ (ethOf s 1).record (BitVec.ofNat 320 (byt d.body 16 55)) ethLocked = true) (fun _ s => (s, .fail .busy))
  ∧ Does .netConfigAddresses rowNetConfig (fun d s => byt d.body 0 0 = 1 ∧ byt d.body 4 5 ≤ 4095 ∧ byt d.body 6 7 = 1
        ∧ placeOn s = false ∧ hostData d % 2 ^ 256 ≠ 0)
      (fun d s => (modNet s fun n => { n with addrs := n.addrs.set (byt d.body 4 5) (BitVec.ofNat 256 (hostData d)) }, .done))
  ∧ Does .netConfigLocality rowNetConfig (fun d s => byt d.body 0 0 = 2 ∧ byt d.body 4 5 ≤ 4095 ∧ byt d.body 6 7 = 1
        ∧ placeOn s = false)
      (fun d s =>
        let l := s.place.locality.set (byt d.body 4 5) (BitVec.ofNat 32 (hostData d))
        ({ s with place := { s.place with locality := l } }, .done))
  ∧ Does .netConfigAddresses rowNetConfig (fun d s => byt d.body 0 0 = 1 ∧ byt d.body 4 5 ≤ 4095
        ∧ byt d.body 4 5 + byt d.body 6 7 ≤ 4096 ∧ placeOn s = true) (fun _ s => (s, .fail .badState))
  ∧ Does .pdCreate rowPdCreate (fun d s => byt d.body 0 1 ≤ 4095 ∧ s.net.pds.has (byt d.body 0 1) = false)
      (fun d s => (modNet s fun n => { n with pds := n.pds.set (byt d.body 0 1) { domain := d.domain.toNat } }, .done))
  ∧ Does .pdDestroy rowPdDestroy (fun d s => byt d.body 0 1 ≤ 4095 ∧ (visiblePd d s (byt d.body 0 1)).isSome
        ∧ pdInUse s (byt d.body 0 1) = false)
      (fun d s => (modNet s fun n => { n with pds := n.pds.erase (byt d.body 0 1) }, .done))
  ∧ Does .pdDestroy rowPdDestroy (fun d s => byt d.body 0 1 ≤ 4095 ∧ pdInUse s (byt d.body 0 1) = true)
      (fun _ s => (s, .fail .badState)))
  ∧ (Does .shaperSet rowShaperSet (fun d _ => 0 < byt d.body 0 1 ∧ byt d.body 0 1 ≤ 4095 ∧ shaperBad (byt d.body 8 15) = false)
      (fun d s => (setSh s (byt d.body 0 1) { getSh s (byt d.body 0 1) with record := BitVec.ofNat 64 (byt d.body 8 15) }, .done))
  ∧ Does .shaperSet rowShaperSet (fun d _ => byt d.body 0 1 = 0 ∨ 4095 < byt d.body 0 1) (fun _ s => (s, .fail .badField))
  ∧ Ends .domainNetSet rowDomainNetSet (fun d _ => byt d.body 0 0 ≤ 63 ∧ 0 < byt d.body 20 23 ∧ byt d.body 20 23 ≤ 1048575
        ∧ shaperBad (byt d.body 8 15) = false)
      (fun d s u a => a = .done ∧ (getSh u (4096 + byt d.body 0 0)).record = BitVec.ofNat 64 (byt d.body 8 15)
        ∧ (∃ p, u.net.policers.get? (byt d.body 0 0) = some p ∧ p.rate = byt d.body 16 19 ∧ p.depth = byt d.body 20 23
          ∧ p.tokens ≤ byt d.body 20 23 * 8000)
        ∧ u = { s with net := { s.net with shapers := u.net.shapers, policers := u.net.policers } })
  ∧ Ends .jobKeyInstall rowJobKeyInstall (fun d s => byt d.body 0 1 ≤ 4095 ∧ ∃ p, visiblePd d s (byt d.body 0 1) = some p
        ∧ domPortOk d s p.domain = true ∧ sealedDomain s p.domain = true ∧ fld d.body 16 16 = 0 ∧ p.key0 = none)
      (fun d s u a => a = .done ∧ u.sec.keys = s.sec.keys + 1 ∧ (∃ p, u.net.pds.get? (byt d.body 0 1) = some p
          ∧ p.phase = 0 ∧ p.key0 = some s.sec.keys)
        ∧ u = { s with sec := u.sec, net := { s.net with pds := u.net.pds } })
  ∧ Ends .jobKeyInstall rowJobKeyInstall (fun d s => byt d.body 0 1 ≤ 4095 ∧ ∃ p, visiblePd d s (byt d.body 0 1) = some p
        ∧ domPortOk d s p.domain = true ∧ sealedDomain s p.domain = false)
      (fun _ s u a => a = .fail .badField ∧ u = s))

/-- R307 to R310: work queues and completion queues. R304, R305, R331: a region is registered under a key, and revoked once
its placements have drained. -/
def Obligations.RegionsAndQueuesAreMade : Prop :=
  (Ends .queueCreate rowQueueCreate (fun d s =>
        let r := BitVec.ofNat 256 ((BitVec.ofNat 256 (byt d.body 16 47)).toNat &&& queueWritable)
        ∃ p, visiblePd d s (rf r 99 88) = some p ∧ ((s.net.cqs.get? (rf r 87 74)).filter fun c => seesDomain d c.domain).isSome
          ∧ queueBad p.domain r = false ∧ queueInRange s p.domain (byt d.body 0 1) = true
          ∧ getWq s (byt d.body 0 1) = none ∧ lacksKey s p = false)
      (fun d s u a => a = .done ∧ u = { s with net := { s.net with queues := u.net.queues } }
        ∧ ∃ q, getWq u (byt d.body 0 1) = some q ∧ q.state = .ready ∧ q.func = funcCode d.port d.func
          ∧ q.record = BitVec.ofNat 256 ((BitVec.ofNat 256 (byt d.body 16 47)).toNat &&& queueWritable))
  ∧ Ends .queueModify rowQueueModify (fun d s => ∃ q, visibleQueue d s (byt d.body 0 1) = some q
        ∧ queueBad q.domain (BitVec.ofNat 256 (byt d.body 16 47)) = false
        ∧ (q.state = .reset ∨ differ q.record (BitVec.ofNat 256 (byt d.body 16 47)) queueLocked = false))
      (fun d s u a => a = .done ∧ ∃ q, visibleQueue d s (byt d.body 0 1) = some q
        ∧ u = setWq s (byt d.body 0 1) { q with record := merge q.record (BitVec.ofNat 256 (byt d.body 16 47)) queueWritable })
  ∧ Ends .queueModify rowQueueModify (fun d s => ∃ q, visibleQueue d s (byt d.body 0 1) = some q
        ∧ queueBad q.domain (BitVec.ofNat 256 (byt d.body 16 47)) = false ∧ q.state ≠ .reset
        ∧ differ q.record (BitVec.ofNat 256 (byt d.body 16 47)) queueLocked = true)
      (fun _ s u a => a = .fail .busy ∧ u = s)
  ∧ Ends .queueReset rowQueueReset (fun d s => byt d.body 0 1 < 65536 ∧ ∃ q, visibleQueue d s (byt d.body 0 1) = some q
        ∧ q.state = .error)
      (fun d s u a => a = .done ∧ u = resetQueues s (fun j _ => j == byt d.body 0 1))
  ∧ Ends .queueDestroy rowQueueDestroy (fun d s => ∃ q, visibleQueue d s (byt d.body 0 1) = some q ∧ q.state ≠ .ready)
      (fun d s u a => a = .done ∧ u = modNet s fun n => { n with
        queues := n.queues.erase (byt d.body 0 1), egress := n.egress.filter fun e => e.queue != byt d.body 0 1 })
  ∧ Ends .queueDestroy rowQueueDestroy (fun d s => ∃ q, visibleQueue d s (byt d.body 0 1) = some q ∧ q.state = .ready)
      (fun _ s u a => a = .fail .badState ∧ u = s)
  ∧ Does .cqCreate rowCqCreate (fun d s => byt d.body 0 1 ≤ 16383 ∧ 6 ≤ byt d.body 2 2 ∧ byt d.body 2 2 ≤ 16
        ∧ byt d.body 4 5 < vectorsOf d.func ∧ byt d.body 8 15 % 4096 = 0 ∧ cqInRange s d.domain.toNat (byt d.body 0 1) = true
        ∧ s.net.cqs.has (byt d.body 0 1) = false)
      (fun d s =>
        let c : CqSt := { base := byt d.body 8 15, log2 := byt d.body 2 2, vector := byt d.body 4 5, port := d.port,
                          func := d.func, domain := d.domain.toNat }
        (modNet s fun n => { n with cqs := n.cqs.set (byt d.body 0 1) c }, .done))
  ∧ Does .cqDestroy rowCqDestroy (fun d s => byt d.body 0 1 ≤ 16383
        ∧ ((s.net.cqs.get? (byt d.body 0 1)).filter fun c => seesDomain d c.domain).isSome
        ∧ (s.net.queues.any fun j q => decide (j < 65536) && q.internal.isNone && qCq q == byt d.body 0 1) = false)
      (fun d s => (modNet s fun n => { n with cqs := n.cqs.erase (byt d.body 0 1) }, .done)))
  ∧ ((∀ (d : Desc) (s : State) (i : Nat), reaches rowRegionRegister d s = true →
      (visiblePd d (atBody d s) (rf (BitVec.ofNat 256 (byt d.body 0 31)) 143 132)).isSome →
      regionBad (atBody d s) (BitVec.ofNat 256 (byt d.body 0 31)) = false →
      chooseFree (atBody d s) s.net.regions 262144 = some i →
      ∃ u, exec (.regionRegister d) s = .next (finishAns rowRegionRegister d u (.done (regionKey (atBody d s) i)))
        ∧ (u.net.regions.get? i).map (·.revoking) = some false ∧ (u.net.regions.get? i).map (·.func) = some (funcCode d.port d.func)
        ∧ u = { atBody d s with net := { s.net with regions := u.net.regions }, free := s.free + 1 })
  ∧ Does .regionRegister rowRegionRegister (fun d s =>
        (visiblePd d s (rf (BitVec.ofNat 256 (byt d.body 0 31)) 143 132)).isSome
        ∧ regionBad s (BitVec.ofNat 256 (byt d.body 0 31)) = false ∧ chooseFree s s.net.regions 262144 = none)
      (fun _ s => (s, .fail .exhausted))
  ∧ Ends .regionRevoke rowRegionRevoke (fun d s => ∃ r, regionAt s (byt d.body 0 3) = some r ∧ seesDomain d r.domain = true
        ∧ r.revoking = false)
      (fun d s u a => a = .accept (.region (fld (byt d.body 0 3) 17 0)) ∧ ∃ r, regionAt s (byt d.body 0 3) = some r
        ∧ u = modNet s fun n => { n with regions := n.regions.set (fld (byt d.body 0 3) 17 0) { r with revoking := true } })
  ∧ (∀ (i n : Nat) (r : RegionSt) (s : State), s.net.regions.get? i = some r → r.revoking = true → s.flights = [] →
      exec (.revokeDrained i n) s = .next (modNet (clockTo s n) fun x => { x with
        regions := x.regions.erase i, regionGen := x.regionGen.set i ((genOf s i + 1) % 2 ^ 14) })))

/-! ## Huavo 0x07xx: the prefix directory (R220 to R230, R467) -/

/-- R220, R224, R225, R226: a row record without holders goes, a domino shift moves one entry, and a sealed row is offered
once. That a command whose condition is not met changes nothing (but the time) is the model's choice (assumption 5). -/
def Obligations.DirectoryWorks : Prop :=
  (∀ (r : Nat) (v : RowRec) (s : State), s.dir.records.get? r = some v → v.holds ≠ 0 → exec (.rowRecordRelease r) s = .next s)
  ∧ (∀ (r : Nat) (v : RowRec) (s : State), s.dir.records.get? r = some v → v.holds = 0 → s.dir.records.wf = true →
      ∃ t, exec (.rowRecordRelease r) s = .next t ∧ t.dir.records.get? r = none
        ∧ (∀ p x, v.parent = some p → p ≠ r → s.dir.records.get? p = some x →
            t.dir.records.get? p = some { x with holds := x.holds - 1 })
        ∧ (∀ k, k ≠ r → v.parent ≠ some k → t.dir.records.get? k = s.dir.records.get? k)
        ∧ t = { s with dir := { s.dir with records := t.dir.records }, mem := t.mem })
  ∧ (∀ (b : Fin 64) (x : DirShift) (e : DirEntry) (s : State), s.dir.queues = .empty → (dirBank s b.val).shift = some x →
      x.goal + 1 < x.hole → (dirBank s b.val).entries.get? (x.hole - 1) = some e →
      exec (.dominoShift b) s = .next (setDirBank s b.val { dirBank s b.val with
        entries := (dirBank s b.val).entries.set x.hole e, shift := some { x with hole := x.hole - 1 } }))
  ∧ (∀ (b : Fin 64) (x : DirShift) (e : DirEntry) (s : State), s.dir.queues = .empty → (dirBank s b.val).shift = some x →
      x.hole + 1 < x.goal → (dirBank s b.val).entries.get? (x.hole + 1) = some e →
      exec (.dominoShift b) s = .next (setDirBank s b.val { dirBank s b.val with
        entries := (dirBank s b.val).entries.set x.hole e, shift := some { x with hole := x.hole + 1 } }))
  ∧ (∀ (b : Fin 64) (x : DirShift) (s : State), s.dir.queues = .empty → (dirBank s b.val).shift = some x →
      x.goal = x.hole → x.next = none →
      exec (.dominoShift b) s = .next (setDirBank s b.val { dirBank s b.val with
        entries := (dirBank s b.val).entries.set x.goal x.entry, shift := none }))
  ∧ (∀ (id : Nat) (q : SeqSt) (m : ModelSt) (l : List Nat) (s : State), getQ s id = some q → getM s q.domain q.model = some m →
      sealedRow s q q.rowTried = some l → (dPublish m = false ∨ cursorDepth q ≠ q.rowTried) →
      exec (.nodePublication id) s = .next (modQ s id fun q' => { q' with rowTried := q.rowTried + 1 }))
  ∧ (∀ (id : Nat) (q : SeqSt) (m : ModelSt) (l : List Nat) (s : State), getQ s id = some q → getM s q.domain q.model = some m →
      sealedRow s q q.rowTried = some l → dPublish m = true → cursorDepth q = q.rowTried → s.dir.queues = .empty →
      attaching s = false → shifting s (bankOf m (q.hashes.getD q.rowTried 0)) = false → q.hashes.getD q.rowTried 0 = 0 →
      ∃ t, exec (.nodePublication id) s = .next t
        ∧ getQ t id = some { q with rowTried := q.rowTried + 1, cursor := none }
        ∧ t.dir.counters = (countPub s q.domain q.model .noHash).dir.counters
        ∧ t = { s with seqs := t.seqs, dir := { s.dir with queues := t.dir.queues, counters := t.dir.counters } })

/-- R221, R227, R229, R230, R467: searching, publishing, retracting, counting and attaching. That a command whose condition is
not met changes nothing (but the time) is the model's choice (assumption 5). -/
def Obligations.PrefixesAreFoundAndShared : Prop :=
  Ends .prefixSearch rowPrefixSearch (fun d s => (∃ m, modelFor d s (byt d.body 0 1) = .ok m ∧ dBanks m ≠ 0) ∧ 0 < byt d.body 2 2
        ∧ byt d.body 2 2 ≤ 32 ∧ 0 < byt d.body 4 6 ∧ byt d.body 4 6 + byt d.body 2 2 ≤ 1048577)
      (fun d s u a =>
        let hit := fun m i => dirFind s m d.domain.toNat (byt d.body 0 1) (byt d.body 4 6 + i)
          (fld d.body (223 + 96 * i) (128 + 96 * i))
        u = s ∧ ∃ m, modelFor d s (byt d.body 0 1) = .ok m
          ∧ ((∀ i, i < byt d.body 2 2 → hit m i = none) → a = .done)
          ∧ (∀ i p e, i < byt d.body 2 2 → hit m i = some (p, e) → (∀ j, i < j → j < byt d.body 2 2 → hit m j = none) →
              a = .done (pack [(0, 21, byt d.body 4 6 + i), (24, 40, e.record), (64, 1, b2n e.byHost)])))
  ∧ (∀ (d : Desc) (s : State) (q : SeqSt) (m : ModelSt), reaches rowPrefixPublish d s = true →
      seqFor d (atBody d s) (byt d.body 0 5) = .ok q → objBusy (atBody d s) (.seq (byt d.body 0 5)) = false →
      getM (atBody d s) q.domain q.model = some m →
      exec (.prefixPublish d) s = .next (dirRun (finishAns rowPrefixPublish d
        (nextItem (newWork (atBody d s)).2 (newWork (atBody d s)).1 0 [pubItem (d.body % 2 ^ 320)])
        (.accept (workKey (newWork (atBody d s)).1)))))
  ∧ (∀ (d : Desc) (s : State) (m : ModelSt), reaches rowPrefixRetract d s = true →
      modelFor d (atBody d s) (byt d.body 0 1) = .ok m → 0 < byt d.body 8 10 → byt d.body 8 10 ≤ 1048576 → dBanks m ≠ 0 →
      exec (.prefixRetract d) s = .next (dirRun (finishAns rowPrefixRetract d
        (queueJob (newWork (atBody d s)).2 (bankOf m (byt d.body 16 27))
          (.retract (newWork (atBody d s)).1 (byt d.body 0 1) (byt d.body 8 10) (byt d.body 16 27)))
        (.accept (workKey (newWork (atBody d s)).1)))))
  ∧ (∀ (d : Desc) (s : State), reaches rowPrefixBulkLoad d s = true → 0 < byt d.body 8 9 → byt d.body 8 9 ≤ 4096 →
      hostStatus d.env.host = none →
      exec (.prefixBulkLoad d) s = .next (dirRun (finishAns rowPrefixBulkLoad d
        (nextItem (newWork (atBody d s)).2 (newWork (atBody d s)).1 0
          ((List.range (byt d.body 8 9)).map fun i => pubItem (hostData d / 2 ^ (384 * i) % 2 ^ 384)))
        (.accept (workKey (newWork (atBody d s)).1)))))
  ∧ Ends .prefixStats rowPrefixStats (fun d s => (∃ m, modelFor d s (byt d.body 0 1) = .ok m) ∧ byt d.body 8 15 % 64 = 0)
      (fun d s u a => ∃ m, modelFor d s (byt d.body 0 1) = .ok m
        ∧ a = .done 0 0 (byt d.body 8 15) (40 + 8 * dBanks m)
            (packElems 64 (((List.range 5).map fun i => s.dir.counters.getD (mkey d.domain.toNat (byt d.body 0 1) * 8 + i) 0)
              ++ ((List.range (dBanks m)).map fun i => validCount s ((m.bankBase + i) % 64))))
        ∧ (bit d.body 16 = false → u = s)
        ∧ (bit d.body 16 = true → ∀ i, i < 5 → u.dir.counters.get? (mkey d.domain.toNat (byt d.body 0 1) * 8 + i) = none)
        ∧ u = { s with dir := { s.dir with counters := u.dir.counters } })
  ∧ Ends .prefixAttach rowPrefixAttach (fun d s => 0 < byt d.body 8 10 ∧ byt d.body 8 10 ≤ 1048576
        ∧ objBusy s (.seq (byt d.body 0 5)) = false
        ∧ ∃ q m p e, seqFor d (renewBy d s (byt d.body 0 5)) (byt d.body 0 5) = .ok q ∧ q.state = .idle ∧ q.length = 0
          ∧ getM s q.domain q.model = some m ∧ dBanks m ≠ 0
          ∧ dirFind s m q.domain q.model (byt d.body 8 10) (byt d.body 16 27) = some (p, e))
      (fun d s u a => a = .accept (.seq (byt d.body 0 5)) ∧ u = { s with seqs := u.seqs }
        ∧ ∃ q x, getQ u (byt d.body 0 5) = some q ∧ q.attach = some x ∧ x.depth = byt d.body 8 10
          ∧ q.state = .idle ∧ q.length = 0)
  ∧ Ends .prefixAttach rowPrefixAttach (fun d s => 0 < byt d.body 8 10 ∧ byt d.body 8 10 ≤ 1048576
        ∧ objBusy s (.seq (byt d.body 0 5)) = false
        ∧ ∃ q, seqFor d (renewBy d s (byt d.body 0 5)) (byt d.body 0 5) = .ok q ∧ (q.state ≠ .idle ∨ q.length ≠ 0))
      (fun d s u a => a = .fail .badState ∧ u = renewBy d s (byt d.body 0 5))
  ∧ (∀ (id n : Nat) (s : State), ((getQ (clockTo s n) id).bind (·.attach)) = none →
      exec (.recordWalkDone id n) s = .next (clockTo s n))
  ∧ (∀ (id n : Nat) (q : SeqSt) (x : Attach) (s : State), getQ (clockTo s n) id = some q → q.attach = some x →
      (recordChain (clockTo s n) x.record (x.depth + 1)).length ≠ x.depth → (clockTo s n).dir.queues = .empty →
      exec (.recordWalkDone id n) s = .next (finishWhere (setQ (clockTo s n) id { q with attach := none })
        (fun g => g.key == .seq id && g.opcode == 0x0702) .badState 0 0))
  ∧ (∀ (id n : Nat) (q : SeqSt) (x : Attach) (s s0 s1 : State) (good : List (Nat × RowRec)), getQ (clockTo s n) id = some q →
      q.attach = some x → s0 = setQ (clockTo s n) id { q with attach := none } →
      (recordChain s0 x.record (x.depth + 1)).length = x.depth →
      good = (recordChain s0 x.record (x.depth + 1)).reverse.takeWhile (fun v => !v.2.broken) →
      (∀ v ∈ good, v.2.groupMask &&& q.groupMask = q.groupMask) → good.length * mT (seqModel s0 q) ≤ q.maxCtxM1 + 1 →
      (∀ v ∈ good, ∀ r ∈ hostedRows s0 q, (getFr s0 (recordFrame v.2 r.1 r.2)).refs
        + takes s0 q good (recordFrame v.2 r.1 r.2) ≤ 65535) →
      (good.zipIdx.flatMap fun v => (hostedRows s0 q).map fun r => (r, v.2, recordFrame v.1.2 r.1 r.2)).foldl
        (fun (o : Option State) p => o.bind fun s => ensureLeaf s id p.1.1 p.1.2 p.2.1) (some s0) = some s1 →
      s1.dir.queues = .empty →
      ∃ t, exec (.recordWalkDone id n) s = .next t ∧ (getQ t id).map (·.length) = some (good.length * mT (seqModel s0 q))
        ∧ (getQ t id).map (·.rowTried) = some good.length ∧ (getQ t id).map (·.attach) = some none)

/-! ## Indexes (R192, R193, R468) -/

/-- R192, R193, R468: an index is built at its threshold, rebuilt at twice its last count, and committed. That a command whose
condition is not met changes nothing (but the time) is the model's choice (assumption 5). -/
def Obligations.IndexesAreBuilt : Prop :=
  (∀ (id l g : Nat) (q : SeqSt) (s : State), getQ s id = some q → s.sel.indexes.has (idxKey id l g) = true →
      (getIdx s (idxKey id l g)).state = .none → sThreshold (mSel (seqModel s q)) ≤ idxCount (getIdx s (idxKey id l g)) →
      (getIdx s (idxKey id l g)).retryAt ≤ idxCount (getIdx s (idxKey id l g)) →
      exec (.indexBuild id l g) s = .next (idxBegin s (idxKey id l g) .building))
  ∧ (∀ (id l g : Nat) (s : State), s.sel.indexes.has (idxKey id l g) = true →
      (getIdx s (idxKey id l g)).state = .active →
      2 * (getIdx s (idxKey id l g)).nBuild ≤ idxCount (getIdx s (idxKey id l g)) →
      exec (.indexBuild id l g) s = .next (idxBegin s (idxKey id l g) .rebuilding))
  ∧ (∀ (id l g : Nat) (s : State), (getIdx s (idxKey id l g)).state = .active →
      idxCount (getIdx s (idxKey id l g)) < 2 * (getIdx s (idxKey id l g)).nBuild → exec (.indexBuild id l g) s = .next s)
  ∧ (∀ (id l g : Nat) (room : Bool) (q : SeqSt) (s : State), getQ s id = some q →
      (getIdx s (idxKey id l g)).state ≠ .building → (getIdx s (idxKey id l g)).state ≠ .rebuilding →
      exec (.indexBuildComplete id l g room) s = .next s)
  ∧ (∀ (id l g : Nat) (q : SeqSt) (s : State), getQ s id = some q → q.state = .running →
      (getIdx s (idxKey id l g)).state = .building → (getIdx s (idxKey id l g)).ready = none →
      ∃ t r, exec (.indexBuildComplete id l g true) s = .next t ∧ (getIdx t (idxKey id l g)).ready = some r
        ∧ (getIdx t (idxKey id l g)).entries = (getIdx s (idxKey id l g)).entries
        ∧ t = { s with sel := { s.sel with indexes := t.sel.indexes } }
        ∧ ∀ k, k ≠ idxKey id l g → t.sel.indexes.get? k = s.sel.indexes.get? k)
  ∧ (∀ (id l g : Nat) (s : State), (getIdx s (idxKey id l g)).state = .rebuilding → (getIdx s (idxKey id l g)).ready = none →
      ∃ t, exec (.indexBuildComplete id l g false) s = .next t ∧ (getIdx t (idxKey id l g)).state = .active
        ∧ (getIdx t (idxKey id l g)).retryAt = 2 * idxCount (getIdx s (idxKey id l g))
        ∧ (getIdx t (idxKey id l g)).centroids = (getIdx s (idxKey id l g)).centroids)
  ∧ Ends .selRebuild rowSelRebuild (fun d s => ∃ q, seqFor d (renewBy d s (byt d.body 0 5)) (byt d.body 0 5) = .ok q
        ∧ byt d.body 6 6 < mLayers (seqModel s q) ∧ byt d.body 7 7 < mGroups (seqModel s q)
        ∧ (getIdx s (idxKey (byt d.body 0 5) (byt d.body 6 6) (byt d.body 7 7))).state = .active)
      (fun d s u a => a = .accept (.index (byt d.body 0 5) (byt d.body 6 6) (byt d.body 7 7))
        ∧ u = idxBegin (renewBy d s (byt d.body 0 5)) (idxKey (byt d.body 0 5) (byt d.body 6 6) (byt d.body 7 7)) .rebuilding)
  ∧ Ends .selRebuild rowSelRebuild (fun d s => ∃ q, seqFor d (renewBy d s (byt d.body 0 5)) (byt d.body 0 5) = .ok q
        ∧ byt d.body 6 6 < mLayers (seqModel s q) ∧ byt d.body 7 7 < mGroups (seqModel s q)
        ∧ (getIdx s (idxKey (byt d.body 0 5) (byt d.body 6 6) (byt d.body 7 7))).state = .none)
      (fun d s u a => a = .fail .badState ∧ u = renewBy d s (byt d.body 0 5))

/-! ## Huavo 0x08xx: selector settings, audits and collections (R189, R199, R207 to R213, R468, R469) -/

/-- R189, R199, R207, R468: a heat's selector record waits for its next boundary, a filter is bound, audit counters are read. -/
def Obligations.SelectorIsSet : Prop :=
  Ends .selHeatSet rowSelHeatSet (fun d s => (∃ h, heatFor d s (byt d.body 0 1) = .ok h)
        ∧ rf (BitVec.ofNat 64 (byt d.body 8 15)) 57 52 ≤ rf (BitVec.ofNat 64 (byt d.body 8 15)) 51 46
        ∧ objBusy s (.heat (byt d.body 0 1)) = false)
      (fun d s u a => a = .done ∧ ∃ h, getH s (byt d.body 0 1) = some h
        ∧ getH u (byt d.body 0 1) = some { h with selShadow := some (BitVec.ofNat 64 (byt d.body 8 15)) }
        ∧ u = { s with heats := u.heats })
  ∧ Ends .selHeatSet rowSelHeatSet (fun d s => (∃ h, heatFor d s (byt d.body 0 1) = .ok h)
        ∧ rf (BitVec.ofNat 64 (byt d.body 8 15)) 51 46 < rf (BitVec.ofNat 64 (byt d.body 8 15)) 57 52)
      (fun _ s u a => a = .fail .badField ∧ u = s)
  ∧ Ends .filterBind rowFilterBind (fun d s => objBusy s (.seq (byt d.body 0 5)) = false
        ∧ ∃ q, seqFor d (renewBy d s (byt d.body 0 5)) (byt d.body 0 5) = .ok q
          ∧ bitmapOk s (byt d.body 8 15) (byt d.body 16 23) (ceilDiv (q.maxCtxM1 + 1) (max 1 (mT (seqModel s q)))) = true)
      (fun d s u a => a = .done ∧ u = { s with seqs := u.seqs } ∧ ∃ q, getQ u (byt d.body 0 5) = some q
        ∧ (q.state = .running → q.filterNext = some (some (byt d.body 8 15, byt d.body 16 23)))
        ∧ (q.state ≠ .running → q.filter = some (byt d.body 8 15, byt d.body 16 23) ∧ q.filterNext = none))
  ∧ Ends .filterUnbind rowFilterUnbind (fun d s => objBusy s (.seq (byt d.body 0 5)) = false
        ∧ ∃ q, seqFor d (renewBy d s (byt d.body 0 5)) (byt d.body 0 5) = .ok q ∧ (q.filterNext.getD q.filter).isSome)
      (fun d s u a => a = .done ∧ u = { s with seqs := u.seqs } ∧ ∃ q, getQ u (byt d.body 0 5) = some q
        ∧ (q.state = .running → q.filterNext = some none) ∧ (q.state ≠ .running → q.filter = none ∧ q.filterNext = none))
  ∧ Ends .filterUnbind rowFilterUnbind (fun d s => objBusy s (.seq (byt d.body 0 5)) = false
        ∧ ∃ q, seqFor d (renewBy d s (byt d.body 0 5)) (byt d.body 0 5) = .ok q ∧ q.filterNext.getD q.filter = none)
      (fun d s u a => a = .fail .badState ∧ u = renewBy d s (byt d.body 0 5))
  ∧ Ends .auditRead rowAuditRead (fun d s => (∃ m, modelFor d s (byt d.body 0 1) = .ok m) ∧ byt d.body 8 15 % 64 = 0
        ∧ hostStatus d.env.host = none)
      (fun d s u a => a = .done
        ∧ u.out.head? = some (.hostWrite d.port (byt d.body 8 15) 32 (auditWords s d.domain.toNat (byt d.body 0 1)))
        ∧ (bit d.body 16 = false → u.sel = s.sel)
        ∧ (bit d.body 16 = true → auditWords u d.domain.toNat (byt d.body 0 1) = 0))

/-- R208, R209, R211, R468: a collection is created over its own frames, filled, thinned and destroyed. -/
def Obligations.CollectionsAreKept : Prop :=
  Ends .collCreate rowCollCreate (fun d s => byt d.body 1 1 ≤ 1 ∧ 0 < byt d.body 2 3 ∧ byt d.body 2 3 ≤ 4096
        ∧ byt d.body 4 4 ≤ 2 ∧ 0 < byt d.body 16 18 ∧ selBad (BitVec.ofNat 64 (byt d.body 8 15)) = false
        ∧ getColl s d.domain.toNat (byt d.body 0 0) = none ∧ collBusy s d.domain.toNat (byt d.body 0 0) = false
        ∧ ∃ sl r, sliceOf s d.domain.toNat = some sl ∧ drawColl s sl d.domain.toNat
            (ceilDiv (byt d.body 16 18) (collPerFrame (byt d.body 1 1) (byt d.body 2 3))
              + ceilDiv (byt d.body 16 18) (sketchesPerFrame (256 * 2 ^ byt d.body 4 4))
              + ceilDiv (centroidCount (byt d.body 16 18) (sTarget (BitVec.ofNat 64 (byt d.body 8 15))))
                  (centsPerFrame (256 * 2 ^ byt d.body 4 4))) 0 = some r)
      (fun d s u a => a = .acceptDone .ok ∧ ∃ c, getColl u d.domain.toNat (byt d.body 0 0) = some c
        ∧ c.format = byt d.body 1 1 ∧ c.dim = byt d.body 2 3 ∧ c.sketchBits = 256 * 2 ^ byt d.body 4 4
        ∧ c.capacity = byt d.body 16 18 ∧ c.items = .empty
        ∧ ∀ k, k ≠ collKey d.domain.toNat (byt d.body 0 0) → u.sel.colls.get? k = s.sel.colls.get? k)
  ∧ Ends .collCreate rowCollCreate (fun d s => byt d.body 1 1 ≤ 1 ∧ 0 < byt d.body 2 3 ∧ byt d.body 2 3 ≤ 4096
        ∧ byt d.body 4 4 ≤ 2 ∧ 0 < byt d.body 16 18 ∧ selBad (BitVec.ofNat 64 (byt d.body 8 15)) = false
        ∧ (getColl s d.domain.toNat (byt d.body 0 0)).isSome) (fun _ s u a => a = .fail .badState ∧ u = s)
  ∧ Ends .collDestroy rowCollDestroy (fun d s => ∃ c, getColl s d.domain.toNat (byt d.body 0 0) = some c
        ∧ (s.flights.any fun g => g.key == .coll d.domain.toNat (byt d.body 0 0)) = false)
      (fun d s u a => a = .acceptDone .ok ∧ u = { s with mem := u.mem, sel := u.sel }
        ∧ u.sel = { s.sel with colls := s.sel.colls.erase (collKey d.domain.toNat (byt d.body 0 0)) })
  ∧ Ends .collInsert rowCollInsert (fun d s => hostStatus d.env.host = none ∧ ∃ c i,
        getColl s d.domain.toNat (byt d.body 0 0) = some c
        ∧ collBusy s d.domain.toNat (byt d.body 0 0) = false ∧ (c.items.any fun _ y => y == byt d.body 8 15) = false
        ∧ chooseFree s c.items c.capacity = some i)
      (fun d s u a => a = .acceptDone .ok ∧ ∃ c c' i, getColl s d.domain.toNat (byt d.body 0 0) = some c
        ∧ getColl u d.domain.toNat (byt d.body 0 0) = some c' ∧ c.items.get? i = none ∧ i < c.capacity
        ∧ c'.items = c.items.set i (byt d.body 8 15))
  ∧ Ends .collInsert rowCollInsert (fun d s => ∃ c, getColl s d.domain.toNat (byt d.body 0 0) = some c
        ∧ collBusy s d.domain.toNat (byt d.body 0 0) = false ∧ (c.items.any fun _ y => y == byt d.body 8 15) = false
        ∧ chooseFree s c.items c.capacity = none) (fun _ s u a => a = .fail .exhausted ∧ u = s)
  ∧ Ends .collDelete rowCollDelete (fun d s => ∃ c i, getColl s d.domain.toNat (byt d.body 0 0) = some c
        ∧ (s.flights.any fun g => g.key == .coll d.domain.toNat (byt d.body 0 0)) = false
        ∧ c.items.find? (fun _ y => y == byt d.body 8 15) = some (i, byt d.body 8 15))
      (fun d s u a => a = .acceptDone .ok ∧ ∃ c c' i y, getColl s d.domain.toNat (byt d.body 0 0) = some c
        ∧ getColl u d.domain.toNat (byt d.body 0 0) = some c'
        ∧ c.items.find? (fun _ y => y == byt d.body 8 15) = some (i, y) ∧ c'.items = c.items.erase i)
  ∧ Ends .collDelete rowCollDelete (fun d s => ∃ c, getColl s d.domain.toNat (byt d.body 0 0) = some c
        ∧ collBusy s d.domain.toNat (byt d.body 0 0) = false ∧ c.items.find? (fun _ y => y == byt d.body 8 15) = none)
      (fun _ s u a => a = .fail .badState ∧ u = s)

/-- R212, R213, R316, R469: a query answers with its best records, or waits for the other contributors until its timeout. That
a command whose condition is not met changes nothing (but the time) is the model's choice (assumption 5). -/
def Obligations.CollectionsAreSearched : Prop :=
  Ends .collQuery rowCollQuery (fun d s => hostStatus d.env.host = none ∧ byt d.body 10 11 = s.nodeNo ∧ fld d.body 101 96 = 0
        ∧ ∃ c, getColl s d.domain.toNat (byt d.body 0 0) = some c ∧ queryBad s c d.body = false
          ∧ s.sel.merges.has (mergeKey d.domain.toNat (byt d.body 0 0) (byt d.body 16 19)) = false)
      (fun d s u a => ∃ c, getColl s d.domain.toNat (byt d.body 0 0) = some c
        ∧ a = .acceptDone (mergeStatus (collSearch s c d.body (hostData d)).2) (collSearch s c d.body (hostData d)).1.length 1
        ∧ ((collSearch s c d.body (hostData d)).1 ≠ [] → u.out.head? = some (.hostWrite d.port (byt d.body 32 39)
            (12 * (collSearch s c d.body (hostData d)).1.length) (collBytes (collSearch s c d.body (hostData d)).1)))
        ∧ u.sel = s.sel)
  ∧ Ends .collQuery rowCollQuery (fun d s => hostStatus d.env.host = none ∧ byt d.body 10 11 = s.nodeNo ∧ fld d.body 101 96 ≠ 0
        ∧ ∃ c, getColl s d.domain.toNat (byt d.body 0 0) = some c ∧ queryBad s c d.body = false
          ∧ s.sel.merges.has (mergeKey d.domain.toNat (byt d.body 0 0) (byt d.body 16 19)) = false)
      (fun d s u a => a = .accept (.coll d.domain.toNat (byt d.body 0 0)) (byt d.body 32 39) (byt d.body 16 19)
        ∧ ∃ c x, getColl s d.domain.toNat (byt d.body 0 0) = some c
          ∧ u.sel.merges.get? (mergeKey d.domain.toNat (byt d.body 0 0) (byt d.body 16 19)) = some x
          ∧ x.need = fld d.body 101 96 + 1 ∧ x.deadline = s.ns + byt d.body 14 15 * 1000000
          ∧ x.records = (collSearch s c d.body (hostData d)).1 ∧ x.got = [byt d.body 13 13])
  ∧ Ends .collQuery rowCollQuery (fun d s => ∃ c, getColl s d.domain.toNat (byt d.body 0 0) = some c
        ∧ queryBad s c d.body = false ∧ s.sel.merges.has (mergeKey d.domain.toNat (byt d.body 0 0) (byt d.body 16 19)) = true)
      (fun _ s u a => a = .fail .busy ∧ u = s)
  ∧ (∀ (m : MsgRef) (s : State), deliverable (clockTo s m.now) m 11 = none →
      exec (.selectMerge m) s = .next (clockTo s m.now))
  ∧ (∀ (m : MsgRef) (s : State) (q : QueueSt) (r : RecvMsg) (x : MergeSt), deliverable (clockTo s m.now) m 11 = some (q, r) →
      (delivered (clockTo s m.now) m.queue).sel.merges.get? (mergeKey q.domain (fld r.ext 95 88) (fld r.ext 127 96)) = some x →
      x.got.length + 1 < x.need →
      ∃ t y, exec (.selectMerge m) s = .next t
        ∧ t.sel.merges.get? (mergeKey q.domain (fld r.ext 95 88) (fld r.ext 127 96)) = some y
        ∧ y.got = x.got ++ [fld r.ext 87 82] ∧ y.need = x.need ∧ y.records.length ≤ x.k
        ∧ t = { delivered (clockTo s m.now) m.queue with sel := t.sel })
  ∧ (∀ (dom n id now : Nat) (x : MergeSt) (s : State), (clockTo s now).sel.merges.get? (mergeKey dom n id) = some x →
      (clockTo s now).ns < x.deadline → exec (.mergeTimeout dom n id now) s = .next (clockTo s now))
  ∧ (∀ (dom n id now : Nat) (x : MergeSt) (s : State), (clockTo s now).sel.merges.get? (mergeKey dom n id) = some x →
      x.deadline ≤ (clockTo s now).ns →
      exec (.mergeTimeout dom n id now) s = .next (endMerge (clockTo s now) dom n id x .timeout))

/-! ## Selection (R186, R195 to R198, R201 to R207) -/

/-- R186, R195, R201, R202, R203, R206, R207: a posted request is answered by a committed list, a lap installs it, and audits
compare it with an exhaustive search. That a command whose condition is not met changes nothing (but the time) is the
model's choice (assumption 5). -/
def Obligations.PagesAreSelected : Prop :=
  (∀ (u : Uop) (r : Run) (id : Nat) (q : SeqSt) (s : State), runOf s u = some r → u.parity = false → u.tagBad = false →
      slotSeq s r (refSlot u.a.toNat) = some (id, q) →
      (operandElems s u r u.core.val (fld u.b.toNat 13 0) false (mHpg r.m * r.dk)).1 ≤ 1 →
      (s.sel.queue.filter fun x => x.cluster == u.cl.val).length < 512 →
      (∀ x ∈ s.sel.queue, x.cluster ≠ u.cl.val ∨ x.heat ≠ u.heat) →
      ∃ t x, exec (.selReq u) s = .next t ∧ t.sel.queue = s.sel.queue ++ [x] ∧ x.cluster = u.cl.val ∧ x.heat = u.heat
        ∧ x.seq = id ∧ x.slot = refSlot u.a.toNat ∧ x.group = refGroup u.a.toNat ∧ x.layer = r.l.layer
        ∧ t = { s with sel := t.sel })
  ∧ (∀ (u : Uop) (r : Run) (id : Nat) (q : SeqSt) (s : State), runOf s u = some r → u.parity = false →
      slotSeq s r (refSlot u.a.toNat) = some (id, q) →
      s.sel.lists.get? (listKey u.cl.val u.heat (refSlot u.a.toNat) (refGroup u.a.toNat) r.l.layer) = none →
      exec (.selTake u) s = .next (charge s q.domain .selNone 1))
  ∧ (∀ (u : Uop) (r : Run) (id : Nat) (q : SeqSt) (x : SelList) (s : State), runOf s u = some r → u.parity = false →
      slotSeq s r (refSlot u.a.toNat) = some (id, q) →
      s.sel.lists.get? (listKey u.cl.val u.heat (refSlot u.a.toNat) (refGroup u.a.toNat) r.l.layer) = some x → x.seq = id →
      ∃ t, exec (.selTake u) s = .next t
        ∧ (getCl t u.heat u.cl.val).map (fun v => (v.work.pages.getD (rowKey (refSlot u.a.toNat) (refGroup u.a.toNat)) []).map (·.page))
          = some ((r.v.work.pages.getD (rowKey (refSlot u.a.toNat) (refGroup u.a.toNat)) []
              ++ takePages r u.cl.val (refSlot u.a.toNat) (refGroup u.a.toNat) q x.pages).map (·.page))
        ∧ t.acct = (charge s q.domain (if x.step = decodeStep r then .selFresh else .selStale) 1).acct
        ∧ t.sel = s.sel ∧ t.seqs = s.seqs ∧ t.mem = s.mem ∧ t.scratch = s.scratch ∧ t.buffer = s.buffer)
  ∧ (∀ (cl : Cluster) (n : Nat) (s : State), nextReq (clockTo s n) cl.val = none →
      exec (.selectorQuery cl n) s = .next (clockTo s n))
  ∧ (∀ (cl : Cluster) (n : Nat) (x : SelReq) (q : SeqSt) (s : State), nextReq (clockTo s n) cl.val = some x →
      getQ (clockTo s n) x.seq = some q →
      ∃ t, exec (.selectorQuery cl n) s = .next t
        ∧ t.sel.queue = (clockTo s n).sel.queue.erase x
        ∧ (t.sel.lists.get? (listKey cl.val x.heat x.slot x.group x.layer)).map (·.pages)
            = some (queryList (clockTo s n) x q).1
        ∧ (t.sel.lists.get? (listKey cl.val x.heat x.slot x.group x.layer)).map (·.step) = some x.step
        ∧ t = { clockTo s n with sel := t.sel, acct := t.acct })
  ∧ (∀ (cl : Cluster) (s : State), (nextReq s cl.val).isSome → exec (.recallAudit cl) s = .next s)
  ∧ (∀ (cl : Cluster) (x : Audit) (q : SeqSt) (s : State), nextReq s cl.val = none → nextAudit s cl.val = some x →
      auditLate s x = false → getQ s x.req.seq = some q →
      ∃ t, exec (.recallAudit cl) s = .next t ∧ t.sel.audits = s.sel.audits.erase x
        ∧ t.sel.auditCounts.getD ((q.domain * 65536 + q.model) * 4) 0
            = satAdd 64 (s.sel.auditCounts.getD ((q.domain * 65536 + q.model) * 4) 0) 1
        ∧ t = { s with sel := t.sel })
  ∧ (∀ (cl : Cluster) (x : Audit) (q : SeqSt) (s : State), nextAudit s cl.val = some x → auditLate s x = true →
      getQ s x.req.seq = some q →
      ∃ t, exec (.auditAbandon cl) s = .next t ∧ t.sel.audits = s.sel.audits.erase x
        ∧ t.sel.auditCounts.getD ((q.domain * 65536 + q.model) * 4 + 3) 0
            = satAdd 64 (s.sel.auditCounts.getD ((q.domain * 65536 + q.model) * 4 + 3) 0) 1
        ∧ t = { s with sel := t.sel, counters := t.counters })
  ∧ (∀ (cl : Cluster) (x : Audit) (s : State), nextAudit s cl.val = some x → auditLate s x = false →
      exec (.auditAbandon cl) s = .next s)

/-! ## Operations of a lap (R59 to R73, R81 to R90, R109, R124 to R134, R145 to R178) -/

/-- R17, R63: an operation belongs to the lap that runs in its cluster; where none does, it has no effect. That a command
whose condition is not met changes nothing (but the time) is the model's choice (assumption 5). -/
def Obligations.OperationsBelongToLaps : Prop :=
  ∀ (u : Uop) (n : Nat) (b : Bool) (s : State), runOf s u = none →
    exec (.mxeAtt u) s = .next s ∧ exec (.mxeMm u) s = .next s ∧ exec (.vecSmx u) s = .next s ∧ exec (.vecCvt u) s = .next s
    ∧ exec (.vecRot u) s = .next s ∧ exec (.vecNrm u) s = .next s ∧ exec (.vecFin u) s = .next s ∧ exec (.vecMrg u) s = .next s
    ∧ exec (.expPage u) s = .next s ∧ exec (.qenApp u) s = .next s ∧ exec (.qenSeal u) s = .next s ∧ exec (.selReq u) s = .next s
    ∧ exec (.selTake u) s = .next s ∧ exec (.netBtn u) s = .next s ∧ exec (.chnRd u n b) s = .next s
    ∧ exec (.chnWr u n) s = .next s

/-- R124 to R126, R129, R167: products, conversions and rotations write scratch units of their core and nothing else. R59,
R163, R166, R177, R178: statistics are normalised, passed on and folded over the cluster's cores. The place of a row in
its sequence and the order of folding follow assumptions 32 and 33. -/
def Obligations.RowsAreComputed : Prop :=
  ((∀ (u : Uop) (r : Run) (s : State), runOf s u = some r → u.parity = false → fld u.c.toNat 19 16 ≤ 7 →
      let l := (operandElems s u r u.core.val (fld u.a.toNat 13 0) (bit u.a.toNat 14) (fld u.c.toNat 15 0)).2.1
      ∃ t, exec (.vecCvt u) s = .next t ∧ RowAt t u (fld u.b.toNat 13 0) (fld u.c.toNat 19 16) (l.map elemValue)
        ∧ WritesOnly s t u (fld u.b.toNat 13 0) (ceilDiv (rowBytesOf (fld u.c.toNat 19 16) l.length) 64)
        ∧ t = { s with scratch := t.scratch })
  ∧ (∀ (u : Uop) (r : Run) (id : Nat) (q : SeqSt) (s : State), runOf s u = some r → u.parity = false →
      fld u.c.toNat 15 0 = mHeadDim r.m → 0 < mHeadDim r.m →
      let x := operandElems s u r u.core.val (fld u.a.toNat 13 0) (bit u.a.toNat 14) (mHeadDim r.m)
      x.1 ≤ 7 → slotSeq s r (x.2.2.getD 0 / 1024) = some (id, q) →
      ∃ t, exec (.vecRot u) s = .next t
        ∧ RowAt t u (fld u.b.toNat 13 0) 7 (rotateHead r.m (slotLimit r (x.2.2.getD 0 / 1024) q) (x.2.1.map elemValue))
        ∧ t = { s with scratch := t.scratch })
  ∧ (∀ (u : Uop) (r : Run) (s : State), runOf s u = some r → u.parity = false → u.tagBad = false → bit u.b.toNat 31 = false →
      fld u.extA.toNat 20 16 ≤ 6 → fld u.extB.toNat 20 16 ≤ 6 →
      let m := (fld u.a.toNat 15 14 + 1) * 8
      let k := fld u.extA.toNat 15 0
      let n := fld u.extB.toNat 15 0
      let rb := rowBytesOf (fld u.extB.toNat 20 16) k
      let x := chunks k m (decodeRow (fld u.extA.toNat 20 16) (m * k) (unitBytes (operandUnits s u r u.core.val
        (fld u.a.toNat 13 0) (bit u.a.toNat 16) (ceilDiv (rowBytesOf (fld u.extA.toNat 20 16) (m * k)) 64))))
      let w := unitBytes (operandUnits s u r u.core.val (fld u.b.toNat 13 0) false (ceilDiv (n * rb) 64)) % 2 ^ (8 * (n * rb))
      let y := (List.range n).map fun j => decodeRow (fld u.extB.toNat 20 16) k (imgBytes w (j * rb) rb)
      ∃ t, exec (.mxeMm u) s = .next t
        ∧ UnitsAt t u (fld u.c.toNat 13 0) 7 (ceilDiv (m * n) 16)
            (packElems 32 ((x.flatMap fun a => y.map fun b => dotTiles a b).map toBits32))
        ∧ WritesOnly s t u (fld u.c.toNat 13 0) (ceilDiv (m * n) 16)
        ∧ t = { s with scratch := t.scratch })
  ∧ (∀ (u : Uop) (r : Run) (s : State), runOf s u = some r → u.parity = false → u.tagBad = false → bit u.b.toNat 31 = true →
      u.weightBad = true → fld u.extA.toNat 20 16 ≤ 6 → fld u.extB.toNat 20 16 ≤ 6 →
      ∃ t, exec (.mxeMm u) s = .next t ∧ t.scratch = s.scratch
        ∧ (∀ x, getM s (hDomain r.h.record) (hModel r.h.record) = some x →
            getM t (hDomain r.h.record) (hModel r.h.record) = some { x with damaged := true })))
  ∧ ((∀ (u : Uop) (r : Run) (s : State), runOf s u = some r → u.parity = false →
      let l := (readStats s u u.core.val (fld u.a.toNat 13 0) r.dv (fld u.c.toNat 15 0)).1.flatMap normalise
      ∃ t, exec (.vecNrm u) s = .next t ∧ RowAt t u (fld u.b.toNat 13 0) 7 l
        ∧ WritesOnly s t u (fld u.b.toNat 13 0) (ceilDiv (rowBytesOf 7 l.length) 64) ∧ t = { s with scratch := t.scratch })
  ∧ (∀ (u : Uop) (r : Run) (s : State), runOf s u = some r → u.parity = false →
      let l := (readStats s u u.core.val (fld u.a.toNat 13 0) r.dv (fld u.c.toNat 4 0)).1
      ∃ t, exec (.vecFin u) s = .next t
        ∧ UnitsAt t u (fld u.b.toNat 13 0) 7 (statUnits r.dv l.length) (packElems (8 * statBytes r.dv) (l.map statWord))
        ∧ WritesOnly s t u (fld u.b.toNat 13 0) (statUnits r.dv l.length) ∧ t = { s with scratch := t.scratch })
  ∧ (∀ (u : Uop) (r : Run) (s : State), runOf s u = some r → u.parity = false →
      let c := fun k => (readStats s u k (fld u.a.toNat 13 0) r.dv (fld u.c.toNat 4 0)).1
      let l := (List.range (fld u.c.toNat 4 0)).map fun i => (foldStats r.dv
        [(c 0).getD i (statZero r.dv), (c 1).getD i (statZero r.dv), (c 2).getD i (statZero r.dv), (c 3).getD i (statZero r.dv)]).1
      ∃ t, exec (.vecMrg u) s = .next t
        ∧ UnitsAt t u (fld u.b.toNat 13 0) 7 (statUnits r.dv l.length) (packElems (8 * statBytes r.dv) (l.map statWord))
        ∧ WritesOnly s t u (fld u.b.toNat 13 0) (statUnits r.dv l.length)
        ∧ t = { s with scratch := t.scratch, heats := t.heats }))

/-- R62, R84, R145, R146, R152, R159 to R166: a page is expanded, scored against the queries, and taken into the statistics.
Scores stand with their lap as assumption 31 and the scratch layout of the log say. -/
def Obligations.PagesAreAttended : Prop :=
  (∀ (u : Uop) (r : Run) (x : LapPage) (b : BufPage) (s : State), runOf s u = some r → u.parity = false → u.tagBad = false →
      pageRef r u.a.toNat = some x → x.excluded = false → pageCopy s u.cl.val u.heat (fld u.b.toNat 16 0) x.frame = some b →
      b.authOk = true → pageGood s (hDomain r.h.record) b.copy = true → (pageOpenBytes b.copy (mHeadDim r.m)).isSome →
      ∃ t v, exec (.expPage u) s = .next t ∧ getCl t u.heat u.cl.val = some v
        ∧ v.expander.get? u.core.val = some ⟨refSlot u.a.toNat, refGroup u.a.toNat, refOrd u.a.toNat, fld u.b.toNat 16 0⟩
        ∧ t = { s with heats := t.heats })
  ∧ (∀ (u : Uop) (r : Run) (x : LapPage) (s : State), runOf s u = some r → u.parity = false → u.tagBad = false →
      pageRef r u.a.toNat = some x → x.excluded = false → pageCopy s u.cl.val u.heat (fld u.b.toNat 16 0) x.frame = none →
      ∃ t v, exec (.expPage u) s = .next t ∧ getCl t u.heat u.cl.val = some v
        ∧ (refSlot u.a.toNat, refGroup u.a.toNat, refOrd u.a.toNat, fld u.b.toNat 16 0) ∈ v.faults
        ∧ t = { s with heats := t.heats })
  ∧ (∀ (u : Uop) (r : Run) (x : LapPage) (s : State), runOf s u = some r → u.parity = false →
      pageRef r u.a.toNat = some x → x.excluded = true →
      ∃ t v, exec (.expPage u) s = .next t ∧ getCl t u.heat u.cl.val = some v
        ∧ v.expander = r.v.expander.erase u.core.val ∧ t = { s with heats := t.heats })
  ∧ (∀ (u : Uop) (r : Run) (x : LapPage) (p lo hi : Nat) (s : State), runOf s u = some r → u.parity = false →
      u.tagBad = false → bit u.c.toNat 1 = false → heldPage s r u = some (x, p, lo, hi) →
      (operandElems s u r u.core.val (fld u.b.toNat 13 0) (attInput u.b.toNat) (attHeads u.b.toNat * r.dk)).1 ≤ 1 →
      let q := (operandElems s u r u.core.val (fld u.b.toNat 13 0) (attInput u.b.toNat) (attHeads u.b.toNat * r.dk)).2.1
      ∃ t v y, exec (.mxeAtt u) s = .next t ∧ getCl t u.heat u.cl.val = some v ∧ v.scores.get? u.core.val = some y
        ∧ y.first = lo ∧ y.scores = ((chunks r.dk (attHeads u.b.toNat) q).map fun h =>
            (offsets lo hi).map fun j => toBits32 (dotTiles h (keyElems r.shape p j)))
        ∧ t = { s with heats := t.heats })
  ∧ (∀ (u : Uop) (r : Run) (s : State), runOf s u = some r → u.parity = false → bit u.c.toNat 1 = true → heldPage s r u = none →
      ∃ t, exec (.mxeAtt u) s = .next t
        ∧ UnitsAt t u (attStats u.c.toNat) 7 (statUnits r.dv (attHeads u.b.toNat))
            (packElems (8 * statBytes r.dv) ((List.replicate (attHeads u.b.toNat) (statZero r.dv)).map statWord))
        ∧ t = { s with scratch := t.scratch })
  ∧ (∀ (u : Uop) (r : Run) (y : AttPend) (x : LapPage) (p lo hi : Nat) (s : State), runOf s u = some r → u.parity = false →
      r.v.scores.get? u.core.val = some y → heldPage s r u = some (x, p, lo, hi) →
      y.a = u.a.toNat → y.b = u.b.toNat → y.c = u.c.toNat → y.first = lo →
      let old := (readStats s u u.core.val (attStats u.c.toNat) r.dv (attHeads u.b.toNat)).1
      let fins := (offsets lo hi).map fun j => valFinite r.shape p j
      let vals := (offsets lo hi).map fun j => valElems r.shape r.dv p j
      let new := (old.zip y.scores).map fun e =>
        let us := e.2.map fun w => if (scaledScore r.m (ofBits32 w)).isFinite then some (scaledScore r.m (ofBits32 w)) else none
        (pageUpdate e.1 (fun j => if lo ≤ j then us.getD (j - lo) none else none) (fun j => fins.getD (j - lo) false)
          (fun j => vals.getD (j - lo) []) r.shape.t).1
      ∃ t v, exec (.vecSmx u) s = .next t ∧ getCl t u.heat u.cl.val = some v ∧ v.scores = r.v.scores.erase u.core.val
        ∧ UnitsAt t u (attStats u.c.toNat) 7 (statUnits r.dv new.length) (packElems (8 * statBytes r.dv) (new.map statWord))
        ∧ WritesOnly s t u (attStats u.c.toNat) (statUnits r.dv new.length)
        ∧ t = { s with scratch := t.scratch, heats := t.heats })

/-- R66, R67, R82, R109, R123, R130 to R134, R268: pages are read, appended to, written and sealed. That a command whose
condition is not met changes nothing (but the time) is the model's choice (assumption 5). -/
def Obligations.PagesAreReadAndWritten : Prop :=
  (∀ (u : Uop) (r : Run) (f : Nat) (ok : Bool) (s : State), runOf s u = some r → u.parity = false → claimFrame r s u = some f →
      (getFr s f).damaged = false → lapReadable (getFr s f) = true →
      ∃ t b, exec (.chnRd u 0 ok) s = .next t ∧ t.buffer.get? (bufKey u.cl.val u.heat (fld u.b.toNat 16 0)) = some b
        ∧ b.frame = f ∧ b.copy = (getFr s f).data ∧ b.authOk = ok
        ∧ (∀ k, k ≠ bufKey u.cl.val u.heat (fld u.b.toNat 16 0) → t.buffer.get? k = s.buffer.get? k)
        ∧ t = { s with buffer := t.buffer, acct := t.acct, chans := t.chans })
  ∧ (∀ (u : Uop) (r : Run) (n : Nat) (ok : Bool) (s : State), runOf s u = some r → u.parity = false → claimFrame r s u = none →
      exec (.chnRd u n ok) s = .next s)
  ∧ (∀ (u : Uop) (r : Run) (x : LapPage) (b : BufPage) (s : State), runOf s u = some r → u.parity = false →
      pageRef r u.a.toNat = some x → pageCopy s u.cl.val u.heat (fld u.b.toNat 16 0) x.frame = some b →
      b.copy ≠ (getFr s x.frame).data → (getFr s x.frame).state = .opened → (getFr s x.frame).domain = hDomain r.h.record →
      ∃ t, exec (.chnWr u 0) s = .next t
        ∧ (getFr t x.frame).data
          = { b.copy with version := (getFr s x.frame).version + 1, key := (getD s (getFr s x.frame).domain).key }
        ∧ (getFr t x.frame).version = (getFr s x.frame).version + 1
        ∧ (∀ f, f ≠ x.frame → getFr t f = getFr s f)
        ∧ t = { s with mem := t.mem, buffer := t.buffer, acct := t.acct, chans := t.chans })
  ∧ (∀ (u : Uop) (r : Run) (n : Nat) (x : LapPage) (b : BufPage) (s : State), runOf s u = some r → u.parity = false →
      pageRef r u.a.toNat = some x → pageCopy s u.cl.val u.heat (fld u.b.toNat 16 0) x.frame = some b →
      b.copy = (getFr s x.frame).data → exec (.chnWr u n) s = .next s)
  ∧ (∀ (u : Uop) (r : Run) (x : LapPage) (b : BufPage) (id : Nat) (q : SeqSt) (s : State), runOf s u = some r →
      u.parity = false → u.tagBad = false → pageRef r u.a.toNat = some x → slotSeq s r (refSlot u.a.toNat) = some (id, q) →
      (getSlot r.h (refSlot u.a.toNat)).part = .appends → 0 < r.shape.t → x.page = q.length / r.shape.t →
      (getFr s x.frame).state = .opened → q.length % r.shape.t + 1 ≠ r.shape.t →
      pageCopy s u.cl.val u.heat (appendAddr r.image (ttIndex s r.h u.cl.val) u) x.frame = some b →
      let l := (operandElems s u r u.core.val (fld u.b.toNat 13 0) (bit u.b.toNat 14)
        (r.dk + if r.shape.latent then 0 else r.dv)).2.1.map elemValue
      let copy := appendRow r.shape b.copy (q.length % r.shape.t) (l.take r.dk) (l.drop r.dk)
      let k := bufKey u.cl.val u.heat (appendAddr r.image (ttIndex s r.h u.cl.val) u)
      exec (.qenApp u) s = .next { s with buffer := s.buffer.set k { b with copy := copy } })
  ∧ (∀ (u : Uop) (r : Run) (s : State), runOf s u = some r → u.parity = false → maxSeals r.image ≤ r.v.seals →
      exec (.qenSeal u) s = .next s)
  ∧ (∀ (u : Uop) (r : Run) (id f : Nat) (d : PageData) (s : State), runOf s u = some r → u.parity = false → u.tagBad = false →
      r.v.seals < maxSeals r.image → 0 < r.shape.t → sealTarget r s u = some (id, f, d) →
      ∃ t v, exec (.qenSeal u) s = .next t ∧ (getFr t f).state = .sealed ∧ (getFr t f).version = (getFr s f).version + 1
        ∧ getCl t u.heat u.cl.val = some v ∧ v.seals = r.v.seals + 1)

/-! ## Steps and laps (R43, R46 to R51, R84 to R90, R170 to R179, R237 to R249, R314, R431) -/

/-- R46, R47, R431: rows go into the bank they address, and a step mark is admitted, held, or rejected. That a command whose
condition is not met changes nothing (but the time) is the model's choice (assumption 5). The place of an input row in its
area is the model's (assumption 17). -/
def Obligations.StepsAreMarked : Prop :=
  (∀ (p : Port) (f : Func) (off len data : Nat) (s : State), inStepWindow f off = false →
      exec (.stepRowWrite p f off len data) s = .next s)
  ∧ (∀ (p : Port) (f : Func) (off len data k : Nat) (h : HeatSt) (s : State), inStepWindow f off = true → 0 < len →
      off % 64 + len ≤ 64 → heatAt s p f off = some k → getH s k = some h →
      bankBusy h ((off - h.stepBase) / h.bankBytes) = false →
      let b := (off - h.stepBase) / h.bankBytes
      let g := (off - h.stepBase) % h.bankBytes / 64
      ∃ t x, exec (.stepRowWrite p f off len data) s = .next t ∧ getH t k = some x
        ∧ (getBank x b).granules.getD g 0 = putBytes ((getBank h b).granules.getD g 0) (off % 64) len (data % 2 ^ (8 * len))
        ∧ (∀ i, i ≠ g → (getBank x b).granules.get? i = (getBank h b).granules.get? i)
        ∧ (getBank x b).poisoned = (getBank h b).poisoned
        ∧ t = { s with heats := t.heats } ∧ ∀ j, j ≠ k → getH t j = getH s j)
  ∧ (∀ (p : Port) (f : Func) (off len data k : Nat) (h : HeatSt) (s : State), inStepWindow f off = true → 0 < len →
      off % 64 + len ≤ 64 → heatAt s p f off = some k → getH s k = some h →
      bankBusy h ((off - h.stepBase) / h.bankBytes) = true →
      let b := (off - h.stepBase) / h.bankBytes
      exec (.stepRowWrite p f off len data) s
        = .next (count (setH s k (setBank h b { getBank h b with poisoned := true })) 1 ((domainOf s p f).getD 0) 3))
  ∧ (∀ (p : Port) (f : Func) (now k size : Nat) (v : Word) (s : State), s.sec.mod = .error →
      exec (.stepMark p f now k size v) s = .next s)
  ∧ (∀ (p : Port) (f : Func) (now k size : Nat) (v : Word) (s : State), s.sec.mod ≠ .error →
      (size ≠ 8 ∨ rf v 31 12 ≠ 0 ∨ rf v 11 0 ≠ k) →
      exec (.stepMark p f now k size v) s = .next (raiseRing (clockTo s now) p f 0x0030 (0x10000 + 64 * k) v.toNat))
  ∧ (∀ (p : Port) (f : Func) (now k : Nat) (v : Word) (h : HeatSt) (s : State), s.sec.mod ≠ .error → rf v 31 12 = 0 →
      rf v 11 0 = k → getH (clockTo s now) k = some h → h.doomed = false → heatVisible (clockTo s now) p f h = true →
      hCtrlPort h.record = p → h.last = some (BitVec.ofNat 32 (rf v 63 32)) →
      exec (.stepMark p f now k 8 v) s = .next (count (clockTo s now) 1 (hDomain h.record) 4))
  ∧ (∀ (p : Port) (f : Func) (now k : Nat) (v : Word) (h : HeatSt) (s : State), s.sec.mod ≠ .error → rf v 31 12 = 0 →
      rf v 11 0 = k → getH (clockTo s now) k = some h → h.doomed = false → heatVisible (clockTo s now) p f h = true →
      hCtrlPort h.record = p → h.last ≠ some (BitVec.ofNat 32 (rf v 63 32)) → (clockTo s now).fenced = false →
      BitVec.ofNat 32 (rf v 63 32) = h.expected → h.state = .running →
      (getBank h (h.expected.toNat % 2)).poisoned = false → claimsQuarantined (clockTo s now) h = false →
      (clockTo s now).boot.failed = false → h.held = none →
      let e := h.admitted % hDepth h.record
      ∃ h' : HeatSt, h'.expected = h.expected + 1 ∧ h'.last = some h.expected ∧ h'.admitted = h.admitted + 1
        ∧ h'.layer = (h.layer + 1) % mLayers (heatModel (clockTo s now) h) ∧ h'.lap = h.lap ∧ h'.slots = h.slots
        ∧ (mustHold (clockTo s now) h = false → exec (.stepMark p f now k 8 v) s
            = .next (acceptMark (setH (clockTo s now) k h') k h.expected h.layer e))
        ∧ (mustHold (clockTo s now) h = true →
            let m : HeldMark := { step := h.expected, order := (clockTo s now).heldNext, layer := h.layer, entry := e }
            exec (.stepMark p f now k 8 v) s = .next { setH (clockTo s now) k { h' with held := some m } with
              heldNext := (clockTo s now).heldNext + 1 }))
  ∧ (∀ (p : Port) (f : Func) (now k : Nat) (v : Word) (h : HeatSt) (s : State), s.sec.mod ≠ .error → rf v 31 12 = 0 →
      rf v 11 0 = k → getH (clockTo s now) k = some h → h.doomed = false → heatVisible (clockTo s now) p f h = true →
      hCtrlPort h.record = p → h.last ≠ some (BitVec.ofNat 32 (rf v 63 32)) → (clockTo s now).fenced = true →
      exec (.stepMark p f now k 8 v) s = .next (rejectResult (clockTo s now) k h (BitVec.ofNat 32 (rf v 63 32)) .fenced))

/-- R50, R84 to R87, R90, R251: a lap starts in a cluster that is free for it, passes hurdles, replays, parks and ends. That a
command whose condition is not met changes nothing (but the time) is the model's choice (assumption 5). -/
def Obligations.LapsRunInClusters : Prop :=
  (∀ (k : Nat) (c : Cluster) (n w : Nat) (s : State), canStart (clockTo s n) k c.val = false →
      exec (.lapStart k c n w) s = .next (clockTo s n))
  ∧ (∀ (k : Nat) (c : Cluster) (n w : Nat) (s : State), canStart (clockTo s n) k c.val = true →
      ∃ t v, exec (.lapStart k c n w) s = .next t ∧ getCl t k c.val = some v ∧ v.phase = .running
        ∧ v.start = (clockTo s n).ns ∧ v.work = v.savedWork ∧ (getC t c.val).holder = some k ∧ (getC t c.val).granted = none
        ∧ t.scratch = (clockTo s n).scratch ∧ t.buffer = (clockTo s n).buffer ∧ t.mem = (clockTo s n).mem
        ∧ t.seqs = (clockTo s n).seqs ∧ ∀ j, j ≠ k → getH t j = getH (clockTo s n) j)
  ∧ (∀ (u : Uop) (n : Nat) (v : LapCl) (s : State), getCl s u.heat u.cl.val = some v →
      (v.phase ≠ .running ∨ (getC s u.cl.val).holder ≠ some u.heat) →
      exec (.marHurdle u n) s = .next s ∧ exec (.marEnd u n) s = .next s)
  ∧ (∀ (u : Uop) (n e : Nat) (v : LapCl) (h : HeatSt) (s : State), getCl s u.heat u.cl.val = some v → getH s u.heat = some h →
      v.phase = .running → (getC s u.cl.val).holder = some u.heat → u.a.toNat = v.hurdle → v.parity = false → u.parity = false →
      v.faults = [] → hurdleOf (heatImage s h) (ttIndex s h u.cl.val) v.hurdle = some e → hPreempt e = false →
      ∃ t x, exec (.marHurdle u n) s = .next t ∧ getCl t u.heat u.cl.val = some x ∧ x.hurdle = v.hurdle + 1
        ∧ x.attempts = 0 ∧ x.savedWork = v.work ∧ x.work = v.work ∧ x.phase = .running ∧ x.lastAt = hOffset e
        ∧ (∀ i, i ∈ liveUnits (heatImage s h) u.cl.val e → x.savedScratch.getD i {} = s.scratch.getD i {})
        ∧ t = { s with heats := t.heats, deficits := t.deficits, acct := t.acct })
  ∧ (∀ (u : Uop) (n e : Nat) (v : LapCl) (h : HeatSt) (s : State), getCl s u.heat u.cl.val = some v → getH s u.heat = some h →
      v.phase = .running → (getC s u.cl.val).holder = some u.heat → u.a.toNat = v.hurdle →
      (v.parity = true ∨ u.parity = true) → v.attempts < 3 → v.faults = [] →
      hurdleOf (heatImage s h) (ttIndex s h u.cl.val) v.hurdle = some e →
      ∃ t x, exec (.marHurdle u n) s = .next t ∧ getCl t u.heat u.cl.val = some x ∧ x.hurdle = v.hurdle
        ∧ x.attempts = v.attempts + 1 ∧ x.parity = false ∧ x.work = v.savedWork ∧ x.phase = .running
        ∧ (getC t u.cl.val).replays = (getC s u.cl.val).replays + 1)
  ∧ (∀ (u : Uop) (n e : Nat) (v : LapCl) (h : HeatSt) (s : State), getCl s u.heat u.cl.val = some v → getH s u.heat = some h →
      v.phase = .running → (getC s u.cl.val).holder = some u.heat → u.a.toNat = v.hurdle →
      (v.parity = true ∨ u.parity = true) → v.attempts = 3 →
      hurdleOf (heatImage s h) (ttIndex s h u.cl.val) v.hurdle = some e → (getC s u.cl.val).quarantined = false →
      ∃ t, exec (.marHurdle u n) s = .next t ∧ (getC t u.cl.val).quarantined = true ∧ (getC t u.cl.val).holder = none)
  ∧ (∀ (u : Uop) (n : Nat) (v : LapCl) (h : HeatSt) (s : State), getCl s u.heat u.cl.val = some v → getH s u.heat = some h →
      v.phase = .running → (getC s u.cl.val).holder = some u.heat → v.parity = false → u.parity = false → v.faults = [] →
      (∀ k x, getH s k = some x → k ≠ u.heat → x.lap = none) →
      s.heats.wf = true →
      ∃ t x, exec (.marEnd u n) s = .next t ∧ getCl t u.heat u.cl.val = some x ∧ x.phase = .ended
        ∧ (getC t u.cl.val).holder = none
        ∧ t = { s with heats := t.heats, clusters := t.clusters, deficits := t.deficits, acct := t.acct })
  ∧ (∀ (k : Nat) (c : Cluster) (b : Bool) (n : Nat) (v : LapCl) (s : State), getCl (clockTo s n) k c.val = some v →
      v.phase ≠ .faultPark → exec (.pageFaultResolved k c b n) s = .next (clockTo s n))
  ∧ (∀ (k : Nat) (c : Cluster) (n : Nat) (v : LapCl) (s : State), getCl (clockTo s n) k c.val = some v → v.phase = .faultPark →
      (getC (clockTo s n) c.val).holder.isSome →
      ∃ t x, exec (.pageFaultResolved k c false n) s = .next t ∧ getCl t k c.val = some x ∧ x.phase = .preemptPark
        ∧ x.faults = [] ∧ x.work = v.work
        ∧ t = { clockTo s n with heats := t.heats, buffer := t.buffer })

/-- R51, R163, R170, R173, R176 to R178, R244 to R249, R314: batons are sent and folded, the result is written, the lap ends.
That a command whose condition is not met changes nothing (but the time) is the model's choice (assumption 5). A missing
share counts as zeros (assumption 35). -/
def Obligations.ResultsAreRelayed : Prop :=
  (∀ (u : Uop) (r : Run) (k : Nat) (s : State), runOf s u = some r → u.parity = false → u.tagBad = false →
      bit u.c.toNat 0 = false →
      (readStats s u u.core.val (fld u.a.toNat 13 0) r.dv (bitsOf (fld u.a.toNat 31 16) 16).length).2 = some k →
      ∃ t l v, exec (.netBtn u) s = .next t ∧ (getH t u.heat).bind (·.lap) = some l ∧ getCl t u.heat u.cl.val = some v
        ∧ (∀ i, i ∈ bitsOf (fld u.a.toNat 31 16) 16 → headKey (k / 1024) (k / 16 % 64) i ∈ v.sent
            ∧ (l.batons.get? (termKey (headKey (k / 1024) (k / 16 % 64) i) u.cl.val)).isSome)
        ∧ t = { s with heats := t.heats })
  ∧ (∀ (u : Uop) (r : Run) (s : State), runOf s u = some r → u.parity = false → u.tagBad = false → bit u.c.toNat 0 = true →
      let x := operandUnits s u r u.core.val (fld u.a.toNat 13 0) false (fld u.b.toNat 15 0)
      (x.headD {}).fmt = 7 →
      ∃ t l, exec (.netBtn u) s = .next t ∧ (getH t u.heat).bind (·.lap) = some l
        ∧ l.shares.get? (termKey ((unitOwn x).getD 0 / 1024) u.cl.val)
          = some ((elems 32 (unitBytes x) (x.length * 512 / 32)).map fun e => toBits32 (decodeElem 7 e))
        ∧ t = { s with heats := t.heats })
  ∧ (∀ (k n : Nat) (s : State), relayRun (clockTo s n) k = none → exec (.relayFold k n) s = .next (clockTo s n)
      ∧ exec (.lapEnd k n) s = .next (clockTo s n))
  ∧ (∀ (k n : Nat) (r : Run) (s : State), relayRun (clockTo s n) k = some r → r.l.folded = false →
      batonsReady (clockTo s n) r = true → projects r = true → r.l.heads = none →
      ∃ t l, exec (.relayFold k n) s = .next t ∧ (getH t k).bind (·.lap) = some l
        ∧ l = { r.l with heads := some (multicastUnits (clockTo s n) r) } ∧ t = { clockTo s n with heats := t.heats })
  ∧ (∀ (k n : Nat) (r : Run) (s : State), relayRun (clockTo s n) k = some r → r.l.folded = false →
      batonsReady (clockTo s n) r = true → (projects r = true → r.l.heads.isSome ∧ sharesReady (clockTo s n) r = true) →
      r.h.master = none → stripesReady (clockTo s n) r = true → hInt r.h.record = false →
      ∃ t, exec (.relayFold k n) s = .next t ∧ ((getH t k).bind (·.lap)).map (·.folded) = some true
        ∧ t.out.head? = some (.hostWrite (hCtrlPort r.h.record) (entryAddr r.h r.l.entry) 64
            (resultHeader (lowStart r).1 r.l.accept (lowStart r).2 0 (hSlots r.h.record) r.l.layer k r.l.step.toNat))
        ∧ t = { clockTo s n with heats := t.heats, out := t.out, acct := t.acct })
  ∧ (∀ (k n : Nat) (r : Run) (s : State), relayRun (clockTo s n) k = some r → r.l.folded = true →
      exec (.relayFold k n) s = .next (clockTo s n))
  ∧ (∀ (m : MsgRef) (s : State), deliverable (clockTo s m.now) m 10 = none → exec (.baton m) s = .next (clockTo s m.now))
  ∧ (∀ (m : MsgRef) (q : QueueSt) (x : RecvMsg) (s : State), deliverable (clockTo s m.now) m 10 = some (q, x) →
      relayRun (clockTo s m.now) (fld x.ext 23 12) = none →
      exec (.baton m) s = .next (delivered (clockTo s m.now) m.queue))
  ∧ (∀ (m : MsgRef) (q : QueueSt) (x : RecvMsg) (r : Run) (sq : SeqSt) (i : Nat) (s : State),
      deliverable (clockTo s m.now) m 10 = some (q, x) → relayRun (clockTo s m.now) (fld x.ext 23 12) = some r →
      (getSlot r.h (fld x.ext 33 24)).seq.bind (getQ (clockTo s m.now)) = some sq →
      (sq.stripes.findIdx? fun n => n == qPeerNode q) = some i → r.h.master = none →
      r.l.step.toNat = fld x.ext 127 96 → hDomain r.h.record = q.domain →
      ∃ u l, exec (.baton m) s = .next (delivered u m.queue)
        ∧ (getH u (fld x.ext 23 12)).bind (·.lap) = some l
        ∧ l.remote.get? (fld x.ext 33 24 * 64 + i) = some (x.ext / 2 ^ 128)
        ∧ u = { clockTo s m.now with heats := u.heats })
  ∧ (∀ (k n : Nat) (r : Run) (s : State), relayRun (clockTo s n) k = some r →
      (r.l.folded = false ∨ (r.l.cls.all fun _ v => clusterDone v) = false) → exec (.lapEnd k n) s = .next (clockTo s n))
  ∧ (∀ (k n : Nat) (r : Run) (s : State), relayRun (clockTo s n) k = some r → r.l.folded = true →
      (r.l.cls.all fun _ v => clusterDone v) = true → r.h.doomed = false →
      (∀ j h, getH (clockTo s n) j = some h → h.held = none) →
      ∃ t, exec (.lapEnd k n) s = .next t ∧ (getH t k).bind (·.lap) = none
        ∧ t.pending = s.pending ∧ t.bulk = s.bulk ∧ t.sec.fuses = s.sec.fuses)

/-! ## DRAM channels, the bulk window, row operations (R263 to R285, R433, R472, R473) -/

/-- R263, R265 to R268: a channel is configured, refreshed and retrained. That a command whose condition is not met changes
nothing (but the time) is the model's choice (assumption 5). -/
def Obligations.ChannelsAreKept : Prop :=
  Does .dramConfig rowDramConfig (fun d _ => byt d.body 0 0 ≤ 19 ∧ 4 ≤ fld (byt d.body 8 10) 23 16
        ∧ fld (byt d.body 8 10) 23 16 ≤ 96 ∧ 2 ≤ fld (byt d.body 8 10) 15 8 ∧ fld (byt d.body 8 10) 15 8 ≤ 100
        ∧ fld (byt d.body 8 10) 7 0 ≠ 0)
      (fun d s => (setCh s (byt d.body 0 0) { getCh s (byt d.body 0 0) with shadow := some (BitVec.ofNat 24 (byt d.body 8 10)) }, .done))
  ∧ Ends .dramConfig rowDramConfig (fun d _ => byt d.body 0 0 = 255 ∧ 4 ≤ fld (byt d.body 8 10) 23 16
        ∧ fld (byt d.body 8 10) 23 16 ≤ 96 ∧ 2 ≤ fld (byt d.body 8 10) 15 8 ∧ fld (byt d.body 8 10) 15 8 ≤ 100
        ∧ fld (byt d.body 8 10) 7 0 ≠ 0)
      (fun d s u a => a = .done ∧ u = { s with chans := u.chans }
        ∧ ∀ c, c < 20 → getCh u c = { getCh s c with shadow := some (BitVec.ofNat 24 (byt d.body 8 10)) })
  ∧ Does .dramConfig rowDramConfig (fun d _ => (19 < byt d.body 0 0 ∧ byt d.body 0 0 ≠ 255) ∨ fld (byt d.body 8 10) 23 16 < 4
        ∨ 96 < fld (byt d.body 8 10) 23 16 ∨ fld (byt d.body 8 10) 15 8 < 2 ∨ 100 < fld (byt d.body 8 10) 15 8
        ∨ fld (byt d.body 8 10) 7 0 = 0) (fun _ s => (s, .fail .badField))
  ∧ Does .dramStatus rowDramStatus (fun d _ => byt d.body 0 0 ≤ 19) (fun d s => (s, .done (chanWord (getCh s (byt d.body 0 0)))))
  ∧ Does .dramStatus rowDramStatus (fun d _ => 19 < byt d.body 0 0) (fun _ s => (s, .fail .badField))
  ∧ (∀ (c : Cluster) (s : State), frameRuns (getCh s c.val) = true →
      ∃ t, exec (.refreshWindow c) s = .next t ∧ (getCh t c.val).block = (getCh s c.val).block + 1
        ∧ (getCh t c.val).refreshed = 4 * ((getCh s c.val).block % 4)
        ∧ ((getCh s c.val).pass = none → (getCh s c.val).wanted = true → (getCh t c.val).pass = some 1)
        ∧ (∀ n, (getCh s c.val).pass = some n → (getCh t c.val).pass = some (min (n + 1) 4096))
        ∧ t = { s with chans := t.chans } ∧ ∀ k, k ≠ c.val → getCh t k = getCh s k)
  ∧ (∀ (c : Cluster) (a b l m : Nat) (s : State), frameRuns (getCh s c.val) = false →
      exec (.refreshWindow c) s = .next s ∧ exec (.dramRetrainPass c a b l m) s = .next s)
  ∧ (∀ (c : Cluster) (a b l m : Nat) (s : State), frameRuns (getCh s c.val) = true → (getCh s c.val).state ≠ .mismatch →
      warnEye (getCh s c.val) ≤ min a 255 → warnEye (getCh s c.val) ≤ min b 255 → warnMv (getCh s c.val) ≤ min l 255 →
      ∃ t, exec (.dramRetrainPass c a b l m) s = .next t ∧ (getCh t c.val).state = .trained ∧ (getCh t c.val).eyeRd = min a 255
        ∧ (getCh t c.val).eyeWr = min b 255 ∧ (getCh t c.val).levelMv = min l 255 ∧ (getCh t c.val).crcRetries = 0
        ∧ (getCh t c.val).lastPass = s.ns ∧ t = { s with chans := t.chans, margins := t.margins })
  ∧ (∀ (c : Cluster) (a b l m : Nat) (s : State), frameRuns (getCh s c.val) = true → 2 * min a 255 < warnEye (getCh s c.val) →
      ∃ t, exec (.dramRetrainPass c a b l m) s = .next t ∧ (getCh t c.val).state = .failed ∧ (getC t c.val).quarantined = true)

/-- R267, R268, R271 to R275, R433, R472: the bulk window is read and written, and row operations run group by group. That a
command whose condition is not met changes nothing (but the time) is the model's choice (assumption 5). Bytes never
written read as the value of assumption 4. -/
def Obligations.BulkWindowAndRowOperations : Prop :=
  (∀ (p : Port) (o l n : Nat) (s : State), (getPort s p).linkUp = true → inWindow s o l = false →
      exec (.bulkWindowRead p o l n) s = .next (emit (raiseWindow s p o 0) (.windowRead p .abort)))
  ∧ (∀ (p : Port) (o l n : Nat) (s : State), (getPort s p).linkUp = true → inWindow s o l = true → failedGranule s o l = none →
      n < 4 →
      ∃ t, exec (.bulkWindowRead p o l n) s = .next t
        ∧ t.out.head? = some (.windowRead p (.data (memReadN s.bulk o l)))
        ∧ t = { s with out := t.out, acct := t.acct, chans := t.chans })
  ∧ (∀ (p : Port) (o l n w : Nat) (s : State), (getPort s p).linkUp = true → inWindow s o l = true →
      failedGranule s o l = some w → exec (.bulkWindowRead p o l n) s = .next (emit (raiseFailed s w) (.windowRead p .abort)))
  ∧ (∀ (p : Port) (o l d : Nat) (s : State), (getPort s p).linkUp = true → inWindow s o l = false →
      exec (.bulkWindowWrite p o l d) s = .next (count (raiseWindow s p o (d % 2 ^ 64)) 2 0 1))
  ∧ (∀ (p : Port) (o l d : Nat) (s : State), (getPort s p).linkUp = true → inWindow s o l = true → failedGranule s o l = none →
      memWf s.bulk = true →
      ∃ t, exec (.bulkWindowWrite p o l d) s = .next t
        ∧ (∀ i, i < l → memRead t.bulk (o + i) = BitVec.ofNat 8 (d / 2 ^ (8 * i)))
        ∧ (∀ a, (a < o ∨ o + l ≤ a) → memRead t.bulk a = memRead s.bulk a)
        ∧ t = { s with bulk := t.bulk, acct := t.acct })
  ∧ (∀ (p : Port) (o l d n : Nat) (s : State), (getPort s p).linkUp = false →
      exec (.bulkWindowWrite p o l d) s = .next s ∧ exec (.bulkWindowRead p o l n) s = .next s)
  ∧ Ends .rowOp rowRowOp (fun d s => rowBad s (fld d.body 2 0) (fld d.body 63 32) (fld d.body 127 64) (fld d.body 191 128)
        (fld d.body 255 192) = false ∧ s.rowOps.length < 16)
      (fun d s u a => a = .accept (.row s.rowOpNo) ∧ u = { s with rowOps := u.rowOps, rowOpNo := s.rowOpNo + 1 }
        ∧ ∃ o, u.rowOps = s.rowOps ++ [o] ∧ o.op = fld d.body 2 0 ∧ o.rows = fld d.body 63 32 ∧ o.srcA = fld d.body 127 64
          ∧ o.srcB = fld d.body 191 128 ∧ o.dst = fld d.body 255 192 ∧ o.doneRows = .empty)
  ∧ Ends .rowOp rowRowOp (fun d s => rowBad s (fld d.body 2 0) (fld d.body 63 32) (fld d.body 127 64) (fld d.body 191 128)
        (fld d.body 255 192) = false ∧ 16 ≤ s.rowOps.length) (fun _ s u a => a = .fail .busy ∧ u = s)
  ∧ Ends .rowOp rowRowOp (fun d s => rowBad s (fld d.body 2 0) (fld d.body 63 32) (fld d.body 127 64) (fld d.body 191 128)
        (fld d.body 255 192) = true) (fun _ s u a => a = .fail .badField ∧ u = s)
  ∧ (∀ (c : Cluster) (s : State), s.rowOps = [] → exec (.rowOpGroup c) s = .next s)
  ∧ (∀ (c : Cluster) (o : RowOpSt) (s : State), s.rowOps = [o] → o.doneRows.getD c.val 0 + 8 < o.rows →
      (getCh s c.val).state ≠ .failed → memWf s.bulk = true →
      ∃ t x, exec (.rowOpGroup c) s = .next t ∧ t.rowOps = [x]
        ∧ x = { o with doneRows := o.doneRows.set c.val (o.doneRows.getD c.val 0 + groupSize s c.val o.op) }
        ∧ t = { s with bulk := t.bulk, acct := t.acct, rowOps := t.rowOps } ∧ memWf t.bulk = true)
  ∧ (∀ (c : Cluster) (o : RowOpSt) (s : State), s.rowOps = [o] → o.op = 1 → o.rows = 1 → o.doneRows.getD c.val 0 = 0 →
      (getCh s c.val).state ≠ .failed → memWf s.bulk = true → o.dst % 40960 = 0 →
      ∃ t, exec (.rowOpGroup c) s = .next t
        ∧ ∀ j i, j < 8 → i < 256 →
          memRead t.bulk (windowOffset c.val (2048 * (o.dst / 40960) + 256 * j) + i)
            = BitVec.ofNat 8 (repeat64 o.srcA / 2 ^ (8 * i)))
  ∧ (∀ (s : State), pageOn s = true → s.sec.metaRekeying = none → s.sec.metaKey.isSome →
      ∃ t, exec .metadataRekey s = .next t ∧ t.sec.metaRekeying = s.sec.metaKey ∧ t.sec.metaKey = some s.sec.keys
        ∧ t = { s with sec := { s.sec with keys := s.sec.keys + 1, metaKey := t.sec.metaKey, metaRekeying := t.sec.metaRekeying } })
  ∧ (∀ (s : State), exec .metadataRekeyDone s = .next { s with sec := { s.sec with metaRekeying := none } })

/-! ## Frames (R109 to R120, R147, R148, R210, R279) -/

/-- R109, R110, R114, R119, R120, R148, R210, R279: pools are refilled; frames retire, are tested, copied, repaired and
renewed. That a command whose condition is not met changes nothing (but the time) is the model's choice (assumption 5). A
truncation at a stripe node is acted on as assumption 36 says. -/
def Obligations.FramesAreKept : Prop :=
  (∀ (sl : Nat) (c : Cluster) (f : Nat) (s : State), pageOn s = true → (getS s sl).state = .enabled →
      (sliceClusters s sl).contains c.val = true → (getC s c.val).quarantined = false → frameOk s f = true → f % 20 = c.val →
      (getFr s f).state = .free → inPool s f = false → (poolOf s sl c.val).length < reserveDepth s →
      exec (.poolRefill sl c [f]) s = .next (setPool s sl c.val (poolOf s sl c.val ++ [f])))
  ∧ (∀ (sl : Nat) (c : Cluster) (l : List Nat) (s : State), reserveDepth s ≤ (poolOf s sl c.val).length →
      exec (.poolRefill sl c l) s = .next s)
  ∧ (∀ (f : Nat) (s : State), ((getFr s f).retiring = false ∨ (getFr s f).refs ≠ 0 ∨ (getFr s f).pins ≠ 0
      ∨ (getFr s f).test = true ∨ lapsClear s f = false) → exec (.frameReclaim f) s = .next s)
  ∧ (∀ (f : Nat) (s : State), (getFr s f).retiring = true → (getFr s f).refs = 0 → (getFr s f).pins = 0 →
      (getFr s f).test = false → lapsClear s f = true → (getFr s f).slack = none → (getFr s f).damaged = false →
      ∃ t, exec (.frameReclaim f) s = .next t ∧ (getFr t f).state = .free ∧ (getFr t f).version = (getFr s f).version
        ∧ (getFr t f).domain = 0 ∧ (∀ g, g ≠ f → getFr t g = getFr s g) ∧ t.seqs = s.seqs ∧ t.heats = s.heats)
  ∧ (∀ (f : Nat) (s : State), (getFr s f).retiring = true → (getFr s f).refs = 0 → (getFr s f).pins = 0 →
      (getFr s f).test = false → lapsClear s f = true → (getFr s f).slack = none → (getFr s f).damaged = true →
      exec (.frameReclaim f) s = .next (modFr s f fun v => { v with test := true }))
  ∧ (∀ (f : Nat) (b : Bool) (s : State), (getFr s f).test = false → exec (.frameTest f b) s = .next s)
  ∧ (∀ (f : Nat) (b : Bool) (s : State), (getFr s f).test = true →
      ∃ t, exec (.frameTest f b) s = .next t ∧ (getFr t f).state = (if b then .free else .quarantined)
        ∧ (getFr t f).version = (getFr s f).version + 3 ∧ (getFr t f).test = false ∧ (getFr t f).damaged = false
        ∧ (∀ g, g ≠ f → getFr t g = getFr s g) ∧ t = { s with mem := t.mem })
  ∧ (∀ (f : Nat) (s : State), destOf s f = none → exec (.frameCopyCommit f) s = .next s)
  ∧ (∀ (f d : Nat) (s : State), destOf s f = some d → d % 20 = f % 20 → d ≠ f → holdersOf s f = [] →
      ∃ t, exec (.frameCopyCommit f) s = .next t ∧ (getFr t d).mig = none ∧ (getFr t d).refs = (getFr s f).refs
        ∧ (getFr t f).retiring = true ∧ (getFr t f).refs = 0)
  ∧ (∀ (f n : Nat) (s : State), ((getFr (clockTo s n) f).damaged = false ∨ (getFr (clockTo s n) f).test = true
      ∨ (getFr (clockTo s n) f).refs = 0) → exec (.pageRepair f n) s = .next (clockTo s n))
  ∧ (∀ (f n sl d : Nat) (u s : State), (getFr (clockTo s n) f).damaged = true → (getFr (clockTo s n) f).test = false →
      (getFr (clockTo s n) f).refs ≠ 0 → (getFr (clockTo s n) f).state = .sealed → (getFr (clockTo s n) f).heldRemote = true →
      (getC (clockTo s n) (f % 20)).quarantined = false → destOf (clockTo s n) f = none →
      sliceOf (clockTo s n) (getFr (clockTo s n) f).domain = some sl →
      drawFrame (clockTo s n) sl (getFr (clockTo s n) f).domain .migrating (getFr (clockTo s n) f).link.toNat (some (.repair f))
        = some (d, u) →
      ∃ t, exec (.pageRepair f n) s = .next t ∧ (getFr t d).data.badBlocks = 0 ∧ (getFr t d).data.badSidecar = false
        ∧ (getFr t d).data.payload = (getFr (clockTo s n) f).data.payload
        ∧ (getFr t d).version = (getFr (clockTo s n) f).version ∧ t = { u with mem := t.mem })
  ∧ (∀ (f : Nat) (b : Bool) (s : State), truncOf s f = none → exec (.reopenCopy f b) s = .next s)
  ∧ (∀ (f src n id : Nat) (q : SeqSt) (x : Truncate) (u s : State), (getFr s f).mig = some (.reopen src n false) →
      truncOf s f = some (id, q, x) → x.pinned.contains src = true →
      reopenInto s src f n (mHeadDim (seqModel s q)) = some u → exec (.reopenCopy f true) s = .next u)
  ∧ (∀ (f src n id : Nat) (q : SeqSt) (x : Truncate) (s : State), (getFr s f).mig = some (.reopen src n false) →
      truncOf s f = some (id, q, x) → x.pinned.contains src = true →
      exec (.reopenCopy f false) s = .next (abortTruncate s id src x))
  ∧ (∀ (id n : Nat) (s : State), (getQ (clockTo s n) id).bind (·.trunc) = none →
      exec (.truncateCommit id n) s = .next (clockTo s n))
  ∧ (∀ (id n : Nat) (q : SeqSt) (x : Truncate) (s : State), getQ (clockTo s n) id = some q → q.trunc = some x →
      truncReady (clockTo s n) x = false → exec (.truncateCommit id n) s = .next (clockTo s n))
  ∧ (∀ (id n : Nat) (q : SeqSt) (x : Truncate) (s : State), getQ (clockTo s n) id = some q → q.trunc = some x → x.dests = [] →
      ∃ t, exec (.truncateCommit id n) s = .next t ∧ (getQ t id).map (·.length) = some x.position
        ∧ (getQ t id).map (·.trunc) = some none ∧ t.heats = (clockTo s n).heats ∧ t.scratch = (clockTo s n).scratch)
  ∧ (∀ (f : Nat) (s : State), (inCollection s f = false ∨ counterFull (getFr s f) = false) →
      exec (.collectionFrameRenewal f) s = .next s)
  ∧ (∀ (f : Nat) (s : State), inCollection s f = true → counterFull (getFr s f) = true →
      pageGood s (getFr s f).domain (getFr s f).data = true →
      exec (.collectionFrameRenewal f) s = .next (renewFrame s f))

/-! ## Replication, moves, promotion, leases (R41, R42, R317, R358 to R381) -/

/-- R360, R366, R317, R359: replicas and moved pages are taken when their message may be delivered, and refused otherwise.
That a command whose condition is not met changes nothing (but the time) is the model's choice (assumption 5). The refusal
of an unknown model is the model's reading (assumption 37). -/
def Obligations.ReplicasAndMovesArrive : Prop :=
  (∀ (m : MsgRef) (s : State), deliverable (clockTo s m.now) m 13 = none → exec (.pageReplicate m) s = .next (clockTo s m.now))
  ∧ (∀ (m : MsgRef) (q : QueueSt) (x : RecvMsg) (s : State), deliverable (clockTo s m.now) m 13 = some (q, x) →
      sliceOf (clockTo s m.now) q.domain = none →
      exec (.pageReplicate m) s = .next (refuse (clockTo s m.now) m.queue q .badState))
  ∧ (∀ (m : MsgRef) (q : QueueSt) (x : RecvMsg) (sl f : Nat) (s : State),
      deliverable (clockTo s m.now) m 13 = some (q, x) → sliceOf (clockTo s m.now) q.domain = some sl →
      fld (pageExtOf x) 156 155 = 0 → (occupants (clockTo s m.now) sl).all (fun o => o.2.kind == 2) = true →
      let e := pageExtOf x
      let d := arrivedSealed x.data 1 (getD (clockTo s m.now) q.domain).key (fld e 152 89)
      let age := (clockTo s m.now).ns / 1000000 % 2 ^ 32
      let r : SlackRec := { kind := 1, quarters := fld e 154 153 + 1, domain := q.domain, origin := qPeerNode q, age := age,
                            seq := fld e 255 208, data := d }
      slackHost (clockTo s m.now) sl r = some f →
      replicaFrame (clockTo s m.now) (qPeerNode q) (fld e 255 208) e = none →
      exec (.pageReplicate m) s = .next (delivered (occupy (clockTo s m.now) f r) m.queue)
        ∧ (getFr (occupy (clockTo s m.now) f r) f).slack = some r)
  ∧ (∀ (m : MsgRef) (q : QueueSt) (x : RecvMsg) (sl f : Nat) (md : ModelSt) (s : State),
      deliverable (clockTo s m.now) m 13 = some (q, x) → sliceOf (clockTo s m.now) q.domain = some sl →
      fld (pageExtOf x) 156 155 = 1 → modelHere (clockTo s m.now) (fld (pageExtOf x) 255 208) = some md →
      replicaFrame (clockTo s m.now) (qPeerNode q) (fld (pageExtOf x) 255 208) (pageExtOf x) = some f →
      ∃ u, exec (.pageReplicate m) s = .next (delivered u m.queue)
        ∧ (getFr u f).version = (getFr (clockTo s m.now) f).version + 1
        ∧ (getFr u f).data = withPositions (shapeOf md.record) (getFr (clockTo s m.now) f).data (fld (pageExtOf x) 173 166)
            (fld (pageExtOf x) 165 157) x.data ((getFr (clockTo s m.now) f).version + 1) (getD (clockTo s m.now) q.domain).key
        ∧ (∀ g, g ≠ f → getFr u g = getFr (clockTo s m.now) g) ∧ u = { clockTo s m.now with mem := u.mem })
  ∧ (∀ (m : MsgRef) (q : QueueSt) (x : RecvMsg) (sl : Nat) (s : State),
      deliverable (clockTo s m.now) m 13 = some (q, x) → sliceOf (clockTo s m.now) q.domain = some sl →
      1 < fld (pageExtOf x) 156 155 →
      exec (.pageReplicate m) s = .next (refuse (clockTo s m.now) m.queue q .badField))
  ∧ (∀ (m : MsgRef) (s : State), deliverable (clockTo s m.now) m 12 = none → exec (.pageMove m) s = .next (clockTo s m.now))
  ∧ (∀ (m : MsgRef) (q : QueueSt) (x : RecvMsg) (s : State), deliverable (clockTo s m.now) m 12 = some (q, x) →
      sliceOf (clockTo s m.now) q.domain = none →
      exec (.pageMove m) s = .next (refuse (clockTo s m.now) m.queue q .badState))
  ∧ (∀ (m : MsgRef) (q : QueueSt) (x : RecvMsg) (sl f : Nat) (md : ModelSt) (s : State),
      deliverable (clockTo s m.now) m 12 = some (q, x) → sliceOf (clockTo s m.now) q.domain = some sl →
      modelHere (clockTo s m.now) (fld (pageExtOf x) 255 208) = some md → fld (pageExtOf x) 156 155 = 2 →
      incomingFrame (clockTo s m.now) (fld (pageExtOf x) 255 208) (pageExtOf x) = some f →
      ∃ u, exec (.pageMove m) s = .next (moveProgress (delivered u m.queue) (fld (pageExtOf x) 255 208))
        ∧ (getFr u f).mig = some (.incoming (qPeerNode q) true)
        ∧ (getFr u f).data = arrivedSealed x.data ((getFr (clockTo s m.now) f).version + 1)
            (getD (clockTo s m.now) q.domain).key (fld (pageExtOf x) 152 89)
        ∧ u = { clockTo s m.now with mem := u.mem })

/-- R358, R359, R377 to R379: migration, promotion and re-seeding. R41, R42, R369, R372: leases expire, offers lapse, and
flush points cover replication writes. That a command whose condition is not met changes nothing (but the time) is the
model's choice (assumption 5). Which node moves what is the model's reading (assumption 38). -/
def Obligations.PlacementLeasesAndFlushPoints : Prop :=
  ((∀ (k id g n : Nat) (s : State), getH (clockTo s n) k = none → exec (.migration k id g n) s = .next (clockTo s n))
  ∧ (∀ (k id g n : Nat) (h : HeatSt) (q : SeqSt) (s : State), getH (clockTo s n) k = some h → getQ (clockTo s n) id = some q →
      h.master = none → mayMove (clockTo s n) h id g q = false → exec (.migration k id g n) s = .next (clockTo s n))
  ∧ (∀ (k id g n : Nat) (h : HeatSt) (q : SeqSt) (s : State), getH (clockTo s n) k = some h → getQ (clockTo s n) id = some q →
      h.master = none → mayMove (clockTo s n) h id g q = true →
      exec (.migration k id g n) s = .next (moveProgress (setQ (clockTo s n) id { q with moving := some (g, []) }) id)
        ∧ (getQ (setQ (clockTo s n) id { q with moving := some (g, []) }) id).bind (·.moving) = some (g, []))
  ∧ (∀ (k id g n dst : Nat) (h : HeatSt) (q : SeqSt) (s : State), getH (clockTo s n) k = some h → getQ (clockTo s n) id = some q →
      h.master = some dst → bit q.groupMask g = true → (∀ e ∈ groupPages q g, (getFr (clockTo s n) e.2.frame).state ≠ .shared) →
      exec (.migration k id g n) s = .next (sendMove (clockTo s n) h id g dst q))
  ∧ (∀ (f id n : Nat) (s : State), (clockTo s n).place.failed.get? f ≠ some (clockTo s n).nodeNo →
      exec (.promotion f id n) s = .next (clockTo s n))
  ∧ (∀ (f id n sl : Nat) (q : SeqSt) (s : State), (clockTo s n).place.failed.get? f = some (clockTo s n).nodeNo →
      id ∈ promotable (clockTo s n) f → (∀ x ∈ promotable (clockTo s n) f, seqIndex id ≤ seqIndex x) →
      promotedDesc (clockTo s n) f id = some q → sliceOf (clockTo s n) q.domain = some sl →
      openFrom (clockTo s n) f id = [] → sealedFrom (clockTo s n) f id = [] →
      exec (.promotion f id n) s = .next (takeOver (setQ (clockTo s n) id { q with groupMask := q.groupMask ||| 0 }) f id 0))
  ∧ (∀ (p n : Nat) (s : State), (placeOn (clockTo s n) = false ∨ seedPartner (clockTo s n) ≠ some p) →
      exec (.reseed p n) s = .next (clockTo s n))
  ∧ (∀ (p n : Nat) (s : State), placeOn (clockTo s n) = true → seedPartner (clockTo s n) = some p →
      partnerOf (clockTo s n) ≠ p → (clockTo s n).seqs = .empty →
      ∃ t, exec (.reseed p n) s = .next t ∧ t.place.partner = some p ∧ t.place.absent = []
        ∧ t = { clockTo s n with place := t.place }))
  ∧ ((∀ (id n : Nat) (q : SeqSt) (s : State), getQ (clockTo s n) id = some q →
      (homeOf (clockTo s n) id ≠ (clockTo s n).nodeNo ∨ q.own.state = .abandoned ∨ (clockTo s n).ns < q.own.expiry) →
      exec (.leaseExpiry id n) s = .next (clockTo s n))
  ∧ (∀ (id n : Nat) (q : SeqSt) (s : State), getQ (clockTo s n) id = some q →
      homeOf (clockTo s n) id = (clockTo s n).nodeNo → q.own.state ≠ .abandoned → q.own.expiry ≤ (clockTo s n).ns →
      q.state = .idle →
      ∃ t, exec (.leaseExpiry id n) s = .next t ∧ (getQ t id).map (·.own.state) = some .abandoned
        ∧ (getQ t id).map (·.own.epoch) = some ((q.own.epoch + 1) % 2 ^ 32)
        ∧ t.pending = s.pending ∧ t.bulk = s.bulk ∧ t.sec.fuses = s.sec.fuses)
  ∧ (∀ (id n : Nat) (q : SeqSt) (s : State), getQ (clockTo s n) id = some q →
      (homeOf (clockTo s n) id ≠ (clockTo s n).nodeNo ∨ q.own.state ≠ .offered ∨ (clockTo s n).ns < q.own.deadline) →
      exec (.handoffDeadline id n) s = .next (clockTo s n))
  ∧ (∀ (id n : Nat) (q : SeqSt) (s : State), getQ (clockTo s n) id = some q →
      homeOf (clockTo s n) id = (clockTo s n).nodeNo → q.own.state = .offered → q.own.deadline ≤ (clockTo s n).ns →
      ∃ t, exec (.handoffDeadline id n) s = .next t ∧ (getQ t id).map (·.own.state) = some .held
        ∧ (getQ t id).map (·.own.epoch) = some ((q.own.epoch + 1) % 2 ^ 32)
        ∧ (getQ t id).map (·.own.ownerNode) = some q.own.ownerNode ∧ (getQ t id).map (·.own.ownerFunc) = some q.own.ownerFunc
        ∧ (getQ t id).map (·.own.accepted) = some false)
  ∧ (∀ (n : Nat) (s : State), (placeOn (clockTo s n) = false ∨ flushPeriod (clockTo s n) = 0
      ∨ (clockTo s n).ns % flushPeriod (clockTo s n) ≠ 0 ∨ (clockTo s n).fenced = true ∨ (clockTo s n).sec.mod = .error) →
      exec (.flushPoint n) s = .next (clockTo s n))
  ∧ (∀ (n : Nat) (s : State), placeOn (clockTo s n) = true → flushPeriod (clockTo s n) ≠ 0 →
      (clockTo s n).ns % flushPeriod (clockTo s n) = 0 → (clockTo s n).fenced = false → (clockTo s n).sec.mod ≠ .error →
      (clockTo s n).place.degraded = [] → (clockTo s n).net.queues = .empty → partnerOf (clockTo s n) ≠ (clockTo s n).nodeNo →
      nodeReachable (clockTo s n) (partnerOf (clockTo s n)) = true →
      exec (.flushPoint n) s = .next (sendMgmt (clockTo s n) (partnerOf (clockTo s n)) 0x0004 0 9
        (pack [(0, 64, (clockTo s n).ns), (64, 8, b2n (clockTo s n).place.stopped)])))
  ∧ (∀ (n k : Nat) (q : QueueSt) (s : State), placeOn (clockTo s n) = true → flushPeriod (clockTo s n) ≠ 0 →
      (clockTo s n).ns % flushPeriod (clockTo s n) = 0 → (clockTo s n).fenced = false → (clockTo s n).sec.mod ≠ .error →
      (clockTo s n).place.degraded = [] → (clockTo s n).place.stopped = false → (clockTo s n).net.queues.l = [(k, q)] →
      k < 65536 → q.internal = some 2 → outstanding q = true → q.state = .ready →
      qPeerNode q = partnerOf (clockTo s n) →
      exec (.flushPoint n) s = .next (launchInternal (clockTo s n) k { op := 7, total := 0, purpose := .flush })))

/-! ## Management messages (R341 to R384, R456, R465) -/

/-- R348: a message of any of these types is dropped and counted when it breaks the header's rules or its own length. -/
def Obligations.BadMessagesAreDropped : Prop :=
  DropsBad .stripeReq (fun _ => 72) (fun _ => [(87, 0), (575, 96)])
  ∧ DropsBad .stripeReply (fun _ => 8) (fun _ => [(15, 0), (63, 32)])
  ∧ DropsBad .heartbeat (fun _ => 9) (fun _ => [(71, 0)])
  ∧ DropsBad .failNotice (fun _ => 16) (fun _ => [(11, 0), (27, 16), (39, 32), (127, 64)])
  ∧ DropsBad .failAck (fun _ => 2) (fun _ => [(11, 0)])
  ∧ DropsBad .leaseRenew (fun _ => 24) (fun _ => [(47, 0), (107, 64), (119, 112), (191, 128)])
  ∧ DropsBad .pairReq (fun _ => 6) (fun _ => [(47, 0)])
  ∧ DropsBad .pairReply (fun _ => 4) (fun _ => [(31, 0)])
  ∧ DropsBad .heldReport (fun _ => 18) (fun _ => [(47, 0), (88, 64), (119, 96), (143, 128)])
  ∧ DropsBad .recordRepl (fun m => 304 + 16 * fld m.body 2383 2368) (fun m => replNamed (fld m.body 2383 2368))
  ∧ DropsBad .mapUpdate (fun _ => 152) (fun _ => [(47, 0), (71, 64), (119, 80), (1215, 128)])
  ∧ DropsBad .seqLost (fun _ => 12) (fun _ => [(47, 0), (95, 64)])
  ∧ DropsBad .seqRelease (fun _ => 11) (fun _ => [(55, 0), (87, 64)])
  ∧ DropsBad .ackRelease (fun _ => 8) (fun _ => [(63, 0)])
  ∧ DropsBad .cmdForward (fun m => 80 + (if bit m.body 40 then byt m.body 6 7 else 0))
      (fun m => [(543, 0), (8 * (80 + (if bit m.body 40 then byt m.body 6 7 else 0)) - 1, 576)])
  ∧ DropsBad .cmdAnswer (fun m => 40 + byt m.body 32 35) (fun m => [(287, 0), (8 * (40 + byt m.body 32 35) - 1, 320)])

/-- R341, R350, R352, R355, R374, R375: capacity reports, stripe searches, heartbeats and failures. That a command whose
condition is not met changes nothing (but the time) is the model's choice (assumption 5). -/
def Obligations.NodesSpeakOfThemselves : Prop :=
  (∀ (m : Mgmt) (s : State), trafficOff (clockTo s m.now) = false → nodeReachable (clockTo s m.now) m.src = true →
      byt m.body 8 8 = 1 → mgmtOk m 32 (capNamed 1) = true →
      ∃ t, exec (.capReport m) s = .next t
        ∧ t.place.reports.get? (m.src * 64 + fld m.body 133 128)
          = some { free := fld m.body 183 160, total := fld m.body 215 192, sealed := bit m.body 134,
                   arrival := epochOf (clockTo s m.now).ns }
        ∧ (∀ k, k / 64 ≠ m.src → t.place.reports.get? k = (clockTo s m.now).place.reports.get? k))
  ∧ OnMessage .stripeReq (fun _ => 72) (fun _ => [(87, 0), (575, 96)])
      (fun m s => stripeVerdict s (byt m.body 6 6) (byt m.body 8 9) (fld m.body 191 128) (fld m.body 127 96) (fld m.body 575 192) ≠ .ok)
      (fun m s => stripeReply s m (stripeVerdict s (byt m.body 6 6) (byt m.body 8 9) (fld m.body 191 128) (fld m.body 127 96)
        (fld m.body 575 192)) 0)
  ∧ OnMessage .stripeReq (fun _ => 72) (fun _ => [(87, 0), (575, 96)])
      (fun m s => stripeVerdict s (byt m.body 6 6) (byt m.body 8 9) (fld m.body 191 128) (fld m.body 127 96) (fld m.body 575 192) = .ok
        ∧ byt m.body 7 7 = 0 ∧ byt m.body 6 6 ≤ 63 ∧ (getQ s (byt m.body 0 5)).isSome)
      (fun m s => stripeReply (modQ s (byt m.body 0 5) fun q => { q with groupMask := q.groupMask ||| fld m.body 191 128 }) m .ok 0)
  ∧ OnMessage .stripeReply (fun _ => 8) (fun _ => [(15, 0), (63, 32)])
      (fun m s => ∃ x, s.place.asked.get? m.corr = some x ∧ ∃ id, x.what = .stripe id m.src)
      (fun m s => match (s.place.asked.get? m.corr).map (·.what) with
        | some (Asked.stripe id n) => candidateSays (answered s m.corr) id n false (replyStatus (byt m.body 0 1))
        | _ => s)
  ∧ OnMessage .stripeReply (fun _ => 8) (fun _ => [(15, 0), (63, 32)]) (fun m s => s.place.asked.get? m.corr = none) (fun _ s => s)
  ∧ OnMessage .heartbeat (fun _ => 9) (fun _ => [(71, 0)]) (fun m _ => byt m.body 8 8 ≠ 1)
      (fun m s => modPl s fun p => { p with heard := p.heard.set m.src s.ns })
  ∧ OnMessage .heartbeat (fun _ => 9) (fun _ => [(71, 0)]) (fun m _ => byt m.body 8 8 = 1)
      (fun m s => declareFailed (modPl s fun p => { p with heard := p.heard.set m.src s.ns }) m.src s.nodeNo 2)
  ∧ OnMessage .failNotice (fun _ => 16) (fun _ => [(11, 0), (27, 16), (39, 32), (127, 64)]) (fun m s => byt m.body 0 1 = s.nodeNo)
      (fun _ s => { s with place := { s.place with stopped := true }, boot := { s.boot with failed := true } })
  ∧ (∀ (m : Mgmt) (s : State), trafficOff (clockTo s m.now) = false → nodeReachable (clockTo s m.now) m.src = true →
      mgmtOk m 16 [(11, 0), (27, 16), (39, 32), (127, 64)] = true → byt m.body 0 1 ≠ (clockTo s m.now).nodeNo →
      ∃ t, exec (.failNotice m) s = .next t ∧ t.place.failed.has (byt m.body 0 1) = true
        ∧ ((clockTo s m.now).place.failed.has (byt m.body 0 1) = false → byt m.body 0 1 ∈ t.net.fencedNodes))
  ∧ OnMessage .failAck (fun _ => 2) (fun _ => [(11, 0)]) (fun _ _ => True) (fun m s => answered s m.corr)
  ∧ (∀ (n : Nat) (s : State), (trafficOff (clockTo s n) = true ∨ placeOn (clockTo s n) = false) →
      exec (.partnerSilenceTimeout n) s = .next (clockTo s n))
  ∧ (∀ (n k at_ : Nat) (s : State), trafficOff (clockTo s n) = false → placeOn (clockTo s n) = true →
      (clockTo s n).place.heard.l = [(k, at_)] → at_ + failNs (clockTo s n) ≤ (clockTo s n).ns →
      exec (.partnerSilenceTimeout n) s = .next (declareFailed (clockTo s n) k (clockTo s n).nodeNo 1))
  ∧ (∀ (n k at_ : Nat) (s : State), trafficOff (clockTo s n) = false → placeOn (clockTo s n) = true →
      (clockTo s n).place.heard.l = [(k, at_)] → (clockTo s n).ns < at_ + failNs (clockTo s n) →
      exec (.partnerSilenceTimeout n) s = .next (clockTo s n))
  ∧ (∀ (id n : Nat) (q : SeqSt) (s : State), getQ (clockTo s n) id = some q →
      (q.state ≠ .running ∨ q.sb ≠ 0 ∨ placeOn (clockTo s n) = false) → exec (.spillRequest id n) s = .next (clockTo s n))
  ∧ (∀ (id n : Nat) (q : SeqSt) (s : State), getQ (clockTo s n) id = some q → q.state = .running → q.sb = 0 →
      placeOn (clockTo s n) = true → (clockTo s n).place.searches.has (spillKey id) = false → q.stripes.length < 64 →
      (∀ x ∈ candidates (clockTo s n) q.domain false, x = (clockTo s n).nodeNo) →
      ∃ t, exec (.spillRequest id n) s = .next t ∧ q.domain ∈ t.place.failedSearch ∧ t = { clockTo s n with place := t.place })

/-- R307, R348, R349, R356, R360, R362, R366, R370, R371, R377, R381, R456, R465: leases, pairs, replication reports, changes
of the page map, forwarded commands, and silence. That a command whose condition is not met changes nothing (but the time)
is the model's choice (assumption 5). -/
def Obligations.MessagesKeepTheirPromises : Prop :=
  (∀ (m : Mgmt) (q : SeqSt) (s : State), trafficOff (clockTo s m.now) = false → nodeReachable (clockTo s m.now) m.src = true →
      mgmtOk m 24 [(47, 0), (107, 64), (119, 112), (191, 128)] = true → getQ (clockTo s m.now) (byt m.body 0 5) = some q →
      homeOf (clockTo s m.now) (byt m.body 0 5) = (clockTo s m.now).nodeNo → q.own.state ≠ .abandoned →
      q.own.ownerNode = byt m.body 12 13 → q.own.ownerFunc = byt m.body 14 14 → (clockTo s m.now).ns < q.own.expiry →
      ∃ t, exec (.leaseRenew m) s = .next t
        ∧ (getQ t (byt m.body 0 5)).map (·.own) = some { q.own with expiry := (clockTo s m.now).ns + q.own.leaseMs * 1000000 })
  ∧ OnMessage .leaseRenew (fun _ => 24) (fun _ => [(47, 0), (107, 64), (119, 112), (191, 128)])
      (fun m s => ∃ q, getQ s (byt m.body 0 5) = some q ∧ (q.own.expiry ≤ s.ns ∨ q.own.state = .abandoned)) (fun _ s => s)
  ∧ (∀ (m : Mgmt) (k : Nat) (s : State), trafficOff (clockTo s m.now) = false → nodeReachable (clockTo s m.now) m.src = true →
      mgmtOk m 6 [(47, 0)] = true → byt m.body 2 2 ≤ 2 → freeInternal (clockTo s m.now) 65536 = some k →
      ∃ t q, exec (.pairReq m) s = .next t ∧ getWq t k = some q ∧ q.internal = some (byt m.body 2 2)
        ∧ q.record = internalRecord m.src (byt m.body 0 1) (byt m.body 3 3))
  ∧ OnMessage .pairReq (fun _ => 6) (fun _ => [(47, 0)]) (fun m _ => 2 < byt m.body 2 2) (fun _ s => count s 2 0 3)
  ∧ OnMessage .pairReply (fun _ => 4) (fun _ => [(31, 0)])
      (fun m s => ∃ x, s.place.asked.get? m.corr = some x ∧ (∃ k, x.what = .pair k m.src) ∧ byt m.body 0 1 ≠ 0)
      (fun m s => match (s.place.asked.get? m.corr).map (·.what) with
        | some (Asked.pair k _) => modNet (answered s m.corr) fun n => { n with queues := n.queues.erase k }
        | _ => s)
  ∧ (∀ (m : Mgmt) (x : Request) (k : Nat) (q : QueueSt) (s : State), trafficOff (clockTo s m.now) = false →
      nodeReachable (clockTo s m.now) m.src = true → mgmtOk m 4 [(31, 0)] = true →
      (clockTo s m.now).place.asked.get? m.corr = some x → x.what = .pair k m.src → byt m.body 0 1 = 0 →
      getWq (clockTo s m.now) k = some q → q.later = [] →
      ∃ t p, exec (.pairReply m) s = .next t ∧ getWq t k = some p ∧ p.state = .ready ∧ rf p.record 115 100 = byt m.body 2 3)
  ∧ (∀ (m : Mgmt) (q : SeqSt) (s : State), trafficOff (clockTo s m.now) = false → nodeReachable (clockTo s m.now) m.src = true →
      mgmtOk m 18 [(47, 0), (88, 64), (119, 96), (143, 128)] = true → getQ (clockTo s m.now) (byt m.body 0 5) = some q →
      (∀ n ∈ q.stripes, (clockTo s m.now).place.failed.get? n ≠ some m.src) →
      let r : HeldBy := { held := byt m.body 8 10, missing := byt m.body 12 14, late := byt m.body 16 17 }
      exec (.heldReport m) s = .next (recomputeHeld (modQ (clockTo s m.now) (byt m.body 0 5) fun q =>
        { q with reports := q.reports.set m.src r }) (byt m.body 0 5)))
  ∧ (∀ (m : Mgmt) (s : State), trafficOff (clockTo s m.now) = false → nodeReachable (clockTo s m.now) m.src = true →
      byt m.body 0 0 = 1 → mgmtOk m 14 [(16, 0), (111, 64)] = true →
      exec (.replDegraded m) s = .next (degradedSeq (clockTo s m.now) (fld m.body 111 64) (byt m.body 1 1) (bit m.body 16)))
  ∧ OnMessage .recordRepl (fun m => 304 + 16 * fld m.body 2383 2368) (fun m => replNamed (fld m.body 2383 2368))
      (fun m _ => fld (fld m.body 2111 64) 72 70 = 0)
      (fun m s => modPl s fun p => { p with replicas := p.replicas.erase (byt m.body 0 5) })
  ∧ (∀ (m : Mgmt) (s : State), trafficOff (clockTo s m.now) = false → nodeReachable (clockTo s m.now) m.src = true →
      mgmtOk m (304 + 16 * fld m.body 2383 2368) (replNamed (fld m.body 2383 2368)) = true →
      fld (fld m.body 2111 64) 72 70 ≠ 0 →
      ∃ t q, exec (.recordRepl m) s = .next t ∧ t.place.replicas.get? (byt m.body 0 5) = some q
        ∧ q.own = ownOfWord (fld m.body 2367 2112) ∧ t = { clockTo s m.now with place := t.place })
  ∧ OnMessage .mapUpdate (fun _ => 152) (fun _ => [(47, 0), (71, 64), (119, 80), (1215, 128)])
      (fun m s => getQ s (byt m.body 0 5) = none) (fun m s => ackReleaseTo s m (byt m.body 0 5) .badState)
  ∧ (∀ (m : Mgmt) (q : SeqSt) (s : State), trafficOff (clockTo s m.now) = false → nodeReachable (clockTo s m.now) m.src = true →
      mgmtOk m 152 [(47, 0), (71, 64), (119, 80), (1215, 128)] = true → getQ (clockTo s m.now) (byt m.body 0 5) = some q →
      (byt m.body 8 8 ≠ 2 ∨ q.state = .running) →
      ∃ t p c, exec (.mapUpdate m) s = .next t ∧ getQ t (byt m.body 0 5) = some p ∧ p.change = some c
        ∧ c.kind = byt m.body 8 8 ∧ c.length = byt m.body 12 14 ∧ c.groupMask = fld m.body 191 128
        ∧ (byt m.body 8 8 = 2 → p.awaiting = true) ∧ p.length = q.length)
  ∧ OnMessage .seqLost (fun _ => 12) (fun _ => [(47, 0), (95, 64)]) (fun _ _ => True)
      (fun m s => loseSeq s (byt m.body 0 5) (byt m.body 8 10) (byt m.body 11 11))
  ∧ OnMessage .seqRelease (fun _ => 11) (fun _ => [(55, 0), (87, 64)]) (fun m s => getQ s (byt m.body 0 5) = none)
      (fun m s => ackReleaseTo s m (byt m.body 0 5) .ok)
  ∧ OnMessage .seqRelease (fun _ => 11) (fun _ => [(55, 0), (87, 64)])
      (fun m s => (getQ s (byt m.body 0 5)).isSome ∧ byt m.body 6 6 = 0)
      (fun m s => ackReleaseTo (freeSeq (removeFromHeat s (byt m.body 0 5) .badState) (byt m.body 0 5)) m (byt m.body 0 5) .ok)
  ∧ OnMessage .ackRelease (fun _ => 8) (fun _ => [(63, 0)])
      (fun m s => ∃ x, s.place.asked.get? m.corr = some x ∧ ∃ id, x.what = .release id m.src)
      (fun m s => match (s.place.asked.get? m.corr).map (·.what) with
        | some (Asked.release id _) => releaseEnds (answered s m.corr) id .ok
        | _ => s)
  ∧ OnMessage .ackRelease (fun _ => 8) (fun _ => [(63, 0)])
      (fun m s => ∃ x, s.place.asked.get? m.corr = some x ∧ ∃ id, x.what = .update id m.src) (fun m s => answered s m.corr)
  ∧ OnMessage .cmdForward (fun m => 80 + (if bit m.body 40 then byt m.body 6 7 else 0))
      (fun m => [(543, 0), (8 * (80 + (if bit m.body 40 then byt m.body 6 7 else 0)) - 1, 576)])
      (fun m _ => forwardedBody (byt m.body 0 1) = none)
      (fun m s => answerForward s m.src m.corr (responseWord 0 0 .badOpcode (byt m.body 0 1) (forwardedDesc m).tag.toNat
        (forwardedDesc m).domain.toNat true (approvedNow s)) 0 0)
  ∧ OnMessage .cmdForward (fun m => 80 + (if bit m.body 40 then byt m.body 6 7 else 0))
      (fun m => [(543, 0), (8 * (80 + (if bit m.body 40 then byt m.body 6 7 else 0)) - 1, 576)])
      (fun m _ => byt m.body 0 1 = 0x0A02 ∧ (forwardedDesc m).domain = 0)
      (fun m s => answerAns (replQuery (forwardedDesc m) (renewBy (forwardedDesc m) s (byt (forwardedDesc m).body 0 5))).1 m
        (forwardedDesc m) 0x0A02 (replQuery (forwardedDesc m) (renewBy (forwardedDesc m) s (byt (forwardedDesc m).body 0 5))).2)
  ∧ OnMessage .cmdAnswer (fun m => 40 + byt m.body 32 35) (fun m => [(287, 0), (8 * (40 + byt m.body 32 35) - 1, 320)])
      (fun m s => s.place.asked.get? m.corr = none) (fun _ s => s)
  ∧ OnMessage .cmdAnswer (fun m => 40 + byt m.body 32 35) (fun m => [(287, 0), (8 * (40 + byt m.body 32 35) - 1, 320)])
      (fun m s => byt m.body 32 35 = 0 ∧ (∃ x, s.place.asked.get? m.corr = some x ∧ ∃ k, x.what = .forward k)
        ∧ (s.flights.find? fun g => g.key == fwdKey m.corr).isSome)
      (fun m s => finishWhere (answered s m.corr) (fun g => g.key == fwdKey m.corr) (replyStatus (byt m.body 6 7))
        (byt m.body 16 31) (byt m.body 8 15))
  ∧ (∀ (c n : Nat) (x : Request) (s : State), (clockTo s n).place.asked.get? c = some x → (∃ k, x.what = .forward k) →
      (clockTo s n).ns < x.sent + 100000000 → exec (.forwardTimeout c n) s = .next (clockTo s n))
  ∧ (∀ (c n : Nat) (x : Request) (s : State), (clockTo s n).place.asked.get? c = some x → (∃ k, x.what = .forward k) →
      x.sent + 100000000 ≤ (clockTo s n).ns → ((clockTo s n).flights.find? fun g => g.key == fwdKey c).isSome →
      exec (.forwardTimeout c n) s
        = .next (finishWhere (answered (clockTo s n) c) (fun g => g.key == fwdKey c) .timeout 0 0))
  ∧ (∀ (c n : Nat) (x : Request) (s : State), (clockTo s n).place.asked.get? c = some x →
      (clockTo s n).ns < x.sent + replyTime x.what → exec (.mgmtReplyTimeout c n) s = .next (clockTo s n))
  ∧ (∀ (c n id k : Nat) (x : Request) (s : State), (clockTo s n).place.asked.get? c = some x → x.what = .update id k →
      x.sent + 10000000 ≤ (clockTo s n).ns → exec (.mgmtReplyTimeout c n) s = .next (answered (clockTo s n) c))
  ∧ (∀ (c n id k : Nat) (x : Request) (s : State), (clockTo s n).place.asked.get? c = some x → x.what = .stripe id k →
      x.sent + 1000000 ≤ (clockTo s n).ns →
      exec (.mgmtReplyTimeout c n) s = .next (candidateSays (answered (clockTo s n) c) id k false .timeout))

/-! ## Huavo 0x0Axx: placement and ownership (R346, R364, R367 to R371, R383, R384) -/

/-- R346, R364, R367 to R371, R383, R384, R445, R447: placement, ownership records, and fences. -/
def Obligations.OwnershipIsHandedOver : Prop :=
  Ends .placeConfig rowPlaceConfig (fun d s => placeBad s (BitVec.ofNat 64 (byt d.body 0 7)) = false ∧ placeOn s = false)
      (fun d s u a => a = .done ∧ u = { s with place := u.place }
        ∧ u.place.record = merge s.place.record (BitVec.ofNat 64 (byt d.body 0 7)) placeLocked ∧ u.place.shadow.isSome)
  ∧ Ends .placeConfig rowPlaceConfig (fun d s => placeBad s (BitVec.ofNat 64 (byt d.body 0 7)) = false ∧ placeOn s = true
        ∧ differ s.place.record (BitVec.ofNat 64 (byt d.body 0 7)) placeLocked = true) (fun _ s u a => a = .fail .busy ∧ u = s)
  ∧ Ends .placeConfig rowPlaceConfig (fun d s => placeBad s (BitVec.ofNat 64 (byt d.body 0 7)) = true)
      (fun _ s u a => a = .fail .badField ∧ u = s)
  ∧ Ends .replQuery rowReplQuery (fun d s => homeOf s (byt d.body 0 5) = s.nodeNo
        ∧ ∃ q, seqFor d (renewBy d s (byt d.body 0 5)) (byt d.body 0 5) = .ok q)
      (fun d s u a => u = renewBy d s (byt d.body 0 5) ∧ ∃ q, getQ u (byt d.body 0 5) = some q
        ∧ a = .done (replWord (byt d.body 0 5) q))
  ∧ Ends .ownQuery rowOwnQuery (fun d s => homeOf s (byt d.body 0 5) = s.nodeNo ∧ byt d.body 8 15 % 64 = 0
        ∧ ∃ q, seqFor d (renewBy d s (byt d.body 0 5)) (byt d.body 0 5) false true = .ok q)
      (fun d s u a => u = renewBy d s (byt d.body 0 5) ∧ ∃ q, getQ u (byt d.body 0 5) = some q
        ∧ a = .done 0 0 (byt d.body 8 15) 32 (ownWord (byt d.body 0 5) q.own))
  ∧ Ends .ownOffer rowOwnOffer (fun d s => homeOf s (byt d.body 0 5) = s.nodeNo ∧ objBusy s (.seq (byt d.body 0 5)) = false
        ∧ ∃ q, seqFor d (renewBy d s (byt d.body 0 5)) (byt d.body 0 5) = .ok q ∧ byt d.body 8 11 = q.own.epoch
          ∧ q.own.state = .held ∧ byOwner d s q.own = true ∧ offerBad s q (byt d.body 12 13) (byt d.body 14 14) = false)
      (fun d s u _ => ∃ q p, getQ s (byt d.body 0 5) = some q ∧ getQ u (byt d.body 0 5) = some p ∧ p.own.state = .offered
        ∧ p.own.accepted = false ∧ p.own.offerNode = byt d.body 12 13 ∧ p.own.offerFunc = byt d.body 14 14
        ∧ p.own.epoch = (q.own.epoch + 1) % 2 ^ 32 ∧ p.own.ownerNode = q.own.ownerNode ∧ p.own.ownerFunc = q.own.ownerFunc
        ∧ p.own.deadline = s.ns + rf s.place.record 45 32 * 1000000)
  ∧ Ends .ownOffer rowOwnOffer (fun d s => homeOf s (byt d.body 0 5) = s.nodeNo
        ∧ ∃ q, seqFor d (renewBy d s (byt d.body 0 5)) (byt d.body 0 5) = .ok q ∧ byt d.body 8 11 ≠ q.own.epoch)
      (fun d s u a => a = .fail .notOwner ∧ u = renewBy d s (byt d.body 0 5))
  ∧ Ends .ownAccept rowOwnAccept (fun d s => homeOf s (byt d.body 0 5) = s.nodeNo ∧ objBusy s (.seq (byt d.body 0 5)) = false
        ∧ ∃ q, seqFor d (renewBy d s (byt d.body 0 5)) (byt d.body 0 5) = .ok q ∧ byt d.body 8 11 = q.own.epoch
          ∧ q.own.state = .offered ∧ q.own.accepted = false ∧ byOffer d s q.own = true)
      (fun d s u _ => ∃ q p, getQ s (byt d.body 0 5) = some q ∧ getQ u (byt d.body 0 5) = some p ∧ p.own.state = .offered
        ∧ p.own.accepted = true ∧ p.own.epoch = (q.own.epoch + 1) % 2 ^ 32 ∧ p.own.ownerNode = q.own.ownerNode)
  ∧ Ends .ownAccept rowOwnAccept (fun d s => homeOf s (byt d.body 0 5) = s.nodeNo ∧ objBusy s (.seq (byt d.body 0 5)) = false
        ∧ ∃ q, seqFor d (renewBy d s (byt d.body 0 5)) (byt d.body 0 5) = .ok q ∧ byt d.body 8 11 = q.own.epoch
          ∧ q.own.state ≠ .offered) (fun d s u a => a = .fail .badState ∧ u = renewBy d s (byt d.body 0 5))
  ∧ Ends .ownCommit rowOwnCommit (fun d s => homeOf s (byt d.body 0 5) = s.nodeNo ∧ objBusy s (.seq (byt d.body 0 5)) = false
        ∧ ∃ q, seqFor d (renewBy d s (byt d.body 0 5)) (byt d.body 0 5) = .ok q ∧ byt d.body 8 11 = q.own.epoch
          ∧ q.own.state = .offered ∧ q.own.accepted = true ∧ byOwner d s q.own = true ∧ q.state ≠ .running)
      (fun d s u _ => ∃ q p, getQ (renewBy d s (byt d.body 0 5)) (byt d.body 0 5) = some q ∧ getQ u (byt d.body 0 5) = some p
        ∧ p.own.state = .held ∧ p.own.ownerNode = q.own.offerNode ∧ p.own.ownerFunc = q.own.offerFunc ∧ p.own.accepted = false
        ∧ p.own.epoch = (q.own.epoch + 1) % 2 ^ 32 ∧ p.own.expiry = s.ns + q.own.leaseMs * 1000000
        ∧ p.ctrlPort = codePort q.own.offerFunc)
  ∧ Ends .ownCommit rowOwnCommit (fun d s => homeOf s (byt d.body 0 5) = s.nodeNo ∧ objBusy s (.seq (byt d.body 0 5)) = false
        ∧ ∃ q, seqFor d (renewBy d s (byt d.body 0 5)) (byt d.body 0 5) = .ok q ∧ byt d.body 8 11 = q.own.epoch
          ∧ q.own.state = .offered ∧ byOwner d s q.own = false)
      (fun d s u a => a = .fail .notOwner ∧ u = renewBy d s (byt d.body 0 5))
  ∧ Ends .ownClaim rowOwnClaim (fun d s => homeOf s (byt d.body 0 5) = s.nodeNo ∧ objBusy s (.seq (byt d.body 0 5)) = false
        ∧ ∃ q, seqFor d (renewBy d s (byt d.body 0 5)) (byt d.body 0 5) = .ok q ∧ byt d.body 8 11 = q.own.epoch
          ∧ q.own.state = .abandoned)
      (fun d s u _ => ∃ q p, getQ s (byt d.body 0 5) = some q ∧ getQ u (byt d.body 0 5) = some p ∧ p.own.state = .held
        ∧ p.own.ownerNode = d.node.getD s.nodeNo ∧ p.own.ownerFunc = funcCode d.port d.func
        ∧ p.own.epoch = (q.own.epoch + 1) % 2 ^ 32 ∧ p.ctrlPort = d.port)
  ∧ Ends .ownClaim rowOwnClaim (fun d s => homeOf s (byt d.body 0 5) = s.nodeNo ∧ objBusy s (.seq (byt d.body 0 5)) = false
        ∧ ∃ q, seqFor d (renewBy d s (byt d.body 0 5)) (byt d.body 0 5) = .ok q ∧ byt d.body 8 11 = q.own.epoch
          ∧ q.own.state ≠ .abandoned) (fun d s u a => a = .fail .badState ∧ u = renewBy d s (byt d.body 0 5))
  ∧ Ends .fence rowFence (fun d _ => byt d.body 0 0 = 3)
      (fun _ s u a => a = .done ∧ u.fenced = true ∧ u.net.egress = [] ∧ u.seqs = s.seqs ∧ u.mem = s.mem)
  ∧ Ends .fence rowFence (fun d s => byt d.body 0 0 = 0 ∧ byt d.body 1 1 = 1 ∧ fld d.body 79 64 = s.nodeNo ∧ s.nodeNo ≤ 4095)
      (fun _ s u a => a = .done
        ∧ u = { s with place := { s.place with stopped := true }, boot := { s.boot with failed := true } })
  ∧ Ends .fence rowFence (fun d _ => 3 < byt d.body 0 0) (fun _ s u a => a = .fail .badField ∧ u = s)

/-! ## Transport (R292 to R302, R308 to R335, R428) -/

/-- R311, R312, R313, R329, R330: a request is acted on when it stands at LOW, and its answer completes the request of the
sender. That a command whose condition is not met changes nothing (but the time) is the model's choice (assumption 5). -/
def Obligations.RequestsAreServedInOrder : Prop :=
  (∀ (m : MsgRef) (s : State), (∀ op q r, ¬ AtLow (clockTo s m.now) m op q r) →
      exec (.read m) s = .next (clockTo s m.now) ∧ exec (.atomic m) s = .next (clockTo s m.now)
      ∧ exec (.flush m) s = .next (clockTo s m.now) ∧ exec (.trigger m) s = .next (clockTo s m.now)
      ∧ exec (.send m) s = .next (clockTo s m.now))
  ∧ (∀ (m : MsgRef) (q : QueueSt) (r : RecvMsg) (s : State), AtLow (clockTo s m.now) m 2 q r →
      regionAt (clockTo s m.now) r.key = none → exec (.read m) s = .next (refuse (clockTo s m.now) m.queue q .denied))
  ∧ (∀ (m : MsgRef) (q : QueueSt) (r : RecvMsg) (g : RegionSt) (s : State), AtLow (clockTo s m.now) m 2 q r →
      regionAt (clockTo s m.now) r.key = some g → gKind g = 1 →
      exec (.read m) s = .next (delivered (launchAnswer (chargeDram (clockTo s m.now) g.domain false r.total) m.queue m.msgId 3 0 r.total
        (memReadN s.bulk (gBase g + r.addr) r.total)) m.queue))
  ∧ (∀ (m : MsgRef) (q : QueueSt) (r : RecvMsg) (g : RegionSt) (s : State), AtLow (clockTo s m.now) m 2 q r →
      regionAt (clockTo s m.now) r.key = some g → gKind g = 0 → m.hostOk = true →
      exec (.read m) s = .next (delivered (launchAnswer (chargePcie (clockTo s m.now) g.domain false r.total) m.queue m.msgId 3 0 r.total
        (m.hostData % 2 ^ (8 * r.total))) m.queue))
  ∧ (∀ (m : MsgRef) (q : QueueSt) (r : RecvMsg) (g : RegionSt) (s : State), AtLow (clockTo s m.now) m 5 q r →
      regionAt (clockTo s m.now) r.key = some g → r.atop = 1 →
      let old := regionGet (clockTo s m.now) g r.addr 8 m.hostData
      exec (.atomic m) s = .next (delivered (launchAnswer (regionPut (clockTo s m.now) g r.addr 8 ((old + r.data % 2 ^ 64) % 2 ^ 64))
        m.queue m.msgId 6 0 8 old) m.queue))
  ∧ (∀ (m : MsgRef) (q : QueueSt) (r : RecvMsg) (g : RegionSt) (s : State), AtLow (clockTo s m.now) m 5 q r →
      regionAt (clockTo s m.now) r.key = some g → r.atop = 2 →
      let old := regionGet (clockTo s m.now) g r.addr 8 m.hostData
      exec (.atomic m) s = .next (delivered (launchAnswer
        (if old = r.data / 2 ^ 64 % 2 ^ 64 then regionPut (clockTo s m.now) g r.addr 8 (r.data % 2 ^ 64) else clockTo s m.now)
        m.queue m.msgId 6 0 8 old) m.queue))
  ∧ (∀ (m : MsgRef) (q : QueueSt) (r : RecvMsg) (s : State), AtLow (clockTo s m.now) m 7 q r →
      exec (.flush m) s = .next (delivered (launchAnswer (modWq (clockTo s m.now) m.queue fun q => { q with unplaced := none }) m.queue m.msgId
        8 (q.unplaced.getD .ok).code 0 0) m.queue))
  ∧ (∀ (m : MsgRef) (q : QueueSt) (r : RecvMsg) (s : State), AtLow (clockTo s m.now) m 9 q r → r.attn = false →
      q.tags.has (fld r.ext 31 0) = false → 64 ≤ q.tags.size →
      exec (.trigger m) s = .next (refuse (clockTo s m.now) m.queue q .exhausted))
  ∧ (∀ (m : MsgRef) (q : QueueSt) (r : RecvMsg) (s : State), AtLow (clockTo s m.now) m 9 q r → r.attn = false →
      q.tags.size < 64 → q.parked = [] →
      exec (.trigger m) s = .next (delivered (modWq (clockTo s m.now) m.queue fun q =>
        { q with tags := q.tags.upd (fld r.ext 31 0) 0 fun n => n + 1 }) m.queue))
  ∧ (∀ (m : MsgRef) (q : QueueSt) (r : RecvMsg) (w : WorkRequest) (s : State), AtLow (clockTo s m.now) m 4 q r → r.rq = some w →
      exec (.send m) s = .next (delivered (completeWr (clockTo s m.now) m.queue w .ok r.total m.msgId r.solicit) m.queue))
  ∧ (∀ (m : MsgRef) (q : QueueSt) (r : RecvMsg) (k : Nat) (h : HeatSt) (s : State), AtLow (clockTo s m.now) m 4 q r → r.rq = none →
      q.internal = some 0 → r.attn = true → k = fld r.ext 23 12 → getH (clockTo s m.now) k = some h → h.master = some (qPeerNode q) →
      exec (.send m) s = .next (delivered
        (if r.total = 32 ∧ fld r.ext 95 48 = 0 then stripeMark (clockTo s m.now) k (BitVec.ofNat 32 (fld r.ext 127 96))
         else stripeRows (clockTo s m.now) k (fld r.ext 127 96) r.total r.data) m.queue))
  ∧ (∀ (m : MsgRef) (q : QueueSt) (r : RecvMsg) (w : SendMsg) (g : RegionSt) (off : Nat) (s : State),
      AnswerIn (clockTo s m.now) m 3 q r w → localBuffer (clockTo s m.now) (qPd q) w.wr w.total = some (g, off) →
      (gKind g = 0 → m.hostOk = true) →
      exec (.readResp m) s = .next (closeRequest (completeWr (regionPut (clockTo s m.now) g off w.total r.data) m.queue w.wr .ok w.total
        m.msgId) m.queue m.msgId))
  ∧ (∀ (m : MsgRef) (q : QueueSt) (r : RecvMsg) (w : SendMsg) (g : RegionSt) (off : Nat) (s : State),
      AnswerIn (clockTo s m.now) m 6 q r w → localBuffer (clockTo s m.now) (qPd q) w.wr 8 = some (g, off) →
      exec (.atomicResp m) s = .next (closeRequest (completeWr (regionPut (clockTo s m.now) g off 8 r.data) m.queue w.wr .ok 8
        m.msgId) m.queue m.msgId))
  ∧ (∀ (m : MsgRef) (q : QueueSt) (r : RecvMsg) (w : SendMsg) (st : Status) (s : State),
      AnswerIn (clockTo s m.now) m 8 q r w → w.purpose = .host → r.addr < 65536 → Status.ofCode r.addr = some st → st ≠ .ok →
      exec (.flushResp m) s = .next (closeRequest (completeWr (modWq (clockTo s m.now) m.queue fun q => { q with recorded := none })
        m.queue w.wr st w.total m.msgId) m.queue m.msgId))
  ∧ (∀ (m : MsgRef) (s : State), (∀ op q r w, ¬ AnswerIn (clockTo s m.now) m op q r w) →
      exec (.readResp m) s = .next (clockTo s m.now) ∧ exec (.atomicResp m) s = .next (clockTo s m.now)
      ∧ exec (.flushResp m) s = .next (clockTo s m.now))

/-- R302, R318, R320, R321, R322, R323, R324, R325, R326: what packets and acknowledgements do as they arrive, and what is
done when they do not. That a command whose condition is not met changes nothing (but the time) is the model's choice
(assumption 5). -/
def Obligations.PacketsAreCheckedAndAcknowledged : Prop :=
  (∀ (k : Packet) (s : State), trafficOff (clockTo s k.now) = false → (s.boot.failed = false ∨ k.mgmt = true) →
      ethUp (clockTo s k.now) k.port = true →
      (k.frameOk = false → exec (.coriskanoPacket k) s = .next (count (clockTo s k.now) 0 k.port.val 0))
      ∧ (k.frameOk = true → malformed k = true → exec (.coriskanoPacket k) s = .next (count (clockTo s k.now) 0 k.port.val 1))
      ∧ (k.frameOk = true → malformed k = false → k.partition ≠ s.partition.toNat →
          exec (.coriskanoPacket k) s = .next (count (clockTo s k.now) 0 k.port.val 2))
      ∧ (k.frameOk = true → malformed k = false → k.partition = s.partition.toNat → s.net.addrs.get? k.srcNode = none →
          exec (.coriskanoPacket k) s = .next (count (clockTo s k.now) 0 k.port.val 3)))
  ∧ (∀ (k : Packet) (a : BitVec 256) (s : State), trafficOff (clockTo s k.now) = false → s.boot.failed = false →
      ethUp (clockTo s k.now) k.port = true → k.frameOk = true → malformed k = false → k.partition = s.partition.toNat →
      s.net.addrs.get? k.srcNode = some a → k.ipSrc = rf a (if k.port = 0 then 127 else 255) (if k.port = 0 then 0 else 128) →
      (k.srcNode ∈ s.net.fencedNodes → exec (.coriskanoPacket k) s = .next (count (clockTo s k.now) 0 k.port.val 4))
      ∧ (k.srcNode ∉ s.net.fencedNodes → k.enc = sealedDomain s k.domain → k.trailerOk = false →
          exec (.coriskanoPacket k) s = .next (count (clockTo s k.now) 0 k.port.val (if k.enc then 5 else 6))))
  ∧ (∀ (k : Packet) (u : State) (q : QueueSt) (s : State), ingress (clockTo s k.now) k = (u, true) → k.mgmt = false → k.op ≠ 16 → k.op ≠ 17 →
      getWq (adoptDomain u k.dstQueue k.domain) k.dstQueue = some q → q.state ≠ .ready →
      exec (.coriskanoPacket k) s = .next (sendNack (adoptDomain u k.dstQueue k.domain) k.port k.dstQueue k.msgId k.srcNode k.srcQueue
        k.domain .badState))
  ∧ (∀ (k : Packet) (u : State) (q : QueueSt) (s : State), ingress (clockTo s k.now) k = (u, true) → k.mgmt = false → k.op ≠ 16 → k.op ≠ 17 →
      getWq (adoptDomain u k.dstQueue k.domain) k.dstQueue = some q → q.state = .ready →
      (windowPlace q k = 1 → exec (.coriskanoPacket k) s = .next (sendAck (adoptDomain u k.dstQueue k.domain) k.port k.dstQueue (recvKey k)
        k.srcNode k.srcQueue k.domain true))
      ∧ (windowPlace q k = 2 → exec (.coriskanoPacket k) s = .next (count (adoptDomain u k.dstQueue k.domain) 2 0 2))
      ∧ (∀ m, windowPlace q k = 0 → namesRegion k = false → q.recv.get? (recvKey k) = some m → m.refused = none →
          (bit m.bitmap (k.offset / 4096) = true ∨ m.complete = true) →
          exec (.coriskanoPacket k) s = .next (count (adoptDomain u k.dstQueue k.domain) 0 k.port.val 8))
      ∧ (∀ st, windowPlace q k = 0 → namesRegion k = true →
          regionCheck (adoptDomain u k.dstQueue k.domain) (qPd q) k.op k.regionKey k.addr k.totalLen = some st →
          exec (.coriskanoPacket k) s = .next (refusePacket (adoptDomain u k.dstQueue k.domain) k.dstQueue k st)))
  ∧ (∀ (k : Packet) (u : State) (q : QueueSt) (g : RegionSt) (s : State), ingress (clockTo s k.now) k = (u, true) → k.mgmt = false → k.op = 1 →
      getWq (adoptDomain u k.dstQueue k.domain) k.dstQueue = some q → q.state = .ready → windowPlace q k = 0 →
      regionCheck (adoptDomain u k.dstQueue k.domain) (qPd q) 1 k.regionKey k.addr k.totalLen = none →
      regionAt (adoptDomain u k.dstQueue k.domain) k.regionKey = some g → gKind g = 1 →
      q.recv.get? (recvKey k) = none → k.totalLen ≤ 4096 → k.offset = 0 → k.destOk = true →
      ∃ t, exec (.coriskanoPacket k) s = .next t ∧ t.bulk = (bulkPut u (gBase g + k.addr) k.payload k.payLen).bulk
        ∧ ((getWq t k.dstQueue).any fun p => !(p.recv.get? k.msgId).any fun m => !m.complete) = true
        ∧ t = { adoptDomain u k.dstQueue k.domain with bulk := t.bulk, acct := t.acct, net := t.net, out := t.out })
  ∧ (∀ (k : Packet) (u : State) (s : State), ingress (clockTo s k.now) k = (u, true) → k.op = 16 →
      exec (.ack k) s = .next (ackOp u (packetQueue k) k.msgId (k.totalLen == 0) k.payload))
  ∧ (∀ (k : Packet) (u : State) (s : State), ingress (clockTo s k.now) k = (u, false) →
      exec (.ack k) s = .next u ∧ exec (.nack k) s = .next u ∧ exec (.coriskanoPacket k) s = .next u)
  ∧ (∀ (k : Packet) (u : State) (q : QueueSt) (m : SendMsg) (s : State), ingress (clockTo s k.now) k = (u, true) → k.op = 16 → k.totalLen = 0 →
      getWq u (packetQueue k) = some q → q.sent.get? k.msgId = some m → m.whole = false → m.completed = true → m.purpose = .host →
      q.later = [] →
      ∃ t, exec (.ack k) s = .next t ∧ (getWq t (packetQueue k)).map (fun p => p.sent.get? k.msgId) = some none
        ∧ t = { u with net := t.net })
  ∧ (∀ (k : Packet) (u : State) (q : QueueSt) (m : SendMsg) (s : State), ingress (clockTo s k.now) k = (u, true) → k.op = 16 → k.totalLen ≠ 0 →
      getWq u (packetQueue k) = some q → q.sent.get? k.msgId = some m → m.whole = false →
      (∀ i, i < m.packets → bit k.payload i = false → u.ns < m.lastSent.getD i 0 + qRto q / 4) →
      ∃ t p, exec (.ack k) s = .next t ∧ (getWq t (packetQueue k)).bind (fun p => p.sent.get? k.msgId) = some p
        ∧ p.acked = (m.acked ||| k.payload % 2 ^ m.packets) ∧ t = { u with net := t.net })
  ∧ (∀ (k : Packet) (u : State) (q : QueueSt) (m : SendMsg) (s : State), ingress (clockTo s k.now) k = (u, true) → k.op = 17 →
      k.addr < 65536 → Status.ofCode k.addr = some .busy → getWq u (packetQueue k) = some q → q.sent.get? k.msgId = some m →
      m.whole = false → m.op = 4 → m.rnr < qRnr q →
      exec (.nack k) s = .next (setWq u (packetQueue k) { q with sent := q.sent.set k.msgId { m with rnrAt := some u.ns } }))
  ∧ (∀ (k : Packet) (u : State) (q : QueueSt) (m : SendMsg) (st : Status) (s : State), ingress (clockTo s k.now) k = (u, true) → k.op = 17 →
      k.addr < 65536 → Status.ofCode k.addr = some st → (st = .denied ∨ st = .badField ∨ st = .badState) → packetQueue k < 65536 →
      getWq u (packetQueue k) = some q → q.internal = none → q.sent.get? k.msgId = some m → m.whole = false → q.state = .ready →
      ∃ t, exec (.nack k) s = .next t ∧ ((getWq t (packetQueue k)).map (·.state)) = some .error)
  ∧ (∀ (m : MsgRef) (q : QueueSt) (x : SendMsg) (s : State), getWq (clockTo s m.now) m.queue = some q → q.sent.get? m.msgId = some x →
      x.whole = false → retxDue q x (clockTo s m.now).ns = false → exec (.retxTimeout m) s = .next (clockTo s m.now))
  ∧ (∀ (m : MsgRef) (q : QueueSt) (x : SendMsg) (s : State), getWq (clockTo s m.now) m.queue = some q → q.sent.get? m.msgId = some x →
      x.whole = false → retxDue q x (clockTo s m.now).ns = true → qRetry q ≤ x.rounds → m.queue < 65536 → q.state = .ready →
      ∃ t, exec (.retxTimeout m) s = .next t ∧ (getWq t m.queue).map (·.state) = some .error)
  ∧ (∀ (m : MsgRef) (q : QueueSt) (x : SendMsg) (s : State), getWq (clockTo s m.now) m.queue = some q → q.sent.get? m.msgId = some x →
      x.whole = false → retxDue q x (clockTo s m.now).ns = true → x.rounds < qRetry q → x.packets = 1 → bit x.acked 0 = false →
      x.sent.getD 0 0 < 16 →
      exec (.retxTimeout m) s = .next (sendPacket (setWq (clockTo s m.now) m.queue
        { q with sent := q.sent.set m.msgId { x with rounds := x.rounds + 1 } }) m.queue m.msgId 0 true))
  ∧ (∀ (m : MsgRef) (q : QueueSt) (x : SendMsg) (at_ : Nat) (s : State), getWq (clockTo s m.now) m.queue = some q →
      q.sent.get? m.msgId = some x → x.rnrAt = some at_ →
      ((clockTo s m.now).ns < at_ + qRto q → exec (.rnrRetryTimeout m) s = .next (clockTo s m.now))
      ∧ (at_ + qRto q ≤ (clockTo s m.now).ns → x.packets = 1 → x.sent.getD 0 0 < 16 →
          exec (.rnrRetryTimeout m) s = .next (sendPacket (setWq (clockTo s m.now) m.queue
            { q with sent := q.sent.set m.msgId { x with rnr := x.rnr + 1, rnrAt := none, acked := 0 } }) m.queue m.msgId 0 true)))
  ∧ (∀ (m : MsgRef) (q : QueueSt) (r : RecvMsg) (s : State), getWq (clockTo s m.now) m.queue = some q → q.recv.get? m.msgId = some r →
      r.complete = false → r.bitmap ≠ 0 →
      ((clockTo s m.now).ns < r.last + 4000 → exec (.ackDelayTimer m) s = .next (clockTo s m.now))
      ∧ (r.last + 4000 ≤ (clockTo s m.now).ns → exec (.ackDelayTimer m) s = .next (sendAck (modWq (clockTo s m.now) m.queue fun q =>
          { q with recv := q.recv.modify m.msgId fun r => { r with last := (clockTo s m.now).ns } }) 0 m.queue m.msgId (qPeerNode q)
          (qPeerQueue q) q.domain false)))
  ∧ (∀ (m : MsgRef) (q : QueueSt) (r : RecvMsg) (s : State), getWq (clockTo s m.now) m.queue = some q → q.recv.get? m.msgId = some r →
      r.complete = false → 2 ≤ r.packets → r.bitmap ≠ 0 →
      ((clockTo s m.now).ns < r.last + 1000000 → exec (.reasmIdleTimeout m) s = .next (clockTo s m.now))
      ∧ (r.last + 1000000 ≤ (clockTo s m.now).ns → exec (.reasmIdleTimeout m) s = .next (setWq (clockTo s m.now) m.queue
          { q with recv := q.recv.set m.msgId { r with bitmap := 0, last := (clockTo s m.now).ns } })))
  ∧ (∀ (peer n at_ : Nat) (q : QueueSt) (s : State), getWq (clockTo s n) (mgmtKey peer) = some q → q.gapSince = some at_ →
      ((clockTo s n).ns < at_ + 10000000 → exec (.mgmtSkipTimeout peer n) s = .next (clockTo s n))
      ∧ (at_ + 10000000 ≤ (clockTo s n).ns → exec (.mgmtSkipTimeout peer n) s = .next (advanceLow (count (setWq (clockTo s n) (mgmtKey peer)
          { q with recv := q.recv.erase q.low, low := (q.low + 1) % 2 ^ 32, gapSince := none }) 2 0 4) (mgmtKey peer) 64)))

/-- R292, R293, R294, R297, R308, R309, R310, R311, R312, R322, R333, R334, R335, R428: doorbells, work requests, shapers,
frames and links. That a command whose condition is not met changes nothing (but the time) is the model's choice
(assumption 5). -/
def Obligations.QueuesShapersAndLinks : Prop :=
  (∀ (p : Port) (f : Func) (n size : Nat) (v : Word) (l : List WorkRequest) (q : QueueSt) (s : State), mmioOk s p f = true → size = 8 →
      rf v 63 62 = 0 → rf v 61 32 = 0 → getWq (clockTo s n) (rf v 15 0) = some q → q.func = funcCode p f → q.internal = none →
      q.state = .ready → q.sq.length + (rf v 31 16 + 65536 - q.sqTail) % 65536 ≤ 2 ^ qSqLog2 q →
      exec (.queueDbSqTail p f n size v l) s = .next (setWq (clockTo s n) (rf v 15 0)
        { q with sqTail := rf v 31 16, sq := q.sq ++ posted l ((rf v 31 16 + 65536 - q.sqTail) % 65536) }))
  ∧ (∀ (p : Port) (f : Func) (n size : Nat) (v : Word) (l : List WorkRequest) (q : QueueSt) (s : State), mmioOk s p f = true → size = 8 →
      rf v 63 62 = 0 → rf v 61 32 = 0 → getWq (clockTo s n) (rf v 15 0) = some q → q.func = funcCode p f → q.internal = none →
      q.state ≠ .reset → 2 ^ qSqLog2 q < q.sq.length + (rf v 31 16 + 65536 - q.sqTail) % 65536 →
      exec (.queueDbSqTail p f n size v l) s = .next (raiseRing (clockTo s n) p f 0x0033 0x1000 v.toNat))
  ∧ (∀ (p : Port) (f : Func) (n size : Nat) (v : Word) (l : List WorkRequest) (q : QueueSt) (s : State), mmioOk s p f = true → size = 8 →
      rf v 63 62 = 1 → rf v 61 32 = 0 → getWq (clockTo s n) (rf v 15 0) = some q → q.func = funcCode p f → q.internal = none →
      q.state = .ready → qRqLog2 q ≠ 0 → (rf v 31 16 + 65536 - q.rqTail) % 65536 = 1 → q.rq.length + 1 ≤ 2 ^ qRqLog2 q →
      recvBad (clockTo s n) q (l.getD 0 {}) = none →
      ∃ t x, exec (.queueDbRqTail p f n size v l) s = .next t ∧ getWq t (rf v 15 0) = some x ∧ x.rq = q.rq ++ [l.getD 0 {}]
        ∧ x.rqTail = rf v 31 16 ∧ t = { clockTo s n with net := t.net })
  ∧ (∀ (p : Port) (f : Func) (n size : Nat) (v : Word) (c : CqSt) (s : State), mmioOk s p f = true → size = 8 →
      rf v 61 32 = 0 → (clockTo s n).net.cqs.get? (rf v 13 0) = some c → c.port = p → c.func = f →
      let head := min c.tail (c.head + (rf v 31 16 + 65536 - c.head % 65536) % 65536)
      (rf v 63 62 = 2 → exec (.queueDbCqHead p f n size v) s = .next (modNet (clockTo s n) fun x =>
        { x with cqs := x.cqs.set (rf v 13 0) { c with head := head } }))
      ∧ (rf v 63 62 = 3 → exec (.queueDbCqArm p f n size v) s = .next (modNet (clockTo s n) fun x =>
        { x with cqs := x.cqs.set (rf v 13 0) { c with head := head, armed := true } })))
  ∧ (∀ (p : Port) (f : Func) (n size : Nat) (v : Word) (l : List WorkRequest) (s : State), mmioOk s p f = false →
      exec (.queueDbSqTail p f n size v l) s = .next s ∧ exec (.queueDbRqTail p f n size v l) s = .next s
      ∧ exec (.queueDbCqHead p f n size v) s = .next s ∧ exec (.queueDbCqArm p f n size v) s = .next s)
  ∧ (∀ (k n : Nat) (h : HostRead) (q : QueueSt) (w : WorkRequest) (rest : List WorkRequest) (s : State), getWq (clockTo s n) k = some q →
      q.sq = w :: rest → q.state = .ready → trafficOff (clockTo s n) = false → s.boot.failed = false →
      let u := modWq (clockTo s n) k fun q => { q with sq := rest }
      (qPeerNode q ∈ s.net.fencedNodes → exec (.workRequestSend k n h) s = .next (completeWr u k w .fenced w.length 0))
      ∧ (∀ st, qPeerNode q ∉ s.net.fencedNodes → sendBad (clockTo s n) q w = some st →
          exec (.workRequestSend k n h) s = .next (completeWr u k w st w.length 0))
      ∧ (qPeerNode q ∉ s.net.fencedNodes → sendBad (clockTo s n) q w = none → w.parked = true → 64 ≤ q.parked.length →
          exec (.workRequestSend k n h) s = .next (completeWr u k w .exhausted w.length 0))
      ∧ (qPeerNode q ∉ s.net.fencedNodes → sendBad (clockTo s n) q w = none → w.parked = false → (64 ≤ unacked q ∨ (w.fence = true ∧ fenceClear q = false)) →
          exec (.workRequestSend k n h) s = .next (clockTo s n))
      ∧ (∀ g off, qPeerNode q ∉ s.net.fencedNodes → sendBad (clockTo s n) q w = none → w.parked = false → unacked q < 64 →
          (w.fence = true → fenceClear q = true) → sealedDomain (clockTo s n) q.domain = false → localBuffer (clockTo s n) (qPd q) w w.length = some (g, off) →
          gKind g = 1 → exec (.workRequestSend k n h) s = .next (launch u k
            (wrMessage w (memReadN s.bulk (gBase g + off) w.length % 2 ^ (8 * w.length))))))
  ∧ (∀ (n k : Nat) (v : ShaperSt) (s : State), (clockTo s n).net.shapers.get? k = some v →
      ∃ t x, exec (.calendarSlot n) s = .next t ∧ t.net.shapers.get? k = some x ∧ x.e = v.e ∧ x.record = v.record
        ∧ (∀ j, v.wheel = some j → v.far = false → x.wheel = if j ≤ (clockTo s n).ns / 8 then none else some j)
        ∧ (v.far = true → v.e < (clockTo s n).ns * 256 + 65536 * 256 → x.wheel = some (ceilDiv v.e 2048) ∧ x.far = false)
        ∧ t = { clockTo s n with net := { (clockTo s n).net with shapers := t.net.shapers } })
  ∧ (∀ (p : Port) (n : Nat) (s : State), (clockTo s n).net.egress = [] → exec (.egressFrameStart p n) s = .next (clockTo s n))
  ∧ (∀ (p : Port) (n : Nat) (e : EgrPkt) (s : State), (clockTo s n).net.egress = [e] → e.cls = 0 → e.port = p →
      ethUp (clockTo s n) p = true → (ethOf (clockTo s n) p).busyUntil ≤ (clockTo s n).ns * 256 → trafficOff (clockTo s n) = false →
      s.boot.failed = false → (∀ a b c d, e.kind ≠ .data a b c d) →
      exec (.egressFrameStart p n) s = .next (emit (setEth (modNet (clockTo s n) fun x => { x with egress := [] }) p
        { ethOf (clockTo s n) p with busyUntil := (clockTo s n).ns * 256 + wireTime e.len }) (.frame p 0 e.len)))
  ∧ (∀ (fr : EthFrame) (s : State), ethUp (clockTo s fr.now) fr.port = true →
      (frameAccepted (clockTo s fr.now) fr = false → exec (.ethFrameReceived fr) s = .next (count (clockTo s fr.now) 0 fr.port.val 0))
      ∧ (frameAccepted (clockTo s fr.now) fr = true → fr.etherType = 0x86DD → (fr.extHeader = true ∨ fr.lenOk = false) →
          exec (.ethFrameReceived fr) s = .next (count (clockTo s fr.now) 0 fr.port.val 0))
      ∧ (frameAccepted (clockTo s fr.now) fr = true → fr.etherType = 0x86DD → fr.extHeader = false → fr.lenOk = true → fr.nextHeader = 58 →
          fr.dstIp = pAddr (ethOf (clockTo s fr.now) fr.port) → fr.checksumOk = true → fr.solicit = true →
          exec (.ethFrameReceived fr) s = .next (emit (clockTo s fr.now) (.neighborAdvert fr.port)))
      ∧ (frameAccepted (clockTo s fr.now) fr = true → fr.etherType = 0x86DD → fr.extHeader = false → fr.lenOk = true → fr.nextHeader = 17 →
          fr.dstIp = pAddr (ethOf (clockTo s fr.now) fr.port) → (fr.udpDst = 319 ∨ fr.udpDst = 320) → ptpUdp (clockTo s fr.now) = false →
          exec (.ethFrameReceived fr) s = .next (count (clockTo s fr.now) 0 fr.port.val 10)))
  ∧ (∀ (fr : EthFrame) (s : State), ethUp (clockTo s fr.now) fr.port = false → exec (.ethFrameReceived fr) s = .next (clockTo s fr.now))
  ∧ (∀ (p : Port) (s : State), rb (ethOf s p).record 0 = true → (s.boot.plls.getD (epllKey p) {}).locked = true →
      exec (.ethLinkUp p) s = .next (setEth s p { ethOf s p with link := 2 }))
  ∧ (∀ (p : Port) (s : State), (rb (ethOf s p).record 0 = false ∨ (s.boot.plls.getD (epllKey p) {}).locked = false) →
      exec (.ethLinkUp p) s = .next s)
  ∧ (∀ (p : Port) (s : State), (ethOf s p).link ≠ 0 →
      ∃ t, exec (.ethLinkDown p) s = .next t ∧ (ethOf t p).link = b2n (rb (ethOf s p).record 0)
        ∧ (∀ e ∈ t.net.egress, e.port ≠ p) ∧ t.net.egress.length = s.net.egress.length
        ∧ t = { s with net := t.net, boot := t.boot, funcs := t.funcs, out := t.out })
  ∧ (∀ (p : Port) (s : State), (ethOf s p).link = 0 → exec (.ethLinkDown p) s = .next s)

/-! ## Security (R391 to R406, R415 to R420, R448, R449, R459) -/

/-- R398, R399, R401, R402, R403, R404, R405, R406: connections, certificates, sessions, measurements, link keys and
interfaces. That a command whose condition is not met changes nothing (but the time) is the model's choice (assumption 5). -/
def Obligations.SessionsOpenAndEnd : Prop :=
  (∀ (p : Port) (s : State), spdmUp s = true →
      ∃ t, exec (.getVersion p) s = .next t ∧ getConn t p = {} ∧ (∀ q, q ≠ p → getConn t q = getConn s q)
        ∧ t = { s with out := .spdm p .ok [] :: s.out, sec := { s.sec with conn0 := t.sec.conn0, conn1 := t.sec.conn1 } })
  ∧ (∀ (p : Port) (o : SpdmOffer) (s : State), spdmFull s = true → s.boot.identityFault = false → (getConn s p).unexpected = false →
      ∃ t, exec (.negotiateAlgorithms p o) s = .next t ∧ (getConn t p).negotiated = offerOk o ∧ (getConn t p).unexpected = !offerOk o
        ∧ t = { s with sec := t.sec, out := t.out })
  ∧ (∀ (p : Port) (n k : Nat) (s : State), spdmUp s = true → s.boot.identityFault = false → ((getConn s p).negotiated = false ∨ (getConn s p).unexpected = true) →
      exec (.challenge p 0) s = .next (spdmAns s p .unexpectedRequest)
      ∧ exec (.getCertificate p 0) s = .next (spdmAns s p .unexpectedRequest)
      ∧ exec (.keyExchange p n k) s = .next (spdmAns (clockTo s n) p .unexpectedRequest))
  ∧ (∀ (p : Port) (n k : Nat) (s : State), spdmUp s = true → s.boot.identityFault = true →
      exec (.challenge p 0) s = .next (spdmAns s p .denied) ∧ exec (.keyExchange p n k) s = .next (spdmAns (clockTo s n) p .denied))
  ∧ (∀ (p : Port) (s : State), Negotiated s p →
      exec (.getCertificate p 0) s = .next (spdmAns s p .ok [Config.identityKeys.toNat, s.sec.fuses.serial.toNat])
      ∧ exec (.challenge p 0) s = .next (spdmAns (signed s p) p .ok))
  ∧ (∀ (p : Port) (n : Nat) (s : State), Negotiated s p →
      exec (.altSig p n true) s = .next (spdmAns (setConn (clockTo s n) p { getConn s p with supplied := true }) p .ok)
      ∧ exec (.altSig p n false) s =
          .next (spdmAns (clockTo s n) p (if (getConn s p).companion then .ok else .unexpectedRequest)))
  ∧ (∀ (p : Port) (n r : Nat) (s : State), Negotiated s p →
      (4 ≤ sessionCount s true → exec (.keyExchange p n r) s = .next (spdmAns (clockTo s n) p .busy))
      ∧ (sessionCount s true < 4 → ∃ t k, exec (.keyExchange p n r) s = .next t ∧ s.sec.sessions.get? k = none
          ∧ t.sec.sessions.get? k = some { setup := true, port := p, requester := r, lastMsg := (clockTo s n).ns }
          ∧ (∀ j, j ≠ k → t.sec.sessions.get? j = s.sec.sessions.get? j) ∧ t = { clockTo s n with sec := t.sec, out := t.out }))
  ∧ (∀ (p : Port) (n k : Nat) (a b : Bool) (x : Session) (s : State), Negotiated s p → s.sec.sessions.get? k = some x → x.port = p →
      x.setup = true → x.finished = false →
      (a = true → b = true → (getConn s p).supplied = true → ∃ t, exec (.finish p n k a b) s = .next t
          ∧ t.sec.sessions.get? k = some { x with finished := true, lastMsg := (clockTo s n).ns } ∧ (getConn t p).supplied = false
          ∧ t = { clockTo s n with sec := t.sec, out := t.out })
      ∧ ((a = false ∨ b = false ∨ (getConn s p).supplied = false) → ∃ t, exec (.finish p n k a b) s = .next t
          ∧ t.sec.sessions.get? k = none ∧ (∀ h y, t.sec.psks.get? h = some y → y.setup ≠ k) ∧ t.out.head? = some (.spdm p .decryptError [])
          ∧ t = { clockTo s n with sec := t.sec, out := t.out }))
  ∧ (∀ (p : Port) (n k h : Nat) (x : Session) (s : State), Negotiated s p → s.sec.sessions.get? k = some x → x.port = p →
      x.setup = true → x.finished = true →
      (∃ t g, exec (.kemExchange p n k false) s = .next t ∧ t.sec.sessions.get? k = some { x with hint := some g, lastMsg := (clockTo s n).ns }
          ∧ t = { clockTo s n with sec := t.sec, out := t.out })
      ∧ (x.hint = some h → ∃ t, exec (.kemExchange p n k true) s = .next t
          ∧ t.sec.psks.get? h = some { requester := x.requester, madeAt := (clockTo s n).ns, setup := k }
          ∧ t.sec.sessions.get? k = some { x with hint := none, lastMsg := (clockTo s n).ns } ∧ t = { clockTo s n with sec := t.sec, out := t.out })
      ∧ (x.hint = none → exec (.kemExchange p n k true) s = .next (spdmAns (clockTo s n) p .unexpectedRequest)))
  ∧ (∀ (p : Port) (n h : Nat) (x : Psk) (s : State), Negotiated s p → s.sec.psks.get? h = some x →
      (16 ≤ sessionCount s false → exec (.pskExchange p n h) s = .next (spdmAns (clockTo s n) p .busy))
      ∧ (sessionCount s false < 16 → ∃ t k, exec (.pskExchange p n h) s = .next t ∧ t.sec.psks.get? h = none
          ∧ s.sec.sessions.get? k = none ∧ t.sec.sessions.get? k =
            some { setup := false, port := p, requester := x.requester, finished := true, lastMsg := (clockTo s n).ns }
          ∧ t = { clockTo s n with sec := t.sec, out := t.out }))
  ∧ (∀ (p : Port) (n h : Nat) (s : State), Negotiated s p → s.sec.psks.get? h = none →
      exec (.pskExchange p n h) s = .next (spdmAns (clockTo s n) p .unexpectedRequest))
  ∧ (∀ (h n : Nat) (x : Psk) (s : State), s.sec.psks.get? h = some x →
      (x.madeAt + 10000000000 ≤ (clockTo s n).ns → ∃ t, exec (.pskExpiry h n) s = .next t ∧ t.sec.psks.get? h = none
        ∧ t = { clockTo s n with sec := { s.sec with psks := t.sec.psks } })
      ∧ ((clockTo s n).ns < x.madeAt + 10000000000 → exec (.pskExpiry h n) s = .next (clockTo s n)))
  ∧ (∀ (k n : Nat) (x : Session) (s : State), s.sec.sessions.get? k = some x →
      ((x.setup = true ∨ (clockTo s n).ns < x.lastMsg + 60000000000) → exec (.sessionIdleTimeout k n) s = .next (clockTo s n))
      ∧ (x.setup = false → x.lastMsg + 60000000000 ≤ (clockTo s n).ns → (∀ g ∈ s.flights, g.session ≠ some k) →
          ∃ t, exec (.sessionIdleTimeout k n) s = .next t ∧ t.sec.sessions.get? k = none
            ∧ t = { clockTo s n with sec := t.sec })
      ∧ (x.setup = false → x.lastMsg + 60000000000 ≤ (clockTo s n).ns → (∃ g ∈ s.flights, g.session = some k) →
          ∃ t, exec (.sessionIdleTimeout k n) s = .next t ∧ t.sec.sessions.get? k = some { x with ending := true }
            ∧ t = { clockTo s n with sec := t.sec }))
  ∧ (∀ (p : Port) (n k : Nat) (x : Session) (s : State), Negotiated s p → s.sec.sessions.get? k = some x → x.port = p →
      (∀ g ∈ s.flights, g.session ≠ some k) → ∃ t, exec (.endSession p n k) s = .next t ∧ t.sec.sessions.get? k = none
        ∧ (∀ j, j ≠ k → t.sec.sessions.get? j = s.sec.sessions.get? j) ∧ (∀ h y, t.sec.psks.get? h = some y → y.setup ≠ k) ∧ t = { clockTo s n with sec := t.sec, out := t.out })
  ∧ (∀ (p : Port) (n : Nat) (s : State), Negotiated s p →
      exec (.getMeasurements p n none 1) s = .next (spdmAns (signed (clockTo s n) p) p .ok [1, s.sec.fuses.romDigest.toNat])
      ∧ exec (.getMeasurements p n none 4) s = .next (spdmAns (signed (clockTo s n) p) p .ok [4, s.cal.digest.toNat])
      ∧ exec (.getMeasurements p n none 0xFE) s = .next (spdmAns (signed (clockTo s n) p) p .ok [0xFE, b2n s.sec.debugOpened]))
  ∧ (∀ (p : Port) (f : Func) (n k stream key : Nat) (x : Session) (s : State), Negotiated s p → s.sec.sessions.get? k = some x → x.port = p →
      x.setup = false →
      (isOfficer s x = false → exec (.ideKm p n k stream key) s = .next (spdmAns (clockTo s n) p .denied)
        ∧ exec (.lockInterface p f n k) s = .next (spdmAns (clockTo s n) p .denied))
      ∧ (isOfficer s x = true → stream ≤ 8 → ∃ t, exec (.ideKm p n k stream key) s = .next t
          ∧ t.sec.ide.get? (p.val * 16 + stream) = some key ∧ t = { clockTo s n with sec := t.sec, out := t.out })
      ∧ (isOfficer s x = true → (domainOf s p f).getD 0 ≠ 0 → (getF s p f).tdisp = .unlocked →
          ∃ t, exec (.lockInterface p f n k) s = .next t ∧ getF t p f = { getF s p f with tdisp := .configLocked }
            ∧ t = { clockTo s n with sec := t.sec, funcs := t.funcs, out := t.out })
      ∧ (isOfficer s x = true → ((domainOf s p f).getD 0 = 0 ∨ (getF s p f).tdisp ≠ .unlocked) →
          ∃ t, exec (.lockInterface p f n k) s = .next t ∧ getF t p f = getF s p f ∧ t.out.head? = some (.spdm p .unexpectedRequest [])))
  ∧ (∀ (p : Port) (f : Func) (s : State), running s = true →
      ((getF s p f).tdisp = .configLocked → ∃ t, exec (.stopInterface p f false) s = .next t
        ∧ getF t p f = { getF s p f with tdisp := .unlocked } ∧ t = { s with funcs := t.funcs })
      ∧ ((getF s p f).tdisp = .run → ∃ t, exec (.stopInterface p f false) s = .next t
        ∧ getF t p f = { assigned := (getF s p f).assigned, tdisp := .unlocked })
      ∧ ((getF s p f).tdisp = .configLocked → ∃ t, exec (.stopInterface p f true) s = .next t
        ∧ getF t p f = { assigned := (getF s p f).assigned, tdisp := .error }))

/-- R415, R416, R417, R418, R419, R420, R459: the life cycle, its tokens and requests, the fuses, and the end of the keys.
That a command whose condition is not met changes nothing (but the time) is the model's choice (assumption 5). -/
def Obligations.LifeCycleCommandsActOnFuses : Prop :=
  Does .secStatus rowSecStatus (fun _ _ => True)
    (fun _ s => (s, .done (s.sec.mod.code + 2 ^ 8 * (lifeCycle s).code + 2 ^ 16 * ((ownerSlot s).map (·.1)).getD 0 % 2 ^ 18
      + 2 ^ 18 * b2n s.sec.debugOpened + 2 ^ 24 * (sessionCount s true % 8) + 2 ^ 32 * (sessionCount s false % 32)) s.sec.failCode))
  ∧ Ends .lcNonce rowLcNonce (fun d _ => byt d.body 0 7 % 64 = 0)
      (fun d s t a => ∃ n, t.sec.nonce = some n ∧ a = .done 0 0 (byt d.body 0 7) 32 n.toNat
        ∧ t = { s with sec := { s.sec with nonce := some n, draws := s.sec.draws + 1 } })
  ∧ Does .lcProvision rowLcProvision (fun _ s => lifeCycle s ≠ .manufacture) (fun _ s => (s, .fail .denied))
  ∧ Ends .lcProvision rowLcProvision (fun d s => lifeCycle s = .manufacture ∧ byt d.body 8 15 % 64 = 0 ∧ 4532 ≤ byt d.body 16 19
        ∧ hostStatus d.env.host = none ∧ verifies s d = true ∧ isToken (hostData d) = true ∧ bit (tokenScope (hostData d)) 0 = true
        ∧ d.env.fuseOk = true)
      (fun _ s t a => a = .acceptDone .ok ∧ lifeCycle t = .provisioned ∧ t.sec.nonce = none
        ∧ s.sec.fuses.fuseRoot &&& t.sec.fuses.fuseRoot = s.sec.fuses.fuseRoot
        ∧ t = { s with sec := t.sec, out := t.out, free := t.free })
  ∧ Does .lcProvision rowLcProvision (fun d s => lifeCycle s = .manufacture ∧ byt d.body 8 15 % 64 = 0 ∧ hostStatus d.env.host = none
        ∧ verifies s d = false) (fun _ s => ({ s with sec := { s.sec with nonce := none } }, .fail .authFail))
  ∧ Does .lcOperate rowLcOperate (fun _ s => lifeCycle s ≠ .provisioned ∨ s.sec.debugOpened = true) (fun _ s => (s, .fail .denied))
  ∧ Ends .lcOperate rowLcOperate (fun d s => lifeCycle s = .provisioned ∧ s.sec.debugOpened = false ∧ d.env.fuseOk = true
        ∧ s.sec.fuses.owner0 = 0)
      (fun d s t a => a = .done ∧ lifeCycle t = .operational
        ∧ t.sec.fuses.owner0 = BitVec.ofNat 384 (((sessionOf s d).map (·.requester)).getD 0) ∧ t = { s with sec := { s.sec with fuses := t.sec.fuses } })
  ∧ Does .ownerRotate rowOwnerRotate (fun _ s => lifeCycle s ≠ .operational) (fun _ s => (s, .fail .denied))
  ∧ Does .ownerRotate rowOwnerRotate (fun d s => lifeCycle s = .operational ∧ hostStatus d.env.host = none ∧ isToken (hostData d) = true)
      (fun _ s => (s, .fail .denied))
  ∧ Ends .ownerRotate rowOwnerRotate (fun d s => lifeCycle s = .operational ∧ hostStatus d.env.host = none ∧ verifies s d = true
        ∧ isToken (hostData d) = false ∧ isRequest (hostData d) = true ∧ tokenScope (hostData d) = 1 ∧ d.env.fuseOk = true
        ∧ s.sec.fuses.owner0 ≠ 0 ∧ s.sec.fuses.owner1 = 0 ∧ s.sec.fuses.owner2 = 0 ∧ s.sec.fuses.owner3 = 0)
      (fun d s t a => a = .done ∧ t.sec.fuses.owner1 = BitVec.ofNat 384 (byt (hostData d) 64 111) ∧ t.sec.nonce = none
        ∧ t.sec.fuses.owner0 = s.sec.fuses.owner0 ∧ t = { s with sec := t.sec })
  ∧ Does .ownerRotate rowOwnerRotate (fun d s => lifeCycle s = .operational ∧ hostStatus d.env.host = none ∧ verifies s d = true
        ∧ isToken (hostData d) = false ∧ isRequest (hostData d) = true ∧ tokenScope (hostData d) = 1 ∧ s.sec.fuses.owner3 ≠ 0)
      (fun _ s => ({ s with sec := { s.sec with nonce := none } }, .fail .exhausted))
  ∧ Does .lcReturn rowLcReturn (fun _ s => lifeCycle s ≠ .provisioned ∧ lifeCycle s ≠ .operational) (fun _ s => (s, .fail .denied))
  ∧ Does .lcReturn rowLcReturn (fun d s => lifeCycle s = .operational ∧ s.sec.erase = none ∧ hostStatus d.env.host = none
        ∧ verifies s d = true ∧ isToken (hostData d) = false ∧ isRequest (hostData d) = true ∧ tokenScope (hostData d) = 2)
      (fun _ s => (startErase (useNonce s) false, .accept (.other 0)))
  ∧ Does .lcScrap rowLcScrap (fun _ s => lifeCycle s = .scrapped) (fun _ s => (s, .fail .denied))
  ∧ Does .lcScrap rowLcScrap (fun d s => lifeCycle s = .provisioned ∧ s.sec.erase = none ∧ hostStatus d.env.host = none
        ∧ verifies s d = true ∧ isToken (hostData d) = true ∧ bit (tokenScope (hostData d)) 3 = true)
      (fun _ s => (startErase (useNonce s) true, .accept (.other 0)))
  ∧ Ends .lcScrap rowLcScrap (fun d s => lifeCycle s = .manufacture ∧ s.sec.erase = none ∧ hostStatus d.env.host = none
        ∧ verifies s d = true ∧ isToken (hostData d) = true ∧ bit (tokenScope (hostData d)) 3 = true ∧ d.env.fuseOk = true)
      (fun _ s t a => a = .acceptDone .ok ∧ lifeCycle t = .scrapped ∧ t.sec.fuses.lcProv = s.sec.fuses.lcProv ∧ t = { s with sec := t.sec })
  ∧ (∀ (ok : Bool) (s : State), s.sec.erase = none → exec (.cryptoEraseDone ok) s = .next s)
  ∧ (∀ (e : Erase) (s : State), s.sec.erase = some e →
      ∃ t, exec (.cryptoEraseDone true) s = .next t ∧ t.bulk = [] ∧ t.mem.frames = .empty ∧ t.sec.sessions = .empty ∧ t.sec.psks = .empty
        ∧ (e.scrap = true → lifeCycle t = .scrapped) ∧ (e.scrap = false → t.sec.fuses.lcRet = 7)
        ∧ t.domains = .empty ∧ t.models = .empty ∧ t.seqs = .empty ∧ t.heats = .empty ∧ t.sec.fuses.fuseRoot = s.sec.fuses.fuseRoot)
  ∧ (∀ (e : Erase) (s : State), s.sec.erase = some e →
      ∃ t, exec (.cryptoEraseDone false) s = .next t ∧ t.sec.erase = none ∧ t.bulk = [])
  ∧ (∀ (d : Desc) (s : State), reaches rowZeroise d s = true →
      ∃ t, exec (.zeroise d) s = .next t ∧ t.sec.mod = .zeroised ∧ t.sec.sessions = .empty ∧ t.sec.psks = .empty ∧ t.sec.metaKey = none
        ∧ t.sec.identity = false ∧ (∀ k x, t.domains.get? k = some x → x.key = none) ∧ (∀ k x, t.models.get? k = some x → x.key = none)
        ∧ t.sec.fuses = s.sec.fuses)
  ∧ Does .debugOpen rowDebugOpen (fun _ s => lifeCycle s = .operational ∨ lifeCycle s = .scrapped) (fun _ s => (s, .fail .denied))
  ∧ Ends .debugOpen rowDebugOpen (fun d s => lifeCycle s = .provisioned ∧ hostStatus d.env.host = none ∧ verifies s d = true
        ∧ isToken (hostData d) = true ∧ bit (tokenScope (hostData d)) 1 = true)
      (fun _ s t a => a = .done ∧ t.sec.debugOpened = true ∧ t.sec.identity = false ∧ t.sec.mod = .nonApproved ∧ debugIsOpen t = true
        ∧ t = { s with sec := t.sec, out := .debugPort true :: s.out })
  ∧ Does .debugOpen rowDebugOpen (fun d s => lifeCycle s = .provisioned ∧ hostStatus d.env.host = none ∧ verifies s d = true
        ∧ isToken (hostData d) = true ∧ bit (tokenScope (hostData d)) 1 = false)
      (fun _ s => ({ s with sec := { s.sec with nonce := none } }, .fail .denied))
  ∧ (∀ (w : Nat) (c : Int) (b : Bool) (s : State), s.boot.sideband = true →
      (100 ≤ w → w ≤ 360 → exec (.pldmSetEffecter (.powerCap w)) s = .next { s with thermal := { s.thermal with powerCap := w }, out := .pldm true 0 :: s.out })
      ∧ ((w < 100 ∨ 360 < w) → exec (.pldmSetEffecter (.powerCap w)) s = .next { s with out := .pldm false 0 :: s.out })
      ∧ (70 ≤ c → c ≤ 100 → exec (.pldmSetEffecter (.thermalStep c)) s = .next { s with thermal := { s.thermal with stepC := c }, out := .pldm true 0 :: s.out })
      ∧ ((c < 70 ∨ 100 < c) → exec (.pldmSetEffecter (.thermalStep c)) s = .next { s with out := .pldm false 0 :: s.out })
      ∧ exec (.pldmSetEffecter (.hostLimits b)) s = .next { s with thermal := { s.thermal with hostIgnore := b }, out := .pldm true 0 :: s.out })
  ∧ (∀ (o : PldmObj) (s : State), s.boot.sideband = true → ∃ t v, exec (.pldmReadSensor o) s = .next t ∧ t.out = .pldm true v :: s.out
        ∧ t = { s with out := t.out, free := t.free } ∧ (o = .powerCap → v = s.thermal.powerCap) ∧ (o = .nodeStatus → v = deviceStatus s)
        ∧ (o = .thermalStep → v = s.thermal.stepC))
  ∧ (∀ (o : PldmObj) (e : Effecter) (s : State), s.boot.sideband = false → exec (.pldmReadSensor o) s = .next s ∧ exec (.pldmSetEffecter e) s = .next s)

/-! ## The whole node -/

/-- The model's step (INVENTORY, Host interface): the command at the front of the queue runs over the rest of the queue; on an
empty queue one TCLK cycle passes (assumption 1). Every command answers a next state: what the node refuses it refuses
with a status (R6, R436, R454). -/
def Obligations.StepRunsTheFront : Prop :=
  (∀ (c : Instr) (rest : List Instr) (s : State), step { s with pending := c :: rest } = exec c { s with pending := rest })
  ∧ (∀ s : State, s.pending = [] → step s = .next (tclkCycle s))
  ∧ (∀ (c : Instr) (s : State), ∃ t, exec c s = .next t)

/-- R28, R34, R39, R266, R407, R487, R501: what reset leaves. Values that the spec gives. The canonical form of the bulk
window is the model's (assumption 4). -/
def Obligations.ResetHoldsTheSpecsValues : Prop :=
  State.reset.pending = [] ∧ State.reset.bulkOk
  ∧ State.reset.boot.phase = .held ∧ State.reset.time.fabric = 0 ∧ State.reset.time.enabled = false
  ∧ rf State.reset.time.record 63 48 = 1000 ∧ rf State.reset.time.record 47 38 = 100
  ∧ rf State.reset.time.record 37 27 = 20 ∧ rb State.reset.time.record 24 = true
  ∧ State.reset.thermal.level = 0 ∧ State.reset.thermal.powerCap = 360 ∧ State.reset.thermal.stepC = 95
  ∧ quantum State.reset = 262144 ∧ pageOn State.reset = false
  ∧ (∀ p f, ringsOn (getF State.reset p f) = false) ∧ (∀ d, (getD State.reset d).state = .free)
  ∧ (∀ n, (getS State.reset n).state = .disabled) ∧ (∀ p, (getPort State.reset p).linkUp = false)
  ∧ State.reset.sec.mod = .selfTest ∧ State.reset.sec.sessions = .empty ∧ State.reset.sec.nonce = none
  ∧ lifeCycle State.reset = .manufacture ∧ State.reset.fenced = false

/-- The model's queue (INVENTORY, Host interface) belongs to the step alone: no command adds to it or takes from it. The queue
is the model's own (assumption 1). -/
def Obligations.CommandsLeaveTheQueue : Prop :=
  ∀ (c : Instr) (s t : State), exec c s = .next t → t.pending = s.pending

/-- R415, R419: fuses are blown and never made whole again, so whatever the node does its life cycle never goes back. -/
def Obligations.LifeCycleNeverGoesBack : Prop :=
  (∀ s t : State, step s = .next t → FusesKept s.sec.fuses t.sec.fuses)
  ∧ (∀ (n : Nat) (s t : State), n ≤ (lifeCycle s).code → step s = .next t → n ≤ (lifeCycle t).code)

/-- R269: whatever the node does, the bytes of the bulk window keep their one canonical form (assumption 4). -/
def Obligations.BulkWindowStaysCanonical : Prop :=
  ∀ s t : State, s.bulkOk → step s = .next t → t.bulkOk

/-- R6, R436: the checks that all commands share come in their order; the first failure decides, and nothing else happens. -/
def Obligations.ChecksComeInTheirOrder : Prop :=
  ∀ (r : HRow) (body : Desc → State → State × Ans) (d : Desc) (s : State), fetchable s d = true → waitsForTests r s = false →
    s.boot.phase = .ready → s.sec.mod ≠ .error →
    (d.rsv ≠ 0 → runHuavo r body d s = .next (finishAns r d (fetchCmd s d) (.fail .badReserved)))
    ∧ (d.rsv = 0 → (63 < d.domain.toNat ∨ (d.ptr = true ∧ d.secured = false ∧ d.length = 0) ∨ (d.ptr = false ∧ (48 < d.length.toNat ∨ r.ptr = true))) →
        runHuavo r body d s = .next (finishAns r d (fetchCmd s d) (.fail .badField)))
    ∧ (d.rsv = 0 → shapeBad r d = false →
        (mayName r d (fetchCmd s d) = false ∨ roleOk r d (fetchCmd s d) = false ∨ (d.secured = true ∧ sessionOf (fetchCmd s d) d = none)) →
        runHuavo r body d s = .next (finishAns r d (fetchCmd s d) (.fail .denied)))
    ∧ (d.rsv = 0 → shapeBad r d = false → mayName r d (fetchCmd s d) = true → roleOk r d (fetchCmd s d) = true →
        (d.secured = true → (sessionOf (fetchCmd s d) d).isSome = true) → r.lenOk d.body d.length.toNat = false →
        runHuavo r body d s = .next (finishAns r d (fetchCmd s d) (.fail .badField)))
    ∧ (d.rsv = 0 → shapeBad r d = false → mayName r d (fetchCmd s d) = true → roleOk r d (fetchCmd s d) = true →
        (d.secured = true → (sessionOf (fetchCmd s d) d).isSome = true) → r.lenOk d.body d.length.toNat = true →
        (d.pad ≠ 0 ∨ ∃ i, i < 8 * d.length.toNat ∧ bit d.body i = true ∧ bit (maskOf (r.named d.body d.length.toNat)) i = false) →
        runHuavo r body d s = .next (finishAns r d (fetchCmd s d) (.fail .badReserved)))

/-- R414, R439, R454: the final answer of a command of an open domain stands at its function's response tail, with the fields
of R439; that of a sealed domain's command waits for the epoch boundary at least one full epoch after the command came. -/
def Obligations.AnswersStandInTheRing : Prop :=
  (∀ (r : HRow) (d : Desc) (s : State) (st : Status) (res aux : Nat), domSealed s d.domain.toNat = false → r.opcode < 65536 →
      ∃ e, Output.response d.port d.func ((getF s d.port d.func).rspTail.toNat % 2 ^ rspLog2 (getF s d.port d.func)) e
            ∈ (finishAns r d s (.fail st res aux)).out
        ∧ rf e 255 128 = res % 2 ^ 128 ∧ rf e 127 64 = aux % 2 ^ 64 ∧ rf e 63 48 = st.code ∧ rf e 47 32 = r.opcode
        ∧ rf e 31 16 = d.tag.toNat ∧ rf e 15 10 = d.domain.toNat % 64 ∧ rb e 9 = false
        ∧ rf e 8 8 = phaseOf (getF s d.port d.func).rspTail (rspLog2 (getF s d.port d.func)) ∧ rf e 7 2 = 0 ∧ rb e 1 = true
        ∧ (getF (finishAns r d s (.fail st res aux)) d.port d.func).rspTail = (getF s d.port d.func).rspTail + 1
        ∧ (getF (finishAns r d s (.fail st res aux)) d.port d.func).outstanding = (getF s d.port d.func).outstanding - 1)
  ∧ (∀ (r : HRow) (d : Desc) (s : State) (key : ObjKey) (o arg : Nat), domSealed s d.domain.toNat = false →
      ∃ g, (finishAns r d s (.accept key o arg)).flights = s.flights ++ [g] ∧ g.key = key ∧ g.tag = d.tag ∧ g.opcode = r.opcode
        ∧ (getF (finishAns r d s (.accept key o arg)) d.port d.func).outstanding = (getF s d.port d.func).outstanding)
  ∧ (∀ (r : HRow) (d : Desc) (s : State) (st : Status) (res aux : Nat), domSealed s d.domain.toNat = true →
      ∃ x, finishAns r d s (.fail st res aux) = { s with delayed := s.delayed ++ [x] } ∧ x.port = d.port ∧ x.func = d.func
        ∧ x.final = true ∧ s.ns + 1000000 ≤ x.release * 1000000 ∧ x.release * 1000000 < s.ns + 2000000)

/-- R251: a cluster that is free goes to the ready domain with the largest deficit, refilled until one is positive; the lowest
domain number wins ties. -/
def Obligations.ClustersGoToTheLargestDeficit : Prop :=
  (∀ (s : State) (c : Nat), decide251 s c [] = none)
  ∧ (∀ (s : State) (c : Nat) (l : List Nat), l ≠ [] → l.Nodup → (∀ x ∈ l, x < 64) → (∀ x ∈ l, 0 < weightOf s x * quantum s) →
      ∃ d t, decide251 s c l = some (d, t) ∧ d ∈ l ∧ 0 < deficit t c d
        ∧ (∀ x ∈ l, deficit t c x ≤ deficit t c d ∧ (deficit t c x = deficit t c d → d ≤ x))
        ∧ (∀ x, x < 64 → x ∉ l → deficit t c x = deficit s c x)
        ∧ ((∃ x ∈ l, 0 < deficit s c x) → t = s) ∧ t = { s with deficits := t.deficits })

/-- R140: table set 15 codes raw bits; the other sets code a quotient in ones, or escape, and an escape is read only where one
is due. No code word exceeds U + max(e, r) bits, at most 16 for symbols of at most 8 bits (R139). Every symbol is read
back from its code word, whatever follows it. -/
def Obligations.CodeWordsReadBack : Prop :=
  (∀ (c : Coder) (e x : Nat), c.tset = 15 → c.word e x = msbBits e x)
  ∧ (∀ (fmt : Nat) (segs : List Seg), (chooseCoder fmt segs).tset = 15 →
      (chooseCoder fmt segs).down = false ∧ (chooseCoder fmt segs).centre = 0)
  ∧ (∀ (c : Coder) (e x r u : Nat), c.tset < 15 → r = c.tset / 3 → (c.tset % 3 = 0 → u = 2) → (c.tset % 3 = 1 → u = 4) →
      (c.tset % 3 = 2 → u = 8) →
      (∀ d, c.value x = some d → d / 2 ^ r < u →
        c.word e x = List.replicate (d / 2 ^ r) true ++ [false] ++ msbBits r (d % 2 ^ r)
        ∧ ∀ rest, x < 2 ^ e → c.read e (List.replicate u true ++ msbBits e x ++ rest) = none)
      ∧ ((∀ d, c.value x = some d → u ≤ d / 2 ^ r) → c.word e x = List.replicate u true ++ msbBits e x)
      ∧ (c.word e x).length ≤ u + max e r ∧ (e ≤ 8 → (c.word e x).length ≤ 16))
  ∧ (∀ (c : Coder) (e x : Nat) (rest : List Bool), x < 2 ^ e → c.read e (c.word e x ++ rest) = some (x, rest))
  ∧ (∀ (c : Coder) (e x : Nat), (c.word e x).length = c.len e x)

/-- R138, R145: the decoder reads back every block that the encoder writes: the same scales and the same elements, for every
stored format, table set, mapping and centre. -/
def Obligations.PackedBlocksReadBack : Prop :=
  ∀ (fmt : Nat) (c : Coder) (segs : List Seg), fmt ≤ 6 →
    (∀ g ∈ segs, g.els.length = 32 ∧ (if fmtMx fmt then g.scale < 256 else g.scale = 0)
      ∧ ∀ x ∈ g.els, x < 2 ^ fmtBits fmt ∧ (elemZero fmt x = true → x = 0) ∧ (fmt = 6 → x ≠ 128)) →
    (blockBody fmt c segs).length ≤ 4032 →
    decodeBlock fmt c segs.length (blockBody fmt c segs).length (ofLsb (blockBody fmt c segs)) = some segs

/-- R275: operations run in each channel in the order in which they were accepted, one after the other. -/
def Obligations.RowOperationsRunInOrder : Prop :=
  Ends .rowOp rowRowOp (fun d s => rowBad s (fld d.body 2 0) (fld d.body 63 32) (fld d.body 127 64) (fld d.body 191 128)
        (fld d.body 255 192) = false ∧ s.rowOps.length < 16)
      (fun _ s u a => a = .accept (.row s.rowOpNo) ∧ ∃ o, u.rowOps = s.rowOps ++ [o] ∧ o.id = s.rowOpNo)
  ∧ (∀ (c : Cluster) (before after : List RowOpSt) (o : RowOpSt) (s : State), s.rowOps = before ++ o :: after →
      (s.rowOps.map (·.id)).Nodup → (∀ x ∈ before, x.rows ≤ x.doneRows.getD c.val 0) → o.doneRows.getD c.val 0 < o.rows →
      ∃ t, exec (.rowOpGroup c) s = .next t
        ∧ (∀ x ∈ before ++ after, x ∈ t.rowOps)
        ∧ (∀ x ∈ t.rowOps, x ∈ before ++ after ∨ (x.id = o.id ∧ x.dst = o.dst ∧ x.op = o.op
            ∧ x.doneRows = o.doneRows.set c.val
              (o.doneRows.getD c.val 0 + min (groupSize s c.val o.op) (o.rows - o.doneRows.getD c.val 0)))))

/-- R319: a message is cut into packets of 4,096 bytes; one of no bytes is one packet. READ, FLUSH and FLUSH_RESP carry no
bytes (R300). A longer work request completes with BAD_FIELD, and a packet that breaks the rule is malformed. -/
def Obligations.MessagesAreCutIntoPackets : Prop :=
  (∀ (s : State) (qk : Nat) (q : QueueSt) (m : SendMsg) (bytes : Nat), getWq s qk = some q → m.sent = .empty →
      bytes = (if m.op = 2 ∨ m.op = 7 ∨ m.op = 8 then 0 else m.total) →
      ∃ l, (launch s qk m).net.egress = s.net.egress ++ l ∧ l.length = max 1 (ceilDiv bytes 4096)
        ∧ ∀ (i : Nat) (h : i < l.length), l[i].kind = .data (q.nextId % 2 ^ 32) i 0 false ∧ l[i].queue = qk
          ∧ l[i].len = frameLen s q.domain m.extLen (min 4096 (bytes - 4096 * i)))
  ∧ (∀ (k n : Nat) (h : HostRead) (q : QueueSt) (w : WorkRequest) (rest : List WorkRequest) (s : State), getWq (clockTo s n) k = some q →
      q.sq = w :: rest → q.state = .ready → trafficOff (clockTo s n) = false → s.boot.failed = false →
      qPeerNode q ∉ s.net.fencedNodes → w.rsv = 0 → 16777216 < w.length →
      exec (.workRequestSend k n h) s = .next (completeWr (modWq (clockTo s n) k fun q => { q with sq := rest }) k w .badField w.length 0))
  ∧ (∀ (k : Packet) (s : State) (bytes : Nat), trafficOff (clockTo s k.now) = false → s.boot.failed = false →
      ethUp (clockTo s k.now) k.port = true → k.frameOk = true → k.op ≠ 16 → k.op ≠ 17 →
      bytes = (if k.op = 2 ∨ k.op = 7 ∨ k.op = 8 then 0 else k.totalLen) →
      (k.offset % 4096 ≠ 0 ∨ 16777216 < k.totalLen ∨ max 1 (ceilDiv bytes 4096) ≤ k.offset / 4096
        ∨ k.payLen ≠ min 4096 (bytes - k.offset)) →
      exec (.coriskanoPacket k) s = .next (count (clockTo s k.now) 0 k.port.val 1))
end

