-- ==== Sys2Proof/Laws/State.lean ====
section
/-! SUPPORT. What each plain update of the state leaves alone: one lemma per field per update. -/

set_option Elab.async false

namespace Sys2Proof.Machine

/-! ### emit -/

@[simp] theorem emit_pending (s : State) (o : Output) : (emit s o).pending = s.pending := rfl
@[simp] theorem emit_free (s : State) (o : Output) : (emit s o).free = s.free := rfl
@[simp] theorem emit_boot (s : State) (o : Output) : (emit s o).boot = s.boot := rfl
@[simp] theorem emit_port0 (s : State) (o : Output) : (emit s o).port0 = s.port0 := rfl
@[simp] theorem emit_port1 (s : State) (o : Output) : (emit s o).port1 = s.port1 := rfl
@[simp] theorem emit_clusters (s : State) (o : Output) : (emit s o).clusters = s.clusters := rfl
@[simp] theorem emit_thermal (s : State) (o : Output) : (emit s o).thermal = s.thermal := rfl
@[simp] theorem emit_cal (s : State) (o : Output) : (emit s o).cal = s.cal := rfl
@[simp] theorem emit_time (s : State) (o : Output) : (emit s o).time = s.time := rfl
@[simp] theorem emit_funcs (s : State) (o : Output) : (emit s o).funcs = s.funcs := rfl
@[simp] theorem emit_flights (s : State) (o : Output) : (emit s o).flights = s.flights := rfl
@[simp] theorem emit_delayed (s : State) (o : Output) : (emit s o).delayed = s.delayed := rfl
@[simp] theorem emit_sec (s : State) (o : Output) : (emit s o).sec = s.sec := rfl
@[simp] theorem emit_domains (s : State) (o : Output) : (emit s o).domains = s.domains := rfl
@[simp] theorem emit_slices (s : State) (o : Output) : (emit s o).slices = s.slices := rfl
@[simp] theorem emit_marginRec (s : State) (o : Output) : (emit s o).marginRec = s.marginRec := rfl
@[simp] theorem emit_marginShadow (s : State) (o : Output) : (emit s o).marginShadow = s.marginShadow := rfl
@[simp] theorem emit_margins (s : State) (o : Output) : (emit s o).margins = s.margins := rfl
@[simp] theorem emit_counters (s : State) (o : Output) : (emit s o).counters = s.counters := rfl
@[simp] theorem emit_chans (s : State) (o : Output) : (emit s o).chans = s.chans := rfl
@[simp] theorem emit_rowOps (s : State) (o : Output) : (emit s o).rowOps = s.rowOps := rfl
@[simp] theorem emit_rowOpNo (s : State) (o : Output) : (emit s o).rowOpNo = s.rowOpNo := rfl
@[simp] theorem emit_bulk (s : State) (o : Output) : (emit s o).bulk = s.bulk := rfl
@[simp] theorem emit_mem (s : State) (o : Output) : (emit s o).mem = s.mem := rfl
@[simp] theorem emit_seqs (s : State) (o : Output) : (emit s o).seqs = s.seqs := rfl
@[simp] theorem emit_seqGen (s : State) (o : Output) : (emit s o).seqGen = s.seqGen := rfl
@[simp] theorem emit_models (s : State) (o : Output) : (emit s o).models = s.models := rfl
@[simp] theorem emit_courses (s : State) (o : Output) : (emit s o).courses = s.courses := rfl
@[simp] theorem emit_heats (s : State) (o : Output) : (emit s o).heats = s.heats := rfl
@[simp] theorem emit_place (s : State) (o : Output) : (emit s o).place = s.place := rfl
@[simp] theorem emit_net (s : State) (o : Output) : (emit s o).net = s.net := rfl
@[simp] theorem emit_dir (s : State) (o : Output) : (emit s o).dir = s.dir := rfl
@[simp] theorem emit_sel (s : State) (o : Output) : (emit s o).sel = s.sel := rfl
@[simp] theorem emit_scratch (s : State) (o : Output) : (emit s o).scratch = s.scratch := rfl
@[simp] theorem emit_buffer (s : State) (o : Output) : (emit s o).buffer = s.buffer := rfl
@[simp] theorem emit_acct (s : State) (o : Output) : (emit s o).acct = s.acct := rfl
@[simp] theorem emit_closed (s : State) (o : Output) : (emit s o).closed = s.closed := rfl
@[simp] theorem emit_nodeRecs (s : State) (o : Output) : (emit s o).nodeRecs = s.nodeRecs := rfl
@[simp] theorem emit_heldNext (s : State) (o : Output) : (emit s o).heldNext = s.heldNext := rfl
@[simp] theorem emit_shares (s : State) (o : Output) : (emit s o).shares = s.shares := rfl
@[simp] theorem emit_shareShadow (s : State) (o : Output) : (emit s o).shareShadow = s.shareShadow := rfl
@[simp] theorem emit_arb (s : State) (o : Output) : (emit s o).arb = s.arb := rfl
@[simp] theorem emit_arbShadow (s : State) (o : Output) : (emit s o).arbShadow = s.arbShadow := rfl
@[simp] theorem emit_deficits (s : State) (o : Output) : (emit s o).deficits = s.deficits := rfl
@[simp] theorem emit_dma (s : State) (o : Output) : (emit s o).dma = s.dma := rfl
@[simp] theorem emit_nodeNo (s : State) (o : Output) : (emit s o).nodeNo = s.nodeNo := rfl
@[simp] theorem emit_partition (s : State) (o : Output) : (emit s o).partition = s.partition := rfl
@[simp] theorem emit_fenced (s : State) (o : Output) : (emit s o).fenced = s.fenced := rfl
@[simp] theorem emit_out (s : State) (o : Output) : (emit s o).out = o :: s.out := rfl

/-! ### useFree -/

@[simp] theorem useFree_pending (s : State) : (useFree s).pending = s.pending := rfl
@[simp] theorem useFree_out (s : State) : (useFree s).out = s.out := rfl
@[simp] theorem useFree_boot (s : State) : (useFree s).boot = s.boot := rfl
@[simp] theorem useFree_port0 (s : State) : (useFree s).port0 = s.port0 := rfl
@[simp] theorem useFree_port1 (s : State) : (useFree s).port1 = s.port1 := rfl
@[simp] theorem useFree_clusters (s : State) : (useFree s).clusters = s.clusters := rfl
@[simp] theorem useFree_thermal (s : State) : (useFree s).thermal = s.thermal := rfl
@[simp] theorem useFree_cal (s : State) : (useFree s).cal = s.cal := rfl
@[simp] theorem useFree_time (s : State) : (useFree s).time = s.time := rfl
@[simp] theorem useFree_funcs (s : State) : (useFree s).funcs = s.funcs := rfl
@[simp] theorem useFree_flights (s : State) : (useFree s).flights = s.flights := rfl
@[simp] theorem useFree_delayed (s : State) : (useFree s).delayed = s.delayed := rfl
@[simp] theorem useFree_sec (s : State) : (useFree s).sec = s.sec := rfl
@[simp] theorem useFree_domains (s : State) : (useFree s).domains = s.domains := rfl
@[simp] theorem useFree_slices (s : State) : (useFree s).slices = s.slices := rfl
@[simp] theorem useFree_marginRec (s : State) : (useFree s).marginRec = s.marginRec := rfl
@[simp] theorem useFree_marginShadow (s : State) : (useFree s).marginShadow = s.marginShadow := rfl
@[simp] theorem useFree_margins (s : State) : (useFree s).margins = s.margins := rfl
@[simp] theorem useFree_counters (s : State) : (useFree s).counters = s.counters := rfl
@[simp] theorem useFree_chans (s : State) : (useFree s).chans = s.chans := rfl
@[simp] theorem useFree_rowOps (s : State) : (useFree s).rowOps = s.rowOps := rfl
@[simp] theorem useFree_rowOpNo (s : State) : (useFree s).rowOpNo = s.rowOpNo := rfl
@[simp] theorem useFree_bulk (s : State) : (useFree s).bulk = s.bulk := rfl
@[simp] theorem useFree_mem (s : State) : (useFree s).mem = s.mem := rfl
@[simp] theorem useFree_seqs (s : State) : (useFree s).seqs = s.seqs := rfl
@[simp] theorem useFree_seqGen (s : State) : (useFree s).seqGen = s.seqGen := rfl
@[simp] theorem useFree_models (s : State) : (useFree s).models = s.models := rfl
@[simp] theorem useFree_courses (s : State) : (useFree s).courses = s.courses := rfl
@[simp] theorem useFree_heats (s : State) : (useFree s).heats = s.heats := rfl
@[simp] theorem useFree_place (s : State) : (useFree s).place = s.place := rfl
@[simp] theorem useFree_net (s : State) : (useFree s).net = s.net := rfl
@[simp] theorem useFree_dir (s : State) : (useFree s).dir = s.dir := rfl
@[simp] theorem useFree_sel (s : State) : (useFree s).sel = s.sel := rfl
@[simp] theorem useFree_scratch (s : State) : (useFree s).scratch = s.scratch := rfl
@[simp] theorem useFree_buffer (s : State) : (useFree s).buffer = s.buffer := rfl
@[simp] theorem useFree_acct (s : State) : (useFree s).acct = s.acct := rfl
@[simp] theorem useFree_closed (s : State) : (useFree s).closed = s.closed := rfl
@[simp] theorem useFree_nodeRecs (s : State) : (useFree s).nodeRecs = s.nodeRecs := rfl
@[simp] theorem useFree_heldNext (s : State) : (useFree s).heldNext = s.heldNext := rfl
@[simp] theorem useFree_shares (s : State) : (useFree s).shares = s.shares := rfl
@[simp] theorem useFree_shareShadow (s : State) : (useFree s).shareShadow = s.shareShadow := rfl
@[simp] theorem useFree_arb (s : State) : (useFree s).arb = s.arb := rfl
@[simp] theorem useFree_arbShadow (s : State) : (useFree s).arbShadow = s.arbShadow := rfl
@[simp] theorem useFree_deficits (s : State) : (useFree s).deficits = s.deficits := rfl
@[simp] theorem useFree_dma (s : State) : (useFree s).dma = s.dma := rfl
@[simp] theorem useFree_nodeNo (s : State) : (useFree s).nodeNo = s.nodeNo := rfl
@[simp] theorem useFree_partition (s : State) : (useFree s).partition = s.partition := rfl
@[simp] theorem useFree_fenced (s : State) : (useFree s).fenced = s.fenced := rfl
@[simp] theorem useFree_free (s : State) : (useFree s).free = s.free + 1 := rfl

/-! ### setF -/

@[simp] theorem setF_pending (s : State) (p : Port) (f : Func) (e : FuncSt) : (setF s p f e).pending = s.pending := rfl
@[simp] theorem setF_out (s : State) (p : Port) (f : Func) (e : FuncSt) : (setF s p f e).out = s.out := rfl
@[simp] theorem setF_free (s : State) (p : Port) (f : Func) (e : FuncSt) : (setF s p f e).free = s.free := rfl
@[simp] theorem setF_boot (s : State) (p : Port) (f : Func) (e : FuncSt) : (setF s p f e).boot = s.boot := rfl
@[simp] theorem setF_port0 (s : State) (p : Port) (f : Func) (e : FuncSt) : (setF s p f e).port0 = s.port0 := rfl
@[simp] theorem setF_port1 (s : State) (p : Port) (f : Func) (e : FuncSt) : (setF s p f e).port1 = s.port1 := rfl
@[simp] theorem setF_clusters (s : State) (p : Port) (f : Func) (e : FuncSt) : (setF s p f e).clusters = s.clusters := rfl
@[simp] theorem setF_thermal (s : State) (p : Port) (f : Func) (e : FuncSt) : (setF s p f e).thermal = s.thermal := rfl
@[simp] theorem setF_cal (s : State) (p : Port) (f : Func) (e : FuncSt) : (setF s p f e).cal = s.cal := rfl
@[simp] theorem setF_time (s : State) (p : Port) (f : Func) (e : FuncSt) : (setF s p f e).time = s.time := rfl
@[simp] theorem setF_flights (s : State) (p : Port) (f : Func) (e : FuncSt) : (setF s p f e).flights = s.flights := rfl
@[simp] theorem setF_delayed (s : State) (p : Port) (f : Func) (e : FuncSt) : (setF s p f e).delayed = s.delayed := rfl
@[simp] theorem setF_sec (s : State) (p : Port) (f : Func) (e : FuncSt) : (setF s p f e).sec = s.sec := rfl
@[simp] theorem setF_domains (s : State) (p : Port) (f : Func) (e : FuncSt) : (setF s p f e).domains = s.domains := rfl
@[simp] theorem setF_slices (s : State) (p : Port) (f : Func) (e : FuncSt) : (setF s p f e).slices = s.slices := rfl
@[simp] theorem setF_marginRec (s : State) (p : Port) (f : Func) (e : FuncSt) : (setF s p f e).marginRec = s.marginRec := rfl
@[simp] theorem setF_marginShadow (s : State) (p : Port) (f : Func) (e : FuncSt) : (setF s p f e).marginShadow = s.marginShadow := rfl
@[simp] theorem setF_margins (s : State) (p : Port) (f : Func) (e : FuncSt) : (setF s p f e).margins = s.margins := rfl
@[simp] theorem setF_counters (s : State) (p : Port) (f : Func) (e : FuncSt) : (setF s p f e).counters = s.counters := rfl
@[simp] theorem setF_chans (s : State) (p : Port) (f : Func) (e : FuncSt) : (setF s p f e).chans = s.chans := rfl
@[simp] theorem setF_rowOps (s : State) (p : Port) (f : Func) (e : FuncSt) : (setF s p f e).rowOps = s.rowOps := rfl
@[simp] theorem setF_rowOpNo (s : State) (p : Port) (f : Func) (e : FuncSt) : (setF s p f e).rowOpNo = s.rowOpNo := rfl
@[simp] theorem setF_bulk (s : State) (p : Port) (f : Func) (e : FuncSt) : (setF s p f e).bulk = s.bulk := rfl
@[simp] theorem setF_mem (s : State) (p : Port) (f : Func) (e : FuncSt) : (setF s p f e).mem = s.mem := rfl
@[simp] theorem setF_seqs (s : State) (p : Port) (f : Func) (e : FuncSt) : (setF s p f e).seqs = s.seqs := rfl
@[simp] theorem setF_seqGen (s : State) (p : Port) (f : Func) (e : FuncSt) : (setF s p f e).seqGen = s.seqGen := rfl
@[simp] theorem setF_models (s : State) (p : Port) (f : Func) (e : FuncSt) : (setF s p f e).models = s.models := rfl
@[simp] theorem setF_courses (s : State) (p : Port) (f : Func) (e : FuncSt) : (setF s p f e).courses = s.courses := rfl
@[simp] theorem setF_heats (s : State) (p : Port) (f : Func) (e : FuncSt) : (setF s p f e).heats = s.heats := rfl
@[simp] theorem setF_place (s : State) (p : Port) (f : Func) (e : FuncSt) : (setF s p f e).place = s.place := rfl
@[simp] theorem setF_net (s : State) (p : Port) (f : Func) (e : FuncSt) : (setF s p f e).net = s.net := rfl
@[simp] theorem setF_dir (s : State) (p : Port) (f : Func) (e : FuncSt) : (setF s p f e).dir = s.dir := rfl
@[simp] theorem setF_sel (s : State) (p : Port) (f : Func) (e : FuncSt) : (setF s p f e).sel = s.sel := rfl
@[simp] theorem setF_scratch (s : State) (p : Port) (f : Func) (e : FuncSt) : (setF s p f e).scratch = s.scratch := rfl
@[simp] theorem setF_buffer (s : State) (p : Port) (f : Func) (e : FuncSt) : (setF s p f e).buffer = s.buffer := rfl
@[simp] theorem setF_acct (s : State) (p : Port) (f : Func) (e : FuncSt) : (setF s p f e).acct = s.acct := rfl
@[simp] theorem setF_closed (s : State) (p : Port) (f : Func) (e : FuncSt) : (setF s p f e).closed = s.closed := rfl
@[simp] theorem setF_nodeRecs (s : State) (p : Port) (f : Func) (e : FuncSt) : (setF s p f e).nodeRecs = s.nodeRecs := rfl
@[simp] theorem setF_heldNext (s : State) (p : Port) (f : Func) (e : FuncSt) : (setF s p f e).heldNext = s.heldNext := rfl
@[simp] theorem setF_shares (s : State) (p : Port) (f : Func) (e : FuncSt) : (setF s p f e).shares = s.shares := rfl
@[simp] theorem setF_shareShadow (s : State) (p : Port) (f : Func) (e : FuncSt) : (setF s p f e).shareShadow = s.shareShadow := rfl
@[simp] theorem setF_arb (s : State) (p : Port) (f : Func) (e : FuncSt) : (setF s p f e).arb = s.arb := rfl
@[simp] theorem setF_arbShadow (s : State) (p : Port) (f : Func) (e : FuncSt) : (setF s p f e).arbShadow = s.arbShadow := rfl
@[simp] theorem setF_deficits (s : State) (p : Port) (f : Func) (e : FuncSt) : (setF s p f e).deficits = s.deficits := rfl
@[simp] theorem setF_dma (s : State) (p : Port) (f : Func) (e : FuncSt) : (setF s p f e).dma = s.dma := rfl
@[simp] theorem setF_nodeNo (s : State) (p : Port) (f : Func) (e : FuncSt) : (setF s p f e).nodeNo = s.nodeNo := rfl
@[simp] theorem setF_partition (s : State) (p : Port) (f : Func) (e : FuncSt) : (setF s p f e).partition = s.partition := rfl
@[simp] theorem setF_fenced (s : State) (p : Port) (f : Func) (e : FuncSt) : (setF s p f e).fenced = s.fenced := rfl
@[simp] theorem setF_funcs (s : State) (p : Port) (f : Func) (e : FuncSt) : (setF s p f e).funcs = s.funcs.set (fkey p f) e := rfl

/-! ### setPort -/

@[simp] theorem setPort_pending (s : State) (p : Port) (v : PortSt) : (setPort s p v).pending = s.pending := by unfold setPort; split <;> rfl
@[simp] theorem setPort_out (s : State) (p : Port) (v : PortSt) : (setPort s p v).out = s.out := by unfold setPort; split <;> rfl
@[simp] theorem setPort_free (s : State) (p : Port) (v : PortSt) : (setPort s p v).free = s.free := by unfold setPort; split <;> rfl
@[simp] theorem setPort_boot (s : State) (p : Port) (v : PortSt) : (setPort s p v).boot = s.boot := by unfold setPort; split <;> rfl
@[simp] theorem setPort_clusters (s : State) (p : Port) (v : PortSt) : (setPort s p v).clusters = s.clusters := by unfold setPort; split <;> rfl
@[simp] theorem setPort_thermal (s : State) (p : Port) (v : PortSt) : (setPort s p v).thermal = s.thermal := by unfold setPort; split <;> rfl
@[simp] theorem setPort_cal (s : State) (p : Port) (v : PortSt) : (setPort s p v).cal = s.cal := by unfold setPort; split <;> rfl
@[simp] theorem setPort_time (s : State) (p : Port) (v : PortSt) : (setPort s p v).time = s.time := by unfold setPort; split <;> rfl
@[simp] theorem setPort_funcs (s : State) (p : Port) (v : PortSt) : (setPort s p v).funcs = s.funcs := by unfold setPort; split <;> rfl
@[simp] theorem setPort_flights (s : State) (p : Port) (v : PortSt) : (setPort s p v).flights = s.flights := by unfold setPort; split <;> rfl
@[simp] theorem setPort_delayed (s : State) (p : Port) (v : PortSt) : (setPort s p v).delayed = s.delayed := by unfold setPort; split <;> rfl
@[simp] theorem setPort_sec (s : State) (p : Port) (v : PortSt) : (setPort s p v).sec = s.sec := by unfold setPort; split <;> rfl
@[simp] theorem setPort_domains (s : State) (p : Port) (v : PortSt) : (setPort s p v).domains = s.domains := by unfold setPort; split <;> rfl
@[simp] theorem setPort_slices (s : State) (p : Port) (v : PortSt) : (setPort s p v).slices = s.slices := by unfold setPort; split <;> rfl
@[simp] theorem setPort_marginRec (s : State) (p : Port) (v : PortSt) : (setPort s p v).marginRec = s.marginRec := by unfold setPort; split <;> rfl
@[simp] theorem setPort_marginShadow (s : State) (p : Port) (v : PortSt) : (setPort s p v).marginShadow = s.marginShadow := by unfold setPort; split <;> rfl
@[simp] theorem setPort_margins (s : State) (p : Port) (v : PortSt) : (setPort s p v).margins = s.margins := by unfold setPort; split <;> rfl
@[simp] theorem setPort_counters (s : State) (p : Port) (v : PortSt) : (setPort s p v).counters = s.counters := by unfold setPort; split <;> rfl
@[simp] theorem setPort_chans (s : State) (p : Port) (v : PortSt) : (setPort s p v).chans = s.chans := by unfold setPort; split <;> rfl
@[simp] theorem setPort_rowOps (s : State) (p : Port) (v : PortSt) : (setPort s p v).rowOps = s.rowOps := by unfold setPort; split <;> rfl
@[simp] theorem setPort_rowOpNo (s : State) (p : Port) (v : PortSt) : (setPort s p v).rowOpNo = s.rowOpNo := by unfold setPort; split <;> rfl
@[simp] theorem setPort_bulk (s : State) (p : Port) (v : PortSt) : (setPort s p v).bulk = s.bulk := by unfold setPort; split <;> rfl
@[simp] theorem setPort_mem (s : State) (p : Port) (v : PortSt) : (setPort s p v).mem = s.mem := by unfold setPort; split <;> rfl
@[simp] theorem setPort_seqs (s : State) (p : Port) (v : PortSt) : (setPort s p v).seqs = s.seqs := by unfold setPort; split <;> rfl
@[simp] theorem setPort_seqGen (s : State) (p : Port) (v : PortSt) : (setPort s p v).seqGen = s.seqGen := by unfold setPort; split <;> rfl
@[simp] theorem setPort_models (s : State) (p : Port) (v : PortSt) : (setPort s p v).models = s.models := by unfold setPort; split <;> rfl
@[simp] theorem setPort_courses (s : State) (p : Port) (v : PortSt) : (setPort s p v).courses = s.courses := by unfold setPort; split <;> rfl
@[simp] theorem setPort_heats (s : State) (p : Port) (v : PortSt) : (setPort s p v).heats = s.heats := by unfold setPort; split <;> rfl
@[simp] theorem setPort_place (s : State) (p : Port) (v : PortSt) : (setPort s p v).place = s.place := by unfold setPort; split <;> rfl
@[simp] theorem setPort_net (s : State) (p : Port) (v : PortSt) : (setPort s p v).net = s.net := by unfold setPort; split <;> rfl
@[simp] theorem setPort_dir (s : State) (p : Port) (v : PortSt) : (setPort s p v).dir = s.dir := by unfold setPort; split <;> rfl
@[simp] theorem setPort_sel (s : State) (p : Port) (v : PortSt) : (setPort s p v).sel = s.sel := by unfold setPort; split <;> rfl
@[simp] theorem setPort_scratch (s : State) (p : Port) (v : PortSt) : (setPort s p v).scratch = s.scratch := by unfold setPort; split <;> rfl
@[simp] theorem setPort_buffer (s : State) (p : Port) (v : PortSt) : (setPort s p v).buffer = s.buffer := by unfold setPort; split <;> rfl
@[simp] theorem setPort_acct (s : State) (p : Port) (v : PortSt) : (setPort s p v).acct = s.acct := by unfold setPort; split <;> rfl
@[simp] theorem setPort_closed (s : State) (p : Port) (v : PortSt) : (setPort s p v).closed = s.closed := by unfold setPort; split <;> rfl
@[simp] theorem setPort_nodeRecs (s : State) (p : Port) (v : PortSt) : (setPort s p v).nodeRecs = s.nodeRecs := by unfold setPort; split <;> rfl
@[simp] theorem setPort_heldNext (s : State) (p : Port) (v : PortSt) : (setPort s p v).heldNext = s.heldNext := by unfold setPort; split <;> rfl
@[simp] theorem setPort_shares (s : State) (p : Port) (v : PortSt) : (setPort s p v).shares = s.shares := by unfold setPort; split <;> rfl
@[simp] theorem setPort_shareShadow (s : State) (p : Port) (v : PortSt) : (setPort s p v).shareShadow = s.shareShadow := by unfold setPort; split <;> rfl
@[simp] theorem setPort_arb (s : State) (p : Port) (v : PortSt) : (setPort s p v).arb = s.arb := by unfold setPort; split <;> rfl
@[simp] theorem setPort_arbShadow (s : State) (p : Port) (v : PortSt) : (setPort s p v).arbShadow = s.arbShadow := by unfold setPort; split <;> rfl
@[simp] theorem setPort_deficits (s : State) (p : Port) (v : PortSt) : (setPort s p v).deficits = s.deficits := by unfold setPort; split <;> rfl
@[simp] theorem setPort_dma (s : State) (p : Port) (v : PortSt) : (setPort s p v).dma = s.dma := by unfold setPort; split <;> rfl
@[simp] theorem setPort_nodeNo (s : State) (p : Port) (v : PortSt) : (setPort s p v).nodeNo = s.nodeNo := by unfold setPort; split <;> rfl
@[simp] theorem setPort_partition (s : State) (p : Port) (v : PortSt) : (setPort s p v).partition = s.partition := by unfold setPort; split <;> rfl
@[simp] theorem setPort_fenced (s : State) (p : Port) (v : PortSt) : (setPort s p v).fenced = s.fenced := by unfold setPort; split <;> rfl

/-! ### setD -/

@[simp] theorem setD_pending (s : State) (n : Nat) (v : DomainSt) : (setD s n v).pending = s.pending := rfl
@[simp] theorem setD_out (s : State) (n : Nat) (v : DomainSt) : (setD s n v).out = s.out := rfl
@[simp] theorem setD_free (s : State) (n : Nat) (v : DomainSt) : (setD s n v).free = s.free := rfl
@[simp] theorem setD_boot (s : State) (n : Nat) (v : DomainSt) : (setD s n v).boot = s.boot := rfl
@[simp] theorem setD_port0 (s : State) (n : Nat) (v : DomainSt) : (setD s n v).port0 = s.port0 := rfl
@[simp] theorem setD_port1 (s : State) (n : Nat) (v : DomainSt) : (setD s n v).port1 = s.port1 := rfl
@[simp] theorem setD_clusters (s : State) (n : Nat) (v : DomainSt) : (setD s n v).clusters = s.clusters := rfl
@[simp] theorem setD_thermal (s : State) (n : Nat) (v : DomainSt) : (setD s n v).thermal = s.thermal := rfl
@[simp] theorem setD_cal (s : State) (n : Nat) (v : DomainSt) : (setD s n v).cal = s.cal := rfl
@[simp] theorem setD_time (s : State) (n : Nat) (v : DomainSt) : (setD s n v).time = s.time := rfl
@[simp] theorem setD_funcs (s : State) (n : Nat) (v : DomainSt) : (setD s n v).funcs = s.funcs := rfl
@[simp] theorem setD_flights (s : State) (n : Nat) (v : DomainSt) : (setD s n v).flights = s.flights := rfl
@[simp] theorem setD_delayed (s : State) (n : Nat) (v : DomainSt) : (setD s n v).delayed = s.delayed := rfl
@[simp] theorem setD_sec (s : State) (n : Nat) (v : DomainSt) : (setD s n v).sec = s.sec := rfl
@[simp] theorem setD_slices (s : State) (n : Nat) (v : DomainSt) : (setD s n v).slices = s.slices := rfl
@[simp] theorem setD_marginRec (s : State) (n : Nat) (v : DomainSt) : (setD s n v).marginRec = s.marginRec := rfl
@[simp] theorem setD_marginShadow (s : State) (n : Nat) (v : DomainSt) : (setD s n v).marginShadow = s.marginShadow := rfl
@[simp] theorem setD_margins (s : State) (n : Nat) (v : DomainSt) : (setD s n v).margins = s.margins := rfl
@[simp] theorem setD_counters (s : State) (n : Nat) (v : DomainSt) : (setD s n v).counters = s.counters := rfl
@[simp] theorem setD_chans (s : State) (n : Nat) (v : DomainSt) : (setD s n v).chans = s.chans := rfl
@[simp] theorem setD_rowOps (s : State) (n : Nat) (v : DomainSt) : (setD s n v).rowOps = s.rowOps := rfl
@[simp] theorem setD_rowOpNo (s : State) (n : Nat) (v : DomainSt) : (setD s n v).rowOpNo = s.rowOpNo := rfl
@[simp] theorem setD_bulk (s : State) (n : Nat) (v : DomainSt) : (setD s n v).bulk = s.bulk := rfl
@[simp] theorem setD_mem (s : State) (n : Nat) (v : DomainSt) : (setD s n v).mem = s.mem := rfl
@[simp] theorem setD_seqs (s : State) (n : Nat) (v : DomainSt) : (setD s n v).seqs = s.seqs := rfl
@[simp] theorem setD_seqGen (s : State) (n : Nat) (v : DomainSt) : (setD s n v).seqGen = s.seqGen := rfl
@[simp] theorem setD_models (s : State) (n : Nat) (v : DomainSt) : (setD s n v).models = s.models := rfl
@[simp] theorem setD_courses (s : State) (n : Nat) (v : DomainSt) : (setD s n v).courses = s.courses := rfl
@[simp] theorem setD_heats (s : State) (n : Nat) (v : DomainSt) : (setD s n v).heats = s.heats := rfl
@[simp] theorem setD_place (s : State) (n : Nat) (v : DomainSt) : (setD s n v).place = s.place := rfl
@[simp] theorem setD_net (s : State) (n : Nat) (v : DomainSt) : (setD s n v).net = s.net := rfl
@[simp] theorem setD_dir (s : State) (n : Nat) (v : DomainSt) : (setD s n v).dir = s.dir := rfl
@[simp] theorem setD_sel (s : State) (n : Nat) (v : DomainSt) : (setD s n v).sel = s.sel := rfl
@[simp] theorem setD_scratch (s : State) (n : Nat) (v : DomainSt) : (setD s n v).scratch = s.scratch := rfl
@[simp] theorem setD_buffer (s : State) (n : Nat) (v : DomainSt) : (setD s n v).buffer = s.buffer := rfl
@[simp] theorem setD_acct (s : State) (n : Nat) (v : DomainSt) : (setD s n v).acct = s.acct := rfl
@[simp] theorem setD_closed (s : State) (n : Nat) (v : DomainSt) : (setD s n v).closed = s.closed := rfl
@[simp] theorem setD_nodeRecs (s : State) (n : Nat) (v : DomainSt) : (setD s n v).nodeRecs = s.nodeRecs := rfl
@[simp] theorem setD_heldNext (s : State) (n : Nat) (v : DomainSt) : (setD s n v).heldNext = s.heldNext := rfl
@[simp] theorem setD_shares (s : State) (n : Nat) (v : DomainSt) : (setD s n v).shares = s.shares := rfl
@[simp] theorem setD_shareShadow (s : State) (n : Nat) (v : DomainSt) : (setD s n v).shareShadow = s.shareShadow := rfl
@[simp] theorem setD_arb (s : State) (n : Nat) (v : DomainSt) : (setD s n v).arb = s.arb := rfl
@[simp] theorem setD_arbShadow (s : State) (n : Nat) (v : DomainSt) : (setD s n v).arbShadow = s.arbShadow := rfl
@[simp] theorem setD_deficits (s : State) (n : Nat) (v : DomainSt) : (setD s n v).deficits = s.deficits := rfl
@[simp] theorem setD_dma (s : State) (n : Nat) (v : DomainSt) : (setD s n v).dma = s.dma := rfl
@[simp] theorem setD_nodeNo (s : State) (n : Nat) (v : DomainSt) : (setD s n v).nodeNo = s.nodeNo := rfl
@[simp] theorem setD_partition (s : State) (n : Nat) (v : DomainSt) : (setD s n v).partition = s.partition := rfl
@[simp] theorem setD_fenced (s : State) (n : Nat) (v : DomainSt) : (setD s n v).fenced = s.fenced := rfl
@[simp] theorem setD_domains (s : State) (n : Nat) (v : DomainSt) : (setD s n v).domains = s.domains.set n v := rfl

/-! ### setC -/

@[simp] theorem setC_pending (s : State) (n : Nat) (v : ClusterSt) : (setC s n v).pending = s.pending := rfl
@[simp] theorem setC_out (s : State) (n : Nat) (v : ClusterSt) : (setC s n v).out = s.out := rfl
@[simp] theorem setC_free (s : State) (n : Nat) (v : ClusterSt) : (setC s n v).free = s.free := rfl
@[simp] theorem setC_boot (s : State) (n : Nat) (v : ClusterSt) : (setC s n v).boot = s.boot := rfl
@[simp] theorem setC_port0 (s : State) (n : Nat) (v : ClusterSt) : (setC s n v).port0 = s.port0 := rfl
@[simp] theorem setC_port1 (s : State) (n : Nat) (v : ClusterSt) : (setC s n v).port1 = s.port1 := rfl
@[simp] theorem setC_thermal (s : State) (n : Nat) (v : ClusterSt) : (setC s n v).thermal = s.thermal := rfl
@[simp] theorem setC_cal (s : State) (n : Nat) (v : ClusterSt) : (setC s n v).cal = s.cal := rfl
@[simp] theorem setC_time (s : State) (n : Nat) (v : ClusterSt) : (setC s n v).time = s.time := rfl
@[simp] theorem setC_funcs (s : State) (n : Nat) (v : ClusterSt) : (setC s n v).funcs = s.funcs := rfl
@[simp] theorem setC_flights (s : State) (n : Nat) (v : ClusterSt) : (setC s n v).flights = s.flights := rfl
@[simp] theorem setC_delayed (s : State) (n : Nat) (v : ClusterSt) : (setC s n v).delayed = s.delayed := rfl
@[simp] theorem setC_sec (s : State) (n : Nat) (v : ClusterSt) : (setC s n v).sec = s.sec := rfl
@[simp] theorem setC_domains (s : State) (n : Nat) (v : ClusterSt) : (setC s n v).domains = s.domains := rfl
@[simp] theorem setC_slices (s : State) (n : Nat) (v : ClusterSt) : (setC s n v).slices = s.slices := rfl
@[simp] theorem setC_marginRec (s : State) (n : Nat) (v : ClusterSt) : (setC s n v).marginRec = s.marginRec := rfl
@[simp] theorem setC_marginShadow (s : State) (n : Nat) (v : ClusterSt) : (setC s n v).marginShadow = s.marginShadow := rfl
@[simp] theorem setC_margins (s : State) (n : Nat) (v : ClusterSt) : (setC s n v).margins = s.margins := rfl
@[simp] theorem setC_counters (s : State) (n : Nat) (v : ClusterSt) : (setC s n v).counters = s.counters := rfl
@[simp] theorem setC_chans (s : State) (n : Nat) (v : ClusterSt) : (setC s n v).chans = s.chans := rfl
@[simp] theorem setC_rowOps (s : State) (n : Nat) (v : ClusterSt) : (setC s n v).rowOps = s.rowOps := rfl
@[simp] theorem setC_rowOpNo (s : State) (n : Nat) (v : ClusterSt) : (setC s n v).rowOpNo = s.rowOpNo := rfl
@[simp] theorem setC_bulk (s : State) (n : Nat) (v : ClusterSt) : (setC s n v).bulk = s.bulk := rfl
@[simp] theorem setC_mem (s : State) (n : Nat) (v : ClusterSt) : (setC s n v).mem = s.mem := rfl
@[simp] theorem setC_seqs (s : State) (n : Nat) (v : ClusterSt) : (setC s n v).seqs = s.seqs := rfl
@[simp] theorem setC_seqGen (s : State) (n : Nat) (v : ClusterSt) : (setC s n v).seqGen = s.seqGen := rfl
@[simp] theorem setC_models (s : State) (n : Nat) (v : ClusterSt) : (setC s n v).models = s.models := rfl
@[simp] theorem setC_courses (s : State) (n : Nat) (v : ClusterSt) : (setC s n v).courses = s.courses := rfl
@[simp] theorem setC_heats (s : State) (n : Nat) (v : ClusterSt) : (setC s n v).heats = s.heats := rfl
@[simp] theorem setC_place (s : State) (n : Nat) (v : ClusterSt) : (setC s n v).place = s.place := rfl
@[simp] theorem setC_net (s : State) (n : Nat) (v : ClusterSt) : (setC s n v).net = s.net := rfl
@[simp] theorem setC_dir (s : State) (n : Nat) (v : ClusterSt) : (setC s n v).dir = s.dir := rfl
@[simp] theorem setC_sel (s : State) (n : Nat) (v : ClusterSt) : (setC s n v).sel = s.sel := rfl
@[simp] theorem setC_scratch (s : State) (n : Nat) (v : ClusterSt) : (setC s n v).scratch = s.scratch := rfl
@[simp] theorem setC_buffer (s : State) (n : Nat) (v : ClusterSt) : (setC s n v).buffer = s.buffer := rfl
@[simp] theorem setC_acct (s : State) (n : Nat) (v : ClusterSt) : (setC s n v).acct = s.acct := rfl
@[simp] theorem setC_closed (s : State) (n : Nat) (v : ClusterSt) : (setC s n v).closed = s.closed := rfl
@[simp] theorem setC_nodeRecs (s : State) (n : Nat) (v : ClusterSt) : (setC s n v).nodeRecs = s.nodeRecs := rfl
@[simp] theorem setC_heldNext (s : State) (n : Nat) (v : ClusterSt) : (setC s n v).heldNext = s.heldNext := rfl
@[simp] theorem setC_shares (s : State) (n : Nat) (v : ClusterSt) : (setC s n v).shares = s.shares := rfl
@[simp] theorem setC_shareShadow (s : State) (n : Nat) (v : ClusterSt) : (setC s n v).shareShadow = s.shareShadow := rfl
@[simp] theorem setC_arb (s : State) (n : Nat) (v : ClusterSt) : (setC s n v).arb = s.arb := rfl
@[simp] theorem setC_arbShadow (s : State) (n : Nat) (v : ClusterSt) : (setC s n v).arbShadow = s.arbShadow := rfl
@[simp] theorem setC_deficits (s : State) (n : Nat) (v : ClusterSt) : (setC s n v).deficits = s.deficits := rfl
@[simp] theorem setC_dma (s : State) (n : Nat) (v : ClusterSt) : (setC s n v).dma = s.dma := rfl
@[simp] theorem setC_nodeNo (s : State) (n : Nat) (v : ClusterSt) : (setC s n v).nodeNo = s.nodeNo := rfl
@[simp] theorem setC_partition (s : State) (n : Nat) (v : ClusterSt) : (setC s n v).partition = s.partition := rfl
@[simp] theorem setC_fenced (s : State) (n : Nat) (v : ClusterSt) : (setC s n v).fenced = s.fenced := rfl
@[simp] theorem setC_clusters (s : State) (n : Nat) (v : ClusterSt) : (setC s n v).clusters = s.clusters.set n v := rfl

/-! ### setS -/

@[simp] theorem setS_pending (s : State) (n : Nat) (v : SliceSt) : (setS s n v).pending = s.pending := rfl
@[simp] theorem setS_out (s : State) (n : Nat) (v : SliceSt) : (setS s n v).out = s.out := rfl
@[simp] theorem setS_free (s : State) (n : Nat) (v : SliceSt) : (setS s n v).free = s.free := rfl
@[simp] theorem setS_boot (s : State) (n : Nat) (v : SliceSt) : (setS s n v).boot = s.boot := rfl
@[simp] theorem setS_port0 (s : State) (n : Nat) (v : SliceSt) : (setS s n v).port0 = s.port0 := rfl
@[simp] theorem setS_port1 (s : State) (n : Nat) (v : SliceSt) : (setS s n v).port1 = s.port1 := rfl
@[simp] theorem setS_clusters (s : State) (n : Nat) (v : SliceSt) : (setS s n v).clusters = s.clusters := rfl
@[simp] theorem setS_thermal (s : State) (n : Nat) (v : SliceSt) : (setS s n v).thermal = s.thermal := rfl
@[simp] theorem setS_cal (s : State) (n : Nat) (v : SliceSt) : (setS s n v).cal = s.cal := rfl
@[simp] theorem setS_time (s : State) (n : Nat) (v : SliceSt) : (setS s n v).time = s.time := rfl
@[simp] theorem setS_funcs (s : State) (n : Nat) (v : SliceSt) : (setS s n v).funcs = s.funcs := rfl
@[simp] theorem setS_flights (s : State) (n : Nat) (v : SliceSt) : (setS s n v).flights = s.flights := rfl
@[simp] theorem setS_delayed (s : State) (n : Nat) (v : SliceSt) : (setS s n v).delayed = s.delayed := rfl
@[simp] theorem setS_sec (s : State) (n : Nat) (v : SliceSt) : (setS s n v).sec = s.sec := rfl
@[simp] theorem setS_domains (s : State) (n : Nat) (v : SliceSt) : (setS s n v).domains = s.domains := rfl
@[simp] theorem setS_marginRec (s : State) (n : Nat) (v : SliceSt) : (setS s n v).marginRec = s.marginRec := rfl
@[simp] theorem setS_marginShadow (s : State) (n : Nat) (v : SliceSt) : (setS s n v).marginShadow = s.marginShadow := rfl
@[simp] theorem setS_margins (s : State) (n : Nat) (v : SliceSt) : (setS s n v).margins = s.margins := rfl
@[simp] theorem setS_counters (s : State) (n : Nat) (v : SliceSt) : (setS s n v).counters = s.counters := rfl
@[simp] theorem setS_chans (s : State) (n : Nat) (v : SliceSt) : (setS s n v).chans = s.chans := rfl
@[simp] theorem setS_rowOps (s : State) (n : Nat) (v : SliceSt) : (setS s n v).rowOps = s.rowOps := rfl
@[simp] theorem setS_rowOpNo (s : State) (n : Nat) (v : SliceSt) : (setS s n v).rowOpNo = s.rowOpNo := rfl
@[simp] theorem setS_bulk (s : State) (n : Nat) (v : SliceSt) : (setS s n v).bulk = s.bulk := rfl
@[simp] theorem setS_mem (s : State) (n : Nat) (v : SliceSt) : (setS s n v).mem = s.mem := rfl
@[simp] theorem setS_seqs (s : State) (n : Nat) (v : SliceSt) : (setS s n v).seqs = s.seqs := rfl
@[simp] theorem setS_seqGen (s : State) (n : Nat) (v : SliceSt) : (setS s n v).seqGen = s.seqGen := rfl
@[simp] theorem setS_models (s : State) (n : Nat) (v : SliceSt) : (setS s n v).models = s.models := rfl
@[simp] theorem setS_courses (s : State) (n : Nat) (v : SliceSt) : (setS s n v).courses = s.courses := rfl
@[simp] theorem setS_heats (s : State) (n : Nat) (v : SliceSt) : (setS s n v).heats = s.heats := rfl
@[simp] theorem setS_place (s : State) (n : Nat) (v : SliceSt) : (setS s n v).place = s.place := rfl
@[simp] theorem setS_net (s : State) (n : Nat) (v : SliceSt) : (setS s n v).net = s.net := rfl
@[simp] theorem setS_dir (s : State) (n : Nat) (v : SliceSt) : (setS s n v).dir = s.dir := rfl
@[simp] theorem setS_sel (s : State) (n : Nat) (v : SliceSt) : (setS s n v).sel = s.sel := rfl
@[simp] theorem setS_scratch (s : State) (n : Nat) (v : SliceSt) : (setS s n v).scratch = s.scratch := rfl
@[simp] theorem setS_buffer (s : State) (n : Nat) (v : SliceSt) : (setS s n v).buffer = s.buffer := rfl
@[simp] theorem setS_acct (s : State) (n : Nat) (v : SliceSt) : (setS s n v).acct = s.acct := rfl
@[simp] theorem setS_closed (s : State) (n : Nat) (v : SliceSt) : (setS s n v).closed = s.closed := rfl
@[simp] theorem setS_nodeRecs (s : State) (n : Nat) (v : SliceSt) : (setS s n v).nodeRecs = s.nodeRecs := rfl
@[simp] theorem setS_heldNext (s : State) (n : Nat) (v : SliceSt) : (setS s n v).heldNext = s.heldNext := rfl
@[simp] theorem setS_shares (s : State) (n : Nat) (v : SliceSt) : (setS s n v).shares = s.shares := rfl
@[simp] theorem setS_shareShadow (s : State) (n : Nat) (v : SliceSt) : (setS s n v).shareShadow = s.shareShadow := rfl
@[simp] theorem setS_arb (s : State) (n : Nat) (v : SliceSt) : (setS s n v).arb = s.arb := rfl
@[simp] theorem setS_arbShadow (s : State) (n : Nat) (v : SliceSt) : (setS s n v).arbShadow = s.arbShadow := rfl
@[simp] theorem setS_deficits (s : State) (n : Nat) (v : SliceSt) : (setS s n v).deficits = s.deficits := rfl
@[simp] theorem setS_dma (s : State) (n : Nat) (v : SliceSt) : (setS s n v).dma = s.dma := rfl
@[simp] theorem setS_nodeNo (s : State) (n : Nat) (v : SliceSt) : (setS s n v).nodeNo = s.nodeNo := rfl
@[simp] theorem setS_partition (s : State) (n : Nat) (v : SliceSt) : (setS s n v).partition = s.partition := rfl
@[simp] theorem setS_fenced (s : State) (n : Nat) (v : SliceSt) : (setS s n v).fenced = s.fenced := rfl
@[simp] theorem setS_slices (s : State) (n : Nat) (v : SliceSt) : (setS s n v).slices = s.slices.set n v := rfl

/-! ### setCh -/

@[simp] theorem setCh_pending (s : State) (n : Nat) (v : ChanSt) : (setCh s n v).pending = s.pending := rfl
@[simp] theorem setCh_out (s : State) (n : Nat) (v : ChanSt) : (setCh s n v).out = s.out := rfl
@[simp] theorem setCh_free (s : State) (n : Nat) (v : ChanSt) : (setCh s n v).free = s.free := rfl
@[simp] theorem setCh_boot (s : State) (n : Nat) (v : ChanSt) : (setCh s n v).boot = s.boot := rfl
@[simp] theorem setCh_port0 (s : State) (n : Nat) (v : ChanSt) : (setCh s n v).port0 = s.port0 := rfl
@[simp] theorem setCh_port1 (s : State) (n : Nat) (v : ChanSt) : (setCh s n v).port1 = s.port1 := rfl
@[simp] theorem setCh_clusters (s : State) (n : Nat) (v : ChanSt) : (setCh s n v).clusters = s.clusters := rfl
@[simp] theorem setCh_thermal (s : State) (n : Nat) (v : ChanSt) : (setCh s n v).thermal = s.thermal := rfl
@[simp] theorem setCh_cal (s : State) (n : Nat) (v : ChanSt) : (setCh s n v).cal = s.cal := rfl
@[simp] theorem setCh_time (s : State) (n : Nat) (v : ChanSt) : (setCh s n v).time = s.time := rfl
@[simp] theorem setCh_funcs (s : State) (n : Nat) (v : ChanSt) : (setCh s n v).funcs = s.funcs := rfl
@[simp] theorem setCh_flights (s : State) (n : Nat) (v : ChanSt) : (setCh s n v).flights = s.flights := rfl
@[simp] theorem setCh_delayed (s : State) (n : Nat) (v : ChanSt) : (setCh s n v).delayed = s.delayed := rfl
@[simp] theorem setCh_sec (s : State) (n : Nat) (v : ChanSt) : (setCh s n v).sec = s.sec := rfl
@[simp] theorem setCh_domains (s : State) (n : Nat) (v : ChanSt) : (setCh s n v).domains = s.domains := rfl
@[simp] theorem setCh_slices (s : State) (n : Nat) (v : ChanSt) : (setCh s n v).slices = s.slices := rfl
@[simp] theorem setCh_marginRec (s : State) (n : Nat) (v : ChanSt) : (setCh s n v).marginRec = s.marginRec := rfl
@[simp] theorem setCh_marginShadow (s : State) (n : Nat) (v : ChanSt) : (setCh s n v).marginShadow = s.marginShadow := rfl
@[simp] theorem setCh_margins (s : State) (n : Nat) (v : ChanSt) : (setCh s n v).margins = s.margins := rfl
@[simp] theorem setCh_counters (s : State) (n : Nat) (v : ChanSt) : (setCh s n v).counters = s.counters := rfl
@[simp] theorem setCh_rowOps (s : State) (n : Nat) (v : ChanSt) : (setCh s n v).rowOps = s.rowOps := rfl
@[simp] theorem setCh_rowOpNo (s : State) (n : Nat) (v : ChanSt) : (setCh s n v).rowOpNo = s.rowOpNo := rfl
@[simp] theorem setCh_bulk (s : State) (n : Nat) (v : ChanSt) : (setCh s n v).bulk = s.bulk := rfl
@[simp] theorem setCh_mem (s : State) (n : Nat) (v : ChanSt) : (setCh s n v).mem = s.mem := rfl
@[simp] theorem setCh_seqs (s : State) (n : Nat) (v : ChanSt) : (setCh s n v).seqs = s.seqs := rfl
@[simp] theorem setCh_seqGen (s : State) (n : Nat) (v : ChanSt) : (setCh s n v).seqGen = s.seqGen := rfl
@[simp] theorem setCh_models (s : State) (n : Nat) (v : ChanSt) : (setCh s n v).models = s.models := rfl
@[simp] theorem setCh_courses (s : State) (n : Nat) (v : ChanSt) : (setCh s n v).courses = s.courses := rfl
@[simp] theorem setCh_heats (s : State) (n : Nat) (v : ChanSt) : (setCh s n v).heats = s.heats := rfl
@[simp] theorem setCh_place (s : State) (n : Nat) (v : ChanSt) : (setCh s n v).place = s.place := rfl
@[simp] theorem setCh_net (s : State) (n : Nat) (v : ChanSt) : (setCh s n v).net = s.net := rfl
@[simp] theorem setCh_dir (s : State) (n : Nat) (v : ChanSt) : (setCh s n v).dir = s.dir := rfl
@[simp] theorem setCh_sel (s : State) (n : Nat) (v : ChanSt) : (setCh s n v).sel = s.sel := rfl
@[simp] theorem setCh_scratch (s : State) (n : Nat) (v : ChanSt) : (setCh s n v).scratch = s.scratch := rfl
@[simp] theorem setCh_buffer (s : State) (n : Nat) (v : ChanSt) : (setCh s n v).buffer = s.buffer := rfl
@[simp] theorem setCh_acct (s : State) (n : Nat) (v : ChanSt) : (setCh s n v).acct = s.acct := rfl
@[simp] theorem setCh_closed (s : State) (n : Nat) (v : ChanSt) : (setCh s n v).closed = s.closed := rfl
@[simp] theorem setCh_nodeRecs (s : State) (n : Nat) (v : ChanSt) : (setCh s n v).nodeRecs = s.nodeRecs := rfl
@[simp] theorem setCh_heldNext (s : State) (n : Nat) (v : ChanSt) : (setCh s n v).heldNext = s.heldNext := rfl
@[simp] theorem setCh_shares (s : State) (n : Nat) (v : ChanSt) : (setCh s n v).shares = s.shares := rfl
@[simp] theorem setCh_shareShadow (s : State) (n : Nat) (v : ChanSt) : (setCh s n v).shareShadow = s.shareShadow := rfl
@[simp] theorem setCh_arb (s : State) (n : Nat) (v : ChanSt) : (setCh s n v).arb = s.arb := rfl
@[simp] theorem setCh_arbShadow (s : State) (n : Nat) (v : ChanSt) : (setCh s n v).arbShadow = s.arbShadow := rfl
@[simp] theorem setCh_deficits (s : State) (n : Nat) (v : ChanSt) : (setCh s n v).deficits = s.deficits := rfl
@[simp] theorem setCh_dma (s : State) (n : Nat) (v : ChanSt) : (setCh s n v).dma = s.dma := rfl
@[simp] theorem setCh_nodeNo (s : State) (n : Nat) (v : ChanSt) : (setCh s n v).nodeNo = s.nodeNo := rfl
@[simp] theorem setCh_partition (s : State) (n : Nat) (v : ChanSt) : (setCh s n v).partition = s.partition := rfl
@[simp] theorem setCh_fenced (s : State) (n : Nat) (v : ChanSt) : (setCh s n v).fenced = s.fenced := rfl
@[simp] theorem setCh_chans (s : State) (n : Nat) (v : ChanSt) : (setCh s n v).chans = s.chans.set n v := rfl

/-! ### setPll -/

@[simp] theorem setPll_pending (s : State) (n : Nat) (v : PllSt) : (setPll s n v).pending = s.pending := rfl
@[simp] theorem setPll_out (s : State) (n : Nat) (v : PllSt) : (setPll s n v).out = s.out := rfl
@[simp] theorem setPll_free (s : State) (n : Nat) (v : PllSt) : (setPll s n v).free = s.free := rfl
@[simp] theorem setPll_port0 (s : State) (n : Nat) (v : PllSt) : (setPll s n v).port0 = s.port0 := rfl
@[simp] theorem setPll_port1 (s : State) (n : Nat) (v : PllSt) : (setPll s n v).port1 = s.port1 := rfl
@[simp] theorem setPll_clusters (s : State) (n : Nat) (v : PllSt) : (setPll s n v).clusters = s.clusters := rfl
@[simp] theorem setPll_thermal (s : State) (n : Nat) (v : PllSt) : (setPll s n v).thermal = s.thermal := rfl
@[simp] theorem setPll_cal (s : State) (n : Nat) (v : PllSt) : (setPll s n v).cal = s.cal := rfl
@[simp] theorem setPll_time (s : State) (n : Nat) (v : PllSt) : (setPll s n v).time = s.time := rfl
@[simp] theorem setPll_funcs (s : State) (n : Nat) (v : PllSt) : (setPll s n v).funcs = s.funcs := rfl
@[simp] theorem setPll_flights (s : State) (n : Nat) (v : PllSt) : (setPll s n v).flights = s.flights := rfl
@[simp] theorem setPll_delayed (s : State) (n : Nat) (v : PllSt) : (setPll s n v).delayed = s.delayed := rfl
@[simp] theorem setPll_sec (s : State) (n : Nat) (v : PllSt) : (setPll s n v).sec = s.sec := rfl
@[simp] theorem setPll_domains (s : State) (n : Nat) (v : PllSt) : (setPll s n v).domains = s.domains := rfl
@[simp] theorem setPll_slices (s : State) (n : Nat) (v : PllSt) : (setPll s n v).slices = s.slices := rfl
@[simp] theorem setPll_marginRec (s : State) (n : Nat) (v : PllSt) : (setPll s n v).marginRec = s.marginRec := rfl
@[simp] theorem setPll_marginShadow (s : State) (n : Nat) (v : PllSt) : (setPll s n v).marginShadow = s.marginShadow := rfl
@[simp] theorem setPll_margins (s : State) (n : Nat) (v : PllSt) : (setPll s n v).margins = s.margins := rfl
@[simp] theorem setPll_counters (s : State) (n : Nat) (v : PllSt) : (setPll s n v).counters = s.counters := rfl
@[simp] theorem setPll_chans (s : State) (n : Nat) (v : PllSt) : (setPll s n v).chans = s.chans := rfl
@[simp] theorem setPll_rowOps (s : State) (n : Nat) (v : PllSt) : (setPll s n v).rowOps = s.rowOps := rfl
@[simp] theorem setPll_rowOpNo (s : State) (n : Nat) (v : PllSt) : (setPll s n v).rowOpNo = s.rowOpNo := rfl
@[simp] theorem setPll_bulk (s : State) (n : Nat) (v : PllSt) : (setPll s n v).bulk = s.bulk := rfl
@[simp] theorem setPll_mem (s : State) (n : Nat) (v : PllSt) : (setPll s n v).mem = s.mem := rfl
@[simp] theorem setPll_seqs (s : State) (n : Nat) (v : PllSt) : (setPll s n v).seqs = s.seqs := rfl
@[simp] theorem setPll_seqGen (s : State) (n : Nat) (v : PllSt) : (setPll s n v).seqGen = s.seqGen := rfl
@[simp] theorem setPll_models (s : State) (n : Nat) (v : PllSt) : (setPll s n v).models = s.models := rfl
@[simp] theorem setPll_courses (s : State) (n : Nat) (v : PllSt) : (setPll s n v).courses = s.courses := rfl
@[simp] theorem setPll_heats (s : State) (n : Nat) (v : PllSt) : (setPll s n v).heats = s.heats := rfl
@[simp] theorem setPll_place (s : State) (n : Nat) (v : PllSt) : (setPll s n v).place = s.place := rfl
@[simp] theorem setPll_net (s : State) (n : Nat) (v : PllSt) : (setPll s n v).net = s.net := rfl
@[simp] theorem setPll_dir (s : State) (n : Nat) (v : PllSt) : (setPll s n v).dir = s.dir := rfl
@[simp] theorem setPll_sel (s : State) (n : Nat) (v : PllSt) : (setPll s n v).sel = s.sel := rfl
@[simp] theorem setPll_scratch (s : State) (n : Nat) (v : PllSt) : (setPll s n v).scratch = s.scratch := rfl
@[simp] theorem setPll_buffer (s : State) (n : Nat) (v : PllSt) : (setPll s n v).buffer = s.buffer := rfl
@[simp] theorem setPll_acct (s : State) (n : Nat) (v : PllSt) : (setPll s n v).acct = s.acct := rfl
@[simp] theorem setPll_closed (s : State) (n : Nat) (v : PllSt) : (setPll s n v).closed = s.closed := rfl
@[simp] theorem setPll_nodeRecs (s : State) (n : Nat) (v : PllSt) : (setPll s n v).nodeRecs = s.nodeRecs := rfl
@[simp] theorem setPll_heldNext (s : State) (n : Nat) (v : PllSt) : (setPll s n v).heldNext = s.heldNext := rfl
@[simp] theorem setPll_shares (s : State) (n : Nat) (v : PllSt) : (setPll s n v).shares = s.shares := rfl
@[simp] theorem setPll_shareShadow (s : State) (n : Nat) (v : PllSt) : (setPll s n v).shareShadow = s.shareShadow := rfl
@[simp] theorem setPll_arb (s : State) (n : Nat) (v : PllSt) : (setPll s n v).arb = s.arb := rfl
@[simp] theorem setPll_arbShadow (s : State) (n : Nat) (v : PllSt) : (setPll s n v).arbShadow = s.arbShadow := rfl
@[simp] theorem setPll_deficits (s : State) (n : Nat) (v : PllSt) : (setPll s n v).deficits = s.deficits := rfl
@[simp] theorem setPll_dma (s : State) (n : Nat) (v : PllSt) : (setPll s n v).dma = s.dma := rfl
@[simp] theorem setPll_nodeNo (s : State) (n : Nat) (v : PllSt) : (setPll s n v).nodeNo = s.nodeNo := rfl
@[simp] theorem setPll_partition (s : State) (n : Nat) (v : PllSt) : (setPll s n v).partition = s.partition := rfl
@[simp] theorem setPll_fenced (s : State) (n : Nat) (v : PllSt) : (setPll s n v).fenced = s.fenced := rfl

/-! ### count -/

@[simp] theorem count_pending (s : State) (c i k n : Nat) : (count s c i k n).pending = s.pending := rfl
@[simp] theorem count_out (s : State) (c i k n : Nat) : (count s c i k n).out = s.out := rfl
@[simp] theorem count_free (s : State) (c i k n : Nat) : (count s c i k n).free = s.free := rfl
@[simp] theorem count_boot (s : State) (c i k n : Nat) : (count s c i k n).boot = s.boot := rfl
@[simp] theorem count_port0 (s : State) (c i k n : Nat) : (count s c i k n).port0 = s.port0 := rfl
@[simp] theorem count_port1 (s : State) (c i k n : Nat) : (count s c i k n).port1 = s.port1 := rfl
@[simp] theorem count_clusters (s : State) (c i k n : Nat) : (count s c i k n).clusters = s.clusters := rfl
@[simp] theorem count_thermal (s : State) (c i k n : Nat) : (count s c i k n).thermal = s.thermal := rfl
@[simp] theorem count_cal (s : State) (c i k n : Nat) : (count s c i k n).cal = s.cal := rfl
@[simp] theorem count_time (s : State) (c i k n : Nat) : (count s c i k n).time = s.time := rfl
@[simp] theorem count_funcs (s : State) (c i k n : Nat) : (count s c i k n).funcs = s.funcs := rfl
@[simp] theorem count_flights (s : State) (c i k n : Nat) : (count s c i k n).flights = s.flights := rfl
@[simp] theorem count_delayed (s : State) (c i k n : Nat) : (count s c i k n).delayed = s.delayed := rfl
@[simp] theorem count_sec (s : State) (c i k n : Nat) : (count s c i k n).sec = s.sec := rfl
@[simp] theorem count_domains (s : State) (c i k n : Nat) : (count s c i k n).domains = s.domains := rfl
@[simp] theorem count_slices (s : State) (c i k n : Nat) : (count s c i k n).slices = s.slices := rfl
@[simp] theorem count_marginRec (s : State) (c i k n : Nat) : (count s c i k n).marginRec = s.marginRec := rfl
@[simp] theorem count_marginShadow (s : State) (c i k n : Nat) : (count s c i k n).marginShadow = s.marginShadow := rfl
@[simp] theorem count_margins (s : State) (c i k n : Nat) : (count s c i k n).margins = s.margins := rfl
@[simp] theorem count_chans (s : State) (c i k n : Nat) : (count s c i k n).chans = s.chans := rfl
@[simp] theorem count_rowOps (s : State) (c i k n : Nat) : (count s c i k n).rowOps = s.rowOps := rfl
@[simp] theorem count_rowOpNo (s : State) (c i k n : Nat) : (count s c i k n).rowOpNo = s.rowOpNo := rfl
@[simp] theorem count_bulk (s : State) (c i k n : Nat) : (count s c i k n).bulk = s.bulk := rfl
@[simp] theorem count_mem (s : State) (c i k n : Nat) : (count s c i k n).mem = s.mem := rfl
@[simp] theorem count_seqs (s : State) (c i k n : Nat) : (count s c i k n).seqs = s.seqs := rfl
@[simp] theorem count_seqGen (s : State) (c i k n : Nat) : (count s c i k n).seqGen = s.seqGen := rfl
@[simp] theorem count_models (s : State) (c i k n : Nat) : (count s c i k n).models = s.models := rfl
@[simp] theorem count_courses (s : State) (c i k n : Nat) : (count s c i k n).courses = s.courses := rfl
@[simp] theorem count_heats (s : State) (c i k n : Nat) : (count s c i k n).heats = s.heats := rfl
@[simp] theorem count_place (s : State) (c i k n : Nat) : (count s c i k n).place = s.place := rfl
@[simp] theorem count_net (s : State) (c i k n : Nat) : (count s c i k n).net = s.net := rfl
@[simp] theorem count_dir (s : State) (c i k n : Nat) : (count s c i k n).dir = s.dir := rfl
@[simp] theorem count_sel (s : State) (c i k n : Nat) : (count s c i k n).sel = s.sel := rfl
@[simp] theorem count_scratch (s : State) (c i k n : Nat) : (count s c i k n).scratch = s.scratch := rfl
@[simp] theorem count_buffer (s : State) (c i k n : Nat) : (count s c i k n).buffer = s.buffer := rfl
@[simp] theorem count_acct (s : State) (c i k n : Nat) : (count s c i k n).acct = s.acct := rfl
@[simp] theorem count_closed (s : State) (c i k n : Nat) : (count s c i k n).closed = s.closed := rfl
@[simp] theorem count_nodeRecs (s : State) (c i k n : Nat) : (count s c i k n).nodeRecs = s.nodeRecs := rfl
@[simp] theorem count_heldNext (s : State) (c i k n : Nat) : (count s c i k n).heldNext = s.heldNext := rfl
@[simp] theorem count_shares (s : State) (c i k n : Nat) : (count s c i k n).shares = s.shares := rfl
@[simp] theorem count_shareShadow (s : State) (c i k n : Nat) : (count s c i k n).shareShadow = s.shareShadow := rfl
@[simp] theorem count_arb (s : State) (c i k n : Nat) : (count s c i k n).arb = s.arb := rfl
@[simp] theorem count_arbShadow (s : State) (c i k n : Nat) : (count s c i k n).arbShadow = s.arbShadow := rfl
@[simp] theorem count_deficits (s : State) (c i k n : Nat) : (count s c i k n).deficits = s.deficits := rfl
@[simp] theorem count_dma (s : State) (c i k n : Nat) : (count s c i k n).dma = s.dma := rfl
@[simp] theorem count_nodeNo (s : State) (c i k n : Nat) : (count s c i k n).nodeNo = s.nodeNo := rfl
@[simp] theorem count_partition (s : State) (c i k n : Nat) : (count s c i k n).partition = s.partition := rfl
@[simp] theorem count_fenced (s : State) (c i k n : Nat) : (count s c i k n).fenced = s.fenced := rfl

/-! ### modNet -/

@[simp] theorem modNet_pending (s : State) (g : NetSt → NetSt) : (modNet s g).pending = s.pending := rfl
@[simp] theorem modNet_out (s : State) (g : NetSt → NetSt) : (modNet s g).out = s.out := rfl
@[simp] theorem modNet_free (s : State) (g : NetSt → NetSt) : (modNet s g).free = s.free := rfl
@[simp] theorem modNet_boot (s : State) (g : NetSt → NetSt) : (modNet s g).boot = s.boot := rfl
@[simp] theorem modNet_port0 (s : State) (g : NetSt → NetSt) : (modNet s g).port0 = s.port0 := rfl
@[simp] theorem modNet_port1 (s : State) (g : NetSt → NetSt) : (modNet s g).port1 = s.port1 := rfl
@[simp] theorem modNet_clusters (s : State) (g : NetSt → NetSt) : (modNet s g).clusters = s.clusters := rfl
@[simp] theorem modNet_thermal (s : State) (g : NetSt → NetSt) : (modNet s g).thermal = s.thermal := rfl
@[simp] theorem modNet_cal (s : State) (g : NetSt → NetSt) : (modNet s g).cal = s.cal := rfl
@[simp] theorem modNet_time (s : State) (g : NetSt → NetSt) : (modNet s g).time = s.time := rfl
@[simp] theorem modNet_funcs (s : State) (g : NetSt → NetSt) : (modNet s g).funcs = s.funcs := rfl
@[simp] theorem modNet_flights (s : State) (g : NetSt → NetSt) : (modNet s g).flights = s.flights := rfl
@[simp] theorem modNet_delayed (s : State) (g : NetSt → NetSt) : (modNet s g).delayed = s.delayed := rfl
@[simp] theorem modNet_sec (s : State) (g : NetSt → NetSt) : (modNet s g).sec = s.sec := rfl
@[simp] theorem modNet_domains (s : State) (g : NetSt → NetSt) : (modNet s g).domains = s.domains := rfl
@[simp] theorem modNet_slices (s : State) (g : NetSt → NetSt) : (modNet s g).slices = s.slices := rfl
@[simp] theorem modNet_marginRec (s : State) (g : NetSt → NetSt) : (modNet s g).marginRec = s.marginRec := rfl
@[simp] theorem modNet_marginShadow (s : State) (g : NetSt → NetSt) : (modNet s g).marginShadow = s.marginShadow := rfl
@[simp] theorem modNet_margins (s : State) (g : NetSt → NetSt) : (modNet s g).margins = s.margins := rfl
@[simp] theorem modNet_counters (s : State) (g : NetSt → NetSt) : (modNet s g).counters = s.counters := rfl
@[simp] theorem modNet_chans (s : State) (g : NetSt → NetSt) : (modNet s g).chans = s.chans := rfl
@[simp] theorem modNet_rowOps (s : State) (g : NetSt → NetSt) : (modNet s g).rowOps = s.rowOps := rfl
@[simp] theorem modNet_rowOpNo (s : State) (g : NetSt → NetSt) : (modNet s g).rowOpNo = s.rowOpNo := rfl
@[simp] theorem modNet_bulk (s : State) (g : NetSt → NetSt) : (modNet s g).bulk = s.bulk := rfl
@[simp] theorem modNet_mem (s : State) (g : NetSt → NetSt) : (modNet s g).mem = s.mem := rfl
@[simp] theorem modNet_seqs (s : State) (g : NetSt → NetSt) : (modNet s g).seqs = s.seqs := rfl
@[simp] theorem modNet_seqGen (s : State) (g : NetSt → NetSt) : (modNet s g).seqGen = s.seqGen := rfl
@[simp] theorem modNet_models (s : State) (g : NetSt → NetSt) : (modNet s g).models = s.models := rfl
@[simp] theorem modNet_courses (s : State) (g : NetSt → NetSt) : (modNet s g).courses = s.courses := rfl
@[simp] theorem modNet_heats (s : State) (g : NetSt → NetSt) : (modNet s g).heats = s.heats := rfl
@[simp] theorem modNet_place (s : State) (g : NetSt → NetSt) : (modNet s g).place = s.place := rfl
@[simp] theorem modNet_dir (s : State) (g : NetSt → NetSt) : (modNet s g).dir = s.dir := rfl
@[simp] theorem modNet_sel (s : State) (g : NetSt → NetSt) : (modNet s g).sel = s.sel := rfl
@[simp] theorem modNet_scratch (s : State) (g : NetSt → NetSt) : (modNet s g).scratch = s.scratch := rfl
@[simp] theorem modNet_buffer (s : State) (g : NetSt → NetSt) : (modNet s g).buffer = s.buffer := rfl
@[simp] theorem modNet_acct (s : State) (g : NetSt → NetSt) : (modNet s g).acct = s.acct := rfl
@[simp] theorem modNet_closed (s : State) (g : NetSt → NetSt) : (modNet s g).closed = s.closed := rfl
@[simp] theorem modNet_nodeRecs (s : State) (g : NetSt → NetSt) : (modNet s g).nodeRecs = s.nodeRecs := rfl
@[simp] theorem modNet_heldNext (s : State) (g : NetSt → NetSt) : (modNet s g).heldNext = s.heldNext := rfl
@[simp] theorem modNet_shares (s : State) (g : NetSt → NetSt) : (modNet s g).shares = s.shares := rfl
@[simp] theorem modNet_shareShadow (s : State) (g : NetSt → NetSt) : (modNet s g).shareShadow = s.shareShadow := rfl
@[simp] theorem modNet_arb (s : State) (g : NetSt → NetSt) : (modNet s g).arb = s.arb := rfl
@[simp] theorem modNet_arbShadow (s : State) (g : NetSt → NetSt) : (modNet s g).arbShadow = s.arbShadow := rfl
@[simp] theorem modNet_deficits (s : State) (g : NetSt → NetSt) : (modNet s g).deficits = s.deficits := rfl
@[simp] theorem modNet_dma (s : State) (g : NetSt → NetSt) : (modNet s g).dma = s.dma := rfl
@[simp] theorem modNet_nodeNo (s : State) (g : NetSt → NetSt) : (modNet s g).nodeNo = s.nodeNo := rfl
@[simp] theorem modNet_partition (s : State) (g : NetSt → NetSt) : (modNet s g).partition = s.partition := rfl
@[simp] theorem modNet_fenced (s : State) (g : NetSt → NetSt) : (modNet s g).fenced = s.fenced := rfl
@[simp] theorem modNet_net (s : State) (g : NetSt → NetSt) : (modNet s g).net = g s.net := rfl

/-! ### setWq -/

@[simp] theorem setWq_pending (s : State) (k : Nat) (q : QueueSt) : (setWq s k q).pending = s.pending := rfl
@[simp] theorem setWq_out (s : State) (k : Nat) (q : QueueSt) : (setWq s k q).out = s.out := rfl
@[simp] theorem setWq_free (s : State) (k : Nat) (q : QueueSt) : (setWq s k q).free = s.free := rfl
@[simp] theorem setWq_boot (s : State) (k : Nat) (q : QueueSt) : (setWq s k q).boot = s.boot := rfl
@[simp] theorem setWq_port0 (s : State) (k : Nat) (q : QueueSt) : (setWq s k q).port0 = s.port0 := rfl
@[simp] theorem setWq_port1 (s : State) (k : Nat) (q : QueueSt) : (setWq s k q).port1 = s.port1 := rfl
@[simp] theorem setWq_clusters (s : State) (k : Nat) (q : QueueSt) : (setWq s k q).clusters = s.clusters := rfl
@[simp] theorem setWq_thermal (s : State) (k : Nat) (q : QueueSt) : (setWq s k q).thermal = s.thermal := rfl
@[simp] theorem setWq_cal (s : State) (k : Nat) (q : QueueSt) : (setWq s k q).cal = s.cal := rfl
@[simp] theorem setWq_time (s : State) (k : Nat) (q : QueueSt) : (setWq s k q).time = s.time := rfl
@[simp] theorem setWq_funcs (s : State) (k : Nat) (q : QueueSt) : (setWq s k q).funcs = s.funcs := rfl
@[simp] theorem setWq_flights (s : State) (k : Nat) (q : QueueSt) : (setWq s k q).flights = s.flights := rfl
@[simp] theorem setWq_delayed (s : State) (k : Nat) (q : QueueSt) : (setWq s k q).delayed = s.delayed := rfl
@[simp] theorem setWq_sec (s : State) (k : Nat) (q : QueueSt) : (setWq s k q).sec = s.sec := rfl
@[simp] theorem setWq_domains (s : State) (k : Nat) (q : QueueSt) : (setWq s k q).domains = s.domains := rfl
@[simp] theorem setWq_slices (s : State) (k : Nat) (q : QueueSt) : (setWq s k q).slices = s.slices := rfl
@[simp] theorem setWq_marginRec (s : State) (k : Nat) (q : QueueSt) : (setWq s k q).marginRec = s.marginRec := rfl
@[simp] theorem setWq_marginShadow (s : State) (k : Nat) (q : QueueSt) : (setWq s k q).marginShadow = s.marginShadow := rfl
@[simp] theorem setWq_margins (s : State) (k : Nat) (q : QueueSt) : (setWq s k q).margins = s.margins := rfl
@[simp] theorem setWq_counters (s : State) (k : Nat) (q : QueueSt) : (setWq s k q).counters = s.counters := rfl
@[simp] theorem setWq_chans (s : State) (k : Nat) (q : QueueSt) : (setWq s k q).chans = s.chans := rfl
@[simp] theorem setWq_rowOps (s : State) (k : Nat) (q : QueueSt) : (setWq s k q).rowOps = s.rowOps := rfl
@[simp] theorem setWq_rowOpNo (s : State) (k : Nat) (q : QueueSt) : (setWq s k q).rowOpNo = s.rowOpNo := rfl
@[simp] theorem setWq_bulk (s : State) (k : Nat) (q : QueueSt) : (setWq s k q).bulk = s.bulk := rfl
@[simp] theorem setWq_mem (s : State) (k : Nat) (q : QueueSt) : (setWq s k q).mem = s.mem := rfl
@[simp] theorem setWq_seqs (s : State) (k : Nat) (q : QueueSt) : (setWq s k q).seqs = s.seqs := rfl
@[simp] theorem setWq_seqGen (s : State) (k : Nat) (q : QueueSt) : (setWq s k q).seqGen = s.seqGen := rfl
@[simp] theorem setWq_models (s : State) (k : Nat) (q : QueueSt) : (setWq s k q).models = s.models := rfl
@[simp] theorem setWq_courses (s : State) (k : Nat) (q : QueueSt) : (setWq s k q).courses = s.courses := rfl
@[simp] theorem setWq_heats (s : State) (k : Nat) (q : QueueSt) : (setWq s k q).heats = s.heats := rfl
@[simp] theorem setWq_place (s : State) (k : Nat) (q : QueueSt) : (setWq s k q).place = s.place := rfl
@[simp] theorem setWq_dir (s : State) (k : Nat) (q : QueueSt) : (setWq s k q).dir = s.dir := rfl
@[simp] theorem setWq_sel (s : State) (k : Nat) (q : QueueSt) : (setWq s k q).sel = s.sel := rfl
@[simp] theorem setWq_scratch (s : State) (k : Nat) (q : QueueSt) : (setWq s k q).scratch = s.scratch := rfl
@[simp] theorem setWq_buffer (s : State) (k : Nat) (q : QueueSt) : (setWq s k q).buffer = s.buffer := rfl
@[simp] theorem setWq_acct (s : State) (k : Nat) (q : QueueSt) : (setWq s k q).acct = s.acct := rfl
@[simp] theorem setWq_closed (s : State) (k : Nat) (q : QueueSt) : (setWq s k q).closed = s.closed := rfl
@[simp] theorem setWq_nodeRecs (s : State) (k : Nat) (q : QueueSt) : (setWq s k q).nodeRecs = s.nodeRecs := rfl
@[simp] theorem setWq_heldNext (s : State) (k : Nat) (q : QueueSt) : (setWq s k q).heldNext = s.heldNext := rfl
@[simp] theorem setWq_shares (s : State) (k : Nat) (q : QueueSt) : (setWq s k q).shares = s.shares := rfl
@[simp] theorem setWq_shareShadow (s : State) (k : Nat) (q : QueueSt) : (setWq s k q).shareShadow = s.shareShadow := rfl
@[simp] theorem setWq_arb (s : State) (k : Nat) (q : QueueSt) : (setWq s k q).arb = s.arb := rfl
@[simp] theorem setWq_arbShadow (s : State) (k : Nat) (q : QueueSt) : (setWq s k q).arbShadow = s.arbShadow := rfl
@[simp] theorem setWq_deficits (s : State) (k : Nat) (q : QueueSt) : (setWq s k q).deficits = s.deficits := rfl
@[simp] theorem setWq_dma (s : State) (k : Nat) (q : QueueSt) : (setWq s k q).dma = s.dma := rfl
@[simp] theorem setWq_nodeNo (s : State) (k : Nat) (q : QueueSt) : (setWq s k q).nodeNo = s.nodeNo := rfl
@[simp] theorem setWq_partition (s : State) (k : Nat) (q : QueueSt) : (setWq s k q).partition = s.partition := rfl
@[simp] theorem setWq_fenced (s : State) (k : Nat) (q : QueueSt) : (setWq s k q).fenced = s.fenced := rfl

/-! ### setEth -/

@[simp] theorem setEth_pending (s : State) (p : Port) (v : EthSt) : (setEth s p v).pending = s.pending := rfl
@[simp] theorem setEth_out (s : State) (p : Port) (v : EthSt) : (setEth s p v).out = s.out := rfl
@[simp] theorem setEth_free (s : State) (p : Port) (v : EthSt) : (setEth s p v).free = s.free := rfl
@[simp] theorem setEth_boot (s : State) (p : Port) (v : EthSt) : (setEth s p v).boot = s.boot := rfl
@[simp] theorem setEth_port0 (s : State) (p : Port) (v : EthSt) : (setEth s p v).port0 = s.port0 := rfl
@[simp] theorem setEth_port1 (s : State) (p : Port) (v : EthSt) : (setEth s p v).port1 = s.port1 := rfl
@[simp] theorem setEth_clusters (s : State) (p : Port) (v : EthSt) : (setEth s p v).clusters = s.clusters := rfl
@[simp] theorem setEth_thermal (s : State) (p : Port) (v : EthSt) : (setEth s p v).thermal = s.thermal := rfl
@[simp] theorem setEth_cal (s : State) (p : Port) (v : EthSt) : (setEth s p v).cal = s.cal := rfl
@[simp] theorem setEth_time (s : State) (p : Port) (v : EthSt) : (setEth s p v).time = s.time := rfl
@[simp] theorem setEth_funcs (s : State) (p : Port) (v : EthSt) : (setEth s p v).funcs = s.funcs := rfl
@[simp] theorem setEth_flights (s : State) (p : Port) (v : EthSt) : (setEth s p v).flights = s.flights := rfl
@[simp] theorem setEth_delayed (s : State) (p : Port) (v : EthSt) : (setEth s p v).delayed = s.delayed := rfl
@[simp] theorem setEth_sec (s : State) (p : Port) (v : EthSt) : (setEth s p v).sec = s.sec := rfl
@[simp] theorem setEth_domains (s : State) (p : Port) (v : EthSt) : (setEth s p v).domains = s.domains := rfl
@[simp] theorem setEth_slices (s : State) (p : Port) (v : EthSt) : (setEth s p v).slices = s.slices := rfl
@[simp] theorem setEth_marginRec (s : State) (p : Port) (v : EthSt) : (setEth s p v).marginRec = s.marginRec := rfl
@[simp] theorem setEth_marginShadow (s : State) (p : Port) (v : EthSt) : (setEth s p v).marginShadow = s.marginShadow := rfl
@[simp] theorem setEth_margins (s : State) (p : Port) (v : EthSt) : (setEth s p v).margins = s.margins := rfl
@[simp] theorem setEth_counters (s : State) (p : Port) (v : EthSt) : (setEth s p v).counters = s.counters := rfl
@[simp] theorem setEth_chans (s : State) (p : Port) (v : EthSt) : (setEth s p v).chans = s.chans := rfl
@[simp] theorem setEth_rowOps (s : State) (p : Port) (v : EthSt) : (setEth s p v).rowOps = s.rowOps := rfl
@[simp] theorem setEth_rowOpNo (s : State) (p : Port) (v : EthSt) : (setEth s p v).rowOpNo = s.rowOpNo := rfl
@[simp] theorem setEth_bulk (s : State) (p : Port) (v : EthSt) : (setEth s p v).bulk = s.bulk := rfl
@[simp] theorem setEth_mem (s : State) (p : Port) (v : EthSt) : (setEth s p v).mem = s.mem := rfl
@[simp] theorem setEth_seqs (s : State) (p : Port) (v : EthSt) : (setEth s p v).seqs = s.seqs := rfl
@[simp] theorem setEth_seqGen (s : State) (p : Port) (v : EthSt) : (setEth s p v).seqGen = s.seqGen := rfl
@[simp] theorem setEth_models (s : State) (p : Port) (v : EthSt) : (setEth s p v).models = s.models := rfl
@[simp] theorem setEth_courses (s : State) (p : Port) (v : EthSt) : (setEth s p v).courses = s.courses := rfl
@[simp] theorem setEth_heats (s : State) (p : Port) (v : EthSt) : (setEth s p v).heats = s.heats := rfl
@[simp] theorem setEth_place (s : State) (p : Port) (v : EthSt) : (setEth s p v).place = s.place := rfl
@[simp] theorem setEth_dir (s : State) (p : Port) (v : EthSt) : (setEth s p v).dir = s.dir := rfl
@[simp] theorem setEth_sel (s : State) (p : Port) (v : EthSt) : (setEth s p v).sel = s.sel := rfl
@[simp] theorem setEth_scratch (s : State) (p : Port) (v : EthSt) : (setEth s p v).scratch = s.scratch := rfl
@[simp] theorem setEth_buffer (s : State) (p : Port) (v : EthSt) : (setEth s p v).buffer = s.buffer := rfl
@[simp] theorem setEth_acct (s : State) (p : Port) (v : EthSt) : (setEth s p v).acct = s.acct := rfl
@[simp] theorem setEth_closed (s : State) (p : Port) (v : EthSt) : (setEth s p v).closed = s.closed := rfl
@[simp] theorem setEth_nodeRecs (s : State) (p : Port) (v : EthSt) : (setEth s p v).nodeRecs = s.nodeRecs := rfl
@[simp] theorem setEth_heldNext (s : State) (p : Port) (v : EthSt) : (setEth s p v).heldNext = s.heldNext := rfl
@[simp] theorem setEth_shares (s : State) (p : Port) (v : EthSt) : (setEth s p v).shares = s.shares := rfl
@[simp] theorem setEth_shareShadow (s : State) (p : Port) (v : EthSt) : (setEth s p v).shareShadow = s.shareShadow := rfl
@[simp] theorem setEth_arb (s : State) (p : Port) (v : EthSt) : (setEth s p v).arb = s.arb := rfl
@[simp] theorem setEth_arbShadow (s : State) (p : Port) (v : EthSt) : (setEth s p v).arbShadow = s.arbShadow := rfl
@[simp] theorem setEth_deficits (s : State) (p : Port) (v : EthSt) : (setEth s p v).deficits = s.deficits := rfl
@[simp] theorem setEth_dma (s : State) (p : Port) (v : EthSt) : (setEth s p v).dma = s.dma := rfl
@[simp] theorem setEth_nodeNo (s : State) (p : Port) (v : EthSt) : (setEth s p v).nodeNo = s.nodeNo := rfl
@[simp] theorem setEth_partition (s : State) (p : Port) (v : EthSt) : (setEth s p v).partition = s.partition := rfl
@[simp] theorem setEth_fenced (s : State) (p : Port) (v : EthSt) : (setEth s p v).fenced = s.fenced := rfl

/-! ### setFr -/

@[simp] theorem setFr_pending (s : State) (f : Nat) (v : FrameSt) : (setFr s f v).pending = s.pending := rfl
@[simp] theorem setFr_out (s : State) (f : Nat) (v : FrameSt) : (setFr s f v).out = s.out := rfl
@[simp] theorem setFr_free (s : State) (f : Nat) (v : FrameSt) : (setFr s f v).free = s.free := rfl
@[simp] theorem setFr_boot (s : State) (f : Nat) (v : FrameSt) : (setFr s f v).boot = s.boot := rfl
@[simp] theorem setFr_port0 (s : State) (f : Nat) (v : FrameSt) : (setFr s f v).port0 = s.port0 := rfl
@[simp] theorem setFr_port1 (s : State) (f : Nat) (v : FrameSt) : (setFr s f v).port1 = s.port1 := rfl
@[simp] theorem setFr_clusters (s : State) (f : Nat) (v : FrameSt) : (setFr s f v).clusters = s.clusters := rfl
@[simp] theorem setFr_thermal (s : State) (f : Nat) (v : FrameSt) : (setFr s f v).thermal = s.thermal := rfl
@[simp] theorem setFr_cal (s : State) (f : Nat) (v : FrameSt) : (setFr s f v).cal = s.cal := rfl
@[simp] theorem setFr_time (s : State) (f : Nat) (v : FrameSt) : (setFr s f v).time = s.time := rfl
@[simp] theorem setFr_funcs (s : State) (f : Nat) (v : FrameSt) : (setFr s f v).funcs = s.funcs := rfl
@[simp] theorem setFr_flights (s : State) (f : Nat) (v : FrameSt) : (setFr s f v).flights = s.flights := rfl
@[simp] theorem setFr_delayed (s : State) (f : Nat) (v : FrameSt) : (setFr s f v).delayed = s.delayed := rfl
@[simp] theorem setFr_sec (s : State) (f : Nat) (v : FrameSt) : (setFr s f v).sec = s.sec := rfl
@[simp] theorem setFr_domains (s : State) (f : Nat) (v : FrameSt) : (setFr s f v).domains = s.domains := rfl
@[simp] theorem setFr_slices (s : State) (f : Nat) (v : FrameSt) : (setFr s f v).slices = s.slices := rfl
@[simp] theorem setFr_marginRec (s : State) (f : Nat) (v : FrameSt) : (setFr s f v).marginRec = s.marginRec := rfl
@[simp] theorem setFr_marginShadow (s : State) (f : Nat) (v : FrameSt) : (setFr s f v).marginShadow = s.marginShadow := rfl
@[simp] theorem setFr_margins (s : State) (f : Nat) (v : FrameSt) : (setFr s f v).margins = s.margins := rfl
@[simp] theorem setFr_counters (s : State) (f : Nat) (v : FrameSt) : (setFr s f v).counters = s.counters := rfl
@[simp] theorem setFr_chans (s : State) (f : Nat) (v : FrameSt) : (setFr s f v).chans = s.chans := rfl
@[simp] theorem setFr_rowOps (s : State) (f : Nat) (v : FrameSt) : (setFr s f v).rowOps = s.rowOps := rfl
@[simp] theorem setFr_rowOpNo (s : State) (f : Nat) (v : FrameSt) : (setFr s f v).rowOpNo = s.rowOpNo := rfl
@[simp] theorem setFr_bulk (s : State) (f : Nat) (v : FrameSt) : (setFr s f v).bulk = s.bulk := rfl
@[simp] theorem setFr_seqs (s : State) (f : Nat) (v : FrameSt) : (setFr s f v).seqs = s.seqs := rfl
@[simp] theorem setFr_seqGen (s : State) (f : Nat) (v : FrameSt) : (setFr s f v).seqGen = s.seqGen := rfl
@[simp] theorem setFr_models (s : State) (f : Nat) (v : FrameSt) : (setFr s f v).models = s.models := rfl
@[simp] theorem setFr_courses (s : State) (f : Nat) (v : FrameSt) : (setFr s f v).courses = s.courses := rfl
@[simp] theorem setFr_heats (s : State) (f : Nat) (v : FrameSt) : (setFr s f v).heats = s.heats := rfl
@[simp] theorem setFr_place (s : State) (f : Nat) (v : FrameSt) : (setFr s f v).place = s.place := rfl
@[simp] theorem setFr_net (s : State) (f : Nat) (v : FrameSt) : (setFr s f v).net = s.net := rfl
@[simp] theorem setFr_dir (s : State) (f : Nat) (v : FrameSt) : (setFr s f v).dir = s.dir := rfl
@[simp] theorem setFr_sel (s : State) (f : Nat) (v : FrameSt) : (setFr s f v).sel = s.sel := rfl
@[simp] theorem setFr_scratch (s : State) (f : Nat) (v : FrameSt) : (setFr s f v).scratch = s.scratch := rfl
@[simp] theorem setFr_buffer (s : State) (f : Nat) (v : FrameSt) : (setFr s f v).buffer = s.buffer := rfl
@[simp] theorem setFr_acct (s : State) (f : Nat) (v : FrameSt) : (setFr s f v).acct = s.acct := rfl
@[simp] theorem setFr_closed (s : State) (f : Nat) (v : FrameSt) : (setFr s f v).closed = s.closed := rfl
@[simp] theorem setFr_nodeRecs (s : State) (f : Nat) (v : FrameSt) : (setFr s f v).nodeRecs = s.nodeRecs := rfl
@[simp] theorem setFr_heldNext (s : State) (f : Nat) (v : FrameSt) : (setFr s f v).heldNext = s.heldNext := rfl
@[simp] theorem setFr_shares (s : State) (f : Nat) (v : FrameSt) : (setFr s f v).shares = s.shares := rfl
@[simp] theorem setFr_shareShadow (s : State) (f : Nat) (v : FrameSt) : (setFr s f v).shareShadow = s.shareShadow := rfl
@[simp] theorem setFr_arb (s : State) (f : Nat) (v : FrameSt) : (setFr s f v).arb = s.arb := rfl
@[simp] theorem setFr_arbShadow (s : State) (f : Nat) (v : FrameSt) : (setFr s f v).arbShadow = s.arbShadow := rfl
@[simp] theorem setFr_deficits (s : State) (f : Nat) (v : FrameSt) : (setFr s f v).deficits = s.deficits := rfl
@[simp] theorem setFr_dma (s : State) (f : Nat) (v : FrameSt) : (setFr s f v).dma = s.dma := rfl
@[simp] theorem setFr_nodeNo (s : State) (f : Nat) (v : FrameSt) : (setFr s f v).nodeNo = s.nodeNo := rfl
@[simp] theorem setFr_partition (s : State) (f : Nat) (v : FrameSt) : (setFr s f v).partition = s.partition := rfl
@[simp] theorem setFr_fenced (s : State) (f : Nat) (v : FrameSt) : (setFr s f v).fenced = s.fenced := rfl

/-! ### setPool -/

@[simp] theorem setPool_pending (s : State) (a b : Nat) (l : List Nat) : (setPool s a b l).pending = s.pending := rfl
@[simp] theorem setPool_out (s : State) (a b : Nat) (l : List Nat) : (setPool s a b l).out = s.out := rfl
@[simp] theorem setPool_free (s : State) (a b : Nat) (l : List Nat) : (setPool s a b l).free = s.free := rfl
@[simp] theorem setPool_boot (s : State) (a b : Nat) (l : List Nat) : (setPool s a b l).boot = s.boot := rfl
@[simp] theorem setPool_port0 (s : State) (a b : Nat) (l : List Nat) : (setPool s a b l).port0 = s.port0 := rfl
@[simp] theorem setPool_port1 (s : State) (a b : Nat) (l : List Nat) : (setPool s a b l).port1 = s.port1 := rfl
@[simp] theorem setPool_clusters (s : State) (a b : Nat) (l : List Nat) : (setPool s a b l).clusters = s.clusters := rfl
@[simp] theorem setPool_thermal (s : State) (a b : Nat) (l : List Nat) : (setPool s a b l).thermal = s.thermal := rfl
@[simp] theorem setPool_cal (s : State) (a b : Nat) (l : List Nat) : (setPool s a b l).cal = s.cal := rfl
@[simp] theorem setPool_time (s : State) (a b : Nat) (l : List Nat) : (setPool s a b l).time = s.time := rfl
@[simp] theorem setPool_funcs (s : State) (a b : Nat) (l : List Nat) : (setPool s a b l).funcs = s.funcs := rfl
@[simp] theorem setPool_flights (s : State) (a b : Nat) (l : List Nat) : (setPool s a b l).flights = s.flights := rfl
@[simp] theorem setPool_delayed (s : State) (a b : Nat) (l : List Nat) : (setPool s a b l).delayed = s.delayed := rfl
@[simp] theorem setPool_sec (s : State) (a b : Nat) (l : List Nat) : (setPool s a b l).sec = s.sec := rfl
@[simp] theorem setPool_domains (s : State) (a b : Nat) (l : List Nat) : (setPool s a b l).domains = s.domains := rfl
@[simp] theorem setPool_slices (s : State) (a b : Nat) (l : List Nat) : (setPool s a b l).slices = s.slices := rfl
@[simp] theorem setPool_marginRec (s : State) (a b : Nat) (l : List Nat) : (setPool s a b l).marginRec = s.marginRec := rfl
@[simp] theorem setPool_marginShadow (s : State) (a b : Nat) (l : List Nat) : (setPool s a b l).marginShadow = s.marginShadow := rfl
@[simp] theorem setPool_margins (s : State) (a b : Nat) (l : List Nat) : (setPool s a b l).margins = s.margins := rfl
@[simp] theorem setPool_counters (s : State) (a b : Nat) (l : List Nat) : (setPool s a b l).counters = s.counters := rfl
@[simp] theorem setPool_chans (s : State) (a b : Nat) (l : List Nat) : (setPool s a b l).chans = s.chans := rfl
@[simp] theorem setPool_rowOps (s : State) (a b : Nat) (l : List Nat) : (setPool s a b l).rowOps = s.rowOps := rfl
@[simp] theorem setPool_rowOpNo (s : State) (a b : Nat) (l : List Nat) : (setPool s a b l).rowOpNo = s.rowOpNo := rfl
@[simp] theorem setPool_bulk (s : State) (a b : Nat) (l : List Nat) : (setPool s a b l).bulk = s.bulk := rfl
@[simp] theorem setPool_seqs (s : State) (a b : Nat) (l : List Nat) : (setPool s a b l).seqs = s.seqs := rfl
@[simp] theorem setPool_seqGen (s : State) (a b : Nat) (l : List Nat) : (setPool s a b l).seqGen = s.seqGen := rfl
@[simp] theorem setPool_models (s : State) (a b : Nat) (l : List Nat) : (setPool s a b l).models = s.models := rfl
@[simp] theorem setPool_courses (s : State) (a b : Nat) (l : List Nat) : (setPool s a b l).courses = s.courses := rfl
@[simp] theorem setPool_heats (s : State) (a b : Nat) (l : List Nat) : (setPool s a b l).heats = s.heats := rfl
@[simp] theorem setPool_place (s : State) (a b : Nat) (l : List Nat) : (setPool s a b l).place = s.place := rfl
@[simp] theorem setPool_net (s : State) (a b : Nat) (l : List Nat) : (setPool s a b l).net = s.net := rfl
@[simp] theorem setPool_dir (s : State) (a b : Nat) (l : List Nat) : (setPool s a b l).dir = s.dir := rfl
@[simp] theorem setPool_sel (s : State) (a b : Nat) (l : List Nat) : (setPool s a b l).sel = s.sel := rfl
@[simp] theorem setPool_scratch (s : State) (a b : Nat) (l : List Nat) : (setPool s a b l).scratch = s.scratch := rfl
@[simp] theorem setPool_buffer (s : State) (a b : Nat) (l : List Nat) : (setPool s a b l).buffer = s.buffer := rfl
@[simp] theorem setPool_acct (s : State) (a b : Nat) (l : List Nat) : (setPool s a b l).acct = s.acct := rfl
@[simp] theorem setPool_closed (s : State) (a b : Nat) (l : List Nat) : (setPool s a b l).closed = s.closed := rfl
@[simp] theorem setPool_nodeRecs (s : State) (a b : Nat) (l : List Nat) : (setPool s a b l).nodeRecs = s.nodeRecs := rfl
@[simp] theorem setPool_heldNext (s : State) (a b : Nat) (l : List Nat) : (setPool s a b l).heldNext = s.heldNext := rfl
@[simp] theorem setPool_shares (s : State) (a b : Nat) (l : List Nat) : (setPool s a b l).shares = s.shares := rfl
@[simp] theorem setPool_shareShadow (s : State) (a b : Nat) (l : List Nat) : (setPool s a b l).shareShadow = s.shareShadow := rfl
@[simp] theorem setPool_arb (s : State) (a b : Nat) (l : List Nat) : (setPool s a b l).arb = s.arb := rfl
@[simp] theorem setPool_arbShadow (s : State) (a b : Nat) (l : List Nat) : (setPool s a b l).arbShadow = s.arbShadow := rfl
@[simp] theorem setPool_deficits (s : State) (a b : Nat) (l : List Nat) : (setPool s a b l).deficits = s.deficits := rfl
@[simp] theorem setPool_dma (s : State) (a b : Nat) (l : List Nat) : (setPool s a b l).dma = s.dma := rfl
@[simp] theorem setPool_nodeNo (s : State) (a b : Nat) (l : List Nat) : (setPool s a b l).nodeNo = s.nodeNo := rfl
@[simp] theorem setPool_partition (s : State) (a b : Nat) (l : List Nat) : (setPool s a b l).partition = s.partition := rfl
@[simp] theorem setPool_fenced (s : State) (a b : Nat) (l : List Nat) : (setPool s a b l).fenced = s.fenced := rfl

/-! ### setQ -/

@[simp] theorem setQ_pending (s : State) (id : Nat) (q : SeqSt) : (setQ s id q).pending = s.pending := rfl
@[simp] theorem setQ_out (s : State) (id : Nat) (q : SeqSt) : (setQ s id q).out = s.out := rfl
@[simp] theorem setQ_free (s : State) (id : Nat) (q : SeqSt) : (setQ s id q).free = s.free := rfl
@[simp] theorem setQ_boot (s : State) (id : Nat) (q : SeqSt) : (setQ s id q).boot = s.boot := rfl
@[simp] theorem setQ_port0 (s : State) (id : Nat) (q : SeqSt) : (setQ s id q).port0 = s.port0 := rfl
@[simp] theorem setQ_port1 (s : State) (id : Nat) (q : SeqSt) : (setQ s id q).port1 = s.port1 := rfl
@[simp] theorem setQ_clusters (s : State) (id : Nat) (q : SeqSt) : (setQ s id q).clusters = s.clusters := rfl
@[simp] theorem setQ_thermal (s : State) (id : Nat) (q : SeqSt) : (setQ s id q).thermal = s.thermal := rfl
@[simp] theorem setQ_cal (s : State) (id : Nat) (q : SeqSt) : (setQ s id q).cal = s.cal := rfl
@[simp] theorem setQ_time (s : State) (id : Nat) (q : SeqSt) : (setQ s id q).time = s.time := rfl
@[simp] theorem setQ_funcs (s : State) (id : Nat) (q : SeqSt) : (setQ s id q).funcs = s.funcs := rfl
@[simp] theorem setQ_flights (s : State) (id : Nat) (q : SeqSt) : (setQ s id q).flights = s.flights := rfl
@[simp] theorem setQ_delayed (s : State) (id : Nat) (q : SeqSt) : (setQ s id q).delayed = s.delayed := rfl
@[simp] theorem setQ_sec (s : State) (id : Nat) (q : SeqSt) : (setQ s id q).sec = s.sec := rfl
@[simp] theorem setQ_domains (s : State) (id : Nat) (q : SeqSt) : (setQ s id q).domains = s.domains := rfl
@[simp] theorem setQ_slices (s : State) (id : Nat) (q : SeqSt) : (setQ s id q).slices = s.slices := rfl
@[simp] theorem setQ_marginRec (s : State) (id : Nat) (q : SeqSt) : (setQ s id q).marginRec = s.marginRec := rfl
@[simp] theorem setQ_marginShadow (s : State) (id : Nat) (q : SeqSt) : (setQ s id q).marginShadow = s.marginShadow := rfl
@[simp] theorem setQ_margins (s : State) (id : Nat) (q : SeqSt) : (setQ s id q).margins = s.margins := rfl
@[simp] theorem setQ_counters (s : State) (id : Nat) (q : SeqSt) : (setQ s id q).counters = s.counters := rfl
@[simp] theorem setQ_chans (s : State) (id : Nat) (q : SeqSt) : (setQ s id q).chans = s.chans := rfl
@[simp] theorem setQ_rowOps (s : State) (id : Nat) (q : SeqSt) : (setQ s id q).rowOps = s.rowOps := rfl
@[simp] theorem setQ_rowOpNo (s : State) (id : Nat) (q : SeqSt) : (setQ s id q).rowOpNo = s.rowOpNo := rfl
@[simp] theorem setQ_bulk (s : State) (id : Nat) (q : SeqSt) : (setQ s id q).bulk = s.bulk := rfl
@[simp] theorem setQ_mem (s : State) (id : Nat) (q : SeqSt) : (setQ s id q).mem = s.mem := rfl
@[simp] theorem setQ_seqGen (s : State) (id : Nat) (q : SeqSt) : (setQ s id q).seqGen = s.seqGen := rfl
@[simp] theorem setQ_models (s : State) (id : Nat) (q : SeqSt) : (setQ s id q).models = s.models := rfl
@[simp] theorem setQ_courses (s : State) (id : Nat) (q : SeqSt) : (setQ s id q).courses = s.courses := rfl
@[simp] theorem setQ_heats (s : State) (id : Nat) (q : SeqSt) : (setQ s id q).heats = s.heats := rfl
@[simp] theorem setQ_place (s : State) (id : Nat) (q : SeqSt) : (setQ s id q).place = s.place := rfl
@[simp] theorem setQ_net (s : State) (id : Nat) (q : SeqSt) : (setQ s id q).net = s.net := rfl
@[simp] theorem setQ_dir (s : State) (id : Nat) (q : SeqSt) : (setQ s id q).dir = s.dir := rfl
@[simp] theorem setQ_sel (s : State) (id : Nat) (q : SeqSt) : (setQ s id q).sel = s.sel := rfl
@[simp] theorem setQ_scratch (s : State) (id : Nat) (q : SeqSt) : (setQ s id q).scratch = s.scratch := rfl
@[simp] theorem setQ_buffer (s : State) (id : Nat) (q : SeqSt) : (setQ s id q).buffer = s.buffer := rfl
@[simp] theorem setQ_acct (s : State) (id : Nat) (q : SeqSt) : (setQ s id q).acct = s.acct := rfl
@[simp] theorem setQ_closed (s : State) (id : Nat) (q : SeqSt) : (setQ s id q).closed = s.closed := rfl
@[simp] theorem setQ_nodeRecs (s : State) (id : Nat) (q : SeqSt) : (setQ s id q).nodeRecs = s.nodeRecs := rfl
@[simp] theorem setQ_heldNext (s : State) (id : Nat) (q : SeqSt) : (setQ s id q).heldNext = s.heldNext := rfl
@[simp] theorem setQ_shares (s : State) (id : Nat) (q : SeqSt) : (setQ s id q).shares = s.shares := rfl
@[simp] theorem setQ_shareShadow (s : State) (id : Nat) (q : SeqSt) : (setQ s id q).shareShadow = s.shareShadow := rfl
@[simp] theorem setQ_arb (s : State) (id : Nat) (q : SeqSt) : (setQ s id q).arb = s.arb := rfl
@[simp] theorem setQ_arbShadow (s : State) (id : Nat) (q : SeqSt) : (setQ s id q).arbShadow = s.arbShadow := rfl
@[simp] theorem setQ_deficits (s : State) (id : Nat) (q : SeqSt) : (setQ s id q).deficits = s.deficits := rfl
@[simp] theorem setQ_dma (s : State) (id : Nat) (q : SeqSt) : (setQ s id q).dma = s.dma := rfl
@[simp] theorem setQ_nodeNo (s : State) (id : Nat) (q : SeqSt) : (setQ s id q).nodeNo = s.nodeNo := rfl
@[simp] theorem setQ_partition (s : State) (id : Nat) (q : SeqSt) : (setQ s id q).partition = s.partition := rfl
@[simp] theorem setQ_fenced (s : State) (id : Nat) (q : SeqSt) : (setQ s id q).fenced = s.fenced := rfl
@[simp] theorem setQ_seqs (s : State) (id : Nat) (q : SeqSt) : (setQ s id q).seqs = s.seqs.set id q := rfl

/-! ### modQ -/

@[simp] theorem modQ_pending (s : State) (id : Nat) (g : SeqSt → SeqSt) : (modQ s id g).pending = s.pending := rfl
@[simp] theorem modQ_out (s : State) (id : Nat) (g : SeqSt → SeqSt) : (modQ s id g).out = s.out := rfl
@[simp] theorem modQ_free (s : State) (id : Nat) (g : SeqSt → SeqSt) : (modQ s id g).free = s.free := rfl
@[simp] theorem modQ_boot (s : State) (id : Nat) (g : SeqSt → SeqSt) : (modQ s id g).boot = s.boot := rfl
@[simp] theorem modQ_port0 (s : State) (id : Nat) (g : SeqSt → SeqSt) : (modQ s id g).port0 = s.port0 := rfl
@[simp] theorem modQ_port1 (s : State) (id : Nat) (g : SeqSt → SeqSt) : (modQ s id g).port1 = s.port1 := rfl
@[simp] theorem modQ_clusters (s : State) (id : Nat) (g : SeqSt → SeqSt) : (modQ s id g).clusters = s.clusters := rfl
@[simp] theorem modQ_thermal (s : State) (id : Nat) (g : SeqSt → SeqSt) : (modQ s id g).thermal = s.thermal := rfl
@[simp] theorem modQ_cal (s : State) (id : Nat) (g : SeqSt → SeqSt) : (modQ s id g).cal = s.cal := rfl
@[simp] theorem modQ_time (s : State) (id : Nat) (g : SeqSt → SeqSt) : (modQ s id g).time = s.time := rfl
@[simp] theorem modQ_funcs (s : State) (id : Nat) (g : SeqSt → SeqSt) : (modQ s id g).funcs = s.funcs := rfl
@[simp] theorem modQ_flights (s : State) (id : Nat) (g : SeqSt → SeqSt) : (modQ s id g).flights = s.flights := rfl
@[simp] theorem modQ_delayed (s : State) (id : Nat) (g : SeqSt → SeqSt) : (modQ s id g).delayed = s.delayed := rfl
@[simp] theorem modQ_sec (s : State) (id : Nat) (g : SeqSt → SeqSt) : (modQ s id g).sec = s.sec := rfl
@[simp] theorem modQ_domains (s : State) (id : Nat) (g : SeqSt → SeqSt) : (modQ s id g).domains = s.domains := rfl
@[simp] theorem modQ_slices (s : State) (id : Nat) (g : SeqSt → SeqSt) : (modQ s id g).slices = s.slices := rfl
@[simp] theorem modQ_marginRec (s : State) (id : Nat) (g : SeqSt → SeqSt) : (modQ s id g).marginRec = s.marginRec := rfl
@[simp] theorem modQ_marginShadow (s : State) (id : Nat) (g : SeqSt → SeqSt) : (modQ s id g).marginShadow = s.marginShadow := rfl
@[simp] theorem modQ_margins (s : State) (id : Nat) (g : SeqSt → SeqSt) : (modQ s id g).margins = s.margins := rfl
@[simp] theorem modQ_counters (s : State) (id : Nat) (g : SeqSt → SeqSt) : (modQ s id g).counters = s.counters := rfl
@[simp] theorem modQ_chans (s : State) (id : Nat) (g : SeqSt → SeqSt) : (modQ s id g).chans = s.chans := rfl
@[simp] theorem modQ_rowOps (s : State) (id : Nat) (g : SeqSt → SeqSt) : (modQ s id g).rowOps = s.rowOps := rfl
@[simp] theorem modQ_rowOpNo (s : State) (id : Nat) (g : SeqSt → SeqSt) : (modQ s id g).rowOpNo = s.rowOpNo := rfl
@[simp] theorem modQ_bulk (s : State) (id : Nat) (g : SeqSt → SeqSt) : (modQ s id g).bulk = s.bulk := rfl
@[simp] theorem modQ_mem (s : State) (id : Nat) (g : SeqSt → SeqSt) : (modQ s id g).mem = s.mem := rfl
@[simp] theorem modQ_seqGen (s : State) (id : Nat) (g : SeqSt → SeqSt) : (modQ s id g).seqGen = s.seqGen := rfl
@[simp] theorem modQ_models (s : State) (id : Nat) (g : SeqSt → SeqSt) : (modQ s id g).models = s.models := rfl
@[simp] theorem modQ_courses (s : State) (id : Nat) (g : SeqSt → SeqSt) : (modQ s id g).courses = s.courses := rfl
@[simp] theorem modQ_heats (s : State) (id : Nat) (g : SeqSt → SeqSt) : (modQ s id g).heats = s.heats := rfl
@[simp] theorem modQ_place (s : State) (id : Nat) (g : SeqSt → SeqSt) : (modQ s id g).place = s.place := rfl
@[simp] theorem modQ_net (s : State) (id : Nat) (g : SeqSt → SeqSt) : (modQ s id g).net = s.net := rfl
@[simp] theorem modQ_dir (s : State) (id : Nat) (g : SeqSt → SeqSt) : (modQ s id g).dir = s.dir := rfl
@[simp] theorem modQ_sel (s : State) (id : Nat) (g : SeqSt → SeqSt) : (modQ s id g).sel = s.sel := rfl
@[simp] theorem modQ_scratch (s : State) (id : Nat) (g : SeqSt → SeqSt) : (modQ s id g).scratch = s.scratch := rfl
@[simp] theorem modQ_buffer (s : State) (id : Nat) (g : SeqSt → SeqSt) : (modQ s id g).buffer = s.buffer := rfl
@[simp] theorem modQ_acct (s : State) (id : Nat) (g : SeqSt → SeqSt) : (modQ s id g).acct = s.acct := rfl
@[simp] theorem modQ_closed (s : State) (id : Nat) (g : SeqSt → SeqSt) : (modQ s id g).closed = s.closed := rfl
@[simp] theorem modQ_nodeRecs (s : State) (id : Nat) (g : SeqSt → SeqSt) : (modQ s id g).nodeRecs = s.nodeRecs := rfl
@[simp] theorem modQ_heldNext (s : State) (id : Nat) (g : SeqSt → SeqSt) : (modQ s id g).heldNext = s.heldNext := rfl
@[simp] theorem modQ_shares (s : State) (id : Nat) (g : SeqSt → SeqSt) : (modQ s id g).shares = s.shares := rfl
@[simp] theorem modQ_shareShadow (s : State) (id : Nat) (g : SeqSt → SeqSt) : (modQ s id g).shareShadow = s.shareShadow := rfl
@[simp] theorem modQ_arb (s : State) (id : Nat) (g : SeqSt → SeqSt) : (modQ s id g).arb = s.arb := rfl
@[simp] theorem modQ_arbShadow (s : State) (id : Nat) (g : SeqSt → SeqSt) : (modQ s id g).arbShadow = s.arbShadow := rfl
@[simp] theorem modQ_deficits (s : State) (id : Nat) (g : SeqSt → SeqSt) : (modQ s id g).deficits = s.deficits := rfl
@[simp] theorem modQ_dma (s : State) (id : Nat) (g : SeqSt → SeqSt) : (modQ s id g).dma = s.dma := rfl
@[simp] theorem modQ_nodeNo (s : State) (id : Nat) (g : SeqSt → SeqSt) : (modQ s id g).nodeNo = s.nodeNo := rfl
@[simp] theorem modQ_partition (s : State) (id : Nat) (g : SeqSt → SeqSt) : (modQ s id g).partition = s.partition := rfl
@[simp] theorem modQ_fenced (s : State) (id : Nat) (g : SeqSt → SeqSt) : (modQ s id g).fenced = s.fenced := rfl
@[simp] theorem modQ_seqs (s : State) (id : Nat) (g : SeqSt → SeqSt) : (modQ s id g).seqs = s.seqs.modify id g := rfl

/-! ### setH -/

@[simp] theorem setH_pending (s : State) (h : Nat) (v : HeatSt) : (setH s h v).pending = s.pending := rfl
@[simp] theorem setH_out (s : State) (h : Nat) (v : HeatSt) : (setH s h v).out = s.out := rfl
@[simp] theorem setH_free (s : State) (h : Nat) (v : HeatSt) : (setH s h v).free = s.free := rfl
@[simp] theorem setH_boot (s : State) (h : Nat) (v : HeatSt) : (setH s h v).boot = s.boot := rfl
@[simp] theorem setH_port0 (s : State) (h : Nat) (v : HeatSt) : (setH s h v).port0 = s.port0 := rfl
@[simp] theorem setH_port1 (s : State) (h : Nat) (v : HeatSt) : (setH s h v).port1 = s.port1 := rfl
@[simp] theorem setH_clusters (s : State) (h : Nat) (v : HeatSt) : (setH s h v).clusters = s.clusters := rfl
@[simp] theorem setH_thermal (s : State) (h : Nat) (v : HeatSt) : (setH s h v).thermal = s.thermal := rfl
@[simp] theorem setH_cal (s : State) (h : Nat) (v : HeatSt) : (setH s h v).cal = s.cal := rfl
@[simp] theorem setH_time (s : State) (h : Nat) (v : HeatSt) : (setH s h v).time = s.time := rfl
@[simp] theorem setH_funcs (s : State) (h : Nat) (v : HeatSt) : (setH s h v).funcs = s.funcs := rfl
@[simp] theorem setH_flights (s : State) (h : Nat) (v : HeatSt) : (setH s h v).flights = s.flights := rfl
@[simp] theorem setH_delayed (s : State) (h : Nat) (v : HeatSt) : (setH s h v).delayed = s.delayed := rfl
@[simp] theorem setH_sec (s : State) (h : Nat) (v : HeatSt) : (setH s h v).sec = s.sec := rfl
@[simp] theorem setH_domains (s : State) (h : Nat) (v : HeatSt) : (setH s h v).domains = s.domains := rfl
@[simp] theorem setH_slices (s : State) (h : Nat) (v : HeatSt) : (setH s h v).slices = s.slices := rfl
@[simp] theorem setH_marginRec (s : State) (h : Nat) (v : HeatSt) : (setH s h v).marginRec = s.marginRec := rfl
@[simp] theorem setH_marginShadow (s : State) (h : Nat) (v : HeatSt) : (setH s h v).marginShadow = s.marginShadow := rfl
@[simp] theorem setH_margins (s : State) (h : Nat) (v : HeatSt) : (setH s h v).margins = s.margins := rfl
@[simp] theorem setH_counters (s : State) (h : Nat) (v : HeatSt) : (setH s h v).counters = s.counters := rfl
@[simp] theorem setH_chans (s : State) (h : Nat) (v : HeatSt) : (setH s h v).chans = s.chans := rfl
@[simp] theorem setH_rowOps (s : State) (h : Nat) (v : HeatSt) : (setH s h v).rowOps = s.rowOps := rfl
@[simp] theorem setH_rowOpNo (s : State) (h : Nat) (v : HeatSt) : (setH s h v).rowOpNo = s.rowOpNo := rfl
@[simp] theorem setH_bulk (s : State) (h : Nat) (v : HeatSt) : (setH s h v).bulk = s.bulk := rfl
@[simp] theorem setH_mem (s : State) (h : Nat) (v : HeatSt) : (setH s h v).mem = s.mem := rfl
@[simp] theorem setH_seqs (s : State) (h : Nat) (v : HeatSt) : (setH s h v).seqs = s.seqs := rfl
@[simp] theorem setH_seqGen (s : State) (h : Nat) (v : HeatSt) : (setH s h v).seqGen = s.seqGen := rfl
@[simp] theorem setH_models (s : State) (h : Nat) (v : HeatSt) : (setH s h v).models = s.models := rfl
@[simp] theorem setH_courses (s : State) (h : Nat) (v : HeatSt) : (setH s h v).courses = s.courses := rfl
@[simp] theorem setH_place (s : State) (h : Nat) (v : HeatSt) : (setH s h v).place = s.place := rfl
@[simp] theorem setH_net (s : State) (h : Nat) (v : HeatSt) : (setH s h v).net = s.net := rfl
@[simp] theorem setH_dir (s : State) (h : Nat) (v : HeatSt) : (setH s h v).dir = s.dir := rfl
@[simp] theorem setH_sel (s : State) (h : Nat) (v : HeatSt) : (setH s h v).sel = s.sel := rfl
@[simp] theorem setH_scratch (s : State) (h : Nat) (v : HeatSt) : (setH s h v).scratch = s.scratch := rfl
@[simp] theorem setH_buffer (s : State) (h : Nat) (v : HeatSt) : (setH s h v).buffer = s.buffer := rfl
@[simp] theorem setH_acct (s : State) (h : Nat) (v : HeatSt) : (setH s h v).acct = s.acct := rfl
@[simp] theorem setH_closed (s : State) (h : Nat) (v : HeatSt) : (setH s h v).closed = s.closed := rfl
@[simp] theorem setH_nodeRecs (s : State) (h : Nat) (v : HeatSt) : (setH s h v).nodeRecs = s.nodeRecs := rfl
@[simp] theorem setH_heldNext (s : State) (h : Nat) (v : HeatSt) : (setH s h v).heldNext = s.heldNext := rfl
@[simp] theorem setH_shares (s : State) (h : Nat) (v : HeatSt) : (setH s h v).shares = s.shares := rfl
@[simp] theorem setH_shareShadow (s : State) (h : Nat) (v : HeatSt) : (setH s h v).shareShadow = s.shareShadow := rfl
@[simp] theorem setH_arb (s : State) (h : Nat) (v : HeatSt) : (setH s h v).arb = s.arb := rfl
@[simp] theorem setH_arbShadow (s : State) (h : Nat) (v : HeatSt) : (setH s h v).arbShadow = s.arbShadow := rfl
@[simp] theorem setH_deficits (s : State) (h : Nat) (v : HeatSt) : (setH s h v).deficits = s.deficits := rfl
@[simp] theorem setH_dma (s : State) (h : Nat) (v : HeatSt) : (setH s h v).dma = s.dma := rfl
@[simp] theorem setH_nodeNo (s : State) (h : Nat) (v : HeatSt) : (setH s h v).nodeNo = s.nodeNo := rfl
@[simp] theorem setH_partition (s : State) (h : Nat) (v : HeatSt) : (setH s h v).partition = s.partition := rfl
@[simp] theorem setH_fenced (s : State) (h : Nat) (v : HeatSt) : (setH s h v).fenced = s.fenced := rfl
@[simp] theorem setH_heats (s : State) (h : Nat) (v : HeatSt) : (setH s h v).heats = s.heats.set h v := rfl

/-! ### modH -/

@[simp] theorem modH_pending (s : State) (h : Nat) (g : HeatSt → HeatSt) : (modH s h g).pending = s.pending := rfl
@[simp] theorem modH_out (s : State) (h : Nat) (g : HeatSt → HeatSt) : (modH s h g).out = s.out := rfl
@[simp] theorem modH_free (s : State) (h : Nat) (g : HeatSt → HeatSt) : (modH s h g).free = s.free := rfl
@[simp] theorem modH_boot (s : State) (h : Nat) (g : HeatSt → HeatSt) : (modH s h g).boot = s.boot := rfl
@[simp] theorem modH_port0 (s : State) (h : Nat) (g : HeatSt → HeatSt) : (modH s h g).port0 = s.port0 := rfl
@[simp] theorem modH_port1 (s : State) (h : Nat) (g : HeatSt → HeatSt) : (modH s h g).port1 = s.port1 := rfl
@[simp] theorem modH_clusters (s : State) (h : Nat) (g : HeatSt → HeatSt) : (modH s h g).clusters = s.clusters := rfl
@[simp] theorem modH_thermal (s : State) (h : Nat) (g : HeatSt → HeatSt) : (modH s h g).thermal = s.thermal := rfl
@[simp] theorem modH_cal (s : State) (h : Nat) (g : HeatSt → HeatSt) : (modH s h g).cal = s.cal := rfl
@[simp] theorem modH_time (s : State) (h : Nat) (g : HeatSt → HeatSt) : (modH s h g).time = s.time := rfl
@[simp] theorem modH_funcs (s : State) (h : Nat) (g : HeatSt → HeatSt) : (modH s h g).funcs = s.funcs := rfl
@[simp] theorem modH_flights (s : State) (h : Nat) (g : HeatSt → HeatSt) : (modH s h g).flights = s.flights := rfl
@[simp] theorem modH_delayed (s : State) (h : Nat) (g : HeatSt → HeatSt) : (modH s h g).delayed = s.delayed := rfl
@[simp] theorem modH_sec (s : State) (h : Nat) (g : HeatSt → HeatSt) : (modH s h g).sec = s.sec := rfl
@[simp] theorem modH_domains (s : State) (h : Nat) (g : HeatSt → HeatSt) : (modH s h g).domains = s.domains := rfl
@[simp] theorem modH_slices (s : State) (h : Nat) (g : HeatSt → HeatSt) : (modH s h g).slices = s.slices := rfl
@[simp] theorem modH_marginRec (s : State) (h : Nat) (g : HeatSt → HeatSt) : (modH s h g).marginRec = s.marginRec := rfl
@[simp] theorem modH_marginShadow (s : State) (h : Nat) (g : HeatSt → HeatSt) : (modH s h g).marginShadow = s.marginShadow := rfl
@[simp] theorem modH_margins (s : State) (h : Nat) (g : HeatSt → HeatSt) : (modH s h g).margins = s.margins := rfl
@[simp] theorem modH_counters (s : State) (h : Nat) (g : HeatSt → HeatSt) : (modH s h g).counters = s.counters := rfl
@[simp] theorem modH_chans (s : State) (h : Nat) (g : HeatSt → HeatSt) : (modH s h g).chans = s.chans := rfl
@[simp] theorem modH_rowOps (s : State) (h : Nat) (g : HeatSt → HeatSt) : (modH s h g).rowOps = s.rowOps := rfl
@[simp] theorem modH_rowOpNo (s : State) (h : Nat) (g : HeatSt → HeatSt) : (modH s h g).rowOpNo = s.rowOpNo := rfl
@[simp] theorem modH_bulk (s : State) (h : Nat) (g : HeatSt → HeatSt) : (modH s h g).bulk = s.bulk := rfl
@[simp] theorem modH_mem (s : State) (h : Nat) (g : HeatSt → HeatSt) : (modH s h g).mem = s.mem := rfl
@[simp] theorem modH_seqs (s : State) (h : Nat) (g : HeatSt → HeatSt) : (modH s h g).seqs = s.seqs := rfl
@[simp] theorem modH_seqGen (s : State) (h : Nat) (g : HeatSt → HeatSt) : (modH s h g).seqGen = s.seqGen := rfl
@[simp] theorem modH_models (s : State) (h : Nat) (g : HeatSt → HeatSt) : (modH s h g).models = s.models := rfl
@[simp] theorem modH_courses (s : State) (h : Nat) (g : HeatSt → HeatSt) : (modH s h g).courses = s.courses := rfl
@[simp] theorem modH_place (s : State) (h : Nat) (g : HeatSt → HeatSt) : (modH s h g).place = s.place := rfl
@[simp] theorem modH_net (s : State) (h : Nat) (g : HeatSt → HeatSt) : (modH s h g).net = s.net := rfl
@[simp] theorem modH_dir (s : State) (h : Nat) (g : HeatSt → HeatSt) : (modH s h g).dir = s.dir := rfl
@[simp] theorem modH_sel (s : State) (h : Nat) (g : HeatSt → HeatSt) : (modH s h g).sel = s.sel := rfl
@[simp] theorem modH_scratch (s : State) (h : Nat) (g : HeatSt → HeatSt) : (modH s h g).scratch = s.scratch := rfl
@[simp] theorem modH_buffer (s : State) (h : Nat) (g : HeatSt → HeatSt) : (modH s h g).buffer = s.buffer := rfl
@[simp] theorem modH_acct (s : State) (h : Nat) (g : HeatSt → HeatSt) : (modH s h g).acct = s.acct := rfl
@[simp] theorem modH_closed (s : State) (h : Nat) (g : HeatSt → HeatSt) : (modH s h g).closed = s.closed := rfl
@[simp] theorem modH_nodeRecs (s : State) (h : Nat) (g : HeatSt → HeatSt) : (modH s h g).nodeRecs = s.nodeRecs := rfl
@[simp] theorem modH_heldNext (s : State) (h : Nat) (g : HeatSt → HeatSt) : (modH s h g).heldNext = s.heldNext := rfl
@[simp] theorem modH_shares (s : State) (h : Nat) (g : HeatSt → HeatSt) : (modH s h g).shares = s.shares := rfl
@[simp] theorem modH_shareShadow (s : State) (h : Nat) (g : HeatSt → HeatSt) : (modH s h g).shareShadow = s.shareShadow := rfl
@[simp] theorem modH_arb (s : State) (h : Nat) (g : HeatSt → HeatSt) : (modH s h g).arb = s.arb := rfl
@[simp] theorem modH_arbShadow (s : State) (h : Nat) (g : HeatSt → HeatSt) : (modH s h g).arbShadow = s.arbShadow := rfl
@[simp] theorem modH_deficits (s : State) (h : Nat) (g : HeatSt → HeatSt) : (modH s h g).deficits = s.deficits := rfl
@[simp] theorem modH_dma (s : State) (h : Nat) (g : HeatSt → HeatSt) : (modH s h g).dma = s.dma := rfl
@[simp] theorem modH_nodeNo (s : State) (h : Nat) (g : HeatSt → HeatSt) : (modH s h g).nodeNo = s.nodeNo := rfl
@[simp] theorem modH_partition (s : State) (h : Nat) (g : HeatSt → HeatSt) : (modH s h g).partition = s.partition := rfl
@[simp] theorem modH_fenced (s : State) (h : Nat) (g : HeatSt → HeatSt) : (modH s h g).fenced = s.fenced := rfl
@[simp] theorem modH_heats (s : State) (h : Nat) (g : HeatSt → HeatSt) : (modH s h g).heats = s.heats.modify h g := rfl

/-! ### setIdx -/

@[simp] theorem setIdx_pending (s : State) (k : Nat) (x : IndexSt) : (setIdx s k x).pending = s.pending := rfl
@[simp] theorem setIdx_out (s : State) (k : Nat) (x : IndexSt) : (setIdx s k x).out = s.out := rfl
@[simp] theorem setIdx_free (s : State) (k : Nat) (x : IndexSt) : (setIdx s k x).free = s.free := rfl
@[simp] theorem setIdx_boot (s : State) (k : Nat) (x : IndexSt) : (setIdx s k x).boot = s.boot := rfl
@[simp] theorem setIdx_port0 (s : State) (k : Nat) (x : IndexSt) : (setIdx s k x).port0 = s.port0 := rfl
@[simp] theorem setIdx_port1 (s : State) (k : Nat) (x : IndexSt) : (setIdx s k x).port1 = s.port1 := rfl
@[simp] theorem setIdx_clusters (s : State) (k : Nat) (x : IndexSt) : (setIdx s k x).clusters = s.clusters := rfl
@[simp] theorem setIdx_thermal (s : State) (k : Nat) (x : IndexSt) : (setIdx s k x).thermal = s.thermal := rfl
@[simp] theorem setIdx_cal (s : State) (k : Nat) (x : IndexSt) : (setIdx s k x).cal = s.cal := rfl
@[simp] theorem setIdx_time (s : State) (k : Nat) (x : IndexSt) : (setIdx s k x).time = s.time := rfl
@[simp] theorem setIdx_funcs (s : State) (k : Nat) (x : IndexSt) : (setIdx s k x).funcs = s.funcs := rfl
@[simp] theorem setIdx_flights (s : State) (k : Nat) (x : IndexSt) : (setIdx s k x).flights = s.flights := rfl
@[simp] theorem setIdx_delayed (s : State) (k : Nat) (x : IndexSt) : (setIdx s k x).delayed = s.delayed := rfl
@[simp] theorem setIdx_sec (s : State) (k : Nat) (x : IndexSt) : (setIdx s k x).sec = s.sec := rfl
@[simp] theorem setIdx_domains (s : State) (k : Nat) (x : IndexSt) : (setIdx s k x).domains = s.domains := rfl
@[simp] theorem setIdx_slices (s : State) (k : Nat) (x : IndexSt) : (setIdx s k x).slices = s.slices := rfl
@[simp] theorem setIdx_marginRec (s : State) (k : Nat) (x : IndexSt) : (setIdx s k x).marginRec = s.marginRec := rfl
@[simp] theorem setIdx_marginShadow (s : State) (k : Nat) (x : IndexSt) : (setIdx s k x).marginShadow = s.marginShadow := rfl
@[simp] theorem setIdx_margins (s : State) (k : Nat) (x : IndexSt) : (setIdx s k x).margins = s.margins := rfl
@[simp] theorem setIdx_counters (s : State) (k : Nat) (x : IndexSt) : (setIdx s k x).counters = s.counters := rfl
@[simp] theorem setIdx_chans (s : State) (k : Nat) (x : IndexSt) : (setIdx s k x).chans = s.chans := rfl
@[simp] theorem setIdx_rowOps (s : State) (k : Nat) (x : IndexSt) : (setIdx s k x).rowOps = s.rowOps := rfl
@[simp] theorem setIdx_rowOpNo (s : State) (k : Nat) (x : IndexSt) : (setIdx s k x).rowOpNo = s.rowOpNo := rfl
@[simp] theorem setIdx_bulk (s : State) (k : Nat) (x : IndexSt) : (setIdx s k x).bulk = s.bulk := rfl
@[simp] theorem setIdx_mem (s : State) (k : Nat) (x : IndexSt) : (setIdx s k x).mem = s.mem := rfl
@[simp] theorem setIdx_seqs (s : State) (k : Nat) (x : IndexSt) : (setIdx s k x).seqs = s.seqs := rfl
@[simp] theorem setIdx_seqGen (s : State) (k : Nat) (x : IndexSt) : (setIdx s k x).seqGen = s.seqGen := rfl
@[simp] theorem setIdx_models (s : State) (k : Nat) (x : IndexSt) : (setIdx s k x).models = s.models := rfl
@[simp] theorem setIdx_courses (s : State) (k : Nat) (x : IndexSt) : (setIdx s k x).courses = s.courses := rfl
@[simp] theorem setIdx_heats (s : State) (k : Nat) (x : IndexSt) : (setIdx s k x).heats = s.heats := rfl
@[simp] theorem setIdx_place (s : State) (k : Nat) (x : IndexSt) : (setIdx s k x).place = s.place := rfl
@[simp] theorem setIdx_net (s : State) (k : Nat) (x : IndexSt) : (setIdx s k x).net = s.net := rfl
@[simp] theorem setIdx_dir (s : State) (k : Nat) (x : IndexSt) : (setIdx s k x).dir = s.dir := rfl
@[simp] theorem setIdx_scratch (s : State) (k : Nat) (x : IndexSt) : (setIdx s k x).scratch = s.scratch := rfl
@[simp] theorem setIdx_buffer (s : State) (k : Nat) (x : IndexSt) : (setIdx s k x).buffer = s.buffer := rfl
@[simp] theorem setIdx_acct (s : State) (k : Nat) (x : IndexSt) : (setIdx s k x).acct = s.acct := rfl
@[simp] theorem setIdx_closed (s : State) (k : Nat) (x : IndexSt) : (setIdx s k x).closed = s.closed := rfl
@[simp] theorem setIdx_nodeRecs (s : State) (k : Nat) (x : IndexSt) : (setIdx s k x).nodeRecs = s.nodeRecs := rfl
@[simp] theorem setIdx_heldNext (s : State) (k : Nat) (x : IndexSt) : (setIdx s k x).heldNext = s.heldNext := rfl
@[simp] theorem setIdx_shares (s : State) (k : Nat) (x : IndexSt) : (setIdx s k x).shares = s.shares := rfl
@[simp] theorem setIdx_shareShadow (s : State) (k : Nat) (x : IndexSt) : (setIdx s k x).shareShadow = s.shareShadow := rfl
@[simp] theorem setIdx_arb (s : State) (k : Nat) (x : IndexSt) : (setIdx s k x).arb = s.arb := rfl
@[simp] theorem setIdx_arbShadow (s : State) (k : Nat) (x : IndexSt) : (setIdx s k x).arbShadow = s.arbShadow := rfl
@[simp] theorem setIdx_deficits (s : State) (k : Nat) (x : IndexSt) : (setIdx s k x).deficits = s.deficits := rfl
@[simp] theorem setIdx_dma (s : State) (k : Nat) (x : IndexSt) : (setIdx s k x).dma = s.dma := rfl
@[simp] theorem setIdx_nodeNo (s : State) (k : Nat) (x : IndexSt) : (setIdx s k x).nodeNo = s.nodeNo := rfl
@[simp] theorem setIdx_partition (s : State) (k : Nat) (x : IndexSt) : (setIdx s k x).partition = s.partition := rfl
@[simp] theorem setIdx_fenced (s : State) (k : Nat) (x : IndexSt) : (setIdx s k x).fenced = s.fenced := rfl

/-! ### setColl -/

@[simp] theorem setColl_pending (s : State) (a b : Nat) (c : CollSt) : (setColl s a b c).pending = s.pending := rfl
@[simp] theorem setColl_out (s : State) (a b : Nat) (c : CollSt) : (setColl s a b c).out = s.out := rfl
@[simp] theorem setColl_free (s : State) (a b : Nat) (c : CollSt) : (setColl s a b c).free = s.free := rfl
@[simp] theorem setColl_boot (s : State) (a b : Nat) (c : CollSt) : (setColl s a b c).boot = s.boot := rfl
@[simp] theorem setColl_port0 (s : State) (a b : Nat) (c : CollSt) : (setColl s a b c).port0 = s.port0 := rfl
@[simp] theorem setColl_port1 (s : State) (a b : Nat) (c : CollSt) : (setColl s a b c).port1 = s.port1 := rfl
@[simp] theorem setColl_clusters (s : State) (a b : Nat) (c : CollSt) : (setColl s a b c).clusters = s.clusters := rfl
@[simp] theorem setColl_thermal (s : State) (a b : Nat) (c : CollSt) : (setColl s a b c).thermal = s.thermal := rfl
@[simp] theorem setColl_cal (s : State) (a b : Nat) (c : CollSt) : (setColl s a b c).cal = s.cal := rfl
@[simp] theorem setColl_time (s : State) (a b : Nat) (c : CollSt) : (setColl s a b c).time = s.time := rfl
@[simp] theorem setColl_funcs (s : State) (a b : Nat) (c : CollSt) : (setColl s a b c).funcs = s.funcs := rfl
@[simp] theorem setColl_flights (s : State) (a b : Nat) (c : CollSt) : (setColl s a b c).flights = s.flights := rfl
@[simp] theorem setColl_delayed (s : State) (a b : Nat) (c : CollSt) : (setColl s a b c).delayed = s.delayed := rfl
@[simp] theorem setColl_sec (s : State) (a b : Nat) (c : CollSt) : (setColl s a b c).sec = s.sec := rfl
@[simp] theorem setColl_domains (s : State) (a b : Nat) (c : CollSt) : (setColl s a b c).domains = s.domains := rfl
@[simp] theorem setColl_slices (s : State) (a b : Nat) (c : CollSt) : (setColl s a b c).slices = s.slices := rfl
@[simp] theorem setColl_marginRec (s : State) (a b : Nat) (c : CollSt) : (setColl s a b c).marginRec = s.marginRec := rfl
@[simp] theorem setColl_marginShadow (s : State) (a b : Nat) (c : CollSt) : (setColl s a b c).marginShadow = s.marginShadow := rfl
@[simp] theorem setColl_margins (s : State) (a b : Nat) (c : CollSt) : (setColl s a b c).margins = s.margins := rfl
@[simp] theorem setColl_counters (s : State) (a b : Nat) (c : CollSt) : (setColl s a b c).counters = s.counters := rfl
@[simp] theorem setColl_chans (s : State) (a b : Nat) (c : CollSt) : (setColl s a b c).chans = s.chans := rfl
@[simp] theorem setColl_rowOps (s : State) (a b : Nat) (c : CollSt) : (setColl s a b c).rowOps = s.rowOps := rfl
@[simp] theorem setColl_rowOpNo (s : State) (a b : Nat) (c : CollSt) : (setColl s a b c).rowOpNo = s.rowOpNo := rfl
@[simp] theorem setColl_bulk (s : State) (a b : Nat) (c : CollSt) : (setColl s a b c).bulk = s.bulk := rfl
@[simp] theorem setColl_mem (s : State) (a b : Nat) (c : CollSt) : (setColl s a b c).mem = s.mem := rfl
@[simp] theorem setColl_seqs (s : State) (a b : Nat) (c : CollSt) : (setColl s a b c).seqs = s.seqs := rfl
@[simp] theorem setColl_seqGen (s : State) (a b : Nat) (c : CollSt) : (setColl s a b c).seqGen = s.seqGen := rfl
@[simp] theorem setColl_models (s : State) (a b : Nat) (c : CollSt) : (setColl s a b c).models = s.models := rfl
@[simp] theorem setColl_courses (s : State) (a b : Nat) (c : CollSt) : (setColl s a b c).courses = s.courses := rfl
@[simp] theorem setColl_heats (s : State) (a b : Nat) (c : CollSt) : (setColl s a b c).heats = s.heats := rfl
@[simp] theorem setColl_place (s : State) (a b : Nat) (c : CollSt) : (setColl s a b c).place = s.place := rfl
@[simp] theorem setColl_net (s : State) (a b : Nat) (c : CollSt) : (setColl s a b c).net = s.net := rfl
@[simp] theorem setColl_dir (s : State) (a b : Nat) (c : CollSt) : (setColl s a b c).dir = s.dir := rfl
@[simp] theorem setColl_scratch (s : State) (a b : Nat) (c : CollSt) : (setColl s a b c).scratch = s.scratch := rfl
@[simp] theorem setColl_buffer (s : State) (a b : Nat) (c : CollSt) : (setColl s a b c).buffer = s.buffer := rfl
@[simp] theorem setColl_acct (s : State) (a b : Nat) (c : CollSt) : (setColl s a b c).acct = s.acct := rfl
@[simp] theorem setColl_closed (s : State) (a b : Nat) (c : CollSt) : (setColl s a b c).closed = s.closed := rfl
@[simp] theorem setColl_nodeRecs (s : State) (a b : Nat) (c : CollSt) : (setColl s a b c).nodeRecs = s.nodeRecs := rfl
@[simp] theorem setColl_heldNext (s : State) (a b : Nat) (c : CollSt) : (setColl s a b c).heldNext = s.heldNext := rfl
@[simp] theorem setColl_shares (s : State) (a b : Nat) (c : CollSt) : (setColl s a b c).shares = s.shares := rfl
@[simp] theorem setColl_shareShadow (s : State) (a b : Nat) (c : CollSt) : (setColl s a b c).shareShadow = s.shareShadow := rfl
@[simp] theorem setColl_arb (s : State) (a b : Nat) (c : CollSt) : (setColl s a b c).arb = s.arb := rfl
@[simp] theorem setColl_arbShadow (s : State) (a b : Nat) (c : CollSt) : (setColl s a b c).arbShadow = s.arbShadow := rfl
@[simp] theorem setColl_deficits (s : State) (a b : Nat) (c : CollSt) : (setColl s a b c).deficits = s.deficits := rfl
@[simp] theorem setColl_dma (s : State) (a b : Nat) (c : CollSt) : (setColl s a b c).dma = s.dma := rfl
@[simp] theorem setColl_nodeNo (s : State) (a b : Nat) (c : CollSt) : (setColl s a b c).nodeNo = s.nodeNo := rfl
@[simp] theorem setColl_partition (s : State) (a b : Nat) (c : CollSt) : (setColl s a b c).partition = s.partition := rfl
@[simp] theorem setColl_fenced (s : State) (a b : Nat) (c : CollSt) : (setColl s a b c).fenced = s.fenced := rfl

/-! ### rest -/

@[simp] theorem rest_out (s : State) : (s.rest).out = s.out := rfl
@[simp] theorem rest_free (s : State) : (s.rest).free = s.free := rfl
@[simp] theorem rest_boot (s : State) : (s.rest).boot = s.boot := rfl
@[simp] theorem rest_port0 (s : State) : (s.rest).port0 = s.port0 := rfl
@[simp] theorem rest_port1 (s : State) : (s.rest).port1 = s.port1 := rfl
@[simp] theorem rest_clusters (s : State) : (s.rest).clusters = s.clusters := rfl
@[simp] theorem rest_thermal (s : State) : (s.rest).thermal = s.thermal := rfl
@[simp] theorem rest_cal (s : State) : (s.rest).cal = s.cal := rfl
@[simp] theorem rest_time (s : State) : (s.rest).time = s.time := rfl
@[simp] theorem rest_funcs (s : State) : (s.rest).funcs = s.funcs := rfl
@[simp] theorem rest_flights (s : State) : (s.rest).flights = s.flights := rfl
@[simp] theorem rest_delayed (s : State) : (s.rest).delayed = s.delayed := rfl
@[simp] theorem rest_sec (s : State) : (s.rest).sec = s.sec := rfl
@[simp] theorem rest_domains (s : State) : (s.rest).domains = s.domains := rfl
@[simp] theorem rest_slices (s : State) : (s.rest).slices = s.slices := rfl
@[simp] theorem rest_marginRec (s : State) : (s.rest).marginRec = s.marginRec := rfl
@[simp] theorem rest_marginShadow (s : State) : (s.rest).marginShadow = s.marginShadow := rfl
@[simp] theorem rest_margins (s : State) : (s.rest).margins = s.margins := rfl
@[simp] theorem rest_counters (s : State) : (s.rest).counters = s.counters := rfl
@[simp] theorem rest_chans (s : State) : (s.rest).chans = s.chans := rfl
@[simp] theorem rest_rowOps (s : State) : (s.rest).rowOps = s.rowOps := rfl
@[simp] theorem rest_rowOpNo (s : State) : (s.rest).rowOpNo = s.rowOpNo := rfl
@[simp] theorem rest_bulk (s : State) : (s.rest).bulk = s.bulk := rfl
@[simp] theorem rest_mem (s : State) : (s.rest).mem = s.mem := rfl
@[simp] theorem rest_seqs (s : State) : (s.rest).seqs = s.seqs := rfl
@[simp] theorem rest_seqGen (s : State) : (s.rest).seqGen = s.seqGen := rfl
@[simp] theorem rest_models (s : State) : (s.rest).models = s.models := rfl
@[simp] theorem rest_courses (s : State) : (s.rest).courses = s.courses := rfl
@[simp] theorem rest_heats (s : State) : (s.rest).heats = s.heats := rfl
@[simp] theorem rest_place (s : State) : (s.rest).place = s.place := rfl
@[simp] theorem rest_net (s : State) : (s.rest).net = s.net := rfl
@[simp] theorem rest_dir (s : State) : (s.rest).dir = s.dir := rfl
@[simp] theorem rest_sel (s : State) : (s.rest).sel = s.sel := rfl
@[simp] theorem rest_scratch (s : State) : (s.rest).scratch = s.scratch := rfl
@[simp] theorem rest_buffer (s : State) : (s.rest).buffer = s.buffer := rfl
@[simp] theorem rest_acct (s : State) : (s.rest).acct = s.acct := rfl
@[simp] theorem rest_closed (s : State) : (s.rest).closed = s.closed := rfl
@[simp] theorem rest_nodeRecs (s : State) : (s.rest).nodeRecs = s.nodeRecs := rfl
@[simp] theorem rest_heldNext (s : State) : (s.rest).heldNext = s.heldNext := rfl
@[simp] theorem rest_shares (s : State) : (s.rest).shares = s.shares := rfl
@[simp] theorem rest_shareShadow (s : State) : (s.rest).shareShadow = s.shareShadow := rfl
@[simp] theorem rest_arb (s : State) : (s.rest).arb = s.arb := rfl
@[simp] theorem rest_arbShadow (s : State) : (s.rest).arbShadow = s.arbShadow := rfl
@[simp] theorem rest_deficits (s : State) : (s.rest).deficits = s.deficits := rfl
@[simp] theorem rest_dma (s : State) : (s.rest).dma = s.dma := rfl
@[simp] theorem rest_nodeNo (s : State) : (s.rest).nodeNo = s.nodeNo := rfl
@[simp] theorem rest_partition (s : State) : (s.rest).partition = s.partition := rfl
@[simp] theorem rest_fenced (s : State) : (s.rest).fenced = s.fenced := rfl
@[simp] theorem rest_pending (s : State) : (s.rest).pending = s.pending.tail := rfl

/-! ### Two states that agree in every field -/

theorem State.same {s t : State}
    (h_pending : s.pending = t.pending)
    (h_out : s.out = t.out)
    (h_free : s.free = t.free)
    (h_boot : s.boot = t.boot)
    (h_port0 : s.port0 = t.port0)
    (h_port1 : s.port1 = t.port1)
    (h_clusters : s.clusters = t.clusters)
    (h_thermal : s.thermal = t.thermal)
    (h_cal : s.cal = t.cal)
    (h_time : s.time = t.time)
    (h_funcs : s.funcs = t.funcs)
    (h_flights : s.flights = t.flights)
    (h_delayed : s.delayed = t.delayed)
    (h_sec : s.sec = t.sec)
    (h_domains : s.domains = t.domains)
    (h_slices : s.slices = t.slices)
    (h_marginRec : s.marginRec = t.marginRec)
    (h_marginShadow : s.marginShadow = t.marginShadow)
    (h_margins : s.margins = t.margins)
    (h_counters : s.counters = t.counters)
    (h_chans : s.chans = t.chans)
    (h_rowOps : s.rowOps = t.rowOps)
    (h_rowOpNo : s.rowOpNo = t.rowOpNo)
    (h_bulk : s.bulk = t.bulk)
    (h_mem : s.mem = t.mem)
    (h_seqs : s.seqs = t.seqs)
    (h_seqGen : s.seqGen = t.seqGen)
    (h_models : s.models = t.models)
    (h_courses : s.courses = t.courses)
    (h_heats : s.heats = t.heats)
    (h_place : s.place = t.place)
    (h_net : s.net = t.net)
    (h_dir : s.dir = t.dir)
    (h_sel : s.sel = t.sel)
    (h_scratch : s.scratch = t.scratch)
    (h_buffer : s.buffer = t.buffer)
    (h_acct : s.acct = t.acct)
    (h_closed : s.closed = t.closed)
    (h_nodeRecs : s.nodeRecs = t.nodeRecs)
    (h_heldNext : s.heldNext = t.heldNext)
    (h_shares : s.shares = t.shares)
    (h_shareShadow : s.shareShadow = t.shareShadow)
    (h_arb : s.arb = t.arb)
    (h_arbShadow : s.arbShadow = t.arbShadow)
    (h_deficits : s.deficits = t.deficits)
    (h_dma : s.dma = t.dma)
    (h_nodeNo : s.nodeNo = t.nodeNo)
    (h_partition : s.partition = t.partition)
    (h_fenced : s.fenced = t.fenced) : s = t := by
  cases s; cases t; simp only [State.mk.injEq]
  exact ⟨h_pending, h_out, h_free, h_boot, h_port0, h_port1, h_clusters, h_thermal, h_cal, h_time, h_funcs, h_flights, h_delayed, h_sec, h_domains, h_slices, h_marginRec, h_marginShadow, h_margins, h_counters, h_chans, h_rowOps, h_rowOpNo, h_bulk, h_mem, h_seqs, h_seqGen, h_models, h_courses, h_heats, h_place, h_net, h_dir, h_sel, h_scratch, h_buffer, h_acct, h_closed, h_nodeRecs, h_heldNext, h_shares, h_shareShadow, h_arb, h_arbShadow, h_deficits, h_dma, h_nodeNo, h_partition, h_fenced⟩

end Sys2Proof.Machine
end

