-- ==== Sys2Proof/Laws/Shared.lean ====
section
/-! SUPPORT. What each shared operation can do: the only fields of the state that it writes, and so what it leaves. -/

set_option Elab.async false

namespace Sys2Proof.Machine

/-! ### Chains of operations that write the same fields -/

theorem only_trans {U : State → State → State} (hU : ∀ t r s, U t (U r s) = U t s) {s t u : State}
    (a : t = U t s) (b : u = U u t) : u = U u s :=
  b.trans ((congrArg (U u) a).trans (hU u t s))

theorem foldl_only {α : Type} {U : State → State → State} (h1 : ∀ s, U s s = s) (hU : ∀ t r s, U t (U r s) = U t s)
    (f : State → α → State) (h : ∀ s a, f s a = U (f s a) s) (l : List α) (s : State) : l.foldl f s = U (l.foldl f s) s := by
  induction l generalizing s with
  | nil => exact (h1 s).symm
  | cons a l ih => exact only_trans hU (h s a) (ih (f s a))

/-! ### msix -/

theorem msix_only (s : State) (p : Port) (f : Func) (v : Nat) :
    msix s p f v = { s with funcs := (msix s p f v).funcs, out := (msix s p f v).out } := by
  unfold msix; dsimp only; split <;> rfl

@[simp] theorem msix_pending (s : State) (p : Port) (f : Func) (v : Nat) : (msix s p f v).pending = s.pending := by rw [msix_only]
@[simp] theorem msix_free (s : State) (p : Port) (f : Func) (v : Nat) : (msix s p f v).free = s.free := by rw [msix_only]
@[simp] theorem msix_boot (s : State) (p : Port) (f : Func) (v : Nat) : (msix s p f v).boot = s.boot := by rw [msix_only]
@[simp] theorem msix_port0 (s : State) (p : Port) (f : Func) (v : Nat) : (msix s p f v).port0 = s.port0 := by rw [msix_only]
@[simp] theorem msix_port1 (s : State) (p : Port) (f : Func) (v : Nat) : (msix s p f v).port1 = s.port1 := by rw [msix_only]
@[simp] theorem msix_clusters (s : State) (p : Port) (f : Func) (v : Nat) : (msix s p f v).clusters = s.clusters := by rw [msix_only]
@[simp] theorem msix_thermal (s : State) (p : Port) (f : Func) (v : Nat) : (msix s p f v).thermal = s.thermal := by rw [msix_only]
@[simp] theorem msix_cal (s : State) (p : Port) (f : Func) (v : Nat) : (msix s p f v).cal = s.cal := by rw [msix_only]
@[simp] theorem msix_time (s : State) (p : Port) (f : Func) (v : Nat) : (msix s p f v).time = s.time := by rw [msix_only]
@[simp] theorem msix_flights (s : State) (p : Port) (f : Func) (v : Nat) : (msix s p f v).flights = s.flights := by rw [msix_only]
@[simp] theorem msix_delayed (s : State) (p : Port) (f : Func) (v : Nat) : (msix s p f v).delayed = s.delayed := by rw [msix_only]
@[simp] theorem msix_sec (s : State) (p : Port) (f : Func) (v : Nat) : (msix s p f v).sec = s.sec := by rw [msix_only]
@[simp] theorem msix_domains (s : State) (p : Port) (f : Func) (v : Nat) : (msix s p f v).domains = s.domains := by rw [msix_only]
@[simp] theorem msix_slices (s : State) (p : Port) (f : Func) (v : Nat) : (msix s p f v).slices = s.slices := by rw [msix_only]
@[simp] theorem msix_marginRec (s : State) (p : Port) (f : Func) (v : Nat) : (msix s p f v).marginRec = s.marginRec := by rw [msix_only]
@[simp] theorem msix_marginShadow (s : State) (p : Port) (f : Func) (v : Nat) : (msix s p f v).marginShadow = s.marginShadow := by rw [msix_only]
@[simp] theorem msix_margins (s : State) (p : Port) (f : Func) (v : Nat) : (msix s p f v).margins = s.margins := by rw [msix_only]
@[simp] theorem msix_counters (s : State) (p : Port) (f : Func) (v : Nat) : (msix s p f v).counters = s.counters := by rw [msix_only]
@[simp] theorem msix_chans (s : State) (p : Port) (f : Func) (v : Nat) : (msix s p f v).chans = s.chans := by rw [msix_only]
@[simp] theorem msix_rowOps (s : State) (p : Port) (f : Func) (v : Nat) : (msix s p f v).rowOps = s.rowOps := by rw [msix_only]
@[simp] theorem msix_rowOpNo (s : State) (p : Port) (f : Func) (v : Nat) : (msix s p f v).rowOpNo = s.rowOpNo := by rw [msix_only]
@[simp] theorem msix_bulk (s : State) (p : Port) (f : Func) (v : Nat) : (msix s p f v).bulk = s.bulk := by rw [msix_only]
@[simp] theorem msix_mem (s : State) (p : Port) (f : Func) (v : Nat) : (msix s p f v).mem = s.mem := by rw [msix_only]
@[simp] theorem msix_seqs (s : State) (p : Port) (f : Func) (v : Nat) : (msix s p f v).seqs = s.seqs := by rw [msix_only]
@[simp] theorem msix_seqGen (s : State) (p : Port) (f : Func) (v : Nat) : (msix s p f v).seqGen = s.seqGen := by rw [msix_only]
@[simp] theorem msix_models (s : State) (p : Port) (f : Func) (v : Nat) : (msix s p f v).models = s.models := by rw [msix_only]
@[simp] theorem msix_courses (s : State) (p : Port) (f : Func) (v : Nat) : (msix s p f v).courses = s.courses := by rw [msix_only]
@[simp] theorem msix_heats (s : State) (p : Port) (f : Func) (v : Nat) : (msix s p f v).heats = s.heats := by rw [msix_only]
@[simp] theorem msix_place (s : State) (p : Port) (f : Func) (v : Nat) : (msix s p f v).place = s.place := by rw [msix_only]
@[simp] theorem msix_net (s : State) (p : Port) (f : Func) (v : Nat) : (msix s p f v).net = s.net := by rw [msix_only]
@[simp] theorem msix_dir (s : State) (p : Port) (f : Func) (v : Nat) : (msix s p f v).dir = s.dir := by rw [msix_only]
@[simp] theorem msix_sel (s : State) (p : Port) (f : Func) (v : Nat) : (msix s p f v).sel = s.sel := by rw [msix_only]
@[simp] theorem msix_scratch (s : State) (p : Port) (f : Func) (v : Nat) : (msix s p f v).scratch = s.scratch := by rw [msix_only]
@[simp] theorem msix_buffer (s : State) (p : Port) (f : Func) (v : Nat) : (msix s p f v).buffer = s.buffer := by rw [msix_only]
@[simp] theorem msix_acct (s : State) (p : Port) (f : Func) (v : Nat) : (msix s p f v).acct = s.acct := by rw [msix_only]
@[simp] theorem msix_closed (s : State) (p : Port) (f : Func) (v : Nat) : (msix s p f v).closed = s.closed := by rw [msix_only]
@[simp] theorem msix_nodeRecs (s : State) (p : Port) (f : Func) (v : Nat) : (msix s p f v).nodeRecs = s.nodeRecs := by rw [msix_only]
@[simp] theorem msix_heldNext (s : State) (p : Port) (f : Func) (v : Nat) : (msix s p f v).heldNext = s.heldNext := by rw [msix_only]
@[simp] theorem msix_shares (s : State) (p : Port) (f : Func) (v : Nat) : (msix s p f v).shares = s.shares := by rw [msix_only]
@[simp] theorem msix_shareShadow (s : State) (p : Port) (f : Func) (v : Nat) : (msix s p f v).shareShadow = s.shareShadow := by rw [msix_only]
@[simp] theorem msix_arb (s : State) (p : Port) (f : Func) (v : Nat) : (msix s p f v).arb = s.arb := by rw [msix_only]
@[simp] theorem msix_arbShadow (s : State) (p : Port) (f : Func) (v : Nat) : (msix s p f v).arbShadow = s.arbShadow := by rw [msix_only]
@[simp] theorem msix_deficits (s : State) (p : Port) (f : Func) (v : Nat) : (msix s p f v).deficits = s.deficits := by rw [msix_only]
@[simp] theorem msix_dma (s : State) (p : Port) (f : Func) (v : Nat) : (msix s p f v).dma = s.dma := by rw [msix_only]
@[simp] theorem msix_nodeNo (s : State) (p : Port) (f : Func) (v : Nat) : (msix s p f v).nodeNo = s.nodeNo := by rw [msix_only]
@[simp] theorem msix_partition (s : State) (p : Port) (f : Func) (v : Nat) : (msix s p f v).partition = s.partition := by rw [msix_only]
@[simp] theorem msix_fenced (s : State) (p : Port) (f : Func) (v : Nat) : (msix s p f v).fenced = s.fenced := by rw [msix_only]

/-! ### signalRing -/

theorem signalRing_only (s : State) (p : Port) (f : Func) (v : Nat) :
    signalRing s p f v = { s with funcs := (signalRing s p f v).funcs, out := (signalRing s p f v).out } := by
  unfold signalRing
  dsimp only
  split
  · split
    · rw [msix_only]; rfl
    · rfl
  · rw [msix_only]; rfl

@[simp] theorem signalRing_pending (s : State) (p : Port) (f : Func) (v : Nat) : (signalRing s p f v).pending = s.pending := by rw [signalRing_only]
@[simp] theorem signalRing_free (s : State) (p : Port) (f : Func) (v : Nat) : (signalRing s p f v).free = s.free := by rw [signalRing_only]
@[simp] theorem signalRing_boot (s : State) (p : Port) (f : Func) (v : Nat) : (signalRing s p f v).boot = s.boot := by rw [signalRing_only]
@[simp] theorem signalRing_port0 (s : State) (p : Port) (f : Func) (v : Nat) : (signalRing s p f v).port0 = s.port0 := by rw [signalRing_only]
@[simp] theorem signalRing_port1 (s : State) (p : Port) (f : Func) (v : Nat) : (signalRing s p f v).port1 = s.port1 := by rw [signalRing_only]
@[simp] theorem signalRing_clusters (s : State) (p : Port) (f : Func) (v : Nat) : (signalRing s p f v).clusters = s.clusters := by rw [signalRing_only]
@[simp] theorem signalRing_thermal (s : State) (p : Port) (f : Func) (v : Nat) : (signalRing s p f v).thermal = s.thermal := by rw [signalRing_only]
@[simp] theorem signalRing_cal (s : State) (p : Port) (f : Func) (v : Nat) : (signalRing s p f v).cal = s.cal := by rw [signalRing_only]
@[simp] theorem signalRing_time (s : State) (p : Port) (f : Func) (v : Nat) : (signalRing s p f v).time = s.time := by rw [signalRing_only]
@[simp] theorem signalRing_flights (s : State) (p : Port) (f : Func) (v : Nat) : (signalRing s p f v).flights = s.flights := by rw [signalRing_only]
@[simp] theorem signalRing_delayed (s : State) (p : Port) (f : Func) (v : Nat) : (signalRing s p f v).delayed = s.delayed := by rw [signalRing_only]
@[simp] theorem signalRing_sec (s : State) (p : Port) (f : Func) (v : Nat) : (signalRing s p f v).sec = s.sec := by rw [signalRing_only]
@[simp] theorem signalRing_domains (s : State) (p : Port) (f : Func) (v : Nat) : (signalRing s p f v).domains = s.domains := by rw [signalRing_only]
@[simp] theorem signalRing_slices (s : State) (p : Port) (f : Func) (v : Nat) : (signalRing s p f v).slices = s.slices := by rw [signalRing_only]
@[simp] theorem signalRing_marginRec (s : State) (p : Port) (f : Func) (v : Nat) : (signalRing s p f v).marginRec = s.marginRec := by rw [signalRing_only]
@[simp] theorem signalRing_marginShadow (s : State) (p : Port) (f : Func) (v : Nat) : (signalRing s p f v).marginShadow = s.marginShadow := by rw [signalRing_only]
@[simp] theorem signalRing_margins (s : State) (p : Port) (f : Func) (v : Nat) : (signalRing s p f v).margins = s.margins := by rw [signalRing_only]
@[simp] theorem signalRing_counters (s : State) (p : Port) (f : Func) (v : Nat) : (signalRing s p f v).counters = s.counters := by rw [signalRing_only]
@[simp] theorem signalRing_chans (s : State) (p : Port) (f : Func) (v : Nat) : (signalRing s p f v).chans = s.chans := by rw [signalRing_only]
@[simp] theorem signalRing_rowOps (s : State) (p : Port) (f : Func) (v : Nat) : (signalRing s p f v).rowOps = s.rowOps := by rw [signalRing_only]
@[simp] theorem signalRing_rowOpNo (s : State) (p : Port) (f : Func) (v : Nat) : (signalRing s p f v).rowOpNo = s.rowOpNo := by rw [signalRing_only]
@[simp] theorem signalRing_bulk (s : State) (p : Port) (f : Func) (v : Nat) : (signalRing s p f v).bulk = s.bulk := by rw [signalRing_only]
@[simp] theorem signalRing_mem (s : State) (p : Port) (f : Func) (v : Nat) : (signalRing s p f v).mem = s.mem := by rw [signalRing_only]
@[simp] theorem signalRing_seqs (s : State) (p : Port) (f : Func) (v : Nat) : (signalRing s p f v).seqs = s.seqs := by rw [signalRing_only]
@[simp] theorem signalRing_seqGen (s : State) (p : Port) (f : Func) (v : Nat) : (signalRing s p f v).seqGen = s.seqGen := by rw [signalRing_only]
@[simp] theorem signalRing_models (s : State) (p : Port) (f : Func) (v : Nat) : (signalRing s p f v).models = s.models := by rw [signalRing_only]
@[simp] theorem signalRing_courses (s : State) (p : Port) (f : Func) (v : Nat) : (signalRing s p f v).courses = s.courses := by rw [signalRing_only]
@[simp] theorem signalRing_heats (s : State) (p : Port) (f : Func) (v : Nat) : (signalRing s p f v).heats = s.heats := by rw [signalRing_only]
@[simp] theorem signalRing_place (s : State) (p : Port) (f : Func) (v : Nat) : (signalRing s p f v).place = s.place := by rw [signalRing_only]
@[simp] theorem signalRing_net (s : State) (p : Port) (f : Func) (v : Nat) : (signalRing s p f v).net = s.net := by rw [signalRing_only]
@[simp] theorem signalRing_dir (s : State) (p : Port) (f : Func) (v : Nat) : (signalRing s p f v).dir = s.dir := by rw [signalRing_only]
@[simp] theorem signalRing_sel (s : State) (p : Port) (f : Func) (v : Nat) : (signalRing s p f v).sel = s.sel := by rw [signalRing_only]
@[simp] theorem signalRing_scratch (s : State) (p : Port) (f : Func) (v : Nat) : (signalRing s p f v).scratch = s.scratch := by rw [signalRing_only]
@[simp] theorem signalRing_buffer (s : State) (p : Port) (f : Func) (v : Nat) : (signalRing s p f v).buffer = s.buffer := by rw [signalRing_only]
@[simp] theorem signalRing_acct (s : State) (p : Port) (f : Func) (v : Nat) : (signalRing s p f v).acct = s.acct := by rw [signalRing_only]
@[simp] theorem signalRing_closed (s : State) (p : Port) (f : Func) (v : Nat) : (signalRing s p f v).closed = s.closed := by rw [signalRing_only]
@[simp] theorem signalRing_nodeRecs (s : State) (p : Port) (f : Func) (v : Nat) : (signalRing s p f v).nodeRecs = s.nodeRecs := by rw [signalRing_only]
@[simp] theorem signalRing_heldNext (s : State) (p : Port) (f : Func) (v : Nat) : (signalRing s p f v).heldNext = s.heldNext := by rw [signalRing_only]
@[simp] theorem signalRing_shares (s : State) (p : Port) (f : Func) (v : Nat) : (signalRing s p f v).shares = s.shares := by rw [signalRing_only]
@[simp] theorem signalRing_shareShadow (s : State) (p : Port) (f : Func) (v : Nat) : (signalRing s p f v).shareShadow = s.shareShadow := by rw [signalRing_only]
@[simp] theorem signalRing_arb (s : State) (p : Port) (f : Func) (v : Nat) : (signalRing s p f v).arb = s.arb := by rw [signalRing_only]
@[simp] theorem signalRing_arbShadow (s : State) (p : Port) (f : Func) (v : Nat) : (signalRing s p f v).arbShadow = s.arbShadow := by rw [signalRing_only]
@[simp] theorem signalRing_deficits (s : State) (p : Port) (f : Func) (v : Nat) : (signalRing s p f v).deficits = s.deficits := by rw [signalRing_only]
@[simp] theorem signalRing_dma (s : State) (p : Port) (f : Func) (v : Nat) : (signalRing s p f v).dma = s.dma := by rw [signalRing_only]
@[simp] theorem signalRing_nodeNo (s : State) (p : Port) (f : Func) (v : Nat) : (signalRing s p f v).nodeNo = s.nodeNo := by rw [signalRing_only]
@[simp] theorem signalRing_partition (s : State) (p : Port) (f : Func) (v : Nat) : (signalRing s p f v).partition = s.partition := by rw [signalRing_only]
@[simp] theorem signalRing_fenced (s : State) (p : Port) (f : Func) (v : Nat) : (signalRing s p f v).fenced = s.fenced := by rw [signalRing_only]

/-! ### writeResponse -/

theorem writeResponse_only (s : State) (p : Port) (f : Func) (w : Nat) (b : Bool) :
    writeResponse s p f w b = { s with funcs := (writeResponse s p f w b).funcs, out := (writeResponse s p f w b).out } := by
  unfold writeResponse
  dsimp only
  split
  · rw [signalRing_only]; rfl
  · rfl

@[simp] theorem writeResponse_pending (s : State) (p : Port) (f : Func) (w : Nat) (b : Bool) : (writeResponse s p f w b).pending = s.pending := by rw [writeResponse_only]
@[simp] theorem writeResponse_free (s : State) (p : Port) (f : Func) (w : Nat) (b : Bool) : (writeResponse s p f w b).free = s.free := by rw [writeResponse_only]
@[simp] theorem writeResponse_boot (s : State) (p : Port) (f : Func) (w : Nat) (b : Bool) : (writeResponse s p f w b).boot = s.boot := by rw [writeResponse_only]
@[simp] theorem writeResponse_port0 (s : State) (p : Port) (f : Func) (w : Nat) (b : Bool) : (writeResponse s p f w b).port0 = s.port0 := by rw [writeResponse_only]
@[simp] theorem writeResponse_port1 (s : State) (p : Port) (f : Func) (w : Nat) (b : Bool) : (writeResponse s p f w b).port1 = s.port1 := by rw [writeResponse_only]
@[simp] theorem writeResponse_clusters (s : State) (p : Port) (f : Func) (w : Nat) (b : Bool) : (writeResponse s p f w b).clusters = s.clusters := by rw [writeResponse_only]
@[simp] theorem writeResponse_thermal (s : State) (p : Port) (f : Func) (w : Nat) (b : Bool) : (writeResponse s p f w b).thermal = s.thermal := by rw [writeResponse_only]
@[simp] theorem writeResponse_cal (s : State) (p : Port) (f : Func) (w : Nat) (b : Bool) : (writeResponse s p f w b).cal = s.cal := by rw [writeResponse_only]
@[simp] theorem writeResponse_time (s : State) (p : Port) (f : Func) (w : Nat) (b : Bool) : (writeResponse s p f w b).time = s.time := by rw [writeResponse_only]
@[simp] theorem writeResponse_flights (s : State) (p : Port) (f : Func) (w : Nat) (b : Bool) : (writeResponse s p f w b).flights = s.flights := by rw [writeResponse_only]
@[simp] theorem writeResponse_delayed (s : State) (p : Port) (f : Func) (w : Nat) (b : Bool) : (writeResponse s p f w b).delayed = s.delayed := by rw [writeResponse_only]
@[simp] theorem writeResponse_sec (s : State) (p : Port) (f : Func) (w : Nat) (b : Bool) : (writeResponse s p f w b).sec = s.sec := by rw [writeResponse_only]
@[simp] theorem writeResponse_domains (s : State) (p : Port) (f : Func) (w : Nat) (b : Bool) : (writeResponse s p f w b).domains = s.domains := by rw [writeResponse_only]
@[simp] theorem writeResponse_slices (s : State) (p : Port) (f : Func) (w : Nat) (b : Bool) : (writeResponse s p f w b).slices = s.slices := by rw [writeResponse_only]
@[simp] theorem writeResponse_marginRec (s : State) (p : Port) (f : Func) (w : Nat) (b : Bool) : (writeResponse s p f w b).marginRec = s.marginRec := by rw [writeResponse_only]
@[simp] theorem writeResponse_marginShadow (s : State) (p : Port) (f : Func) (w : Nat) (b : Bool) : (writeResponse s p f w b).marginShadow = s.marginShadow := by rw [writeResponse_only]
@[simp] theorem writeResponse_margins (s : State) (p : Port) (f : Func) (w : Nat) (b : Bool) : (writeResponse s p f w b).margins = s.margins := by rw [writeResponse_only]
@[simp] theorem writeResponse_counters (s : State) (p : Port) (f : Func) (w : Nat) (b : Bool) : (writeResponse s p f w b).counters = s.counters := by rw [writeResponse_only]
@[simp] theorem writeResponse_chans (s : State) (p : Port) (f : Func) (w : Nat) (b : Bool) : (writeResponse s p f w b).chans = s.chans := by rw [writeResponse_only]
@[simp] theorem writeResponse_rowOps (s : State) (p : Port) (f : Func) (w : Nat) (b : Bool) : (writeResponse s p f w b).rowOps = s.rowOps := by rw [writeResponse_only]
@[simp] theorem writeResponse_rowOpNo (s : State) (p : Port) (f : Func) (w : Nat) (b : Bool) : (writeResponse s p f w b).rowOpNo = s.rowOpNo := by rw [writeResponse_only]
@[simp] theorem writeResponse_bulk (s : State) (p : Port) (f : Func) (w : Nat) (b : Bool) : (writeResponse s p f w b).bulk = s.bulk := by rw [writeResponse_only]
@[simp] theorem writeResponse_mem (s : State) (p : Port) (f : Func) (w : Nat) (b : Bool) : (writeResponse s p f w b).mem = s.mem := by rw [writeResponse_only]
@[simp] theorem writeResponse_seqs (s : State) (p : Port) (f : Func) (w : Nat) (b : Bool) : (writeResponse s p f w b).seqs = s.seqs := by rw [writeResponse_only]
@[simp] theorem writeResponse_seqGen (s : State) (p : Port) (f : Func) (w : Nat) (b : Bool) : (writeResponse s p f w b).seqGen = s.seqGen := by rw [writeResponse_only]
@[simp] theorem writeResponse_models (s : State) (p : Port) (f : Func) (w : Nat) (b : Bool) : (writeResponse s p f w b).models = s.models := by rw [writeResponse_only]
@[simp] theorem writeResponse_courses (s : State) (p : Port) (f : Func) (w : Nat) (b : Bool) : (writeResponse s p f w b).courses = s.courses := by rw [writeResponse_only]
@[simp] theorem writeResponse_heats (s : State) (p : Port) (f : Func) (w : Nat) (b : Bool) : (writeResponse s p f w b).heats = s.heats := by rw [writeResponse_only]
@[simp] theorem writeResponse_place (s : State) (p : Port) (f : Func) (w : Nat) (b : Bool) : (writeResponse s p f w b).place = s.place := by rw [writeResponse_only]
@[simp] theorem writeResponse_net (s : State) (p : Port) (f : Func) (w : Nat) (b : Bool) : (writeResponse s p f w b).net = s.net := by rw [writeResponse_only]
@[simp] theorem writeResponse_dir (s : State) (p : Port) (f : Func) (w : Nat) (b : Bool) : (writeResponse s p f w b).dir = s.dir := by rw [writeResponse_only]
@[simp] theorem writeResponse_sel (s : State) (p : Port) (f : Func) (w : Nat) (b : Bool) : (writeResponse s p f w b).sel = s.sel := by rw [writeResponse_only]
@[simp] theorem writeResponse_scratch (s : State) (p : Port) (f : Func) (w : Nat) (b : Bool) : (writeResponse s p f w b).scratch = s.scratch := by rw [writeResponse_only]
@[simp] theorem writeResponse_buffer (s : State) (p : Port) (f : Func) (w : Nat) (b : Bool) : (writeResponse s p f w b).buffer = s.buffer := by rw [writeResponse_only]
@[simp] theorem writeResponse_acct (s : State) (p : Port) (f : Func) (w : Nat) (b : Bool) : (writeResponse s p f w b).acct = s.acct := by rw [writeResponse_only]
@[simp] theorem writeResponse_closed (s : State) (p : Port) (f : Func) (w : Nat) (b : Bool) : (writeResponse s p f w b).closed = s.closed := by rw [writeResponse_only]
@[simp] theorem writeResponse_nodeRecs (s : State) (p : Port) (f : Func) (w : Nat) (b : Bool) : (writeResponse s p f w b).nodeRecs = s.nodeRecs := by rw [writeResponse_only]
@[simp] theorem writeResponse_heldNext (s : State) (p : Port) (f : Func) (w : Nat) (b : Bool) : (writeResponse s p f w b).heldNext = s.heldNext := by rw [writeResponse_only]
@[simp] theorem writeResponse_shares (s : State) (p : Port) (f : Func) (w : Nat) (b : Bool) : (writeResponse s p f w b).shares = s.shares := by rw [writeResponse_only]
@[simp] theorem writeResponse_shareShadow (s : State) (p : Port) (f : Func) (w : Nat) (b : Bool) : (writeResponse s p f w b).shareShadow = s.shareShadow := by rw [writeResponse_only]
@[simp] theorem writeResponse_arb (s : State) (p : Port) (f : Func) (w : Nat) (b : Bool) : (writeResponse s p f w b).arb = s.arb := by rw [writeResponse_only]
@[simp] theorem writeResponse_arbShadow (s : State) (p : Port) (f : Func) (w : Nat) (b : Bool) : (writeResponse s p f w b).arbShadow = s.arbShadow := by rw [writeResponse_only]
@[simp] theorem writeResponse_deficits (s : State) (p : Port) (f : Func) (w : Nat) (b : Bool) : (writeResponse s p f w b).deficits = s.deficits := by rw [writeResponse_only]
@[simp] theorem writeResponse_dma (s : State) (p : Port) (f : Func) (w : Nat) (b : Bool) : (writeResponse s p f w b).dma = s.dma := by rw [writeResponse_only]
@[simp] theorem writeResponse_nodeNo (s : State) (p : Port) (f : Func) (w : Nat) (b : Bool) : (writeResponse s p f w b).nodeNo = s.nodeNo := by rw [writeResponse_only]
@[simp] theorem writeResponse_partition (s : State) (p : Port) (f : Func) (w : Nat) (b : Bool) : (writeResponse s p f w b).partition = s.partition := by rw [writeResponse_only]
@[simp] theorem writeResponse_fenced (s : State) (p : Port) (f : Func) (w : Nat) (b : Bool) : (writeResponse s p f w b).fenced = s.fenced := by rw [writeResponse_only]

/-! ### respond -/

theorem respond_only (s : State) (p : Port) (f : Func) (n op tag dom : Nat) (st : Status) (r a : Nat) (b c : Bool) :
    respond s p f n op tag dom st r a b c = { s with funcs := (respond s p f n op tag dom st r a b c).funcs, out := (respond s p f n op tag dom st r a b c).out, delayed := (respond s p f n op tag dom st r a b c).delayed } := by
  unfold respond
  dsimp only
  split
  · rfl
  · rw [writeResponse_only]

@[simp] theorem respond_pending (s : State) (p : Port) (f : Func) (n op tag dom : Nat) (st : Status) (r a : Nat) (b c : Bool) : (respond s p f n op tag dom st r a b c).pending = s.pending := by rw [respond_only]
@[simp] theorem respond_free (s : State) (p : Port) (f : Func) (n op tag dom : Nat) (st : Status) (r a : Nat) (b c : Bool) : (respond s p f n op tag dom st r a b c).free = s.free := by rw [respond_only]
@[simp] theorem respond_boot (s : State) (p : Port) (f : Func) (n op tag dom : Nat) (st : Status) (r a : Nat) (b c : Bool) : (respond s p f n op tag dom st r a b c).boot = s.boot := by rw [respond_only]
@[simp] theorem respond_port0 (s : State) (p : Port) (f : Func) (n op tag dom : Nat) (st : Status) (r a : Nat) (b c : Bool) : (respond s p f n op tag dom st r a b c).port0 = s.port0 := by rw [respond_only]
@[simp] theorem respond_port1 (s : State) (p : Port) (f : Func) (n op tag dom : Nat) (st : Status) (r a : Nat) (b c : Bool) : (respond s p f n op tag dom st r a b c).port1 = s.port1 := by rw [respond_only]
@[simp] theorem respond_clusters (s : State) (p : Port) (f : Func) (n op tag dom : Nat) (st : Status) (r a : Nat) (b c : Bool) : (respond s p f n op tag dom st r a b c).clusters = s.clusters := by rw [respond_only]
@[simp] theorem respond_thermal (s : State) (p : Port) (f : Func) (n op tag dom : Nat) (st : Status) (r a : Nat) (b c : Bool) : (respond s p f n op tag dom st r a b c).thermal = s.thermal := by rw [respond_only]
@[simp] theorem respond_cal (s : State) (p : Port) (f : Func) (n op tag dom : Nat) (st : Status) (r a : Nat) (b c : Bool) : (respond s p f n op tag dom st r a b c).cal = s.cal := by rw [respond_only]
@[simp] theorem respond_time (s : State) (p : Port) (f : Func) (n op tag dom : Nat) (st : Status) (r a : Nat) (b c : Bool) : (respond s p f n op tag dom st r a b c).time = s.time := by rw [respond_only]
@[simp] theorem respond_flights (s : State) (p : Port) (f : Func) (n op tag dom : Nat) (st : Status) (r a : Nat) (b c : Bool) : (respond s p f n op tag dom st r a b c).flights = s.flights := by rw [respond_only]
@[simp] theorem respond_sec (s : State) (p : Port) (f : Func) (n op tag dom : Nat) (st : Status) (r a : Nat) (b c : Bool) : (respond s p f n op tag dom st r a b c).sec = s.sec := by rw [respond_only]
@[simp] theorem respond_domains (s : State) (p : Port) (f : Func) (n op tag dom : Nat) (st : Status) (r a : Nat) (b c : Bool) : (respond s p f n op tag dom st r a b c).domains = s.domains := by rw [respond_only]
@[simp] theorem respond_slices (s : State) (p : Port) (f : Func) (n op tag dom : Nat) (st : Status) (r a : Nat) (b c : Bool) : (respond s p f n op tag dom st r a b c).slices = s.slices := by rw [respond_only]
@[simp] theorem respond_marginRec (s : State) (p : Port) (f : Func) (n op tag dom : Nat) (st : Status) (r a : Nat) (b c : Bool) : (respond s p f n op tag dom st r a b c).marginRec = s.marginRec := by rw [respond_only]
@[simp] theorem respond_marginShadow (s : State) (p : Port) (f : Func) (n op tag dom : Nat) (st : Status) (r a : Nat) (b c : Bool) : (respond s p f n op tag dom st r a b c).marginShadow = s.marginShadow := by rw [respond_only]
@[simp] theorem respond_margins (s : State) (p : Port) (f : Func) (n op tag dom : Nat) (st : Status) (r a : Nat) (b c : Bool) : (respond s p f n op tag dom st r a b c).margins = s.margins := by rw [respond_only]
@[simp] theorem respond_counters (s : State) (p : Port) (f : Func) (n op tag dom : Nat) (st : Status) (r a : Nat) (b c : Bool) : (respond s p f n op tag dom st r a b c).counters = s.counters := by rw [respond_only]
@[simp] theorem respond_chans (s : State) (p : Port) (f : Func) (n op tag dom : Nat) (st : Status) (r a : Nat) (b c : Bool) : (respond s p f n op tag dom st r a b c).chans = s.chans := by rw [respond_only]
@[simp] theorem respond_rowOps (s : State) (p : Port) (f : Func) (n op tag dom : Nat) (st : Status) (r a : Nat) (b c : Bool) : (respond s p f n op tag dom st r a b c).rowOps = s.rowOps := by rw [respond_only]
@[simp] theorem respond_rowOpNo (s : State) (p : Port) (f : Func) (n op tag dom : Nat) (st : Status) (r a : Nat) (b c : Bool) : (respond s p f n op tag dom st r a b c).rowOpNo = s.rowOpNo := by rw [respond_only]
@[simp] theorem respond_bulk (s : State) (p : Port) (f : Func) (n op tag dom : Nat) (st : Status) (r a : Nat) (b c : Bool) : (respond s p f n op tag dom st r a b c).bulk = s.bulk := by rw [respond_only]
@[simp] theorem respond_mem (s : State) (p : Port) (f : Func) (n op tag dom : Nat) (st : Status) (r a : Nat) (b c : Bool) : (respond s p f n op tag dom st r a b c).mem = s.mem := by rw [respond_only]
@[simp] theorem respond_seqs (s : State) (p : Port) (f : Func) (n op tag dom : Nat) (st : Status) (r a : Nat) (b c : Bool) : (respond s p f n op tag dom st r a b c).seqs = s.seqs := by rw [respond_only]
@[simp] theorem respond_seqGen (s : State) (p : Port) (f : Func) (n op tag dom : Nat) (st : Status) (r a : Nat) (b c : Bool) : (respond s p f n op tag dom st r a b c).seqGen = s.seqGen := by rw [respond_only]
@[simp] theorem respond_models (s : State) (p : Port) (f : Func) (n op tag dom : Nat) (st : Status) (r a : Nat) (b c : Bool) : (respond s p f n op tag dom st r a b c).models = s.models := by rw [respond_only]
@[simp] theorem respond_courses (s : State) (p : Port) (f : Func) (n op tag dom : Nat) (st : Status) (r a : Nat) (b c : Bool) : (respond s p f n op tag dom st r a b c).courses = s.courses := by rw [respond_only]
@[simp] theorem respond_heats (s : State) (p : Port) (f : Func) (n op tag dom : Nat) (st : Status) (r a : Nat) (b c : Bool) : (respond s p f n op tag dom st r a b c).heats = s.heats := by rw [respond_only]
@[simp] theorem respond_place (s : State) (p : Port) (f : Func) (n op tag dom : Nat) (st : Status) (r a : Nat) (b c : Bool) : (respond s p f n op tag dom st r a b c).place = s.place := by rw [respond_only]
@[simp] theorem respond_net (s : State) (p : Port) (f : Func) (n op tag dom : Nat) (st : Status) (r a : Nat) (b c : Bool) : (respond s p f n op tag dom st r a b c).net = s.net := by rw [respond_only]
@[simp] theorem respond_dir (s : State) (p : Port) (f : Func) (n op tag dom : Nat) (st : Status) (r a : Nat) (b c : Bool) : (respond s p f n op tag dom st r a b c).dir = s.dir := by rw [respond_only]
@[simp] theorem respond_sel (s : State) (p : Port) (f : Func) (n op tag dom : Nat) (st : Status) (r a : Nat) (b c : Bool) : (respond s p f n op tag dom st r a b c).sel = s.sel := by rw [respond_only]
@[simp] theorem respond_scratch (s : State) (p : Port) (f : Func) (n op tag dom : Nat) (st : Status) (r a : Nat) (b c : Bool) : (respond s p f n op tag dom st r a b c).scratch = s.scratch := by rw [respond_only]
@[simp] theorem respond_buffer (s : State) (p : Port) (f : Func) (n op tag dom : Nat) (st : Status) (r a : Nat) (b c : Bool) : (respond s p f n op tag dom st r a b c).buffer = s.buffer := by rw [respond_only]
@[simp] theorem respond_acct (s : State) (p : Port) (f : Func) (n op tag dom : Nat) (st : Status) (r a : Nat) (b c : Bool) : (respond s p f n op tag dom st r a b c).acct = s.acct := by rw [respond_only]
@[simp] theorem respond_closed (s : State) (p : Port) (f : Func) (n op tag dom : Nat) (st : Status) (r a : Nat) (b c : Bool) : (respond s p f n op tag dom st r a b c).closed = s.closed := by rw [respond_only]
@[simp] theorem respond_nodeRecs (s : State) (p : Port) (f : Func) (n op tag dom : Nat) (st : Status) (r a : Nat) (b c : Bool) : (respond s p f n op tag dom st r a b c).nodeRecs = s.nodeRecs := by rw [respond_only]
@[simp] theorem respond_heldNext (s : State) (p : Port) (f : Func) (n op tag dom : Nat) (st : Status) (r a : Nat) (b c : Bool) : (respond s p f n op tag dom st r a b c).heldNext = s.heldNext := by rw [respond_only]
@[simp] theorem respond_shares (s : State) (p : Port) (f : Func) (n op tag dom : Nat) (st : Status) (r a : Nat) (b c : Bool) : (respond s p f n op tag dom st r a b c).shares = s.shares := by rw [respond_only]
@[simp] theorem respond_shareShadow (s : State) (p : Port) (f : Func) (n op tag dom : Nat) (st : Status) (r a : Nat) (b c : Bool) : (respond s p f n op tag dom st r a b c).shareShadow = s.shareShadow := by rw [respond_only]
@[simp] theorem respond_arb (s : State) (p : Port) (f : Func) (n op tag dom : Nat) (st : Status) (r a : Nat) (b c : Bool) : (respond s p f n op tag dom st r a b c).arb = s.arb := by rw [respond_only]
@[simp] theorem respond_arbShadow (s : State) (p : Port) (f : Func) (n op tag dom : Nat) (st : Status) (r a : Nat) (b c : Bool) : (respond s p f n op tag dom st r a b c).arbShadow = s.arbShadow := by rw [respond_only]
@[simp] theorem respond_deficits (s : State) (p : Port) (f : Func) (n op tag dom : Nat) (st : Status) (r a : Nat) (b c : Bool) : (respond s p f n op tag dom st r a b c).deficits = s.deficits := by rw [respond_only]
@[simp] theorem respond_dma (s : State) (p : Port) (f : Func) (n op tag dom : Nat) (st : Status) (r a : Nat) (b c : Bool) : (respond s p f n op tag dom st r a b c).dma = s.dma := by rw [respond_only]
@[simp] theorem respond_nodeNo (s : State) (p : Port) (f : Func) (n op tag dom : Nat) (st : Status) (r a : Nat) (b c : Bool) : (respond s p f n op tag dom st r a b c).nodeNo = s.nodeNo := by rw [respond_only]
@[simp] theorem respond_partition (s : State) (p : Port) (f : Func) (n op tag dom : Nat) (st : Status) (r a : Nat) (b c : Bool) : (respond s p f n op tag dom st r a b c).partition = s.partition := by rw [respond_only]
@[simp] theorem respond_fenced (s : State) (p : Port) (f : Func) (n op tag dom : Nat) (st : Status) (r a : Nat) (b c : Bool) : (respond s p f n op tag dom st r a b c).fenced = s.fenced := by rw [respond_only]

/-! ### deliver -/

theorem deliver_only (s : State) (w : Nat) (pf : Port × Func) :
    deliver s w pf = { s with funcs := (deliver s w pf).funcs, out := (deliver s w pf).out } := by
  unfold deliver
  dsimp only
  split
  · split
    · rw [signalRing_only]; rfl
    · rfl
  · rfl

@[simp] theorem deliver_pending (s : State) (w : Nat) (pf : Port × Func) : (deliver s w pf).pending = s.pending := by rw [deliver_only]
@[simp] theorem deliver_free (s : State) (w : Nat) (pf : Port × Func) : (deliver s w pf).free = s.free := by rw [deliver_only]
@[simp] theorem deliver_boot (s : State) (w : Nat) (pf : Port × Func) : (deliver s w pf).boot = s.boot := by rw [deliver_only]
@[simp] theorem deliver_port0 (s : State) (w : Nat) (pf : Port × Func) : (deliver s w pf).port0 = s.port0 := by rw [deliver_only]
@[simp] theorem deliver_port1 (s : State) (w : Nat) (pf : Port × Func) : (deliver s w pf).port1 = s.port1 := by rw [deliver_only]
@[simp] theorem deliver_clusters (s : State) (w : Nat) (pf : Port × Func) : (deliver s w pf).clusters = s.clusters := by rw [deliver_only]
@[simp] theorem deliver_thermal (s : State) (w : Nat) (pf : Port × Func) : (deliver s w pf).thermal = s.thermal := by rw [deliver_only]
@[simp] theorem deliver_cal (s : State) (w : Nat) (pf : Port × Func) : (deliver s w pf).cal = s.cal := by rw [deliver_only]
@[simp] theorem deliver_time (s : State) (w : Nat) (pf : Port × Func) : (deliver s w pf).time = s.time := by rw [deliver_only]
@[simp] theorem deliver_flights (s : State) (w : Nat) (pf : Port × Func) : (deliver s w pf).flights = s.flights := by rw [deliver_only]
@[simp] theorem deliver_delayed (s : State) (w : Nat) (pf : Port × Func) : (deliver s w pf).delayed = s.delayed := by rw [deliver_only]
@[simp] theorem deliver_sec (s : State) (w : Nat) (pf : Port × Func) : (deliver s w pf).sec = s.sec := by rw [deliver_only]
@[simp] theorem deliver_domains (s : State) (w : Nat) (pf : Port × Func) : (deliver s w pf).domains = s.domains := by rw [deliver_only]
@[simp] theorem deliver_slices (s : State) (w : Nat) (pf : Port × Func) : (deliver s w pf).slices = s.slices := by rw [deliver_only]
@[simp] theorem deliver_marginRec (s : State) (w : Nat) (pf : Port × Func) : (deliver s w pf).marginRec = s.marginRec := by rw [deliver_only]
@[simp] theorem deliver_marginShadow (s : State) (w : Nat) (pf : Port × Func) : (deliver s w pf).marginShadow = s.marginShadow := by rw [deliver_only]
@[simp] theorem deliver_margins (s : State) (w : Nat) (pf : Port × Func) : (deliver s w pf).margins = s.margins := by rw [deliver_only]
@[simp] theorem deliver_counters (s : State) (w : Nat) (pf : Port × Func) : (deliver s w pf).counters = s.counters := by rw [deliver_only]
@[simp] theorem deliver_chans (s : State) (w : Nat) (pf : Port × Func) : (deliver s w pf).chans = s.chans := by rw [deliver_only]
@[simp] theorem deliver_rowOps (s : State) (w : Nat) (pf : Port × Func) : (deliver s w pf).rowOps = s.rowOps := by rw [deliver_only]
@[simp] theorem deliver_rowOpNo (s : State) (w : Nat) (pf : Port × Func) : (deliver s w pf).rowOpNo = s.rowOpNo := by rw [deliver_only]
@[simp] theorem deliver_bulk (s : State) (w : Nat) (pf : Port × Func) : (deliver s w pf).bulk = s.bulk := by rw [deliver_only]
@[simp] theorem deliver_mem (s : State) (w : Nat) (pf : Port × Func) : (deliver s w pf).mem = s.mem := by rw [deliver_only]
@[simp] theorem deliver_seqs (s : State) (w : Nat) (pf : Port × Func) : (deliver s w pf).seqs = s.seqs := by rw [deliver_only]
@[simp] theorem deliver_seqGen (s : State) (w : Nat) (pf : Port × Func) : (deliver s w pf).seqGen = s.seqGen := by rw [deliver_only]
@[simp] theorem deliver_models (s : State) (w : Nat) (pf : Port × Func) : (deliver s w pf).models = s.models := by rw [deliver_only]
@[simp] theorem deliver_courses (s : State) (w : Nat) (pf : Port × Func) : (deliver s w pf).courses = s.courses := by rw [deliver_only]
@[simp] theorem deliver_heats (s : State) (w : Nat) (pf : Port × Func) : (deliver s w pf).heats = s.heats := by rw [deliver_only]
@[simp] theorem deliver_place (s : State) (w : Nat) (pf : Port × Func) : (deliver s w pf).place = s.place := by rw [deliver_only]
@[simp] theorem deliver_net (s : State) (w : Nat) (pf : Port × Func) : (deliver s w pf).net = s.net := by rw [deliver_only]
@[simp] theorem deliver_dir (s : State) (w : Nat) (pf : Port × Func) : (deliver s w pf).dir = s.dir := by rw [deliver_only]
@[simp] theorem deliver_sel (s : State) (w : Nat) (pf : Port × Func) : (deliver s w pf).sel = s.sel := by rw [deliver_only]
@[simp] theorem deliver_scratch (s : State) (w : Nat) (pf : Port × Func) : (deliver s w pf).scratch = s.scratch := by rw [deliver_only]
@[simp] theorem deliver_buffer (s : State) (w : Nat) (pf : Port × Func) : (deliver s w pf).buffer = s.buffer := by rw [deliver_only]
@[simp] theorem deliver_acct (s : State) (w : Nat) (pf : Port × Func) : (deliver s w pf).acct = s.acct := by rw [deliver_only]
@[simp] theorem deliver_closed (s : State) (w : Nat) (pf : Port × Func) : (deliver s w pf).closed = s.closed := by rw [deliver_only]
@[simp] theorem deliver_nodeRecs (s : State) (w : Nat) (pf : Port × Func) : (deliver s w pf).nodeRecs = s.nodeRecs := by rw [deliver_only]
@[simp] theorem deliver_heldNext (s : State) (w : Nat) (pf : Port × Func) : (deliver s w pf).heldNext = s.heldNext := by rw [deliver_only]
@[simp] theorem deliver_shares (s : State) (w : Nat) (pf : Port × Func) : (deliver s w pf).shares = s.shares := by rw [deliver_only]
@[simp] theorem deliver_shareShadow (s : State) (w : Nat) (pf : Port × Func) : (deliver s w pf).shareShadow = s.shareShadow := by rw [deliver_only]
@[simp] theorem deliver_arb (s : State) (w : Nat) (pf : Port × Func) : (deliver s w pf).arb = s.arb := by rw [deliver_only]
@[simp] theorem deliver_arbShadow (s : State) (w : Nat) (pf : Port × Func) : (deliver s w pf).arbShadow = s.arbShadow := by rw [deliver_only]
@[simp] theorem deliver_deficits (s : State) (w : Nat) (pf : Port × Func) : (deliver s w pf).deficits = s.deficits := by rw [deliver_only]
@[simp] theorem deliver_dma (s : State) (w : Nat) (pf : Port × Func) : (deliver s w pf).dma = s.dma := by rw [deliver_only]
@[simp] theorem deliver_nodeNo (s : State) (w : Nat) (pf : Port × Func) : (deliver s w pf).nodeNo = s.nodeNo := by rw [deliver_only]
@[simp] theorem deliver_partition (s : State) (w : Nat) (pf : Port × Func) : (deliver s w pf).partition = s.partition := by rw [deliver_only]
@[simp] theorem deliver_fenced (s : State) (w : Nat) (pf : Port × Func) : (deliver s w pf).fenced = s.fenced := by rw [deliver_only]

/-! ### deliverAll -/

theorem deliverAll_only (s : State) (w : Nat) (l : List (Port × Func)) :
    deliverAll s w l = { s with funcs := (deliverAll s w l).funcs, out := (deliverAll s w l).out } := by
  unfold deliverAll
  induction l generalizing s with
  | nil => rfl
  | cons a l ih => rw [List.foldl_cons, ih, deliver_only]

@[simp] theorem deliverAll_pending (s : State) (w : Nat) (l : List (Port × Func)) : (deliverAll s w l).pending = s.pending := by rw [deliverAll_only]
@[simp] theorem deliverAll_free (s : State) (w : Nat) (l : List (Port × Func)) : (deliverAll s w l).free = s.free := by rw [deliverAll_only]
@[simp] theorem deliverAll_boot (s : State) (w : Nat) (l : List (Port × Func)) : (deliverAll s w l).boot = s.boot := by rw [deliverAll_only]
@[simp] theorem deliverAll_port0 (s : State) (w : Nat) (l : List (Port × Func)) : (deliverAll s w l).port0 = s.port0 := by rw [deliverAll_only]
@[simp] theorem deliverAll_port1 (s : State) (w : Nat) (l : List (Port × Func)) : (deliverAll s w l).port1 = s.port1 := by rw [deliverAll_only]
@[simp] theorem deliverAll_clusters (s : State) (w : Nat) (l : List (Port × Func)) : (deliverAll s w l).clusters = s.clusters := by rw [deliverAll_only]
@[simp] theorem deliverAll_thermal (s : State) (w : Nat) (l : List (Port × Func)) : (deliverAll s w l).thermal = s.thermal := by rw [deliverAll_only]
@[simp] theorem deliverAll_cal (s : State) (w : Nat) (l : List (Port × Func)) : (deliverAll s w l).cal = s.cal := by rw [deliverAll_only]
@[simp] theorem deliverAll_time (s : State) (w : Nat) (l : List (Port × Func)) : (deliverAll s w l).time = s.time := by rw [deliverAll_only]
@[simp] theorem deliverAll_flights (s : State) (w : Nat) (l : List (Port × Func)) : (deliverAll s w l).flights = s.flights := by rw [deliverAll_only]
@[simp] theorem deliverAll_delayed (s : State) (w : Nat) (l : List (Port × Func)) : (deliverAll s w l).delayed = s.delayed := by rw [deliverAll_only]
@[simp] theorem deliverAll_sec (s : State) (w : Nat) (l : List (Port × Func)) : (deliverAll s w l).sec = s.sec := by rw [deliverAll_only]
@[simp] theorem deliverAll_domains (s : State) (w : Nat) (l : List (Port × Func)) : (deliverAll s w l).domains = s.domains := by rw [deliverAll_only]
@[simp] theorem deliverAll_slices (s : State) (w : Nat) (l : List (Port × Func)) : (deliverAll s w l).slices = s.slices := by rw [deliverAll_only]
@[simp] theorem deliverAll_marginRec (s : State) (w : Nat) (l : List (Port × Func)) : (deliverAll s w l).marginRec = s.marginRec := by rw [deliverAll_only]
@[simp] theorem deliverAll_marginShadow (s : State) (w : Nat) (l : List (Port × Func)) : (deliverAll s w l).marginShadow = s.marginShadow := by rw [deliverAll_only]
@[simp] theorem deliverAll_margins (s : State) (w : Nat) (l : List (Port × Func)) : (deliverAll s w l).margins = s.margins := by rw [deliverAll_only]
@[simp] theorem deliverAll_counters (s : State) (w : Nat) (l : List (Port × Func)) : (deliverAll s w l).counters = s.counters := by rw [deliverAll_only]
@[simp] theorem deliverAll_chans (s : State) (w : Nat) (l : List (Port × Func)) : (deliverAll s w l).chans = s.chans := by rw [deliverAll_only]
@[simp] theorem deliverAll_rowOps (s : State) (w : Nat) (l : List (Port × Func)) : (deliverAll s w l).rowOps = s.rowOps := by rw [deliverAll_only]
@[simp] theorem deliverAll_rowOpNo (s : State) (w : Nat) (l : List (Port × Func)) : (deliverAll s w l).rowOpNo = s.rowOpNo := by rw [deliverAll_only]
@[simp] theorem deliverAll_bulk (s : State) (w : Nat) (l : List (Port × Func)) : (deliverAll s w l).bulk = s.bulk := by rw [deliverAll_only]
@[simp] theorem deliverAll_mem (s : State) (w : Nat) (l : List (Port × Func)) : (deliverAll s w l).mem = s.mem := by rw [deliverAll_only]
@[simp] theorem deliverAll_seqs (s : State) (w : Nat) (l : List (Port × Func)) : (deliverAll s w l).seqs = s.seqs := by rw [deliverAll_only]
@[simp] theorem deliverAll_seqGen (s : State) (w : Nat) (l : List (Port × Func)) : (deliverAll s w l).seqGen = s.seqGen := by rw [deliverAll_only]
@[simp] theorem deliverAll_models (s : State) (w : Nat) (l : List (Port × Func)) : (deliverAll s w l).models = s.models := by rw [deliverAll_only]
@[simp] theorem deliverAll_courses (s : State) (w : Nat) (l : List (Port × Func)) : (deliverAll s w l).courses = s.courses := by rw [deliverAll_only]
@[simp] theorem deliverAll_heats (s : State) (w : Nat) (l : List (Port × Func)) : (deliverAll s w l).heats = s.heats := by rw [deliverAll_only]
@[simp] theorem deliverAll_place (s : State) (w : Nat) (l : List (Port × Func)) : (deliverAll s w l).place = s.place := by rw [deliverAll_only]
@[simp] theorem deliverAll_net (s : State) (w : Nat) (l : List (Port × Func)) : (deliverAll s w l).net = s.net := by rw [deliverAll_only]
@[simp] theorem deliverAll_dir (s : State) (w : Nat) (l : List (Port × Func)) : (deliverAll s w l).dir = s.dir := by rw [deliverAll_only]
@[simp] theorem deliverAll_sel (s : State) (w : Nat) (l : List (Port × Func)) : (deliverAll s w l).sel = s.sel := by rw [deliverAll_only]
@[simp] theorem deliverAll_scratch (s : State) (w : Nat) (l : List (Port × Func)) : (deliverAll s w l).scratch = s.scratch := by rw [deliverAll_only]
@[simp] theorem deliverAll_buffer (s : State) (w : Nat) (l : List (Port × Func)) : (deliverAll s w l).buffer = s.buffer := by rw [deliverAll_only]
@[simp] theorem deliverAll_acct (s : State) (w : Nat) (l : List (Port × Func)) : (deliverAll s w l).acct = s.acct := by rw [deliverAll_only]
@[simp] theorem deliverAll_closed (s : State) (w : Nat) (l : List (Port × Func)) : (deliverAll s w l).closed = s.closed := by rw [deliverAll_only]
@[simp] theorem deliverAll_nodeRecs (s : State) (w : Nat) (l : List (Port × Func)) : (deliverAll s w l).nodeRecs = s.nodeRecs := by rw [deliverAll_only]
@[simp] theorem deliverAll_heldNext (s : State) (w : Nat) (l : List (Port × Func)) : (deliverAll s w l).heldNext = s.heldNext := by rw [deliverAll_only]
@[simp] theorem deliverAll_shares (s : State) (w : Nat) (l : List (Port × Func)) : (deliverAll s w l).shares = s.shares := by rw [deliverAll_only]
@[simp] theorem deliverAll_shareShadow (s : State) (w : Nat) (l : List (Port × Func)) : (deliverAll s w l).shareShadow = s.shareShadow := by rw [deliverAll_only]
@[simp] theorem deliverAll_arb (s : State) (w : Nat) (l : List (Port × Func)) : (deliverAll s w l).arb = s.arb := by rw [deliverAll_only]
@[simp] theorem deliverAll_arbShadow (s : State) (w : Nat) (l : List (Port × Func)) : (deliverAll s w l).arbShadow = s.arbShadow := by rw [deliverAll_only]
@[simp] theorem deliverAll_deficits (s : State) (w : Nat) (l : List (Port × Func)) : (deliverAll s w l).deficits = s.deficits := by rw [deliverAll_only]
@[simp] theorem deliverAll_dma (s : State) (w : Nat) (l : List (Port × Func)) : (deliverAll s w l).dma = s.dma := by rw [deliverAll_only]
@[simp] theorem deliverAll_nodeNo (s : State) (w : Nat) (l : List (Port × Func)) : (deliverAll s w l).nodeNo = s.nodeNo := by rw [deliverAll_only]
@[simp] theorem deliverAll_partition (s : State) (w : Nat) (l : List (Port × Func)) : (deliverAll s w l).partition = s.partition := by rw [deliverAll_only]
@[simp] theorem deliverAll_fenced (s : State) (w : Nat) (l : List (Port × Func)) : (deliverAll s w l).fenced = s.fenced := by rw [deliverAll_only]

/-! ### raiseNode -/

theorem raiseNode_only (s : State) (c r o d x : Nat) :
    raiseNode s c r o d x = { s with funcs := (raiseNode s c r o d x).funcs, out := (raiseNode s c r o d x).out, boot := (raiseNode s c r o d x).boot } := by
  unfold raiseNode
  dsimp only
  split
  · rfl
  · rw [deliverAll_only]

@[simp] theorem raiseNode_pending (s : State) (c r o d x : Nat) : (raiseNode s c r o d x).pending = s.pending := by rw [raiseNode_only]
@[simp] theorem raiseNode_free (s : State) (c r o d x : Nat) : (raiseNode s c r o d x).free = s.free := by rw [raiseNode_only]
@[simp] theorem raiseNode_port0 (s : State) (c r o d x : Nat) : (raiseNode s c r o d x).port0 = s.port0 := by rw [raiseNode_only]
@[simp] theorem raiseNode_port1 (s : State) (c r o d x : Nat) : (raiseNode s c r o d x).port1 = s.port1 := by rw [raiseNode_only]
@[simp] theorem raiseNode_clusters (s : State) (c r o d x : Nat) : (raiseNode s c r o d x).clusters = s.clusters := by rw [raiseNode_only]
@[simp] theorem raiseNode_thermal (s : State) (c r o d x : Nat) : (raiseNode s c r o d x).thermal = s.thermal := by rw [raiseNode_only]
@[simp] theorem raiseNode_cal (s : State) (c r o d x : Nat) : (raiseNode s c r o d x).cal = s.cal := by rw [raiseNode_only]
@[simp] theorem raiseNode_time (s : State) (c r o d x : Nat) : (raiseNode s c r o d x).time = s.time := by rw [raiseNode_only]
@[simp] theorem raiseNode_flights (s : State) (c r o d x : Nat) : (raiseNode s c r o d x).flights = s.flights := by rw [raiseNode_only]
@[simp] theorem raiseNode_delayed (s : State) (c r o d x : Nat) : (raiseNode s c r o d x).delayed = s.delayed := by rw [raiseNode_only]
@[simp] theorem raiseNode_sec (s : State) (c r o d x : Nat) : (raiseNode s c r o d x).sec = s.sec := by rw [raiseNode_only]
@[simp] theorem raiseNode_domains (s : State) (c r o d x : Nat) : (raiseNode s c r o d x).domains = s.domains := by rw [raiseNode_only]
@[simp] theorem raiseNode_slices (s : State) (c r o d x : Nat) : (raiseNode s c r o d x).slices = s.slices := by rw [raiseNode_only]
@[simp] theorem raiseNode_marginRec (s : State) (c r o d x : Nat) : (raiseNode s c r o d x).marginRec = s.marginRec := by rw [raiseNode_only]
@[simp] theorem raiseNode_marginShadow (s : State) (c r o d x : Nat) : (raiseNode s c r o d x).marginShadow = s.marginShadow := by rw [raiseNode_only]
@[simp] theorem raiseNode_margins (s : State) (c r o d x : Nat) : (raiseNode s c r o d x).margins = s.margins := by rw [raiseNode_only]
@[simp] theorem raiseNode_counters (s : State) (c r o d x : Nat) : (raiseNode s c r o d x).counters = s.counters := by rw [raiseNode_only]
@[simp] theorem raiseNode_chans (s : State) (c r o d x : Nat) : (raiseNode s c r o d x).chans = s.chans := by rw [raiseNode_only]
@[simp] theorem raiseNode_rowOps (s : State) (c r o d x : Nat) : (raiseNode s c r o d x).rowOps = s.rowOps := by rw [raiseNode_only]
@[simp] theorem raiseNode_rowOpNo (s : State) (c r o d x : Nat) : (raiseNode s c r o d x).rowOpNo = s.rowOpNo := by rw [raiseNode_only]
@[simp] theorem raiseNode_bulk (s : State) (c r o d x : Nat) : (raiseNode s c r o d x).bulk = s.bulk := by rw [raiseNode_only]
@[simp] theorem raiseNode_mem (s : State) (c r o d x : Nat) : (raiseNode s c r o d x).mem = s.mem := by rw [raiseNode_only]
@[simp] theorem raiseNode_seqs (s : State) (c r o d x : Nat) : (raiseNode s c r o d x).seqs = s.seqs := by rw [raiseNode_only]
@[simp] theorem raiseNode_seqGen (s : State) (c r o d x : Nat) : (raiseNode s c r o d x).seqGen = s.seqGen := by rw [raiseNode_only]
@[simp] theorem raiseNode_models (s : State) (c r o d x : Nat) : (raiseNode s c r o d x).models = s.models := by rw [raiseNode_only]
@[simp] theorem raiseNode_courses (s : State) (c r o d x : Nat) : (raiseNode s c r o d x).courses = s.courses := by rw [raiseNode_only]
@[simp] theorem raiseNode_heats (s : State) (c r o d x : Nat) : (raiseNode s c r o d x).heats = s.heats := by rw [raiseNode_only]
@[simp] theorem raiseNode_place (s : State) (c r o d x : Nat) : (raiseNode s c r o d x).place = s.place := by rw [raiseNode_only]
@[simp] theorem raiseNode_net (s : State) (c r o d x : Nat) : (raiseNode s c r o d x).net = s.net := by rw [raiseNode_only]
@[simp] theorem raiseNode_dir (s : State) (c r o d x : Nat) : (raiseNode s c r o d x).dir = s.dir := by rw [raiseNode_only]
@[simp] theorem raiseNode_sel (s : State) (c r o d x : Nat) : (raiseNode s c r o d x).sel = s.sel := by rw [raiseNode_only]
@[simp] theorem raiseNode_scratch (s : State) (c r o d x : Nat) : (raiseNode s c r o d x).scratch = s.scratch := by rw [raiseNode_only]
@[simp] theorem raiseNode_buffer (s : State) (c r o d x : Nat) : (raiseNode s c r o d x).buffer = s.buffer := by rw [raiseNode_only]
@[simp] theorem raiseNode_acct (s : State) (c r o d x : Nat) : (raiseNode s c r o d x).acct = s.acct := by rw [raiseNode_only]
@[simp] theorem raiseNode_closed (s : State) (c r o d x : Nat) : (raiseNode s c r o d x).closed = s.closed := by rw [raiseNode_only]
@[simp] theorem raiseNode_nodeRecs (s : State) (c r o d x : Nat) : (raiseNode s c r o d x).nodeRecs = s.nodeRecs := by rw [raiseNode_only]
@[simp] theorem raiseNode_heldNext (s : State) (c r o d x : Nat) : (raiseNode s c r o d x).heldNext = s.heldNext := by rw [raiseNode_only]
@[simp] theorem raiseNode_shares (s : State) (c r o d x : Nat) : (raiseNode s c r o d x).shares = s.shares := by rw [raiseNode_only]
@[simp] theorem raiseNode_shareShadow (s : State) (c r o d x : Nat) : (raiseNode s c r o d x).shareShadow = s.shareShadow := by rw [raiseNode_only]
@[simp] theorem raiseNode_arb (s : State) (c r o d x : Nat) : (raiseNode s c r o d x).arb = s.arb := by rw [raiseNode_only]
@[simp] theorem raiseNode_arbShadow (s : State) (c r o d x : Nat) : (raiseNode s c r o d x).arbShadow = s.arbShadow := by rw [raiseNode_only]
@[simp] theorem raiseNode_deficits (s : State) (c r o d x : Nat) : (raiseNode s c r o d x).deficits = s.deficits := by rw [raiseNode_only]
@[simp] theorem raiseNode_dma (s : State) (c r o d x : Nat) : (raiseNode s c r o d x).dma = s.dma := by rw [raiseNode_only]
@[simp] theorem raiseNode_nodeNo (s : State) (c r o d x : Nat) : (raiseNode s c r o d x).nodeNo = s.nodeNo := by rw [raiseNode_only]
@[simp] theorem raiseNode_partition (s : State) (c r o d x : Nat) : (raiseNode s c r o d x).partition = s.partition := by rw [raiseNode_only]
@[simp] theorem raiseNode_fenced (s : State) (c r o d x : Nat) : (raiseNode s c r o d x).fenced = s.fenced := by rw [raiseNode_only]

/-! ### raiseObj -/

theorem raiseObj_only (s : State) (c r o d : Nat) (p : Port) (x : Nat) (b : Bool) :
    raiseObj s c r o d p x b = { s with funcs := (raiseObj s c r o d p x b).funcs, out := (raiseObj s c r o d p x b).out } := by
  exact deliverAll_only _ _ _

@[simp] theorem raiseObj_pending (s : State) (c r o d : Nat) (p : Port) (x : Nat) (b : Bool) : (raiseObj s c r o d p x b).pending = s.pending := by rw [raiseObj_only]
@[simp] theorem raiseObj_free (s : State) (c r o d : Nat) (p : Port) (x : Nat) (b : Bool) : (raiseObj s c r o d p x b).free = s.free := by rw [raiseObj_only]
@[simp] theorem raiseObj_boot (s : State) (c r o d : Nat) (p : Port) (x : Nat) (b : Bool) : (raiseObj s c r o d p x b).boot = s.boot := by rw [raiseObj_only]
@[simp] theorem raiseObj_port0 (s : State) (c r o d : Nat) (p : Port) (x : Nat) (b : Bool) : (raiseObj s c r o d p x b).port0 = s.port0 := by rw [raiseObj_only]
@[simp] theorem raiseObj_port1 (s : State) (c r o d : Nat) (p : Port) (x : Nat) (b : Bool) : (raiseObj s c r o d p x b).port1 = s.port1 := by rw [raiseObj_only]
@[simp] theorem raiseObj_clusters (s : State) (c r o d : Nat) (p : Port) (x : Nat) (b : Bool) : (raiseObj s c r o d p x b).clusters = s.clusters := by rw [raiseObj_only]
@[simp] theorem raiseObj_thermal (s : State) (c r o d : Nat) (p : Port) (x : Nat) (b : Bool) : (raiseObj s c r o d p x b).thermal = s.thermal := by rw [raiseObj_only]
@[simp] theorem raiseObj_cal (s : State) (c r o d : Nat) (p : Port) (x : Nat) (b : Bool) : (raiseObj s c r o d p x b).cal = s.cal := by rw [raiseObj_only]
@[simp] theorem raiseObj_time (s : State) (c r o d : Nat) (p : Port) (x : Nat) (b : Bool) : (raiseObj s c r o d p x b).time = s.time := by rw [raiseObj_only]
@[simp] theorem raiseObj_flights (s : State) (c r o d : Nat) (p : Port) (x : Nat) (b : Bool) : (raiseObj s c r o d p x b).flights = s.flights := by rw [raiseObj_only]
@[simp] theorem raiseObj_delayed (s : State) (c r o d : Nat) (p : Port) (x : Nat) (b : Bool) : (raiseObj s c r o d p x b).delayed = s.delayed := by rw [raiseObj_only]
@[simp] theorem raiseObj_sec (s : State) (c r o d : Nat) (p : Port) (x : Nat) (b : Bool) : (raiseObj s c r o d p x b).sec = s.sec := by rw [raiseObj_only]
@[simp] theorem raiseObj_domains (s : State) (c r o d : Nat) (p : Port) (x : Nat) (b : Bool) : (raiseObj s c r o d p x b).domains = s.domains := by rw [raiseObj_only]
@[simp] theorem raiseObj_slices (s : State) (c r o d : Nat) (p : Port) (x : Nat) (b : Bool) : (raiseObj s c r o d p x b).slices = s.slices := by rw [raiseObj_only]
@[simp] theorem raiseObj_marginRec (s : State) (c r o d : Nat) (p : Port) (x : Nat) (b : Bool) : (raiseObj s c r o d p x b).marginRec = s.marginRec := by rw [raiseObj_only]
@[simp] theorem raiseObj_marginShadow (s : State) (c r o d : Nat) (p : Port) (x : Nat) (b : Bool) : (raiseObj s c r o d p x b).marginShadow = s.marginShadow := by rw [raiseObj_only]
@[simp] theorem raiseObj_margins (s : State) (c r o d : Nat) (p : Port) (x : Nat) (b : Bool) : (raiseObj s c r o d p x b).margins = s.margins := by rw [raiseObj_only]
@[simp] theorem raiseObj_counters (s : State) (c r o d : Nat) (p : Port) (x : Nat) (b : Bool) : (raiseObj s c r o d p x b).counters = s.counters := by rw [raiseObj_only]
@[simp] theorem raiseObj_chans (s : State) (c r o d : Nat) (p : Port) (x : Nat) (b : Bool) : (raiseObj s c r o d p x b).chans = s.chans := by rw [raiseObj_only]
@[simp] theorem raiseObj_rowOps (s : State) (c r o d : Nat) (p : Port) (x : Nat) (b : Bool) : (raiseObj s c r o d p x b).rowOps = s.rowOps := by rw [raiseObj_only]
@[simp] theorem raiseObj_rowOpNo (s : State) (c r o d : Nat) (p : Port) (x : Nat) (b : Bool) : (raiseObj s c r o d p x b).rowOpNo = s.rowOpNo := by rw [raiseObj_only]
@[simp] theorem raiseObj_bulk (s : State) (c r o d : Nat) (p : Port) (x : Nat) (b : Bool) : (raiseObj s c r o d p x b).bulk = s.bulk := by rw [raiseObj_only]
@[simp] theorem raiseObj_mem (s : State) (c r o d : Nat) (p : Port) (x : Nat) (b : Bool) : (raiseObj s c r o d p x b).mem = s.mem := by rw [raiseObj_only]
@[simp] theorem raiseObj_seqs (s : State) (c r o d : Nat) (p : Port) (x : Nat) (b : Bool) : (raiseObj s c r o d p x b).seqs = s.seqs := by rw [raiseObj_only]
@[simp] theorem raiseObj_seqGen (s : State) (c r o d : Nat) (p : Port) (x : Nat) (b : Bool) : (raiseObj s c r o d p x b).seqGen = s.seqGen := by rw [raiseObj_only]
@[simp] theorem raiseObj_models (s : State) (c r o d : Nat) (p : Port) (x : Nat) (b : Bool) : (raiseObj s c r o d p x b).models = s.models := by rw [raiseObj_only]
@[simp] theorem raiseObj_courses (s : State) (c r o d : Nat) (p : Port) (x : Nat) (b : Bool) : (raiseObj s c r o d p x b).courses = s.courses := by rw [raiseObj_only]
@[simp] theorem raiseObj_heats (s : State) (c r o d : Nat) (p : Port) (x : Nat) (b : Bool) : (raiseObj s c r o d p x b).heats = s.heats := by rw [raiseObj_only]
@[simp] theorem raiseObj_place (s : State) (c r o d : Nat) (p : Port) (x : Nat) (b : Bool) : (raiseObj s c r o d p x b).place = s.place := by rw [raiseObj_only]
@[simp] theorem raiseObj_net (s : State) (c r o d : Nat) (p : Port) (x : Nat) (b : Bool) : (raiseObj s c r o d p x b).net = s.net := by rw [raiseObj_only]
@[simp] theorem raiseObj_dir (s : State) (c r o d : Nat) (p : Port) (x : Nat) (b : Bool) : (raiseObj s c r o d p x b).dir = s.dir := by rw [raiseObj_only]
@[simp] theorem raiseObj_sel (s : State) (c r o d : Nat) (p : Port) (x : Nat) (b : Bool) : (raiseObj s c r o d p x b).sel = s.sel := by rw [raiseObj_only]
@[simp] theorem raiseObj_scratch (s : State) (c r o d : Nat) (p : Port) (x : Nat) (b : Bool) : (raiseObj s c r o d p x b).scratch = s.scratch := by rw [raiseObj_only]
@[simp] theorem raiseObj_buffer (s : State) (c r o d : Nat) (p : Port) (x : Nat) (b : Bool) : (raiseObj s c r o d p x b).buffer = s.buffer := by rw [raiseObj_only]
@[simp] theorem raiseObj_acct (s : State) (c r o d : Nat) (p : Port) (x : Nat) (b : Bool) : (raiseObj s c r o d p x b).acct = s.acct := by rw [raiseObj_only]
@[simp] theorem raiseObj_closed (s : State) (c r o d : Nat) (p : Port) (x : Nat) (b : Bool) : (raiseObj s c r o d p x b).closed = s.closed := by rw [raiseObj_only]
@[simp] theorem raiseObj_nodeRecs (s : State) (c r o d : Nat) (p : Port) (x : Nat) (b : Bool) : (raiseObj s c r o d p x b).nodeRecs = s.nodeRecs := by rw [raiseObj_only]
@[simp] theorem raiseObj_heldNext (s : State) (c r o d : Nat) (p : Port) (x : Nat) (b : Bool) : (raiseObj s c r o d p x b).heldNext = s.heldNext := by rw [raiseObj_only]
@[simp] theorem raiseObj_shares (s : State) (c r o d : Nat) (p : Port) (x : Nat) (b : Bool) : (raiseObj s c r o d p x b).shares = s.shares := by rw [raiseObj_only]
@[simp] theorem raiseObj_shareShadow (s : State) (c r o d : Nat) (p : Port) (x : Nat) (b : Bool) : (raiseObj s c r o d p x b).shareShadow = s.shareShadow := by rw [raiseObj_only]
@[simp] theorem raiseObj_arb (s : State) (c r o d : Nat) (p : Port) (x : Nat) (b : Bool) : (raiseObj s c r o d p x b).arb = s.arb := by rw [raiseObj_only]
@[simp] theorem raiseObj_arbShadow (s : State) (c r o d : Nat) (p : Port) (x : Nat) (b : Bool) : (raiseObj s c r o d p x b).arbShadow = s.arbShadow := by rw [raiseObj_only]
@[simp] theorem raiseObj_deficits (s : State) (c r o d : Nat) (p : Port) (x : Nat) (b : Bool) : (raiseObj s c r o d p x b).deficits = s.deficits := by rw [raiseObj_only]
@[simp] theorem raiseObj_dma (s : State) (c r o d : Nat) (p : Port) (x : Nat) (b : Bool) : (raiseObj s c r o d p x b).dma = s.dma := by rw [raiseObj_only]
@[simp] theorem raiseObj_nodeNo (s : State) (c r o d : Nat) (p : Port) (x : Nat) (b : Bool) : (raiseObj s c r o d p x b).nodeNo = s.nodeNo := by rw [raiseObj_only]
@[simp] theorem raiseObj_partition (s : State) (c r o d : Nat) (p : Port) (x : Nat) (b : Bool) : (raiseObj s c r o d p x b).partition = s.partition := by rw [raiseObj_only]
@[simp] theorem raiseObj_fenced (s : State) (c r o d : Nat) (p : Port) (x : Nat) (b : Bool) : (raiseObj s c r o d p x b).fenced = s.fenced := by rw [raiseObj_only]

/-! ### raiseRing -/

theorem raiseRing_only (s : State) (p : Port) (f : Func) (r o v : Nat) :
    raiseRing s p f r o v = { s with funcs := (raiseRing s p f r o v).funcs, out := (raiseRing s p f r o v).out } := by
  exact deliverAll_only _ _ _

@[simp] theorem raiseRing_pending (s : State) (p : Port) (f : Func) (r o v : Nat) : (raiseRing s p f r o v).pending = s.pending := by rw [raiseRing_only]
@[simp] theorem raiseRing_free (s : State) (p : Port) (f : Func) (r o v : Nat) : (raiseRing s p f r o v).free = s.free := by rw [raiseRing_only]
@[simp] theorem raiseRing_boot (s : State) (p : Port) (f : Func) (r o v : Nat) : (raiseRing s p f r o v).boot = s.boot := by rw [raiseRing_only]
@[simp] theorem raiseRing_port0 (s : State) (p : Port) (f : Func) (r o v : Nat) : (raiseRing s p f r o v).port0 = s.port0 := by rw [raiseRing_only]
@[simp] theorem raiseRing_port1 (s : State) (p : Port) (f : Func) (r o v : Nat) : (raiseRing s p f r o v).port1 = s.port1 := by rw [raiseRing_only]
@[simp] theorem raiseRing_clusters (s : State) (p : Port) (f : Func) (r o v : Nat) : (raiseRing s p f r o v).clusters = s.clusters := by rw [raiseRing_only]
@[simp] theorem raiseRing_thermal (s : State) (p : Port) (f : Func) (r o v : Nat) : (raiseRing s p f r o v).thermal = s.thermal := by rw [raiseRing_only]
@[simp] theorem raiseRing_cal (s : State) (p : Port) (f : Func) (r o v : Nat) : (raiseRing s p f r o v).cal = s.cal := by rw [raiseRing_only]
@[simp] theorem raiseRing_time (s : State) (p : Port) (f : Func) (r o v : Nat) : (raiseRing s p f r o v).time = s.time := by rw [raiseRing_only]
@[simp] theorem raiseRing_flights (s : State) (p : Port) (f : Func) (r o v : Nat) : (raiseRing s p f r o v).flights = s.flights := by rw [raiseRing_only]
@[simp] theorem raiseRing_delayed (s : State) (p : Port) (f : Func) (r o v : Nat) : (raiseRing s p f r o v).delayed = s.delayed := by rw [raiseRing_only]
@[simp] theorem raiseRing_sec (s : State) (p : Port) (f : Func) (r o v : Nat) : (raiseRing s p f r o v).sec = s.sec := by rw [raiseRing_only]
@[simp] theorem raiseRing_domains (s : State) (p : Port) (f : Func) (r o v : Nat) : (raiseRing s p f r o v).domains = s.domains := by rw [raiseRing_only]
@[simp] theorem raiseRing_slices (s : State) (p : Port) (f : Func) (r o v : Nat) : (raiseRing s p f r o v).slices = s.slices := by rw [raiseRing_only]
@[simp] theorem raiseRing_marginRec (s : State) (p : Port) (f : Func) (r o v : Nat) : (raiseRing s p f r o v).marginRec = s.marginRec := by rw [raiseRing_only]
@[simp] theorem raiseRing_marginShadow (s : State) (p : Port) (f : Func) (r o v : Nat) : (raiseRing s p f r o v).marginShadow = s.marginShadow := by rw [raiseRing_only]
@[simp] theorem raiseRing_margins (s : State) (p : Port) (f : Func) (r o v : Nat) : (raiseRing s p f r o v).margins = s.margins := by rw [raiseRing_only]
@[simp] theorem raiseRing_counters (s : State) (p : Port) (f : Func) (r o v : Nat) : (raiseRing s p f r o v).counters = s.counters := by rw [raiseRing_only]
@[simp] theorem raiseRing_chans (s : State) (p : Port) (f : Func) (r o v : Nat) : (raiseRing s p f r o v).chans = s.chans := by rw [raiseRing_only]
@[simp] theorem raiseRing_rowOps (s : State) (p : Port) (f : Func) (r o v : Nat) : (raiseRing s p f r o v).rowOps = s.rowOps := by rw [raiseRing_only]
@[simp] theorem raiseRing_rowOpNo (s : State) (p : Port) (f : Func) (r o v : Nat) : (raiseRing s p f r o v).rowOpNo = s.rowOpNo := by rw [raiseRing_only]
@[simp] theorem raiseRing_bulk (s : State) (p : Port) (f : Func) (r o v : Nat) : (raiseRing s p f r o v).bulk = s.bulk := by rw [raiseRing_only]
@[simp] theorem raiseRing_mem (s : State) (p : Port) (f : Func) (r o v : Nat) : (raiseRing s p f r o v).mem = s.mem := by rw [raiseRing_only]
@[simp] theorem raiseRing_seqs (s : State) (p : Port) (f : Func) (r o v : Nat) : (raiseRing s p f r o v).seqs = s.seqs := by rw [raiseRing_only]
@[simp] theorem raiseRing_seqGen (s : State) (p : Port) (f : Func) (r o v : Nat) : (raiseRing s p f r o v).seqGen = s.seqGen := by rw [raiseRing_only]
@[simp] theorem raiseRing_models (s : State) (p : Port) (f : Func) (r o v : Nat) : (raiseRing s p f r o v).models = s.models := by rw [raiseRing_only]
@[simp] theorem raiseRing_courses (s : State) (p : Port) (f : Func) (r o v : Nat) : (raiseRing s p f r o v).courses = s.courses := by rw [raiseRing_only]
@[simp] theorem raiseRing_heats (s : State) (p : Port) (f : Func) (r o v : Nat) : (raiseRing s p f r o v).heats = s.heats := by rw [raiseRing_only]
@[simp] theorem raiseRing_place (s : State) (p : Port) (f : Func) (r o v : Nat) : (raiseRing s p f r o v).place = s.place := by rw [raiseRing_only]
@[simp] theorem raiseRing_net (s : State) (p : Port) (f : Func) (r o v : Nat) : (raiseRing s p f r o v).net = s.net := by rw [raiseRing_only]
@[simp] theorem raiseRing_dir (s : State) (p : Port) (f : Func) (r o v : Nat) : (raiseRing s p f r o v).dir = s.dir := by rw [raiseRing_only]
@[simp] theorem raiseRing_sel (s : State) (p : Port) (f : Func) (r o v : Nat) : (raiseRing s p f r o v).sel = s.sel := by rw [raiseRing_only]
@[simp] theorem raiseRing_scratch (s : State) (p : Port) (f : Func) (r o v : Nat) : (raiseRing s p f r o v).scratch = s.scratch := by rw [raiseRing_only]
@[simp] theorem raiseRing_buffer (s : State) (p : Port) (f : Func) (r o v : Nat) : (raiseRing s p f r o v).buffer = s.buffer := by rw [raiseRing_only]
@[simp] theorem raiseRing_acct (s : State) (p : Port) (f : Func) (r o v : Nat) : (raiseRing s p f r o v).acct = s.acct := by rw [raiseRing_only]
@[simp] theorem raiseRing_closed (s : State) (p : Port) (f : Func) (r o v : Nat) : (raiseRing s p f r o v).closed = s.closed := by rw [raiseRing_only]
@[simp] theorem raiseRing_nodeRecs (s : State) (p : Port) (f : Func) (r o v : Nat) : (raiseRing s p f r o v).nodeRecs = s.nodeRecs := by rw [raiseRing_only]
@[simp] theorem raiseRing_heldNext (s : State) (p : Port) (f : Func) (r o v : Nat) : (raiseRing s p f r o v).heldNext = s.heldNext := by rw [raiseRing_only]
@[simp] theorem raiseRing_shares (s : State) (p : Port) (f : Func) (r o v : Nat) : (raiseRing s p f r o v).shares = s.shares := by rw [raiseRing_only]
@[simp] theorem raiseRing_shareShadow (s : State) (p : Port) (f : Func) (r o v : Nat) : (raiseRing s p f r o v).shareShadow = s.shareShadow := by rw [raiseRing_only]
@[simp] theorem raiseRing_arb (s : State) (p : Port) (f : Func) (r o v : Nat) : (raiseRing s p f r o v).arb = s.arb := by rw [raiseRing_only]
@[simp] theorem raiseRing_arbShadow (s : State) (p : Port) (f : Func) (r o v : Nat) : (raiseRing s p f r o v).arbShadow = s.arbShadow := by rw [raiseRing_only]
@[simp] theorem raiseRing_deficits (s : State) (p : Port) (f : Func) (r o v : Nat) : (raiseRing s p f r o v).deficits = s.deficits := by rw [raiseRing_only]
@[simp] theorem raiseRing_dma (s : State) (p : Port) (f : Func) (r o v : Nat) : (raiseRing s p f r o v).dma = s.dma := by rw [raiseRing_only]
@[simp] theorem raiseRing_nodeNo (s : State) (p : Port) (f : Func) (r o v : Nat) : (raiseRing s p f r o v).nodeNo = s.nodeNo := by rw [raiseRing_only]
@[simp] theorem raiseRing_partition (s : State) (p : Port) (f : Func) (r o v : Nat) : (raiseRing s p f r o v).partition = s.partition := by rw [raiseRing_only]
@[simp] theorem raiseRing_fenced (s : State) (p : Port) (f : Func) (r o v : Nat) : (raiseRing s p f r o v).fenced = s.fenced := by rw [raiseRing_only]

/-! ### dmaFault -/

theorem dmaFault_only (s : State) (m : Nat) (r : BitVec 128) :
    dmaFault s m r = { s with funcs := (dmaFault s m r).funcs, out := (dmaFault s m r).out, boot := (dmaFault s m r).boot, dma := (dmaFault s m r).dma } := by
  unfold dmaFault
  dsimp only
  rw [raiseNode_only]

@[simp] theorem dmaFault_pending (s : State) (m : Nat) (r : BitVec 128) : (dmaFault s m r).pending = s.pending := by rw [dmaFault_only]
@[simp] theorem dmaFault_free (s : State) (m : Nat) (r : BitVec 128) : (dmaFault s m r).free = s.free := by rw [dmaFault_only]
@[simp] theorem dmaFault_port0 (s : State) (m : Nat) (r : BitVec 128) : (dmaFault s m r).port0 = s.port0 := by rw [dmaFault_only]
@[simp] theorem dmaFault_port1 (s : State) (m : Nat) (r : BitVec 128) : (dmaFault s m r).port1 = s.port1 := by rw [dmaFault_only]
@[simp] theorem dmaFault_clusters (s : State) (m : Nat) (r : BitVec 128) : (dmaFault s m r).clusters = s.clusters := by rw [dmaFault_only]
@[simp] theorem dmaFault_thermal (s : State) (m : Nat) (r : BitVec 128) : (dmaFault s m r).thermal = s.thermal := by rw [dmaFault_only]
@[simp] theorem dmaFault_cal (s : State) (m : Nat) (r : BitVec 128) : (dmaFault s m r).cal = s.cal := by rw [dmaFault_only]
@[simp] theorem dmaFault_time (s : State) (m : Nat) (r : BitVec 128) : (dmaFault s m r).time = s.time := by rw [dmaFault_only]
@[simp] theorem dmaFault_flights (s : State) (m : Nat) (r : BitVec 128) : (dmaFault s m r).flights = s.flights := by rw [dmaFault_only]
@[simp] theorem dmaFault_delayed (s : State) (m : Nat) (r : BitVec 128) : (dmaFault s m r).delayed = s.delayed := by rw [dmaFault_only]
@[simp] theorem dmaFault_sec (s : State) (m : Nat) (r : BitVec 128) : (dmaFault s m r).sec = s.sec := by rw [dmaFault_only]
@[simp] theorem dmaFault_domains (s : State) (m : Nat) (r : BitVec 128) : (dmaFault s m r).domains = s.domains := by rw [dmaFault_only]
@[simp] theorem dmaFault_slices (s : State) (m : Nat) (r : BitVec 128) : (dmaFault s m r).slices = s.slices := by rw [dmaFault_only]
@[simp] theorem dmaFault_marginRec (s : State) (m : Nat) (r : BitVec 128) : (dmaFault s m r).marginRec = s.marginRec := by rw [dmaFault_only]
@[simp] theorem dmaFault_marginShadow (s : State) (m : Nat) (r : BitVec 128) : (dmaFault s m r).marginShadow = s.marginShadow := by rw [dmaFault_only]
@[simp] theorem dmaFault_margins (s : State) (m : Nat) (r : BitVec 128) : (dmaFault s m r).margins = s.margins := by rw [dmaFault_only]
@[simp] theorem dmaFault_counters (s : State) (m : Nat) (r : BitVec 128) : (dmaFault s m r).counters = s.counters := by rw [dmaFault_only]
@[simp] theorem dmaFault_chans (s : State) (m : Nat) (r : BitVec 128) : (dmaFault s m r).chans = s.chans := by rw [dmaFault_only]
@[simp] theorem dmaFault_rowOps (s : State) (m : Nat) (r : BitVec 128) : (dmaFault s m r).rowOps = s.rowOps := by rw [dmaFault_only]
@[simp] theorem dmaFault_rowOpNo (s : State) (m : Nat) (r : BitVec 128) : (dmaFault s m r).rowOpNo = s.rowOpNo := by rw [dmaFault_only]
@[simp] theorem dmaFault_bulk (s : State) (m : Nat) (r : BitVec 128) : (dmaFault s m r).bulk = s.bulk := by rw [dmaFault_only]
@[simp] theorem dmaFault_mem (s : State) (m : Nat) (r : BitVec 128) : (dmaFault s m r).mem = s.mem := by rw [dmaFault_only]
@[simp] theorem dmaFault_seqs (s : State) (m : Nat) (r : BitVec 128) : (dmaFault s m r).seqs = s.seqs := by rw [dmaFault_only]
@[simp] theorem dmaFault_seqGen (s : State) (m : Nat) (r : BitVec 128) : (dmaFault s m r).seqGen = s.seqGen := by rw [dmaFault_only]
@[simp] theorem dmaFault_models (s : State) (m : Nat) (r : BitVec 128) : (dmaFault s m r).models = s.models := by rw [dmaFault_only]
@[simp] theorem dmaFault_courses (s : State) (m : Nat) (r : BitVec 128) : (dmaFault s m r).courses = s.courses := by rw [dmaFault_only]
@[simp] theorem dmaFault_heats (s : State) (m : Nat) (r : BitVec 128) : (dmaFault s m r).heats = s.heats := by rw [dmaFault_only]
@[simp] theorem dmaFault_place (s : State) (m : Nat) (r : BitVec 128) : (dmaFault s m r).place = s.place := by rw [dmaFault_only]
@[simp] theorem dmaFault_net (s : State) (m : Nat) (r : BitVec 128) : (dmaFault s m r).net = s.net := by rw [dmaFault_only]
@[simp] theorem dmaFault_dir (s : State) (m : Nat) (r : BitVec 128) : (dmaFault s m r).dir = s.dir := by rw [dmaFault_only]
@[simp] theorem dmaFault_sel (s : State) (m : Nat) (r : BitVec 128) : (dmaFault s m r).sel = s.sel := by rw [dmaFault_only]
@[simp] theorem dmaFault_scratch (s : State) (m : Nat) (r : BitVec 128) : (dmaFault s m r).scratch = s.scratch := by rw [dmaFault_only]
@[simp] theorem dmaFault_buffer (s : State) (m : Nat) (r : BitVec 128) : (dmaFault s m r).buffer = s.buffer := by rw [dmaFault_only]
@[simp] theorem dmaFault_acct (s : State) (m : Nat) (r : BitVec 128) : (dmaFault s m r).acct = s.acct := by rw [dmaFault_only]
@[simp] theorem dmaFault_closed (s : State) (m : Nat) (r : BitVec 128) : (dmaFault s m r).closed = s.closed := by rw [dmaFault_only]
@[simp] theorem dmaFault_nodeRecs (s : State) (m : Nat) (r : BitVec 128) : (dmaFault s m r).nodeRecs = s.nodeRecs := by rw [dmaFault_only]
@[simp] theorem dmaFault_heldNext (s : State) (m : Nat) (r : BitVec 128) : (dmaFault s m r).heldNext = s.heldNext := by rw [dmaFault_only]
@[simp] theorem dmaFault_shares (s : State) (m : Nat) (r : BitVec 128) : (dmaFault s m r).shares = s.shares := by rw [dmaFault_only]
@[simp] theorem dmaFault_shareShadow (s : State) (m : Nat) (r : BitVec 128) : (dmaFault s m r).shareShadow = s.shareShadow := by rw [dmaFault_only]
@[simp] theorem dmaFault_arb (s : State) (m : Nat) (r : BitVec 128) : (dmaFault s m r).arb = s.arb := by rw [dmaFault_only]
@[simp] theorem dmaFault_arbShadow (s : State) (m : Nat) (r : BitVec 128) : (dmaFault s m r).arbShadow = s.arbShadow := by rw [dmaFault_only]
@[simp] theorem dmaFault_deficits (s : State) (m : Nat) (r : BitVec 128) : (dmaFault s m r).deficits = s.deficits := by rw [dmaFault_only]
@[simp] theorem dmaFault_nodeNo (s : State) (m : Nat) (r : BitVec 128) : (dmaFault s m r).nodeNo = s.nodeNo := by rw [dmaFault_only]
@[simp] theorem dmaFault_partition (s : State) (m : Nat) (r : BitVec 128) : (dmaFault s m r).partition = s.partition := by rw [dmaFault_only]
@[simp] theorem dmaFault_fenced (s : State) (m : Nat) (r : BitVec 128) : (dmaFault s m r).fenced = s.fenced := by rw [dmaFault_only]

/-! ### hostFault -/

theorem hostFault_only (s : State) (d : Desc) :
    hostFault s d = { s with funcs := (hostFault s d).funcs, out := (hostFault s d).out, boot := (hostFault s d).boot, dma := (hostFault s d).dma } := by
  exact dmaFault_only _ _ _

@[simp] theorem hostFault_pending (s : State) (d : Desc) : (hostFault s d).pending = s.pending := by rw [hostFault_only]
@[simp] theorem hostFault_free (s : State) (d : Desc) : (hostFault s d).free = s.free := by rw [hostFault_only]
@[simp] theorem hostFault_port0 (s : State) (d : Desc) : (hostFault s d).port0 = s.port0 := by rw [hostFault_only]
@[simp] theorem hostFault_port1 (s : State) (d : Desc) : (hostFault s d).port1 = s.port1 := by rw [hostFault_only]
@[simp] theorem hostFault_clusters (s : State) (d : Desc) : (hostFault s d).clusters = s.clusters := by rw [hostFault_only]
@[simp] theorem hostFault_thermal (s : State) (d : Desc) : (hostFault s d).thermal = s.thermal := by rw [hostFault_only]
@[simp] theorem hostFault_cal (s : State) (d : Desc) : (hostFault s d).cal = s.cal := by rw [hostFault_only]
@[simp] theorem hostFault_time (s : State) (d : Desc) : (hostFault s d).time = s.time := by rw [hostFault_only]
@[simp] theorem hostFault_flights (s : State) (d : Desc) : (hostFault s d).flights = s.flights := by rw [hostFault_only]
@[simp] theorem hostFault_delayed (s : State) (d : Desc) : (hostFault s d).delayed = s.delayed := by rw [hostFault_only]
@[simp] theorem hostFault_sec (s : State) (d : Desc) : (hostFault s d).sec = s.sec := by rw [hostFault_only]
@[simp] theorem hostFault_domains (s : State) (d : Desc) : (hostFault s d).domains = s.domains := by rw [hostFault_only]
@[simp] theorem hostFault_slices (s : State) (d : Desc) : (hostFault s d).slices = s.slices := by rw [hostFault_only]
@[simp] theorem hostFault_marginRec (s : State) (d : Desc) : (hostFault s d).marginRec = s.marginRec := by rw [hostFault_only]
@[simp] theorem hostFault_marginShadow (s : State) (d : Desc) : (hostFault s d).marginShadow = s.marginShadow := by rw [hostFault_only]
@[simp] theorem hostFault_margins (s : State) (d : Desc) : (hostFault s d).margins = s.margins := by rw [hostFault_only]
@[simp] theorem hostFault_counters (s : State) (d : Desc) : (hostFault s d).counters = s.counters := by rw [hostFault_only]
@[simp] theorem hostFault_chans (s : State) (d : Desc) : (hostFault s d).chans = s.chans := by rw [hostFault_only]
@[simp] theorem hostFault_rowOps (s : State) (d : Desc) : (hostFault s d).rowOps = s.rowOps := by rw [hostFault_only]
@[simp] theorem hostFault_rowOpNo (s : State) (d : Desc) : (hostFault s d).rowOpNo = s.rowOpNo := by rw [hostFault_only]
@[simp] theorem hostFault_bulk (s : State) (d : Desc) : (hostFault s d).bulk = s.bulk := by rw [hostFault_only]
@[simp] theorem hostFault_mem (s : State) (d : Desc) : (hostFault s d).mem = s.mem := by rw [hostFault_only]
@[simp] theorem hostFault_seqs (s : State) (d : Desc) : (hostFault s d).seqs = s.seqs := by rw [hostFault_only]
@[simp] theorem hostFault_seqGen (s : State) (d : Desc) : (hostFault s d).seqGen = s.seqGen := by rw [hostFault_only]
@[simp] theorem hostFault_models (s : State) (d : Desc) : (hostFault s d).models = s.models := by rw [hostFault_only]
@[simp] theorem hostFault_courses (s : State) (d : Desc) : (hostFault s d).courses = s.courses := by rw [hostFault_only]
@[simp] theorem hostFault_heats (s : State) (d : Desc) : (hostFault s d).heats = s.heats := by rw [hostFault_only]
@[simp] theorem hostFault_place (s : State) (d : Desc) : (hostFault s d).place = s.place := by rw [hostFault_only]
@[simp] theorem hostFault_net (s : State) (d : Desc) : (hostFault s d).net = s.net := by rw [hostFault_only]
@[simp] theorem hostFault_dir (s : State) (d : Desc) : (hostFault s d).dir = s.dir := by rw [hostFault_only]
@[simp] theorem hostFault_sel (s : State) (d : Desc) : (hostFault s d).sel = s.sel := by rw [hostFault_only]
@[simp] theorem hostFault_scratch (s : State) (d : Desc) : (hostFault s d).scratch = s.scratch := by rw [hostFault_only]
@[simp] theorem hostFault_buffer (s : State) (d : Desc) : (hostFault s d).buffer = s.buffer := by rw [hostFault_only]
@[simp] theorem hostFault_acct (s : State) (d : Desc) : (hostFault s d).acct = s.acct := by rw [hostFault_only]
@[simp] theorem hostFault_closed (s : State) (d : Desc) : (hostFault s d).closed = s.closed := by rw [hostFault_only]
@[simp] theorem hostFault_nodeRecs (s : State) (d : Desc) : (hostFault s d).nodeRecs = s.nodeRecs := by rw [hostFault_only]
@[simp] theorem hostFault_heldNext (s : State) (d : Desc) : (hostFault s d).heldNext = s.heldNext := by rw [hostFault_only]
@[simp] theorem hostFault_shares (s : State) (d : Desc) : (hostFault s d).shares = s.shares := by rw [hostFault_only]
@[simp] theorem hostFault_shareShadow (s : State) (d : Desc) : (hostFault s d).shareShadow = s.shareShadow := by rw [hostFault_only]
@[simp] theorem hostFault_arb (s : State) (d : Desc) : (hostFault s d).arb = s.arb := by rw [hostFault_only]
@[simp] theorem hostFault_arbShadow (s : State) (d : Desc) : (hostFault s d).arbShadow = s.arbShadow := by rw [hostFault_only]
@[simp] theorem hostFault_deficits (s : State) (d : Desc) : (hostFault s d).deficits = s.deficits := by rw [hostFault_only]
@[simp] theorem hostFault_nodeNo (s : State) (d : Desc) : (hostFault s d).nodeNo = s.nodeNo := by rw [hostFault_only]
@[simp] theorem hostFault_partition (s : State) (d : Desc) : (hostFault s d).partition = s.partition := by rw [hostFault_only]
@[simp] theorem hostFault_fenced (s : State) (d : Desc) : (hostFault s d).fenced = s.fenced := by rw [hostFault_only]

/-! ### clockTo -/

theorem clockTo_only (s : State) (n : Nat) :
    clockTo s n = { s with time := (clockTo s n).time } := by
  unfold clockTo; split <;> rfl

@[simp] theorem clockTo_pending (s : State) (n : Nat) : (clockTo s n).pending = s.pending := by rw [clockTo_only]
@[simp] theorem clockTo_out (s : State) (n : Nat) : (clockTo s n).out = s.out := by rw [clockTo_only]
@[simp] theorem clockTo_free (s : State) (n : Nat) : (clockTo s n).free = s.free := by rw [clockTo_only]
@[simp] theorem clockTo_boot (s : State) (n : Nat) : (clockTo s n).boot = s.boot := by rw [clockTo_only]
@[simp] theorem clockTo_port0 (s : State) (n : Nat) : (clockTo s n).port0 = s.port0 := by rw [clockTo_only]
@[simp] theorem clockTo_port1 (s : State) (n : Nat) : (clockTo s n).port1 = s.port1 := by rw [clockTo_only]
@[simp] theorem clockTo_clusters (s : State) (n : Nat) : (clockTo s n).clusters = s.clusters := by rw [clockTo_only]
@[simp] theorem clockTo_thermal (s : State) (n : Nat) : (clockTo s n).thermal = s.thermal := by rw [clockTo_only]
@[simp] theorem clockTo_cal (s : State) (n : Nat) : (clockTo s n).cal = s.cal := by rw [clockTo_only]
@[simp] theorem clockTo_funcs (s : State) (n : Nat) : (clockTo s n).funcs = s.funcs := by rw [clockTo_only]
@[simp] theorem clockTo_flights (s : State) (n : Nat) : (clockTo s n).flights = s.flights := by rw [clockTo_only]
@[simp] theorem clockTo_delayed (s : State) (n : Nat) : (clockTo s n).delayed = s.delayed := by rw [clockTo_only]
@[simp] theorem clockTo_sec (s : State) (n : Nat) : (clockTo s n).sec = s.sec := by rw [clockTo_only]
@[simp] theorem clockTo_domains (s : State) (n : Nat) : (clockTo s n).domains = s.domains := by rw [clockTo_only]
@[simp] theorem clockTo_slices (s : State) (n : Nat) : (clockTo s n).slices = s.slices := by rw [clockTo_only]
@[simp] theorem clockTo_marginRec (s : State) (n : Nat) : (clockTo s n).marginRec = s.marginRec := by rw [clockTo_only]
@[simp] theorem clockTo_marginShadow (s : State) (n : Nat) : (clockTo s n).marginShadow = s.marginShadow := by rw [clockTo_only]
@[simp] theorem clockTo_margins (s : State) (n : Nat) : (clockTo s n).margins = s.margins := by rw [clockTo_only]
@[simp] theorem clockTo_counters (s : State) (n : Nat) : (clockTo s n).counters = s.counters := by rw [clockTo_only]
@[simp] theorem clockTo_chans (s : State) (n : Nat) : (clockTo s n).chans = s.chans := by rw [clockTo_only]
@[simp] theorem clockTo_rowOps (s : State) (n : Nat) : (clockTo s n).rowOps = s.rowOps := by rw [clockTo_only]
@[simp] theorem clockTo_rowOpNo (s : State) (n : Nat) : (clockTo s n).rowOpNo = s.rowOpNo := by rw [clockTo_only]
@[simp] theorem clockTo_bulk (s : State) (n : Nat) : (clockTo s n).bulk = s.bulk := by rw [clockTo_only]
@[simp] theorem clockTo_mem (s : State) (n : Nat) : (clockTo s n).mem = s.mem := by rw [clockTo_only]
@[simp] theorem clockTo_seqs (s : State) (n : Nat) : (clockTo s n).seqs = s.seqs := by rw [clockTo_only]
@[simp] theorem clockTo_seqGen (s : State) (n : Nat) : (clockTo s n).seqGen = s.seqGen := by rw [clockTo_only]
@[simp] theorem clockTo_models (s : State) (n : Nat) : (clockTo s n).models = s.models := by rw [clockTo_only]
@[simp] theorem clockTo_courses (s : State) (n : Nat) : (clockTo s n).courses = s.courses := by rw [clockTo_only]
@[simp] theorem clockTo_heats (s : State) (n : Nat) : (clockTo s n).heats = s.heats := by rw [clockTo_only]
@[simp] theorem clockTo_place (s : State) (n : Nat) : (clockTo s n).place = s.place := by rw [clockTo_only]
@[simp] theorem clockTo_net (s : State) (n : Nat) : (clockTo s n).net = s.net := by rw [clockTo_only]
@[simp] theorem clockTo_dir (s : State) (n : Nat) : (clockTo s n).dir = s.dir := by rw [clockTo_only]
@[simp] theorem clockTo_sel (s : State) (n : Nat) : (clockTo s n).sel = s.sel := by rw [clockTo_only]
@[simp] theorem clockTo_scratch (s : State) (n : Nat) : (clockTo s n).scratch = s.scratch := by rw [clockTo_only]
@[simp] theorem clockTo_buffer (s : State) (n : Nat) : (clockTo s n).buffer = s.buffer := by rw [clockTo_only]
@[simp] theorem clockTo_acct (s : State) (n : Nat) : (clockTo s n).acct = s.acct := by rw [clockTo_only]
@[simp] theorem clockTo_closed (s : State) (n : Nat) : (clockTo s n).closed = s.closed := by rw [clockTo_only]
@[simp] theorem clockTo_nodeRecs (s : State) (n : Nat) : (clockTo s n).nodeRecs = s.nodeRecs := by rw [clockTo_only]
@[simp] theorem clockTo_heldNext (s : State) (n : Nat) : (clockTo s n).heldNext = s.heldNext := by rw [clockTo_only]
@[simp] theorem clockTo_shares (s : State) (n : Nat) : (clockTo s n).shares = s.shares := by rw [clockTo_only]
@[simp] theorem clockTo_shareShadow (s : State) (n : Nat) : (clockTo s n).shareShadow = s.shareShadow := by rw [clockTo_only]
@[simp] theorem clockTo_arb (s : State) (n : Nat) : (clockTo s n).arb = s.arb := by rw [clockTo_only]
@[simp] theorem clockTo_arbShadow (s : State) (n : Nat) : (clockTo s n).arbShadow = s.arbShadow := by rw [clockTo_only]
@[simp] theorem clockTo_deficits (s : State) (n : Nat) : (clockTo s n).deficits = s.deficits := by rw [clockTo_only]
@[simp] theorem clockTo_dma (s : State) (n : Nat) : (clockTo s n).dma = s.dma := by rw [clockTo_only]
@[simp] theorem clockTo_nodeNo (s : State) (n : Nat) : (clockTo s n).nodeNo = s.nodeNo := by rw [clockTo_only]
@[simp] theorem clockTo_partition (s : State) (n : Nat) : (clockTo s n).partition = s.partition := by rw [clockTo_only]
@[simp] theorem clockTo_fenced (s : State) (n : Nat) : (clockTo s n).fenced = s.fenced := by rw [clockTo_only]

/-! ### tclkCycle -/

theorem tclkCycle_only (s : State) :
    tclkCycle s = { s with time := (tclkCycle s).time } := by
  unfold tclkCycle; split <;> rfl

@[simp] theorem tclkCycle_pending (s : State) : (tclkCycle s).pending = s.pending := by rw [tclkCycle_only]
@[simp] theorem tclkCycle_out (s : State) : (tclkCycle s).out = s.out := by rw [tclkCycle_only]
@[simp] theorem tclkCycle_free (s : State) : (tclkCycle s).free = s.free := by rw [tclkCycle_only]
@[simp] theorem tclkCycle_boot (s : State) : (tclkCycle s).boot = s.boot := by rw [tclkCycle_only]
@[simp] theorem tclkCycle_port0 (s : State) : (tclkCycle s).port0 = s.port0 := by rw [tclkCycle_only]
@[simp] theorem tclkCycle_port1 (s : State) : (tclkCycle s).port1 = s.port1 := by rw [tclkCycle_only]
@[simp] theorem tclkCycle_clusters (s : State) : (tclkCycle s).clusters = s.clusters := by rw [tclkCycle_only]
@[simp] theorem tclkCycle_thermal (s : State) : (tclkCycle s).thermal = s.thermal := by rw [tclkCycle_only]
@[simp] theorem tclkCycle_cal (s : State) : (tclkCycle s).cal = s.cal := by rw [tclkCycle_only]
@[simp] theorem tclkCycle_funcs (s : State) : (tclkCycle s).funcs = s.funcs := by rw [tclkCycle_only]
@[simp] theorem tclkCycle_flights (s : State) : (tclkCycle s).flights = s.flights := by rw [tclkCycle_only]
@[simp] theorem tclkCycle_delayed (s : State) : (tclkCycle s).delayed = s.delayed := by rw [tclkCycle_only]
@[simp] theorem tclkCycle_sec (s : State) : (tclkCycle s).sec = s.sec := by rw [tclkCycle_only]
@[simp] theorem tclkCycle_domains (s : State) : (tclkCycle s).domains = s.domains := by rw [tclkCycle_only]
@[simp] theorem tclkCycle_slices (s : State) : (tclkCycle s).slices = s.slices := by rw [tclkCycle_only]
@[simp] theorem tclkCycle_marginRec (s : State) : (tclkCycle s).marginRec = s.marginRec := by rw [tclkCycle_only]
@[simp] theorem tclkCycle_marginShadow (s : State) : (tclkCycle s).marginShadow = s.marginShadow := by rw [tclkCycle_only]
@[simp] theorem tclkCycle_margins (s : State) : (tclkCycle s).margins = s.margins := by rw [tclkCycle_only]
@[simp] theorem tclkCycle_counters (s : State) : (tclkCycle s).counters = s.counters := by rw [tclkCycle_only]
@[simp] theorem tclkCycle_chans (s : State) : (tclkCycle s).chans = s.chans := by rw [tclkCycle_only]
@[simp] theorem tclkCycle_rowOps (s : State) : (tclkCycle s).rowOps = s.rowOps := by rw [tclkCycle_only]
@[simp] theorem tclkCycle_rowOpNo (s : State) : (tclkCycle s).rowOpNo = s.rowOpNo := by rw [tclkCycle_only]
@[simp] theorem tclkCycle_bulk (s : State) : (tclkCycle s).bulk = s.bulk := by rw [tclkCycle_only]
@[simp] theorem tclkCycle_mem (s : State) : (tclkCycle s).mem = s.mem := by rw [tclkCycle_only]
@[simp] theorem tclkCycle_seqs (s : State) : (tclkCycle s).seqs = s.seqs := by rw [tclkCycle_only]
@[simp] theorem tclkCycle_seqGen (s : State) : (tclkCycle s).seqGen = s.seqGen := by rw [tclkCycle_only]
@[simp] theorem tclkCycle_models (s : State) : (tclkCycle s).models = s.models := by rw [tclkCycle_only]
@[simp] theorem tclkCycle_courses (s : State) : (tclkCycle s).courses = s.courses := by rw [tclkCycle_only]
@[simp] theorem tclkCycle_heats (s : State) : (tclkCycle s).heats = s.heats := by rw [tclkCycle_only]
@[simp] theorem tclkCycle_place (s : State) : (tclkCycle s).place = s.place := by rw [tclkCycle_only]
@[simp] theorem tclkCycle_net (s : State) : (tclkCycle s).net = s.net := by rw [tclkCycle_only]
@[simp] theorem tclkCycle_dir (s : State) : (tclkCycle s).dir = s.dir := by rw [tclkCycle_only]
@[simp] theorem tclkCycle_sel (s : State) : (tclkCycle s).sel = s.sel := by rw [tclkCycle_only]
@[simp] theorem tclkCycle_scratch (s : State) : (tclkCycle s).scratch = s.scratch := by rw [tclkCycle_only]
@[simp] theorem tclkCycle_buffer (s : State) : (tclkCycle s).buffer = s.buffer := by rw [tclkCycle_only]
@[simp] theorem tclkCycle_acct (s : State) : (tclkCycle s).acct = s.acct := by rw [tclkCycle_only]
@[simp] theorem tclkCycle_closed (s : State) : (tclkCycle s).closed = s.closed := by rw [tclkCycle_only]
@[simp] theorem tclkCycle_nodeRecs (s : State) : (tclkCycle s).nodeRecs = s.nodeRecs := by rw [tclkCycle_only]
@[simp] theorem tclkCycle_heldNext (s : State) : (tclkCycle s).heldNext = s.heldNext := by rw [tclkCycle_only]
@[simp] theorem tclkCycle_shares (s : State) : (tclkCycle s).shares = s.shares := by rw [tclkCycle_only]
@[simp] theorem tclkCycle_shareShadow (s : State) : (tclkCycle s).shareShadow = s.shareShadow := by rw [tclkCycle_only]
@[simp] theorem tclkCycle_arb (s : State) : (tclkCycle s).arb = s.arb := by rw [tclkCycle_only]
@[simp] theorem tclkCycle_arbShadow (s : State) : (tclkCycle s).arbShadow = s.arbShadow := by rw [tclkCycle_only]
@[simp] theorem tclkCycle_deficits (s : State) : (tclkCycle s).deficits = s.deficits := by rw [tclkCycle_only]
@[simp] theorem tclkCycle_dma (s : State) : (tclkCycle s).dma = s.dma := by rw [tclkCycle_only]
@[simp] theorem tclkCycle_nodeNo (s : State) : (tclkCycle s).nodeNo = s.nodeNo := by rw [tclkCycle_only]
@[simp] theorem tclkCycle_partition (s : State) : (tclkCycle s).partition = s.partition := by rw [tclkCycle_only]
@[simp] theorem tclkCycle_fenced (s : State) : (tclkCycle s).fenced = s.fenced := by rw [tclkCycle_only]

/-! ### fetchCmd -/

theorem fetchCmd_only (s : State) (d : Desc) :
    fetchCmd s d = { s with time := (fetchCmd s d).time, funcs := (fetchCmd s d).funcs } := by
  unfold fetchCmd
  dsimp only
  rw [clockTo_only]; rfl

@[simp] theorem fetchCmd_pending (s : State) (d : Desc) : (fetchCmd s d).pending = s.pending := by rw [fetchCmd_only]
@[simp] theorem fetchCmd_out (s : State) (d : Desc) : (fetchCmd s d).out = s.out := by rw [fetchCmd_only]
@[simp] theorem fetchCmd_free (s : State) (d : Desc) : (fetchCmd s d).free = s.free := by rw [fetchCmd_only]
@[simp] theorem fetchCmd_boot (s : State) (d : Desc) : (fetchCmd s d).boot = s.boot := by rw [fetchCmd_only]
@[simp] theorem fetchCmd_port0 (s : State) (d : Desc) : (fetchCmd s d).port0 = s.port0 := by rw [fetchCmd_only]
@[simp] theorem fetchCmd_port1 (s : State) (d : Desc) : (fetchCmd s d).port1 = s.port1 := by rw [fetchCmd_only]
@[simp] theorem fetchCmd_clusters (s : State) (d : Desc) : (fetchCmd s d).clusters = s.clusters := by rw [fetchCmd_only]
@[simp] theorem fetchCmd_thermal (s : State) (d : Desc) : (fetchCmd s d).thermal = s.thermal := by rw [fetchCmd_only]
@[simp] theorem fetchCmd_cal (s : State) (d : Desc) : (fetchCmd s d).cal = s.cal := by rw [fetchCmd_only]
@[simp] theorem fetchCmd_flights (s : State) (d : Desc) : (fetchCmd s d).flights = s.flights := by rw [fetchCmd_only]
@[simp] theorem fetchCmd_delayed (s : State) (d : Desc) : (fetchCmd s d).delayed = s.delayed := by rw [fetchCmd_only]
@[simp] theorem fetchCmd_sec (s : State) (d : Desc) : (fetchCmd s d).sec = s.sec := by rw [fetchCmd_only]
@[simp] theorem fetchCmd_domains (s : State) (d : Desc) : (fetchCmd s d).domains = s.domains := by rw [fetchCmd_only]
@[simp] theorem fetchCmd_slices (s : State) (d : Desc) : (fetchCmd s d).slices = s.slices := by rw [fetchCmd_only]
@[simp] theorem fetchCmd_marginRec (s : State) (d : Desc) : (fetchCmd s d).marginRec = s.marginRec := by rw [fetchCmd_only]
@[simp] theorem fetchCmd_marginShadow (s : State) (d : Desc) : (fetchCmd s d).marginShadow = s.marginShadow := by rw [fetchCmd_only]
@[simp] theorem fetchCmd_margins (s : State) (d : Desc) : (fetchCmd s d).margins = s.margins := by rw [fetchCmd_only]
@[simp] theorem fetchCmd_counters (s : State) (d : Desc) : (fetchCmd s d).counters = s.counters := by rw [fetchCmd_only]
@[simp] theorem fetchCmd_chans (s : State) (d : Desc) : (fetchCmd s d).chans = s.chans := by rw [fetchCmd_only]
@[simp] theorem fetchCmd_rowOps (s : State) (d : Desc) : (fetchCmd s d).rowOps = s.rowOps := by rw [fetchCmd_only]
@[simp] theorem fetchCmd_rowOpNo (s : State) (d : Desc) : (fetchCmd s d).rowOpNo = s.rowOpNo := by rw [fetchCmd_only]
@[simp] theorem fetchCmd_bulk (s : State) (d : Desc) : (fetchCmd s d).bulk = s.bulk := by rw [fetchCmd_only]
@[simp] theorem fetchCmd_mem (s : State) (d : Desc) : (fetchCmd s d).mem = s.mem := by rw [fetchCmd_only]
@[simp] theorem fetchCmd_seqs (s : State) (d : Desc) : (fetchCmd s d).seqs = s.seqs := by rw [fetchCmd_only]
@[simp] theorem fetchCmd_seqGen (s : State) (d : Desc) : (fetchCmd s d).seqGen = s.seqGen := by rw [fetchCmd_only]
@[simp] theorem fetchCmd_models (s : State) (d : Desc) : (fetchCmd s d).models = s.models := by rw [fetchCmd_only]
@[simp] theorem fetchCmd_courses (s : State) (d : Desc) : (fetchCmd s d).courses = s.courses := by rw [fetchCmd_only]
@[simp] theorem fetchCmd_heats (s : State) (d : Desc) : (fetchCmd s d).heats = s.heats := by rw [fetchCmd_only]
@[simp] theorem fetchCmd_place (s : State) (d : Desc) : (fetchCmd s d).place = s.place := by rw [fetchCmd_only]
@[simp] theorem fetchCmd_net (s : State) (d : Desc) : (fetchCmd s d).net = s.net := by rw [fetchCmd_only]
@[simp] theorem fetchCmd_dir (s : State) (d : Desc) : (fetchCmd s d).dir = s.dir := by rw [fetchCmd_only]
@[simp] theorem fetchCmd_sel (s : State) (d : Desc) : (fetchCmd s d).sel = s.sel := by rw [fetchCmd_only]
@[simp] theorem fetchCmd_scratch (s : State) (d : Desc) : (fetchCmd s d).scratch = s.scratch := by rw [fetchCmd_only]
@[simp] theorem fetchCmd_buffer (s : State) (d : Desc) : (fetchCmd s d).buffer = s.buffer := by rw [fetchCmd_only]
@[simp] theorem fetchCmd_acct (s : State) (d : Desc) : (fetchCmd s d).acct = s.acct := by rw [fetchCmd_only]
@[simp] theorem fetchCmd_closed (s : State) (d : Desc) : (fetchCmd s d).closed = s.closed := by rw [fetchCmd_only]
@[simp] theorem fetchCmd_nodeRecs (s : State) (d : Desc) : (fetchCmd s d).nodeRecs = s.nodeRecs := by rw [fetchCmd_only]
@[simp] theorem fetchCmd_heldNext (s : State) (d : Desc) : (fetchCmd s d).heldNext = s.heldNext := by rw [fetchCmd_only]
@[simp] theorem fetchCmd_shares (s : State) (d : Desc) : (fetchCmd s d).shares = s.shares := by rw [fetchCmd_only]
@[simp] theorem fetchCmd_shareShadow (s : State) (d : Desc) : (fetchCmd s d).shareShadow = s.shareShadow := by rw [fetchCmd_only]
@[simp] theorem fetchCmd_arb (s : State) (d : Desc) : (fetchCmd s d).arb = s.arb := by rw [fetchCmd_only]
@[simp] theorem fetchCmd_arbShadow (s : State) (d : Desc) : (fetchCmd s d).arbShadow = s.arbShadow := by rw [fetchCmd_only]
@[simp] theorem fetchCmd_deficits (s : State) (d : Desc) : (fetchCmd s d).deficits = s.deficits := by rw [fetchCmd_only]
@[simp] theorem fetchCmd_dma (s : State) (d : Desc) : (fetchCmd s d).dma = s.dma := by rw [fetchCmd_only]
@[simp] theorem fetchCmd_nodeNo (s : State) (d : Desc) : (fetchCmd s d).nodeNo = s.nodeNo := by rw [fetchCmd_only]
@[simp] theorem fetchCmd_partition (s : State) (d : Desc) : (fetchCmd s d).partition = s.partition := by rw [fetchCmd_only]
@[simp] theorem fetchCmd_fenced (s : State) (d : Desc) : (fetchCmd s d).fenced = s.fenced := by rw [fetchCmd_only]

/-! ### touchSession -/

theorem touchSession_only (s : State) (d : Desc) :
    touchSession s d = { s with sec := (touchSession s d).sec } := by
  unfold touchSession; split <;> rfl

@[simp] theorem touchSession_pending (s : State) (d : Desc) : (touchSession s d).pending = s.pending := by rw [touchSession_only]
@[simp] theorem touchSession_out (s : State) (d : Desc) : (touchSession s d).out = s.out := by rw [touchSession_only]
@[simp] theorem touchSession_free (s : State) (d : Desc) : (touchSession s d).free = s.free := by rw [touchSession_only]
@[simp] theorem touchSession_boot (s : State) (d : Desc) : (touchSession s d).boot = s.boot := by rw [touchSession_only]
@[simp] theorem touchSession_port0 (s : State) (d : Desc) : (touchSession s d).port0 = s.port0 := by rw [touchSession_only]
@[simp] theorem touchSession_port1 (s : State) (d : Desc) : (touchSession s d).port1 = s.port1 := by rw [touchSession_only]
@[simp] theorem touchSession_clusters (s : State) (d : Desc) : (touchSession s d).clusters = s.clusters := by rw [touchSession_only]
@[simp] theorem touchSession_thermal (s : State) (d : Desc) : (touchSession s d).thermal = s.thermal := by rw [touchSession_only]
@[simp] theorem touchSession_cal (s : State) (d : Desc) : (touchSession s d).cal = s.cal := by rw [touchSession_only]
@[simp] theorem touchSession_time (s : State) (d : Desc) : (touchSession s d).time = s.time := by rw [touchSession_only]
@[simp] theorem touchSession_funcs (s : State) (d : Desc) : (touchSession s d).funcs = s.funcs := by rw [touchSession_only]
@[simp] theorem touchSession_flights (s : State) (d : Desc) : (touchSession s d).flights = s.flights := by rw [touchSession_only]
@[simp] theorem touchSession_delayed (s : State) (d : Desc) : (touchSession s d).delayed = s.delayed := by rw [touchSession_only]
@[simp] theorem touchSession_domains (s : State) (d : Desc) : (touchSession s d).domains = s.domains := by rw [touchSession_only]
@[simp] theorem touchSession_slices (s : State) (d : Desc) : (touchSession s d).slices = s.slices := by rw [touchSession_only]
@[simp] theorem touchSession_marginRec (s : State) (d : Desc) : (touchSession s d).marginRec = s.marginRec := by rw [touchSession_only]
@[simp] theorem touchSession_marginShadow (s : State) (d : Desc) : (touchSession s d).marginShadow = s.marginShadow := by rw [touchSession_only]
@[simp] theorem touchSession_margins (s : State) (d : Desc) : (touchSession s d).margins = s.margins := by rw [touchSession_only]
@[simp] theorem touchSession_counters (s : State) (d : Desc) : (touchSession s d).counters = s.counters := by rw [touchSession_only]
@[simp] theorem touchSession_chans (s : State) (d : Desc) : (touchSession s d).chans = s.chans := by rw [touchSession_only]
@[simp] theorem touchSession_rowOps (s : State) (d : Desc) : (touchSession s d).rowOps = s.rowOps := by rw [touchSession_only]
@[simp] theorem touchSession_rowOpNo (s : State) (d : Desc) : (touchSession s d).rowOpNo = s.rowOpNo := by rw [touchSession_only]
@[simp] theorem touchSession_bulk (s : State) (d : Desc) : (touchSession s d).bulk = s.bulk := by rw [touchSession_only]
@[simp] theorem touchSession_mem (s : State) (d : Desc) : (touchSession s d).mem = s.mem := by rw [touchSession_only]
@[simp] theorem touchSession_seqs (s : State) (d : Desc) : (touchSession s d).seqs = s.seqs := by rw [touchSession_only]
@[simp] theorem touchSession_seqGen (s : State) (d : Desc) : (touchSession s d).seqGen = s.seqGen := by rw [touchSession_only]
@[simp] theorem touchSession_models (s : State) (d : Desc) : (touchSession s d).models = s.models := by rw [touchSession_only]
@[simp] theorem touchSession_courses (s : State) (d : Desc) : (touchSession s d).courses = s.courses := by rw [touchSession_only]
@[simp] theorem touchSession_heats (s : State) (d : Desc) : (touchSession s d).heats = s.heats := by rw [touchSession_only]
@[simp] theorem touchSession_place (s : State) (d : Desc) : (touchSession s d).place = s.place := by rw [touchSession_only]
@[simp] theorem touchSession_net (s : State) (d : Desc) : (touchSession s d).net = s.net := by rw [touchSession_only]
@[simp] theorem touchSession_dir (s : State) (d : Desc) : (touchSession s d).dir = s.dir := by rw [touchSession_only]
@[simp] theorem touchSession_sel (s : State) (d : Desc) : (touchSession s d).sel = s.sel := by rw [touchSession_only]
@[simp] theorem touchSession_scratch (s : State) (d : Desc) : (touchSession s d).scratch = s.scratch := by rw [touchSession_only]
@[simp] theorem touchSession_buffer (s : State) (d : Desc) : (touchSession s d).buffer = s.buffer := by rw [touchSession_only]
@[simp] theorem touchSession_acct (s : State) (d : Desc) : (touchSession s d).acct = s.acct := by rw [touchSession_only]
@[simp] theorem touchSession_closed (s : State) (d : Desc) : (touchSession s d).closed = s.closed := by rw [touchSession_only]
@[simp] theorem touchSession_nodeRecs (s : State) (d : Desc) : (touchSession s d).nodeRecs = s.nodeRecs := by rw [touchSession_only]
@[simp] theorem touchSession_heldNext (s : State) (d : Desc) : (touchSession s d).heldNext = s.heldNext := by rw [touchSession_only]
@[simp] theorem touchSession_shares (s : State) (d : Desc) : (touchSession s d).shares = s.shares := by rw [touchSession_only]
@[simp] theorem touchSession_shareShadow (s : State) (d : Desc) : (touchSession s d).shareShadow = s.shareShadow := by rw [touchSession_only]
@[simp] theorem touchSession_arb (s : State) (d : Desc) : (touchSession s d).arb = s.arb := by rw [touchSession_only]
@[simp] theorem touchSession_arbShadow (s : State) (d : Desc) : (touchSession s d).arbShadow = s.arbShadow := by rw [touchSession_only]
@[simp] theorem touchSession_deficits (s : State) (d : Desc) : (touchSession s d).deficits = s.deficits := by rw [touchSession_only]
@[simp] theorem touchSession_dma (s : State) (d : Desc) : (touchSession s d).dma = s.dma := by rw [touchSession_only]
@[simp] theorem touchSession_nodeNo (s : State) (d : Desc) : (touchSession s d).nodeNo = s.nodeNo := by rw [touchSession_only]
@[simp] theorem touchSession_partition (s : State) (d : Desc) : (touchSession s d).partition = s.partition := by rw [touchSession_only]
@[simp] theorem touchSession_fenced (s : State) (d : Desc) : (touchSession s d).fenced = s.fenced := by rw [touchSession_only]

/-! ### atBody -/

theorem atBody_only (d : Desc) (s : State) :
    atBody d s = { s with time := (atBody d s).time, funcs := (atBody d s).funcs, sec := (atBody d s).sec } := by
  unfold atBody
  rw [touchSession_only, fetchCmd_only]

@[simp] theorem atBody_pending (d : Desc) (s : State) : (atBody d s).pending = s.pending := by rw [atBody_only]
@[simp] theorem atBody_out (d : Desc) (s : State) : (atBody d s).out = s.out := by rw [atBody_only]
@[simp] theorem atBody_free (d : Desc) (s : State) : (atBody d s).free = s.free := by rw [atBody_only]
@[simp] theorem atBody_boot (d : Desc) (s : State) : (atBody d s).boot = s.boot := by rw [atBody_only]
@[simp] theorem atBody_port0 (d : Desc) (s : State) : (atBody d s).port0 = s.port0 := by rw [atBody_only]
@[simp] theorem atBody_port1 (d : Desc) (s : State) : (atBody d s).port1 = s.port1 := by rw [atBody_only]
@[simp] theorem atBody_clusters (d : Desc) (s : State) : (atBody d s).clusters = s.clusters := by rw [atBody_only]
@[simp] theorem atBody_thermal (d : Desc) (s : State) : (atBody d s).thermal = s.thermal := by rw [atBody_only]
@[simp] theorem atBody_cal (d : Desc) (s : State) : (atBody d s).cal = s.cal := by rw [atBody_only]
@[simp] theorem atBody_flights (d : Desc) (s : State) : (atBody d s).flights = s.flights := by rw [atBody_only]
@[simp] theorem atBody_delayed (d : Desc) (s : State) : (atBody d s).delayed = s.delayed := by rw [atBody_only]
@[simp] theorem atBody_domains (d : Desc) (s : State) : (atBody d s).domains = s.domains := by rw [atBody_only]
@[simp] theorem atBody_slices (d : Desc) (s : State) : (atBody d s).slices = s.slices := by rw [atBody_only]
@[simp] theorem atBody_marginRec (d : Desc) (s : State) : (atBody d s).marginRec = s.marginRec := by rw [atBody_only]
@[simp] theorem atBody_marginShadow (d : Desc) (s : State) : (atBody d s).marginShadow = s.marginShadow := by rw [atBody_only]
@[simp] theorem atBody_margins (d : Desc) (s : State) : (atBody d s).margins = s.margins := by rw [atBody_only]
@[simp] theorem atBody_counters (d : Desc) (s : State) : (atBody d s).counters = s.counters := by rw [atBody_only]
@[simp] theorem atBody_chans (d : Desc) (s : State) : (atBody d s).chans = s.chans := by rw [atBody_only]
@[simp] theorem atBody_rowOps (d : Desc) (s : State) : (atBody d s).rowOps = s.rowOps := by rw [atBody_only]
@[simp] theorem atBody_rowOpNo (d : Desc) (s : State) : (atBody d s).rowOpNo = s.rowOpNo := by rw [atBody_only]
@[simp] theorem atBody_bulk (d : Desc) (s : State) : (atBody d s).bulk = s.bulk := by rw [atBody_only]
@[simp] theorem atBody_mem (d : Desc) (s : State) : (atBody d s).mem = s.mem := by rw [atBody_only]
@[simp] theorem atBody_seqs (d : Desc) (s : State) : (atBody d s).seqs = s.seqs := by rw [atBody_only]
@[simp] theorem atBody_seqGen (d : Desc) (s : State) : (atBody d s).seqGen = s.seqGen := by rw [atBody_only]
@[simp] theorem atBody_models (d : Desc) (s : State) : (atBody d s).models = s.models := by rw [atBody_only]
@[simp] theorem atBody_courses (d : Desc) (s : State) : (atBody d s).courses = s.courses := by rw [atBody_only]
@[simp] theorem atBody_heats (d : Desc) (s : State) : (atBody d s).heats = s.heats := by rw [atBody_only]
@[simp] theorem atBody_place (d : Desc) (s : State) : (atBody d s).place = s.place := by rw [atBody_only]
@[simp] theorem atBody_net (d : Desc) (s : State) : (atBody d s).net = s.net := by rw [atBody_only]
@[simp] theorem atBody_dir (d : Desc) (s : State) : (atBody d s).dir = s.dir := by rw [atBody_only]
@[simp] theorem atBody_sel (d : Desc) (s : State) : (atBody d s).sel = s.sel := by rw [atBody_only]
@[simp] theorem atBody_scratch (d : Desc) (s : State) : (atBody d s).scratch = s.scratch := by rw [atBody_only]
@[simp] theorem atBody_buffer (d : Desc) (s : State) : (atBody d s).buffer = s.buffer := by rw [atBody_only]
@[simp] theorem atBody_acct (d : Desc) (s : State) : (atBody d s).acct = s.acct := by rw [atBody_only]
@[simp] theorem atBody_closed (d : Desc) (s : State) : (atBody d s).closed = s.closed := by rw [atBody_only]
@[simp] theorem atBody_nodeRecs (d : Desc) (s : State) : (atBody d s).nodeRecs = s.nodeRecs := by rw [atBody_only]
@[simp] theorem atBody_heldNext (d : Desc) (s : State) : (atBody d s).heldNext = s.heldNext := by rw [atBody_only]
@[simp] theorem atBody_shares (d : Desc) (s : State) : (atBody d s).shares = s.shares := by rw [atBody_only]
@[simp] theorem atBody_shareShadow (d : Desc) (s : State) : (atBody d s).shareShadow = s.shareShadow := by rw [atBody_only]
@[simp] theorem atBody_arb (d : Desc) (s : State) : (atBody d s).arb = s.arb := by rw [atBody_only]
@[simp] theorem atBody_arbShadow (d : Desc) (s : State) : (atBody d s).arbShadow = s.arbShadow := by rw [atBody_only]
@[simp] theorem atBody_deficits (d : Desc) (s : State) : (atBody d s).deficits = s.deficits := by rw [atBody_only]
@[simp] theorem atBody_dma (d : Desc) (s : State) : (atBody d s).dma = s.dma := by rw [atBody_only]
@[simp] theorem atBody_nodeNo (d : Desc) (s : State) : (atBody d s).nodeNo = s.nodeNo := by rw [atBody_only]
@[simp] theorem atBody_partition (d : Desc) (s : State) : (atBody d s).partition = s.partition := by rw [atBody_only]
@[simp] theorem atBody_fenced (d : Desc) (s : State) : (atBody d s).fenced = s.fenced := by rw [atBody_only]

/-! ### serviceEnds -/

theorem serviceEnds_only (s : State) (k : Option Nat) :
    serviceEnds s k = { s with sec := (serviceEnds s k).sec } := by
  unfold serviceEnds; split <;> (try split) <;> rfl

@[simp] theorem serviceEnds_pending (s : State) (k : Option Nat) : (serviceEnds s k).pending = s.pending := by rw [serviceEnds_only]
@[simp] theorem serviceEnds_out (s : State) (k : Option Nat) : (serviceEnds s k).out = s.out := by rw [serviceEnds_only]
@[simp] theorem serviceEnds_free (s : State) (k : Option Nat) : (serviceEnds s k).free = s.free := by rw [serviceEnds_only]
@[simp] theorem serviceEnds_boot (s : State) (k : Option Nat) : (serviceEnds s k).boot = s.boot := by rw [serviceEnds_only]
@[simp] theorem serviceEnds_port0 (s : State) (k : Option Nat) : (serviceEnds s k).port0 = s.port0 := by rw [serviceEnds_only]
@[simp] theorem serviceEnds_port1 (s : State) (k : Option Nat) : (serviceEnds s k).port1 = s.port1 := by rw [serviceEnds_only]
@[simp] theorem serviceEnds_clusters (s : State) (k : Option Nat) : (serviceEnds s k).clusters = s.clusters := by rw [serviceEnds_only]
@[simp] theorem serviceEnds_thermal (s : State) (k : Option Nat) : (serviceEnds s k).thermal = s.thermal := by rw [serviceEnds_only]
@[simp] theorem serviceEnds_cal (s : State) (k : Option Nat) : (serviceEnds s k).cal = s.cal := by rw [serviceEnds_only]
@[simp] theorem serviceEnds_time (s : State) (k : Option Nat) : (serviceEnds s k).time = s.time := by rw [serviceEnds_only]
@[simp] theorem serviceEnds_funcs (s : State) (k : Option Nat) : (serviceEnds s k).funcs = s.funcs := by rw [serviceEnds_only]
@[simp] theorem serviceEnds_flights (s : State) (k : Option Nat) : (serviceEnds s k).flights = s.flights := by rw [serviceEnds_only]
@[simp] theorem serviceEnds_delayed (s : State) (k : Option Nat) : (serviceEnds s k).delayed = s.delayed := by rw [serviceEnds_only]
@[simp] theorem serviceEnds_domains (s : State) (k : Option Nat) : (serviceEnds s k).domains = s.domains := by rw [serviceEnds_only]
@[simp] theorem serviceEnds_slices (s : State) (k : Option Nat) : (serviceEnds s k).slices = s.slices := by rw [serviceEnds_only]
@[simp] theorem serviceEnds_marginRec (s : State) (k : Option Nat) : (serviceEnds s k).marginRec = s.marginRec := by rw [serviceEnds_only]
@[simp] theorem serviceEnds_marginShadow (s : State) (k : Option Nat) : (serviceEnds s k).marginShadow = s.marginShadow := by rw [serviceEnds_only]
@[simp] theorem serviceEnds_margins (s : State) (k : Option Nat) : (serviceEnds s k).margins = s.margins := by rw [serviceEnds_only]
@[simp] theorem serviceEnds_counters (s : State) (k : Option Nat) : (serviceEnds s k).counters = s.counters := by rw [serviceEnds_only]
@[simp] theorem serviceEnds_chans (s : State) (k : Option Nat) : (serviceEnds s k).chans = s.chans := by rw [serviceEnds_only]
@[simp] theorem serviceEnds_rowOps (s : State) (k : Option Nat) : (serviceEnds s k).rowOps = s.rowOps := by rw [serviceEnds_only]
@[simp] theorem serviceEnds_rowOpNo (s : State) (k : Option Nat) : (serviceEnds s k).rowOpNo = s.rowOpNo := by rw [serviceEnds_only]
@[simp] theorem serviceEnds_bulk (s : State) (k : Option Nat) : (serviceEnds s k).bulk = s.bulk := by rw [serviceEnds_only]
@[simp] theorem serviceEnds_mem (s : State) (k : Option Nat) : (serviceEnds s k).mem = s.mem := by rw [serviceEnds_only]
@[simp] theorem serviceEnds_seqs (s : State) (k : Option Nat) : (serviceEnds s k).seqs = s.seqs := by rw [serviceEnds_only]
@[simp] theorem serviceEnds_seqGen (s : State) (k : Option Nat) : (serviceEnds s k).seqGen = s.seqGen := by rw [serviceEnds_only]
@[simp] theorem serviceEnds_models (s : State) (k : Option Nat) : (serviceEnds s k).models = s.models := by rw [serviceEnds_only]
@[simp] theorem serviceEnds_courses (s : State) (k : Option Nat) : (serviceEnds s k).courses = s.courses := by rw [serviceEnds_only]
@[simp] theorem serviceEnds_heats (s : State) (k : Option Nat) : (serviceEnds s k).heats = s.heats := by rw [serviceEnds_only]
@[simp] theorem serviceEnds_place (s : State) (k : Option Nat) : (serviceEnds s k).place = s.place := by rw [serviceEnds_only]
@[simp] theorem serviceEnds_net (s : State) (k : Option Nat) : (serviceEnds s k).net = s.net := by rw [serviceEnds_only]
@[simp] theorem serviceEnds_dir (s : State) (k : Option Nat) : (serviceEnds s k).dir = s.dir := by rw [serviceEnds_only]
@[simp] theorem serviceEnds_sel (s : State) (k : Option Nat) : (serviceEnds s k).sel = s.sel := by rw [serviceEnds_only]
@[simp] theorem serviceEnds_scratch (s : State) (k : Option Nat) : (serviceEnds s k).scratch = s.scratch := by rw [serviceEnds_only]
@[simp] theorem serviceEnds_buffer (s : State) (k : Option Nat) : (serviceEnds s k).buffer = s.buffer := by rw [serviceEnds_only]
@[simp] theorem serviceEnds_acct (s : State) (k : Option Nat) : (serviceEnds s k).acct = s.acct := by rw [serviceEnds_only]
@[simp] theorem serviceEnds_closed (s : State) (k : Option Nat) : (serviceEnds s k).closed = s.closed := by rw [serviceEnds_only]
@[simp] theorem serviceEnds_nodeRecs (s : State) (k : Option Nat) : (serviceEnds s k).nodeRecs = s.nodeRecs := by rw [serviceEnds_only]
@[simp] theorem serviceEnds_heldNext (s : State) (k : Option Nat) : (serviceEnds s k).heldNext = s.heldNext := by rw [serviceEnds_only]
@[simp] theorem serviceEnds_shares (s : State) (k : Option Nat) : (serviceEnds s k).shares = s.shares := by rw [serviceEnds_only]
@[simp] theorem serviceEnds_shareShadow (s : State) (k : Option Nat) : (serviceEnds s k).shareShadow = s.shareShadow := by rw [serviceEnds_only]
@[simp] theorem serviceEnds_arb (s : State) (k : Option Nat) : (serviceEnds s k).arb = s.arb := by rw [serviceEnds_only]
@[simp] theorem serviceEnds_arbShadow (s : State) (k : Option Nat) : (serviceEnds s k).arbShadow = s.arbShadow := by rw [serviceEnds_only]
@[simp] theorem serviceEnds_deficits (s : State) (k : Option Nat) : (serviceEnds s k).deficits = s.deficits := by rw [serviceEnds_only]
@[simp] theorem serviceEnds_dma (s : State) (k : Option Nat) : (serviceEnds s k).dma = s.dma := by rw [serviceEnds_only]
@[simp] theorem serviceEnds_nodeNo (s : State) (k : Option Nat) : (serviceEnds s k).nodeNo = s.nodeNo := by rw [serviceEnds_only]
@[simp] theorem serviceEnds_partition (s : State) (k : Option Nat) : (serviceEnds s k).partition = s.partition := by rw [serviceEnds_only]
@[simp] theorem serviceEnds_fenced (s : State) (k : Option Nat) : (serviceEnds s k).fenced = s.fenced := by rw [serviceEnds_only]

/-! ### putOut -/

theorem putOut_only (s : State) (d : Desc) (a l x : Nat) :
    (putOut s d a l x).1 = { s with funcs := (putOut s d a l x).1.funcs, out := (putOut s d a l x).1.out, boot := (putOut s d a l x).1.boot, dma := (putOut s d a l x).1.dma } := by
  unfold putOut
  split
  · rfl
  · dsimp only; rw [hostFault_only]

@[simp] theorem putOut_pending (s : State) (d : Desc) (a l x : Nat) : (putOut s d a l x).1.pending = s.pending := by rw [putOut_only]
@[simp] theorem putOut_free (s : State) (d : Desc) (a l x : Nat) : (putOut s d a l x).1.free = s.free := by rw [putOut_only]
@[simp] theorem putOut_port0 (s : State) (d : Desc) (a l x : Nat) : (putOut s d a l x).1.port0 = s.port0 := by rw [putOut_only]
@[simp] theorem putOut_port1 (s : State) (d : Desc) (a l x : Nat) : (putOut s d a l x).1.port1 = s.port1 := by rw [putOut_only]
@[simp] theorem putOut_clusters (s : State) (d : Desc) (a l x : Nat) : (putOut s d a l x).1.clusters = s.clusters := by rw [putOut_only]
@[simp] theorem putOut_thermal (s : State) (d : Desc) (a l x : Nat) : (putOut s d a l x).1.thermal = s.thermal := by rw [putOut_only]
@[simp] theorem putOut_cal (s : State) (d : Desc) (a l x : Nat) : (putOut s d a l x).1.cal = s.cal := by rw [putOut_only]
@[simp] theorem putOut_time (s : State) (d : Desc) (a l x : Nat) : (putOut s d a l x).1.time = s.time := by rw [putOut_only]
@[simp] theorem putOut_flights (s : State) (d : Desc) (a l x : Nat) : (putOut s d a l x).1.flights = s.flights := by rw [putOut_only]
@[simp] theorem putOut_delayed (s : State) (d : Desc) (a l x : Nat) : (putOut s d a l x).1.delayed = s.delayed := by rw [putOut_only]
@[simp] theorem putOut_sec (s : State) (d : Desc) (a l x : Nat) : (putOut s d a l x).1.sec = s.sec := by rw [putOut_only]
@[simp] theorem putOut_domains (s : State) (d : Desc) (a l x : Nat) : (putOut s d a l x).1.domains = s.domains := by rw [putOut_only]
@[simp] theorem putOut_slices (s : State) (d : Desc) (a l x : Nat) : (putOut s d a l x).1.slices = s.slices := by rw [putOut_only]
@[simp] theorem putOut_marginRec (s : State) (d : Desc) (a l x : Nat) : (putOut s d a l x).1.marginRec = s.marginRec := by rw [putOut_only]
@[simp] theorem putOut_marginShadow (s : State) (d : Desc) (a l x : Nat) : (putOut s d a l x).1.marginShadow = s.marginShadow := by rw [putOut_only]
@[simp] theorem putOut_margins (s : State) (d : Desc) (a l x : Nat) : (putOut s d a l x).1.margins = s.margins := by rw [putOut_only]
@[simp] theorem putOut_counters (s : State) (d : Desc) (a l x : Nat) : (putOut s d a l x).1.counters = s.counters := by rw [putOut_only]
@[simp] theorem putOut_chans (s : State) (d : Desc) (a l x : Nat) : (putOut s d a l x).1.chans = s.chans := by rw [putOut_only]
@[simp] theorem putOut_rowOps (s : State) (d : Desc) (a l x : Nat) : (putOut s d a l x).1.rowOps = s.rowOps := by rw [putOut_only]
@[simp] theorem putOut_rowOpNo (s : State) (d : Desc) (a l x : Nat) : (putOut s d a l x).1.rowOpNo = s.rowOpNo := by rw [putOut_only]
@[simp] theorem putOut_bulk (s : State) (d : Desc) (a l x : Nat) : (putOut s d a l x).1.bulk = s.bulk := by rw [putOut_only]
@[simp] theorem putOut_mem (s : State) (d : Desc) (a l x : Nat) : (putOut s d a l x).1.mem = s.mem := by rw [putOut_only]
@[simp] theorem putOut_seqs (s : State) (d : Desc) (a l x : Nat) : (putOut s d a l x).1.seqs = s.seqs := by rw [putOut_only]
@[simp] theorem putOut_seqGen (s : State) (d : Desc) (a l x : Nat) : (putOut s d a l x).1.seqGen = s.seqGen := by rw [putOut_only]
@[simp] theorem putOut_models (s : State) (d : Desc) (a l x : Nat) : (putOut s d a l x).1.models = s.models := by rw [putOut_only]
@[simp] theorem putOut_courses (s : State) (d : Desc) (a l x : Nat) : (putOut s d a l x).1.courses = s.courses := by rw [putOut_only]
@[simp] theorem putOut_heats (s : State) (d : Desc) (a l x : Nat) : (putOut s d a l x).1.heats = s.heats := by rw [putOut_only]
@[simp] theorem putOut_place (s : State) (d : Desc) (a l x : Nat) : (putOut s d a l x).1.place = s.place := by rw [putOut_only]
@[simp] theorem putOut_net (s : State) (d : Desc) (a l x : Nat) : (putOut s d a l x).1.net = s.net := by rw [putOut_only]
@[simp] theorem putOut_dir (s : State) (d : Desc) (a l x : Nat) : (putOut s d a l x).1.dir = s.dir := by rw [putOut_only]
@[simp] theorem putOut_sel (s : State) (d : Desc) (a l x : Nat) : (putOut s d a l x).1.sel = s.sel := by rw [putOut_only]
@[simp] theorem putOut_scratch (s : State) (d : Desc) (a l x : Nat) : (putOut s d a l x).1.scratch = s.scratch := by rw [putOut_only]
@[simp] theorem putOut_buffer (s : State) (d : Desc) (a l x : Nat) : (putOut s d a l x).1.buffer = s.buffer := by rw [putOut_only]
@[simp] theorem putOut_acct (s : State) (d : Desc) (a l x : Nat) : (putOut s d a l x).1.acct = s.acct := by rw [putOut_only]
@[simp] theorem putOut_closed (s : State) (d : Desc) (a l x : Nat) : (putOut s d a l x).1.closed = s.closed := by rw [putOut_only]
@[simp] theorem putOut_nodeRecs (s : State) (d : Desc) (a l x : Nat) : (putOut s d a l x).1.nodeRecs = s.nodeRecs := by rw [putOut_only]
@[simp] theorem putOut_heldNext (s : State) (d : Desc) (a l x : Nat) : (putOut s d a l x).1.heldNext = s.heldNext := by rw [putOut_only]
@[simp] theorem putOut_shares (s : State) (d : Desc) (a l x : Nat) : (putOut s d a l x).1.shares = s.shares := by rw [putOut_only]
@[simp] theorem putOut_shareShadow (s : State) (d : Desc) (a l x : Nat) : (putOut s d a l x).1.shareShadow = s.shareShadow := by rw [putOut_only]
@[simp] theorem putOut_arb (s : State) (d : Desc) (a l x : Nat) : (putOut s d a l x).1.arb = s.arb := by rw [putOut_only]
@[simp] theorem putOut_arbShadow (s : State) (d : Desc) (a l x : Nat) : (putOut s d a l x).1.arbShadow = s.arbShadow := by rw [putOut_only]
@[simp] theorem putOut_deficits (s : State) (d : Desc) (a l x : Nat) : (putOut s d a l x).1.deficits = s.deficits := by rw [putOut_only]
@[simp] theorem putOut_nodeNo (s : State) (d : Desc) (a l x : Nat) : (putOut s d a l x).1.nodeNo = s.nodeNo := by rw [putOut_only]
@[simp] theorem putOut_partition (s : State) (d : Desc) (a l x : Nat) : (putOut s d a l x).1.partition = s.partition := by rw [putOut_only]
@[simp] theorem putOut_fenced (s : State) (d : Desc) (a l x : Nat) : (putOut s d a l x).1.fenced = s.fenced := by rw [putOut_only]

/-! ### finishAns -/

theorem finishAns_only (r : HRow) (d : Desc) (s : State) (a : Ans) :
    finishAns r d s a = { s with funcs := (finishAns r d s a).funcs, out := (finishAns r d s a).out, delayed := (finishAns r d s a).delayed, flights := (finishAns r d s a).flights, boot := (finishAns r d s a).boot, dma := (finishAns r d s a).dma } := by
  cases a with
  | fail st x y => simp only [finishAns]; rw [respond_only]
  | done x y a l z =>
    simp only [finishAns]
    split
    · rw [respond_only]
    · split <;> rw [respond_only, putOut_only]
  | accept k a x => simp only [finishAns]; rw [respond_only]
  | acceptDone st x y => simp only [finishAns]; rw [respond_only, respond_only]
  | wait k a x => simp only [finishAns]

@[simp] theorem finishAns_pending (r : HRow) (d : Desc) (s : State) (a : Ans) : (finishAns r d s a).pending = s.pending := by rw [finishAns_only]
@[simp] theorem finishAns_free (r : HRow) (d : Desc) (s : State) (a : Ans) : (finishAns r d s a).free = s.free := by rw [finishAns_only]
@[simp] theorem finishAns_port0 (r : HRow) (d : Desc) (s : State) (a : Ans) : (finishAns r d s a).port0 = s.port0 := by rw [finishAns_only]
@[simp] theorem finishAns_port1 (r : HRow) (d : Desc) (s : State) (a : Ans) : (finishAns r d s a).port1 = s.port1 := by rw [finishAns_only]
@[simp] theorem finishAns_clusters (r : HRow) (d : Desc) (s : State) (a : Ans) : (finishAns r d s a).clusters = s.clusters := by rw [finishAns_only]
@[simp] theorem finishAns_thermal (r : HRow) (d : Desc) (s : State) (a : Ans) : (finishAns r d s a).thermal = s.thermal := by rw [finishAns_only]
@[simp] theorem finishAns_cal (r : HRow) (d : Desc) (s : State) (a : Ans) : (finishAns r d s a).cal = s.cal := by rw [finishAns_only]
@[simp] theorem finishAns_time (r : HRow) (d : Desc) (s : State) (a : Ans) : (finishAns r d s a).time = s.time := by rw [finishAns_only]
@[simp] theorem finishAns_sec (r : HRow) (d : Desc) (s : State) (a : Ans) : (finishAns r d s a).sec = s.sec := by rw [finishAns_only]
@[simp] theorem finishAns_domains (r : HRow) (d : Desc) (s : State) (a : Ans) : (finishAns r d s a).domains = s.domains := by rw [finishAns_only]
@[simp] theorem finishAns_slices (r : HRow) (d : Desc) (s : State) (a : Ans) : (finishAns r d s a).slices = s.slices := by rw [finishAns_only]
@[simp] theorem finishAns_marginRec (r : HRow) (d : Desc) (s : State) (a : Ans) : (finishAns r d s a).marginRec = s.marginRec := by rw [finishAns_only]
@[simp] theorem finishAns_marginShadow (r : HRow) (d : Desc) (s : State) (a : Ans) : (finishAns r d s a).marginShadow = s.marginShadow := by rw [finishAns_only]
@[simp] theorem finishAns_margins (r : HRow) (d : Desc) (s : State) (a : Ans) : (finishAns r d s a).margins = s.margins := by rw [finishAns_only]
@[simp] theorem finishAns_counters (r : HRow) (d : Desc) (s : State) (a : Ans) : (finishAns r d s a).counters = s.counters := by rw [finishAns_only]
@[simp] theorem finishAns_chans (r : HRow) (d : Desc) (s : State) (a : Ans) : (finishAns r d s a).chans = s.chans := by rw [finishAns_only]
@[simp] theorem finishAns_rowOps (r : HRow) (d : Desc) (s : State) (a : Ans) : (finishAns r d s a).rowOps = s.rowOps := by rw [finishAns_only]
@[simp] theorem finishAns_rowOpNo (r : HRow) (d : Desc) (s : State) (a : Ans) : (finishAns r d s a).rowOpNo = s.rowOpNo := by rw [finishAns_only]
@[simp] theorem finishAns_bulk (r : HRow) (d : Desc) (s : State) (a : Ans) : (finishAns r d s a).bulk = s.bulk := by rw [finishAns_only]
@[simp] theorem finishAns_mem (r : HRow) (d : Desc) (s : State) (a : Ans) : (finishAns r d s a).mem = s.mem := by rw [finishAns_only]
@[simp] theorem finishAns_seqs (r : HRow) (d : Desc) (s : State) (a : Ans) : (finishAns r d s a).seqs = s.seqs := by rw [finishAns_only]
@[simp] theorem finishAns_seqGen (r : HRow) (d : Desc) (s : State) (a : Ans) : (finishAns r d s a).seqGen = s.seqGen := by rw [finishAns_only]
@[simp] theorem finishAns_models (r : HRow) (d : Desc) (s : State) (a : Ans) : (finishAns r d s a).models = s.models := by rw [finishAns_only]
@[simp] theorem finishAns_courses (r : HRow) (d : Desc) (s : State) (a : Ans) : (finishAns r d s a).courses = s.courses := by rw [finishAns_only]
@[simp] theorem finishAns_heats (r : HRow) (d : Desc) (s : State) (a : Ans) : (finishAns r d s a).heats = s.heats := by rw [finishAns_only]
@[simp] theorem finishAns_place (r : HRow) (d : Desc) (s : State) (a : Ans) : (finishAns r d s a).place = s.place := by rw [finishAns_only]
@[simp] theorem finishAns_net (r : HRow) (d : Desc) (s : State) (a : Ans) : (finishAns r d s a).net = s.net := by rw [finishAns_only]
@[simp] theorem finishAns_dir (r : HRow) (d : Desc) (s : State) (a : Ans) : (finishAns r d s a).dir = s.dir := by rw [finishAns_only]
@[simp] theorem finishAns_sel (r : HRow) (d : Desc) (s : State) (a : Ans) : (finishAns r d s a).sel = s.sel := by rw [finishAns_only]
@[simp] theorem finishAns_scratch (r : HRow) (d : Desc) (s : State) (a : Ans) : (finishAns r d s a).scratch = s.scratch := by rw [finishAns_only]
@[simp] theorem finishAns_buffer (r : HRow) (d : Desc) (s : State) (a : Ans) : (finishAns r d s a).buffer = s.buffer := by rw [finishAns_only]
@[simp] theorem finishAns_acct (r : HRow) (d : Desc) (s : State) (a : Ans) : (finishAns r d s a).acct = s.acct := by rw [finishAns_only]
@[simp] theorem finishAns_closed (r : HRow) (d : Desc) (s : State) (a : Ans) : (finishAns r d s a).closed = s.closed := by rw [finishAns_only]
@[simp] theorem finishAns_nodeRecs (r : HRow) (d : Desc) (s : State) (a : Ans) : (finishAns r d s a).nodeRecs = s.nodeRecs := by rw [finishAns_only]
@[simp] theorem finishAns_heldNext (r : HRow) (d : Desc) (s : State) (a : Ans) : (finishAns r d s a).heldNext = s.heldNext := by rw [finishAns_only]
@[simp] theorem finishAns_shares (r : HRow) (d : Desc) (s : State) (a : Ans) : (finishAns r d s a).shares = s.shares := by rw [finishAns_only]
@[simp] theorem finishAns_shareShadow (r : HRow) (d : Desc) (s : State) (a : Ans) : (finishAns r d s a).shareShadow = s.shareShadow := by rw [finishAns_only]
@[simp] theorem finishAns_arb (r : HRow) (d : Desc) (s : State) (a : Ans) : (finishAns r d s a).arb = s.arb := by rw [finishAns_only]
@[simp] theorem finishAns_arbShadow (r : HRow) (d : Desc) (s : State) (a : Ans) : (finishAns r d s a).arbShadow = s.arbShadow := by rw [finishAns_only]
@[simp] theorem finishAns_deficits (r : HRow) (d : Desc) (s : State) (a : Ans) : (finishAns r d s a).deficits = s.deficits := by rw [finishAns_only]
@[simp] theorem finishAns_nodeNo (r : HRow) (d : Desc) (s : State) (a : Ans) : (finishAns r d s a).nodeNo = s.nodeNo := by rw [finishAns_only]
@[simp] theorem finishAns_partition (r : HRow) (d : Desc) (s : State) (a : Ans) : (finishAns r d s a).partition = s.partition := by rw [finishAns_only]
@[simp] theorem finishAns_fenced (r : HRow) (d : Desc) (s : State) (a : Ans) : (finishAns r d s a).fenced = s.fenced := by rw [finishAns_only]

/-! ### sendPacket -/

theorem sendPacket_only (s : State) (a b i : Nat) (r : Bool) :
    sendPacket s a b i r = { s with net := (sendPacket s a b i r).net } := by
  unfold sendPacket
  split
  · rfl
  · split <;> rfl

@[simp] theorem sendPacket_pending (s : State) (a b i : Nat) (r : Bool) : (sendPacket s a b i r).pending = s.pending := by rw [sendPacket_only]
@[simp] theorem sendPacket_out (s : State) (a b i : Nat) (r : Bool) : (sendPacket s a b i r).out = s.out := by rw [sendPacket_only]
@[simp] theorem sendPacket_free (s : State) (a b i : Nat) (r : Bool) : (sendPacket s a b i r).free = s.free := by rw [sendPacket_only]
@[simp] theorem sendPacket_boot (s : State) (a b i : Nat) (r : Bool) : (sendPacket s a b i r).boot = s.boot := by rw [sendPacket_only]
@[simp] theorem sendPacket_port0 (s : State) (a b i : Nat) (r : Bool) : (sendPacket s a b i r).port0 = s.port0 := by rw [sendPacket_only]
@[simp] theorem sendPacket_port1 (s : State) (a b i : Nat) (r : Bool) : (sendPacket s a b i r).port1 = s.port1 := by rw [sendPacket_only]
@[simp] theorem sendPacket_clusters (s : State) (a b i : Nat) (r : Bool) : (sendPacket s a b i r).clusters = s.clusters := by rw [sendPacket_only]
@[simp] theorem sendPacket_thermal (s : State) (a b i : Nat) (r : Bool) : (sendPacket s a b i r).thermal = s.thermal := by rw [sendPacket_only]
@[simp] theorem sendPacket_cal (s : State) (a b i : Nat) (r : Bool) : (sendPacket s a b i r).cal = s.cal := by rw [sendPacket_only]
@[simp] theorem sendPacket_time (s : State) (a b i : Nat) (r : Bool) : (sendPacket s a b i r).time = s.time := by rw [sendPacket_only]
@[simp] theorem sendPacket_funcs (s : State) (a b i : Nat) (r : Bool) : (sendPacket s a b i r).funcs = s.funcs := by rw [sendPacket_only]
@[simp] theorem sendPacket_flights (s : State) (a b i : Nat) (r : Bool) : (sendPacket s a b i r).flights = s.flights := by rw [sendPacket_only]
@[simp] theorem sendPacket_delayed (s : State) (a b i : Nat) (r : Bool) : (sendPacket s a b i r).delayed = s.delayed := by rw [sendPacket_only]
@[simp] theorem sendPacket_sec (s : State) (a b i : Nat) (r : Bool) : (sendPacket s a b i r).sec = s.sec := by rw [sendPacket_only]
@[simp] theorem sendPacket_domains (s : State) (a b i : Nat) (r : Bool) : (sendPacket s a b i r).domains = s.domains := by rw [sendPacket_only]
@[simp] theorem sendPacket_slices (s : State) (a b i : Nat) (r : Bool) : (sendPacket s a b i r).slices = s.slices := by rw [sendPacket_only]
@[simp] theorem sendPacket_marginRec (s : State) (a b i : Nat) (r : Bool) : (sendPacket s a b i r).marginRec = s.marginRec := by rw [sendPacket_only]
@[simp] theorem sendPacket_marginShadow (s : State) (a b i : Nat) (r : Bool) : (sendPacket s a b i r).marginShadow = s.marginShadow := by rw [sendPacket_only]
@[simp] theorem sendPacket_margins (s : State) (a b i : Nat) (r : Bool) : (sendPacket s a b i r).margins = s.margins := by rw [sendPacket_only]
@[simp] theorem sendPacket_counters (s : State) (a b i : Nat) (r : Bool) : (sendPacket s a b i r).counters = s.counters := by rw [sendPacket_only]
@[simp] theorem sendPacket_chans (s : State) (a b i : Nat) (r : Bool) : (sendPacket s a b i r).chans = s.chans := by rw [sendPacket_only]
@[simp] theorem sendPacket_rowOps (s : State) (a b i : Nat) (r : Bool) : (sendPacket s a b i r).rowOps = s.rowOps := by rw [sendPacket_only]
@[simp] theorem sendPacket_rowOpNo (s : State) (a b i : Nat) (r : Bool) : (sendPacket s a b i r).rowOpNo = s.rowOpNo := by rw [sendPacket_only]
@[simp] theorem sendPacket_bulk (s : State) (a b i : Nat) (r : Bool) : (sendPacket s a b i r).bulk = s.bulk := by rw [sendPacket_only]
@[simp] theorem sendPacket_mem (s : State) (a b i : Nat) (r : Bool) : (sendPacket s a b i r).mem = s.mem := by rw [sendPacket_only]
@[simp] theorem sendPacket_seqs (s : State) (a b i : Nat) (r : Bool) : (sendPacket s a b i r).seqs = s.seqs := by rw [sendPacket_only]
@[simp] theorem sendPacket_seqGen (s : State) (a b i : Nat) (r : Bool) : (sendPacket s a b i r).seqGen = s.seqGen := by rw [sendPacket_only]
@[simp] theorem sendPacket_models (s : State) (a b i : Nat) (r : Bool) : (sendPacket s a b i r).models = s.models := by rw [sendPacket_only]
@[simp] theorem sendPacket_courses (s : State) (a b i : Nat) (r : Bool) : (sendPacket s a b i r).courses = s.courses := by rw [sendPacket_only]
@[simp] theorem sendPacket_heats (s : State) (a b i : Nat) (r : Bool) : (sendPacket s a b i r).heats = s.heats := by rw [sendPacket_only]
@[simp] theorem sendPacket_place (s : State) (a b i : Nat) (r : Bool) : (sendPacket s a b i r).place = s.place := by rw [sendPacket_only]
@[simp] theorem sendPacket_dir (s : State) (a b i : Nat) (r : Bool) : (sendPacket s a b i r).dir = s.dir := by rw [sendPacket_only]
@[simp] theorem sendPacket_sel (s : State) (a b i : Nat) (r : Bool) : (sendPacket s a b i r).sel = s.sel := by rw [sendPacket_only]
@[simp] theorem sendPacket_scratch (s : State) (a b i : Nat) (r : Bool) : (sendPacket s a b i r).scratch = s.scratch := by rw [sendPacket_only]
@[simp] theorem sendPacket_buffer (s : State) (a b i : Nat) (r : Bool) : (sendPacket s a b i r).buffer = s.buffer := by rw [sendPacket_only]
@[simp] theorem sendPacket_acct (s : State) (a b i : Nat) (r : Bool) : (sendPacket s a b i r).acct = s.acct := by rw [sendPacket_only]
@[simp] theorem sendPacket_closed (s : State) (a b i : Nat) (r : Bool) : (sendPacket s a b i r).closed = s.closed := by rw [sendPacket_only]
@[simp] theorem sendPacket_nodeRecs (s : State) (a b i : Nat) (r : Bool) : (sendPacket s a b i r).nodeRecs = s.nodeRecs := by rw [sendPacket_only]
@[simp] theorem sendPacket_heldNext (s : State) (a b i : Nat) (r : Bool) : (sendPacket s a b i r).heldNext = s.heldNext := by rw [sendPacket_only]
@[simp] theorem sendPacket_shares (s : State) (a b i : Nat) (r : Bool) : (sendPacket s a b i r).shares = s.shares := by rw [sendPacket_only]
@[simp] theorem sendPacket_shareShadow (s : State) (a b i : Nat) (r : Bool) : (sendPacket s a b i r).shareShadow = s.shareShadow := by rw [sendPacket_only]
@[simp] theorem sendPacket_arb (s : State) (a b i : Nat) (r : Bool) : (sendPacket s a b i r).arb = s.arb := by rw [sendPacket_only]
@[simp] theorem sendPacket_arbShadow (s : State) (a b i : Nat) (r : Bool) : (sendPacket s a b i r).arbShadow = s.arbShadow := by rw [sendPacket_only]
@[simp] theorem sendPacket_deficits (s : State) (a b i : Nat) (r : Bool) : (sendPacket s a b i r).deficits = s.deficits := by rw [sendPacket_only]
@[simp] theorem sendPacket_dma (s : State) (a b i : Nat) (r : Bool) : (sendPacket s a b i r).dma = s.dma := by rw [sendPacket_only]
@[simp] theorem sendPacket_nodeNo (s : State) (a b i : Nat) (r : Bool) : (sendPacket s a b i r).nodeNo = s.nodeNo := by rw [sendPacket_only]
@[simp] theorem sendPacket_partition (s : State) (a b i : Nat) (r : Bool) : (sendPacket s a b i r).partition = s.partition := by rw [sendPacket_only]
@[simp] theorem sendPacket_fenced (s : State) (a b i : Nat) (r : Bool) : (sendPacket s a b i r).fenced = s.fenced := by rw [sendPacket_only]

/-! ### sendAll -/

theorem sendAll_only (s : State) (a b n : Nat) :
    sendAll s a b n = { s with net := (sendAll s a b n).net } := by
  unfold sendAll
  generalize List.range n = l
  induction l generalizing s with
  | nil => rfl
  | cons a l ih => rw [List.foldl_cons, ih, sendPacket_only]

@[simp] theorem sendAll_pending (s : State) (a b n : Nat) : (sendAll s a b n).pending = s.pending := by rw [sendAll_only]
@[simp] theorem sendAll_out (s : State) (a b n : Nat) : (sendAll s a b n).out = s.out := by rw [sendAll_only]
@[simp] theorem sendAll_free (s : State) (a b n : Nat) : (sendAll s a b n).free = s.free := by rw [sendAll_only]
@[simp] theorem sendAll_boot (s : State) (a b n : Nat) : (sendAll s a b n).boot = s.boot := by rw [sendAll_only]
@[simp] theorem sendAll_port0 (s : State) (a b n : Nat) : (sendAll s a b n).port0 = s.port0 := by rw [sendAll_only]
@[simp] theorem sendAll_port1 (s : State) (a b n : Nat) : (sendAll s a b n).port1 = s.port1 := by rw [sendAll_only]
@[simp] theorem sendAll_clusters (s : State) (a b n : Nat) : (sendAll s a b n).clusters = s.clusters := by rw [sendAll_only]
@[simp] theorem sendAll_thermal (s : State) (a b n : Nat) : (sendAll s a b n).thermal = s.thermal := by rw [sendAll_only]
@[simp] theorem sendAll_cal (s : State) (a b n : Nat) : (sendAll s a b n).cal = s.cal := by rw [sendAll_only]
@[simp] theorem sendAll_time (s : State) (a b n : Nat) : (sendAll s a b n).time = s.time := by rw [sendAll_only]
@[simp] theorem sendAll_funcs (s : State) (a b n : Nat) : (sendAll s a b n).funcs = s.funcs := by rw [sendAll_only]
@[simp] theorem sendAll_flights (s : State) (a b n : Nat) : (sendAll s a b n).flights = s.flights := by rw [sendAll_only]
@[simp] theorem sendAll_delayed (s : State) (a b n : Nat) : (sendAll s a b n).delayed = s.delayed := by rw [sendAll_only]
@[simp] theorem sendAll_sec (s : State) (a b n : Nat) : (sendAll s a b n).sec = s.sec := by rw [sendAll_only]
@[simp] theorem sendAll_domains (s : State) (a b n : Nat) : (sendAll s a b n).domains = s.domains := by rw [sendAll_only]
@[simp] theorem sendAll_slices (s : State) (a b n : Nat) : (sendAll s a b n).slices = s.slices := by rw [sendAll_only]
@[simp] theorem sendAll_marginRec (s : State) (a b n : Nat) : (sendAll s a b n).marginRec = s.marginRec := by rw [sendAll_only]
@[simp] theorem sendAll_marginShadow (s : State) (a b n : Nat) : (sendAll s a b n).marginShadow = s.marginShadow := by rw [sendAll_only]
@[simp] theorem sendAll_margins (s : State) (a b n : Nat) : (sendAll s a b n).margins = s.margins := by rw [sendAll_only]
@[simp] theorem sendAll_counters (s : State) (a b n : Nat) : (sendAll s a b n).counters = s.counters := by rw [sendAll_only]
@[simp] theorem sendAll_chans (s : State) (a b n : Nat) : (sendAll s a b n).chans = s.chans := by rw [sendAll_only]
@[simp] theorem sendAll_rowOps (s : State) (a b n : Nat) : (sendAll s a b n).rowOps = s.rowOps := by rw [sendAll_only]
@[simp] theorem sendAll_rowOpNo (s : State) (a b n : Nat) : (sendAll s a b n).rowOpNo = s.rowOpNo := by rw [sendAll_only]
@[simp] theorem sendAll_bulk (s : State) (a b n : Nat) : (sendAll s a b n).bulk = s.bulk := by rw [sendAll_only]
@[simp] theorem sendAll_mem (s : State) (a b n : Nat) : (sendAll s a b n).mem = s.mem := by rw [sendAll_only]
@[simp] theorem sendAll_seqs (s : State) (a b n : Nat) : (sendAll s a b n).seqs = s.seqs := by rw [sendAll_only]
@[simp] theorem sendAll_seqGen (s : State) (a b n : Nat) : (sendAll s a b n).seqGen = s.seqGen := by rw [sendAll_only]
@[simp] theorem sendAll_models (s : State) (a b n : Nat) : (sendAll s a b n).models = s.models := by rw [sendAll_only]
@[simp] theorem sendAll_courses (s : State) (a b n : Nat) : (sendAll s a b n).courses = s.courses := by rw [sendAll_only]
@[simp] theorem sendAll_heats (s : State) (a b n : Nat) : (sendAll s a b n).heats = s.heats := by rw [sendAll_only]
@[simp] theorem sendAll_place (s : State) (a b n : Nat) : (sendAll s a b n).place = s.place := by rw [sendAll_only]
@[simp] theorem sendAll_dir (s : State) (a b n : Nat) : (sendAll s a b n).dir = s.dir := by rw [sendAll_only]
@[simp] theorem sendAll_sel (s : State) (a b n : Nat) : (sendAll s a b n).sel = s.sel := by rw [sendAll_only]
@[simp] theorem sendAll_scratch (s : State) (a b n : Nat) : (sendAll s a b n).scratch = s.scratch := by rw [sendAll_only]
@[simp] theorem sendAll_buffer (s : State) (a b n : Nat) : (sendAll s a b n).buffer = s.buffer := by rw [sendAll_only]
@[simp] theorem sendAll_acct (s : State) (a b n : Nat) : (sendAll s a b n).acct = s.acct := by rw [sendAll_only]
@[simp] theorem sendAll_closed (s : State) (a b n : Nat) : (sendAll s a b n).closed = s.closed := by rw [sendAll_only]
@[simp] theorem sendAll_nodeRecs (s : State) (a b n : Nat) : (sendAll s a b n).nodeRecs = s.nodeRecs := by rw [sendAll_only]
@[simp] theorem sendAll_heldNext (s : State) (a b n : Nat) : (sendAll s a b n).heldNext = s.heldNext := by rw [sendAll_only]
@[simp] theorem sendAll_shares (s : State) (a b n : Nat) : (sendAll s a b n).shares = s.shares := by rw [sendAll_only]
@[simp] theorem sendAll_shareShadow (s : State) (a b n : Nat) : (sendAll s a b n).shareShadow = s.shareShadow := by rw [sendAll_only]
@[simp] theorem sendAll_arb (s : State) (a b n : Nat) : (sendAll s a b n).arb = s.arb := by rw [sendAll_only]
@[simp] theorem sendAll_arbShadow (s : State) (a b n : Nat) : (sendAll s a b n).arbShadow = s.arbShadow := by rw [sendAll_only]
@[simp] theorem sendAll_deficits (s : State) (a b n : Nat) : (sendAll s a b n).deficits = s.deficits := by rw [sendAll_only]
@[simp] theorem sendAll_dma (s : State) (a b n : Nat) : (sendAll s a b n).dma = s.dma := by rw [sendAll_only]
@[simp] theorem sendAll_nodeNo (s : State) (a b n : Nat) : (sendAll s a b n).nodeNo = s.nodeNo := by rw [sendAll_only]
@[simp] theorem sendAll_partition (s : State) (a b n : Nat) : (sendAll s a b n).partition = s.partition := by rw [sendAll_only]
@[simp] theorem sendAll_fenced (s : State) (a b n : Nat) : (sendAll s a b n).fenced = s.fenced := by rw [sendAll_only]

/-! ### launch -/

theorem launch_only (s : State) (n : Nat) (m : SendMsg) :
    launch s n m = { s with net := (launch s n m).net, out := (launch s n m).out } := by
  unfold launch
  split
  · rfl
  · dsimp only; rw [sendAll_only]; rfl

@[simp] theorem launch_pending (s : State) (n : Nat) (m : SendMsg) : (launch s n m).pending = s.pending := by rw [launch_only]
@[simp] theorem launch_free (s : State) (n : Nat) (m : SendMsg) : (launch s n m).free = s.free := by rw [launch_only]
@[simp] theorem launch_boot (s : State) (n : Nat) (m : SendMsg) : (launch s n m).boot = s.boot := by rw [launch_only]
@[simp] theorem launch_port0 (s : State) (n : Nat) (m : SendMsg) : (launch s n m).port0 = s.port0 := by rw [launch_only]
@[simp] theorem launch_port1 (s : State) (n : Nat) (m : SendMsg) : (launch s n m).port1 = s.port1 := by rw [launch_only]
@[simp] theorem launch_clusters (s : State) (n : Nat) (m : SendMsg) : (launch s n m).clusters = s.clusters := by rw [launch_only]
@[simp] theorem launch_thermal (s : State) (n : Nat) (m : SendMsg) : (launch s n m).thermal = s.thermal := by rw [launch_only]
@[simp] theorem launch_cal (s : State) (n : Nat) (m : SendMsg) : (launch s n m).cal = s.cal := by rw [launch_only]
@[simp] theorem launch_time (s : State) (n : Nat) (m : SendMsg) : (launch s n m).time = s.time := by rw [launch_only]
@[simp] theorem launch_funcs (s : State) (n : Nat) (m : SendMsg) : (launch s n m).funcs = s.funcs := by rw [launch_only]
@[simp] theorem launch_flights (s : State) (n : Nat) (m : SendMsg) : (launch s n m).flights = s.flights := by rw [launch_only]
@[simp] theorem launch_delayed (s : State) (n : Nat) (m : SendMsg) : (launch s n m).delayed = s.delayed := by rw [launch_only]
@[simp] theorem launch_sec (s : State) (n : Nat) (m : SendMsg) : (launch s n m).sec = s.sec := by rw [launch_only]
@[simp] theorem launch_domains (s : State) (n : Nat) (m : SendMsg) : (launch s n m).domains = s.domains := by rw [launch_only]
@[simp] theorem launch_slices (s : State) (n : Nat) (m : SendMsg) : (launch s n m).slices = s.slices := by rw [launch_only]
@[simp] theorem launch_marginRec (s : State) (n : Nat) (m : SendMsg) : (launch s n m).marginRec = s.marginRec := by rw [launch_only]
@[simp] theorem launch_marginShadow (s : State) (n : Nat) (m : SendMsg) : (launch s n m).marginShadow = s.marginShadow := by rw [launch_only]
@[simp] theorem launch_margins (s : State) (n : Nat) (m : SendMsg) : (launch s n m).margins = s.margins := by rw [launch_only]
@[simp] theorem launch_counters (s : State) (n : Nat) (m : SendMsg) : (launch s n m).counters = s.counters := by rw [launch_only]
@[simp] theorem launch_chans (s : State) (n : Nat) (m : SendMsg) : (launch s n m).chans = s.chans := by rw [launch_only]
@[simp] theorem launch_rowOps (s : State) (n : Nat) (m : SendMsg) : (launch s n m).rowOps = s.rowOps := by rw [launch_only]
@[simp] theorem launch_rowOpNo (s : State) (n : Nat) (m : SendMsg) : (launch s n m).rowOpNo = s.rowOpNo := by rw [launch_only]
@[simp] theorem launch_bulk (s : State) (n : Nat) (m : SendMsg) : (launch s n m).bulk = s.bulk := by rw [launch_only]
@[simp] theorem launch_mem (s : State) (n : Nat) (m : SendMsg) : (launch s n m).mem = s.mem := by rw [launch_only]
@[simp] theorem launch_seqs (s : State) (n : Nat) (m : SendMsg) : (launch s n m).seqs = s.seqs := by rw [launch_only]
@[simp] theorem launch_seqGen (s : State) (n : Nat) (m : SendMsg) : (launch s n m).seqGen = s.seqGen := by rw [launch_only]
@[simp] theorem launch_models (s : State) (n : Nat) (m : SendMsg) : (launch s n m).models = s.models := by rw [launch_only]
@[simp] theorem launch_courses (s : State) (n : Nat) (m : SendMsg) : (launch s n m).courses = s.courses := by rw [launch_only]
@[simp] theorem launch_heats (s : State) (n : Nat) (m : SendMsg) : (launch s n m).heats = s.heats := by rw [launch_only]
@[simp] theorem launch_place (s : State) (n : Nat) (m : SendMsg) : (launch s n m).place = s.place := by rw [launch_only]
@[simp] theorem launch_dir (s : State) (n : Nat) (m : SendMsg) : (launch s n m).dir = s.dir := by rw [launch_only]
@[simp] theorem launch_sel (s : State) (n : Nat) (m : SendMsg) : (launch s n m).sel = s.sel := by rw [launch_only]
@[simp] theorem launch_scratch (s : State) (n : Nat) (m : SendMsg) : (launch s n m).scratch = s.scratch := by rw [launch_only]
@[simp] theorem launch_buffer (s : State) (n : Nat) (m : SendMsg) : (launch s n m).buffer = s.buffer := by rw [launch_only]
@[simp] theorem launch_acct (s : State) (n : Nat) (m : SendMsg) : (launch s n m).acct = s.acct := by rw [launch_only]
@[simp] theorem launch_closed (s : State) (n : Nat) (m : SendMsg) : (launch s n m).closed = s.closed := by rw [launch_only]
@[simp] theorem launch_nodeRecs (s : State) (n : Nat) (m : SendMsg) : (launch s n m).nodeRecs = s.nodeRecs := by rw [launch_only]
@[simp] theorem launch_heldNext (s : State) (n : Nat) (m : SendMsg) : (launch s n m).heldNext = s.heldNext := by rw [launch_only]
@[simp] theorem launch_shares (s : State) (n : Nat) (m : SendMsg) : (launch s n m).shares = s.shares := by rw [launch_only]
@[simp] theorem launch_shareShadow (s : State) (n : Nat) (m : SendMsg) : (launch s n m).shareShadow = s.shareShadow := by rw [launch_only]
@[simp] theorem launch_arb (s : State) (n : Nat) (m : SendMsg) : (launch s n m).arb = s.arb := by rw [launch_only]
@[simp] theorem launch_arbShadow (s : State) (n : Nat) (m : SendMsg) : (launch s n m).arbShadow = s.arbShadow := by rw [launch_only]
@[simp] theorem launch_deficits (s : State) (n : Nat) (m : SendMsg) : (launch s n m).deficits = s.deficits := by rw [launch_only]
@[simp] theorem launch_dma (s : State) (n : Nat) (m : SendMsg) : (launch s n m).dma = s.dma := by rw [launch_only]
@[simp] theorem launch_nodeNo (s : State) (n : Nat) (m : SendMsg) : (launch s n m).nodeNo = s.nodeNo := by rw [launch_only]
@[simp] theorem launch_partition (s : State) (n : Nat) (m : SendMsg) : (launch s n m).partition = s.partition := by rw [launch_only]
@[simp] theorem launch_fenced (s : State) (n : Nat) (m : SendMsg) : (launch s n m).fenced = s.fenced := by rw [launch_only]

/-! ### sendMgmt -/

theorem sendMgmt_only (s : State) (a b c l x : Nat) :
    sendMgmt s a b c l x = { s with net := (sendMgmt s a b c l x).net, out := (sendMgmt s a b c l x).out } := by
  unfold sendMgmt
  split
  · rfl
  · have hU : ∀ t r s : State, { ({ s with net := r.net, out := r.out } : State) with net := t.net, out := t.out }
        = { s with net := t.net, out := t.out } := fun _ _ _ => rfl
    dsimp only
    refine only_trans (U := fun t s => { s with net := t.net, out := t.out }) hU (t := emit s (.mgmt a b c l x)) rfl ?_
    generalize emit s (.mgmt a b c l x) = r
    refine only_trans (U := fun t s => { s with net := t.net, out := t.out }) hU (s := r)
      (t := if (getWq r (mgmtKey a)).isSome then r else setWq r (mgmtKey a) { record := mgmtRecord a }) ?_ ?_
    · split <;> rfl
    generalize (if (getWq r (mgmtKey a)).isSome then r else setWq r (mgmtKey a) { record := mgmtRecord a }) = r
    split
    · rfl
    · split
      · exact launch_only _ _ _
      · rfl

@[simp] theorem sendMgmt_pending (s : State) (a b c l x : Nat) : (sendMgmt s a b c l x).pending = s.pending := by rw [sendMgmt_only]
@[simp] theorem sendMgmt_free (s : State) (a b c l x : Nat) : (sendMgmt s a b c l x).free = s.free := by rw [sendMgmt_only]
@[simp] theorem sendMgmt_boot (s : State) (a b c l x : Nat) : (sendMgmt s a b c l x).boot = s.boot := by rw [sendMgmt_only]
@[simp] theorem sendMgmt_port0 (s : State) (a b c l x : Nat) : (sendMgmt s a b c l x).port0 = s.port0 := by rw [sendMgmt_only]
@[simp] theorem sendMgmt_port1 (s : State) (a b c l x : Nat) : (sendMgmt s a b c l x).port1 = s.port1 := by rw [sendMgmt_only]
@[simp] theorem sendMgmt_clusters (s : State) (a b c l x : Nat) : (sendMgmt s a b c l x).clusters = s.clusters := by rw [sendMgmt_only]
@[simp] theorem sendMgmt_thermal (s : State) (a b c l x : Nat) : (sendMgmt s a b c l x).thermal = s.thermal := by rw [sendMgmt_only]
@[simp] theorem sendMgmt_cal (s : State) (a b c l x : Nat) : (sendMgmt s a b c l x).cal = s.cal := by rw [sendMgmt_only]
@[simp] theorem sendMgmt_time (s : State) (a b c l x : Nat) : (sendMgmt s a b c l x).time = s.time := by rw [sendMgmt_only]
@[simp] theorem sendMgmt_funcs (s : State) (a b c l x : Nat) : (sendMgmt s a b c l x).funcs = s.funcs := by rw [sendMgmt_only]
@[simp] theorem sendMgmt_flights (s : State) (a b c l x : Nat) : (sendMgmt s a b c l x).flights = s.flights := by rw [sendMgmt_only]
@[simp] theorem sendMgmt_delayed (s : State) (a b c l x : Nat) : (sendMgmt s a b c l x).delayed = s.delayed := by rw [sendMgmt_only]
@[simp] theorem sendMgmt_sec (s : State) (a b c l x : Nat) : (sendMgmt s a b c l x).sec = s.sec := by rw [sendMgmt_only]
@[simp] theorem sendMgmt_domains (s : State) (a b c l x : Nat) : (sendMgmt s a b c l x).domains = s.domains := by rw [sendMgmt_only]
@[simp] theorem sendMgmt_slices (s : State) (a b c l x : Nat) : (sendMgmt s a b c l x).slices = s.slices := by rw [sendMgmt_only]
@[simp] theorem sendMgmt_marginRec (s : State) (a b c l x : Nat) : (sendMgmt s a b c l x).marginRec = s.marginRec := by rw [sendMgmt_only]
@[simp] theorem sendMgmt_marginShadow (s : State) (a b c l x : Nat) : (sendMgmt s a b c l x).marginShadow = s.marginShadow := by rw [sendMgmt_only]
@[simp] theorem sendMgmt_margins (s : State) (a b c l x : Nat) : (sendMgmt s a b c l x).margins = s.margins := by rw [sendMgmt_only]
@[simp] theorem sendMgmt_counters (s : State) (a b c l x : Nat) : (sendMgmt s a b c l x).counters = s.counters := by rw [sendMgmt_only]
@[simp] theorem sendMgmt_chans (s : State) (a b c l x : Nat) : (sendMgmt s a b c l x).chans = s.chans := by rw [sendMgmt_only]
@[simp] theorem sendMgmt_rowOps (s : State) (a b c l x : Nat) : (sendMgmt s a b c l x).rowOps = s.rowOps := by rw [sendMgmt_only]
@[simp] theorem sendMgmt_rowOpNo (s : State) (a b c l x : Nat) : (sendMgmt s a b c l x).rowOpNo = s.rowOpNo := by rw [sendMgmt_only]
@[simp] theorem sendMgmt_bulk (s : State) (a b c l x : Nat) : (sendMgmt s a b c l x).bulk = s.bulk := by rw [sendMgmt_only]
@[simp] theorem sendMgmt_mem (s : State) (a b c l x : Nat) : (sendMgmt s a b c l x).mem = s.mem := by rw [sendMgmt_only]
@[simp] theorem sendMgmt_seqs (s : State) (a b c l x : Nat) : (sendMgmt s a b c l x).seqs = s.seqs := by rw [sendMgmt_only]
@[simp] theorem sendMgmt_seqGen (s : State) (a b c l x : Nat) : (sendMgmt s a b c l x).seqGen = s.seqGen := by rw [sendMgmt_only]
@[simp] theorem sendMgmt_models (s : State) (a b c l x : Nat) : (sendMgmt s a b c l x).models = s.models := by rw [sendMgmt_only]
@[simp] theorem sendMgmt_courses (s : State) (a b c l x : Nat) : (sendMgmt s a b c l x).courses = s.courses := by rw [sendMgmt_only]
@[simp] theorem sendMgmt_heats (s : State) (a b c l x : Nat) : (sendMgmt s a b c l x).heats = s.heats := by rw [sendMgmt_only]
@[simp] theorem sendMgmt_place (s : State) (a b c l x : Nat) : (sendMgmt s a b c l x).place = s.place := by rw [sendMgmt_only]
@[simp] theorem sendMgmt_dir (s : State) (a b c l x : Nat) : (sendMgmt s a b c l x).dir = s.dir := by rw [sendMgmt_only]
@[simp] theorem sendMgmt_sel (s : State) (a b c l x : Nat) : (sendMgmt s a b c l x).sel = s.sel := by rw [sendMgmt_only]
@[simp] theorem sendMgmt_scratch (s : State) (a b c l x : Nat) : (sendMgmt s a b c l x).scratch = s.scratch := by rw [sendMgmt_only]
@[simp] theorem sendMgmt_buffer (s : State) (a b c l x : Nat) : (sendMgmt s a b c l x).buffer = s.buffer := by rw [sendMgmt_only]
@[simp] theorem sendMgmt_acct (s : State) (a b c l x : Nat) : (sendMgmt s a b c l x).acct = s.acct := by rw [sendMgmt_only]
@[simp] theorem sendMgmt_closed (s : State) (a b c l x : Nat) : (sendMgmt s a b c l x).closed = s.closed := by rw [sendMgmt_only]
@[simp] theorem sendMgmt_nodeRecs (s : State) (a b c l x : Nat) : (sendMgmt s a b c l x).nodeRecs = s.nodeRecs := by rw [sendMgmt_only]
@[simp] theorem sendMgmt_heldNext (s : State) (a b c l x : Nat) : (sendMgmt s a b c l x).heldNext = s.heldNext := by rw [sendMgmt_only]
@[simp] theorem sendMgmt_shares (s : State) (a b c l x : Nat) : (sendMgmt s a b c l x).shares = s.shares := by rw [sendMgmt_only]
@[simp] theorem sendMgmt_shareShadow (s : State) (a b c l x : Nat) : (sendMgmt s a b c l x).shareShadow = s.shareShadow := by rw [sendMgmt_only]
@[simp] theorem sendMgmt_arb (s : State) (a b c l x : Nat) : (sendMgmt s a b c l x).arb = s.arb := by rw [sendMgmt_only]
@[simp] theorem sendMgmt_arbShadow (s : State) (a b c l x : Nat) : (sendMgmt s a b c l x).arbShadow = s.arbShadow := by rw [sendMgmt_only]
@[simp] theorem sendMgmt_deficits (s : State) (a b c l x : Nat) : (sendMgmt s a b c l x).deficits = s.deficits := by rw [sendMgmt_only]
@[simp] theorem sendMgmt_dma (s : State) (a b c l x : Nat) : (sendMgmt s a b c l x).dma = s.dma := by rw [sendMgmt_only]
@[simp] theorem sendMgmt_nodeNo (s : State) (a b c l x : Nat) : (sendMgmt s a b c l x).nodeNo = s.nodeNo := by rw [sendMgmt_only]
@[simp] theorem sendMgmt_partition (s : State) (a b c l x : Nat) : (sendMgmt s a b c l x).partition = s.partition := by rw [sendMgmt_only]
@[simp] theorem sendMgmt_fenced (s : State) (a b c l x : Nat) : (sendMgmt s a b c l x).fenced = s.fenced := by rw [sendMgmt_only]

/-! ### answerForward -/

theorem answerForward_only (s : State) (a b c l x : Nat) :
    answerForward s a b c l x = { s with net := (answerForward s a b c l x).net, out := (answerForward s a b c l x).out } := by
  exact sendMgmt_only _ _ _ _ _ _

@[simp] theorem answerForward_pending (s : State) (a b c l x : Nat) : (answerForward s a b c l x).pending = s.pending := by rw [answerForward_only]
@[simp] theorem answerForward_free (s : State) (a b c l x : Nat) : (answerForward s a b c l x).free = s.free := by rw [answerForward_only]
@[simp] theorem answerForward_boot (s : State) (a b c l x : Nat) : (answerForward s a b c l x).boot = s.boot := by rw [answerForward_only]
@[simp] theorem answerForward_port0 (s : State) (a b c l x : Nat) : (answerForward s a b c l x).port0 = s.port0 := by rw [answerForward_only]
@[simp] theorem answerForward_port1 (s : State) (a b c l x : Nat) : (answerForward s a b c l x).port1 = s.port1 := by rw [answerForward_only]
@[simp] theorem answerForward_clusters (s : State) (a b c l x : Nat) : (answerForward s a b c l x).clusters = s.clusters := by rw [answerForward_only]
@[simp] theorem answerForward_thermal (s : State) (a b c l x : Nat) : (answerForward s a b c l x).thermal = s.thermal := by rw [answerForward_only]
@[simp] theorem answerForward_cal (s : State) (a b c l x : Nat) : (answerForward s a b c l x).cal = s.cal := by rw [answerForward_only]
@[simp] theorem answerForward_time (s : State) (a b c l x : Nat) : (answerForward s a b c l x).time = s.time := by rw [answerForward_only]
@[simp] theorem answerForward_funcs (s : State) (a b c l x : Nat) : (answerForward s a b c l x).funcs = s.funcs := by rw [answerForward_only]
@[simp] theorem answerForward_flights (s : State) (a b c l x : Nat) : (answerForward s a b c l x).flights = s.flights := by rw [answerForward_only]
@[simp] theorem answerForward_delayed (s : State) (a b c l x : Nat) : (answerForward s a b c l x).delayed = s.delayed := by rw [answerForward_only]
@[simp] theorem answerForward_sec (s : State) (a b c l x : Nat) : (answerForward s a b c l x).sec = s.sec := by rw [answerForward_only]
@[simp] theorem answerForward_domains (s : State) (a b c l x : Nat) : (answerForward s a b c l x).domains = s.domains := by rw [answerForward_only]
@[simp] theorem answerForward_slices (s : State) (a b c l x : Nat) : (answerForward s a b c l x).slices = s.slices := by rw [answerForward_only]
@[simp] theorem answerForward_marginRec (s : State) (a b c l x : Nat) : (answerForward s a b c l x).marginRec = s.marginRec := by rw [answerForward_only]
@[simp] theorem answerForward_marginShadow (s : State) (a b c l x : Nat) : (answerForward s a b c l x).marginShadow = s.marginShadow := by rw [answerForward_only]
@[simp] theorem answerForward_margins (s : State) (a b c l x : Nat) : (answerForward s a b c l x).margins = s.margins := by rw [answerForward_only]
@[simp] theorem answerForward_counters (s : State) (a b c l x : Nat) : (answerForward s a b c l x).counters = s.counters := by rw [answerForward_only]
@[simp] theorem answerForward_chans (s : State) (a b c l x : Nat) : (answerForward s a b c l x).chans = s.chans := by rw [answerForward_only]
@[simp] theorem answerForward_rowOps (s : State) (a b c l x : Nat) : (answerForward s a b c l x).rowOps = s.rowOps := by rw [answerForward_only]
@[simp] theorem answerForward_rowOpNo (s : State) (a b c l x : Nat) : (answerForward s a b c l x).rowOpNo = s.rowOpNo := by rw [answerForward_only]
@[simp] theorem answerForward_bulk (s : State) (a b c l x : Nat) : (answerForward s a b c l x).bulk = s.bulk := by rw [answerForward_only]
@[simp] theorem answerForward_mem (s : State) (a b c l x : Nat) : (answerForward s a b c l x).mem = s.mem := by rw [answerForward_only]
@[simp] theorem answerForward_seqs (s : State) (a b c l x : Nat) : (answerForward s a b c l x).seqs = s.seqs := by rw [answerForward_only]
@[simp] theorem answerForward_seqGen (s : State) (a b c l x : Nat) : (answerForward s a b c l x).seqGen = s.seqGen := by rw [answerForward_only]
@[simp] theorem answerForward_models (s : State) (a b c l x : Nat) : (answerForward s a b c l x).models = s.models := by rw [answerForward_only]
@[simp] theorem answerForward_courses (s : State) (a b c l x : Nat) : (answerForward s a b c l x).courses = s.courses := by rw [answerForward_only]
@[simp] theorem answerForward_heats (s : State) (a b c l x : Nat) : (answerForward s a b c l x).heats = s.heats := by rw [answerForward_only]
@[simp] theorem answerForward_place (s : State) (a b c l x : Nat) : (answerForward s a b c l x).place = s.place := by rw [answerForward_only]
@[simp] theorem answerForward_dir (s : State) (a b c l x : Nat) : (answerForward s a b c l x).dir = s.dir := by rw [answerForward_only]
@[simp] theorem answerForward_sel (s : State) (a b c l x : Nat) : (answerForward s a b c l x).sel = s.sel := by rw [answerForward_only]
@[simp] theorem answerForward_scratch (s : State) (a b c l x : Nat) : (answerForward s a b c l x).scratch = s.scratch := by rw [answerForward_only]
@[simp] theorem answerForward_buffer (s : State) (a b c l x : Nat) : (answerForward s a b c l x).buffer = s.buffer := by rw [answerForward_only]
@[simp] theorem answerForward_acct (s : State) (a b c l x : Nat) : (answerForward s a b c l x).acct = s.acct := by rw [answerForward_only]
@[simp] theorem answerForward_closed (s : State) (a b c l x : Nat) : (answerForward s a b c l x).closed = s.closed := by rw [answerForward_only]
@[simp] theorem answerForward_nodeRecs (s : State) (a b c l x : Nat) : (answerForward s a b c l x).nodeRecs = s.nodeRecs := by rw [answerForward_only]
@[simp] theorem answerForward_heldNext (s : State) (a b c l x : Nat) : (answerForward s a b c l x).heldNext = s.heldNext := by rw [answerForward_only]
@[simp] theorem answerForward_shares (s : State) (a b c l x : Nat) : (answerForward s a b c l x).shares = s.shares := by rw [answerForward_only]
@[simp] theorem answerForward_shareShadow (s : State) (a b c l x : Nat) : (answerForward s a b c l x).shareShadow = s.shareShadow := by rw [answerForward_only]
@[simp] theorem answerForward_arb (s : State) (a b c l x : Nat) : (answerForward s a b c l x).arb = s.arb := by rw [answerForward_only]
@[simp] theorem answerForward_arbShadow (s : State) (a b c l x : Nat) : (answerForward s a b c l x).arbShadow = s.arbShadow := by rw [answerForward_only]
@[simp] theorem answerForward_deficits (s : State) (a b c l x : Nat) : (answerForward s a b c l x).deficits = s.deficits := by rw [answerForward_only]
@[simp] theorem answerForward_dma (s : State) (a b c l x : Nat) : (answerForward s a b c l x).dma = s.dma := by rw [answerForward_only]
@[simp] theorem answerForward_nodeNo (s : State) (a b c l x : Nat) : (answerForward s a b c l x).nodeNo = s.nodeNo := by rw [answerForward_only]
@[simp] theorem answerForward_partition (s : State) (a b c l x : Nat) : (answerForward s a b c l x).partition = s.partition := by rw [answerForward_only]
@[simp] theorem answerForward_fenced (s : State) (a b c l x : Nat) : (answerForward s a b c l x).fenced = s.fenced := by rw [answerForward_only]

/-! ### finishFlight -/

theorem finishFlight_only (s : State) (g : Flight) (st : Status) (r a : Nat) :
    finishFlight s g st r a = { s with sec := (finishFlight s g st r a).sec, funcs := (finishFlight s g st r a).funcs, out := (finishFlight s g st r a).out, delayed := (finishFlight s g st r a).delayed, net := (finishFlight s g st r a).net } := by
  unfold finishFlight
  dsimp only
  split
  · rw [answerForward_only, serviceEnds_only]
  · rw [respond_only, serviceEnds_only]

@[simp] theorem finishFlight_pending (s : State) (g : Flight) (st : Status) (r a : Nat) : (finishFlight s g st r a).pending = s.pending := by rw [finishFlight_only]
@[simp] theorem finishFlight_free (s : State) (g : Flight) (st : Status) (r a : Nat) : (finishFlight s g st r a).free = s.free := by rw [finishFlight_only]
@[simp] theorem finishFlight_boot (s : State) (g : Flight) (st : Status) (r a : Nat) : (finishFlight s g st r a).boot = s.boot := by rw [finishFlight_only]
@[simp] theorem finishFlight_port0 (s : State) (g : Flight) (st : Status) (r a : Nat) : (finishFlight s g st r a).port0 = s.port0 := by rw [finishFlight_only]
@[simp] theorem finishFlight_port1 (s : State) (g : Flight) (st : Status) (r a : Nat) : (finishFlight s g st r a).port1 = s.port1 := by rw [finishFlight_only]
@[simp] theorem finishFlight_clusters (s : State) (g : Flight) (st : Status) (r a : Nat) : (finishFlight s g st r a).clusters = s.clusters := by rw [finishFlight_only]
@[simp] theorem finishFlight_thermal (s : State) (g : Flight) (st : Status) (r a : Nat) : (finishFlight s g st r a).thermal = s.thermal := by rw [finishFlight_only]
@[simp] theorem finishFlight_cal (s : State) (g : Flight) (st : Status) (r a : Nat) : (finishFlight s g st r a).cal = s.cal := by rw [finishFlight_only]
@[simp] theorem finishFlight_time (s : State) (g : Flight) (st : Status) (r a : Nat) : (finishFlight s g st r a).time = s.time := by rw [finishFlight_only]
@[simp] theorem finishFlight_flights (s : State) (g : Flight) (st : Status) (r a : Nat) : (finishFlight s g st r a).flights = s.flights := by rw [finishFlight_only]
@[simp] theorem finishFlight_domains (s : State) (g : Flight) (st : Status) (r a : Nat) : (finishFlight s g st r a).domains = s.domains := by rw [finishFlight_only]
@[simp] theorem finishFlight_slices (s : State) (g : Flight) (st : Status) (r a : Nat) : (finishFlight s g st r a).slices = s.slices := by rw [finishFlight_only]
@[simp] theorem finishFlight_marginRec (s : State) (g : Flight) (st : Status) (r a : Nat) : (finishFlight s g st r a).marginRec = s.marginRec := by rw [finishFlight_only]
@[simp] theorem finishFlight_marginShadow (s : State) (g : Flight) (st : Status) (r a : Nat) : (finishFlight s g st r a).marginShadow = s.marginShadow := by rw [finishFlight_only]
@[simp] theorem finishFlight_margins (s : State) (g : Flight) (st : Status) (r a : Nat) : (finishFlight s g st r a).margins = s.margins := by rw [finishFlight_only]
@[simp] theorem finishFlight_counters (s : State) (g : Flight) (st : Status) (r a : Nat) : (finishFlight s g st r a).counters = s.counters := by rw [finishFlight_only]
@[simp] theorem finishFlight_chans (s : State) (g : Flight) (st : Status) (r a : Nat) : (finishFlight s g st r a).chans = s.chans := by rw [finishFlight_only]
@[simp] theorem finishFlight_rowOps (s : State) (g : Flight) (st : Status) (r a : Nat) : (finishFlight s g st r a).rowOps = s.rowOps := by rw [finishFlight_only]
@[simp] theorem finishFlight_rowOpNo (s : State) (g : Flight) (st : Status) (r a : Nat) : (finishFlight s g st r a).rowOpNo = s.rowOpNo := by rw [finishFlight_only]
@[simp] theorem finishFlight_bulk (s : State) (g : Flight) (st : Status) (r a : Nat) : (finishFlight s g st r a).bulk = s.bulk := by rw [finishFlight_only]
@[simp] theorem finishFlight_mem (s : State) (g : Flight) (st : Status) (r a : Nat) : (finishFlight s g st r a).mem = s.mem := by rw [finishFlight_only]
@[simp] theorem finishFlight_seqs (s : State) (g : Flight) (st : Status) (r a : Nat) : (finishFlight s g st r a).seqs = s.seqs := by rw [finishFlight_only]
@[simp] theorem finishFlight_seqGen (s : State) (g : Flight) (st : Status) (r a : Nat) : (finishFlight s g st r a).seqGen = s.seqGen := by rw [finishFlight_only]
@[simp] theorem finishFlight_models (s : State) (g : Flight) (st : Status) (r a : Nat) : (finishFlight s g st r a).models = s.models := by rw [finishFlight_only]
@[simp] theorem finishFlight_courses (s : State) (g : Flight) (st : Status) (r a : Nat) : (finishFlight s g st r a).courses = s.courses := by rw [finishFlight_only]
@[simp] theorem finishFlight_heats (s : State) (g : Flight) (st : Status) (r a : Nat) : (finishFlight s g st r a).heats = s.heats := by rw [finishFlight_only]
@[simp] theorem finishFlight_place (s : State) (g : Flight) (st : Status) (r a : Nat) : (finishFlight s g st r a).place = s.place := by rw [finishFlight_only]
@[simp] theorem finishFlight_dir (s : State) (g : Flight) (st : Status) (r a : Nat) : (finishFlight s g st r a).dir = s.dir := by rw [finishFlight_only]
@[simp] theorem finishFlight_sel (s : State) (g : Flight) (st : Status) (r a : Nat) : (finishFlight s g st r a).sel = s.sel := by rw [finishFlight_only]
@[simp] theorem finishFlight_scratch (s : State) (g : Flight) (st : Status) (r a : Nat) : (finishFlight s g st r a).scratch = s.scratch := by rw [finishFlight_only]
@[simp] theorem finishFlight_buffer (s : State) (g : Flight) (st : Status) (r a : Nat) : (finishFlight s g st r a).buffer = s.buffer := by rw [finishFlight_only]
@[simp] theorem finishFlight_acct (s : State) (g : Flight) (st : Status) (r a : Nat) : (finishFlight s g st r a).acct = s.acct := by rw [finishFlight_only]
@[simp] theorem finishFlight_closed (s : State) (g : Flight) (st : Status) (r a : Nat) : (finishFlight s g st r a).closed = s.closed := by rw [finishFlight_only]
@[simp] theorem finishFlight_nodeRecs (s : State) (g : Flight) (st : Status) (r a : Nat) : (finishFlight s g st r a).nodeRecs = s.nodeRecs := by rw [finishFlight_only]
@[simp] theorem finishFlight_heldNext (s : State) (g : Flight) (st : Status) (r a : Nat) : (finishFlight s g st r a).heldNext = s.heldNext := by rw [finishFlight_only]
@[simp] theorem finishFlight_shares (s : State) (g : Flight) (st : Status) (r a : Nat) : (finishFlight s g st r a).shares = s.shares := by rw [finishFlight_only]
@[simp] theorem finishFlight_shareShadow (s : State) (g : Flight) (st : Status) (r a : Nat) : (finishFlight s g st r a).shareShadow = s.shareShadow := by rw [finishFlight_only]
@[simp] theorem finishFlight_arb (s : State) (g : Flight) (st : Status) (r a : Nat) : (finishFlight s g st r a).arb = s.arb := by rw [finishFlight_only]
@[simp] theorem finishFlight_arbShadow (s : State) (g : Flight) (st : Status) (r a : Nat) : (finishFlight s g st r a).arbShadow = s.arbShadow := by rw [finishFlight_only]
@[simp] theorem finishFlight_deficits (s : State) (g : Flight) (st : Status) (r a : Nat) : (finishFlight s g st r a).deficits = s.deficits := by rw [finishFlight_only]
@[simp] theorem finishFlight_dma (s : State) (g : Flight) (st : Status) (r a : Nat) : (finishFlight s g st r a).dma = s.dma := by rw [finishFlight_only]
@[simp] theorem finishFlight_nodeNo (s : State) (g : Flight) (st : Status) (r a : Nat) : (finishFlight s g st r a).nodeNo = s.nodeNo := by rw [finishFlight_only]
@[simp] theorem finishFlight_partition (s : State) (g : Flight) (st : Status) (r a : Nat) : (finishFlight s g st r a).partition = s.partition := by rw [finishFlight_only]
@[simp] theorem finishFlight_fenced (s : State) (g : Flight) (st : Status) (r a : Nat) : (finishFlight s g st r a).fenced = s.fenced := by rw [finishFlight_only]

/-! ### finishWhere -/

theorem finishWhere_only (s : State) (q : Flight → Bool) (st : Status) (r a : Nat) :
    finishWhere s q st r a = { s with sec := (finishWhere s q st r a).sec, funcs := (finishWhere s q st r a).funcs, out := (finishWhere s q st r a).out, delayed := (finishWhere s q st r a).delayed, net := (finishWhere s q st r a).net, flights := (finishWhere s q st r a).flights } := by
  have h := foldl_only (U := fun t s => { s with
      sec := t.sec, funcs := t.funcs, out := t.out, delayed := t.delayed, net := t.net, flights := t.flights })
    (fun _ => rfl) (fun _ _ _ => rfl) (fun s g => finishFlight s g st r a)
    (fun s g => by rw [finishFlight_only]) (s.flights.filter q) { s with flights := s.flights.filter fun g => !q g }
  exact h.trans rfl

@[simp] theorem finishWhere_pending (s : State) (q : Flight → Bool) (st : Status) (r a : Nat) : (finishWhere s q st r a).pending = s.pending := by rw [finishWhere_only]
@[simp] theorem finishWhere_free (s : State) (q : Flight → Bool) (st : Status) (r a : Nat) : (finishWhere s q st r a).free = s.free := by rw [finishWhere_only]
@[simp] theorem finishWhere_boot (s : State) (q : Flight → Bool) (st : Status) (r a : Nat) : (finishWhere s q st r a).boot = s.boot := by rw [finishWhere_only]
@[simp] theorem finishWhere_port0 (s : State) (q : Flight → Bool) (st : Status) (r a : Nat) : (finishWhere s q st r a).port0 = s.port0 := by rw [finishWhere_only]
@[simp] theorem finishWhere_port1 (s : State) (q : Flight → Bool) (st : Status) (r a : Nat) : (finishWhere s q st r a).port1 = s.port1 := by rw [finishWhere_only]
@[simp] theorem finishWhere_clusters (s : State) (q : Flight → Bool) (st : Status) (r a : Nat) : (finishWhere s q st r a).clusters = s.clusters := by rw [finishWhere_only]
@[simp] theorem finishWhere_thermal (s : State) (q : Flight → Bool) (st : Status) (r a : Nat) : (finishWhere s q st r a).thermal = s.thermal := by rw [finishWhere_only]
@[simp] theorem finishWhere_cal (s : State) (q : Flight → Bool) (st : Status) (r a : Nat) : (finishWhere s q st r a).cal = s.cal := by rw [finishWhere_only]
@[simp] theorem finishWhere_time (s : State) (q : Flight → Bool) (st : Status) (r a : Nat) : (finishWhere s q st r a).time = s.time := by rw [finishWhere_only]
@[simp] theorem finishWhere_domains (s : State) (q : Flight → Bool) (st : Status) (r a : Nat) : (finishWhere s q st r a).domains = s.domains := by rw [finishWhere_only]
@[simp] theorem finishWhere_slices (s : State) (q : Flight → Bool) (st : Status) (r a : Nat) : (finishWhere s q st r a).slices = s.slices := by rw [finishWhere_only]
@[simp] theorem finishWhere_marginRec (s : State) (q : Flight → Bool) (st : Status) (r a : Nat) : (finishWhere s q st r a).marginRec = s.marginRec := by rw [finishWhere_only]
@[simp] theorem finishWhere_marginShadow (s : State) (q : Flight → Bool) (st : Status) (r a : Nat) : (finishWhere s q st r a).marginShadow = s.marginShadow := by rw [finishWhere_only]
@[simp] theorem finishWhere_margins (s : State) (q : Flight → Bool) (st : Status) (r a : Nat) : (finishWhere s q st r a).margins = s.margins := by rw [finishWhere_only]
@[simp] theorem finishWhere_counters (s : State) (q : Flight → Bool) (st : Status) (r a : Nat) : (finishWhere s q st r a).counters = s.counters := by rw [finishWhere_only]
@[simp] theorem finishWhere_chans (s : State) (q : Flight → Bool) (st : Status) (r a : Nat) : (finishWhere s q st r a).chans = s.chans := by rw [finishWhere_only]
@[simp] theorem finishWhere_rowOps (s : State) (q : Flight → Bool) (st : Status) (r a : Nat) : (finishWhere s q st r a).rowOps = s.rowOps := by rw [finishWhere_only]
@[simp] theorem finishWhere_rowOpNo (s : State) (q : Flight → Bool) (st : Status) (r a : Nat) : (finishWhere s q st r a).rowOpNo = s.rowOpNo := by rw [finishWhere_only]
@[simp] theorem finishWhere_bulk (s : State) (q : Flight → Bool) (st : Status) (r a : Nat) : (finishWhere s q st r a).bulk = s.bulk := by rw [finishWhere_only]
@[simp] theorem finishWhere_mem (s : State) (q : Flight → Bool) (st : Status) (r a : Nat) : (finishWhere s q st r a).mem = s.mem := by rw [finishWhere_only]
@[simp] theorem finishWhere_seqs (s : State) (q : Flight → Bool) (st : Status) (r a : Nat) : (finishWhere s q st r a).seqs = s.seqs := by rw [finishWhere_only]
@[simp] theorem finishWhere_seqGen (s : State) (q : Flight → Bool) (st : Status) (r a : Nat) : (finishWhere s q st r a).seqGen = s.seqGen := by rw [finishWhere_only]
@[simp] theorem finishWhere_models (s : State) (q : Flight → Bool) (st : Status) (r a : Nat) : (finishWhere s q st r a).models = s.models := by rw [finishWhere_only]
@[simp] theorem finishWhere_courses (s : State) (q : Flight → Bool) (st : Status) (r a : Nat) : (finishWhere s q st r a).courses = s.courses := by rw [finishWhere_only]
@[simp] theorem finishWhere_heats (s : State) (q : Flight → Bool) (st : Status) (r a : Nat) : (finishWhere s q st r a).heats = s.heats := by rw [finishWhere_only]
@[simp] theorem finishWhere_place (s : State) (q : Flight → Bool) (st : Status) (r a : Nat) : (finishWhere s q st r a).place = s.place := by rw [finishWhere_only]
@[simp] theorem finishWhere_dir (s : State) (q : Flight → Bool) (st : Status) (r a : Nat) : (finishWhere s q st r a).dir = s.dir := by rw [finishWhere_only]
@[simp] theorem finishWhere_sel (s : State) (q : Flight → Bool) (st : Status) (r a : Nat) : (finishWhere s q st r a).sel = s.sel := by rw [finishWhere_only]
@[simp] theorem finishWhere_scratch (s : State) (q : Flight → Bool) (st : Status) (r a : Nat) : (finishWhere s q st r a).scratch = s.scratch := by rw [finishWhere_only]
@[simp] theorem finishWhere_buffer (s : State) (q : Flight → Bool) (st : Status) (r a : Nat) : (finishWhere s q st r a).buffer = s.buffer := by rw [finishWhere_only]
@[simp] theorem finishWhere_acct (s : State) (q : Flight → Bool) (st : Status) (r a : Nat) : (finishWhere s q st r a).acct = s.acct := by rw [finishWhere_only]
@[simp] theorem finishWhere_closed (s : State) (q : Flight → Bool) (st : Status) (r a : Nat) : (finishWhere s q st r a).closed = s.closed := by rw [finishWhere_only]
@[simp] theorem finishWhere_nodeRecs (s : State) (q : Flight → Bool) (st : Status) (r a : Nat) : (finishWhere s q st r a).nodeRecs = s.nodeRecs := by rw [finishWhere_only]
@[simp] theorem finishWhere_heldNext (s : State) (q : Flight → Bool) (st : Status) (r a : Nat) : (finishWhere s q st r a).heldNext = s.heldNext := by rw [finishWhere_only]
@[simp] theorem finishWhere_shares (s : State) (q : Flight → Bool) (st : Status) (r a : Nat) : (finishWhere s q st r a).shares = s.shares := by rw [finishWhere_only]
@[simp] theorem finishWhere_shareShadow (s : State) (q : Flight → Bool) (st : Status) (r a : Nat) : (finishWhere s q st r a).shareShadow = s.shareShadow := by rw [finishWhere_only]
@[simp] theorem finishWhere_arb (s : State) (q : Flight → Bool) (st : Status) (r a : Nat) : (finishWhere s q st r a).arb = s.arb := by rw [finishWhere_only]
@[simp] theorem finishWhere_arbShadow (s : State) (q : Flight → Bool) (st : Status) (r a : Nat) : (finishWhere s q st r a).arbShadow = s.arbShadow := by rw [finishWhere_only]
@[simp] theorem finishWhere_deficits (s : State) (q : Flight → Bool) (st : Status) (r a : Nat) : (finishWhere s q st r a).deficits = s.deficits := by rw [finishWhere_only]
@[simp] theorem finishWhere_dma (s : State) (q : Flight → Bool) (st : Status) (r a : Nat) : (finishWhere s q st r a).dma = s.dma := by rw [finishWhere_only]
@[simp] theorem finishWhere_nodeNo (s : State) (q : Flight → Bool) (st : Status) (r a : Nat) : (finishWhere s q st r a).nodeNo = s.nodeNo := by rw [finishWhere_only]
@[simp] theorem finishWhere_partition (s : State) (q : Flight → Bool) (st : Status) (r a : Nat) : (finishWhere s q st r a).partition = s.partition := by rw [finishWhere_only]
@[simp] theorem finishWhere_fenced (s : State) (q : Flight → Bool) (st : Status) (r a : Nat) : (finishWhere s q st r a).fenced = s.fenced := by rw [finishWhere_only]

/-! ### clockDue -/

theorem clockDue_only (s : State) (c : Nat) :
    clockDue s c = { s with clusters := (clockDue s c).clusters } := by
  unfold clockDue; dsimp only; split <;> rfl

@[simp] theorem clockDue_pending (s : State) (c : Nat) : (clockDue s c).pending = s.pending := by rw [clockDue_only]
@[simp] theorem clockDue_out (s : State) (c : Nat) : (clockDue s c).out = s.out := by rw [clockDue_only]
@[simp] theorem clockDue_free (s : State) (c : Nat) : (clockDue s c).free = s.free := by rw [clockDue_only]
@[simp] theorem clockDue_boot (s : State) (c : Nat) : (clockDue s c).boot = s.boot := by rw [clockDue_only]
@[simp] theorem clockDue_port0 (s : State) (c : Nat) : (clockDue s c).port0 = s.port0 := by rw [clockDue_only]
@[simp] theorem clockDue_port1 (s : State) (c : Nat) : (clockDue s c).port1 = s.port1 := by rw [clockDue_only]
@[simp] theorem clockDue_thermal (s : State) (c : Nat) : (clockDue s c).thermal = s.thermal := by rw [clockDue_only]
@[simp] theorem clockDue_cal (s : State) (c : Nat) : (clockDue s c).cal = s.cal := by rw [clockDue_only]
@[simp] theorem clockDue_time (s : State) (c : Nat) : (clockDue s c).time = s.time := by rw [clockDue_only]
@[simp] theorem clockDue_funcs (s : State) (c : Nat) : (clockDue s c).funcs = s.funcs := by rw [clockDue_only]
@[simp] theorem clockDue_flights (s : State) (c : Nat) : (clockDue s c).flights = s.flights := by rw [clockDue_only]
@[simp] theorem clockDue_delayed (s : State) (c : Nat) : (clockDue s c).delayed = s.delayed := by rw [clockDue_only]
@[simp] theorem clockDue_sec (s : State) (c : Nat) : (clockDue s c).sec = s.sec := by rw [clockDue_only]
@[simp] theorem clockDue_domains (s : State) (c : Nat) : (clockDue s c).domains = s.domains := by rw [clockDue_only]
@[simp] theorem clockDue_slices (s : State) (c : Nat) : (clockDue s c).slices = s.slices := by rw [clockDue_only]
@[simp] theorem clockDue_marginRec (s : State) (c : Nat) : (clockDue s c).marginRec = s.marginRec := by rw [clockDue_only]
@[simp] theorem clockDue_marginShadow (s : State) (c : Nat) : (clockDue s c).marginShadow = s.marginShadow := by rw [clockDue_only]
@[simp] theorem clockDue_margins (s : State) (c : Nat) : (clockDue s c).margins = s.margins := by rw [clockDue_only]
@[simp] theorem clockDue_counters (s : State) (c : Nat) : (clockDue s c).counters = s.counters := by rw [clockDue_only]
@[simp] theorem clockDue_chans (s : State) (c : Nat) : (clockDue s c).chans = s.chans := by rw [clockDue_only]
@[simp] theorem clockDue_rowOps (s : State) (c : Nat) : (clockDue s c).rowOps = s.rowOps := by rw [clockDue_only]
@[simp] theorem clockDue_rowOpNo (s : State) (c : Nat) : (clockDue s c).rowOpNo = s.rowOpNo := by rw [clockDue_only]
@[simp] theorem clockDue_bulk (s : State) (c : Nat) : (clockDue s c).bulk = s.bulk := by rw [clockDue_only]
@[simp] theorem clockDue_mem (s : State) (c : Nat) : (clockDue s c).mem = s.mem := by rw [clockDue_only]
@[simp] theorem clockDue_seqs (s : State) (c : Nat) : (clockDue s c).seqs = s.seqs := by rw [clockDue_only]
@[simp] theorem clockDue_seqGen (s : State) (c : Nat) : (clockDue s c).seqGen = s.seqGen := by rw [clockDue_only]
@[simp] theorem clockDue_models (s : State) (c : Nat) : (clockDue s c).models = s.models := by rw [clockDue_only]
@[simp] theorem clockDue_courses (s : State) (c : Nat) : (clockDue s c).courses = s.courses := by rw [clockDue_only]
@[simp] theorem clockDue_heats (s : State) (c : Nat) : (clockDue s c).heats = s.heats := by rw [clockDue_only]
@[simp] theorem clockDue_place (s : State) (c : Nat) : (clockDue s c).place = s.place := by rw [clockDue_only]
@[simp] theorem clockDue_net (s : State) (c : Nat) : (clockDue s c).net = s.net := by rw [clockDue_only]
@[simp] theorem clockDue_dir (s : State) (c : Nat) : (clockDue s c).dir = s.dir := by rw [clockDue_only]
@[simp] theorem clockDue_sel (s : State) (c : Nat) : (clockDue s c).sel = s.sel := by rw [clockDue_only]
@[simp] theorem clockDue_scratch (s : State) (c : Nat) : (clockDue s c).scratch = s.scratch := by rw [clockDue_only]
@[simp] theorem clockDue_buffer (s : State) (c : Nat) : (clockDue s c).buffer = s.buffer := by rw [clockDue_only]
@[simp] theorem clockDue_acct (s : State) (c : Nat) : (clockDue s c).acct = s.acct := by rw [clockDue_only]
@[simp] theorem clockDue_closed (s : State) (c : Nat) : (clockDue s c).closed = s.closed := by rw [clockDue_only]
@[simp] theorem clockDue_nodeRecs (s : State) (c : Nat) : (clockDue s c).nodeRecs = s.nodeRecs := by rw [clockDue_only]
@[simp] theorem clockDue_heldNext (s : State) (c : Nat) : (clockDue s c).heldNext = s.heldNext := by rw [clockDue_only]
@[simp] theorem clockDue_shares (s : State) (c : Nat) : (clockDue s c).shares = s.shares := by rw [clockDue_only]
@[simp] theorem clockDue_shareShadow (s : State) (c : Nat) : (clockDue s c).shareShadow = s.shareShadow := by rw [clockDue_only]
@[simp] theorem clockDue_arb (s : State) (c : Nat) : (clockDue s c).arb = s.arb := by rw [clockDue_only]
@[simp] theorem clockDue_arbShadow (s : State) (c : Nat) : (clockDue s c).arbShadow = s.arbShadow := by rw [clockDue_only]
@[simp] theorem clockDue_deficits (s : State) (c : Nat) : (clockDue s c).deficits = s.deficits := by rw [clockDue_only]
@[simp] theorem clockDue_dma (s : State) (c : Nat) : (clockDue s c).dma = s.dma := by rw [clockDue_only]
@[simp] theorem clockDue_nodeNo (s : State) (c : Nat) : (clockDue s c).nodeNo = s.nodeNo := by rw [clockDue_only]
@[simp] theorem clockDue_partition (s : State) (c : Nat) : (clockDue s c).partition = s.partition := by rw [clockDue_only]
@[simp] theorem clockDue_fenced (s : State) (c : Nat) : (clockDue s c).fenced = s.fenced := by rw [clockDue_only]

/-! ### clockDueAll -/

theorem clockDueAll_only (s : State) :
    clockDueAll s = { s with clusters := (clockDueAll s).clusters } := by
  unfold clockDueAll
  generalize List.range 20 = l
  induction l generalizing s with
  | nil => rfl
  | cons a l ih => rw [List.foldl_cons, ih, clockDue_only]

@[simp] theorem clockDueAll_pending (s : State) : (clockDueAll s).pending = s.pending := by rw [clockDueAll_only]
@[simp] theorem clockDueAll_out (s : State) : (clockDueAll s).out = s.out := by rw [clockDueAll_only]
@[simp] theorem clockDueAll_free (s : State) : (clockDueAll s).free = s.free := by rw [clockDueAll_only]
@[simp] theorem clockDueAll_boot (s : State) : (clockDueAll s).boot = s.boot := by rw [clockDueAll_only]
@[simp] theorem clockDueAll_port0 (s : State) : (clockDueAll s).port0 = s.port0 := by rw [clockDueAll_only]
@[simp] theorem clockDueAll_port1 (s : State) : (clockDueAll s).port1 = s.port1 := by rw [clockDueAll_only]
@[simp] theorem clockDueAll_thermal (s : State) : (clockDueAll s).thermal = s.thermal := by rw [clockDueAll_only]
@[simp] theorem clockDueAll_cal (s : State) : (clockDueAll s).cal = s.cal := by rw [clockDueAll_only]
@[simp] theorem clockDueAll_time (s : State) : (clockDueAll s).time = s.time := by rw [clockDueAll_only]
@[simp] theorem clockDueAll_funcs (s : State) : (clockDueAll s).funcs = s.funcs := by rw [clockDueAll_only]
@[simp] theorem clockDueAll_flights (s : State) : (clockDueAll s).flights = s.flights := by rw [clockDueAll_only]
@[simp] theorem clockDueAll_delayed (s : State) : (clockDueAll s).delayed = s.delayed := by rw [clockDueAll_only]
@[simp] theorem clockDueAll_sec (s : State) : (clockDueAll s).sec = s.sec := by rw [clockDueAll_only]
@[simp] theorem clockDueAll_domains (s : State) : (clockDueAll s).domains = s.domains := by rw [clockDueAll_only]
@[simp] theorem clockDueAll_slices (s : State) : (clockDueAll s).slices = s.slices := by rw [clockDueAll_only]
@[simp] theorem clockDueAll_marginRec (s : State) : (clockDueAll s).marginRec = s.marginRec := by rw [clockDueAll_only]
@[simp] theorem clockDueAll_marginShadow (s : State) : (clockDueAll s).marginShadow = s.marginShadow := by rw [clockDueAll_only]
@[simp] theorem clockDueAll_margins (s : State) : (clockDueAll s).margins = s.margins := by rw [clockDueAll_only]
@[simp] theorem clockDueAll_counters (s : State) : (clockDueAll s).counters = s.counters := by rw [clockDueAll_only]
@[simp] theorem clockDueAll_chans (s : State) : (clockDueAll s).chans = s.chans := by rw [clockDueAll_only]
@[simp] theorem clockDueAll_rowOps (s : State) : (clockDueAll s).rowOps = s.rowOps := by rw [clockDueAll_only]
@[simp] theorem clockDueAll_rowOpNo (s : State) : (clockDueAll s).rowOpNo = s.rowOpNo := by rw [clockDueAll_only]
@[simp] theorem clockDueAll_bulk (s : State) : (clockDueAll s).bulk = s.bulk := by rw [clockDueAll_only]
@[simp] theorem clockDueAll_mem (s : State) : (clockDueAll s).mem = s.mem := by rw [clockDueAll_only]
@[simp] theorem clockDueAll_seqs (s : State) : (clockDueAll s).seqs = s.seqs := by rw [clockDueAll_only]
@[simp] theorem clockDueAll_seqGen (s : State) : (clockDueAll s).seqGen = s.seqGen := by rw [clockDueAll_only]
@[simp] theorem clockDueAll_models (s : State) : (clockDueAll s).models = s.models := by rw [clockDueAll_only]
@[simp] theorem clockDueAll_courses (s : State) : (clockDueAll s).courses = s.courses := by rw [clockDueAll_only]
@[simp] theorem clockDueAll_heats (s : State) : (clockDueAll s).heats = s.heats := by rw [clockDueAll_only]
@[simp] theorem clockDueAll_place (s : State) : (clockDueAll s).place = s.place := by rw [clockDueAll_only]
@[simp] theorem clockDueAll_net (s : State) : (clockDueAll s).net = s.net := by rw [clockDueAll_only]
@[simp] theorem clockDueAll_dir (s : State) : (clockDueAll s).dir = s.dir := by rw [clockDueAll_only]
@[simp] theorem clockDueAll_sel (s : State) : (clockDueAll s).sel = s.sel := by rw [clockDueAll_only]
@[simp] theorem clockDueAll_scratch (s : State) : (clockDueAll s).scratch = s.scratch := by rw [clockDueAll_only]
@[simp] theorem clockDueAll_buffer (s : State) : (clockDueAll s).buffer = s.buffer := by rw [clockDueAll_only]
@[simp] theorem clockDueAll_acct (s : State) : (clockDueAll s).acct = s.acct := by rw [clockDueAll_only]
@[simp] theorem clockDueAll_closed (s : State) : (clockDueAll s).closed = s.closed := by rw [clockDueAll_only]
@[simp] theorem clockDueAll_nodeRecs (s : State) : (clockDueAll s).nodeRecs = s.nodeRecs := by rw [clockDueAll_only]
@[simp] theorem clockDueAll_heldNext (s : State) : (clockDueAll s).heldNext = s.heldNext := by rw [clockDueAll_only]
@[simp] theorem clockDueAll_shares (s : State) : (clockDueAll s).shares = s.shares := by rw [clockDueAll_only]
@[simp] theorem clockDueAll_shareShadow (s : State) : (clockDueAll s).shareShadow = s.shareShadow := by rw [clockDueAll_only]
@[simp] theorem clockDueAll_arb (s : State) : (clockDueAll s).arb = s.arb := by rw [clockDueAll_only]
@[simp] theorem clockDueAll_arbShadow (s : State) : (clockDueAll s).arbShadow = s.arbShadow := by rw [clockDueAll_only]
@[simp] theorem clockDueAll_deficits (s : State) : (clockDueAll s).deficits = s.deficits := by rw [clockDueAll_only]
@[simp] theorem clockDueAll_dma (s : State) : (clockDueAll s).dma = s.dma := by rw [clockDueAll_only]
@[simp] theorem clockDueAll_nodeNo (s : State) : (clockDueAll s).nodeNo = s.nodeNo := by rw [clockDueAll_only]
@[simp] theorem clockDueAll_partition (s : State) : (clockDueAll s).partition = s.partition := by rw [clockDueAll_only]
@[simp] theorem clockDueAll_fenced (s : State) : (clockDueAll s).fenced = s.fenced := by rw [clockDueAll_only]

/-! ### sendCapReport -/

theorem sendCapReport_only (s : State) :
    sendCapReport s = { s with net := (sendCapReport s).net, out := (sendCapReport s).out } := by
  unfold sendCapReport
  dsimp only
  generalize otherNodes s = l
  generalize 16 + 16 * (capEntries s).length = n
  generalize pack _ + packElems 128 (capEntries s) * 2 ^ 128 = b
  induction l generalizing s with
  | nil => rfl
  | cons a l ih => rw [List.foldl_cons, ih, sendMgmt_only]

@[simp] theorem sendCapReport_pending (s : State) : (sendCapReport s).pending = s.pending := by rw [sendCapReport_only]
@[simp] theorem sendCapReport_free (s : State) : (sendCapReport s).free = s.free := by rw [sendCapReport_only]
@[simp] theorem sendCapReport_boot (s : State) : (sendCapReport s).boot = s.boot := by rw [sendCapReport_only]
@[simp] theorem sendCapReport_port0 (s : State) : (sendCapReport s).port0 = s.port0 := by rw [sendCapReport_only]
@[simp] theorem sendCapReport_port1 (s : State) : (sendCapReport s).port1 = s.port1 := by rw [sendCapReport_only]
@[simp] theorem sendCapReport_clusters (s : State) : (sendCapReport s).clusters = s.clusters := by rw [sendCapReport_only]
@[simp] theorem sendCapReport_thermal (s : State) : (sendCapReport s).thermal = s.thermal := by rw [sendCapReport_only]
@[simp] theorem sendCapReport_cal (s : State) : (sendCapReport s).cal = s.cal := by rw [sendCapReport_only]
@[simp] theorem sendCapReport_time (s : State) : (sendCapReport s).time = s.time := by rw [sendCapReport_only]
@[simp] theorem sendCapReport_funcs (s : State) : (sendCapReport s).funcs = s.funcs := by rw [sendCapReport_only]
@[simp] theorem sendCapReport_flights (s : State) : (sendCapReport s).flights = s.flights := by rw [sendCapReport_only]
@[simp] theorem sendCapReport_delayed (s : State) : (sendCapReport s).delayed = s.delayed := by rw [sendCapReport_only]
@[simp] theorem sendCapReport_sec (s : State) : (sendCapReport s).sec = s.sec := by rw [sendCapReport_only]
@[simp] theorem sendCapReport_domains (s : State) : (sendCapReport s).domains = s.domains := by rw [sendCapReport_only]
@[simp] theorem sendCapReport_slices (s : State) : (sendCapReport s).slices = s.slices := by rw [sendCapReport_only]
@[simp] theorem sendCapReport_marginRec (s : State) : (sendCapReport s).marginRec = s.marginRec := by rw [sendCapReport_only]
@[simp] theorem sendCapReport_marginShadow (s : State) : (sendCapReport s).marginShadow = s.marginShadow := by rw [sendCapReport_only]
@[simp] theorem sendCapReport_margins (s : State) : (sendCapReport s).margins = s.margins := by rw [sendCapReport_only]
@[simp] theorem sendCapReport_counters (s : State) : (sendCapReport s).counters = s.counters := by rw [sendCapReport_only]
@[simp] theorem sendCapReport_chans (s : State) : (sendCapReport s).chans = s.chans := by rw [sendCapReport_only]
@[simp] theorem sendCapReport_rowOps (s : State) : (sendCapReport s).rowOps = s.rowOps := by rw [sendCapReport_only]
@[simp] theorem sendCapReport_rowOpNo (s : State) : (sendCapReport s).rowOpNo = s.rowOpNo := by rw [sendCapReport_only]
@[simp] theorem sendCapReport_bulk (s : State) : (sendCapReport s).bulk = s.bulk := by rw [sendCapReport_only]
@[simp] theorem sendCapReport_mem (s : State) : (sendCapReport s).mem = s.mem := by rw [sendCapReport_only]
@[simp] theorem sendCapReport_seqs (s : State) : (sendCapReport s).seqs = s.seqs := by rw [sendCapReport_only]
@[simp] theorem sendCapReport_seqGen (s : State) : (sendCapReport s).seqGen = s.seqGen := by rw [sendCapReport_only]
@[simp] theorem sendCapReport_models (s : State) : (sendCapReport s).models = s.models := by rw [sendCapReport_only]
@[simp] theorem sendCapReport_courses (s : State) : (sendCapReport s).courses = s.courses := by rw [sendCapReport_only]
@[simp] theorem sendCapReport_heats (s : State) : (sendCapReport s).heats = s.heats := by rw [sendCapReport_only]
@[simp] theorem sendCapReport_place (s : State) : (sendCapReport s).place = s.place := by rw [sendCapReport_only]
@[simp] theorem sendCapReport_dir (s : State) : (sendCapReport s).dir = s.dir := by rw [sendCapReport_only]
@[simp] theorem sendCapReport_sel (s : State) : (sendCapReport s).sel = s.sel := by rw [sendCapReport_only]
@[simp] theorem sendCapReport_scratch (s : State) : (sendCapReport s).scratch = s.scratch := by rw [sendCapReport_only]
@[simp] theorem sendCapReport_buffer (s : State) : (sendCapReport s).buffer = s.buffer := by rw [sendCapReport_only]
@[simp] theorem sendCapReport_acct (s : State) : (sendCapReport s).acct = s.acct := by rw [sendCapReport_only]
@[simp] theorem sendCapReport_closed (s : State) : (sendCapReport s).closed = s.closed := by rw [sendCapReport_only]
@[simp] theorem sendCapReport_nodeRecs (s : State) : (sendCapReport s).nodeRecs = s.nodeRecs := by rw [sendCapReport_only]
@[simp] theorem sendCapReport_heldNext (s : State) : (sendCapReport s).heldNext = s.heldNext := by rw [sendCapReport_only]
@[simp] theorem sendCapReport_shares (s : State) : (sendCapReport s).shares = s.shares := by rw [sendCapReport_only]
@[simp] theorem sendCapReport_shareShadow (s : State) : (sendCapReport s).shareShadow = s.shareShadow := by rw [sendCapReport_only]
@[simp] theorem sendCapReport_arb (s : State) : (sendCapReport s).arb = s.arb := by rw [sendCapReport_only]
@[simp] theorem sendCapReport_arbShadow (s : State) : (sendCapReport s).arbShadow = s.arbShadow := by rw [sendCapReport_only]
@[simp] theorem sendCapReport_deficits (s : State) : (sendCapReport s).deficits = s.deficits := by rw [sendCapReport_only]
@[simp] theorem sendCapReport_dma (s : State) : (sendCapReport s).dma = s.dma := by rw [sendCapReport_only]
@[simp] theorem sendCapReport_nodeNo (s : State) : (sendCapReport s).nodeNo = s.nodeNo := by rw [sendCapReport_only]
@[simp] theorem sendCapReport_partition (s : State) : (sendCapReport s).partition = s.partition := by rw [sendCapReport_only]
@[simp] theorem sendCapReport_fenced (s : State) : (sendCapReport s).fenced = s.fenced := by rw [sendCapReport_only]

/-! ### reportEpoch -/

theorem reportEpoch_only (s : State) :
    reportEpoch s = { s with net := (reportEpoch s).net, out := (reportEpoch s).out, place := (reportEpoch s).place } := by
  unfold reportEpoch
  split
  · rw [sendCapReport_only]; rfl
  · rfl

@[simp] theorem reportEpoch_pending (s : State) : (reportEpoch s).pending = s.pending := by rw [reportEpoch_only]
@[simp] theorem reportEpoch_free (s : State) : (reportEpoch s).free = s.free := by rw [reportEpoch_only]
@[simp] theorem reportEpoch_boot (s : State) : (reportEpoch s).boot = s.boot := by rw [reportEpoch_only]
@[simp] theorem reportEpoch_port0 (s : State) : (reportEpoch s).port0 = s.port0 := by rw [reportEpoch_only]
@[simp] theorem reportEpoch_port1 (s : State) : (reportEpoch s).port1 = s.port1 := by rw [reportEpoch_only]
@[simp] theorem reportEpoch_clusters (s : State) : (reportEpoch s).clusters = s.clusters := by rw [reportEpoch_only]
@[simp] theorem reportEpoch_thermal (s : State) : (reportEpoch s).thermal = s.thermal := by rw [reportEpoch_only]
@[simp] theorem reportEpoch_cal (s : State) : (reportEpoch s).cal = s.cal := by rw [reportEpoch_only]
@[simp] theorem reportEpoch_time (s : State) : (reportEpoch s).time = s.time := by rw [reportEpoch_only]
@[simp] theorem reportEpoch_funcs (s : State) : (reportEpoch s).funcs = s.funcs := by rw [reportEpoch_only]
@[simp] theorem reportEpoch_flights (s : State) : (reportEpoch s).flights = s.flights := by rw [reportEpoch_only]
@[simp] theorem reportEpoch_delayed (s : State) : (reportEpoch s).delayed = s.delayed := by rw [reportEpoch_only]
@[simp] theorem reportEpoch_sec (s : State) : (reportEpoch s).sec = s.sec := by rw [reportEpoch_only]
@[simp] theorem reportEpoch_domains (s : State) : (reportEpoch s).domains = s.domains := by rw [reportEpoch_only]
@[simp] theorem reportEpoch_slices (s : State) : (reportEpoch s).slices = s.slices := by rw [reportEpoch_only]
@[simp] theorem reportEpoch_marginRec (s : State) : (reportEpoch s).marginRec = s.marginRec := by rw [reportEpoch_only]
@[simp] theorem reportEpoch_marginShadow (s : State) : (reportEpoch s).marginShadow = s.marginShadow := by rw [reportEpoch_only]
@[simp] theorem reportEpoch_margins (s : State) : (reportEpoch s).margins = s.margins := by rw [reportEpoch_only]
@[simp] theorem reportEpoch_counters (s : State) : (reportEpoch s).counters = s.counters := by rw [reportEpoch_only]
@[simp] theorem reportEpoch_chans (s : State) : (reportEpoch s).chans = s.chans := by rw [reportEpoch_only]
@[simp] theorem reportEpoch_rowOps (s : State) : (reportEpoch s).rowOps = s.rowOps := by rw [reportEpoch_only]
@[simp] theorem reportEpoch_rowOpNo (s : State) : (reportEpoch s).rowOpNo = s.rowOpNo := by rw [reportEpoch_only]
@[simp] theorem reportEpoch_bulk (s : State) : (reportEpoch s).bulk = s.bulk := by rw [reportEpoch_only]
@[simp] theorem reportEpoch_mem (s : State) : (reportEpoch s).mem = s.mem := by rw [reportEpoch_only]
@[simp] theorem reportEpoch_seqs (s : State) : (reportEpoch s).seqs = s.seqs := by rw [reportEpoch_only]
@[simp] theorem reportEpoch_seqGen (s : State) : (reportEpoch s).seqGen = s.seqGen := by rw [reportEpoch_only]
@[simp] theorem reportEpoch_models (s : State) : (reportEpoch s).models = s.models := by rw [reportEpoch_only]
@[simp] theorem reportEpoch_courses (s : State) : (reportEpoch s).courses = s.courses := by rw [reportEpoch_only]
@[simp] theorem reportEpoch_heats (s : State) : (reportEpoch s).heats = s.heats := by rw [reportEpoch_only]
@[simp] theorem reportEpoch_dir (s : State) : (reportEpoch s).dir = s.dir := by rw [reportEpoch_only]
@[simp] theorem reportEpoch_sel (s : State) : (reportEpoch s).sel = s.sel := by rw [reportEpoch_only]
@[simp] theorem reportEpoch_scratch (s : State) : (reportEpoch s).scratch = s.scratch := by rw [reportEpoch_only]
@[simp] theorem reportEpoch_buffer (s : State) : (reportEpoch s).buffer = s.buffer := by rw [reportEpoch_only]
@[simp] theorem reportEpoch_acct (s : State) : (reportEpoch s).acct = s.acct := by rw [reportEpoch_only]
@[simp] theorem reportEpoch_closed (s : State) : (reportEpoch s).closed = s.closed := by rw [reportEpoch_only]
@[simp] theorem reportEpoch_nodeRecs (s : State) : (reportEpoch s).nodeRecs = s.nodeRecs := by rw [reportEpoch_only]
@[simp] theorem reportEpoch_heldNext (s : State) : (reportEpoch s).heldNext = s.heldNext := by rw [reportEpoch_only]
@[simp] theorem reportEpoch_shares (s : State) : (reportEpoch s).shares = s.shares := by rw [reportEpoch_only]
@[simp] theorem reportEpoch_shareShadow (s : State) : (reportEpoch s).shareShadow = s.shareShadow := by rw [reportEpoch_only]
@[simp] theorem reportEpoch_arb (s : State) : (reportEpoch s).arb = s.arb := by rw [reportEpoch_only]
@[simp] theorem reportEpoch_arbShadow (s : State) : (reportEpoch s).arbShadow = s.arbShadow := by rw [reportEpoch_only]
@[simp] theorem reportEpoch_deficits (s : State) : (reportEpoch s).deficits = s.deficits := by rw [reportEpoch_only]
@[simp] theorem reportEpoch_dma (s : State) : (reportEpoch s).dma = s.dma := by rw [reportEpoch_only]
@[simp] theorem reportEpoch_nodeNo (s : State) : (reportEpoch s).nodeNo = s.nodeNo := by rw [reportEpoch_only]
@[simp] theorem reportEpoch_partition (s : State) : (reportEpoch s).partition = s.partition := by rw [reportEpoch_only]
@[simp] theorem reportEpoch_fenced (s : State) : (reportEpoch s).fenced = s.fenced := by rw [reportEpoch_only]

/-! ### releaseDelayed -/

theorem releaseDelayed_only (s : State) :
    releaseDelayed s = { s with funcs := (releaseDelayed s).funcs, out := (releaseDelayed s).out, delayed := (releaseDelayed s).delayed } := by
  have h := foldl_only (U := fun t s => { s with funcs := t.funcs, out := t.out, delayed := t.delayed })
    (fun _ => rfl) (fun _ _ _ => rfl) (fun s g => writeResponse s g.port g.func g.entry g.final)
    (fun s g => by rw [writeResponse_only]) (s.delayed.partition fun g => decide (g.release ≤ s.time.epoch)).1
    { s with delayed := (s.delayed.partition fun g => decide (g.release ≤ s.time.epoch)).2 }
  exact h.trans rfl

@[simp] theorem releaseDelayed_pending (s : State) : (releaseDelayed s).pending = s.pending := by rw [releaseDelayed_only]
@[simp] theorem releaseDelayed_free (s : State) : (releaseDelayed s).free = s.free := by rw [releaseDelayed_only]
@[simp] theorem releaseDelayed_boot (s : State) : (releaseDelayed s).boot = s.boot := by rw [releaseDelayed_only]
@[simp] theorem releaseDelayed_port0 (s : State) : (releaseDelayed s).port0 = s.port0 := by rw [releaseDelayed_only]
@[simp] theorem releaseDelayed_port1 (s : State) : (releaseDelayed s).port1 = s.port1 := by rw [releaseDelayed_only]
@[simp] theorem releaseDelayed_clusters (s : State) : (releaseDelayed s).clusters = s.clusters := by rw [releaseDelayed_only]
@[simp] theorem releaseDelayed_thermal (s : State) : (releaseDelayed s).thermal = s.thermal := by rw [releaseDelayed_only]
@[simp] theorem releaseDelayed_cal (s : State) : (releaseDelayed s).cal = s.cal := by rw [releaseDelayed_only]
@[simp] theorem releaseDelayed_time (s : State) : (releaseDelayed s).time = s.time := by rw [releaseDelayed_only]
@[simp] theorem releaseDelayed_flights (s : State) : (releaseDelayed s).flights = s.flights := by rw [releaseDelayed_only]
@[simp] theorem releaseDelayed_sec (s : State) : (releaseDelayed s).sec = s.sec := by rw [releaseDelayed_only]
@[simp] theorem releaseDelayed_domains (s : State) : (releaseDelayed s).domains = s.domains := by rw [releaseDelayed_only]
@[simp] theorem releaseDelayed_slices (s : State) : (releaseDelayed s).slices = s.slices := by rw [releaseDelayed_only]
@[simp] theorem releaseDelayed_marginRec (s : State) : (releaseDelayed s).marginRec = s.marginRec := by rw [releaseDelayed_only]
@[simp] theorem releaseDelayed_marginShadow (s : State) : (releaseDelayed s).marginShadow = s.marginShadow := by rw [releaseDelayed_only]
@[simp] theorem releaseDelayed_margins (s : State) : (releaseDelayed s).margins = s.margins := by rw [releaseDelayed_only]
@[simp] theorem releaseDelayed_counters (s : State) : (releaseDelayed s).counters = s.counters := by rw [releaseDelayed_only]
@[simp] theorem releaseDelayed_chans (s : State) : (releaseDelayed s).chans = s.chans := by rw [releaseDelayed_only]
@[simp] theorem releaseDelayed_rowOps (s : State) : (releaseDelayed s).rowOps = s.rowOps := by rw [releaseDelayed_only]
@[simp] theorem releaseDelayed_rowOpNo (s : State) : (releaseDelayed s).rowOpNo = s.rowOpNo := by rw [releaseDelayed_only]
@[simp] theorem releaseDelayed_bulk (s : State) : (releaseDelayed s).bulk = s.bulk := by rw [releaseDelayed_only]
@[simp] theorem releaseDelayed_mem (s : State) : (releaseDelayed s).mem = s.mem := by rw [releaseDelayed_only]
@[simp] theorem releaseDelayed_seqs (s : State) : (releaseDelayed s).seqs = s.seqs := by rw [releaseDelayed_only]
@[simp] theorem releaseDelayed_seqGen (s : State) : (releaseDelayed s).seqGen = s.seqGen := by rw [releaseDelayed_only]
@[simp] theorem releaseDelayed_models (s : State) : (releaseDelayed s).models = s.models := by rw [releaseDelayed_only]
@[simp] theorem releaseDelayed_courses (s : State) : (releaseDelayed s).courses = s.courses := by rw [releaseDelayed_only]
@[simp] theorem releaseDelayed_heats (s : State) : (releaseDelayed s).heats = s.heats := by rw [releaseDelayed_only]
@[simp] theorem releaseDelayed_place (s : State) : (releaseDelayed s).place = s.place := by rw [releaseDelayed_only]
@[simp] theorem releaseDelayed_net (s : State) : (releaseDelayed s).net = s.net := by rw [releaseDelayed_only]
@[simp] theorem releaseDelayed_dir (s : State) : (releaseDelayed s).dir = s.dir := by rw [releaseDelayed_only]
@[simp] theorem releaseDelayed_sel (s : State) : (releaseDelayed s).sel = s.sel := by rw [releaseDelayed_only]
@[simp] theorem releaseDelayed_scratch (s : State) : (releaseDelayed s).scratch = s.scratch := by rw [releaseDelayed_only]
@[simp] theorem releaseDelayed_buffer (s : State) : (releaseDelayed s).buffer = s.buffer := by rw [releaseDelayed_only]
@[simp] theorem releaseDelayed_acct (s : State) : (releaseDelayed s).acct = s.acct := by rw [releaseDelayed_only]
@[simp] theorem releaseDelayed_closed (s : State) : (releaseDelayed s).closed = s.closed := by rw [releaseDelayed_only]
@[simp] theorem releaseDelayed_nodeRecs (s : State) : (releaseDelayed s).nodeRecs = s.nodeRecs := by rw [releaseDelayed_only]
@[simp] theorem releaseDelayed_heldNext (s : State) : (releaseDelayed s).heldNext = s.heldNext := by rw [releaseDelayed_only]
@[simp] theorem releaseDelayed_shares (s : State) : (releaseDelayed s).shares = s.shares := by rw [releaseDelayed_only]
@[simp] theorem releaseDelayed_shareShadow (s : State) : (releaseDelayed s).shareShadow = s.shareShadow := by rw [releaseDelayed_only]
@[simp] theorem releaseDelayed_arb (s : State) : (releaseDelayed s).arb = s.arb := by rw [releaseDelayed_only]
@[simp] theorem releaseDelayed_arbShadow (s : State) : (releaseDelayed s).arbShadow = s.arbShadow := by rw [releaseDelayed_only]
@[simp] theorem releaseDelayed_deficits (s : State) : (releaseDelayed s).deficits = s.deficits := by rw [releaseDelayed_only]
@[simp] theorem releaseDelayed_dma (s : State) : (releaseDelayed s).dma = s.dma := by rw [releaseDelayed_only]
@[simp] theorem releaseDelayed_nodeNo (s : State) : (releaseDelayed s).nodeNo = s.nodeNo := by rw [releaseDelayed_only]
@[simp] theorem releaseDelayed_partition (s : State) : (releaseDelayed s).partition = s.partition := by rw [releaseDelayed_only]
@[simp] theorem releaseDelayed_fenced (s : State) : (releaseDelayed s).fenced = s.fenced := by rw [releaseDelayed_only]

end Sys2Proof.Machine
end

