-- ==== Sys2Proof/Laws/Tables.lean ====
section
/-! SUPPORT. Laws of the tables: read after write, and that every operation keeps the canonical form, for maps and for the
byte memory of the bulk window. -/

set_option Elab.async false

namespace Sys2Proof.Machine

variable {α : Type}

/-! ## Rising lists -/

/-- Every key of a list lies above `b`. -/
def Above (b : Nat) (l : List (Nat × α)) : Prop := ∀ e ∈ l, b < e.1

theorem risingKeys_cons (a : Nat × α) (l : List (Nat × α)) :
    risingKeys (a :: l) = true ↔ Above a.1 l ∧ risingKeys l = true := by
  induction l generalizing a with
  | nil => simp [risingKeys, Above]
  | cons b t ih =>
    simp only [risingKeys, Bool.and_eq_true, decide_eq_true_eq]
    constructor
    · rintro ⟨h, ht⟩
      refine ⟨fun e he => ?_, ht⟩
      rcases List.mem_cons.1 he with rfl | he
      · exact h
      · exact Nat.lt_trans h ((ih b).1 ht |>.1 e he)
    · rintro ⟨h, ht⟩
      exact ⟨h b (List.mem_cons_self ..), ht⟩

theorem mem_insertKey {k : Nat} {v : α} {l : List (Nat × α)} {e : Nat × α} (h : e ∈ insertKey k v l) : e = (k, v) ∨ e ∈ l := by
  induction l with
  | nil => simpa [insertKey] using h
  | cons b t ih =>
    simp only [insertKey] at h
    split at h
    · simpa using h
    · split at h
      · rcases List.mem_cons.1 h with h | h
        · exact .inl h
        · exact .inr (List.mem_cons_of_mem _ h)
      · rcases List.mem_cons.1 h with h | h
        · exact .inr (h ▸ List.mem_cons_self ..)
        · exact (ih h).imp id (List.mem_cons_of_mem _)

theorem mem_eraseKey {k : Nat} {l : List (Nat × α)} {e : Nat × α} (h : e ∈ eraseKey k l) : e ∈ l := by
  induction l with
  | nil => simp [eraseKey] at h
  | cons b t ih =>
    simp only [eraseKey] at h
    split at h
    · exact List.mem_cons_of_mem _ (ih h)
    · rcases List.mem_cons.1 h with h | h
      · exact h ▸ List.mem_cons_self ..
      · exact List.mem_cons_of_mem _ (ih h)

theorem risingKeys_insertKey (k : Nat) (v : α) (l : List (Nat × α)) (h : risingKeys l = true) :
    risingKeys (insertKey k v l) = true := by
  induction l with
  | nil => rfl
  | cons b t ih =>
    obtain ⟨ha, ht⟩ := (risingKeys_cons b t).1 h
    simp only [insertKey]
    split
    · rename_i hk
      refine (risingKeys_cons _ _).2 ⟨fun e he => ?_, h⟩
      rcases List.mem_cons.1 he with rfl | he
      · exact hk
      · exact Nat.lt_trans hk (ha e he)
    · split
      · rename_i _ hk
        exact (risingKeys_cons _ _).2 ⟨fun e he => hk ▸ ha e he, ht⟩
      · rename_i h1 h2
        refine (risingKeys_cons _ _).2 ⟨fun e he => ?_, ih ht⟩
        rcases mem_insertKey he with rfl | he
        · exact Nat.lt_of_le_of_ne (Nat.le_of_not_lt h1) h2
        · exact ha e he

theorem risingKeys_eraseKey (k : Nat) (l : List (Nat × α)) (h : risingKeys l = true) : risingKeys (eraseKey k l) = true := by
  induction l with
  | nil => rfl
  | cons b t ih =>
    obtain ⟨ha, ht⟩ := (risingKeys_cons b t).1 h
    simp only [eraseKey]
    split
    · exact ih ht
    · exact (risingKeys_cons _ _).2 ⟨fun e he => ha e (mem_eraseKey he), ih ht⟩

theorem lookupKey_above {b k : Nat} {l : List (Nat × α)} (h : Above b l) (hk : k ≤ b) : lookupKey k l = none := by
  induction l with
  | nil => rfl
  | cons e t ih =>
    have he := h e (List.mem_cons_self ..)
    rw [lookupKey, if_neg (by omega)]
    exact ih fun x hx => h x (List.mem_cons_of_mem _ hx)

@[simp] theorem lookupKey_insertKey (k : Nat) (v : α) (l : List (Nat × α)) : lookupKey k (insertKey k v l) = some v := by
  induction l with
  | nil => simp [insertKey, lookupKey]
  | cons b t ih =>
    simp only [insertKey]
    split
    · simp [lookupKey]
    · split
      · simp [lookupKey]
      · rename_i h
        simp [lookupKey, h, ih]

theorem lookupKey_insertKey_ne {j k : Nat} (h : j ≠ k) (v : α) (l : List (Nat × α)) :
    lookupKey j (insertKey k v l) = lookupKey j l := by
  induction l with
  | nil => simp [insertKey, lookupKey, h.symm]
  | cons b t ih =>
    simp only [insertKey]
    split
    · simp [lookupKey, h.symm]
    · split
      · rename_i hk
        simp [lookupKey, hk, h.symm]
      · simp [lookupKey, ih]

@[simp] theorem lookupKey_eraseKey (k : Nat) (l : List (Nat × α)) : lookupKey k (eraseKey k l) = none := by
  induction l with
  | nil => rfl
  | cons b t ih =>
    simp only [eraseKey]
    split
    · exact ih
    · rename_i hk
      simp [lookupKey, hk, ih]

theorem lookupKey_eraseKey_ne {j k : Nat} (h : j ≠ k) (l : List (Nat × α)) : lookupKey j (eraseKey k l) = lookupKey j l := by
  induction l with
  | nil => rfl
  | cons b t ih =>
    simp only [eraseKey]
    split
    · rename_i hk
      rw [lookupKey, if_neg (by omega), ih]
    · simp [lookupKey, ih]

theorem mem_of_lookupKey {k : Nat} {v : α} {l : List (Nat × α)} (h : lookupKey k l = some v) : (k, v) ∈ l := by
  induction l with
  | nil => cases h
  | cons b t ih =>
    rw [lookupKey] at h
    split at h
    · rename_i hk
      cases h
      exact hk ▸ List.mem_cons_self ..
    · exact List.mem_cons_of_mem _ (ih h)

theorem lookupKey_map {k : Nat} (f : Nat → α → β) (l : List (Nat × α)) :
    lookupKey k (l.map fun e => (e.1, f e.1 e.2)) = (lookupKey k l).map (f k) := by
  induction l with
  | nil => rfl
  | cons b t ih =>
    simp only [List.map_cons, lookupKey]
    split
    · rename_i hk
      simp [hk]
    · exact ih

/-! ## Maps -/

@[simp] theorem Map.get?_set (m : Map α) (k : Nat) (v : α) : (m.set k v).get? k = some v := lookupKey_insertKey ..
theorem Map.get?_set_ne (m : Map α) {j k : Nat} (h : j ≠ k) (v : α) : (m.set k v).get? j = m.get? j := lookupKey_insertKey_ne h ..
@[simp] theorem Map.getD_set (m : Map α) (k : Nat) (v d : α) : (m.set k v).getD k d = v := by simp [Map.getD]
theorem Map.getD_set_ne (m : Map α) {j k : Nat} (h : j ≠ k) (v d : α) : (m.set k v).getD j d = m.getD j d := by
  simp [Map.getD, Map.get?_set_ne m h]
@[simp] theorem Map.get?_erase (m : Map α) (k : Nat) : (m.erase k).get? k = none := lookupKey_eraseKey ..
theorem Map.get?_filter {m : Map α} {p : Nat → α → Bool} {k : Nat} {v : α} (h : (m.filter p).get? k = some v) :
    p k v = true := (List.mem_filter.1 (mem_of_lookupKey h)).2
@[simp] theorem Map.get?_mapVals (m : Map α) (f : Nat → α → α) (k : Nat) : (m.mapVals f).get? k = (m.get? k).map (f k) :=
  lookupKey_map ..
theorem Map.get?_erase_ne (m : Map α) {j k : Nat} (h : j ≠ k) : (m.erase k).get? j = m.get? j := lookupKey_eraseKey_ne h ..
@[simp] theorem Map.get?_empty (k : Nat) : (Map.empty : Map α).get? k = none := rfl
@[simp] theorem Map.getD_empty (k : Nat) (d : α) : (Map.empty : Map α).getD k d = d := rfl

@[simp] theorem Map.get?_modify (m : Map α) (k : Nat) (f : α → α) : (m.modify k f).get? k = (m.get? k).map f := by
  unfold Map.modify
  cases h : m.get? k <;> simp [h]
theorem Map.get?_modify_ne (m : Map α) {j k : Nat} (h : j ≠ k) (f : α → α) : (m.modify k f).get? j = m.get? j := by
  unfold Map.modify
  split
  · exact Map.get?_set_ne m h _
  · rfl
@[simp] theorem Map.getD_upd (m : Map α) (k : Nat) (d : α) (f : α → α) : (m.upd k d f).getD k d = f (m.getD k d) := by
  simp [Map.upd]
theorem Map.getD_upd_ne (m : Map α) {j k : Nat} (h : j ≠ k) (d e : α) (f : α → α) :
    (m.upd k d f).getD j e = m.getD j e := Map.getD_set_ne m h _ _

theorem Map.wf_empty : (Map.empty : Map α).wf = true := rfl
theorem Map.wf_set {m : Map α} (h : m.wf = true) (k : Nat) (v : α) : (m.set k v).wf = true := risingKeys_insertKey k v m.l h
theorem Map.wf_erase {m : Map α} (h : m.wf = true) (k : Nat) : (m.erase k).wf = true := risingKeys_eraseKey k m.l h
theorem Map.wf_modify {m : Map α} (h : m.wf = true) (k : Nat) (f : α → α) : (m.modify k f).wf = true := by
  unfold Map.modify
  split
  · exact Map.wf_set h ..
  · exact h
theorem Map.wf_upd {m : Map α} (h : m.wf = true) (k : Nat) (d : α) (f : α → α) : (m.upd k d f).wf = true := Map.wf_set h ..

theorem Map.wf_filter {m : Map α} (h : m.wf = true) (p : Nat → α → Bool) : (m.filter p).wf = true := by
  unfold Map.wf Map.filter at *
  generalize m.l = l at h
  induction l with
  | nil => rfl
  | cons b t ih =>
    obtain ⟨ha, ht⟩ := (risingKeys_cons b t).1 h
    simp only [List.filter_cons]
    split
    · exact (risingKeys_cons _ _).2 ⟨fun e he => ha e (List.mem_filter.1 he).1, ih ht⟩
    · exact ih ht

theorem Map.wf_mapVals {m : Map α} (h : m.wf = true) (f : Nat → α → α) : (m.mapVals f).wf = true := by
  unfold Map.wf Map.mapVals at *
  generalize m.l = l at h
  induction l with
  | nil => rfl
  | cons b t ih =>
    obtain ⟨ha, ht⟩ := (risingKeys_cons b t).1 h
    refine (risingKeys_cons _ _).2 ⟨fun e he => ?_, ih ht⟩
    obtain ⟨x, hx, rfl⟩ := List.mem_map.1 he
    exact ha x hx

/-! ## Byte memory -/

theorem memWf_nil : memWf [] = true := rfl

/-- Writing a byte keeps the canonical form. -/
theorem memWf_memWrite {m : List Host.Cell} (h : memWf m = true) (a : Nat) (v : BitVec 8) : memWf (memWrite m a v) = true := by
  simp only [memWf, Bool.and_eq_true, List.all_eq_true] at *
  unfold memWrite
  split
  · exact ⟨risingKeys_eraseKey _ _ h.1, fun e he => h.2 e (mem_eraseKey he)⟩
  · rename_i hv
    refine ⟨risingKeys_insertKey _ _ _ h.1, fun e he => ?_⟩
    rcases mem_insertKey he with rfl | he
    · simpa using hv
    · exact h.2 e he

/-- Writing bytes keeps the canonical form. -/
theorem memWf_memWriteN {m : List Host.Cell} (h : memWf m = true) (a n v : Nat) : memWf (memWriteN m a n v) = true := by
  induction n generalizing m a v with
  | zero => exact h
  | succ n ih => exact ih (memWf_memWrite h ..) ..

/-- A byte reads back as it was written. -/
@[simp] theorem memRead_memWrite (m : List Host.Cell) (a : Nat) (v : BitVec 8) : memRead (memWrite m a v) a = v := by
  unfold memRead memWrite
  split
  · rename_i hv
    simp [hv]
  · simp

/-- A write leaves every other address alone. -/
theorem memRead_memWrite_ne {a b : Nat} (h : b ≠ a) (m : List Host.Cell) (v : BitVec 8) :
    memRead (memWrite m a v) b = memRead m b := by
  unfold memRead memWrite
  split
  · rw [lookupKey_eraseKey_ne h]
  · rw [lookupKey_insertKey_ne h]

/-- A write of bytes leaves every address outside them alone. -/
theorem memRead_memWriteN_ne {a b n : Nat} (h : b < a ∨ a + n ≤ b) (m : List Host.Cell) (v : Nat) :
    memRead (memWriteN m a n v) b = memRead m b := by
  induction n generalizing m a v with
  | zero => rfl
  | succ n ih =>
    rw [memWriteN, ih (by omega), memRead_memWrite_ne (by omega)]

end Sys2Proof.Machine
end

