-- ==== Sys2Proof/Laws/Access.lean ====
section
/-! SUPPORT. What a read of a table gives after a write to it, in the words of the model's own accessors. -/

set_option Elab.async false

namespace Sys2Proof.Machine

@[simp] theorem getF_setF (s : State) (p : Port) (f : Func) (e : FuncSt) : getF (setF s p f e) p f = e := Map.getD_set ..
@[simp] theorem getD_setD (s : State) (n : Nat) (e : DomainSt) : getD (setD s n e) n = e := Map.getD_set ..
theorem getD_setD_ne (s : State) {n m : Nat} (h : m ≠ n) (e : DomainSt) : getD (setD s n e) m = getD s m := Map.getD_set_ne _ h ..
@[simp] theorem getC_setC (s : State) (n : Nat) (e : ClusterSt) : getC (setC s n e) n = e := Map.getD_set ..
theorem getC_setC_ne (s : State) {n m : Nat} (h : m ≠ n) (e : ClusterSt) : getC (setC s n e) m = getC s m := Map.getD_set_ne _ h ..
@[simp] theorem getS_setS (s : State) (n : Nat) (e : SliceSt) : getS (setS s n e) n = e := Map.getD_set ..
theorem getS_setS_ne (s : State) {n m : Nat} (h : m ≠ n) (e : SliceSt) : getS (setS s n e) m = getS s m := Map.getD_set_ne _ h ..
@[simp] theorem getFr_setFr (s : State) (n : Nat) (e : FrameSt) : getFr (setFr s n e) n = e := Map.getD_set ..
theorem getFr_setFr_ne (s : State) {n m : Nat} (h : m ≠ n) (e : FrameSt) : getFr (setFr s n e) m = getFr s m := Map.getD_set_ne _ h ..
@[simp] theorem getCh_setCh (s : State) (n : Nat) (e : ChanSt) : getCh (setCh s n e) n = e := Map.getD_set ..
theorem getCh_setCh_ne (s : State) {n m : Nat} (h : m ≠ n) (e : ChanSt) : getCh (setCh s n e) m = getCh s m := Map.getD_set_ne _ h ..
@[simp] theorem getPll_setPll (s : State) (n : Nat) (e : PllSt) : getPll (setPll s n e) n = e := Map.getD_set ..
theorem getPll_setPll_ne (s : State) {n m : Nat} (h : m ≠ n) (e : PllSt) : getPll (setPll s n e) m = getPll s m := Map.getD_set_ne _ h ..
@[simp] theorem getIdx_setIdx (s : State) (n : Nat) (e : IndexSt) : getIdx (setIdx s n e) n = e := Map.getD_set ..
theorem getIdx_setIdx_ne (s : State) {n m : Nat} (h : m ≠ n) (e : IndexSt) : getIdx (setIdx s n e) m = getIdx s m := Map.getD_set_ne _ h ..
theorem getF_setF_ne (s : State) {p q : Port} {f g : Func} (h : fkey q g ≠ fkey p f) (e : FuncSt) :
    getF (setF s p f e) q g = getF s q g := Map.getD_set_ne _ h ..
@[simp] theorem getQ_setQ (s : State) (n : Nat) (e : SeqSt) : getQ (setQ s n e) n = some e := Map.get?_set ..
theorem getQ_setQ_ne (s : State) {n m : Nat} (h : m ≠ n) (e : SeqSt) : getQ (setQ s n e) m = getQ s m := Map.get?_set_ne _ h _
@[simp] theorem getH_setH (s : State) (n : Nat) (e : HeatSt) : getH (setH s n e) n = some e := Map.get?_set ..
theorem getH_setH_ne (s : State) {n m : Nat} (h : m ≠ n) (e : HeatSt) : getH (setH s n e) m = getH s m := Map.get?_set_ne _ h _
@[simp] theorem getWq_setWq (s : State) (n : Nat) (e : QueueSt) : getWq (setWq s n e) n = some e := Map.get?_set ..
theorem getWq_setWq_ne (s : State) {n m : Nat} (h : m ≠ n) (e : QueueSt) : getWq (setWq s n e) m = getWq s m := Map.get?_set_ne _ h _
@[simp] theorem getQ_modQ (s : State) (n : Nat) (f : SeqSt → SeqSt) : getQ (modQ s n f) n = (getQ s n).map f := Map.get?_modify ..
theorem getQ_modQ_ne (s : State) {n m : Nat} (h : m ≠ n) (f : SeqSt → SeqSt) : getQ (modQ s n f) m = getQ s m :=
  Map.get?_modify_ne _ h _
@[simp] theorem getH_modH (s : State) (n : Nat) (f : HeatSt → HeatSt) : getH (modH s n f) n = (getH s n).map f := Map.get?_modify ..
theorem getH_modH_ne (s : State) {n m : Nat} (h : m ≠ n) (f : HeatSt → HeatSt) : getH (modH s n f) m = getH s m :=
  Map.get?_modify_ne _ h _
@[simp] theorem getWq_modWq (s : State) (n : Nat) (f : QueueSt → QueueSt) : getWq (modWq s n f) n = (getWq s n).map f := Map.get?_modify ..
theorem getWq_modWq_ne (s : State) {n m : Nat} (h : m ≠ n) (f : QueueSt → QueueSt) : getWq (modWq s n f) m = getWq s m :=
  Map.get?_modify_ne _ h _
@[simp] theorem getColl_setColl (s : State) (a b : Nat) (c : CollSt) : getColl (setColl s a b c) a b = some c := Map.get?_set ..
@[simp] theorem getPort_setPort (s : State) (p : Port) (v : PortSt) : getPort (setPort s p v) p = v := by
  unfold getPort setPort; split <;> rfl
theorem getPort_setPort_ne (s : State) {p q : Port} (h : q ≠ p) (v : PortSt) : getPort (setPort s p v) q = getPort s q := by
  unfold getPort setPort
  by_cases h1 : p = 0 <;> by_cases h2 : q = 0
  · exact absurd (h2.trans h1.symm) h
  · simp [h1, h2]
  · simp [h1, h2]
  · have : ∀ a b : Port, a ≠ 0 → b ≠ 0 → b = a := by decide
    exact absurd (this p q h1 h2) h

/-! ### Accessors past operations that leave their table alone -/

@[simp] theorem getF_emit (s : State) (o : Output) (q : Port) (g : Func) : getF (emit s o) q g = getF s q g := rfl
@[simp] theorem getPort_emit (s : State) (o : Output) (q : Port) : getPort (emit s o) q = getPort s q := rfl
@[simp] theorem getD_emit (s : State) (o : Output) (k : Nat) : getD (emit s o) k = getD s k := rfl
@[simp] theorem getC_emit (s : State) (o : Output) (k : Nat) : getC (emit s o) k = getC s k := rfl
@[simp] theorem getS_emit (s : State) (o : Output) (k : Nat) : getS (emit s o) k = getS s k := rfl
@[simp] theorem getFr_emit (s : State) (o : Output) (k : Nat) : getFr (emit s o) k = getFr s k := rfl
@[simp] theorem getCh_emit (s : State) (o : Output) (k : Nat) : getCh (emit s o) k = getCh s k := rfl
@[simp] theorem getPll_emit (s : State) (o : Output) (k : Nat) : getPll (emit s o) k = getPll s k := rfl
@[simp] theorem getQ_emit (s : State) (o : Output) (k : Nat) : getQ (emit s o) k = getQ s k := rfl
@[simp] theorem getH_emit (s : State) (o : Output) (k : Nat) : getH (emit s o) k = getH s k := rfl
@[simp] theorem getWq_emit (s : State) (o : Output) (k : Nat) : getWq (emit s o) k = getWq s k := rfl
@[simp] theorem getF_useFree (s : State) (q : Port) (g : Func) : getF (useFree s) q g = getF s q g := rfl
@[simp] theorem getPort_useFree (s : State) (q : Port) : getPort (useFree s) q = getPort s q := rfl
@[simp] theorem getD_useFree (s : State) (k : Nat) : getD (useFree s) k = getD s k := rfl
@[simp] theorem getC_useFree (s : State) (k : Nat) : getC (useFree s) k = getC s k := rfl
@[simp] theorem getS_useFree (s : State) (k : Nat) : getS (useFree s) k = getS s k := rfl
@[simp] theorem getFr_useFree (s : State) (k : Nat) : getFr (useFree s) k = getFr s k := rfl
@[simp] theorem getCh_useFree (s : State) (k : Nat) : getCh (useFree s) k = getCh s k := rfl
@[simp] theorem getPll_useFree (s : State) (k : Nat) : getPll (useFree s) k = getPll s k := rfl
@[simp] theorem getQ_useFree (s : State) (k : Nat) : getQ (useFree s) k = getQ s k := rfl
@[simp] theorem getH_useFree (s : State) (k : Nat) : getH (useFree s) k = getH s k := rfl
@[simp] theorem getWq_useFree (s : State) (k : Nat) : getWq (useFree s) k = getWq s k := rfl
@[simp] theorem getF_count (s : State) (c i k n : Nat) (q : Port) (g : Func) : getF (count s c i k n) q g = getF s q g := rfl
@[simp] theorem getPort_count (s : State) (c i k n : Nat) (q : Port) : getPort (count s c i k n) q = getPort s q := rfl
@[simp] theorem getD_count (s : State) (c i k n : Nat) (k1 : Nat) : getD (count s c i k n) k1 = getD s k1 := rfl
@[simp] theorem getC_count (s : State) (c i k n : Nat) (k1 : Nat) : getC (count s c i k n) k1 = getC s k1 := rfl
@[simp] theorem getS_count (s : State) (c i k n : Nat) (k1 : Nat) : getS (count s c i k n) k1 = getS s k1 := rfl
@[simp] theorem getFr_count (s : State) (c i k n : Nat) (k1 : Nat) : getFr (count s c i k n) k1 = getFr s k1 := rfl
@[simp] theorem getCh_count (s : State) (c i k n : Nat) (k1 : Nat) : getCh (count s c i k n) k1 = getCh s k1 := rfl
@[simp] theorem getPll_count (s : State) (c i k n : Nat) (k1 : Nat) : getPll (count s c i k n) k1 = getPll s k1 := rfl
@[simp] theorem getQ_count (s : State) (c i k n : Nat) (k1 : Nat) : getQ (count s c i k n) k1 = getQ s k1 := rfl
@[simp] theorem getH_count (s : State) (c i k n : Nat) (k1 : Nat) : getH (count s c i k n) k1 = getH s k1 := rfl
@[simp] theorem getWq_count (s : State) (c i k n : Nat) (k1 : Nat) : getWq (count s c i k n) k1 = getWq s k1 := rfl
@[simp] theorem getF_rest (s : State) (q : Port) (g : Func) : getF (s.rest) q g = getF s q g := rfl
@[simp] theorem getPort_rest (s : State) (q : Port) : getPort (s.rest) q = getPort s q := rfl
@[simp] theorem getD_rest (s : State) (k : Nat) : getD (s.rest) k = getD s k := rfl
@[simp] theorem getC_rest (s : State) (k : Nat) : getC (s.rest) k = getC s k := rfl
@[simp] theorem getS_rest (s : State) (k : Nat) : getS (s.rest) k = getS s k := rfl
@[simp] theorem getFr_rest (s : State) (k : Nat) : getFr (s.rest) k = getFr s k := rfl
@[simp] theorem getCh_rest (s : State) (k : Nat) : getCh (s.rest) k = getCh s k := rfl
@[simp] theorem getPll_rest (s : State) (k : Nat) : getPll (s.rest) k = getPll s k := rfl
@[simp] theorem getQ_rest (s : State) (k : Nat) : getQ (s.rest) k = getQ s k := rfl
@[simp] theorem getH_rest (s : State) (k : Nat) : getH (s.rest) k = getH s k := rfl
@[simp] theorem getWq_rest (s : State) (k : Nat) : getWq (s.rest) k = getWq s k := rfl
@[simp] theorem getPort_msix (s : State) (p : Port) (f : Func) (v : Nat) (q : Port) : getPort (msix s p f v) q = getPort s q := by simp [getPort]
@[simp] theorem getD_msix (s : State) (p : Port) (f : Func) (v : Nat) (k : Nat) : getD (msix s p f v) k = getD s k := by simp [getD]
@[simp] theorem getC_msix (s : State) (p : Port) (f : Func) (v : Nat) (k : Nat) : getC (msix s p f v) k = getC s k := by simp [getC]
@[simp] theorem getS_msix (s : State) (p : Port) (f : Func) (v : Nat) (k : Nat) : getS (msix s p f v) k = getS s k := by simp [getS]
@[simp] theorem getFr_msix (s : State) (p : Port) (f : Func) (v : Nat) (k : Nat) : getFr (msix s p f v) k = getFr s k := by simp [getFr]
@[simp] theorem getCh_msix (s : State) (p : Port) (f : Func) (v : Nat) (k : Nat) : getCh (msix s p f v) k = getCh s k := by simp [getCh]
@[simp] theorem getPll_msix (s : State) (p : Port) (f : Func) (v : Nat) (k : Nat) : getPll (msix s p f v) k = getPll s k := by simp [getPll]
@[simp] theorem getQ_msix (s : State) (p : Port) (f : Func) (v : Nat) (k : Nat) : getQ (msix s p f v) k = getQ s k := by simp [getQ]
@[simp] theorem getH_msix (s : State) (p : Port) (f : Func) (v : Nat) (k : Nat) : getH (msix s p f v) k = getH s k := by simp [getH]
@[simp] theorem getWq_msix (s : State) (p : Port) (f : Func) (v : Nat) (k : Nat) : getWq (msix s p f v) k = getWq s k := by simp [getWq]
@[simp] theorem getPort_signalRing (s : State) (p : Port) (f : Func) (v : Nat) (q : Port) : getPort (signalRing s p f v) q = getPort s q := by simp [getPort]
@[simp] theorem getD_signalRing (s : State) (p : Port) (f : Func) (v : Nat) (k : Nat) : getD (signalRing s p f v) k = getD s k := by simp [getD]
@[simp] theorem getC_signalRing (s : State) (p : Port) (f : Func) (v : Nat) (k : Nat) : getC (signalRing s p f v) k = getC s k := by simp [getC]
@[simp] theorem getS_signalRing (s : State) (p : Port) (f : Func) (v : Nat) (k : Nat) : getS (signalRing s p f v) k = getS s k := by simp [getS]
@[simp] theorem getFr_signalRing (s : State) (p : Port) (f : Func) (v : Nat) (k : Nat) : getFr (signalRing s p f v) k = getFr s k := by simp [getFr]
@[simp] theorem getCh_signalRing (s : State) (p : Port) (f : Func) (v : Nat) (k : Nat) : getCh (signalRing s p f v) k = getCh s k := by simp [getCh]
@[simp] theorem getPll_signalRing (s : State) (p : Port) (f : Func) (v : Nat) (k : Nat) : getPll (signalRing s p f v) k = getPll s k := by simp [getPll]
@[simp] theorem getQ_signalRing (s : State) (p : Port) (f : Func) (v : Nat) (k : Nat) : getQ (signalRing s p f v) k = getQ s k := by simp [getQ]
@[simp] theorem getH_signalRing (s : State) (p : Port) (f : Func) (v : Nat) (k : Nat) : getH (signalRing s p f v) k = getH s k := by simp [getH]
@[simp] theorem getWq_signalRing (s : State) (p : Port) (f : Func) (v : Nat) (k : Nat) : getWq (signalRing s p f v) k = getWq s k := by simp [getWq]
@[simp] theorem getPort_writeResponse (s : State) (p : Port) (f : Func) (w : Nat) (b : Bool) (q : Port) : getPort (writeResponse s p f w b) q = getPort s q := by simp [getPort]
@[simp] theorem getD_writeResponse (s : State) (p : Port) (f : Func) (w : Nat) (b : Bool) (k : Nat) : getD (writeResponse s p f w b) k = getD s k := by simp [getD]
@[simp] theorem getC_writeResponse (s : State) (p : Port) (f : Func) (w : Nat) (b : Bool) (k : Nat) : getC (writeResponse s p f w b) k = getC s k := by simp [getC]
@[simp] theorem getS_writeResponse (s : State) (p : Port) (f : Func) (w : Nat) (b : Bool) (k : Nat) : getS (writeResponse s p f w b) k = getS s k := by simp [getS]
@[simp] theorem getFr_writeResponse (s : State) (p : Port) (f : Func) (w : Nat) (b : Bool) (k : Nat) : getFr (writeResponse s p f w b) k = getFr s k := by simp [getFr]
@[simp] theorem getCh_writeResponse (s : State) (p : Port) (f : Func) (w : Nat) (b : Bool) (k : Nat) : getCh (writeResponse s p f w b) k = getCh s k := by simp [getCh]
@[simp] theorem getPll_writeResponse (s : State) (p : Port) (f : Func) (w : Nat) (b : Bool) (k : Nat) : getPll (writeResponse s p f w b) k = getPll s k := by simp [getPll]
@[simp] theorem getQ_writeResponse (s : State) (p : Port) (f : Func) (w : Nat) (b : Bool) (k : Nat) : getQ (writeResponse s p f w b) k = getQ s k := by simp [getQ]
@[simp] theorem getH_writeResponse (s : State) (p : Port) (f : Func) (w : Nat) (b : Bool) (k : Nat) : getH (writeResponse s p f w b) k = getH s k := by simp [getH]
@[simp] theorem getWq_writeResponse (s : State) (p : Port) (f : Func) (w : Nat) (b : Bool) (k : Nat) : getWq (writeResponse s p f w b) k = getWq s k := by simp [getWq]
@[simp] theorem getPort_respond (s : State) (p : Port) (f : Func) (n op tag dom : Nat) (st : Status) (r a : Nat) (b c : Bool) (q : Port) : getPort (respond s p f n op tag dom st r a b c) q = getPort s q := by simp [getPort]
@[simp] theorem getD_respond (s : State) (p : Port) (f : Func) (n op tag dom : Nat) (st : Status) (r a : Nat) (b c : Bool) (k : Nat) : getD (respond s p f n op tag dom st r a b c) k = getD s k := by simp [getD]
@[simp] theorem getC_respond (s : State) (p : Port) (f : Func) (n op tag dom : Nat) (st : Status) (r a : Nat) (b c : Bool) (k : Nat) : getC (respond s p f n op tag dom st r a b c) k = getC s k := by simp [getC]
@[simp] theorem getS_respond (s : State) (p : Port) (f : Func) (n op tag dom : Nat) (st : Status) (r a : Nat) (b c : Bool) (k : Nat) : getS (respond s p f n op tag dom st r a b c) k = getS s k := by simp [getS]
@[simp] theorem getFr_respond (s : State) (p : Port) (f : Func) (n op tag dom : Nat) (st : Status) (r a : Nat) (b c : Bool) (k : Nat) : getFr (respond s p f n op tag dom st r a b c) k = getFr s k := by simp [getFr]
@[simp] theorem getCh_respond (s : State) (p : Port) (f : Func) (n op tag dom : Nat) (st : Status) (r a : Nat) (b c : Bool) (k : Nat) : getCh (respond s p f n op tag dom st r a b c) k = getCh s k := by simp [getCh]
@[simp] theorem getPll_respond (s : State) (p : Port) (f : Func) (n op tag dom : Nat) (st : Status) (r a : Nat) (b c : Bool) (k : Nat) : getPll (respond s p f n op tag dom st r a b c) k = getPll s k := by simp [getPll]
@[simp] theorem getQ_respond (s : State) (p : Port) (f : Func) (n op tag dom : Nat) (st : Status) (r a : Nat) (b c : Bool) (k : Nat) : getQ (respond s p f n op tag dom st r a b c) k = getQ s k := by simp [getQ]
@[simp] theorem getH_respond (s : State) (p : Port) (f : Func) (n op tag dom : Nat) (st : Status) (r a : Nat) (b c : Bool) (k : Nat) : getH (respond s p f n op tag dom st r a b c) k = getH s k := by simp [getH]
@[simp] theorem getWq_respond (s : State) (p : Port) (f : Func) (n op tag dom : Nat) (st : Status) (r a : Nat) (b c : Bool) (k : Nat) : getWq (respond s p f n op tag dom st r a b c) k = getWq s k := by simp [getWq]
@[simp] theorem getPort_deliver (s : State) (w : Nat) (pf : Port × Func) (q : Port) : getPort (deliver s w pf) q = getPort s q := by simp [getPort]
@[simp] theorem getD_deliver (s : State) (w : Nat) (pf : Port × Func) (k : Nat) : getD (deliver s w pf) k = getD s k := by simp [getD]
@[simp] theorem getC_deliver (s : State) (w : Nat) (pf : Port × Func) (k : Nat) : getC (deliver s w pf) k = getC s k := by simp [getC]
@[simp] theorem getS_deliver (s : State) (w : Nat) (pf : Port × Func) (k : Nat) : getS (deliver s w pf) k = getS s k := by simp [getS]
@[simp] theorem getFr_deliver (s : State) (w : Nat) (pf : Port × Func) (k : Nat) : getFr (deliver s w pf) k = getFr s k := by simp [getFr]
@[simp] theorem getCh_deliver (s : State) (w : Nat) (pf : Port × Func) (k : Nat) : getCh (deliver s w pf) k = getCh s k := by simp [getCh]
@[simp] theorem getPll_deliver (s : State) (w : Nat) (pf : Port × Func) (k : Nat) : getPll (deliver s w pf) k = getPll s k := by simp [getPll]
@[simp] theorem getQ_deliver (s : State) (w : Nat) (pf : Port × Func) (k : Nat) : getQ (deliver s w pf) k = getQ s k := by simp [getQ]
@[simp] theorem getH_deliver (s : State) (w : Nat) (pf : Port × Func) (k : Nat) : getH (deliver s w pf) k = getH s k := by simp [getH]
@[simp] theorem getWq_deliver (s : State) (w : Nat) (pf : Port × Func) (k : Nat) : getWq (deliver s w pf) k = getWq s k := by simp [getWq]
@[simp] theorem getPort_deliverAll (s : State) (w : Nat) (l : List (Port × Func)) (q : Port) : getPort (deliverAll s w l) q = getPort s q := by simp [getPort]
@[simp] theorem getD_deliverAll (s : State) (w : Nat) (l : List (Port × Func)) (k : Nat) : getD (deliverAll s w l) k = getD s k := by simp [getD]
@[simp] theorem getC_deliverAll (s : State) (w : Nat) (l : List (Port × Func)) (k : Nat) : getC (deliverAll s w l) k = getC s k := by simp [getC]
@[simp] theorem getS_deliverAll (s : State) (w : Nat) (l : List (Port × Func)) (k : Nat) : getS (deliverAll s w l) k = getS s k := by simp [getS]
@[simp] theorem getFr_deliverAll (s : State) (w : Nat) (l : List (Port × Func)) (k : Nat) : getFr (deliverAll s w l) k = getFr s k := by simp [getFr]
@[simp] theorem getCh_deliverAll (s : State) (w : Nat) (l : List (Port × Func)) (k : Nat) : getCh (deliverAll s w l) k = getCh s k := by simp [getCh]
@[simp] theorem getPll_deliverAll (s : State) (w : Nat) (l : List (Port × Func)) (k : Nat) : getPll (deliverAll s w l) k = getPll s k := by simp [getPll]
@[simp] theorem getQ_deliverAll (s : State) (w : Nat) (l : List (Port × Func)) (k : Nat) : getQ (deliverAll s w l) k = getQ s k := by simp [getQ]
@[simp] theorem getH_deliverAll (s : State) (w : Nat) (l : List (Port × Func)) (k : Nat) : getH (deliverAll s w l) k = getH s k := by simp [getH]
@[simp] theorem getWq_deliverAll (s : State) (w : Nat) (l : List (Port × Func)) (k : Nat) : getWq (deliverAll s w l) k = getWq s k := by simp [getWq]
@[simp] theorem getPort_raiseNode (s : State) (c r o d x : Nat) (q : Port) : getPort (raiseNode s c r o d x) q = getPort s q := by simp [getPort]
@[simp] theorem getD_raiseNode (s : State) (c r o d x : Nat) (k : Nat) : getD (raiseNode s c r o d x) k = getD s k := by simp [getD]
@[simp] theorem getC_raiseNode (s : State) (c r o d x : Nat) (k : Nat) : getC (raiseNode s c r o d x) k = getC s k := by simp [getC]
@[simp] theorem getS_raiseNode (s : State) (c r o d x : Nat) (k : Nat) : getS (raiseNode s c r o d x) k = getS s k := by simp [getS]
@[simp] theorem getFr_raiseNode (s : State) (c r o d x : Nat) (k : Nat) : getFr (raiseNode s c r o d x) k = getFr s k := by simp [getFr]
@[simp] theorem getCh_raiseNode (s : State) (c r o d x : Nat) (k : Nat) : getCh (raiseNode s c r o d x) k = getCh s k := by simp [getCh]
@[simp] theorem getQ_raiseNode (s : State) (c r o d x : Nat) (k : Nat) : getQ (raiseNode s c r o d x) k = getQ s k := by simp [getQ]
@[simp] theorem getH_raiseNode (s : State) (c r o d x : Nat) (k : Nat) : getH (raiseNode s c r o d x) k = getH s k := by simp [getH]
@[simp] theorem getWq_raiseNode (s : State) (c r o d x : Nat) (k : Nat) : getWq (raiseNode s c r o d x) k = getWq s k := by simp [getWq]
@[simp] theorem getPort_raiseObj (s : State) (c r o d : Nat) (p : Port) (x : Nat) (b : Bool) (q : Port) : getPort (raiseObj s c r o d p x b) q = getPort s q := by simp [getPort]
@[simp] theorem getD_raiseObj (s : State) (c r o d : Nat) (p : Port) (x : Nat) (b : Bool) (k : Nat) : getD (raiseObj s c r o d p x b) k = getD s k := by simp [getD]
@[simp] theorem getC_raiseObj (s : State) (c r o d : Nat) (p : Port) (x : Nat) (b : Bool) (k : Nat) : getC (raiseObj s c r o d p x b) k = getC s k := by simp [getC]
@[simp] theorem getS_raiseObj (s : State) (c r o d : Nat) (p : Port) (x : Nat) (b : Bool) (k : Nat) : getS (raiseObj s c r o d p x b) k = getS s k := by simp [getS]
@[simp] theorem getFr_raiseObj (s : State) (c r o d : Nat) (p : Port) (x : Nat) (b : Bool) (k : Nat) : getFr (raiseObj s c r o d p x b) k = getFr s k := by simp [getFr]
@[simp] theorem getCh_raiseObj (s : State) (c r o d : Nat) (p : Port) (x : Nat) (b : Bool) (k : Nat) : getCh (raiseObj s c r o d p x b) k = getCh s k := by simp [getCh]
@[simp] theorem getPll_raiseObj (s : State) (c r o d : Nat) (p : Port) (x : Nat) (b : Bool) (k : Nat) : getPll (raiseObj s c r o d p x b) k = getPll s k := by simp [getPll]
@[simp] theorem getQ_raiseObj (s : State) (c r o d : Nat) (p : Port) (x : Nat) (b : Bool) (k : Nat) : getQ (raiseObj s c r o d p x b) k = getQ s k := by simp [getQ]
@[simp] theorem getH_raiseObj (s : State) (c r o d : Nat) (p : Port) (x : Nat) (b : Bool) (k : Nat) : getH (raiseObj s c r o d p x b) k = getH s k := by simp [getH]
@[simp] theorem getWq_raiseObj (s : State) (c r o d : Nat) (p : Port) (x : Nat) (b : Bool) (k : Nat) : getWq (raiseObj s c r o d p x b) k = getWq s k := by simp [getWq]
@[simp] theorem getPort_raiseRing (s : State) (p : Port) (f : Func) (r o v : Nat) (q : Port) : getPort (raiseRing s p f r o v) q = getPort s q := by simp [getPort]
@[simp] theorem getD_raiseRing (s : State) (p : Port) (f : Func) (r o v : Nat) (k : Nat) : getD (raiseRing s p f r o v) k = getD s k := by simp [getD]
@[simp] theorem getC_raiseRing (s : State) (p : Port) (f : Func) (r o v : Nat) (k : Nat) : getC (raiseRing s p f r o v) k = getC s k := by simp [getC]
@[simp] theorem getS_raiseRing (s : State) (p : Port) (f : Func) (r o v : Nat) (k : Nat) : getS (raiseRing s p f r o v) k = getS s k := by simp [getS]
@[simp] theorem getFr_raiseRing (s : State) (p : Port) (f : Func) (r o v : Nat) (k : Nat) : getFr (raiseRing s p f r o v) k = getFr s k := by simp [getFr]
@[simp] theorem getCh_raiseRing (s : State) (p : Port) (f : Func) (r o v : Nat) (k : Nat) : getCh (raiseRing s p f r o v) k = getCh s k := by simp [getCh]
@[simp] theorem getPll_raiseRing (s : State) (p : Port) (f : Func) (r o v : Nat) (k : Nat) : getPll (raiseRing s p f r o v) k = getPll s k := by simp [getPll]
@[simp] theorem getQ_raiseRing (s : State) (p : Port) (f : Func) (r o v : Nat) (k : Nat) : getQ (raiseRing s p f r o v) k = getQ s k := by simp [getQ]
@[simp] theorem getH_raiseRing (s : State) (p : Port) (f : Func) (r o v : Nat) (k : Nat) : getH (raiseRing s p f r o v) k = getH s k := by simp [getH]
@[simp] theorem getWq_raiseRing (s : State) (p : Port) (f : Func) (r o v : Nat) (k : Nat) : getWq (raiseRing s p f r o v) k = getWq s k := by simp [getWq]
@[simp] theorem getPort_dmaFault (s : State) (m : Nat) (r : BitVec 128) (q : Port) : getPort (dmaFault s m r) q = getPort s q := by simp [getPort]
@[simp] theorem getD_dmaFault (s : State) (m : Nat) (r : BitVec 128) (k : Nat) : getD (dmaFault s m r) k = getD s k := by simp [getD]
@[simp] theorem getC_dmaFault (s : State) (m : Nat) (r : BitVec 128) (k : Nat) : getC (dmaFault s m r) k = getC s k := by simp [getC]
@[simp] theorem getS_dmaFault (s : State) (m : Nat) (r : BitVec 128) (k : Nat) : getS (dmaFault s m r) k = getS s k := by simp [getS]
@[simp] theorem getFr_dmaFault (s : State) (m : Nat) (r : BitVec 128) (k : Nat) : getFr (dmaFault s m r) k = getFr s k := by simp [getFr]
@[simp] theorem getCh_dmaFault (s : State) (m : Nat) (r : BitVec 128) (k : Nat) : getCh (dmaFault s m r) k = getCh s k := by simp [getCh]
@[simp] theorem getQ_dmaFault (s : State) (m : Nat) (r : BitVec 128) (k : Nat) : getQ (dmaFault s m r) k = getQ s k := by simp [getQ]
@[simp] theorem getH_dmaFault (s : State) (m : Nat) (r : BitVec 128) (k : Nat) : getH (dmaFault s m r) k = getH s k := by simp [getH]
@[simp] theorem getWq_dmaFault (s : State) (m : Nat) (r : BitVec 128) (k : Nat) : getWq (dmaFault s m r) k = getWq s k := by simp [getWq]
@[simp] theorem getPort_hostFault (s : State) (d : Desc) (q : Port) : getPort (hostFault s d) q = getPort s q := by simp [getPort]
@[simp] theorem getD_hostFault (s : State) (d : Desc) (k : Nat) : getD (hostFault s d) k = getD s k := by simp [getD]
@[simp] theorem getC_hostFault (s : State) (d : Desc) (k : Nat) : getC (hostFault s d) k = getC s k := by simp [getC]
@[simp] theorem getS_hostFault (s : State) (d : Desc) (k : Nat) : getS (hostFault s d) k = getS s k := by simp [getS]
@[simp] theorem getFr_hostFault (s : State) (d : Desc) (k : Nat) : getFr (hostFault s d) k = getFr s k := by simp [getFr]
@[simp] theorem getCh_hostFault (s : State) (d : Desc) (k : Nat) : getCh (hostFault s d) k = getCh s k := by simp [getCh]
@[simp] theorem getQ_hostFault (s : State) (d : Desc) (k : Nat) : getQ (hostFault s d) k = getQ s k := by simp [getQ]
@[simp] theorem getH_hostFault (s : State) (d : Desc) (k : Nat) : getH (hostFault s d) k = getH s k := by simp [getH]
@[simp] theorem getWq_hostFault (s : State) (d : Desc) (k : Nat) : getWq (hostFault s d) k = getWq s k := by simp [getWq]
@[simp] theorem getF_clockTo (s : State) (n : Nat) (q : Port) (g : Func) : getF (clockTo s n) q g = getF s q g := by simp [getF]
@[simp] theorem getPort_clockTo (s : State) (n : Nat) (q : Port) : getPort (clockTo s n) q = getPort s q := by simp [getPort]
@[simp] theorem getD_clockTo (s : State) (n : Nat) (k : Nat) : getD (clockTo s n) k = getD s k := by simp [getD]
@[simp] theorem getC_clockTo (s : State) (n : Nat) (k : Nat) : getC (clockTo s n) k = getC s k := by simp [getC]
@[simp] theorem getS_clockTo (s : State) (n : Nat) (k : Nat) : getS (clockTo s n) k = getS s k := by simp [getS]
@[simp] theorem getFr_clockTo (s : State) (n : Nat) (k : Nat) : getFr (clockTo s n) k = getFr s k := by simp [getFr]
@[simp] theorem getCh_clockTo (s : State) (n : Nat) (k : Nat) : getCh (clockTo s n) k = getCh s k := by simp [getCh]
@[simp] theorem getPll_clockTo (s : State) (n : Nat) (k : Nat) : getPll (clockTo s n) k = getPll s k := by simp [getPll]
@[simp] theorem getQ_clockTo (s : State) (n : Nat) (k : Nat) : getQ (clockTo s n) k = getQ s k := by simp [getQ]
@[simp] theorem getH_clockTo (s : State) (n : Nat) (k : Nat) : getH (clockTo s n) k = getH s k := by simp [getH]
@[simp] theorem getWq_clockTo (s : State) (n : Nat) (k : Nat) : getWq (clockTo s n) k = getWq s k := by simp [getWq]
@[simp] theorem getF_tclkCycle (s : State) (q : Port) (g : Func) : getF (tclkCycle s) q g = getF s q g := by simp [getF]
@[simp] theorem getPort_tclkCycle (s : State) (q : Port) : getPort (tclkCycle s) q = getPort s q := by simp [getPort]
@[simp] theorem getD_tclkCycle (s : State) (k : Nat) : getD (tclkCycle s) k = getD s k := by simp [getD]
@[simp] theorem getC_tclkCycle (s : State) (k : Nat) : getC (tclkCycle s) k = getC s k := by simp [getC]
@[simp] theorem getS_tclkCycle (s : State) (k : Nat) : getS (tclkCycle s) k = getS s k := by simp [getS]
@[simp] theorem getFr_tclkCycle (s : State) (k : Nat) : getFr (tclkCycle s) k = getFr s k := by simp [getFr]
@[simp] theorem getCh_tclkCycle (s : State) (k : Nat) : getCh (tclkCycle s) k = getCh s k := by simp [getCh]
@[simp] theorem getPll_tclkCycle (s : State) (k : Nat) : getPll (tclkCycle s) k = getPll s k := by simp [getPll]
@[simp] theorem getQ_tclkCycle (s : State) (k : Nat) : getQ (tclkCycle s) k = getQ s k := by simp [getQ]
@[simp] theorem getH_tclkCycle (s : State) (k : Nat) : getH (tclkCycle s) k = getH s k := by simp [getH]
@[simp] theorem getWq_tclkCycle (s : State) (k : Nat) : getWq (tclkCycle s) k = getWq s k := by simp [getWq]
@[simp] theorem getPort_fetchCmd (s : State) (d : Desc) (q : Port) : getPort (fetchCmd s d) q = getPort s q := by simp [getPort]
@[simp] theorem getD_fetchCmd (s : State) (d : Desc) (k : Nat) : getD (fetchCmd s d) k = getD s k := by simp [getD]
@[simp] theorem getC_fetchCmd (s : State) (d : Desc) (k : Nat) : getC (fetchCmd s d) k = getC s k := by simp [getC]
@[simp] theorem getS_fetchCmd (s : State) (d : Desc) (k : Nat) : getS (fetchCmd s d) k = getS s k := by simp [getS]
@[simp] theorem getFr_fetchCmd (s : State) (d : Desc) (k : Nat) : getFr (fetchCmd s d) k = getFr s k := by simp [getFr]
@[simp] theorem getCh_fetchCmd (s : State) (d : Desc) (k : Nat) : getCh (fetchCmd s d) k = getCh s k := by simp [getCh]
@[simp] theorem getPll_fetchCmd (s : State) (d : Desc) (k : Nat) : getPll (fetchCmd s d) k = getPll s k := by simp [getPll]
@[simp] theorem getQ_fetchCmd (s : State) (d : Desc) (k : Nat) : getQ (fetchCmd s d) k = getQ s k := by simp [getQ]
@[simp] theorem getH_fetchCmd (s : State) (d : Desc) (k : Nat) : getH (fetchCmd s d) k = getH s k := by simp [getH]
@[simp] theorem getWq_fetchCmd (s : State) (d : Desc) (k : Nat) : getWq (fetchCmd s d) k = getWq s k := by simp [getWq]
@[simp] theorem getF_touchSession (s : State) (d : Desc) (q : Port) (g : Func) : getF (touchSession s d) q g = getF s q g := by simp [getF]
@[simp] theorem getPort_touchSession (s : State) (d : Desc) (q : Port) : getPort (touchSession s d) q = getPort s q := by simp [getPort]
@[simp] theorem getD_touchSession (s : State) (d : Desc) (k : Nat) : getD (touchSession s d) k = getD s k := by simp [getD]
@[simp] theorem getC_touchSession (s : State) (d : Desc) (k : Nat) : getC (touchSession s d) k = getC s k := by simp [getC]
@[simp] theorem getS_touchSession (s : State) (d : Desc) (k : Nat) : getS (touchSession s d) k = getS s k := by simp [getS]
@[simp] theorem getFr_touchSession (s : State) (d : Desc) (k : Nat) : getFr (touchSession s d) k = getFr s k := by simp [getFr]
@[simp] theorem getCh_touchSession (s : State) (d : Desc) (k : Nat) : getCh (touchSession s d) k = getCh s k := by simp [getCh]
@[simp] theorem getPll_touchSession (s : State) (d : Desc) (k : Nat) : getPll (touchSession s d) k = getPll s k := by simp [getPll]
@[simp] theorem getQ_touchSession (s : State) (d : Desc) (k : Nat) : getQ (touchSession s d) k = getQ s k := by simp [getQ]
@[simp] theorem getH_touchSession (s : State) (d : Desc) (k : Nat) : getH (touchSession s d) k = getH s k := by simp [getH]
@[simp] theorem getWq_touchSession (s : State) (d : Desc) (k : Nat) : getWq (touchSession s d) k = getWq s k := by simp [getWq]
@[simp] theorem getPort_atBody (d : Desc) (s : State) (q : Port) : getPort (atBody d s) q = getPort s q := by simp [getPort]
@[simp] theorem getD_atBody (d : Desc) (s : State) (k : Nat) : getD (atBody d s) k = getD s k := by simp [getD]
@[simp] theorem getC_atBody (d : Desc) (s : State) (k : Nat) : getC (atBody d s) k = getC s k := by simp [getC]
@[simp] theorem getS_atBody (d : Desc) (s : State) (k : Nat) : getS (atBody d s) k = getS s k := by simp [getS]
@[simp] theorem getFr_atBody (d : Desc) (s : State) (k : Nat) : getFr (atBody d s) k = getFr s k := by simp [getFr]
@[simp] theorem getCh_atBody (d : Desc) (s : State) (k : Nat) : getCh (atBody d s) k = getCh s k := by simp [getCh]
@[simp] theorem getPll_atBody (d : Desc) (s : State) (k : Nat) : getPll (atBody d s) k = getPll s k := by simp [getPll]
@[simp] theorem getQ_atBody (d : Desc) (s : State) (k : Nat) : getQ (atBody d s) k = getQ s k := by simp [getQ]
@[simp] theorem getH_atBody (d : Desc) (s : State) (k : Nat) : getH (atBody d s) k = getH s k := by simp [getH]
@[simp] theorem getWq_atBody (d : Desc) (s : State) (k : Nat) : getWq (atBody d s) k = getWq s k := by simp [getWq]
@[simp] theorem getF_serviceEnds (s : State) (k : Option Nat) (q : Port) (g : Func) : getF (serviceEnds s k) q g = getF s q g := by simp [getF]
@[simp] theorem getPort_serviceEnds (s : State) (k : Option Nat) (q : Port) : getPort (serviceEnds s k) q = getPort s q := by simp [getPort]
@[simp] theorem getD_serviceEnds (s : State) (k : Option Nat) (k1 : Nat) : getD (serviceEnds s k) k1 = getD s k1 := by simp [getD]
@[simp] theorem getC_serviceEnds (s : State) (k : Option Nat) (k1 : Nat) : getC (serviceEnds s k) k1 = getC s k1 := by simp [getC]
@[simp] theorem getS_serviceEnds (s : State) (k : Option Nat) (k1 : Nat) : getS (serviceEnds s k) k1 = getS s k1 := by simp [getS]
@[simp] theorem getFr_serviceEnds (s : State) (k : Option Nat) (k1 : Nat) : getFr (serviceEnds s k) k1 = getFr s k1 := by simp [getFr]
@[simp] theorem getCh_serviceEnds (s : State) (k : Option Nat) (k1 : Nat) : getCh (serviceEnds s k) k1 = getCh s k1 := by simp [getCh]
@[simp] theorem getPll_serviceEnds (s : State) (k : Option Nat) (k1 : Nat) : getPll (serviceEnds s k) k1 = getPll s k1 := by simp [getPll]
@[simp] theorem getQ_serviceEnds (s : State) (k : Option Nat) (k1 : Nat) : getQ (serviceEnds s k) k1 = getQ s k1 := by simp [getQ]
@[simp] theorem getH_serviceEnds (s : State) (k : Option Nat) (k1 : Nat) : getH (serviceEnds s k) k1 = getH s k1 := by simp [getH]
@[simp] theorem getWq_serviceEnds (s : State) (k : Option Nat) (k1 : Nat) : getWq (serviceEnds s k) k1 = getWq s k1 := by simp [getWq]
@[simp] theorem getPort_putOut (s : State) (d : Desc) (a l x : Nat) (q : Port) : getPort (putOut s d a l x).1 q = getPort s q := by simp [getPort]
@[simp] theorem getD_putOut (s : State) (d : Desc) (a l x : Nat) (k : Nat) : getD (putOut s d a l x).1 k = getD s k := by simp [getD]
@[simp] theorem getC_putOut (s : State) (d : Desc) (a l x : Nat) (k : Nat) : getC (putOut s d a l x).1 k = getC s k := by simp [getC]
@[simp] theorem getS_putOut (s : State) (d : Desc) (a l x : Nat) (k : Nat) : getS (putOut s d a l x).1 k = getS s k := by simp [getS]
@[simp] theorem getFr_putOut (s : State) (d : Desc) (a l x : Nat) (k : Nat) : getFr (putOut s d a l x).1 k = getFr s k := by simp [getFr]
@[simp] theorem getCh_putOut (s : State) (d : Desc) (a l x : Nat) (k : Nat) : getCh (putOut s d a l x).1 k = getCh s k := by simp [getCh]
@[simp] theorem getQ_putOut (s : State) (d : Desc) (a l x : Nat) (k : Nat) : getQ (putOut s d a l x).1 k = getQ s k := by simp [getQ]
@[simp] theorem getH_putOut (s : State) (d : Desc) (a l x : Nat) (k : Nat) : getH (putOut s d a l x).1 k = getH s k := by simp [getH]
@[simp] theorem getWq_putOut (s : State) (d : Desc) (a l x : Nat) (k : Nat) : getWq (putOut s d a l x).1 k = getWq s k := by simp [getWq]
@[simp] theorem getPort_finishAns (r : HRow) (d : Desc) (s : State) (a : Ans) (q : Port) : getPort (finishAns r d s a) q = getPort s q := by simp [getPort]
@[simp] theorem getD_finishAns (r : HRow) (d : Desc) (s : State) (a : Ans) (k : Nat) : getD (finishAns r d s a) k = getD s k := by simp [getD]
@[simp] theorem getC_finishAns (r : HRow) (d : Desc) (s : State) (a : Ans) (k : Nat) : getC (finishAns r d s a) k = getC s k := by simp [getC]
@[simp] theorem getS_finishAns (r : HRow) (d : Desc) (s : State) (a : Ans) (k : Nat) : getS (finishAns r d s a) k = getS s k := by simp [getS]
@[simp] theorem getFr_finishAns (r : HRow) (d : Desc) (s : State) (a : Ans) (k : Nat) : getFr (finishAns r d s a) k = getFr s k := by simp [getFr]
@[simp] theorem getCh_finishAns (r : HRow) (d : Desc) (s : State) (a : Ans) (k : Nat) : getCh (finishAns r d s a) k = getCh s k := by simp [getCh]
@[simp] theorem getQ_finishAns (r : HRow) (d : Desc) (s : State) (a : Ans) (k : Nat) : getQ (finishAns r d s a) k = getQ s k := by simp [getQ]
@[simp] theorem getH_finishAns (r : HRow) (d : Desc) (s : State) (a : Ans) (k : Nat) : getH (finishAns r d s a) k = getH s k := by simp [getH]
@[simp] theorem getWq_finishAns (r : HRow) (d : Desc) (s : State) (a : Ans) (k : Nat) : getWq (finishAns r d s a) k = getWq s k := by simp [getWq]
@[simp] theorem getF_sendPacket (s : State) (a b i : Nat) (r : Bool) (q : Port) (g : Func) : getF (sendPacket s a b i r) q g = getF s q g := by simp [getF]
@[simp] theorem getPort_sendPacket (s : State) (a b i : Nat) (r : Bool) (q : Port) : getPort (sendPacket s a b i r) q = getPort s q := by simp [getPort]
@[simp] theorem getD_sendPacket (s : State) (a b i : Nat) (r : Bool) (k : Nat) : getD (sendPacket s a b i r) k = getD s k := by simp [getD]
@[simp] theorem getC_sendPacket (s : State) (a b i : Nat) (r : Bool) (k : Nat) : getC (sendPacket s a b i r) k = getC s k := by simp [getC]
@[simp] theorem getS_sendPacket (s : State) (a b i : Nat) (r : Bool) (k : Nat) : getS (sendPacket s a b i r) k = getS s k := by simp [getS]
@[simp] theorem getFr_sendPacket (s : State) (a b i : Nat) (r : Bool) (k : Nat) : getFr (sendPacket s a b i r) k = getFr s k := by simp [getFr]
@[simp] theorem getCh_sendPacket (s : State) (a b i : Nat) (r : Bool) (k : Nat) : getCh (sendPacket s a b i r) k = getCh s k := by simp [getCh]
@[simp] theorem getPll_sendPacket (s : State) (a b i : Nat) (r : Bool) (k : Nat) : getPll (sendPacket s a b i r) k = getPll s k := by simp [getPll]
@[simp] theorem getQ_sendPacket (s : State) (a b i : Nat) (r : Bool) (k : Nat) : getQ (sendPacket s a b i r) k = getQ s k := by simp [getQ]
@[simp] theorem getH_sendPacket (s : State) (a b i : Nat) (r : Bool) (k : Nat) : getH (sendPacket s a b i r) k = getH s k := by simp [getH]
@[simp] theorem getF_sendAll (s : State) (a b n : Nat) (q : Port) (g : Func) : getF (sendAll s a b n) q g = getF s q g := by simp [getF]
@[simp] theorem getPort_sendAll (s : State) (a b n : Nat) (q : Port) : getPort (sendAll s a b n) q = getPort s q := by simp [getPort]
@[simp] theorem getD_sendAll (s : State) (a b n : Nat) (k : Nat) : getD (sendAll s a b n) k = getD s k := by simp [getD]
@[simp] theorem getC_sendAll (s : State) (a b n : Nat) (k : Nat) : getC (sendAll s a b n) k = getC s k := by simp [getC]
@[simp] theorem getS_sendAll (s : State) (a b n : Nat) (k : Nat) : getS (sendAll s a b n) k = getS s k := by simp [getS]
@[simp] theorem getFr_sendAll (s : State) (a b n : Nat) (k : Nat) : getFr (sendAll s a b n) k = getFr s k := by simp [getFr]
@[simp] theorem getCh_sendAll (s : State) (a b n : Nat) (k : Nat) : getCh (sendAll s a b n) k = getCh s k := by simp [getCh]
@[simp] theorem getPll_sendAll (s : State) (a b n : Nat) (k : Nat) : getPll (sendAll s a b n) k = getPll s k := by simp [getPll]
@[simp] theorem getQ_sendAll (s : State) (a b n : Nat) (k : Nat) : getQ (sendAll s a b n) k = getQ s k := by simp [getQ]
@[simp] theorem getH_sendAll (s : State) (a b n : Nat) (k : Nat) : getH (sendAll s a b n) k = getH s k := by simp [getH]
@[simp] theorem getF_launch (s : State) (n : Nat) (m : SendMsg) (q : Port) (g : Func) : getF (launch s n m) q g = getF s q g := by simp [getF]
@[simp] theorem getPort_launch (s : State) (n : Nat) (m : SendMsg) (q : Port) : getPort (launch s n m) q = getPort s q := by simp [getPort]
@[simp] theorem getD_launch (s : State) (n : Nat) (m : SendMsg) (k : Nat) : getD (launch s n m) k = getD s k := by simp [getD]
@[simp] theorem getC_launch (s : State) (n : Nat) (m : SendMsg) (k : Nat) : getC (launch s n m) k = getC s k := by simp [getC]
@[simp] theorem getS_launch (s : State) (n : Nat) (m : SendMsg) (k : Nat) : getS (launch s n m) k = getS s k := by simp [getS]
@[simp] theorem getFr_launch (s : State) (n : Nat) (m : SendMsg) (k : Nat) : getFr (launch s n m) k = getFr s k := by simp [getFr]
@[simp] theorem getCh_launch (s : State) (n : Nat) (m : SendMsg) (k : Nat) : getCh (launch s n m) k = getCh s k := by simp [getCh]
@[simp] theorem getPll_launch (s : State) (n : Nat) (m : SendMsg) (k : Nat) : getPll (launch s n m) k = getPll s k := by simp [getPll]
@[simp] theorem getQ_launch (s : State) (n : Nat) (m : SendMsg) (k : Nat) : getQ (launch s n m) k = getQ s k := by simp [getQ]
@[simp] theorem getH_launch (s : State) (n : Nat) (m : SendMsg) (k : Nat) : getH (launch s n m) k = getH s k := by simp [getH]
@[simp] theorem getF_sendMgmt (s : State) (a b c l x : Nat) (q : Port) (g : Func) : getF (sendMgmt s a b c l x) q g = getF s q g := by simp [getF]
@[simp] theorem getPort_sendMgmt (s : State) (a b c l x : Nat) (q : Port) : getPort (sendMgmt s a b c l x) q = getPort s q := by simp [getPort]
@[simp] theorem getD_sendMgmt (s : State) (a b c l x : Nat) (k : Nat) : getD (sendMgmt s a b c l x) k = getD s k := by simp [getD]
@[simp] theorem getC_sendMgmt (s : State) (a b c l x : Nat) (k : Nat) : getC (sendMgmt s a b c l x) k = getC s k := by simp [getC]
@[simp] theorem getS_sendMgmt (s : State) (a b c l x : Nat) (k : Nat) : getS (sendMgmt s a b c l x) k = getS s k := by simp [getS]
@[simp] theorem getFr_sendMgmt (s : State) (a b c l x : Nat) (k : Nat) : getFr (sendMgmt s a b c l x) k = getFr s k := by simp [getFr]
@[simp] theorem getCh_sendMgmt (s : State) (a b c l x : Nat) (k : Nat) : getCh (sendMgmt s a b c l x) k = getCh s k := by simp [getCh]
@[simp] theorem getPll_sendMgmt (s : State) (a b c l x : Nat) (k : Nat) : getPll (sendMgmt s a b c l x) k = getPll s k := by simp [getPll]
@[simp] theorem getQ_sendMgmt (s : State) (a b c l x : Nat) (k : Nat) : getQ (sendMgmt s a b c l x) k = getQ s k := by simp [getQ]
@[simp] theorem getH_sendMgmt (s : State) (a b c l x : Nat) (k : Nat) : getH (sendMgmt s a b c l x) k = getH s k := by simp [getH]
@[simp] theorem getF_answerForward (s : State) (a b c l x : Nat) (q : Port) (g : Func) : getF (answerForward s a b c l x) q g = getF s q g := by simp [getF]
@[simp] theorem getPort_answerForward (s : State) (a b c l x : Nat) (q : Port) : getPort (answerForward s a b c l x) q = getPort s q := by simp [getPort]
@[simp] theorem getD_answerForward (s : State) (a b c l x : Nat) (k : Nat) : getD (answerForward s a b c l x) k = getD s k := by simp [getD]
@[simp] theorem getC_answerForward (s : State) (a b c l x : Nat) (k : Nat) : getC (answerForward s a b c l x) k = getC s k := by simp [getC]
@[simp] theorem getS_answerForward (s : State) (a b c l x : Nat) (k : Nat) : getS (answerForward s a b c l x) k = getS s k := by simp [getS]
@[simp] theorem getFr_answerForward (s : State) (a b c l x : Nat) (k : Nat) : getFr (answerForward s a b c l x) k = getFr s k := by simp [getFr]
@[simp] theorem getCh_answerForward (s : State) (a b c l x : Nat) (k : Nat) : getCh (answerForward s a b c l x) k = getCh s k := by simp [getCh]
@[simp] theorem getPll_answerForward (s : State) (a b c l x : Nat) (k : Nat) : getPll (answerForward s a b c l x) k = getPll s k := by simp [getPll]
@[simp] theorem getQ_answerForward (s : State) (a b c l x : Nat) (k : Nat) : getQ (answerForward s a b c l x) k = getQ s k := by simp [getQ]
@[simp] theorem getH_answerForward (s : State) (a b c l x : Nat) (k : Nat) : getH (answerForward s a b c l x) k = getH s k := by simp [getH]
@[simp] theorem getPort_finishFlight (s : State) (g : Flight) (st : Status) (r a : Nat) (q : Port) : getPort (finishFlight s g st r a) q = getPort s q := by simp [getPort]
@[simp] theorem getD_finishFlight (s : State) (g : Flight) (st : Status) (r a : Nat) (k : Nat) : getD (finishFlight s g st r a) k = getD s k := by simp [getD]
@[simp] theorem getC_finishFlight (s : State) (g : Flight) (st : Status) (r a : Nat) (k : Nat) : getC (finishFlight s g st r a) k = getC s k := by simp [getC]
@[simp] theorem getS_finishFlight (s : State) (g : Flight) (st : Status) (r a : Nat) (k : Nat) : getS (finishFlight s g st r a) k = getS s k := by simp [getS]
@[simp] theorem getFr_finishFlight (s : State) (g : Flight) (st : Status) (r a : Nat) (k : Nat) : getFr (finishFlight s g st r a) k = getFr s k := by simp [getFr]
@[simp] theorem getCh_finishFlight (s : State) (g : Flight) (st : Status) (r a : Nat) (k : Nat) : getCh (finishFlight s g st r a) k = getCh s k := by simp [getCh]
@[simp] theorem getPll_finishFlight (s : State) (g : Flight) (st : Status) (r a : Nat) (k : Nat) : getPll (finishFlight s g st r a) k = getPll s k := by simp [getPll]
@[simp] theorem getQ_finishFlight (s : State) (g : Flight) (st : Status) (r a : Nat) (k : Nat) : getQ (finishFlight s g st r a) k = getQ s k := by simp [getQ]
@[simp] theorem getH_finishFlight (s : State) (g : Flight) (st : Status) (r a : Nat) (k : Nat) : getH (finishFlight s g st r a) k = getH s k := by simp [getH]
@[simp] theorem getPort_finishWhere (s : State) (q : Flight → Bool) (st : Status) (r a : Nat) (q1 : Port) : getPort (finishWhere s q st r a) q1 = getPort s q1 := by simp [getPort]
@[simp] theorem getD_finishWhere (s : State) (q : Flight → Bool) (st : Status) (r a : Nat) (k : Nat) : getD (finishWhere s q st r a) k = getD s k := by simp [getD]
@[simp] theorem getC_finishWhere (s : State) (q : Flight → Bool) (st : Status) (r a : Nat) (k : Nat) : getC (finishWhere s q st r a) k = getC s k := by simp [getC]
@[simp] theorem getS_finishWhere (s : State) (q : Flight → Bool) (st : Status) (r a : Nat) (k : Nat) : getS (finishWhere s q st r a) k = getS s k := by simp [getS]
@[simp] theorem getFr_finishWhere (s : State) (q : Flight → Bool) (st : Status) (r a : Nat) (k : Nat) : getFr (finishWhere s q st r a) k = getFr s k := by simp [getFr]
@[simp] theorem getCh_finishWhere (s : State) (q : Flight → Bool) (st : Status) (r a : Nat) (k : Nat) : getCh (finishWhere s q st r a) k = getCh s k := by simp [getCh]
@[simp] theorem getPll_finishWhere (s : State) (q : Flight → Bool) (st : Status) (r a : Nat) (k : Nat) : getPll (finishWhere s q st r a) k = getPll s k := by simp [getPll]
@[simp] theorem getQ_finishWhere (s : State) (q : Flight → Bool) (st : Status) (r a : Nat) (k : Nat) : getQ (finishWhere s q st r a) k = getQ s k := by simp [getQ]
@[simp] theorem getH_finishWhere (s : State) (q : Flight → Bool) (st : Status) (r a : Nat) (k : Nat) : getH (finishWhere s q st r a) k = getH s k := by simp [getH]
@[simp] theorem getF_clockDue (s : State) (c : Nat) (q : Port) (g : Func) : getF (clockDue s c) q g = getF s q g := by simp [getF]
@[simp] theorem getPort_clockDue (s : State) (c : Nat) (q : Port) : getPort (clockDue s c) q = getPort s q := by simp [getPort]
@[simp] theorem getD_clockDue (s : State) (c : Nat) (k : Nat) : getD (clockDue s c) k = getD s k := by simp [getD]
@[simp] theorem getS_clockDue (s : State) (c : Nat) (k : Nat) : getS (clockDue s c) k = getS s k := by simp [getS]
@[simp] theorem getFr_clockDue (s : State) (c : Nat) (k : Nat) : getFr (clockDue s c) k = getFr s k := by simp [getFr]
@[simp] theorem getCh_clockDue (s : State) (c : Nat) (k : Nat) : getCh (clockDue s c) k = getCh s k := by simp [getCh]
@[simp] theorem getPll_clockDue (s : State) (c : Nat) (k : Nat) : getPll (clockDue s c) k = getPll s k := by simp [getPll]
@[simp] theorem getQ_clockDue (s : State) (c : Nat) (k : Nat) : getQ (clockDue s c) k = getQ s k := by simp [getQ]
@[simp] theorem getH_clockDue (s : State) (c : Nat) (k : Nat) : getH (clockDue s c) k = getH s k := by simp [getH]
@[simp] theorem getWq_clockDue (s : State) (c : Nat) (k : Nat) : getWq (clockDue s c) k = getWq s k := by simp [getWq]
@[simp] theorem getF_clockDueAll (s : State) (q : Port) (g : Func) : getF (clockDueAll s) q g = getF s q g := by simp [getF]
@[simp] theorem getPort_clockDueAll (s : State) (q : Port) : getPort (clockDueAll s) q = getPort s q := by simp [getPort]
@[simp] theorem getD_clockDueAll (s : State) (k : Nat) : getD (clockDueAll s) k = getD s k := by simp [getD]
@[simp] theorem getS_clockDueAll (s : State) (k : Nat) : getS (clockDueAll s) k = getS s k := by simp [getS]
@[simp] theorem getFr_clockDueAll (s : State) (k : Nat) : getFr (clockDueAll s) k = getFr s k := by simp [getFr]
@[simp] theorem getCh_clockDueAll (s : State) (k : Nat) : getCh (clockDueAll s) k = getCh s k := by simp [getCh]
@[simp] theorem getPll_clockDueAll (s : State) (k : Nat) : getPll (clockDueAll s) k = getPll s k := by simp [getPll]
@[simp] theorem getQ_clockDueAll (s : State) (k : Nat) : getQ (clockDueAll s) k = getQ s k := by simp [getQ]
@[simp] theorem getH_clockDueAll (s : State) (k : Nat) : getH (clockDueAll s) k = getH s k := by simp [getH]
@[simp] theorem getWq_clockDueAll (s : State) (k : Nat) : getWq (clockDueAll s) k = getWq s k := by simp [getWq]
@[simp] theorem getF_sendCapReport (s : State) (q : Port) (g : Func) : getF (sendCapReport s) q g = getF s q g := by simp [getF]
@[simp] theorem getPort_sendCapReport (s : State) (q : Port) : getPort (sendCapReport s) q = getPort s q := by simp [getPort]
@[simp] theorem getD_sendCapReport (s : State) (k : Nat) : getD (sendCapReport s) k = getD s k := by simp [getD]
@[simp] theorem getC_sendCapReport (s : State) (k : Nat) : getC (sendCapReport s) k = getC s k := by simp [getC]
@[simp] theorem getS_sendCapReport (s : State) (k : Nat) : getS (sendCapReport s) k = getS s k := by simp [getS]
@[simp] theorem getFr_sendCapReport (s : State) (k : Nat) : getFr (sendCapReport s) k = getFr s k := by simp [getFr]
@[simp] theorem getCh_sendCapReport (s : State) (k : Nat) : getCh (sendCapReport s) k = getCh s k := by simp [getCh]
@[simp] theorem getPll_sendCapReport (s : State) (k : Nat) : getPll (sendCapReport s) k = getPll s k := by simp [getPll]
@[simp] theorem getQ_sendCapReport (s : State) (k : Nat) : getQ (sendCapReport s) k = getQ s k := by simp [getQ]
@[simp] theorem getH_sendCapReport (s : State) (k : Nat) : getH (sendCapReport s) k = getH s k := by simp [getH]
@[simp] theorem getF_reportEpoch (s : State) (q : Port) (g : Func) : getF (reportEpoch s) q g = getF s q g := by simp [getF]
@[simp] theorem getPort_reportEpoch (s : State) (q : Port) : getPort (reportEpoch s) q = getPort s q := by simp [getPort]
@[simp] theorem getD_reportEpoch (s : State) (k : Nat) : getD (reportEpoch s) k = getD s k := by simp [getD]
@[simp] theorem getC_reportEpoch (s : State) (k : Nat) : getC (reportEpoch s) k = getC s k := by simp [getC]
@[simp] theorem getS_reportEpoch (s : State) (k : Nat) : getS (reportEpoch s) k = getS s k := by simp [getS]
@[simp] theorem getFr_reportEpoch (s : State) (k : Nat) : getFr (reportEpoch s) k = getFr s k := by simp [getFr]
@[simp] theorem getCh_reportEpoch (s : State) (k : Nat) : getCh (reportEpoch s) k = getCh s k := by simp [getCh]
@[simp] theorem getPll_reportEpoch (s : State) (k : Nat) : getPll (reportEpoch s) k = getPll s k := by simp [getPll]
@[simp] theorem getQ_reportEpoch (s : State) (k : Nat) : getQ (reportEpoch s) k = getQ s k := by simp [getQ]
@[simp] theorem getH_reportEpoch (s : State) (k : Nat) : getH (reportEpoch s) k = getH s k := by simp [getH]
@[simp] theorem getPort_releaseDelayed (s : State) (q : Port) : getPort (releaseDelayed s) q = getPort s q := by simp [getPort]
@[simp] theorem getD_releaseDelayed (s : State) (k : Nat) : getD (releaseDelayed s) k = getD s k := by simp [getD]
@[simp] theorem getC_releaseDelayed (s : State) (k : Nat) : getC (releaseDelayed s) k = getC s k := by simp [getC]
@[simp] theorem getS_releaseDelayed (s : State) (k : Nat) : getS (releaseDelayed s) k = getS s k := by simp [getS]
@[simp] theorem getFr_releaseDelayed (s : State) (k : Nat) : getFr (releaseDelayed s) k = getFr s k := by simp [getFr]
@[simp] theorem getCh_releaseDelayed (s : State) (k : Nat) : getCh (releaseDelayed s) k = getCh s k := by simp [getCh]
@[simp] theorem getPll_releaseDelayed (s : State) (k : Nat) : getPll (releaseDelayed s) k = getPll s k := by simp [getPll]
@[simp] theorem getQ_releaseDelayed (s : State) (k : Nat) : getQ (releaseDelayed s) k = getQ s k := by simp [getQ]
@[simp] theorem getH_releaseDelayed (s : State) (k : Nat) : getH (releaseDelayed s) k = getH s k := by simp [getH]
@[simp] theorem getWq_releaseDelayed (s : State) (k : Nat) : getWq (releaseDelayed s) k = getWq s k := by simp [getWq]

end Sys2Proof.Machine
end

