-- ==== Sys2Proof/Laws/Fields.lean ====
section
/-! SUPPORT. What a read of a bit field gives after a write of one. -/

set_option Elab.async false

namespace Sys2Proof.Machine

theorem fld_lt (x hi lo : Nat) : fld x hi lo < 2 ^ (hi + 1 - lo) := Nat.mod_lt _ (by positivity)

/-- A number with one field replaced, as its three parts. -/
theorem fldSet_parts (x hi lo v : Nat) :
    fldSet x hi lo v = x % 2 ^ lo + (v % 2 ^ (hi + 1 - lo)) * 2 ^ lo + x / 2 ^ lo / 2 ^ (hi + 1 - lo) * (2 ^ lo * 2 ^ (hi + 1 - lo)) := by
  unfold fldSet fld
  generalize 2 ^ (hi + 1 - lo) = b
  generalize 2 ^ lo = a
  have h1 : x = x % a + (x / a) * a := by rw [Nat.mul_comm]; exact (Nat.mod_add_div x a).symm
  have h2 : x / a = x / a % b + (x / a / b) * b := by rw [Nat.mul_comm]; exact (Nat.mod_add_div (x / a) b).symm
  have h3 : x = x % a + (x / a % b) * a + x / a / b * (a * b) := by
    conv_lhs => rw [h1, h2]
    ring
  have h4 : x - x / a % b * a = x % a + x / a / b * (a * b) := by
    conv_lhs => rw [show x - x / a % b * a = (x % a + (x / a % b) * a + x / a / b * (a * b)) - x / a % b * a from by rw [← h3]]
    omega
  rw [h4]; ring

theorem fldSet_div (x hi lo v : Nat) (h : lo ≤ hi + 1) : fldSet x hi lo v / 2 ^ (hi + 1) = x / 2 ^ (hi + 1) := by
  have e : 2 ^ (hi + 1) = 2 ^ lo * 2 ^ (hi + 1 - lo) := by rw [← Nat.pow_add]; congr 1; omega
  have ha : 0 < 2 ^ lo := by positivity
  have hb : 0 < 2 ^ (hi + 1 - lo) := by positivity
  rw [fldSet_parts, e, ← Nat.div_div_eq_div_mul, ← Nat.div_div_eq_div_mul]
  generalize 2 ^ (hi + 1 - lo) = b at *
  generalize 2 ^ lo = a at *
  have : (x % a + v % b * a + x / a / b * (a * b)) / a = v % b + x / a / b * b := by
    rw [show x % a + v % b * a + x / a / b * (a * b) = x % a + a * (v % b + x / a / b * b) from by ring,
      Nat.add_mul_div_left _ _ ha, Nat.div_eq_of_lt (Nat.mod_lt _ ha), Nat.zero_add]
  rw [this, Nat.add_mul_div_right _ _ hb, Nat.div_eq_of_lt (Nat.mod_lt _ hb), Nat.zero_add]

theorem fldSet_mod (x hi lo v : Nat) : fldSet x hi lo v % 2 ^ lo = x % 2 ^ lo := by
  rw [fldSet_parts]
  generalize 2 ^ (hi + 1 - lo) = b
  generalize 2 ^ lo = a
  rw [show x % a + v % b * a + x / a / b * (a * b) = x % a + a * (v % b + x / a / b * b) from by ring,
    Nat.add_mul_mod_self_left, Nat.mod_mod]

theorem fld_fldSet (x hi lo v : Nat) : fld (fldSet x hi lo v) hi lo = v % 2 ^ (hi + 1 - lo) := by
  rw [fldSet_parts, fld]
  have ha : 0 < 2 ^ lo := by positivity
  generalize 2 ^ (hi + 1 - lo) = b
  generalize 2 ^ lo = a at *
  rw [show x % a + v % b * a + x / a / b * (a * b) = x % a + a * (v % b + x / a / b * b) from by ring,
    Nat.add_mul_div_left _ _ ha, Nat.div_eq_of_lt (Nat.mod_lt _ ha), Nat.zero_add, Nat.add_mul_mod_self_right, Nat.mod_mod]

/-- A field is what stands below its end, shifted. -/
theorem fld_eq_mod (x hi lo : Nat) (h : lo ≤ hi + 1) : fld x hi lo = x % 2 ^ (hi + 1) / 2 ^ lo := by
  have e : 2 ^ (hi + 1) = 2 ^ lo * 2 ^ (hi + 1 - lo) := by rw [← Nat.pow_add]; congr 1; omega
  rw [fld, e, Nat.mod_mul_right_div_self]

theorem fld_fldSet_above (x : Nat) {hi lo h l : Nat} (v : Nat) (hl : lo ≤ hi + 1) (ha : hi < l) :
    fld (fldSet x hi lo v) h l = fld x h l := by
  have e : ∀ y, y / 2 ^ l = y / 2 ^ (hi + 1) / 2 ^ (l - (hi + 1)) := fun y => by
    rw [Nat.div_div_eq_div_mul, ← Nat.pow_add]; congr 2; omega
  rw [fld, fld, e, fldSet_div _ _ _ _ hl, ← e]

theorem fld_fldSet_below (x : Nat) {hi lo h l : Nat} (v : Nat) (hl : l ≤ h + 1) (ha : h < lo) :
    fld (fldSet x hi lo v) h l = fld x h l := by
  rw [fld_eq_mod _ _ _ hl, fld_eq_mod _ _ _ hl]
  have e : ∀ y, y % 2 ^ (h + 1) = y % 2 ^ lo % 2 ^ (h + 1) := fun y =>
    (Nat.mod_mod_of_dvd y (Nat.pow_dvd_pow 2 ha)).symm
  rw [e, fldSet_mod, ← e]

theorem fld_mod {x n hi : Nat} (lo : Nat) (h : hi < n) (hl : lo ≤ hi + 1) : fld (x % 2 ^ n) hi lo = fld x hi lo := by
  rw [fld_eq_mod _ _ _ hl, fld_eq_mod _ _ _ hl, Nat.mod_mod_of_dvd x (Nat.pow_dvd_pow 2 h)]

/-- A field reads as it was written, cut to its width. -/
@[simp] theorem rf_rset {n : Nat} (r : BitVec n) (hi lo v : Nat) (h : hi < n) (hl : lo ≤ hi + 1) :
    rf (rset r hi lo v) hi lo = v % 2 ^ (hi + 1 - lo) := by
  rw [rf, rset, BitVec.toNat_ofNat, fld_mod lo h hl, fld_fldSet]

/-- A field below or above the one written reads as before. -/
theorem rf_rset_other {n : Nat} (r : BitVec n) {hi lo h l : Nat} (v : Nat) (hn : h < n) (hl : lo ≤ hi + 1) (hl2 : l ≤ h + 1)
    (hd : hi < l ∨ h < lo) : rf (rset r hi lo v) h l = rf r h l := by
  rw [rf, rset, BitVec.toNat_ofNat, fld_mod l hn hl2]
  rcases hd with hd | hd
  · exact fld_fldSet_above _ v hl hd
  · exact fld_fldSet_below _ v hl2 hd

end Sys2Proof.Machine
end

