-- ==== Sys2Proof/Laws/Huavo.lean ====
section
/-! SUPPORT. What the mailbox does around the own part of a Huavo command, said once for all of them. -/

set_option Elab.async false

namespace Sys2Proof.Machine

theorem failIf_false (st : Status) (s : State) (k : State × Ans) : failIf false st s k = k := rfl

theorem failIf_true (st : Status) (s : State) (k : State × Ans) : failIf true st s k = (s, .fail st) := rfl

@[simp] theorem failIf_neg {c : Bool} {st : Status} {s : State} {k : State × Ans} (h : c = false) : failIf c st s k = k := by
  rw [h]; rfl

theorem withObj_ok {α : Type} {r : Except Status α} {a : α} {s : State} {k : α → State × Ans} (h : r = .ok a) :
    withObj r s k = k a := by
  rw [h]; rfl

theorem toNat_pos_of_ne {n : Nat} {x : BitVec n} (h : x ≠ 0) : x.toNat ≠ 0 := fun hh => h (BitVec.eq_of_toNat_eq (by simpa using hh))

theorem withBuffer_none {s : State} {d : Desc} {k : State × Ans} (h : hostStatus d.env.host = none) : withBuffer s d k = k := by
  unfold withBuffer; rw [h]

theorem huavo_reached {r : HRow} {body : Desc → State → State × Ans} {d : Desc} {s : State} (h : reaches r d s = true) :
    huavo r body d s = finishAns r d (body d (atBody d s)).1 (body d (atBody d s)).2 := by
  simp only [reaches, Bool.and_eq_true, Bool.or_eq_true, Bool.not_eq_true', Option.isNone_iff_eq_none] at h
  obtain ⟨⟨⟨h1, h2⟩, h3⟩, h4⟩ := h
  have h5 : (d.ptr && (hostStatus d.env.host).isSome) = false := by
    rcases h4 with h4 | h4 <;> simp [h4]
  unfold huavo
  simp only [h1, h2, h3, h5, Bool.not_false, Bool.and_self, if_true, Bool.false_eq_true, if_false, atBody]

/-- A command that reaches its own part ends as that part says. -/
theorem does_of_body {run : Desc → Instr} {r : HRow} {body effect : Desc → State → State × Ans} {pre : Desc → State → Prop}
    (hx : ∀ d s, exec (run d) s = runHuavo r body d s) (hb : ∀ d s, pre d s → body d s = effect d s) :
    Does run r pre effect := by
  intro d s h hp
  rw [hx, runHuavo, huavo_reached h, hb _ _ hp]

theorem ends_of_body {run : Desc → Instr} {r : HRow} {body : Desc → State → State × Ans} {pre : Desc → State → Prop}
    {post : Desc → State → State → Ans → Prop} (hx : ∀ d s, exec (run d) s = runHuavo r body d s)
    (hb : ∀ d s, pre d s → post d s (body d s).1 (body d s).2) : Ends run r pre post := by
  intro d s h hp
  exact ⟨_, _, by rw [hx, runHuavo, huavo_reached h], hb _ _ hp⟩

end Sys2Proof.Machine
end

