-- ==== Sys2Proof/Laws/KeepBase.lean ====
section
/-! SUPPORT. What keeps the queue, the bulk window and the fuses: the base operations, the message path and the answers. One lemma per operation. -/

set_option Elab.async false

namespace Sys2Proof.Machine

set_option linter.unusedSimpArgs false
set_option linter.unusedTactic false
set_option linter.unreachableTactic false

/-- What hardly any operation touches: the queue, the bytes of the bulk window and the fuses. -/
def keep (s : State) : List Instr × List Host.Cell × Fuses := (s.pending, s.bulk, s.sec.fuses)

theorem keep_fold (s : State) : (s.pending, s.bulk, s.sec.fuses) = keep s := rfl

@[simp] theorem keep_mk (pending out free boot port0 port1 clusters thermal cal time funcs flights delayed sec domains slices
    marginRec marginShadow margins counters chans rowOps rowOpNo bulk mem seqs seqGen models courses heats place net dir sel
    scratch buffer acct closed nodeRecs heldNext shares shareShadow arb arbShadow deficits dma nodeNo partition fenced) :
    keep (State.mk pending out free boot port0 port1 clusters thermal cal time funcs flights delayed sec domains slices
      marginRec marginShadow margins counters chans rowOps rowOpNo bulk mem seqs seqGen models courses heats place net dir sel
      scratch buffer acct closed nodeRecs heldNext shares shareShadow arb arbShadow deficits dma nodeNo partition fenced)
      = (pending, bulk, sec.fuses) := rfl

theorem foldl_keep {α : Type} (f : State → α → State) (l : List α) (s : State) (h : ∀ s a, keep (f s a) = keep s) :
    keep (l.foldl f s) = keep s := by
  induction l generalizing s with
  | nil => rfl
  | cons a l ih => rw [List.foldl_cons, ih, h]

theorem mapFold_keep {α : Type} (m : Map α) (f : State → Nat → α → State) (s : State)
    (h : ∀ s k v, keep (f s k v) = keep s) : keep (m.fold f s) = keep s :=
  foldl_keep _ _ _ fun s a => h s a.1 a.2

theorem optFold_keep {α : Type} {f : State → α → Option State} {l : List α} {o : Option State} {s t : State}
    (ht : l.foldl (fun o a => o.bind fun s => f s a) o = some t)
    (h : ∀ s a t, f s a = some t → keep t = keep s) (ho : ∀ u, o = some u → keep u = keep s) : keep t = keep s := by
  induction l generalizing o with
  | nil => exact ho t ht
  | cons a l ih =>
    refine ih ht (fun u hu => ?_)
    rw [Option.bind_eq_some_iff] at hu
    obtain ⟨v, hv, hu⟩ := hu
    rw [h _ _ _ hu, ho v hv]

/-! ### Base -/

@[simp] theorem clockTo_keep (s a1) : keep (clockTo s a1) = keep s := by
  unfold clockTo
  try dsimp only
  repeat' split
  all_goals simp [keep_fold, foldl_keep, mapFold_keep, *]

@[simp] theorem tclkCycle_keep (s) : keep (tclkCycle s) = keep s := by
  unfold tclkCycle
  try dsimp only
  repeat' split
  all_goals simp [keep_fold, foldl_keep, mapFold_keep, *]

@[simp] theorem useFree_keep (s) : keep (useFree s) = keep s := by
  simp [useFree, keep_fold, foldl_keep, mapFold_keep, *]

@[simp] theorem emit_keep (s a1) : keep (emit s a1) = keep s := by
  simp [emit, keep_fold, foldl_keep, mapFold_keep, *]

/-! ### NetCore -/

@[simp] theorem modNet_keep (s a1) : keep (modNet s a1) = keep s := by
  simp [modNet, keep_fold, foldl_keep, mapFold_keep, *]

@[simp] theorem setWq_keep (s a1 a2) : keep (setWq s a1 a2) = keep s := by
  simp [setWq, keep_fold, foldl_keep, mapFold_keep, *]

@[simp] theorem modWq_keep (s a1 a2) : keep (modWq s a1 a2) = keep s := by
  simp [modWq, keep_fold, foldl_keep, mapFold_keep, *]

@[simp] theorem setEth_keep (s a1 a2) : keep (setEth s a1 a2) = keep s := by
  simp [setEth, keep_fold, foldl_keep, mapFold_keep, *]

@[simp] theorem sendPacket_keep (s a1 a2 a3 a4) : keep (sendPacket s a1 a2 a3 a4) = keep s := by
  unfold sendPacket
  try dsimp only
  repeat' split
  all_goals simp [keep_fold, foldl_keep, mapFold_keep, *]

@[simp] theorem sendAll_keep (s a1 a2 a3) : keep (sendAll s a1 a2 a3) = keep s := by
  simp [sendAll, keep_fold, foldl_keep, mapFold_keep, *]

@[simp] theorem launch_keep (s a1 a2) : keep (launch s a1 a2) = keep s := by
  unfold launch
  try dsimp only
  repeat' split
  all_goals simp [keep_fold, foldl_keep, mapFold_keep, *]

@[simp] theorem sendMgmt_keep (s a1 a2 a3 a4 a5) : keep (sendMgmt s a1 a2 a3 a4 a5) = keep s := by
  unfold sendMgmt
  try dsimp only
  repeat' split
  all_goals simp [keep_fold, foldl_keep, mapFold_keep, *]

@[simp] theorem ask_keep (s a1) : keep (ask s a1).2 = keep s := by
  simp [ask, keep_fold, foldl_keep, mapFold_keep, *]

@[simp] theorem internalQueue_keep (s a1 a2 a3 a4 a5) : keep (internalQueue s a1 a2 a3 a4 a5).2 = keep s := by
  unfold internalQueue
  try dsimp only
  repeat' split
  all_goals simp [keep_fold, foldl_keep, mapFold_keep, *]

@[simp] theorem launchInternal_keep (s a1 a2) : keep (launchInternal s a1 a2) = keep s := by
  unfold launchInternal
  try dsimp only
  repeat' split
  all_goals simp [keep_fold, foldl_keep, mapFold_keep, *]

@[simp] theorem drainLater_keep (s k n) : keep (drainLater s k n) = keep s := by
  induction n generalizing s with
  | zero => rfl
  | succ n ih => unfold drainLater; repeat' split
                 all_goals simp [ih]

/-! ### Ops -/

@[simp] theorem setF_keep (s a1 a2 a3) : keep (setF s a1 a2 a3) = keep s := by
  simp [setF, keep_fold, foldl_keep, mapFold_keep, *]

@[simp] theorem setPort_keep (s a1 a2) : keep (setPort s a1 a2) = keep s := by
  unfold setPort
  try dsimp only
  repeat' split
  all_goals simp [keep_fold, foldl_keep, mapFold_keep, *]

@[simp] theorem msix_keep (s a1 a2 a3) : keep (msix s a1 a2 a3) = keep s := by
  unfold msix
  try dsimp only
  repeat' split
  all_goals simp [keep_fold, foldl_keep, mapFold_keep, *]

@[simp] theorem signalRing_keep (s a1 a2 a3) : keep (signalRing s a1 a2 a3) = keep s := by
  unfold signalRing
  try dsimp only
  repeat' split
  all_goals simp [keep_fold, foldl_keep, mapFold_keep, *]

@[simp] theorem setD_keep (s a1 a2) : keep (setD s a1 a2) = keep s := by
  simp [setD, keep_fold, foldl_keep, mapFold_keep, *]

@[simp] theorem setC_keep (s a1 a2) : keep (setC s a1 a2) = keep s := by
  simp [setC, keep_fold, foldl_keep, mapFold_keep, *]

@[simp] theorem count_keep (s a1 a2 a3 a4) : keep (count s a1 a2 a3 a4) = keep s := by
  simp [count, keep_fold, foldl_keep, mapFold_keep, *]

@[simp] theorem writeResponse_keep (s a1 a2 a3 a4) : keep (writeResponse s a1 a2 a3 a4) = keep s := by
  unfold writeResponse
  try dsimp only
  repeat' split
  all_goals simp [keep_fold, foldl_keep, mapFold_keep, *]

@[simp] theorem respond_keep (s a1 a2 a3 a4 a5 a6 a7 a8 a9 a10 a11) : keep (respond s a1 a2 a3 a4 a5 a6 a7 a8 a9 a10 a11) = keep s := by
  unfold respond
  try dsimp only
  repeat' split
  all_goals simp [keep_fold, foldl_keep, mapFold_keep, *]

@[simp] theorem answerForward_keep (s a1 a2 a3 a4 a5) : keep (answerForward s a1 a2 a3 a4 a5) = keep s := by
  simp [answerForward, keep_fold, foldl_keep, mapFold_keep, *]

@[simp] theorem serviceEnds_keep (s a1) : keep (serviceEnds s a1) = keep s := by
  unfold serviceEnds
  try dsimp only
  repeat' split
  all_goals simp [keep_fold, foldl_keep, mapFold_keep, *]

@[simp] theorem finishFlight_keep (s a1 a2 a3 a4) : keep (finishFlight s a1 a2 a3 a4) = keep s := by
  unfold finishFlight
  try dsimp only
  repeat' split
  all_goals simp [keep_fold, foldl_keep, mapFold_keep, *]

@[simp] theorem finishWhere_keep (s a1 a2 a3 a4) : keep (finishWhere s a1 a2 a3 a4) = keep s := by
  simp [finishWhere, keep_fold, foldl_keep, mapFold_keep, *]

@[simp] theorem deliver_keep (s a1 a2) : keep (deliver s a1 a2) = keep s := by
  unfold deliver
  try dsimp only
  repeat' split
  all_goals simp [keep_fold, foldl_keep, mapFold_keep, *]

@[simp] theorem deliverAll_keep (s a1 a2) : keep (deliverAll s a1 a2) = keep s := by
  simp [deliverAll, keep_fold, foldl_keep, mapFold_keep, *]

@[simp] theorem raiseNode_keep (s a1 a2 a3 a4 a5) : keep (raiseNode s a1 a2 a3 a4 a5) = keep s := by
  unfold raiseNode
  try dsimp only
  repeat' split
  all_goals simp [keep_fold, foldl_keep, mapFold_keep, *]

@[simp] theorem raiseObj_keep (s a1 a2 a3 a4 a5 a6 a7) : keep (raiseObj s a1 a2 a3 a4 a5 a6 a7) = keep s := by
  simp [raiseObj, keep_fold, foldl_keep, mapFold_keep, *]

@[simp] theorem raiseRing_keep (s a1 a2 a3 a4 a5) : keep (raiseRing s a1 a2 a3 a4 a5) = keep s := by
  simp [raiseRing, keep_fold, foldl_keep, mapFold_keep, *]

@[simp] theorem newKey_keep (s) : keep (newKey s).2 = keep s := by
  simp [newKey, keep_fold, foldl_keep, mapFold_keep, *]

@[simp] theorem draw_keep (s) : keep (draw s).2 = keep s := by
  simp [draw, keep_fold, foldl_keep, mapFold_keep, *]

/-! ### Mailbox -/

@[simp] theorem fetchCmd_keep (s a1) : keep (fetchCmd s a1) = keep s := by
  simp [fetchCmd, keep_fold, foldl_keep, mapFold_keep, *]

@[simp] theorem dmaFault_keep (s a1 a2) : keep (dmaFault s a1 a2) = keep s := by
  simp [dmaFault, keep_fold, foldl_keep, mapFold_keep, *]

@[simp] theorem hostFault_keep (s a1) : keep (hostFault s a1) = keep s := by
  simp [hostFault, keep_fold, foldl_keep, mapFold_keep, *]

@[simp] theorem putOut_keep (s a1 a2 a3 a4) : keep (putOut s a1 a2 a3 a4).1 = keep s := by
  unfold putOut
  try dsimp only
  repeat' split
  all_goals simp [keep_fold, foldl_keep, mapFold_keep, *]

@[simp] theorem withBuffer_keep (s d k) (h : keep k.1 = keep s) : keep (withBuffer s d k).1 = keep s := by
  unfold withBuffer; split
  · exact h
  · simp

@[simp] theorem finishAns_keep (a0 a1 s a3) : keep (finishAns a0 a1 s a3) = keep s := by
  unfold finishAns
  try dsimp only
  repeat' split
  all_goals simp [keep_fold, foldl_keep, mapFold_keep, *]

@[simp] theorem touchSession_keep (s a1) : keep (touchSession s a1) = keep s := by
  unfold touchSession
  try dsimp only
  repeat' split
  all_goals simp [keep_fold, foldl_keep, mapFold_keep, *]

@[simp] theorem huavo_keep (a0 a1 a2 s) (h1 : ∀ x0 x1,
    keep (a1 x0 x1).1 = keep x1) : keep (huavo a0 a1 a2 s) = keep s := by
  unfold huavo
  try dsimp only
  repeat' split
  all_goals simp [keep_fold, foldl_keep, mapFold_keep, *]

theorem runHuavo_keep (a0 a1 a2 s) (h1 : ∀ x0 x1,
    keep (a1 x0 x1).1 = keep x1) (t : State) (h : runHuavo a0 a1 a2 s = .next t) : keep t = keep s := by
  unfold runHuavo at h
  try dsimp only at h
  cases h
  simp [keep_fold, foldl_keep, mapFold_keep, *]

@[simp] theorem failIf_keep (c st s k) (h : keep k.1 = keep s) : keep (failIf c st s k).1 = keep s := by
  unfold failIf; split
  · rfl
  · exact h

@[simp] theorem oddCmd_keep (s a1) : keep (oddCmd s a1) = keep s := by
  unfold oddCmd
  try dsimp only
  repeat' split
  all_goals simp [keep_fold, foldl_keep, mapFold_keep, *]

/-! ### Margins -/

@[simp] theorem marginReading_keep (s a1 a2 a3 a4 a5 a6) : keep (marginReading s a1 a2 a3 a4 a5 a6) = keep s := by
  unfold marginReading
  try dsimp only
  repeat' split
  all_goals simp [keep_fold, foldl_keep, mapFold_keep, *]

@[simp] theorem marginOp_keep (s a1 a2 a3) : keep (marginOp s a1 a2 a3) = keep s := by
  unfold marginOp
  try dsimp only
  repeat' split
  all_goals simp [keep_fold, foldl_keep, mapFold_keep, *]

theorem execMarginSample_keep (a0 a1 a2 s) (t : State) (h : execMarginSample a0 a1 a2 s = .next t) : keep t = keep s := by
  unfold execMarginSample at h
  try dsimp only at h
  cases h
  repeat' split
  all_goals simp [keep_fold, foldl_keep, mapFold_keep, *]

@[simp] theorem bodyMarginConfig_keep (a0 s) : keep (bodyMarginConfig a0 s).1 = keep s := by
  grind [bodyMarginConfig, keep_fold, keep_mk, foldl_keep, mapFold_keep, failIf_keep]

theorem execMarginConfig_keep (a0 s) (t : State) (h : execMarginConfig a0 s = .next t) : keep t = keep s := by
  unfold execMarginConfig at h
  refine runHuavo_keep _ _ _ _ (fun d s => ?_) _ h
  try dsimp only
  simp [keep_fold, foldl_keep, mapFold_keep]

end Sys2Proof.Machine
end

