-- ==== Sys2Proof/Laws/KeepPages.lean ====
section
/-! SUPPORT. What keeps the queue, the bulk window and the fuses: page tables, indexes, the directory and repairs. One lemma per operation. -/

set_option Elab.async false

namespace Sys2Proof.Machine

set_option linter.unusedSimpArgs false
set_option linter.unusedTactic false
set_option linter.unreachableTactic false

/-! ### PageOps -/

@[simp] theorem setFr_keep (s a1 a2) : keep (setFr s a1 a2) = keep s := by
  simp [setFr, keep_fold, foldl_keep, mapFold_keep, *]

@[simp] theorem modFr_keep (s a1 a2) : keep (modFr s a1 a2) = keep s := by
  simp [modFr, keep_fold, foldl_keep, mapFold_keep, *]

@[simp] theorem setPool_keep (s a1 a2 a3) : keep (setPool s a1 a2 a3) = keep s := by
  simp [setPool, keep_fold, foldl_keep, mapFold_keep, *]

@[simp] theorem takeFrame_keep (s a1 a2 a3 a4 a5) : keep (takeFrame s a1 a2 a3 a4 a5) = keep s := by
  simp [takeFrame, keep_fold, foldl_keep, mapFold_keep, *]

theorem drawPool_keep (s a1 a2) (t : State) (r0) (h : drawPool s a1 a2 = some (r0, t)) : keep t = keep s := by
  unfold drawPool at h
  try dsimp only at h
  repeat' split at h
  all_goals grind [keep_fold, foldl_keep, mapFold_keep, setPool_keep, takeFrame_keep]

theorem drawRow_keep (s a1 a2 a3) (t : State) (r0) (h : drawRow s a1 a2 a3 = some (r0, t)) : keep t = keep s := by
  induction a3 generalizing s r0 t with
  | zero => simp [drawRow] at h; simp [h]
  | succ n ih =>
    unfold drawRow at h
    repeat' split at h
    all_goals grind [drawPool_keep]

theorem drawFrame_keep (s a1 a2 a3 a4 a5) (t : State) (r0) (h : drawFrame s a1 a2 a3 a4 a5 = some (r0,
    t)) : keep t = keep s := by
  unfold drawFrame at h
  try dsimp only at h
  repeat' split at h
  all_goals grind [keep_fold, foldl_keep, mapFold_keep, useFree_keep, setPool_keep, takeFrame_keep]

@[simp] theorem newIdentity_keep (s) : keep (newIdentity s).2 = keep s := by
  simp [newIdentity, keep_fold, foldl_keep, mapFold_keep, *]

@[simp] theorem addRef_keep (s a1) : keep (addRef s a1) = keep s := by
  simp [addRef, keep_fold, foldl_keep, mapFold_keep, *]

@[simp] theorem dropRef_keep (s a1) : keep (dropRef s a1) = keep s := by
  simp [dropRef, keep_fold, foldl_keep, mapFold_keep, *]

@[simp] theorem slackCheck_keep (s a1 a2) : keep (slackCheck s a1 a2) = keep s := by
  unfold slackCheck
  try dsimp only
  repeat' split
  all_goals simp [keep_fold, foldl_keep, mapFold_keep, *]

theorem placeBlock_keep (s a1 a2) (t : State) (r0) (h : placeBlock s a1 a2 = some (r0, t)) : keep t = keep s := by
  grind [placeBlock, keep_fold, keep_mk, foldl_keep, mapFold_keep]

@[simp] theorem unplaceBlock_keep (s a1 a2) : keep (unplaceBlock s a1 a2) = keep s := by
  simp [unplaceBlock, keep_fold, foldl_keep, mapFold_keep, *]

@[simp] theorem setQ_keep (s a1 a2) : keep (setQ s a1 a2) = keep s := by
  simp [setQ, keep_fold, foldl_keep, mapFold_keep, *]

@[simp] theorem modQ_keep (s a1 a2) : keep (modQ s a1 a2) = keep s := by
  simp [modQ, keep_fold, foldl_keep, mapFold_keep, *]

theorem ensureLeaf_keep (s a1 a2 a3 a4) (t : State) (h : ensureLeaf s a1 a2 a3 a4 = some t) : keep t = keep s := by
  unfold ensureLeaf at h
  try dsimp only at h
  repeat' split at h
  all_goals grind [keep_fold, foldl_keep, mapFold_keep, modQ_keep, placeBlock_keep]

@[simp] theorem idxGone_keep (s a1 a2 a3 a4 a5) : keep (idxGone s a1 a2 a3 a4 a5) = keep s := by
  unfold idxGone
  try dsimp only
  repeat' split
  all_goals simp [keep_fold, foldl_keep, mapFold_keep, *]

@[simp] theorem clearLeaves_keep (s a1 a2) : keep (clearLeaves s a1 a2) = keep s := by
  grind [clearLeaves, keep_fold, keep_mk, foldl_keep, mapFold_keep, setQ_keep, idxGone_keep, dropRef_keep]

@[simp] theorem freeReserved_keep (s a1) : keep (freeReserved s a1) = keep s := by
  simp [freeReserved, keep_fold, foldl_keep, mapFold_keep, *]

@[simp] theorem releaseBlock_keep (s a1) : keep (releaseBlock s a1) = keep s := by
  unfold releaseBlock
  try dsimp only
  repeat' split
  all_goals simp [keep_fold, foldl_keep, mapFold_keep, *]

@[simp] theorem freeSeq_keep (s a1) : keep (freeSeq s a1) = keep s := by
  unfold freeSeq
  try dsimp only
  repeat' split
  all_goals simp [keep_fold, foldl_keep, mapFold_keep, *]

@[simp] theorem setH_keep (s a1 a2) : keep (setH s a1 a2) = keep s := by
  simp [setH, keep_fold, foldl_keep, mapFold_keep, *]

@[simp] theorem modH_keep (s a1 a2) : keep (modH s a1 a2) = keep s := by
  simp [modH, keep_fold, foldl_keep, mapFold_keep, *]

@[simp] theorem removeFromHeat_keep (s a1 a2) : keep (removeFromHeat s a1 a2) = keep s := by
  unfold removeFromHeat
  try dsimp only
  repeat' split
  all_goals simp [keep_fold, foldl_keep, mapFold_keep, *]

/-! ### Visible -/

@[simp] theorem withObj_keep {α : Type} (a0 : Except Status α) (s : State) (a2 : α → State × Ans) (h2 : ∀ x0,
    keep (a2 x0).1 = keep s) : keep (withObj a0 s a2).1 = keep s := by
  unfold withObj; split <;> simp [h2]

@[simp] theorem renewBy_keep (a0 s a2) : keep (renewBy a0 s a2) = keep s := by
  simp [renewBy, keep_fold, foldl_keep, mapFold_keep, *]

@[simp] theorem modM_keep (s a1 a2 a3) : keep (modM s a1 a2 a3) = keep s := by
  simp [modM, keep_fold, foldl_keep, mapFold_keep, *]

/-! ### Index -/

@[simp] theorem setIdx_keep (s a1 a2) : keep (setIdx s a1 a2) = keep s := by
  simp [setIdx, keep_fold, foldl_keep, mapFold_keep, *]

@[simp] theorem commitIndexes_keep (s a1) : keep (commitIndexes s a1) = keep s := by
  simp [commitIndexes, keep_fold, foldl_keep, mapFold_keep, *]

@[simp] theorem commitIdle_keep (s a1) : keep (commitIdle s a1) = keep s := by
  unfold commitIdle
  try dsimp only
  repeat' split
  all_goals simp [keep_fold, foldl_keep, mapFold_keep, *]

@[simp] theorem idxAdd_keep (s a1 a2 a3 a4 a5 a6) : keep (idxAdd s a1 a2 a3 a4 a5 a6) = keep s := by
  simp [idxAdd, keep_fold, foldl_keep, mapFold_keep, *]

@[simp] theorem idxRelease_keep (s a1 a2) : keep (idxRelease s a1 a2) = keep s := by
  simp [idxRelease, keep_fold, foldl_keep, mapFold_keep, *]

@[simp] theorem dropLists_keep (s a1 a2) : keep (dropLists s a1 a2) = keep s := by
  simp [dropLists, keep_fold, foldl_keep, mapFold_keep, *]

@[simp] theorem idxBegin_keep (s a1 a2) : keep (idxBegin s a1 a2) = keep s := by
  simp [idxBegin, keep_fold, foldl_keep, mapFold_keep, *]

@[simp] theorem indexBuildOp_keep (s a1 a2 a3) : keep (indexBuildOp s a1 a2 a3) = keep s := by
  unfold indexBuildOp
  try dsimp only
  repeat' split
  all_goals simp [keep_fold, foldl_keep, mapFold_keep, *]

theorem execIndexBuild_keep (a0 a1 a2 s) (t : State) (h : execIndexBuild a0 a1 a2 s = .next t) : keep t = keep s := by
  unfold execIndexBuild at h
  try dsimp only at h
  cases h
  simp [keep_fold, foldl_keep, mapFold_keep, *]

@[simp] theorem indexDoneOp_keep (s a1 a2 a3 a4) : keep (indexDoneOp s a1 a2 a3 a4) = keep s := by
  unfold indexDoneOp
  try dsimp only
  repeat' split
  all_goals simp [keep_fold, foldl_keep, mapFold_keep, *]

theorem execIndexBuildComplete_keep (a0 a1 a2 a3 s) (t : State) (h : execIndexBuildComplete a0 a1 a2 a3 s = .next t) : keep t = keep s := by
  unfold execIndexBuildComplete at h
  try dsimp only at h
  cases h
  simp [keep_fold, foldl_keep, mapFold_keep, *]

@[simp] theorem bodySelRebuild_keep (a0 s) : keep (bodySelRebuild a0 s).1 = keep s := by
  unfold bodySelRebuild
  try dsimp only
  repeat' split
  all_goals simp [keep_fold, foldl_keep, mapFold_keep, *]

theorem execSelRebuild_keep (a0 s) (t : State) (h : execSelRebuild a0 s = .next t) : keep t = keep s := by
  unfold execSelRebuild at h
  refine runHuavo_keep _ _ _ _ (fun d s => ?_) _ h
  try dsimp only
  repeat' split
  all_goals simp [keep_fold, foldl_keep, mapFold_keep]

/-! ### Reopen -/

theorem reopenInto_keep (s a1 a2 a3 a4) (t : State) (h : reopenInto s a1 a2 a3 a4 = some t) : keep t = keep s := by
  unfold reopenInto at h
  dsimp only [newIdentity] at h
  rw [Option.map_eq_some_iff] at h
  obtain ⟨d, -, rfl⟩ := h
  simp [keep_fold]

@[simp] theorem freeDest_keep (s a1) : keep (freeDest s a1) = keep s := by
  simp [freeDest, keep_fold, foldl_keep, mapFold_keep, *]

@[simp] theorem commitReopen_keep (s a1 a2 a3 a4 a5) : keep (commitReopen s a1 a2 a3 a4 a5) = keep s := by
  unfold commitReopen
  try dsimp only
  repeat' split
  all_goals simp [keep_fold, foldl_keep, mapFold_keep, *]

theorem reopenPage_keep (s a1 a2 a3 a4 a5) (t : State) (h : reopenPage s a1 a2 a3 a4 a5 = some t) : keep t = keep s := by
  unfold reopenPage at h
  repeat' split at h
  all_goals first | (cases h; done) | skip
  rw [Option.map_eq_some_iff] at h
  obtain ⟨u, hu, rfl⟩ := h
  rename_i hd
  simp [reopenInto_keep _ _ _ _ _ _ hu, drawFrame_keep _ _ _ _ _ _ _ _ hd]

/-! ### Repl -/

@[simp] theorem recomputeHeld_keep (s a1) : keep (recomputeHeld s a1) = keep s := by
  unfold recomputeHeld
  try dsimp only
  repeat' split
  all_goals simp [keep_fold, foldl_keep, mapFold_keep, *]

@[simp] theorem reportHeld_keep (s a1) : keep (reportHeld s a1) = keep s := by
  unfold reportHeld
  try dsimp only
  repeat' split
  all_goals simp [keep_fold, foldl_keep, mapFold_keep, *]

@[simp] theorem heldReplica_keep (s a1) : keep (heldReplica s a1) = keep s := by
  grind [heldReplica, keep_fold, keep_mk, foldl_keep, mapFold_keep, modFr_keep, reportHeld_keep]

@[simp] theorem heldBatch_keep (s a1 a2) : keep (heldBatch s a1 a2) = keep s := by
  simp [heldBatch, keep_fold, foldl_keep, mapFold_keep, *]

/-! ### Directory -/

@[simp] theorem setDirBank_keep (s a1 a2) : keep (setDirBank s a1 a2) = keep s := by
  simp [setDirBank, keep_fold, foldl_keep, mapFold_keep, *]

@[simp] theorem modRecord_keep (s a1 a2) : keep (modRecord s a1 a2) = keep s := by
  simp [modRecord, keep_fold, foldl_keep, mapFold_keep, *]

@[simp] theorem dropHold_keep (s a1) : keep (dropHold s a1) = keep s := by
  simp [dropHold, keep_fold, foldl_keep, mapFold_keep, *]

theorem placeRecord_keep (s a1 a2) (t : State) (r0) (h : placeRecord s a1 a2 = some (r0, t)) : keep t = keep s := by
  unfold placeRecord at h
  split at h
  · cases h
  · rw [Option.map_eq_some_iff] at h
    obtain ⟨u, -, hu⟩ := h
    cases hu
    simp [keep_fold]

@[simp] theorem releaseRecord_keep (s a1) : keep (releaseRecord s a1) = keep s := by
  unfold releaseRecord
  try dsimp only
  repeat' split
  all_goals simp [keep_fold, foldl_keep, mapFold_keep, *]

theorem execRowRecordRelease_keep (a0 s) (t : State) (h : execRowRecordRelease a0 s = .next t) : keep t = keep s := by
  unfold execRowRecordRelease at h
  try dsimp only at h
  cases h
  simp [keep_fold, foldl_keep, mapFold_keep, *]

@[simp] theorem placeEntry_keep (s a1 a2 a3) : keep (placeEntry s a1 a2 a3) = keep s := by
  unfold placeEntry
  try dsimp only
  repeat' split
  all_goals simp [keep_fold, foldl_keep, mapFold_keep, *]

@[simp] theorem buildRecord_keep (s a1 a2) : keep (buildRecord s a1 a2) = keep s := by
  unfold buildRecord
  try dsimp only
  repeat' split
  all_goals simp [keep_fold, foldl_keep, mapFold_keep, *]

@[simp] theorem countPub_keep (s a1 a2 a3) : keep (countPub s a1 a2 a3) = keep s := by
  simp [countPub, keep_fold, foldl_keep, mapFold_keep, *]

@[simp] theorem publishNode_keep (s a1 a2) : keep (publishNode s a1 a2) = keep s := by
  unfold publishNode
  try dsimp only
  repeat' split
  all_goals grind [keep_fold, keep_mk, foldl_keep, mapFold_keep, placeRecord_keep, placeEntry_keep, buildRecord_keep,
      countPub_keep, modQ_keep]

@[simp] theorem endWork_keep (s a1 a2 a3) : keep (endWork s a1 a2 a3) = keep s := by
  simp [endWork, keep_fold, foldl_keep, mapFold_keep, *]

@[simp] theorem queueJob_keep (s a1 a2) : keep (queueJob s a1 a2) = keep s := by
  simp [queueJob, keep_fold, foldl_keep, mapFold_keep, *]

@[simp] theorem nextItem_keep (s a1 a2 a3) : keep (nextItem s a1 a2 a3) = keep s := by
  unfold nextItem
  try dsimp only
  repeat' split
  all_goals simp [keep_fold, foldl_keep, mapFold_keep, *]

@[simp] theorem publishHost_keep (s a1 a2 a3 a4 a5) : keep (publishHost s a1 a2 a3 a4 a5) = keep s := by
  unfold publishHost
  try dsimp only
  repeat' split
  all_goals grind [keep_fold, keep_mk, foldl_keep, mapFold_keep, setDirBank_keep, placeRecord_keep, placeEntry_keep,
      buildRecord_keep, nextItem_keep, dropHold_keep, endWork_keep]

@[simp] theorem removeEntry_keep (s a1 a2) : keep (removeEntry s a1 a2) = keep s := by
  unfold removeEntry
  try dsimp only
  repeat' split
  all_goals simp [keep_fold, foldl_keep, mapFold_keep, *]

@[simp] theorem retractKey_keep (s a1 a2 a3 a4 a5) : keep (retractKey s a1 a2 a3 a4 a5) = keep s := by
  unfold retractKey
  try dsimp only
  repeat' split
  all_goals simp [keep_fold, foldl_keep, mapFold_keep, *]

@[simp] theorem runJob_keep (s a1 a2) : keep (runJob s a1 a2) = keep s := by
  unfold runJob
  try dsimp only
  repeat' split
  all_goals simp [keep_fold, foldl_keep, mapFold_keep, *]

@[simp] theorem dirDrain_keep (s n) : keep (dirDrain s n) = keep s := by
  induction n generalizing s with
  | zero => rfl
  | succ n ih => unfold dirDrain; repeat' split
                 all_goals simp [ih, keep_fold]

@[simp] theorem dirRun_keep (s) : keep (dirRun s) = keep s := by
  simp [dirRun, keep_fold, foldl_keep, mapFold_keep, *]

@[simp] theorem shiftStep_keep (s a1) : keep (shiftStep s a1) = keep s := by
  unfold shiftStep
  try dsimp only
  repeat' split
  all_goals simp [keep_fold, foldl_keep, mapFold_keep, *]

theorem execDominoShift_keep (a0 s) (t : State) (h : execDominoShift a0 s = .next t) : keep t = keep s := by
  unfold execDominoShift at h
  try dsimp only at h
  cases h
  simp [keep_fold, foldl_keep, mapFold_keep, *]

@[simp] theorem publicationOp_keep (s a1) : keep (publicationOp s a1) = keep s := by
  unfold publicationOp
  try dsimp only
  repeat' split
  all_goals simp [keep_fold, foldl_keep, mapFold_keep, *]

theorem execNodePublication_keep (a0 s) (t : State) (h : execNodePublication a0 s = .next t) : keep t = keep s := by
  unfold execNodePublication at h
  try dsimp only at h
  cases h
  simp [keep_fold, foldl_keep, mapFold_keep, *]

@[simp] theorem settleBank_keep (s b n) : keep (settleBank s b n) = keep s := by
  induction n generalizing s with
  | zero => rfl
  | succ n ih => unfold settleBank; split <;> simp [ih]

@[simp] theorem retractModel_keep (s a1 a2) : keep (retractModel s a1 a2) = keep s := by
  simp [retractModel, keep_fold, foldl_keep, mapFold_keep, *]

@[simp] theorem breakRecords_keep (s a1) : keep (breakRecords s a1) = keep s := by
  simp [breakRecords, keep_fold, foldl_keep, mapFold_keep, *]

@[simp] theorem switchRecords_keep (s a1 a2) : keep (switchRecords s a1 a2) = keep s := by
  simp [switchRecords, keep_fold, foldl_keep, mapFold_keep, *]

@[simp] theorem bodyPrefixSearch_keep (a0 s) : keep (bodyPrefixSearch a0 s).1 = keep s := by
  grind [bodyPrefixSearch, keep_fold, keep_mk, foldl_keep, mapFold_keep, withObj_keep, failIf_keep]

theorem execPrefixSearch_keep (a0 s) (t : State) (h : execPrefixSearch a0 s = .next t) : keep t = keep s := by
  unfold execPrefixSearch at h
  refine runHuavo_keep _ _ _ _ (fun d s => ?_) _ h
  try dsimp only
  simp [keep_fold, foldl_keep, mapFold_keep]

@[simp] theorem newWork_keep (s) : keep (newWork s).2 = keep s := by
  simp [newWork, keep_fold, foldl_keep, mapFold_keep, *]

@[simp] theorem bodyPrefixPublish_keep (a0 s) : keep (bodyPrefixPublish a0 s).1 = keep s := by
  grind [bodyPrefixPublish, keep_fold, keep_mk, foldl_keep, mapFold_keep, newWork_keep, nextItem_keep, withObj_keep,
      failIf_keep]

theorem execPrefixPublish_keep (a0 s) (t : State) (h : execPrefixPublish a0 s = .next t) : keep t = keep s := by
  unfold execPrefixPublish at h
  try dsimp only at h
  cases h
  simp [keep_fold, foldl_keep, mapFold_keep, *]

@[simp] theorem bodyPrefixRetract_keep (a0 s) : keep (bodyPrefixRetract a0 s).1 = keep s := by
  grind [bodyPrefixRetract, keep_fold, keep_mk, foldl_keep, mapFold_keep, queueJob_keep, newWork_keep, withObj_keep,
      failIf_keep]

theorem execPrefixRetract_keep (a0 s) (t : State) (h : execPrefixRetract a0 s = .next t) : keep t = keep s := by
  unfold execPrefixRetract at h
  try dsimp only at h
  cases h
  simp [keep_fold, foldl_keep, mapFold_keep, *]

@[simp] theorem bodyPrefixBulkLoad_keep (a0 s) : keep (bodyPrefixBulkLoad a0 s).1 = keep s := by
  simp [bodyPrefixBulkLoad, keep_fold, foldl_keep, mapFold_keep, *]

theorem execPrefixBulkLoad_keep (a0 s) (t : State) (h : execPrefixBulkLoad a0 s = .next t) : keep t = keep s := by
  unfold execPrefixBulkLoad at h
  try dsimp only at h
  cases h
  simp [keep_fold, foldl_keep, mapFold_keep, *]

@[simp] theorem bodyPrefixStats_keep (a0 s) : keep (bodyPrefixStats a0 s).1 = keep s := by
  grind [bodyPrefixStats, keep_fold, keep_mk, foldl_keep, mapFold_keep, withObj_keep, failIf_keep]

theorem execPrefixStats_keep (a0 s) (t : State) (h : execPrefixStats a0 s = .next t) : keep t = keep s := by
  unfold execPrefixStats at h
  refine runHuavo_keep _ _ _ _ (fun d s => ?_) _ h
  try dsimp only
  simp [keep_fold, foldl_keep, mapFold_keep]

@[simp] theorem bodyPrefixAttach_keep (a0 s) : keep (bodyPrefixAttach a0 s).1 = keep s := by
  grind [bodyPrefixAttach, keep_fold, keep_mk, foldl_keep, mapFold_keep, renewBy_keep, modQ_keep, withObj_keep,
      failIf_keep]

theorem execPrefixAttach_keep (a0 s) (t : State) (h : execPrefixAttach a0 s = .next t) : keep t = keep s := by
  unfold execPrefixAttach at h
  refine runHuavo_keep _ _ _ _ (fun d s => ?_) _ h
  try dsimp only
  simp [keep_fold, foldl_keep, mapFold_keep]

@[simp] theorem walkDone_keep (s id) : keep (walkDone s id) = keep s := by
  unfold walkDone
  split
  · rfl
  split
  · rfl
  dsimp only
  iterate 4 (split; · simp [keep_fold])
  split
  · simp
  · rename_i hm
    have := optFold_keep hm (fun s a t h => ensureLeaf_keep _ _ _ _ _ _ h) (fun u hu => by cases hu; rfl)
    simp [this, foldl_keep]

theorem execRecordWalkDone_keep (a0 a1 s) (t : State) (h : execRecordWalkDone a0 a1 s = .next t) : keep t = keep s := by
  unfold execRecordWalkDone at h
  try dsimp only at h
  cases h
  simp [keep_fold, foldl_keep, mapFold_keep, *]

/-! ### Lost -/

@[simp] theorem replRecord_keep (s a1 a2 a3) : keep (replRecord s a1 a2 a3) = keep s := by
  simp [replRecord, keep_fold, foldl_keep, mapFold_keep, *]

@[simp] theorem recordChanged_keep (s a1) : keep (recordChanged s a1) = keep s := by
  unfold recordChanged
  try dsimp only
  repeat' split
  all_goals simp [keep_fold, foldl_keep, mapFold_keep, *]

@[simp] theorem endSeqWork_keep (s a1 a2) : keep (endSeqWork s a1 a2) = keep s := by
  simp [endSeqWork, keep_fold, foldl_keep, mapFold_keep, *]

@[simp] theorem loseSeq_keep (s a1 a2 a3) : keep (loseSeq s a1 a2 a3) = keep s := by
  unfold loseSeq
  try dsimp only
  repeat' split
  all_goals simp [keep_fold, foldl_keep, mapFold_keep, *]

theorem reopenWithin_keep (s a1 a2 a3 a4) (t : State) (h : reopenWithin s a1 a2 a3 a4 = some t) : keep t = keep s := by
  induction a4 generalizing s with
  | nil => simp [reopenWithin] at h; simp [h]
  | cons e l ih =>
    obtain ⟨k, f⟩ := e
    unfold reopenWithin at h
    split at h
    · rw [Option.bind_eq_some_iff] at h
      obtain ⟨u, hu, h⟩ := h
      rw [ih _ h, reopenPage_keep _ _ _ _ _ _ _ hu]
    · exact ih _ h

@[simp] theorem rollBack_keep (s a1 a2) : keep (rollBack s a1 a2) = keep s := by
  grind [rollBack, keep_fold, keep_mk, foldl_keep, mapFold_keep, reopenWithin_keep, modFr_keep, clearLeaves_keep,
      modQ_keep, loseSeq_keep]

end Sys2Proof.Machine
end

