-- ==== Sys2Proof/Laws/KeepLaps.lean ====
section
/-! SUPPORT. What keeps the queue, the bulk window and the fuses: steps, laps and accounts. One lemma per operation. -/

set_option Elab.async false

namespace Sys2Proof.Machine

set_option linter.unusedSimpArgs false
set_option linter.unusedTactic false
set_option linter.unreachableTactic false

/-! ### Steps -/

@[simp] theorem writeGranule_keep (s a1 a2 a3 a4 a5) : keep (writeGranule s a1 a2 a3 a4 a5) = keep s := by
  unfold writeGranule
  try dsimp only
  repeat' split
  all_goals simp [keep_fold, foldl_keep, mapFold_keep, *]

@[simp] theorem writeRows_keep (s p f off data len n) : keep (writeRows s p f off data len n) = keep s := by
  induction n generalizing s off data len with
  | zero => simp [writeRows]
  | succ n ih => unfold writeRows; dsimp only; split <;> simp [ih]

@[simp] theorem rejectResult_keep (s a1 a2 a3 a4) : keep (rejectResult s a1 a2 a3 a4) = keep s := by
  unfold rejectResult
  try dsimp only
  repeat' split
  all_goals simp [keep_fold, foldl_keep, mapFold_keep, *]

@[simp] theorem leaveSlot_keep (s a1 a2) : keep (leaveSlot s a1 a2) = keep s := by
  unfold leaveSlot
  try dsimp only
  repeat' split
  all_goals simp [keep_fold, foldl_keep, mapFold_keep, *]

theorem drawBlock_keep (s a1) (t : State) (h : drawBlock s a1 = some t) : keep t = keep s := by
  unfold drawBlock at h
  try dsimp only at h
  repeat' split at h
  all_goals grind [keep_fold, foldl_keep, mapFold_keep, useFree_keep, drawRow_keep, modQ_keep]

@[simp] theorem joinSlot_keep (s a1 a2 a3) : keep (joinSlot s a1 a2 a3) = keep s := by
  grind [joinSlot, keep_fold, keep_mk, foldl_keep, mapFold_keep, dropLists_keep, drawBlock_keep, setH_keep, modQ_keep]

theorem openRow_keep (s id) (t : State) (h : openRow s id = some t) : keep t = keep s := by
  unfold openRow at h
  split at h
  · cases h
  · extract_lets m page rows far s1 frames at h
    rw [Option.map_eq_some_iff] at h
    obtain ⟨u, hu, h⟩ := h
    have hk : keep u = keep s := optFold_keep hu (fun s a t h => ensureLeaf_keep _ _ _ _ _ _ h) (fun u hu => by cases hu; rfl)
    clear hu
    extract_lets hidden s2 entry s3 s4 at h
    have h2 : keep s2 = keep u := by simp only [s2]; split <;> simp
    have h3 : keep s3 = keep u := by simp only [s3]; simp [h2]
    have h4 : keep s4 = keep u := by simp only [s4]; simp [h3]
    clear_value s2 s3 s4
    subst h
    split <;> simp [h4, hk, foldl_keep]

@[simp] theorem fixPart_keep (s a1 a2 a3) : keep (fixPart s a1 a2 a3) = keep s := by
  unfold fixPart
  try dsimp only
  repeat' split
  all_goals grind [keep_fold, keep_mk, foldl_keep, mapFold_keep, setH_keep, openRow_keep]

@[simp] theorem noteHash_keep (s a1 a2 a3) : keep (noteHash s a1 a2 a3) = keep s := by
  unfold noteHash
  try dsimp only
  repeat' split
  all_goals simp [keep_fold, foldl_keep, mapFold_keep, *]

@[simp] theorem drawMissing_keep (s a1 a2) : keep (drawMissing s a1 a2) = keep s := by
  unfold drawMissing
  repeat' split
  all_goals first | rfl | (cases hb : drawBlock s _ <;> simp; exact drawBlock_keep _ _ _ hb)

@[simp] theorem openFrame_keep (s a1 a2 a3 a4 a5 a6) : keep (openFrame s a1 a2 a3 a4 a5 a6) = keep s := by
  simp [openFrame, keep_fold, foldl_keep, mapFold_keep, *]

@[simp] theorem openLayer_keep (s a1 a2 a3) : keep (openLayer s a1 a2 a3) = keep s := by
  unfold openLayer
  try dsimp only
  repeat' split
  all_goals grind [keep_fold, keep_mk, foldl_keep, mapFold_keep, openFrame_keep]

@[simp] theorem countLate_keep (s a1 a2) : keep (countLate s a1 a2) = keep s := by
  unfold countLate
  try dsimp only
  repeat' split
  all_goals simp [keep_fold, foldl_keep, mapFold_keep, *]

@[simp] theorem laterRow_keep (s a1 a2 a3 a4 a5) : keep (laterRow s a1 a2 a3 a4 a5) = keep s := by
  simp [laterRow, keep_fold, foldl_keep, mapFold_keep, *]

@[simp] theorem installPage_keep (s a1 a2) : keep (installPage s a1 a2) = keep s := by
  grind [installPage, keep_fold, keep_mk, foldl_keep, mapFold_keep, modFr_keep, idxAdd_keep, ensureLeaf_keep, modQ_keep]

@[simp] theorem commitMove_keep (s a1 a2) : keep (commitMove s a1 a2) = keep s := by
  unfold commitMove
  try dsimp only
  repeat' split
  all_goals simp [keep_fold, foldl_keep, mapFold_keep, *]

@[simp] theorem commitChange_keep (s a1) : keep (commitChange s a1) = keep s := by
  unfold commitChange
  try dsimp only
  repeat' split
  all_goals simp [keep_fold, foldl_keep, mapFold_keep, *]

@[simp] theorem overSlots_keep (a0 a1 a2 s) (h2 : ∀ x0 x1,
    keep (a2 x0 x1) = keep x0) : keep (overSlots a0 a1 a2 s) = keep s := by
  grind [overSlots, keep_fold, keep_mk, foldl_keep, mapFold_keep]

@[simp] theorem layer0Work_keep (s k) (step : BitVec 32) : keep (layer0Work s k step) = keep s := by
  unfold layer0Work
  split
  · rfl
  · extract_lets b n row waits acts ok s1 s2 s3 s4 s5 s6
    have h1 : keep s1 = keep s := by
      apply overSlots_keep; intro x i; split <;> simp
    clear_value s1
    have h2 : keep s2 = keep s := by simp only [s2]; rw [overSlots_keep, h1]; intro x i; simp
    clear_value s2
    have h3 : keep s3 = keep s := by simp only [s3]; rw [overSlots_keep, h2]; intro x i; split <;> simp
    clear_value s3
    have h4 : keep s4 = keep s := by simp only [s4]; rw [overSlots_keep, h3]; intro x i; split <;> simp
    clear_value s4
    have h5 : keep s5 = keep s := by
      simp only [s5]; rw [overSlots_keep, h4]; intro x i; repeat' split
      all_goals simp
    clear_value s5
    have h6 : keep s6 = keep s := by simp only [s6]; rw [overSlots_keep, h5]; intro x i; simp
    clear_value s6
    rw [overSlots_keep, h6]; intro x i; simp

@[simp] theorem laterWork_keep (s a1 a2 a3) : keep (laterWork s a1 a2 a3) = keep s := by
  unfold laterWork
  try dsimp only
  repeat' split
  all_goals simp [keep_fold, foldl_keep, mapFold_keep, *]

@[simp] theorem renewLeases_keep (s a1) : keep (renewLeases s a1) = keep s := by
  unfold renewLeases
  try dsimp only
  repeat' split
  all_goals grind [keep_fold, keep_mk, foldl_keep, mapFold_keep, sendMgmt_keep, setQ_keep, modQ_keep, overSlots_keep]

@[simp] theorem forwardStep_keep (s a1 a2 a3) : keep (forwardStep s a1 a2 a3) = keep s := by
  grind [forwardStep, keep_fold, keep_mk, foldl_keep, mapFold_keep, internalQueue_keep, launchInternal_keep]

@[simp] theorem commitHeat_keep (s a1) : keep (commitHeat s a1) = keep s := by
  grind [commitHeat, keep_fold, keep_mk, foldl_keep, mapFold_keep, modQ_keep, commitIndexes_keep, overSlots_keep]

@[simp] theorem acceptMark_keep (s a1 a2 a3 a4) : keep (acceptMark s a1 a2 a3 a4) = keep s := by
  unfold acceptMark
  try dsimp only
  repeat' split
  all_goals simp [keep_fold, foldl_keep, mapFold_keep, *]

@[simp] theorem admitMark_keep (s a1 a2 a3) : keep (admitMark s a1 a2 a3) = keep s := by
  unfold admitMark
  try dsimp only
  repeat' split
  all_goals simp [keep_fold, foldl_keep, mapFold_keep, *]

@[simp] theorem markOp_keep (s a1 a2 a3 a4 a5) : keep (markOp s a1 a2 a3 a4 a5) = keep s := by
  unfold markOp
  try dsimp only
  repeat' split
  all_goals simp [keep_fold, foldl_keep, mapFold_keep, *]

@[simp] theorem acceptHeld_keep (s a1) : keep (acceptHeld s a1) = keep s := by
  unfold acceptHeld
  try dsimp only
  repeat' split
  all_goals simp [keep_fold, foldl_keep, mapFold_keep, *]

@[simp] theorem acceptHeldIn_keep (s a1) : keep (acceptHeldIn s a1) = keep s := by
  grind [acceptHeldIn, keep_fold, keep_mk, foldl_keep, mapFold_keep, acceptHeld_keep]

theorem execStepRowWrite_keep (a0 a1 a2 a3 a4 s) (t : State) (h : execStepRowWrite a0 a1 a2 a3 a4 s = .next t) : keep t = keep s := by
  unfold execStepRowWrite at h
  try dsimp only at h
  cases h
  repeat' split
  all_goals simp [keep_fold, foldl_keep, mapFold_keep, *]

theorem execStepMark_keep (a0 a1 a2 a3 a4 a5 s) (t : State) (h : execStepMark a0 a1 a2 a3 a4 a5 s = .next t) : keep t = keep s := by
  unfold execStepMark at h
  try dsimp only at h
  cases h
  repeat' split
  all_goals simp [keep_fold, foldl_keep, mapFold_keep, *]

/-! ### Acct -/

@[simp] theorem charge_keep (s a1 a2 a3) : keep (charge s a1 a2 a3) = keep s := by
  simp [charge, keep_fold, foldl_keep, mapFold_keep, *]

@[simp] theorem chargeEnergy_keep (s a1 a2 a3 a4) : keep (chargeEnergy s a1 a2 a3 a4) = keep s := by
  simp [chargeEnergy, keep_fold, foldl_keep, mapFold_keep, *]

@[simp] theorem chargeDram_keep (s a1 a2 a3) : keep (chargeDram s a1 a2 a3) = keep s := by
  simp [chargeDram, keep_fold, foldl_keep, mapFold_keep, *]

@[simp] theorem chargePcie_keep (s a1 a2 a3) : keep (chargePcie s a1 a2 a3) = keep s := by
  simp [chargePcie, keep_fold, foldl_keep, mapFold_keep, *]

@[simp] theorem chargeNet_keep (s a1 a2 a3) : keep (chargeNet s a1 a2 a3) = keep s := by
  simp [chargeNet, keep_fold, foldl_keep, mapFold_keep, *]

/-! ### Laps -/

@[simp] theorem setCl_keep (s a1 a2 a3) : keep (setCl s a1 a2 a3) = keep s := by
  simp [setCl, keep_fold, foldl_keep, mapFold_keep, *]

@[simp] theorem modCl_keep (s a1 a2 a3) : keep (modCl s a1 a2 a3) = keep s := by
  unfold modCl
  try dsimp only
  repeat' split
  all_goals simp [keep_fold, foldl_keep, mapFold_keep, *]

@[simp] theorem modLap_keep (s a1 a2) : keep (modLap s a1 a2) = keep s := by
  simp [modLap, keep_fold, foldl_keep, mapFold_keep, *]

@[simp] theorem raisePage_keep (s a1 a2 a3 a4 a5 a6 a7 a8 a9 a10) : keep (raisePage s a1 a2 a3 a4 a5 a6 a7 a8 a9 a10) = keep s := by
  simp [raisePage, keep_fold, foldl_keep, mapFold_keep, *]

@[simp] theorem startLap_keep (s a1 a2 a3) : keep (startLap s a1 a2 a3) = keep s := by
  unfold startLap
  try dsimp only
  repeat' split
  all_goals simp [keep_fold, foldl_keep, mapFold_keep, *]

theorem execLapStart_keep (a0 a1 a2 a3 s) (t : State) (h : execLapStart a0 a1 a2 a3 s = .next t) : keep t = keep s := by
  unfold execLapStart at h
  try dsimp only at h
  cases h
  repeat' split
  all_goals simp [keep_fold, foldl_keep, mapFold_keep, *]

@[simp] theorem setDeficit_keep (s a1 a2 a3) : keep (setDeficit s a1 a2 a3) = keep s := by
  simp [setDeficit, keep_fold, foldl_keep, mapFold_keep, *]

theorem decide251_keep (s a1 a2) (t : State) (r0) (h : decide251 s a1 a2 = some (r0, t)) : keep t = keep s := by
  unfold decide251 at h
  dsimp only at h
  split at h
  · cases h
  · rw [Option.map_eq_some_iff] at h
    obtain ⟨u, -, hu⟩ := h
    cases hu
    split <;> simp [foldl_keep]

@[simp] theorem restoreCheckpoint_keep (s a1 a2) : keep (restoreCheckpoint s a1 a2) = keep s := by
  unfold restoreCheckpoint
  try dsimp only
  repeat' split
  all_goals simp [keep_fold, foldl_keep, mapFold_keep, *]

@[simp] theorem grant_keep (s a1 a2) : keep (grant s a1 a2) = keep s := by
  unfold grant
  try dsimp only
  repeat' split
  all_goals simp [keep_fold, foldl_keep, mapFold_keep, *]

@[simp] theorem arbitrateFree_keep (s a1) : keep (arbitrateFree s a1) = keep s := by
  grind [arbitrateFree, keep_fold, keep_mk, foldl_keep, mapFold_keep, grant_keep, decide251_keep]

@[simp] theorem holdFor_keep (s a1 a2 a3) : keep (holdFor s a1 a2 a3) = keep s := by
  grind [holdFor, keep_fold, keep_mk, foldl_keep, mapFold_keep, chargeEnergy_keep, charge_keep, setDeficit_keep]

@[simp] theorem startSwitch_keep (s a1) : keep (startSwitch s a1) = keep s := by
  unfold startSwitch
  try dsimp only
  repeat' split
  all_goals simp [keep_fold, foldl_keep, mapFold_keep, *]

@[simp] theorem loseFrames_keep (s a1) : keep (loseFrames s a1) = keep s := by
  simp [loseFrames, keep_fold, foldl_keep, mapFold_keep, *]

@[simp] theorem awaitRollback_keep (s a1) : keep (awaitRollback s a1) = keep s := by
  simp [awaitRollback, keep_fold, foldl_keep, mapFold_keep, *]

@[simp] theorem quarantineCluster_keep (s a1 a2) : keep (quarantineCluster s a1 a2) = keep s := by
  unfold quarantineCluster
  try dsimp only
  repeat' split
  all_goals simp [keep_fold, foldl_keep, mapFold_keep, *]

@[simp] theorem writeCheckpoint_keep (s a1 a2 a3 a4) : keep (writeCheckpoint s a1 a2 a3 a4) = keep s := by
  simp [writeCheckpoint, keep_fold, foldl_keep, mapFold_keep, *]

@[simp] theorem noteReplay_keep (s a1) : keep (noteReplay s a1) = keep s := by
  unfold noteReplay
  try dsimp only
  repeat' split
  all_goals simp [keep_fold, foldl_keep, mapFold_keep, *]

@[simp] theorem segmentEnd_keep (s a1 a2) : keep (segmentEnd s a1 a2).1 = keep s := by
  unfold segmentEnd
  try dsimp only
  repeat' split
  all_goals simp [keep_fold, foldl_keep, mapFold_keep, *]

@[simp] theorem preempt_keep (s a1 a2) : keep (preempt s a1 a2) = keep s := by
  unfold preempt
  try dsimp only
  repeat' split
  all_goals grind [keep_fold, keep_mk, foldl_keep, mapFold_keep, modCl_keep, setC_keep, grant_keep, decide251_keep]

@[simp] theorem hurdleOp_keep (a0 a1 s) : keep (hurdleOp a0 a1 s) = keep s := by
  unfold hurdleOp
  try dsimp only
  repeat' split
  all_goals simp [keep_fold, foldl_keep, mapFold_keep, *]

theorem execMarHurdle_keep (a0 a1 s) (t : State) (h : execMarHurdle a0 a1 s = .next t) : keep t = keep s := by
  unfold execMarHurdle at h
  try dsimp only at h
  cases h
  simp [keep_fold, foldl_keep, mapFold_keep, *]

@[simp] theorem marEndOp_keep (a0 a1 s) : keep (marEndOp a0 a1 s) = keep s := by
  unfold marEndOp
  try dsimp only
  repeat' split
  all_goals simp [keep_fold, foldl_keep, mapFold_keep, *]

theorem execMarEnd_keep (a0 a1 s) (t : State) (h : execMarEnd a0 a1 s = .next t) : keep t = keep s := by
  unfold execMarEnd at h
  try dsimp only at h
  cases h
  simp [keep_fold, foldl_keep, mapFold_keep, *]

@[simp] theorem faultResolvedOp_keep (s a1 a2 a3) : keep (faultResolvedOp s a1 a2 a3) = keep s := by
  unfold faultResolvedOp
  try dsimp only
  repeat' split
  all_goals simp [keep_fold, foldl_keep, mapFold_keep, *]

theorem execPageFaultResolved_keep (a0 a1 a2 a3 s) (t : State) (h : execPageFaultResolved a0 a1 a2 a3 s = .next t) : keep t = keep s := by
  unfold execPageFaultResolved at h
  try dsimp only at h
  cases h
  simp [keep_fold, foldl_keep, mapFold_keep, *]

@[simp] theorem clockDue_keep (s a1) : keep (clockDue s a1) = keep s := by
  unfold clockDue
  try dsimp only
  repeat' split
  all_goals simp [keep_fold, foldl_keep, mapFold_keep, *]

@[simp] theorem clockDueAll_keep (s) : keep (clockDueAll s) = keep s := by
  simp [clockDueAll, keep_fold, foldl_keep, mapFold_keep, *]

theorem execCclkSwitch_keep (a0 s) (t : State) (h : execCclkSwitch a0 s = .next t) : keep t = keep s := by
  unfold execCclkSwitch at h
  try dsimp only at h
  cases h
  repeat' split
  all_goals simp [keep_fold, foldl_keep, mapFold_keep, *]

@[simp] theorem switchDoneOp_keep (s a1) : keep (switchDoneOp s a1) = keep s := by
  unfold switchDoneOp
  try dsimp only
  repeat' split
  all_goals simp [keep_fold, foldl_keep, mapFold_keep, *]

theorem execCclkSwitchDone_keep (a0 s) (t : State) (h : execCclkSwitchDone a0 s = .next t) : keep t = keep s := by
  unfold execCclkSwitchDone at h
  try dsimp only at h
  cases h
  simp [keep_fold, foldl_keep, mapFold_keep, *]

end Sys2Proof.Machine
end

