-- ==== Sys2Proof/Laws/KeepNet.lean ====
section
/-! SUPPORT. What keeps the queue, the bulk window and the fuses: channels, host registers and transport. One lemma per operation. -/

set_option Elab.async false

namespace Sys2Proof.Machine

set_option linter.unusedSimpArgs false
set_option linter.unusedTactic false
set_option linter.unreachableTactic false

/-! ### Channels -/

@[simp] theorem setCh_keep (s a1 a2) : keep (setCh s a1 a2) = keep s := by
  simp [setCh, keep_fold, foldl_keep, mapFold_keep, *]

@[simp] theorem bodyDramConfig_keep (a0 s) : keep (bodyDramConfig a0 s).1 = keep s := by
  simp [bodyDramConfig, keep_fold, foldl_keep, mapFold_keep, *]

theorem execDramConfig_keep (a0 s) (t : State) (h : execDramConfig a0 s = .next t) : keep t = keep s := by
  unfold execDramConfig at h
  refine runHuavo_keep _ _ _ _ (fun d s => ?_) _ h
  try dsimp only
  simp [keep_fold, foldl_keep, mapFold_keep]

@[simp] theorem bodyDramStatus_keep (a0 s) : keep (bodyDramStatus a0 s).1 = keep s := by
  simp [bodyDramStatus, keep_fold, foldl_keep, mapFold_keep, *]

theorem execDramStatus_keep (a0 s) (t : State) (h : execDramStatus a0 s = .next t) : keep t = keep s := by
  unfold execDramStatus at h
  refine runHuavo_keep _ _ _ _ (fun d s => ?_) _ h
  try dsimp only
  simp [keep_fold, foldl_keep, mapFold_keep]

@[simp] theorem refreshOp_keep (s a1) : keep (refreshOp s a1) = keep s := by
  unfold refreshOp
  try dsimp only
  repeat' split
  all_goals simp [keep_fold, foldl_keep, mapFold_keep, *]

theorem execRefreshWindow_keep (a0 s) (t : State) (h : execRefreshWindow a0 s = .next t) : keep t = keep s := by
  unfold execRefreshWindow at h
  try dsimp only at h
  cases h
  simp [keep_fold, foldl_keep, mapFold_keep, *]

@[simp] theorem applyPass_keep (s a1 a2 a3 a4 a5 a6) : keep (applyPass s a1 a2 a3 a4 a5 a6) = keep s := by
  unfold applyPass
  try dsimp only
  repeat' split
  all_goals simp [keep_fold, foldl_keep, mapFold_keep, *]

theorem execDramRetrainPass_keep (a0 a1 a2 a3 a4 s) (t : State) (h : execDramRetrainPass a0 a1 a2 a3 a4 s = .next t) : keep t = keep s := by
  unfold execDramRetrainPass at h
  try dsimp only at h
  cases h
  repeat' split
  all_goals simp [keep_fold, foldl_keep, mapFold_keep, *]

@[simp] theorem linkFailed_keep (s a1 a2) : keep (linkFailed s a1 a2).1 = keep s := by
  unfold linkFailed
  try dsimp only
  repeat' split
  all_goals simp [keep_fold, foldl_keep, mapFold_keep, *]

@[simp] theorem raiseFailed_keep (s a1) : keep (raiseFailed s a1) = keep s := by
  simp [raiseFailed, keep_fold, foldl_keep, mapFold_keep, *]

@[simp] theorem raiseWindow_keep (s a1 a2 a3) : keep (raiseWindow s a1 a2 a3) = keep s := by
  simp [raiseWindow, keep_fold, foldl_keep, mapFold_keep, *]

@[simp] theorem bulkReadOp_keep (s a1 a2 a3 a4) : keep (bulkReadOp s a1 a2 a3 a4) = keep s := by
  unfold bulkReadOp
  try dsimp only
  repeat' split
  all_goals simp [keep_fold, foldl_keep, mapFold_keep, *]

theorem execBulkWindowRead_keep (a0 a1 a2 a3 s) (t : State) (h : execBulkWindowRead a0 a1 a2 a3 s = .next t) : keep t = keep s := by
  unfold execBulkWindowRead at h
  try dsimp only at h
  cases h
  repeat' split
  all_goals simp [keep_fold, foldl_keep, mapFold_keep, *]

@[simp] theorem bodyRowOp_keep (a0 s) : keep (bodyRowOp a0 s).1 = keep s := by
  grind [bodyRowOp, keep_fold, keep_mk, foldl_keep, mapFold_keep, failIf_keep]

theorem execRowOp_keep (a0 s) (t : State) (h : execRowOp a0 s = .next t) : keep t = keep s := by
  unfold execRowOp at h
  refine runHuavo_keep _ _ _ _ (fun d s => ?_) _ h
  try dsimp only
  simp [keep_fold, foldl_keep, mapFold_keep]

@[simp] theorem rowFinish_keep (s a1) : keep (rowFinish s a1) = keep s := by
  simp [rowFinish, keep_fold, foldl_keep, mapFold_keep, *]

theorem execMetadataRekey_keep (s) (t : State) (h : execMetadataRekey s = .next t) : keep t = keep s := by
  unfold execMetadataRekey at h
  try dsimp only at h
  cases h
  repeat' split
  all_goals simp [keep_fold, foldl_keep, mapFold_keep, *]

theorem execMetadataRekeyDone_keep (s) (t : State) (h : execMetadataRekeyDone s = .next t) : keep t = keep s := by
  unfold execMetadataRekeyDone at h
  try dsimp only at h
  cases h
  repeat' split
  all_goals simp [keep_fold, foldl_keep, mapFold_keep, *]

/-! ### HostRegs -/

@[simp] theorem ringEnableOp_keep (s a1 a2 a3) : keep (ringEnableOp s a1 a2 a3) = keep s := by
  unfold ringEnableOp
  try dsimp only
  repeat' split
  all_goals simp [keep_fold, foldl_keep, mapFold_keep, *]

@[simp] theorem ringDisableOp_keep (s a1 a2 a3) : keep (ringDisableOp s a1 a2 a3) = keep s := by
  simp [ringDisableOp, keep_fold, foldl_keep, mapFold_keep, *]

theorem execRingEnable_keep (a0 a1 a2 s) (t : State) (h : execRingEnable a0 a1 a2 s = .next t) : keep t = keep s := by
  unfold execRingEnable at h
  try dsimp only at h
  cases h
  repeat' split
  all_goals simp [keep_fold, foldl_keep, mapFold_keep, *]

theorem execRingDisable_keep (a0 a1 a2 s) (t : State) (h : execRingDisable a0 a1 a2 s = .next t) : keep t = keep s := by
  unfold execRingDisable at h
  try dsimp only at h
  cases h
  repeat' split
  all_goals simp [keep_fold, foldl_keep, mapFold_keep, *]

@[simp] theorem intCtrlOp_keep (s a1 a2 a3) : keep (intCtrlOp s a1 a2 a3) = keep s := by
  unfold intCtrlOp
  try dsimp only
  repeat' split
  all_goals simp [keep_fold, foldl_keep, mapFold_keep, *]

theorem execIntCtrlWrite_keep (a0 a1 a2 s) (t : State) (h : execIntCtrlWrite a0 a1 a2 s = .next t) : keep t = keep s := by
  unfold execIntCtrlWrite at h
  try dsimp only at h
  cases h
  repeat' split
  all_goals simp [keep_fold, foldl_keep, mapFold_keep, *]

@[simp] theorem holdoffOp_keep (s a1 a2 a3) : keep (holdoffOp s a1 a2 a3) = keep s := by
  unfold holdoffOp
  try dsimp only
  repeat' split
  all_goals simp [keep_fold, foldl_keep, mapFold_keep, *]

theorem execInterruptHoldoffExpiry_keep (a0 a1 a2 a3 s) (t : State) (h : execInterruptHoldoffExpiry a0 a1 a2 a3 s = .next t) : keep t = keep s := by
  unfold execInterruptHoldoffExpiry at h
  try dsimp only at h
  cases h
  simp [keep_fold, foldl_keep, mapFold_keep, *]

@[simp] theorem msixFlush_keep (s a1 a2) : keep (msixFlush s a1 a2) = keep s := by
  unfold msixFlush
  try dsimp only
  repeat' split
  all_goals simp [keep_fold, foldl_keep, mapFold_keep, *]

@[simp] theorem msixMaskOp_keep (s a1 a2 a3 a4) : keep (msixMaskOp s a1 a2 a3 a4) = keep s := by
  unfold msixMaskOp
  try dsimp only
  repeat' split
  all_goals simp [keep_fold, foldl_keep, mapFold_keep, *]

theorem execMsixUnmask_keep (a0 a1 a2 a3 s) (t : State) (h : execMsixUnmask a0 a1 a2 a3 s = .next t) : keep t = keep s := by
  unfold execMsixUnmask at h
  try dsimp only at h
  cases h
  repeat' split
  all_goals simp [keep_fold, foldl_keep, mapFold_keep, *]

@[simp] theorem cmdTailOp_keep (s a1 a2 a3 a4) : keep (cmdTailOp s a1 a2 a3 a4) = keep s := by
  unfold cmdTailOp
  try dsimp only
  repeat' split
  all_goals simp [keep_fold, foldl_keep, mapFold_keep, *]

theorem execCmdTailWrite_keep (a0 a1 a2 a3 a4 s) (t : State) (h : execCmdTailWrite a0 a1 a2 a3 a4 s = .next t) : keep t = keep s := by
  unfold execCmdTailWrite at h
  try dsimp only at h
  cases h
  repeat' split
  all_goals simp [keep_fold, foldl_keep, mapFold_keep, *]

@[simp] theorem registerOp_keep (s a1 a2 a3 a4 a5) : keep (registerOp s a1 a2 a3 a4 a5) = keep s := by
  unfold registerOp
  try dsimp only
  repeat' split
  all_goals simp [keep_fold, foldl_keep, mapFold_keep, *]

theorem execRegisterWrite_keep (a0 a1 a2 a3 a4 s) (t : State) (h : execRegisterWrite a0 a1 a2 a3 a4 s = .next t) : keep t = keep s := by
  unfold execRegisterWrite at h
  try dsimp only at h
  cases h
  repeat' split
  all_goals simp [keep_fold, foldl_keep, mapFold_keep, *]

@[simp] theorem timeLatchOp_keep (s a1 a2 a3) : keep (timeLatchOp s a1 a2 a3) = keep s := by
  unfold timeLatchOp
  try dsimp only
  repeat' split
  all_goals simp [keep_fold, foldl_keep, mapFold_keep, *]

theorem execTimeReadLatch_keep (a0 a1 a2 s) (t : State) (h : execTimeReadLatch a0 a1 a2 s = .next t) : keep t = keep s := by
  unfold execTimeReadLatch at h
  try dsimp only at h
  cases h
  repeat' split
  all_goals simp [keep_fold, foldl_keep, mapFold_keep, *]

@[simp] theorem linkUpOp_keep (s a1 a2 a3) : keep (linkUpOp s a1 a2 a3) = keep s := by
  unfold linkUpOp
  try dsimp only
  repeat' split
  all_goals simp [keep_fold, foldl_keep, mapFold_keep, *]

theorem execPcieLinkUp_keep (a0 a1 a2 s) (t : State) (h : execPcieLinkUp a0 a1 a2 s = .next t) : keep t = keep s := by
  unfold execPcieLinkUp at h
  try dsimp only at h
  cases h
  simp [keep_fold, foldl_keep, mapFold_keep, *]

/-! ### Transport -/

@[simp] theorem markError_keep (s a1) : keep (markError s a1) = keep s := by
  simp [markError, keep_fold, foldl_keep, mapFold_keep, *]

@[simp] theorem cqOverflow_keep (s a1) : keep (cqOverflow s a1) = keep s := by
  grind [cqOverflow, keep_fold, keep_mk, foldl_keep, mapFold_keep, markError_keep, modNet_keep, raiseObj_keep]

@[simp] theorem cqPush_keep (s a1 a2 a3) : keep (cqPush s a1 a2 a3) = keep s := by
  unfold cqPush
  try dsimp only
  repeat' split
  all_goals simp [keep_fold, foldl_keep, mapFold_keep, *]

@[simp] theorem pushFor_keep (s a1 a2 a3) : keep (pushFor s a1 a2 a3) = keep s := by
  unfold pushFor
  try dsimp only
  repeat' split
  all_goals simp [keep_fold, foldl_keep, mapFold_keep, *]

@[simp] theorem completeWr_keep (s a1 a2 a3 a4 a5 a6) : keep (completeWr s a1 a2 a3 a4 a5 a6) = keep s := by
  unfold completeWr
  try dsimp only
  repeat' split
  all_goals simp [keep_fold, foldl_keep, mapFold_keep, *]

@[simp] theorem collSettle_keep (s a1 a2) : keep (collSettle s a1 a2) = keep s := by
  simp [collSettle, keep_fold, foldl_keep, mapFold_keep, *]

@[simp] theorem mergeSent_keep (s a1 a2 a3 a4 a5) : keep (mergeSent s a1 a2 a3 a4 a5) = keep s := by
  simp [mergeSent, keep_fold, foldl_keep, mapFold_keep, *]

@[simp] theorem queueError_keep (s a1 a2 a3) : keep (queueError s a1 a2 a3) = keep s := by
  grind [queueError, keep_fold, keep_mk, foldl_keep, mapFold_keep, completeWr_keep, modWq_keep, markError_keep,
      pushFor_keep, mergeSent_keep]

@[simp] theorem setSh_keep (s a1 a2) : keep (setSh s a1 a2) = keep s := by
  simp [setSh, keep_fold, foldl_keep, mapFold_keep, *]

@[simp] theorem chargeShapers_keep (s a1 a2) : keep (chargeShapers s a1 a2) = keep s := by
  grind [chargeShapers, keep_fold, keep_mk, foldl_keep, mapFold_keep, setSh_keep]

@[simp] theorem enterWheel_keep (s a1 a2) : keep (enterWheel s a1 a2) = keep s := by
  unfold enterWheel
  try dsimp only
  repeat' split
  all_goals simp [keep_fold, foldl_keep, mapFold_keep, *]

@[simp] theorem enterAll_keep (s a1) : keep (enterAll s a1) = keep s := by
  grind [enterAll, keep_fold, keep_mk, foldl_keep, mapFold_keep, enterWheel_keep]

@[simp] theorem packetLeft_keep (s a1 a2 a3) : keep (packetLeft s a1 a2 a3) = keep s := by
  unfold packetLeft
  try dsimp only
  repeat' split
  all_goals simp [keep_fold, foldl_keep, mapFold_keep, *]

@[simp] theorem egressOp_keep (s a1 a2) : keep (egressOp s a1 a2) = keep s := by
  unfold egressOp
  try dsimp only
  repeat' split
  all_goals simp [keep_fold, foldl_keep, mapFold_keep, *]

theorem execEgressFrameStart_keep (a0 a1 s) (t : State) (h : execEgressFrameStart a0 a1 s = .next t) : keep t = keep s := by
  unfold execEgressFrameStart at h
  try dsimp only at h
  cases h
  simp [keep_fold, foldl_keep, mapFold_keep, *]

@[simp] theorem calendarOp_keep (s) : keep (calendarOp s) = keep s := by
  simp [calendarOp, keep_fold, foldl_keep, mapFold_keep, *]

theorem execCalendarSlot_keep (a0 s) (t : State) (h : execCalendarSlot a0 s = .next t) : keep t = keep s := by
  unfold execCalendarSlot at h
  try dsimp only at h
  cases h
  simp [keep_fold, foldl_keep, mapFold_keep, *]

@[simp] theorem ctrlFrame_keep (s a1 a2 a3 a4 a5 a6) : keep (ctrlFrame s a1 a2 a3 a4 a5 a6) = keep s := by
  simp [ctrlFrame, keep_fold, foldl_keep, mapFold_keep, *]

@[simp] theorem sendAck_keep (s a1 a2 a3 a4 a5 a6 a7) : keep (sendAck s a1 a2 a3 a4 a5 a6 a7) = keep s := by
  unfold sendAck
  try dsimp only
  repeat' split
  all_goals simp [keep_fold, foldl_keep, mapFold_keep, *]

@[simp] theorem sendNack_keep (s a1 a2 a3 a4 a5 a6 a7) : keep (sendNack s a1 a2 a3 a4 a5 a6 a7) = keep s := by
  simp [sendNack, keep_fold, foldl_keep, mapFold_keep, *]

@[simp] theorem advanceLow_keep (s q n) : keep (advanceLow s q n) = keep s := by
  induction n generalizing s with
  | zero => rfl
  | succ n ih => unfold advanceLow; repeat' split
                 all_goals simp [ih]

@[simp] theorem delivered_keep (s a1) : keep (delivered s a1) = keep s := by
  simp [delivered, keep_fold, foldl_keep, mapFold_keep, *]

@[simp] theorem noteUnplaced_keep (s a1 a2) : keep (noteUnplaced s a1 a2) = keep s := by
  simp [noteUnplaced, keep_fold, foldl_keep, mapFold_keep, *]

@[simp] theorem refuse_keep (s a1 a2 a3) : keep (refuse s a1 a2 a3) = keep s := by
  simp [refuse, keep_fold, foldl_keep, mapFold_keep, *]

@[simp] theorem launchAnswer_keep (s a1 a2 a3 a4 a5 a6) : keep (launchAnswer s a1 a2 a3 a4 a5 a6) = keep s := by
  simp [launchAnswer, keep_fold, foldl_keep, mapFold_keep, *]

@[simp] theorem closeRequest_keep (s a1 a2) : keep (closeRequest s a1 a2) = keep s := by
  simp [closeRequest, keep_fold, foldl_keep, mapFold_keep, *]

@[simp] theorem queueFault_keep (s a1 a2 a3 a4 a5) : keep (queueFault s a1 a2 a3 a4 a5) = keep s := by
  simp [queueFault, keep_fold, foldl_keep, mapFold_keep, *]

@[simp] theorem readOp_keep (s a1) : keep (readOp s a1) = keep s := by
  unfold readOp
  try dsimp only
  repeat' split
  all_goals simp [keep_fold, foldl_keep, mapFold_keep, *]

theorem execRead_keep (a0 s) (t : State) (h : execRead a0 s = .next t) : keep t = keep s := by
  unfold execRead at h
  try dsimp only at h
  cases h
  simp [keep_fold, foldl_keep, mapFold_keep, *]

@[simp] theorem flushOp_keep (s a1) : keep (flushOp s a1) = keep s := by
  unfold flushOp
  try dsimp only
  repeat' split
  all_goals simp [keep_fold, foldl_keep, mapFold_keep, *]

theorem execFlush_keep (a0 s) (t : State) (h : execFlush a0 s = .next t) : keep t = keep s := by
  unfold execFlush at h
  try dsimp only at h
  cases h
  simp [keep_fold, foldl_keep, mapFold_keep, *]

@[simp] theorem heldBefore_keep (s a1 a2) : keep (heldBefore s a1 a2) = keep s := by
  grind [heldBefore, keep_fold, keep_mk, foldl_keep, mapFold_keep, modWq_keep, heldReplica_keep, heldBatch_keep]

@[simp] theorem flushRespOp_keep (s a1) : keep (flushRespOp s a1) = keep s := by
  unfold flushRespOp
  try dsimp only
  repeat' split
  all_goals simp [keep_fold, foldl_keep, mapFold_keep, *]

theorem execFlushResp_keep (a0 s) (t : State) (h : execFlushResp a0 s = .next t) : keep t = keep s := by
  unfold execFlushResp at h
  try dsimp only at h
  cases h
  simp [keep_fold, foldl_keep, mapFold_keep, *]

@[simp] theorem fireTag_keep (s q g n) : keep (fireTag s q g n) = keep s := by
  induction n generalizing s with
  | zero => rfl
  | succ n ih => unfold fireTag; repeat' split
                 all_goals simp [ih]

@[simp] theorem triggerOp_keep (s a1) : keep (triggerOp s a1) = keep s := by
  unfold triggerOp
  try dsimp only
  repeat' split
  all_goals simp [keep_fold, foldl_keep, mapFold_keep, *]

theorem execTrigger_keep (a0 s) (t : State) (h : execTrigger a0 s = .next t) : keep t = keep s := by
  unfold execTrigger at h
  try dsimp only at h
  cases h
  simp [keep_fold, foldl_keep, mapFold_keep, *]

@[simp] theorem recordHeld_keep (s a1) : keep (recordHeld s a1) = keep s := by
  unfold recordHeld
  try dsimp only
  repeat' split
  all_goals simp [keep_fold, foldl_keep, mapFold_keep, *]

@[simp] theorem wholeAck_keep (s a1 a2) : keep (wholeAck s a1 a2) = keep s := by
  unfold wholeAck
  try dsimp only
  repeat' split
  all_goals simp [keep_fold, foldl_keep, mapFold_keep, *]

@[simp] theorem resend_keep (s a1 a2 a3) : keep (resend s a1 a2 a3).1 = keep s := by
  unfold resend
  try dsimp only
  repeat' split
  all_goals simp [keep_fold, foldl_keep, mapFold_keep, *]

@[simp] theorem resendAll_keep (s q m l) : keep (resendAll s q m l).1 = keep s := by
  induction l generalizing s with
  | nil => rfl
  | cons a l ih =>
    have h := resend_keep s q m a
    unfold resendAll; split <;> simp_all

@[simp] theorem failMessage_keep (s a1 a2 a3) : keep (failMessage s a1 a2 a3) = keep s := by
  unfold failMessage
  try dsimp only
  repeat' split
  all_goals simp [keep_fold, foldl_keep, mapFold_keep, *]

@[simp] theorem ackOp_keep (s a1 a2 a3 a4) : keep (ackOp s a1 a2 a3 a4) = keep s := by
  unfold ackOp
  try dsimp only
  repeat' split
  all_goals simp [keep_fold, foldl_keep, mapFold_keep, *]

@[simp] theorem retxOp_keep (s a1) : keep (retxOp s a1) = keep s := by
  unfold retxOp
  try dsimp only
  repeat' split
  all_goals simp [keep_fold, foldl_keep, mapFold_keep, *]

theorem execRetxTimeout_keep (a0 s) (t : State) (h : execRetxTimeout a0 s = .next t) : keep t = keep s := by
  unfold execRetxTimeout at h
  try dsimp only at h
  cases h
  simp [keep_fold, foldl_keep, mapFold_keep, *]

@[simp] theorem absentOn_keep (s a1) : keep (absentOn s a1) = keep s := by
  unfold absentOn
  try dsimp only
  repeat' split
  all_goals simp [keep_fold, foldl_keep, mapFold_keep, *]

@[simp] theorem nackOp_keep (s a1 a2 a3) : keep (nackOp s a1 a2 a3) = keep s := by
  unfold nackOp
  try dsimp only
  repeat' split
  all_goals simp [keep_fold, foldl_keep, mapFold_keep, *]

@[simp] theorem rnrOp_keep (s a1) : keep (rnrOp s a1) = keep s := by
  unfold rnrOp
  try dsimp only
  repeat' split
  all_goals simp [keep_fold, foldl_keep, mapFold_keep, *]

theorem execRnrRetryTimeout_keep (a0 s) (t : State) (h : execRnrRetryTimeout a0 s = .next t) : keep t = keep s := by
  unfold execRnrRetryTimeout at h
  try dsimp only at h
  cases h
  simp [keep_fold, foldl_keep, mapFold_keep, *]

@[simp] theorem ackDelayOp_keep (s a1) : keep (ackDelayOp s a1) = keep s := by
  unfold ackDelayOp
  try dsimp only
  repeat' split
  all_goals simp [keep_fold, foldl_keep, mapFold_keep, *]

theorem execAckDelayTimer_keep (a0 s) (t : State) (h : execAckDelayTimer a0 s = .next t) : keep t = keep s := by
  unfold execAckDelayTimer at h
  try dsimp only at h
  cases h
  simp [keep_fold, foldl_keep, mapFold_keep, *]

@[simp] theorem reasmOp_keep (s a1) : keep (reasmOp s a1) = keep s := by
  unfold reasmOp
  try dsimp only
  repeat' split
  all_goals simp [keep_fold, foldl_keep, mapFold_keep, *]

theorem execReasmIdleTimeout_keep (a0 s) (t : State) (h : execReasmIdleTimeout a0 s = .next t) : keep t = keep s := by
  unfold execReasmIdleTimeout at h
  try dsimp only at h
  cases h
  simp [keep_fold, foldl_keep, mapFold_keep, *]

@[simp] theorem mgmtSkipOp_keep (s a1) : keep (mgmtSkipOp s a1) = keep s := by
  unfold mgmtSkipOp
  try dsimp only
  repeat' split
  all_goals simp [keep_fold, foldl_keep, mapFold_keep, *]

theorem execMgmtSkipTimeout_keep (a0 a1 s) (t : State) (h : execMgmtSkipTimeout a0 a1 s = .next t) : keep t = keep s := by
  unfold execMgmtSkipTimeout at h
  try dsimp only at h
  cases h
  simp [keep_fold, foldl_keep, mapFold_keep, *]

@[simp] theorem sendRequest_keep (s a1 a2) : keep (sendRequest s a1 a2) = keep s := by
  unfold sendRequest
  try dsimp only
  repeat' split
  all_goals simp [keep_fold, foldl_keep, mapFold_keep, *]

theorem execWorkRequestSend_keep (a0 a1 a2 s) (t : State) (h : execWorkRequestSend a0 a1 a2 s = .next t) : keep t = keep s := by
  unfold execWorkRequestSend at h
  try dsimp only at h
  cases h
  simp [keep_fold, foldl_keep, mapFold_keep, *]

@[simp] theorem postSend_keep (s a1 a2 a3 a4) : keep (postSend s a1 a2 a3 a4) = keep s := by
  unfold postSend
  try dsimp only
  repeat' split
  all_goals simp [keep_fold, foldl_keep, mapFold_keep, *]

@[simp] theorem postRecv_keep (s a1 a2 a3 a4) : keep (postRecv s a1 a2 a3 a4) = keep s := by
  grind [postRecv, keep_fold, keep_mk, foldl_keep, mapFold_keep, completeWr_keep, modWq_keep, setWq_keep]

@[simp] theorem doorbellOp_keep (s a1 a2 a3 a4 a5) : keep (doorbellOp s a1 a2 a3 a4 a5) = keep s := by
  unfold doorbellOp
  try dsimp only
  repeat' split
  all_goals simp [keep_fold, foldl_keep, mapFold_keep, *]

theorem execQueueDbSqTail_keep (a0 a1 a2 a3 a4 a5 s) (t : State) (h : execQueueDbSqTail a0 a1 a2 a3 a4 a5 s = .next t) : keep t = keep s := by
  unfold execQueueDbSqTail at h
  try dsimp only at h
  cases h
  repeat' split
  all_goals simp [keep_fold, foldl_keep, mapFold_keep, *]

theorem execQueueDbRqTail_keep (a0 a1 a2 a3 a4 a5 s) (t : State) (h : execQueueDbRqTail a0 a1 a2 a3 a4 a5 s = .next t) : keep t = keep s := by
  unfold execQueueDbRqTail at h
  try dsimp only at h
  cases h
  repeat' split
  all_goals simp [keep_fold, foldl_keep, mapFold_keep, *]

theorem execQueueDbCqHead_keep (a0 a1 a2 a3 a4 s) (t : State) (h : execQueueDbCqHead a0 a1 a2 a3 a4 s = .next t) : keep t = keep s := by
  unfold execQueueDbCqHead at h
  try dsimp only at h
  cases h
  repeat' split
  all_goals simp [keep_fold, foldl_keep, mapFold_keep, *]

theorem execQueueDbCqArm_keep (a0 a1 a2 a3 a4 s) (t : State) (h : execQueueDbCqArm a0 a1 a2 a3 a4 s = .next t) : keep t = keep s := by
  unfold execQueueDbCqArm at h
  try dsimp only at h
  cases h
  repeat' split
  all_goals simp [keep_fold, foldl_keep, mapFold_keep, *]

@[simp] theorem resetQueues_keep (s a1) : keep (resetQueues s a1) = keep s := by
  simp [resetQueues, keep_fold, foldl_keep, mapFold_keep, *]

@[simp] theorem revokeRegions_keep (s a1) : keep (revokeRegions s a1) = keep s := by
  simp [revokeRegions, keep_fold, foldl_keep, mapFold_keep, *]

@[simp] theorem drainedOp_keep (s a1) : keep (drainedOp s a1) = keep s := by
  unfold drainedOp
  try dsimp only
  repeat' split
  all_goals simp [keep_fold, foldl_keep, mapFold_keep, *]

theorem execRevokeDrained_keep (a0 a1 s) (t : State) (h : execRevokeDrained a0 a1 s = .next t) : keep t = keep s := by
  unfold execRevokeDrained at h
  try dsimp only at h
  cases h
  simp [keep_fold, foldl_keep, mapFold_keep, *]

/-! ### Ingress -/

@[simp] theorem ethFrameOp_keep (s a1) : keep (ethFrameOp s a1) = keep s := by
  unfold ethFrameOp
  try dsimp only
  repeat' split
  all_goals simp [keep_fold, foldl_keep, mapFold_keep, *]

theorem execEthFrameReceived_keep (a0 s) (t : State) (h : execEthFrameReceived a0 s = .next t) : keep t = keep s := by
  unfold execEthFrameReceived at h
  try dsimp only at h
  cases h
  simp [keep_fold, foldl_keep, mapFold_keep, *]

@[simp] theorem ethUpOp_keep (s a1) : keep (ethUpOp s a1) = keep s := by
  unfold ethUpOp
  try dsimp only
  repeat' split
  all_goals simp [keep_fold, foldl_keep, mapFold_keep, *]

theorem execEthLinkUp_keep (a0 s) (t : State) (h : execEthLinkUp a0 s = .next t) : keep t = keep s := by
  unfold execEthLinkUp at h
  try dsimp only at h
  cases h
  simp [keep_fold, foldl_keep, mapFold_keep, *]

@[simp] theorem moveFrames_keep (s a1) : keep (moveFrames s a1) = keep s := by
  simp [moveFrames, keep_fold, foldl_keep, mapFold_keep, *]

@[simp] theorem ethDownOp_keep (s a1) : keep (ethDownOp s a1) = keep s := by
  unfold ethDownOp
  try dsimp only
  repeat' split
  all_goals simp [keep_fold, foldl_keep, mapFold_keep, *]

theorem execEthLinkDown_keep (a0 s) (t : State) (h : execEthLinkDown a0 s = .next t) : keep t = keep s := by
  unfold execEthLinkDown at h
  try dsimp only at h
  cases h
  simp [keep_fold, foldl_keep, mapFold_keep, *]

@[simp] theorem adoptDomain_keep (s a1 a2) : keep (adoptDomain s a1 a2) = keep s := by
  simp [adoptDomain, keep_fold, foldl_keep, mapFold_keep, *]

@[simp] theorem ingress_keep (s k) : keep (ingress s k).1 = keep s := by
  unfold ingress
  extract_lets p data pol s1 src s2
  have h1 : keep s1 = keep s := by simp only [s1]; split <;> simp
  have h2 : keep s2 = keep s := by simp only [s2]; split <;> simp [h1, keep_fold]
  clear_value s1 s2
  repeat' first | rfl | (simp [h1, h2]; done) | split

@[simp] theorem openMessage_keep (s a1 a2 a3) : keep (openMessage s a1 a2 a3).2.2 = keep s := by
  unfold openMessage
  try dsimp only
  repeat' split
  all_goals simp [keep_fold, foldl_keep, mapFold_keep, *]

@[simp] theorem refusePacket_keep (s a1 a2 a3) : keep (refusePacket s a1 a2 a3) = keep s := by
  unfold refusePacket
  try dsimp only
  repeat' split
  all_goals simp [keep_fold, foldl_keep, mapFold_keep, *]

@[simp] theorem noteGap_keep (s a1) : keep (noteGap s a1) = keep s := by
  simp [noteGap, keep_fold, foldl_keep, mapFold_keep, *]

theorem execAck_keep (a0 s) (t : State) (h : execAck a0 s = .next t) : keep t = keep s := by
  unfold execAck at h
  try dsimp only at h
  cases h
  repeat' split
  all_goals simp [keep_fold, foldl_keep, mapFold_keep, *]

theorem execNack_keep (a0 s) (t : State) (h : execNack a0 s = .next t) : keep t = keep s := by
  unfold execNack at h
  try dsimp only at h
  cases h
  repeat' split
  all_goals simp [keep_fold, foldl_keep, mapFold_keep, *]

/-! ### Send -/

@[simp] theorem stripeRows_keep (s a1 a2 a3 a4) : keep (stripeRows s a1 a2 a3 a4) = keep s := by
  unfold stripeRows
  try dsimp only
  repeat' split
  all_goals simp [keep_fold, foldl_keep, mapFold_keep, *]

@[simp] theorem stripeMark_keep (s a1 a2) : keep (stripeMark s a1 a2) = keep s := by
  unfold stripeMark
  try dsimp only
  repeat' split
  all_goals simp [keep_fold, foldl_keep, mapFold_keep, *]

@[simp] theorem stripeSend_keep (s a1 a2) : keep (stripeSend s a1 a2) = keep s := by
  unfold stripeSend
  try dsimp only
  repeat' split
  all_goals simp [keep_fold, foldl_keep, mapFold_keep, *]

@[simp] theorem sendOp_keep (s a1) : keep (sendOp s a1) = keep s := by
  unfold sendOp
  try dsimp only
  repeat' split
  all_goals simp [keep_fold, foldl_keep, mapFold_keep, *]

theorem execSend_keep (a0 s) (t : State) (h : execSend a0 s = .next t) : keep t = keep s := by
  unfold execSend at h
  try dsimp only at h
  cases h
  simp [keep_fold, foldl_keep, mapFold_keep, *]

end Sys2Proof.Machine
end

