-- ==== Sys2Proof/Laws/KeepNode.lean ====
section
/-! SUPPORT. What keeps the queue, the bulk window and the fuses: resets, boot and the thermal unit. One lemma per operation. -/

set_option Elab.async false

namespace Sys2Proof.Machine

set_option linter.unusedSimpArgs false
set_option linter.unusedTactic false
set_option linter.unreachableTactic false

/-! ### Resets -/

@[simp] theorem vacateSlot_keep (s a1 a2) : keep (vacateSlot s a1 a2) = keep s := by
  unfold vacateSlot
  try dsimp only
  repeat' split
  all_goals simp [keep_fold, foldl_keep, mapFold_keep, *]

@[simp] theorem destroyHeat_keep (s a1) : keep (destroyHeat s a1) = keep s := by
  unfold destroyHeat
  try dsimp only
  repeat' split
  all_goals simp [keep_fold, foldl_keep, mapFold_keep, *]

@[simp] theorem dropHeat_keep (s a1) : keep (dropHeat s a1) = keep s := by
  unfold dropHeat
  try dsimp only
  repeat' split
  all_goals simp [keep_fold, foldl_keep, mapFold_keep, *]

@[simp] theorem dropHeats_keep (s a1) : keep (dropHeats s a1) = keep s := by
  grind [dropHeats, keep_fold, keep_mk, foldl_keep, mapFold_keep, dropHeat_keep]

@[simp] theorem abandonDma_keep (s a1 a2) : keep (abandonDma s a1 a2) = keep s := by
  simp [abandonDma, keep_fold, foldl_keep, mapFold_keep, *]

@[simp] theorem zeroiseKeys_keep (s) : keep (zeroiseKeys s) = keep s := by
  simp [zeroiseKeys, keep_fold, foldl_keep, mapFold_keep, *]

@[simp] theorem stopAll_keep (s) : keep (stopAll s) = keep s := by
  simp [stopAll, keep_fold, foldl_keep, mapFold_keep, *]

@[simp] theorem enterError_keep (s a1) : keep (enterError s a1) = keep s := by
  simp [enterError, keep_fold, foldl_keep, mapFold_keep, *]

@[simp] theorem resetFunc_keep (s a1 a2) : keep (resetFunc s a1 a2) = keep s := by
  simp [resetFunc, keep_fold, foldl_keep, mapFold_keep, *]

@[simp] theorem unassign_keep (s a1 a2) : keep (unassign s a1 a2) = keep s := by
  simp [unassign, keep_fold, foldl_keep, mapFold_keep, *]

@[simp] theorem flrOp_keep (s a1 a2) : keep (flrOp s a1 a2) = keep s := by
  unfold flrOp
  try dsimp only
  repeat' split
  all_goals simp [keep_fold, foldl_keep, mapFold_keep, *]

theorem execFunctionLevelReset_keep (a0 a1 s) (t : State) (h : execFunctionLevelReset a0 a1 s = .next t) : keep t = keep s := by
  unfold execFunctionLevelReset at h
  try dsimp only at h
  cases h
  repeat' split
  all_goals simp [keep_fold, foldl_keep, mapFold_keep, *]

@[simp] theorem portResetOp_keep (s a1) : keep (portResetOp s a1) = keep s := by
  simp [portResetOp, keep_fold, foldl_keep, mapFold_keep, *]

theorem execPortConventionalReset_keep (a0 s) (t : State) (h : execPortConventionalReset a0 s = .next t) : keep t = keep s := by
  unfold execPortConventionalReset at h
  try dsimp only at h
  cases h
  repeat' split
  all_goals simp [keep_fold, foldl_keep, mapFold_keep, *]

@[simp] theorem nodeFail_keep (s a1) : keep (nodeFail s a1) = keep s := by
  simp [nodeFail, keep_fold, foldl_keep, mapFold_keep, *]

theorem execDiePersistentFailure_keep (a0 s) (t : State) (h : execDiePersistentFailure a0 s = .next t) : keep t = keep s := by
  unfold execDiePersistentFailure at h
  try dsimp only at h
  cases h
  repeat' split
  all_goals simp [keep_fold, foldl_keep, mapFold_keep, *]

/-! ### Boot -/

@[simp] theorem setPll_keep (s a1 a2) : keep (setPll s a1 a2) = keep s := by
  simp [setPll, keep_fold, foldl_keep, mapFold_keep, *]

@[simp] theorem afterPlls_keep (s) : keep (afterPlls s) = keep s := by
  unfold afterPlls
  try dsimp only
  repeat' split
  all_goals simp [keep_fold, foldl_keep, mapFold_keep, *]

theorem execPorRelease_keep (a0 a1 a2 s) (t : State) (h : execPorRelease a0 a1 a2 s = .next t) : keep t = keep s := by
  unfold execPorRelease at h
  try dsimp only at h
  cases h
  repeat' split
  all_goals simp [keep_fold, foldl_keep, mapFold_keep, *]

theorem execRailRecovered_keep (a0 s) (t : State) (h : execRailRecovered a0 s = .next t) : keep t = keep s := by
  unfold execRailRecovered at h
  try dsimp only at h
  cases h
  repeat' split
  all_goals simp [keep_fold, foldl_keep, mapFold_keep, *]

theorem execCrystalStable_keep (a0 s) (t : State) (h : execCrystalStable a0 s = .next t) : keep t = keep s := by
  unfold execCrystalStable at h
  try dsimp only at h
  cases h
  repeat' split
  all_goals simp [keep_fold, foldl_keep, mapFold_keep, *]

theorem execReferencePresent_keep (a0 a1 a2 s) (t : State) (h : execReferencePresent a0 a1 a2 s = .next t) : keep t = keep s := by
  unfold execReferencePresent at h
  try dsimp only at h
  cases h
  repeat' split
  all_goals simp [keep_fold, foldl_keep, mapFold_keep, *]

theorem execPllLocked_keep (a0 a1 s) (t : State) (h : execPllLocked a0 a1 s = .next t) : keep t = keep s := by
  unfold execPllLocked at h
  try dsimp only at h
  cases h
  repeat' split
  all_goals simp [keep_fold, foldl_keep, mapFold_keep, *]

@[simp] theorem failChannel_keep (s a1 a2) : keep (failChannel s a1 a2) = keep s := by
  simp [failChannel, keep_fold, foldl_keep, mapFold_keep, *]

@[simp] theorem pllGivenUp_keep (s a1) : keep (pllGivenUp s a1) = keep s := by
  unfold pllGivenUp
  try dsimp only
  repeat' split
  all_goals simp [keep_fold, foldl_keep, mapFold_keep, *]

theorem execPllLockTimeout_keep (a0 s) (t : State) (h : execPllLockTimeout a0 s = .next t) : keep t = keep s := by
  unfold execPllLockTimeout at h
  try dsimp only at h
  cases h
  repeat' split
  all_goals simp [keep_fold, foldl_keep, mapFold_keep, *]

@[simp] theorem lockLostOp_keep (s a1) : keep (lockLostOp s a1) = keep s := by
  unfold lockLostOp
  try dsimp only
  repeat' split
  all_goals simp [keep_fold, foldl_keep, mapFold_keep, *]

theorem execPllLockLost_keep (a0 s) (t : State) (h : execPllLockLost a0 s = .next t) : keep t = keep s := by
  unfold execPllLockLost at h
  try dsimp only at h
  cases h
  repeat' split
  all_goals simp [keep_fold, foldl_keep, mapFold_keep, *]

@[simp] theorem calTime_keep (s a1) : keep (calTime s a1) = keep s := by
  grind [calTime, keep_fold, keep_mk, foldl_keep, mapFold_keep]

@[simp] theorem rejectCal_keep (s) : keep (rejectCal s) = keep s := by
  unfold rejectCal
  try dsimp only
  repeat' split
  all_goals simp [keep_fold, foldl_keep, mapFold_keep, *]

@[simp] theorem takeCal_keep (s a1 a2) : keep (takeCal s a1 a2) = keep s := by
  unfold takeCal
  try dsimp only
  repeat' split
  all_goals simp [keep_fold, foldl_keep, mapFold_keep, *]

@[simp] theorem enableTime_keep (s) : keep (enableTime s) = keep s := by
  simp [enableTime, keep_fold, foldl_keep, mapFold_keep, *]

@[simp] theorem startTraining_keep (s) : keep (startTraining s) = keep s := by
  simp [startTraining, keep_fold, foldl_keep, mapFold_keep, *]

theorem execCalWindowTimeout_keep (a0 s) (t : State) (h : execCalWindowTimeout a0 s = .next t) : keep t = keep s := by
  unfold execCalWindowTimeout at h
  try dsimp only at h
  cases h
  repeat' split
  all_goals simp [keep_fold, foldl_keep, mapFold_keep, *]

@[simp] theorem trainChannel_keep (a0 s a2) : keep (trainChannel a0 s a2) = keep s := by
  unfold trainChannel
  try dsimp only
  repeat' split
  all_goals simp [keep_fold, foldl_keep, mapFold_keep, *]

@[simp] theorem populationCheck_keep (s) : keep (populationCheck s) = keep s := by
  unfold populationCheck
  try dsimp only
  repeat' split
  all_goals simp [keep_fold, foldl_keep, mapFold_keep, *]

@[simp] theorem deriveIdentity_keep (s a1) : keep (deriveIdentity s a1) = keep s := by
  unfold deriveIdentity
  try dsimp only
  repeat' split
  all_goals simp [keep_fold, foldl_keep, mapFold_keep, *]

@[simp] theorem strapFaults_keep (s) : keep (strapFaults s) = keep s := by
  unfold strapFaults
  try dsimp only
  repeat' split
  all_goals simp [keep_fold, foldl_keep, mapFold_keep, *]

@[simp] theorem becomeReady_keep (s) : keep (becomeReady s) = keep s := by
  simp [becomeReady, keep_fold, foldl_keep, mapFold_keep, *]

@[simp] theorem trainingDoneOp_keep (s a1 a2) : keep (trainingDoneOp s a1 a2) = keep s := by
  simp [trainingDoneOp, keep_fold, foldl_keep, mapFold_keep, *]

theorem execDramTrainingDone_keep (a0 a1 s) (t : State) (h : execDramTrainingDone a0 a1 s = .next t) : keep t = keep s := by
  unfold execDramTrainingDone at h
  try dsimp only at h
  cases h
  repeat' split
  all_goals simp [keep_fold, foldl_keep, mapFold_keep, *]

theorem execJtagInstruction_keep (a0 s) (t : State) (h : execJtagInstruction a0 s = .next t) : keep t = keep s := by
  unfold execJtagInstruction at h
  try dsimp only at h
  cases h
  repeat' split
  all_goals simp [keep_fold, foldl_keep, mapFold_keep, *]

/-! ### Thermal -/

@[simp] theorem stepTo_keep (s a1 a2) : keep (stepTo s a1 a2) = keep s := by
  simp [stepTo, keep_fold, foldl_keep, mapFold_keep, *]

@[simp] theorem thermalStop_keep (s a1) : keep (thermalStop s a1) = keep s := by
  simp [thermalStop, keep_fold, foldl_keep, mapFold_keep, *]

@[simp] theorem thermalResume_keep (s) : keep (thermalResume s) = keep s := by
  simp [thermalResume, keep_fold, foldl_keep, mapFold_keep, *]

@[simp] theorem thermalCause_keep (s a1 a2 a3) : keep (thermalCause s a1 a2 a3).2 = keep s := by
  unfold thermalCause
  try dsimp only
  repeat' split
  all_goals simp [keep_fold, foldl_keep, mapFold_keep, *]

@[simp] theorem sampleRunning_keep (s a1 a2 a3 a4) : keep (sampleRunning s a1 a2 a3 a4) = keep s := by
  unfold sampleRunning
  try dsimp only
  repeat' split
  all_goals simp [keep_fold, foldl_keep, mapFold_keep, *]

@[simp] theorem sampleOp_keep (s a1) : keep (sampleOp s a1) = keep s := by
  unfold sampleOp
  try dsimp only
  repeat' split
  all_goals simp [keep_fold, foldl_keep, mapFold_keep, *]

theorem execThermalSample_keep (a0 a1 s) (t : State) (h : execThermalSample a0 a1 s = .next t) : keep t = keep s := by
  unfold execThermalSample at h
  try dsimp only at h
  cases h
  repeat' split
  all_goals simp [keep_fold, foldl_keep, mapFold_keep, *]

end Sys2Proof.Machine
end

