-- ==== Sys2Proof/Laws/KeepPlace.lean ====
section
/-! SUPPORT. What keeps the queue, the bulk window and the fuses: placement and its messages. One lemma per operation. -/

set_option Elab.async false

namespace Sys2Proof.Machine

set_option linter.unusedSimpArgs false
set_option linter.unusedTactic false
set_option linter.unreachableTactic false

/-! ### Place -/

theorem runMgmt_keep (a0 a1 a2 a3 s) (h3 : ∀ x0,
    keep (a3 x0) = keep x0) (t : State) (h : runMgmt a0 a1 a2 a3 s = .next t) : keep t = keep s := by
  unfold runMgmt at h
  try dsimp only at h
  cases h
  repeat' split
  all_goals simp [keep_fold, foldl_keep, mapFold_keep, *]

@[simp] theorem answered_keep (s a1) : keep (answered s a1) = keep s := by
  simp [answered, keep_fold, foldl_keep, mapFold_keep, *]

@[simp] theorem modPl_keep (s a1) : keep (modPl s a1) = keep s := by
  simp [modPl, keep_fold, foldl_keep, mapFold_keep, *]

@[simp] theorem sendCapReport_keep (s) : keep (sendCapReport s) = keep s := by
  simp [sendCapReport, keep_fold, foldl_keep, mapFold_keep, *]

@[simp] theorem sendMapUpdate_keep (s a1 a2 a3) : keep (sendMapUpdate s a1 a2 a3) = keep s := by
  unfold sendMapUpdate
  try dsimp only
  repeat' split
  all_goals simp [keep_fold, foldl_keep, mapFold_keep, *]

@[simp] theorem freeOpenRows_keep (s a1 a2) : keep (freeOpenRows s a1 a2) = keep s := by
  unfold freeOpenRows
  try dsimp only
  repeat' split
  all_goals simp [keep_fold, foldl_keep, mapFold_keep, *]

@[simp] theorem abandonSeq_keep (s a1) : keep (abandonSeq s a1) = keep s := by
  unfold abandonSeq
  try dsimp only
  repeat' split
  all_goals simp [keep_fold, foldl_keep, mapFold_keep, *]

@[simp] theorem searchFailed_keep (s a1) : keep (searchFailed s a1) = keep s := by
  simp [searchFailed, keep_fold, foldl_keep, mapFold_keep, *]

@[simp] theorem releaseAccepted_keep (s a1 a2) : keep (releaseAccepted s a1 a2) = keep s := by
  simp [releaseAccepted, keep_fold, foldl_keep, mapFold_keep, *]

theorem createSeq_keep (s a1 a2 a3 a4) (t : State) (h : createSeq s a1 a2 a3 a4 = some t) : keep t = keep s := by
  unfold createSeq at h
  try dsimp only at h
  repeat' split at h
  all_goals grind [keep_fold, foldl_keep, mapFold_keep, recordChanged_keep, setQ_keep, placeBlock_keep]

@[simp] theorem endCreate_keep (s id) (x : Search) : keep (endCreate s id x).1 = keep s := by
  unfold endCreate
  extract_lets s1 f
  have h1 : keep s1 = keep s := by simp [s1]
  clear_value s1
  split
  · simp [h1]
  · split
    · simp [f, h1]
    · split
      · simp [h1]
      · rename_i hc
        simp [createSeq_keep _ _ _ _ _ _ hc, h1]

@[simp] theorem createStep_keep (s id) (x : Search) (l) : keep (createStep s id x l).1 = keep s := by
  induction l generalizing s x with
  | nil => rfl
  | cons n l ih => 
    unfold createStep
    split
    · rfl
    · split
      · rfl
      · extract_lets mask rows
        split
        · split <;> simp [ih]
        · simp

theorem createStep_end (s id) (x : Search) (l) (r : SearchEnd) (h : (createStep s id x l).2 = some r) : keep r.1 = keep s := by
  induction l generalizing s x with
  | nil => simp [createStep] at h; subst h; simp [endCreate_keep]
  | cons n l ih => 
    unfold createStep at h
    split at h
    · simp at h; subst h; simp [endCreate_keep]
    · split at h
      · simp at h; subst h; simp [endCreate_keep]
      · extract_lets mask rows at h
        split at h
        · split at h
          · exact ih _ _ h
          · exact ih _ _ h
        · simp at h

@[simp] theorem spillStep_keep (s a1 a2) : keep (spillStep s a1 a2) = keep s := by
  unfold spillStep
  try dsimp only
  repeat' split
  all_goals simp [keep_fold, foldl_keep, mapFold_keep, *]

theorem searchEnds_keep (s id) (r : Option SearchEnd) (h : ∀ x,
    r = some x → keep x.1 = keep s) : keep (searchEnds s id r) = keep s := by
  unfold searchEnds
  split
  · rfl
  · simpa using h _ rfl

@[simp] theorem goOnCreate_keep (s id) : keep (goOnCreate s id) = keep s := by
  unfold goOnCreate
  split
  · rfl
  · rename_i x _
    have h1 := createStep_keep s id x x.todo
    have h2 := createStep_end s id x x.todo
    rcases hc : createStep s id x x.todo with ⟨s', r⟩
    rw [hc] at h1 h2
    exact (searchEnds_keep _ _ _ fun y hy => (h2 y hy).trans h1.symm).trans h1

@[simp] theorem candidateSays_keep (s a1 a2 a3 a4) : keep (candidateSays s a1 a2 a3 a4) = keep s := by
  unfold candidateSays
  try dsimp only
  repeat' split
  all_goals simp [keep_fold, foldl_keep, mapFold_keep, *]

@[simp] theorem startSearches_keep (s) : keep (startSearches s) = keep s := by
  grind [startSearches, keep_fold, keep_mk, foldl_keep, mapFold_keep, goOnCreate_keep]

@[simp] theorem spillOp_keep (s a1) : keep (spillOp s a1) = keep s := by
  unfold spillOp
  try dsimp only
  repeat' split
  all_goals simp [keep_fold, foldl_keep, mapFold_keep, *]

theorem execSpillRequest_keep (a0 a1 s) (t : State) (h : execSpillRequest a0 a1 s = .next t) : keep t = keep s := by
  unfold execSpillRequest at h
  try dsimp only at h
  cases h
  simp [keep_fold, foldl_keep, mapFold_keep, *]

@[simp] theorem spillAll_keep (s) : keep (spillAll s) = keep s := by
  grind [spillAll, keep_fold, keep_mk, foldl_keep, mapFold_keep, spillOp_keep]

@[simp] theorem abandonPeer_keep (s a1) : keep (abandonPeer s a1) = keep s := by
  grind [abandonPeer, keep_fold, keep_mk, foldl_keep, mapFold_keep, completeWr_keep, modNet_keep, setWq_keep]

@[simp] theorem fenceNode_keep (s a1) : keep (fenceNode s a1) = keep s := by
  unfold fenceNode
  try dsimp only
  repeat' split
  all_goals simp [keep_fold, foldl_keep, mapFold_keep, *]

@[simp] theorem seqsAfterFailure_keep (s a1) : keep (seqsAfterFailure s a1) = keep s := by
  grind [seqsAfterFailure, keep_fold, keep_mk, foldl_keep, mapFold_keep, modQ_keep, loseSeq_keep]

@[simp] theorem replicasGone_keep (s a1) : keep (replicasGone s a1) = keep s := by
  unfold replicasGone
  try dsimp only
  repeat' split
  all_goals simp [keep_fold, foldl_keep, mapFold_keep, *]

@[simp] theorem movesAbandoned_keep (s a1) : keep (movesAbandoned s a1) = keep s := by
  simp [movesAbandoned, keep_fold, foldl_keep, mapFold_keep, *]

@[simp] theorem markFailed_keep (s a1 a2) : keep (markFailed s a1 a2) = keep s := by
  unfold markFailed
  try dsimp only
  repeat' split
  all_goals simp [keep_fold, foldl_keep, mapFold_keep, *]

@[simp] theorem stopSelf_keep (s) : keep (stopSelf s) = keep s := by
  simp [stopSelf, keep_fold, foldl_keep, mapFold_keep, *]

@[simp] theorem declareFailed_keep (s a1 a2 a3) : keep (declareFailed s a1 a2 a3) = keep s := by
  grind [declareFailed, keep_fold, keep_mk, foldl_keep, mapFold_keep, sendMgmt_keep, markFailed_keep, ask_keep]

@[simp] theorem silenceOp_keep (s) : keep (silenceOp s) = keep s := by
  unfold silenceOp
  split
  · rfl
  · refine mapFold_keep _ _ _ fun s k v => ?_
    split <;> simp

theorem execPartnerSilenceTimeout_keep (a0 s) (t : State) (h : execPartnerSilenceTimeout a0 s = .next t) : keep t = keep s := by
  unfold execPartnerSilenceTimeout at h
  try dsimp only at h
  cases h
  repeat' split
  all_goals simp [keep_fold, foldl_keep, mapFold_keep, *]

/-! ### PlaceMsgs -/

@[simp] theorem capOp_keep (s a1) : keep (capOp s a1) = keep s := by
  simp [capOp, keep_fold, foldl_keep, mapFold_keep, *]

theorem execCapReport_keep (a0 s) (t : State) (h : execCapReport a0 s = .next t) : keep t = keep s := by
  unfold execCapReport at h
  try dsimp only at h
  repeat' split at h
  all_goals grind [keep_fold, foldl_keep, mapFold_keep, runMgmt_keep, capOp_keep]

@[simp] theorem stripeReply_keep (s a1 a2 a3) : keep (stripeReply s a1 a2 a3) = keep s := by
  simp [stripeReply, keep_fold, foldl_keep, mapFold_keep, *]

@[simp] theorem stripeTake_keep (s a1) : keep (stripeTake s a1) = keep s := by
  grind [stripeTake, keep_fold, keep_mk, foldl_keep, mapFold_keep, stripeReply_keep, drawRow_keep, setQ_keep, modQ_keep]

theorem execStripeReq_keep (a0 s) (t : State) (h : execStripeReq a0 s = .next t) : keep t = keep s := by
  unfold execStripeReq at h
  try dsimp only at h
  repeat' split at h
  all_goals grind [keep_fold, foldl_keep, mapFold_keep, stripeTake_keep, stripeReply_keep, runMgmt_keep]

theorem execStripeReply_keep (a0 s) (t : State) (h : execStripeReply a0 s = .next t) : keep t = keep s := by
  unfold execStripeReply at h
  try dsimp only at h
  repeat' split at h
  all_goals grind [keep_fold, foldl_keep, mapFold_keep, candidateSays_keep, answered_keep, runMgmt_keep]

theorem execHeartbeat_keep (a0 s) (t : State) (h : execHeartbeat a0 s = .next t) : keep t = keep s := by
  unfold execHeartbeat at h
  try dsimp only at h
  cases h
  repeat' split
  all_goals simp [keep_fold, foldl_keep, mapFold_keep, *]

@[simp] theorem failAck_keep (s a1) : keep (failAck s a1) = keep s := by
  simp [failAck, keep_fold, foldl_keep, mapFold_keep, *]

theorem execFailNotice_keep (a0 s) (t : State) (h : execFailNotice a0 s = .next t) : keep t = keep s := by
  unfold execFailNotice at h
  try dsimp only at h
  repeat' split at h
  all_goals grind [keep_fold, foldl_keep, mapFold_keep, runMgmt_keep, markFailed_keep, failAck_keep, stopSelf_keep]

theorem execFailAck_keep (a0 s) (t : State) (h : execFailAck a0 s = .next t) : keep t = keep s := by
  unfold execFailAck at h
  try dsimp only at h
  cases h
  repeat' split
  all_goals simp [keep_fold, foldl_keep, mapFold_keep, *]

@[simp] theorem leaseRenewOp_keep (s a1) : keep (leaseRenewOp s a1) = keep s := by
  unfold leaseRenewOp
  try dsimp only
  repeat' split
  all_goals simp [keep_fold, foldl_keep, mapFold_keep, *]

theorem execLeaseRenew_keep (a0 s) (t : State) (h : execLeaseRenew a0 s = .next t) : keep t = keep s := by
  unfold execLeaseRenew at h
  try dsimp only at h
  cases h
  repeat' split
  all_goals simp [keep_fold, foldl_keep, mapFold_keep, *]

@[simp] theorem pairOp_keep (s a1) : keep (pairOp s a1) = keep s := by
  unfold pairOp
  try dsimp only
  repeat' split
  all_goals simp [keep_fold, foldl_keep, mapFold_keep, *]

theorem execPairReq_keep (a0 s) (t : State) (h : execPairReq a0 s = .next t) : keep t = keep s := by
  unfold execPairReq at h
  try dsimp only at h
  cases h
  repeat' split
  all_goals simp [keep_fold, foldl_keep, mapFold_keep, *]

@[simp] theorem unpaired_keep (s a1) : keep (unpaired s a1) = keep s := by
  simp [unpaired, keep_fold, foldl_keep, mapFold_keep, *]

theorem execPairReply_keep (a0 s) (t : State) (h : execPairReply a0 s = .next t) : keep t = keep s := by
  unfold execPairReply at h
  try dsimp only at h
  repeat' split at h
  all_goals grind [keep_fold, foldl_keep, mapFold_keep, modWq_keep, drainLater_keep, answered_keep, runMgmt_keep,
      unpaired_keep]

@[simp] theorem promoted_keep (s a1 a2 a3) : keep (promoted s a1 a2 a3) = keep s := by
  unfold promoted
  try dsimp only
  repeat' split
  all_goals simp [keep_fold, foldl_keep, mapFold_keep, *]

@[simp] theorem heldReportOp_keep (s a1) : keep (heldReportOp s a1) = keep s := by
  unfold heldReportOp
  try dsimp only
  repeat' split
  all_goals simp [keep_fold, foldl_keep, mapFold_keep, *]

theorem execHeldReport_keep (a0 s) (t : State) (h : execHeldReport a0 s = .next t) : keep t = keep s := by
  unfold execHeldReport at h
  try dsimp only at h
  cases h
  repeat' split
  all_goals simp [keep_fold, foldl_keep, mapFold_keep, *]

@[simp] theorem loseReplica_keep (s a1) : keep (loseReplica s a1) = keep s := by
  unfold loseReplica
  try dsimp only
  repeat' split
  all_goals simp [keep_fold, foldl_keep, mapFold_keep, *]

@[simp] theorem degradedSeq_keep (s a1 a2 a3) : keep (degradedSeq s a1 a2 a3) = keep s := by
  unfold degradedSeq
  try dsimp only
  repeat' split
  all_goals simp [keep_fold, foldl_keep, mapFold_keep, *]

theorem execReplDegraded_keep (a0 s) (t : State) (h : execReplDegraded a0 s = .next t) : keep t = keep s := by
  unfold execReplDegraded at h
  try dsimp only at h
  repeat' split at h
  all_goals grind [keep_fold, foldl_keep, mapFold_keep, degradedSeq_keep, runMgmt_keep]

@[simp] theorem replicaOp_keep (s a1) : keep (replicaOp s a1) = keep s := by
  simp [replicaOp, keep_fold, foldl_keep, mapFold_keep, *]

theorem execRecordRepl_keep (a0 s) (t : State) (h : execRecordRepl a0 s = .next t) : keep t = keep s := by
  unfold execRecordRepl at h
  try dsimp only at h
  cases h
  repeat' split
  all_goals simp [keep_fold, foldl_keep, mapFold_keep, *]

@[simp] theorem ackReleaseTo_keep (s a1 a2 a3) : keep (ackReleaseTo s a1 a2 a3) = keep s := by
  simp [ackReleaseTo, keep_fold, foldl_keep, mapFold_keep, *]

@[simp] theorem mapUpdateOp_keep (s a1) : keep (mapUpdateOp s a1) = keep s := by
  unfold mapUpdateOp
  try dsimp only
  repeat' split
  all_goals simp [keep_fold, foldl_keep, mapFold_keep, *]

theorem execMapUpdate_keep (a0 s) (t : State) (h : execMapUpdate a0 s = .next t) : keep t = keep s := by
  unfold execMapUpdate at h
  try dsimp only at h
  cases h
  repeat' split
  all_goals simp [keep_fold, foldl_keep, mapFold_keep, *]

theorem execSeqLost_keep (a0 s) (t : State) (h : execSeqLost a0 s = .next t) : keep t = keep s := by
  unfold execSeqLost at h
  try dsimp only at h
  cases h
  repeat' split
  all_goals simp [keep_fold, foldl_keep, mapFold_keep, *]

theorem execSeqRelease_keep (a0 s) (t : State) (h : execSeqRelease a0 s = .next t) : keep t = keep s := by
  unfold execSeqRelease at h
  try dsimp only at h
  repeat' split at h
  all_goals grind [keep_fold, foldl_keep, mapFold_keep, endSeqWork_keep, freeOpenRows_keep, freeSeq_keep,
      runMgmt_keep, ackReleaseTo_keep, modQ_keep, removeFromHeat_keep]

@[simp] theorem forgetSeq_keep (s a1) : keep (forgetSeq s a1) = keep s := by
  unfold forgetSeq
  try dsimp only
  repeat' split
  all_goals simp [keep_fold, foldl_keep, mapFold_keep, *]

@[simp] theorem releaseEnds_keep (s a1 a2) : keep (releaseEnds s a1 a2) = keep s := by
  unfold releaseEnds
  try dsimp only
  repeat' split
  all_goals simp [keep_fold, foldl_keep, mapFold_keep, *]

theorem execAckRelease_keep (a0 s) (t : State) (h : execAckRelease a0 s = .next t) : keep t = keep s := by
  unfold execAckRelease at h
  try dsimp only at h
  repeat' split at h
  all_goals grind [keep_fold, foldl_keep, mapFold_keep, answered_keep, releaseEnds_keep, runMgmt_keep]

@[simp] theorem silent_keep (s a1) : keep (silent s a1) = keep s := by
  unfold silent
  try dsimp only
  repeat' split
  all_goals simp [keep_fold, foldl_keep, mapFold_keep, *]

theorem execMgmtReplyTimeout_keep (a0 a1 s) (t : State) (h : execMgmtReplyTimeout a0 a1 s = .next t) : keep t = keep s := by
  unfold execMgmtReplyTimeout at h
  try dsimp only at h
  cases h
  simp [keep_fold, foldl_keep, mapFold_keep, *]

/-! ### Replicate -/

@[simp] theorem toPartner_keep (s a1 a2) : keep (toPartner s a1 a2) = keep s := by
  unfold toPartner
  try dsimp only
  repeat' split
  all_goals simp [keep_fold, foldl_keep, mapFold_keep, *]

@[simp] theorem replicatePage_keep (s a1 a2) : keep (replicatePage s a1 a2) = keep s := by
  unfold replicatePage
  try dsimp only
  repeat' split
  all_goals simp [keep_fold, foldl_keep, mapFold_keep, *]

@[simp] theorem sendBatch_keep (s a1) : keep (sendBatch s a1) = keep s := by
  grind [sendBatch, keep_fold, keep_mk, foldl_keep, mapFold_keep, toPartner_keep, modQ_keep]

@[simp] theorem loseFrame_keep (s a1) : keep (loseFrame s a1) = keep s := by
  simp [loseFrame, keep_fold, foldl_keep, mapFold_keep, *]

@[simp] theorem damageFrame_keep (s a1) : keep (damageFrame s a1) = keep s := by
  unfold damageFrame
  try dsimp only
  repeat' split
  all_goals simp [keep_fold, foldl_keep, mapFold_keep, *]

end Sys2Proof.Machine
end

