-- ==== Sys2Proof/Laws/KeepEngine.lean ====
section
/-! SUPPORT. What keeps the queue, the bulk window and the fuses: the lap engines. One lemma per operation. -/

set_option Elab.async false

namespace Sys2Proof.Machine

set_option linter.unusedSimpArgs false
set_option linter.unusedTactic false
set_option linter.unreachableTactic false

/-! ### Engine -/

@[simp] theorem withRun_keep (s a1 a2) (h2 : ∀ x0 x1, keep (a2 x0 x1) = keep x1) : keep (withRun s a1 a2) = keep s := by
  unfold withRun
  try dsimp only
  repeat' split
  all_goals simp [keep_fold, foldl_keep, mapFold_keep, *]

@[simp] theorem raiseTag_keep (s a1 a2 a3 a4 a5 a6) : keep (raiseTag s a1 a2 a3 a4 a5 a6) = keep s := by
  simp [raiseTag, keep_fold, foldl_keep, mapFold_keep, *]

@[simp] theorem excludeHere_keep (s a1 a2 a3) : keep (excludeHere s a1 a2 a3) = keep s := by
  simp [excludeHere, keep_fold, foldl_keep, mapFold_keep, *]

@[simp] theorem writeUnits_keep (s a1 a2 a3 a4 a5 a6 a7) : keep (writeUnits s a1 a2 a3 a4 a5 a6 a7) = keep s := by
  simp [writeUnits, keep_fold, foldl_keep, mapFold_keep, *]

@[simp] theorem writeElems_keep (s a1 a2 a3 a4 a5 a6) : keep (writeElems s a1 a2 a3 a4 a5 a6) = keep s := by
  simp [writeElems, keep_fold, foldl_keep, mapFold_keep, *]

@[simp] theorem writeStats_keep (s a1 a2 a3 a4 a5 a6) : keep (writeStats s a1 a2 a3 a4 a5 a6) = keep s := by
  simp [writeStats, keep_fold, foldl_keep, mapFold_keep, *]

/-! ### Attend -/

@[simp] theorem pageFault_keep (s a1 a2 a3) : keep (pageFault s a1 a2 a3) = keep s := by
  simp [pageFault, keep_fold, foldl_keep, mapFold_keep, *]

@[simp] theorem setExpander_keep (s a1 a2) : keep (setExpander s a1 a2) = keep s := by
  simp [setExpander, keep_fold, foldl_keep, mapFold_keep, *]

@[simp] theorem expand_keep (a0 s a2) : keep (expand a0 s a2) = keep s := by
  unfold expand
  try dsimp only
  repeat' split
  all_goals simp [keep_fold, foldl_keep, mapFold_keep, *]

theorem execExpPage_keep (a0 s) (t : State) (h : execExpPage a0 s = .next t) : keep t = keep s := by
  unfold execExpPage at h
  try dsimp only at h
  cases h
  simp [keep_fold, foldl_keep, mapFold_keep, *]

@[simp] theorem initStats_keep (a0 s a2) : keep (initStats a0 s a2) = keep s := by
  unfold initStats
  try dsimp only
  repeat' split
  all_goals simp [keep_fold, foldl_keep, mapFold_keep, *]

@[simp] theorem formScores_keep (a0 s a2) : keep (formScores a0 s a2) = keep s := by
  unfold formScores
  try dsimp only
  repeat' split
  all_goals simp [keep_fold, foldl_keep, mapFold_keep, *]

theorem execMxeAtt_keep (a0 s) (t : State) (h : execMxeAtt a0 s = .next t) : keep t = keep s := by
  unfold execMxeAtt at h
  try dsimp only at h
  cases h
  simp [keep_fold, foldl_keep, mapFold_keep, *]

@[simp] theorem softmax_keep (a0 s a2) : keep (softmax a0 s a2) = keep s := by
  unfold softmax
  try dsimp only
  repeat' split
  all_goals simp [keep_fold, foldl_keep, mapFold_keep, *]

theorem execVecSmx_keep (a0 s) (t : State) (h : execVecSmx a0 s = .next t) : keep t = keep s := by
  unfold execVecSmx at h
  try dsimp only at h
  cases h
  simp [keep_fold, foldl_keep, mapFold_keep, *]

/-! ### Vector -/

@[simp] theorem secondOperand_keep (a0 s a2 a3 a4) : keep (secondOperand a0 s a2 a3 a4).2.2 = keep s := by
  unfold secondOperand
  try dsimp only
  repeat' split
  all_goals simp [keep_fold, foldl_keep, mapFold_keep, *]

@[simp] theorem weightFault_keep (a0 s a2) : keep (weightFault a0 s a2) = keep s := by
  simp [weightFault, keep_fold, foldl_keep, mapFold_keep, *]

@[simp] theorem matProduct_keep (a0 s a2) : keep (matProduct a0 s a2) = keep s := by
  unfold matProduct
  try dsimp only
  repeat' split
  all_goals simp [keep_fold, foldl_keep, mapFold_keep, *]

theorem execMxeMm_keep (a0 s) (t : State) (h : execMxeMm a0 s = .next t) : keep t = keep s := by
  unfold execMxeMm at h
  try dsimp only at h
  cases h
  simp [keep_fold, foldl_keep, mapFold_keep, *]

@[simp] theorem convertOp_keep (a0 s a2) : keep (convertOp a0 s a2) = keep s := by
  unfold convertOp
  try dsimp only
  repeat' split
  all_goals simp [keep_fold, foldl_keep, mapFold_keep, *]

theorem execVecCvt_keep (a0 s) (t : State) (h : execVecCvt a0 s = .next t) : keep t = keep s := by
  unfold execVecCvt at h
  try dsimp only at h
  cases h
  simp [keep_fold, foldl_keep, mapFold_keep, *]

@[simp] theorem rotateOp_keep (a0 s a2) : keep (rotateOp a0 s a2) = keep s := by
  simp [rotateOp, keep_fold, foldl_keep, mapFold_keep, *]

theorem execVecRot_keep (a0 s) (t : State) (h : execVecRot a0 s = .next t) : keep t = keep s := by
  unfold execVecRot at h
  try dsimp only at h
  cases h
  simp [keep_fold, foldl_keep, mapFold_keep, *]

@[simp] theorem normOp_keep (a0 s a2) : keep (normOp a0 s a2) = keep s := by
  simp [normOp, keep_fold, foldl_keep, mapFold_keep, *]

theorem execVecNrm_keep (a0 s) (t : State) (h : execVecNrm a0 s = .next t) : keep t = keep s := by
  unfold execVecNrm at h
  try dsimp only at h
  cases h
  simp [keep_fold, foldl_keep, mapFold_keep, *]

@[simp] theorem finOp_keep (a0 s a2) : keep (finOp a0 s a2) = keep s := by
  simp [finOp, keep_fold, foldl_keep, mapFold_keep, *]

theorem execVecFin_keep (a0 s) (t : State) (h : execVecFin a0 s = .next t) : keep t = keep s := by
  unfold execVecFin at h
  try dsimp only at h
  cases h
  simp [keep_fold, foldl_keep, mapFold_keep, *]

@[simp] theorem mergeOp_keep (a0 s a2) : keep (mergeOp a0 s a2) = keep s := by
  unfold mergeOp
  try dsimp only
  repeat' split
  all_goals simp [keep_fold, foldl_keep, mapFold_keep, *]

theorem execVecMrg_keep (a0 s) (t : State) (h : execVecMrg a0 s = .next t) : keep t = keep s := by
  unfold execVecMrg at h
  try dsimp only at h
  cases h
  simp [keep_fold, foldl_keep, mapFold_keep, *]

/-! ### Quant -/

@[simp] theorem appendOp_keep (a0 s a2) : keep (appendOp a0 s a2) = keep s := by
  unfold appendOp
  try dsimp only
  repeat' split
  all_goals simp [keep_fold, foldl_keep, mapFold_keep, *]

theorem execQenApp_keep (a0 s) (t : State) (h : execQenApp a0 s = .next t) : keep t = keep s := by
  unfold execQenApp at h
  try dsimp only at h
  cases h
  simp [keep_fold, foldl_keep, mapFold_keep, *]

@[simp] theorem sealFrame_keep (s a1 a2 a3 a4) : keep (sealFrame s a1 a2 a3 a4) = keep s := by
  simp [sealFrame, keep_fold, foldl_keep, mapFold_keep, *]

@[simp] theorem sealOp_keep (a0 s a2) : keep (sealOp a0 s a2) = keep s := by
  unfold sealOp
  try dsimp only
  repeat' split
  all_goals simp [keep_fold, foldl_keep, mapFold_keep, *]

theorem execQenSeal_keep (a0 s) (t : State) (h : execQenSeal a0 s = .next t) : keep t = keep s := by
  unfold execQenSeal at h
  try dsimp only at h
  cases h
  simp [keep_fold, foldl_keep, mapFold_keep, *]

@[simp] theorem claimRead_keep (a0 s a2 a3 a4) : keep (claimRead a0 s a2 a3 a4) = keep s := by
  unfold claimRead
  try dsimp only
  repeat' split
  all_goals simp [keep_fold, foldl_keep, mapFold_keep, *]

theorem execChnRd_keep (a0 a1 a2 s) (t : State) (h : execChnRd a0 a1 a2 s = .next t) : keep t = keep s := by
  unfold execChnRd at h
  try dsimp only at h
  cases h
  simp [keep_fold, foldl_keep, mapFold_keep, *]

@[simp] theorem claimWrite_keep (a0 s a2 a3) : keep (claimWrite a0 s a2 a3) = keep s := by
  unfold claimWrite
  try dsimp only
  repeat' split
  all_goals simp [keep_fold, foldl_keep, mapFold_keep, *]

theorem execChnWr_keep (a0 a1 s) (t : State) (h : execChnWr a0 a1 s = .next t) : keep t = keep s := by
  unfold execChnWr at h
  try dsimp only at h
  cases h
  simp [keep_fold, foldl_keep, mapFold_keep, *]

/-! ### Select -/

@[simp] theorem postReq_keep (s a1 a2) : keep (postReq s a1 a2) = keep s := by
  unfold postReq
  try dsimp only
  repeat' split
  all_goals simp [keep_fold, foldl_keep, mapFold_keep, *]

@[simp] theorem selReqOp_keep (a0 s a2) : keep (selReqOp a0 s a2) = keep s := by
  unfold selReqOp
  try dsimp only
  repeat' split
  all_goals simp [keep_fold, foldl_keep, mapFold_keep, *]

theorem execSelReq_keep (a0 s) (t : State) (h : execSelReq a0 s = .next t) : keep t = keep s := by
  unfold execSelReq at h
  try dsimp only at h
  cases h
  simp [keep_fold, foldl_keep, mapFold_keep, *]

@[simp] theorem runQuery_keep (s a1) : keep (runQuery s a1) = keep s := by
  unfold runQuery
  try dsimp only
  repeat' split
  all_goals simp [keep_fold, foldl_keep, mapFold_keep, *]

theorem execSelectorQuery_keep (a0 a1 s) (t : State) (h : execSelectorQuery a0 a1 s = .next t) : keep t = keep s := by
  unfold execSelectorQuery at h
  try dsimp only at h
  cases h
  simp [keep_fold, foldl_keep, mapFold_keep, *]

@[simp] theorem selTakeOp_keep (a0 s a2) : keep (selTakeOp a0 s a2) = keep s := by
  unfold selTakeOp
  try dsimp only
  repeat' split
  all_goals simp [keep_fold, foldl_keep, mapFold_keep, *]

theorem execSelTake_keep (a0 s) (t : State) (h : execSelTake a0 s = .next t) : keep t = keep s := by
  unfold execSelTake at h
  try dsimp only at h
  cases h
  simp [keep_fold, foldl_keep, mapFold_keep, *]

@[simp] theorem countAudit_keep (s a1 a2 a3 a4) : keep (countAudit s a1 a2 a3 a4) = keep s := by
  simp [countAudit, keep_fold, foldl_keep, mapFold_keep, *]

@[simp] theorem auditOp_keep (s a1) : keep (auditOp s a1) = keep s := by
  unfold auditOp
  try dsimp only
  repeat' split
  all_goals simp [keep_fold, foldl_keep, mapFold_keep, *]

theorem execRecallAudit_keep (a0 s) (t : State) (h : execRecallAudit a0 s = .next t) : keep t = keep s := by
  unfold execRecallAudit at h
  try dsimp only at h
  cases h
  simp [keep_fold, foldl_keep, mapFold_keep, *]

@[simp] theorem abandonAudit_keep (s a1) : keep (abandonAudit s a1) = keep s := by
  unfold abandonAudit
  try dsimp only
  repeat' split
  all_goals simp [keep_fold, foldl_keep, mapFold_keep, *]

theorem execAuditAbandon_keep (a0 s) (t : State) (h : execAuditAbandon a0 s = .next t) : keep t = keep s := by
  unfold execAuditAbandon at h
  try dsimp only at h
  cases h
  simp [keep_fold, foldl_keep, mapFold_keep, *]

/-! ### Relay -/

@[simp] theorem sendBatons_keep (a0 s a2) : keep (sendBatons a0 s a2) = keep s := by
  unfold sendBatons
  try dsimp only
  repeat' split
  all_goals simp [keep_fold, foldl_keep, mapFold_keep, *]

@[simp] theorem sendShare_keep (a0 s a2) : keep (sendShare a0 s a2) = keep s := by
  unfold sendShare
  try dsimp only
  repeat' split
  all_goals simp [keep_fold, foldl_keep, mapFold_keep, *]

theorem execNetBtn_keep (a0 s) (t : State) (h : execNetBtn a0 s = .next t) : keep t = keep s := by
  unfold execNetBtn at h
  try dsimp only at h
  cases h
  repeat' split
  all_goals simp [keep_fold, foldl_keep, mapFold_keep, *]

@[simp] theorem sendContributions_keep (s a1 a2 a3) : keep (sendContributions s a1 a2 a3) = keep s := by
  grind [sendContributions, keep_fold, keep_mk, foldl_keep, mapFold_keep, internalQueue_keep, launchInternal_keep]

@[simp] theorem hostPut_keep (s a1 a2 a3 a4 a5) : keep (hostPut s a1 a2 a3 a4 a5) = keep s := by
  unfold hostPut
  try dsimp only
  repeat' split
  all_goals simp [keep_fold, foldl_keep, mapFold_keep, *]

@[simp] theorem writeAreas_keep (s a1 a2 a3 a4) : keep (writeAreas s a1 a2 a3 a4) = keep s := by
  grind [writeAreas, keep_fold, keep_mk, foldl_keep, mapFold_keep, hostPut_keep]

@[simp] theorem writeRow_keep (s a1 a2) : keep (writeRow s a1 a2) = keep s := by
  unfold writeRow
  try dsimp only
  repeat' split
  all_goals simp [keep_fold, foldl_keep, mapFold_keep, *]

@[simp] theorem writeResult_keep (s a1 a2) : keep (writeResult s a1 a2) = keep s := by
  unfold writeResult
  try dsimp only
  repeat' split
  all_goals simp [keep_fold, foldl_keep, mapFold_keep, *]

@[simp] theorem relayOp_keep (s a1) : keep (relayOp s a1) = keep s := by
  unfold relayOp
  try dsimp only
  repeat' split
  all_goals simp [keep_fold, foldl_keep, mapFold_keep, *]

theorem execRelayFold_keep (a0 a1 s) (t : State) (h : execRelayFold a0 a1 s = .next t) : keep t = keep s := by
  unfold execRelayFold at h
  try dsimp only at h
  cases h
  simp [keep_fold, foldl_keep, mapFold_keep, *]

@[simp] theorem takeBaton_keep (s a1 a2 a3 a4 a5) : keep (takeBaton s a1 a2 a3 a4 a5) = keep s := by
  simp [takeBaton, keep_fold, foldl_keep, mapFold_keep, *]

@[simp] theorem batonOp_keep (s a1) : keep (batonOp s a1) = keep s := by
  unfold batonOp
  try dsimp only
  repeat' split
  all_goals simp [keep_fold, foldl_keep, mapFold_keep, *]

theorem execBaton_keep (a0 s) (t : State) (h : execBaton a0 s = .next t) : keep t = keep s := by
  unfold execBaton at h
  try dsimp only at h
  cases h
  simp [keep_fold, foldl_keep, mapFold_keep, *]

@[simp] theorem fillHoles_keep (s a1 a2) : keep (fillHoles s a1 a2) = keep s := by
  grind [fillHoles, keep_fold, keep_mk, foldl_keep, mapFold_keep, modFr_keep]

@[simp] theorem endDecode_keep (s a1 a2) : keep (endDecode s a1 a2) = keep s := by
  unfold endDecode
  try dsimp only
  repeat' split
  all_goals simp [keep_fold, foldl_keep, mapFold_keep, *]

@[simp] theorem unsealFrames_keep (s a1) : keep (unsealFrames s a1) = keep s := by
  grind [unsealFrames, keep_fold, keep_mk, foldl_keep, mapFold_keep, modFr_keep]

@[simp] theorem settleHeat_keep (s a1) : keep (settleHeat s a1) = keep s := by
  unfold settleHeat
  try dsimp only
  repeat' split
  all_goals simp [keep_fold, foldl_keep, mapFold_keep, *]

@[simp] theorem lapEndOp_keep (s a1) : keep (lapEndOp s a1) = keep s := by
  grind [lapEndOp, keep_fold, keep_mk, foldl_keep, mapFold_keep, arbitrateFree_keep, endDecode_keep,
      freeReserved_keep, acceptHeldIn_keep, unsealFrames_keep, settleHeat_keep, modH_keep, overSlots_keep]

theorem execLapEnd_keep (a0 a1 s) (t : State) (h : execLapEnd a0 a1 s = .next t) : keep t = keep s := by
  unfold execLapEnd at h
  try dsimp only at h
  cases h
  simp [keep_fold, foldl_keep, mapFold_keep, *]

end Sys2Proof.Machine
end

