-- ==== Sys2Proof/Laws/KeepRows.lean ====
section
/-! SUPPORT. What keeps the queue, the bulk window and the fuses: frames, replicas, memory, placement, network and collection commands. One lemma per operation. -/

set_option Elab.async false

namespace Sys2Proof.Machine

set_option linter.unusedSimpArgs false
set_option linter.unusedTactic false
set_option linter.unreachableTactic false

/-! ### Frames -/

@[simp] theorem refillOne_keep (s a1 a2 a3) : keep (refillOne s a1 a2 a3) = keep s := by
  unfold refillOne
  try dsimp only
  repeat' split
  all_goals simp [keep_fold, foldl_keep, mapFold_keep, *]

theorem execPoolRefill_keep (a0 a1 a2 s) (t : State) (h : execPoolRefill a0 a1 a2 s = .next t) : keep t = keep s := by
  unfold execPoolRefill at h
  try dsimp only at h
  cases h
  repeat' split
  all_goals simp [keep_fold, foldl_keep, mapFold_keep, *]

@[simp] theorem occupy_keep (s a1 a2) : keep (occupy s a1 a2) = keep s := by
  simp [occupy, keep_fold, foldl_keep, mapFold_keep, *]

@[simp] theorem vacate_keep (s a1) : keep (vacate s a1) = keep s := by
  simp [vacate, keep_fold, foldl_keep, mapFold_keep, *]

@[simp] theorem reportEvicted_keep (s a1 a2 a3) : keep (reportEvicted s a1 a2 a3) = keep s := by
  simp [reportEvicted, keep_fold, foldl_keep, mapFold_keep, *]

@[simp] theorem placeSlack_keep (s a1 a2) : keep (placeSlack s a1 a2) = keep s := by
  unfold placeSlack
  try dsimp only
  repeat' split
  all_goals simp [keep_fold, foldl_keep, mapFold_keep, *]

@[simp] theorem loseOccupant_keep (s a1) : keep (loseOccupant s a1) = keep s := by
  unfold loseOccupant
  try dsimp only
  repeat' split
  all_goals simp [keep_fold, foldl_keep, mapFold_keep, *]

@[simp] theorem freeFrame_keep (s a1) : keep (freeFrame s a1) = keep s := by
  simp [freeFrame, keep_fold, foldl_keep, mapFold_keep, *]

@[simp] theorem reclaimOp_keep (s a1) : keep (reclaimOp s a1) = keep s := by
  unfold reclaimOp
  try dsimp only
  repeat' split
  all_goals simp [keep_fold, foldl_keep, mapFold_keep, *]

theorem execFrameReclaim_keep (a0 s) (t : State) (h : execFrameReclaim a0 s = .next t) : keep t = keep s := by
  unfold execFrameReclaim at h
  try dsimp only at h
  cases h
  simp [keep_fold, foldl_keep, mapFold_keep, *]

@[simp] theorem frameTestOp_keep (s a1 a2) : keep (frameTestOp s a1 a2) = keep s := by
  unfold frameTestOp
  try dsimp only
  repeat' split
  all_goals simp [keep_fold, foldl_keep, mapFold_keep, *]

theorem execFrameTest_keep (a0 a1 s) (t : State) (h : execFrameTest a0 a1 s = .next t) : keep t = keep s := by
  unfold execFrameTest at h
  try dsimp only at h
  cases h
  simp [keep_fold, foldl_keep, mapFold_keep, *]

@[simp] theorem reindex_keep (s a1 a2) : keep (reindex s a1 a2) = keep s := by
  grind [reindex, keep_fold, keep_mk, foldl_keep, mapFold_keep, idxAdd_keep, idxGone_keep]

@[simp] theorem copyCommit_keep (s a1) : keep (copyCommit s a1) = keep s := by
  unfold copyCommit
  try dsimp only
  repeat' split
  all_goals simp [keep_fold, foldl_keep, mapFold_keep, *]

theorem execFrameCopyCommit_keep (a0 s) (t : State) (h : execFrameCopyCommit a0 s = .next t) : keep t = keep s := by
  unfold execFrameCopyCommit at h
  try dsimp only at h
  cases h
  simp [keep_fold, foldl_keep, mapFold_keep, *]

@[simp] theorem askRollback_keep (s a1) : keep (askRollback s a1) = keep s := by
  unfold askRollback
  try dsimp only
  repeat' split
  all_goals simp [keep_fold, foldl_keep, mapFold_keep, *]

@[simp] theorem rebuildOpen_keep (s a1) : keep (rebuildOpen s a1) = keep s := by
  unfold rebuildOpen
  try dsimp only
  repeat' split
  all_goals grind [keep_fold, keep_mk, foldl_keep, mapFold_keep, modFr_keep, askRollback_keep, modQ_keep,
      loseFrame_keep, dropRef_keep, drawFrame_keep, newIdentity_keep]

@[simp] theorem repairOp_keep (s a1) : keep (repairOp s a1) = keep s := by
  grind [repairOp, keep_fold, keep_mk, foldl_keep, mapFold_keep, rebuildOpen_keep, modFr_keep, loseOccupant_keep,
      loseFrame_keep, drawFrame_keep]

theorem execPageRepair_keep (a0 a1 s) (t : State) (h : execPageRepair a0 a1 s = .next t) : keep t = keep s := by
  unfold execPageRepair at h
  try dsimp only at h
  cases h
  simp [keep_fold, foldl_keep, mapFold_keep, *]

@[simp] theorem unpinAll_keep (s a1) : keep (unpinAll s a1) = keep s := by
  simp [unpinAll, keep_fold, foldl_keep, mapFold_keep, *]

@[simp] theorem abortTruncate_keep (s a1 a2 a3) : keep (abortTruncate s a1 a2 a3) = keep s := by
  simp [abortTruncate, keep_fold, foldl_keep, mapFold_keep, *]

@[simp] theorem reopenOp_keep (s a1 a2) : keep (reopenOp s a1 a2) = keep s := by
  grind [reopenOp, keep_fold, keep_mk, foldl_keep, mapFold_keep, reopenInto_keep, modFr_keep, modQ_keep,
      abortTruncate_keep]

theorem execReopenCopy_keep (a0 a1 s) (t : State) (h : execReopenCopy a0 a1 s = .next t) : keep t = keep s := by
  unfold execReopenCopy at h
  try dsimp only at h
  cases h
  simp [keep_fold, foldl_keep, mapFold_keep, *]

@[simp] theorem truncSwitch_keep (s a1 a2) : keep (truncSwitch s a1 a2) = keep s := by
  simp [truncSwitch, keep_fold, foldl_keep, mapFold_keep, *]

@[simp] theorem truncCommit_keep (s a1) : keep (truncCommit s a1) = keep s := by
  grind [truncCommit, keep_fold, keep_mk, foldl_keep, mapFold_keep, recordChanged_keep, modFr_keep, truncSwitch_keep,
      unpinAll_keep, sendMapUpdate_keep, clearLeaves_keep, finishWhere_keep, modQ_keep]

theorem execTruncateCommit_keep (a0 a1 s) (t : State) (h : execTruncateCommit a0 a1 s = .next t) : keep t = keep s := by
  unfold execTruncateCommit at h
  try dsimp only at h
  cases h
  simp [keep_fold, foldl_keep, mapFold_keep, *]

@[simp] theorem renewFrame_keep (s a1) : keep (renewFrame s a1) = keep s := by
  simp [renewFrame, keep_fold, foldl_keep, mapFold_keep, *]

theorem execCollectionFrameRenewal_keep (a0 s) (t : State) (h : execCollectionFrameRenewal a0 s = .next t) : keep t = keep s := by
  unfold execCollectionFrameRenewal at h
  try dsimp only at h
  cases h
  repeat' split
  all_goals simp [keep_fold, foldl_keep, mapFold_keep, *]

/-! ### Replicas -/

@[simp] theorem takeSealed_keep (s a1 a2 a3 a4 a5 a6) : keep (takeSealed s a1 a2 a3 a4 a5 a6) = keep s := by
  unfold takeSealed
  try dsimp only
  repeat' split
  all_goals simp [keep_fold, foldl_keep, mapFold_keep, *]

@[simp] theorem takeOpen_keep (s origin id sl dom e data) (m) : keep (takeOpen s origin id sl dom e data m) = keep s := by
  unfold takeOpen
  extract_lets at_
  have hat : at_ = at_ := rfl
  revert hat
  generalize hq : at_ = o
  intro _
  rcases o with _ | ⟨f, s'⟩
  · simp
  · have h := hq
    have hs : keep s' = keep s := by
      simp only [at_] at h
      split at h
      · cases h; rfl
      · rw [Option.map_eq_some_iff] at h
        obtain ⟨⟨a, b⟩, hd, h⟩ := h
        cases h
        simp [drawFrame_keep _ _ _ _ _ _ _ _ hd]
    simp [hs]

@[simp] theorem replicateOp_keep (s a1) : keep (replicateOp s a1) = keep s := by
  unfold replicateOp
  try dsimp only
  repeat' split
  all_goals simp [keep_fold, foldl_keep, mapFold_keep, *]

theorem execPageReplicate_keep (a0 s) (t : State) (h : execPageReplicate a0 s = .next t) : keep t = keep s := by
  unfold execPageReplicate at h
  try dsimp only at h
  cases h
  simp [keep_fold, foldl_keep, mapFold_keep, *]

@[simp] theorem moveProgress_keep (s a1) : keep (moveProgress s a1) = keep s := by
  unfold moveProgress
  try dsimp only
  repeat' split
  all_goals simp [keep_fold, foldl_keep, mapFold_keep, *]

theorem pick_keep{s s' : State} {f : Nat} {o : Option Nat} {p : Option (Nat × State)} {g : Nat × State → Nat × State}
    (h : (match o with | some f => some (f, s) | none => p.map g) = some (f, s'))
    (hp : ∀ y, p = some y → keep (g y).2 = keep s) : keep s' = keep s := by
  split at h
  · cases h; rfl
  · rw [Option.map_eq_some_iff] at h
    obtain ⟨y, hy, h⟩ := h
    rw [← hp y hy, h]
@[simp] theorem moveOp_keep (s m) : keep (moveOp s m) = keep s := by
  unfold moveOp
  split
  · rfl
  · extract_lets e id kind
    split
    · split
      · simp
      · dsimp only
        split
        · rfl
        · rename_i h
          have := pick_keep h fun y hy => by simpa using drawFrame_keep _ _ _ _ _ _ _ _ hy
          simp [this]
    · simp

theorem execPageMove_keep (a0 s) (t : State) (h : execPageMove a0 s = .next t) : keep t = keep s := by
  unfold execPageMove at h
  try dsimp only at h
  cases h
  simp [keep_fold, foldl_keep, mapFold_keep, *]

@[simp] theorem sendMove_keep (s a1 a2 a3 a4 a5) : keep (sendMove s a1 a2 a3 a4 a5) = keep s := by
  grind [sendMove, keep_fold, keep_mk, foldl_keep, mapFold_keep, internalQueue_keep, launchInternal_keep, setFr_keep]

@[simp] theorem migrationOp_keep (s a1 a2 a3) : keep (migrationOp s a1 a2 a3) = keep s := by
  unfold migrationOp
  try dsimp only
  repeat' split
  all_goals simp [keep_fold, foldl_keep, mapFold_keep, *]

theorem execMigration_keep (a0 a1 a2 a3 s) (t : State) (h : execMigration a0 a1 a2 a3 s = .next t) : keep t = keep s := by
  unfold execMigration at h
  try dsimp only at h
  cases h
  simp [keep_fold, foldl_keep, mapFold_keep, *]

@[simp] theorem promoteOpen_keep (s a1 a2) : keep (promoteOpen s a1 a2) = keep s := by
  grind [promoteOpen, keep_fold, keep_mk, foldl_keep, mapFold_keep, modFr_keep, ensureLeaf_keep, modQ_keep,
      newIdentity_keep]

@[simp] theorem promoteSealed_keep (s id sl e) : keep (promoteSealed s id sl e) = keep s := by
  unfold promoteSealed
  extract_lets h
  split
  · rfl
  · rename_i f s' hd
    split
    · simp [drawPool_keep _ _ _ _ _ hd]
    · rename_i s2 he
      simp [ensureLeaf_keep _ _ _ _ _ _ he, drawPool_keep _ _ _ _ _ hd]

@[simp] theorem takeOver_keep (s a1 a2 a3) : keep (takeOver s a1 a2 a3) = keep s := by
  unfold takeOver
  try dsimp only
  repeat' split
  all_goals simp [keep_fold, foldl_keep, mapFold_keep, *]

@[simp] theorem promotionOp_keep (s a1 a2) : keep (promotionOp s a1 a2) = keep s := by
  unfold promotionOp
  try dsimp only
  repeat' split
  all_goals simp [keep_fold, foldl_keep, mapFold_keep, *]

theorem execPromotion_keep (a0 a1 a2 s) (t : State) (h : execPromotion a0 a1 a2 s = .next t) : keep t = keep s := by
  unfold execPromotion at h
  try dsimp only at h
  cases h
  simp [keep_fold, foldl_keep, mapFold_keep, *]

@[simp] theorem seedSeq_keep (s a1) : keep (seedSeq s a1) = keep s := by
  unfold seedSeq
  try dsimp only
  repeat' split
  all_goals simp [keep_fold, foldl_keep, mapFold_keep, *]

@[simp] theorem reseedOp_keep (s a1) : keep (reseedOp s a1) = keep s := by
  unfold reseedOp
  try dsimp only
  repeat' split
  all_goals simp [keep_fold, foldl_keep, mapFold_keep, *]

theorem execReseed_keep (a0 a1 s) (t : State) (h : execReseed a0 a1 s = .next t) : keep t = keep s := by
  unfold execReseed at h
  try dsimp only at h
  cases h
  simp [keep_fold, foldl_keep, mapFold_keep, *]

@[simp] theorem leaseOp_keep (s a1) : keep (leaseOp s a1) = keep s := by
  unfold leaseOp
  try dsimp only
  repeat' split
  all_goals simp [keep_fold, foldl_keep, mapFold_keep, *]

theorem execLeaseExpiry_keep (a0 a1 s) (t : State) (h : execLeaseExpiry a0 a1 s = .next t) : keep t = keep s := by
  unfold execLeaseExpiry at h
  try dsimp only at h
  cases h
  simp [keep_fold, foldl_keep, mapFold_keep, *]

@[simp] theorem handoffOp_keep (s a1) : keep (handoffOp s a1) = keep s := by
  unfold handoffOp
  try dsimp only
  repeat' split
  all_goals simp [keep_fold, foldl_keep, mapFold_keep, *]

theorem execHandoffDeadline_keep (a0 a1 s) (t : State) (h : execHandoffDeadline a0 a1 s = .next t) : keep t = keep s := by
  unfold execHandoffDeadline at h
  try dsimp only at h
  cases h
  simp [keep_fold, foldl_keep, mapFold_keep, *]

@[simp] theorem resendEvicted_keep (s) : keep (resendEvicted s) = keep s := by
  grind [resendEvicted, keep_fold, keep_mk, foldl_keep, mapFold_keep, useFree_keep, replicatePage_keep]

@[simp] theorem flushPointOp_keep (s) : keep (flushPointOp s) = keep s := by
  unfold flushPointOp
  try dsimp only
  repeat' split
  all_goals simp [keep_fold, foldl_keep, mapFold_keep, *]

theorem execFlushPoint_keep (a0 s) (t : State) (h : execFlushPoint a0 s = .next t) : keep t = keep s := by
  unfold execFlushPoint at h
  try dsimp only at h
  cases h
  simp [keep_fold, foldl_keep, mapFold_keep, *]

/-! ### MemCmds -/

@[simp] theorem forward_keep (a0 s a2 a3) : keep (forward a0 s a2 a3).2 = keep s := by
  unfold forward
  try dsimp only
  repeat' split
  all_goals simp [keep_fold, foldl_keep, mapFold_keep, *]

@[simp] theorem atHome_keep (a0 a1 a2 a3 a4 s) (h3 : ∀ x0 x1,
    keep (a3 x0 x1).1 = keep x1) : keep (atHome a0 a1 a2 a3 a4 s).1 = keep s := by
  unfold atHome
  try dsimp only
  repeat' split
  all_goals simp [keep_fold, foldl_keep, mapFold_keep, *]

theorem carve_keep (s a1) (t : State) (h : carve s a1 = some t) : keep t = keep s := by
  unfold carve at h
  dsimp only [newKey] at h
  split at h
  · cases h
  · cases h; simp [keep_fold]

@[simp] theorem memConfig_keep (a0 s) : keep (memConfig a0 s).1 = keep s := by
  grind [memConfig, keep_fold, keep_mk, foldl_keep, mapFold_keep, carve_keep, failIf_keep]

theorem execMemConfig_keep (a0 s) (t : State) (h : execMemConfig a0 s = .next t) : keep t = keep s := by
  unfold execMemConfig at h
  refine runHuavo_keep _ _ _ _ (fun d s => ?_) _ h
  try dsimp only
  simp [keep_fold, foldl_keep, mapFold_keep]

@[simp] theorem seqCreate_keep (a0 s) : keep (seqCreate a0 s).1 = keep s := by
  grind [seqCreate, keep_fold, keep_mk, foldl_keep, mapFold_keep, useFree_keep, modPl_keep, failIf_keep]

theorem execSeqCreate_keep (a0 s) (t : State) (h : execSeqCreate a0 s = .next t) : keep t = keep s := by
  unfold execSeqCreate at h
  try dsimp only at h
  cases h
  simp [keep_fold, foldl_keep, mapFold_keep, *]

@[simp] theorem seqFree_keep (a0 s) : keep (seqFree a0 s).1 = keep s := by
  grind [seqFree, keep_fold, keep_mk, foldl_keep, mapFold_keep, sendMgmt_keep, forgetSeq_keep, withObj_keep,
      failIf_keep, ask_keep]

theorem execSeqFree_keep (a0 s) (t : State) (h : execSeqFree a0 s = .next t) : keep t = keep s := by
  unfold execSeqFree at h
  refine runHuavo_keep _ _ _ _ (fun d s => ?_) _ h
  try dsimp only
  simp [keep_fold, foldl_keep, mapFold_keep]

theorem drawDests_keep (s a1 a2 a3 a4 a5) (t : State) (r1) (h : drawDests s a1 a2 a3 a4 a5 = some (t,
    r1)) : keep t = keep s := by
  induction a5 generalizing s a4 with
  | nil => simp [drawDests] at h; simp [h]
  | cons e l ih =>
    obtain ⟨k, f⟩ := e
    unfold drawDests at h
    dsimp only at h
    repeat' split at h
    all_goals grind [drawFrame_keep, modFr_keep]

@[simp] theorem seqTruncate_keep (a0 s) : keep (seqTruncate a0 s).1 = keep s := by
  grind [seqTruncate, keep_fold, keep_mk, foldl_keep, mapFold_keep, drawDests_keep, modQ_keep, withObj_keep,
      failIf_keep]

theorem execSeqTruncate_keep (a0 s) (t : State) (h : execSeqTruncate a0 s = .next t) : keep t = keep s := by
  unfold execSeqTruncate at h
  refine runHuavo_keep _ _ _ _ (fun d s => ?_) _ h
  try dsimp only
  simp [keep_fold, foldl_keep, mapFold_keep]

@[simp] theorem seqQuery_keep (a0 s) : keep (seqQuery a0 s).1 = keep s := by
  simp [seqQuery, keep_fold, foldl_keep, mapFold_keep, *]

theorem execSeqQuery_keep (a0 s) (t : State) (h : execSeqQuery a0 s = .next t) : keep t = keep s := by
  unfold execSeqQuery at h
  refine runHuavo_keep _ _ _ _ (fun d s => ?_) _ h
  try dsimp only
  simp [keep_fold, foldl_keep, mapFold_keep]

@[simp] theorem seqGlobal_keep (a0 s) : keep (seqGlobal a0 s).1 = keep s := by
  grind [seqGlobal, keep_fold, keep_mk, foldl_keep, mapFold_keep, useFree_keep, modQ_keep, withObj_keep, failIf_keep]

theorem execSeqGlobal_keep (a0 s) (t : State) (h : execSeqGlobal a0 s = .next t) : keep t = keep s := by
  unfold execSeqGlobal at h
  refine runHuavo_keep _ _ _ _ (fun d s => ?_) _ h
  try dsimp only
  simp [keep_fold, foldl_keep, mapFold_keep]

@[simp] theorem bodyFrameQuery_keep (a0 s) : keep (bodyFrameQuery a0 s).1 = keep s := by
  unfold bodyFrameQuery
  try dsimp only
  repeat' split
  all_goals simp [keep_fold, foldl_keep, mapFold_keep, *]

theorem execFrameQuery_keep (a0 s) (t : State) (h : execFrameQuery a0 s = .next t) : keep t = keep s := by
  unfold execFrameQuery at h
  refine runHuavo_keep _ _ _ _ (fun d s => ?_) _ h
  try dsimp only
  repeat' split
  all_goals simp [keep_fold, foldl_keep, mapFold_keep]

/-! ### PlaceCmds -/

@[simp] theorem placeConfig_keep (a0 s) : keep (placeConfig a0 s).1 = keep s := by
  simp [placeConfig, keep_fold, foldl_keep, mapFold_keep, *]

theorem execPlaceConfig_keep (a0 s) (t : State) (h : execPlaceConfig a0 s = .next t) : keep t = keep s := by
  unfold execPlaceConfig at h
  refine runHuavo_keep _ _ _ _ (fun d s => ?_) _ h
  try dsimp only
  simp [keep_fold, foldl_keep, mapFold_keep]

@[simp] theorem replQuery_keep (a0 s) : keep (replQuery a0 s).1 = keep s := by
  simp [replQuery, keep_fold, foldl_keep, mapFold_keep, *]

theorem execReplQuery_keep (a0 s) (t : State) (h : execReplQuery a0 s = .next t) : keep t = keep s := by
  unfold execReplQuery at h
  refine runHuavo_keep _ _ _ _ (fun d s => ?_) _ h
  try dsimp only
  simp [keep_fold, foldl_keep, mapFold_keep]

@[simp] theorem ownQuery_keep (a0 s) : keep (ownQuery a0 s).1 = keep s := by
  simp [ownQuery, keep_fold, foldl_keep, mapFold_keep, *]

theorem execOwnQuery_keep (a0 s) (t : State) (h : execOwnQuery a0 s = .next t) : keep t = keep s := by
  unfold execOwnQuery at h
  refine runHuavo_keep _ _ _ _ (fun d s => ?_) _ h
  try dsimp only
  simp [keep_fold, foldl_keep, mapFold_keep]

@[simp] theorem ownDone_keep (s a1 a2 a3) : keep (ownDone s a1 a2 a3).1 = keep s := by
  unfold ownDone
  try dsimp only
  repeat' split
  all_goals simp [keep_fold, foldl_keep, mapFold_keep, *]

@[simp] theorem ownCommand_keep (a0 s a2) (h2 : ∀ x0 x1,
    keep (a2 x0 x1).1 = keep s) : keep (ownCommand a0 s a2).1 = keep s := by
  grind [ownCommand, keep_fold, keep_mk, foldl_keep, mapFold_keep, withObj_keep, failIf_keep]

@[simp] theorem ownOffer_keep (a0 s) : keep (ownOffer a0 s).1 = keep s := by
  grind [ownOffer, keep_fold, keep_mk, foldl_keep, mapFold_keep, ownCommand_keep, ownDone_keep, failIf_keep]

theorem execOwnOffer_keep (a0 s) (t : State) (h : execOwnOffer a0 s = .next t) : keep t = keep s := by
  unfold execOwnOffer at h
  refine runHuavo_keep _ _ _ _ (fun d s => ?_) _ h
  try dsimp only
  simp [keep_fold, foldl_keep, mapFold_keep]

@[simp] theorem ownAccept_keep (a0 s) : keep (ownAccept a0 s).1 = keep s := by
  grind [ownAccept, keep_fold, keep_mk, foldl_keep, mapFold_keep, ownCommand_keep, ownDone_keep, failIf_keep]

theorem execOwnAccept_keep (a0 s) (t : State) (h : execOwnAccept a0 s = .next t) : keep t = keep s := by
  unfold execOwnAccept at h
  refine runHuavo_keep _ _ _ _ (fun d s => ?_) _ h
  try dsimp only
  simp [keep_fold, foldl_keep, mapFold_keep]

@[simp] theorem ownerDescriptor_keep (s a1 a2) : keep (ownerDescriptor s a1 a2) = keep s := by
  unfold ownerDescriptor
  try dsimp only
  repeat' split
  all_goals simp [keep_fold, foldl_keep, mapFold_keep, *]

@[simp] theorem ownCommit_keep (a0 s) : keep (ownCommit a0 s).1 = keep s := by
  grind [ownCommit, keep_fold, keep_mk, foldl_keep, mapFold_keep, ownCommand_keep, ownDone_keep,
      ownerDescriptor_keep, failIf_keep]

theorem execOwnCommit_keep (a0 s) (t : State) (h : execOwnCommit a0 s = .next t) : keep t = keep s := by
  unfold execOwnCommit at h
  refine runHuavo_keep _ _ _ _ (fun d s => ?_) _ h
  try dsimp only
  simp [keep_fold, foldl_keep, mapFold_keep]

@[simp] theorem ownClaim_keep (a0 s) : keep (ownClaim a0 s).1 = keep s := by
  simp [ownClaim, keep_fold, foldl_keep, mapFold_keep, *]

theorem execOwnClaim_keep (a0 s) (t : State) (h : execOwnClaim a0 s = .next t) : keep t = keep s := by
  unfold execOwnClaim at h
  refine runHuavo_keep _ _ _ _ (fun d s => ?_) _ h
  try dsimp only
  simp [keep_fold, foldl_keep, mapFold_keep]

@[simp] theorem fencePartition_keep (s) : keep (fencePartition s) = keep s := by
  grind [fencePartition, keep_fold, keep_mk, foldl_keep, mapFold_keep, modNet_keep, abandonDma_keep,
      rejectResult_keep, modH_keep]

@[simp] theorem actingHome_keep (s a1) : keep (actingHome s a1).2 = keep s := by
  unfold actingHome
  try dsimp only
  repeat' split
  all_goals simp [keep_fold, foldl_keep, mapFold_keep, *]

@[simp] theorem fenceOne_keep (s a1) : keep (fenceOne s a1) = keep s := by
  unfold fenceOne
  try dsimp only
  repeat' split
  all_goals simp [keep_fold, foldl_keep, mapFold_keep, *]

@[simp] theorem fenceBody_keep (a0 s) : keep (fenceBody a0 s).1 = keep s := by
  unfold fenceBody
  try dsimp only
  repeat' split
  all_goals simp [keep_fold, foldl_keep, mapFold_keep, *]

theorem execFence_keep (a0 s) (t : State) (h : execFence a0 s = .next t) : keep t = keep s := by
  unfold execFence at h
  refine runHuavo_keep _ _ _ _ (fun d s => ?_) _ h
  try dsimp only
  simp [keep_fold, foldl_keep, mapFold_keep]

@[simp] theorem answerAns_keep (s a1 a2 a3 a4) : keep (answerAns s a1 a2 a3 a4) = keep s := by
  unfold answerAns
  try dsimp only
  repeat' split
  all_goals simp [keep_fold, foldl_keep, mapFold_keep, *]

theorem forwardedBody_keep (n body) (h : forwardedBody n = some body) (d s) : keep (body d s).1 = keep s := by
  unfold forwardedBody at h
  split at h
  all_goals first | (cases h; done) | (cases h; simp)

@[simp] theorem forwardedOp_keep (s m) : keep (forwardedOp s m) = keep s := by
  unfold forwardedOp
  extract_lets opcode d dom
  split
  · simp
  · rename_i body hb
    split
    · simp
    · split
      · simp
      · simp [forwardedBody_keep _ _ hb]

theorem execCmdForward_keep (a0 s) (t : State) (h : execCmdForward a0 s = .next t) : keep t = keep s := by
  unfold execCmdForward at h
  try dsimp only at h
  cases h
  repeat' split
  all_goals simp [keep_fold, foldl_keep, mapFold_keep, *]

@[simp] theorem answerTo_keep (s a1 a2 a3 a4 a5 a6 a7) : keep (answerTo s a1 a2 a3 a4 a5 a6 a7) = keep s := by
  unfold answerTo
  try dsimp only
  repeat' split
  all_goals simp [keep_fold, foldl_keep, mapFold_keep, *]

theorem execCmdAnswer_keep (a0 s) (t : State) (h : execCmdAnswer a0 s = .next t) : keep t = keep s := by
  unfold execCmdAnswer at h
  try dsimp only at h
  repeat' split at h
  all_goals grind [keep_fold, foldl_keep, mapFold_keep, runMgmt_keep, answerTo_keep]

@[simp] theorem forwardLate_keep (s a1) : keep (forwardLate s a1) = keep s := by
  unfold forwardLate
  try dsimp only
  repeat' split
  all_goals simp [keep_fold, foldl_keep, mapFold_keep, *]

theorem execForwardTimeout_keep (a0 a1 s) (t : State) (h : execForwardTimeout a0 a1 s = .next t) : keep t = keep s := by
  unfold execForwardTimeout at h
  try dsimp only at h
  cases h
  simp [keep_fold, foldl_keep, mapFold_keep, *]

/-! ### NetCmds -/

@[simp] theorem netPort_keep (s a1 a2) : keep (netPort s a1 a2).1 = keep s := by
  unfold netPort
  try dsimp only
  repeat' split
  all_goals simp [keep_fold, foldl_keep, mapFold_keep, *]

@[simp] theorem netConfigBody_keep (a0 s) : keep (netConfigBody a0 s).1 = keep s := by
  grind [netConfigBody, keep_fold, keep_mk, foldl_keep, mapFold_keep, modNet_keep, netPort_keep, failIf_keep]

theorem execNetConfigPort_keep (a0 s) (t : State) (h : execNetConfigPort a0 s = .next t) : keep t = keep s := by
  unfold execNetConfigPort at h
  refine runHuavo_keep _ _ _ _ (fun d s => ?_) _ h
  try dsimp only
  simp [keep_fold, foldl_keep, mapFold_keep]

theorem execNetConfigAddresses_keep (a0 s) (t : State) (h : execNetConfigAddresses a0 s = .next t) : keep t = keep s := by
  unfold execNetConfigAddresses at h
  refine runHuavo_keep _ _ _ _ (fun d s => ?_) _ h
  try dsimp only
  simp [keep_fold, foldl_keep, mapFold_keep]

theorem execNetConfigLocality_keep (a0 s) (t : State) (h : execNetConfigLocality a0 s = .next t) : keep t = keep s := by
  unfold execNetConfigLocality at h
  refine runHuavo_keep _ _ _ _ (fun d s => ?_) _ h
  try dsimp only
  simp [keep_fold, foldl_keep, mapFold_keep]

@[simp] theorem bodyPdCreate_keep (a0 s) : keep (bodyPdCreate a0 s).1 = keep s := by
  simp [bodyPdCreate, keep_fold, foldl_keep, mapFold_keep, *]

theorem execPdCreate_keep (a0 s) (t : State) (h : execPdCreate a0 s = .next t) : keep t = keep s := by
  unfold execPdCreate at h
  refine runHuavo_keep _ _ _ _ (fun d s => ?_) _ h
  try dsimp only
  simp [keep_fold, foldl_keep, mapFold_keep]

@[simp] theorem bodyPdDestroy_keep (a0 s) : keep (bodyPdDestroy a0 s).1 = keep s := by
  simp [bodyPdDestroy, keep_fold, foldl_keep, mapFold_keep, *]

theorem execPdDestroy_keep (a0 s) (t : State) (h : execPdDestroy a0 s = .next t) : keep t = keep s := by
  unfold execPdDestroy at h
  refine runHuavo_keep _ _ _ _ (fun d s => ?_) _ h
  try dsimp only
  simp [keep_fold, foldl_keep, mapFold_keep]

@[simp] theorem bodyRegionRegister_keep (a0 s) : keep (bodyRegionRegister a0 s).1 = keep s := by
  unfold bodyRegionRegister
  try dsimp only
  repeat' split
  all_goals simp [keep_fold, foldl_keep, mapFold_keep, *]

theorem execRegionRegister_keep (a0 s) (t : State) (h : execRegionRegister a0 s = .next t) : keep t = keep s := by
  unfold execRegionRegister at h
  refine runHuavo_keep _ _ _ _ (fun d s => ?_) _ h
  try dsimp only
  repeat' split
  all_goals simp [keep_fold, foldl_keep, mapFold_keep]

@[simp] theorem bodyRegionRevoke_keep (a0 s) : keep (bodyRegionRevoke a0 s).1 = keep s := by
  unfold bodyRegionRevoke
  try dsimp only
  repeat' split
  all_goals simp [keep_fold, foldl_keep, mapFold_keep, *]

theorem execRegionRevoke_keep (a0 s) (t : State) (h : execRegionRevoke a0 s = .next t) : keep t = keep s := by
  unfold execRegionRevoke at h
  refine runHuavo_keep _ _ _ _ (fun d s => ?_) _ h
  try dsimp only
  repeat' split
  all_goals simp [keep_fold, foldl_keep, mapFold_keep]

@[simp] theorem bodyQueueCreate_keep (a0 s) : keep (bodyQueueCreate a0 s).1 = keep s := by
  unfold bodyQueueCreate
  try dsimp only
  repeat' split
  all_goals simp [keep_fold, foldl_keep, mapFold_keep, *]

theorem execQueueCreate_keep (a0 s) (t : State) (h : execQueueCreate a0 s = .next t) : keep t = keep s := by
  unfold execQueueCreate at h
  refine runHuavo_keep _ _ _ _ (fun d s => ?_) _ h
  try dsimp only
  repeat' split
  all_goals simp [keep_fold, foldl_keep, mapFold_keep]

@[simp] theorem bodyQueueModify_keep (a0 s) : keep (bodyQueueModify a0 s).1 = keep s := by
  unfold bodyQueueModify
  try dsimp only
  repeat' split
  all_goals simp [keep_fold, foldl_keep, mapFold_keep, *]

theorem execQueueModify_keep (a0 s) (t : State) (h : execQueueModify a0 s = .next t) : keep t = keep s := by
  unfold execQueueModify at h
  refine runHuavo_keep _ _ _ _ (fun d s => ?_) _ h
  try dsimp only
  repeat' split
  all_goals simp [keep_fold, foldl_keep, mapFold_keep]

@[simp] theorem bodyQueueReset_keep (a0 s) : keep (bodyQueueReset a0 s).1 = keep s := by
  unfold bodyQueueReset
  try dsimp only
  repeat' split
  all_goals simp [keep_fold, foldl_keep, mapFold_keep, *]

theorem execQueueReset_keep (a0 s) (t : State) (h : execQueueReset a0 s = .next t) : keep t = keep s := by
  unfold execQueueReset at h
  refine runHuavo_keep _ _ _ _ (fun d s => ?_) _ h
  try dsimp only
  repeat' split
  all_goals simp [keep_fold, foldl_keep, mapFold_keep]

@[simp] theorem bodyQueueDestroy_keep (a0 s) : keep (bodyQueueDestroy a0 s).1 = keep s := by
  unfold bodyQueueDestroy
  try dsimp only
  repeat' split
  all_goals simp [keep_fold, foldl_keep, mapFold_keep, *]

theorem execQueueDestroy_keep (a0 s) (t : State) (h : execQueueDestroy a0 s = .next t) : keep t = keep s := by
  unfold execQueueDestroy at h
  refine runHuavo_keep _ _ _ _ (fun d s => ?_) _ h
  try dsimp only
  repeat' split
  all_goals simp [keep_fold, foldl_keep, mapFold_keep]

@[simp] theorem bodyCqCreate_keep (a0 s) : keep (bodyCqCreate a0 s).1 = keep s := by
  simp [bodyCqCreate, keep_fold, foldl_keep, mapFold_keep, *]

theorem execCqCreate_keep (a0 s) (t : State) (h : execCqCreate a0 s = .next t) : keep t = keep s := by
  unfold execCqCreate at h
  refine runHuavo_keep _ _ _ _ (fun d s => ?_) _ h
  try dsimp only
  simp [keep_fold, foldl_keep, mapFold_keep]

@[simp] theorem bodyCqDestroy_keep (a0 s) : keep (bodyCqDestroy a0 s).1 = keep s := by
  unfold bodyCqDestroy
  try dsimp only
  repeat' split
  all_goals simp [keep_fold, foldl_keep, mapFold_keep, *]

theorem execCqDestroy_keep (a0 s) (t : State) (h : execCqDestroy a0 s = .next t) : keep t = keep s := by
  unfold execCqDestroy at h
  refine runHuavo_keep _ _ _ _ (fun d s => ?_) _ h
  try dsimp only
  repeat' split
  all_goals simp [keep_fold, foldl_keep, mapFold_keep]

@[simp] theorem bodyShaperSet_keep (a0 s) : keep (bodyShaperSet a0 s).1 = keep s := by
  simp [bodyShaperSet, keep_fold, foldl_keep, mapFold_keep, *]

theorem execShaperSet_keep (a0 s) (t : State) (h : execShaperSet a0 s = .next t) : keep t = keep s := by
  unfold execShaperSet at h
  refine runHuavo_keep _ _ _ _ (fun d s => ?_) _ h
  try dsimp only
  simp [keep_fold, foldl_keep, mapFold_keep]

@[simp] theorem bodyDomainNetSet_keep (a0 s) : keep (bodyDomainNetSet a0 s).1 = keep s := by
  simp [bodyDomainNetSet, keep_fold, foldl_keep, mapFold_keep, *]

theorem execDomainNetSet_keep (a0 s) (t : State) (h : execDomainNetSet a0 s = .next t) : keep t = keep s := by
  unfold execDomainNetSet at h
  refine runHuavo_keep _ _ _ _ (fun d s => ?_) _ h
  try dsimp only
  simp [keep_fold, foldl_keep, mapFold_keep]

@[simp] theorem bodyJobKeyInstall_keep (a0 s) : keep (bodyJobKeyInstall a0 s).1 = keep s := by
  grind [bodyJobKeyInstall, keep_fold, keep_mk, foldl_keep, mapFold_keep, newKey_keep, modNet_keep, failIf_keep]

theorem execJobKeyInstall_keep (a0 s) (t : State) (h : execJobKeyInstall a0 s = .next t) : keep t = keep s := by
  unfold execJobKeyInstall at h
  refine runHuavo_keep _ _ _ _ (fun d s => ?_) _ h
  try dsimp only
  simp [keep_fold, foldl_keep, mapFold_keep]

/-! ### Colls -/

@[simp] theorem bodySelHeatSet_keep (a0 s) : keep (bodySelHeatSet a0 s).1 = keep s := by
  grind [bodySelHeatSet, keep_fold, keep_mk, foldl_keep, mapFold_keep, withObj_keep, modH_keep, failIf_keep]

theorem execSelHeatSet_keep (a0 s) (t : State) (h : execSelHeatSet a0 s = .next t) : keep t = keep s := by
  unfold execSelHeatSet at h
  refine runHuavo_keep _ _ _ _ (fun d s => ?_) _ h
  try dsimp only
  simp [keep_fold, foldl_keep, mapFold_keep]

@[simp] theorem bindFilter_keep (s a1 a2) : keep (bindFilter s a1 a2) = keep s := by
  simp [bindFilter, keep_fold, foldl_keep, mapFold_keep, *]

@[simp] theorem bodyFilterBind_keep (a0 s) : keep (bodyFilterBind a0 s).1 = keep s := by
  grind [bodyFilterBind, keep_fold, keep_mk, foldl_keep, mapFold_keep, bindFilter_keep, renewBy_keep, withObj_keep,
      failIf_keep]

theorem execFilterBind_keep (a0 s) (t : State) (h : execFilterBind a0 s = .next t) : keep t = keep s := by
  unfold execFilterBind at h
  refine runHuavo_keep _ _ _ _ (fun d s => ?_) _ h
  try dsimp only
  simp [keep_fold, foldl_keep, mapFold_keep]

@[simp] theorem bodyFilterUnbind_keep (a0 s) : keep (bodyFilterUnbind a0 s).1 = keep s := by
  grind [bodyFilterUnbind, keep_fold, keep_mk, foldl_keep, mapFold_keep, bindFilter_keep, renewBy_keep, withObj_keep,
      failIf_keep]

theorem execFilterUnbind_keep (a0 s) (t : State) (h : execFilterUnbind a0 s = .next t) : keep t = keep s := by
  unfold execFilterUnbind at h
  refine runHuavo_keep _ _ _ _ (fun d s => ?_) _ h
  try dsimp only
  simp [keep_fold, foldl_keep, mapFold_keep]

@[simp] theorem clearAudit_keep (s a1 a2) : keep (clearAudit s a1 a2) = keep s := by
  simp [clearAudit, keep_fold, foldl_keep, mapFold_keep, *]

@[simp] theorem bodyAuditRead_keep (a0 s) : keep (bodyAuditRead a0 s).1 = keep s := by
  unfold bodyAuditRead
  try dsimp only
  repeat' split
  all_goals simp [keep_fold, foldl_keep, mapFold_keep, *]

theorem execAuditRead_keep (a0 s) (t : State) (h : execAuditRead a0 s = .next t) : keep t = keep s := by
  unfold execAuditRead at h
  refine runHuavo_keep _ _ _ _ (fun d s => ?_) _ h
  try dsimp only
  repeat' split
  all_goals simp [keep_fold, foldl_keep, mapFold_keep]

@[simp] theorem setColl_keep (s a1 a2 a3) : keep (setColl s a1 a2 a3) = keep s := by
  simp [setColl, keep_fold, foldl_keep, mapFold_keep, *]

theorem drawColl_keep (s a1 a2 a3 a4) (t : State) (r0) (h : drawColl s a1 a2 a3 a4 = some (r0,
    t)) : keep t = keep s := by
  induction a3 generalizing s a4 r0 t with
  | zero => simp [drawColl] at h; simp [h]
  | succ n ih =>
    unfold drawColl at h
    dsimp only [newIdentity] at h
    split at h
    · cases h
    · rename_i hd
      rw [Option.map_eq_some_iff] at h
      obtain ⟨u, hu, h2⟩ := h
      cases h2
      rw [ih _ _ _ _ hu]
      simp [keep_fold, drawFrame_keep _ _ _ _ _ _ _ _ hd]

@[simp] theorem collWrite_keep (s a1 a2 a3 a4) : keep (collWrite s a1 a2 a3 a4) = keep s := by
  unfold collWrite
  try dsimp only
  repeat' split
  all_goals simp [keep_fold, foldl_keep, mapFold_keep, *]

@[simp] theorem writeEntry_keep (s a1 a2) : keep (writeEntry s a1 a2) = keep s := by
  simp [writeEntry, keep_fold, foldl_keep, mapFold_keep, *]

@[simp] theorem writeCents_keep (s a1) : keep (writeCents s a1) = keep s := by
  simp [writeCents, keep_fold, foldl_keep, mapFold_keep, *]

@[simp] theorem collIndex_keep (s a1 a2 a3) : keep (collIndex s a1 a2 a3) = keep s := by
  unfold collIndex
  try dsimp only
  repeat' split
  all_goals simp [keep_fold, foldl_keep, mapFold_keep, *]

@[simp] theorem collCreate_keep (a0 s) : keep (collCreate a0 s).1 = keep s := by
  unfold collCreate
  repeat' first | apply failIf_keep | dsimp only
  split
  · rfl
  · rename_i hd
    rw [Option.bind_eq_some_iff] at hd
    obtain ⟨u, -, hd⟩ := hd
    simp [drawColl_keep _ _ _ _ _ _ _ hd]

theorem execCollCreate_keep (a0 s) (t : State) (h : execCollCreate a0 s = .next t) : keep t = keep s := by
  unfold execCollCreate at h
  refine runHuavo_keep _ _ _ _ (fun d s => ?_) _ h
  try dsimp only
  simp [keep_fold, foldl_keep, mapFold_keep]

@[simp] theorem collDestroy_keep (a0 s) : keep (collDestroy a0 s).1 = keep s := by
  grind [collDestroy, keep_fold, keep_mk, foldl_keep, mapFold_keep, withObj_keep, dropRef_keep, failIf_keep]

theorem execCollDestroy_keep (a0 s) (t : State) (h : execCollDestroy a0 s = .next t) : keep t = keep s := by
  unfold execCollDestroy at h
  refine runHuavo_keep _ _ _ _ (fun d s => ?_) _ h
  try dsimp only
  simp [keep_fold, foldl_keep, mapFold_keep]

@[simp] theorem collInsert_keep (a0 s) : keep (collInsert a0 s).1 = keep s := by
  grind [collInsert, keep_fold, keep_mk, foldl_keep, mapFold_keep, collWrite_keep, collIndex_keep, useFree_keep,
      withBuffer_keep, chargePcie_keep, writeEntry_keep, chargeDram_keep, withObj_keep, failIf_keep]

theorem execCollInsert_keep (a0 s) (t : State) (h : execCollInsert a0 s = .next t) : keep t = keep s := by
  unfold execCollInsert at h
  refine runHuavo_keep _ _ _ _ (fun d s => ?_) _ h
  try dsimp only
  simp [keep_fold, foldl_keep, mapFold_keep]

@[simp] theorem collDelete_keep (a0 s) : keep (collDelete a0 s).1 = keep s := by
  grind [collDelete, keep_fold, keep_mk, foldl_keep, mapFold_keep, collIndex_keep, writeEntry_keep, chargeDram_keep,
      withObj_keep, failIf_keep]

theorem execCollDelete_keep (a0 s) (t : State) (h : execCollDelete a0 s = .next t) : keep t = keep s := by
  unfold execCollDelete at h
  refine runHuavo_keep _ _ _ _ (fun d s => ?_) _ h
  try dsimp only
  simp [keep_fold, foldl_keep, mapFold_keep]

@[simp] theorem putRecords_keep (s a1 a2 a3 a4) : keep (putRecords s a1 a2 a3 a4) = keep s := by
  unfold putRecords
  try dsimp only
  repeat' split
  all_goals simp [keep_fold, foldl_keep, mapFold_keep, *]

@[simp] theorem endMerge_keep (s a1 a2 a3 a4 a5) : keep (endMerge s a1 a2 a3 a4 a5) = keep s := by
  simp [endMerge, keep_fold, foldl_keep, mapFold_keep, *]

@[simp] theorem collQuery_keep (a0 s) : keep (collQuery a0 s).1 = keep s := by
  grind [collQuery, keep_fold, keep_mk, foldl_keep, mapFold_keep, putRecords_keep, withBuffer_keep, chargePcie_keep,
      chargeDram_keep, internalQueue_keep, withObj_keep, launchInternal_keep, failIf_keep]

theorem execCollQuery_keep (a0 s) (t : State) (h : execCollQuery a0 s = .next t) : keep t = keep s := by
  unfold execCollQuery at h
  refine runHuavo_keep _ _ _ _ (fun d s => ?_) _ h
  try dsimp only
  simp [keep_fold, foldl_keep, mapFold_keep]

@[simp] theorem selectMergeOp_keep (s a1) : keep (selectMergeOp s a1) = keep s := by
  unfold selectMergeOp
  try dsimp only
  repeat' split
  all_goals simp [keep_fold, foldl_keep, mapFold_keep, *]

theorem execSelectMerge_keep (a0 s) (t : State) (h : execSelectMerge a0 s = .next t) : keep t = keep s := by
  unfold execSelectMerge at h
  try dsimp only at h
  cases h
  simp [keep_fold, foldl_keep, mapFold_keep, *]

@[simp] theorem mergeLate_keep (s a1 a2 a3) : keep (mergeLate s a1 a2 a3) = keep s := by
  unfold mergeLate
  try dsimp only
  repeat' split
  all_goals simp [keep_fold, foldl_keep, mapFold_keep, *]

theorem execMergeTimeout_keep (a0 a1 a2 a3 s) (t : State) (h : execMergeTimeout a0 a1 a2 a3 s = .next t) : keep t = keep s := by
  unfold execMergeTimeout at h
  try dsimp only at h
  cases h
  simp [keep_fold, foldl_keep, mapFold_keep, *]

end Sys2Proof.Machine
end

