-- ==== Sys2Proof/Laws/KeepHost.lean ====
section
/-! SUPPORT. What keeps the queue, the bulk window and the fuses: epochs, device, security, domain, model and heat commands. One lemma per operation. -/

set_option Elab.async false

namespace Sys2Proof.Machine

set_option linter.unusedSimpArgs false
set_option linter.unusedTactic false
set_option linter.unreachableTactic false

/-! ### Epochs -/

@[simp] theorem closeEpoch_keep (s a1 a2) : keep (closeEpoch s a1 a2) = keep s := by
  simp [closeEpoch, keep_fold, foldl_keep, mapFold_keep, *]

@[simp] theorem applyShadows_keep (s) : keep (applyShadows s) = keep s := by
  simp [applyShadows, keep_fold, foldl_keep, mapFold_keep, *]

@[simp] theorem releaseDelayed_keep (s) : keep (releaseDelayed s) = keep s := by
  simp [releaseDelayed, keep_fold, foldl_keep, mapFold_keep, *]

@[simp] theorem reportEpoch_keep (s) : keep (reportEpoch s) = keep s := by
  unfold reportEpoch
  try dsimp only
  repeat' split
  all_goals simp [keep_fold, foldl_keep, mapFold_keep, *]

@[simp] theorem beginEpoch_keep (s) : keep (beginEpoch s) = keep s := by
  simp [beginEpoch, keep_fold, foldl_keep, mapFold_keep, *]

theorem execEpochBoundary_keep (a0 a1 s) (t : State) (h : execEpochBoundary a0 a1 s = .next t) : keep t = keep s := by
  unfold execEpochBoundary at h
  try dsimp only at h
  cases h
  repeat' split
  all_goals simp [keep_fold, foldl_keep, mapFold_keep, *]

@[simp] theorem setTState_keep (s a1) : keep (setTState s a1) = keep s := by
  grind [setTState, keep_fold, keep_mk, foldl_keep, mapFold_keep]

@[simp] theorem setTSource_keep (s a1) : keep (setTSource s a1) = keep s := by
  grind [setTSource, keep_fold, keep_mk, foldl_keep, mapFold_keep]

@[simp] theorem noMaster_keep (s) : keep (noMaster s) = keep s := by
  unfold noMaster
  try dsimp only
  repeat' split
  all_goals simp [keep_fold, foldl_keep, mapFold_keep, *]

@[simp] theorem selectMaster_keep (s) : keep (selectMaster s) = keep s := by
  unfold selectMaster
  try dsimp only
  repeat' split
  all_goals simp [keep_fold, foldl_keep, mapFold_keep, *]

@[simp] theorem servo_keep (s) : keep (servo s) = keep s := by
  simp [servo, keep_fold, foldl_keep, mapFold_keep, *]

@[simp] theorem jump_keep (s a1) : keep (jump s a1) = keep s := by
  unfold jump
  try dsimp only
  repeat' split
  all_goals simp [keep_fold, foldl_keep, mapFold_keep, *]

@[simp] theorem syncJudge_keep (s a1) : keep (syncJudge s a1) = keep s := by
  unfold syncJudge
  try dsimp only
  repeat' split
  all_goals simp [keep_fold, foldl_keep, mapFold_keep, *]

@[simp] theorem syncOp_keep (s a1) : keep (syncOp s a1) = keep s := by
  grind [syncOp, keep_fold, keep_mk, foldl_keep, mapFold_keep, syncJudge_keep]

@[simp] theorem setMaster_keep (s a1 a2) : keep (setMaster s a1 a2) = keep s := by
  unfold setMaster
  try dsimp only
  repeat' split
  all_goals simp [keep_fold, foldl_keep, mapFold_keep, *]

@[simp] theorem ptpOp_keep (s a1 a2) : keep (ptpOp s a1 a2) = keep s := by
  unfold ptpOp
  try dsimp only
  repeat' split
  all_goals simp [keep_fold, foldl_keep, mapFold_keep, *]

theorem execPtpMessage_keep (a0 a1 a2 s) (t : State) (h : execPtpMessage a0 a1 a2 s = .next t) : keep t = keep s := by
  unfold execPtpMessage at h
  try dsimp only at h
  cases h
  repeat' split
  all_goals simp [keep_fold, foldl_keep, mapFold_keep, *]

theorem execAnnounceTimeout_keep (a0 s) (t : State) (h : execAnnounceTimeout a0 s = .next t) : keep t = keep s := by
  unfold execAnnounceTimeout at h
  try dsimp only at h
  cases h
  repeat' split
  all_goals simp [keep_fold, foldl_keep, mapFold_keep, *]

theorem execHoldoverDriftWarning_keep (a0 a1 s) (t : State) (h : execHoldoverDriftWarning a0 a1 s = .next t) : keep t = keep s := by
  unfold execHoldoverDriftWarning at h
  try dsimp only at h
  cases h
  repeat' split
  all_goals simp [keep_fold, foldl_keep, mapFold_keep, *]

@[simp] theorem dmaOwner_keep (s a1) : keep (dmaOwner s a1) = keep s := by
  unfold dmaOwner
  try dsimp only
  repeat' split
  all_goals simp [keep_fold, foldl_keep, mapFold_keep, *]

@[simp] theorem dmaAbandon_keep (s a1) : keep (dmaAbandon s a1) = keep s := by
  simp [dmaAbandon, keep_fold, foldl_keep, mapFold_keep, *]

theorem execDmaFaultResolved_keep (a0 a1 a2 s) (t : State) (h : execDmaFaultResolved a0 a1 a2 s = .next t) : keep t = keep s := by
  unfold execDmaFaultResolved at h
  try dsimp only at h
  cases h
  repeat' split
  all_goals simp [keep_fold, foldl_keep, mapFold_keep, *]

theorem execDmaNoRoomTimeout_keep (a0 a1 s) (t : State) (h : execDmaNoRoomTimeout a0 a1 s = .next t) : keep t = keep s := by
  unfold execDmaNoRoomTimeout at h
  try dsimp only at h
  cases h
  repeat' split
  all_goals simp [keep_fold, foldl_keep, mapFold_keep, *]

@[simp] theorem hostTimeout_keep (s a1 a2 a3) : keep (hostTimeout s a1 a2 a3) = keep s := by
  unfold hostTimeout
  try dsimp only
  repeat' split
  all_goals simp [keep_fold, foldl_keep, mapFold_keep, *]

theorem execPcieCompletionTimeout_keep (a0 a1 a2 a3 a4 s) (t : State) (h : execPcieCompletionTimeout a0 a1 a2 a3 a4 s = .next t) : keep t = keep s := by
  unfold execPcieCompletionTimeout at h
  try dsimp only at h
  cases h
  repeat' split
  all_goals simp [keep_fold, foldl_keep, mapFold_keep, *]

/-! ### DeviceCmds -/

@[simp] theorem bodyDeviceQuery_keep (a0 s) : keep (bodyDeviceQuery a0 s).1 = keep s := by
  simp [bodyDeviceQuery, keep_fold, foldl_keep, mapFold_keep, *]

theorem execDeviceQuery_keep (a0 s) (t : State) (h : execDeviceQuery a0 s = .next t) : keep t = keep s := by
  unfold execDeviceQuery at h
  refine runHuavo_keep _ _ _ _ (fun d s => ?_) _ h
  try dsimp only
  repeat' split
  all_goals simp [keep_fold, foldl_keep, mapFold_keep]

@[simp] theorem bodyFuncAssign_keep (a0 s) : keep (bodyFuncAssign a0 s).1 = keep s := by
  simp [bodyFuncAssign, keep_fold, foldl_keep, mapFold_keep, *]

theorem execFuncAssign_keep (a0 s) (t : State) (h : execFuncAssign a0 s = .next t) : keep t = keep s := by
  unfold execFuncAssign at h
  refine runHuavo_keep _ _ _ _ (fun d s => ?_) _ h
  try dsimp only
  simp [keep_fold, foldl_keep, mapFold_keep]

@[simp] theorem bodyFuncUnassign_keep (a0 s) : keep (bodyFuncUnassign a0 s).1 = keep s := by
  grind [bodyFuncUnassign, keep_fold, keep_mk, foldl_keep, mapFold_keep, flrOp_keep, unassign_keep, failIf_keep]

theorem execFuncUnassign_keep (a0 s) (t : State) (h : execFuncUnassign a0 s = .next t) : keep t = keep s := by
  unfold execFuncUnassign at h
  refine runHuavo_keep _ _ _ _ (fun d s => ?_) _ h
  try dsimp only
  simp [keep_fold, foldl_keep, mapFold_keep]

@[simp] theorem timeConfig_keep (a0 s) : keep (timeConfig a0 s).1 = keep s := by
  grind [timeConfig, keep_fold, keep_mk, foldl_keep, mapFold_keep, failIf_keep]

theorem execTimeConfig_keep (a0 s) (t : State) (h : execTimeConfig a0 s = .next t) : keep t = keep s := by
  unfold execTimeConfig at h
  refine runHuavo_keep _ _ _ _ (fun d s => ?_) _ h
  try dsimp only
  simp [keep_fold, foldl_keep, mapFold_keep]

@[simp] theorem bodyPowerLimit_keep (a0 s) : keep (bodyPowerLimit a0 s).1 = keep s := by
  simp [bodyPowerLimit, keep_fold, foldl_keep, mapFold_keep, *]

theorem execPowerLimit_keep (a0 s) (t : State) (h : execPowerLimit a0 s = .next t) : keep t = keep s := by
  unfold execPowerLimit at h
  refine runHuavo_keep _ _ _ _ (fun d s => ?_) _ h
  try dsimp only
  simp [keep_fold, foldl_keep, mapFold_keep]

@[simp] theorem moveDomain_keep (s a1 a2) : keep (moveDomain s a1 a2) = keep s := by
  simp [moveDomain, keep_fold, foldl_keep, mapFold_keep, *]

@[simp] theorem moveSeq_keep (s a1 a2) : keep (moveSeq s a1 a2) = keep s := by
  simp [moveSeq, keep_fold, foldl_keep, mapFold_keep, *]

@[simp] theorem ctrlTransfer_keep (a0 s) : keep (ctrlTransfer a0 s).1 = keep s := by
  grind [ctrlTransfer, keep_fold, keep_mk, foldl_keep, mapFold_keep, moveDomain_keep, moveSeq_keep, renewBy_keep,
      withObj_keep, failIf_keep]

theorem execCtrlTransfer_keep (a0 s) (t : State) (h : execCtrlTransfer a0 s = .next t) : keep t = keep s := by
  unfold execCtrlTransfer at h
  refine runHuavo_keep _ _ _ _ (fun d s => ?_) _ h
  try dsimp only
  simp [keep_fold, foldl_keep, mapFold_keep]

@[simp] theorem ctrlTake_keep (a0 s) : keep (ctrlTake a0 s).1 = keep s := by
  grind [ctrlTake, keep_fold, keep_mk, foldl_keep, mapFold_keep, dropHeats_keep, moveDomain_keep, moveSeq_keep,
      withObj_keep, failIf_keep]

theorem execCtrlTake_keep (a0 s) (t : State) (h : execCtrlTake a0 s = .next t) : keep t = keep s := by
  unfold execCtrlTake at h
  refine runHuavo_keep _ _ _ _ (fun d s => ?_) _ h
  try dsimp only
  simp [keep_fold, foldl_keep, mapFold_keep]

@[simp] theorem acctRead_keep (a0 s) : keep (acctRead a0 s).1 = keep s := by
  grind [acctRead, keep_fold, keep_mk, foldl_keep, mapFold_keep, putOut_keep, withObj_keep, failIf_keep]

theorem execAcctRead_keep (a0 s) (t : State) (h : execAcctRead a0 s = .next t) : keep t = keep s := by
  unfold execAcctRead at h
  refine runHuavo_keep _ _ _ _ (fun d s => ?_) _ h
  try dsimp only
  simp [keep_fold, foldl_keep, mapFold_keep]

@[simp] theorem counterRead_keep (a0 s) : keep (counterRead a0 s).1 = keep s := by
  grind [counterRead, keep_fold, keep_mk, foldl_keep, mapFold_keep, putOut_keep, withObj_keep, failIf_keep]

theorem execCounterRead_keep (a0 s) (t : State) (h : execCounterRead a0 s = .next t) : keep t = keep s := by
  unfold execCounterRead at h
  refine runHuavo_keep _ _ _ _ (fun d s => ?_) _ h
  try dsimp only
  simp [keep_fold, foldl_keep, mapFold_keep]

/-! ### Calib -/

@[simp] theorem flashRecord_keep (s a1) : keep (flashRecord s a1) = keep s := by
  unfold flashRecord
  try dsimp only
  repeat' split
  all_goals simp [keep_fold, foldl_keep, mapFold_keep, *]

@[simp] theorem onDemandTests_keep (s a1) : keep (onDemandTests s a1) = keep s := by
  unfold onDemandTests
  try dsimp only
  repeat' split
  all_goals simp [keep_fold, foldl_keep, mapFold_keep, *]

@[simp] theorem bodyCalLoad_keep (a0 s) : keep (bodyCalLoad a0 s).1 = keep s := by
  unfold bodyCalLoad
  try dsimp only
  repeat' split
  all_goals simp [keep_fold, foldl_keep, mapFold_keep, *]

theorem execCalLoad_keep (a0 s) (t : State) (h : execCalLoad a0 s = .next t) : keep t = keep s := by
  unfold execCalLoad at h
  refine runHuavo_keep _ _ _ _ (fun d s => ?_) _ h
  try dsimp only
  repeat' split
  all_goals simp [keep_fold, foldl_keep, mapFold_keep]

@[simp] theorem bodyCalQuery_keep (a0 s) : keep (bodyCalQuery a0 s).1 = keep s := by
  simp [bodyCalQuery, keep_fold, foldl_keep, mapFold_keep, *]

theorem execCalQuery_keep (a0 s) (t : State) (h : execCalQuery a0 s = .next t) : keep t = keep s := by
  unfold execCalQuery at h
  refine runHuavo_keep _ _ _ _ (fun d s => ?_) _ h
  try dsimp only
  simp [keep_fold, foldl_keep, mapFold_keep]

@[simp] theorem bodySelftest_keep (a0 s) : keep (bodySelftest a0 s).1 = keep s := by
  grind [bodySelftest, keep_fold, keep_mk, foldl_keep, mapFold_keep, failIf_keep]

theorem execSelftest_keep (a0 s) (t : State) (h : execSelftest a0 s = .next t) : keep t = keep s := by
  unfold execSelftest at h
  refine runHuavo_keep _ _ _ _ (fun d s => ?_) _ h
  try dsimp only
  simp [keep_fold, foldl_keep, mapFold_keep]

/-! ### Secure -/

@[simp] theorem spdmAns_keep (s a1 a2 a3) : keep (spdmAns s a1 a2 a3) = keep s := by
  simp [spdmAns, keep_fold, foldl_keep, mapFold_keep, *]

@[simp] theorem setConn_keep (s a1 a2) : keep (setConn s a1 a2) = keep s := by
  unfold setConn
  try dsimp only
  repeat' split
  all_goals simp [keep_fold, foldl_keep, mapFold_keep, *]

@[simp] theorem spdmReq_keep (s p k) (h : keep k = keep s) : keep (spdmReq s p k) = keep s := by
  unfold spdmReq; repeat' split
  all_goals simp [h]

theorem execGetVersion_keep (a0 s) (t : State) (h : execGetVersion a0 s = .next t) : keep t = keep s := by
  unfold execGetVersion at h
  try dsimp only at h
  cases h
  repeat' split
  all_goals simp [keep_fold, foldl_keep, mapFold_keep, *]

theorem execNegotiateAlgorithms_keep (a0 a1 s) (t : State) (h : execNegotiateAlgorithms a0 a1 s = .next t) : keep t = keep s := by
  unfold execNegotiateAlgorithms at h
  try dsimp only at h
  cases h
  repeat' split
  all_goals simp [keep_fold, foldl_keep, mapFold_keep, *]

@[simp] theorem signed_keep (s a1) : keep (signed s a1) = keep s := by
  simp [signed, keep_fold, foldl_keep, mapFold_keep, *]

theorem execGetCertificate_keep (a0 a1 s) (t : State) (h : execGetCertificate a0 a1 s = .next t) : keep t = keep s := by
  unfold execGetCertificate at h
  try dsimp only at h
  cases h
  repeat' split
  all_goals simp [keep_fold, foldl_keep, mapFold_keep, *]

theorem execChallenge_keep (a0 a1 s) (t : State) (h : execChallenge a0 a1 s = .next t) : keep t = keep s := by
  unfold execChallenge at h
  try dsimp only at h
  cases h
  repeat' split
  all_goals simp [keep_fold, foldl_keep, mapFold_keep, *]

theorem execAltSig_keep (a0 a1 a2 s) (t : State) (h : execAltSig a0 a1 a2 s = .next t) : keep t = keep s := by
  unfold execAltSig at h
  try dsimp only at h
  cases h
  repeat' split
  all_goals simp [keep_fold, foldl_keep, mapFold_keep, *]

@[simp] theorem dropSession_keep (s a1) : keep (dropSession s a1) = keep s := by
  simp [dropSession, keep_fold, foldl_keep, mapFold_keep, *]

@[simp] theorem endSession_keep (s a1) : keep (endSession s a1) = keep s := by
  unfold endSession
  try dsimp only
  repeat' split
  all_goals simp [keep_fold, foldl_keep, mapFold_keep, *]

@[simp] theorem newSession_keep (s a1) : keep (newSession s a1).2 = keep s := by
  simp [newSession, keep_fold, foldl_keep, mapFold_keep, *]

theorem execKeyExchange_keep (a0 a1 a2 s) (t : State) (h : execKeyExchange a0 a1 a2 s = .next t) : keep t = keep s := by
  unfold execKeyExchange at h
  try dsimp only at h
  cases h
  repeat' split
  all_goals simp [keep_fold, foldl_keep, mapFold_keep, *]

@[simp] theorem modSession_keep (s a1 a2) : keep (modSession s a1 a2) = keep s := by
  simp [modSession, keep_fold, foldl_keep, mapFold_keep, *]

theorem execFinish_keep (a0 a1 a2 a3 a4 s) (t : State) (h : execFinish a0 a1 a2 a3 a4 s = .next t) : keep t = keep s := by
  unfold execFinish at h
  try dsimp only at h
  cases h
  repeat' split
  all_goals simp [keep_fold, foldl_keep, mapFold_keep, *]

@[simp] theorem kemOp_keep (s a1 a2 a3) : keep (kemOp s a1 a2 a3) = keep s := by
  unfold kemOp
  try dsimp only
  repeat' split
  all_goals simp [keep_fold, foldl_keep, mapFold_keep, *]

theorem execKemExchange_keep (a0 a1 a2 a3 s) (t : State) (h : execKemExchange a0 a1 a2 a3 s = .next t) : keep t = keep s := by
  unfold execKemExchange at h
  try dsimp only at h
  cases h
  simp [keep_fold, foldl_keep, mapFold_keep, *]

theorem execPskExchange_keep (a0 a1 a2 s) (t : State) (h : execPskExchange a0 a1 a2 s = .next t) : keep t = keep s := by
  unfold execPskExchange at h
  try dsimp only at h
  cases h
  repeat' split
  all_goals simp [keep_fold, foldl_keep, mapFold_keep, *]

theorem execPskExpiry_keep (a0 a1 s) (t : State) (h : execPskExpiry a0 a1 s = .next t) : keep t = keep s := by
  unfold execPskExpiry at h
  try dsimp only at h
  cases h
  repeat' split
  all_goals simp [keep_fold, foldl_keep, mapFold_keep, *]

theorem execSessionIdleTimeout_keep (a0 a1 s) (t : State) (h : execSessionIdleTimeout a0 a1 s = .next t) : keep t = keep s := by
  unfold execSessionIdleTimeout at h
  try dsimp only at h
  cases h
  repeat' split
  all_goals simp [keep_fold, foldl_keep, mapFold_keep, *]

theorem execEndSession_keep (a0 a1 a2 s) (t : State) (h : execEndSession a0 a1 a2 s = .next t) : keep t = keep s := by
  unfold execEndSession at h
  try dsimp only at h
  cases h
  repeat' split
  all_goals simp [keep_fold, foldl_keep, mapFold_keep, *]

theorem execGetMeasurements_keep (a0 a1 a2 a3 s) (t : State) (h : execGetMeasurements a0 a1 a2 a3 s = .next t) : keep t = keep s := by
  unfold execGetMeasurements at h
  try dsimp only at h
  cases h
  repeat' split
  all_goals simp [keep_fold, foldl_keep, mapFold_keep, *]

@[simp] theorem officerReq_keep (s a1 a2 a3) (h3 : ∀ x0,
    keep (a3 x0) = keep x0) : keep (officerReq s a1 a2 a3) = keep s := by
  unfold officerReq
  try dsimp only
  repeat' split
  all_goals simp [keep_fold, foldl_keep, mapFold_keep, *]

theorem execIdeKm_keep (a0 a1 a2 a3 a4 s) (t : State) (h : execIdeKm a0 a1 a2 a3 a4 s = .next t) : keep t = keep s := by
  unfold execIdeKm at h
  try dsimp only at h
  cases h
  repeat' split
  all_goals simp [keep_fold, foldl_keep, mapFold_keep, *]

@[simp] theorem setTdisp_keep (s a1 a2 a3) : keep (setTdisp s a1 a2 a3) = keep s := by
  simp [setTdisp, keep_fold, foldl_keep, mapFold_keep, *]

theorem execLockInterface_keep (a0 a1 a2 a3 s) (t : State) (h : execLockInterface a0 a1 a2 a3 s = .next t) : keep t = keep s := by
  unfold execLockInterface at h
  try dsimp only at h
  repeat' split at h
  all_goals grind [keep_fold, foldl_keep, mapFold_keep, clockTo_keep, setTdisp_keep, officerReq_keep, spdmAns_keep]

theorem execStopInterface_keep (a0 a1 a2 s) (t : State) (h : execStopInterface a0 a1 a2 s = .next t) : keep t = keep s := by
  unfold execStopInterface at h
  try dsimp only at h
  cases h
  repeat' split
  all_goals simp [keep_fold, foldl_keep, mapFold_keep, *]

@[simp] theorem useNonce_keep (s) : keep (useNonce s) = keep s := by
  simp [useNonce, keep_fold, foldl_keep, mapFold_keep, *]

@[simp] theorem withToken_keep (a0 s a2 a3) (h3 : ∀ x0,
    keep (a3 x0).1 = keep x0) : keep (withToken a0 s a2 a3).1 = keep s := by
  unfold withToken
  try dsimp only
  repeat' split
  all_goals simp [keep_fold, foldl_keep, mapFold_keep, *]

@[simp] theorem fuseFault_keep (s) : keep (fuseFault s) = keep s := by
  simp [fuseFault, keep_fold, foldl_keep, mapFold_keep, *]

@[simp] theorem bodySecStatus_keep (a0 s) : keep (bodySecStatus a0 s).1 = keep s := by
  simp [bodySecStatus, keep_fold, foldl_keep, mapFold_keep, *]

theorem execSecStatus_keep (a0 s) (t : State) (h : execSecStatus a0 s = .next t) : keep t = keep s := by
  unfold execSecStatus at h
  refine runHuavo_keep _ _ _ _ (fun d s => ?_) _ h
  try dsimp only
  repeat' split
  all_goals simp [keep_fold, foldl_keep, mapFold_keep]

@[simp] theorem bodyLcNonce_keep (a0 s) : keep (bodyLcNonce a0 s).1 = keep s := by
  simp [bodyLcNonce, keep_fold, foldl_keep, mapFold_keep, *]

theorem execLcNonce_keep (a0 s) (t : State) (h : execLcNonce a0 s = .next t) : keep t = keep s := by
  unfold execLcNonce at h
  refine runHuavo_keep _ _ _ _ (fun d s => ?_) _ h
  try dsimp only
  simp [keep_fold, foldl_keep, mapFold_keep]

@[simp] theorem zeroiseTenants_keep (s) : keep (zeroiseTenants s) = keep s := by
  simp [zeroiseTenants, keep_fold, foldl_keep, mapFold_keep, *]

@[simp] theorem startErase_keep (s a1) : keep (startErase s a1) = keep s := by
  simp [startErase, keep_fold, foldl_keep, mapFold_keep, *]

@[simp] theorem bodyZeroise_keep (a0 s) : keep (bodyZeroise a0 s).1 = keep s := by
  simp [bodyZeroise, keep_fold, foldl_keep, mapFold_keep, *]

theorem execZeroise_keep (a0 s) (t : State) (h : execZeroise a0 s = .next t) : keep t = keep s := by
  unfold execZeroise at h
  try dsimp only at h
  cases h
  repeat' split
  all_goals simp [keep_fold, foldl_keep, mapFold_keep, *]

@[simp] theorem debugOpen_keep (a0 s) : keep (debugOpen a0 s).1 = keep s := by
  simp [debugOpen, keep_fold, foldl_keep, mapFold_keep, *]

theorem execDebugOpen_keep (a0 s) (t : State) (h : execDebugOpen a0 s = .next t) : keep t = keep s := by
  unfold execDebugOpen at h
  refine runHuavo_keep _ _ _ _ (fun d s => ?_) _ h
  try dsimp only
  simp [keep_fold, foldl_keep, mapFold_keep]

theorem execPldmSetEffecter_keep (a0 s) (t : State) (h : execPldmSetEffecter a0 s = .next t) : keep t = keep s := by
  unfold execPldmSetEffecter at h
  try dsimp only at h
  cases h
  repeat' split
  all_goals simp [keep_fold, foldl_keep, mapFold_keep, *]

theorem execPldmReadSensor_keep (a0 s) (t : State) (h : execPldmReadSensor a0 s = .next t) : keep t = keep s := by
  unfold execPldmReadSensor at h
  try dsimp only at h
  cases h
  repeat' split
  all_goals simp [keep_fold, foldl_keep, mapFold_keep, *]

/-! ### Domains -/

@[simp] theorem setS_keep (s a1 a2) : keep (setS s a1 a2) = keep s := by
  simp [setS, keep_fold, foldl_keep, mapFold_keep, *]

@[simp] theorem sliceCreate_keep (a0 s) : keep (sliceCreate a0 s).1 = keep s := by
  grind [sliceCreate, keep_fold, keep_mk, foldl_keep, mapFold_keep, clockDue_keep, setS_keep, failIf_keep]

theorem execSliceCreate_keep (a0 s) (t : State) (h : execSliceCreate a0 s = .next t) : keep t = keep s := by
  unfold execSliceCreate at h
  refine runHuavo_keep _ _ _ _ (fun d s => ?_) _ h
  try dsimp only
  simp [keep_fold, foldl_keep, mapFold_keep]

@[simp] theorem sliceModify_keep (a0 s) : keep (sliceModify a0 s).1 = keep s := by
  grind [sliceModify, keep_fold, keep_mk, foldl_keep, mapFold_keep, setS_keep, failIf_keep]

theorem execSliceModify_keep (a0 s) (t : State) (h : execSliceModify a0 s = .next t) : keep t = keep s := by
  unfold execSliceModify at h
  refine runHuavo_keep _ _ _ _ (fun d s => ?_) _ h
  try dsimp only
  simp [keep_fold, foldl_keep, mapFold_keep]

@[simp] theorem sliceDestroy_keep (a0 s) : keep (sliceDestroy a0 s).1 = keep s := by
  grind [sliceDestroy, keep_fold, keep_mk, foldl_keep, mapFold_keep, setS_keep, failIf_keep]

theorem execSliceDestroy_keep (a0 s) (t : State) (h : execSliceDestroy a0 s = .next t) : keep t = keep s := by
  unfold execSliceDestroy at h
  refine runHuavo_keep _ _ _ _ (fun d s => ?_) _ h
  try dsimp only
  simp [keep_fold, foldl_keep, mapFold_keep]

@[simp] theorem sliceQuery_keep (a0 s) : keep (sliceQuery a0 s).1 = keep s := by
  simp [sliceQuery, keep_fold, foldl_keep, mapFold_keep, *]

theorem execSliceQuery_keep (a0 s) (t : State) (h : execSliceQuery a0 s = .next t) : keep t = keep s := by
  unfold execSliceQuery at h
  refine runHuavo_keep _ _ _ _ (fun d s => ?_) _ h
  try dsimp only
  simp [keep_fold, foldl_keep, mapFold_keep]

@[simp] theorem drainOp_keep (s a1) : keep (drainOp s a1) = keep s := by
  unfold drainOp
  try dsimp only
  repeat' split
  all_goals simp [keep_fold, foldl_keep, mapFold_keep, *]

theorem execSliceDrainComplete_keep (a0 a1 s) (t : State) (h : execSliceDrainComplete a0 a1 s = .next t) : keep t = keep s := by
  unfold execSliceDrainComplete at h
  try dsimp only at h
  cases h
  simp [keep_fold, foldl_keep, mapFold_keep, *]

@[simp] theorem bodyShareSet_keep (a0 s) : keep (bodyShareSet a0 s).1 = keep s := by
  grind [bodyShareSet, keep_fold, keep_mk, foldl_keep, mapFold_keep, withObj_keep, failIf_keep]

theorem execShareSet_keep (a0 s) (t : State) (h : execShareSet a0 s = .next t) : keep t = keep s := by
  unfold execShareSet at h
  refine runHuavo_keep _ _ _ _ (fun d s => ?_) _ h
  try dsimp only
  simp [keep_fold, foldl_keep, mapFold_keep]

@[simp] theorem bodyArbSet_keep (a0 s) : keep (bodyArbSet a0 s).1 = keep s := by
  grind [bodyArbSet, keep_fold, keep_mk, foldl_keep, mapFold_keep, failIf_keep]

theorem execArbSet_keep (a0 s) (t : State) (h : execArbSet a0 s = .next t) : keep t = keep s := by
  unfold execArbSet at h
  refine runHuavo_keep _ _ _ _ (fun d s => ?_) _ h
  try dsimp only
  simp [keep_fold, foldl_keep, mapFold_keep]

@[simp] theorem freshDeficits_keep (s a1) : keep (freshDeficits s a1) = keep s := by
  simp [freshDeficits, keep_fold, foldl_keep, mapFold_keep, *]

@[simp] theorem domainCreate_keep (a0 s) : keep (domainCreate a0 s).1 = keep s := by
  grind [domainCreate, keep_fold, keep_mk, foldl_keep, mapFold_keep, freshDeficits_keep, newKey_keep, setD_keep,
      failIf_keep]

theorem execDomainCreate_keep (a0 s) (t : State) (h : execDomainCreate a0 s = .next t) : keep t = keep s := by
  unfold execDomainCreate at h
  refine runHuavo_keep _ _ _ _ (fun d s => ?_) _ h
  try dsimp only
  simp [keep_fold, foldl_keep, mapFold_keep]

@[simp] theorem refuseHeld_keep (s a1) : keep (refuseHeld s a1) = keep s := by
  unfold refuseHeld
  try dsimp only
  repeat' split
  all_goals simp [keep_fold, foldl_keep, mapFold_keep, *]

@[simp] theorem beginReset_keep (s a1 a2) : keep (beginReset s a1 a2) = keep s := by
  simp [beginReset, keep_fold, foldl_keep, mapFold_keep, *]

@[simp] theorem domainReset_keep (a0 a1 s) : keep (domainReset a0 a1 s).1 = keep s := by
  grind [domainReset, keep_fold, keep_mk, foldl_keep, mapFold_keep, beginReset_keep, failIf_keep]

theorem execDomainReset_keep (a0 s) (t : State) (h : execDomainReset a0 s = .next t) : keep t = keep s := by
  unfold execDomainReset at h
  refine runHuavo_keep _ _ _ _ (fun d s => ?_) _ h
  try dsimp only
  simp [keep_fold, foldl_keep, mapFold_keep]

theorem execDomainDestroy_keep (a0 s) (t : State) (h : execDomainDestroy a0 s = .next t) : keep t = keep s := by
  unfold execDomainDestroy at h
  refine runHuavo_keep _ _ _ _ (fun d s => ?_) _ h
  try dsimp only
  simp [keep_fold, foldl_keep, mapFold_keep]

@[simp] theorem domainQuery_keep (a0 s) : keep (domainQuery a0 s).1 = keep s := by
  grind [domainQuery, keep_fold, keep_mk, foldl_keep, mapFold_keep, withObj_keep, failIf_keep]

theorem execDomainQuery_keep (a0 s) (t : State) (h : execDomainQuery a0 s = .next t) : keep t = keep s := by
  unfold execDomainQuery at h
  refine runHuavo_keep _ _ _ _ (fun d s => ?_) _ h
  try dsimp only
  simp [keep_fold, foldl_keep, mapFold_keep]

@[simp] theorem resetTraffic_keep (s a1) : keep (resetTraffic s a1) = keep s := by
  simp [resetTraffic, keep_fold, foldl_keep, mapFold_keep, *]

@[simp] theorem retractDomain_keep (s a1) : keep (retractDomain s a1) = keep s := by
  simp [retractDomain, keep_fold, foldl_keep, mapFold_keep, *]

@[simp] theorem zeroiseDomain_keep (s a1) : keep (zeroiseDomain s a1) = keep s := by
  simp [zeroiseDomain, keep_fold, foldl_keep, mapFold_keep, *]

@[simp] theorem freeDomainFrames_keep (s a1) : keep (freeDomainFrames s a1) = keep s := by
  grind [freeDomainFrames, keep_fold, keep_mk, foldl_keep, mapFold_keep, vacate_keep, takeFrame_keep]

@[simp] theorem freeDomainSeqs_keep (s a1) : keep (freeDomainSeqs s a1) = keep s := by
  simp [freeDomainSeqs, keep_fold, foldl_keep, mapFold_keep, *]

@[simp] theorem freeDomainRest_keep (s a1) : keep (freeDomainRest s a1) = keep s := by
  simp [freeDomainRest, keep_fold, foldl_keep, mapFold_keep, *]

@[simp] theorem endReset_keep (s a1) : keep (endReset s a1) = keep s := by
  unfold endReset
  try dsimp only
  repeat' split
  all_goals simp [keep_fold, foldl_keep, mapFold_keep, *]

@[simp] theorem resetContinue_keep (s a1) : keep (resetContinue s a1) = keep s := by
  unfold resetContinue
  try dsimp only
  repeat' split
  all_goals simp [keep_fold, foldl_keep, mapFold_keep, *]

theorem execDomainResetContinue_keep (a0 a1 s) (t : State) (h : execDomainResetContinue a0 a1 s = .next t) : keep t = keep s := by
  unfold execDomainResetContinue at h
  try dsimp only at h
  cases h
  simp [keep_fold, foldl_keep, mapFold_keep, *]

/-! ### Models -/

@[simp] theorem modelRegister_keep (a0 s) : keep (modelRegister a0 s).1 = keep s := by
  grind [modelRegister, keep_fold, keep_mk, foldl_keep, mapFold_keep, failIf_keep]

theorem execModelRegister_keep (a0 s) (t : State) (h : execModelRegister a0 s = .next t) : keep t = keep s := by
  unfold execModelRegister at h
  refine runHuavo_keep _ _ _ _ (fun d s => ?_) _ h
  try dsimp only
  simp [keep_fold, foldl_keep, mapFold_keep]

@[simp] theorem modelUnregister_keep (a0 s) : keep (modelUnregister a0 s).1 = keep s := by
  simp [modelUnregister, keep_fold, foldl_keep, mapFold_keep, *]

theorem execModelUnregister_keep (a0 s) (t : State) (h : execModelUnregister a0 s = .next t) : keep t = keep s := by
  unfold execModelUnregister at h
  refine runHuavo_keep _ _ _ _ (fun d s => ?_) _ h
  try dsimp only
  simp [keep_fold, foldl_keep, mapFold_keep]

@[simp] theorem modelQuery_keep (a0 s) : keep (modelQuery a0 s).1 = keep s := by
  simp [modelQuery, keep_fold, foldl_keep, mapFold_keep, *]

theorem execModelQuery_keep (a0 s) (t : State) (h : execModelQuery a0 s = .next t) : keep t = keep s := by
  unfold execModelQuery at h
  refine runHuavo_keep _ _ _ _ (fun d s => ?_) _ h
  try dsimp only
  simp [keep_fold, foldl_keep, mapFold_keep]

@[simp] theorem weightKeyInstall_keep (a0 s) : keep (weightKeyInstall a0 s).1 = keep s := by
  grind [weightKeyInstall, keep_fold, keep_mk, foldl_keep, mapFold_keep, newKey_keep, withObj_keep, failIf_keep,
      modM_keep]

theorem execWeightKeyInstall_keep (a0 s) (t : State) (h : execWeightKeyInstall a0 s = .next t) : keep t = keep s := by
  unfold execWeightKeyInstall at h
  refine runHuavo_keep _ _ _ _ (fun d s => ?_) _ h
  try dsimp only
  simp [keep_fold, foldl_keep, mapFold_keep]

@[simp] theorem keepPackage_keep (a0 s a2 a3 a4 a5) : keep (keepPackage a0 s a2 a3 a4 a5).1 = keep s := by
  unfold keepPackage
  try dsimp only
  repeat' split
  all_goals simp [keep_fold, foldl_keep, mapFold_keep, *]

@[simp] theorem weightLoad_keep (a0 s) : keep (weightLoad a0 s).1 = keep s := by
  grind [weightLoad, keep_fold, keep_mk, foldl_keep, mapFold_keep, keepPackage_keep, withObj_keep, hostFault_keep,
      failIf_keep]

theorem execWeightLoad_keep (a0 s) (t : State) (h : execWeightLoad a0 s = .next t) : keep t = keep s := by
  unfold execWeightLoad at h
  refine runHuavo_keep _ _ _ _ (fun d s => ?_) _ h
  try dsimp only
  simp [keep_fold, foldl_keep, mapFold_keep]

@[simp] theorem weightUnload_keep (a0 s) : keep (weightUnload a0 s).1 = keep s := by
  simp [weightUnload, keep_fold, foldl_keep, mapFold_keep, *]

theorem execWeightUnload_keep (a0 s) (t : State) (h : execWeightUnload a0 s = .next t) : keep t = keep s := by
  unfold execWeightUnload at h
  refine runHuavo_keep _ _ _ _ (fun d s => ?_) _ h
  try dsimp only
  simp [keep_fold, foldl_keep, mapFold_keep]

/-! ### Heats -/

@[simp] theorem heatCreate_keep (a0 s) : keep (heatCreate a0 s).1 = keep s := by
  grind [heatCreate, keep_fold, keep_mk, foldl_keep, mapFold_keep, setH_keep, failIf_keep]

theorem execHeatCreate_keep (a0 s) (t : State) (h : execHeatCreate a0 s = .next t) : keep t = keep s := by
  unfold execHeatCreate at h
  refine runHuavo_keep _ _ _ _ (fun d s => ?_) _ h
  try dsimp only
  simp [keep_fold, foldl_keep, mapFold_keep]

@[simp] theorem heatWrite_keep (s a1 a2 a3 a4) : keep (heatWrite s a1 a2 a3 a4).1 = keep s := by
  simp [heatWrite, keep_fold, foldl_keep, mapFold_keep, *]

@[simp] theorem heatChange_keep (s a1 a2 a3 a4 a5) : keep (heatChange s a1 a2 a3 a4 a5).1 = keep s := by
  unfold heatChange
  try dsimp only
  repeat' split
  all_goals simp [keep_fold, foldl_keep, mapFold_keep, *]

@[simp] theorem heatSet_keep (a0 s) : keep (heatSet a0 s).1 = keep s := by
  grind [heatSet, keep_fold, keep_mk, foldl_keep, mapFold_keep, heatChange_keep, withObj_keep, failIf_keep]

theorem execHeatSet_keep (a0 s) (t : State) (h : execHeatSet a0 s = .next t) : keep t = keep s := by
  unfold execHeatSet at h
  refine runHuavo_keep _ _ _ _ (fun d s => ?_) _ h
  try dsimp only
  simp [keep_fold, foldl_keep, mapFold_keep]

@[simp] theorem bodyHeatQuery_keep (a0 s) : keep (bodyHeatQuery a0 s).1 = keep s := by
  simp [bodyHeatQuery, keep_fold, foldl_keep, mapFold_keep, *]

theorem execHeatQuery_keep (a0 s) (t : State) (h : execHeatQuery a0 s = .next t) : keep t = keep s := by
  unfold execHeatQuery at h
  refine runHuavo_keep _ _ _ _ (fun d s => ?_) _ h
  try dsimp only
  simp [keep_fold, foldl_keep, mapFold_keep]

@[simp] theorem bodyHeatStart_keep (a0 s) : keep (bodyHeatStart a0 s).1 = keep s := by
  grind [bodyHeatStart, keep_fold, keep_mk, foldl_keep, mapFold_keep, setH_keep, withObj_keep, failIf_keep]

theorem execHeatStart_keep (a0 s) (t : State) (h : execHeatStart a0 s = .next t) : keep t = keep s := by
  unfold execHeatStart at h
  refine runHuavo_keep _ _ _ _ (fun d s => ?_) _ h
  try dsimp only
  simp [keep_fold, foldl_keep, mapFold_keep]

@[simp] theorem heatStop_keep (a0 s) : keep (heatStop a0 s).1 = keep s := by
  grind [heatStop, keep_fold, keep_mk, foldl_keep, mapFold_keep, setH_keep, withObj_keep, failIf_keep]

theorem execHeatStop_keep (a0 s) (t : State) (h : execHeatStop a0 s = .next t) : keep t = keep s := by
  unfold execHeatStop at h
  refine runHuavo_keep _ _ _ _ (fun d s => ?_) _ h
  try dsimp only
  simp [keep_fold, foldl_keep, mapFold_keep]

@[simp] theorem bodyHeatDestroy_keep (a0 s) : keep (bodyHeatDestroy a0 s).1 = keep s := by
  grind [bodyHeatDestroy, keep_fold, keep_mk, foldl_keep, mapFold_keep, destroyHeat_keep, withObj_keep, failIf_keep]

theorem execHeatDestroy_keep (a0 s) (t : State) (h : execHeatDestroy a0 s = .next t) : keep t = keep s := by
  unfold execHeatDestroy at h
  refine runHuavo_keep _ _ _ _ (fun d s => ?_) _ h
  try dsimp only
  simp [keep_fold, foldl_keep, mapFold_keep]

@[simp] theorem courseLoad_keep (a0 s) : keep (courseLoad a0 s).1 = keep s := by
  unfold courseLoad
  try dsimp only
  repeat' split
  all_goals simp [keep_fold, foldl_keep, mapFold_keep, *]

theorem execCourseLoad_keep (a0 s) (t : State) (h : execCourseLoad a0 s = .next t) : keep t = keep s := by
  unfold execCourseLoad at h
  refine runHuavo_keep _ _ _ _ (fun d s => ?_) _ h
  try dsimp only
  simp [keep_fold, foldl_keep, mapFold_keep]

@[simp] theorem verifyDone_keep (s a1) : keep (verifyDone s a1) = keep s := by
  unfold verifyDone
  try dsimp only
  repeat' split
  all_goals simp [keep_fold, foldl_keep, mapFold_keep, *]

theorem execCourseVerifyDone_keep (a0 a1 s) (t : State) (h : execCourseVerifyDone a0 a1 s = .next t) : keep t = keep s := by
  unfold execCourseVerifyDone at h
  try dsimp only at h
  cases h
  simp [keep_fold, foldl_keep, mapFold_keep, *]

@[simp] theorem courseUnload_keep (a0 s) : keep (courseUnload a0 s).1 = keep s := by
  grind [courseUnload, keep_fold, keep_mk, foldl_keep, mapFold_keep, withObj_keep, failIf_keep]

theorem execCourseUnload_keep (a0 s) (t : State) (h : execCourseUnload a0 s = .next t) : keep t = keep s := by
  unfold execCourseUnload at h
  refine runHuavo_keep _ _ _ _ (fun d s => ?_) _ h
  try dsimp only
  simp [keep_fold, foldl_keep, mapFold_keep]

@[simp] theorem courseQuery_keep (a0 s) : keep (courseQuery a0 s).1 = keep s := by
  unfold courseQuery
  try dsimp only
  repeat' split
  all_goals simp [keep_fold, foldl_keep, mapFold_keep, *]

theorem execCourseQuery_keep (a0 s) (t : State) (h : execCourseQuery a0 s = .next t) : keep t = keep s := by
  unfold execCourseQuery at h
  refine runHuavo_keep _ _ _ _ (fun d s => ?_) _ h
  try dsimp only
  simp [keep_fold, foldl_keep, mapFold_keep]

end Sys2Proof.Machine
end

