-- ==== Sys2Proof/Laws/Time.lean ====
section
/-! SUPPORT. What moves of the clock and of the time base's state leave in the time base record. -/

set_option Elab.async false

namespace Sys2Proof.Machine

theorem port_cases (p : Port) : p = 0 ∨ p = 1 := by revert p; decide

theorem clockTo_time (s : State) (n : Nat) : (clockTo s n).time = { s.time with fabric := (clockTo s n).time.fabric } := by
  unfold clockTo; split <;> rfl

@[simp] theorem clockTo_enabled (s : State) (n : Nat) : (clockTo s n).time.enabled = s.time.enabled := by rw [clockTo_time]
@[simp] theorem clockTo_epoch (s : State) (n : Nat) : (clockTo s n).time.epoch = s.time.epoch := by rw [clockTo_time]
@[simp] theorem clockTo_record (s : State) (n : Nat) : (clockTo s n).time.record = s.time.record := by rw [clockTo_time]
@[simp] theorem clockTo_shadow (s : State) (n : Nat) : (clockTo s n).time.shadow = s.time.shadow := by rw [clockTo_time]
@[simp] theorem clockTo_irregular (s : State) (n : Nat) : (clockTo s n).time.irregular = s.time.irregular := by rw [clockTo_time]

/-- Fabric time never goes back. -/
theorem ns_le_clockTo (s : State) (n : Nat) (h : n * 65536 < 2 ^ 80) : s.ns ≤ (clockTo s n).ns := by
  unfold clockTo
  split
  · rename_i hc
    simp only [Bool.and_eq_true, decide_eq_true_eq] at hc
    simp only [State.ns, BitVec.toNat_ofNat] at *
    rw [Nat.mod_eq_of_lt h]
    omega
  · exact Nat.le_refl _

theorem setTState_only (s : State) (x : Nat) : setTState s x = { s with time := (setTState s x).time } := rfl
theorem setTSource_only (s : State) (x : Nat) : setTSource s x = { s with time := (setTSource s x).time } := rfl

theorem tState_setTState (s : State) (x : Nat) (h : x < 4) : tState (setTState s x) = x := by
  unfold tState setTState; rw [rf_rset _ _ _ _ (by decide) (by decide)]; exact Nat.mod_eq_of_lt h
theorem tSource_setTState (s : State) (x : Nat) : tSource (setTState s x) = tSource s := by
  unfold tSource setTState; rw [rf_rset_other _ _ (by decide) (by decide) (by decide) (by decide)]
theorem tSource_setTSource (s : State) (x : Nat) (h : x < 2) : tSource (setTSource s x) = x := by
  unfold tSource setTSource; rw [rf_rset _ _ _ _ (by decide) (by decide)]; exact Nat.mod_eq_of_lt h
theorem tState_setTSource (s : State) (x : Nat) : tState (setTSource s x) = tState s := by
  unfold tState setTSource; rw [rf_rset_other _ _ (by decide) (by decide) (by decide) (by decide)]

end Sys2Proof.Machine
end

