-- ==== Sys2Proof/Laws/Resets.lean ====
section
/-! SUPPORT. What the resets of a function and of a port, the loss of a cluster and the module's ERROR state can do: the only
fields of the state that they write. -/

set_option Elab.async false

namespace Sys2Proof.Machine

/-! ### freeReserved -/

theorem freeReserved_only (s : State) (l : List Nat) :
    freeReserved s l = { s with mem := (freeReserved s l).mem } := by
  exact foldl_only (U := fun t s => { s with mem := t.mem }) (fun _ => rfl) (fun _ _ _ => rfl) _ (fun _ _ => rfl) _ _

@[simp] theorem freeReserved_pending (s : State) (l : List Nat) : (freeReserved s l).pending = s.pending := by rw [freeReserved_only]
@[simp] theorem freeReserved_out (s : State) (l : List Nat) : (freeReserved s l).out = s.out := by rw [freeReserved_only]
@[simp] theorem freeReserved_free (s : State) (l : List Nat) : (freeReserved s l).free = s.free := by rw [freeReserved_only]
@[simp] theorem freeReserved_boot (s : State) (l : List Nat) : (freeReserved s l).boot = s.boot := by rw [freeReserved_only]
@[simp] theorem freeReserved_port0 (s : State) (l : List Nat) : (freeReserved s l).port0 = s.port0 := by rw [freeReserved_only]
@[simp] theorem freeReserved_port1 (s : State) (l : List Nat) : (freeReserved s l).port1 = s.port1 := by rw [freeReserved_only]
@[simp] theorem freeReserved_clusters (s : State) (l : List Nat) : (freeReserved s l).clusters = s.clusters := by rw [freeReserved_only]
@[simp] theorem freeReserved_thermal (s : State) (l : List Nat) : (freeReserved s l).thermal = s.thermal := by rw [freeReserved_only]
@[simp] theorem freeReserved_cal (s : State) (l : List Nat) : (freeReserved s l).cal = s.cal := by rw [freeReserved_only]
@[simp] theorem freeReserved_time (s : State) (l : List Nat) : (freeReserved s l).time = s.time := by rw [freeReserved_only]
@[simp] theorem freeReserved_funcs (s : State) (l : List Nat) : (freeReserved s l).funcs = s.funcs := by rw [freeReserved_only]
@[simp] theorem freeReserved_flights (s : State) (l : List Nat) : (freeReserved s l).flights = s.flights := by rw [freeReserved_only]
@[simp] theorem freeReserved_delayed (s : State) (l : List Nat) : (freeReserved s l).delayed = s.delayed := by rw [freeReserved_only]
@[simp] theorem freeReserved_sec (s : State) (l : List Nat) : (freeReserved s l).sec = s.sec := by rw [freeReserved_only]
@[simp] theorem freeReserved_domains (s : State) (l : List Nat) : (freeReserved s l).domains = s.domains := by rw [freeReserved_only]
@[simp] theorem freeReserved_slices (s : State) (l : List Nat) : (freeReserved s l).slices = s.slices := by rw [freeReserved_only]
@[simp] theorem freeReserved_marginRec (s : State) (l : List Nat) : (freeReserved s l).marginRec = s.marginRec := by rw [freeReserved_only]
@[simp] theorem freeReserved_marginShadow (s : State) (l : List Nat) : (freeReserved s l).marginShadow = s.marginShadow := by rw [freeReserved_only]
@[simp] theorem freeReserved_margins (s : State) (l : List Nat) : (freeReserved s l).margins = s.margins := by rw [freeReserved_only]
@[simp] theorem freeReserved_counters (s : State) (l : List Nat) : (freeReserved s l).counters = s.counters := by rw [freeReserved_only]
@[simp] theorem freeReserved_chans (s : State) (l : List Nat) : (freeReserved s l).chans = s.chans := by rw [freeReserved_only]
@[simp] theorem freeReserved_rowOps (s : State) (l : List Nat) : (freeReserved s l).rowOps = s.rowOps := by rw [freeReserved_only]
@[simp] theorem freeReserved_rowOpNo (s : State) (l : List Nat) : (freeReserved s l).rowOpNo = s.rowOpNo := by rw [freeReserved_only]
@[simp] theorem freeReserved_bulk (s : State) (l : List Nat) : (freeReserved s l).bulk = s.bulk := by rw [freeReserved_only]
@[simp] theorem freeReserved_seqs (s : State) (l : List Nat) : (freeReserved s l).seqs = s.seqs := by rw [freeReserved_only]
@[simp] theorem freeReserved_seqGen (s : State) (l : List Nat) : (freeReserved s l).seqGen = s.seqGen := by rw [freeReserved_only]
@[simp] theorem freeReserved_models (s : State) (l : List Nat) : (freeReserved s l).models = s.models := by rw [freeReserved_only]
@[simp] theorem freeReserved_courses (s : State) (l : List Nat) : (freeReserved s l).courses = s.courses := by rw [freeReserved_only]
@[simp] theorem freeReserved_heats (s : State) (l : List Nat) : (freeReserved s l).heats = s.heats := by rw [freeReserved_only]
@[simp] theorem freeReserved_place (s : State) (l : List Nat) : (freeReserved s l).place = s.place := by rw [freeReserved_only]
@[simp] theorem freeReserved_net (s : State) (l : List Nat) : (freeReserved s l).net = s.net := by rw [freeReserved_only]
@[simp] theorem freeReserved_dir (s : State) (l : List Nat) : (freeReserved s l).dir = s.dir := by rw [freeReserved_only]
@[simp] theorem freeReserved_sel (s : State) (l : List Nat) : (freeReserved s l).sel = s.sel := by rw [freeReserved_only]
@[simp] theorem freeReserved_scratch (s : State) (l : List Nat) : (freeReserved s l).scratch = s.scratch := by rw [freeReserved_only]
@[simp] theorem freeReserved_buffer (s : State) (l : List Nat) : (freeReserved s l).buffer = s.buffer := by rw [freeReserved_only]
@[simp] theorem freeReserved_acct (s : State) (l : List Nat) : (freeReserved s l).acct = s.acct := by rw [freeReserved_only]
@[simp] theorem freeReserved_closed (s : State) (l : List Nat) : (freeReserved s l).closed = s.closed := by rw [freeReserved_only]
@[simp] theorem freeReserved_nodeRecs (s : State) (l : List Nat) : (freeReserved s l).nodeRecs = s.nodeRecs := by rw [freeReserved_only]
@[simp] theorem freeReserved_heldNext (s : State) (l : List Nat) : (freeReserved s l).heldNext = s.heldNext := by rw [freeReserved_only]
@[simp] theorem freeReserved_shares (s : State) (l : List Nat) : (freeReserved s l).shares = s.shares := by rw [freeReserved_only]
@[simp] theorem freeReserved_shareShadow (s : State) (l : List Nat) : (freeReserved s l).shareShadow = s.shareShadow := by rw [freeReserved_only]
@[simp] theorem freeReserved_arb (s : State) (l : List Nat) : (freeReserved s l).arb = s.arb := by rw [freeReserved_only]
@[simp] theorem freeReserved_arbShadow (s : State) (l : List Nat) : (freeReserved s l).arbShadow = s.arbShadow := by rw [freeReserved_only]
@[simp] theorem freeReserved_deficits (s : State) (l : List Nat) : (freeReserved s l).deficits = s.deficits := by rw [freeReserved_only]
@[simp] theorem freeReserved_dma (s : State) (l : List Nat) : (freeReserved s l).dma = s.dma := by rw [freeReserved_only]
@[simp] theorem freeReserved_nodeNo (s : State) (l : List Nat) : (freeReserved s l).nodeNo = s.nodeNo := by rw [freeReserved_only]
@[simp] theorem freeReserved_partition (s : State) (l : List Nat) : (freeReserved s l).partition = s.partition := by rw [freeReserved_only]
@[simp] theorem freeReserved_fenced (s : State) (l : List Nat) : (freeReserved s l).fenced = s.fenced := by rw [freeReserved_only]

/-! ### releaseBlock -/

theorem releaseBlock_only (s : State) (id : Nat) :
    releaseBlock s id = { s with mem := (releaseBlock s id).mem, seqs := (releaseBlock s id).seqs } := by
  unfold releaseBlock
  split
  · rfl
  · rw [freeReserved_only]; rfl

@[simp] theorem releaseBlock_pending (s : State) (id : Nat) : (releaseBlock s id).pending = s.pending := by rw [releaseBlock_only]
@[simp] theorem releaseBlock_out (s : State) (id : Nat) : (releaseBlock s id).out = s.out := by rw [releaseBlock_only]
@[simp] theorem releaseBlock_free (s : State) (id : Nat) : (releaseBlock s id).free = s.free := by rw [releaseBlock_only]
@[simp] theorem releaseBlock_boot (s : State) (id : Nat) : (releaseBlock s id).boot = s.boot := by rw [releaseBlock_only]
@[simp] theorem releaseBlock_port0 (s : State) (id : Nat) : (releaseBlock s id).port0 = s.port0 := by rw [releaseBlock_only]
@[simp] theorem releaseBlock_port1 (s : State) (id : Nat) : (releaseBlock s id).port1 = s.port1 := by rw [releaseBlock_only]
@[simp] theorem releaseBlock_clusters (s : State) (id : Nat) : (releaseBlock s id).clusters = s.clusters := by rw [releaseBlock_only]
@[simp] theorem releaseBlock_thermal (s : State) (id : Nat) : (releaseBlock s id).thermal = s.thermal := by rw [releaseBlock_only]
@[simp] theorem releaseBlock_cal (s : State) (id : Nat) : (releaseBlock s id).cal = s.cal := by rw [releaseBlock_only]
@[simp] theorem releaseBlock_time (s : State) (id : Nat) : (releaseBlock s id).time = s.time := by rw [releaseBlock_only]
@[simp] theorem releaseBlock_funcs (s : State) (id : Nat) : (releaseBlock s id).funcs = s.funcs := by rw [releaseBlock_only]
@[simp] theorem releaseBlock_flights (s : State) (id : Nat) : (releaseBlock s id).flights = s.flights := by rw [releaseBlock_only]
@[simp] theorem releaseBlock_delayed (s : State) (id : Nat) : (releaseBlock s id).delayed = s.delayed := by rw [releaseBlock_only]
@[simp] theorem releaseBlock_sec (s : State) (id : Nat) : (releaseBlock s id).sec = s.sec := by rw [releaseBlock_only]
@[simp] theorem releaseBlock_domains (s : State) (id : Nat) : (releaseBlock s id).domains = s.domains := by rw [releaseBlock_only]
@[simp] theorem releaseBlock_slices (s : State) (id : Nat) : (releaseBlock s id).slices = s.slices := by rw [releaseBlock_only]
@[simp] theorem releaseBlock_marginRec (s : State) (id : Nat) : (releaseBlock s id).marginRec = s.marginRec := by rw [releaseBlock_only]
@[simp] theorem releaseBlock_marginShadow (s : State) (id : Nat) : (releaseBlock s id).marginShadow = s.marginShadow := by rw [releaseBlock_only]
@[simp] theorem releaseBlock_margins (s : State) (id : Nat) : (releaseBlock s id).margins = s.margins := by rw [releaseBlock_only]
@[simp] theorem releaseBlock_counters (s : State) (id : Nat) : (releaseBlock s id).counters = s.counters := by rw [releaseBlock_only]
@[simp] theorem releaseBlock_chans (s : State) (id : Nat) : (releaseBlock s id).chans = s.chans := by rw [releaseBlock_only]
@[simp] theorem releaseBlock_rowOps (s : State) (id : Nat) : (releaseBlock s id).rowOps = s.rowOps := by rw [releaseBlock_only]
@[simp] theorem releaseBlock_rowOpNo (s : State) (id : Nat) : (releaseBlock s id).rowOpNo = s.rowOpNo := by rw [releaseBlock_only]
@[simp] theorem releaseBlock_bulk (s : State) (id : Nat) : (releaseBlock s id).bulk = s.bulk := by rw [releaseBlock_only]
@[simp] theorem releaseBlock_seqGen (s : State) (id : Nat) : (releaseBlock s id).seqGen = s.seqGen := by rw [releaseBlock_only]
@[simp] theorem releaseBlock_models (s : State) (id : Nat) : (releaseBlock s id).models = s.models := by rw [releaseBlock_only]
@[simp] theorem releaseBlock_courses (s : State) (id : Nat) : (releaseBlock s id).courses = s.courses := by rw [releaseBlock_only]
@[simp] theorem releaseBlock_heats (s : State) (id : Nat) : (releaseBlock s id).heats = s.heats := by rw [releaseBlock_only]
@[simp] theorem releaseBlock_place (s : State) (id : Nat) : (releaseBlock s id).place = s.place := by rw [releaseBlock_only]
@[simp] theorem releaseBlock_net (s : State) (id : Nat) : (releaseBlock s id).net = s.net := by rw [releaseBlock_only]
@[simp] theorem releaseBlock_dir (s : State) (id : Nat) : (releaseBlock s id).dir = s.dir := by rw [releaseBlock_only]
@[simp] theorem releaseBlock_sel (s : State) (id : Nat) : (releaseBlock s id).sel = s.sel := by rw [releaseBlock_only]
@[simp] theorem releaseBlock_scratch (s : State) (id : Nat) : (releaseBlock s id).scratch = s.scratch := by rw [releaseBlock_only]
@[simp] theorem releaseBlock_buffer (s : State) (id : Nat) : (releaseBlock s id).buffer = s.buffer := by rw [releaseBlock_only]
@[simp] theorem releaseBlock_acct (s : State) (id : Nat) : (releaseBlock s id).acct = s.acct := by rw [releaseBlock_only]
@[simp] theorem releaseBlock_closed (s : State) (id : Nat) : (releaseBlock s id).closed = s.closed := by rw [releaseBlock_only]
@[simp] theorem releaseBlock_nodeRecs (s : State) (id : Nat) : (releaseBlock s id).nodeRecs = s.nodeRecs := by rw [releaseBlock_only]
@[simp] theorem releaseBlock_heldNext (s : State) (id : Nat) : (releaseBlock s id).heldNext = s.heldNext := by rw [releaseBlock_only]
@[simp] theorem releaseBlock_shares (s : State) (id : Nat) : (releaseBlock s id).shares = s.shares := by rw [releaseBlock_only]
@[simp] theorem releaseBlock_shareShadow (s : State) (id : Nat) : (releaseBlock s id).shareShadow = s.shareShadow := by rw [releaseBlock_only]
@[simp] theorem releaseBlock_arb (s : State) (id : Nat) : (releaseBlock s id).arb = s.arb := by rw [releaseBlock_only]
@[simp] theorem releaseBlock_arbShadow (s : State) (id : Nat) : (releaseBlock s id).arbShadow = s.arbShadow := by rw [releaseBlock_only]
@[simp] theorem releaseBlock_deficits (s : State) (id : Nat) : (releaseBlock s id).deficits = s.deficits := by rw [releaseBlock_only]
@[simp] theorem releaseBlock_dma (s : State) (id : Nat) : (releaseBlock s id).dma = s.dma := by rw [releaseBlock_only]
@[simp] theorem releaseBlock_nodeNo (s : State) (id : Nat) : (releaseBlock s id).nodeNo = s.nodeNo := by rw [releaseBlock_only]
@[simp] theorem releaseBlock_partition (s : State) (id : Nat) : (releaseBlock s id).partition = s.partition := by rw [releaseBlock_only]
@[simp] theorem releaseBlock_fenced (s : State) (id : Nat) : (releaseBlock s id).fenced = s.fenced := by rw [releaseBlock_only]

/-! ### vacateSlot -/

theorem vacateSlot_only (s : State) (k n : Nat) :
    vacateSlot s k n = { s with mem := (vacateSlot s k n).mem, seqs := (vacateSlot s k n).seqs } := by
  unfold vacateSlot
  split
  · rfl
  · rw [releaseBlock_only]; rfl

@[simp] theorem vacateSlot_pending (s : State) (k n : Nat) : (vacateSlot s k n).pending = s.pending := by rw [vacateSlot_only]
@[simp] theorem vacateSlot_out (s : State) (k n : Nat) : (vacateSlot s k n).out = s.out := by rw [vacateSlot_only]
@[simp] theorem vacateSlot_free (s : State) (k n : Nat) : (vacateSlot s k n).free = s.free := by rw [vacateSlot_only]
@[simp] theorem vacateSlot_boot (s : State) (k n : Nat) : (vacateSlot s k n).boot = s.boot := by rw [vacateSlot_only]
@[simp] theorem vacateSlot_port0 (s : State) (k n : Nat) : (vacateSlot s k n).port0 = s.port0 := by rw [vacateSlot_only]
@[simp] theorem vacateSlot_port1 (s : State) (k n : Nat) : (vacateSlot s k n).port1 = s.port1 := by rw [vacateSlot_only]
@[simp] theorem vacateSlot_clusters (s : State) (k n : Nat) : (vacateSlot s k n).clusters = s.clusters := by rw [vacateSlot_only]
@[simp] theorem vacateSlot_thermal (s : State) (k n : Nat) : (vacateSlot s k n).thermal = s.thermal := by rw [vacateSlot_only]
@[simp] theorem vacateSlot_cal (s : State) (k n : Nat) : (vacateSlot s k n).cal = s.cal := by rw [vacateSlot_only]
@[simp] theorem vacateSlot_time (s : State) (k n : Nat) : (vacateSlot s k n).time = s.time := by rw [vacateSlot_only]
@[simp] theorem vacateSlot_funcs (s : State) (k n : Nat) : (vacateSlot s k n).funcs = s.funcs := by rw [vacateSlot_only]
@[simp] theorem vacateSlot_flights (s : State) (k n : Nat) : (vacateSlot s k n).flights = s.flights := by rw [vacateSlot_only]
@[simp] theorem vacateSlot_delayed (s : State) (k n : Nat) : (vacateSlot s k n).delayed = s.delayed := by rw [vacateSlot_only]
@[simp] theorem vacateSlot_sec (s : State) (k n : Nat) : (vacateSlot s k n).sec = s.sec := by rw [vacateSlot_only]
@[simp] theorem vacateSlot_domains (s : State) (k n : Nat) : (vacateSlot s k n).domains = s.domains := by rw [vacateSlot_only]
@[simp] theorem vacateSlot_slices (s : State) (k n : Nat) : (vacateSlot s k n).slices = s.slices := by rw [vacateSlot_only]
@[simp] theorem vacateSlot_marginRec (s : State) (k n : Nat) : (vacateSlot s k n).marginRec = s.marginRec := by rw [vacateSlot_only]
@[simp] theorem vacateSlot_marginShadow (s : State) (k n : Nat) : (vacateSlot s k n).marginShadow = s.marginShadow := by rw [vacateSlot_only]
@[simp] theorem vacateSlot_margins (s : State) (k n : Nat) : (vacateSlot s k n).margins = s.margins := by rw [vacateSlot_only]
@[simp] theorem vacateSlot_counters (s : State) (k n : Nat) : (vacateSlot s k n).counters = s.counters := by rw [vacateSlot_only]
@[simp] theorem vacateSlot_chans (s : State) (k n : Nat) : (vacateSlot s k n).chans = s.chans := by rw [vacateSlot_only]
@[simp] theorem vacateSlot_rowOps (s : State) (k n : Nat) : (vacateSlot s k n).rowOps = s.rowOps := by rw [vacateSlot_only]
@[simp] theorem vacateSlot_rowOpNo (s : State) (k n : Nat) : (vacateSlot s k n).rowOpNo = s.rowOpNo := by rw [vacateSlot_only]
@[simp] theorem vacateSlot_bulk (s : State) (k n : Nat) : (vacateSlot s k n).bulk = s.bulk := by rw [vacateSlot_only]
@[simp] theorem vacateSlot_seqGen (s : State) (k n : Nat) : (vacateSlot s k n).seqGen = s.seqGen := by rw [vacateSlot_only]
@[simp] theorem vacateSlot_models (s : State) (k n : Nat) : (vacateSlot s k n).models = s.models := by rw [vacateSlot_only]
@[simp] theorem vacateSlot_courses (s : State) (k n : Nat) : (vacateSlot s k n).courses = s.courses := by rw [vacateSlot_only]
@[simp] theorem vacateSlot_heats (s : State) (k n : Nat) : (vacateSlot s k n).heats = s.heats := by rw [vacateSlot_only]
@[simp] theorem vacateSlot_place (s : State) (k n : Nat) : (vacateSlot s k n).place = s.place := by rw [vacateSlot_only]
@[simp] theorem vacateSlot_net (s : State) (k n : Nat) : (vacateSlot s k n).net = s.net := by rw [vacateSlot_only]
@[simp] theorem vacateSlot_dir (s : State) (k n : Nat) : (vacateSlot s k n).dir = s.dir := by rw [vacateSlot_only]
@[simp] theorem vacateSlot_sel (s : State) (k n : Nat) : (vacateSlot s k n).sel = s.sel := by rw [vacateSlot_only]
@[simp] theorem vacateSlot_scratch (s : State) (k n : Nat) : (vacateSlot s k n).scratch = s.scratch := by rw [vacateSlot_only]
@[simp] theorem vacateSlot_buffer (s : State) (k n : Nat) : (vacateSlot s k n).buffer = s.buffer := by rw [vacateSlot_only]
@[simp] theorem vacateSlot_acct (s : State) (k n : Nat) : (vacateSlot s k n).acct = s.acct := by rw [vacateSlot_only]
@[simp] theorem vacateSlot_closed (s : State) (k n : Nat) : (vacateSlot s k n).closed = s.closed := by rw [vacateSlot_only]
@[simp] theorem vacateSlot_nodeRecs (s : State) (k n : Nat) : (vacateSlot s k n).nodeRecs = s.nodeRecs := by rw [vacateSlot_only]
@[simp] theorem vacateSlot_heldNext (s : State) (k n : Nat) : (vacateSlot s k n).heldNext = s.heldNext := by rw [vacateSlot_only]
@[simp] theorem vacateSlot_shares (s : State) (k n : Nat) : (vacateSlot s k n).shares = s.shares := by rw [vacateSlot_only]
@[simp] theorem vacateSlot_shareShadow (s : State) (k n : Nat) : (vacateSlot s k n).shareShadow = s.shareShadow := by rw [vacateSlot_only]
@[simp] theorem vacateSlot_arb (s : State) (k n : Nat) : (vacateSlot s k n).arb = s.arb := by rw [vacateSlot_only]
@[simp] theorem vacateSlot_arbShadow (s : State) (k n : Nat) : (vacateSlot s k n).arbShadow = s.arbShadow := by rw [vacateSlot_only]
@[simp] theorem vacateSlot_deficits (s : State) (k n : Nat) : (vacateSlot s k n).deficits = s.deficits := by rw [vacateSlot_only]
@[simp] theorem vacateSlot_dma (s : State) (k n : Nat) : (vacateSlot s k n).dma = s.dma := by rw [vacateSlot_only]
@[simp] theorem vacateSlot_nodeNo (s : State) (k n : Nat) : (vacateSlot s k n).nodeNo = s.nodeNo := by rw [vacateSlot_only]
@[simp] theorem vacateSlot_partition (s : State) (k n : Nat) : (vacateSlot s k n).partition = s.partition := by rw [vacateSlot_only]
@[simp] theorem vacateSlot_fenced (s : State) (k n : Nat) : (vacateSlot s k n).fenced = s.fenced := by rw [vacateSlot_only]

/-! ### destroyHeat -/

theorem destroyHeat_only (s : State) (k : Nat) :
    destroyHeat s k = { s with mem := (destroyHeat s k).mem, seqs := (destroyHeat s k).seqs, heats := (destroyHeat s k).heats, buffer := (destroyHeat s k).buffer } := by
  unfold destroyHeat
  split
  · rfl
  · rename_i h _
    have := foldl_only (U := fun t s => { s with mem := t.mem, seqs := t.seqs }) (fun _ => rfl) (fun _ _ _ => rfl)
      (fun s n => if (getH s k).isSome then (fun s n => vacateSlot s k n) s n else s)
      (fun s n => by split <;> first | exact vacateSlot_only _ _ _ | rfl) (List.range (hSlots h.record)) s
    dsimp only [overSlots]
    rw [this]

@[simp] theorem destroyHeat_pending (s : State) (k : Nat) : (destroyHeat s k).pending = s.pending := by rw [destroyHeat_only]
@[simp] theorem destroyHeat_out (s : State) (k : Nat) : (destroyHeat s k).out = s.out := by rw [destroyHeat_only]
@[simp] theorem destroyHeat_free (s : State) (k : Nat) : (destroyHeat s k).free = s.free := by rw [destroyHeat_only]
@[simp] theorem destroyHeat_boot (s : State) (k : Nat) : (destroyHeat s k).boot = s.boot := by rw [destroyHeat_only]
@[simp] theorem destroyHeat_port0 (s : State) (k : Nat) : (destroyHeat s k).port0 = s.port0 := by rw [destroyHeat_only]
@[simp] theorem destroyHeat_port1 (s : State) (k : Nat) : (destroyHeat s k).port1 = s.port1 := by rw [destroyHeat_only]
@[simp] theorem destroyHeat_clusters (s : State) (k : Nat) : (destroyHeat s k).clusters = s.clusters := by rw [destroyHeat_only]
@[simp] theorem destroyHeat_thermal (s : State) (k : Nat) : (destroyHeat s k).thermal = s.thermal := by rw [destroyHeat_only]
@[simp] theorem destroyHeat_cal (s : State) (k : Nat) : (destroyHeat s k).cal = s.cal := by rw [destroyHeat_only]
@[simp] theorem destroyHeat_time (s : State) (k : Nat) : (destroyHeat s k).time = s.time := by rw [destroyHeat_only]
@[simp] theorem destroyHeat_funcs (s : State) (k : Nat) : (destroyHeat s k).funcs = s.funcs := by rw [destroyHeat_only]
@[simp] theorem destroyHeat_flights (s : State) (k : Nat) : (destroyHeat s k).flights = s.flights := by rw [destroyHeat_only]
@[simp] theorem destroyHeat_delayed (s : State) (k : Nat) : (destroyHeat s k).delayed = s.delayed := by rw [destroyHeat_only]
@[simp] theorem destroyHeat_sec (s : State) (k : Nat) : (destroyHeat s k).sec = s.sec := by rw [destroyHeat_only]
@[simp] theorem destroyHeat_domains (s : State) (k : Nat) : (destroyHeat s k).domains = s.domains := by rw [destroyHeat_only]
@[simp] theorem destroyHeat_slices (s : State) (k : Nat) : (destroyHeat s k).slices = s.slices := by rw [destroyHeat_only]
@[simp] theorem destroyHeat_marginRec (s : State) (k : Nat) : (destroyHeat s k).marginRec = s.marginRec := by rw [destroyHeat_only]
@[simp] theorem destroyHeat_marginShadow (s : State) (k : Nat) : (destroyHeat s k).marginShadow = s.marginShadow := by rw [destroyHeat_only]
@[simp] theorem destroyHeat_margins (s : State) (k : Nat) : (destroyHeat s k).margins = s.margins := by rw [destroyHeat_only]
@[simp] theorem destroyHeat_counters (s : State) (k : Nat) : (destroyHeat s k).counters = s.counters := by rw [destroyHeat_only]
@[simp] theorem destroyHeat_chans (s : State) (k : Nat) : (destroyHeat s k).chans = s.chans := by rw [destroyHeat_only]
@[simp] theorem destroyHeat_rowOps (s : State) (k : Nat) : (destroyHeat s k).rowOps = s.rowOps := by rw [destroyHeat_only]
@[simp] theorem destroyHeat_rowOpNo (s : State) (k : Nat) : (destroyHeat s k).rowOpNo = s.rowOpNo := by rw [destroyHeat_only]
@[simp] theorem destroyHeat_bulk (s : State) (k : Nat) : (destroyHeat s k).bulk = s.bulk := by rw [destroyHeat_only]
@[simp] theorem destroyHeat_seqGen (s : State) (k : Nat) : (destroyHeat s k).seqGen = s.seqGen := by rw [destroyHeat_only]
@[simp] theorem destroyHeat_models (s : State) (k : Nat) : (destroyHeat s k).models = s.models := by rw [destroyHeat_only]
@[simp] theorem destroyHeat_courses (s : State) (k : Nat) : (destroyHeat s k).courses = s.courses := by rw [destroyHeat_only]
@[simp] theorem destroyHeat_place (s : State) (k : Nat) : (destroyHeat s k).place = s.place := by rw [destroyHeat_only]
@[simp] theorem destroyHeat_net (s : State) (k : Nat) : (destroyHeat s k).net = s.net := by rw [destroyHeat_only]
@[simp] theorem destroyHeat_dir (s : State) (k : Nat) : (destroyHeat s k).dir = s.dir := by rw [destroyHeat_only]
@[simp] theorem destroyHeat_sel (s : State) (k : Nat) : (destroyHeat s k).sel = s.sel := by rw [destroyHeat_only]
@[simp] theorem destroyHeat_scratch (s : State) (k : Nat) : (destroyHeat s k).scratch = s.scratch := by rw [destroyHeat_only]
@[simp] theorem destroyHeat_acct (s : State) (k : Nat) : (destroyHeat s k).acct = s.acct := by rw [destroyHeat_only]
@[simp] theorem destroyHeat_closed (s : State) (k : Nat) : (destroyHeat s k).closed = s.closed := by rw [destroyHeat_only]
@[simp] theorem destroyHeat_nodeRecs (s : State) (k : Nat) : (destroyHeat s k).nodeRecs = s.nodeRecs := by rw [destroyHeat_only]
@[simp] theorem destroyHeat_heldNext (s : State) (k : Nat) : (destroyHeat s k).heldNext = s.heldNext := by rw [destroyHeat_only]
@[simp] theorem destroyHeat_shares (s : State) (k : Nat) : (destroyHeat s k).shares = s.shares := by rw [destroyHeat_only]
@[simp] theorem destroyHeat_shareShadow (s : State) (k : Nat) : (destroyHeat s k).shareShadow = s.shareShadow := by rw [destroyHeat_only]
@[simp] theorem destroyHeat_arb (s : State) (k : Nat) : (destroyHeat s k).arb = s.arb := by rw [destroyHeat_only]
@[simp] theorem destroyHeat_arbShadow (s : State) (k : Nat) : (destroyHeat s k).arbShadow = s.arbShadow := by rw [destroyHeat_only]
@[simp] theorem destroyHeat_deficits (s : State) (k : Nat) : (destroyHeat s k).deficits = s.deficits := by rw [destroyHeat_only]
@[simp] theorem destroyHeat_dma (s : State) (k : Nat) : (destroyHeat s k).dma = s.dma := by rw [destroyHeat_only]
@[simp] theorem destroyHeat_nodeNo (s : State) (k : Nat) : (destroyHeat s k).nodeNo = s.nodeNo := by rw [destroyHeat_only]
@[simp] theorem destroyHeat_partition (s : State) (k : Nat) : (destroyHeat s k).partition = s.partition := by rw [destroyHeat_only]
@[simp] theorem destroyHeat_fenced (s : State) (k : Nat) : (destroyHeat s k).fenced = s.fenced := by rw [destroyHeat_only]

/-! ### dropHeat -/

theorem dropHeat_only (s : State) (k : Nat) :
    dropHeat s k = { s with mem := (dropHeat s k).mem, seqs := (dropHeat s k).seqs, heats := (dropHeat s k).heats, buffer := (dropHeat s k).buffer } := by
  unfold dropHeat
  split
  · rfl
  · split
    · exact destroyHeat_only _ _
    · rfl

@[simp] theorem dropHeat_pending (s : State) (k : Nat) : (dropHeat s k).pending = s.pending := by rw [dropHeat_only]
@[simp] theorem dropHeat_out (s : State) (k : Nat) : (dropHeat s k).out = s.out := by rw [dropHeat_only]
@[simp] theorem dropHeat_free (s : State) (k : Nat) : (dropHeat s k).free = s.free := by rw [dropHeat_only]
@[simp] theorem dropHeat_boot (s : State) (k : Nat) : (dropHeat s k).boot = s.boot := by rw [dropHeat_only]
@[simp] theorem dropHeat_port0 (s : State) (k : Nat) : (dropHeat s k).port0 = s.port0 := by rw [dropHeat_only]
@[simp] theorem dropHeat_port1 (s : State) (k : Nat) : (dropHeat s k).port1 = s.port1 := by rw [dropHeat_only]
@[simp] theorem dropHeat_clusters (s : State) (k : Nat) : (dropHeat s k).clusters = s.clusters := by rw [dropHeat_only]
@[simp] theorem dropHeat_thermal (s : State) (k : Nat) : (dropHeat s k).thermal = s.thermal := by rw [dropHeat_only]
@[simp] theorem dropHeat_cal (s : State) (k : Nat) : (dropHeat s k).cal = s.cal := by rw [dropHeat_only]
@[simp] theorem dropHeat_time (s : State) (k : Nat) : (dropHeat s k).time = s.time := by rw [dropHeat_only]
@[simp] theorem dropHeat_funcs (s : State) (k : Nat) : (dropHeat s k).funcs = s.funcs := by rw [dropHeat_only]
@[simp] theorem dropHeat_flights (s : State) (k : Nat) : (dropHeat s k).flights = s.flights := by rw [dropHeat_only]
@[simp] theorem dropHeat_delayed (s : State) (k : Nat) : (dropHeat s k).delayed = s.delayed := by rw [dropHeat_only]
@[simp] theorem dropHeat_sec (s : State) (k : Nat) : (dropHeat s k).sec = s.sec := by rw [dropHeat_only]
@[simp] theorem dropHeat_domains (s : State) (k : Nat) : (dropHeat s k).domains = s.domains := by rw [dropHeat_only]
@[simp] theorem dropHeat_slices (s : State) (k : Nat) : (dropHeat s k).slices = s.slices := by rw [dropHeat_only]
@[simp] theorem dropHeat_marginRec (s : State) (k : Nat) : (dropHeat s k).marginRec = s.marginRec := by rw [dropHeat_only]
@[simp] theorem dropHeat_marginShadow (s : State) (k : Nat) : (dropHeat s k).marginShadow = s.marginShadow := by rw [dropHeat_only]
@[simp] theorem dropHeat_margins (s : State) (k : Nat) : (dropHeat s k).margins = s.margins := by rw [dropHeat_only]
@[simp] theorem dropHeat_counters (s : State) (k : Nat) : (dropHeat s k).counters = s.counters := by rw [dropHeat_only]
@[simp] theorem dropHeat_chans (s : State) (k : Nat) : (dropHeat s k).chans = s.chans := by rw [dropHeat_only]
@[simp] theorem dropHeat_rowOps (s : State) (k : Nat) : (dropHeat s k).rowOps = s.rowOps := by rw [dropHeat_only]
@[simp] theorem dropHeat_rowOpNo (s : State) (k : Nat) : (dropHeat s k).rowOpNo = s.rowOpNo := by rw [dropHeat_only]
@[simp] theorem dropHeat_bulk (s : State) (k : Nat) : (dropHeat s k).bulk = s.bulk := by rw [dropHeat_only]
@[simp] theorem dropHeat_seqGen (s : State) (k : Nat) : (dropHeat s k).seqGen = s.seqGen := by rw [dropHeat_only]
@[simp] theorem dropHeat_models (s : State) (k : Nat) : (dropHeat s k).models = s.models := by rw [dropHeat_only]
@[simp] theorem dropHeat_courses (s : State) (k : Nat) : (dropHeat s k).courses = s.courses := by rw [dropHeat_only]
@[simp] theorem dropHeat_place (s : State) (k : Nat) : (dropHeat s k).place = s.place := by rw [dropHeat_only]
@[simp] theorem dropHeat_net (s : State) (k : Nat) : (dropHeat s k).net = s.net := by rw [dropHeat_only]
@[simp] theorem dropHeat_dir (s : State) (k : Nat) : (dropHeat s k).dir = s.dir := by rw [dropHeat_only]
@[simp] theorem dropHeat_sel (s : State) (k : Nat) : (dropHeat s k).sel = s.sel := by rw [dropHeat_only]
@[simp] theorem dropHeat_scratch (s : State) (k : Nat) : (dropHeat s k).scratch = s.scratch := by rw [dropHeat_only]
@[simp] theorem dropHeat_acct (s : State) (k : Nat) : (dropHeat s k).acct = s.acct := by rw [dropHeat_only]
@[simp] theorem dropHeat_closed (s : State) (k : Nat) : (dropHeat s k).closed = s.closed := by rw [dropHeat_only]
@[simp] theorem dropHeat_nodeRecs (s : State) (k : Nat) : (dropHeat s k).nodeRecs = s.nodeRecs := by rw [dropHeat_only]
@[simp] theorem dropHeat_heldNext (s : State) (k : Nat) : (dropHeat s k).heldNext = s.heldNext := by rw [dropHeat_only]
@[simp] theorem dropHeat_shares (s : State) (k : Nat) : (dropHeat s k).shares = s.shares := by rw [dropHeat_only]
@[simp] theorem dropHeat_shareShadow (s : State) (k : Nat) : (dropHeat s k).shareShadow = s.shareShadow := by rw [dropHeat_only]
@[simp] theorem dropHeat_arb (s : State) (k : Nat) : (dropHeat s k).arb = s.arb := by rw [dropHeat_only]
@[simp] theorem dropHeat_arbShadow (s : State) (k : Nat) : (dropHeat s k).arbShadow = s.arbShadow := by rw [dropHeat_only]
@[simp] theorem dropHeat_deficits (s : State) (k : Nat) : (dropHeat s k).deficits = s.deficits := by rw [dropHeat_only]
@[simp] theorem dropHeat_dma (s : State) (k : Nat) : (dropHeat s k).dma = s.dma := by rw [dropHeat_only]
@[simp] theorem dropHeat_nodeNo (s : State) (k : Nat) : (dropHeat s k).nodeNo = s.nodeNo := by rw [dropHeat_only]
@[simp] theorem dropHeat_partition (s : State) (k : Nat) : (dropHeat s k).partition = s.partition := by rw [dropHeat_only]
@[simp] theorem dropHeat_fenced (s : State) (k : Nat) : (dropHeat s k).fenced = s.fenced := by rw [dropHeat_only]

/-! ### dropHeats -/

theorem dropHeats_only (s : State) (p : HeatSt → Bool) :
    dropHeats s p = { s with mem := (dropHeats s p).mem, seqs := (dropHeats s p).seqs, heats := (dropHeats s p).heats, buffer := (dropHeats s p).buffer } := by
  have h : ∀ (s : State) (e : Nat × HeatSt), (if p e.2 then dropHeat s e.1 else s) =
      (fun t s : State => { s with mem := t.mem, seqs := t.seqs, heats := t.heats, buffer := t.buffer })
        (if p e.2 then dropHeat s e.1 else s) s := by
    intro s e
    by_cases h : p e.2 = true
    · simp only [h, if_true]; exact dropHeat_only _ _
    · simp only [h]; rfl
  have e : dropHeats s p = s.heats.l.foldl (fun s (e : Nat × HeatSt) => if p e.2 then dropHeat s e.1 else s) s := rfl
  rw [e]
  exact foldl_only (U := fun t s => { s with mem := t.mem, seqs := t.seqs, heats := t.heats, buffer := t.buffer })
    (fun _ => rfl) (fun _ _ _ => rfl) _ h _ _

@[simp] theorem dropHeats_pending (s : State) (p : HeatSt → Bool) : (dropHeats s p).pending = s.pending := by rw [dropHeats_only]
@[simp] theorem dropHeats_out (s : State) (p : HeatSt → Bool) : (dropHeats s p).out = s.out := by rw [dropHeats_only]
@[simp] theorem dropHeats_free (s : State) (p : HeatSt → Bool) : (dropHeats s p).free = s.free := by rw [dropHeats_only]
@[simp] theorem dropHeats_boot (s : State) (p : HeatSt → Bool) : (dropHeats s p).boot = s.boot := by rw [dropHeats_only]
@[simp] theorem dropHeats_port0 (s : State) (p : HeatSt → Bool) : (dropHeats s p).port0 = s.port0 := by rw [dropHeats_only]
@[simp] theorem dropHeats_port1 (s : State) (p : HeatSt → Bool) : (dropHeats s p).port1 = s.port1 := by rw [dropHeats_only]
@[simp] theorem dropHeats_clusters (s : State) (p : HeatSt → Bool) : (dropHeats s p).clusters = s.clusters := by rw [dropHeats_only]
@[simp] theorem dropHeats_thermal (s : State) (p : HeatSt → Bool) : (dropHeats s p).thermal = s.thermal := by rw [dropHeats_only]
@[simp] theorem dropHeats_cal (s : State) (p : HeatSt → Bool) : (dropHeats s p).cal = s.cal := by rw [dropHeats_only]
@[simp] theorem dropHeats_time (s : State) (p : HeatSt → Bool) : (dropHeats s p).time = s.time := by rw [dropHeats_only]
@[simp] theorem dropHeats_funcs (s : State) (p : HeatSt → Bool) : (dropHeats s p).funcs = s.funcs := by rw [dropHeats_only]
@[simp] theorem dropHeats_flights (s : State) (p : HeatSt → Bool) : (dropHeats s p).flights = s.flights := by rw [dropHeats_only]
@[simp] theorem dropHeats_delayed (s : State) (p : HeatSt → Bool) : (dropHeats s p).delayed = s.delayed := by rw [dropHeats_only]
@[simp] theorem dropHeats_sec (s : State) (p : HeatSt → Bool) : (dropHeats s p).sec = s.sec := by rw [dropHeats_only]
@[simp] theorem dropHeats_domains (s : State) (p : HeatSt → Bool) : (dropHeats s p).domains = s.domains := by rw [dropHeats_only]
@[simp] theorem dropHeats_slices (s : State) (p : HeatSt → Bool) : (dropHeats s p).slices = s.slices := by rw [dropHeats_only]
@[simp] theorem dropHeats_marginRec (s : State) (p : HeatSt → Bool) : (dropHeats s p).marginRec = s.marginRec := by rw [dropHeats_only]
@[simp] theorem dropHeats_marginShadow (s : State) (p : HeatSt → Bool) : (dropHeats s p).marginShadow = s.marginShadow := by rw [dropHeats_only]
@[simp] theorem dropHeats_margins (s : State) (p : HeatSt → Bool) : (dropHeats s p).margins = s.margins := by rw [dropHeats_only]
@[simp] theorem dropHeats_counters (s : State) (p : HeatSt → Bool) : (dropHeats s p).counters = s.counters := by rw [dropHeats_only]
@[simp] theorem dropHeats_chans (s : State) (p : HeatSt → Bool) : (dropHeats s p).chans = s.chans := by rw [dropHeats_only]
@[simp] theorem dropHeats_rowOps (s : State) (p : HeatSt → Bool) : (dropHeats s p).rowOps = s.rowOps := by rw [dropHeats_only]
@[simp] theorem dropHeats_rowOpNo (s : State) (p : HeatSt → Bool) : (dropHeats s p).rowOpNo = s.rowOpNo := by rw [dropHeats_only]
@[simp] theorem dropHeats_bulk (s : State) (p : HeatSt → Bool) : (dropHeats s p).bulk = s.bulk := by rw [dropHeats_only]
@[simp] theorem dropHeats_seqGen (s : State) (p : HeatSt → Bool) : (dropHeats s p).seqGen = s.seqGen := by rw [dropHeats_only]
@[simp] theorem dropHeats_models (s : State) (p : HeatSt → Bool) : (dropHeats s p).models = s.models := by rw [dropHeats_only]
@[simp] theorem dropHeats_courses (s : State) (p : HeatSt → Bool) : (dropHeats s p).courses = s.courses := by rw [dropHeats_only]
@[simp] theorem dropHeats_place (s : State) (p : HeatSt → Bool) : (dropHeats s p).place = s.place := by rw [dropHeats_only]
@[simp] theorem dropHeats_net (s : State) (p : HeatSt → Bool) : (dropHeats s p).net = s.net := by rw [dropHeats_only]
@[simp] theorem dropHeats_dir (s : State) (p : HeatSt → Bool) : (dropHeats s p).dir = s.dir := by rw [dropHeats_only]
@[simp] theorem dropHeats_sel (s : State) (p : HeatSt → Bool) : (dropHeats s p).sel = s.sel := by rw [dropHeats_only]
@[simp] theorem dropHeats_scratch (s : State) (p : HeatSt → Bool) : (dropHeats s p).scratch = s.scratch := by rw [dropHeats_only]
@[simp] theorem dropHeats_acct (s : State) (p : HeatSt → Bool) : (dropHeats s p).acct = s.acct := by rw [dropHeats_only]
@[simp] theorem dropHeats_closed (s : State) (p : HeatSt → Bool) : (dropHeats s p).closed = s.closed := by rw [dropHeats_only]
@[simp] theorem dropHeats_nodeRecs (s : State) (p : HeatSt → Bool) : (dropHeats s p).nodeRecs = s.nodeRecs := by rw [dropHeats_only]
@[simp] theorem dropHeats_heldNext (s : State) (p : HeatSt → Bool) : (dropHeats s p).heldNext = s.heldNext := by rw [dropHeats_only]
@[simp] theorem dropHeats_shares (s : State) (p : HeatSt → Bool) : (dropHeats s p).shares = s.shares := by rw [dropHeats_only]
@[simp] theorem dropHeats_shareShadow (s : State) (p : HeatSt → Bool) : (dropHeats s p).shareShadow = s.shareShadow := by rw [dropHeats_only]
@[simp] theorem dropHeats_arb (s : State) (p : HeatSt → Bool) : (dropHeats s p).arb = s.arb := by rw [dropHeats_only]
@[simp] theorem dropHeats_arbShadow (s : State) (p : HeatSt → Bool) : (dropHeats s p).arbShadow = s.arbShadow := by rw [dropHeats_only]
@[simp] theorem dropHeats_deficits (s : State) (p : HeatSt → Bool) : (dropHeats s p).deficits = s.deficits := by rw [dropHeats_only]
@[simp] theorem dropHeats_dma (s : State) (p : HeatSt → Bool) : (dropHeats s p).dma = s.dma := by rw [dropHeats_only]
@[simp] theorem dropHeats_nodeNo (s : State) (p : HeatSt → Bool) : (dropHeats s p).nodeNo = s.nodeNo := by rw [dropHeats_only]
@[simp] theorem dropHeats_partition (s : State) (p : HeatSt → Bool) : (dropHeats s p).partition = s.partition := by rw [dropHeats_only]
@[simp] theorem dropHeats_fenced (s : State) (p : HeatSt → Bool) : (dropHeats s p).fenced = s.fenced := by rw [dropHeats_only]

/-! ### resetQueues -/

theorem resetQueues_only (s : State) (p : Nat → QueueSt → Bool) :
    resetQueues s p = { s with net := (resetQueues s p).net } := by
  rfl

@[simp] theorem resetQueues_pending (s : State) (p : Nat → QueueSt → Bool) : (resetQueues s p).pending = s.pending := by rw [resetQueues_only]
@[simp] theorem resetQueues_out (s : State) (p : Nat → QueueSt → Bool) : (resetQueues s p).out = s.out := by rw [resetQueues_only]
@[simp] theorem resetQueues_free (s : State) (p : Nat → QueueSt → Bool) : (resetQueues s p).free = s.free := by rw [resetQueues_only]
@[simp] theorem resetQueues_boot (s : State) (p : Nat → QueueSt → Bool) : (resetQueues s p).boot = s.boot := by rw [resetQueues_only]
@[simp] theorem resetQueues_port0 (s : State) (p : Nat → QueueSt → Bool) : (resetQueues s p).port0 = s.port0 := by rw [resetQueues_only]
@[simp] theorem resetQueues_port1 (s : State) (p : Nat → QueueSt → Bool) : (resetQueues s p).port1 = s.port1 := by rw [resetQueues_only]
@[simp] theorem resetQueues_clusters (s : State) (p : Nat → QueueSt → Bool) : (resetQueues s p).clusters = s.clusters := by rw [resetQueues_only]
@[simp] theorem resetQueues_thermal (s : State) (p : Nat → QueueSt → Bool) : (resetQueues s p).thermal = s.thermal := by rw [resetQueues_only]
@[simp] theorem resetQueues_cal (s : State) (p : Nat → QueueSt → Bool) : (resetQueues s p).cal = s.cal := by rw [resetQueues_only]
@[simp] theorem resetQueues_time (s : State) (p : Nat → QueueSt → Bool) : (resetQueues s p).time = s.time := by rw [resetQueues_only]
@[simp] theorem resetQueues_funcs (s : State) (p : Nat → QueueSt → Bool) : (resetQueues s p).funcs = s.funcs := by rw [resetQueues_only]
@[simp] theorem resetQueues_flights (s : State) (p : Nat → QueueSt → Bool) : (resetQueues s p).flights = s.flights := by rw [resetQueues_only]
@[simp] theorem resetQueues_delayed (s : State) (p : Nat → QueueSt → Bool) : (resetQueues s p).delayed = s.delayed := by rw [resetQueues_only]
@[simp] theorem resetQueues_sec (s : State) (p : Nat → QueueSt → Bool) : (resetQueues s p).sec = s.sec := by rw [resetQueues_only]
@[simp] theorem resetQueues_domains (s : State) (p : Nat → QueueSt → Bool) : (resetQueues s p).domains = s.domains := by rw [resetQueues_only]
@[simp] theorem resetQueues_slices (s : State) (p : Nat → QueueSt → Bool) : (resetQueues s p).slices = s.slices := by rw [resetQueues_only]
@[simp] theorem resetQueues_marginRec (s : State) (p : Nat → QueueSt → Bool) : (resetQueues s p).marginRec = s.marginRec := by rw [resetQueues_only]
@[simp] theorem resetQueues_marginShadow (s : State) (p : Nat → QueueSt → Bool) : (resetQueues s p).marginShadow = s.marginShadow := by rw [resetQueues_only]
@[simp] theorem resetQueues_margins (s : State) (p : Nat → QueueSt → Bool) : (resetQueues s p).margins = s.margins := by rw [resetQueues_only]
@[simp] theorem resetQueues_counters (s : State) (p : Nat → QueueSt → Bool) : (resetQueues s p).counters = s.counters := by rw [resetQueues_only]
@[simp] theorem resetQueues_chans (s : State) (p : Nat → QueueSt → Bool) : (resetQueues s p).chans = s.chans := by rw [resetQueues_only]
@[simp] theorem resetQueues_rowOps (s : State) (p : Nat → QueueSt → Bool) : (resetQueues s p).rowOps = s.rowOps := by rw [resetQueues_only]
@[simp] theorem resetQueues_rowOpNo (s : State) (p : Nat → QueueSt → Bool) : (resetQueues s p).rowOpNo = s.rowOpNo := by rw [resetQueues_only]
@[simp] theorem resetQueues_bulk (s : State) (p : Nat → QueueSt → Bool) : (resetQueues s p).bulk = s.bulk := by rw [resetQueues_only]
@[simp] theorem resetQueues_mem (s : State) (p : Nat → QueueSt → Bool) : (resetQueues s p).mem = s.mem := by rw [resetQueues_only]
@[simp] theorem resetQueues_seqs (s : State) (p : Nat → QueueSt → Bool) : (resetQueues s p).seqs = s.seqs := by rw [resetQueues_only]
@[simp] theorem resetQueues_seqGen (s : State) (p : Nat → QueueSt → Bool) : (resetQueues s p).seqGen = s.seqGen := by rw [resetQueues_only]
@[simp] theorem resetQueues_models (s : State) (p : Nat → QueueSt → Bool) : (resetQueues s p).models = s.models := by rw [resetQueues_only]
@[simp] theorem resetQueues_courses (s : State) (p : Nat → QueueSt → Bool) : (resetQueues s p).courses = s.courses := by rw [resetQueues_only]
@[simp] theorem resetQueues_heats (s : State) (p : Nat → QueueSt → Bool) : (resetQueues s p).heats = s.heats := by rw [resetQueues_only]
@[simp] theorem resetQueues_place (s : State) (p : Nat → QueueSt → Bool) : (resetQueues s p).place = s.place := by rw [resetQueues_only]
@[simp] theorem resetQueues_dir (s : State) (p : Nat → QueueSt → Bool) : (resetQueues s p).dir = s.dir := by rw [resetQueues_only]
@[simp] theorem resetQueues_sel (s : State) (p : Nat → QueueSt → Bool) : (resetQueues s p).sel = s.sel := by rw [resetQueues_only]
@[simp] theorem resetQueues_scratch (s : State) (p : Nat → QueueSt → Bool) : (resetQueues s p).scratch = s.scratch := by rw [resetQueues_only]
@[simp] theorem resetQueues_buffer (s : State) (p : Nat → QueueSt → Bool) : (resetQueues s p).buffer = s.buffer := by rw [resetQueues_only]
@[simp] theorem resetQueues_acct (s : State) (p : Nat → QueueSt → Bool) : (resetQueues s p).acct = s.acct := by rw [resetQueues_only]
@[simp] theorem resetQueues_closed (s : State) (p : Nat → QueueSt → Bool) : (resetQueues s p).closed = s.closed := by rw [resetQueues_only]
@[simp] theorem resetQueues_nodeRecs (s : State) (p : Nat → QueueSt → Bool) : (resetQueues s p).nodeRecs = s.nodeRecs := by rw [resetQueues_only]
@[simp] theorem resetQueues_heldNext (s : State) (p : Nat → QueueSt → Bool) : (resetQueues s p).heldNext = s.heldNext := by rw [resetQueues_only]
@[simp] theorem resetQueues_shares (s : State) (p : Nat → QueueSt → Bool) : (resetQueues s p).shares = s.shares := by rw [resetQueues_only]
@[simp] theorem resetQueues_shareShadow (s : State) (p : Nat → QueueSt → Bool) : (resetQueues s p).shareShadow = s.shareShadow := by rw [resetQueues_only]
@[simp] theorem resetQueues_arb (s : State) (p : Nat → QueueSt → Bool) : (resetQueues s p).arb = s.arb := by rw [resetQueues_only]
@[simp] theorem resetQueues_arbShadow (s : State) (p : Nat → QueueSt → Bool) : (resetQueues s p).arbShadow = s.arbShadow := by rw [resetQueues_only]
@[simp] theorem resetQueues_deficits (s : State) (p : Nat → QueueSt → Bool) : (resetQueues s p).deficits = s.deficits := by rw [resetQueues_only]
@[simp] theorem resetQueues_dma (s : State) (p : Nat → QueueSt → Bool) : (resetQueues s p).dma = s.dma := by rw [resetQueues_only]
@[simp] theorem resetQueues_nodeNo (s : State) (p : Nat → QueueSt → Bool) : (resetQueues s p).nodeNo = s.nodeNo := by rw [resetQueues_only]
@[simp] theorem resetQueues_partition (s : State) (p : Nat → QueueSt → Bool) : (resetQueues s p).partition = s.partition := by rw [resetQueues_only]
@[simp] theorem resetQueues_fenced (s : State) (p : Nat → QueueSt → Bool) : (resetQueues s p).fenced = s.fenced := by rw [resetQueues_only]

/-! ### revokeRegions -/

theorem revokeRegions_only (s : State) (p : RegionSt → Bool) :
    revokeRegions s p = { s with net := (revokeRegions s p).net } := by
  rfl

@[simp] theorem revokeRegions_pending (s : State) (p : RegionSt → Bool) : (revokeRegions s p).pending = s.pending := by rw [revokeRegions_only]
@[simp] theorem revokeRegions_out (s : State) (p : RegionSt → Bool) : (revokeRegions s p).out = s.out := by rw [revokeRegions_only]
@[simp] theorem revokeRegions_free (s : State) (p : RegionSt → Bool) : (revokeRegions s p).free = s.free := by rw [revokeRegions_only]
@[simp] theorem revokeRegions_boot (s : State) (p : RegionSt → Bool) : (revokeRegions s p).boot = s.boot := by rw [revokeRegions_only]
@[simp] theorem revokeRegions_port0 (s : State) (p : RegionSt → Bool) : (revokeRegions s p).port0 = s.port0 := by rw [revokeRegions_only]
@[simp] theorem revokeRegions_port1 (s : State) (p : RegionSt → Bool) : (revokeRegions s p).port1 = s.port1 := by rw [revokeRegions_only]
@[simp] theorem revokeRegions_clusters (s : State) (p : RegionSt → Bool) : (revokeRegions s p).clusters = s.clusters := by rw [revokeRegions_only]
@[simp] theorem revokeRegions_thermal (s : State) (p : RegionSt → Bool) : (revokeRegions s p).thermal = s.thermal := by rw [revokeRegions_only]
@[simp] theorem revokeRegions_cal (s : State) (p : RegionSt → Bool) : (revokeRegions s p).cal = s.cal := by rw [revokeRegions_only]
@[simp] theorem revokeRegions_time (s : State) (p : RegionSt → Bool) : (revokeRegions s p).time = s.time := by rw [revokeRegions_only]
@[simp] theorem revokeRegions_funcs (s : State) (p : RegionSt → Bool) : (revokeRegions s p).funcs = s.funcs := by rw [revokeRegions_only]
@[simp] theorem revokeRegions_flights (s : State) (p : RegionSt → Bool) : (revokeRegions s p).flights = s.flights := by rw [revokeRegions_only]
@[simp] theorem revokeRegions_delayed (s : State) (p : RegionSt → Bool) : (revokeRegions s p).delayed = s.delayed := by rw [revokeRegions_only]
@[simp] theorem revokeRegions_sec (s : State) (p : RegionSt → Bool) : (revokeRegions s p).sec = s.sec := by rw [revokeRegions_only]
@[simp] theorem revokeRegions_domains (s : State) (p : RegionSt → Bool) : (revokeRegions s p).domains = s.domains := by rw [revokeRegions_only]
@[simp] theorem revokeRegions_slices (s : State) (p : RegionSt → Bool) : (revokeRegions s p).slices = s.slices := by rw [revokeRegions_only]
@[simp] theorem revokeRegions_marginRec (s : State) (p : RegionSt → Bool) : (revokeRegions s p).marginRec = s.marginRec := by rw [revokeRegions_only]
@[simp] theorem revokeRegions_marginShadow (s : State) (p : RegionSt → Bool) : (revokeRegions s p).marginShadow = s.marginShadow := by rw [revokeRegions_only]
@[simp] theorem revokeRegions_margins (s : State) (p : RegionSt → Bool) : (revokeRegions s p).margins = s.margins := by rw [revokeRegions_only]
@[simp] theorem revokeRegions_counters (s : State) (p : RegionSt → Bool) : (revokeRegions s p).counters = s.counters := by rw [revokeRegions_only]
@[simp] theorem revokeRegions_chans (s : State) (p : RegionSt → Bool) : (revokeRegions s p).chans = s.chans := by rw [revokeRegions_only]
@[simp] theorem revokeRegions_rowOps (s : State) (p : RegionSt → Bool) : (revokeRegions s p).rowOps = s.rowOps := by rw [revokeRegions_only]
@[simp] theorem revokeRegions_rowOpNo (s : State) (p : RegionSt → Bool) : (revokeRegions s p).rowOpNo = s.rowOpNo := by rw [revokeRegions_only]
@[simp] theorem revokeRegions_bulk (s : State) (p : RegionSt → Bool) : (revokeRegions s p).bulk = s.bulk := by rw [revokeRegions_only]
@[simp] theorem revokeRegions_mem (s : State) (p : RegionSt → Bool) : (revokeRegions s p).mem = s.mem := by rw [revokeRegions_only]
@[simp] theorem revokeRegions_seqs (s : State) (p : RegionSt → Bool) : (revokeRegions s p).seqs = s.seqs := by rw [revokeRegions_only]
@[simp] theorem revokeRegions_seqGen (s : State) (p : RegionSt → Bool) : (revokeRegions s p).seqGen = s.seqGen := by rw [revokeRegions_only]
@[simp] theorem revokeRegions_models (s : State) (p : RegionSt → Bool) : (revokeRegions s p).models = s.models := by rw [revokeRegions_only]
@[simp] theorem revokeRegions_courses (s : State) (p : RegionSt → Bool) : (revokeRegions s p).courses = s.courses := by rw [revokeRegions_only]
@[simp] theorem revokeRegions_heats (s : State) (p : RegionSt → Bool) : (revokeRegions s p).heats = s.heats := by rw [revokeRegions_only]
@[simp] theorem revokeRegions_place (s : State) (p : RegionSt → Bool) : (revokeRegions s p).place = s.place := by rw [revokeRegions_only]
@[simp] theorem revokeRegions_dir (s : State) (p : RegionSt → Bool) : (revokeRegions s p).dir = s.dir := by rw [revokeRegions_only]
@[simp] theorem revokeRegions_sel (s : State) (p : RegionSt → Bool) : (revokeRegions s p).sel = s.sel := by rw [revokeRegions_only]
@[simp] theorem revokeRegions_scratch (s : State) (p : RegionSt → Bool) : (revokeRegions s p).scratch = s.scratch := by rw [revokeRegions_only]
@[simp] theorem revokeRegions_buffer (s : State) (p : RegionSt → Bool) : (revokeRegions s p).buffer = s.buffer := by rw [revokeRegions_only]
@[simp] theorem revokeRegions_acct (s : State) (p : RegionSt → Bool) : (revokeRegions s p).acct = s.acct := by rw [revokeRegions_only]
@[simp] theorem revokeRegions_closed (s : State) (p : RegionSt → Bool) : (revokeRegions s p).closed = s.closed := by rw [revokeRegions_only]
@[simp] theorem revokeRegions_nodeRecs (s : State) (p : RegionSt → Bool) : (revokeRegions s p).nodeRecs = s.nodeRecs := by rw [revokeRegions_only]
@[simp] theorem revokeRegions_heldNext (s : State) (p : RegionSt → Bool) : (revokeRegions s p).heldNext = s.heldNext := by rw [revokeRegions_only]
@[simp] theorem revokeRegions_shares (s : State) (p : RegionSt → Bool) : (revokeRegions s p).shares = s.shares := by rw [revokeRegions_only]
@[simp] theorem revokeRegions_shareShadow (s : State) (p : RegionSt → Bool) : (revokeRegions s p).shareShadow = s.shareShadow := by rw [revokeRegions_only]
@[simp] theorem revokeRegions_arb (s : State) (p : RegionSt → Bool) : (revokeRegions s p).arb = s.arb := by rw [revokeRegions_only]
@[simp] theorem revokeRegions_arbShadow (s : State) (p : RegionSt → Bool) : (revokeRegions s p).arbShadow = s.arbShadow := by rw [revokeRegions_only]
@[simp] theorem revokeRegions_deficits (s : State) (p : RegionSt → Bool) : (revokeRegions s p).deficits = s.deficits := by rw [revokeRegions_only]
@[simp] theorem revokeRegions_dma (s : State) (p : RegionSt → Bool) : (revokeRegions s p).dma = s.dma := by rw [revokeRegions_only]
@[simp] theorem revokeRegions_nodeNo (s : State) (p : RegionSt → Bool) : (revokeRegions s p).nodeNo = s.nodeNo := by rw [revokeRegions_only]
@[simp] theorem revokeRegions_partition (s : State) (p : RegionSt → Bool) : (revokeRegions s p).partition = s.partition := by rw [revokeRegions_only]
@[simp] theorem revokeRegions_fenced (s : State) (p : RegionSt → Bool) : (revokeRegions s p).fenced = s.fenced := by rw [revokeRegions_only]

/-! ### abandonDma -/

theorem abandonDma_only (s : State) (p : Nat → BitVec 128 → Bool) (n : Nat) :
    abandonDma s p n = { s with dma := (abandonDma s p n).dma } := by
  rfl

@[simp] theorem abandonDma_pending (s : State) (p : Nat → BitVec 128 → Bool) (n : Nat) : (abandonDma s p n).pending = s.pending := by rw [abandonDma_only]
@[simp] theorem abandonDma_out (s : State) (p : Nat → BitVec 128 → Bool) (n : Nat) : (abandonDma s p n).out = s.out := by rw [abandonDma_only]
@[simp] theorem abandonDma_free (s : State) (p : Nat → BitVec 128 → Bool) (n : Nat) : (abandonDma s p n).free = s.free := by rw [abandonDma_only]
@[simp] theorem abandonDma_boot (s : State) (p : Nat → BitVec 128 → Bool) (n : Nat) : (abandonDma s p n).boot = s.boot := by rw [abandonDma_only]
@[simp] theorem abandonDma_port0 (s : State) (p : Nat → BitVec 128 → Bool) (n : Nat) : (abandonDma s p n).port0 = s.port0 := by rw [abandonDma_only]
@[simp] theorem abandonDma_port1 (s : State) (p : Nat → BitVec 128 → Bool) (n : Nat) : (abandonDma s p n).port1 = s.port1 := by rw [abandonDma_only]
@[simp] theorem abandonDma_clusters (s : State) (p : Nat → BitVec 128 → Bool) (n : Nat) : (abandonDma s p n).clusters = s.clusters := by rw [abandonDma_only]
@[simp] theorem abandonDma_thermal (s : State) (p : Nat → BitVec 128 → Bool) (n : Nat) : (abandonDma s p n).thermal = s.thermal := by rw [abandonDma_only]
@[simp] theorem abandonDma_cal (s : State) (p : Nat → BitVec 128 → Bool) (n : Nat) : (abandonDma s p n).cal = s.cal := by rw [abandonDma_only]
@[simp] theorem abandonDma_time (s : State) (p : Nat → BitVec 128 → Bool) (n : Nat) : (abandonDma s p n).time = s.time := by rw [abandonDma_only]
@[simp] theorem abandonDma_funcs (s : State) (p : Nat → BitVec 128 → Bool) (n : Nat) : (abandonDma s p n).funcs = s.funcs := by rw [abandonDma_only]
@[simp] theorem abandonDma_flights (s : State) (p : Nat → BitVec 128 → Bool) (n : Nat) : (abandonDma s p n).flights = s.flights := by rw [abandonDma_only]
@[simp] theorem abandonDma_delayed (s : State) (p : Nat → BitVec 128 → Bool) (n : Nat) : (abandonDma s p n).delayed = s.delayed := by rw [abandonDma_only]
@[simp] theorem abandonDma_sec (s : State) (p : Nat → BitVec 128 → Bool) (n : Nat) : (abandonDma s p n).sec = s.sec := by rw [abandonDma_only]
@[simp] theorem abandonDma_domains (s : State) (p : Nat → BitVec 128 → Bool) (n : Nat) : (abandonDma s p n).domains = s.domains := by rw [abandonDma_only]
@[simp] theorem abandonDma_slices (s : State) (p : Nat → BitVec 128 → Bool) (n : Nat) : (abandonDma s p n).slices = s.slices := by rw [abandonDma_only]
@[simp] theorem abandonDma_marginRec (s : State) (p : Nat → BitVec 128 → Bool) (n : Nat) : (abandonDma s p n).marginRec = s.marginRec := by rw [abandonDma_only]
@[simp] theorem abandonDma_marginShadow (s : State) (p : Nat → BitVec 128 → Bool) (n : Nat) : (abandonDma s p n).marginShadow = s.marginShadow := by rw [abandonDma_only]
@[simp] theorem abandonDma_margins (s : State) (p : Nat → BitVec 128 → Bool) (n : Nat) : (abandonDma s p n).margins = s.margins := by rw [abandonDma_only]
@[simp] theorem abandonDma_counters (s : State) (p : Nat → BitVec 128 → Bool) (n : Nat) : (abandonDma s p n).counters = s.counters := by rw [abandonDma_only]
@[simp] theorem abandonDma_chans (s : State) (p : Nat → BitVec 128 → Bool) (n : Nat) : (abandonDma s p n).chans = s.chans := by rw [abandonDma_only]
@[simp] theorem abandonDma_rowOps (s : State) (p : Nat → BitVec 128 → Bool) (n : Nat) : (abandonDma s p n).rowOps = s.rowOps := by rw [abandonDma_only]
@[simp] theorem abandonDma_rowOpNo (s : State) (p : Nat → BitVec 128 → Bool) (n : Nat) : (abandonDma s p n).rowOpNo = s.rowOpNo := by rw [abandonDma_only]
@[simp] theorem abandonDma_bulk (s : State) (p : Nat → BitVec 128 → Bool) (n : Nat) : (abandonDma s p n).bulk = s.bulk := by rw [abandonDma_only]
@[simp] theorem abandonDma_mem (s : State) (p : Nat → BitVec 128 → Bool) (n : Nat) : (abandonDma s p n).mem = s.mem := by rw [abandonDma_only]
@[simp] theorem abandonDma_seqs (s : State) (p : Nat → BitVec 128 → Bool) (n : Nat) : (abandonDma s p n).seqs = s.seqs := by rw [abandonDma_only]
@[simp] theorem abandonDma_seqGen (s : State) (p : Nat → BitVec 128 → Bool) (n : Nat) : (abandonDma s p n).seqGen = s.seqGen := by rw [abandonDma_only]
@[simp] theorem abandonDma_models (s : State) (p : Nat → BitVec 128 → Bool) (n : Nat) : (abandonDma s p n).models = s.models := by rw [abandonDma_only]
@[simp] theorem abandonDma_courses (s : State) (p : Nat → BitVec 128 → Bool) (n : Nat) : (abandonDma s p n).courses = s.courses := by rw [abandonDma_only]
@[simp] theorem abandonDma_heats (s : State) (p : Nat → BitVec 128 → Bool) (n : Nat) : (abandonDma s p n).heats = s.heats := by rw [abandonDma_only]
@[simp] theorem abandonDma_place (s : State) (p : Nat → BitVec 128 → Bool) (n : Nat) : (abandonDma s p n).place = s.place := by rw [abandonDma_only]
@[simp] theorem abandonDma_net (s : State) (p : Nat → BitVec 128 → Bool) (n : Nat) : (abandonDma s p n).net = s.net := by rw [abandonDma_only]
@[simp] theorem abandonDma_dir (s : State) (p : Nat → BitVec 128 → Bool) (n : Nat) : (abandonDma s p n).dir = s.dir := by rw [abandonDma_only]
@[simp] theorem abandonDma_sel (s : State) (p : Nat → BitVec 128 → Bool) (n : Nat) : (abandonDma s p n).sel = s.sel := by rw [abandonDma_only]
@[simp] theorem abandonDma_scratch (s : State) (p : Nat → BitVec 128 → Bool) (n : Nat) : (abandonDma s p n).scratch = s.scratch := by rw [abandonDma_only]
@[simp] theorem abandonDma_buffer (s : State) (p : Nat → BitVec 128 → Bool) (n : Nat) : (abandonDma s p n).buffer = s.buffer := by rw [abandonDma_only]
@[simp] theorem abandonDma_acct (s : State) (p : Nat → BitVec 128 → Bool) (n : Nat) : (abandonDma s p n).acct = s.acct := by rw [abandonDma_only]
@[simp] theorem abandonDma_closed (s : State) (p : Nat → BitVec 128 → Bool) (n : Nat) : (abandonDma s p n).closed = s.closed := by rw [abandonDma_only]
@[simp] theorem abandonDma_nodeRecs (s : State) (p : Nat → BitVec 128 → Bool) (n : Nat) : (abandonDma s p n).nodeRecs = s.nodeRecs := by rw [abandonDma_only]
@[simp] theorem abandonDma_heldNext (s : State) (p : Nat → BitVec 128 → Bool) (n : Nat) : (abandonDma s p n).heldNext = s.heldNext := by rw [abandonDma_only]
@[simp] theorem abandonDma_shares (s : State) (p : Nat → BitVec 128 → Bool) (n : Nat) : (abandonDma s p n).shares = s.shares := by rw [abandonDma_only]
@[simp] theorem abandonDma_shareShadow (s : State) (p : Nat → BitVec 128 → Bool) (n : Nat) : (abandonDma s p n).shareShadow = s.shareShadow := by rw [abandonDma_only]
@[simp] theorem abandonDma_arb (s : State) (p : Nat → BitVec 128 → Bool) (n : Nat) : (abandonDma s p n).arb = s.arb := by rw [abandonDma_only]
@[simp] theorem abandonDma_arbShadow (s : State) (p : Nat → BitVec 128 → Bool) (n : Nat) : (abandonDma s p n).arbShadow = s.arbShadow := by rw [abandonDma_only]
@[simp] theorem abandonDma_deficits (s : State) (p : Nat → BitVec 128 → Bool) (n : Nat) : (abandonDma s p n).deficits = s.deficits := by rw [abandonDma_only]
@[simp] theorem abandonDma_nodeNo (s : State) (p : Nat → BitVec 128 → Bool) (n : Nat) : (abandonDma s p n).nodeNo = s.nodeNo := by rw [abandonDma_only]
@[simp] theorem abandonDma_partition (s : State) (p : Nat → BitVec 128 → Bool) (n : Nat) : (abandonDma s p n).partition = s.partition := by rw [abandonDma_only]
@[simp] theorem abandonDma_fenced (s : State) (p : Nat → BitVec 128 → Bool) (n : Nat) : (abandonDma s p n).fenced = s.fenced := by rw [abandonDma_only]

/-! ### resetFunc -/

theorem resetFunc_only (s : State) (p : Port) (f : Func) :
    resetFunc s p f = { s with funcs := (resetFunc s p f).funcs, flights := (resetFunc s p f).flights, delayed := (resetFunc s p f).delayed, mem := (resetFunc s p f).mem, seqs := (resetFunc s p f).seqs, heats := (resetFunc s p f).heats, buffer := (resetFunc s p f).buffer, net := (resetFunc s p f).net, dma := (resetFunc s p f).dma } := by
  apply State.same <;> simp [resetFunc]

@[simp] theorem resetFunc_pending (s : State) (p : Port) (f : Func) : (resetFunc s p f).pending = s.pending := by rw [resetFunc_only]
@[simp] theorem resetFunc_out (s : State) (p : Port) (f : Func) : (resetFunc s p f).out = s.out := by rw [resetFunc_only]
@[simp] theorem resetFunc_free (s : State) (p : Port) (f : Func) : (resetFunc s p f).free = s.free := by rw [resetFunc_only]
@[simp] theorem resetFunc_boot (s : State) (p : Port) (f : Func) : (resetFunc s p f).boot = s.boot := by rw [resetFunc_only]
@[simp] theorem resetFunc_port0 (s : State) (p : Port) (f : Func) : (resetFunc s p f).port0 = s.port0 := by rw [resetFunc_only]
@[simp] theorem resetFunc_port1 (s : State) (p : Port) (f : Func) : (resetFunc s p f).port1 = s.port1 := by rw [resetFunc_only]
@[simp] theorem resetFunc_clusters (s : State) (p : Port) (f : Func) : (resetFunc s p f).clusters = s.clusters := by rw [resetFunc_only]
@[simp] theorem resetFunc_thermal (s : State) (p : Port) (f : Func) : (resetFunc s p f).thermal = s.thermal := by rw [resetFunc_only]
@[simp] theorem resetFunc_cal (s : State) (p : Port) (f : Func) : (resetFunc s p f).cal = s.cal := by rw [resetFunc_only]
@[simp] theorem resetFunc_time (s : State) (p : Port) (f : Func) : (resetFunc s p f).time = s.time := by rw [resetFunc_only]
@[simp] theorem resetFunc_sec (s : State) (p : Port) (f : Func) : (resetFunc s p f).sec = s.sec := by rw [resetFunc_only]
@[simp] theorem resetFunc_domains (s : State) (p : Port) (f : Func) : (resetFunc s p f).domains = s.domains := by rw [resetFunc_only]
@[simp] theorem resetFunc_slices (s : State) (p : Port) (f : Func) : (resetFunc s p f).slices = s.slices := by rw [resetFunc_only]
@[simp] theorem resetFunc_marginRec (s : State) (p : Port) (f : Func) : (resetFunc s p f).marginRec = s.marginRec := by rw [resetFunc_only]
@[simp] theorem resetFunc_marginShadow (s : State) (p : Port) (f : Func) : (resetFunc s p f).marginShadow = s.marginShadow := by rw [resetFunc_only]
@[simp] theorem resetFunc_margins (s : State) (p : Port) (f : Func) : (resetFunc s p f).margins = s.margins := by rw [resetFunc_only]
@[simp] theorem resetFunc_counters (s : State) (p : Port) (f : Func) : (resetFunc s p f).counters = s.counters := by rw [resetFunc_only]
@[simp] theorem resetFunc_chans (s : State) (p : Port) (f : Func) : (resetFunc s p f).chans = s.chans := by rw [resetFunc_only]
@[simp] theorem resetFunc_rowOps (s : State) (p : Port) (f : Func) : (resetFunc s p f).rowOps = s.rowOps := by rw [resetFunc_only]
@[simp] theorem resetFunc_rowOpNo (s : State) (p : Port) (f : Func) : (resetFunc s p f).rowOpNo = s.rowOpNo := by rw [resetFunc_only]
@[simp] theorem resetFunc_bulk (s : State) (p : Port) (f : Func) : (resetFunc s p f).bulk = s.bulk := by rw [resetFunc_only]
@[simp] theorem resetFunc_seqGen (s : State) (p : Port) (f : Func) : (resetFunc s p f).seqGen = s.seqGen := by rw [resetFunc_only]
@[simp] theorem resetFunc_models (s : State) (p : Port) (f : Func) : (resetFunc s p f).models = s.models := by rw [resetFunc_only]
@[simp] theorem resetFunc_courses (s : State) (p : Port) (f : Func) : (resetFunc s p f).courses = s.courses := by rw [resetFunc_only]
@[simp] theorem resetFunc_place (s : State) (p : Port) (f : Func) : (resetFunc s p f).place = s.place := by rw [resetFunc_only]
@[simp] theorem resetFunc_dir (s : State) (p : Port) (f : Func) : (resetFunc s p f).dir = s.dir := by rw [resetFunc_only]
@[simp] theorem resetFunc_sel (s : State) (p : Port) (f : Func) : (resetFunc s p f).sel = s.sel := by rw [resetFunc_only]
@[simp] theorem resetFunc_scratch (s : State) (p : Port) (f : Func) : (resetFunc s p f).scratch = s.scratch := by rw [resetFunc_only]
@[simp] theorem resetFunc_acct (s : State) (p : Port) (f : Func) : (resetFunc s p f).acct = s.acct := by rw [resetFunc_only]
@[simp] theorem resetFunc_closed (s : State) (p : Port) (f : Func) : (resetFunc s p f).closed = s.closed := by rw [resetFunc_only]
@[simp] theorem resetFunc_nodeRecs (s : State) (p : Port) (f : Func) : (resetFunc s p f).nodeRecs = s.nodeRecs := by rw [resetFunc_only]
@[simp] theorem resetFunc_heldNext (s : State) (p : Port) (f : Func) : (resetFunc s p f).heldNext = s.heldNext := by rw [resetFunc_only]
@[simp] theorem resetFunc_shares (s : State) (p : Port) (f : Func) : (resetFunc s p f).shares = s.shares := by rw [resetFunc_only]
@[simp] theorem resetFunc_shareShadow (s : State) (p : Port) (f : Func) : (resetFunc s p f).shareShadow = s.shareShadow := by rw [resetFunc_only]
@[simp] theorem resetFunc_arb (s : State) (p : Port) (f : Func) : (resetFunc s p f).arb = s.arb := by rw [resetFunc_only]
@[simp] theorem resetFunc_arbShadow (s : State) (p : Port) (f : Func) : (resetFunc s p f).arbShadow = s.arbShadow := by rw [resetFunc_only]
@[simp] theorem resetFunc_deficits (s : State) (p : Port) (f : Func) : (resetFunc s p f).deficits = s.deficits := by rw [resetFunc_only]
@[simp] theorem resetFunc_nodeNo (s : State) (p : Port) (f : Func) : (resetFunc s p f).nodeNo = s.nodeNo := by rw [resetFunc_only]
@[simp] theorem resetFunc_partition (s : State) (p : Port) (f : Func) : (resetFunc s p f).partition = s.partition := by rw [resetFunc_only]
@[simp] theorem resetFunc_fenced (s : State) (p : Port) (f : Func) : (resetFunc s p f).fenced = s.fenced := by rw [resetFunc_only]

/-! ### unassign -/

theorem unassign_only (s : State) (p : Port) (f : Func) :
    unassign s p f = { s with funcs := (unassign s p f).funcs } := by
  rfl

@[simp] theorem unassign_pending (s : State) (p : Port) (f : Func) : (unassign s p f).pending = s.pending := by rw [unassign_only]
@[simp] theorem unassign_out (s : State) (p : Port) (f : Func) : (unassign s p f).out = s.out := by rw [unassign_only]
@[simp] theorem unassign_free (s : State) (p : Port) (f : Func) : (unassign s p f).free = s.free := by rw [unassign_only]
@[simp] theorem unassign_boot (s : State) (p : Port) (f : Func) : (unassign s p f).boot = s.boot := by rw [unassign_only]
@[simp] theorem unassign_port0 (s : State) (p : Port) (f : Func) : (unassign s p f).port0 = s.port0 := by rw [unassign_only]
@[simp] theorem unassign_port1 (s : State) (p : Port) (f : Func) : (unassign s p f).port1 = s.port1 := by rw [unassign_only]
@[simp] theorem unassign_clusters (s : State) (p : Port) (f : Func) : (unassign s p f).clusters = s.clusters := by rw [unassign_only]
@[simp] theorem unassign_thermal (s : State) (p : Port) (f : Func) : (unassign s p f).thermal = s.thermal := by rw [unassign_only]
@[simp] theorem unassign_cal (s : State) (p : Port) (f : Func) : (unassign s p f).cal = s.cal := by rw [unassign_only]
@[simp] theorem unassign_time (s : State) (p : Port) (f : Func) : (unassign s p f).time = s.time := by rw [unassign_only]
@[simp] theorem unassign_flights (s : State) (p : Port) (f : Func) : (unassign s p f).flights = s.flights := by rw [unassign_only]
@[simp] theorem unassign_delayed (s : State) (p : Port) (f : Func) : (unassign s p f).delayed = s.delayed := by rw [unassign_only]
@[simp] theorem unassign_sec (s : State) (p : Port) (f : Func) : (unassign s p f).sec = s.sec := by rw [unassign_only]
@[simp] theorem unassign_domains (s : State) (p : Port) (f : Func) : (unassign s p f).domains = s.domains := by rw [unassign_only]
@[simp] theorem unassign_slices (s : State) (p : Port) (f : Func) : (unassign s p f).slices = s.slices := by rw [unassign_only]
@[simp] theorem unassign_marginRec (s : State) (p : Port) (f : Func) : (unassign s p f).marginRec = s.marginRec := by rw [unassign_only]
@[simp] theorem unassign_marginShadow (s : State) (p : Port) (f : Func) : (unassign s p f).marginShadow = s.marginShadow := by rw [unassign_only]
@[simp] theorem unassign_margins (s : State) (p : Port) (f : Func) : (unassign s p f).margins = s.margins := by rw [unassign_only]
@[simp] theorem unassign_counters (s : State) (p : Port) (f : Func) : (unassign s p f).counters = s.counters := by rw [unassign_only]
@[simp] theorem unassign_chans (s : State) (p : Port) (f : Func) : (unassign s p f).chans = s.chans := by rw [unassign_only]
@[simp] theorem unassign_rowOps (s : State) (p : Port) (f : Func) : (unassign s p f).rowOps = s.rowOps := by rw [unassign_only]
@[simp] theorem unassign_rowOpNo (s : State) (p : Port) (f : Func) : (unassign s p f).rowOpNo = s.rowOpNo := by rw [unassign_only]
@[simp] theorem unassign_bulk (s : State) (p : Port) (f : Func) : (unassign s p f).bulk = s.bulk := by rw [unassign_only]
@[simp] theorem unassign_mem (s : State) (p : Port) (f : Func) : (unassign s p f).mem = s.mem := by rw [unassign_only]
@[simp] theorem unassign_seqs (s : State) (p : Port) (f : Func) : (unassign s p f).seqs = s.seqs := by rw [unassign_only]
@[simp] theorem unassign_seqGen (s : State) (p : Port) (f : Func) : (unassign s p f).seqGen = s.seqGen := by rw [unassign_only]
@[simp] theorem unassign_models (s : State) (p : Port) (f : Func) : (unassign s p f).models = s.models := by rw [unassign_only]
@[simp] theorem unassign_courses (s : State) (p : Port) (f : Func) : (unassign s p f).courses = s.courses := by rw [unassign_only]
@[simp] theorem unassign_heats (s : State) (p : Port) (f : Func) : (unassign s p f).heats = s.heats := by rw [unassign_only]
@[simp] theorem unassign_place (s : State) (p : Port) (f : Func) : (unassign s p f).place = s.place := by rw [unassign_only]
@[simp] theorem unassign_net (s : State) (p : Port) (f : Func) : (unassign s p f).net = s.net := by rw [unassign_only]
@[simp] theorem unassign_dir (s : State) (p : Port) (f : Func) : (unassign s p f).dir = s.dir := by rw [unassign_only]
@[simp] theorem unassign_sel (s : State) (p : Port) (f : Func) : (unassign s p f).sel = s.sel := by rw [unassign_only]
@[simp] theorem unassign_scratch (s : State) (p : Port) (f : Func) : (unassign s p f).scratch = s.scratch := by rw [unassign_only]
@[simp] theorem unassign_buffer (s : State) (p : Port) (f : Func) : (unassign s p f).buffer = s.buffer := by rw [unassign_only]
@[simp] theorem unassign_acct (s : State) (p : Port) (f : Func) : (unassign s p f).acct = s.acct := by rw [unassign_only]
@[simp] theorem unassign_closed (s : State) (p : Port) (f : Func) : (unassign s p f).closed = s.closed := by rw [unassign_only]
@[simp] theorem unassign_nodeRecs (s : State) (p : Port) (f : Func) : (unassign s p f).nodeRecs = s.nodeRecs := by rw [unassign_only]
@[simp] theorem unassign_heldNext (s : State) (p : Port) (f : Func) : (unassign s p f).heldNext = s.heldNext := by rw [unassign_only]
@[simp] theorem unassign_shares (s : State) (p : Port) (f : Func) : (unassign s p f).shares = s.shares := by rw [unassign_only]
@[simp] theorem unassign_shareShadow (s : State) (p : Port) (f : Func) : (unassign s p f).shareShadow = s.shareShadow := by rw [unassign_only]
@[simp] theorem unassign_arb (s : State) (p : Port) (f : Func) : (unassign s p f).arb = s.arb := by rw [unassign_only]
@[simp] theorem unassign_arbShadow (s : State) (p : Port) (f : Func) : (unassign s p f).arbShadow = s.arbShadow := by rw [unassign_only]
@[simp] theorem unassign_deficits (s : State) (p : Port) (f : Func) : (unassign s p f).deficits = s.deficits := by rw [unassign_only]
@[simp] theorem unassign_dma (s : State) (p : Port) (f : Func) : (unassign s p f).dma = s.dma := by rw [unassign_only]
@[simp] theorem unassign_nodeNo (s : State) (p : Port) (f : Func) : (unassign s p f).nodeNo = s.nodeNo := by rw [unassign_only]
@[simp] theorem unassign_partition (s : State) (p : Port) (f : Func) : (unassign s p f).partition = s.partition := by rw [unassign_only]
@[simp] theorem unassign_fenced (s : State) (p : Port) (f : Func) : (unassign s p f).fenced = s.fenced := by rw [unassign_only]

/-! ### unassigns -/

theorem unassigns_only (s : State) (p : Port) (l : List Func) :
    l.foldl (fun s v => unassign s p v) s = { s with funcs := (l.foldl (fun s v => unassign s p v) s).funcs } := by
  exact foldl_only (U := fun t s => { s with funcs := t.funcs }) (fun _ => rfl) (fun _ _ _ => rfl) _ (fun _ _ => rfl) _ _

@[simp] theorem unassigns_pending (s : State) (p : Port) (l : List Func) : (l.foldl (fun s v => unassign s p v) s).pending = s.pending := by rw [unassigns_only]
@[simp] theorem unassigns_out (s : State) (p : Port) (l : List Func) : (l.foldl (fun s v => unassign s p v) s).out = s.out := by rw [unassigns_only]
@[simp] theorem unassigns_free (s : State) (p : Port) (l : List Func) : (l.foldl (fun s v => unassign s p v) s).free = s.free := by rw [unassigns_only]
@[simp] theorem unassigns_boot (s : State) (p : Port) (l : List Func) : (l.foldl (fun s v => unassign s p v) s).boot = s.boot := by rw [unassigns_only]
@[simp] theorem unassigns_port0 (s : State) (p : Port) (l : List Func) : (l.foldl (fun s v => unassign s p v) s).port0 = s.port0 := by rw [unassigns_only]
@[simp] theorem unassigns_port1 (s : State) (p : Port) (l : List Func) : (l.foldl (fun s v => unassign s p v) s).port1 = s.port1 := by rw [unassigns_only]
@[simp] theorem unassigns_clusters (s : State) (p : Port) (l : List Func) : (l.foldl (fun s v => unassign s p v) s).clusters = s.clusters := by rw [unassigns_only]
@[simp] theorem unassigns_thermal (s : State) (p : Port) (l : List Func) : (l.foldl (fun s v => unassign s p v) s).thermal = s.thermal := by rw [unassigns_only]
@[simp] theorem unassigns_cal (s : State) (p : Port) (l : List Func) : (l.foldl (fun s v => unassign s p v) s).cal = s.cal := by rw [unassigns_only]
@[simp] theorem unassigns_time (s : State) (p : Port) (l : List Func) : (l.foldl (fun s v => unassign s p v) s).time = s.time := by rw [unassigns_only]
@[simp] theorem unassigns_flights (s : State) (p : Port) (l : List Func) : (l.foldl (fun s v => unassign s p v) s).flights = s.flights := by rw [unassigns_only]
@[simp] theorem unassigns_delayed (s : State) (p : Port) (l : List Func) : (l.foldl (fun s v => unassign s p v) s).delayed = s.delayed := by rw [unassigns_only]
@[simp] theorem unassigns_sec (s : State) (p : Port) (l : List Func) : (l.foldl (fun s v => unassign s p v) s).sec = s.sec := by rw [unassigns_only]
@[simp] theorem unassigns_domains (s : State) (p : Port) (l : List Func) : (l.foldl (fun s v => unassign s p v) s).domains = s.domains := by rw [unassigns_only]
@[simp] theorem unassigns_slices (s : State) (p : Port) (l : List Func) : (l.foldl (fun s v => unassign s p v) s).slices = s.slices := by rw [unassigns_only]
@[simp] theorem unassigns_marginRec (s : State) (p : Port) (l : List Func) : (l.foldl (fun s v => unassign s p v) s).marginRec = s.marginRec := by rw [unassigns_only]
@[simp] theorem unassigns_marginShadow (s : State) (p : Port) (l : List Func) : (l.foldl (fun s v => unassign s p v) s).marginShadow = s.marginShadow := by rw [unassigns_only]
@[simp] theorem unassigns_margins (s : State) (p : Port) (l : List Func) : (l.foldl (fun s v => unassign s p v) s).margins = s.margins := by rw [unassigns_only]
@[simp] theorem unassigns_counters (s : State) (p : Port) (l : List Func) : (l.foldl (fun s v => unassign s p v) s).counters = s.counters := by rw [unassigns_only]
@[simp] theorem unassigns_chans (s : State) (p : Port) (l : List Func) : (l.foldl (fun s v => unassign s p v) s).chans = s.chans := by rw [unassigns_only]
@[simp] theorem unassigns_rowOps (s : State) (p : Port) (l : List Func) : (l.foldl (fun s v => unassign s p v) s).rowOps = s.rowOps := by rw [unassigns_only]
@[simp] theorem unassigns_rowOpNo (s : State) (p : Port) (l : List Func) : (l.foldl (fun s v => unassign s p v) s).rowOpNo = s.rowOpNo := by rw [unassigns_only]
@[simp] theorem unassigns_bulk (s : State) (p : Port) (l : List Func) : (l.foldl (fun s v => unassign s p v) s).bulk = s.bulk := by rw [unassigns_only]
@[simp] theorem unassigns_mem (s : State) (p : Port) (l : List Func) : (l.foldl (fun s v => unassign s p v) s).mem = s.mem := by rw [unassigns_only]
@[simp] theorem unassigns_seqs (s : State) (p : Port) (l : List Func) : (l.foldl (fun s v => unassign s p v) s).seqs = s.seqs := by rw [unassigns_only]
@[simp] theorem unassigns_seqGen (s : State) (p : Port) (l : List Func) : (l.foldl (fun s v => unassign s p v) s).seqGen = s.seqGen := by rw [unassigns_only]
@[simp] theorem unassigns_models (s : State) (p : Port) (l : List Func) : (l.foldl (fun s v => unassign s p v) s).models = s.models := by rw [unassigns_only]
@[simp] theorem unassigns_courses (s : State) (p : Port) (l : List Func) : (l.foldl (fun s v => unassign s p v) s).courses = s.courses := by rw [unassigns_only]
@[simp] theorem unassigns_heats (s : State) (p : Port) (l : List Func) : (l.foldl (fun s v => unassign s p v) s).heats = s.heats := by rw [unassigns_only]
@[simp] theorem unassigns_place (s : State) (p : Port) (l : List Func) : (l.foldl (fun s v => unassign s p v) s).place = s.place := by rw [unassigns_only]
@[simp] theorem unassigns_net (s : State) (p : Port) (l : List Func) : (l.foldl (fun s v => unassign s p v) s).net = s.net := by rw [unassigns_only]
@[simp] theorem unassigns_dir (s : State) (p : Port) (l : List Func) : (l.foldl (fun s v => unassign s p v) s).dir = s.dir := by rw [unassigns_only]
@[simp] theorem unassigns_sel (s : State) (p : Port) (l : List Func) : (l.foldl (fun s v => unassign s p v) s).sel = s.sel := by rw [unassigns_only]
@[simp] theorem unassigns_scratch (s : State) (p : Port) (l : List Func) : (l.foldl (fun s v => unassign s p v) s).scratch = s.scratch := by rw [unassigns_only]
@[simp] theorem unassigns_buffer (s : State) (p : Port) (l : List Func) : (l.foldl (fun s v => unassign s p v) s).buffer = s.buffer := by rw [unassigns_only]
@[simp] theorem unassigns_acct (s : State) (p : Port) (l : List Func) : (l.foldl (fun s v => unassign s p v) s).acct = s.acct := by rw [unassigns_only]
@[simp] theorem unassigns_closed (s : State) (p : Port) (l : List Func) : (l.foldl (fun s v => unassign s p v) s).closed = s.closed := by rw [unassigns_only]
@[simp] theorem unassigns_nodeRecs (s : State) (p : Port) (l : List Func) : (l.foldl (fun s v => unassign s p v) s).nodeRecs = s.nodeRecs := by rw [unassigns_only]
@[simp] theorem unassigns_heldNext (s : State) (p : Port) (l : List Func) : (l.foldl (fun s v => unassign s p v) s).heldNext = s.heldNext := by rw [unassigns_only]
@[simp] theorem unassigns_shares (s : State) (p : Port) (l : List Func) : (l.foldl (fun s v => unassign s p v) s).shares = s.shares := by rw [unassigns_only]
@[simp] theorem unassigns_shareShadow (s : State) (p : Port) (l : List Func) : (l.foldl (fun s v => unassign s p v) s).shareShadow = s.shareShadow := by rw [unassigns_only]
@[simp] theorem unassigns_arb (s : State) (p : Port) (l : List Func) : (l.foldl (fun s v => unassign s p v) s).arb = s.arb := by rw [unassigns_only]
@[simp] theorem unassigns_arbShadow (s : State) (p : Port) (l : List Func) : (l.foldl (fun s v => unassign s p v) s).arbShadow = s.arbShadow := by rw [unassigns_only]
@[simp] theorem unassigns_deficits (s : State) (p : Port) (l : List Func) : (l.foldl (fun s v => unassign s p v) s).deficits = s.deficits := by rw [unassigns_only]
@[simp] theorem unassigns_dma (s : State) (p : Port) (l : List Func) : (l.foldl (fun s v => unassign s p v) s).dma = s.dma := by rw [unassigns_only]
@[simp] theorem unassigns_nodeNo (s : State) (p : Port) (l : List Func) : (l.foldl (fun s v => unassign s p v) s).nodeNo = s.nodeNo := by rw [unassigns_only]
@[simp] theorem unassigns_partition (s : State) (p : Port) (l : List Func) : (l.foldl (fun s v => unassign s p v) s).partition = s.partition := by rw [unassigns_only]
@[simp] theorem unassigns_fenced (s : State) (p : Port) (l : List Func) : (l.foldl (fun s v => unassign s p v) s).fenced = s.fenced := by rw [unassigns_only]

/-! ### flrOp -/

theorem flrOp_only (s : State) (p : Port) (f : Func) :
    flrOp s p f = { s with funcs := (flrOp s p f).funcs, flights := (flrOp s p f).flights, delayed := (flrOp s p f).delayed, mem := (flrOp s p f).mem, seqs := (flrOp s p f).seqs, heats := (flrOp s p f).heats, buffer := (flrOp s p f).buffer, net := (flrOp s p f).net, dma := (flrOp s p f).dma } := by
  unfold flrOp
  dsimp only
  split
  · apply State.same <;> simp
  · exact resetFunc_only _ _ _

@[simp] theorem flrOp_pending (s : State) (p : Port) (f : Func) : (flrOp s p f).pending = s.pending := by rw [flrOp_only]
@[simp] theorem flrOp_out (s : State) (p : Port) (f : Func) : (flrOp s p f).out = s.out := by rw [flrOp_only]
@[simp] theorem flrOp_free (s : State) (p : Port) (f : Func) : (flrOp s p f).free = s.free := by rw [flrOp_only]
@[simp] theorem flrOp_boot (s : State) (p : Port) (f : Func) : (flrOp s p f).boot = s.boot := by rw [flrOp_only]
@[simp] theorem flrOp_port0 (s : State) (p : Port) (f : Func) : (flrOp s p f).port0 = s.port0 := by rw [flrOp_only]
@[simp] theorem flrOp_port1 (s : State) (p : Port) (f : Func) : (flrOp s p f).port1 = s.port1 := by rw [flrOp_only]
@[simp] theorem flrOp_clusters (s : State) (p : Port) (f : Func) : (flrOp s p f).clusters = s.clusters := by rw [flrOp_only]
@[simp] theorem flrOp_thermal (s : State) (p : Port) (f : Func) : (flrOp s p f).thermal = s.thermal := by rw [flrOp_only]
@[simp] theorem flrOp_cal (s : State) (p : Port) (f : Func) : (flrOp s p f).cal = s.cal := by rw [flrOp_only]
@[simp] theorem flrOp_time (s : State) (p : Port) (f : Func) : (flrOp s p f).time = s.time := by rw [flrOp_only]
@[simp] theorem flrOp_sec (s : State) (p : Port) (f : Func) : (flrOp s p f).sec = s.sec := by rw [flrOp_only]
@[simp] theorem flrOp_domains (s : State) (p : Port) (f : Func) : (flrOp s p f).domains = s.domains := by rw [flrOp_only]
@[simp] theorem flrOp_slices (s : State) (p : Port) (f : Func) : (flrOp s p f).slices = s.slices := by rw [flrOp_only]
@[simp] theorem flrOp_marginRec (s : State) (p : Port) (f : Func) : (flrOp s p f).marginRec = s.marginRec := by rw [flrOp_only]
@[simp] theorem flrOp_marginShadow (s : State) (p : Port) (f : Func) : (flrOp s p f).marginShadow = s.marginShadow := by rw [flrOp_only]
@[simp] theorem flrOp_margins (s : State) (p : Port) (f : Func) : (flrOp s p f).margins = s.margins := by rw [flrOp_only]
@[simp] theorem flrOp_counters (s : State) (p : Port) (f : Func) : (flrOp s p f).counters = s.counters := by rw [flrOp_only]
@[simp] theorem flrOp_chans (s : State) (p : Port) (f : Func) : (flrOp s p f).chans = s.chans := by rw [flrOp_only]
@[simp] theorem flrOp_rowOps (s : State) (p : Port) (f : Func) : (flrOp s p f).rowOps = s.rowOps := by rw [flrOp_only]
@[simp] theorem flrOp_rowOpNo (s : State) (p : Port) (f : Func) : (flrOp s p f).rowOpNo = s.rowOpNo := by rw [flrOp_only]
@[simp] theorem flrOp_bulk (s : State) (p : Port) (f : Func) : (flrOp s p f).bulk = s.bulk := by rw [flrOp_only]
@[simp] theorem flrOp_seqGen (s : State) (p : Port) (f : Func) : (flrOp s p f).seqGen = s.seqGen := by rw [flrOp_only]
@[simp] theorem flrOp_models (s : State) (p : Port) (f : Func) : (flrOp s p f).models = s.models := by rw [flrOp_only]
@[simp] theorem flrOp_courses (s : State) (p : Port) (f : Func) : (flrOp s p f).courses = s.courses := by rw [flrOp_only]
@[simp] theorem flrOp_place (s : State) (p : Port) (f : Func) : (flrOp s p f).place = s.place := by rw [flrOp_only]
@[simp] theorem flrOp_dir (s : State) (p : Port) (f : Func) : (flrOp s p f).dir = s.dir := by rw [flrOp_only]
@[simp] theorem flrOp_sel (s : State) (p : Port) (f : Func) : (flrOp s p f).sel = s.sel := by rw [flrOp_only]
@[simp] theorem flrOp_scratch (s : State) (p : Port) (f : Func) : (flrOp s p f).scratch = s.scratch := by rw [flrOp_only]
@[simp] theorem flrOp_acct (s : State) (p : Port) (f : Func) : (flrOp s p f).acct = s.acct := by rw [flrOp_only]
@[simp] theorem flrOp_closed (s : State) (p : Port) (f : Func) : (flrOp s p f).closed = s.closed := by rw [flrOp_only]
@[simp] theorem flrOp_nodeRecs (s : State) (p : Port) (f : Func) : (flrOp s p f).nodeRecs = s.nodeRecs := by rw [flrOp_only]
@[simp] theorem flrOp_heldNext (s : State) (p : Port) (f : Func) : (flrOp s p f).heldNext = s.heldNext := by rw [flrOp_only]
@[simp] theorem flrOp_shares (s : State) (p : Port) (f : Func) : (flrOp s p f).shares = s.shares := by rw [flrOp_only]
@[simp] theorem flrOp_shareShadow (s : State) (p : Port) (f : Func) : (flrOp s p f).shareShadow = s.shareShadow := by rw [flrOp_only]
@[simp] theorem flrOp_arb (s : State) (p : Port) (f : Func) : (flrOp s p f).arb = s.arb := by rw [flrOp_only]
@[simp] theorem flrOp_arbShadow (s : State) (p : Port) (f : Func) : (flrOp s p f).arbShadow = s.arbShadow := by rw [flrOp_only]
@[simp] theorem flrOp_deficits (s : State) (p : Port) (f : Func) : (flrOp s p f).deficits = s.deficits := by rw [flrOp_only]
@[simp] theorem flrOp_nodeNo (s : State) (p : Port) (f : Func) : (flrOp s p f).nodeNo = s.nodeNo := by rw [flrOp_only]
@[simp] theorem flrOp_partition (s : State) (p : Port) (f : Func) : (flrOp s p f).partition = s.partition := by rw [flrOp_only]
@[simp] theorem flrOp_fenced (s : State) (p : Port) (f : Func) : (flrOp s p f).fenced = s.fenced := by rw [flrOp_only]

/-! ### resetFuncs -/

theorem resetFuncs_only (s : State) (p : Port) (l : List Func) :
    l.foldl (fun s v => resetFunc s p v) s = { s with funcs := (l.foldl (fun s v => resetFunc s p v) s).funcs, flights := (l.foldl (fun s v => resetFunc s p v) s).flights, delayed := (l.foldl (fun s v => resetFunc s p v) s).delayed, mem := (l.foldl (fun s v => resetFunc s p v) s).mem, seqs := (l.foldl (fun s v => resetFunc s p v) s).seqs, heats := (l.foldl (fun s v => resetFunc s p v) s).heats, buffer := (l.foldl (fun s v => resetFunc s p v) s).buffer, net := (l.foldl (fun s v => resetFunc s p v) s).net, dma := (l.foldl (fun s v => resetFunc s p v) s).dma } := by
  exact foldl_only (U := fun t s => { s with funcs := t.funcs, flights := t.flights, delayed := t.delayed, mem := t.mem, seqs := t.seqs, heats := t.heats, buffer := t.buffer, net := t.net, dma := t.dma }) (fun _ => rfl) (fun _ _ _ => rfl) _ (fun _ _ => resetFunc_only _ _ _) _ _

@[simp] theorem resetFuncs_pending (s : State) (p : Port) (l : List Func) : (l.foldl (fun s v => resetFunc s p v) s).pending = s.pending := by rw [resetFuncs_only]
@[simp] theorem resetFuncs_out (s : State) (p : Port) (l : List Func) : (l.foldl (fun s v => resetFunc s p v) s).out = s.out := by rw [resetFuncs_only]
@[simp] theorem resetFuncs_free (s : State) (p : Port) (l : List Func) : (l.foldl (fun s v => resetFunc s p v) s).free = s.free := by rw [resetFuncs_only]
@[simp] theorem resetFuncs_boot (s : State) (p : Port) (l : List Func) : (l.foldl (fun s v => resetFunc s p v) s).boot = s.boot := by rw [resetFuncs_only]
@[simp] theorem resetFuncs_port0 (s : State) (p : Port) (l : List Func) : (l.foldl (fun s v => resetFunc s p v) s).port0 = s.port0 := by rw [resetFuncs_only]
@[simp] theorem resetFuncs_port1 (s : State) (p : Port) (l : List Func) : (l.foldl (fun s v => resetFunc s p v) s).port1 = s.port1 := by rw [resetFuncs_only]
@[simp] theorem resetFuncs_clusters (s : State) (p : Port) (l : List Func) : (l.foldl (fun s v => resetFunc s p v) s).clusters = s.clusters := by rw [resetFuncs_only]
@[simp] theorem resetFuncs_thermal (s : State) (p : Port) (l : List Func) : (l.foldl (fun s v => resetFunc s p v) s).thermal = s.thermal := by rw [resetFuncs_only]
@[simp] theorem resetFuncs_cal (s : State) (p : Port) (l : List Func) : (l.foldl (fun s v => resetFunc s p v) s).cal = s.cal := by rw [resetFuncs_only]
@[simp] theorem resetFuncs_time (s : State) (p : Port) (l : List Func) : (l.foldl (fun s v => resetFunc s p v) s).time = s.time := by rw [resetFuncs_only]
@[simp] theorem resetFuncs_sec (s : State) (p : Port) (l : List Func) : (l.foldl (fun s v => resetFunc s p v) s).sec = s.sec := by rw [resetFuncs_only]
@[simp] theorem resetFuncs_domains (s : State) (p : Port) (l : List Func) : (l.foldl (fun s v => resetFunc s p v) s).domains = s.domains := by rw [resetFuncs_only]
@[simp] theorem resetFuncs_slices (s : State) (p : Port) (l : List Func) : (l.foldl (fun s v => resetFunc s p v) s).slices = s.slices := by rw [resetFuncs_only]
@[simp] theorem resetFuncs_marginRec (s : State) (p : Port) (l : List Func) : (l.foldl (fun s v => resetFunc s p v) s).marginRec = s.marginRec := by rw [resetFuncs_only]
@[simp] theorem resetFuncs_marginShadow (s : State) (p : Port) (l : List Func) : (l.foldl (fun s v => resetFunc s p v) s).marginShadow = s.marginShadow := by rw [resetFuncs_only]
@[simp] theorem resetFuncs_margins (s : State) (p : Port) (l : List Func) : (l.foldl (fun s v => resetFunc s p v) s).margins = s.margins := by rw [resetFuncs_only]
@[simp] theorem resetFuncs_counters (s : State) (p : Port) (l : List Func) : (l.foldl (fun s v => resetFunc s p v) s).counters = s.counters := by rw [resetFuncs_only]
@[simp] theorem resetFuncs_chans (s : State) (p : Port) (l : List Func) : (l.foldl (fun s v => resetFunc s p v) s).chans = s.chans := by rw [resetFuncs_only]
@[simp] theorem resetFuncs_rowOps (s : State) (p : Port) (l : List Func) : (l.foldl (fun s v => resetFunc s p v) s).rowOps = s.rowOps := by rw [resetFuncs_only]
@[simp] theorem resetFuncs_rowOpNo (s : State) (p : Port) (l : List Func) : (l.foldl (fun s v => resetFunc s p v) s).rowOpNo = s.rowOpNo := by rw [resetFuncs_only]
@[simp] theorem resetFuncs_bulk (s : State) (p : Port) (l : List Func) : (l.foldl (fun s v => resetFunc s p v) s).bulk = s.bulk := by rw [resetFuncs_only]
@[simp] theorem resetFuncs_seqGen (s : State) (p : Port) (l : List Func) : (l.foldl (fun s v => resetFunc s p v) s).seqGen = s.seqGen := by rw [resetFuncs_only]
@[simp] theorem resetFuncs_models (s : State) (p : Port) (l : List Func) : (l.foldl (fun s v => resetFunc s p v) s).models = s.models := by rw [resetFuncs_only]
@[simp] theorem resetFuncs_courses (s : State) (p : Port) (l : List Func) : (l.foldl (fun s v => resetFunc s p v) s).courses = s.courses := by rw [resetFuncs_only]
@[simp] theorem resetFuncs_place (s : State) (p : Port) (l : List Func) : (l.foldl (fun s v => resetFunc s p v) s).place = s.place := by rw [resetFuncs_only]
@[simp] theorem resetFuncs_dir (s : State) (p : Port) (l : List Func) : (l.foldl (fun s v => resetFunc s p v) s).dir = s.dir := by rw [resetFuncs_only]
@[simp] theorem resetFuncs_sel (s : State) (p : Port) (l : List Func) : (l.foldl (fun s v => resetFunc s p v) s).sel = s.sel := by rw [resetFuncs_only]
@[simp] theorem resetFuncs_scratch (s : State) (p : Port) (l : List Func) : (l.foldl (fun s v => resetFunc s p v) s).scratch = s.scratch := by rw [resetFuncs_only]
@[simp] theorem resetFuncs_acct (s : State) (p : Port) (l : List Func) : (l.foldl (fun s v => resetFunc s p v) s).acct = s.acct := by rw [resetFuncs_only]
@[simp] theorem resetFuncs_closed (s : State) (p : Port) (l : List Func) : (l.foldl (fun s v => resetFunc s p v) s).closed = s.closed := by rw [resetFuncs_only]
@[simp] theorem resetFuncs_nodeRecs (s : State) (p : Port) (l : List Func) : (l.foldl (fun s v => resetFunc s p v) s).nodeRecs = s.nodeRecs := by rw [resetFuncs_only]
@[simp] theorem resetFuncs_heldNext (s : State) (p : Port) (l : List Func) : (l.foldl (fun s v => resetFunc s p v) s).heldNext = s.heldNext := by rw [resetFuncs_only]
@[simp] theorem resetFuncs_shares (s : State) (p : Port) (l : List Func) : (l.foldl (fun s v => resetFunc s p v) s).shares = s.shares := by rw [resetFuncs_only]
@[simp] theorem resetFuncs_shareShadow (s : State) (p : Port) (l : List Func) : (l.foldl (fun s v => resetFunc s p v) s).shareShadow = s.shareShadow := by rw [resetFuncs_only]
@[simp] theorem resetFuncs_arb (s : State) (p : Port) (l : List Func) : (l.foldl (fun s v => resetFunc s p v) s).arb = s.arb := by rw [resetFuncs_only]
@[simp] theorem resetFuncs_arbShadow (s : State) (p : Port) (l : List Func) : (l.foldl (fun s v => resetFunc s p v) s).arbShadow = s.arbShadow := by rw [resetFuncs_only]
@[simp] theorem resetFuncs_deficits (s : State) (p : Port) (l : List Func) : (l.foldl (fun s v => resetFunc s p v) s).deficits = s.deficits := by rw [resetFuncs_only]
@[simp] theorem resetFuncs_nodeNo (s : State) (p : Port) (l : List Func) : (l.foldl (fun s v => resetFunc s p v) s).nodeNo = s.nodeNo := by rw [resetFuncs_only]
@[simp] theorem resetFuncs_partition (s : State) (p : Port) (l : List Func) : (l.foldl (fun s v => resetFunc s p v) s).partition = s.partition := by rw [resetFuncs_only]
@[simp] theorem resetFuncs_fenced (s : State) (p : Port) (l : List Func) : (l.foldl (fun s v => resetFunc s p v) s).fenced = s.fenced := by rw [resetFuncs_only]

/-! ### portResetOp -/

theorem portResetOp_only (s : State) (p : Port) :
    portResetOp s p = { s with port0 := (portResetOp s p).port0, port1 := (portResetOp s p).port1, funcs := (portResetOp s p).funcs, flights := (portResetOp s p).flights, delayed := (portResetOp s p).delayed, mem := (portResetOp s p).mem, seqs := (portResetOp s p).seqs, heats := (portResetOp s p).heats, buffer := (portResetOp s p).buffer, net := (portResetOp s p).net, dma := (portResetOp s p).dma } := by
  apply State.same <;> simp [portResetOp]

@[simp] theorem portResetOp_pending (s : State) (p : Port) : (portResetOp s p).pending = s.pending := by rw [portResetOp_only]
@[simp] theorem portResetOp_out (s : State) (p : Port) : (portResetOp s p).out = s.out := by rw [portResetOp_only]
@[simp] theorem portResetOp_free (s : State) (p : Port) : (portResetOp s p).free = s.free := by rw [portResetOp_only]
@[simp] theorem portResetOp_boot (s : State) (p : Port) : (portResetOp s p).boot = s.boot := by rw [portResetOp_only]
@[simp] theorem portResetOp_clusters (s : State) (p : Port) : (portResetOp s p).clusters = s.clusters := by rw [portResetOp_only]
@[simp] theorem portResetOp_thermal (s : State) (p : Port) : (portResetOp s p).thermal = s.thermal := by rw [portResetOp_only]
@[simp] theorem portResetOp_cal (s : State) (p : Port) : (portResetOp s p).cal = s.cal := by rw [portResetOp_only]
@[simp] theorem portResetOp_time (s : State) (p : Port) : (portResetOp s p).time = s.time := by rw [portResetOp_only]
@[simp] theorem portResetOp_sec (s : State) (p : Port) : (portResetOp s p).sec = s.sec := by rw [portResetOp_only]
@[simp] theorem portResetOp_domains (s : State) (p : Port) : (portResetOp s p).domains = s.domains := by rw [portResetOp_only]
@[simp] theorem portResetOp_slices (s : State) (p : Port) : (portResetOp s p).slices = s.slices := by rw [portResetOp_only]
@[simp] theorem portResetOp_marginRec (s : State) (p : Port) : (portResetOp s p).marginRec = s.marginRec := by rw [portResetOp_only]
@[simp] theorem portResetOp_marginShadow (s : State) (p : Port) : (portResetOp s p).marginShadow = s.marginShadow := by rw [portResetOp_only]
@[simp] theorem portResetOp_margins (s : State) (p : Port) : (portResetOp s p).margins = s.margins := by rw [portResetOp_only]
@[simp] theorem portResetOp_counters (s : State) (p : Port) : (portResetOp s p).counters = s.counters := by rw [portResetOp_only]
@[simp] theorem portResetOp_chans (s : State) (p : Port) : (portResetOp s p).chans = s.chans := by rw [portResetOp_only]
@[simp] theorem portResetOp_rowOps (s : State) (p : Port) : (portResetOp s p).rowOps = s.rowOps := by rw [portResetOp_only]
@[simp] theorem portResetOp_rowOpNo (s : State) (p : Port) : (portResetOp s p).rowOpNo = s.rowOpNo := by rw [portResetOp_only]
@[simp] theorem portResetOp_bulk (s : State) (p : Port) : (portResetOp s p).bulk = s.bulk := by rw [portResetOp_only]
@[simp] theorem portResetOp_seqGen (s : State) (p : Port) : (portResetOp s p).seqGen = s.seqGen := by rw [portResetOp_only]
@[simp] theorem portResetOp_models (s : State) (p : Port) : (portResetOp s p).models = s.models := by rw [portResetOp_only]
@[simp] theorem portResetOp_courses (s : State) (p : Port) : (portResetOp s p).courses = s.courses := by rw [portResetOp_only]
@[simp] theorem portResetOp_place (s : State) (p : Port) : (portResetOp s p).place = s.place := by rw [portResetOp_only]
@[simp] theorem portResetOp_dir (s : State) (p : Port) : (portResetOp s p).dir = s.dir := by rw [portResetOp_only]
@[simp] theorem portResetOp_sel (s : State) (p : Port) : (portResetOp s p).sel = s.sel := by rw [portResetOp_only]
@[simp] theorem portResetOp_scratch (s : State) (p : Port) : (portResetOp s p).scratch = s.scratch := by rw [portResetOp_only]
@[simp] theorem portResetOp_acct (s : State) (p : Port) : (portResetOp s p).acct = s.acct := by rw [portResetOp_only]
@[simp] theorem portResetOp_closed (s : State) (p : Port) : (portResetOp s p).closed = s.closed := by rw [portResetOp_only]
@[simp] theorem portResetOp_nodeRecs (s : State) (p : Port) : (portResetOp s p).nodeRecs = s.nodeRecs := by rw [portResetOp_only]
@[simp] theorem portResetOp_heldNext (s : State) (p : Port) : (portResetOp s p).heldNext = s.heldNext := by rw [portResetOp_only]
@[simp] theorem portResetOp_shares (s : State) (p : Port) : (portResetOp s p).shares = s.shares := by rw [portResetOp_only]
@[simp] theorem portResetOp_shareShadow (s : State) (p : Port) : (portResetOp s p).shareShadow = s.shareShadow := by rw [portResetOp_only]
@[simp] theorem portResetOp_arb (s : State) (p : Port) : (portResetOp s p).arb = s.arb := by rw [portResetOp_only]
@[simp] theorem portResetOp_arbShadow (s : State) (p : Port) : (portResetOp s p).arbShadow = s.arbShadow := by rw [portResetOp_only]
@[simp] theorem portResetOp_deficits (s : State) (p : Port) : (portResetOp s p).deficits = s.deficits := by rw [portResetOp_only]
@[simp] theorem portResetOp_nodeNo (s : State) (p : Port) : (portResetOp s p).nodeNo = s.nodeNo := by rw [portResetOp_only]
@[simp] theorem portResetOp_partition (s : State) (p : Port) : (portResetOp s p).partition = s.partition := by rw [portResetOp_only]
@[simp] theorem portResetOp_fenced (s : State) (p : Port) : (portResetOp s p).fenced = s.fenced := by rw [portResetOp_only]

/-! ### awaitRollback -/

theorem awaitRollback_only (s : State) (c : Nat) :
    awaitRollback s c = { s with seqs := (awaitRollback s c).seqs } := by
  rfl

@[simp] theorem awaitRollback_pending (s : State) (c : Nat) : (awaitRollback s c).pending = s.pending := by rw [awaitRollback_only]
@[simp] theorem awaitRollback_out (s : State) (c : Nat) : (awaitRollback s c).out = s.out := by rw [awaitRollback_only]
@[simp] theorem awaitRollback_free (s : State) (c : Nat) : (awaitRollback s c).free = s.free := by rw [awaitRollback_only]
@[simp] theorem awaitRollback_boot (s : State) (c : Nat) : (awaitRollback s c).boot = s.boot := by rw [awaitRollback_only]
@[simp] theorem awaitRollback_port0 (s : State) (c : Nat) : (awaitRollback s c).port0 = s.port0 := by rw [awaitRollback_only]
@[simp] theorem awaitRollback_port1 (s : State) (c : Nat) : (awaitRollback s c).port1 = s.port1 := by rw [awaitRollback_only]
@[simp] theorem awaitRollback_clusters (s : State) (c : Nat) : (awaitRollback s c).clusters = s.clusters := by rw [awaitRollback_only]
@[simp] theorem awaitRollback_thermal (s : State) (c : Nat) : (awaitRollback s c).thermal = s.thermal := by rw [awaitRollback_only]
@[simp] theorem awaitRollback_cal (s : State) (c : Nat) : (awaitRollback s c).cal = s.cal := by rw [awaitRollback_only]
@[simp] theorem awaitRollback_time (s : State) (c : Nat) : (awaitRollback s c).time = s.time := by rw [awaitRollback_only]
@[simp] theorem awaitRollback_funcs (s : State) (c : Nat) : (awaitRollback s c).funcs = s.funcs := by rw [awaitRollback_only]
@[simp] theorem awaitRollback_flights (s : State) (c : Nat) : (awaitRollback s c).flights = s.flights := by rw [awaitRollback_only]
@[simp] theorem awaitRollback_delayed (s : State) (c : Nat) : (awaitRollback s c).delayed = s.delayed := by rw [awaitRollback_only]
@[simp] theorem awaitRollback_sec (s : State) (c : Nat) : (awaitRollback s c).sec = s.sec := by rw [awaitRollback_only]
@[simp] theorem awaitRollback_domains (s : State) (c : Nat) : (awaitRollback s c).domains = s.domains := by rw [awaitRollback_only]
@[simp] theorem awaitRollback_slices (s : State) (c : Nat) : (awaitRollback s c).slices = s.slices := by rw [awaitRollback_only]
@[simp] theorem awaitRollback_marginRec (s : State) (c : Nat) : (awaitRollback s c).marginRec = s.marginRec := by rw [awaitRollback_only]
@[simp] theorem awaitRollback_marginShadow (s : State) (c : Nat) : (awaitRollback s c).marginShadow = s.marginShadow := by rw [awaitRollback_only]
@[simp] theorem awaitRollback_margins (s : State) (c : Nat) : (awaitRollback s c).margins = s.margins := by rw [awaitRollback_only]
@[simp] theorem awaitRollback_counters (s : State) (c : Nat) : (awaitRollback s c).counters = s.counters := by rw [awaitRollback_only]
@[simp] theorem awaitRollback_chans (s : State) (c : Nat) : (awaitRollback s c).chans = s.chans := by rw [awaitRollback_only]
@[simp] theorem awaitRollback_rowOps (s : State) (c : Nat) : (awaitRollback s c).rowOps = s.rowOps := by rw [awaitRollback_only]
@[simp] theorem awaitRollback_rowOpNo (s : State) (c : Nat) : (awaitRollback s c).rowOpNo = s.rowOpNo := by rw [awaitRollback_only]
@[simp] theorem awaitRollback_bulk (s : State) (c : Nat) : (awaitRollback s c).bulk = s.bulk := by rw [awaitRollback_only]
@[simp] theorem awaitRollback_mem (s : State) (c : Nat) : (awaitRollback s c).mem = s.mem := by rw [awaitRollback_only]
@[simp] theorem awaitRollback_seqGen (s : State) (c : Nat) : (awaitRollback s c).seqGen = s.seqGen := by rw [awaitRollback_only]
@[simp] theorem awaitRollback_models (s : State) (c : Nat) : (awaitRollback s c).models = s.models := by rw [awaitRollback_only]
@[simp] theorem awaitRollback_courses (s : State) (c : Nat) : (awaitRollback s c).courses = s.courses := by rw [awaitRollback_only]
@[simp] theorem awaitRollback_heats (s : State) (c : Nat) : (awaitRollback s c).heats = s.heats := by rw [awaitRollback_only]
@[simp] theorem awaitRollback_place (s : State) (c : Nat) : (awaitRollback s c).place = s.place := by rw [awaitRollback_only]
@[simp] theorem awaitRollback_net (s : State) (c : Nat) : (awaitRollback s c).net = s.net := by rw [awaitRollback_only]
@[simp] theorem awaitRollback_dir (s : State) (c : Nat) : (awaitRollback s c).dir = s.dir := by rw [awaitRollback_only]
@[simp] theorem awaitRollback_sel (s : State) (c : Nat) : (awaitRollback s c).sel = s.sel := by rw [awaitRollback_only]
@[simp] theorem awaitRollback_scratch (s : State) (c : Nat) : (awaitRollback s c).scratch = s.scratch := by rw [awaitRollback_only]
@[simp] theorem awaitRollback_buffer (s : State) (c : Nat) : (awaitRollback s c).buffer = s.buffer := by rw [awaitRollback_only]
@[simp] theorem awaitRollback_acct (s : State) (c : Nat) : (awaitRollback s c).acct = s.acct := by rw [awaitRollback_only]
@[simp] theorem awaitRollback_closed (s : State) (c : Nat) : (awaitRollback s c).closed = s.closed := by rw [awaitRollback_only]
@[simp] theorem awaitRollback_nodeRecs (s : State) (c : Nat) : (awaitRollback s c).nodeRecs = s.nodeRecs := by rw [awaitRollback_only]
@[simp] theorem awaitRollback_heldNext (s : State) (c : Nat) : (awaitRollback s c).heldNext = s.heldNext := by rw [awaitRollback_only]
@[simp] theorem awaitRollback_shares (s : State) (c : Nat) : (awaitRollback s c).shares = s.shares := by rw [awaitRollback_only]
@[simp] theorem awaitRollback_shareShadow (s : State) (c : Nat) : (awaitRollback s c).shareShadow = s.shareShadow := by rw [awaitRollback_only]
@[simp] theorem awaitRollback_arb (s : State) (c : Nat) : (awaitRollback s c).arb = s.arb := by rw [awaitRollback_only]
@[simp] theorem awaitRollback_arbShadow (s : State) (c : Nat) : (awaitRollback s c).arbShadow = s.arbShadow := by rw [awaitRollback_only]
@[simp] theorem awaitRollback_deficits (s : State) (c : Nat) : (awaitRollback s c).deficits = s.deficits := by rw [awaitRollback_only]
@[simp] theorem awaitRollback_dma (s : State) (c : Nat) : (awaitRollback s c).dma = s.dma := by rw [awaitRollback_only]
@[simp] theorem awaitRollback_nodeNo (s : State) (c : Nat) : (awaitRollback s c).nodeNo = s.nodeNo := by rw [awaitRollback_only]
@[simp] theorem awaitRollback_partition (s : State) (c : Nat) : (awaitRollback s c).partition = s.partition := by rw [awaitRollback_only]
@[simp] theorem awaitRollback_fenced (s : State) (c : Nat) : (awaitRollback s c).fenced = s.fenced := by rw [awaitRollback_only]

/-! ### loseFrames -/

theorem loseFrames_only (s : State) (c : Nat) :
    loseFrames s c = { s with mem := (loseFrames s c).mem } := by
  rfl

@[simp] theorem loseFrames_pending (s : State) (c : Nat) : (loseFrames s c).pending = s.pending := by rw [loseFrames_only]
@[simp] theorem loseFrames_out (s : State) (c : Nat) : (loseFrames s c).out = s.out := by rw [loseFrames_only]
@[simp] theorem loseFrames_free (s : State) (c : Nat) : (loseFrames s c).free = s.free := by rw [loseFrames_only]
@[simp] theorem loseFrames_boot (s : State) (c : Nat) : (loseFrames s c).boot = s.boot := by rw [loseFrames_only]
@[simp] theorem loseFrames_port0 (s : State) (c : Nat) : (loseFrames s c).port0 = s.port0 := by rw [loseFrames_only]
@[simp] theorem loseFrames_port1 (s : State) (c : Nat) : (loseFrames s c).port1 = s.port1 := by rw [loseFrames_only]
@[simp] theorem loseFrames_clusters (s : State) (c : Nat) : (loseFrames s c).clusters = s.clusters := by rw [loseFrames_only]
@[simp] theorem loseFrames_thermal (s : State) (c : Nat) : (loseFrames s c).thermal = s.thermal := by rw [loseFrames_only]
@[simp] theorem loseFrames_cal (s : State) (c : Nat) : (loseFrames s c).cal = s.cal := by rw [loseFrames_only]
@[simp] theorem loseFrames_time (s : State) (c : Nat) : (loseFrames s c).time = s.time := by rw [loseFrames_only]
@[simp] theorem loseFrames_funcs (s : State) (c : Nat) : (loseFrames s c).funcs = s.funcs := by rw [loseFrames_only]
@[simp] theorem loseFrames_flights (s : State) (c : Nat) : (loseFrames s c).flights = s.flights := by rw [loseFrames_only]
@[simp] theorem loseFrames_delayed (s : State) (c : Nat) : (loseFrames s c).delayed = s.delayed := by rw [loseFrames_only]
@[simp] theorem loseFrames_sec (s : State) (c : Nat) : (loseFrames s c).sec = s.sec := by rw [loseFrames_only]
@[simp] theorem loseFrames_domains (s : State) (c : Nat) : (loseFrames s c).domains = s.domains := by rw [loseFrames_only]
@[simp] theorem loseFrames_slices (s : State) (c : Nat) : (loseFrames s c).slices = s.slices := by rw [loseFrames_only]
@[simp] theorem loseFrames_marginRec (s : State) (c : Nat) : (loseFrames s c).marginRec = s.marginRec := by rw [loseFrames_only]
@[simp] theorem loseFrames_marginShadow (s : State) (c : Nat) : (loseFrames s c).marginShadow = s.marginShadow := by rw [loseFrames_only]
@[simp] theorem loseFrames_margins (s : State) (c : Nat) : (loseFrames s c).margins = s.margins := by rw [loseFrames_only]
@[simp] theorem loseFrames_counters (s : State) (c : Nat) : (loseFrames s c).counters = s.counters := by rw [loseFrames_only]
@[simp] theorem loseFrames_chans (s : State) (c : Nat) : (loseFrames s c).chans = s.chans := by rw [loseFrames_only]
@[simp] theorem loseFrames_rowOps (s : State) (c : Nat) : (loseFrames s c).rowOps = s.rowOps := by rw [loseFrames_only]
@[simp] theorem loseFrames_rowOpNo (s : State) (c : Nat) : (loseFrames s c).rowOpNo = s.rowOpNo := by rw [loseFrames_only]
@[simp] theorem loseFrames_bulk (s : State) (c : Nat) : (loseFrames s c).bulk = s.bulk := by rw [loseFrames_only]
@[simp] theorem loseFrames_seqs (s : State) (c : Nat) : (loseFrames s c).seqs = s.seqs := by rw [loseFrames_only]
@[simp] theorem loseFrames_seqGen (s : State) (c : Nat) : (loseFrames s c).seqGen = s.seqGen := by rw [loseFrames_only]
@[simp] theorem loseFrames_models (s : State) (c : Nat) : (loseFrames s c).models = s.models := by rw [loseFrames_only]
@[simp] theorem loseFrames_courses (s : State) (c : Nat) : (loseFrames s c).courses = s.courses := by rw [loseFrames_only]
@[simp] theorem loseFrames_heats (s : State) (c : Nat) : (loseFrames s c).heats = s.heats := by rw [loseFrames_only]
@[simp] theorem loseFrames_place (s : State) (c : Nat) : (loseFrames s c).place = s.place := by rw [loseFrames_only]
@[simp] theorem loseFrames_net (s : State) (c : Nat) : (loseFrames s c).net = s.net := by rw [loseFrames_only]
@[simp] theorem loseFrames_dir (s : State) (c : Nat) : (loseFrames s c).dir = s.dir := by rw [loseFrames_only]
@[simp] theorem loseFrames_sel (s : State) (c : Nat) : (loseFrames s c).sel = s.sel := by rw [loseFrames_only]
@[simp] theorem loseFrames_scratch (s : State) (c : Nat) : (loseFrames s c).scratch = s.scratch := by rw [loseFrames_only]
@[simp] theorem loseFrames_buffer (s : State) (c : Nat) : (loseFrames s c).buffer = s.buffer := by rw [loseFrames_only]
@[simp] theorem loseFrames_acct (s : State) (c : Nat) : (loseFrames s c).acct = s.acct := by rw [loseFrames_only]
@[simp] theorem loseFrames_closed (s : State) (c : Nat) : (loseFrames s c).closed = s.closed := by rw [loseFrames_only]
@[simp] theorem loseFrames_nodeRecs (s : State) (c : Nat) : (loseFrames s c).nodeRecs = s.nodeRecs := by rw [loseFrames_only]
@[simp] theorem loseFrames_heldNext (s : State) (c : Nat) : (loseFrames s c).heldNext = s.heldNext := by rw [loseFrames_only]
@[simp] theorem loseFrames_shares (s : State) (c : Nat) : (loseFrames s c).shares = s.shares := by rw [loseFrames_only]
@[simp] theorem loseFrames_shareShadow (s : State) (c : Nat) : (loseFrames s c).shareShadow = s.shareShadow := by rw [loseFrames_only]
@[simp] theorem loseFrames_arb (s : State) (c : Nat) : (loseFrames s c).arb = s.arb := by rw [loseFrames_only]
@[simp] theorem loseFrames_arbShadow (s : State) (c : Nat) : (loseFrames s c).arbShadow = s.arbShadow := by rw [loseFrames_only]
@[simp] theorem loseFrames_deficits (s : State) (c : Nat) : (loseFrames s c).deficits = s.deficits := by rw [loseFrames_only]
@[simp] theorem loseFrames_dma (s : State) (c : Nat) : (loseFrames s c).dma = s.dma := by rw [loseFrames_only]
@[simp] theorem loseFrames_nodeNo (s : State) (c : Nat) : (loseFrames s c).nodeNo = s.nodeNo := by rw [loseFrames_only]
@[simp] theorem loseFrames_partition (s : State) (c : Nat) : (loseFrames s c).partition = s.partition := by rw [loseFrames_only]
@[simp] theorem loseFrames_fenced (s : State) (c : Nat) : (loseFrames s c).fenced = s.fenced := by rw [loseFrames_only]

/-! ### quarantineCluster -/

theorem quarantineCluster_only (s : State) (c r : Nat) :
    quarantineCluster s c r = { s with seqs := (quarantineCluster s c r).seqs, mem := (quarantineCluster s c r).mem, clusters := (quarantineCluster s c r).clusters, heats := (quarantineCluster s c r).heats, funcs := (quarantineCluster s c r).funcs, out := (quarantineCluster s c r).out, boot := (quarantineCluster s c r).boot } := by
  unfold quarantineCluster
  split
  · rfl
  · dsimp only; rw [raiseNode_only]; rfl

@[simp] theorem quarantineCluster_pending (s : State) (c r : Nat) : (quarantineCluster s c r).pending = s.pending := by rw [quarantineCluster_only]
@[simp] theorem quarantineCluster_free (s : State) (c r : Nat) : (quarantineCluster s c r).free = s.free := by rw [quarantineCluster_only]
@[simp] theorem quarantineCluster_port0 (s : State) (c r : Nat) : (quarantineCluster s c r).port0 = s.port0 := by rw [quarantineCluster_only]
@[simp] theorem quarantineCluster_port1 (s : State) (c r : Nat) : (quarantineCluster s c r).port1 = s.port1 := by rw [quarantineCluster_only]
@[simp] theorem quarantineCluster_thermal (s : State) (c r : Nat) : (quarantineCluster s c r).thermal = s.thermal := by rw [quarantineCluster_only]
@[simp] theorem quarantineCluster_cal (s : State) (c r : Nat) : (quarantineCluster s c r).cal = s.cal := by rw [quarantineCluster_only]
@[simp] theorem quarantineCluster_time (s : State) (c r : Nat) : (quarantineCluster s c r).time = s.time := by rw [quarantineCluster_only]
@[simp] theorem quarantineCluster_flights (s : State) (c r : Nat) : (quarantineCluster s c r).flights = s.flights := by rw [quarantineCluster_only]
@[simp] theorem quarantineCluster_delayed (s : State) (c r : Nat) : (quarantineCluster s c r).delayed = s.delayed := by rw [quarantineCluster_only]
@[simp] theorem quarantineCluster_sec (s : State) (c r : Nat) : (quarantineCluster s c r).sec = s.sec := by rw [quarantineCluster_only]
@[simp] theorem quarantineCluster_domains (s : State) (c r : Nat) : (quarantineCluster s c r).domains = s.domains := by rw [quarantineCluster_only]
@[simp] theorem quarantineCluster_slices (s : State) (c r : Nat) : (quarantineCluster s c r).slices = s.slices := by rw [quarantineCluster_only]
@[simp] theorem quarantineCluster_marginRec (s : State) (c r : Nat) : (quarantineCluster s c r).marginRec = s.marginRec := by rw [quarantineCluster_only]
@[simp] theorem quarantineCluster_marginShadow (s : State) (c r : Nat) : (quarantineCluster s c r).marginShadow = s.marginShadow := by rw [quarantineCluster_only]
@[simp] theorem quarantineCluster_margins (s : State) (c r : Nat) : (quarantineCluster s c r).margins = s.margins := by rw [quarantineCluster_only]
@[simp] theorem quarantineCluster_counters (s : State) (c r : Nat) : (quarantineCluster s c r).counters = s.counters := by rw [quarantineCluster_only]
@[simp] theorem quarantineCluster_chans (s : State) (c r : Nat) : (quarantineCluster s c r).chans = s.chans := by rw [quarantineCluster_only]
@[simp] theorem quarantineCluster_rowOps (s : State) (c r : Nat) : (quarantineCluster s c r).rowOps = s.rowOps := by rw [quarantineCluster_only]
@[simp] theorem quarantineCluster_rowOpNo (s : State) (c r : Nat) : (quarantineCluster s c r).rowOpNo = s.rowOpNo := by rw [quarantineCluster_only]
@[simp] theorem quarantineCluster_bulk (s : State) (c r : Nat) : (quarantineCluster s c r).bulk = s.bulk := by rw [quarantineCluster_only]
@[simp] theorem quarantineCluster_seqGen (s : State) (c r : Nat) : (quarantineCluster s c r).seqGen = s.seqGen := by rw [quarantineCluster_only]
@[simp] theorem quarantineCluster_models (s : State) (c r : Nat) : (quarantineCluster s c r).models = s.models := by rw [quarantineCluster_only]
@[simp] theorem quarantineCluster_courses (s : State) (c r : Nat) : (quarantineCluster s c r).courses = s.courses := by rw [quarantineCluster_only]
@[simp] theorem quarantineCluster_place (s : State) (c r : Nat) : (quarantineCluster s c r).place = s.place := by rw [quarantineCluster_only]
@[simp] theorem quarantineCluster_net (s : State) (c r : Nat) : (quarantineCluster s c r).net = s.net := by rw [quarantineCluster_only]
@[simp] theorem quarantineCluster_dir (s : State) (c r : Nat) : (quarantineCluster s c r).dir = s.dir := by rw [quarantineCluster_only]
@[simp] theorem quarantineCluster_sel (s : State) (c r : Nat) : (quarantineCluster s c r).sel = s.sel := by rw [quarantineCluster_only]
@[simp] theorem quarantineCluster_scratch (s : State) (c r : Nat) : (quarantineCluster s c r).scratch = s.scratch := by rw [quarantineCluster_only]
@[simp] theorem quarantineCluster_buffer (s : State) (c r : Nat) : (quarantineCluster s c r).buffer = s.buffer := by rw [quarantineCluster_only]
@[simp] theorem quarantineCluster_acct (s : State) (c r : Nat) : (quarantineCluster s c r).acct = s.acct := by rw [quarantineCluster_only]
@[simp] theorem quarantineCluster_closed (s : State) (c r : Nat) : (quarantineCluster s c r).closed = s.closed := by rw [quarantineCluster_only]
@[simp] theorem quarantineCluster_nodeRecs (s : State) (c r : Nat) : (quarantineCluster s c r).nodeRecs = s.nodeRecs := by rw [quarantineCluster_only]
@[simp] theorem quarantineCluster_heldNext (s : State) (c r : Nat) : (quarantineCluster s c r).heldNext = s.heldNext := by rw [quarantineCluster_only]
@[simp] theorem quarantineCluster_shares (s : State) (c r : Nat) : (quarantineCluster s c r).shares = s.shares := by rw [quarantineCluster_only]
@[simp] theorem quarantineCluster_shareShadow (s : State) (c r : Nat) : (quarantineCluster s c r).shareShadow = s.shareShadow := by rw [quarantineCluster_only]
@[simp] theorem quarantineCluster_arb (s : State) (c r : Nat) : (quarantineCluster s c r).arb = s.arb := by rw [quarantineCluster_only]
@[simp] theorem quarantineCluster_arbShadow (s : State) (c r : Nat) : (quarantineCluster s c r).arbShadow = s.arbShadow := by rw [quarantineCluster_only]
@[simp] theorem quarantineCluster_deficits (s : State) (c r : Nat) : (quarantineCluster s c r).deficits = s.deficits := by rw [quarantineCluster_only]
@[simp] theorem quarantineCluster_dma (s : State) (c r : Nat) : (quarantineCluster s c r).dma = s.dma := by rw [quarantineCluster_only]
@[simp] theorem quarantineCluster_nodeNo (s : State) (c r : Nat) : (quarantineCluster s c r).nodeNo = s.nodeNo := by rw [quarantineCluster_only]
@[simp] theorem quarantineCluster_partition (s : State) (c r : Nat) : (quarantineCluster s c r).partition = s.partition := by rw [quarantineCluster_only]
@[simp] theorem quarantineCluster_fenced (s : State) (c r : Nat) : (quarantineCluster s c r).fenced = s.fenced := by rw [quarantineCluster_only]

/-! ### failChannel -/

theorem failChannel_only (s : State) (c r : Nat) :
    failChannel s c r = { s with chans := (failChannel s c r).chans, seqs := (failChannel s c r).seqs, mem := (failChannel s c r).mem, clusters := (failChannel s c r).clusters, heats := (failChannel s c r).heats, funcs := (failChannel s c r).funcs, out := (failChannel s c r).out, boot := (failChannel s c r).boot } := by
  unfold failChannel
  rw [quarantineCluster_only]; rfl

@[simp] theorem failChannel_pending (s : State) (c r : Nat) : (failChannel s c r).pending = s.pending := by rw [failChannel_only]
@[simp] theorem failChannel_free (s : State) (c r : Nat) : (failChannel s c r).free = s.free := by rw [failChannel_only]
@[simp] theorem failChannel_port0 (s : State) (c r : Nat) : (failChannel s c r).port0 = s.port0 := by rw [failChannel_only]
@[simp] theorem failChannel_port1 (s : State) (c r : Nat) : (failChannel s c r).port1 = s.port1 := by rw [failChannel_only]
@[simp] theorem failChannel_thermal (s : State) (c r : Nat) : (failChannel s c r).thermal = s.thermal := by rw [failChannel_only]
@[simp] theorem failChannel_cal (s : State) (c r : Nat) : (failChannel s c r).cal = s.cal := by rw [failChannel_only]
@[simp] theorem failChannel_time (s : State) (c r : Nat) : (failChannel s c r).time = s.time := by rw [failChannel_only]
@[simp] theorem failChannel_flights (s : State) (c r : Nat) : (failChannel s c r).flights = s.flights := by rw [failChannel_only]
@[simp] theorem failChannel_delayed (s : State) (c r : Nat) : (failChannel s c r).delayed = s.delayed := by rw [failChannel_only]
@[simp] theorem failChannel_sec (s : State) (c r : Nat) : (failChannel s c r).sec = s.sec := by rw [failChannel_only]
@[simp] theorem failChannel_domains (s : State) (c r : Nat) : (failChannel s c r).domains = s.domains := by rw [failChannel_only]
@[simp] theorem failChannel_slices (s : State) (c r : Nat) : (failChannel s c r).slices = s.slices := by rw [failChannel_only]
@[simp] theorem failChannel_marginRec (s : State) (c r : Nat) : (failChannel s c r).marginRec = s.marginRec := by rw [failChannel_only]
@[simp] theorem failChannel_marginShadow (s : State) (c r : Nat) : (failChannel s c r).marginShadow = s.marginShadow := by rw [failChannel_only]
@[simp] theorem failChannel_margins (s : State) (c r : Nat) : (failChannel s c r).margins = s.margins := by rw [failChannel_only]
@[simp] theorem failChannel_counters (s : State) (c r : Nat) : (failChannel s c r).counters = s.counters := by rw [failChannel_only]
@[simp] theorem failChannel_rowOps (s : State) (c r : Nat) : (failChannel s c r).rowOps = s.rowOps := by rw [failChannel_only]
@[simp] theorem failChannel_rowOpNo (s : State) (c r : Nat) : (failChannel s c r).rowOpNo = s.rowOpNo := by rw [failChannel_only]
@[simp] theorem failChannel_bulk (s : State) (c r : Nat) : (failChannel s c r).bulk = s.bulk := by rw [failChannel_only]
@[simp] theorem failChannel_seqGen (s : State) (c r : Nat) : (failChannel s c r).seqGen = s.seqGen := by rw [failChannel_only]
@[simp] theorem failChannel_models (s : State) (c r : Nat) : (failChannel s c r).models = s.models := by rw [failChannel_only]
@[simp] theorem failChannel_courses (s : State) (c r : Nat) : (failChannel s c r).courses = s.courses := by rw [failChannel_only]
@[simp] theorem failChannel_place (s : State) (c r : Nat) : (failChannel s c r).place = s.place := by rw [failChannel_only]
@[simp] theorem failChannel_net (s : State) (c r : Nat) : (failChannel s c r).net = s.net := by rw [failChannel_only]
@[simp] theorem failChannel_dir (s : State) (c r : Nat) : (failChannel s c r).dir = s.dir := by rw [failChannel_only]
@[simp] theorem failChannel_sel (s : State) (c r : Nat) : (failChannel s c r).sel = s.sel := by rw [failChannel_only]
@[simp] theorem failChannel_scratch (s : State) (c r : Nat) : (failChannel s c r).scratch = s.scratch := by rw [failChannel_only]
@[simp] theorem failChannel_buffer (s : State) (c r : Nat) : (failChannel s c r).buffer = s.buffer := by rw [failChannel_only]
@[simp] theorem failChannel_acct (s : State) (c r : Nat) : (failChannel s c r).acct = s.acct := by rw [failChannel_only]
@[simp] theorem failChannel_closed (s : State) (c r : Nat) : (failChannel s c r).closed = s.closed := by rw [failChannel_only]
@[simp] theorem failChannel_nodeRecs (s : State) (c r : Nat) : (failChannel s c r).nodeRecs = s.nodeRecs := by rw [failChannel_only]
@[simp] theorem failChannel_heldNext (s : State) (c r : Nat) : (failChannel s c r).heldNext = s.heldNext := by rw [failChannel_only]
@[simp] theorem failChannel_shares (s : State) (c r : Nat) : (failChannel s c r).shares = s.shares := by rw [failChannel_only]
@[simp] theorem failChannel_shareShadow (s : State) (c r : Nat) : (failChannel s c r).shareShadow = s.shareShadow := by rw [failChannel_only]
@[simp] theorem failChannel_arb (s : State) (c r : Nat) : (failChannel s c r).arb = s.arb := by rw [failChannel_only]
@[simp] theorem failChannel_arbShadow (s : State) (c r : Nat) : (failChannel s c r).arbShadow = s.arbShadow := by rw [failChannel_only]
@[simp] theorem failChannel_deficits (s : State) (c r : Nat) : (failChannel s c r).deficits = s.deficits := by rw [failChannel_only]
@[simp] theorem failChannel_dma (s : State) (c r : Nat) : (failChannel s c r).dma = s.dma := by rw [failChannel_only]
@[simp] theorem failChannel_nodeNo (s : State) (c r : Nat) : (failChannel s c r).nodeNo = s.nodeNo := by rw [failChannel_only]
@[simp] theorem failChannel_partition (s : State) (c r : Nat) : (failChannel s c r).partition = s.partition := by rw [failChannel_only]
@[simp] theorem failChannel_fenced (s : State) (c r : Nat) : (failChannel s c r).fenced = s.fenced := by rw [failChannel_only]

/-! ### nodeFail -/

theorem nodeFail_only (s : State) (n : Nat) :
    nodeFail s n = { s with funcs := (nodeFail s n).funcs, out := (nodeFail s n).out, boot := (nodeFail s n).boot } := by
  unfold nodeFail
  dsimp only
  rw [raiseNode_only]; rfl

@[simp] theorem nodeFail_pending (s : State) (n : Nat) : (nodeFail s n).pending = s.pending := by rw [nodeFail_only]
@[simp] theorem nodeFail_free (s : State) (n : Nat) : (nodeFail s n).free = s.free := by rw [nodeFail_only]
@[simp] theorem nodeFail_port0 (s : State) (n : Nat) : (nodeFail s n).port0 = s.port0 := by rw [nodeFail_only]
@[simp] theorem nodeFail_port1 (s : State) (n : Nat) : (nodeFail s n).port1 = s.port1 := by rw [nodeFail_only]
@[simp] theorem nodeFail_clusters (s : State) (n : Nat) : (nodeFail s n).clusters = s.clusters := by rw [nodeFail_only]
@[simp] theorem nodeFail_thermal (s : State) (n : Nat) : (nodeFail s n).thermal = s.thermal := by rw [nodeFail_only]
@[simp] theorem nodeFail_cal (s : State) (n : Nat) : (nodeFail s n).cal = s.cal := by rw [nodeFail_only]
@[simp] theorem nodeFail_time (s : State) (n : Nat) : (nodeFail s n).time = s.time := by rw [nodeFail_only]
@[simp] theorem nodeFail_flights (s : State) (n : Nat) : (nodeFail s n).flights = s.flights := by rw [nodeFail_only]
@[simp] theorem nodeFail_delayed (s : State) (n : Nat) : (nodeFail s n).delayed = s.delayed := by rw [nodeFail_only]
@[simp] theorem nodeFail_sec (s : State) (n : Nat) : (nodeFail s n).sec = s.sec := by rw [nodeFail_only]
@[simp] theorem nodeFail_domains (s : State) (n : Nat) : (nodeFail s n).domains = s.domains := by rw [nodeFail_only]
@[simp] theorem nodeFail_slices (s : State) (n : Nat) : (nodeFail s n).slices = s.slices := by rw [nodeFail_only]
@[simp] theorem nodeFail_marginRec (s : State) (n : Nat) : (nodeFail s n).marginRec = s.marginRec := by rw [nodeFail_only]
@[simp] theorem nodeFail_marginShadow (s : State) (n : Nat) : (nodeFail s n).marginShadow = s.marginShadow := by rw [nodeFail_only]
@[simp] theorem nodeFail_margins (s : State) (n : Nat) : (nodeFail s n).margins = s.margins := by rw [nodeFail_only]
@[simp] theorem nodeFail_counters (s : State) (n : Nat) : (nodeFail s n).counters = s.counters := by rw [nodeFail_only]
@[simp] theorem nodeFail_chans (s : State) (n : Nat) : (nodeFail s n).chans = s.chans := by rw [nodeFail_only]
@[simp] theorem nodeFail_rowOps (s : State) (n : Nat) : (nodeFail s n).rowOps = s.rowOps := by rw [nodeFail_only]
@[simp] theorem nodeFail_rowOpNo (s : State) (n : Nat) : (nodeFail s n).rowOpNo = s.rowOpNo := by rw [nodeFail_only]
@[simp] theorem nodeFail_bulk (s : State) (n : Nat) : (nodeFail s n).bulk = s.bulk := by rw [nodeFail_only]
@[simp] theorem nodeFail_mem (s : State) (n : Nat) : (nodeFail s n).mem = s.mem := by rw [nodeFail_only]
@[simp] theorem nodeFail_seqs (s : State) (n : Nat) : (nodeFail s n).seqs = s.seqs := by rw [nodeFail_only]
@[simp] theorem nodeFail_seqGen (s : State) (n : Nat) : (nodeFail s n).seqGen = s.seqGen := by rw [nodeFail_only]
@[simp] theorem nodeFail_models (s : State) (n : Nat) : (nodeFail s n).models = s.models := by rw [nodeFail_only]
@[simp] theorem nodeFail_courses (s : State) (n : Nat) : (nodeFail s n).courses = s.courses := by rw [nodeFail_only]
@[simp] theorem nodeFail_heats (s : State) (n : Nat) : (nodeFail s n).heats = s.heats := by rw [nodeFail_only]
@[simp] theorem nodeFail_place (s : State) (n : Nat) : (nodeFail s n).place = s.place := by rw [nodeFail_only]
@[simp] theorem nodeFail_net (s : State) (n : Nat) : (nodeFail s n).net = s.net := by rw [nodeFail_only]
@[simp] theorem nodeFail_dir (s : State) (n : Nat) : (nodeFail s n).dir = s.dir := by rw [nodeFail_only]
@[simp] theorem nodeFail_sel (s : State) (n : Nat) : (nodeFail s n).sel = s.sel := by rw [nodeFail_only]
@[simp] theorem nodeFail_scratch (s : State) (n : Nat) : (nodeFail s n).scratch = s.scratch := by rw [nodeFail_only]
@[simp] theorem nodeFail_buffer (s : State) (n : Nat) : (nodeFail s n).buffer = s.buffer := by rw [nodeFail_only]
@[simp] theorem nodeFail_acct (s : State) (n : Nat) : (nodeFail s n).acct = s.acct := by rw [nodeFail_only]
@[simp] theorem nodeFail_closed (s : State) (n : Nat) : (nodeFail s n).closed = s.closed := by rw [nodeFail_only]
@[simp] theorem nodeFail_nodeRecs (s : State) (n : Nat) : (nodeFail s n).nodeRecs = s.nodeRecs := by rw [nodeFail_only]
@[simp] theorem nodeFail_heldNext (s : State) (n : Nat) : (nodeFail s n).heldNext = s.heldNext := by rw [nodeFail_only]
@[simp] theorem nodeFail_shares (s : State) (n : Nat) : (nodeFail s n).shares = s.shares := by rw [nodeFail_only]
@[simp] theorem nodeFail_shareShadow (s : State) (n : Nat) : (nodeFail s n).shareShadow = s.shareShadow := by rw [nodeFail_only]
@[simp] theorem nodeFail_arb (s : State) (n : Nat) : (nodeFail s n).arb = s.arb := by rw [nodeFail_only]
@[simp] theorem nodeFail_arbShadow (s : State) (n : Nat) : (nodeFail s n).arbShadow = s.arbShadow := by rw [nodeFail_only]
@[simp] theorem nodeFail_deficits (s : State) (n : Nat) : (nodeFail s n).deficits = s.deficits := by rw [nodeFail_only]
@[simp] theorem nodeFail_dma (s : State) (n : Nat) : (nodeFail s n).dma = s.dma := by rw [nodeFail_only]
@[simp] theorem nodeFail_nodeNo (s : State) (n : Nat) : (nodeFail s n).nodeNo = s.nodeNo := by rw [nodeFail_only]
@[simp] theorem nodeFail_partition (s : State) (n : Nat) : (nodeFail s n).partition = s.partition := by rw [nodeFail_only]
@[simp] theorem nodeFail_fenced (s : State) (n : Nat) : (nodeFail s n).fenced = s.fenced := by rw [nodeFail_only]

/-! ### strapFaults -/

theorem strapFaults_only (s : State) :
    strapFaults s = { s with funcs := (strapFaults s).funcs, out := (strapFaults s).out } := by
  unfold strapFaults
  dsimp only
  apply State.same <;> split <;> split <;> simp

@[simp] theorem strapFaults_pending (s : State) : (strapFaults s).pending = s.pending := by rw [strapFaults_only]
@[simp] theorem strapFaults_free (s : State) : (strapFaults s).free = s.free := by rw [strapFaults_only]
@[simp] theorem strapFaults_boot (s : State) : (strapFaults s).boot = s.boot := by rw [strapFaults_only]
@[simp] theorem strapFaults_port0 (s : State) : (strapFaults s).port0 = s.port0 := by rw [strapFaults_only]
@[simp] theorem strapFaults_port1 (s : State) : (strapFaults s).port1 = s.port1 := by rw [strapFaults_only]
@[simp] theorem strapFaults_clusters (s : State) : (strapFaults s).clusters = s.clusters := by rw [strapFaults_only]
@[simp] theorem strapFaults_thermal (s : State) : (strapFaults s).thermal = s.thermal := by rw [strapFaults_only]
@[simp] theorem strapFaults_cal (s : State) : (strapFaults s).cal = s.cal := by rw [strapFaults_only]
@[simp] theorem strapFaults_time (s : State) : (strapFaults s).time = s.time := by rw [strapFaults_only]
@[simp] theorem strapFaults_flights (s : State) : (strapFaults s).flights = s.flights := by rw [strapFaults_only]
@[simp] theorem strapFaults_delayed (s : State) : (strapFaults s).delayed = s.delayed := by rw [strapFaults_only]
@[simp] theorem strapFaults_sec (s : State) : (strapFaults s).sec = s.sec := by rw [strapFaults_only]
@[simp] theorem strapFaults_domains (s : State) : (strapFaults s).domains = s.domains := by rw [strapFaults_only]
@[simp] theorem strapFaults_slices (s : State) : (strapFaults s).slices = s.slices := by rw [strapFaults_only]
@[simp] theorem strapFaults_marginRec (s : State) : (strapFaults s).marginRec = s.marginRec := by rw [strapFaults_only]
@[simp] theorem strapFaults_marginShadow (s : State) : (strapFaults s).marginShadow = s.marginShadow := by rw [strapFaults_only]
@[simp] theorem strapFaults_margins (s : State) : (strapFaults s).margins = s.margins := by rw [strapFaults_only]
@[simp] theorem strapFaults_counters (s : State) : (strapFaults s).counters = s.counters := by rw [strapFaults_only]
@[simp] theorem strapFaults_chans (s : State) : (strapFaults s).chans = s.chans := by rw [strapFaults_only]
@[simp] theorem strapFaults_rowOps (s : State) : (strapFaults s).rowOps = s.rowOps := by rw [strapFaults_only]
@[simp] theorem strapFaults_rowOpNo (s : State) : (strapFaults s).rowOpNo = s.rowOpNo := by rw [strapFaults_only]
@[simp] theorem strapFaults_bulk (s : State) : (strapFaults s).bulk = s.bulk := by rw [strapFaults_only]
@[simp] theorem strapFaults_mem (s : State) : (strapFaults s).mem = s.mem := by rw [strapFaults_only]
@[simp] theorem strapFaults_seqs (s : State) : (strapFaults s).seqs = s.seqs := by rw [strapFaults_only]
@[simp] theorem strapFaults_seqGen (s : State) : (strapFaults s).seqGen = s.seqGen := by rw [strapFaults_only]
@[simp] theorem strapFaults_models (s : State) : (strapFaults s).models = s.models := by rw [strapFaults_only]
@[simp] theorem strapFaults_courses (s : State) : (strapFaults s).courses = s.courses := by rw [strapFaults_only]
@[simp] theorem strapFaults_heats (s : State) : (strapFaults s).heats = s.heats := by rw [strapFaults_only]
@[simp] theorem strapFaults_place (s : State) : (strapFaults s).place = s.place := by rw [strapFaults_only]
@[simp] theorem strapFaults_net (s : State) : (strapFaults s).net = s.net := by rw [strapFaults_only]
@[simp] theorem strapFaults_dir (s : State) : (strapFaults s).dir = s.dir := by rw [strapFaults_only]
@[simp] theorem strapFaults_sel (s : State) : (strapFaults s).sel = s.sel := by rw [strapFaults_only]
@[simp] theorem strapFaults_scratch (s : State) : (strapFaults s).scratch = s.scratch := by rw [strapFaults_only]
@[simp] theorem strapFaults_buffer (s : State) : (strapFaults s).buffer = s.buffer := by rw [strapFaults_only]
@[simp] theorem strapFaults_acct (s : State) : (strapFaults s).acct = s.acct := by rw [strapFaults_only]
@[simp] theorem strapFaults_closed (s : State) : (strapFaults s).closed = s.closed := by rw [strapFaults_only]
@[simp] theorem strapFaults_nodeRecs (s : State) : (strapFaults s).nodeRecs = s.nodeRecs := by rw [strapFaults_only]
@[simp] theorem strapFaults_heldNext (s : State) : (strapFaults s).heldNext = s.heldNext := by rw [strapFaults_only]
@[simp] theorem strapFaults_shares (s : State) : (strapFaults s).shares = s.shares := by rw [strapFaults_only]
@[simp] theorem strapFaults_shareShadow (s : State) : (strapFaults s).shareShadow = s.shareShadow := by rw [strapFaults_only]
@[simp] theorem strapFaults_arb (s : State) : (strapFaults s).arb = s.arb := by rw [strapFaults_only]
@[simp] theorem strapFaults_arbShadow (s : State) : (strapFaults s).arbShadow = s.arbShadow := by rw [strapFaults_only]
@[simp] theorem strapFaults_deficits (s : State) : (strapFaults s).deficits = s.deficits := by rw [strapFaults_only]
@[simp] theorem strapFaults_dma (s : State) : (strapFaults s).dma = s.dma := by rw [strapFaults_only]
@[simp] theorem strapFaults_nodeNo (s : State) : (strapFaults s).nodeNo = s.nodeNo := by rw [strapFaults_only]
@[simp] theorem strapFaults_partition (s : State) : (strapFaults s).partition = s.partition := by rw [strapFaults_only]
@[simp] theorem strapFaults_fenced (s : State) : (strapFaults s).fenced = s.fenced := by rw [strapFaults_only]

/-! ### deliverEach -/

theorem deliverEach_only (s : State) (l : List Nat) (b : List (Port × Func)) :
    l.foldl (fun s w => deliverAll s w b) s = { s with funcs := (l.foldl (fun s w => deliverAll s w b) s).funcs, out := (l.foldl (fun s w => deliverAll s w b) s).out } := by
  exact foldl_only (U := fun t s => { s with funcs := t.funcs, out := t.out }) (fun _ => rfl) (fun _ _ _ => rfl) _ (fun _ _ => deliverAll_only _ _ _) _ _

@[simp] theorem deliverEach_pending (s : State) (l : List Nat) (b : List (Port × Func)) : (l.foldl (fun s w => deliverAll s w b) s).pending = s.pending := by rw [deliverEach_only]
@[simp] theorem deliverEach_free (s : State) (l : List Nat) (b : List (Port × Func)) : (l.foldl (fun s w => deliverAll s w b) s).free = s.free := by rw [deliverEach_only]
@[simp] theorem deliverEach_boot (s : State) (l : List Nat) (b : List (Port × Func)) : (l.foldl (fun s w => deliverAll s w b) s).boot = s.boot := by rw [deliverEach_only]
@[simp] theorem deliverEach_port0 (s : State) (l : List Nat) (b : List (Port × Func)) : (l.foldl (fun s w => deliverAll s w b) s).port0 = s.port0 := by rw [deliverEach_only]
@[simp] theorem deliverEach_port1 (s : State) (l : List Nat) (b : List (Port × Func)) : (l.foldl (fun s w => deliverAll s w b) s).port1 = s.port1 := by rw [deliverEach_only]
@[simp] theorem deliverEach_clusters (s : State) (l : List Nat) (b : List (Port × Func)) : (l.foldl (fun s w => deliverAll s w b) s).clusters = s.clusters := by rw [deliverEach_only]
@[simp] theorem deliverEach_thermal (s : State) (l : List Nat) (b : List (Port × Func)) : (l.foldl (fun s w => deliverAll s w b) s).thermal = s.thermal := by rw [deliverEach_only]
@[simp] theorem deliverEach_cal (s : State) (l : List Nat) (b : List (Port × Func)) : (l.foldl (fun s w => deliverAll s w b) s).cal = s.cal := by rw [deliverEach_only]
@[simp] theorem deliverEach_time (s : State) (l : List Nat) (b : List (Port × Func)) : (l.foldl (fun s w => deliverAll s w b) s).time = s.time := by rw [deliverEach_only]
@[simp] theorem deliverEach_flights (s : State) (l : List Nat) (b : List (Port × Func)) : (l.foldl (fun s w => deliverAll s w b) s).flights = s.flights := by rw [deliverEach_only]
@[simp] theorem deliverEach_delayed (s : State) (l : List Nat) (b : List (Port × Func)) : (l.foldl (fun s w => deliverAll s w b) s).delayed = s.delayed := by rw [deliverEach_only]
@[simp] theorem deliverEach_sec (s : State) (l : List Nat) (b : List (Port × Func)) : (l.foldl (fun s w => deliverAll s w b) s).sec = s.sec := by rw [deliverEach_only]
@[simp] theorem deliverEach_domains (s : State) (l : List Nat) (b : List (Port × Func)) : (l.foldl (fun s w => deliverAll s w b) s).domains = s.domains := by rw [deliverEach_only]
@[simp] theorem deliverEach_slices (s : State) (l : List Nat) (b : List (Port × Func)) : (l.foldl (fun s w => deliverAll s w b) s).slices = s.slices := by rw [deliverEach_only]
@[simp] theorem deliverEach_marginRec (s : State) (l : List Nat) (b : List (Port × Func)) : (l.foldl (fun s w => deliverAll s w b) s).marginRec = s.marginRec := by rw [deliverEach_only]
@[simp] theorem deliverEach_marginShadow (s : State) (l : List Nat) (b : List (Port × Func)) : (l.foldl (fun s w => deliverAll s w b) s).marginShadow = s.marginShadow := by rw [deliverEach_only]
@[simp] theorem deliverEach_margins (s : State) (l : List Nat) (b : List (Port × Func)) : (l.foldl (fun s w => deliverAll s w b) s).margins = s.margins := by rw [deliverEach_only]
@[simp] theorem deliverEach_counters (s : State) (l : List Nat) (b : List (Port × Func)) : (l.foldl (fun s w => deliverAll s w b) s).counters = s.counters := by rw [deliverEach_only]
@[simp] theorem deliverEach_chans (s : State) (l : List Nat) (b : List (Port × Func)) : (l.foldl (fun s w => deliverAll s w b) s).chans = s.chans := by rw [deliverEach_only]
@[simp] theorem deliverEach_rowOps (s : State) (l : List Nat) (b : List (Port × Func)) : (l.foldl (fun s w => deliverAll s w b) s).rowOps = s.rowOps := by rw [deliverEach_only]
@[simp] theorem deliverEach_rowOpNo (s : State) (l : List Nat) (b : List (Port × Func)) : (l.foldl (fun s w => deliverAll s w b) s).rowOpNo = s.rowOpNo := by rw [deliverEach_only]
@[simp] theorem deliverEach_bulk (s : State) (l : List Nat) (b : List (Port × Func)) : (l.foldl (fun s w => deliverAll s w b) s).bulk = s.bulk := by rw [deliverEach_only]
@[simp] theorem deliverEach_mem (s : State) (l : List Nat) (b : List (Port × Func)) : (l.foldl (fun s w => deliverAll s w b) s).mem = s.mem := by rw [deliverEach_only]
@[simp] theorem deliverEach_seqs (s : State) (l : List Nat) (b : List (Port × Func)) : (l.foldl (fun s w => deliverAll s w b) s).seqs = s.seqs := by rw [deliverEach_only]
@[simp] theorem deliverEach_seqGen (s : State) (l : List Nat) (b : List (Port × Func)) : (l.foldl (fun s w => deliverAll s w b) s).seqGen = s.seqGen := by rw [deliverEach_only]
@[simp] theorem deliverEach_models (s : State) (l : List Nat) (b : List (Port × Func)) : (l.foldl (fun s w => deliverAll s w b) s).models = s.models := by rw [deliverEach_only]
@[simp] theorem deliverEach_courses (s : State) (l : List Nat) (b : List (Port × Func)) : (l.foldl (fun s w => deliverAll s w b) s).courses = s.courses := by rw [deliverEach_only]
@[simp] theorem deliverEach_heats (s : State) (l : List Nat) (b : List (Port × Func)) : (l.foldl (fun s w => deliverAll s w b) s).heats = s.heats := by rw [deliverEach_only]
@[simp] theorem deliverEach_place (s : State) (l : List Nat) (b : List (Port × Func)) : (l.foldl (fun s w => deliverAll s w b) s).place = s.place := by rw [deliverEach_only]
@[simp] theorem deliverEach_net (s : State) (l : List Nat) (b : List (Port × Func)) : (l.foldl (fun s w => deliverAll s w b) s).net = s.net := by rw [deliverEach_only]
@[simp] theorem deliverEach_dir (s : State) (l : List Nat) (b : List (Port × Func)) : (l.foldl (fun s w => deliverAll s w b) s).dir = s.dir := by rw [deliverEach_only]
@[simp] theorem deliverEach_sel (s : State) (l : List Nat) (b : List (Port × Func)) : (l.foldl (fun s w => deliverAll s w b) s).sel = s.sel := by rw [deliverEach_only]
@[simp] theorem deliverEach_scratch (s : State) (l : List Nat) (b : List (Port × Func)) : (l.foldl (fun s w => deliverAll s w b) s).scratch = s.scratch := by rw [deliverEach_only]
@[simp] theorem deliverEach_buffer (s : State) (l : List Nat) (b : List (Port × Func)) : (l.foldl (fun s w => deliverAll s w b) s).buffer = s.buffer := by rw [deliverEach_only]
@[simp] theorem deliverEach_acct (s : State) (l : List Nat) (b : List (Port × Func)) : (l.foldl (fun s w => deliverAll s w b) s).acct = s.acct := by rw [deliverEach_only]
@[simp] theorem deliverEach_closed (s : State) (l : List Nat) (b : List (Port × Func)) : (l.foldl (fun s w => deliverAll s w b) s).closed = s.closed := by rw [deliverEach_only]
@[simp] theorem deliverEach_nodeRecs (s : State) (l : List Nat) (b : List (Port × Func)) : (l.foldl (fun s w => deliverAll s w b) s).nodeRecs = s.nodeRecs := by rw [deliverEach_only]
@[simp] theorem deliverEach_heldNext (s : State) (l : List Nat) (b : List (Port × Func)) : (l.foldl (fun s w => deliverAll s w b) s).heldNext = s.heldNext := by rw [deliverEach_only]
@[simp] theorem deliverEach_shares (s : State) (l : List Nat) (b : List (Port × Func)) : (l.foldl (fun s w => deliverAll s w b) s).shares = s.shares := by rw [deliverEach_only]
@[simp] theorem deliverEach_shareShadow (s : State) (l : List Nat) (b : List (Port × Func)) : (l.foldl (fun s w => deliverAll s w b) s).shareShadow = s.shareShadow := by rw [deliverEach_only]
@[simp] theorem deliverEach_arb (s : State) (l : List Nat) (b : List (Port × Func)) : (l.foldl (fun s w => deliverAll s w b) s).arb = s.arb := by rw [deliverEach_only]
@[simp] theorem deliverEach_arbShadow (s : State) (l : List Nat) (b : List (Port × Func)) : (l.foldl (fun s w => deliverAll s w b) s).arbShadow = s.arbShadow := by rw [deliverEach_only]
@[simp] theorem deliverEach_deficits (s : State) (l : List Nat) (b : List (Port × Func)) : (l.foldl (fun s w => deliverAll s w b) s).deficits = s.deficits := by rw [deliverEach_only]
@[simp] theorem deliverEach_dma (s : State) (l : List Nat) (b : List (Port × Func)) : (l.foldl (fun s w => deliverAll s w b) s).dma = s.dma := by rw [deliverEach_only]
@[simp] theorem deliverEach_nodeNo (s : State) (l : List Nat) (b : List (Port × Func)) : (l.foldl (fun s w => deliverAll s w b) s).nodeNo = s.nodeNo := by rw [deliverEach_only]
@[simp] theorem deliverEach_partition (s : State) (l : List Nat) (b : List (Port × Func)) : (l.foldl (fun s w => deliverAll s w b) s).partition = s.partition := by rw [deliverEach_only]
@[simp] theorem deliverEach_fenced (s : State) (l : List Nat) (b : List (Port × Func)) : (l.foldl (fun s w => deliverAll s w b) s).fenced = s.fenced := by rw [deliverEach_only]

/-! ### becomeReady -/

theorem becomeReady_only (s : State) :
    becomeReady s = { s with funcs := (becomeReady s).funcs, out := (becomeReady s).out, boot := (becomeReady s).boot } := by
  apply State.same <;> simp [becomeReady]

@[simp] theorem becomeReady_pending (s : State) : (becomeReady s).pending = s.pending := by rw [becomeReady_only]
@[simp] theorem becomeReady_free (s : State) : (becomeReady s).free = s.free := by rw [becomeReady_only]
@[simp] theorem becomeReady_port0 (s : State) : (becomeReady s).port0 = s.port0 := by rw [becomeReady_only]
@[simp] theorem becomeReady_port1 (s : State) : (becomeReady s).port1 = s.port1 := by rw [becomeReady_only]
@[simp] theorem becomeReady_clusters (s : State) : (becomeReady s).clusters = s.clusters := by rw [becomeReady_only]
@[simp] theorem becomeReady_thermal (s : State) : (becomeReady s).thermal = s.thermal := by rw [becomeReady_only]
@[simp] theorem becomeReady_cal (s : State) : (becomeReady s).cal = s.cal := by rw [becomeReady_only]
@[simp] theorem becomeReady_time (s : State) : (becomeReady s).time = s.time := by rw [becomeReady_only]
@[simp] theorem becomeReady_flights (s : State) : (becomeReady s).flights = s.flights := by rw [becomeReady_only]
@[simp] theorem becomeReady_delayed (s : State) : (becomeReady s).delayed = s.delayed := by rw [becomeReady_only]
@[simp] theorem becomeReady_sec (s : State) : (becomeReady s).sec = s.sec := by rw [becomeReady_only]
@[simp] theorem becomeReady_domains (s : State) : (becomeReady s).domains = s.domains := by rw [becomeReady_only]
@[simp] theorem becomeReady_slices (s : State) : (becomeReady s).slices = s.slices := by rw [becomeReady_only]
@[simp] theorem becomeReady_marginRec (s : State) : (becomeReady s).marginRec = s.marginRec := by rw [becomeReady_only]
@[simp] theorem becomeReady_marginShadow (s : State) : (becomeReady s).marginShadow = s.marginShadow := by rw [becomeReady_only]
@[simp] theorem becomeReady_margins (s : State) : (becomeReady s).margins = s.margins := by rw [becomeReady_only]
@[simp] theorem becomeReady_counters (s : State) : (becomeReady s).counters = s.counters := by rw [becomeReady_only]
@[simp] theorem becomeReady_chans (s : State) : (becomeReady s).chans = s.chans := by rw [becomeReady_only]
@[simp] theorem becomeReady_rowOps (s : State) : (becomeReady s).rowOps = s.rowOps := by rw [becomeReady_only]
@[simp] theorem becomeReady_rowOpNo (s : State) : (becomeReady s).rowOpNo = s.rowOpNo := by rw [becomeReady_only]
@[simp] theorem becomeReady_bulk (s : State) : (becomeReady s).bulk = s.bulk := by rw [becomeReady_only]
@[simp] theorem becomeReady_mem (s : State) : (becomeReady s).mem = s.mem := by rw [becomeReady_only]
@[simp] theorem becomeReady_seqs (s : State) : (becomeReady s).seqs = s.seqs := by rw [becomeReady_only]
@[simp] theorem becomeReady_seqGen (s : State) : (becomeReady s).seqGen = s.seqGen := by rw [becomeReady_only]
@[simp] theorem becomeReady_models (s : State) : (becomeReady s).models = s.models := by rw [becomeReady_only]
@[simp] theorem becomeReady_courses (s : State) : (becomeReady s).courses = s.courses := by rw [becomeReady_only]
@[simp] theorem becomeReady_heats (s : State) : (becomeReady s).heats = s.heats := by rw [becomeReady_only]
@[simp] theorem becomeReady_place (s : State) : (becomeReady s).place = s.place := by rw [becomeReady_only]
@[simp] theorem becomeReady_net (s : State) : (becomeReady s).net = s.net := by rw [becomeReady_only]
@[simp] theorem becomeReady_dir (s : State) : (becomeReady s).dir = s.dir := by rw [becomeReady_only]
@[simp] theorem becomeReady_sel (s : State) : (becomeReady s).sel = s.sel := by rw [becomeReady_only]
@[simp] theorem becomeReady_scratch (s : State) : (becomeReady s).scratch = s.scratch := by rw [becomeReady_only]
@[simp] theorem becomeReady_buffer (s : State) : (becomeReady s).buffer = s.buffer := by rw [becomeReady_only]
@[simp] theorem becomeReady_acct (s : State) : (becomeReady s).acct = s.acct := by rw [becomeReady_only]
@[simp] theorem becomeReady_closed (s : State) : (becomeReady s).closed = s.closed := by rw [becomeReady_only]
@[simp] theorem becomeReady_nodeRecs (s : State) : (becomeReady s).nodeRecs = s.nodeRecs := by rw [becomeReady_only]
@[simp] theorem becomeReady_heldNext (s : State) : (becomeReady s).heldNext = s.heldNext := by rw [becomeReady_only]
@[simp] theorem becomeReady_shares (s : State) : (becomeReady s).shares = s.shares := by rw [becomeReady_only]
@[simp] theorem becomeReady_shareShadow (s : State) : (becomeReady s).shareShadow = s.shareShadow := by rw [becomeReady_only]
@[simp] theorem becomeReady_arb (s : State) : (becomeReady s).arb = s.arb := by rw [becomeReady_only]
@[simp] theorem becomeReady_arbShadow (s : State) : (becomeReady s).arbShadow = s.arbShadow := by rw [becomeReady_only]
@[simp] theorem becomeReady_deficits (s : State) : (becomeReady s).deficits = s.deficits := by rw [becomeReady_only]
@[simp] theorem becomeReady_dma (s : State) : (becomeReady s).dma = s.dma := by rw [becomeReady_only]
@[simp] theorem becomeReady_nodeNo (s : State) : (becomeReady s).nodeNo = s.nodeNo := by rw [becomeReady_only]
@[simp] theorem becomeReady_partition (s : State) : (becomeReady s).partition = s.partition := by rw [becomeReady_only]
@[simp] theorem becomeReady_fenced (s : State) : (becomeReady s).fenced = s.fenced := by rw [becomeReady_only]

/-! ### rejectCal -/

theorem rejectCal_only (s : State) :
    rejectCal s = { s with cal := (rejectCal s).cal, time := (rejectCal s).time } := by
  unfold rejectCal; dsimp only; split <;> rfl

@[simp] theorem rejectCal_pending (s : State) : (rejectCal s).pending = s.pending := by rw [rejectCal_only]
@[simp] theorem rejectCal_out (s : State) : (rejectCal s).out = s.out := by rw [rejectCal_only]
@[simp] theorem rejectCal_free (s : State) : (rejectCal s).free = s.free := by rw [rejectCal_only]
@[simp] theorem rejectCal_boot (s : State) : (rejectCal s).boot = s.boot := by rw [rejectCal_only]
@[simp] theorem rejectCal_port0 (s : State) : (rejectCal s).port0 = s.port0 := by rw [rejectCal_only]
@[simp] theorem rejectCal_port1 (s : State) : (rejectCal s).port1 = s.port1 := by rw [rejectCal_only]
@[simp] theorem rejectCal_clusters (s : State) : (rejectCal s).clusters = s.clusters := by rw [rejectCal_only]
@[simp] theorem rejectCal_thermal (s : State) : (rejectCal s).thermal = s.thermal := by rw [rejectCal_only]
@[simp] theorem rejectCal_funcs (s : State) : (rejectCal s).funcs = s.funcs := by rw [rejectCal_only]
@[simp] theorem rejectCal_flights (s : State) : (rejectCal s).flights = s.flights := by rw [rejectCal_only]
@[simp] theorem rejectCal_delayed (s : State) : (rejectCal s).delayed = s.delayed := by rw [rejectCal_only]
@[simp] theorem rejectCal_sec (s : State) : (rejectCal s).sec = s.sec := by rw [rejectCal_only]
@[simp] theorem rejectCal_domains (s : State) : (rejectCal s).domains = s.domains := by rw [rejectCal_only]
@[simp] theorem rejectCal_slices (s : State) : (rejectCal s).slices = s.slices := by rw [rejectCal_only]
@[simp] theorem rejectCal_marginRec (s : State) : (rejectCal s).marginRec = s.marginRec := by rw [rejectCal_only]
@[simp] theorem rejectCal_marginShadow (s : State) : (rejectCal s).marginShadow = s.marginShadow := by rw [rejectCal_only]
@[simp] theorem rejectCal_margins (s : State) : (rejectCal s).margins = s.margins := by rw [rejectCal_only]
@[simp] theorem rejectCal_counters (s : State) : (rejectCal s).counters = s.counters := by rw [rejectCal_only]
@[simp] theorem rejectCal_chans (s : State) : (rejectCal s).chans = s.chans := by rw [rejectCal_only]
@[simp] theorem rejectCal_rowOps (s : State) : (rejectCal s).rowOps = s.rowOps := by rw [rejectCal_only]
@[simp] theorem rejectCal_rowOpNo (s : State) : (rejectCal s).rowOpNo = s.rowOpNo := by rw [rejectCal_only]
@[simp] theorem rejectCal_bulk (s : State) : (rejectCal s).bulk = s.bulk := by rw [rejectCal_only]
@[simp] theorem rejectCal_mem (s : State) : (rejectCal s).mem = s.mem := by rw [rejectCal_only]
@[simp] theorem rejectCal_seqs (s : State) : (rejectCal s).seqs = s.seqs := by rw [rejectCal_only]
@[simp] theorem rejectCal_seqGen (s : State) : (rejectCal s).seqGen = s.seqGen := by rw [rejectCal_only]
@[simp] theorem rejectCal_models (s : State) : (rejectCal s).models = s.models := by rw [rejectCal_only]
@[simp] theorem rejectCal_courses (s : State) : (rejectCal s).courses = s.courses := by rw [rejectCal_only]
@[simp] theorem rejectCal_heats (s : State) : (rejectCal s).heats = s.heats := by rw [rejectCal_only]
@[simp] theorem rejectCal_place (s : State) : (rejectCal s).place = s.place := by rw [rejectCal_only]
@[simp] theorem rejectCal_net (s : State) : (rejectCal s).net = s.net := by rw [rejectCal_only]
@[simp] theorem rejectCal_dir (s : State) : (rejectCal s).dir = s.dir := by rw [rejectCal_only]
@[simp] theorem rejectCal_sel (s : State) : (rejectCal s).sel = s.sel := by rw [rejectCal_only]
@[simp] theorem rejectCal_scratch (s : State) : (rejectCal s).scratch = s.scratch := by rw [rejectCal_only]
@[simp] theorem rejectCal_buffer (s : State) : (rejectCal s).buffer = s.buffer := by rw [rejectCal_only]
@[simp] theorem rejectCal_acct (s : State) : (rejectCal s).acct = s.acct := by rw [rejectCal_only]
@[simp] theorem rejectCal_closed (s : State) : (rejectCal s).closed = s.closed := by rw [rejectCal_only]
@[simp] theorem rejectCal_nodeRecs (s : State) : (rejectCal s).nodeRecs = s.nodeRecs := by rw [rejectCal_only]
@[simp] theorem rejectCal_heldNext (s : State) : (rejectCal s).heldNext = s.heldNext := by rw [rejectCal_only]
@[simp] theorem rejectCal_shares (s : State) : (rejectCal s).shares = s.shares := by rw [rejectCal_only]
@[simp] theorem rejectCal_shareShadow (s : State) : (rejectCal s).shareShadow = s.shareShadow := by rw [rejectCal_only]
@[simp] theorem rejectCal_arb (s : State) : (rejectCal s).arb = s.arb := by rw [rejectCal_only]
@[simp] theorem rejectCal_arbShadow (s : State) : (rejectCal s).arbShadow = s.arbShadow := by rw [rejectCal_only]
@[simp] theorem rejectCal_deficits (s : State) : (rejectCal s).deficits = s.deficits := by rw [rejectCal_only]
@[simp] theorem rejectCal_dma (s : State) : (rejectCal s).dma = s.dma := by rw [rejectCal_only]
@[simp] theorem rejectCal_nodeNo (s : State) : (rejectCal s).nodeNo = s.nodeNo := by rw [rejectCal_only]
@[simp] theorem rejectCal_partition (s : State) : (rejectCal s).partition = s.partition := by rw [rejectCal_only]
@[simp] theorem rejectCal_fenced (s : State) : (rejectCal s).fenced = s.fenced := by rw [rejectCal_only]

/-! ### calTime -/

theorem calTime_only (s : State) (r : Nat) :
    calTime s r = { s with time := (calTime s r).time } := by
  rfl

@[simp] theorem calTime_pending (s : State) (r : Nat) : (calTime s r).pending = s.pending := by rw [calTime_only]
@[simp] theorem calTime_out (s : State) (r : Nat) : (calTime s r).out = s.out := by rw [calTime_only]
@[simp] theorem calTime_free (s : State) (r : Nat) : (calTime s r).free = s.free := by rw [calTime_only]
@[simp] theorem calTime_boot (s : State) (r : Nat) : (calTime s r).boot = s.boot := by rw [calTime_only]
@[simp] theorem calTime_port0 (s : State) (r : Nat) : (calTime s r).port0 = s.port0 := by rw [calTime_only]
@[simp] theorem calTime_port1 (s : State) (r : Nat) : (calTime s r).port1 = s.port1 := by rw [calTime_only]
@[simp] theorem calTime_clusters (s : State) (r : Nat) : (calTime s r).clusters = s.clusters := by rw [calTime_only]
@[simp] theorem calTime_thermal (s : State) (r : Nat) : (calTime s r).thermal = s.thermal := by rw [calTime_only]
@[simp] theorem calTime_cal (s : State) (r : Nat) : (calTime s r).cal = s.cal := by rw [calTime_only]
@[simp] theorem calTime_funcs (s : State) (r : Nat) : (calTime s r).funcs = s.funcs := by rw [calTime_only]
@[simp] theorem calTime_flights (s : State) (r : Nat) : (calTime s r).flights = s.flights := by rw [calTime_only]
@[simp] theorem calTime_delayed (s : State) (r : Nat) : (calTime s r).delayed = s.delayed := by rw [calTime_only]
@[simp] theorem calTime_sec (s : State) (r : Nat) : (calTime s r).sec = s.sec := by rw [calTime_only]
@[simp] theorem calTime_domains (s : State) (r : Nat) : (calTime s r).domains = s.domains := by rw [calTime_only]
@[simp] theorem calTime_slices (s : State) (r : Nat) : (calTime s r).slices = s.slices := by rw [calTime_only]
@[simp] theorem calTime_marginRec (s : State) (r : Nat) : (calTime s r).marginRec = s.marginRec := by rw [calTime_only]
@[simp] theorem calTime_marginShadow (s : State) (r : Nat) : (calTime s r).marginShadow = s.marginShadow := by rw [calTime_only]
@[simp] theorem calTime_margins (s : State) (r : Nat) : (calTime s r).margins = s.margins := by rw [calTime_only]
@[simp] theorem calTime_counters (s : State) (r : Nat) : (calTime s r).counters = s.counters := by rw [calTime_only]
@[simp] theorem calTime_chans (s : State) (r : Nat) : (calTime s r).chans = s.chans := by rw [calTime_only]
@[simp] theorem calTime_rowOps (s : State) (r : Nat) : (calTime s r).rowOps = s.rowOps := by rw [calTime_only]
@[simp] theorem calTime_rowOpNo (s : State) (r : Nat) : (calTime s r).rowOpNo = s.rowOpNo := by rw [calTime_only]
@[simp] theorem calTime_bulk (s : State) (r : Nat) : (calTime s r).bulk = s.bulk := by rw [calTime_only]
@[simp] theorem calTime_mem (s : State) (r : Nat) : (calTime s r).mem = s.mem := by rw [calTime_only]
@[simp] theorem calTime_seqs (s : State) (r : Nat) : (calTime s r).seqs = s.seqs := by rw [calTime_only]
@[simp] theorem calTime_seqGen (s : State) (r : Nat) : (calTime s r).seqGen = s.seqGen := by rw [calTime_only]
@[simp] theorem calTime_models (s : State) (r : Nat) : (calTime s r).models = s.models := by rw [calTime_only]
@[simp] theorem calTime_courses (s : State) (r : Nat) : (calTime s r).courses = s.courses := by rw [calTime_only]
@[simp] theorem calTime_heats (s : State) (r : Nat) : (calTime s r).heats = s.heats := by rw [calTime_only]
@[simp] theorem calTime_place (s : State) (r : Nat) : (calTime s r).place = s.place := by rw [calTime_only]
@[simp] theorem calTime_net (s : State) (r : Nat) : (calTime s r).net = s.net := by rw [calTime_only]
@[simp] theorem calTime_dir (s : State) (r : Nat) : (calTime s r).dir = s.dir := by rw [calTime_only]
@[simp] theorem calTime_sel (s : State) (r : Nat) : (calTime s r).sel = s.sel := by rw [calTime_only]
@[simp] theorem calTime_scratch (s : State) (r : Nat) : (calTime s r).scratch = s.scratch := by rw [calTime_only]
@[simp] theorem calTime_buffer (s : State) (r : Nat) : (calTime s r).buffer = s.buffer := by rw [calTime_only]
@[simp] theorem calTime_acct (s : State) (r : Nat) : (calTime s r).acct = s.acct := by rw [calTime_only]
@[simp] theorem calTime_closed (s : State) (r : Nat) : (calTime s r).closed = s.closed := by rw [calTime_only]
@[simp] theorem calTime_nodeRecs (s : State) (r : Nat) : (calTime s r).nodeRecs = s.nodeRecs := by rw [calTime_only]
@[simp] theorem calTime_heldNext (s : State) (r : Nat) : (calTime s r).heldNext = s.heldNext := by rw [calTime_only]
@[simp] theorem calTime_shares (s : State) (r : Nat) : (calTime s r).shares = s.shares := by rw [calTime_only]
@[simp] theorem calTime_shareShadow (s : State) (r : Nat) : (calTime s r).shareShadow = s.shareShadow := by rw [calTime_only]
@[simp] theorem calTime_arb (s : State) (r : Nat) : (calTime s r).arb = s.arb := by rw [calTime_only]
@[simp] theorem calTime_arbShadow (s : State) (r : Nat) : (calTime s r).arbShadow = s.arbShadow := by rw [calTime_only]
@[simp] theorem calTime_deficits (s : State) (r : Nat) : (calTime s r).deficits = s.deficits := by rw [calTime_only]
@[simp] theorem calTime_dma (s : State) (r : Nat) : (calTime s r).dma = s.dma := by rw [calTime_only]
@[simp] theorem calTime_nodeNo (s : State) (r : Nat) : (calTime s r).nodeNo = s.nodeNo := by rw [calTime_only]
@[simp] theorem calTime_partition (s : State) (r : Nat) : (calTime s r).partition = s.partition := by rw [calTime_only]
@[simp] theorem calTime_fenced (s : State) (r : Nat) : (calTime s r).fenced = s.fenced := by rw [calTime_only]

/-! ### takeCal -/

theorem takeCal_only (s : State) (r : Nat) (d : BitVec 384) :
    takeCal s r d = { s with cal := (takeCal s r d).cal, time := (takeCal s r d).time } := by
  unfold takeCal
  split
  · rw [calTime_only]
  · exact rejectCal_only _

@[simp] theorem takeCal_pending (s : State) (r : Nat) (d : BitVec 384) : (takeCal s r d).pending = s.pending := by rw [takeCal_only]
@[simp] theorem takeCal_out (s : State) (r : Nat) (d : BitVec 384) : (takeCal s r d).out = s.out := by rw [takeCal_only]
@[simp] theorem takeCal_free (s : State) (r : Nat) (d : BitVec 384) : (takeCal s r d).free = s.free := by rw [takeCal_only]
@[simp] theorem takeCal_boot (s : State) (r : Nat) (d : BitVec 384) : (takeCal s r d).boot = s.boot := by rw [takeCal_only]
@[simp] theorem takeCal_port0 (s : State) (r : Nat) (d : BitVec 384) : (takeCal s r d).port0 = s.port0 := by rw [takeCal_only]
@[simp] theorem takeCal_port1 (s : State) (r : Nat) (d : BitVec 384) : (takeCal s r d).port1 = s.port1 := by rw [takeCal_only]
@[simp] theorem takeCal_clusters (s : State) (r : Nat) (d : BitVec 384) : (takeCal s r d).clusters = s.clusters := by rw [takeCal_only]
@[simp] theorem takeCal_thermal (s : State) (r : Nat) (d : BitVec 384) : (takeCal s r d).thermal = s.thermal := by rw [takeCal_only]
@[simp] theorem takeCal_funcs (s : State) (r : Nat) (d : BitVec 384) : (takeCal s r d).funcs = s.funcs := by rw [takeCal_only]
@[simp] theorem takeCal_flights (s : State) (r : Nat) (d : BitVec 384) : (takeCal s r d).flights = s.flights := by rw [takeCal_only]
@[simp] theorem takeCal_delayed (s : State) (r : Nat) (d : BitVec 384) : (takeCal s r d).delayed = s.delayed := by rw [takeCal_only]
@[simp] theorem takeCal_sec (s : State) (r : Nat) (d : BitVec 384) : (takeCal s r d).sec = s.sec := by rw [takeCal_only]
@[simp] theorem takeCal_domains (s : State) (r : Nat) (d : BitVec 384) : (takeCal s r d).domains = s.domains := by rw [takeCal_only]
@[simp] theorem takeCal_slices (s : State) (r : Nat) (d : BitVec 384) : (takeCal s r d).slices = s.slices := by rw [takeCal_only]
@[simp] theorem takeCal_marginRec (s : State) (r : Nat) (d : BitVec 384) : (takeCal s r d).marginRec = s.marginRec := by rw [takeCal_only]
@[simp] theorem takeCal_marginShadow (s : State) (r : Nat) (d : BitVec 384) : (takeCal s r d).marginShadow = s.marginShadow := by rw [takeCal_only]
@[simp] theorem takeCal_margins (s : State) (r : Nat) (d : BitVec 384) : (takeCal s r d).margins = s.margins := by rw [takeCal_only]
@[simp] theorem takeCal_counters (s : State) (r : Nat) (d : BitVec 384) : (takeCal s r d).counters = s.counters := by rw [takeCal_only]
@[simp] theorem takeCal_chans (s : State) (r : Nat) (d : BitVec 384) : (takeCal s r d).chans = s.chans := by rw [takeCal_only]
@[simp] theorem takeCal_rowOps (s : State) (r : Nat) (d : BitVec 384) : (takeCal s r d).rowOps = s.rowOps := by rw [takeCal_only]
@[simp] theorem takeCal_rowOpNo (s : State) (r : Nat) (d : BitVec 384) : (takeCal s r d).rowOpNo = s.rowOpNo := by rw [takeCal_only]
@[simp] theorem takeCal_bulk (s : State) (r : Nat) (d : BitVec 384) : (takeCal s r d).bulk = s.bulk := by rw [takeCal_only]
@[simp] theorem takeCal_mem (s : State) (r : Nat) (d : BitVec 384) : (takeCal s r d).mem = s.mem := by rw [takeCal_only]
@[simp] theorem takeCal_seqs (s : State) (r : Nat) (d : BitVec 384) : (takeCal s r d).seqs = s.seqs := by rw [takeCal_only]
@[simp] theorem takeCal_seqGen (s : State) (r : Nat) (d : BitVec 384) : (takeCal s r d).seqGen = s.seqGen := by rw [takeCal_only]
@[simp] theorem takeCal_models (s : State) (r : Nat) (d : BitVec 384) : (takeCal s r d).models = s.models := by rw [takeCal_only]
@[simp] theorem takeCal_courses (s : State) (r : Nat) (d : BitVec 384) : (takeCal s r d).courses = s.courses := by rw [takeCal_only]
@[simp] theorem takeCal_heats (s : State) (r : Nat) (d : BitVec 384) : (takeCal s r d).heats = s.heats := by rw [takeCal_only]
@[simp] theorem takeCal_place (s : State) (r : Nat) (d : BitVec 384) : (takeCal s r d).place = s.place := by rw [takeCal_only]
@[simp] theorem takeCal_net (s : State) (r : Nat) (d : BitVec 384) : (takeCal s r d).net = s.net := by rw [takeCal_only]
@[simp] theorem takeCal_dir (s : State) (r : Nat) (d : BitVec 384) : (takeCal s r d).dir = s.dir := by rw [takeCal_only]
@[simp] theorem takeCal_sel (s : State) (r : Nat) (d : BitVec 384) : (takeCal s r d).sel = s.sel := by rw [takeCal_only]
@[simp] theorem takeCal_scratch (s : State) (r : Nat) (d : BitVec 384) : (takeCal s r d).scratch = s.scratch := by rw [takeCal_only]
@[simp] theorem takeCal_buffer (s : State) (r : Nat) (d : BitVec 384) : (takeCal s r d).buffer = s.buffer := by rw [takeCal_only]
@[simp] theorem takeCal_acct (s : State) (r : Nat) (d : BitVec 384) : (takeCal s r d).acct = s.acct := by rw [takeCal_only]
@[simp] theorem takeCal_closed (s : State) (r : Nat) (d : BitVec 384) : (takeCal s r d).closed = s.closed := by rw [takeCal_only]
@[simp] theorem takeCal_nodeRecs (s : State) (r : Nat) (d : BitVec 384) : (takeCal s r d).nodeRecs = s.nodeRecs := by rw [takeCal_only]
@[simp] theorem takeCal_heldNext (s : State) (r : Nat) (d : BitVec 384) : (takeCal s r d).heldNext = s.heldNext := by rw [takeCal_only]
@[simp] theorem takeCal_shares (s : State) (r : Nat) (d : BitVec 384) : (takeCal s r d).shares = s.shares := by rw [takeCal_only]
@[simp] theorem takeCal_shareShadow (s : State) (r : Nat) (d : BitVec 384) : (takeCal s r d).shareShadow = s.shareShadow := by rw [takeCal_only]
@[simp] theorem takeCal_arb (s : State) (r : Nat) (d : BitVec 384) : (takeCal s r d).arb = s.arb := by rw [takeCal_only]
@[simp] theorem takeCal_arbShadow (s : State) (r : Nat) (d : BitVec 384) : (takeCal s r d).arbShadow = s.arbShadow := by rw [takeCal_only]
@[simp] theorem takeCal_deficits (s : State) (r : Nat) (d : BitVec 384) : (takeCal s r d).deficits = s.deficits := by rw [takeCal_only]
@[simp] theorem takeCal_dma (s : State) (r : Nat) (d : BitVec 384) : (takeCal s r d).dma = s.dma := by rw [takeCal_only]
@[simp] theorem takeCal_nodeNo (s : State) (r : Nat) (d : BitVec 384) : (takeCal s r d).nodeNo = s.nodeNo := by rw [takeCal_only]
@[simp] theorem takeCal_partition (s : State) (r : Nat) (d : BitVec 384) : (takeCal s r d).partition = s.partition := by rw [takeCal_only]
@[simp] theorem takeCal_fenced (s : State) (r : Nat) (d : BitVec 384) : (takeCal s r d).fenced = s.fenced := by rw [takeCal_only]

/-! ### flashRecord -/

theorem flashRecord_only (s : State) (f : Flash) :
    flashRecord s f = { s with cal := (flashRecord s f).cal, time := (flashRecord s f).time } := by
  unfold flashRecord
  split
  · rfl
  · split
    · exact takeCal_only _ _ _
    · exact rejectCal_only _

@[simp] theorem flashRecord_pending (s : State) (f : Flash) : (flashRecord s f).pending = s.pending := by rw [flashRecord_only]
@[simp] theorem flashRecord_out (s : State) (f : Flash) : (flashRecord s f).out = s.out := by rw [flashRecord_only]
@[simp] theorem flashRecord_free (s : State) (f : Flash) : (flashRecord s f).free = s.free := by rw [flashRecord_only]
@[simp] theorem flashRecord_boot (s : State) (f : Flash) : (flashRecord s f).boot = s.boot := by rw [flashRecord_only]
@[simp] theorem flashRecord_port0 (s : State) (f : Flash) : (flashRecord s f).port0 = s.port0 := by rw [flashRecord_only]
@[simp] theorem flashRecord_port1 (s : State) (f : Flash) : (flashRecord s f).port1 = s.port1 := by rw [flashRecord_only]
@[simp] theorem flashRecord_clusters (s : State) (f : Flash) : (flashRecord s f).clusters = s.clusters := by rw [flashRecord_only]
@[simp] theorem flashRecord_thermal (s : State) (f : Flash) : (flashRecord s f).thermal = s.thermal := by rw [flashRecord_only]
@[simp] theorem flashRecord_funcs (s : State) (f : Flash) : (flashRecord s f).funcs = s.funcs := by rw [flashRecord_only]
@[simp] theorem flashRecord_flights (s : State) (f : Flash) : (flashRecord s f).flights = s.flights := by rw [flashRecord_only]
@[simp] theorem flashRecord_delayed (s : State) (f : Flash) : (flashRecord s f).delayed = s.delayed := by rw [flashRecord_only]
@[simp] theorem flashRecord_sec (s : State) (f : Flash) : (flashRecord s f).sec = s.sec := by rw [flashRecord_only]
@[simp] theorem flashRecord_domains (s : State) (f : Flash) : (flashRecord s f).domains = s.domains := by rw [flashRecord_only]
@[simp] theorem flashRecord_slices (s : State) (f : Flash) : (flashRecord s f).slices = s.slices := by rw [flashRecord_only]
@[simp] theorem flashRecord_marginRec (s : State) (f : Flash) : (flashRecord s f).marginRec = s.marginRec := by rw [flashRecord_only]
@[simp] theorem flashRecord_marginShadow (s : State) (f : Flash) : (flashRecord s f).marginShadow = s.marginShadow := by rw [flashRecord_only]
@[simp] theorem flashRecord_margins (s : State) (f : Flash) : (flashRecord s f).margins = s.margins := by rw [flashRecord_only]
@[simp] theorem flashRecord_counters (s : State) (f : Flash) : (flashRecord s f).counters = s.counters := by rw [flashRecord_only]
@[simp] theorem flashRecord_chans (s : State) (f : Flash) : (flashRecord s f).chans = s.chans := by rw [flashRecord_only]
@[simp] theorem flashRecord_rowOps (s : State) (f : Flash) : (flashRecord s f).rowOps = s.rowOps := by rw [flashRecord_only]
@[simp] theorem flashRecord_rowOpNo (s : State) (f : Flash) : (flashRecord s f).rowOpNo = s.rowOpNo := by rw [flashRecord_only]
@[simp] theorem flashRecord_bulk (s : State) (f : Flash) : (flashRecord s f).bulk = s.bulk := by rw [flashRecord_only]
@[simp] theorem flashRecord_mem (s : State) (f : Flash) : (flashRecord s f).mem = s.mem := by rw [flashRecord_only]
@[simp] theorem flashRecord_seqs (s : State) (f : Flash) : (flashRecord s f).seqs = s.seqs := by rw [flashRecord_only]
@[simp] theorem flashRecord_seqGen (s : State) (f : Flash) : (flashRecord s f).seqGen = s.seqGen := by rw [flashRecord_only]
@[simp] theorem flashRecord_models (s : State) (f : Flash) : (flashRecord s f).models = s.models := by rw [flashRecord_only]
@[simp] theorem flashRecord_courses (s : State) (f : Flash) : (flashRecord s f).courses = s.courses := by rw [flashRecord_only]
@[simp] theorem flashRecord_heats (s : State) (f : Flash) : (flashRecord s f).heats = s.heats := by rw [flashRecord_only]
@[simp] theorem flashRecord_place (s : State) (f : Flash) : (flashRecord s f).place = s.place := by rw [flashRecord_only]
@[simp] theorem flashRecord_net (s : State) (f : Flash) : (flashRecord s f).net = s.net := by rw [flashRecord_only]
@[simp] theorem flashRecord_dir (s : State) (f : Flash) : (flashRecord s f).dir = s.dir := by rw [flashRecord_only]
@[simp] theorem flashRecord_sel (s : State) (f : Flash) : (flashRecord s f).sel = s.sel := by rw [flashRecord_only]
@[simp] theorem flashRecord_scratch (s : State) (f : Flash) : (flashRecord s f).scratch = s.scratch := by rw [flashRecord_only]
@[simp] theorem flashRecord_buffer (s : State) (f : Flash) : (flashRecord s f).buffer = s.buffer := by rw [flashRecord_only]
@[simp] theorem flashRecord_acct (s : State) (f : Flash) : (flashRecord s f).acct = s.acct := by rw [flashRecord_only]
@[simp] theorem flashRecord_closed (s : State) (f : Flash) : (flashRecord s f).closed = s.closed := by rw [flashRecord_only]
@[simp] theorem flashRecord_nodeRecs (s : State) (f : Flash) : (flashRecord s f).nodeRecs = s.nodeRecs := by rw [flashRecord_only]
@[simp] theorem flashRecord_heldNext (s : State) (f : Flash) : (flashRecord s f).heldNext = s.heldNext := by rw [flashRecord_only]
@[simp] theorem flashRecord_shares (s : State) (f : Flash) : (flashRecord s f).shares = s.shares := by rw [flashRecord_only]
@[simp] theorem flashRecord_shareShadow (s : State) (f : Flash) : (flashRecord s f).shareShadow = s.shareShadow := by rw [flashRecord_only]
@[simp] theorem flashRecord_arb (s : State) (f : Flash) : (flashRecord s f).arb = s.arb := by rw [flashRecord_only]
@[simp] theorem flashRecord_arbShadow (s : State) (f : Flash) : (flashRecord s f).arbShadow = s.arbShadow := by rw [flashRecord_only]
@[simp] theorem flashRecord_deficits (s : State) (f : Flash) : (flashRecord s f).deficits = s.deficits := by rw [flashRecord_only]
@[simp] theorem flashRecord_dma (s : State) (f : Flash) : (flashRecord s f).dma = s.dma := by rw [flashRecord_only]
@[simp] theorem flashRecord_nodeNo (s : State) (f : Flash) : (flashRecord s f).nodeNo = s.nodeNo := by rw [flashRecord_only]
@[simp] theorem flashRecord_partition (s : State) (f : Flash) : (flashRecord s f).partition = s.partition := by rw [flashRecord_only]
@[simp] theorem flashRecord_fenced (s : State) (f : Flash) : (flashRecord s f).fenced = s.fenced := by rw [flashRecord_only]

/-! ### startTraining -/

theorem startTraining_only (s : State) :
    startTraining s = { s with time := (startTraining s).time, boot := (startTraining s).boot } := by
  rfl

@[simp] theorem startTraining_pending (s : State) : (startTraining s).pending = s.pending := by rw [startTraining_only]
@[simp] theorem startTraining_out (s : State) : (startTraining s).out = s.out := by rw [startTraining_only]
@[simp] theorem startTraining_free (s : State) : (startTraining s).free = s.free := by rw [startTraining_only]
@[simp] theorem startTraining_port0 (s : State) : (startTraining s).port0 = s.port0 := by rw [startTraining_only]
@[simp] theorem startTraining_port1 (s : State) : (startTraining s).port1 = s.port1 := by rw [startTraining_only]
@[simp] theorem startTraining_clusters (s : State) : (startTraining s).clusters = s.clusters := by rw [startTraining_only]
@[simp] theorem startTraining_thermal (s : State) : (startTraining s).thermal = s.thermal := by rw [startTraining_only]
@[simp] theorem startTraining_cal (s : State) : (startTraining s).cal = s.cal := by rw [startTraining_only]
@[simp] theorem startTraining_funcs (s : State) : (startTraining s).funcs = s.funcs := by rw [startTraining_only]
@[simp] theorem startTraining_flights (s : State) : (startTraining s).flights = s.flights := by rw [startTraining_only]
@[simp] theorem startTraining_delayed (s : State) : (startTraining s).delayed = s.delayed := by rw [startTraining_only]
@[simp] theorem startTraining_sec (s : State) : (startTraining s).sec = s.sec := by rw [startTraining_only]
@[simp] theorem startTraining_domains (s : State) : (startTraining s).domains = s.domains := by rw [startTraining_only]
@[simp] theorem startTraining_slices (s : State) : (startTraining s).slices = s.slices := by rw [startTraining_only]
@[simp] theorem startTraining_marginRec (s : State) : (startTraining s).marginRec = s.marginRec := by rw [startTraining_only]
@[simp] theorem startTraining_marginShadow (s : State) : (startTraining s).marginShadow = s.marginShadow := by rw [startTraining_only]
@[simp] theorem startTraining_margins (s : State) : (startTraining s).margins = s.margins := by rw [startTraining_only]
@[simp] theorem startTraining_counters (s : State) : (startTraining s).counters = s.counters := by rw [startTraining_only]
@[simp] theorem startTraining_chans (s : State) : (startTraining s).chans = s.chans := by rw [startTraining_only]
@[simp] theorem startTraining_rowOps (s : State) : (startTraining s).rowOps = s.rowOps := by rw [startTraining_only]
@[simp] theorem startTraining_rowOpNo (s : State) : (startTraining s).rowOpNo = s.rowOpNo := by rw [startTraining_only]
@[simp] theorem startTraining_bulk (s : State) : (startTraining s).bulk = s.bulk := by rw [startTraining_only]
@[simp] theorem startTraining_mem (s : State) : (startTraining s).mem = s.mem := by rw [startTraining_only]
@[simp] theorem startTraining_seqs (s : State) : (startTraining s).seqs = s.seqs := by rw [startTraining_only]
@[simp] theorem startTraining_seqGen (s : State) : (startTraining s).seqGen = s.seqGen := by rw [startTraining_only]
@[simp] theorem startTraining_models (s : State) : (startTraining s).models = s.models := by rw [startTraining_only]
@[simp] theorem startTraining_courses (s : State) : (startTraining s).courses = s.courses := by rw [startTraining_only]
@[simp] theorem startTraining_heats (s : State) : (startTraining s).heats = s.heats := by rw [startTraining_only]
@[simp] theorem startTraining_place (s : State) : (startTraining s).place = s.place := by rw [startTraining_only]
@[simp] theorem startTraining_net (s : State) : (startTraining s).net = s.net := by rw [startTraining_only]
@[simp] theorem startTraining_dir (s : State) : (startTraining s).dir = s.dir := by rw [startTraining_only]
@[simp] theorem startTraining_sel (s : State) : (startTraining s).sel = s.sel := by rw [startTraining_only]
@[simp] theorem startTraining_scratch (s : State) : (startTraining s).scratch = s.scratch := by rw [startTraining_only]
@[simp] theorem startTraining_buffer (s : State) : (startTraining s).buffer = s.buffer := by rw [startTraining_only]
@[simp] theorem startTraining_acct (s : State) : (startTraining s).acct = s.acct := by rw [startTraining_only]
@[simp] theorem startTraining_closed (s : State) : (startTraining s).closed = s.closed := by rw [startTraining_only]
@[simp] theorem startTraining_nodeRecs (s : State) : (startTraining s).nodeRecs = s.nodeRecs := by rw [startTraining_only]
@[simp] theorem startTraining_heldNext (s : State) : (startTraining s).heldNext = s.heldNext := by rw [startTraining_only]
@[simp] theorem startTraining_shares (s : State) : (startTraining s).shares = s.shares := by rw [startTraining_only]
@[simp] theorem startTraining_shareShadow (s : State) : (startTraining s).shareShadow = s.shareShadow := by rw [startTraining_only]
@[simp] theorem startTraining_arb (s : State) : (startTraining s).arb = s.arb := by rw [startTraining_only]
@[simp] theorem startTraining_arbShadow (s : State) : (startTraining s).arbShadow = s.arbShadow := by rw [startTraining_only]
@[simp] theorem startTraining_deficits (s : State) : (startTraining s).deficits = s.deficits := by rw [startTraining_only]
@[simp] theorem startTraining_dma (s : State) : (startTraining s).dma = s.dma := by rw [startTraining_only]
@[simp] theorem startTraining_nodeNo (s : State) : (startTraining s).nodeNo = s.nodeNo := by rw [startTraining_only]
@[simp] theorem startTraining_partition (s : State) : (startTraining s).partition = s.partition := by rw [startTraining_only]
@[simp] theorem startTraining_fenced (s : State) : (startTraining s).fenced = s.fenced := by rw [startTraining_only]

/-! ### finishFlights -/

theorem finishFlights_only (s : State) (l : List Flight) (st : Status) (r a : Nat) :
    l.foldl (fun s g => finishFlight s g st r a) s = { s with sec := (l.foldl (fun s g => finishFlight s g st r a) s).sec, funcs := (l.foldl (fun s g => finishFlight s g st r a) s).funcs, out := (l.foldl (fun s g => finishFlight s g st r a) s).out, delayed := (l.foldl (fun s g => finishFlight s g st r a) s).delayed, net := (l.foldl (fun s g => finishFlight s g st r a) s).net } := by
  exact foldl_only (U := fun t s => { s with sec := t.sec, funcs := t.funcs, out := t.out, delayed := t.delayed, net := t.net }) (fun _ => rfl) (fun _ _ _ => rfl) _ (fun _ _ => finishFlight_only _ _ _ _ _) _ _

@[simp] theorem finishFlights_pending (s : State) (l : List Flight) (st : Status) (r a : Nat) : (l.foldl (fun s g => finishFlight s g st r a) s).pending = s.pending := by rw [finishFlights_only]
@[simp] theorem finishFlights_free (s : State) (l : List Flight) (st : Status) (r a : Nat) : (l.foldl (fun s g => finishFlight s g st r a) s).free = s.free := by rw [finishFlights_only]
@[simp] theorem finishFlights_boot (s : State) (l : List Flight) (st : Status) (r a : Nat) : (l.foldl (fun s g => finishFlight s g st r a) s).boot = s.boot := by rw [finishFlights_only]
@[simp] theorem finishFlights_port0 (s : State) (l : List Flight) (st : Status) (r a : Nat) : (l.foldl (fun s g => finishFlight s g st r a) s).port0 = s.port0 := by rw [finishFlights_only]
@[simp] theorem finishFlights_port1 (s : State) (l : List Flight) (st : Status) (r a : Nat) : (l.foldl (fun s g => finishFlight s g st r a) s).port1 = s.port1 := by rw [finishFlights_only]
@[simp] theorem finishFlights_clusters (s : State) (l : List Flight) (st : Status) (r a : Nat) : (l.foldl (fun s g => finishFlight s g st r a) s).clusters = s.clusters := by rw [finishFlights_only]
@[simp] theorem finishFlights_thermal (s : State) (l : List Flight) (st : Status) (r a : Nat) : (l.foldl (fun s g => finishFlight s g st r a) s).thermal = s.thermal := by rw [finishFlights_only]
@[simp] theorem finishFlights_cal (s : State) (l : List Flight) (st : Status) (r a : Nat) : (l.foldl (fun s g => finishFlight s g st r a) s).cal = s.cal := by rw [finishFlights_only]
@[simp] theorem finishFlights_time (s : State) (l : List Flight) (st : Status) (r a : Nat) : (l.foldl (fun s g => finishFlight s g st r a) s).time = s.time := by rw [finishFlights_only]
@[simp] theorem finishFlights_flights (s : State) (l : List Flight) (st : Status) (r a : Nat) : (l.foldl (fun s g => finishFlight s g st r a) s).flights = s.flights := by rw [finishFlights_only]
@[simp] theorem finishFlights_domains (s : State) (l : List Flight) (st : Status) (r a : Nat) : (l.foldl (fun s g => finishFlight s g st r a) s).domains = s.domains := by rw [finishFlights_only]
@[simp] theorem finishFlights_slices (s : State) (l : List Flight) (st : Status) (r a : Nat) : (l.foldl (fun s g => finishFlight s g st r a) s).slices = s.slices := by rw [finishFlights_only]
@[simp] theorem finishFlights_marginRec (s : State) (l : List Flight) (st : Status) (r a : Nat) : (l.foldl (fun s g => finishFlight s g st r a) s).marginRec = s.marginRec := by rw [finishFlights_only]
@[simp] theorem finishFlights_marginShadow (s : State) (l : List Flight) (st : Status) (r a : Nat) : (l.foldl (fun s g => finishFlight s g st r a) s).marginShadow = s.marginShadow := by rw [finishFlights_only]
@[simp] theorem finishFlights_margins (s : State) (l : List Flight) (st : Status) (r a : Nat) : (l.foldl (fun s g => finishFlight s g st r a) s).margins = s.margins := by rw [finishFlights_only]
@[simp] theorem finishFlights_counters (s : State) (l : List Flight) (st : Status) (r a : Nat) : (l.foldl (fun s g => finishFlight s g st r a) s).counters = s.counters := by rw [finishFlights_only]
@[simp] theorem finishFlights_chans (s : State) (l : List Flight) (st : Status) (r a : Nat) : (l.foldl (fun s g => finishFlight s g st r a) s).chans = s.chans := by rw [finishFlights_only]
@[simp] theorem finishFlights_rowOps (s : State) (l : List Flight) (st : Status) (r a : Nat) : (l.foldl (fun s g => finishFlight s g st r a) s).rowOps = s.rowOps := by rw [finishFlights_only]
@[simp] theorem finishFlights_rowOpNo (s : State) (l : List Flight) (st : Status) (r a : Nat) : (l.foldl (fun s g => finishFlight s g st r a) s).rowOpNo = s.rowOpNo := by rw [finishFlights_only]
@[simp] theorem finishFlights_bulk (s : State) (l : List Flight) (st : Status) (r a : Nat) : (l.foldl (fun s g => finishFlight s g st r a) s).bulk = s.bulk := by rw [finishFlights_only]
@[simp] theorem finishFlights_mem (s : State) (l : List Flight) (st : Status) (r a : Nat) : (l.foldl (fun s g => finishFlight s g st r a) s).mem = s.mem := by rw [finishFlights_only]
@[simp] theorem finishFlights_seqs (s : State) (l : List Flight) (st : Status) (r a : Nat) : (l.foldl (fun s g => finishFlight s g st r a) s).seqs = s.seqs := by rw [finishFlights_only]
@[simp] theorem finishFlights_seqGen (s : State) (l : List Flight) (st : Status) (r a : Nat) : (l.foldl (fun s g => finishFlight s g st r a) s).seqGen = s.seqGen := by rw [finishFlights_only]
@[simp] theorem finishFlights_models (s : State) (l : List Flight) (st : Status) (r a : Nat) : (l.foldl (fun s g => finishFlight s g st r a) s).models = s.models := by rw [finishFlights_only]
@[simp] theorem finishFlights_courses (s : State) (l : List Flight) (st : Status) (r a : Nat) : (l.foldl (fun s g => finishFlight s g st r a) s).courses = s.courses := by rw [finishFlights_only]
@[simp] theorem finishFlights_heats (s : State) (l : List Flight) (st : Status) (r a : Nat) : (l.foldl (fun s g => finishFlight s g st r a) s).heats = s.heats := by rw [finishFlights_only]
@[simp] theorem finishFlights_place (s : State) (l : List Flight) (st : Status) (r a : Nat) : (l.foldl (fun s g => finishFlight s g st r a) s).place = s.place := by rw [finishFlights_only]
@[simp] theorem finishFlights_dir (s : State) (l : List Flight) (st : Status) (r a : Nat) : (l.foldl (fun s g => finishFlight s g st r a) s).dir = s.dir := by rw [finishFlights_only]
@[simp] theorem finishFlights_sel (s : State) (l : List Flight) (st : Status) (r a : Nat) : (l.foldl (fun s g => finishFlight s g st r a) s).sel = s.sel := by rw [finishFlights_only]
@[simp] theorem finishFlights_scratch (s : State) (l : List Flight) (st : Status) (r a : Nat) : (l.foldl (fun s g => finishFlight s g st r a) s).scratch = s.scratch := by rw [finishFlights_only]
@[simp] theorem finishFlights_buffer (s : State) (l : List Flight) (st : Status) (r a : Nat) : (l.foldl (fun s g => finishFlight s g st r a) s).buffer = s.buffer := by rw [finishFlights_only]
@[simp] theorem finishFlights_acct (s : State) (l : List Flight) (st : Status) (r a : Nat) : (l.foldl (fun s g => finishFlight s g st r a) s).acct = s.acct := by rw [finishFlights_only]
@[simp] theorem finishFlights_closed (s : State) (l : List Flight) (st : Status) (r a : Nat) : (l.foldl (fun s g => finishFlight s g st r a) s).closed = s.closed := by rw [finishFlights_only]
@[simp] theorem finishFlights_nodeRecs (s : State) (l : List Flight) (st : Status) (r a : Nat) : (l.foldl (fun s g => finishFlight s g st r a) s).nodeRecs = s.nodeRecs := by rw [finishFlights_only]
@[simp] theorem finishFlights_heldNext (s : State) (l : List Flight) (st : Status) (r a : Nat) : (l.foldl (fun s g => finishFlight s g st r a) s).heldNext = s.heldNext := by rw [finishFlights_only]
@[simp] theorem finishFlights_shares (s : State) (l : List Flight) (st : Status) (r a : Nat) : (l.foldl (fun s g => finishFlight s g st r a) s).shares = s.shares := by rw [finishFlights_only]
@[simp] theorem finishFlights_shareShadow (s : State) (l : List Flight) (st : Status) (r a : Nat) : (l.foldl (fun s g => finishFlight s g st r a) s).shareShadow = s.shareShadow := by rw [finishFlights_only]
@[simp] theorem finishFlights_arb (s : State) (l : List Flight) (st : Status) (r a : Nat) : (l.foldl (fun s g => finishFlight s g st r a) s).arb = s.arb := by rw [finishFlights_only]
@[simp] theorem finishFlights_arbShadow (s : State) (l : List Flight) (st : Status) (r a : Nat) : (l.foldl (fun s g => finishFlight s g st r a) s).arbShadow = s.arbShadow := by rw [finishFlights_only]
@[simp] theorem finishFlights_deficits (s : State) (l : List Flight) (st : Status) (r a : Nat) : (l.foldl (fun s g => finishFlight s g st r a) s).deficits = s.deficits := by rw [finishFlights_only]
@[simp] theorem finishFlights_dma (s : State) (l : List Flight) (st : Status) (r a : Nat) : (l.foldl (fun s g => finishFlight s g st r a) s).dma = s.dma := by rw [finishFlights_only]
@[simp] theorem finishFlights_nodeNo (s : State) (l : List Flight) (st : Status) (r a : Nat) : (l.foldl (fun s g => finishFlight s g st r a) s).nodeNo = s.nodeNo := by rw [finishFlights_only]
@[simp] theorem finishFlights_partition (s : State) (l : List Flight) (st : Status) (r a : Nat) : (l.foldl (fun s g => finishFlight s g st r a) s).partition = s.partition := by rw [finishFlights_only]
@[simp] theorem finishFlights_fenced (s : State) (l : List Flight) (st : Status) (r a : Nat) : (l.foldl (fun s g => finishFlight s g st r a) s).fenced = s.fenced := by rw [finishFlights_only]

/-! ### charge -/

theorem charge_only (s : State) (d : Nat) (u : Use) (n : Nat) :
    charge s d u n = { s with acct := (charge s d u n).acct } := by
  rfl

@[simp] theorem charge_pending (s : State) (d : Nat) (u : Use) (n : Nat) : (charge s d u n).pending = s.pending := by rw [charge_only]
@[simp] theorem charge_out (s : State) (d : Nat) (u : Use) (n : Nat) : (charge s d u n).out = s.out := by rw [charge_only]
@[simp] theorem charge_free (s : State) (d : Nat) (u : Use) (n : Nat) : (charge s d u n).free = s.free := by rw [charge_only]
@[simp] theorem charge_boot (s : State) (d : Nat) (u : Use) (n : Nat) : (charge s d u n).boot = s.boot := by rw [charge_only]
@[simp] theorem charge_port0 (s : State) (d : Nat) (u : Use) (n : Nat) : (charge s d u n).port0 = s.port0 := by rw [charge_only]
@[simp] theorem charge_port1 (s : State) (d : Nat) (u : Use) (n : Nat) : (charge s d u n).port1 = s.port1 := by rw [charge_only]
@[simp] theorem charge_clusters (s : State) (d : Nat) (u : Use) (n : Nat) : (charge s d u n).clusters = s.clusters := by rw [charge_only]
@[simp] theorem charge_thermal (s : State) (d : Nat) (u : Use) (n : Nat) : (charge s d u n).thermal = s.thermal := by rw [charge_only]
@[simp] theorem charge_cal (s : State) (d : Nat) (u : Use) (n : Nat) : (charge s d u n).cal = s.cal := by rw [charge_only]
@[simp] theorem charge_time (s : State) (d : Nat) (u : Use) (n : Nat) : (charge s d u n).time = s.time := by rw [charge_only]
@[simp] theorem charge_funcs (s : State) (d : Nat) (u : Use) (n : Nat) : (charge s d u n).funcs = s.funcs := by rw [charge_only]
@[simp] theorem charge_flights (s : State) (d : Nat) (u : Use) (n : Nat) : (charge s d u n).flights = s.flights := by rw [charge_only]
@[simp] theorem charge_delayed (s : State) (d : Nat) (u : Use) (n : Nat) : (charge s d u n).delayed = s.delayed := by rw [charge_only]
@[simp] theorem charge_sec (s : State) (d : Nat) (u : Use) (n : Nat) : (charge s d u n).sec = s.sec := by rw [charge_only]
@[simp] theorem charge_domains (s : State) (d : Nat) (u : Use) (n : Nat) : (charge s d u n).domains = s.domains := by rw [charge_only]
@[simp] theorem charge_slices (s : State) (d : Nat) (u : Use) (n : Nat) : (charge s d u n).slices = s.slices := by rw [charge_only]
@[simp] theorem charge_marginRec (s : State) (d : Nat) (u : Use) (n : Nat) : (charge s d u n).marginRec = s.marginRec := by rw [charge_only]
@[simp] theorem charge_marginShadow (s : State) (d : Nat) (u : Use) (n : Nat) : (charge s d u n).marginShadow = s.marginShadow := by rw [charge_only]
@[simp] theorem charge_margins (s : State) (d : Nat) (u : Use) (n : Nat) : (charge s d u n).margins = s.margins := by rw [charge_only]
@[simp] theorem charge_counters (s : State) (d : Nat) (u : Use) (n : Nat) : (charge s d u n).counters = s.counters := by rw [charge_only]
@[simp] theorem charge_chans (s : State) (d : Nat) (u : Use) (n : Nat) : (charge s d u n).chans = s.chans := by rw [charge_only]
@[simp] theorem charge_rowOps (s : State) (d : Nat) (u : Use) (n : Nat) : (charge s d u n).rowOps = s.rowOps := by rw [charge_only]
@[simp] theorem charge_rowOpNo (s : State) (d : Nat) (u : Use) (n : Nat) : (charge s d u n).rowOpNo = s.rowOpNo := by rw [charge_only]
@[simp] theorem charge_bulk (s : State) (d : Nat) (u : Use) (n : Nat) : (charge s d u n).bulk = s.bulk := by rw [charge_only]
@[simp] theorem charge_mem (s : State) (d : Nat) (u : Use) (n : Nat) : (charge s d u n).mem = s.mem := by rw [charge_only]
@[simp] theorem charge_seqs (s : State) (d : Nat) (u : Use) (n : Nat) : (charge s d u n).seqs = s.seqs := by rw [charge_only]
@[simp] theorem charge_seqGen (s : State) (d : Nat) (u : Use) (n : Nat) : (charge s d u n).seqGen = s.seqGen := by rw [charge_only]
@[simp] theorem charge_models (s : State) (d : Nat) (u : Use) (n : Nat) : (charge s d u n).models = s.models := by rw [charge_only]
@[simp] theorem charge_courses (s : State) (d : Nat) (u : Use) (n : Nat) : (charge s d u n).courses = s.courses := by rw [charge_only]
@[simp] theorem charge_heats (s : State) (d : Nat) (u : Use) (n : Nat) : (charge s d u n).heats = s.heats := by rw [charge_only]
@[simp] theorem charge_place (s : State) (d : Nat) (u : Use) (n : Nat) : (charge s d u n).place = s.place := by rw [charge_only]
@[simp] theorem charge_net (s : State) (d : Nat) (u : Use) (n : Nat) : (charge s d u n).net = s.net := by rw [charge_only]
@[simp] theorem charge_dir (s : State) (d : Nat) (u : Use) (n : Nat) : (charge s d u n).dir = s.dir := by rw [charge_only]
@[simp] theorem charge_sel (s : State) (d : Nat) (u : Use) (n : Nat) : (charge s d u n).sel = s.sel := by rw [charge_only]
@[simp] theorem charge_scratch (s : State) (d : Nat) (u : Use) (n : Nat) : (charge s d u n).scratch = s.scratch := by rw [charge_only]
@[simp] theorem charge_buffer (s : State) (d : Nat) (u : Use) (n : Nat) : (charge s d u n).buffer = s.buffer := by rw [charge_only]
@[simp] theorem charge_closed (s : State) (d : Nat) (u : Use) (n : Nat) : (charge s d u n).closed = s.closed := by rw [charge_only]
@[simp] theorem charge_nodeRecs (s : State) (d : Nat) (u : Use) (n : Nat) : (charge s d u n).nodeRecs = s.nodeRecs := by rw [charge_only]
@[simp] theorem charge_heldNext (s : State) (d : Nat) (u : Use) (n : Nat) : (charge s d u n).heldNext = s.heldNext := by rw [charge_only]
@[simp] theorem charge_shares (s : State) (d : Nat) (u : Use) (n : Nat) : (charge s d u n).shares = s.shares := by rw [charge_only]
@[simp] theorem charge_shareShadow (s : State) (d : Nat) (u : Use) (n : Nat) : (charge s d u n).shareShadow = s.shareShadow := by rw [charge_only]
@[simp] theorem charge_arb (s : State) (d : Nat) (u : Use) (n : Nat) : (charge s d u n).arb = s.arb := by rw [charge_only]
@[simp] theorem charge_arbShadow (s : State) (d : Nat) (u : Use) (n : Nat) : (charge s d u n).arbShadow = s.arbShadow := by rw [charge_only]
@[simp] theorem charge_deficits (s : State) (d : Nat) (u : Use) (n : Nat) : (charge s d u n).deficits = s.deficits := by rw [charge_only]
@[simp] theorem charge_dma (s : State) (d : Nat) (u : Use) (n : Nat) : (charge s d u n).dma = s.dma := by rw [charge_only]
@[simp] theorem charge_nodeNo (s : State) (d : Nat) (u : Use) (n : Nat) : (charge s d u n).nodeNo = s.nodeNo := by rw [charge_only]
@[simp] theorem charge_partition (s : State) (d : Nat) (u : Use) (n : Nat) : (charge s d u n).partition = s.partition := by rw [charge_only]
@[simp] theorem charge_fenced (s : State) (d : Nat) (u : Use) (n : Nat) : (charge s d u n).fenced = s.fenced := by rw [charge_only]

/-! ### chargeEnergy -/

theorem chargeEnergy_only (s : State) (d c r n : Nat) :
    chargeEnergy s d c r n = { s with acct := (chargeEnergy s d c r n).acct } := by
  rfl

@[simp] theorem chargeEnergy_pending (s : State) (d c r n : Nat) : (chargeEnergy s d c r n).pending = s.pending := by rw [chargeEnergy_only]
@[simp] theorem chargeEnergy_out (s : State) (d c r n : Nat) : (chargeEnergy s d c r n).out = s.out := by rw [chargeEnergy_only]
@[simp] theorem chargeEnergy_free (s : State) (d c r n : Nat) : (chargeEnergy s d c r n).free = s.free := by rw [chargeEnergy_only]
@[simp] theorem chargeEnergy_boot (s : State) (d c r n : Nat) : (chargeEnergy s d c r n).boot = s.boot := by rw [chargeEnergy_only]
@[simp] theorem chargeEnergy_port0 (s : State) (d c r n : Nat) : (chargeEnergy s d c r n).port0 = s.port0 := by rw [chargeEnergy_only]
@[simp] theorem chargeEnergy_port1 (s : State) (d c r n : Nat) : (chargeEnergy s d c r n).port1 = s.port1 := by rw [chargeEnergy_only]
@[simp] theorem chargeEnergy_clusters (s : State) (d c r n : Nat) : (chargeEnergy s d c r n).clusters = s.clusters := by rw [chargeEnergy_only]
@[simp] theorem chargeEnergy_thermal (s : State) (d c r n : Nat) : (chargeEnergy s d c r n).thermal = s.thermal := by rw [chargeEnergy_only]
@[simp] theorem chargeEnergy_cal (s : State) (d c r n : Nat) : (chargeEnergy s d c r n).cal = s.cal := by rw [chargeEnergy_only]
@[simp] theorem chargeEnergy_time (s : State) (d c r n : Nat) : (chargeEnergy s d c r n).time = s.time := by rw [chargeEnergy_only]
@[simp] theorem chargeEnergy_funcs (s : State) (d c r n : Nat) : (chargeEnergy s d c r n).funcs = s.funcs := by rw [chargeEnergy_only]
@[simp] theorem chargeEnergy_flights (s : State) (d c r n : Nat) : (chargeEnergy s d c r n).flights = s.flights := by rw [chargeEnergy_only]
@[simp] theorem chargeEnergy_delayed (s : State) (d c r n : Nat) : (chargeEnergy s d c r n).delayed = s.delayed := by rw [chargeEnergy_only]
@[simp] theorem chargeEnergy_sec (s : State) (d c r n : Nat) : (chargeEnergy s d c r n).sec = s.sec := by rw [chargeEnergy_only]
@[simp] theorem chargeEnergy_domains (s : State) (d c r n : Nat) : (chargeEnergy s d c r n).domains = s.domains := by rw [chargeEnergy_only]
@[simp] theorem chargeEnergy_slices (s : State) (d c r n : Nat) : (chargeEnergy s d c r n).slices = s.slices := by rw [chargeEnergy_only]
@[simp] theorem chargeEnergy_marginRec (s : State) (d c r n : Nat) : (chargeEnergy s d c r n).marginRec = s.marginRec := by rw [chargeEnergy_only]
@[simp] theorem chargeEnergy_marginShadow (s : State) (d c r n : Nat) : (chargeEnergy s d c r n).marginShadow = s.marginShadow := by rw [chargeEnergy_only]
@[simp] theorem chargeEnergy_margins (s : State) (d c r n : Nat) : (chargeEnergy s d c r n).margins = s.margins := by rw [chargeEnergy_only]
@[simp] theorem chargeEnergy_counters (s : State) (d c r n : Nat) : (chargeEnergy s d c r n).counters = s.counters := by rw [chargeEnergy_only]
@[simp] theorem chargeEnergy_chans (s : State) (d c r n : Nat) : (chargeEnergy s d c r n).chans = s.chans := by rw [chargeEnergy_only]
@[simp] theorem chargeEnergy_rowOps (s : State) (d c r n : Nat) : (chargeEnergy s d c r n).rowOps = s.rowOps := by rw [chargeEnergy_only]
@[simp] theorem chargeEnergy_rowOpNo (s : State) (d c r n : Nat) : (chargeEnergy s d c r n).rowOpNo = s.rowOpNo := by rw [chargeEnergy_only]
@[simp] theorem chargeEnergy_bulk (s : State) (d c r n : Nat) : (chargeEnergy s d c r n).bulk = s.bulk := by rw [chargeEnergy_only]
@[simp] theorem chargeEnergy_mem (s : State) (d c r n : Nat) : (chargeEnergy s d c r n).mem = s.mem := by rw [chargeEnergy_only]
@[simp] theorem chargeEnergy_seqs (s : State) (d c r n : Nat) : (chargeEnergy s d c r n).seqs = s.seqs := by rw [chargeEnergy_only]
@[simp] theorem chargeEnergy_seqGen (s : State) (d c r n : Nat) : (chargeEnergy s d c r n).seqGen = s.seqGen := by rw [chargeEnergy_only]
@[simp] theorem chargeEnergy_models (s : State) (d c r n : Nat) : (chargeEnergy s d c r n).models = s.models := by rw [chargeEnergy_only]
@[simp] theorem chargeEnergy_courses (s : State) (d c r n : Nat) : (chargeEnergy s d c r n).courses = s.courses := by rw [chargeEnergy_only]
@[simp] theorem chargeEnergy_heats (s : State) (d c r n : Nat) : (chargeEnergy s d c r n).heats = s.heats := by rw [chargeEnergy_only]
@[simp] theorem chargeEnergy_place (s : State) (d c r n : Nat) : (chargeEnergy s d c r n).place = s.place := by rw [chargeEnergy_only]
@[simp] theorem chargeEnergy_net (s : State) (d c r n : Nat) : (chargeEnergy s d c r n).net = s.net := by rw [chargeEnergy_only]
@[simp] theorem chargeEnergy_dir (s : State) (d c r n : Nat) : (chargeEnergy s d c r n).dir = s.dir := by rw [chargeEnergy_only]
@[simp] theorem chargeEnergy_sel (s : State) (d c r n : Nat) : (chargeEnergy s d c r n).sel = s.sel := by rw [chargeEnergy_only]
@[simp] theorem chargeEnergy_scratch (s : State) (d c r n : Nat) : (chargeEnergy s d c r n).scratch = s.scratch := by rw [chargeEnergy_only]
@[simp] theorem chargeEnergy_buffer (s : State) (d c r n : Nat) : (chargeEnergy s d c r n).buffer = s.buffer := by rw [chargeEnergy_only]
@[simp] theorem chargeEnergy_closed (s : State) (d c r n : Nat) : (chargeEnergy s d c r n).closed = s.closed := by rw [chargeEnergy_only]
@[simp] theorem chargeEnergy_nodeRecs (s : State) (d c r n : Nat) : (chargeEnergy s d c r n).nodeRecs = s.nodeRecs := by rw [chargeEnergy_only]
@[simp] theorem chargeEnergy_heldNext (s : State) (d c r n : Nat) : (chargeEnergy s d c r n).heldNext = s.heldNext := by rw [chargeEnergy_only]
@[simp] theorem chargeEnergy_shares (s : State) (d c r n : Nat) : (chargeEnergy s d c r n).shares = s.shares := by rw [chargeEnergy_only]
@[simp] theorem chargeEnergy_shareShadow (s : State) (d c r n : Nat) : (chargeEnergy s d c r n).shareShadow = s.shareShadow := by rw [chargeEnergy_only]
@[simp] theorem chargeEnergy_arb (s : State) (d c r n : Nat) : (chargeEnergy s d c r n).arb = s.arb := by rw [chargeEnergy_only]
@[simp] theorem chargeEnergy_arbShadow (s : State) (d c r n : Nat) : (chargeEnergy s d c r n).arbShadow = s.arbShadow := by rw [chargeEnergy_only]
@[simp] theorem chargeEnergy_deficits (s : State) (d c r n : Nat) : (chargeEnergy s d c r n).deficits = s.deficits := by rw [chargeEnergy_only]
@[simp] theorem chargeEnergy_dma (s : State) (d c r n : Nat) : (chargeEnergy s d c r n).dma = s.dma := by rw [chargeEnergy_only]
@[simp] theorem chargeEnergy_nodeNo (s : State) (d c r n : Nat) : (chargeEnergy s d c r n).nodeNo = s.nodeNo := by rw [chargeEnergy_only]
@[simp] theorem chargeEnergy_partition (s : State) (d c r n : Nat) : (chargeEnergy s d c r n).partition = s.partition := by rw [chargeEnergy_only]
@[simp] theorem chargeEnergy_fenced (s : State) (d c r n : Nat) : (chargeEnergy s d c r n).fenced = s.fenced := by rw [chargeEnergy_only]

/-! ### chargeDram -/

theorem chargeDram_only (s : State) (d : Nat) (w : Bool) (n : Nat) :
    chargeDram s d w n = { s with acct := (chargeDram s d w n).acct } := by
  rfl

@[simp] theorem chargeDram_pending (s : State) (d : Nat) (w : Bool) (n : Nat) : (chargeDram s d w n).pending = s.pending := by rw [chargeDram_only]
@[simp] theorem chargeDram_out (s : State) (d : Nat) (w : Bool) (n : Nat) : (chargeDram s d w n).out = s.out := by rw [chargeDram_only]
@[simp] theorem chargeDram_free (s : State) (d : Nat) (w : Bool) (n : Nat) : (chargeDram s d w n).free = s.free := by rw [chargeDram_only]
@[simp] theorem chargeDram_boot (s : State) (d : Nat) (w : Bool) (n : Nat) : (chargeDram s d w n).boot = s.boot := by rw [chargeDram_only]
@[simp] theorem chargeDram_port0 (s : State) (d : Nat) (w : Bool) (n : Nat) : (chargeDram s d w n).port0 = s.port0 := by rw [chargeDram_only]
@[simp] theorem chargeDram_port1 (s : State) (d : Nat) (w : Bool) (n : Nat) : (chargeDram s d w n).port1 = s.port1 := by rw [chargeDram_only]
@[simp] theorem chargeDram_clusters (s : State) (d : Nat) (w : Bool) (n : Nat) : (chargeDram s d w n).clusters = s.clusters := by rw [chargeDram_only]
@[simp] theorem chargeDram_thermal (s : State) (d : Nat) (w : Bool) (n : Nat) : (chargeDram s d w n).thermal = s.thermal := by rw [chargeDram_only]
@[simp] theorem chargeDram_cal (s : State) (d : Nat) (w : Bool) (n : Nat) : (chargeDram s d w n).cal = s.cal := by rw [chargeDram_only]
@[simp] theorem chargeDram_time (s : State) (d : Nat) (w : Bool) (n : Nat) : (chargeDram s d w n).time = s.time := by rw [chargeDram_only]
@[simp] theorem chargeDram_funcs (s : State) (d : Nat) (w : Bool) (n : Nat) : (chargeDram s d w n).funcs = s.funcs := by rw [chargeDram_only]
@[simp] theorem chargeDram_flights (s : State) (d : Nat) (w : Bool) (n : Nat) : (chargeDram s d w n).flights = s.flights := by rw [chargeDram_only]
@[simp] theorem chargeDram_delayed (s : State) (d : Nat) (w : Bool) (n : Nat) : (chargeDram s d w n).delayed = s.delayed := by rw [chargeDram_only]
@[simp] theorem chargeDram_sec (s : State) (d : Nat) (w : Bool) (n : Nat) : (chargeDram s d w n).sec = s.sec := by rw [chargeDram_only]
@[simp] theorem chargeDram_domains (s : State) (d : Nat) (w : Bool) (n : Nat) : (chargeDram s d w n).domains = s.domains := by rw [chargeDram_only]
@[simp] theorem chargeDram_slices (s : State) (d : Nat) (w : Bool) (n : Nat) : (chargeDram s d w n).slices = s.slices := by rw [chargeDram_only]
@[simp] theorem chargeDram_marginRec (s : State) (d : Nat) (w : Bool) (n : Nat) : (chargeDram s d w n).marginRec = s.marginRec := by rw [chargeDram_only]
@[simp] theorem chargeDram_marginShadow (s : State) (d : Nat) (w : Bool) (n : Nat) : (chargeDram s d w n).marginShadow = s.marginShadow := by rw [chargeDram_only]
@[simp] theorem chargeDram_margins (s : State) (d : Nat) (w : Bool) (n : Nat) : (chargeDram s d w n).margins = s.margins := by rw [chargeDram_only]
@[simp] theorem chargeDram_counters (s : State) (d : Nat) (w : Bool) (n : Nat) : (chargeDram s d w n).counters = s.counters := by rw [chargeDram_only]
@[simp] theorem chargeDram_chans (s : State) (d : Nat) (w : Bool) (n : Nat) : (chargeDram s d w n).chans = s.chans := by rw [chargeDram_only]
@[simp] theorem chargeDram_rowOps (s : State) (d : Nat) (w : Bool) (n : Nat) : (chargeDram s d w n).rowOps = s.rowOps := by rw [chargeDram_only]
@[simp] theorem chargeDram_rowOpNo (s : State) (d : Nat) (w : Bool) (n : Nat) : (chargeDram s d w n).rowOpNo = s.rowOpNo := by rw [chargeDram_only]
@[simp] theorem chargeDram_bulk (s : State) (d : Nat) (w : Bool) (n : Nat) : (chargeDram s d w n).bulk = s.bulk := by rw [chargeDram_only]
@[simp] theorem chargeDram_mem (s : State) (d : Nat) (w : Bool) (n : Nat) : (chargeDram s d w n).mem = s.mem := by rw [chargeDram_only]
@[simp] theorem chargeDram_seqs (s : State) (d : Nat) (w : Bool) (n : Nat) : (chargeDram s d w n).seqs = s.seqs := by rw [chargeDram_only]
@[simp] theorem chargeDram_seqGen (s : State) (d : Nat) (w : Bool) (n : Nat) : (chargeDram s d w n).seqGen = s.seqGen := by rw [chargeDram_only]
@[simp] theorem chargeDram_models (s : State) (d : Nat) (w : Bool) (n : Nat) : (chargeDram s d w n).models = s.models := by rw [chargeDram_only]
@[simp] theorem chargeDram_courses (s : State) (d : Nat) (w : Bool) (n : Nat) : (chargeDram s d w n).courses = s.courses := by rw [chargeDram_only]
@[simp] theorem chargeDram_heats (s : State) (d : Nat) (w : Bool) (n : Nat) : (chargeDram s d w n).heats = s.heats := by rw [chargeDram_only]
@[simp] theorem chargeDram_place (s : State) (d : Nat) (w : Bool) (n : Nat) : (chargeDram s d w n).place = s.place := by rw [chargeDram_only]
@[simp] theorem chargeDram_net (s : State) (d : Nat) (w : Bool) (n : Nat) : (chargeDram s d w n).net = s.net := by rw [chargeDram_only]
@[simp] theorem chargeDram_dir (s : State) (d : Nat) (w : Bool) (n : Nat) : (chargeDram s d w n).dir = s.dir := by rw [chargeDram_only]
@[simp] theorem chargeDram_sel (s : State) (d : Nat) (w : Bool) (n : Nat) : (chargeDram s d w n).sel = s.sel := by rw [chargeDram_only]
@[simp] theorem chargeDram_scratch (s : State) (d : Nat) (w : Bool) (n : Nat) : (chargeDram s d w n).scratch = s.scratch := by rw [chargeDram_only]
@[simp] theorem chargeDram_buffer (s : State) (d : Nat) (w : Bool) (n : Nat) : (chargeDram s d w n).buffer = s.buffer := by rw [chargeDram_only]
@[simp] theorem chargeDram_closed (s : State) (d : Nat) (w : Bool) (n : Nat) : (chargeDram s d w n).closed = s.closed := by rw [chargeDram_only]
@[simp] theorem chargeDram_nodeRecs (s : State) (d : Nat) (w : Bool) (n : Nat) : (chargeDram s d w n).nodeRecs = s.nodeRecs := by rw [chargeDram_only]
@[simp] theorem chargeDram_heldNext (s : State) (d : Nat) (w : Bool) (n : Nat) : (chargeDram s d w n).heldNext = s.heldNext := by rw [chargeDram_only]
@[simp] theorem chargeDram_shares (s : State) (d : Nat) (w : Bool) (n : Nat) : (chargeDram s d w n).shares = s.shares := by rw [chargeDram_only]
@[simp] theorem chargeDram_shareShadow (s : State) (d : Nat) (w : Bool) (n : Nat) : (chargeDram s d w n).shareShadow = s.shareShadow := by rw [chargeDram_only]
@[simp] theorem chargeDram_arb (s : State) (d : Nat) (w : Bool) (n : Nat) : (chargeDram s d w n).arb = s.arb := by rw [chargeDram_only]
@[simp] theorem chargeDram_arbShadow (s : State) (d : Nat) (w : Bool) (n : Nat) : (chargeDram s d w n).arbShadow = s.arbShadow := by rw [chargeDram_only]
@[simp] theorem chargeDram_deficits (s : State) (d : Nat) (w : Bool) (n : Nat) : (chargeDram s d w n).deficits = s.deficits := by rw [chargeDram_only]
@[simp] theorem chargeDram_dma (s : State) (d : Nat) (w : Bool) (n : Nat) : (chargeDram s d w n).dma = s.dma := by rw [chargeDram_only]
@[simp] theorem chargeDram_nodeNo (s : State) (d : Nat) (w : Bool) (n : Nat) : (chargeDram s d w n).nodeNo = s.nodeNo := by rw [chargeDram_only]
@[simp] theorem chargeDram_partition (s : State) (d : Nat) (w : Bool) (n : Nat) : (chargeDram s d w n).partition = s.partition := by rw [chargeDram_only]
@[simp] theorem chargeDram_fenced (s : State) (d : Nat) (w : Bool) (n : Nat) : (chargeDram s d w n).fenced = s.fenced := by rw [chargeDram_only]

/-! ### chargePcie -/

theorem chargePcie_only (s : State) (d : Nat) (w : Bool) (n : Nat) :
    chargePcie s d w n = { s with acct := (chargePcie s d w n).acct } := by
  rfl

@[simp] theorem chargePcie_pending (s : State) (d : Nat) (w : Bool) (n : Nat) : (chargePcie s d w n).pending = s.pending := by rw [chargePcie_only]
@[simp] theorem chargePcie_out (s : State) (d : Nat) (w : Bool) (n : Nat) : (chargePcie s d w n).out = s.out := by rw [chargePcie_only]
@[simp] theorem chargePcie_free (s : State) (d : Nat) (w : Bool) (n : Nat) : (chargePcie s d w n).free = s.free := by rw [chargePcie_only]
@[simp] theorem chargePcie_boot (s : State) (d : Nat) (w : Bool) (n : Nat) : (chargePcie s d w n).boot = s.boot := by rw [chargePcie_only]
@[simp] theorem chargePcie_port0 (s : State) (d : Nat) (w : Bool) (n : Nat) : (chargePcie s d w n).port0 = s.port0 := by rw [chargePcie_only]
@[simp] theorem chargePcie_port1 (s : State) (d : Nat) (w : Bool) (n : Nat) : (chargePcie s d w n).port1 = s.port1 := by rw [chargePcie_only]
@[simp] theorem chargePcie_clusters (s : State) (d : Nat) (w : Bool) (n : Nat) : (chargePcie s d w n).clusters = s.clusters := by rw [chargePcie_only]
@[simp] theorem chargePcie_thermal (s : State) (d : Nat) (w : Bool) (n : Nat) : (chargePcie s d w n).thermal = s.thermal := by rw [chargePcie_only]
@[simp] theorem chargePcie_cal (s : State) (d : Nat) (w : Bool) (n : Nat) : (chargePcie s d w n).cal = s.cal := by rw [chargePcie_only]
@[simp] theorem chargePcie_time (s : State) (d : Nat) (w : Bool) (n : Nat) : (chargePcie s d w n).time = s.time := by rw [chargePcie_only]
@[simp] theorem chargePcie_funcs (s : State) (d : Nat) (w : Bool) (n : Nat) : (chargePcie s d w n).funcs = s.funcs := by rw [chargePcie_only]
@[simp] theorem chargePcie_flights (s : State) (d : Nat) (w : Bool) (n : Nat) : (chargePcie s d w n).flights = s.flights := by rw [chargePcie_only]
@[simp] theorem chargePcie_delayed (s : State) (d : Nat) (w : Bool) (n : Nat) : (chargePcie s d w n).delayed = s.delayed := by rw [chargePcie_only]
@[simp] theorem chargePcie_sec (s : State) (d : Nat) (w : Bool) (n : Nat) : (chargePcie s d w n).sec = s.sec := by rw [chargePcie_only]
@[simp] theorem chargePcie_domains (s : State) (d : Nat) (w : Bool) (n : Nat) : (chargePcie s d w n).domains = s.domains := by rw [chargePcie_only]
@[simp] theorem chargePcie_slices (s : State) (d : Nat) (w : Bool) (n : Nat) : (chargePcie s d w n).slices = s.slices := by rw [chargePcie_only]
@[simp] theorem chargePcie_marginRec (s : State) (d : Nat) (w : Bool) (n : Nat) : (chargePcie s d w n).marginRec = s.marginRec := by rw [chargePcie_only]
@[simp] theorem chargePcie_marginShadow (s : State) (d : Nat) (w : Bool) (n : Nat) : (chargePcie s d w n).marginShadow = s.marginShadow := by rw [chargePcie_only]
@[simp] theorem chargePcie_margins (s : State) (d : Nat) (w : Bool) (n : Nat) : (chargePcie s d w n).margins = s.margins := by rw [chargePcie_only]
@[simp] theorem chargePcie_counters (s : State) (d : Nat) (w : Bool) (n : Nat) : (chargePcie s d w n).counters = s.counters := by rw [chargePcie_only]
@[simp] theorem chargePcie_chans (s : State) (d : Nat) (w : Bool) (n : Nat) : (chargePcie s d w n).chans = s.chans := by rw [chargePcie_only]
@[simp] theorem chargePcie_rowOps (s : State) (d : Nat) (w : Bool) (n : Nat) : (chargePcie s d w n).rowOps = s.rowOps := by rw [chargePcie_only]
@[simp] theorem chargePcie_rowOpNo (s : State) (d : Nat) (w : Bool) (n : Nat) : (chargePcie s d w n).rowOpNo = s.rowOpNo := by rw [chargePcie_only]
@[simp] theorem chargePcie_bulk (s : State) (d : Nat) (w : Bool) (n : Nat) : (chargePcie s d w n).bulk = s.bulk := by rw [chargePcie_only]
@[simp] theorem chargePcie_mem (s : State) (d : Nat) (w : Bool) (n : Nat) : (chargePcie s d w n).mem = s.mem := by rw [chargePcie_only]
@[simp] theorem chargePcie_seqs (s : State) (d : Nat) (w : Bool) (n : Nat) : (chargePcie s d w n).seqs = s.seqs := by rw [chargePcie_only]
@[simp] theorem chargePcie_seqGen (s : State) (d : Nat) (w : Bool) (n : Nat) : (chargePcie s d w n).seqGen = s.seqGen := by rw [chargePcie_only]
@[simp] theorem chargePcie_models (s : State) (d : Nat) (w : Bool) (n : Nat) : (chargePcie s d w n).models = s.models := by rw [chargePcie_only]
@[simp] theorem chargePcie_courses (s : State) (d : Nat) (w : Bool) (n : Nat) : (chargePcie s d w n).courses = s.courses := by rw [chargePcie_only]
@[simp] theorem chargePcie_heats (s : State) (d : Nat) (w : Bool) (n : Nat) : (chargePcie s d w n).heats = s.heats := by rw [chargePcie_only]
@[simp] theorem chargePcie_place (s : State) (d : Nat) (w : Bool) (n : Nat) : (chargePcie s d w n).place = s.place := by rw [chargePcie_only]
@[simp] theorem chargePcie_net (s : State) (d : Nat) (w : Bool) (n : Nat) : (chargePcie s d w n).net = s.net := by rw [chargePcie_only]
@[simp] theorem chargePcie_dir (s : State) (d : Nat) (w : Bool) (n : Nat) : (chargePcie s d w n).dir = s.dir := by rw [chargePcie_only]
@[simp] theorem chargePcie_sel (s : State) (d : Nat) (w : Bool) (n : Nat) : (chargePcie s d w n).sel = s.sel := by rw [chargePcie_only]
@[simp] theorem chargePcie_scratch (s : State) (d : Nat) (w : Bool) (n : Nat) : (chargePcie s d w n).scratch = s.scratch := by rw [chargePcie_only]
@[simp] theorem chargePcie_buffer (s : State) (d : Nat) (w : Bool) (n : Nat) : (chargePcie s d w n).buffer = s.buffer := by rw [chargePcie_only]
@[simp] theorem chargePcie_closed (s : State) (d : Nat) (w : Bool) (n : Nat) : (chargePcie s d w n).closed = s.closed := by rw [chargePcie_only]
@[simp] theorem chargePcie_nodeRecs (s : State) (d : Nat) (w : Bool) (n : Nat) : (chargePcie s d w n).nodeRecs = s.nodeRecs := by rw [chargePcie_only]
@[simp] theorem chargePcie_heldNext (s : State) (d : Nat) (w : Bool) (n : Nat) : (chargePcie s d w n).heldNext = s.heldNext := by rw [chargePcie_only]
@[simp] theorem chargePcie_shares (s : State) (d : Nat) (w : Bool) (n : Nat) : (chargePcie s d w n).shares = s.shares := by rw [chargePcie_only]
@[simp] theorem chargePcie_shareShadow (s : State) (d : Nat) (w : Bool) (n : Nat) : (chargePcie s d w n).shareShadow = s.shareShadow := by rw [chargePcie_only]
@[simp] theorem chargePcie_arb (s : State) (d : Nat) (w : Bool) (n : Nat) : (chargePcie s d w n).arb = s.arb := by rw [chargePcie_only]
@[simp] theorem chargePcie_arbShadow (s : State) (d : Nat) (w : Bool) (n : Nat) : (chargePcie s d w n).arbShadow = s.arbShadow := by rw [chargePcie_only]
@[simp] theorem chargePcie_deficits (s : State) (d : Nat) (w : Bool) (n : Nat) : (chargePcie s d w n).deficits = s.deficits := by rw [chargePcie_only]
@[simp] theorem chargePcie_dma (s : State) (d : Nat) (w : Bool) (n : Nat) : (chargePcie s d w n).dma = s.dma := by rw [chargePcie_only]
@[simp] theorem chargePcie_nodeNo (s : State) (d : Nat) (w : Bool) (n : Nat) : (chargePcie s d w n).nodeNo = s.nodeNo := by rw [chargePcie_only]
@[simp] theorem chargePcie_partition (s : State) (d : Nat) (w : Bool) (n : Nat) : (chargePcie s d w n).partition = s.partition := by rw [chargePcie_only]
@[simp] theorem chargePcie_fenced (s : State) (d : Nat) (w : Bool) (n : Nat) : (chargePcie s d w n).fenced = s.fenced := by rw [chargePcie_only]

/-! ### chargeNet -/

theorem chargeNet_only (s : State) (d : Nat) (w : Bool) (n : Nat) :
    chargeNet s d w n = { s with acct := (chargeNet s d w n).acct } := by
  rfl

@[simp] theorem chargeNet_pending (s : State) (d : Nat) (w : Bool) (n : Nat) : (chargeNet s d w n).pending = s.pending := by rw [chargeNet_only]
@[simp] theorem chargeNet_out (s : State) (d : Nat) (w : Bool) (n : Nat) : (chargeNet s d w n).out = s.out := by rw [chargeNet_only]
@[simp] theorem chargeNet_free (s : State) (d : Nat) (w : Bool) (n : Nat) : (chargeNet s d w n).free = s.free := by rw [chargeNet_only]
@[simp] theorem chargeNet_boot (s : State) (d : Nat) (w : Bool) (n : Nat) : (chargeNet s d w n).boot = s.boot := by rw [chargeNet_only]
@[simp] theorem chargeNet_port0 (s : State) (d : Nat) (w : Bool) (n : Nat) : (chargeNet s d w n).port0 = s.port0 := by rw [chargeNet_only]
@[simp] theorem chargeNet_port1 (s : State) (d : Nat) (w : Bool) (n : Nat) : (chargeNet s d w n).port1 = s.port1 := by rw [chargeNet_only]
@[simp] theorem chargeNet_clusters (s : State) (d : Nat) (w : Bool) (n : Nat) : (chargeNet s d w n).clusters = s.clusters := by rw [chargeNet_only]
@[simp] theorem chargeNet_thermal (s : State) (d : Nat) (w : Bool) (n : Nat) : (chargeNet s d w n).thermal = s.thermal := by rw [chargeNet_only]
@[simp] theorem chargeNet_cal (s : State) (d : Nat) (w : Bool) (n : Nat) : (chargeNet s d w n).cal = s.cal := by rw [chargeNet_only]
@[simp] theorem chargeNet_time (s : State) (d : Nat) (w : Bool) (n : Nat) : (chargeNet s d w n).time = s.time := by rw [chargeNet_only]
@[simp] theorem chargeNet_funcs (s : State) (d : Nat) (w : Bool) (n : Nat) : (chargeNet s d w n).funcs = s.funcs := by rw [chargeNet_only]
@[simp] theorem chargeNet_flights (s : State) (d : Nat) (w : Bool) (n : Nat) : (chargeNet s d w n).flights = s.flights := by rw [chargeNet_only]
@[simp] theorem chargeNet_delayed (s : State) (d : Nat) (w : Bool) (n : Nat) : (chargeNet s d w n).delayed = s.delayed := by rw [chargeNet_only]
@[simp] theorem chargeNet_sec (s : State) (d : Nat) (w : Bool) (n : Nat) : (chargeNet s d w n).sec = s.sec := by rw [chargeNet_only]
@[simp] theorem chargeNet_domains (s : State) (d : Nat) (w : Bool) (n : Nat) : (chargeNet s d w n).domains = s.domains := by rw [chargeNet_only]
@[simp] theorem chargeNet_slices (s : State) (d : Nat) (w : Bool) (n : Nat) : (chargeNet s d w n).slices = s.slices := by rw [chargeNet_only]
@[simp] theorem chargeNet_marginRec (s : State) (d : Nat) (w : Bool) (n : Nat) : (chargeNet s d w n).marginRec = s.marginRec := by rw [chargeNet_only]
@[simp] theorem chargeNet_marginShadow (s : State) (d : Nat) (w : Bool) (n : Nat) : (chargeNet s d w n).marginShadow = s.marginShadow := by rw [chargeNet_only]
@[simp] theorem chargeNet_margins (s : State) (d : Nat) (w : Bool) (n : Nat) : (chargeNet s d w n).margins = s.margins := by rw [chargeNet_only]
@[simp] theorem chargeNet_counters (s : State) (d : Nat) (w : Bool) (n : Nat) : (chargeNet s d w n).counters = s.counters := by rw [chargeNet_only]
@[simp] theorem chargeNet_chans (s : State) (d : Nat) (w : Bool) (n : Nat) : (chargeNet s d w n).chans = s.chans := by rw [chargeNet_only]
@[simp] theorem chargeNet_rowOps (s : State) (d : Nat) (w : Bool) (n : Nat) : (chargeNet s d w n).rowOps = s.rowOps := by rw [chargeNet_only]
@[simp] theorem chargeNet_rowOpNo (s : State) (d : Nat) (w : Bool) (n : Nat) : (chargeNet s d w n).rowOpNo = s.rowOpNo := by rw [chargeNet_only]
@[simp] theorem chargeNet_bulk (s : State) (d : Nat) (w : Bool) (n : Nat) : (chargeNet s d w n).bulk = s.bulk := by rw [chargeNet_only]
@[simp] theorem chargeNet_mem (s : State) (d : Nat) (w : Bool) (n : Nat) : (chargeNet s d w n).mem = s.mem := by rw [chargeNet_only]
@[simp] theorem chargeNet_seqs (s : State) (d : Nat) (w : Bool) (n : Nat) : (chargeNet s d w n).seqs = s.seqs := by rw [chargeNet_only]
@[simp] theorem chargeNet_seqGen (s : State) (d : Nat) (w : Bool) (n : Nat) : (chargeNet s d w n).seqGen = s.seqGen := by rw [chargeNet_only]
@[simp] theorem chargeNet_models (s : State) (d : Nat) (w : Bool) (n : Nat) : (chargeNet s d w n).models = s.models := by rw [chargeNet_only]
@[simp] theorem chargeNet_courses (s : State) (d : Nat) (w : Bool) (n : Nat) : (chargeNet s d w n).courses = s.courses := by rw [chargeNet_only]
@[simp] theorem chargeNet_heats (s : State) (d : Nat) (w : Bool) (n : Nat) : (chargeNet s d w n).heats = s.heats := by rw [chargeNet_only]
@[simp] theorem chargeNet_place (s : State) (d : Nat) (w : Bool) (n : Nat) : (chargeNet s d w n).place = s.place := by rw [chargeNet_only]
@[simp] theorem chargeNet_net (s : State) (d : Nat) (w : Bool) (n : Nat) : (chargeNet s d w n).net = s.net := by rw [chargeNet_only]
@[simp] theorem chargeNet_dir (s : State) (d : Nat) (w : Bool) (n : Nat) : (chargeNet s d w n).dir = s.dir := by rw [chargeNet_only]
@[simp] theorem chargeNet_sel (s : State) (d : Nat) (w : Bool) (n : Nat) : (chargeNet s d w n).sel = s.sel := by rw [chargeNet_only]
@[simp] theorem chargeNet_scratch (s : State) (d : Nat) (w : Bool) (n : Nat) : (chargeNet s d w n).scratch = s.scratch := by rw [chargeNet_only]
@[simp] theorem chargeNet_buffer (s : State) (d : Nat) (w : Bool) (n : Nat) : (chargeNet s d w n).buffer = s.buffer := by rw [chargeNet_only]
@[simp] theorem chargeNet_closed (s : State) (d : Nat) (w : Bool) (n : Nat) : (chargeNet s d w n).closed = s.closed := by rw [chargeNet_only]
@[simp] theorem chargeNet_nodeRecs (s : State) (d : Nat) (w : Bool) (n : Nat) : (chargeNet s d w n).nodeRecs = s.nodeRecs := by rw [chargeNet_only]
@[simp] theorem chargeNet_heldNext (s : State) (d : Nat) (w : Bool) (n : Nat) : (chargeNet s d w n).heldNext = s.heldNext := by rw [chargeNet_only]
@[simp] theorem chargeNet_shares (s : State) (d : Nat) (w : Bool) (n : Nat) : (chargeNet s d w n).shares = s.shares := by rw [chargeNet_only]
@[simp] theorem chargeNet_shareShadow (s : State) (d : Nat) (w : Bool) (n : Nat) : (chargeNet s d w n).shareShadow = s.shareShadow := by rw [chargeNet_only]
@[simp] theorem chargeNet_arb (s : State) (d : Nat) (w : Bool) (n : Nat) : (chargeNet s d w n).arb = s.arb := by rw [chargeNet_only]
@[simp] theorem chargeNet_arbShadow (s : State) (d : Nat) (w : Bool) (n : Nat) : (chargeNet s d w n).arbShadow = s.arbShadow := by rw [chargeNet_only]
@[simp] theorem chargeNet_deficits (s : State) (d : Nat) (w : Bool) (n : Nat) : (chargeNet s d w n).deficits = s.deficits := by rw [chargeNet_only]
@[simp] theorem chargeNet_dma (s : State) (d : Nat) (w : Bool) (n : Nat) : (chargeNet s d w n).dma = s.dma := by rw [chargeNet_only]
@[simp] theorem chargeNet_nodeNo (s : State) (d : Nat) (w : Bool) (n : Nat) : (chargeNet s d w n).nodeNo = s.nodeNo := by rw [chargeNet_only]
@[simp] theorem chargeNet_partition (s : State) (d : Nat) (w : Bool) (n : Nat) : (chargeNet s d w n).partition = s.partition := by rw [chargeNet_only]
@[simp] theorem chargeNet_fenced (s : State) (d : Nat) (w : Bool) (n : Nat) : (chargeNet s d w n).fenced = s.fenced := by rw [chargeNet_only]

/-! ### zeroiseKeys -/

theorem zeroiseKeys_only (s : State) :
    zeroiseKeys s = { s with sec := (zeroiseKeys s).sec, domains := (zeroiseKeys s).domains, models := (zeroiseKeys s).models, net := (zeroiseKeys s).net } := by
  rfl

@[simp] theorem zeroiseKeys_pending (s : State) : (zeroiseKeys s).pending = s.pending := by rw [zeroiseKeys_only]
@[simp] theorem zeroiseKeys_out (s : State) : (zeroiseKeys s).out = s.out := by rw [zeroiseKeys_only]
@[simp] theorem zeroiseKeys_free (s : State) : (zeroiseKeys s).free = s.free := by rw [zeroiseKeys_only]
@[simp] theorem zeroiseKeys_boot (s : State) : (zeroiseKeys s).boot = s.boot := by rw [zeroiseKeys_only]
@[simp] theorem zeroiseKeys_port0 (s : State) : (zeroiseKeys s).port0 = s.port0 := by rw [zeroiseKeys_only]
@[simp] theorem zeroiseKeys_port1 (s : State) : (zeroiseKeys s).port1 = s.port1 := by rw [zeroiseKeys_only]
@[simp] theorem zeroiseKeys_clusters (s : State) : (zeroiseKeys s).clusters = s.clusters := by rw [zeroiseKeys_only]
@[simp] theorem zeroiseKeys_thermal (s : State) : (zeroiseKeys s).thermal = s.thermal := by rw [zeroiseKeys_only]
@[simp] theorem zeroiseKeys_cal (s : State) : (zeroiseKeys s).cal = s.cal := by rw [zeroiseKeys_only]
@[simp] theorem zeroiseKeys_time (s : State) : (zeroiseKeys s).time = s.time := by rw [zeroiseKeys_only]
@[simp] theorem zeroiseKeys_funcs (s : State) : (zeroiseKeys s).funcs = s.funcs := by rw [zeroiseKeys_only]
@[simp] theorem zeroiseKeys_flights (s : State) : (zeroiseKeys s).flights = s.flights := by rw [zeroiseKeys_only]
@[simp] theorem zeroiseKeys_delayed (s : State) : (zeroiseKeys s).delayed = s.delayed := by rw [zeroiseKeys_only]
@[simp] theorem zeroiseKeys_slices (s : State) : (zeroiseKeys s).slices = s.slices := by rw [zeroiseKeys_only]
@[simp] theorem zeroiseKeys_marginRec (s : State) : (zeroiseKeys s).marginRec = s.marginRec := by rw [zeroiseKeys_only]
@[simp] theorem zeroiseKeys_marginShadow (s : State) : (zeroiseKeys s).marginShadow = s.marginShadow := by rw [zeroiseKeys_only]
@[simp] theorem zeroiseKeys_margins (s : State) : (zeroiseKeys s).margins = s.margins := by rw [zeroiseKeys_only]
@[simp] theorem zeroiseKeys_counters (s : State) : (zeroiseKeys s).counters = s.counters := by rw [zeroiseKeys_only]
@[simp] theorem zeroiseKeys_chans (s : State) : (zeroiseKeys s).chans = s.chans := by rw [zeroiseKeys_only]
@[simp] theorem zeroiseKeys_rowOps (s : State) : (zeroiseKeys s).rowOps = s.rowOps := by rw [zeroiseKeys_only]
@[simp] theorem zeroiseKeys_rowOpNo (s : State) : (zeroiseKeys s).rowOpNo = s.rowOpNo := by rw [zeroiseKeys_only]
@[simp] theorem zeroiseKeys_bulk (s : State) : (zeroiseKeys s).bulk = s.bulk := by rw [zeroiseKeys_only]
@[simp] theorem zeroiseKeys_mem (s : State) : (zeroiseKeys s).mem = s.mem := by rw [zeroiseKeys_only]
@[simp] theorem zeroiseKeys_seqs (s : State) : (zeroiseKeys s).seqs = s.seqs := by rw [zeroiseKeys_only]
@[simp] theorem zeroiseKeys_seqGen (s : State) : (zeroiseKeys s).seqGen = s.seqGen := by rw [zeroiseKeys_only]
@[simp] theorem zeroiseKeys_courses (s : State) : (zeroiseKeys s).courses = s.courses := by rw [zeroiseKeys_only]
@[simp] theorem zeroiseKeys_heats (s : State) : (zeroiseKeys s).heats = s.heats := by rw [zeroiseKeys_only]
@[simp] theorem zeroiseKeys_place (s : State) : (zeroiseKeys s).place = s.place := by rw [zeroiseKeys_only]
@[simp] theorem zeroiseKeys_dir (s : State) : (zeroiseKeys s).dir = s.dir := by rw [zeroiseKeys_only]
@[simp] theorem zeroiseKeys_sel (s : State) : (zeroiseKeys s).sel = s.sel := by rw [zeroiseKeys_only]
@[simp] theorem zeroiseKeys_scratch (s : State) : (zeroiseKeys s).scratch = s.scratch := by rw [zeroiseKeys_only]
@[simp] theorem zeroiseKeys_buffer (s : State) : (zeroiseKeys s).buffer = s.buffer := by rw [zeroiseKeys_only]
@[simp] theorem zeroiseKeys_acct (s : State) : (zeroiseKeys s).acct = s.acct := by rw [zeroiseKeys_only]
@[simp] theorem zeroiseKeys_closed (s : State) : (zeroiseKeys s).closed = s.closed := by rw [zeroiseKeys_only]
@[simp] theorem zeroiseKeys_nodeRecs (s : State) : (zeroiseKeys s).nodeRecs = s.nodeRecs := by rw [zeroiseKeys_only]
@[simp] theorem zeroiseKeys_heldNext (s : State) : (zeroiseKeys s).heldNext = s.heldNext := by rw [zeroiseKeys_only]
@[simp] theorem zeroiseKeys_shares (s : State) : (zeroiseKeys s).shares = s.shares := by rw [zeroiseKeys_only]
@[simp] theorem zeroiseKeys_shareShadow (s : State) : (zeroiseKeys s).shareShadow = s.shareShadow := by rw [zeroiseKeys_only]
@[simp] theorem zeroiseKeys_arb (s : State) : (zeroiseKeys s).arb = s.arb := by rw [zeroiseKeys_only]
@[simp] theorem zeroiseKeys_arbShadow (s : State) : (zeroiseKeys s).arbShadow = s.arbShadow := by rw [zeroiseKeys_only]
@[simp] theorem zeroiseKeys_deficits (s : State) : (zeroiseKeys s).deficits = s.deficits := by rw [zeroiseKeys_only]
@[simp] theorem zeroiseKeys_dma (s : State) : (zeroiseKeys s).dma = s.dma := by rw [zeroiseKeys_only]
@[simp] theorem zeroiseKeys_nodeNo (s : State) : (zeroiseKeys s).nodeNo = s.nodeNo := by rw [zeroiseKeys_only]
@[simp] theorem zeroiseKeys_partition (s : State) : (zeroiseKeys s).partition = s.partition := by rw [zeroiseKeys_only]
@[simp] theorem zeroiseKeys_fenced (s : State) : (zeroiseKeys s).fenced = s.fenced := by rw [zeroiseKeys_only]

/-! ### stopAll -/

theorem stopAll_only (s : State) :
    stopAll s = { s with heats := (stopAll s).heats, clusters := (stopAll s).clusters, rowOps := (stopAll s).rowOps, net := (stopAll s).net, dma := (stopAll s).dma } := by
  rfl

@[simp] theorem stopAll_pending (s : State) : (stopAll s).pending = s.pending := by rw [stopAll_only]
@[simp] theorem stopAll_out (s : State) : (stopAll s).out = s.out := by rw [stopAll_only]
@[simp] theorem stopAll_free (s : State) : (stopAll s).free = s.free := by rw [stopAll_only]
@[simp] theorem stopAll_boot (s : State) : (stopAll s).boot = s.boot := by rw [stopAll_only]
@[simp] theorem stopAll_port0 (s : State) : (stopAll s).port0 = s.port0 := by rw [stopAll_only]
@[simp] theorem stopAll_port1 (s : State) : (stopAll s).port1 = s.port1 := by rw [stopAll_only]
@[simp] theorem stopAll_thermal (s : State) : (stopAll s).thermal = s.thermal := by rw [stopAll_only]
@[simp] theorem stopAll_cal (s : State) : (stopAll s).cal = s.cal := by rw [stopAll_only]
@[simp] theorem stopAll_time (s : State) : (stopAll s).time = s.time := by rw [stopAll_only]
@[simp] theorem stopAll_funcs (s : State) : (stopAll s).funcs = s.funcs := by rw [stopAll_only]
@[simp] theorem stopAll_flights (s : State) : (stopAll s).flights = s.flights := by rw [stopAll_only]
@[simp] theorem stopAll_delayed (s : State) : (stopAll s).delayed = s.delayed := by rw [stopAll_only]
@[simp] theorem stopAll_sec (s : State) : (stopAll s).sec = s.sec := by rw [stopAll_only]
@[simp] theorem stopAll_domains (s : State) : (stopAll s).domains = s.domains := by rw [stopAll_only]
@[simp] theorem stopAll_slices (s : State) : (stopAll s).slices = s.slices := by rw [stopAll_only]
@[simp] theorem stopAll_marginRec (s : State) : (stopAll s).marginRec = s.marginRec := by rw [stopAll_only]
@[simp] theorem stopAll_marginShadow (s : State) : (stopAll s).marginShadow = s.marginShadow := by rw [stopAll_only]
@[simp] theorem stopAll_margins (s : State) : (stopAll s).margins = s.margins := by rw [stopAll_only]
@[simp] theorem stopAll_counters (s : State) : (stopAll s).counters = s.counters := by rw [stopAll_only]
@[simp] theorem stopAll_chans (s : State) : (stopAll s).chans = s.chans := by rw [stopAll_only]
@[simp] theorem stopAll_rowOpNo (s : State) : (stopAll s).rowOpNo = s.rowOpNo := by rw [stopAll_only]
@[simp] theorem stopAll_bulk (s : State) : (stopAll s).bulk = s.bulk := by rw [stopAll_only]
@[simp] theorem stopAll_mem (s : State) : (stopAll s).mem = s.mem := by rw [stopAll_only]
@[simp] theorem stopAll_seqs (s : State) : (stopAll s).seqs = s.seqs := by rw [stopAll_only]
@[simp] theorem stopAll_seqGen (s : State) : (stopAll s).seqGen = s.seqGen := by rw [stopAll_only]
@[simp] theorem stopAll_models (s : State) : (stopAll s).models = s.models := by rw [stopAll_only]
@[simp] theorem stopAll_courses (s : State) : (stopAll s).courses = s.courses := by rw [stopAll_only]
@[simp] theorem stopAll_place (s : State) : (stopAll s).place = s.place := by rw [stopAll_only]
@[simp] theorem stopAll_dir (s : State) : (stopAll s).dir = s.dir := by rw [stopAll_only]
@[simp] theorem stopAll_sel (s : State) : (stopAll s).sel = s.sel := by rw [stopAll_only]
@[simp] theorem stopAll_scratch (s : State) : (stopAll s).scratch = s.scratch := by rw [stopAll_only]
@[simp] theorem stopAll_buffer (s : State) : (stopAll s).buffer = s.buffer := by rw [stopAll_only]
@[simp] theorem stopAll_acct (s : State) : (stopAll s).acct = s.acct := by rw [stopAll_only]
@[simp] theorem stopAll_closed (s : State) : (stopAll s).closed = s.closed := by rw [stopAll_only]
@[simp] theorem stopAll_nodeRecs (s : State) : (stopAll s).nodeRecs = s.nodeRecs := by rw [stopAll_only]
@[simp] theorem stopAll_heldNext (s : State) : (stopAll s).heldNext = s.heldNext := by rw [stopAll_only]
@[simp] theorem stopAll_shares (s : State) : (stopAll s).shares = s.shares := by rw [stopAll_only]
@[simp] theorem stopAll_shareShadow (s : State) : (stopAll s).shareShadow = s.shareShadow := by rw [stopAll_only]
@[simp] theorem stopAll_arb (s : State) : (stopAll s).arb = s.arb := by rw [stopAll_only]
@[simp] theorem stopAll_arbShadow (s : State) : (stopAll s).arbShadow = s.arbShadow := by rw [stopAll_only]
@[simp] theorem stopAll_deficits (s : State) : (stopAll s).deficits = s.deficits := by rw [stopAll_only]
@[simp] theorem stopAll_nodeNo (s : State) : (stopAll s).nodeNo = s.nodeNo := by rw [stopAll_only]
@[simp] theorem stopAll_partition (s : State) : (stopAll s).partition = s.partition := by rw [stopAll_only]
@[simp] theorem stopAll_fenced (s : State) : (stopAll s).fenced = s.fenced := by rw [stopAll_only]

/-! ### enterError -/

theorem enterError_only (s : State) (n : Nat) :
    enterError s n = { s with sec := (enterError s n).sec, domains := (enterError s n).domains, models := (enterError s n).models, net := (enterError s n).net, heats := (enterError s n).heats, clusters := (enterError s n).clusters, rowOps := (enterError s n).rowOps, dma := (enterError s n).dma, funcs := (enterError s n).funcs, out := (enterError s n).out, delayed := (enterError s n).delayed, flights := (enterError s n).flights } := by
  apply State.same <;> simp [enterError]

@[simp] theorem enterError_pending (s : State) (n : Nat) : (enterError s n).pending = s.pending := by rw [enterError_only]
@[simp] theorem enterError_free (s : State) (n : Nat) : (enterError s n).free = s.free := by rw [enterError_only]
@[simp] theorem enterError_boot (s : State) (n : Nat) : (enterError s n).boot = s.boot := by rw [enterError_only]
@[simp] theorem enterError_port0 (s : State) (n : Nat) : (enterError s n).port0 = s.port0 := by rw [enterError_only]
@[simp] theorem enterError_port1 (s : State) (n : Nat) : (enterError s n).port1 = s.port1 := by rw [enterError_only]
@[simp] theorem enterError_thermal (s : State) (n : Nat) : (enterError s n).thermal = s.thermal := by rw [enterError_only]
@[simp] theorem enterError_cal (s : State) (n : Nat) : (enterError s n).cal = s.cal := by rw [enterError_only]
@[simp] theorem enterError_time (s : State) (n : Nat) : (enterError s n).time = s.time := by rw [enterError_only]
@[simp] theorem enterError_slices (s : State) (n : Nat) : (enterError s n).slices = s.slices := by rw [enterError_only]
@[simp] theorem enterError_marginRec (s : State) (n : Nat) : (enterError s n).marginRec = s.marginRec := by rw [enterError_only]
@[simp] theorem enterError_marginShadow (s : State) (n : Nat) : (enterError s n).marginShadow = s.marginShadow := by rw [enterError_only]
@[simp] theorem enterError_margins (s : State) (n : Nat) : (enterError s n).margins = s.margins := by rw [enterError_only]
@[simp] theorem enterError_counters (s : State) (n : Nat) : (enterError s n).counters = s.counters := by rw [enterError_only]
@[simp] theorem enterError_chans (s : State) (n : Nat) : (enterError s n).chans = s.chans := by rw [enterError_only]
@[simp] theorem enterError_rowOpNo (s : State) (n : Nat) : (enterError s n).rowOpNo = s.rowOpNo := by rw [enterError_only]
@[simp] theorem enterError_bulk (s : State) (n : Nat) : (enterError s n).bulk = s.bulk := by rw [enterError_only]
@[simp] theorem enterError_mem (s : State) (n : Nat) : (enterError s n).mem = s.mem := by rw [enterError_only]
@[simp] theorem enterError_seqs (s : State) (n : Nat) : (enterError s n).seqs = s.seqs := by rw [enterError_only]
@[simp] theorem enterError_seqGen (s : State) (n : Nat) : (enterError s n).seqGen = s.seqGen := by rw [enterError_only]
@[simp] theorem enterError_courses (s : State) (n : Nat) : (enterError s n).courses = s.courses := by rw [enterError_only]
@[simp] theorem enterError_place (s : State) (n : Nat) : (enterError s n).place = s.place := by rw [enterError_only]
@[simp] theorem enterError_dir (s : State) (n : Nat) : (enterError s n).dir = s.dir := by rw [enterError_only]
@[simp] theorem enterError_sel (s : State) (n : Nat) : (enterError s n).sel = s.sel := by rw [enterError_only]
@[simp] theorem enterError_scratch (s : State) (n : Nat) : (enterError s n).scratch = s.scratch := by rw [enterError_only]
@[simp] theorem enterError_buffer (s : State) (n : Nat) : (enterError s n).buffer = s.buffer := by rw [enterError_only]
@[simp] theorem enterError_acct (s : State) (n : Nat) : (enterError s n).acct = s.acct := by rw [enterError_only]
@[simp] theorem enterError_closed (s : State) (n : Nat) : (enterError s n).closed = s.closed := by rw [enterError_only]
@[simp] theorem enterError_nodeRecs (s : State) (n : Nat) : (enterError s n).nodeRecs = s.nodeRecs := by rw [enterError_only]
@[simp] theorem enterError_heldNext (s : State) (n : Nat) : (enterError s n).heldNext = s.heldNext := by rw [enterError_only]
@[simp] theorem enterError_shares (s : State) (n : Nat) : (enterError s n).shares = s.shares := by rw [enterError_only]
@[simp] theorem enterError_shareShadow (s : State) (n : Nat) : (enterError s n).shareShadow = s.shareShadow := by rw [enterError_only]
@[simp] theorem enterError_arb (s : State) (n : Nat) : (enterError s n).arb = s.arb := by rw [enterError_only]
@[simp] theorem enterError_arbShadow (s : State) (n : Nat) : (enterError s n).arbShadow = s.arbShadow := by rw [enterError_only]
@[simp] theorem enterError_deficits (s : State) (n : Nat) : (enterError s n).deficits = s.deficits := by rw [enterError_only]
@[simp] theorem enterError_nodeNo (s : State) (n : Nat) : (enterError s n).nodeNo = s.nodeNo := by rw [enterError_only]
@[simp] theorem enterError_partition (s : State) (n : Nat) : (enterError s n).partition = s.partition := by rw [enterError_only]
@[simp] theorem enterError_fenced (s : State) (n : Nat) : (enterError s n).fenced = s.fenced := by rw [enterError_only]

/-! ### A node event writes no part of the boot record but the list of events that wait -/

theorem raiseNode_boot (s : State) (c r o d x : Nat) :
    (raiseNode s c r o d x).boot = { s.boot with deferred := (raiseNode s c r o d x).boot.deferred } := by
  unfold raiseNode
  dsimp only
  split
  · rfl
  · rw [deliverAll_boot]

/-! ### Ending commands writes no part of the security state but the sessions that wait for it -/

theorem serviceEnds_sec (s : State) (k : Option Nat) :
    (serviceEnds s k).sec = { s.sec with sessions := (serviceEnds s k).sec.sessions } := by
  unfold serviceEnds; split <;> (try split) <;> rfl

theorem finishFlight_sec (s : State) (g : Flight) (st : Status) (r a : Nat) :
    (finishFlight s g st r a).sec = { s.sec with sessions := (finishFlight s g st r a).sec.sessions } := by
  unfold finishFlight
  dsimp only
  split
  · rw [answerForward_sec]; exact serviceEnds_sec _ _
  · rw [respond_sec]; exact serviceEnds_sec _ _

theorem finishFlights_sec (l : List Flight) (s : State) (st : Status) (r a : Nat) :
    (l.foldl (fun s g => finishFlight s g st r a) s).sec
      = { s.sec with sessions := (l.foldl (fun s g => finishFlight s g st r a) s).sec.sessions } := by
  induction l generalizing s with
  | nil => rfl
  | cons g l ih =>
    exact (ih (finishFlight s g st r a)).trans 
      (congrArg (fun x : Security => { x with sessions := ((g :: l).foldl (fun s g => finishFlight s g st r a) s).sec.sessions })
        (finishFlight_sec s g st r a))

theorem finishWhere_sec (s : State) (q : Flight → Bool) (st : Status) (r a : Nat) :
    (finishWhere s q st r a).sec = { s.sec with sessions := (finishWhere s q st r a).sec.sessions } :=
  finishFlights_sec _ _ _ _ _

@[simp] theorem finishWhere_flights (s : State) (q : Flight → Bool) (st : Status) (r a : Nat) :
    (finishWhere s q st r a).flights = s.flights.filter fun g => !q g := by
  unfold finishWhere
  dsimp only
  rw [finishFlights_flights]

theorem serviceEnds_empty (s : State) (k : Option Nat) (h : s.sec.sessions = .empty) :
    (serviceEnds s k).sec.sessions = .empty := by
  unfold serviceEnds
  split
  · exact h
  · simp [h]

theorem finishFlights_empty (l : List Flight) (s : State) (st : Status) (r a : Nat) (h : s.sec.sessions = .empty) :
    (l.foldl (fun s g => finishFlight s g st r a) s).sec.sessions = .empty := by
  induction l generalizing s with
  | nil => exact h
  | cons g l ih =>
    refine ih _ ?_
    unfold finishFlight
    dsimp only
    split <;> simp [serviceEnds_empty s g.session h]

theorem finishWhere_empty (s : State) (q : Flight → Bool) (st : Status) (r a : Nat) (h : s.sec.sessions = .empty) :
    (finishWhere s q st r a).sec.sessions = .empty := finishFlights_empty _ _ _ _ _ h

end Sys2Proof.Machine
end

