-- ==== Sys2Proof/Laws/Scratch.lean ====
section
/-! SUPPORT. What writing a row into a core's scratch does, and what finding the lap of an operation says. -/

set_option Elab.async false

namespace Sys2Proof.Machine

variable {α : Type}

/-- Keys set one after another: a key of the list holds the value of the last index that names it, any other its old one. -/
theorem foldl_set_other (n : Nat) (f : Nat → Nat) (g : Nat → α) (m : Map α) (k : Nat) (h : ∀ j, j < n → k ≠ f j) :
    ((List.range n).foldl (fun m j => m.set (f j) (g j)) m).get? k = m.get? k := by
  induction n with
  | zero => rfl
  | succ n ih =>
    rw [List.range_succ, List.foldl_append, List.foldl_cons, List.foldl_nil, Map.get?_set_ne _ (h n (by omega))]
    exact ih fun j hj => h j (by omega)

theorem foldl_set_at (n : Nat) (f : Nat → Nat) (g : Nat → α) (m : Map α) (hf : ∀ i j, i < n → j < n → f i = f j → i = j)
    (j : Nat) (hj : j < n) : ((List.range n).foldl (fun m j => m.set (f j) (g j)) m).get? (f j) = some (g j) := by
  induction n with
  | zero => omega
  | succ n ih =>
    rw [List.range_succ, List.foldl_append, List.foldl_cons, List.foldl_nil]
    by_cases h : j = n
    · subst h; simp
    · have hn : f j ≠ f n := fun e => h (hf j n hj (by omega) e)
      rw [Map.get?_set_ne _ hn]
      exact ih (fun i k hi hk => hf i k (by omega) (by omega)) (by omega)

/-- Two units of a core's scratch less than its size apart are two places. -/
theorem unitKey_inj {c core a i j : Nat} (hi : i < 16384) (hj : j < 16384)
    (h : unitKey c core (a + i) = unitKey c core (a + j)) : i = j := by
  unfold unitKey at h; omega

theorem unitsAt_writeUnits (s : State) (u : Uop) (addr fmt n data : Nat) (own : Nat → Option Nat) :
    UnitsAt (writeUnits s u.cl.val u.core.val addr fmt n data own) u addr fmt n data := by
  intro hn j hj
  exact ⟨_, foldl_set_at n (fun j => unitKey u.cl.val u.core.val (addr + j)) _ _
    (fun i j hi hj h => unitKey_inj (by omega) (by omega) h) j hj, rfl, rfl⟩

theorem writesOnly_writeUnits (s : State) (u : Uop) (addr fmt n data : Nat) (own : Nat → Option Nat) :
    WritesOnly s (writeUnits s u.cl.val u.core.val addr fmt n data own) u addr n := by
  intro k h
  exact foldl_set_other n (fun j => unitKey u.cl.val u.core.val (addr + j)) _ _ k h

/-- The lap of an operation is the lap its heat runs in its cluster. -/
theorem getCl_of_runOf {s : State} {u : Uop} {r : Run} (h : runOf s u = some r) : getCl s u.heat u.cl.val = some r.v := by
  unfold runOf at h
  split at h
  · cases h
  rename_i h1 e1
  split at h
  · cases h
  rename_i l e2
  split at h
  · cases h
  rename_i v e3
  split at h
  · cases h
    simp [getCl, e1, e2, e3]
  · cases h

theorem getCl_setCl {s : State} {k c : Nat} {v w : LapCl} (h : getCl s k c = some w) : getCl (setCl s k c v) k c = some v := by
  unfold getCl at h
  cases e1 : getH s k with
  | none => simp [e1] at h
  | some x =>
    cases e2 : x.lap with
    | none => simp [e1, e2] at h
    | some l =>
      have e1' : s.heats.get? k = some x := e1
      simp [getCl, setCl, modH, getH, e1', e2]

end Sys2Proof.Machine
end

