-- ==== Sys2Proof/Tests/Slice0.lean ====
section
/-! SUPPORT. Tests of the model, the ill-formed terms that each check refuses, and, for every statement, states and operands
that meet its hypotheses. -/

set_option Elab.async false

namespace Sys2Proof.Tests
open Machine

/-! ## Small states and operands -/

/-- A node that has finished its boot: in its approved mode, its time running, its first ring open. -/
def up : State :=
  { State.reset with
    boot := { phase := .ready, porLow := false, crystal := true, sideband := true }, sec := { mod := .approved, metaKey := some 0, keys := 1 },
    time := { enabled := true }, funcs := Map.empty.set 0 { ringCtrl := 0x4441, cmdTail := 1 } }

/-- A descriptor of the first physical function, with its payload inline. -/
def cmd (body len : Nat) (domain : Nat := 0) : Desc :=
  { body := body, length := BitVec.ofNat 16 len, domain := BitVec.ofNat 8 domain }

/-- The same with its payload in a host buffer, and the rest of that buffer. -/
def cmdBuf (body len : Nat) (domain : Nat := 0) : Desc := { cmd body len domain with ptr := true }

/-- Bytes from the lowest on, as (number of bytes, value). -/
def bytes : List (Nat × Nat) → Nat
  | [] => 0
  | (n, v) :: l => v % 2 ^ (8 * n) + 2 ^ (8 * n) * bytes l

/-- Some descriptor reaches the own part of its row in a state in which its condition holds. -/
def Meets (r : HRow) (pre : Desc → State → Prop) : Prop := ∃ d s, reaches r d s = true ∧ pre d (atBody d s)

theorem meets {r : HRow} {pre : Desc → State → Prop} (d : Desc) (s : State) (h : reaches r d s = true ∧ pre d (atBody d s)) :
    Meets r pre := ⟨d, s, h⟩

/-- Some management message is delivered, keeps R348, and meets its condition. -/
def Arrives (len : Mgmt → Nat) (named : Mgmt → List (Nat × Nat)) (pre : Mgmt → State → Prop) : Prop :=
  ∃ m s, (trafficOff (clockTo s m.now) = false ∧ nodeReachable (clockTo s m.now) m.src = true)
    ∧ mgmtOk m (len m) (named m) = true ∧ pre m (clockTo s m.now)

theorem arrives {len : Mgmt → Nat} {named : Mgmt → List (Nat × Nat)} {pre : Mgmt → State → Prop} (m : Mgmt) (s : State)
    (h : (trafficOff (clockTo s m.now) = false ∧ nodeReachable (clockTo s m.now) m.src = true)
      ∧ mgmtOk m (len m) (named m) = true ∧ pre m (clockTo s m.now)) : Arrives len named pre := ⟨m, s, h⟩

/-- Some management message is delivered and breaks R348, and some does not reach the node. -/
def Breaks (len : Mgmt → Nat) (named : Mgmt → List (Nat × Nat)) : Prop :=
  ∃ m s, (trafficOff (clockTo s m.now) = false ∧ nodeReachable (clockTo s m.now) m.src = true) ∧ mgmtOk m (len m) (named m) = false

/-- A slice record: clusters, first work queue and first completion queue. -/
def sliceRec (clusters base : Nat) : Nat := pack [(23, 20, clusters), (75, 16, base), (91, 17, 64), (46, 14, base), (60, 15, 64)]

/-- The node at a point of its boot. -/
def boots (b : Boot) : State := { State.reset with boot := b }

/-- A node in service with tenant domain 1 on slice 0. -/
def tenant : State :=
  { up with
    domains := Map.empty.set 1 { state := .active, key := some 0 }
    slices := Map.empty.set 0 { record := BitVec.ofNat 128 (sliceRec 1 64), state := .enabled }
    port0 := { linkUp := true, vfEnabled := true } }

/-- The same with time running and this much of it gone. -/
def tenantAt (ns : Nat) : State := clockTo tenant ns

/-- A model of one layer and one group of one head of 64 elements, kept in FP8. -/
def smallModel : BitVec 512 :=
  BitVec.ofNat 512 (pack [(0, 16, 1), (16, 16, 64), (64, 10, 64), (288, 32, 0x3F800000), (336, 16, 64), (352, 8, 64), (364, 4, 4)])

/-- A calibration record that changes nothing, with its CRC. -/
def calRecord : Nat :=
  pack ([(0, 32, 0x4C414342), (32, 16, 1), (48, 16, 512), (160, 32, 0xb802c6b5), (864, 16, 1000), (880, 16, 1000)]
    ++ (List.range 6).map fun k => (768 + 16 * k, 16, 4096))

/-- A function of a number that is computed first. -/
def forced (n : Nat) (f : Nat → Nat) : Nat := match n with | 0 => f 0 | n + 1 => f (n + 1)

theorem forced_eq (n : Nat) (f : Nat → Nat) : forced n f = f n := by cases n <;> rfl

/-- The CRC of a list of bytes from a start value, each byte taken in before the next. -/
def crcGo : List Nat → Nat → Nat
  | [], c => c
  | b :: l, c => forced ((List.range 8).foldl (fun c _ => crcBit c) (c ^^^ b)) (crcGo l)

theorem crcGo_eq (l : List Nat) : ∀ c, crcGo l c = l.foldl (fun c b => (List.range 8).foldl (fun c _ => crcBit c) (c ^^^ b)) c := by
  induction l with
  | nil => exact fun c => rfl
  | cons b t ih => exact fun c => (forced_eq _ _).trans (ih _)

theorem crc32c_eq (l : List Nat) : crc32c l = crcGo l 0xFFFFFFFF ^^^ 0xFFFFFFFF := congrArg (· ^^^ 0xFFFFFFFF) (crcGo_eq l _).symm

/-- The Crypto Officer's command in an operational session, from a host buffer. -/
def officer (body len : Nat) (domain : Nat := 0) : Desc := { cmdBuf body len domain with secured := true, session := 1 }

/-- The node with an owner whose operational session is open. -/
def owned : State :=
  { tenant with sec := { tenant.sec with fuses := { owner0 := 7 }, sessions := Map.empty.set 1 { setup := false, requester := 7 } } }

/-- Domain 1 has registered the small model. -/
def modelled : State := { tenant with models := Map.empty.set (mkey 1 1) { record := smallModel } }

/-- A heat record: domain, model, course, slots less 1. -/
def heatRecord (domain model course slotsM1 : Nat) : BitVec 192 :=
  BitVec.ofNat 192 (pack [(99, 6, domain), (73, 16, model), (57, 16, course), (89, 10, slotsM1)])

/-- The small model in projection mode, with its weight key. -/
def projModel : ModelSt := { record := BitVec.ofNat 512 (smallModel.toNat + 2 ^ 171), key := some 1 }

def projecting : State :=
  { owned with models := Map.empty.set (mkey 1 1) projModel, mem := { record := BitVec.ofNat 64 (pack [(0, 1, 1), (9, 11, 4)]) } }

/-- The header of a weight package for it. -/
def weightHeader : Nat :=
  pack [(0, 32, 0x57544B50), (32, 16, 1), (48, 16, 1), (64, 16, 64), (98, 10, 64), (128, 64, 512)]

/-- Domain 1 with its model and page memory. -/
def paged : State := { modelled with mem := { record := BitVec.ofNat 64 (memRecReset.toNat + 1), fch := 20000 } }

/-- The same with placement on. -/
def placed : State := { paged with place := { record := BitVec.ofNat 64 (placeRecReset.toNat + 1) } }

/-- A sequence of 20 positions. -/
def seqA : SeqSt := { domain := 1, model := 1, length := 20, maxCtxM1 := 255, groupMask := 1, l1Span := 1 }

/-- The same with that sequence, under ID 65536. -/
def sequenced : State := { placed with seqs := Map.empty.set 65536 seqA }

/-- What the model reads of a course that fits the small model: one cluster, every clock, every grade. -/
def courseImage : Nat := pack [(96, 5, 1), (101, 3, 7), (104, 2, 3), (130, 10, 64), (160, 10, 3)]

/-- A running heat of domain 1 with four slots. -/
def heatA : HeatSt := { record := heatRecord 1 1 1 3, state := .running }

/-- Domain 1 with its model, the course, and that heat. -/
def heated : State :=
  { modelled with courses := Map.empty.set 1 { state := .loaded, domain := 1, image := courseImage }, heats := Map.empty.set 3 heatA }

/-- A work queue record of protection domain 5 on completion queue 70, paired with queue 9 of node 2. -/
def queueRec : Nat :=
  pack [(116, 12, 2), (100, 16, 9), (88, 12, 5), (74, 14, 70), (70, 4, 6), (66, 4, 6), (44, 2, 1), (40, 4, 3), (28, 8, 10)]

def queueA : QueueSt := { record := BitVec.ofNat 256 queueRec, domain := 1 }

/-- Domain 1 with a protection domain and a completion queue. -/
def networked : State :=
  { modelled with net := { pds := Map.empty.set 5 { domain := 1 }, cqs := Map.empty.set 70 { domain := 1 } } }

/-- A sequence whose only page stands in frame 5. -/
def seqP : SeqSt := { seqA with leaves := Map.empty.set (leafKey 0 0 0) { loc := 1, frame := 5 } }

/-- That page sealed. -/
def published : State :=
  { sequenced with seqs := Map.empty.set 65536 seqP, mem := { sequenced.mem with frames := Map.empty.set 5 { state := .sealed, refs := 1 } } }

/-- The small model with one bank of the directory, published by the node. -/
def dirModel : BitVec 512 := BitVec.ofNat 512 (smallModel.toNat + 2 ^ 384 * 17)

def dirRecord : RowRec := { hash := 9, model := 1, domain := 1, groupMask := 1, frames := [5] }
def dirEntry : DirEntry := { hash := 9, model := 1, domain := 1, record := 5 }

/-- A directory with one entry. -/
def directed : State :=
  { sequenced with
    models := Map.empty.set (mkey 1 1) { record := dirModel }
    dir := { banks := Map.empty.set 0 { entries := Map.empty.set 7 dirEntry }, records := Map.empty.set 5 dirRecord } }

/-- A collection query's records that have arrived from another node. -/
def mergeR : RecvMsg := { op := 11, complete := true, ext := pack [(88, 8, 4), (82, 6, 1)] }
def mergeQ : QueueSt := { queueA with recv := Map.empty.set 0 mergeR }
def merging : State :=
  { networked with net := { networked.net with queues := Map.empty.set 70 mergeQ }, sel := { merges := Map.empty.set (mergeKey 1 4 0) { need := 3 } } }

/-- A loaded course of one domain fits a model on dies of every grade. -/
theorem binds_of {s : State} {k dom sl n slots : Nat} {m : BitVec 512} (c : CourseSt)
    (hc : (s.courses.get? n).filter (fun c => c.state == .loaded && c.domain == dom) = some c) (hg : cGradeMask c.image = 3)
    (hf : (cClusters c.image == (sliceClusters s sl).length && shapeAgrees c.image m && decide (slots ≤ cHeatMaxM1 c.image + 1)
      && (cclkNeeded (sliceNext s sl)).all fun x => bit (cCclkMask c.image) x) = true)
    (hr : bindRoom s sl k c.image = true) : bindCheck s k dom sl n slots m = none := by
  have hb : bit 3 (b2n Config.grade48) = true := by cases Config.grade48 <;> rfl
  simp only [Bool.and_eq_true] at hf
  simp only [bindCheck, hc, hg, hb, hr, hf, Bool.and_self, Bool.not_true, Bool.false_eq_true, if_false]

/-- A value exists beside five facts. -/
theorem sized {α β : Type} {o : Option (α × β)} {A B C D E : Prop} (a : A) (b : B) (c : C) (d : D) (e : E) (h : o.isSome = true) :
    ∃ x y, A ∧ B ∧ C ∧ D ∧ E ∧ o = some (x, y) := by
  obtain ⟨p, hp⟩ := Option.isSome_iff_exists.mp h
  exact ⟨p.1, p.2, a, b, c, d, e, hp⟩

/-- Every region is taken. -/
def crowded : State := { networked with net := { networked.net with regions := ⟨(List.range 262144).map fun k => (k, {})⟩ } }

theorem no_room {d : Desc} {s : State} {n : Nat} (h : n ≤ s.net.regions.size) : chooseFree (atBody d s) (atBody d s).net.regions n = none := by
  have e : (atBody d s).net.regions = s.net.regions := by
    simp only [atBody, touchSession, fetchCmd, setF, clockTo]; split <;> split <;> rfl
  exact if_pos (e ▸ h)

/-- A course of one cluster whose timetable only ends, with its maxima and its digest. -/
def goodCourse : Nat :=
  pack [(0, 32, 0x43534E4F), (32, 16, 1), (64, 32, 328), (96, 5, 1), (101, 3, 1), (104, 2, 1), (130, 10, 64), (160, 10, 3),
    (256, 32, 128), (288, 32, 256), (320, 16, 3), (1024, 32, 192), (1620, 7, 0x7F), (1629, 3, 7), (2048, 16, 3), (2080, 32, 1),
    (2112, 16, 4), (2176, 16, 5),
    (2240, 384, 3774771570080915097957028434935019497724589985989058045316331235946238810155510252785705087909724740829405444646268)]

def courseOne : CourseSt := { state := .loaded, domain := 1, image := courseImage }


def seqR : SeqSt := { seqA with state := .running }

/-- A running sequence whose index is being built. -/
def indexing : State :=
  { sequenced with
    seqs := Map.empty.set 65536 seqR,
    sel := { indexes := Map.empty.set (idxKey 65536 0 0) { state := .building, entries := (List.range 16).map fun k => { page := k }, nBuild := 8 } } }

/-- A page of that sequence with its first 20 positions, in its frame, in a lap's list, and in the cluster's buffer. -/
def frameA : FrameSt := { state := .opened, domain := 1, version := 1, refs := 1, data := { hdr := { filled := 20 }, version := 1, key := some 0 } }
def pageA : LapPage := { frame := 20, stop := 64 }
def copyA : BufPage := { frame := 20, copy := frameA.data }

/-- The sequence in slot 0 of heat 3. -/
def seqL : SeqSt := { seqA with state := .running, heat := 3, leaves := Map.empty.set (leafKey 0 0 0) { loc := 1, frame := 20 } }

/-- A lap of heat 3, and what cluster 0 has of it. -/
def inCluster : LapCl := { phase := .running, work := { pages := Map.empty.set 0 [pageA] } }
def lapOf (v : LapCl) : LapSt := { cls := Map.empty.set 0 v }
def heatOf (l : LapSt) : HeatSt := { heatA with slots := Map.empty.set 0 { seq := some 65536, part := .appends, runs := true }, lap := some l }

/-- The node with that lap in cluster 0. -/
def lapping (v : LapCl := inCluster) (f : FrameSt := frameA) (b : BufPage := copyA) (image : Nat := courseImage) (m : BitVec 512 := smallModel)
    (l : LapSt := lapOf v) (q : SeqSt := seqL) : State :=
  { placed with
    models := Map.empty.set (mkey 1 1) { record := m }, seqs := Map.empty.set 65536 q,
    courses := Map.empty.set 1 { state := .loaded, domain := 1, image := image }, heats := Map.empty.set 3 (heatOf l),
    clusters := Map.empty.set 0 { holder := some 3 }, scratch := Map.empty.set 0 { fmt := 1, own := some 0 },
    buffer := Map.empty.set (bufKey 0 3 0) b, mem := { placed.mem with frames := Map.empty.set 20 f } }

def lapRun (v : LapCl := inCluster) (image : Nat := courseImage) (m : BitVec 512 := smallModel) (l : LapSt := lapOf v) : Run :=
  { h := heatOf l, l := l, v := v, image := image, m := m }

/-- The only heat of a state. -/
theorem only_heat {s : State} {h x : HeatSt} {j : Nat} (e : s.heats = Map.empty.set 3 h) (g : getH s j = some x) : j = 3 ∧ x = h := by
  simp only [getH, e] at g
  by_cases c : j = 3
  · subst c; rw [Map.get?_set] at g; exact ⟨rfl, (Option.some.inj g).symm⟩
  · rw [Map.get?_set_ne _ c] at g; cases g

/-- A heat with its step window at the lowest address of the physical function's. -/
def heatW : HeatSt := { heatA with stepBase := 0x20000000, bankBytes := 256 }
def windowed (h : HeatSt := heatW) : State := { heated with heats := Map.empty.set 3 h }

/-- The course with one hurdle. -/
def hurdleCourse : Nat := courseImage + 2 ^ 336

/-- A baton of node 2 that has arrived. -/
def batonQ : QueueSt := { queueA with recv := Map.empty.set 0 { op := 10, complete := true, ext := pack [(12, 12, 3)] } }
def relaying (l : LapSt := lapOf inCluster) : State :=
  { lapping (l := l) with
    seqs := Map.empty.set 65536 { seqL with stripes := [2] }, net := { networked.net with queues := Map.empty.set 70 batonQ } }

/-- The small model with output projection. -/
def projRecord : BitVec 512 := BitVec.ofNat 512 (smallModel.toNat + 2 ^ 236)

/-- The node with a bulk window of one row of each channel. -/
def bulked : State := { placed with mem := { placed.mem with bulkShare := 2048 } }

/-- The page memory with these frames. -/
def withFrames (l : List (Nat × FrameSt)) (pools : Map (List Nat) := .empty) : State :=
  { placed with mem := { placed.mem with frames := ⟨l⟩, pools := pools } }

/-- The frame of a page that is damaged here and held in another node. -/
def frameD : FrameSt := { state := .sealed, damaged := true, heldRemote := true, refs := 1, domain := 1 }

/-- A sequence that is being cut to five positions: its page is rewritten from frame 20 to frame 40. -/
def cutA : Truncate := { position := 5, dests := [40], pinned := [20] }
def cutting : State :=
  { withFrames [(20, frameA), (40, { state := .migrating, mig := some (.reopen 20 5 false) })] with
    seqs := Map.empty.set 65536 { seqA with trunc := some cutA } }

/-- The node in a mesh: node 2 can be reached and is its partner. -/
def meshed : State :=
  { sequenced with
    place := { record := BitVec.ofNat 64 (placeRecReset.toNat + 1 + 2 ^ 53) }, net := { networked.net with addrs := Map.empty.set 2 1 } }

/-- A message that has arrived whole on queue 70. -/
def msgR (op ext : Nat) : RecvMsg := { op := op, complete := true, ext := ext }
def msgQ (op ext : Nat) : QueueSt := { queueA with recv := Map.empty.set 0 (msgR op ext) }
def arriving (op ext : Nat) (l : List (Nat × FrameSt) := []) : State :=
  { meshed with net := { meshed.net with queues := Map.empty.set 70 (msgQ op ext) }, mem := { meshed.mem with frames := ⟨l⟩ } }

/-- A management message of node 2. -/
def note (len body : Nat) (corr : Nat := 0) : Mgmt := { src := 2, bodyLen := len, msgLen := len, body := body, corr := corr }

/-- A request that waits for its answer, sent at time 0. -/
def asking (a : Asked) : State := { meshed with place := { meshed.place with asked := Map.empty.set 0 { what := a } } }

/-- The replication queue to node 2, with a page on its way. -/
def replQ : QueueSt := { queueA with internal := some 2, sent := Map.empty.set 0 { purpose := .replica 65536 20 } }

/-- A heat of one slot that takes its steps from node 2. -/
def heatM : HeatSt := { heatA with master := some 2 }

/-- A sequence of one group here, whose other group node 2 holds. -/
def seqS : SeqSt := { seqA with stripes := [2], masks := Map.empty.set 2 2 }
def moving : State :=
  { meshed with
    seqs := Map.empty.set 65536 seqS, heats := Map.empty.set 3 heatA,
    courses := Map.empty.set 1 { state := .loaded, domain := 1, image := courseImage + 2 ^ 150 } }

/-- Node 2 has failed, and this node holds the descriptor of one of its sequences. -/
def bereaved : State :=
  { meshed with place := { meshed.place with failed := Map.empty.set 2 0, replicas := Map.empty.set (2 ^ 37 + 65536) seqA } }

/-- The sequence with this ownership record. -/
def seqO (o : OwnRec) : SeqSt := { seqA with own := o }
def owning (o : OwnRec) : State := { sequenced with seqs := Map.empty.set 65536 (seqO o) }

/-- A region of protection domain 5 in the bulk window, or of a host, that allows everything. -/
def regA (kind : Nat := 1) : RegionSt := { record := BitVec.ofNat 256 (pack [(144, 48, 64), (132, 12, 5), (130, 2, kind), (126, 4, 15)]), domain := 1 }
def receiving (r : RecvMsg) (q : QueueSt := queueA) (g : RegionSt := regA) : State :=
  { meshed with net := { meshed.net with
      queues := Map.empty.set 70 { q with recv := Map.empty.set 0 r }, regions := Map.empty.set 0 g } }

/-- An answer that has arrived for the request a queue keeps. -/
def answeredQ (r : RecvMsg) (m : SendMsg := {}) : QueueSt :=
  { queueA with recv := Map.empty.set (2 ^ 32) r, sent := Map.empty.set 0 m }
def answering (r : RecvMsg) (m : SendMsg := {}) : State :=
  { meshed with net := { meshed.net with queues := Map.empty.set 70 (answeredQ r m), regions := Map.empty.set 0 regA } }

/-- The node with its first Ethernet port up, node 2 in its table, and queue 70 paired with queue 9 of that node. -/
def wired (q : QueueSt := queueA) : State :=
  { networked with net := { networked.net with
      eth0 := { record := 1, link := 2 }, addrs := Map.empty.set 2 1, queues := Map.empty.set 70 q, regions := Map.empty.set 0 regA } }

/-- A packet of that queue that carries nothing. -/
def packet (op : Nat) : Packet := { srcNode := 2, ipSrc := 1, srcQueue := 9, dstQueue := 70, domain := 1, op := op }

/-- Queue 70 with one message on its way. -/
def sendQ (m : SendMsg) : QueueSt := { queueA with sent := Map.empty.set 0 m }

/-- Queue 70 with a SEND on its way that may be tried again. -/
def rnrQ : QueueSt := { sendQ { op := 4 } with record := BitVec.ofNat 256 (queueRec + 2 ^ 36) }

/-- Queue 70 with a work request that waits. -/
def postQ (w : WorkRequest) (q : QueueSt := queueA) : QueueSt := { q with sq := [w] }

/-- Operational, with its identity; port 0 has negotiated. -/
def secured (sessions : Map Session := .empty) (psks : Map Psk := .empty) : State :=
  { tenant with sec := { tenant.sec with
      fuses := { owner0 := 7, lcProv := 7, lcOper := 7 }, identity := true, conn0 := { negotiated := true, supplied := true },
      sessions := sessions, psks := psks } }

/-- Fuses whose vendor and owner keys are the 436 zero bytes. -/
def fuses (prov oper ret scrap : BitVec 3) (owner0 : BitVec 384 := 7) : Fuses :=
  { lcProv := prov, lcOper := oper, lcRet := ret, lcScrap := scrap, owner0 := owner0, serial := 0, vendorDigest := digestOf 0 436 }
def trusted (f : Fuses) : State :=
  { tenant with sec := { tenant.sec with nonce := some 0, fuses := f, sessions := Map.empty.set 1 { setup := false, requester := 7 } } }

/-- A vendor token, and an owner request, for serial number 0 and nonce 0. -/
def tokenOf (scope : Nat) : Nat := pack [(0, 32, 0x544B4E56), (32, 16, 1), (48, 16, scope)]
def requestOf (op : Nat) : Nat := pack [(0, 32, 0x52514E4F), (32, 16, 1), (48, 16, op)]
def withData (d : Desc) (x : Nat) : Desc := { d with env := { host := .data x } }
theorem holds_somewhere_ResetsClearTheNode :
    (∃ (n : Nat), 25 ≤ n)
    ∧ (∃ (v : Int) (us : Nat), (80 < v ∨ v < -80) ∧ 2 ≤ us)
    ∧ (∃ (v : Int) (s : State), 880 ≤ v ∧ s.boot.phase ≠ .held ∧ s.boot.phase ≠ .tripped)
    ∧ (∃ (s : State), s.boot.phase ≠ .held ∧ s.boot.phase ≠ .tripped)
    ∧ (∃ (n : Nat) (s : State), 25 ≤ n ∧ s.sec.mod = .error)
    ∧ (∃ (n : Nat) (s : State), 25 ≤ n ∧ s.sec.mod ≠ .error ∧ s.boot.phase = .ready) :=
  ⟨⟨25, by decide +kernel⟩,
   ⟨81, 2, by decide +kernel⟩,
   ⟨880, up, by decide +kernel⟩,
   ⟨up, by decide +kernel⟩,
   ⟨25, { up with sec := { mod := .error } }, by decide +kernel⟩,
   ⟨25, up, by decide +kernel⟩⟩

theorem holds_somewhere_BootAndSelfTests :
    (∃ (s : State), s.boot.porLow = true ∧ s.boot.railHold = false)
    ∧ (∃ (us : Nat) (s : State), s.boot.railHold = true ∧ 1000 ≤ us ∧ s.boot.porLow = false ∧ s.boot.testMode = false)
    ∧ (∃ (n : Nat) (s : State), s.boot.phase = .crystal ∧ 131072 ≤ n)
    ∧ (∃ (n : Nat) (v : Int) (s : State), clocksRun s = true ∧ 131072 ≤ n ∧ -1000 ≤ v ∧ v ≤ 1000)
    ∧ (∃ (p : Pll) (n : Nat) (s : State), clocksRun s = true ∧ hasReference s p = true ∧ 65536 ≤ n ∧ (getPll s (pllKey p)).failed = false)
    ∧ (∃ (p : Pll) (s : State), clocksRun s = true ∧ hasReference s p = true ∧ (getPll s (pllKey p)).locked = false ∧ (getPll s (pllKey p)).failed = false ∧ (getPll s (pllKey p)).attempts < 2)
    ∧ (∃ (us : Nat) (s : State), s.boot.phase = .window ∧ 300000 ≤ us)
    ∧ (∃ (s : State), s.boot.phase = .training)
    ∧ (∃ (s : State), s.boot.phase = .selfTest)
    ∧ (∃ (k : Fin 8) (s : State), k ≠ 0 ∧ s.boot.phase = .selfTest)
    ∧ (∃ (k : Fin 8) (s : State), k ≠ 0 ∧ s.boot.phase = .ready ∧ s.sec.testing = true) :=
  ⟨⟨.reset, by decide +kernel⟩,
   ⟨1000, boots { porLow := false, railHold := true }, by decide +kernel⟩,
   ⟨131072, boots { phase := .crystal }, by decide +kernel⟩,
   ⟨131072, 0, up, by decide +kernel⟩,
   ⟨.tpll, 65536, up, by decide +kernel⟩,
   ⟨.tpll, up, by decide +kernel⟩,
   ⟨300000, boots { phase := .window }, by decide +kernel⟩,
   ⟨boots { phase := .training }, by decide +kernel⟩,
   ⟨boots { phase := .selfTest }, by decide +kernel⟩,
   ⟨1, boots { phase := .selfTest }, by decide +kernel⟩,
   ⟨1, { up with sec := { up.sec with testing := true } }, by decide +kernel⟩⟩

theorem holds_somewhere_DeviceCommandsAnswer :
    (Meets rowDeviceQuery (fun _ _ => True))
    ∧ (Meets rowFuncAssign (fun d s => 0 < byt d.body 0 0 ∧ byt d.body 0 0 ≤ 63 ∧ 0 < byt d.body 1 1 ∧ byt d.body 1 1 ≤ 63 ∧ (getPort s d.port).vfEnabled = true ∧ (getF s d.port (vfOf (byt d.body 0 0))).assigned = none ∧ (getD s (byt d.body 1 1)).state = .active))
    ∧ (Meets rowFuncUnassign (fun d s => 0 < byt d.body 0 0 ∧ byt d.body 0 0 ≤ 63 ∧ (getF s d.port (vfOf (byt d.body 0 0))).assigned.isSome ∧ (getF s d.port (vfOf (byt d.body 0 0))).tdisp ≠ .configLocked ∧ (getF s d.port (vfOf (byt d.body 0 0))).tdisp ≠ .run))
    ∧ (Meets rowTimeConfig (fun d _ => d.length = 0))
    ∧ (Meets rowTimeConfig (fun d s => d.length = 16 ∧ timeBad (BitVec.ofNat 128 (byt d.body 0 15)) = false ∧ (s.time.enabled = false ∨ differ s.time.record (BitVec.ofNat 128 (byt d.body 0 15)) timeLocked = false)))
    ∧ (Meets rowPowerLimit (fun d _ => byt d.body 0 1 = 0 ∨ (100 ≤ byt d.body 0 1 ∧ byt d.body 0 1 ≤ 360)))
    ∧ (Meets rowCtrlTransfer (fun d s => byt d.body 0 0 = 0 ∧ d.domain ≠ 0 ∧ domPortOk d s d.domain.toNat = true ∧ objBusy s (.domain d.domain.toNat) = false))
    ∧ (Meets rowCtrlTake (fun d s => byt d.body 0 0 = 0 ∧ bit d.body 8 = false ∧ d.domain ≠ 0 ∧ (getD s d.domain.toNat).ctrlPort = otherPort d.port ∧ (getPort s (otherPort d.port)).linkUp = false ∧ (getPort s (otherPort d.port)).downSince + 1000000000 ≤ s.ns ∧ objBusy s (.domain d.domain.toNat) = false))
    ∧ (Meets rowAcctRead (fun d s => d.domain = 0 ∧ bit d.body 8 = true ∧ 0 < byt d.body 12 13 ∧ byt d.body 12 13 ≤ 1024 ∧ byt d.body 16 23 % 64 = 0 ∧ hostStatus d.env.host = none ∧ (readable s 0 (byt d.body 4 11) (byt d.body 12 13)).length = byt d.body 12 13))
    ∧ (Meets rowCounterRead (fun d _ => d.domain = 0 ∧ byt d.body 0 0 = 1 ∧ byt d.body 1 1 ≤ 63 ∧ byt d.body 8 15 % 64 = 0 ∧ hostStatus d.env.host = none ∧ bit d.body 16 = false))
    ∧ (Meets rowFuncAssign (fun d _ => byt d.body 0 0 = 0 ∨ 63 < byt d.body 0 0 ∨ byt d.body 1 1 = 0 ∨ 63 < byt d.body 1 1))
    ∧ (Meets rowFuncUnassign (fun d s => 0 < byt d.body 0 0 ∧ byt d.body 0 0 ≤ 63 ∧ (getF s d.port (vfOf (byt d.body 0 0))).assigned.isSome ∧ (getF s d.port (vfOf (byt d.body 0 0))).tdisp = .run))
    ∧ (Meets rowPowerLimit (fun d _ => byt d.body 0 1 ≠ 0 ∧ (byt d.body 0 1 < 100 ∨ 360 < byt d.body 0 1)))
    ∧ (Meets rowTimeConfig (fun d s => d.length = 16 ∧ timeBad (BitVec.ofNat 128 (byt d.body 0 15)) = false ∧ s.time.enabled = true ∧ differ s.time.record (BitVec.ofNat 128 (byt d.body 0 15)) timeLocked = true))
    ∧ (Meets rowCtrlTransfer (fun d s => byt d.body 0 0 = 0 ∧ d.domain ≠ 0 ∧ (getD s d.domain.toNat).ctrlPort ≠ d.port))
    ∧ (Meets rowCtrlTake (fun d s => byt d.body 0 0 = 0 ∧ d.domain ≠ 0 ∧ (getPort s (otherPort d.port)).linkUp = true))
    ∧ (Meets rowCounterRead (fun d _ => d.domain ≠ 0 ∧ byt d.body 0 0 ≠ 1)) :=
  ⟨meets (cmd 0 0) (up) (by decide +kernel),
   meets (cmd 0x101 2) (tenant) (by decide +kernel),
   meets (cmd 1 1) ({ tenant with funcs := tenant.funcs.set 1 { assigned := some 1 } }) (by decide +kernel),
   meets (cmd 0 0) (up) (by decide +kernel),
   meets (cmd timeRecReset.toNat 16) (up) (by decide +kernel),
   meets (cmd 0 2) (up) (by decide +kernel),
   meets (cmd 0 14 1) (tenant) (by decide +kernel),
   meets ({ cmd 0 14 1 with now := 2000000000 }) ({ tenant with domains := Map.empty.set 1 { state := .active, ctrlPort := 1 } }) (by decide +kernel),
   meets (cmd (bytes [(1, 0), (1, 1), (2, 0), (8, 5), (2, 1), (2, 0), (8, 0)]) 24) ({ up with nodeRecs := Map.empty.set 5 0 }) (by decide +kernel),
   meets (cmd 1 16) (up) (by decide +kernel),
   meets (cmd 0 2) (up) (by decide +kernel),
   meets (cmd 1 1) ({ tenant with funcs := tenant.funcs.set 1 { assigned := some 1, tdisp := .run } }) (by decide +kernel),
   meets (cmd 99 2) (up) (by decide +kernel),
   meets (cmd (timeRecReset.toNat - 2 ^ 24) 16) (up) (by decide +kernel),
   meets (cmd 0 14 1) ({ tenant with domains := Map.empty.set 1 { state := .active, ctrlPort := 1 } }) (by decide +kernel),
   meets (cmd 0 14 1) ({ tenant with port1 := { linkUp := true } }) (by decide +kernel),
   meets (cmd 0 16 1) (tenant) (by decide +kernel)⟩

theorem holds_somewhere_RingsAreFed :
    (∃ (p : Port) (f : Func) (v : Word) (s : State), mmioOk s p f = true ∧ ringsIdle (getF s p f) = true ∧ (s.boot.phase = .window → f = 0) ∧ 6 ≤ rf (ringSizes (getF s p f) v) 15 12 ∧ rf (ringSizes (getF s p f) v) 15 12 ≤ 12 ∧ 6 ≤ rf (ringSizes (getF s p f) v) 11 8 ∧ rf (ringSizes (getF s p f) v) 11 8 ≤ 12 ∧ 6 ≤ rf (ringSizes (getF s p f) v) 7 4 ∧ rf (ringSizes (getF s p f) v) 7 4 ≤ 12)
    ∧ (∃ (p : Port) (f : Func) (v : Word) (s : State), mmioOk s p f = true ∧ ringsOn (getF s p f) = false ∧ (s.boot.phase = .window → f = 0) ∧ log2Ok (rf (ringSizes (getF s p f) v) 15 12) = false)
    ∧ (∃ (p : Port) (f : Func) (s : State), mmioOk s p f = true ∧ ringsOn (getF s p f) = true)
    ∧ (∃ (p : Port) (f : Func) (v : BitVec 32) (s : State), mmioOk s p f = true ∧ ringsOn (getF s p f) = true ∧ between (BitVec.ofNat 16 (rf v 15 0)) (getF s p f).cmdHead ≤ 2 ^ cmdLog2 (getF s p f))
    ∧ (∃ (p : Port) (f : Func) (v : BitVec 32) (s : State), mmioOk s p f = true ∧ ringsOn (getF s p f) = true ∧ 2 ^ cmdLog2 (getF s p f) < between (BitVec.ofNat 16 (rf v 15 0)) (getF s p f).cmdHead)
    ∧ (∃ (p : Port) (f : Func) (n : Nat) (v : BitVec 32) (o : OddDesc) (s : State), mmioOk s p f = true ∧ ringsOn (getF s p f) = true ∧ between (BitVec.ofNat 16 (rf v 15 0)) (getF s p f).cmdHead ≤ 2 ^ cmdLog2 (getF s p f) ∧ s.boot.phase = .ready ∧ s.sec.mod ≠ .error ∧ o.desc.rsv = 0 ∧ (let u := setF (clockTo s n) p f { getF s p f with cmdTail := BitVec.ofNat 16 (rf v 15 0) }; fetchable u o.desc = true)) :=
  ⟨⟨0, 0, 0x6660, { tenant with funcs := Map.empty.set 0 {} }, by decide +kernel⟩,
   ⟨0, 0, 0, { tenant with funcs := Map.empty.set 0 {} }, by decide +kernel⟩,
   ⟨0, 0, tenant, by decide +kernel⟩,
   ⟨0, 0, 1, tenant, by decide +kernel⟩,
   ⟨0, 0, 999, tenant, by decide +kernel⟩,
   ⟨0, 0, 0, 1, { opcode := 0x7FFF, desc := cmd 0 0 }, tenant, by decide +kernel⟩⟩

theorem holds_somewhere_RegistersAndInterrupts :
    (∃ (p : Port) (f : Func) (s : State), mmioOk s p f = true ∧ ringsIdle (getF s p f) = true)
    ∧ (∃ (p : Port) (f : Func) (s : State), mmioOk s p f = true ∧ ringsIdle (getF s p f) = false)
    ∧ (∃ (p : Port) (f : Func) (s : State), mmioOk s p f = true)
    ∧ (∃ (p : Port) (f : Func) (s : State), mmioOk s p f = true)
    ∧ (∃ (p : Port) (f : Func) (v : Word) (s : State), mmioOk s p f = true ∧ rf v 26 16 < vectorsOf f ∧ rf v 10 0 < vectorsOf f)
    ∧ (∃ (p : Port) (f : Func) (v : Word) (s : State), mmioOk s p f = true ∧ (vectorsOf f ≤ rf v 26 16 ∨ vectorsOf f ≤ rf v 10 0))
    ∧ (∃ (p : Port) (f : Func) (n t : Nat) (s : State), (getF s p f).heldVecs.contains n = true ∧ (getF s p f).signalled.getD n 0 + holdoff (getF s p f) ≤ (clockTo s t).ns ∧ (getF s p f).maskAll = false ∧ (getF s p f).masked = [])
    ∧ (∃ (p : Port) (f : Func) (n : Nat) (s : State), mmioOk s p f = true ∧ n < vectorsOf f ∧ (getF s p f).maskAll = false ∧ (getF s p f).masked = [n] ∧ (getF s p f).msixPending = [n])
    ∧ (∃ (p : Port) (f : Func) (n : Nat) (s : State), (getF s p f).masked.contains n = true ∧ (getF s p f).msixPending = []) :=
  ⟨⟨0, 0, { tenant with funcs := Map.empty.set 0 {} }, by decide +kernel⟩,
   ⟨0, 0, tenant, by decide +kernel⟩,
   ⟨0, 0, tenant, by decide +kernel⟩,
   ⟨0, 0, tenant, by decide +kernel⟩,
   ⟨0, 0, 0, tenant, by decide +kernel⟩,
   ⟨0, 1, 64, tenant, by decide +kernel⟩,
   ⟨0, 0, 3, 0, { up with funcs := Map.empty.set 0 { heldVecs := [3] } }, by decide +kernel⟩,
   ⟨0, 0, 3, { tenant with funcs := Map.empty.set 0 { masked := [3], msixPending := [3] } }, by decide +kernel⟩,
   ⟨0, 0, 3, { tenant with funcs := Map.empty.set 0 { masked := [3] } }, by decide +kernel⟩⟩

theorem holds_somewhere_EpochsTurn :
    (∃ (n : Nat) (s : State), s.time.enabled = true ∧ s.time.epoch < epochOf (clockTo s n).ns) :=
  ⟨1000000, up, by decide +kernel⟩

theorem holds_somewhere_TimeFollowsItsMaster :
    (∃ (s : State), s.time.enabled = true)
    ∧ (∃ (s : State), s.time.enabled = true ∧ s.time.master0 = none ∧ s.time.master1 = none ∧ rf s.time.record 86 85 = 0)
    ∧ (∃ (p : Port) (x : Int) (s : State), s.time.enabled = true ∧ rf s.time.record 87 87 = p.val ∧ masterValid s p.val = true ∧ rf s.time.record 86 85 = 1 ∧ s.time.inLock = 15 ∧ x.natAbs ≤ rf s.time.record 47 38)
    ∧ (∃ (s : State), s.time.enabled = true ∧ rf s.time.record 86 85 = 2)
    ∧ (∃ (x : Nat) (s : State), s.time.enabled = true ∧ rf s.time.record 86 85 = 3 ∧ rf s.time.record 63 48 < x ∧ s.time.driftRaised = false)
    ∧ (∃ (s : State), s.time.enabled = true) :=
  ⟨⟨up, by decide +kernel⟩,
   ⟨up, by decide +kernel⟩,
   ⟨0, 0, { up with time := { up.time with record := rset up.time.record 86 85 1, master0 := some 1, inLock := 15 } }, by decide +kernel⟩,
   ⟨{ up with time := { up.time with record := rset up.time.record 86 85 2, master0 := some 1, inLock := 15 } }, by decide +kernel⟩,
   ⟨1001, { up with time := { up.time with record := rset up.time.record 86 85 3, master0 := some 1, inLock := 15 } }, by decide +kernel⟩,
   ⟨up, by decide +kernel⟩⟩

theorem holds_somewhere_DmaFaultsEndAndMarginsWarnOnce :
    (∃ (m : Fin 28) (s : State), rf (dmaRec s m.val) 1 0 = 1)
    ∧ (∃ (m : Fin 28) (s : State), rf (dmaRec s m.val) 1 0 = 1 ∧ rf (dmaRec s m.val) 31 24 = 7)
    ∧ (∃ (w : Nat) (s : State), 50000 ≤ w ∧ s.boot.phase = .ready ∧ s.dma = .empty)
    ∧ (∃ (s : State) (g : Flight) (r : BitVec 128), s.flights = [g] ∧ rf r 23 20 = 3 ∧ rf r 31 24 = 6 ∧ g.tag.toNat = rf r 127 96 ∧ g.domain = rf r 19 14 ∧ portMover g.port / 2 = rf r 13 9 / 2)
    ∧ (Meets rowMarginConfig (fun d _ => marginRecOk (byt d.body 0 7) = true))
    ∧ (Meets rowMarginConfig (fun d _ => marginRecOk (byt d.body 0 7) = false))
    ∧ (∃ (p : Port) (l : Fin 8) (v : Int) (s : State), s.boot.phase = .ready ∧ v < thPcieT s ∧ (s.margins.getD (p.val * 8 + l.val) {}).raised = true)
    ∧ (∃ (p : Port) (l : Fin 8) (v : Int) (s : State), s.boot.phase = .ready ∧ v < thPcieT s ∧ (s.margins.getD (p.val * 8 + l.val) {}).raised = false)
    ∧ (∃ (p : Port) (l : Fin 8) (v : Int) (s : State), s.boot.phase = .ready ∧ (thPcieT s : Int) ≤ v ∧ (s.margins.getD (p.val * 8 + l.val) {}).good = 7) :=
  ⟨⟨4, { up with dma := Map.empty.set 4 (BitVec.ofNat 128 (pack [(24, 8, 7), (0, 2, 1)])) }, by decide +kernel⟩,
   ⟨4, { up with dma := Map.empty.set 4 (BitVec.ofNat 128 (pack [(24, 8, 7), (0, 2, 1)])) }, by decide +kernel⟩,
   ⟨50000, up, by decide +kernel⟩,
   ⟨{ up with flights := [{}] }, {}, BitVec.ofNat 128 (pack [(24, 8, 6), (20, 4, 3)]), by decide +kernel⟩,
   meets (cmd marginReset.toNat 8) (up) (by decide +kernel),
   meets (cmd 0 8) (up) (by decide +kernel),
   ⟨0, 0, 14, { up with margins := Map.empty.set 0 { raised := true, good := 7 } }, by decide +kernel⟩,
   ⟨0, 0, 14, { up with margins := Map.empty.set 0 { raised := false, good := 7 } }, by decide +kernel⟩,
   ⟨0, 0, 15, { up with margins := Map.empty.set 0 { raised := true, good := 7 } }, by decide +kernel⟩⟩

theorem holds_somewhere_PartsOfTheNodeFailAndReset :
    (∃ (f : Func) (s : State), running s = true ∧ f ≠ 0)
    ∧ (∃ (s : State), running s = true)
    ∧ (∃ (p : Port) (s : State), (s.boot.plls.getD (26 + p.val) {}).locked = true ∧ refModeOf s p ≠ 3)
    ∧ (∃ (s : State), s.boot.phase = .ready ∧ (getPll s 0).locked = true)
    ∧ (∃ (p : Port) (s : State), s.boot.phase = .ready ∧ (getPll s (26 + p.val)).locked = true)
    ∧ (∃ (u : Nat) (s : State), 20 ≤ u ∧ s.boot.failed = false)
    ∧ (∃ (u : Nat) (s : State), u < 20 ∧ (getC s u).quarantined = false)
    ∧ (∃ (p : Pll) (s : State), clocksRun s = true ∧ hasReference s p = true ∧ (getPll s (pllKey p)).locked = false ∧ (getPll s (pllKey p)).failed = false ∧ (getPll s (pllKey p)).attempts = 2 ∧ p = .hpll) :=
  ⟨⟨1, up, by decide +kernel⟩,
   ⟨up, by decide +kernel⟩,
   ⟨0, { up with boot := { up.boot with plls := Map.empty.set 26 { locked := true } } }, by decide +kernel⟩,
   ⟨{ up with boot := { up.boot with plls := Map.empty.set 0 { locked := true } } }, by decide +kernel⟩,
   ⟨0, { up with boot := { up.boot with plls := Map.empty.set 26 { locked := true } } }, by decide +kernel⟩,
   ⟨20, up, by decide +kernel⟩,
   ⟨3, up, by decide +kernel⟩,
   ⟨.hpll, { up with boot := { up.boot with plls := Map.empty.set 1 { attempts := 2 } } }, by decide +kernel⟩⟩

theorem holds_somewhere_HeatIsAnswered :
    (∃ (l : List Int) (s : State), s.boot.phase = .ready ∧ s.cal.record = none ∧ s.thermal.stopped = false ∧ s.thermal.hot = true ∧ (∃ x ∈ (List.range 24).map (fun k => l.getD k 0), 840 ≤ x))
    ∧ (∃ (s : State), s.boot.phase = .ready ∧ s.cal.record = none ∧ s.thermal.stopped = false ∧ s.thermal.stepC = 85 ∧ s.thermal.lastStep = none ∧ s.thermal.level = 0)
    ∧ (∃ (c : Cluster) (s : State), notCounting s c.val = true ∧ (getC s c.val).due.isSome = true ∧ (getC s c.val).holder = none)
    ∧ (∃ (c : Cluster) (n : Nat) (s : State), (getC s c.val).switching = true ∧ (getC s c.val).due = some n ∧ clusterSlice s c.val = none) :=
  ⟨⟨[840], { up with thermal := { hot := true } }, by decide +kernel⟩,
   ⟨{ up with thermal := { stepC := 85 } }, by decide +kernel⟩,
   ⟨3, { up with clusters := Map.empty.set 3 { due := some 1 } }, by decide +kernel⟩,
   ⟨3, 1, { up with clusters := Map.empty.set 3 { due := some 1, switching := true } }, by decide +kernel⟩⟩

theorem holds_somewhere_CalibrationAndTestPorts :
    (Meets rowCalLoad (fun d s => s.boot.phase = .window ∧ byt d.body 8 11 = 0))
    ∧ (Meets rowCalLoad (fun _ s => s.boot.phase ≠ .window))
    ∧ (Meets rowCalLoad (fun d s => s.boot.phase = .window ∧ byt d.body 8 11 ≠ 0 ∧ byt d.body 8 11 ≠ 512 ∧ hostStatus d.env.host = none))
    ∧ (Meets rowCalLoad (fun d s => s.boot.phase = .window ∧ byt d.body 8 11 = 512 ∧ hostStatus d.env.host = none ∧ calOk s (hostData d % 2 ^ 4096) = true))
    ∧ (Meets rowCalQuery (fun d _ => byt d.body 0 7 % 64 = 0))
    ∧ (Meets rowSelftest (fun _ s => s.sec.testing = false))
    ∧ (Meets rowSelftest (fun _ s => s.sec.testing = true))
    ∧ (∃ (s : State), (lifeCycle s = .operational ∨ lifeCycle s = .scrapped)) :=
  ⟨meets (cmd 0 12) ({ up with boot := { up.boot with phase := .window } }) (by decide +kernel),
   meets (cmd 0 12) (up) (by decide +kernel),
   meets (cmd (bytes [(8, 0), (4, 511)]) 12) ({ up with boot := { up.boot with phase := .window } }) (by decide +kernel),
   meets ({ cmd (bytes [(8, 0), (4, 512)]) 12 with env := { host := .data calRecord } }) ({ up with boot := { up.boot with phase := .window } }) (⟨by decide +kernel, by decide +kernel, by decide +kernel, by decide +kernel, by unfold calOk; rw [crc32c_eq]; decide +kernel⟩),
   meets (cmd 0 8) (up) (by decide +kernel),
   meets (cmd 0 0) (up) (by decide +kernel),
   meets (cmd 0 0) ({ up with sec := { up.sec with testing := true } }) (by decide +kernel),
   ⟨{ up with sec := { up.sec with fuses := { lcScrap := 7 } } }, by decide +kernel⟩⟩

theorem holds_somewhere_SlicesAreKept :
    (Meets rowSliceCreate (fun d s => byt d.body 0 0 ≤ 31 ∧ sliceBad s (byt d.body 0 0) (slicePayload d) = false ∧ (getS s (byt d.body 0 0)).state = .disabled ∧ sliceQuarantined s (slicePayload d) = false ∧ shareFull s (byt d.body 0 0) (slicePayload d) = false))
    ∧ (Meets rowSliceCreate (fun d s => 31 < byt d.body 0 0 ∨ sliceBad s (byt d.body 0 0) (slicePayload d) = true))
    ∧ (Meets rowSliceModify (fun d s => byt d.body 0 0 ≤ 31 ∧ sliceBad s (byt d.body 0 0) (slicePayload d) = false ∧ (getS s (byt d.body 0 0)).state = .enabled ∧ sliceQuarantined s (slicePayload d) = false ∧ differ (getS s (byt d.body 0 0)).record (slicePayload d) (sliceWritten - sliceShadowed (getS s (byt d.body 0 0)).record) = false ∧ shareFull s (byt d.body 0 0) (slicePayload d) = false))
    ∧ (Meets rowSliceDestroy (fun d s => byt d.body 0 0 ≤ 31 ∧ (getS s (byt d.body 0 0)).state = .enabled ∧ sliceBound s (byt d.body 0 0) = false))
    ∧ (Meets rowSliceDestroy (fun d s => byt d.body 0 0 ≤ 31 ∧ (getS s (byt d.body 0 0)).state = .enabled ∧ sliceBound s (byt d.body 0 0) = true))
    ∧ (Meets rowSliceQuery (fun d s => byt d.body 0 0 ≤ 31 ∧ (getS s (byt d.body 0 0)).state ≠ .draining))
    ∧ (∃ (n : Nat) (s : State), (getS s n).state = .draining ∧ sliceQuiet s n = true)
    ∧ (Meets rowShareSet (fun d s => byt d.body 0 0 ≤ 63 ∧ byt d.body 4 7 ≠ 0 ∧ domFor s (byt d.body 0 0) = .ok () ∧ domPortOk d s (byt d.body 0 0) = true))
    ∧ (Meets rowArbSet (fun d _ => 4096 ≤ byt d.body 0 3))
    ∧ (Meets rowArbSet (fun d _ => byt d.body 0 3 < 4096)) :=
  ⟨meets (cmd (1 + 2 ^ 128 * sliceRec 2 128) 32) (tenant) (by decide +kernel),
   meets (cmd 1 32) (tenant) (by decide +kernel),
   meets (cmd (2 ^ 128 * sliceRec 1 64) 32) (tenant) (by decide +kernel),
   meets (cmd 2 1) ({ tenant with slices := Map.empty.set 2 { state := .enabled } }) (by decide +kernel),
   meets (cmd 0 1) (tenant) (by decide +kernel),
   meets (cmd 0 1) (tenant) (by decide +kernel),
   ⟨2, { tenant with slices := Map.empty.set 2 { state := .draining } }, by decide +kernel⟩,
   meets (cmd (bytes [(4, 1), (4, 5)]) 8) (tenant) (by decide +kernel),
   meets (cmd 4096 4) (up) (by decide +kernel),
   meets (cmd 0 4) (up) (by decide +kernel)⟩

theorem holds_somewhere_DomainsBeginAndEnd :
    (Meets rowDomainCreate (fun d s => d.domain = 0 ∧ 0 < byt d.body 0 0 ∧ byt d.body 0 0 ≤ 63 ∧ byt d.body 1 1 ≤ 1 ∧ byt d.body 2 2 ≤ 31 ∧ domainBad s (byt d.body 2 2) (byt d.body 1 1 == 1) (BitVec.ofNat 384 (byt d.body 16 63)) = false ∧ (getD s (byt d.body 0 0)).state = .free ∧ (getS s (byt d.body 2 2)).state = .enabled))
    ∧ (Meets rowDomainReset (fun d s => 0 < byt d.body 0 0 ∧ byt d.body 0 0 ≤ 63 ∧ (getD s (byt d.body 0 0)).state = .active ∧ domPortOk d s (byt d.body 0 0) = true ∧ objBusy s (.domain (byt d.body 0 0)) = false))
    ∧ (Meets rowDomainDestroy (fun d s => 0 < byt d.body 0 0 ∧ byt d.body 0 0 ≤ 63 ∧ (getD s (byt d.body 0 0)).state = .active ∧ domPortOk d s (byt d.body 0 0) = true ∧ objBusy s (.domain (byt d.body 0 0)) = false))
    ∧ (Meets rowDomainReset (fun d s => 0 < byt d.body 0 0 ∧ byt d.body 0 0 ≤ 63 ∧ (getD s (byt d.body 0 0)).state ≠ .free ∧ (getD s (byt d.body 0 0)).ctrlPort ≠ d.port))
    ∧ (Meets rowDomainQuery (fun d s => byt d.body 0 0 ≤ 63 ∧ sees d (byt d.body 0 0) = true ∧ domFor s (byt d.body 0 0) = .ok () ∧ byt d.body 8 15 % 64 = 0))
    ∧ (∃ (n : Nat) (s : State), (∀ k h, getH s k = some h → hDomain h.record ≠ n) ∧ s.heats = .empty)
    ∧ (∃ (n : Nat) (s : State), n ≠ 0 ∧ (getD s n).state = .resetting ∧ (getD s n).destroying = false ∧ s.heats = .empty ∧ s.seqs = .empty ∧ s.mem.frames = .empty ∧ s.models = .empty)
    ∧ (∃ (n : Nat) (s : State), n ≠ 0 ∧ (getD s n).state = .resetting ∧ (getD s n).destroying = true ∧ s.heats = .empty ∧ s.seqs = .empty ∧ s.mem.frames = .empty ∧ s.models = .empty ∧ s.domains.wf = true) :=
  ⟨meets (officer 2 64) (owned) (by decide +kernel),
   meets (officer 1 1) (owned) (by decide +kernel),
   meets (officer 1 1) (owned) (by decide +kernel),
   meets (officer 1 1) ({ owned with domains := Map.empty.set 1 { state := .active, ctrlPort := 1 } }) (by decide +kernel),
   meets (cmd 1 16) (tenant) (by decide +kernel),
   ⟨1, tenant, ⟨fun _ h hk => (by cases (show none = some h from hk)), by decide +kernel⟩⟩,
   ⟨1, { owned with domains := Map.empty.set 1 { state := .resetting } }, by decide +kernel⟩,
   ⟨1, { owned with domains := Map.empty.set 1 { state := .resetting, destroying := true } }, by decide +kernel⟩⟩

theorem holds_somewhere_ModelsAndWeights :
    (Meets rowModelRegister (fun d s => modelBad (modelOf d) = false ∧ getM s d.domain.toNat (mModel (modelOf d).record) = none ∧ s.models.size < 256 ∧ mBanks (modelOf d).record = 0))
    ∧ (Meets rowModelRegister (fun d s => modelBad (modelOf d) = false ∧ getM s d.domain.toNat (mModel (modelOf d).record) = none ∧ 256 ≤ s.models.size))
    ∧ (Meets rowModelRegister (fun d _ => modelBad (modelOf d) = true))
    ∧ (Meets rowModelUnregister (fun d s => (getM s d.domain.toNat (byt d.body 0 1)).isSome ∧ modelHasHeat s d.domain.toNat (byt d.body 0 1) = false ∧ (s.seqs.any fun _ q => q.domain == d.domain.toNat && q.model == byt d.body 0 1) = false))
    ∧ (Meets rowModelUnregister (fun d s => (getM s d.domain.toNat (byt d.body 0 1)).isSome ∧ modelHasHeat s d.domain.toNat (byt d.body 0 1) = true))
    ∧ (Meets rowModelQuery (fun d s => (getM s d.domain.toNat (byt d.body 0 1)).isSome ∧ byt d.body 8 15 % 64 = 0))
    ∧ (Meets rowWeightKeyInstall (fun d s => domPortOk d s d.domain.toNat = true ∧ ∃ m, getM s d.domain.toNat (byt d.body 0 1) = some m ∧ mProjection m.record = true ∧ m.loaded = false))
    ∧ (Meets rowWeightLoad (fun d s => byt d.body 16 23 ≠ 0 ∧ byt d.body 16 23 % 528 = 0 ∧ packageRoom (byt d.body 16 23 / 528 * 512) ≤ weightRoom s (mkey d.domain.toNat (byt d.body 0 1)) ∧ hostStatus d.env.host = none ∧ d.env.tagsOk = false ∧ ∃ m, getM s d.domain.toNat (byt d.body 0 1) = some m ∧ m.key.isSome ∧ m.loaded = false))
    ∧ (Meets rowWeightLoad (fun d s => byt d.body 16 23 ≠ 0 ∧ byt d.body 16 23 % 528 = 0 ∧ packageRoom (byt d.body 16 23 / 528 * 512) ≤ weightRoom s (mkey d.domain.toNat (byt d.body 0 1)) ∧ hostStatus d.env.host = none ∧ d.env.tagsOk = true ∧ ∃ m, getM s d.domain.toNat (byt d.body 0 1) = some m ∧ m.key.isSome ∧ m.loaded = false ∧ headerAgrees m.record (byt d.body 0 1) (d.env.plain % 2 ^ (8 * (byt d.body 16 23 / 528 * 512))) (byt d.body 16 23) = true))
    ∧ (Meets rowWeightUnload (fun d s => (getM s d.domain.toNat (byt d.body 0 1)).isSome ∧ modelHasHeat s d.domain.toNat (byt d.body 0 1) = false)) :=
  ⟨meets (cmdBuf smallModel.toNat 64 1) (tenant) (by decide +kernel),
   meets (cmdBuf smallModel.toNat 64 1) ({ tenant with models := ⟨(List.range 256).map fun k => (k, {})⟩ }) (by decide +kernel),
   meets (cmdBuf 0 64 1) (tenant) (by decide +kernel),
   meets (cmd 1 2 1) (modelled) (by decide +kernel),
   meets (cmd 1 2 1) ({ modelled with heats := Map.empty.set 3 { record := heatRecord 1 1 1 0 } }) (by decide +kernel),
   meets (cmd 1 16 1) (modelled) (by decide +kernel),
   meets (officer 1 48 1) (projecting) (⟨by decide +kernel, by decide +kernel, projModel, by decide +kernel⟩),
   meets ({ cmd (bytes [(8, 1), (8, 0), (8, 528)]) 24 1 with env := { tagsOk := false, plain := weightHeader } }) (projecting) (⟨by decide +kernel, by decide +kernel, by decide +kernel, by decide +kernel, by decide +kernel, by decide +kernel, projModel, by decide +kernel⟩),
   meets ({ cmd (bytes [(8, 1), (8, 0), (8, 528)]) 24 1 with env := { tagsOk := true, plain := weightHeader } }) (projecting) (⟨by decide +kernel, by decide +kernel, by decide +kernel, by decide +kernel, by decide +kernel, by decide +kernel, projModel, by decide +kernel⟩),
   meets (cmd 1 2 1) (modelled) (by decide +kernel)⟩

theorem holds_somewhere_PageMemoryIsConfigured :
    (Meets rowMemConfig (fun d s => 64 ≤ rf (BitVec.ofNat 64 (byt d.body 0 7)) 47 34 ∧ rf (BitVec.ofNat 64 (byt d.body 0 7)) 31 20 ≤ 3276 ∧ rf (BitVec.ofNat 64 (byt d.body 0 7)) 19 9 ≤ 1638 ∧ pageOn s = true ∧ differ s.mem.record (BitVec.ofNat 64 (byt d.body 0 7)) memLocked = false))
    ∧ (Meets rowMemConfig (fun d s => 64 ≤ rf (BitVec.ofNat 64 (byt d.body 0 7)) 47 34 ∧ rf (BitVec.ofNat 64 (byt d.body 0 7)) 31 20 ≤ 3276 ∧ rf (BitVec.ofNat 64 (byt d.body 0 7)) 19 9 ≤ 1638 ∧ pageOn s = true ∧ differ s.mem.record (BitVec.ofNat 64 (byt d.body 0 7)) memLocked = true))
    ∧ (∃ (s t : State) (r : BitVec 64), carve s r = some t)
    ∧ (∃ (s t : State) (r : BitVec 64), carve s r = some t ∧ rb r 0 = true)
    ∧ (Meets rowFrameQuery (fun d s => pageOn s = true ∧ frameOk s (byt d.body 0 2) = true ∧ (getFr s (byt d.body 0 2)).state ≠ .free))
    ∧ (Meets rowFrameQuery (fun _ s => pageOn s = false)) :=
  ⟨meets (cmd paged.mem.record.toNat 8) (paged) (by decide +kernel),
   meets (cmd memRecReset.toNat 8) (paged) (by decide +kernel),
   ⟨up, _, memRecReset, by unfold carve; exact if_neg (by decide +kernel)⟩,
   ⟨up, _, memRecReset ||| 1, ⟨by unfold carve; exact if_neg (by decide +kernel), by decide +kernel⟩⟩,
   meets (cmd 5 3) ({ paged with mem := { paged.mem with frames := Map.empty.set 5 { state := .sealed } } }) (by decide +kernel),
   meets (cmd 0 3) (tenant) (by decide +kernel)⟩

theorem holds_somewhere_SequencesObeyTheirHome :
    (∃ (d : Desc) (s : State) (x : _), reaches rowSeqCreate d s = true ∧ modelFor d (atBody d s) (pModel (byt d.body 0 15)) = .ok x ∧ pageOn (atBody d s) = true ∧ seqCreateBad x.record (byt d.body 0 15) = false ∧ placeOn (atBody d s) = true ∧ throttled (atBody d s) d.domain.toNat = true)
    ∧ (∃ (d : Desc) (s : State), reaches rowSeqCreate d s = true ∧ pageOn (atBody d s) = false)
    ∧ (∃ (d : Desc) (s : State) (x : ModelSt) (id : Nat), reaches rowSeqCreate d s = true ∧ getM (atBody d s) d.domain.toNat (pModel (byt d.body 0 15)) = some x ∧ pageOn (atBody d s) = true ∧ seqCreateBad x.record (byt d.body 0 15) = false ∧ placeOn (atBody d s) = true ∧ throttled (atBody d s) d.domain.toNat = false ∧ freeSeqIndex (atBody d s) (freeVal (atBody d s) % 2 ^ 20) (min (2 ^ 20) ((atBody d s).seqs.size + (atBody d s).place.searches.size + 1)) = some id)
    ∧ (Meets rowSeqFree (fun d s => homeOf s (byt d.body 0 5) = s.nodeNo ∧ ∃ q, seqFor d (renewBy d s (byt d.body 0 5)) (byt d.body 0 5) true = .ok q ∧ q.state ≠ .running ∧ q.stripes = [] ∧ objBusy s (.seq (byt d.body 0 5)) = false))
    ∧ (Meets rowSeqFree (fun d s => homeOf s (byt d.body 0 5) = s.nodeNo ∧ ∃ q, seqFor d (renewBy d s (byt d.body 0 5)) (byt d.body 0 5) true = .ok q ∧ q.state = .running))
    ∧ (Meets rowSeqTruncate (fun d s => homeOf s (byt d.body 0 5) = s.nodeNo ∧ objBusy s (.seq (byt d.body 0 5)) = false ∧ ∃ q, seqFor d (renewBy d s (byt d.body 0 5)) (byt d.body 0 5) = .ok q ∧ byt d.body 8 10 < q.length ∧ q.state = .idle ∧ (sliceOf s q.domain).isSome ∧ pagesWithin (renewBy d s (byt d.body 0 5)) q (byt d.body 8 10) = []))
    ∧ (Meets rowSeqTruncate (fun d s => homeOf s (byt d.body 0 5) = s.nodeNo ∧ ∃ q, seqFor d (renewBy d s (byt d.body 0 5)) (byt d.body 0 5) = .ok q ∧ q.length ≤ byt d.body 8 10))
    ∧ (Meets rowSeqQuery (fun d s => homeOf s (byt d.body 0 5) = s.nodeNo ∧ byt d.body 8 15 % 64 = 0 ∧ ∃ q, seqFor d (renewBy d s (byt d.body 0 5)) (byt d.body 0 5) true = .ok q))
    ∧ (Meets rowSeqGlobal (fun d s => homeOf s (byt d.body 0 5) = s.nodeNo ∧ objBusy s (.seq (byt d.body 0 5)) = false ∧ bit d.body 88 = false ∧ ∃ q, seqFor d (renewBy d s (byt d.body 0 5)) (byt d.body 0 5) = .ok q ∧ 0 < mT (seqModel (renewBy d s (byt d.body 0 5)) q) ∧ byt d.body 8 10 < ceilDiv q.length (mT (seqModel (renewBy d s (byt d.body 0 5)) q)))) :=
  ⟨⟨cmd (bytes [(2, 1), (3, 255), (1, 0), (1, 8), (2, 1000), (3, 0), (4, 16)]) 16 1, { placed with place := { placed.place with failedSearch := [1] } }, { record := smallModel }, by decide +kernel⟩,
   ⟨cmd (bytes [(2, 1), (3, 255), (1, 0), (1, 8), (2, 1000), (3, 0), (4, 16)]) 16 1, tenant, by decide +kernel⟩,
   ⟨cmd (bytes [(2, 1), (3, 255), (1, 0), (1, 8), (2, 1000), (3, 0), (4, 16)]) 16 1, placed, { record := smallModel }, _, ⟨by decide +kernel, by decide +kernel, by decide +kernel, by decide +kernel, by decide +kernel, by decide +kernel, rfl⟩⟩,
   meets (cmd 65536 6 1) (sequenced) (⟨by decide +kernel, by decide +kernel, seqA, by decide +kernel⟩),
   meets (cmd 65536 6 1) ({ sequenced with seqs := Map.empty.set 65536 { seqA with state := .running } }) (⟨by decide +kernel, by decide +kernel, { seqA with state := .running }, by decide +kernel⟩),
   meets (cmd (bytes [(8, 65536), (3, 16)]) 11 1) (sequenced) (⟨by decide +kernel, by decide +kernel, by decide +kernel, seqA, by decide +kernel⟩),
   meets (cmd (bytes [(8, 65536), (3, 20)]) 11 1) (sequenced) (⟨by decide +kernel, by decide +kernel, seqA, by decide +kernel⟩),
   meets (cmd (bytes [(8, 65536), (8, 0)]) 16 1) (sequenced) (⟨by decide +kernel, by decide +kernel, by decide +kernel, seqA, by decide +kernel⟩),
   meets (cmd (bytes [(8, 65536), (4, 0)]) 12 1) (sequenced) (⟨by decide +kernel, by decide +kernel, by decide +kernel, by decide +kernel, seqA, by decide +kernel⟩)⟩

theorem holds_somewhere_HeatsRunAndStop :
    (Meets rowHeatCreate (fun d s => byt d.body 0 1 ≤ 4095 ∧ s.heats.has (byt d.body 0 1) = false ∧ ∃ m sl h moved, getM s d.domain.toNat (hModel (heatRec d)) = some m ∧ sliceOf s d.domain.toNat = some sl ∧ weightsMissing m = false ∧ heatBad d.func (heatRec d) = false ∧ bindCheck s (byt d.body 0 1) d.domain.toNat sl (hCourse (heatRec d)) (hSlots (heatRec d)) m.record = none ∧ sizeHeat s (byt d.body 0 1) (freshHeat d) (heatRec d) m.record (((s.courses.get? (hCourse (heatRec d))).map (·.image)).getD 0) = some (h, moved)))
    ∧ (Meets rowHeatCreate (fun d _ => 4095 < byt d.body 0 1))
    ∧ (Meets rowHeatSet (fun d s => ∃ h m sl, heatFor d s (byt d.body 0 1) = .ok h ∧ h.state = .running ∧ objBusy s (.heat (byt d.body 0 1)) = false ∧ heatBad h.func (heatAsked d h) = false ∧ differ h.record (heatAsked d h) heatLocked = false ∧ getM s (hDomain (heatAsked d h)) (hModel (heatAsked d h)) = some m ∧ sliceOf s (hDomain (heatAsked d h)) = some sl ∧ hCourse (heatAsked d h) = hCourse h.record ∧ hModel (heatAsked d h) = hModel h.record ∧ hSlots (heatAsked d h) = hSlots h.record ∧ slotsForbid h (heatAsked d h) = false))
    ∧ (Meets rowHeatSet (fun d s => ∃ h, heatFor d s (byt d.body 0 1) = .ok h ∧ h.state = .running ∧ objBusy s (.heat (byt d.body 0 1)) = false ∧ heatBad h.func (heatAsked d h) = false ∧ differ h.record (heatAsked d h) heatLocked = true))
    ∧ (Meets rowHeatQuery (fun d s => ∃ h, heatFor d s (byt d.body 0 1) = .ok h ∧ h.state ≠ .stopping))
    ∧ (Meets rowHeatStart (fun d s => ∃ h, heatFor d s (byt d.body 0 1) = .ok h ∧ h.state = .stopped))
    ∧ (Meets rowHeatStart (fun d s => ∃ h, heatFor d s (byt d.body 0 1) = .ok h ∧ h.state = .running))
    ∧ (Meets rowHeatStop (fun d s => ∃ h, heatFor d s (byt d.body 0 1) = .ok h ∧ h.state = .running ∧ h.layer = 0 ∧ h.held = none ∧ h.lap = none))
    ∧ (Meets rowHeatStop (fun d s => ∃ h, heatFor d s (byt d.body 0 1) = .ok h ∧ h.state = .running ∧ h.layer = 0 ∧ h.held = none ∧ h.lap.isSome))
    ∧ (Meets rowHeatDestroy (fun d s => ∃ h, heatFor d s (byt d.body 0 1) = .ok h ∧ h.state = .stopped)) :=
  ⟨meets (cmd (2 ^ 64 * (heatRecord 1 1 1 3).toNat + 4) 32 1) (heated) (⟨by decide +kernel, by decide +kernel, by decide +kernel, { record := smallModel }, 0, sized (by decide +kernel) (by decide +kernel) (by decide +kernel) (by decide +kernel) (binds_of { state := .loaded, domain := 1, image := courseImage } (by decide +kernel) (by decide +kernel) (by decide +kernel) (by decide +kernel)) (by decide +kernel)⟩),
   meets (cmd 4096 32) (up) (by decide +kernel),
   meets (cmd (2 ^ 64 * (heatRecord 1 1 1 3).toNat + 3) 32 1) (heated) (⟨by decide +kernel, heatA, { record := smallModel }, 0, by decide +kernel⟩),
   meets (cmd (2 ^ 64 * (heatRecord 1 1 1 1).toNat + 3) 32 1) (heated) (⟨by decide +kernel, heatA, by decide +kernel⟩),
   meets (cmd 3 2 1) (heated) (⟨by decide +kernel, heatA, by decide +kernel⟩),
   meets (cmd 3 2 1) ({ heated with heats := Map.empty.set 3 { heatA with state := .stopped } }) (⟨by decide +kernel, { heatA with state := .stopped }, by decide +kernel⟩),
   meets (cmd 3 2 1) (heated) (⟨by decide +kernel, heatA, by decide +kernel⟩),
   meets (cmd 3 2 1) (heated) (⟨by decide +kernel, heatA, by decide +kernel⟩),
   meets (cmd 3 2 1) ({ heated with heats := Map.empty.set 3 { heatA with lap := some {} } }) (⟨by decide +kernel, { heatA with lap := some {} }, by decide +kernel⟩),
   meets (cmd 3 2 1) ({ heated with heats := Map.empty.set 3 { heatA with state := .stopped } }) (⟨by decide +kernel, { heatA with state := .stopped }, by decide +kernel⟩)⟩

theorem holds_somewhere_CoursesAreVerified :
    (Meets rowCourseLoad (fun d s => s.courses.get? (byt d.body 0 1) = none ∧ s.courses.size < 256 ∧ hostStatus d.env.host = none))
    ∧ (Meets rowCourseLoad (fun d s => s.courses.get? (byt d.body 0 1) = none ∧ 256 ≤ s.courses.size))
    ∧ (∃ (n : Nat) (c : CourseSt) (s : State), s.courses.get? n = some c ∧ c.state = .verifying ∧ verifyCourse c.image c.length = none)
    ∧ (∃ (n : Nat) (c : CourseSt) (r : Rejection) (s : State), s.courses.get? n = some c ∧ c.state = .verifying ∧ verifyCourse c.image c.length = some r)
    ∧ (Meets rowCourseUnload (fun d s => bindCount s (byt d.body 0 1) = 0 ∧ ∃ c, courseFor d s (byt d.body 0 1) = .ok c ∧ c.state = .loaded))
    ∧ (Meets rowCourseUnload (fun d s => 0 < bindCount s (byt d.body 0 1) ∧ ∃ c, courseFor d s (byt d.body 0 1) = .ok c ∧ c.state = .loaded))
    ∧ (Meets rowCourseQuery (fun d s => byt d.body 8 15 % 64 = 0 ∧ ∃ c, s.courses.get? (byt d.body 0 1) = some c ∧ c.domain = d.domain.toNat)) :=
  ⟨meets (cmd (bytes [(8, 2), (8, 0), (4, 64)]) 20 1) (heated) (by decide +kernel),
   meets (cmd (bytes [(8, 999), (8, 0), (4, 64)]) 20 1) ({ tenant with courses := ⟨(List.range 256).map fun k => (k, {})⟩ }) (by decide +kernel),
   ⟨2, { domain := 1, image := goodCourse, length := 328 }, { tenant with courses := Map.empty.set 2 { domain := 1, image := goodCourse, length := 328 } }, by decide +kernel⟩,
   ⟨2, {}, _, { tenant with courses := Map.empty.set 2 {} }, ⟨by decide +kernel, by decide +kernel, rfl⟩⟩,
   meets (cmd 1 2 1) ({ heated with heats := .empty }) (⟨by decide +kernel, by decide +kernel, courseOne, by decide +kernel⟩),
   meets (cmd 1 2 1) (heated) (⟨by decide +kernel, by decide +kernel, courseOne, by decide +kernel⟩),
   meets (cmd 1 16 1) (heated) (⟨by decide +kernel, by decide +kernel, courseOne, by decide +kernel⟩)⟩

theorem holds_somewhere_NetworkShapersAndJobKeysAreConfigured :
    (Meets rowNetConfig (fun d s => byt d.body 0 0 = 0 ∧ byt d.body 1 1 = 0 ∧ rb (ethOf s 0).record 0 = false ∧ rb (BitVec.ofNat 320 (byt d.body 16 55)) 0 = true))
    ∧ (Meets rowNetConfig (fun d s => byt d.body 0 0 = 0 ∧ byt d.body 1 1 = 1 ∧ rb (ethOf s 1).record 0 = true ∧ differ (ethOf s 1).record (BitVec.ofNat 320 (byt d.body 16 55)) ethLocked = true))
    ∧ (Meets rowNetConfig (fun d s => byt d.body 0 0 = 1 ∧ byt d.body 4 5 ≤ 4095 ∧ byt d.body 6 7 = 1 ∧ placeOn s = false ∧ hostData d % 2 ^ 256 ≠ 0))
    ∧ (Meets rowNetConfig (fun d s => byt d.body 0 0 = 2 ∧ byt d.body 4 5 ≤ 4095 ∧ byt d.body 6 7 = 1 ∧ placeOn s = false))
    ∧ (Meets rowNetConfig (fun d s => byt d.body 0 0 = 1 ∧ byt d.body 4 5 ≤ 4095 ∧ byt d.body 4 5 + byt d.body 6 7 ≤ 4096 ∧ placeOn s = true))
    ∧ (Meets rowPdCreate (fun d s => byt d.body 0 1 ≤ 4095 ∧ s.net.pds.has (byt d.body 0 1) = false))
    ∧ (Meets rowPdDestroy (fun d s => byt d.body 0 1 ≤ 4095 ∧ (visiblePd d s (byt d.body 0 1)).isSome ∧ pdInUse s (byt d.body 0 1) = false))
    ∧ (Meets rowPdDestroy (fun d s => byt d.body 0 1 ≤ 4095 ∧ pdInUse s (byt d.body 0 1) = true))
    ∧ (Meets rowShaperSet (fun d _ => 0 < byt d.body 0 1 ∧ byt d.body 0 1 ≤ 4095 ∧ shaperBad (byt d.body 8 15) = false))
    ∧ (Meets rowShaperSet (fun d _ => byt d.body 0 1 = 0 ∨ 4095 < byt d.body 0 1))
    ∧ (Meets rowDomainNetSet (fun d _ => byt d.body 0 0 ≤ 63 ∧ 0 < byt d.body 20 23 ∧ byt d.body 20 23 ≤ 1048575 ∧ shaperBad (byt d.body 8 15) = false))
    ∧ (Meets rowJobKeyInstall (fun d s => byt d.body 0 1 ≤ 4095 ∧ ∃ p, visiblePd d s (byt d.body 0 1) = some p ∧ domPortOk d s p.domain = true ∧ sealedDomain s p.domain = true ∧ fld d.body 16 16 = 0 ∧ p.key0 = none))
    ∧ (Meets rowJobKeyInstall (fun d s => byt d.body 0 1 ≤ 4095 ∧ ∃ p, visiblePd d s (byt d.body 0 1) = some p ∧ domPortOk d s p.domain = true ∧ sealedDomain s p.domain = false)) :=
  ⟨meets (cmdBuf (2 ^ 128) 56) (up) (by decide +kernel),
   meets (cmdBuf 256 56) ({ up with net := { eth1 := { record := ethRecReset ||| 1 } } }) (by decide +kernel),
   meets ({ cmdBuf (bytes [(4, 1), (2, 5), (2, 1), (8, 0)]) 16 with env := { host := .data 5 } }) (up) (by decide +kernel),
   meets (cmdBuf (bytes [(4, 2), (2, 5), (2, 1), (8, 0)]) 16) (up) (by decide +kernel),
   meets (cmdBuf (bytes [(4, 1), (2, 5), (2, 1), (8, 0)]) 16) (placed) (by decide +kernel),
   meets (cmd 5 2) (up) (by decide +kernel),
   meets (cmd 5 2) ({ up with net := { pds := Map.empty.set 5 {} } }) (by decide +kernel),
   meets (cmd 5 2) ({ up with net := { queues := Map.empty.set 9 { record := BitVec.ofNat 256 (pack [(88, 12, 5)]) } } }) (by decide +kernel),
   meets (cmd (bytes [(8, 1), (8, shaperReset.toNat)]) 16) (up) (by decide +kernel),
   meets (cmd 0 16) (up) (by decide +kernel),
   meets (cmd (bytes [(8, 1), (8, shaperReset.toNat), (4, 5), (4, 1)]) 24) (up) (by decide +kernel),
   meets (officer 5 48 1) ({ owned with domains := Map.empty.set 1 { state := .active, sealed := true, owner := 7 }, net := { pds := Map.empty.set 5 { domain := 1 } } }) (⟨by decide +kernel, by decide +kernel, { domain := 1 }, by decide +kernel⟩),
   meets (officer 5 48 1) ({ owned with net := { pds := Map.empty.set 5 { domain := 1 } } }) (⟨by decide +kernel, by decide +kernel, { domain := 1 }, by decide +kernel⟩)⟩

theorem holds_somewhere_RegionsAndQueuesAreMade :
    (Meets rowQueueCreate (fun d s => let r := BitVec.ofNat 256 ((BitVec.ofNat 256 (byt d.body 16 47)).toNat &&& queueWritable); ∃ p, visiblePd d s (rf r 99 88) = some p ∧ ((s.net.cqs.get? (rf r 87 74)).filter fun c => seesDomain d c.domain).isSome ∧ queueBad p.domain r = false ∧ queueInRange s p.domain (byt d.body 0 1) = true ∧ getWq s (byt d.body 0 1) = none ∧ lacksKey s p = false))
    ∧ (Meets rowQueueModify (fun d s => ∃ q, visibleQueue d s (byt d.body 0 1) = some q ∧ queueBad q.domain (BitVec.ofNat 256 (byt d.body 16 47)) = false ∧ (q.state = .reset ∨ differ q.record (BitVec.ofNat 256 (byt d.body 16 47)) queueLocked = false)))
    ∧ (Meets rowQueueModify (fun d s => ∃ q, visibleQueue d s (byt d.body 0 1) = some q ∧ queueBad q.domain (BitVec.ofNat 256 (byt d.body 16 47)) = false ∧ q.state ≠ .reset ∧ differ q.record (BitVec.ofNat 256 (byt d.body 16 47)) queueLocked = true))
    ∧ (Meets rowQueueReset (fun d s => byt d.body 0 1 < 65536 ∧ ∃ q, visibleQueue d s (byt d.body 0 1) = some q ∧ q.state = .error))
    ∧ (Meets rowQueueDestroy (fun d s => ∃ q, visibleQueue d s (byt d.body 0 1) = some q ∧ q.state ≠ .ready))
    ∧ (Meets rowQueueDestroy (fun d s => ∃ q, visibleQueue d s (byt d.body 0 1) = some q ∧ q.state = .ready))
    ∧ (Meets rowCqCreate (fun d s => byt d.body 0 1 ≤ 16383 ∧ 6 ≤ byt d.body 2 2 ∧ byt d.body 2 2 ≤ 16 ∧ byt d.body 4 5 < vectorsOf d.func ∧ byt d.body 8 15 % 4096 = 0 ∧ cqInRange s d.domain.toNat (byt d.body 0 1) = true ∧ s.net.cqs.has (byt d.body 0 1) = false))
    ∧ (Meets rowCqDestroy (fun d s => byt d.body 0 1 ≤ 16383 ∧ ((s.net.cqs.get? (byt d.body 0 1)).filter fun c => seesDomain d c.domain).isSome ∧ (s.net.queues.any fun j q => decide (j < 65536) && q.internal.isNone && qCq q == byt d.body 0 1) = false))
    ∧ (∃ (d : Desc) (s : State) (i : Nat), reaches rowRegionRegister d s = true ∧ (visiblePd d (atBody d s) (rf (BitVec.ofNat 256 (byt d.body 0 31)) 143 132)).isSome ∧ regionBad (atBody d s) (BitVec.ofNat 256 (byt d.body 0 31)) = false ∧ chooseFree (atBody d s) s.net.regions 262144 = some i)
    ∧ (Meets rowRegionRegister (fun d s => (visiblePd d s (rf (BitVec.ofNat 256 (byt d.body 0 31)) 143 132)).isSome ∧ regionBad s (BitVec.ofNat 256 (byt d.body 0 31)) = false ∧ chooseFree s s.net.regions 262144 = none))
    ∧ (Meets rowRegionRevoke (fun d s => ∃ r, regionAt s (byt d.body 0 3) = some r ∧ seesDomain d r.domain = true ∧ r.revoking = false))
    ∧ (∃ (i : Nat) (r : RegionSt) (s : State), s.net.regions.get? i = some r ∧ r.revoking = true ∧ s.flights = []) :=
  ⟨meets (cmd (2 ^ 128 * queueRec + 70) 48 1) (networked) (⟨by decide +kernel, { domain := 1 }, by decide +kernel⟩),
   meets (cmd (2 ^ 128 * queueRec + 70) 48 1) ({ networked with net := { networked.net with queues := Map.empty.set 70 queueA } }) (⟨by decide +kernel, queueA, by decide +kernel⟩),
   meets (cmd (2 ^ 128 * (queueRec + 2 ^ 74) + 70) 48 1) ({ networked with net := { networked.net with queues := Map.empty.set 70 queueA } }) (⟨by decide +kernel, queueA, by decide +kernel⟩),
   meets (cmd 70 2 1) ({ networked with net := { networked.net with queues := Map.empty.set 70 { queueA with state := .error } } }) (⟨by decide +kernel, by decide +kernel, { queueA with state := .error }, by decide +kernel⟩),
   meets (cmd 70 2 1) ({ networked with net := { networked.net with queues := Map.empty.set 70 { queueA with state := .error } } }) (⟨by decide +kernel, { queueA with state := .error }, by decide +kernel⟩),
   meets (cmd 70 2 1) ({ networked with net := { networked.net with queues := Map.empty.set 70 queueA } }) (⟨by decide +kernel, queueA, by decide +kernel⟩),
   meets (cmd (bytes [(2, 71), (2, 6), (12, 0)]) 16 1) (networked) (by decide +kernel),
   meets (cmd 70 2 1) (networked) (by decide +kernel),
   ⟨cmd (2 ^ 132 * 5 + 2 ^ 144 * 64) 32 1, networked, _, ⟨by decide +kernel, by decide +kernel, by decide +kernel, rfl⟩⟩,
   meets (cmd (2 ^ 132 * 5 + 2 ^ 144 * 64) 32 1) (crowded) (⟨by decide +kernel, by decide +kernel, by decide +kernel, no_room (by simp [crowded, Map.size])⟩),
   meets (cmd 3 4 1) ({ networked with net := { networked.net with regions := Map.empty.set 3 { domain := 1 } } }) (⟨by decide +kernel, { domain := 1 }, by decide +kernel⟩),
   ⟨3, { revoking := true }, { networked with net := { networked.net with regions := Map.empty.set 3 { revoking := true } } }, by decide +kernel⟩⟩

theorem holds_somewhere_DirectoryWorks :
    (∃ (r : Nat) (v : RowRec) (s : State), s.dir.records.get? r = some v ∧ v.holds ≠ 0)
    ∧ (∃ (r : Nat) (v : RowRec) (s : State), s.dir.records.get? r = some v ∧ v.holds = 0 ∧ s.dir.records.wf = true)
    ∧ (∃ (b : Fin 64) (x : DirShift) (e : DirEntry) (s : State), s.dir.queues = .empty ∧ (dirBank s b.val).shift = some x ∧ x.goal + 1 < x.hole ∧ (dirBank s b.val).entries.get? (x.hole - 1) = some e)
    ∧ (∃ (b : Fin 64) (x : DirShift) (e : DirEntry) (s : State), s.dir.queues = .empty ∧ (dirBank s b.val).shift = some x ∧ x.hole + 1 < x.goal ∧ (dirBank s b.val).entries.get? (x.hole + 1) = some e)
    ∧ (∃ (b : Fin 64) (x : DirShift) (s : State), s.dir.queues = .empty ∧ (dirBank s b.val).shift = some x ∧ x.goal = x.hole ∧ x.next = none)
    ∧ (∃ (id : Nat) (q : SeqSt) (m : ModelSt) (l : List Nat) (s : State), getQ s id = some q ∧ getM s q.domain q.model = some m ∧ sealedRow s q q.rowTried = some l ∧ (dPublish m = false ∨ cursorDepth q ≠ q.rowTried))
    ∧ (∃ (id : Nat) (q : SeqSt) (m : ModelSt) (l : List Nat) (s : State), getQ s id = some q ∧ getM s q.domain q.model = some m ∧ sealedRow s q q.rowTried = some l ∧ dPublish m = true ∧ cursorDepth q = q.rowTried ∧ s.dir.queues = .empty ∧ attaching s = false ∧ shifting s (bankOf m (q.hashes.getD q.rowTried 0)) = false ∧ q.hashes.getD q.rowTried 0 = 0) :=
  ⟨⟨5, {}, { up with dir := { records := Map.empty.set 5 {} } }, by decide +kernel⟩,
   ⟨5, { holds := 0 }, { up with dir := { records := Map.empty.set 5 { holds := 0 } } }, by decide +kernel⟩,
   ⟨3, { hole := 5, goal := 2 }, {}, { up with dir := { banks := Map.empty.set 3 { entries := Map.empty.set 4 {}, shift := some { hole := 5, goal := 2 } } } }, by decide +kernel⟩,
   ⟨3, { hole := 2, goal := 5 }, {}, { up with dir := { banks := Map.empty.set 3 { entries := Map.empty.set 3 {}, shift := some { hole := 2, goal := 5 } } } }, by decide +kernel⟩,
   ⟨3, { hole := 2, goal := 2 }, { up with dir := { banks := Map.empty.set 3 { entries := Map.empty.set 7 {}, shift := some { hole := 2, goal := 2 } } } }, by decide +kernel⟩,
   ⟨65536, seqP, { record := smallModel }, [5], published, by decide +kernel⟩,
   ⟨65536, seqP, { record := dirModel }, [5], { published with models := Map.empty.set (mkey 1 1) { record := dirModel } }, by decide +kernel⟩⟩

theorem holds_somewhere_PrefixesAreFoundAndShared :
    (Meets rowPrefixSearch (fun d s => (∃ m, modelFor d s (byt d.body 0 1) = .ok m ∧ dBanks m ≠ 0) ∧ 0 < byt d.body 2 2 ∧ byt d.body 2 2 ≤ 32 ∧ 0 < byt d.body 4 6 ∧ byt d.body 4 6 + byt d.body 2 2 ≤ 1048577))
    ∧ (∃ (d : Desc) (s : State) (q : SeqSt) (m : ModelSt), reaches rowPrefixPublish d s = true ∧ seqFor d (atBody d s) (byt d.body 0 5) = .ok q ∧ objBusy (atBody d s) (.seq (byt d.body 0 5)) = false ∧ getM (atBody d s) q.domain q.model = some m)
    ∧ (∃ (d : Desc) (s : State) (m : ModelSt), reaches rowPrefixRetract d s = true ∧ modelFor d (atBody d s) (byt d.body 0 1) = .ok m ∧ 0 < byt d.body 8 10 ∧ byt d.body 8 10 ≤ 1048576 ∧ dBanks m ≠ 0)
    ∧ (∃ (d : Desc) (s : State), reaches rowPrefixBulkLoad d s = true ∧ 0 < byt d.body 8 9 ∧ byt d.body 8 9 ≤ 4096 ∧ hostStatus d.env.host = none)
    ∧ (Meets rowPrefixStats (fun d s => (∃ m, modelFor d s (byt d.body 0 1) = .ok m) ∧ byt d.body 8 15 % 64 = 0))
    ∧ (Meets rowPrefixAttach (fun d s => 0 < byt d.body 8 10 ∧ byt d.body 8 10 ≤ 1048576 ∧ objBusy s (.seq (byt d.body 0 5)) = false ∧ ∃ q m p e, seqFor d (renewBy d s (byt d.body 0 5)) (byt d.body 0 5) = .ok q ∧ q.state = .idle ∧ q.length = 0 ∧ getM s q.domain q.model = some m ∧ dBanks m ≠ 0 ∧ dirFind s m q.domain q.model (byt d.body 8 10) (byt d.body 16 27) = some (p, e)))
    ∧ (Meets rowPrefixAttach (fun d s => 0 < byt d.body 8 10 ∧ byt d.body 8 10 ≤ 1048576 ∧ objBusy s (.seq (byt d.body 0 5)) = false ∧ ∃ q, seqFor d (renewBy d s (byt d.body 0 5)) (byt d.body 0 5) = .ok q ∧ (q.state ≠ .idle ∨ q.length ≠ 0)))
    ∧ (∃ (id n : Nat) (s : State), ((getQ (clockTo s n) id).bind (·.attach)) = none)
    ∧ (∃ (id n : Nat) (q : SeqSt) (x : Attach) (s : State), getQ (clockTo s n) id = some q ∧ q.attach = some x ∧ (recordChain (clockTo s n) x.record (x.depth + 1)).length ≠ x.depth ∧ (clockTo s n).dir.queues = .empty)
    ∧ (∃ (id n : Nat) (q : SeqSt) (x : Attach) (s s0 s1 : State) (good : List (Nat × RowRec)), getQ (clockTo s n) id = some q ∧ q.attach = some x ∧ s0 = setQ (clockTo s n) id { q with attach := none } ∧ (recordChain s0 x.record (x.depth + 1)).length = x.depth ∧ good = (recordChain s0 x.record (x.depth + 1)).reverse.takeWhile (fun v => !v.2.broken) ∧ (∀ v ∈ good, v.2.groupMask &&& q.groupMask = q.groupMask) ∧ good.length * mT (seqModel s0 q) ≤ q.maxCtxM1 + 1 ∧ (∀ v ∈ good, ∀ r ∈ hostedRows s0 q, (getFr s0 (recordFrame v.2 r.1 r.2)).refs + takes s0 q good (recordFrame v.2 r.1 r.2) ≤ 65535) ∧ (good.zipIdx.flatMap fun v => (hostedRows s0 q).map fun r => (r, v.2, recordFrame v.1.2 r.1 r.2)).foldl (fun (o : Option State) p => o.bind fun s => ensureLeaf s id p.1.1 p.1.2 p.2.1) (some s0) = some s1 ∧ s1.dir.queues = .empty) :=
  ⟨meets (cmd (bytes [(2, 1), (2, 1), (4, 1), (8, 0), (12, 9)]) 28 1) (directed) (⟨by decide +kernel, ⟨{ record := dirModel }, by decide +kernel⟩, by decide +kernel⟩),
   ⟨cmd (bytes [(8, 65536), (8, 1), (12, 9), (12, 0)]) 40 1, directed, seqA, { record := dirModel }, by decide +kernel⟩,
   ⟨cmd (bytes [(8, 1), (8, 1), (12, 9)]) 28 1, directed, { record := dirModel }, by decide +kernel⟩,
   ⟨cmd (bytes [(8, 0), (2, 1)]) 10 1, directed, by decide +kernel⟩,
   meets (cmd (bytes [(8, 1), (8, 0)]) 16 1) (directed) (⟨by decide +kernel, ⟨{ record := dirModel }, by decide +kernel⟩, by decide +kernel⟩),
   meets (cmd (bytes [(8, 65536), (8, 1), (12, 9)]) 28 1) ({ directed with seqs := Map.empty.set 65536 { seqA with length := 0 } }) (⟨by decide +kernel, by decide +kernel, by decide +kernel, by decide +kernel, { seqA with length := 0 }, { record := dirModel }, 7, dirEntry, by decide +kernel⟩),
   meets (cmd (bytes [(8, 65536), (8, 1), (12, 9)]) 28 1) (directed) (⟨by decide +kernel, by decide +kernel, by decide +kernel, by decide +kernel, seqA, by decide +kernel⟩),
   ⟨65536, 0, sequenced, by decide +kernel⟩,
   ⟨65536, 0, { seqA with attach := some { record := 6, depth := 1 } }, { record := 6, depth := 1 }, { directed with seqs := Map.empty.set 65536 { seqA with attach := some { record := 6, depth := 1 } } }, by decide +kernel⟩,
   ⟨65536, 0, { seqA with length := 0, attach := some { record := 5, depth := 1 } }, { record := 5, depth := 1 }, { directed with seqs := Map.empty.set 65536 { seqA with length := 0, attach := some { record := 5, depth := 1 } } }, _, _, [(5, dirRecord)], ⟨by decide +kernel, rfl, rfl, by decide +kernel, by decide +kernel, by decide +kernel, by decide +kernel, by decide +kernel, rfl, rfl⟩⟩⟩

theorem holds_somewhere_IndexesAreBuilt :
    (∃ (id l g : Nat) (q : SeqSt) (s : State), getQ s id = some q ∧ s.sel.indexes.has (idxKey id l g) = true ∧ (getIdx s (idxKey id l g)).state = .none ∧ sThreshold (mSel (seqModel s q)) ≤ idxCount (getIdx s (idxKey id l g)) ∧ (getIdx s (idxKey id l g)).retryAt ≤ idxCount (getIdx s (idxKey id l g)))
    ∧ (∃ (id l g : Nat) (s : State), s.sel.indexes.has (idxKey id l g) = true ∧ (getIdx s (idxKey id l g)).state = .active ∧ 2 * (getIdx s (idxKey id l g)).nBuild ≤ idxCount (getIdx s (idxKey id l g)))
    ∧ (∃ (id l g : Nat) (s : State), (getIdx s (idxKey id l g)).state = .active ∧ idxCount (getIdx s (idxKey id l g)) < 2 * (getIdx s (idxKey id l g)).nBuild)
    ∧ (∃ (id l g : Nat) (q : SeqSt) (s : State), getQ s id = some q ∧ (getIdx s (idxKey id l g)).state ≠ .building ∧ (getIdx s (idxKey id l g)).state ≠ .rebuilding)
    ∧ (∃ (id l g : Nat) (q : SeqSt) (s : State), getQ s id = some q ∧ q.state = .running ∧ (getIdx s (idxKey id l g)).state = .building ∧ (getIdx s (idxKey id l g)).ready = none)
    ∧ (∃ (id l g : Nat) (s : State), (getIdx s (idxKey id l g)).state = .rebuilding ∧ (getIdx s (idxKey id l g)).ready = none)
    ∧ (Meets rowSelRebuild (fun d s => ∃ q, seqFor d (renewBy d s (byt d.body 0 5)) (byt d.body 0 5) = .ok q ∧ byt d.body 6 6 < mLayers (seqModel s q) ∧ byt d.body 7 7 < mGroups (seqModel s q) ∧ (getIdx s (idxKey (byt d.body 0 5) (byt d.body 6 6) (byt d.body 7 7))).state = .active))
    ∧ (Meets rowSelRebuild (fun d s => ∃ q, seqFor d (renewBy d s (byt d.body 0 5)) (byt d.body 0 5) = .ok q ∧ byt d.body 6 6 < mLayers (seqModel s q) ∧ byt d.body 7 7 < mGroups (seqModel s q) ∧ (getIdx s (idxKey (byt d.body 0 5) (byt d.body 6 6) (byt d.body 7 7))).state = .none)) :=
  ⟨⟨65536, 0, 0, seqA, { sequenced with sel := { indexes := Map.empty.set (idxKey 65536 0 0) { state := .none, entries := (List.range 64).map fun k => { page := k }, nBuild := 0 } } }, by decide +kernel⟩,
   ⟨65536, 0, 0, { sequenced with sel := { indexes := Map.empty.set (idxKey 65536 0 0) { state := .active, entries := (List.range 16).map fun k => { page := k }, nBuild := 8 } } }, by decide +kernel⟩,
   ⟨65536, 0, 0, { sequenced with sel := { indexes := Map.empty.set (idxKey 65536 0 0) { state := .active, entries := (List.range 15).map fun k => { page := k }, nBuild := 8 } } }, by decide +kernel⟩,
   ⟨65536, 0, 0, seqA, sequenced, by decide +kernel⟩,
   ⟨65536, 0, 0, seqR, indexing, by decide +kernel⟩,
   ⟨65536, 0, 0, { sequenced with sel := { indexes := Map.empty.set (idxKey 65536 0 0) { state := .rebuilding, entries := (List.range 16).map fun k => { page := k }, nBuild := 8 } } }, by decide +kernel⟩,
   meets (cmd (bytes [(6, 65536), (2, 0)]) 8 1) ({ sequenced with sel := { indexes := Map.empty.set (idxKey 65536 0 0) { state := .active, entries := (List.range 16).map fun k => { page := k }, nBuild := 8 } } }) (⟨by decide +kernel, seqA, by decide +kernel⟩),
   meets (cmd (bytes [(6, 65536), (2, 0)]) 8 1) ({ sequenced with sel := { indexes := Map.empty.set (idxKey 65536 0 0) { state := .none, entries := (List.range 16).map fun k => { page := k }, nBuild := 8 } } }) (⟨by decide +kernel, seqA, by decide +kernel⟩)⟩

theorem holds_somewhere_SelectorIsSet :
    (Meets rowSelHeatSet (fun d s => (∃ h, heatFor d s (byt d.body 0 1) = .ok h) ∧ rf (BitVec.ofNat 64 (byt d.body 8 15)) 57 52 ≤ rf (BitVec.ofNat 64 (byt d.body 8 15)) 51 46 ∧ objBusy s (.heat (byt d.body 0 1)) = false))
    ∧ (Meets rowSelHeatSet (fun d s => (∃ h, heatFor d s (byt d.body 0 1) = .ok h) ∧ rf (BitVec.ofNat 64 (byt d.body 8 15)) 51 46 < rf (BitVec.ofNat 64 (byt d.body 8 15)) 57 52))
    ∧ (Meets rowFilterBind (fun d s => objBusy s (.seq (byt d.body 0 5)) = false ∧ ∃ q, seqFor d (renewBy d s (byt d.body 0 5)) (byt d.body 0 5) = .ok q ∧ bitmapOk s (byt d.body 8 15) (byt d.body 16 23) (ceilDiv (q.maxCtxM1 + 1) (max 1 (mT (seqModel s q)))) = true))
    ∧ (Meets rowFilterUnbind (fun d s => objBusy s (.seq (byt d.body 0 5)) = false ∧ ∃ q, seqFor d (renewBy d s (byt d.body 0 5)) (byt d.body 0 5) = .ok q ∧ (q.filterNext.getD q.filter).isSome))
    ∧ (Meets rowFilterUnbind (fun d s => objBusy s (.seq (byt d.body 0 5)) = false ∧ ∃ q, seqFor d (renewBy d s (byt d.body 0 5)) (byt d.body 0 5) = .ok q ∧ q.filterNext.getD q.filter = none))
    ∧ (Meets rowAuditRead (fun d s => (∃ m, modelFor d s (byt d.body 0 1) = .ok m) ∧ byt d.body 8 15 % 64 = 0 ∧ hostStatus d.env.host = none)) :=
  ⟨meets (cmd (bytes [(8, 3), (8, selRecReset.toNat)]) 16 1) (heated) (⟨by decide +kernel, ⟨heatA, by decide +kernel⟩, by decide +kernel⟩),
   meets (cmd (bytes [(8, 3), (8, 2 ^ 52)]) 16 1) (heated) (⟨by decide +kernel, ⟨heatA, by decide +kernel⟩, by decide +kernel⟩),
   meets (cmd (bytes [(8, 65536), (8, 0), (8, 40960)]) 24 1) ({ sequenced with mem := { sequenced.mem with bulkShare := 2048 } }) (⟨by decide +kernel, by decide +kernel, seqA, by decide +kernel⟩),
   meets (cmd 65536 6 1) ({ sequenced with seqs := Map.empty.set 65536 { seqA with filter := some (0, 0) } }) (⟨by decide +kernel, by decide +kernel, { seqA with filter := some (0, 0) }, by decide +kernel⟩),
   meets (cmd 65536 6 1) (sequenced) (⟨by decide +kernel, by decide +kernel, seqA, by decide +kernel⟩),
   meets (cmd 1 16 1) (heated) (⟨by decide +kernel, ⟨{ record := smallModel }, by decide +kernel⟩, by decide +kernel⟩)⟩

theorem holds_somewhere_CollectionsAreKept :
    (Meets rowCollCreate (fun d s => byt d.body 1 1 ≤ 1 ∧ 0 < byt d.body 2 3 ∧ byt d.body 2 3 ≤ 4096 ∧ byt d.body 4 4 ≤ 2 ∧ 0 < byt d.body 16 18 ∧ selBad (BitVec.ofNat 64 (byt d.body 8 15)) = false ∧ getColl s d.domain.toNat (byt d.body 0 0) = none ∧ collBusy s d.domain.toNat (byt d.body 0 0) = false ∧ ∃ sl r, sliceOf s d.domain.toNat = some sl ∧ drawColl s sl d.domain.toNat (ceilDiv (byt d.body 16 18) (collPerFrame (byt d.body 1 1) (byt d.body 2 3)) + ceilDiv (byt d.body 16 18) (sketchesPerFrame (256 * 2 ^ byt d.body 4 4)) + ceilDiv (centroidCount (byt d.body 16 18) (sTarget (BitVec.ofNat 64 (byt d.body 8 15)))) (centsPerFrame (256 * 2 ^ byt d.body 4 4))) 0 = some r))
    ∧ (Meets rowCollCreate (fun d s => byt d.body 1 1 ≤ 1 ∧ 0 < byt d.body 2 3 ∧ byt d.body 2 3 ≤ 4096 ∧ byt d.body 4 4 ≤ 2 ∧ 0 < byt d.body 16 18 ∧ selBad (BitVec.ofNat 64 (byt d.body 8 15)) = false ∧ (getColl s d.domain.toNat (byt d.body 0 0)).isSome))
    ∧ (Meets rowCollDestroy (fun d s => ∃ c, getColl s d.domain.toNat (byt d.body 0 0) = some c ∧ (s.flights.any fun g => g.key == .coll d.domain.toNat (byt d.body 0 0)) = false))
    ∧ (Meets rowCollInsert (fun d s => hostStatus d.env.host = none ∧ ∃ c i, getColl s d.domain.toNat (byt d.body 0 0) = some c ∧ collBusy s d.domain.toNat (byt d.body 0 0) = false ∧ (c.items.any fun _ y => y == byt d.body 8 15) = false ∧ chooseFree s c.items c.capacity = some i))
    ∧ (Meets rowCollInsert (fun d s => ∃ c, getColl s d.domain.toNat (byt d.body 0 0) = some c ∧ collBusy s d.domain.toNat (byt d.body 0 0) = false ∧ (c.items.any fun _ y => y == byt d.body 8 15) = false ∧ chooseFree s c.items c.capacity = none))
    ∧ (Meets rowCollDelete (fun d s => ∃ c i, getColl s d.domain.toNat (byt d.body 0 0) = some c ∧ (s.flights.any fun g => g.key == .coll d.domain.toNat (byt d.body 0 0)) = false ∧ c.items.find? (fun _ y => y == byt d.body 8 15) = some (i, byt d.body 8 15)))
    ∧ (Meets rowCollDelete (fun d s => ∃ c, getColl s d.domain.toNat (byt d.body 0 0) = some c ∧ collBusy s d.domain.toNat (byt d.body 0 0) = false ∧ c.items.find? (fun _ y => y == byt d.body 8 15) = none)) :=
  ⟨meets (cmd (bytes [(2, 4), (2, 64), (4, 0), (8, 2 ^ 44 * 4 + 2 ^ 32 * 64 + 2 ^ 16 * 64), (3, 10)]) 19 1) ({ placed with mem := { placed.mem with pools := Map.empty.set 0 [20, 40, 60, 80] } }) (⟨by decide +kernel, by decide +kernel, by decide +kernel, by decide +kernel, by decide +kernel, by decide +kernel, by decide +kernel, by decide +kernel, by decide +kernel, 0, _, by decide +kernel, rfl⟩),
   meets (cmd (bytes [(2, 4), (2, 64), (4, 0), (8, 2 ^ 44 * 4 + 2 ^ 32 * 64 + 2 ^ 16 * 64), (3, 10)]) 19 1) ({ placed with sel := { colls := Map.empty.set (collKey 1 4) {} } }) (by decide +kernel),
   meets (cmd 4 1 1) ({ placed with sel := { colls := Map.empty.set (collKey 1 4) {} } }) (⟨by decide +kernel, {}, by decide +kernel⟩),
   meets (cmd (bytes [(8, 4), (16, 77)]) 24 1) ({ placed with sel := { colls := Map.empty.set (collKey 1 4) {} } }) (⟨by decide +kernel, by decide +kernel, {}, _, by decide +kernel, by decide +kernel, by decide +kernel, rfl⟩),
   meets (cmd (bytes [(8, 4), (16, 77)]) 24 1) ({ placed with sel := { colls := Map.empty.set (collKey 1 4) { items := Map.empty.set 0 5 } } }) (⟨by decide +kernel, { items := Map.empty.set 0 5 }, by decide +kernel⟩),
   meets (cmd (bytes [(8, 4), (8, 5)]) 16 1) ({ placed with sel := { colls := Map.empty.set (collKey 1 4) { items := Map.empty.set 0 5 } } }) (⟨by decide +kernel, { items := Map.empty.set 0 5 }, 0, by decide +kernel⟩),
   meets (cmd (bytes [(8, 4), (8, 6)]) 16 1) ({ placed with sel := { colls := Map.empty.set (collKey 1 4) { items := Map.empty.set 0 5 } } }) (⟨by decide +kernel, { items := Map.empty.set 0 5 }, by decide +kernel⟩)⟩

theorem holds_somewhere_CollectionsAreSearched :
    (Meets rowCollQuery (fun d s => hostStatus d.env.host = none ∧ byt d.body 10 11 = s.nodeNo ∧ fld d.body 101 96 = 0 ∧ ∃ c, getColl s d.domain.toNat (byt d.body 0 0) = some c ∧ queryBad s c d.body = false ∧ s.sel.merges.has (mergeKey d.domain.toNat (byt d.body 0 0) (byt d.body 16 19)) = false))
    ∧ (Meets rowCollQuery (fun d s => hostStatus d.env.host = none ∧ byt d.body 10 11 = s.nodeNo ∧ fld d.body 101 96 ≠ 0 ∧ ∃ c, getColl s d.domain.toNat (byt d.body 0 0) = some c ∧ queryBad s c d.body = false ∧ s.sel.merges.has (mergeKey d.domain.toNat (byt d.body 0 0) (byt d.body 16 19)) = false))
    ∧ (Meets rowCollQuery (fun d s => ∃ c, getColl s d.domain.toNat (byt d.body 0 0) = some c ∧ queryBad s c d.body = false ∧ s.sel.merges.has (mergeKey d.domain.toNat (byt d.body 0 0) (byt d.body 16 19)) = true))
    ∧ (∃ (m : MsgRef) (s : State), deliverable (clockTo s m.now) m 11 = none)
    ∧ (∃ (m : MsgRef) (s : State) (q : QueueSt) (r : RecvMsg) (x : MergeSt), deliverable (clockTo s m.now) m 11 = some (q, r) ∧ (delivered (clockTo s m.now) m.queue).sel.merges.get? (mergeKey q.domain (fld r.ext 95 88) (fld r.ext 127 96)) = some x ∧ x.got.length + 1 < x.need)
    ∧ (∃ (dom n id now : Nat) (x : MergeSt) (s : State), (clockTo s now).sel.merges.get? (mergeKey dom n id) = some x ∧ (clockTo s now).ns < x.deadline)
    ∧ (∃ (dom n id now : Nat) (x : MergeSt) (s : State), (clockTo s now).sel.merges.get? (mergeKey dom n id) = some x ∧ x.deadline ≤ (clockTo s now).ns) :=
  ⟨meets (cmdBuf (pack [(0, 8, 4), (16, 16, 1), (96, 6, 0), (112, 16, 10)]) 56 1) ({ placed with sel := { colls := Map.empty.set (collKey 1 4) { items := Map.empty.set 0 5 } } }) (⟨by decide +kernel, by decide +kernel, by decide +kernel, by decide +kernel, { items := Map.empty.set 0 5 }, by decide +kernel⟩),
   meets (cmdBuf (pack [(0, 8, 4), (16, 16, 1), (96, 6, 1), (112, 16, 10)]) 56 1) ({ placed with sel := { colls := Map.empty.set (collKey 1 4) { items := Map.empty.set 0 5 } } }) (⟨by decide +kernel, by decide +kernel, by decide +kernel, by decide +kernel, { items := Map.empty.set 0 5 }, by decide +kernel⟩),
   meets (cmdBuf (pack [(0, 8, 4), (16, 16, 1), (96, 6, 0), (112, 16, 10)]) 56 1) ({ { placed with sel := { colls := Map.empty.set (collKey 1 4) { items := Map.empty.set 0 5 } } } with sel := { colls := Map.empty.set (collKey 1 4) { items := Map.empty.set 0 5 }, merges := Map.empty.set (mergeKey 1 4 0) {} } }) (⟨by decide +kernel, { items := Map.empty.set 0 5 }, by decide +kernel⟩),
   ⟨{}, up, by decide +kernel⟩,
   ⟨{ queue := 70 }, merging, mergeQ, mergeR, { need := 3 }, by decide +kernel⟩,
   ⟨1, 4, 0, 0, { deadline := 5 }, { up with sel := { merges := Map.empty.set (mergeKey 1 4 0) { deadline := 5 } } }, by decide +kernel⟩,
   ⟨1, 4, 0, 6, { deadline := 5 }, { up with sel := { merges := Map.empty.set (mergeKey 1 4 0) { deadline := 5 } } }, by decide +kernel⟩⟩

theorem holds_somewhere_PagesAreSelected :
    (∃ (u : Uop) (r : Run) (id : Nat) (q : SeqSt) (s : State), runOf s u = some r ∧ u.parity = false ∧ u.tagBad = false ∧ slotSeq s r (refSlot u.a.toNat) = some (id, q) ∧ (operandElems s u r u.core.val (fld u.b.toNat 13 0) false (mHpg r.m * r.dk)).1 ≤ 1 ∧ (s.sel.queue.filter fun x => x.cluster == u.cl.val).length < 512 ∧ (∀ x ∈ s.sel.queue, x.cluster ≠ u.cl.val ∨ x.heat ≠ u.heat))
    ∧ (∃ (u : Uop) (r : Run) (id : Nat) (q : SeqSt) (s : State), runOf s u = some r ∧ u.parity = false ∧ slotSeq s r (refSlot u.a.toNat) = some (id, q) ∧ s.sel.lists.get? (listKey u.cl.val u.heat (refSlot u.a.toNat) (refGroup u.a.toNat) r.l.layer) = none)
    ∧ (∃ (u : Uop) (r : Run) (id : Nat) (q : SeqSt) (x : SelList) (s : State), runOf s u = some r ∧ u.parity = false ∧ slotSeq s r (refSlot u.a.toNat) = some (id, q) ∧ s.sel.lists.get? (listKey u.cl.val u.heat (refSlot u.a.toNat) (refGroup u.a.toNat) r.l.layer) = some x ∧ x.seq = id)
    ∧ (∃ (cl : Cluster) (n : Nat) (s : State), nextReq (clockTo s n) cl.val = none)
    ∧ (∃ (cl : Cluster) (n : Nat) (x : SelReq) (q : SeqSt) (s : State), nextReq (clockTo s n) cl.val = some x ∧ getQ (clockTo s n) x.seq = some q)
    ∧ (∃ (cl : Cluster) (s : State), (nextReq s cl.val).isSome)
    ∧ (∃ (cl : Cluster) (x : Audit) (q : SeqSt) (s : State), nextReq s cl.val = none ∧ nextAudit s cl.val = some x ∧ auditLate s x = false ∧ getQ s x.req.seq = some q)
    ∧ (∃ (cl : Cluster) (x : Audit) (q : SeqSt) (s : State), nextAudit s cl.val = some x ∧ auditLate s x = true ∧ getQ s x.req.seq = some q)
    ∧ (∃ (cl : Cluster) (x : Audit) (s : State), nextAudit s cl.val = some x ∧ auditLate s x = false) :=
  ⟨⟨{ heat := 3 }, lapRun, 65536, seqL, lapping, ⟨rfl, by decide +kernel, by decide +kernel, by decide +kernel, by decide +kernel, by decide +kernel, by decide +kernel⟩⟩,
   ⟨{ heat := 3 }, lapRun, 65536, seqL, lapping, ⟨rfl, by decide +kernel, by decide +kernel, by decide +kernel⟩⟩,
   ⟨{ heat := 3 }, lapRun, 65536, seqL, { seq := 65536 }, { lapping with sel := { lists := Map.empty.set (listKey 0 3 0 0 0) { seq := 65536 } } }, ⟨rfl, by decide +kernel, by decide +kernel, by decide +kernel, by decide +kernel⟩⟩,
   ⟨0, 0, lapping, by decide +kernel⟩,
   ⟨0, 0, { heat := 3, seq := 65536 }, seqL, { lapping with sel := { queue := [{ heat := 3, seq := 65536 }] } }, by decide +kernel⟩,
   ⟨0, { lapping with sel := { queue := [{ heat := 3, seq := 65536 }] } }, by decide +kernel⟩,
   ⟨0, { req := { seq := 65536 } }, seqL, { lapping with sel := { audits := [{ req := { seq := 65536 } }] } }, by decide +kernel⟩,
   ⟨0, { req := { seq := 65536 } }, seqL, { lapping with sel := { audits := [{ req := { seq := 65536 } }] }, mem := { lapping.mem with lapNo := 64 } }, by decide +kernel⟩,
   ⟨0, { req := { seq := 65536 } }, { lapping with sel := { audits := [{ req := { seq := 65536 } }] } }, by decide +kernel⟩⟩

theorem holds_somewhere_OperationsBelongToLaps :
    (∃ (u : Uop) (s : State), runOf s u = none) :=
  ⟨{}, up, rfl⟩

theorem holds_somewhere_RowsAreComputed :
    (∃ (u : Uop) (r : Run) (s : State), runOf s u = some r ∧ u.parity = false ∧ fld u.c.toNat 19 16 ≤ 7)
    ∧ (∃ (u : Uop) (r : Run) (id : Nat) (q : SeqSt) (s : State), runOf s u = some r ∧ u.parity = false ∧ fld u.c.toNat 15 0 = mHeadDim r.m ∧ 0 < mHeadDim r.m ∧ (let x := operandElems s u r u.core.val (fld u.a.toNat 13 0) (bit u.a.toNat 14) (mHeadDim r.m); x.1 ≤ 7) ∧ (let x := operandElems s u r u.core.val (fld u.a.toNat 13 0) (bit u.a.toNat 14) (mHeadDim r.m); slotSeq s r (x.2.2.getD 0 / 1024) = some (id, q)))
    ∧ (∃ (u : Uop) (r : Run) (s : State), runOf s u = some r ∧ u.parity = false ∧ u.tagBad = false ∧ bit u.b.toNat 31 = false ∧ fld u.extA.toNat 20 16 ≤ 6 ∧ fld u.extB.toNat 20 16 ≤ 6)
    ∧ (∃ (u : Uop) (r : Run) (s : State), runOf s u = some r ∧ u.parity = false ∧ u.tagBad = false ∧ bit u.b.toNat 31 = true ∧ u.weightBad = true ∧ fld u.extA.toNat 20 16 ≤ 6 ∧ fld u.extB.toNat 20 16 ≤ 6)
    ∧ (∃ (u : Uop) (r : Run) (s : State), runOf s u = some r ∧ u.parity = false)
    ∧ (∃ (u : Uop) (r : Run) (s : State), runOf s u = some r ∧ u.parity = false)
    ∧ (∃ (u : Uop) (r : Run) (s : State), runOf s u = some r ∧ u.parity = false) :=
  ⟨⟨{ heat := 3 }, lapRun, lapping, ⟨rfl, by decide +kernel, by decide +kernel⟩⟩,
   ⟨{ heat := 3, c := 64 }, lapRun, 65536, seqL, lapping, ⟨rfl, by decide +kernel, by decide +kernel, by decide +kernel, by decide +kernel, by decide +kernel⟩⟩,
   ⟨{ heat := 3 }, lapRun, lapping, ⟨rfl, by decide +kernel, by decide +kernel, by decide +kernel, by decide +kernel, by decide +kernel⟩⟩,
   ⟨{ heat := 3, b := 0x80000000, weightBad := true }, lapRun, lapping, ⟨rfl, by decide +kernel, by decide +kernel, by decide +kernel, by decide +kernel, by decide +kernel, by decide +kernel⟩⟩,
   ⟨{ heat := 3 }, lapRun, lapping, ⟨rfl, by decide +kernel⟩⟩,
   ⟨{ heat := 3 }, lapRun, lapping, ⟨rfl, by decide +kernel⟩⟩,
   ⟨{ heat := 3 }, lapRun, lapping, ⟨rfl, by decide +kernel⟩⟩⟩

theorem holds_somewhere_PagesAreAttended :
    (∃ (u : Uop) (r : Run) (x : LapPage) (b : BufPage) (s : State), runOf s u = some r ∧ u.parity = false ∧ u.tagBad = false ∧ pageRef r u.a.toNat = some x ∧ x.excluded = false ∧ pageCopy s u.cl.val u.heat (fld u.b.toNat 16 0) x.frame = some b ∧ b.authOk = true ∧ pageGood s (hDomain r.h.record) b.copy = true ∧ (pageOpenBytes b.copy (mHeadDim r.m)).isSome)
    ∧ (∃ (u : Uop) (r : Run) (x : LapPage) (s : State), runOf s u = some r ∧ u.parity = false ∧ u.tagBad = false ∧ pageRef r u.a.toNat = some x ∧ x.excluded = false ∧ pageCopy s u.cl.val u.heat (fld u.b.toNat 16 0) x.frame = none)
    ∧ (∃ (u : Uop) (r : Run) (x : LapPage) (s : State), runOf s u = some r ∧ u.parity = false ∧ pageRef r u.a.toNat = some x ∧ x.excluded = true)
    ∧ (∃ (u : Uop) (r : Run) (x : LapPage) (p lo hi : Nat) (s : State), runOf s u = some r ∧ u.parity = false ∧ u.tagBad = false ∧ bit u.c.toNat 1 = false ∧ heldPage s r u = some (x, p, lo, hi) ∧ (operandElems s u r u.core.val (fld u.b.toNat 13 0) (attInput u.b.toNat) (attHeads u.b.toNat * r.dk)).1 ≤ 1)
    ∧ (∃ (u : Uop) (r : Run) (s : State), runOf s u = some r ∧ u.parity = false ∧ bit u.c.toNat 1 = true ∧ heldPage s r u = none)
    ∧ (∃ (u : Uop) (r : Run) (y : AttPend) (x : LapPage) (p lo hi : Nat) (s : State), runOf s u = some r ∧ u.parity = false ∧ r.v.scores.get? u.core.val = some y ∧ heldPage s r u = some (x, p, lo, hi) ∧ y.a = u.a.toNat ∧ y.b = u.b.toNat ∧ y.c = u.c.toNat ∧ y.first = lo) :=
  ⟨⟨{ heat := 3 }, lapRun, pageA, copyA, lapping, ⟨rfl, by decide +kernel, by decide +kernel, by decide +kernel, by decide +kernel, by decide +kernel, by decide +kernel, by decide +kernel, by decide +kernel⟩⟩,
   ⟨{ heat := 3, b := 1 }, lapRun, pageA, lapping, ⟨rfl, by decide +kernel, by decide +kernel, by decide +kernel, by decide +kernel, by decide +kernel⟩⟩,
   ⟨{ heat := 3 }, lapRun ({ inCluster with work := { pages := Map.empty.set 0 [{ pageA with excluded := true }] } }), { pageA with excluded := true }, lapping ({ inCluster with work := { pages := Map.empty.set 0 [{ pageA with excluded := true }] } }), ⟨rfl, by decide +kernel, by decide +kernel, by decide +kernel⟩⟩,
   ⟨{ heat := 3 }, lapRun ({ inCluster with expander := Map.empty.set 0 {} }), pageA, 0, 0, 20, lapping ({ inCluster with expander := Map.empty.set 0 {} }), ⟨rfl, by decide +kernel, by decide +kernel, by decide +kernel, by decide +kernel, by decide +kernel⟩⟩,
   ⟨{ heat := 3, c := 2 }, lapRun, lapping, ⟨rfl, by decide +kernel, by decide +kernel, by decide +kernel⟩⟩,
   ⟨{ heat := 3 }, lapRun ({ inCluster with expander := Map.empty.set 0 {}, scores := Map.empty.set 0 {} }), {}, pageA, 0, 0, 20, lapping ({ inCluster with expander := Map.empty.set 0 {}, scores := Map.empty.set 0 {} }), ⟨rfl, by decide +kernel, by decide +kernel, by decide +kernel, by decide +kernel, by decide +kernel, by decide +kernel, by decide +kernel⟩⟩⟩

theorem holds_somewhere_PagesAreReadAndWritten :
    (∃ (u : Uop) (r : Run) (f : Nat) (s : State), runOf s u = some r ∧ u.parity = false ∧ claimFrame r s u = some f ∧ (getFr s f).damaged = false ∧ lapReadable (getFr s f) = true)
    ∧ (∃ (u : Uop) (r : Run) (s : State), runOf s u = some r ∧ u.parity = false ∧ claimFrame r s u = none)
    ∧ (∃ (u : Uop) (r : Run) (x : LapPage) (b : BufPage) (s : State), runOf s u = some r ∧ u.parity = false ∧ pageRef r u.a.toNat = some x ∧ pageCopy s u.cl.val u.heat (fld u.b.toNat 16 0) x.frame = some b ∧ b.copy ≠ (getFr s x.frame).data ∧ (getFr s x.frame).state = .opened ∧ (getFr s x.frame).domain = hDomain r.h.record)
    ∧ (∃ (u : Uop) (r : Run) (x : LapPage) (b : BufPage) (s : State), runOf s u = some r ∧ u.parity = false ∧ pageRef r u.a.toNat = some x ∧ pageCopy s u.cl.val u.heat (fld u.b.toNat 16 0) x.frame = some b ∧ b.copy = (getFr s x.frame).data)
    ∧ (∃ (u : Uop) (r : Run) (x : LapPage) (b : BufPage) (id : Nat) (q : SeqSt) (s : State), runOf s u = some r ∧ u.parity = false ∧ u.tagBad = false ∧ pageRef r u.a.toNat = some x ∧ slotSeq s r (refSlot u.a.toNat) = some (id, q) ∧ (getSlot r.h (refSlot u.a.toNat)).part = .appends ∧ 0 < r.shape.t ∧ x.page = q.length / r.shape.t ∧ (getFr s x.frame).state = .opened ∧ q.length % r.shape.t + 1 ≠ r.shape.t ∧ pageCopy s u.cl.val u.heat (appendAddr r.image (ttIndex s r.h u.cl.val) u) x.frame = some b)
    ∧ (∃ (u : Uop) (r : Run) (s : State), runOf s u = some r ∧ u.parity = false ∧ maxSeals r.image ≤ r.v.seals)
    ∧ (∃ (u : Uop) (r : Run) (id f : Nat) (d : PageData) (s : State), runOf s u = some r ∧ u.parity = false ∧ u.tagBad = false ∧ r.v.seals < maxSeals r.image ∧ 0 < r.shape.t ∧ sealTarget r s u = some (id, f, d)) :=
  ⟨⟨{ heat := 3 }, lapRun, 20, lapping, ⟨rfl, by decide +kernel, by decide +kernel, by decide +kernel, by decide +kernel⟩⟩,
   ⟨{ heat := 3, a := 0x400000 }, lapRun, lapping, ⟨rfl, by decide +kernel, by decide +kernel⟩⟩,
   ⟨{ heat := 3 }, lapRun, pageA, { copyA with copy := { copyA.copy with payload := 1 } }, lapping (b := { copyA with copy := { copyA.copy with payload := 1 } }), ⟨rfl, by decide +kernel, by decide +kernel, by decide +kernel, by decide +kernel, by decide +kernel, by decide +kernel⟩⟩,
   ⟨{ heat := 3 }, lapRun, pageA, copyA, lapping, ⟨rfl, by decide +kernel, by decide +kernel, by decide +kernel, by decide +kernel⟩⟩,
   ⟨{ heat := 3 }, lapRun, pageA, copyA, 65536, seqL, lapping, ⟨rfl, by decide +kernel, by decide +kernel, by decide +kernel, by decide +kernel, by decide +kernel, by decide +kernel, by decide +kernel, by decide +kernel, by decide +kernel, by decide +kernel⟩⟩,
   ⟨{ heat := 3 }, lapRun { inCluster with seals := 4 }, lapping { inCluster with seals := 4 }, ⟨rfl, by decide +kernel, by decide +kernel⟩⟩,
   ⟨{ heat := 3 }, lapRun, 65536, 20, ({ frameA with data := { frameA.data with hdr := { filled := 64 } } }).data, lapping (f := { frameA with data := { frameA.data with hdr := { filled := 64 } } }) (b := { copyA with copy := ({ frameA with data := { frameA.data with hdr := { filled := 64 } } }).data }), ⟨rfl, by decide +kernel, by decide +kernel, by decide +kernel, by decide +kernel, by decide +kernel⟩⟩⟩

theorem holds_somewhere_StepsAreMarked :
    (∃ (f : Func) (off : Nat), inStepWindow f off = false)
    ∧ (∃ (p : Port) (f : Func) (off len k : Nat) (h : HeatSt) (s : State), inStepWindow f off = true ∧ 0 < len ∧ off % 64 + len ≤ 64 ∧ heatAt s p f off = some k ∧ getH s k = some h ∧ bankBusy h ((off - h.stepBase) / h.bankBytes) = false)
    ∧ (∃ (p : Port) (f : Func) (off len k : Nat) (h : HeatSt) (s : State), inStepWindow f off = true ∧ 0 < len ∧ off % 64 + len ≤ 64 ∧ heatAt s p f off = some k ∧ getH s k = some h ∧ bankBusy h ((off - h.stepBase) / h.bankBytes) = true)
    ∧ (∃ (s : State), s.sec.mod = .error)
    ∧ (∃ (k size : Nat) (v : Word) (s : State), s.sec.mod ≠ .error ∧ (size ≠ 8 ∨ rf v 31 12 ≠ 0 ∨ rf v 11 0 ≠ k))
    ∧ (∃ (p : Port) (f : Func) (now k : Nat) (v : Word) (h : HeatSt) (s : State), s.sec.mod ≠ .error ∧ rf v 31 12 = 0 ∧ rf v 11 0 = k ∧ getH (clockTo s now) k = some h ∧ h.doomed = false ∧ heatVisible (clockTo s now) p f h = true ∧ hCtrlPort h.record = p ∧ h.last = some (BitVec.ofNat 32 (rf v 63 32)))
    ∧ (∃ (p : Port) (f : Func) (now k : Nat) (v : Word) (h : HeatSt) (s : State), s.sec.mod ≠ .error ∧ rf v 31 12 = 0 ∧ rf v 11 0 = k ∧ getH (clockTo s now) k = some h ∧ h.doomed = false ∧ heatVisible (clockTo s now) p f h = true ∧ hCtrlPort h.record = p ∧ h.last ≠ some (BitVec.ofNat 32 (rf v 63 32)) ∧ (clockTo s now).fenced = false ∧ BitVec.ofNat 32 (rf v 63 32) = h.expected ∧ h.state = .running ∧ (getBank h (h.expected.toNat % 2)).poisoned = false ∧ claimsQuarantined (clockTo s now) h = false ∧ (clockTo s now).boot.failed = false ∧ h.held = none)
    ∧ (∃ (p : Port) (f : Func) (now k : Nat) (v : Word) (h : HeatSt) (s : State), s.sec.mod ≠ .error ∧ rf v 31 12 = 0 ∧ rf v 11 0 = k ∧ getH (clockTo s now) k = some h ∧ h.doomed = false ∧ heatVisible (clockTo s now) p f h = true ∧ hCtrlPort h.record = p ∧ h.last ≠ some (BitVec.ofNat 32 (rf v 63 32)) ∧ (clockTo s now).fenced = true) :=
  ⟨⟨0, 0, by decide +kernel⟩,
   ⟨0, 0, 0x20000000, 4, 3, heatW, windowed, by decide +kernel⟩,
   ⟨0, 0, 0x20000000, 4, 3, { heatW with lap := some {} }, windowed { heatW with lap := some {} }, by decide +kernel⟩,
   ⟨{ up with sec := { up.sec with mod := .error } }, by decide +kernel⟩,
   ⟨3, 4, 0, up, by decide +kernel⟩,
   ⟨0, 0, 0, 3, 3, { heatW with last := some 0 }, windowed { heatW with last := some 0 }, by decide +kernel⟩,
   ⟨0, 0, 0, 3, 3, heatW, windowed, by decide +kernel⟩,
   ⟨0, 0, 0, 3, 3, heatW, { windowed with fenced := true }, by decide +kernel⟩⟩

theorem holds_somewhere_LapsRunInClusters :
    (∃ (k : Nat) (c : Cluster) (n : Nat) (s : State), canStart (clockTo s n) k c.val = false)
    ∧ (∃ (k : Nat) (c : Cluster) (n : Nat) (s : State), canStart (clockTo s n) k c.val = true)
    ∧ (∃ (u : Uop) (v : LapCl) (s : State), getCl s u.heat u.cl.val = some v ∧ (v.phase ≠ .running ∨ (getC s u.cl.val).holder ≠ some u.heat))
    ∧ (∃ (u : Uop) (e : Nat) (v : LapCl) (h : HeatSt) (s : State), getCl s u.heat u.cl.val = some v ∧ getH s u.heat = some h ∧ v.phase = .running ∧ (getC s u.cl.val).holder = some u.heat ∧ u.a.toNat = v.hurdle ∧ v.parity = false ∧ u.parity = false ∧ v.faults = [] ∧ hurdleOf (heatImage s h) (ttIndex s h u.cl.val) v.hurdle = some e ∧ hPreempt e = false)
    ∧ (∃ (u : Uop) (e : Nat) (v : LapCl) (h : HeatSt) (s : State), getCl s u.heat u.cl.val = some v ∧ getH s u.heat = some h ∧ v.phase = .running ∧ (getC s u.cl.val).holder = some u.heat ∧ u.a.toNat = v.hurdle ∧ (v.parity = true ∨ u.parity = true) ∧ v.attempts < 3 ∧ v.faults = [] ∧ hurdleOf (heatImage s h) (ttIndex s h u.cl.val) v.hurdle = some e)
    ∧ (∃ (u : Uop) (e : Nat) (v : LapCl) (h : HeatSt) (s : State), getCl s u.heat u.cl.val = some v ∧ getH s u.heat = some h ∧ v.phase = .running ∧ (getC s u.cl.val).holder = some u.heat ∧ u.a.toNat = v.hurdle ∧ (v.parity = true ∨ u.parity = true) ∧ v.attempts = 3 ∧ hurdleOf (heatImage s h) (ttIndex s h u.cl.val) v.hurdle = some e ∧ (getC s u.cl.val).quarantined = false)
    ∧ (∃ (u : Uop) (v : LapCl) (h : HeatSt) (s : State), getCl s u.heat u.cl.val = some v ∧ getH s u.heat = some h ∧ v.phase = .running ∧ (getC s u.cl.val).holder = some u.heat ∧ v.parity = false ∧ u.parity = false ∧ v.faults = [] ∧ (∀ k x, getH s k = some x → k ≠ u.heat → x.lap = none) ∧ s.heats.wf = true)
    ∧ (∃ (k : Nat) (c : Cluster) (n : Nat) (v : LapCl) (s : State), getCl (clockTo s n) k c.val = some v ∧ v.phase ≠ .faultPark)
    ∧ (∃ (k : Nat) (c : Cluster) (n : Nat) (v : LapCl) (s : State), getCl (clockTo s n) k c.val = some v ∧ v.phase = .faultPark ∧ (getC (clockTo s n) c.val).holder.isSome) :=
  ⟨⟨3, 0, 0, lapping, by decide +kernel⟩,
   ⟨3, 0, 0, { lapping {} with clusters := .empty }, by decide +kernel⟩,
   ⟨{ heat := 3 }, {}, lapping {}, by decide +kernel⟩,
   ⟨{ heat := 3 }, courseImage / 1 % 2 ^ 128, inCluster, heatOf (lapOf inCluster), lapping inCluster (image := hurdleCourse), by decide +kernel⟩,
   ⟨{ heat := 3 }, courseImage / 1 % 2 ^ 128, { inCluster with parity := true }, heatOf (lapOf ({ inCluster with parity := true })), lapping ({ inCluster with parity := true }) (image := hurdleCourse), by decide +kernel⟩,
   ⟨{ heat := 3 }, courseImage / 1 % 2 ^ 128, { inCluster with parity := true, attempts := 3 }, heatOf (lapOf ({ inCluster with parity := true, attempts := 3 })), lapping ({ inCluster with parity := true, attempts := 3 }) (image := hurdleCourse), by decide +kernel⟩,
   ⟨{ heat := 3 }, inCluster, heatOf (lapOf inCluster), lapping inCluster, ⟨by decide +kernel, by decide +kernel, by decide +kernel, by decide +kernel, by decide +kernel, by decide +kernel, by decide +kernel, fun k x g c => absurd (only_heat rfl g).1 c, by decide +kernel⟩⟩,
   ⟨3, 0, 0, inCluster, lapping, by decide +kernel⟩,
   ⟨3, 0, 0, { phase := .faultPark }, lapping { phase := .faultPark }, by decide +kernel⟩⟩

theorem holds_somewhere_ResultsAreRelayed :
    (∃ (u : Uop) (r : Run) (k : Nat) (s : State), runOf s u = some r ∧ u.parity = false ∧ u.tagBad = false ∧ bit u.c.toNat 0 = false ∧ (readStats s u u.core.val (fld u.a.toNat 13 0) r.dv (bitsOf (fld u.a.toNat 31 16) 16).length).2 = some k)
    ∧ (∃ (u : Uop) (r : Run) (s : State), runOf s u = some r ∧ u.parity = false ∧ u.tagBad = false ∧ bit u.c.toNat 0 = true ∧ (let x := operandUnits s u r u.core.val (fld u.a.toNat 13 0) false (fld u.b.toNat 15 0); (x.headD {}).fmt = 7))
    ∧ (∃ (k n : Nat) (s : State), relayRun (clockTo s n) k = none)
    ∧ (∃ (k n : Nat) (r : Run) (s : State), relayRun (clockTo s n) k = some r ∧ r.l.folded = false ∧ batonsReady (clockTo s n) r = true ∧ projects r = true ∧ r.l.heads = none)
    ∧ (∃ (k n : Nat) (r : Run) (s : State), relayRun (clockTo s n) k = some r ∧ r.l.folded = false ∧ batonsReady (clockTo s n) r = true ∧ (projects r = true → r.l.heads.isSome ∧ sharesReady (clockTo s n) r = true) ∧ r.h.master = none ∧ stripesReady (clockTo s n) r = true ∧ hInt r.h.record = false)
    ∧ (∃ (k n : Nat) (r : Run) (s : State), relayRun (clockTo s n) k = some r ∧ r.l.folded = true)
    ∧ (∃ (m : MsgRef) (s : State), deliverable (clockTo s m.now) m 10 = none)
    ∧ (∃ (m : MsgRef) (q : QueueSt) (x : RecvMsg) (s : State), deliverable (clockTo s m.now) m 10 = some (q, x) ∧ relayRun (clockTo s m.now) (fld x.ext 23 12) = none)
    ∧ (∃ (m : MsgRef) (q : QueueSt) (x : RecvMsg) (r : Run) (sq : SeqSt) (i : Nat) (s : State), deliverable (clockTo s m.now) m 10 = some (q, x) ∧ relayRun (clockTo s m.now) (fld x.ext 23 12) = some r ∧ (getSlot r.h (fld x.ext 33 24)).seq.bind (getQ (clockTo s m.now)) = some sq ∧ (sq.stripes.findIdx? fun n => n == qPeerNode q) = some i ∧ r.h.master = none ∧ r.l.step.toNat = fld x.ext 127 96 ∧ hDomain r.h.record = q.domain)
    ∧ (∃ (k n : Nat) (r : Run) (s : State), relayRun (clockTo s n) k = some r ∧ (r.l.folded = false ∨ (r.l.cls.all fun _ v => clusterDone v) = false))
    ∧ (∃ (k n : Nat) (r : Run) (s : State), relayRun (clockTo s n) k = some r ∧ r.l.folded = true ∧ (r.l.cls.all fun _ v => clusterDone v) = true ∧ r.h.doomed = false ∧ (∀ j h, getH (clockTo s n) j = some h → h.held = none)) :=
  ⟨⟨{ heat := 3, a := 0x10000 }, lapRun, 0, lapping, ⟨rfl, by decide +kernel, by decide +kernel, by decide +kernel, by decide +kernel⟩⟩,
   ⟨{ heat := 3, c := 1, a := 1 }, lapRun, lapping, ⟨rfl, by decide +kernel, by decide +kernel, by decide +kernel, by decide +kernel⟩⟩,
   ⟨3, 0, up, rfl⟩,
   ⟨3, 0, lapRun {} (m := projRecord) (l := lapOf { phase := .ended }), lapping (l := lapOf { phase := .ended }) (m := projRecord), ⟨rfl, by decide +kernel, by decide +kernel, by decide +kernel, by decide +kernel⟩⟩,
   ⟨3, 0, lapRun {} (l := lapOf { phase := .ended }), lapping (l := lapOf { phase := .ended }), ⟨rfl, by decide +kernel, by decide +kernel, fun h => absurd h (by decide +kernel), by decide +kernel, by decide +kernel, by decide +kernel⟩⟩,
   ⟨3, 0, lapRun {} (l := { lapOf { phase := .ended } with folded := true }), lapping (l := { lapOf { phase := .ended } with folded := true }), ⟨rfl, by decide +kernel⟩⟩,
   ⟨{}, up, rfl⟩,
   ⟨{ queue := 70 }, batonQ, { op := 10, complete := true, ext := pack [(12, 12, 3)] }, { relaying with heats := .empty }, ⟨rfl, rfl⟩⟩,
   ⟨{ queue := 70 }, batonQ, { op := 10, complete := true, ext := pack [(12, 12, 3)] }, lapRun {} (l := lapOf inCluster), { seqL with stripes := [2] }, 0, relaying, ⟨rfl, rfl, by decide +kernel, by decide +kernel, by decide +kernel, by decide +kernel, by decide +kernel⟩⟩,
   ⟨3, 0, lapRun {} (l := lapOf inCluster), lapping, ⟨rfl, by decide +kernel⟩⟩,
   ⟨3, 0, lapRun {} (l := { lapOf { phase := .ended } with folded := true }), lapping (l := { lapOf { phase := .ended } with folded := true }), ⟨rfl, by decide +kernel, by decide +kernel, by decide +kernel, fun j h g => (only_heat rfl g).2 ▸ rfl⟩⟩⟩

theorem holds_somewhere_ChannelsAreKept :
    (Meets rowDramConfig (fun d _ => byt d.body 0 0 ≤ 19 ∧ 4 ≤ fld (byt d.body 8 10) 23 16 ∧ fld (byt d.body 8 10) 23 16 ≤ 96 ∧ 2 ≤ fld (byt d.body 8 10) 15 8 ∧ fld (byt d.body 8 10) 15 8 ≤ 100 ∧ fld (byt d.body 8 10) 7 0 ≠ 0))
    ∧ (Meets rowDramConfig (fun d _ => byt d.body 0 0 = 255 ∧ 4 ≤ fld (byt d.body 8 10) 23 16 ∧ fld (byt d.body 8 10) 23 16 ≤ 96 ∧ 2 ≤ fld (byt d.body 8 10) 15 8 ∧ fld (byt d.body 8 10) 15 8 ≤ 100 ∧ fld (byt d.body 8 10) 7 0 ≠ 0))
    ∧ (Meets rowDramConfig (fun d _ => (19 < byt d.body 0 0 ∧ byt d.body 0 0 ≠ 255) ∨ fld (byt d.body 8 10) 23 16 < 4 ∨ 96 < fld (byt d.body 8 10) 23 16 ∨ fld (byt d.body 8 10) 15 8 < 2 ∨ 100 < fld (byt d.body 8 10) 15 8 ∨ fld (byt d.body 8 10) 7 0 = 0))
    ∧ (Meets rowDramStatus (fun d _ => byt d.body 0 0 ≤ 19))
    ∧ (Meets rowDramStatus (fun d _ => 19 < byt d.body 0 0))
    ∧ (∃ (c : Cluster) (s : State), frameRuns (getCh s c.val) = true)
    ∧ (∃ (c : Cluster) (s : State), frameRuns (getCh s c.val) = false)
    ∧ (∃ (c : Cluster) (a b l : Nat) (s : State), frameRuns (getCh s c.val) = true ∧ (getCh s c.val).state ≠ .mismatch ∧ warnEye (getCh s c.val) ≤ min a 255 ∧ warnEye (getCh s c.val) ≤ min b 255 ∧ warnMv (getCh s c.val) ≤ min l 255)
    ∧ (∃ (c : Cluster) (a : Nat) (s : State), frameRuns (getCh s c.val) = true ∧ 2 * min a 255 < warnEye (getCh s c.val)) :=
  ⟨meets (cmd (bytes [(8, 0), (8, 0x101001)]) 16) (up) (by decide +kernel),
   meets (cmd (bytes [(8, 255), (8, 0x101001)]) 16) (up) (by decide +kernel),
   meets (cmd (bytes [(8, 20), (8, 0x101001)]) 16) (up) (by decide +kernel),
   meets (cmd 0 1) (up) (by decide +kernel),
   meets (cmd 20 1) (up) (by decide +kernel),
   ⟨0, { up with chans := Map.empty.set 0 { state := .trained } }, by decide +kernel⟩,
   ⟨0, up, by decide +kernel⟩,
   ⟨0, 200, 200, 200, { up with chans := Map.empty.set 0 { state := .trained } }, by decide +kernel⟩,
   ⟨0, 0, { up with chans := Map.empty.set 0 { state := .trained } }, by decide +kernel⟩⟩

theorem holds_somewhere_BulkWindowAndRowOperations :
    (∃ (p : Port) (o l : Nat) (s : State), (getPort s p).linkUp = true ∧ inWindow s o l = false)
    ∧ (∃ (p : Port) (o l n : Nat) (s : State), (getPort s p).linkUp = true ∧ inWindow s o l = true ∧ failedGranule s o l = none ∧ n < 4)
    ∧ (∃ (p : Port) (o l w : Nat) (s : State), (getPort s p).linkUp = true ∧ inWindow s o l = true ∧ failedGranule s o l = some w)
    ∧ (∃ (p : Port) (o l : Nat) (s : State), (getPort s p).linkUp = true ∧ inWindow s o l = false)
    ∧ (∃ (p : Port) (o l : Nat) (s : State), (getPort s p).linkUp = true ∧ inWindow s o l = true ∧ failedGranule s o l = none ∧ memWf s.bulk = true)
    ∧ (∃ (p : Port) (s : State), (getPort s p).linkUp = false)
    ∧ (Meets rowRowOp (fun d s => rowBad s (fld d.body 2 0) (fld d.body 63 32) (fld d.body 127 64) (fld d.body 191 128) (fld d.body 255 192) = false ∧ s.rowOps.length < 16))
    ∧ (Meets rowRowOp (fun d s => rowBad s (fld d.body 2 0) (fld d.body 63 32) (fld d.body 127 64) (fld d.body 191 128) (fld d.body 255 192) = false ∧ 16 ≤ s.rowOps.length))
    ∧ (Meets rowRowOp (fun d s => rowBad s (fld d.body 2 0) (fld d.body 63 32) (fld d.body 127 64) (fld d.body 191 128) (fld d.body 255 192) = true))
    ∧ (∃ (s : State), s.rowOps = [])
    ∧ (∃ (c : Cluster) (o : RowOpSt) (s : State), s.rowOps = [o] ∧ o.doneRows.getD c.val 0 + 8 < o.rows ∧ (getCh s c.val).state ≠ .failed ∧ memWf s.bulk = true)
    ∧ (∃ (c : Cluster) (o : RowOpSt) (s : State), s.rowOps = [o] ∧ o.op = 1 ∧ o.rows = 1 ∧ o.doneRows.getD c.val 0 = 0 ∧ (getCh s c.val).state ≠ .failed ∧ memWf s.bulk = true ∧ o.dst % 40960 = 0)
    ∧ (∃ (s : State), pageOn s = true ∧ s.sec.metaRekeying = none ∧ s.sec.metaKey.isSome) :=
  ⟨⟨0, 0, 64, tenant, by decide +kernel⟩,
   ⟨0, 0, 64, 0, bulked, by decide +kernel⟩,
   ⟨0, 0, 64, 0, { bulked with chans := Map.empty.set 0 { state := .failed } }, by decide +kernel⟩,
   ⟨0, 0, 64, tenant, by decide +kernel⟩,
   ⟨0, 0, 64, bulked, by decide +kernel⟩,
   ⟨1, tenant, by decide +kernel⟩,
   meets (cmd (2 ^ 32 + 1) 32) (bulked) (by decide +kernel),
   meets (cmd (2 ^ 32 + 1) 32) ({ bulked with rowOps := List.replicate 16 {} }) (by decide +kernel),
   meets (cmd 7 32) (bulked) (by decide +kernel),
   ⟨up, by decide +kernel⟩,
   ⟨0, { rows := 9 }, { up with rowOps := [{ rows := 9 }] }, by decide +kernel⟩,
   ⟨0, { op := 1, rows := 1 }, { up with rowOps := [{ op := 1, rows := 1 }] }, by decide +kernel⟩,
   ⟨placed, by decide +kernel⟩⟩

theorem holds_somewhere_FramesAreKept :
    (∃ (sl : Nat) (c : Cluster) (f : Nat) (s : State), pageOn s = true ∧ (getS s sl).state = .enabled ∧ (sliceClusters s sl).contains c.val = true ∧ (getC s c.val).quarantined = false ∧ frameOk s f = true ∧ f % 20 = c.val ∧ (getFr s f).state = .free ∧ inPool s f = false ∧ (poolOf s sl c.val).length < reserveDepth s)
    ∧ (∃ (sl : Nat) (c : Cluster) (s : State), reserveDepth s ≤ (poolOf s sl c.val).length)
    ∧ (∃ (f : Nat) (s : State), ((getFr s f).retiring = false ∨ (getFr s f).refs ≠ 0 ∨ (getFr s f).pins ≠ 0 ∨ (getFr s f).test = true ∨ lapsClear s f = false))
    ∧ (∃ (f : Nat) (s : State), (getFr s f).retiring = true ∧ (getFr s f).refs = 0 ∧ (getFr s f).pins = 0 ∧ (getFr s f).test = false ∧ lapsClear s f = true ∧ (getFr s f).slack = none ∧ (getFr s f).damaged = false)
    ∧ (∃ (f : Nat) (s : State), (getFr s f).retiring = true ∧ (getFr s f).refs = 0 ∧ (getFr s f).pins = 0 ∧ (getFr s f).test = false ∧ lapsClear s f = true ∧ (getFr s f).slack = none ∧ (getFr s f).damaged = true)
    ∧ (∃ (f : Nat) (s : State), (getFr s f).test = false)
    ∧ (∃ (f : Nat) (s : State), (getFr s f).test = true)
    ∧ (∃ (f : Nat) (s : State), destOf s f = none)
    ∧ (∃ (f d : Nat) (s : State), destOf s f = some d ∧ d % 20 = f % 20 ∧ d ≠ f ∧ holdersOf s f = [])
    ∧ (∃ (f n : Nat) (s : State), ((getFr (clockTo s n) f).damaged = false ∨ (getFr (clockTo s n) f).test = true ∨ (getFr (clockTo s n) f).refs = 0))
    ∧ (∃ (f n sl d : Nat) (u s : State), (getFr (clockTo s n) f).damaged = true ∧ (getFr (clockTo s n) f).test = false ∧ (getFr (clockTo s n) f).refs ≠ 0 ∧ (getFr (clockTo s n) f).state = .sealed ∧ (getFr (clockTo s n) f).heldRemote = true ∧ (getC (clockTo s n) (f % 20)).quarantined = false ∧ destOf (clockTo s n) f = none ∧ sliceOf (clockTo s n) (getFr (clockTo s n) f).domain = some sl ∧ drawFrame (clockTo s n) sl (getFr (clockTo s n) f).domain .migrating (getFr (clockTo s n) f).link.toNat (some (.repair f)) = some (d, u))
    ∧ (∃ (f : Nat) (s : State), truncOf s f = none)
    ∧ (∃ (f src n id : Nat) (q : SeqSt) (x : Truncate) (u s : State), (getFr s f).mig = some (.reopen src n false) ∧ truncOf s f = some (id, q, x) ∧ x.pinned.contains src = true ∧ reopenInto s src f n (mHeadDim (seqModel s q)) = some u)
    ∧ (∃ (f src n id : Nat) (q : SeqSt) (x : Truncate) (s : State), (getFr s f).mig = some (.reopen src n false) ∧ truncOf s f = some (id, q, x) ∧ x.pinned.contains src = true)
    ∧ (∃ (id n : Nat) (s : State), (getQ (clockTo s n) id).bind (·.trunc) = none)
    ∧ (∃ (id n : Nat) (q : SeqSt) (x : Truncate) (s : State), getQ (clockTo s n) id = some q ∧ q.trunc = some x ∧ truncReady (clockTo s n) x = false)
    ∧ (∃ (id n : Nat) (q : SeqSt) (x : Truncate) (s : State), getQ (clockTo s n) id = some q ∧ q.trunc = some x ∧ x.dests = [])
    ∧ (∃ (f : Nat) (s : State), (inCollection s f = false ∨ counterFull (getFr s f) = false))
    ∧ (∃ (f : Nat) (s : State), inCollection s f = true ∧ counterFull (getFr s f) = true ∧ pageGood s (getFr s f).domain (getFr s f).data = true) :=
  ⟨⟨0, 0, 20, placed, by decide +kernel⟩,
   ⟨0, 0, { placed with mem := { placed.mem with record := 1 } }, by decide +kernel⟩,
   ⟨20, placed, by decide +kernel⟩,
   ⟨20, withFrames [(20, { retiring := true })], by decide +kernel⟩,
   ⟨20, withFrames [(20, { retiring := true, damaged := true })], by decide +kernel⟩,
   ⟨20, placed, by decide +kernel⟩,
   ⟨20, withFrames [(20, { test := true })], by decide +kernel⟩,
   ⟨20, placed, by decide +kernel⟩,
   ⟨20, 40, withFrames [(40, { state := .migrating, mig := some (.dest 20) })], by decide +kernel⟩,
   ⟨20, 0, placed, by decide +kernel⟩,
   ⟨20, 0, 0, 40, _, withFrames [(20, frameD)] (Map.empty.set 0 [40]), ⟨by decide +kernel, by decide +kernel, by decide +kernel, by decide +kernel, by decide +kernel, by decide +kernel, by decide +kernel, by decide +kernel, rfl⟩⟩,
   ⟨20, placed, by decide +kernel⟩,
   ⟨40, 20, 5, 65536, { seqA with trunc := some cutA }, cutA, _, cutting, ⟨by decide +kernel, by decide +kernel, by decide +kernel, rfl⟩⟩,
   ⟨40, 20, 5, 65536, { seqA with trunc := some cutA }, cutA, cutting, by decide +kernel⟩,
   ⟨65536, 0, sequenced, by decide +kernel⟩,
   ⟨65536, 0, { seqA with trunc := some cutA }, cutA, cutting, by decide +kernel⟩,
   ⟨65536, 0, { seqA with trunc := some {} }, {}, { cutting with seqs := Map.empty.set 65536 { seqA with trunc := some {} } }, by decide +kernel⟩,
   ⟨20, placed, by decide +kernel⟩,
   ⟨20, { withFrames [(20, { frameA with data := { frameA.data with counters := 65534 } })] with sel := { colls := Map.empty.set (collKey 1 4) { frames := [20] } } }, by decide +kernel⟩⟩

theorem holds_somewhere_ReplicasAndMovesArrive :
    (∃ (m : MsgRef) (s : State), deliverable (clockTo s m.now) m 13 = none)
    ∧ (∃ (m : MsgRef) (q : QueueSt) (x : RecvMsg) (s : State), deliverable (clockTo s m.now) m 13 = some (q, x) ∧ sliceOf (clockTo s m.now) q.domain = none)
    ∧ (∃ (m : MsgRef) (q : QueueSt) (x : RecvMsg) (sl f : Nat) (s : State), deliverable (clockTo s m.now) m 13 = some (q, x) ∧ sliceOf (clockTo s m.now) q.domain = some sl ∧ fld (pageExtOf x) 156 155 = 0 ∧ (occupants (clockTo s m.now) sl).all (fun o => o.2.kind == 2) = true ∧ (let e := pageExtOf x; let d := arrivedSealed x.data 1 (getD (clockTo s m.now) q.domain).key (fld e 152 89); let age := (clockTo s m.now).ns / 1000000 % 2 ^ 32; let r : SlackRec := { kind := 1, quarters := fld e 154 153 + 1, domain := q.domain, origin := qPeerNode q, age := age, seq := fld e 255 208, data := d }; slackHost (clockTo s m.now) sl r = some f) ∧ (let e := pageExtOf x; let d := arrivedSealed x.data 1 (getD (clockTo s m.now) q.domain).key (fld e 152 89); let age := (clockTo s m.now).ns / 1000000 % 2 ^ 32; let r : SlackRec := { kind := 1, quarters := fld e 154 153 + 1, domain := q.domain, origin := qPeerNode q, age := age, seq := fld e 255 208, data := d }; replicaFrame (clockTo s m.now) (qPeerNode q) (fld e 255 208) e = none))
    ∧ (∃ (m : MsgRef) (q : QueueSt) (x : RecvMsg) (sl f : Nat) (md : ModelSt) (s : State), deliverable (clockTo s m.now) m 13 = some (q, x) ∧ sliceOf (clockTo s m.now) q.domain = some sl ∧ fld (pageExtOf x) 156 155 = 1 ∧ modelHere (clockTo s m.now) (fld (pageExtOf x) 255 208) = some md ∧ replicaFrame (clockTo s m.now) (qPeerNode q) (fld (pageExtOf x) 255 208) (pageExtOf x) = some f)
    ∧ (∃ (m : MsgRef) (q : QueueSt) (x : RecvMsg) (sl : Nat) (s : State), deliverable (clockTo s m.now) m 13 = some (q, x) ∧ sliceOf (clockTo s m.now) q.domain = some sl ∧ 1 < fld (pageExtOf x) 156 155)
    ∧ (∃ (m : MsgRef) (s : State), deliverable (clockTo s m.now) m 12 = none)
    ∧ (∃ (m : MsgRef) (q : QueueSt) (x : RecvMsg) (s : State), deliverable (clockTo s m.now) m 12 = some (q, x) ∧ sliceOf (clockTo s m.now) q.domain = none)
    ∧ (∃ (m : MsgRef) (q : QueueSt) (x : RecvMsg) (sl f : Nat) (md : ModelSt) (s : State), deliverable (clockTo s m.now) m 12 = some (q, x) ∧ sliceOf (clockTo s m.now) q.domain = some sl ∧ modelHere (clockTo s m.now) (fld (pageExtOf x) 255 208) = some md ∧ fld (pageExtOf x) 156 155 = 2 ∧ incomingFrame (clockTo s m.now) (fld (pageExtOf x) 255 208) (pageExtOf x) = some f) :=
  ⟨⟨{}, up, rfl⟩,
   ⟨{ queue := 70 }, msgQ 13 0, msgR 13 0, { arriving 13 0 with domains := .empty }, ⟨rfl, by decide +kernel⟩⟩,
   ⟨{ queue := 70 }, msgQ 13 0, msgR 13 0, 0, 20, arriving 13 0 [(20, { state := .sealed, domain := 1, qmap := 64 })], ⟨rfl, by decide +kernel, by decide +kernel, by decide +kernel, by decide +kernel, by decide +kernel⟩⟩,
   ⟨{ queue := 70 }, msgQ 13 (2 ^ 155 * 1 + 2 ^ 208 * 65536), msgR 13 (2 ^ 155 * 1 + 2 ^ 208 * 65536), 0, 20, { record := smallModel }, arriving 13 (2 ^ 155 * 1 + 2 ^ 208 * 65536) [(20, { state := .replica, replicaOf := 65536, link := BitVec.ofNat 36 (2 ^ 25) })], ⟨rfl, by decide +kernel, by decide +kernel, by decide +kernel, by decide +kernel⟩⟩,
   ⟨{ queue := 70 }, msgQ 13 (2 ^ 155 * 2 + 2 ^ 208 * 65536), msgR 13 (2 ^ 155 * 2 + 2 ^ 208 * 65536), 0, arriving 13 (2 ^ 155 * 2 + 2 ^ 208 * 65536), ⟨rfl, by decide +kernel, by decide +kernel⟩⟩,
   ⟨{}, up, rfl⟩,
   ⟨{ queue := 70 }, msgQ 12 0, msgR 12 0, { arriving 12 0 with domains := .empty }, ⟨rfl, by decide +kernel⟩⟩,
   ⟨{ queue := 70 }, msgQ 12 (2 ^ 155 * 2 + 2 ^ 208 * 65536), msgR 12 (2 ^ 155 * 2 + 2 ^ 208 * 65536), 0, 20, { record := smallModel }, arriving 12 (2 ^ 155 * 2 + 2 ^ 208 * 65536) [(20, { mig := some (.incoming 2 false), replicaOf := 65536 })], ⟨rfl, by decide +kernel, by decide +kernel, by decide +kernel, by decide +kernel⟩⟩⟩

theorem holds_somewhere_PlacementLeasesAndFlushPoints :
    (∃ (k n : Nat) (s : State), getH (clockTo s n) k = none)
    ∧ (∃ (k id g n : Nat) (h : HeatSt) (q : SeqSt) (s : State), getH (clockTo s n) k = some h ∧ getQ (clockTo s n) id = some q ∧ h.master = none ∧ mayMove (clockTo s n) h id g q = false)
    ∧ (∃ (k id g n : Nat) (h : HeatSt) (q : SeqSt) (s : State), getH (clockTo s n) k = some h ∧ getQ (clockTo s n) id = some q ∧ h.master = none ∧ mayMove (clockTo s n) h id g q = true)
    ∧ (∃ (k id g n dst : Nat) (h : HeatSt) (q : SeqSt) (s : State), getH (clockTo s n) k = some h ∧ getQ (clockTo s n) id = some q ∧ h.master = some dst ∧ bit q.groupMask g = true ∧ (∀ e ∈ groupPages q g, (getFr (clockTo s n) e.2.frame).state ≠ .shared))
    ∧ (∃ (f n : Nat) (s : State), (clockTo s n).place.failed.get? f ≠ some (clockTo s n).nodeNo)
    ∧ (∃ (f id n sl : Nat) (q : SeqSt) (s : State), (clockTo s n).place.failed.get? f = some (clockTo s n).nodeNo ∧ id ∈ promotable (clockTo s n) f ∧ (∀ x ∈ promotable (clockTo s n) f, seqIndex id ≤ seqIndex x) ∧ promotedDesc (clockTo s n) f id = some q ∧ sliceOf (clockTo s n) q.domain = some sl ∧ openFrom (clockTo s n) f id = [] ∧ sealedFrom (clockTo s n) f id = [])
    ∧ (∃ (p n : Nat) (s : State), (placeOn (clockTo s n) = false ∨ seedPartner (clockTo s n) ≠ some p))
    ∧ (∃ (p n : Nat) (s : State), placeOn (clockTo s n) = true ∧ seedPartner (clockTo s n) = some p ∧ partnerOf (clockTo s n) ≠ p ∧ (clockTo s n).seqs = .empty)
    ∧ (∃ (id n : Nat) (q : SeqSt) (s : State), getQ (clockTo s n) id = some q ∧ (homeOf (clockTo s n) id ≠ (clockTo s n).nodeNo ∨ q.own.state = .abandoned ∨ (clockTo s n).ns < q.own.expiry))
    ∧ (∃ (id n : Nat) (q : SeqSt) (s : State), getQ (clockTo s n) id = some q ∧ homeOf (clockTo s n) id = (clockTo s n).nodeNo ∧ q.own.state ≠ .abandoned ∧ q.own.expiry ≤ (clockTo s n).ns ∧ q.state = .idle)
    ∧ (∃ (id n : Nat) (q : SeqSt) (s : State), getQ (clockTo s n) id = some q ∧ (homeOf (clockTo s n) id ≠ (clockTo s n).nodeNo ∨ q.own.state ≠ .offered ∨ (clockTo s n).ns < q.own.deadline))
    ∧ (∃ (id n : Nat) (q : SeqSt) (s : State), getQ (clockTo s n) id = some q ∧ homeOf (clockTo s n) id = (clockTo s n).nodeNo ∧ q.own.state = .offered ∧ q.own.deadline ≤ (clockTo s n).ns)
    ∧ (∃ (n : Nat) (s : State), (placeOn (clockTo s n) = false ∨ flushPeriod (clockTo s n) = 0 ∨ (clockTo s n).ns % flushPeriod (clockTo s n) ≠ 0 ∨ (clockTo s n).fenced = true ∨ (clockTo s n).sec.mod = .error))
    ∧ (∃ (n : Nat) (s : State), placeOn (clockTo s n) = true ∧ flushPeriod (clockTo s n) ≠ 0 ∧ (clockTo s n).ns % flushPeriod (clockTo s n) = 0 ∧ (clockTo s n).fenced = false ∧ (clockTo s n).sec.mod ≠ .error ∧ (clockTo s n).place.degraded = [] ∧ (clockTo s n).net.queues = .empty ∧ partnerOf (clockTo s n) ≠ (clockTo s n).nodeNo ∧ nodeReachable (clockTo s n) (partnerOf (clockTo s n)) = true)
    ∧ (∃ (n k : Nat) (q : QueueSt) (s : State), placeOn (clockTo s n) = true ∧ flushPeriod (clockTo s n) ≠ 0 ∧ (clockTo s n).ns % flushPeriod (clockTo s n) = 0 ∧ (clockTo s n).fenced = false ∧ (clockTo s n).sec.mod ≠ .error ∧ (clockTo s n).place.degraded = [] ∧ (clockTo s n).place.stopped = false ∧ (clockTo s n).net.queues.l = [(k, q)] ∧ k < 65536 ∧ q.internal = some 2 ∧ outstanding q = true ∧ q.state = .ready ∧ qPeerNode q = partnerOf (clockTo s n)) :=
  ⟨⟨3, 0, up, by decide +kernel⟩,
   ⟨3, 65536, 0, 0, heatA, seqA, { sequenced with heats := Map.empty.set 3 heatA }, by decide +kernel⟩,
   ⟨3, 65536, 1, 0, heatA, seqS, moving, by decide +kernel⟩,
   ⟨3, 65536, 0, 0, 2, heatM, seqA, { sequenced with heats := Map.empty.set 3 heatM }, by decide +kernel⟩,
   ⟨2, 0, up, by decide +kernel⟩,
   ⟨2, 2 ^ 37 + 65536, 0, 0, _, bereaved, ⟨by decide +kernel, by decide +kernel, by decide +kernel, rfl, by decide +kernel, by decide +kernel, by decide +kernel⟩⟩,
   ⟨2, 0, up, by decide +kernel⟩,
   ⟨3, 0, { bereaved with place := { bereaved.place with reports := Map.empty.set 193 {}, locality := Map.empty.set 3 65536 }, net := { bereaved.net with addrs := Map.empty.set 3 1 }, seqs := .empty }, by decide +kernel⟩,
   ⟨65536, 0, { seqA with own := { expiry := 5 } }, { sequenced with seqs := Map.empty.set 65536 { seqA with own := { expiry := 5 } } }, by decide +kernel⟩,
   ⟨65536, 0, seqA, sequenced, by decide +kernel⟩,
   ⟨65536, 0, seqA, sequenced, by decide +kernel⟩,
   ⟨65536, 0, { seqA with own := { state := .offered } }, { sequenced with seqs := Map.empty.set 65536 { seqA with own := { state := .offered } } }, by decide +kernel⟩,
   ⟨0, up, by decide +kernel⟩,
   ⟨0, meshed, by decide +kernel⟩,
   ⟨0, 70, replQ, { meshed with net := { meshed.net with queues := Map.empty.set 70 replQ } }, by decide +kernel⟩⟩

theorem holds_somewhere_BadMessagesAreDropped :
    (Breaks (fun _ => 72) (fun _ => [(87, 0), (575, 96)]))
    ∧ (Breaks (fun _ => 8) (fun _ => [(15, 0), (63, 32)]))
    ∧ (Breaks (fun _ => 9) (fun _ => [(71, 0)]))
    ∧ (Breaks (fun _ => 16) (fun _ => [(11, 0), (27, 16), (39, 32), (127, 64)]))
    ∧ (Breaks (fun _ => 2) (fun _ => [(11, 0)]))
    ∧ (Breaks (fun _ => 24) (fun _ => [(47, 0), (107, 64), (119, 112), (191, 128)]))
    ∧ (Breaks (fun _ => 6) (fun _ => [(47, 0)]))
    ∧ (Breaks (fun _ => 4) (fun _ => [(31, 0)]))
    ∧ (Breaks (fun _ => 18) (fun _ => [(47, 0), (88, 64), (119, 96), (143, 128)]))
    ∧ (Breaks (fun m => 304 + 16 * fld m.body 2383 2368) (fun m => replNamed (fld m.body 2383 2368)))
    ∧ (Breaks (fun _ => 152) (fun _ => [(47, 0), (71, 64), (119, 80), (1215, 128)]))
    ∧ (Breaks (fun _ => 12) (fun _ => [(47, 0), (95, 64)]))
    ∧ (Breaks (fun _ => 11) (fun _ => [(55, 0), (87, 64)]))
    ∧ (Breaks (fun _ => 8) (fun _ => [(63, 0)]))
    ∧ (Breaks (fun m => 80 + (if bit m.body 40 then byt m.body 6 7 else 0)) (fun m => [(543, 0), (8 * (80 + (if bit m.body 40 then byt m.body 6 7 else 0)) - 1, 576)]))
    ∧ (Breaks (fun m => 40 + byt m.body 32 35) (fun m => [(287, 0), (8 * (40 + byt m.body 32 35) - 1, 320)])) :=
  ⟨⟨{ src := 2, mver := 0 }, meshed, by decide +kernel⟩,
   ⟨{ src := 2, mver := 0 }, meshed, by decide +kernel⟩,
   ⟨{ src := 2, mver := 0 }, meshed, by decide +kernel⟩,
   ⟨{ src := 2, mver := 0 }, meshed, by decide +kernel⟩,
   ⟨{ src := 2, mver := 0 }, meshed, by decide +kernel⟩,
   ⟨{ src := 2, mver := 0 }, meshed, by decide +kernel⟩,
   ⟨{ src := 2, mver := 0 }, meshed, by decide +kernel⟩,
   ⟨{ src := 2, mver := 0 }, meshed, by decide +kernel⟩,
   ⟨{ src := 2, mver := 0 }, meshed, by decide +kernel⟩,
   ⟨{ src := 2, mver := 0 }, meshed, by decide +kernel⟩,
   ⟨{ src := 2, mver := 0 }, meshed, by decide +kernel⟩,
   ⟨{ src := 2, mver := 0 }, meshed, by decide +kernel⟩,
   ⟨{ src := 2, mver := 0 }, meshed, by decide +kernel⟩,
   ⟨{ src := 2, mver := 0 }, meshed, by decide +kernel⟩,
   ⟨{ src := 2, mver := 0 }, meshed, by decide +kernel⟩,
   ⟨{ src := 2, mver := 0 }, meshed, by decide +kernel⟩⟩

theorem holds_somewhere_NodesSpeakOfThemselves :
    (∃ (m : Mgmt) (s : State), trafficOff (clockTo s m.now) = false ∧ nodeReachable (clockTo s m.now) m.src = true ∧ byt m.body 8 8 = 1 ∧ mgmtOk m 32 (capNamed 1) = true)
    ∧ (Arrives (fun _ => 72) (fun _ => [(87, 0), (575, 96)]) (fun m s => stripeVerdict s (byt m.body 6 6) (byt m.body 8 9) (fld m.body 191 128) (fld m.body 127 96) (fld m.body 575 192) ≠ .ok))
    ∧ (Arrives (fun _ => 72) (fun _ => [(87, 0), (575, 96)]) (fun m s => stripeVerdict s (byt m.body 6 6) (byt m.body 8 9) (fld m.body 191 128) (fld m.body 127 96) (fld m.body 575 192) = .ok ∧ byt m.body 7 7 = 0 ∧ byt m.body 6 6 ≤ 63 ∧ (getQ s (byt m.body 0 5)).isSome))
    ∧ (Arrives (fun _ => 8) (fun _ => [(15, 0), (63, 32)]) (fun m s => ∃ x, s.place.asked.get? m.corr = some x ∧ ∃ id, x.what = .stripe id m.src))
    ∧ (Arrives (fun _ => 8) (fun _ => [(15, 0), (63, 32)]) (fun m s => s.place.asked.get? m.corr = none))
    ∧ (Arrives (fun _ => 9) (fun _ => [(71, 0)]) (fun m _ => byt m.body 8 8 ≠ 1))
    ∧ (Arrives (fun _ => 9) (fun _ => [(71, 0)]) (fun m _ => byt m.body 8 8 = 1))
    ∧ (Arrives (fun _ => 16) (fun _ => [(11, 0), (27, 16), (39, 32), (127, 64)]) (fun m s => byt m.body 0 1 = s.nodeNo))
    ∧ (∃ (m : Mgmt) (s : State), trafficOff (clockTo s m.now) = false ∧ nodeReachable (clockTo s m.now) m.src = true ∧ mgmtOk m 16 [(11, 0), (27, 16), (39, 32), (127, 64)] = true ∧ byt m.body 0 1 ≠ (clockTo s m.now).nodeNo)
    ∧ (Arrives (fun _ => 2) (fun _ => [(11, 0)]) (fun _ _ => True))
    ∧ (∃ (n : Nat) (s : State), (trafficOff (clockTo s n) = true ∨ placeOn (clockTo s n) = false))
    ∧ (∃ (n k at_ : Nat) (s : State), trafficOff (clockTo s n) = false ∧ placeOn (clockTo s n) = true ∧ (clockTo s n).place.heard.l = [(k, at_)] ∧ at_ + failNs (clockTo s n) ≤ (clockTo s n).ns)
    ∧ (∃ (n k at_ : Nat) (s : State), trafficOff (clockTo s n) = false ∧ placeOn (clockTo s n) = true ∧ (clockTo s n).place.heard.l = [(k, at_)] ∧ (clockTo s n).ns < at_ + failNs (clockTo s n))
    ∧ (∃ (id n : Nat) (q : SeqSt) (s : State), getQ (clockTo s n) id = some q ∧ (q.state ≠ .running ∨ q.sb ≠ 0 ∨ placeOn (clockTo s n) = false))
    ∧ (∃ (id n : Nat) (q : SeqSt) (s : State), getQ (clockTo s n) id = some q ∧ q.state = .running ∧ q.sb = 0 ∧ placeOn (clockTo s n) = true ∧ (clockTo s n).place.searches.has (spillKey id) = false ∧ q.stripes.length < 64 ∧ (∀ x ∈ candidates (clockTo s n) q.domain false, x = (clockTo s n).nodeNo)) :=
  ⟨⟨note 32 (2 ^ 64), meshed, by decide +kernel⟩,
   arrives (note 72 0) (meshed) (by decide +kernel),
   arrives (note 72 (2 ^ 128 + 65536 + 2 ^ 48 + 2 ^ 64 + 2 ^ 192 * regDigest { record := smallModel })) (meshed) (by decide +kernel),
   arrives (note 8 0) (asking (.stripe 5 2)) (⟨by decide +kernel, by decide +kernel, ⟨{ what := .stripe 5 2 }, by decide +kernel, 5, rfl⟩⟩),
   arrives (note 8 0) (meshed) (by decide +kernel),
   arrives (note 9 0) (meshed) (by decide +kernel),
   arrives (note 9 (2 ^ 64)) (meshed) (by decide +kernel),
   arrives (note 16 0) (meshed) (by decide +kernel),
   ⟨note 16 5, meshed, by decide +kernel⟩,
   arrives (note 2 0) (meshed) (⟨by decide +kernel, by decide +kernel, trivial⟩),
   ⟨0, up, by decide +kernel⟩,
   ⟨9000000, 2, 0, { meshed with place := { meshed.place with heard := Map.empty.set 2 0 } }, by decide +kernel⟩,
   ⟨0, 2, 0, { meshed with place := { meshed.place with heard := Map.empty.set 2 0 } }, by decide +kernel⟩,
   ⟨65536, 0, seqA, sequenced, by decide +kernel⟩,
   ⟨65536, 0, seqR, { sequenced with seqs := Map.empty.set 65536 seqR, place := { sequenced.place with reports := .empty } }, by decide +kernel⟩⟩

theorem holds_somewhere_MessagesKeepTheirPromises :
    (∃ (m : Mgmt) (q : SeqSt) (s : State), trafficOff (clockTo s m.now) = false ∧ nodeReachable (clockTo s m.now) m.src = true ∧ mgmtOk m 24 [(47, 0), (107, 64), (119, 112), (191, 128)] = true ∧ getQ (clockTo s m.now) (byt m.body 0 5) = some q ∧ homeOf (clockTo s m.now) (byt m.body 0 5) = (clockTo s m.now).nodeNo ∧ q.own.state ≠ .abandoned ∧ q.own.ownerNode = byt m.body 12 13 ∧ q.own.ownerFunc = byt m.body 14 14 ∧ (clockTo s m.now).ns < q.own.expiry)
    ∧ (Arrives (fun _ => 24) (fun _ => [(47, 0), (107, 64), (119, 112), (191, 128)]) (fun m s => ∃ q, getQ s (byt m.body 0 5) = some q ∧ (q.own.expiry ≤ s.ns ∨ q.own.state = .abandoned)))
    ∧ (∃ (m : Mgmt) (k : Nat) (s : State), trafficOff (clockTo s m.now) = false ∧ nodeReachable (clockTo s m.now) m.src = true ∧ mgmtOk m 6 [(47, 0)] = true ∧ byt m.body 2 2 ≤ 2 ∧ freeInternal (clockTo s m.now) 65536 = some k)
    ∧ (Arrives (fun _ => 6) (fun _ => [(47, 0)]) (fun m _ => 2 < byt m.body 2 2))
    ∧ (Arrives (fun _ => 4) (fun _ => [(31, 0)]) (fun m s => ∃ x, s.place.asked.get? m.corr = some x ∧ (∃ k, x.what = .pair k m.src) ∧ byt m.body 0 1 ≠ 0))
    ∧ (∃ (m : Mgmt) (x : Request) (k : Nat) (q : QueueSt) (s : State), trafficOff (clockTo s m.now) = false ∧ nodeReachable (clockTo s m.now) m.src = true ∧ mgmtOk m 4 [(31, 0)] = true ∧ (clockTo s m.now).place.asked.get? m.corr = some x ∧ x.what = .pair k m.src ∧ byt m.body 0 1 = 0 ∧ getWq (clockTo s m.now) k = some q ∧ q.later = [])
    ∧ (∃ (m : Mgmt) (q : SeqSt) (s : State), trafficOff (clockTo s m.now) = false ∧ nodeReachable (clockTo s m.now) m.src = true ∧ mgmtOk m 18 [(47, 0), (88, 64), (119, 96), (143, 128)] = true ∧ getQ (clockTo s m.now) (byt m.body 0 5) = some q ∧ (∀ n ∈ q.stripes, (clockTo s m.now).place.failed.get? n ≠ some m.src))
    ∧ (∃ (m : Mgmt) (s : State), trafficOff (clockTo s m.now) = false ∧ nodeReachable (clockTo s m.now) m.src = true ∧ byt m.body 0 0 = 1 ∧ mgmtOk m 14 [(16, 0), (111, 64)] = true)
    ∧ (Arrives (fun m => 304 + 16 * fld m.body 2383 2368) (fun m => replNamed (fld m.body 2383 2368)) (fun m _ => fld (fld m.body 2111 64) 72 70 = 0))
    ∧ (∃ (m : Mgmt) (s : State), trafficOff (clockTo s m.now) = false ∧ nodeReachable (clockTo s m.now) m.src = true ∧ mgmtOk m (304 + 16 * fld m.body 2383 2368) (replNamed (fld m.body 2383 2368)) = true ∧ fld (fld m.body 2111 64) 72 70 ≠ 0)
    ∧ (Arrives (fun _ => 152) (fun _ => [(47, 0), (71, 64), (119, 80), (1215, 128)]) (fun m s => getQ s (byt m.body 0 5) = none))
    ∧ (∃ (m : Mgmt) (q : SeqSt) (s : State), trafficOff (clockTo s m.now) = false ∧ nodeReachable (clockTo s m.now) m.src = true ∧ mgmtOk m 152 [(47, 0), (71, 64), (119, 80), (1215, 128)] = true ∧ getQ (clockTo s m.now) (byt m.body 0 5) = some q ∧ (byt m.body 8 8 ≠ 2 ∨ q.state = .running))
    ∧ (Arrives (fun _ => 12) (fun _ => [(47, 0), (95, 64)]) (fun _ _ => True))
    ∧ (Arrives (fun _ => 11) (fun _ => [(55, 0), (87, 64)]) (fun m s => getQ s (byt m.body 0 5) = none))
    ∧ (Arrives (fun _ => 11) (fun _ => [(55, 0), (87, 64)]) (fun m s => (getQ s (byt m.body 0 5)).isSome ∧ byt m.body 6 6 = 0))
    ∧ (Arrives (fun _ => 8) (fun _ => [(63, 0)]) (fun m s => ∃ x, s.place.asked.get? m.corr = some x ∧ ∃ id, x.what = .release id m.src))
    ∧ (Arrives (fun _ => 8) (fun _ => [(63, 0)]) (fun m s => ∃ x, s.place.asked.get? m.corr = some x ∧ ∃ id, x.what = .update id m.src))
    ∧ (Arrives (fun m => 80 + (if bit m.body 40 then byt m.body 6 7 else 0)) (fun m => [(543, 0), (8 * (80 + (if bit m.body 40 then byt m.body 6 7 else 0)) - 1, 576)]) (fun m _ => forwardedBody (byt m.body 0 1) = none))
    ∧ (Arrives (fun m => 80 + (if bit m.body 40 then byt m.body 6 7 else 0)) (fun m => [(543, 0), (8 * (80 + (if bit m.body 40 then byt m.body 6 7 else 0)) - 1, 576)]) (fun m _ => byt m.body 0 1 = 0x0A02 ∧ (forwardedDesc m).domain = 0))
    ∧ (Arrives (fun m => 40 + byt m.body 32 35) (fun m => [(287, 0), (8 * (40 + byt m.body 32 35) - 1, 320)]) (fun m s => s.place.asked.get? m.corr = none))
    ∧ (Arrives (fun m => 40 + byt m.body 32 35) (fun m => [(287, 0), (8 * (40 + byt m.body 32 35) - 1, 320)]) (fun m s => byt m.body 32 35 = 0 ∧ (∃ x, s.place.asked.get? m.corr = some x ∧ ∃ k, x.what = .forward k) ∧ (s.flights.find? fun g => g.key == fwdKey m.corr).isSome))
    ∧ (∃ (c n : Nat) (x : Request) (s : State), (clockTo s n).place.asked.get? c = some x ∧ (∃ k, x.what = .forward k) ∧ (clockTo s n).ns < x.sent + 100000000)
    ∧ (∃ (c n : Nat) (x : Request) (s : State), (clockTo s n).place.asked.get? c = some x ∧ (∃ k, x.what = .forward k) ∧ x.sent + 100000000 ≤ (clockTo s n).ns ∧ ((clockTo s n).flights.find? fun g => g.key == fwdKey c).isSome)
    ∧ (∃ (c n : Nat) (x : Request) (s : State), (clockTo s n).place.asked.get? c = some x ∧ (clockTo s n).ns < x.sent + replyTime x.what)
    ∧ (∃ (c n id k : Nat) (x : Request) (s : State), (clockTo s n).place.asked.get? c = some x ∧ x.what = .update id k ∧ x.sent + 10000000 ≤ (clockTo s n).ns)
    ∧ (∃ (c n id k : Nat) (x : Request) (s : State), (clockTo s n).place.asked.get? c = some x ∧ x.what = .stripe id k ∧ x.sent + 1000000 ≤ (clockTo s n).ns) :=
  ⟨⟨note 24 65536, seqO { expiry := 5 }, { meshed with seqs := Map.empty.set 65536 (seqO { expiry := 5 }) }, by decide +kernel⟩,
   arrives (note 24 65536) (meshed) (⟨by decide +kernel, by decide +kernel, ⟨seqA, by decide +kernel⟩⟩),
   ⟨note 6 0, 65535, meshed, by decide +kernel⟩,
   arrives (note 6 (3 * 2 ^ 16)) (meshed) (by decide +kernel),
   arrives (note 4 1) (asking (.pair 9 2)) (⟨by decide +kernel, by decide +kernel, ⟨{ what := .pair 9 2 }, by decide +kernel, ⟨9, rfl⟩, by decide +kernel⟩⟩),
   ⟨note 4 0, { what := .pair 70 2 }, 70, queueA, { asking (.pair 70 2) with net := { meshed.net with queues := Map.empty.set 70 queueA } }, by decide +kernel⟩,
   ⟨note 18 65536, seqA, meshed, by decide +kernel⟩,
   ⟨note 14 1, meshed, by decide +kernel⟩,
   arrives (note 304 0) (meshed) (by decide +kernel),
   ⟨note 304 (2 ^ 134), meshed, by decide +kernel⟩,
   arrives (note 152 0) (meshed) (by decide +kernel),
   ⟨note 152 65536, seqA, meshed, by decide +kernel⟩,
   arrives (note 12 0) (meshed) (⟨by decide +kernel, by decide +kernel, trivial⟩),
   arrives (note 11 0) (meshed) (by decide +kernel),
   arrives (note 11 65536) (meshed) (by decide +kernel),
   arrives (note 8 0) (asking (.release 5 2)) (⟨by decide +kernel, by decide +kernel, ⟨{ what := .release 5 2 }, by decide +kernel, 5, rfl⟩⟩),
   arrives (note 8 0) (asking (.update 5 2)) (⟨by decide +kernel, by decide +kernel, ⟨{ what := .update 5 2 }, by decide +kernel, 5, rfl⟩⟩),
   arrives (note 80 0) (meshed) (⟨by decide +kernel, by decide +kernel, rfl⟩),
   arrives (note 80 0x0A02) (meshed) (by decide +kernel),
   arrives (note 40 0) (meshed) (by decide +kernel),
   arrives (note 40 0) ({ asking (.forward 2) with flights := [{ key := fwdKey 0 }] }) (⟨by decide +kernel, by decide +kernel, ⟨by decide +kernel, ⟨{ what := .forward 2 }, by decide +kernel, 2, rfl⟩, by decide +kernel⟩⟩),
   ⟨0, 0, { what := .forward 2 }, asking (.forward 2), ⟨by decide +kernel, ⟨2, rfl⟩, by decide +kernel⟩⟩,
   ⟨0, 100000000, { what := .forward 2 }, { asking (.forward 2) with flights := [{ key := fwdKey 0 }] }, ⟨by decide +kernel, ⟨2, rfl⟩, by decide +kernel⟩⟩,
   ⟨0, 0, { what := .forward 2 }, asking (.forward 2), by decide +kernel⟩,
   ⟨0, 10000000, 5, 2, { what := .update 5 2 }, asking (.update 5 2), by decide +kernel⟩,
   ⟨0, 1000000, 5, 2, { what := .stripe 5 2 }, asking (.stripe 5 2), by decide +kernel⟩⟩

theorem holds_somewhere_OwnershipIsHandedOver :
    (Meets rowPlaceConfig (fun d s => placeBad s (BitVec.ofNat 64 (byt d.body 0 7)) = false ∧ placeOn s = false))
    ∧ (Meets rowPlaceConfig (fun d s => placeBad s (BitVec.ofNat 64 (byt d.body 0 7)) = false ∧ placeOn s = true ∧ differ s.place.record (BitVec.ofNat 64 (byt d.body 0 7)) placeLocked = true))
    ∧ (Meets rowPlaceConfig (fun d s => placeBad s (BitVec.ofNat 64 (byt d.body 0 7)) = true))
    ∧ (Meets rowReplQuery (fun d s => homeOf s (byt d.body 0 5) = s.nodeNo ∧ ∃ q, seqFor d (renewBy d s (byt d.body 0 5)) (byt d.body 0 5) = .ok q))
    ∧ (Meets rowOwnQuery (fun d s => homeOf s (byt d.body 0 5) = s.nodeNo ∧ byt d.body 8 15 % 64 = 0 ∧ ∃ q, seqFor d (renewBy d s (byt d.body 0 5)) (byt d.body 0 5) false true = .ok q))
    ∧ (Meets rowOwnOffer (fun d s => homeOf s (byt d.body 0 5) = s.nodeNo ∧ objBusy s (.seq (byt d.body 0 5)) = false ∧ ∃ q, seqFor d (renewBy d s (byt d.body 0 5)) (byt d.body 0 5) = .ok q ∧ byt d.body 8 11 = q.own.epoch ∧ q.own.state = .held ∧ byOwner d s q.own = true ∧ offerBad s q (byt d.body 12 13) (byt d.body 14 14) = false))
    ∧ (Meets rowOwnOffer (fun d s => homeOf s (byt d.body 0 5) = s.nodeNo ∧ ∃ q, seqFor d (renewBy d s (byt d.body 0 5)) (byt d.body 0 5) = .ok q ∧ byt d.body 8 11 ≠ q.own.epoch))
    ∧ (Meets rowOwnAccept (fun d s => homeOf s (byt d.body 0 5) = s.nodeNo ∧ objBusy s (.seq (byt d.body 0 5)) = false ∧ ∃ q, seqFor d (renewBy d s (byt d.body 0 5)) (byt d.body 0 5) = .ok q ∧ byt d.body 8 11 = q.own.epoch ∧ q.own.state = .offered ∧ q.own.accepted = false ∧ byOffer d s q.own = true))
    ∧ (Meets rowOwnAccept (fun d s => homeOf s (byt d.body 0 5) = s.nodeNo ∧ objBusy s (.seq (byt d.body 0 5)) = false ∧ ∃ q, seqFor d (renewBy d s (byt d.body 0 5)) (byt d.body 0 5) = .ok q ∧ byt d.body 8 11 = q.own.epoch ∧ q.own.state ≠ .offered))
    ∧ (Meets rowOwnCommit (fun d s => homeOf s (byt d.body 0 5) = s.nodeNo ∧ objBusy s (.seq (byt d.body 0 5)) = false ∧ ∃ q, seqFor d (renewBy d s (byt d.body 0 5)) (byt d.body 0 5) = .ok q ∧ byt d.body 8 11 = q.own.epoch ∧ q.own.state = .offered ∧ q.own.accepted = true ∧ byOwner d s q.own = true ∧ q.state ≠ .running))
    ∧ (Meets rowOwnCommit (fun d s => homeOf s (byt d.body 0 5) = s.nodeNo ∧ objBusy s (.seq (byt d.body 0 5)) = false ∧ ∃ q, seqFor d (renewBy d s (byt d.body 0 5)) (byt d.body 0 5) = .ok q ∧ byt d.body 8 11 = q.own.epoch ∧ q.own.state = .offered ∧ byOwner d s q.own = false))
    ∧ (Meets rowOwnClaim (fun d s => homeOf s (byt d.body 0 5) = s.nodeNo ∧ objBusy s (.seq (byt d.body 0 5)) = false ∧ ∃ q, seqFor d (renewBy d s (byt d.body 0 5)) (byt d.body 0 5) = .ok q ∧ byt d.body 8 11 = q.own.epoch ∧ q.own.state = .abandoned))
    ∧ (Meets rowOwnClaim (fun d s => homeOf s (byt d.body 0 5) = s.nodeNo ∧ objBusy s (.seq (byt d.body 0 5)) = false ∧ ∃ q, seqFor d (renewBy d s (byt d.body 0 5)) (byt d.body 0 5) = .ok q ∧ byt d.body 8 11 = q.own.epoch ∧ q.own.state ≠ .abandoned))
    ∧ (Meets rowFence (fun d _ => byt d.body 0 0 = 3))
    ∧ (Meets rowFence (fun d s => byt d.body 0 0 = 0 ∧ byt d.body 1 1 = 1 ∧ fld d.body 79 64 = s.nodeNo ∧ s.nodeNo ≤ 4095))
    ∧ (Meets rowFence (fun d _ => 3 < byt d.body 0 0)) :=
  ⟨meets (cmd (placeRecReset.toNat + 2 ^ 53) 8) ({ up with net := { up.net with addrs := Map.empty.set 2 1 }, place := { locality := Map.empty.set 2 65536 } }) (by decide +kernel),
   meets (cmd (placeRecReset.toNat + 2 ^ 53 + 1) 8) ({ placed with net := { up.net with addrs := Map.empty.set 2 1 }, place := { placed.place with locality := Map.empty.set 2 65536 } }) (by decide +kernel),
   meets (cmd placeRecReset.toNat 8) (up) (by decide +kernel),
   meets (cmd 65536 6 1) (sequenced) (⟨by decide +kernel, by decide +kernel, seqA, by decide +kernel⟩),
   meets (cmd 65536 16 1) (sequenced) (⟨by decide +kernel, by decide +kernel, by decide +kernel, seqA, by decide +kernel⟩),
   meets (cmd (bytes [(8, 65536), (4, 0), (2, 2), (1, 0)]) 15 1) (sequenced) (⟨by decide +kernel, by decide +kernel, by decide +kernel, seqA, by decide +kernel⟩),
   meets (cmd (bytes [(8, 65536), (4, 1), (2, 2), (1, 0)]) 15 1) (sequenced) (⟨by decide +kernel, by decide +kernel, seqA, by decide +kernel⟩),
   meets (cmd (bytes [(8, 65536), (4, 0)]) 12 1) (owning { state := .offered }) (⟨by decide +kernel, by decide +kernel, by decide +kernel, seqO { state := .offered }, by decide +kernel⟩),
   meets (cmd (bytes [(8, 65536), (4, 0)]) 12 1) (sequenced) (⟨by decide +kernel, by decide +kernel, by decide +kernel, seqA, by decide +kernel⟩),
   meets (cmd (bytes [(8, 65536), (4, 0)]) 12 1) (owning { state := .offered, accepted := true }) (⟨by decide +kernel, by decide +kernel, by decide +kernel, seqO { state := .offered, accepted := true }, by decide +kernel⟩),
   meets (cmd (bytes [(8, 65536), (4, 0)]) 12 1) (owning { state := .offered, accepted := true, ownerNode := 2 }) (⟨by decide +kernel, by decide +kernel, by decide +kernel, seqO { state := .offered, accepted := true, ownerNode := 2 }, by decide +kernel⟩),
   meets (cmd (bytes [(8, 65536), (4, 0)]) 12 1) (owning { state := .abandoned }) (⟨by decide +kernel, by decide +kernel, by decide +kernel, seqO { state := .abandoned }, by decide +kernel⟩),
   meets (cmd (bytes [(8, 65536), (4, 0)]) 12 1) (sequenced) (⟨by decide +kernel, by decide +kernel, by decide +kernel, seqA, by decide +kernel⟩),
   meets (cmdBuf 3 8) (up) (by decide +kernel),
   meets (cmdBuf (2 ^ 8) 10) (up) (by decide +kernel),
   meets (cmdBuf 4 8) (up) (by decide +kernel)⟩

theorem holds_somewhere_RequestsAreServedInOrder :
    (∃ (m : MsgRef) (s : State), (∀ op q r, ¬ AtLow (clockTo s m.now) m op q r))
    ∧ (∃ (m : MsgRef) (q : QueueSt) (r : RecvMsg) (s : State), AtLow (clockTo s m.now) m 2 q r ∧ regionAt (clockTo s m.now) r.key = none)
    ∧ (∃ (m : MsgRef) (q : QueueSt) (r : RecvMsg) (g : RegionSt) (s : State), AtLow (clockTo s m.now) m 2 q r ∧ regionAt (clockTo s m.now) r.key = some g ∧ gKind g = 1)
    ∧ (∃ (m : MsgRef) (q : QueueSt) (r : RecvMsg) (g : RegionSt) (s : State), AtLow (clockTo s m.now) m 2 q r ∧ regionAt (clockTo s m.now) r.key = some g ∧ gKind g = 0 ∧ m.hostOk = true)
    ∧ (∃ (m : MsgRef) (q : QueueSt) (r : RecvMsg) (g : RegionSt) (s : State), AtLow (clockTo s m.now) m 5 q r ∧ regionAt (clockTo s m.now) r.key = some g ∧ r.atop = 1)
    ∧ (∃ (m : MsgRef) (q : QueueSt) (r : RecvMsg) (g : RegionSt) (s : State), AtLow (clockTo s m.now) m 5 q r ∧ regionAt (clockTo s m.now) r.key = some g ∧ r.atop = 2)
    ∧ (∃ (m : MsgRef) (q : QueueSt) (r : RecvMsg) (s : State), AtLow (clockTo s m.now) m 7 q r)
    ∧ (∃ (m : MsgRef) (q : QueueSt) (r : RecvMsg) (s : State), AtLow (clockTo s m.now) m 9 q r ∧ r.attn = false ∧ q.tags.has (fld r.ext 31 0) = false ∧ 64 ≤ q.tags.size)
    ∧ (∃ (m : MsgRef) (q : QueueSt) (r : RecvMsg) (s : State), AtLow (clockTo s m.now) m 9 q r ∧ r.attn = false ∧ q.tags.size < 64 ∧ q.parked = [])
    ∧ (∃ (m : MsgRef) (q : QueueSt) (r : RecvMsg) (w : WorkRequest) (s : State), AtLow (clockTo s m.now) m 4 q r ∧ r.rq = some w)
    ∧ (∃ (m : MsgRef) (q : QueueSt) (r : RecvMsg) (k : Nat) (h : HeatSt) (s : State), AtLow (clockTo s m.now) m 4 q r ∧ r.rq = none ∧ q.internal = some 0 ∧ r.attn = true ∧ k = fld r.ext 23 12 ∧ getH (clockTo s m.now) k = some h ∧ h.master = some (qPeerNode q))
    ∧ (∃ (m : MsgRef) (q : QueueSt) (r : RecvMsg) (w : SendMsg) (g : RegionSt) (off : Nat) (s : State), AnswerIn (clockTo s m.now) m 3 q r w ∧ localBuffer (clockTo s m.now) (qPd q) w.wr w.total = some (g, off) ∧ (gKind g = 0 → m.hostOk = true))
    ∧ (∃ (m : MsgRef) (q : QueueSt) (r : RecvMsg) (w : SendMsg) (g : RegionSt) (off : Nat) (s : State), AnswerIn (clockTo s m.now) m 6 q r w ∧ localBuffer (clockTo s m.now) (qPd q) w.wr 8 = some (g, off))
    ∧ (∃ (m : MsgRef) (q : QueueSt) (r : RecvMsg) (w : SendMsg) (st : Status) (s : State), AnswerIn (clockTo s m.now) m 8 q r w ∧ w.purpose = .host ∧ r.addr < 65536 ∧ Status.ofCode r.addr = some st ∧ st ≠ .ok)
    ∧ (∃ (m : MsgRef) (s : State), (∀ op q r w, ¬ AnswerIn (clockTo s m.now) m op q r w)) :=
  ⟨⟨{}, up, fun op q r h => Option.some_ne_none q (h.queue.symm.trans rfl)⟩,
   ⟨{ queue := 70 }, { queueA with recv := Map.empty.set 0 (msgR 2 0) }, msgR 2 0, { receiving (msgR 2 0) with net := { (receiving (msgR 2 0)).net with regions := .empty } }, ⟨⟨by decide +kernel, by decide +kernel, by decide +kernel, by decide +kernel, by decide +kernel, by decide +kernel, by decide +kernel⟩, by decide +kernel⟩⟩,
   ⟨{ queue := 70 }, { queueA with recv := Map.empty.set 0 (msgR 2 0) }, msgR 2 0, regA, receiving (msgR 2 0) (queueA) (regA), ⟨⟨by decide +kernel, by decide +kernel, by decide +kernel, by decide +kernel, by decide +kernel, by decide +kernel, by decide +kernel⟩, by decide +kernel, by decide +kernel⟩⟩,
   ⟨{ queue := 70 }, { queueA with recv := Map.empty.set 0 (msgR 2 0) }, msgR 2 0, regA 0, receiving (msgR 2 0) (queueA) (regA 0), ⟨⟨by decide +kernel, by decide +kernel, by decide +kernel, by decide +kernel, by decide +kernel, by decide +kernel, by decide +kernel⟩, by decide +kernel, by decide +kernel, by decide +kernel⟩⟩,
   ⟨{ queue := 70 }, { queueA with recv := Map.empty.set 0 ({ op := 5, complete := true, atop := 1 }) }, { op := 5, complete := true, atop := 1 }, regA, receiving ({ op := 5, complete := true, atop := 1 }) (queueA) (regA), ⟨⟨by decide +kernel, by decide +kernel, by decide +kernel, by decide +kernel, by decide +kernel, by decide +kernel, by decide +kernel⟩, by decide +kernel, by decide +kernel⟩⟩,
   ⟨{ queue := 70 }, { queueA with recv := Map.empty.set 0 ({ op := 5, complete := true, atop := 2 }) }, { op := 5, complete := true, atop := 2 }, regA, receiving ({ op := 5, complete := true, atop := 2 }) (queueA) (regA), ⟨⟨by decide +kernel, by decide +kernel, by decide +kernel, by decide +kernel, by decide +kernel, by decide +kernel, by decide +kernel⟩, by decide +kernel, by decide +kernel⟩⟩,
   ⟨{ queue := 70 }, { queueA with recv := Map.empty.set 0 (msgR 7 0) }, msgR 7 0, receiving (msgR 7 0) (queueA) (regA), ⟨by decide +kernel, by decide +kernel, by decide +kernel, by decide +kernel, by decide +kernel, by decide +kernel, by decide +kernel⟩⟩,
   ⟨{ queue := 70 }, { { queueA with tags := ⟨(List.range 64).map fun k => (k + 1, 0)⟩ } with recv := Map.empty.set 0 (msgR 9 0) }, msgR 9 0, receiving (msgR 9 0) ({ queueA with tags := ⟨(List.range 64).map fun k => (k + 1, 0)⟩ }) (regA), ⟨⟨by decide +kernel, by decide +kernel, by decide +kernel, by decide +kernel, by decide +kernel, by decide +kernel, by decide +kernel⟩, by decide +kernel, by decide +kernel, by decide +kernel⟩⟩,
   ⟨{ queue := 70 }, { queueA with recv := Map.empty.set 0 (msgR 9 0) }, msgR 9 0, receiving (msgR 9 0) (queueA) (regA), ⟨⟨by decide +kernel, by decide +kernel, by decide +kernel, by decide +kernel, by decide +kernel, by decide +kernel, by decide +kernel⟩, by decide +kernel, by decide +kernel, by decide +kernel⟩⟩,
   ⟨{ queue := 70 }, { queueA with recv := Map.empty.set 0 ({ op := 4, complete := true, rq := some {} }) }, { op := 4, complete := true, rq := some {} }, {}, receiving ({ op := 4, complete := true, rq := some {} }) (queueA) (regA), ⟨⟨by decide +kernel, by decide +kernel, by decide +kernel, by decide +kernel, by decide +kernel, by decide +kernel, by decide +kernel⟩, by decide +kernel⟩⟩,
   ⟨{ queue := 70 }, { { queueA with internal := some 0 } with recv := Map.empty.set 0 ({ op := 4, complete := true, attn := true, ext := pack [(12, 12, 3)] }) }, { op := 4, complete := true, attn := true, ext := pack [(12, 12, 3)] }, 3, heatM, { receiving ({ op := 4, complete := true, attn := true, ext := pack [(12, 12, 3)] }) { queueA with internal := some 0 } with heats := Map.empty.set 3 heatM }, ⟨⟨by decide +kernel, by decide +kernel, by decide +kernel, by decide +kernel, by decide +kernel, by decide +kernel, by decide +kernel⟩, by decide +kernel, by decide +kernel, by decide +kernel, by decide +kernel, by decide +kernel, by decide +kernel⟩⟩,
   ⟨{ queue := 70 }, answeredQ (msgR 3 0) ({}), msgR 3 0, {}, regA, 0, answering (msgR 3 0) ({}), ⟨⟨by decide +kernel, by decide +kernel, by decide +kernel, by decide +kernel, by decide +kernel, by decide +kernel⟩, by decide +kernel, by decide +kernel⟩⟩,
   ⟨{ queue := 70 }, answeredQ (msgR 6 0) ({}), msgR 6 0, {}, regA, 0, answering (msgR 6 0) ({}), ⟨⟨by decide +kernel, by decide +kernel, by decide +kernel, by decide +kernel, by decide +kernel, by decide +kernel⟩, by decide +kernel⟩⟩,
   ⟨{ queue := 70 }, answeredQ ({ op := 8, complete := true, addr := Status.denied.code }) ({}), { op := 8, complete := true, addr := Status.denied.code }, {}, .denied, answering ({ op := 8, complete := true, addr := Status.denied.code }) ({}), ⟨⟨by decide +kernel, by decide +kernel, by decide +kernel, by decide +kernel, by decide +kernel, by decide +kernel⟩, by decide +kernel, by decide +kernel, by decide +kernel, by decide +kernel⟩⟩,
   ⟨{}, up, fun op q r w h => Option.some_ne_none q (h.queue.symm.trans rfl)⟩⟩

theorem holds_somewhere_PacketsAreCheckedAndAcknowledged :
    (∃ (k : Packet) (s : State), trafficOff (clockTo s k.now) = false ∧ (s.boot.failed = false ∨ k.mgmt = true) ∧ ethUp (clockTo s k.now) k.port = true ∧ k.frameOk = false)
    ∧ (∃ (k : Packet) (s : State), trafficOff (clockTo s k.now) = false ∧ (s.boot.failed = false ∨ k.mgmt = true) ∧ ethUp (clockTo s k.now) k.port = true ∧ k.frameOk = true ∧ malformed k = true)
    ∧ (∃ (k : Packet) (s : State), trafficOff (clockTo s k.now) = false ∧ (s.boot.failed = false ∨ k.mgmt = true) ∧ ethUp (clockTo s k.now) k.port = true ∧ k.frameOk = true ∧ malformed k = false ∧ k.partition ≠ s.partition.toNat)
    ∧ (∃ (k : Packet) (s : State), trafficOff (clockTo s k.now) = false ∧ (s.boot.failed = false ∨ k.mgmt = true) ∧ ethUp (clockTo s k.now) k.port = true ∧ k.frameOk = true ∧ malformed k = false ∧ k.partition = s.partition.toNat ∧ s.net.addrs.get? k.srcNode = none)
    ∧ (∃ (k : Packet) (a : BitVec 256) (s : State), trafficOff (clockTo s k.now) = false ∧ s.boot.failed = false ∧ ethUp (clockTo s k.now) k.port = true ∧ k.frameOk = true ∧ malformed k = false ∧ k.partition = s.partition.toNat ∧ s.net.addrs.get? k.srcNode = some a ∧ k.ipSrc = rf a (if k.port = 0 then 127 else 255) (if k.port = 0 then 0 else 128) ∧ k.srcNode ∈ s.net.fencedNodes)
    ∧ (∃ (k : Packet) (a : BitVec 256) (s : State), trafficOff (clockTo s k.now) = false ∧ s.boot.failed = false ∧ ethUp (clockTo s k.now) k.port = true ∧ k.frameOk = true ∧ malformed k = false ∧ k.partition = s.partition.toNat ∧ s.net.addrs.get? k.srcNode = some a ∧ k.ipSrc = rf a (if k.port = 0 then 127 else 255) (if k.port = 0 then 0 else 128) ∧ k.srcNode ∉ s.net.fencedNodes ∧ k.enc = sealedDomain s k.domain ∧ k.trailerOk = false)
    ∧ (∃ (k : Packet) (u : State) (q : QueueSt) (s : State), ingress (clockTo s k.now) k = (u, true) ∧ k.mgmt = false ∧ k.op ≠ 16 ∧ k.op ≠ 17 ∧ getWq (adoptDomain u k.dstQueue k.domain) k.dstQueue = some q ∧ q.state ≠ .ready)
    ∧ (∃ (k : Packet) (u : State) (q : QueueSt) (s : State), ingress (clockTo s k.now) k = (u, true) ∧ k.mgmt = false ∧ k.op ≠ 16 ∧ k.op ≠ 17 ∧ getWq (adoptDomain u k.dstQueue k.domain) k.dstQueue = some q ∧ q.state = .ready ∧ windowPlace q k = 1)
    ∧ (∃ (k : Packet) (u : State) (q : QueueSt) (s : State), ingress (clockTo s k.now) k = (u, true) ∧ k.mgmt = false ∧ k.op ≠ 16 ∧ k.op ≠ 17 ∧ getWq (adoptDomain u k.dstQueue k.domain) k.dstQueue = some q ∧ q.state = .ready ∧ windowPlace q k = 2)
    ∧ (∃ (k : Packet) (u : State) (q : QueueSt) (s : State) (m : _), ingress (clockTo s k.now) k = (u, true) ∧ k.mgmt = false ∧ k.op ≠ 16 ∧ k.op ≠ 17 ∧ getWq (adoptDomain u k.dstQueue k.domain) k.dstQueue = some q ∧ q.state = .ready ∧ windowPlace q k = 0 ∧ namesRegion k = false ∧ q.recv.get? (recvKey k) = some m ∧ m.refused = none ∧ (bit m.bitmap (k.offset / 4096) = true ∨ m.complete = true))
    ∧ (∃ (k : Packet) (u : State) (q : QueueSt) (s : State) (st : _), ingress (clockTo s k.now) k = (u, true) ∧ k.mgmt = false ∧ k.op ≠ 16 ∧ k.op ≠ 17 ∧ getWq (adoptDomain u k.dstQueue k.domain) k.dstQueue = some q ∧ q.state = .ready ∧ windowPlace q k = 0 ∧ namesRegion k = true ∧ regionCheck (adoptDomain u k.dstQueue k.domain) (qPd q) k.op k.regionKey k.addr k.totalLen = some st)
    ∧ (∃ (k : Packet) (u : State) (q : QueueSt) (g : RegionSt) (s : State), ingress (clockTo s k.now) k = (u, true) ∧ k.mgmt = false ∧ k.op = 1 ∧ getWq (adoptDomain u k.dstQueue k.domain) k.dstQueue = some q ∧ q.state = .ready ∧ windowPlace q k = 0 ∧ regionCheck (adoptDomain u k.dstQueue k.domain) (qPd q) 1 k.regionKey k.addr k.totalLen = none ∧ regionAt (adoptDomain u k.dstQueue k.domain) k.regionKey = some g ∧ gKind g = 1 ∧ q.recv.get? (recvKey k) = none ∧ k.totalLen ≤ 4096 ∧ k.offset = 0 ∧ k.destOk = true)
    ∧ (∃ (k : Packet) (u : State) (s : State), ingress (clockTo s k.now) k = (u, true) ∧ k.op = 16)
    ∧ (∃ (k : Packet) (u : State) (s : State), ingress (clockTo s k.now) k = (u, false))
    ∧ (∃ (k : Packet) (u : State) (q : QueueSt) (m : SendMsg) (s : State), ingress (clockTo s k.now) k = (u, true) ∧ k.op = 16 ∧ k.totalLen = 0 ∧ getWq u (packetQueue k) = some q ∧ q.sent.get? k.msgId = some m ∧ m.whole = false ∧ m.completed = true ∧ m.purpose = .host ∧ q.later = [])
    ∧ (∃ (k : Packet) (u : State) (q : QueueSt) (m : SendMsg) (s : State), ingress (clockTo s k.now) k = (u, true) ∧ k.op = 16 ∧ k.totalLen ≠ 0 ∧ getWq u (packetQueue k) = some q ∧ q.sent.get? k.msgId = some m ∧ m.whole = false ∧ (∀ i, i < m.packets → bit k.payload i = false → u.ns < m.lastSent.getD i 0 + qRto q / 4))
    ∧ (∃ (k : Packet) (u : State) (q : QueueSt) (m : SendMsg) (s : State), ingress (clockTo s k.now) k = (u, true) ∧ k.op = 17 ∧ k.addr < 65536 ∧ Status.ofCode k.addr = some .busy ∧ getWq u (packetQueue k) = some q ∧ q.sent.get? k.msgId = some m ∧ m.whole = false ∧ m.op = 4 ∧ m.rnr < qRnr q)
    ∧ (∃ (k : Packet) (u : State) (q : QueueSt) (m : SendMsg) (st : Status) (s : State), ingress (clockTo s k.now) k = (u, true) ∧ k.op = 17 ∧ k.addr < 65536 ∧ Status.ofCode k.addr = some st ∧ (st = .denied ∨ st = .badField ∨ st = .badState) ∧ packetQueue k < 65536 ∧ getWq u (packetQueue k) = some q ∧ q.internal = none ∧ q.sent.get? k.msgId = some m ∧ m.whole = false ∧ q.state = .ready)
    ∧ (∃ (m : MsgRef) (q : QueueSt) (x : SendMsg) (s : State), getWq (clockTo s m.now) m.queue = some q ∧ q.sent.get? m.msgId = some x ∧ x.whole = false ∧ retxDue q x (clockTo s m.now).ns = false)
    ∧ (∃ (m : MsgRef) (q : QueueSt) (x : SendMsg) (s : State), getWq (clockTo s m.now) m.queue = some q ∧ q.sent.get? m.msgId = some x ∧ x.whole = false ∧ retxDue q x (clockTo s m.now).ns = true ∧ qRetry q ≤ x.rounds ∧ m.queue < 65536 ∧ q.state = .ready)
    ∧ (∃ (m : MsgRef) (q : QueueSt) (x : SendMsg) (s : State), getWq (clockTo s m.now) m.queue = some q ∧ q.sent.get? m.msgId = some x ∧ x.whole = false ∧ retxDue q x (clockTo s m.now).ns = true ∧ x.rounds < qRetry q ∧ x.packets = 1 ∧ bit x.acked 0 = false ∧ x.sent.getD 0 0 < 16)
    ∧ (∃ (m : MsgRef) (q : QueueSt) (x : SendMsg) (at_ : Nat) (s : State), getWq (clockTo s m.now) m.queue = some q ∧ q.sent.get? m.msgId = some x ∧ x.rnrAt = some at_ ∧ (clockTo s m.now).ns < at_ + qRto q)
    ∧ (∃ (m : MsgRef) (q : QueueSt) (x : SendMsg) (at_ : Nat) (s : State), getWq (clockTo s m.now) m.queue = some q ∧ q.sent.get? m.msgId = some x ∧ x.rnrAt = some at_ ∧ at_ + qRto q ≤ (clockTo s m.now).ns ∧ x.packets = 1 ∧ x.sent.getD 0 0 < 16)
    ∧ (∃ (m : MsgRef) (q : QueueSt) (r : RecvMsg) (s : State), getWq (clockTo s m.now) m.queue = some q ∧ q.recv.get? m.msgId = some r ∧ r.complete = false ∧ r.bitmap ≠ 0 ∧ (clockTo s m.now).ns < r.last + 4000)
    ∧ (∃ (m : MsgRef) (q : QueueSt) (r : RecvMsg) (s : State), getWq (clockTo s m.now) m.queue = some q ∧ q.recv.get? m.msgId = some r ∧ r.complete = false ∧ r.bitmap ≠ 0 ∧ r.last + 4000 ≤ (clockTo s m.now).ns)
    ∧ (∃ (m : MsgRef) (q : QueueSt) (r : RecvMsg) (s : State), getWq (clockTo s m.now) m.queue = some q ∧ q.recv.get? m.msgId = some r ∧ r.complete = false ∧ 2 ≤ r.packets ∧ r.bitmap ≠ 0 ∧ (clockTo s m.now).ns < r.last + 1000000)
    ∧ (∃ (m : MsgRef) (q : QueueSt) (r : RecvMsg) (s : State), getWq (clockTo s m.now) m.queue = some q ∧ q.recv.get? m.msgId = some r ∧ r.complete = false ∧ 2 ≤ r.packets ∧ r.bitmap ≠ 0 ∧ r.last + 1000000 ≤ (clockTo s m.now).ns)
    ∧ (∃ (peer n at_ : Nat) (q : QueueSt) (s : State), getWq (clockTo s n) (mgmtKey peer) = some q ∧ q.gapSince = some at_ ∧ (clockTo s n).ns < at_ + 10000000)
    ∧ (∃ (peer n at_ : Nat) (q : QueueSt) (s : State), getWq (clockTo s n) (mgmtKey peer) = some q ∧ q.gapSince = some at_ ∧ at_ + 10000000 ≤ (clockTo s n).ns) :=
  ⟨⟨{ packet 4 with frameOk := false }, wired, by decide +kernel⟩,
   ⟨{ packet 4 with version := 2 }, wired, by decide +kernel⟩,
   ⟨{ packet 4 with partition := 1 }, wired, by decide +kernel⟩,
   ⟨{ packet 4 with srcNode := 3 }, wired, by decide +kernel⟩,
   ⟨packet 4, 1, { wired with net := { wired.net with fencedNodes := [2] } }, by decide +kernel⟩,
   ⟨{ packet 4 with trailerOk := false }, 1, wired, by decide +kernel⟩,
   ⟨packet 4, _, { queueA with state := .error }, wired { queueA with state := .error }, ⟨rfl, by decide +kernel, by decide +kernel, by decide +kernel, by decide +kernel, by decide +kernel⟩⟩,
   ⟨{ packet 4 with msgId := 2 ^ 32 - 1 }, _, queueA, wired, ⟨rfl, by decide +kernel, by decide +kernel, by decide +kernel, by decide +kernel, by decide +kernel, by decide +kernel⟩⟩,
   ⟨{ packet 4 with msgId := 100 }, _, queueA, wired, ⟨rfl, by decide +kernel, by decide +kernel, by decide +kernel, by decide +kernel, by decide +kernel, by decide +kernel⟩⟩,
   ⟨packet 4, _, { queueA with recv := Map.empty.set 0 { op := 4, bitmap := 1 } }, wired { queueA with recv := Map.empty.set 0 { op := 4, bitmap := 1 } }, { op := 4, bitmap := 1 }, ⟨rfl, by decide +kernel, by decide +kernel, by decide +kernel, by decide +kernel, by decide +kernel, by decide +kernel, by decide +kernel, by decide +kernel, by decide +kernel, by decide +kernel⟩⟩,
   ⟨{ packet 1 with regionKey := 1 }, _, queueA, wired, .denied, ⟨rfl, by decide +kernel, by decide +kernel, by decide +kernel, by decide +kernel, by decide +kernel, by decide +kernel, by decide +kernel, by decide +kernel⟩⟩,
   ⟨packet 1, _, queueA, regA, wired, ⟨rfl, by decide +kernel, by decide +kernel, by decide +kernel, by decide +kernel, by decide +kernel, by decide +kernel, by decide +kernel, by decide +kernel, by decide +kernel, by decide +kernel, by decide +kernel, by decide +kernel⟩⟩,
   ⟨packet 16, _, wired, ⟨rfl, by decide +kernel⟩⟩,
   ⟨packet 16, up, up, rfl⟩,
   ⟨packet 16, _, sendQ { completed := true }, { completed := true }, wired (sendQ { completed := true }), ⟨rfl, by decide +kernel, by decide +kernel, by decide +kernel, by decide +kernel, by decide +kernel, by decide +kernel, by decide +kernel, by decide +kernel⟩⟩,
   ⟨{ packet 16 with totalLen := 8, payLen := 8, payload := 1 }, _, sendQ {}, {}, wired (sendQ {}), ⟨rfl, by decide +kernel, by decide +kernel, by decide +kernel, by decide +kernel, by decide +kernel, by decide +kernel⟩⟩,
   ⟨{ packet 17 with addr := Status.busy.code }, _, rnrQ, { op := 4 }, wired rnrQ, ⟨rfl, by decide +kernel, by decide +kernel, by decide +kernel, by decide +kernel, by decide +kernel, by decide +kernel, by decide +kernel, by decide +kernel⟩⟩,
   ⟨{ packet 17 with addr := Status.denied.code }, _, sendQ {}, {}, .denied, wired (sendQ {}), ⟨rfl, by decide +kernel, by decide +kernel, by decide +kernel, by decide +kernel, by decide +kernel, by decide +kernel, by decide +kernel, by decide +kernel, by decide +kernel, by decide +kernel⟩⟩,
   ⟨{ queue := 70 }, sendQ {}, {}, wired (sendQ {}), by decide +kernel⟩,
   ⟨{ queue := 70, now := 100000 }, sendQ { rounds := 3, left := 1 }, { rounds := 3, left := 1 }, wired (sendQ { rounds := 3, left := 1 }), by decide +kernel⟩,
   ⟨{ queue := 70, now := 100000 }, sendQ { left := 1 }, { left := 1 }, wired (sendQ { left := 1 }), by decide +kernel⟩,
   ⟨{ queue := 70 }, sendQ { rnrAt := some 0 }, { rnrAt := some 0 }, 0, wired (sendQ { rnrAt := some 0 }), by decide +kernel⟩,
   ⟨{ queue := 70, now := 10000 }, sendQ { rnrAt := some 0 }, { rnrAt := some 0 }, 0, wired (sendQ { rnrAt := some 0 }), by decide +kernel⟩,
   ⟨{ queue := 70, now := 0 }, { queueA with recv := Map.empty.set 0 { op := 4, bitmap := 1 } }, { op := 4, bitmap := 1 }, wired { queueA with recv := Map.empty.set 0 { op := 4, bitmap := 1 } }, by decide +kernel⟩,
   ⟨{ queue := 70, now := 4000 }, { queueA with recv := Map.empty.set 0 { op := 4, bitmap := 1 } }, { op := 4, bitmap := 1 }, wired { queueA with recv := Map.empty.set 0 { op := 4, bitmap := 1 } }, by decide +kernel⟩,
   ⟨{ queue := 70, now := 0 }, { queueA with recv := Map.empty.set 0 { op := 4, bitmap := 1, packets := 2 } }, { op := 4, bitmap := 1, packets := 2 }, wired { queueA with recv := Map.empty.set 0 { op := 4, bitmap := 1, packets := 2 } }, by decide +kernel⟩,
   ⟨{ queue := 70, now := 1000000 }, { queueA with recv := Map.empty.set 0 { op := 4, bitmap := 1, packets := 2 } }, { op := 4, bitmap := 1, packets := 2 }, wired { queueA with recv := Map.empty.set 0 { op := 4, bitmap := 1, packets := 2 } }, by decide +kernel⟩,
   ⟨2, 0, 0, { queueA with gapSince := some 0 }, { wired with net := { wired.net with queues := Map.empty.set (mgmtKey 2) { queueA with gapSince := some 0 } } }, by decide +kernel⟩,
   ⟨2, 10000000, 0, { queueA with gapSince := some 0 }, { wired with net := { wired.net with queues := Map.empty.set (mgmtKey 2) { queueA with gapSince := some 0 } } }, by decide +kernel⟩⟩

theorem holds_somewhere_QueuesShapersAndLinks :
    (∃ (p : Port) (f : Func) (n size : Nat) (v : Word) (q : QueueSt) (s : State), mmioOk s p f = true ∧ size = 8 ∧ rf v 63 62 = 0 ∧ rf v 61 32 = 0 ∧ getWq (clockTo s n) (rf v 15 0) = some q ∧ q.func = funcCode p f ∧ q.internal = none ∧ q.state = .ready ∧ q.sq.length + (rf v 31 16 + 65536 - q.sqTail) % 65536 ≤ 2 ^ qSqLog2 q)
    ∧ (∃ (p : Port) (f : Func) (n size : Nat) (v : Word) (q : QueueSt) (s : State), mmioOk s p f = true ∧ size = 8 ∧ rf v 63 62 = 0 ∧ rf v 61 32 = 0 ∧ getWq (clockTo s n) (rf v 15 0) = some q ∧ q.func = funcCode p f ∧ q.internal = none ∧ q.state ≠ .reset ∧ 2 ^ qSqLog2 q < q.sq.length + (rf v 31 16 + 65536 - q.sqTail) % 65536)
    ∧ (∃ (p : Port) (f : Func) (n size : Nat) (v : Word) (l : List WorkRequest) (q : QueueSt) (s : State), mmioOk s p f = true ∧ size = 8 ∧ rf v 63 62 = 1 ∧ rf v 61 32 = 0 ∧ getWq (clockTo s n) (rf v 15 0) = some q ∧ q.func = funcCode p f ∧ q.internal = none ∧ q.state = .ready ∧ qRqLog2 q ≠ 0 ∧ (rf v 31 16 + 65536 - q.rqTail) % 65536 = 1 ∧ q.rq.length + 1 ≤ 2 ^ qRqLog2 q ∧ recvBad (clockTo s n) q (l.getD 0 {}) = none)
    ∧ (∃ (p : Port) (f : Func) (n size : Nat) (v : Word) (c : CqSt) (s : State), mmioOk s p f = true ∧ size = 8 ∧ rf v 61 32 = 0 ∧ (clockTo s n).net.cqs.get? (rf v 13 0) = some c ∧ c.port = p ∧ c.func = f ∧ rf v 63 62 = 2)
    ∧ (∃ (p : Port) (f : Func) (n size : Nat) (v : Word) (c : CqSt) (s : State), mmioOk s p f = true ∧ size = 8 ∧ rf v 61 32 = 0 ∧ (clockTo s n).net.cqs.get? (rf v 13 0) = some c ∧ c.port = p ∧ c.func = f ∧ rf v 63 62 = 3)
    ∧ (∃ (p : Port) (f : Func) (s : State), mmioOk s p f = false)
    ∧ (∃ (k n : Nat) (q : QueueSt) (w : WorkRequest) (rest : List WorkRequest) (s : State), getWq (clockTo s n) k = some q ∧ q.sq = w :: rest ∧ q.state = .ready ∧ trafficOff (clockTo s n) = false ∧ s.boot.failed = false ∧ qPeerNode q ∈ s.net.fencedNodes)
    ∧ (∃ (k n : Nat) (q : QueueSt) (w : WorkRequest) (rest : List WorkRequest) (s : State) (st : _), getWq (clockTo s n) k = some q ∧ q.sq = w :: rest ∧ q.state = .ready ∧ trafficOff (clockTo s n) = false ∧ s.boot.failed = false ∧ qPeerNode q ∉ s.net.fencedNodes ∧ sendBad (clockTo s n) q w = some st)
    ∧ (∃ (k n : Nat) (q : QueueSt) (w : WorkRequest) (rest : List WorkRequest) (s : State), getWq (clockTo s n) k = some q ∧ q.sq = w :: rest ∧ q.state = .ready ∧ trafficOff (clockTo s n) = false ∧ s.boot.failed = false ∧ qPeerNode q ∉ s.net.fencedNodes ∧ sendBad (clockTo s n) q w = none ∧ w.parked = true ∧ 64 ≤ q.parked.length)
    ∧ (∃ (k n : Nat) (q : QueueSt) (w : WorkRequest) (rest : List WorkRequest) (s : State), getWq (clockTo s n) k = some q ∧ q.sq = w :: rest ∧ q.state = .ready ∧ trafficOff (clockTo s n) = false ∧ s.boot.failed = false ∧ qPeerNode q ∉ s.net.fencedNodes ∧ sendBad (clockTo s n) q w = none ∧ w.parked = false ∧ (64 ≤ unacked q ∨ (w.fence = true ∧ fenceClear q = false)))
    ∧ (∃ (k n : Nat) (q : QueueSt) (w : WorkRequest) (rest : List WorkRequest) (s : State) (g off : _), getWq (clockTo s n) k = some q ∧ q.sq = w :: rest ∧ q.state = .ready ∧ trafficOff (clockTo s n) = false ∧ s.boot.failed = false ∧ qPeerNode q ∉ s.net.fencedNodes ∧ sendBad (clockTo s n) q w = none ∧ w.parked = false ∧ unacked q < 64 ∧ (w.fence = true → fenceClear q = true) ∧ sealedDomain (clockTo s n) q.domain = false ∧ localBuffer (clockTo s n) (qPd q) w w.length = some (g, off) ∧ gKind g = 1)
    ∧ (∃ (n k : Nat) (v : ShaperSt) (s : State), (clockTo s n).net.shapers.get? k = some v)
    ∧ (∃ (n : Nat) (s : State), (clockTo s n).net.egress = [])
    ∧ (∃ (p : Port) (n : Nat) (e : EgrPkt) (s : State), (clockTo s n).net.egress = [e] ∧ e.cls = 0 ∧ e.port = p ∧ ethUp (clockTo s n) p = true ∧ (ethOf (clockTo s n) p).busyUntil ≤ (clockTo s n).ns * 256 ∧ trafficOff (clockTo s n) = false ∧ s.boot.failed = false ∧ (∀ a b c d, e.kind ≠ .data a b c d))
    ∧ (∃ (fr : EthFrame) (s : State), ethUp (clockTo s fr.now) fr.port = true ∧ frameAccepted (clockTo s fr.now) fr = false)
    ∧ (∃ (fr : EthFrame) (s : State), ethUp (clockTo s fr.now) fr.port = true ∧ frameAccepted (clockTo s fr.now) fr = true ∧ fr.etherType = 0x86DD ∧ (fr.extHeader = true ∨ fr.lenOk = false))
    ∧ (∃ (fr : EthFrame) (s : State), ethUp (clockTo s fr.now) fr.port = true ∧ frameAccepted (clockTo s fr.now) fr = true ∧ fr.etherType = 0x86DD ∧ fr.extHeader = false ∧ fr.lenOk = true ∧ fr.nextHeader = 58 ∧ fr.dstIp = pAddr (ethOf (clockTo s fr.now) fr.port) ∧ fr.checksumOk = true ∧ fr.solicit = true)
    ∧ (∃ (fr : EthFrame) (s : State), ethUp (clockTo s fr.now) fr.port = true ∧ frameAccepted (clockTo s fr.now) fr = true ∧ fr.etherType = 0x86DD ∧ fr.extHeader = false ∧ fr.lenOk = true ∧ fr.nextHeader = 17 ∧ fr.dstIp = pAddr (ethOf (clockTo s fr.now) fr.port) ∧ (fr.udpDst = 319 ∨ fr.udpDst = 320) ∧ ptpUdp (clockTo s fr.now) = false)
    ∧ (∃ (fr : EthFrame) (s : State), ethUp (clockTo s fr.now) fr.port = false)
    ∧ (∃ (p : Port) (s : State), rb (ethOf s p).record 0 = true ∧ (s.boot.plls.getD (epllKey p) {}).locked = true)
    ∧ (∃ (p : Port) (s : State), (rb (ethOf s p).record 0 = false ∨ (s.boot.plls.getD (epllKey p) {}).locked = false))
    ∧ (∃ (p : Port) (s : State), (ethOf s p).link ≠ 0)
    ∧ (∃ (p : Port) (s : State), (ethOf s p).link = 0) :=
  ⟨⟨0, 0, 0, 8, 2 ^ 16 + 70, queueA, wired, by decide +kernel⟩,
   ⟨0, 0, 0, 8, 2 ^ 16 * 65 + 70, queueA, wired, by decide +kernel⟩,
   ⟨0, 0, 0, 8, 2 ^ 62 + 2 ^ 16 + 70, [{ op := 8 }], queueA, wired, by decide +kernel⟩,
   ⟨0, 0, 0, 8, 2 ^ 63 + 70, { domain := 1 }, wired, by decide +kernel⟩,
   ⟨0, 0, 0, 8, 2 ^ 63 + 2 ^ 62 + 70, { domain := 1 }, wired, by decide +kernel⟩,
   ⟨0, 0, up, by decide +kernel⟩,
   ⟨70, 0, postQ ({}) (queueA), {}, [], { wired (postQ ({}) (queueA)) with net := { (wired (postQ ({}) (queueA))).net with fencedNodes := [2] } }, by decide +kernel⟩,
   ⟨70, 0, postQ ({ op := 0 }) (queueA), { op := 0 }, [], wired (postQ ({ op := 0 }) (queueA)), .badField, by decide +kernel⟩,
   ⟨70, 0, postQ ({ parked := true, count := 1 }) ({ queueA with parked := List.replicate 64 {} }), { parked := true, count := 1 }, [], wired (postQ ({ parked := true, count := 1 }) ({ queueA with parked := List.replicate 64 {} })), by decide +kernel⟩,
   ⟨70, 0, postQ ({ fence := true }) ({ queueA with sent := Map.empty.set 0 { op := 2 } }), { fence := true }, [], wired (postQ ({ fence := true }) ({ queueA with sent := Map.empty.set 0 { op := 2 } })), by decide +kernel⟩,
   ⟨70, 0, postQ ({}) (queueA), {}, [], wired (postQ ({}) (queueA)), regA, 0, by decide +kernel⟩,
   ⟨0, 5, {}, { up with net := { up.net with shapers := Map.empty.set 5 {} } }, by decide +kernel⟩,
   ⟨0, up, by decide +kernel⟩,
   ⟨0, 0, {}, { wired with net := { wired.net with egress := [{}] } }, ⟨by decide +kernel, by decide +kernel, by decide +kernel, by decide +kernel, by decide +kernel, by decide +kernel, by decide +kernel, fun _ _ _ _ h => nomatch h⟩⟩,
   ⟨{ fcsOk := false }, wired, by decide +kernel⟩,
   ⟨{ extHeader := true }, wired, by decide +kernel⟩,
   ⟨{ nextHeader := 58, solicit := true }, wired, by decide +kernel⟩,
   ⟨{ udpDst := 319 }, { wired with time := { wired.time with record := 0 } }, by decide +kernel⟩,
   ⟨{}, up, by decide +kernel⟩,
   ⟨0, { wired with boot := { wired.boot with plls := Map.empty.set 28 { locked := true } } }, by decide +kernel⟩,
   ⟨0, up, by decide +kernel⟩,
   ⟨0, wired, by decide +kernel⟩,
   ⟨0, up, by decide +kernel⟩⟩

theorem holds_somewhere_SessionsOpenAndEnd :
    (∃ (s : State), spdmUp s = true)
    ∧ (∃ (p : Port) (s : State), spdmFull s = true ∧ s.boot.identityFault = false ∧ (getConn s p).unexpected = false)
    ∧ (∃ (p : Port) (s : State), spdmUp s = true ∧ s.boot.identityFault = false ∧ ((getConn s p).negotiated = false ∨ (getConn s p).unexpected = true))
    ∧ (∃ (s : State), spdmUp s = true ∧ s.boot.identityFault = true)
    ∧ (∃ (p : Port) (s : State), Negotiated s p)
    ∧ (∃ (p : Port) (s : State), Negotiated s p)
    ∧ (∃ (p : Port) (s : State), Negotiated s p ∧ 4 ≤ sessionCount s true)
    ∧ (∃ (p : Port) (s : State), Negotiated s p ∧ sessionCount s true < 4)
    ∧ (∃ (p : Port) (k : Nat) (a b : Bool) (x : Session) (s : State), Negotiated s p ∧ s.sec.sessions.get? k = some x ∧ x.port = p ∧ x.setup = true ∧ x.finished = false ∧ a = true ∧ b = true ∧ (getConn s p).supplied = true)
    ∧ (∃ (p : Port) (k : Nat) (a b : Bool) (x : Session) (s : State), Negotiated s p ∧ s.sec.sessions.get? k = some x ∧ x.port = p ∧ x.setup = true ∧ x.finished = false ∧ (a = false ∨ b = false ∨ (getConn s p).supplied = false))
    ∧ (∃ (p : Port) (k : Nat) (x : Session) (s : State), Negotiated s p ∧ s.sec.sessions.get? k = some x ∧ x.port = p ∧ x.setup = true ∧ x.finished = true)
    ∧ (∃ (p : Port) (h : Nat) (x : Psk) (s : State), Negotiated s p ∧ s.sec.psks.get? h = some x ∧ 16 ≤ sessionCount s false)
    ∧ (∃ (p : Port) (h : Nat) (x : Psk) (s : State), Negotiated s p ∧ s.sec.psks.get? h = some x ∧ sessionCount s false < 16)
    ∧ (∃ (p : Port) (h : Nat) (s : State), Negotiated s p ∧ s.sec.psks.get? h = none)
    ∧ (∃ (h n : Nat) (x : Psk) (s : State), s.sec.psks.get? h = some x ∧ x.madeAt + 10000000000 ≤ (clockTo s n).ns)
    ∧ (∃ (h n : Nat) (x : Psk) (s : State), s.sec.psks.get? h = some x ∧ (clockTo s n).ns < x.madeAt + 10000000000)
    ∧ (∃ (k n : Nat) (x : Session) (s : State), s.sec.sessions.get? k = some x ∧ (x.setup = true ∨ (clockTo s n).ns < x.lastMsg + 60000000000))
    ∧ (∃ (k n : Nat) (x : Session) (s : State), s.sec.sessions.get? k = some x ∧ x.setup = false ∧ x.lastMsg + 60000000000 ≤ (clockTo s n).ns ∧ (∀ g ∈ s.flights, g.session ≠ some k))
    ∧ (∃ (k n : Nat) (x : Session) (s : State), s.sec.sessions.get? k = some x ∧ x.setup = false ∧ x.lastMsg + 60000000000 ≤ (clockTo s n).ns ∧ (∃ g ∈ s.flights, g.session = some k))
    ∧ (∃ (p : Port) (k : Nat) (x : Session) (s : State), Negotiated s p ∧ s.sec.sessions.get? k = some x ∧ x.port = p ∧ (∀ g ∈ s.flights, g.session ≠ some k))
    ∧ (∃ (p : Port) (s : State), Negotiated s p)
    ∧ (∃ (p : Port) (k : Nat) (x : Session) (s : State), Negotiated s p ∧ s.sec.sessions.get? k = some x ∧ x.port = p ∧ x.setup = false ∧ isOfficer s x = false)
    ∧ (∃ (p : Port) (k stream : Nat) (x : Session) (s : State), Negotiated s p ∧ s.sec.sessions.get? k = some x ∧ x.port = p ∧ x.setup = false ∧ isOfficer s x = true ∧ stream ≤ 8)
    ∧ (∃ (p : Port) (f : Func) (k : Nat) (x : Session) (s : State), Negotiated s p ∧ s.sec.sessions.get? k = some x ∧ x.port = p ∧ x.setup = false ∧ isOfficer s x = true ∧ (domainOf s p f).getD 0 ≠ 0 ∧ (getF s p f).tdisp = .unlocked)
    ∧ (∃ (p : Port) (f : Func) (k : Nat) (x : Session) (s : State), Negotiated s p ∧ s.sec.sessions.get? k = some x ∧ x.port = p ∧ x.setup = false ∧ isOfficer s x = true ∧ ((domainOf s p f).getD 0 = 0 ∨ (getF s p f).tdisp ≠ .unlocked))
    ∧ (∃ (p : Port) (f : Func) (s : State), running s = true ∧ (getF s p f).tdisp = .configLocked)
    ∧ (∃ (p : Port) (f : Func) (s : State), running s = true ∧ (getF s p f).tdisp = .run)
    ∧ (∃ (p : Port) (f : Func) (s : State), running s = true ∧ (getF s p f).tdisp = .configLocked) :=
  ⟨⟨up, by decide +kernel⟩,
   ⟨0, secured, by decide +kernel⟩,
   ⟨0, up, by decide +kernel⟩,
   ⟨{ up with boot := { up.boot with identityFault := true } }, by decide +kernel⟩,
   ⟨0, secured, ⟨by decide +kernel, by decide +kernel, by decide +kernel, by decide +kernel⟩⟩,
   ⟨0, secured, ⟨by decide +kernel, by decide +kernel, by decide +kernel, by decide +kernel⟩⟩,
   ⟨0, secured ⟨(List.range 4).map fun k => (k, {})⟩, ⟨⟨by decide +kernel, by decide +kernel, by decide +kernel, by decide +kernel⟩, by decide +kernel⟩⟩,
   ⟨0, secured, ⟨⟨by decide +kernel, by decide +kernel, by decide +kernel, by decide +kernel⟩, by decide +kernel⟩⟩,
   ⟨0, 1, true, true, {}, secured (Map.empty.set 1 {}), ⟨⟨by decide +kernel, by decide +kernel, by decide +kernel, by decide +kernel⟩, by decide +kernel, by decide +kernel, by decide +kernel, by decide +kernel, by decide +kernel, by decide +kernel, by decide +kernel⟩⟩,
   ⟨0, 1, false, true, {}, secured (Map.empty.set 1 {}), ⟨⟨by decide +kernel, by decide +kernel, by decide +kernel, by decide +kernel⟩, by decide +kernel, by decide +kernel, by decide +kernel, by decide +kernel, by decide +kernel⟩⟩,
   ⟨0, 1, { finished := true }, secured (Map.empty.set 1 { finished := true }), ⟨⟨by decide +kernel, by decide +kernel, by decide +kernel, by decide +kernel⟩, by decide +kernel, by decide +kernel, by decide +kernel, by decide +kernel⟩⟩,
   ⟨0, 5, {}, secured ⟨(List.range 16).map fun k => (k, { setup := false })⟩ (Map.empty.set 5 {}), ⟨⟨by decide +kernel, by decide +kernel, by decide +kernel, by decide +kernel⟩, by decide +kernel, by decide +kernel⟩⟩,
   ⟨0, 5, {}, secured .empty (Map.empty.set 5 {}), ⟨⟨by decide +kernel, by decide +kernel, by decide +kernel, by decide +kernel⟩, by decide +kernel, by decide +kernel⟩⟩,
   ⟨0, 5, secured, ⟨⟨by decide +kernel, by decide +kernel, by decide +kernel, by decide +kernel⟩, by decide +kernel⟩⟩,
   ⟨5, 10000000000, {}, secured .empty (Map.empty.set 5 {}), by decide +kernel⟩,
   ⟨5, 0, {}, secured .empty (Map.empty.set 5 {}), by decide +kernel⟩,
   ⟨1, 0, {}, secured (Map.empty.set 1 {}), by decide +kernel⟩,
   ⟨1, 60000000000, { setup := false }, secured (Map.empty.set 1 { setup := false }), by decide +kernel⟩,
   ⟨1, 60000000000, { setup := false }, { secured (Map.empty.set 1 { setup := false }) with flights := [{ session := some 1 }] }, by decide +kernel⟩,
   ⟨0, 1, {}, secured (Map.empty.set 1 {}), ⟨⟨by decide +kernel, by decide +kernel, by decide +kernel, by decide +kernel⟩, by decide +kernel, by decide +kernel, by decide +kernel⟩⟩,
   ⟨0, secured, ⟨by decide +kernel, by decide +kernel, by decide +kernel, by decide +kernel⟩⟩,
   ⟨0, 1, { setup := false }, secured (Map.empty.set 1 { setup := false }), ⟨⟨by decide +kernel, by decide +kernel, by decide +kernel, by decide +kernel⟩, by decide +kernel, by decide +kernel, by decide +kernel, by decide +kernel⟩⟩,
   ⟨0, 1, 0, { setup := false, requester := 7 }, secured (Map.empty.set 1 { setup := false, requester := 7 }), ⟨⟨by decide +kernel, by decide +kernel, by decide +kernel, by decide +kernel⟩, by decide +kernel, by decide +kernel, by decide +kernel, by decide +kernel, by decide +kernel⟩⟩,
   ⟨0, 1, 1, { setup := false, requester := 7 }, { secured (Map.empty.set 1 { setup := false, requester := 7 }) with funcs := Map.empty.set 1 { assigned := some 1 } }, ⟨⟨by decide +kernel, by decide +kernel, by decide +kernel, by decide +kernel⟩, by decide +kernel, by decide +kernel, by decide +kernel, by decide +kernel, by decide +kernel, by decide +kernel⟩⟩,
   ⟨0, 0, 1, { setup := false, requester := 7 }, secured (Map.empty.set 1 { setup := false, requester := 7 }), ⟨⟨by decide +kernel, by decide +kernel, by decide +kernel, by decide +kernel⟩, by decide +kernel, by decide +kernel, by decide +kernel, by decide +kernel, by decide +kernel⟩⟩,
   ⟨0, 0, { up with funcs := Map.empty.set 0 { tdisp := .configLocked } }, by decide +kernel⟩,
   ⟨0, 0, { up with funcs := Map.empty.set 0 { tdisp := .run } }, by decide +kernel⟩,
   ⟨0, 0, { up with funcs := Map.empty.set 0 { tdisp := .configLocked } }, by decide +kernel⟩⟩

theorem holds_somewhere_LifeCycleCommandsActOnFuses :
    (Meets rowSecStatus (fun _ _ => True))
    ∧ (Meets rowLcNonce (fun d _ => byt d.body 0 7 % 64 = 0))
    ∧ (Meets rowLcProvision (fun _ s => lifeCycle s ≠ .manufacture))
    ∧ (Meets rowLcProvision (fun d s => lifeCycle s = .manufacture ∧ byt d.body 8 15 % 64 = 0 ∧ 4532 ≤ byt d.body 16 19 ∧ hostStatus d.env.host = none ∧ verifies s d = true ∧ isToken (hostData d) = true ∧ bit (tokenScope (hostData d)) 0 = true ∧ d.env.fuseOk = true))
    ∧ (Meets rowLcProvision (fun d s => lifeCycle s = .manufacture ∧ byt d.body 8 15 % 64 = 0 ∧ hostStatus d.env.host = none ∧ verifies s d = false))
    ∧ (Meets rowLcOperate (fun _ s => lifeCycle s ≠ .provisioned ∨ s.sec.debugOpened = true))
    ∧ (Meets rowLcOperate (fun d s => lifeCycle s = .provisioned ∧ s.sec.debugOpened = false ∧ d.env.fuseOk = true ∧ s.sec.fuses.owner0 = 0))
    ∧ (Meets rowOwnerRotate (fun _ s => lifeCycle s ≠ .operational))
    ∧ (Meets rowOwnerRotate (fun d s => lifeCycle s = .operational ∧ hostStatus d.env.host = none ∧ isToken (hostData d) = true))
    ∧ (Meets rowOwnerRotate (fun d s => lifeCycle s = .operational ∧ hostStatus d.env.host = none ∧ verifies s d = true ∧ isToken (hostData d) = false ∧ isRequest (hostData d) = true ∧ tokenScope (hostData d) = 1 ∧ d.env.fuseOk = true ∧ s.sec.fuses.owner0 ≠ 0 ∧ s.sec.fuses.owner1 = 0 ∧ s.sec.fuses.owner2 = 0 ∧ s.sec.fuses.owner3 = 0))
    ∧ (Meets rowOwnerRotate (fun d s => lifeCycle s = .operational ∧ hostStatus d.env.host = none ∧ verifies s d = true ∧ isToken (hostData d) = false ∧ isRequest (hostData d) = true ∧ tokenScope (hostData d) = 1 ∧ s.sec.fuses.owner3 ≠ 0))
    ∧ (Meets rowLcReturn (fun _ s => lifeCycle s ≠ .provisioned ∧ lifeCycle s ≠ .operational))
    ∧ (Meets rowLcReturn (fun d s => lifeCycle s = .operational ∧ s.sec.erase = none ∧ hostStatus d.env.host = none ∧ verifies s d = true ∧ isToken (hostData d) = false ∧ isRequest (hostData d) = true ∧ tokenScope (hostData d) = 2))
    ∧ (Meets rowLcScrap (fun _ s => lifeCycle s = .scrapped))
    ∧ (Meets rowLcScrap (fun d s => lifeCycle s = .provisioned ∧ s.sec.erase = none ∧ hostStatus d.env.host = none ∧ verifies s d = true ∧ isToken (hostData d) = true ∧ bit (tokenScope (hostData d)) 3 = true))
    ∧ (Meets rowLcScrap (fun d s => lifeCycle s = .manufacture ∧ s.sec.erase = none ∧ hostStatus d.env.host = none ∧ verifies s d = true ∧ isToken (hostData d) = true ∧ bit (tokenScope (hostData d)) 3 = true ∧ d.env.fuseOk = true))
    ∧ (∃ (s : State), s.sec.erase = none)
    ∧ (∃ (e : Erase) (s : State), s.sec.erase = some e)
    ∧ (∃ (e : Erase) (s : State), s.sec.erase = some e)
    ∧ (∃ (d : Desc) (s : State), reaches rowZeroise d s = true)
    ∧ (Meets rowDebugOpen (fun _ s => lifeCycle s = .operational ∨ lifeCycle s = .scrapped))
    ∧ (Meets rowDebugOpen (fun d s => lifeCycle s = .provisioned ∧ hostStatus d.env.host = none ∧ verifies s d = true ∧ isToken (hostData d) = true ∧ bit (tokenScope (hostData d)) 1 = true))
    ∧ (Meets rowDebugOpen (fun d s => lifeCycle s = .provisioned ∧ hostStatus d.env.host = none ∧ verifies s d = true ∧ isToken (hostData d) = true ∧ bit (tokenScope (hostData d)) 1 = false))
    ∧ (∃ (s : State), s.boot.sideband = true)
    ∧ (∃ (s : State), s.boot.sideband = true)
    ∧ (∃ (s : State), s.boot.sideband = false) :=
  ⟨meets (cmd 0 0) (up) (⟨by decide +kernel, trivial⟩),
   meets (cmd 0 8) (up) (by decide +kernel),
   meets (cmd 0 20) (trusted (fuses 7 0 0 0)) (by decide +kernel),
   meets (withData (cmd (bytes [(8, 0), (8, 0), (4, 10000)]) 20) (tokenOf 1)) (trusted (fuses 0 0 0 0)) (by decide +kernel),
   meets (withData (cmd (bytes [(8, 0), (8, 0), (4, 10000)]) 20) (0)) (trusted (fuses 0 0 0 0)) (by decide +kernel),
   meets (officer 0 0) (trusted (fuses 7 7 0 0)) (by decide +kernel),
   meets (officer 0 0) (trusted (fuses 7 0 0 0 0)) (by decide +kernel),
   meets (cmd 0 8) (trusted (fuses 7 0 0 0)) (by decide +kernel),
   meets (withData (cmd 0 8) (tokenOf 1)) (trusted (fuses 7 7 0 0)) (by decide +kernel),
   meets (withData (cmd 0 8) (requestOf 1)) (trusted (fuses 7 7 0 0 (digestOf 0 436))) (by decide +kernel),
   meets (withData (cmd 0 8) (requestOf 1)) (trusted { fuses 7 7 0 0 with owner3 := digestOf 0 436 }) (by decide +kernel),
   meets (cmd 0 8) (trusted (fuses 0 0 0 0)) (by decide +kernel),
   meets (withData (cmd 0 8) (requestOf 2)) (trusted (fuses 7 7 0 0 (digestOf 0 436))) (by decide +kernel),
   meets (cmd 0 8) (trusted (fuses 7 7 0 7)) (by decide +kernel),
   meets (withData (cmd 0 8) (tokenOf 8)) (trusted (fuses 7 0 0 0)) (by decide +kernel),
   meets (withData (cmd 0 8) (tokenOf 8)) (trusted (fuses 0 0 0 0)) (by decide +kernel),
   ⟨up, by decide +kernel⟩,
   ⟨{}, { tenant with sec := { tenant.sec with erase := some {} } }, by decide +kernel⟩,
   ⟨{}, { tenant with sec := { tenant.sec with erase := some {} } }, by decide +kernel⟩,
   ⟨officer 0 0, trusted (fuses 7 7 0 0), by decide +kernel⟩,
   meets (cmd 0 8) (trusted (fuses 7 7 0 0)) (by decide +kernel),
   meets (withData (cmd 0 8) (tokenOf 2)) (trusted (fuses 7 0 0 0)) (by decide +kernel),
   meets (withData (cmd 0 8) (tokenOf 1)) (trusted (fuses 7 0 0 0)) (by decide +kernel),
   ⟨up, by decide +kernel⟩,
   ⟨up, by decide +kernel⟩,
   ⟨{ up with boot := { up.boot with sideband := false } }, by decide +kernel⟩⟩

theorem holds_somewhere_StepRunsTheFront :
    (∃ (s : State), s.pending = []) :=
  ⟨up, by decide +kernel⟩

theorem holds_somewhere_CommandsLeaveTheQueue :
    (∃ (c : Instr) (s t : State), exec c s = .next t) :=
  ⟨.getVersion 0, up, _, rfl⟩

theorem holds_somewhere_LifeCycleNeverGoesBack :
    (∃ (s t : State), step s = .next t)
    ∧ (∃ (n : Nat) (s t : State), n ≤ (lifeCycle s).code ∧ step s = .next t) :=
  ⟨⟨up, _, rfl⟩,
   ⟨0, up, _, ⟨by decide +kernel, rfl⟩⟩⟩

theorem holds_somewhere_BulkWindowStaysCanonical :
    (∃ (s t : State), s.bulkOk ∧ step s = .next t) :=
  ⟨up, _, ⟨rfl, rfl⟩⟩

theorem holds_somewhere_ChecksComeInTheirOrder :
    (∃ (r : HRow) (d : Desc) (s : State), fetchable s d = true ∧ waitsForTests r s = false ∧ s.boot.phase = .ready ∧ s.sec.mod ≠ .error ∧ d.rsv ≠ 0)
    ∧ (∃ (r : HRow) (d : Desc) (s : State), fetchable s d = true ∧ waitsForTests r s = false ∧ s.boot.phase = .ready ∧ s.sec.mod ≠ .error ∧ d.rsv = 0 ∧ (63 < d.domain.toNat ∨ (d.ptr = true ∧ d.secured = false ∧ d.length = 0) ∨ (d.ptr = false ∧ (48 < d.length.toNat ∨ r.ptr = true))))
    ∧ (∃ (r : HRow) (d : Desc) (s : State), fetchable s d = true ∧ waitsForTests r s = false ∧ s.boot.phase = .ready ∧ s.sec.mod ≠ .error ∧ d.rsv = 0 ∧ shapeBad r d = false ∧ (mayName r d (fetchCmd s d) = false ∨ roleOk r d (fetchCmd s d) = false ∨ (d.secured = true ∧ sessionOf (fetchCmd s d) d = none)))
    ∧ (∃ (r : HRow) (d : Desc) (s : State), fetchable s d = true ∧ waitsForTests r s = false ∧ s.boot.phase = .ready ∧ s.sec.mod ≠ .error ∧ d.rsv = 0 ∧ shapeBad r d = false ∧ mayName r d (fetchCmd s d) = true ∧ roleOk r d (fetchCmd s d) = true ∧ (d.secured = true → (sessionOf (fetchCmd s d) d).isSome = true) ∧ r.lenOk d.body d.length.toNat = false)
    ∧ (∃ (r : HRow) (d : Desc) (s : State), fetchable s d = true ∧ waitsForTests r s = false ∧ s.boot.phase = .ready ∧ s.sec.mod ≠ .error ∧ d.rsv = 0 ∧ shapeBad r d = false ∧ mayName r d (fetchCmd s d) = true ∧ roleOk r d (fetchCmd s d) = true ∧ (d.secured = true → (sessionOf (fetchCmd s d) d).isSome = true) ∧ r.lenOk d.body d.length.toNat = true ∧ (d.pad ≠ 0 ∨ ∃ i, i < 8 * d.length.toNat ∧ bit d.body i = true ∧ bit (maskOf (r.named d.body d.length.toNat)) i = false)) :=
  ⟨⟨rowSecStatus, { cmd 0 0 with rsv := 1 }, up, by decide +kernel⟩,
   ⟨rowSecStatus, cmd 0 0 64, up, by decide +kernel⟩,
   ⟨rowZeroise, cmd 0 0, up, by decide +kernel⟩,
   ⟨rowSecStatus, cmd 0 1, up, by decide +kernel⟩,
   ⟨rowSecStatus, { cmd 0 0 with pad := 1 }, up, ⟨by decide +kernel, by decide +kernel, by decide +kernel, by decide +kernel, by decide +kernel, by decide +kernel, by decide +kernel, by decide +kernel, by decide +kernel, by decide +kernel, Or.inl (by decide +kernel)⟩⟩⟩

theorem holds_somewhere_AnswersStandInTheRing :
    (∃ (r : HRow) (d : Desc) (s : State), domSealed s d.domain.toNat = false ∧ r.opcode < 65536)
    ∧ (∃ (d : Desc) (s : State), domSealed s d.domain.toNat = false)
    ∧ (∃ (d : Desc) (s : State), domSealed s d.domain.toNat = true) :=
  ⟨⟨rowSecStatus, cmd 0 0, up, by decide +kernel⟩,
   ⟨cmd 0 0, up, by decide +kernel⟩,
   ⟨cmd 0 0 1, { up with domains := Map.empty.set 1 { state := .active, sealed := true } }, by decide +kernel⟩⟩

theorem holds_somewhere_ClustersGoToTheLargestDeficit :
    (∃ (s : State) (l : List Nat), l ≠ [] ∧ l.Nodup ∧ (∀ x ∈ l, x < 64) ∧ (∀ x ∈ l, 0 < weightOf s x * quantum s)) :=
  ⟨up, [1], by decide +kernel⟩

theorem holds_somewhere_CodeWordsReadBack :
    (∃ (c : Coder), c.tset = 15)
    ∧ (∃ (fmt : Nat) (segs : List Seg), (chooseCoder fmt segs).tset = 15)
    ∧ (∃ (c : Coder) (r u : Nat), c.tset < 15 ∧ r = c.tset / 3 ∧ (c.tset % 3 = 0 → u = 2) ∧ (c.tset % 3 = 1 → u = 4) ∧ (c.tset % 3 = 2 → u = 8))
    ∧ (∃ (e x : Nat), x < 2 ^ e) :=
  ⟨⟨⟨15, false, 0⟩, by decide +kernel⟩,
   ⟨1, (List.range 8).map fun i => ⟨0, (List.range 32).map fun j => 32 * i + j⟩, by decide +kernel⟩,
   ⟨⟨4, false, 0⟩, 1, 4, by decide +kernel⟩,
   ⟨8, 5, by decide +kernel⟩⟩

theorem holds_somewhere_PackedBlocksReadBack :
    (∃ (fmt : Nat) (c : Coder) (segs : List Seg), fmt ≤ 6 ∧ (∀ g ∈ segs, g.els.length = 32 ∧ (if fmtMx fmt then g.scale < 256 else g.scale = 0) ∧ ∀ x ∈ g.els, x < 2 ^ fmtBits fmt ∧ (elemZero fmt x = true → x = 0) ∧ (fmt = 6 → x ≠ 128)) ∧ (blockBody fmt c segs).length ≤ 4032) :=
  ⟨1, ⟨4, false, 0⟩, [⟨0, List.replicate 32 9⟩], by decide +kernel⟩

theorem holds_somewhere_RowOperationsRunInOrder :
    (Meets rowRowOp (fun d s => rowBad s (fld d.body 2 0) (fld d.body 63 32) (fld d.body 127 64) (fld d.body 191 128) (fld d.body 255 192) = false ∧ s.rowOps.length < 16))
    ∧ (∃ (c : Cluster) (before after : List RowOpSt) (o : RowOpSt) (s : State), s.rowOps = before ++ o :: after ∧ (s.rowOps.map (·.id)).Nodup ∧ (∀ x ∈ before, x.rows ≤ x.doneRows.getD c.val 0) ∧ o.doneRows.getD c.val 0 < o.rows) :=
  ⟨meets (cmd (2 ^ 32 + 1) 32) (bulked) (by decide +kernel),
   ⟨0, [{ rows := 8, doneRows := Map.empty.set 0 8, id := 1 }], [], { rows := 9 }, { up with rowOps := [{ rows := 8, doneRows := Map.empty.set 0 8, id := 1 }, { rows := 9 }] }, by decide +kernel⟩⟩

theorem holds_somewhere_MessagesAreCutIntoPackets :
    (∃ (s : State) (qk : Nat) (q : QueueSt) (m : SendMsg) (bytes : Nat), getWq s qk = some q ∧ m.sent = .empty ∧ (bytes = (if m.op = 2 ∨ m.op = 7 ∨ m.op = 8 then 0 else m.total)))
    ∧ (∃ (k n : Nat) (q : QueueSt) (w : WorkRequest) (rest : List WorkRequest) (s : State), getWq (clockTo s n) k = some q ∧ q.sq = w :: rest ∧ q.state = .ready ∧ trafficOff (clockTo s n) = false ∧ s.boot.failed = false ∧ qPeerNode q ∉ s.net.fencedNodes ∧ w.rsv = 0 ∧ 16777216 < w.length)
    ∧ (∃ (k : Packet) (s : State) (bytes : Nat), trafficOff (clockTo s k.now) = false ∧ s.boot.failed = false ∧ ethUp (clockTo s k.now) k.port = true ∧ k.frameOk = true ∧ k.op ≠ 16 ∧ k.op ≠ 17 ∧ (bytes = (if k.op = 2 ∨ k.op = 7 ∨ k.op = 8 then 0 else k.totalLen)) ∧ (k.offset % 4096 ≠ 0 ∨ 16777216 < k.totalLen ∨ max 1 (ceilDiv bytes 4096) ≤ k.offset / 4096 ∨ k.payLen ≠ min 4096 (bytes - k.offset))) :=
  ⟨⟨wired, 70, queueA, { op := 1, total := 8192 }, 8192, by decide +kernel⟩,
   ⟨70, 0, postQ { length := 16777217 }, { length := 16777217 }, [], wired (postQ { length := 16777217 }), by decide +kernel⟩,
   ⟨{ packet 4 with offset := 1 }, wired, 0, by decide +kernel⟩⟩

/-! ## The ill-formed terms that each check refuses -/

theorem test_refuses_selftest_record : Instr.wf (.selftestComplete 0 { record := 2 ^ 4096 }) = false := by
  simp [Instr.wf, fits]
theorem test_refuses_training_of_one_channel : Instr.wf (.dramTrainingDone [{}] true) = false := by decide
theorem test_refuses_density_code : Instr.wf (.dramTrainingDone (List.replicate 20 { density := 4 }) true) = false := by decide
theorem test_refuses_time_of_a_sample : Instr.wf (.thermalSample (2 ^ 64) (List.replicate 24 0)) = false := by decide
theorem test_refuses_sensor_count : Instr.wf (.thermalSample 0 [0]) = false := by decide
theorem test_refuses_time_of_an_epoch : Instr.wf (.epochBoundary (2 ^ 64) 0) = false := by decide
theorem test_refuses_time_of_a_flush_point : Instr.wf (.flushPoint (2 ^ 64)) = false := by decide
theorem test_refuses_time_of_partner_silence : Instr.wf (.partnerSilenceTimeout (2 ^ 64)) = false := by decide
theorem test_refuses_time_of_a_ptp_message : Instr.wf (.ptpMessage 0 (2 ^ 64) .delayResp) = false := by decide
theorem test_refuses_time_of_announce_timeout : Instr.wf (.announceTimeout (2 ^ 64)) = false := by decide
theorem test_refuses_time_of_holdover : Instr.wf (.holdoverDriftWarning (2 ^ 64) 0) = false := by decide
theorem test_refuses_latch_size : Instr.wf (.timeReadLatch 0 0 0) = false := by decide
theorem test_refuses_row_past_the_window : Instr.wf (.stepRowWrite 0 0 (2 ^ 32) 1 0) = false := by decide
theorem test_refuses_row_data_over_its_length : Instr.wf (.stepRowWrite 0 0 0 1 256) = false := by decide
theorem test_refuses_mark_heat : Instr.wf (.stepMark 0 0 0 4096 8 0) = false := by decide
theorem test_refuses_mark_size : Instr.wf (.stepMark 0 0 0 0 9 0) = false := by decide
theorem test_refuses_lap_heat : Instr.wf (.lapStart 4096 0 0 0) = false := by decide
theorem test_refuses_operation_heat : Instr.wf (.mxeAtt { heat := 4096 }) = false := by decide
theorem test_refuses_fault_heat : Instr.wf (.pageFaultResolved 4096 0 false 0) = false := by decide
theorem test_refuses_lap_end_heat : Instr.wf (.lapEnd 4096 0) = false := by decide
theorem test_refuses_fold_heat : Instr.wf (.relayFold 4096 0) = false := by decide
theorem test_refuses_selector_time : Instr.wf (.selectorQuery 0 (2 ^ 64)) = false := by decide
theorem test_refuses_index_layer : Instr.wf (.indexBuild 0 256 0) = false := by decide
theorem test_refuses_index_group : Instr.wf (.indexBuildComplete 0 0 64 true) = false := by decide
theorem test_refuses_refill_slice : Instr.wf (.poolRefill 32 0 []) = false := by decide
theorem test_refuses_refill_frames : Instr.wf (.poolRefill 0 0 [2 ^ 24]) = false := by decide
theorem test_refuses_frame_number : Instr.wf (.frameReclaim (2 ^ 24)) = false := by decide
theorem test_refuses_tested_frame : Instr.wf (.frameTest (2 ^ 24) true) = false := by decide
theorem test_refuses_copied_frame : Instr.wf (.frameCopyCommit (2 ^ 24)) = false := by decide
theorem test_refuses_repaired_frame : Instr.wf (.pageRepair (2 ^ 24) 0) = false := by decide
theorem test_refuses_reopened_frame : Instr.wf (.reopenCopy (2 ^ 24) true) = false := by decide
theorem test_refuses_truncated_sequence : Instr.wf (.truncateCommit (2 ^ 48) 0) = false := by decide
theorem test_refuses_renewed_frame : Instr.wf (.collectionFrameRenewal (2 ^ 24)) = false := by decide
theorem test_refuses_published_sequence : Instr.wf (.nodePublication (2 ^ 48)) = false := by decide
theorem test_refuses_row_record : Instr.wf (.rowRecordRelease (2 ^ 32)) = false := by decide
theorem test_refuses_dma_time : Instr.wf (.dmaFaultResolved 0 false (2 ^ 64)) = false := by decide
theorem test_refuses_no_room_time : Instr.wf (.dmaNoRoomTimeout 0 (2 ^ 64)) = false := by decide
theorem test_refuses_completion_time : Instr.wf (.pcieCompletionTimeout 0 0 0 0 (2 ^ 64)) = false := by decide
theorem test_refuses_unit_number : Instr.wf (.diePersistentFailure 256) = false := by decide
theorem test_refuses_leased_sequence : Instr.wf (.leaseExpiry (2 ^ 48) 0) = false := by decide
theorem test_refuses_handed_off_sequence : Instr.wf (.handoffDeadline (2 ^ 48) 0) = false := by decide
theorem test_refuses_forward_correlation : Instr.wf (.forwardTimeout (2 ^ 32) 0) = false := by decide
theorem test_refuses_merge_domain : Instr.wf (.mergeTimeout 64 0 0 0) = false := by decide
theorem test_refuses_psk_hint : Instr.wf (.pskExpiry (2 ^ 128) 0) = false := by decide
theorem test_refuses_session_number : Instr.wf (.sessionIdleTimeout (2 ^ 32) 0) = false := by decide
theorem test_refuses_failed_node : Instr.wf (.promotion 4096 0 0) = false := by decide
theorem test_refuses_reseed_partner : Instr.wf (.reseed 4096 0) = false := by decide
theorem test_refuses_spilled_sequence : Instr.wf (.spillRequest (2 ^ 48) 0) = false := by decide
theorem test_refuses_migration_group : Instr.wf (.migration 0 0 64 0) = false := by decide
theorem test_refuses_drained_slice : Instr.wf (.sliceDrainComplete 32 0) = false := by decide
theorem test_refuses_reset_domain : Instr.wf (.domainResetContinue 64 0) = false := by decide
theorem test_refuses_verified_course : Instr.wf (.courseVerifyDone (2 ^ 16) 0) = false := by decide
theorem test_refuses_region_index : Instr.wf (.revokeDrained (2 ^ 18) 0) = false := by decide
theorem test_refuses_frame_fields : Instr.wf (.ethFrameReceived { etherType := 2 ^ 16 }) = false := by decide
theorem test_refuses_packet_address : Instr.wf (.coriskanoPacket { addr := 2 ^ 48 }) = false := by decide
theorem test_refuses_packet_extensions : Instr.wf (.coriskanoPacket { ext := 1 }) = false := by decide
theorem test_refuses_packet_payload : Instr.wf (.ack { payLen := 1, payload := 256 }) = false := by decide
theorem test_refuses_message_id : Instr.wf (.read { msgId := 2 ^ 32 }) = false := by decide
theorem test_refuses_skipping_peer : Instr.wf (.mgmtSkipTimeout 4096 0) = false := by decide
theorem test_refuses_reply_correlation : Instr.wf (.mgmtReplyTimeout (2 ^ 32) 0) = false := by decide
theorem test_refuses_calendar_time : Instr.wf (.calendarSlot (2 ^ 64)) = false := by decide
theorem test_refuses_egress_time : Instr.wf (.egressFrameStart 0 (2 ^ 64)) = false := by decide
theorem test_refuses_posting_queue : Instr.wf (.workRequestSend (2 ^ 16) 0 .error) = false := by decide
theorem test_refuses_management_source : Instr.wf (.heartbeat { src := 4096 }) = false := by decide
theorem test_refuses_management_body : Instr.wf (.capReport { msgLen := 1, body := 256 }) = false := by decide
theorem test_refuses_requester_digest : Instr.wf (.keyExchange 0 0 (2 ^ 384)) = false := by decide
theorem test_refuses_finished_session : Instr.wf (.finish 0 0 (2 ^ 32) true true) = false := by decide
theorem test_refuses_encapsulating_session : Instr.wf (.kemExchange 0 0 (2 ^ 32) true) = false := by decide
theorem test_refuses_exchanged_hint : Instr.wf (.pskExchange 0 0 (2 ^ 128)) = false := by decide
theorem test_refuses_altsig_time : Instr.wf (.altSig 0 (2 ^ 64) true) = false := by decide
theorem test_refuses_certificate_slot : Instr.wf (.getCertificate 0 256) = false := by decide
theorem test_refuses_challenged_slot : Instr.wf (.challenge 0 256) = false := by decide
theorem test_refuses_measured_session : Instr.wf (.getMeasurements 0 0 (some (2 ^ 32)) 0) = false := by decide
theorem test_refuses_ide_stream : Instr.wf (.ideKm 0 0 0 256 0) = false := by decide
theorem test_refuses_locking_session : Instr.wf (.lockInterface 0 0 0 (2 ^ 32)) = false := by decide
theorem test_refuses_odd_descriptor : Instr.wf (.cmdTailWrite 0 0 0 0 [⟨0x7777, { session := 2 ^ 32 }⟩]) = false := by decide
theorem test_refuses_held_off_vector : Instr.wf (.interruptHoldoffExpiry 0 0 2048 0) = false := by decide
theorem test_refuses_unmasked_vector : Instr.wf (.msixUnmask 0 0 (some 2048) false) = false := by decide
theorem test_refuses_register_offset : Instr.wf (.registerWrite 0 0 (2 ^ 20) 8 0) = false := by decide
theorem test_refuses_doorbell_size : Instr.wf (.queueDbSqTail 0 0 0 16 0 []) = false := by decide
theorem test_refuses_work_request : Instr.wf (.queueDbRqTail 0 0 0 8 0 [{ op := 16 }]) = false := by decide
theorem test_refuses_head_time : Instr.wf (.queueDbCqHead 0 0 (2 ^ 64) 8 0) = false := by decide
theorem test_refuses_arm_size : Instr.wf (.queueDbCqArm 0 0 0 0 0) = false := by decide
theorem test_refuses_bulk_data : Instr.wf (.bulkWindowWrite 0 0 1 256) = false := by decide
theorem test_refuses_descriptor_payload : Instr.wf (.deviceQuery { length := 1, body := 256 }) = false := by decide
theorem test_refuses_descriptor_node : Instr.wf (.domainReset { node := some 4096 }) = false := by decide
theorem test_refuses_link_width : Instr.wf (.pcieLinkUp 0 3 32) = false := by decide
theorem test_refuses_link_rate : Instr.wf (.pcieLinkUp 0 8 3) = false := by decide
theorem test_refuses_ended_session : Instr.wf (.endSession 0 0 (2 ^ 32)) = false := by decide
theorem test_refuses_walked_sequence : Instr.wf (.recordWalkDone (2 ^ 48) 0) = false := by decide

theorem test_admits_training : Instr.wf (.dramTrainingDone (List.replicate 20 {}) true) = true := by decide
theorem test_admits_packet : Instr.wf (.coriskanoPacket {}) = true := by decide
theorem test_admits_descriptor : Instr.wf (.deviceQuery {}) = true := by decide

/-! ## Single steps -/

/-- The state after a step, when there is one. -/
def after (c : Instr) (s : State) : State := match step { s with pending := [c] } with | .next t => t | _ => s

/-- R516: 24 crystal cycles are too short for a reset, 25 are one. -/
theorem test_por_too_short : (after (.porAssert 24) up).boot.porLow = false := by decide
theorem test_por_long_enough : (after (.porAssert 25) up).boot.porLow = true := by decide
/-- R443: the front command leaves the queue. -/
theorem test_front_leaves : (after (.getVersion 0) up).pending = [] := by decide
/-- R517: IDCODE reads 0x140207C3. -/
theorem test_idcode : (after (.jtagInstruction .idcode) up).out = [.jtag 0x140207C3] := by decide
/-- R449: the power cap's reset value stands at 360 W until the BMC sets it. -/
theorem test_power_cap : (after (.pldmSetEffecter (.powerCap 300)) up).thermal.powerCap = 300 := by decide
/-- R35: one TCLK cycle adds the increment, 1.0 ns at reset, in units of 2⁻¹⁶ ns. -/
theorem test_idle_cycle : (match step up with | .next t => t.time.fabric.toNat | _ => 0) = 65536 := by decide
/-- R437: a tail within the ring is taken; one that would put more than 2^CMD_LOG2 descriptors before it sets CMD_ERR. -/
theorem test_tail_moves : (getF (after (.cmdTailWrite 0 0 0 2 []) tenant) 0 0).cmdTail = 2 := by decide
theorem test_tail_too_far : (getF (after (.cmdTailWrite 0 0 0 100 []) tenant) 0 0).cmdErr = true := by decide

end Sys2Proof.Tests
end

section
/-! What ends a Huavo command at the checks that all commands share (R436), and that every command answers a next state. -/

namespace Sys2Proof.Machine

/-! ### Bits that no field names -/

theorem bit_eq_testBit (x i : Nat) : bit x i = x.testBit i := by
  rw [bit, Nat.testBit_eq_decide_div_mod_eq]; rfl

/-- A mask keeps a number as it is unless a bit of the number stands outside the mask. -/
theorem and_ne_self_iff (p m : Nat) : p &&& m ≠ p ↔ ∃ i, p.testBit i = true ∧ m.testBit i = false := by
  constructor
  · intro hne
    by_contra hnone
    push Not at hnone
    refine hne (Nat.eq_of_testBit_eq fun i => ?_)
    rw [Nat.testBit_and]
    cases hp : p.testBit i with
    | false => rfl
    | true => simpa using hnone i hp
  · rintro ⟨i, hp, hm⟩ heq
    have hbit : (p &&& m).testBit i = p.testBit i := by rw [heq]
    simp [hp, hm] at hbit

/-- R436 step 6: a byte after the payload is not zero, or a bit of the payload is 1 that no field names. -/
theorem reservedBad_iff (r : HRow) (d : Desc) :
    reservedBad r d = true ↔ d.pad ≠ 0 ∨ ∃ i, i < 8 * d.length.toNat ∧ bit d.body i = true
      ∧ bit (maskOf (r.named d.body d.length.toNat)) i = false := by
  simp only [reservedBad, Bool.or_eq_true, bne_iff_ne, and_ne_self_iff, bit_eq_testBit, Nat.testBit_mod_two_pow,
    Bool.and_eq_true, decide_eq_true_eq, and_assoc]

/-- R436 step 3: DOMAIN above 63, an empty buffer, or a payload that does not fit its descriptor or its row. -/
theorem shapeBad_iff (r : HRow) (d : Desc) :
    shapeBad r d = true ↔ 63 < d.domain.toNat ∨ (d.ptr = true ∧ d.secured = false ∧ d.length = 0)
      ∨ (d.ptr = false ∧ (48 < d.length.toNat ∨ r.ptr = true)) := by
  have hlen : d.length.toNat = 0 ↔ d.length = 0 := by
    rw [← BitVec.toNat_inj]; rfl
  cases hp : d.ptr <;> simp [shapeBad, hp, hlen, and_comm, or_assoc]

/-! ### The first check that fails (R436), once the node is ready and its module runs -/

/-- A session carried the secured message, so the last test of R436 step 4 passes. -/
theorem secured_carried {d : Desc} {s : State} (h : d.secured = true → (sessionOf s d).isSome = true) :
    (d.secured && (sessionOf s d).isNone) = false := by
  cases hd : d.secured with
  | false => rfl
  | true => simp [h hd]

section
variable {r : HRow} {d : Desc} {s : State} (hp : s.boot.phase = .ready) (hm : s.sec.mod ≠ .error)
include hp hm

theorem huavoChecks_header (hrsv : d.rsv ≠ 0) : huavoChecks r d s = some .badReserved := by
  simp [huavoChecks, hp, hm, hrsv]

theorem huavoChecks_shape (hrsv : d.rsv = 0) (hshape : shapeBad r d = true) : huavoChecks r d s = some .badField := by
  simp [huavoChecks, hp, hm, hrsv, hshape]

theorem huavoChecks_denied (hrsv : d.rsv = 0) (hshape : shapeBad r d = false)
    (hdeny : mayName r d s = false ∨ roleOk r d s = false ∨ (d.secured = true ∧ sessionOf s d = none)) :
    huavoChecks r d s = some .denied := by
  simp [huavoChecks, hp, hm, hrsv, hshape, hdeny, or_assoc]

variable (hrsv : d.rsv = 0) (hshape : shapeBad r d = false) (hname : mayName r d s = true) (hrole : roleOk r d s = true)
  (hsess : d.secured = true → (sessionOf s d).isSome = true)
include hrsv hshape hname hrole hsess

theorem huavoChecks_length (hlen : r.lenOk d.body d.length.toNat = false) : huavoChecks r d s = some .badField := by
  simp [huavoChecks, hp, hm, hrsv, hshape, hname, hrole, secured_carried hsess, hlen]

theorem huavoChecks_payload (hlen : r.lenOk d.body d.length.toNat = true) (hres : reservedBad r d = true) :
    huavoChecks r d s = some .badReserved := by
  simp [huavoChecks, hp, hm, hrsv, hshape, hname, hrole, secured_carried hsess, hlen, hres]

end

/-- A fetched command that fails a check ends with that check's status, and nothing else happens. -/
theorem runHuavo_refused {r : HRow} {body : Desc → State → State × Ans} {d : Desc} {s : State} {st : Status}
    (hf : fetchable s d = true) (hw : waitsForTests r s = false) (hc : huavoChecks r d (fetchCmd s d) = some st) :
    runHuavo r body d s = .next (finishAns r d (fetchCmd s d) (.fail st)) := by
  simp [runHuavo, huavo, hf, hw, hc]

/-- Settles O54: each clause is the first failing check of `huavoChecks`, which `runHuavo_refused` answers with. -/
theorem checksComeInTheirOrder : Obligations.ChecksComeInTheirOrder := by
  intro r body d s hf hw hphase hmod
  have hp : (fetchCmd s d).boot.phase = .ready := by rw [fetchCmd_boot, hphase]
  have hm : (fetchCmd s d).sec.mod ≠ .error := by rwa [fetchCmd_sec]
  refine ⟨fun hrsv => ?_, fun hrsv hbad => ?_, fun hrsv hshape hdeny => ?_, fun hrsv hshape hname hrole hsess hlen => ?_,
    fun hrsv hshape hname hrole hsess hlen hbits => ?_⟩
  · exact runHuavo_refused hf hw (huavoChecks_header hp hm hrsv)
  · exact runHuavo_refused hf hw (huavoChecks_shape hp hm hrsv ((shapeBad_iff r d).mpr hbad))
  · exact runHuavo_refused hf hw (huavoChecks_denied hp hm hrsv hshape hdeny)
  · exact runHuavo_refused hf hw (huavoChecks_length hp hm hrsv hshape hname hrole hsess hlen)
  · exact runHuavo_refused hf hw
      (huavoChecks_payload hp hm hrsv hshape hname hrole hsess hlen ((reservedBad_iff r d).mpr hbits))

/-! ### Every command answers a next state -/

/-- CAP_REPORT is dropped for its length or acted on (R350): a next state either way. -/
theorem execCapReport_next (m : Mgmt) (s : State) : ∃ t, execCapReport m s = .next t := by
  unfold execCapReport
  dsimp only
  split <;> exact ⟨_, rfl⟩

/-- REPL_DEGRADED is dropped for its length or acted on (R366): a next state either way. -/
theorem execReplDegraded_next (m : Mgmt) (s : State) : ∃ t, execReplDegraded m s = .next t := by
  unfold execReplDegraded
  dsimp only
  split <;> exact ⟨_, rfl⟩

/-- No command faults and none is without a meaning: all but two meanings are a next state by definition. -/
theorem exec_next (c : Instr) (s : State) : ∃ t, exec c s = .next t := by
  cases c with
  | capReport m => exact execCapReport_next m s
  | replDegraded m => exact execReplDegraded_next m s
  | _ => exact ⟨_, rfl⟩

theorem step_cons (c : Instr) (rest : List Instr) (s : State) :
    step { s with pending := c :: rest } = exec c { s with pending := rest } := rfl

theorem step_nil {s : State} (h : s.pending = []) : step s = .next (tclkCycle s) := by
  rw [step, h]

/-- Settles O49, by the two equations of `step` and `exec_next`. -/
theorem stepRunsTheFront : Obligations.StepRunsTheFront :=
  ⟨step_cons, fun _ => step_nil, exec_next⟩

end Sys2Proof.Machine
end

section
/-! Chapter 1 of the spec: what the slice, share and arbitration commands do, that an operation of no running lap does
nothing, and what reset leaves. -/

namespace Sys2Proof.Machine

/-! ### Operations of laps (R17, R63) -/

/-- The one reason for all operations of a lap: `withRun` runs none where no lap runs. -/
theorem withRun_of_none {s : State} {u : Uop} (h : runOf s u = none) (f : Run → State → State) :
    withRun s u f = s := by
  unfold withRun
  rw [h]

/-- Settles O28: the meaning of each of the sixteen operations is a `withRun`. -/
theorem operationsBelongToLaps : Obligations.OperationsBelongToLaps := by
  intro u n b s h
  have idle (f : Run → State → State) : (.next (withRun s u f) : Res) = .next s := congrArg _ (withRun_of_none h f)
  exact ⟨idle _, idle _, idle _, idle _, idle _, idle _, idle _, idle _, idle _, idle _, idle _, idle _, idle _, idle _,
    idle _, idle _⟩

/-! ### Slices (R25 to R30) -/

/-- Telling clusters their settings writes the clusters alone. -/
theorem foldl_clockDue_only (l : List Nat) (s : State) :
    l.foldl clockDue s = { s with clusters := (l.foldl clockDue s).clusters } :=
  foldl_only (U := fun t s => { s with clusters := t.clusters }) (fun _ => rfl) (fun _ _ _ => rfl) clockDue
    clockDue_only l s

@[simp] theorem getS_foldl_clockDue (l : List Nat) (s : State) (n : Nat) : getS (l.foldl clockDue s) n = getS s n := by
  rw [foldl_clockDue_only]
  rfl

/-- The RWS fields of a new slice wait in its shadow, the others stand at once (R27; assumption 64). -/
def newSlice (r : BitVec 128) : SliceSt :=
  { record := BitVec.ofNat 128 (r.toNat &&& (sliceWritten - sliceShadowed r)), shadow := some r, state := .enabled }

section
variable {d : Desc} {s : State}

theorem sliceCreate_enables (hn : byt d.body 0 0 ≤ 31) (hgood : sliceBad s (byt d.body 0 0) (slicePayload d) = false)
    (hfree : (getS s (byt d.body 0 0)).state = .disabled) (hquar : sliceQuarantined s (slicePayload d) = false)
    (hroom : shareFull s (byt d.body 0 0) (slicePayload d) = false) :
    sliceCreate d s = ((bitsOf (sClusters (slicePayload d)) 20).foldl clockDue
      (setS s (byt d.body 0 0) (newSlice (slicePayload d))), .done) := by
  have hin : ¬ 31 < byt d.body 0 0 := hn.not_gt
  simp [sliceCreate, hin, hgood, hfree, hquar, hroom, newSlice]

theorem sliceCreate_badField (h : 31 < byt d.body 0 0 ∨ sliceBad s (byt d.body 0 0) (slicePayload d) = true) :
    sliceCreate d s = (s, .fail .badField) := by
  have hbad : (decide (31 < byt d.body 0 0) || sliceBad s (byt d.body 0 0) (slicePayload d)) = true := by simpa using h
  rw [sliceCreate, hbad, failIf_true]

theorem sliceModify_shadows (hn : byt d.body 0 0 ≤ 31) (hgood : sliceBad s (byt d.body 0 0) (slicePayload d) = false)
    (hon : (getS s (byt d.body 0 0)).state = .enabled) (hquar : sliceQuarantined s (slicePayload d) = false)
    (hlocked : differ (getS s (byt d.body 0 0)).record (slicePayload d)
      (sliceWritten - sliceShadowed (getS s (byt d.body 0 0)).record) = false)
    (hroom : shareFull s (byt d.body 0 0) (slicePayload d) = false) :
    sliceModify d s = (setS s (byt d.body 0 0) { getS s (byt d.body 0 0) with
      shadow := some (merge (getS s (byt d.body 0 0)).record (slicePayload d)
        (sliceShadowed (getS s (byt d.body 0 0)).record)) }, .done) := by
  have hin : ¬ 31 < byt d.body 0 0 := hn.not_gt
  simp [sliceModify, hin, hgood, hon, hquar, hlocked, hroom]

theorem sliceDestroy_drains (hn : byt d.body 0 0 ≤ 31) (hon : (getS s (byt d.body 0 0)).state = .enabled)
    (hunbound : sliceBound s (byt d.body 0 0) = false) :
    sliceDestroy d s = (setS s (byt d.body 0 0) { getS s (byt d.body 0 0) with state := .draining },
      .accept (.slice (byt d.body 0 0))) := by
  have hin : ¬ 31 < byt d.body 0 0 := hn.not_gt
  simp [sliceDestroy, hin, hon, hunbound]

theorem sliceDestroy_badState (hn : byt d.body 0 0 ≤ 31) (hon : (getS s (byt d.body 0 0)).state = .enabled)
    (hbound : sliceBound s (byt d.body 0 0) = true) : sliceDestroy d s = (s, .fail .badState) := by
  have hin : ¬ 31 < byt d.body 0 0 := hn.not_gt
  simp [sliceDestroy, hin, hon, hbound, failIf_true]

theorem sliceQuery_reads (hn : byt d.body 0 0 ≤ 31) (hstill : (getS s (byt d.body 0 0)).state ≠ .draining) :
    sliceQuery d s = (s, .done (sliceWord (getS s (byt d.body 0 0))).toNat) := by
  have hin : ¬ 31 < byt d.body 0 0 := hn.not_gt
  simp [sliceQuery, hin, hstill]

end

/-! ### The end of a drain (R30, R114; assumption 68) -/

@[simp] theorem sliceQuiet_clockTo (s : State) (t n : Nat) : sliceQuiet (clockTo s t) n = sliceQuiet s n := by
  simp [sliceQuiet, sliceClusters]

theorem drainOp_of_quiet {s : State} {n : Nat} (hdrain : (getS s n).state = .draining) (hquiet : sliceQuiet s n = true) :
    drainOp s n = finishWhere { s with
        slices := s.slices.erase n, mem := { s.mem with pools := s.mem.pools.filter fun k _ => k / 20 != n } }
      (fun g => g.key == .slice n) .ok 0 0 :=
  if_pos ⟨hdrain, hquiet⟩

/-- R30: the drained slice is gone with its reserved pools, and the command that asked for it ends. -/
theorem sliceDrainComplete_frees (n t : Nat) (s : State) (hdrain : (getS s n).state = .draining)
    (hquiet : sliceQuiet s n = true) :
    ∃ u, exec (.sliceDrainComplete n t) s = .next u ∧ u.slices = s.slices.erase n
      ∧ u.mem = { s.mem with pools := s.mem.pools.filter fun k _ => k / 20 != n }
      ∧ u.flights = s.flights.filter (fun g => !(g.key == .slice n))
      ∧ u = { s with time := u.time, slices := u.slices, mem := u.mem, flights := u.flights, sec := u.sec,
                     funcs := u.funcs, out := u.out, delayed := u.delayed, net := u.net } := by
  have hop := drainOp_of_quiet (s := clockTo s t) (n := n) (by rwa [getS_clockTo]) (by rwa [sliceQuiet_clockTo])
  refine ⟨drainOp (clockTo s t) n, rfl, ?_⟩
  rw [hop]
  refine ⟨by simp, by simp, by simp, ?_⟩
  rw [finishWhere_only, clockTo_only]

/-! ### Shares and arbitration (R250) -/

theorem bodyShareSet_shadows {d : Desc} {s : State} (hn : byt d.body 0 0 ≤ 63) (hw : byt d.body 4 7 ≠ 0)
    (hdom : domFor s (byt d.body 0 0) = .ok ()) (hport : domPortOk d s (byt d.body 0 0) = true) :
    bodyShareSet d s =
      ({ s with shareShadow := s.shareShadow.set (byt d.body 0 0) (BitVec.ofNat 32 (byt d.body 4 7)) }, .done) := by
  have hin : ¬ 63 < byt d.body 0 0 := hn.not_gt
  simp [bodyShareSet, hin, hw, withObj_ok hdom, hport]

theorem bodyArbSet_shadows {d : Desc} {s : State} (h : 4096 ≤ byt d.body 0 3) :
    bodyArbSet d s = ({ s with arbShadow := some (BitVec.ofNat 32 (byt d.body 0 3)) }, .done) :=
  failIf_neg (decide_eq_false h.not_gt)

theorem bodyArbSet_badField {d : Desc} {s : State} (h : byt d.body 0 3 < 4096) : bodyArbSet d s = (s, .fail .badField) := by
  rw [bodyArbSet, decide_eq_true h, failIf_true]

/-- Settles O12, command by command. It rests on assumptions 64 (the fields of a new slice), 67 (SLICE_QUERY of a slice
that is not DRAINING) and 68 (when a slice is drained). -/
theorem slicesAreKept : Obligations.SlicesAreKept := by
  refine ⟨ends_of_body (body := sliceCreate) (fun _ _ => rfl) fun d s h => ?_,
    does_of_body (body := sliceCreate) (fun _ _ => rfl) fun _ _ => sliceCreate_badField,
    does_of_body (body := sliceModify) (fun _ _ => rfl) fun _ _ ⟨hn, hgood, hon, hquar, hlocked, hroom⟩ =>
      sliceModify_shadows hn hgood hon hquar hlocked hroom,
    does_of_body (body := sliceDestroy) (fun _ _ => rfl) fun _ _ ⟨hn, hon, hunbound⟩ => sliceDestroy_drains hn hon hunbound,
    does_of_body (body := sliceDestroy) (fun _ _ => rfl) fun _ _ ⟨hn, hon, hbound⟩ => sliceDestroy_badState hn hon hbound,
    does_of_body (body := sliceQuery) (fun _ _ => rfl) fun _ _ ⟨hn, hstill⟩ => sliceQuery_reads hn hstill,
    sliceDrainComplete_frees,
    does_of_body (body := bodyShareSet) (fun _ _ => rfl) fun _ _ ⟨hn, hw, hdom, hport⟩ =>
      bodyShareSet_shadows hn hw hdom hport,
    does_of_body (body := bodyArbSet) (fun _ _ => rfl) fun _ _ => bodyArbSet_shadows,
    does_of_body (body := bodyArbSet) (fun _ _ => rfl) fun _ _ => bodyArbSet_badField⟩
  obtain ⟨hn, hgood, hfree, hquar, hroom⟩ := h
  rw [sliceCreate_enables hn hgood hfree hquar hroom, getS_foldl_clockDue, getS_setS]
  refine ⟨rfl, rfl, rfl, rfl, ?_⟩
  rw [foldl_clockDue_only]
  rfl

/-! ### Reset (R501) -/

@[simp] theorem getF_reset (p : Port) (f : Func) : getF State.reset p f = {} := rfl
@[simp] theorem getD_reset (d : Nat) : getD State.reset d = {} := rfl
@[simp] theorem getS_reset (n : Nat) : getS State.reset n = {} := rfl
@[simp] theorem getPort_reset (p : Port) : getPort State.reset p = {} := by
  rcases port_cases p with rfl | rfl <;> rfl

/-- R39: HOLDOVER_WARN, LOCK_LIMIT, FLUSH_PERIOD and TRANSPORT after reset. -/
theorem timeRecord_reset :
    rf State.reset.time.record 63 48 = 1000 ∧ rf State.reset.time.record 47 38 = 100
      ∧ rf State.reset.time.record 37 27 = 20 ∧ rb State.reset.time.record 24 = true := by decide +kernel

/-- R415: no life-cycle fuse of the reset state is blown. -/
theorem lifeCycle_reset : lifeCycle State.reset = .manufacture := by decide +kernel

/-- R250, R98: QUANTUM and page memory's ENABLE after reset. -/
theorem quantum_pageOn_reset : quantum State.reset = 262144 ∧ pageOn State.reset = false := by decide +kernel

/-- Settles O50: the records hold the values that the spec gives (the power cap and thermal step those of R449), every
table is empty, so that each entry reads as its default, and the rest is zero (assumption 7). -/
theorem resetHoldsTheSpecsValues : Obligations.ResetHoldsTheSpecsValues := by
  obtain ⟨hwarn, hlimit, hflush, htransport⟩ := timeRecord_reset
  obtain ⟨hquantum, hpage⟩ := quantum_pageOn_reset
  refine ⟨rfl, memWf_nil, rfl, rfl, rfl, hwarn, hlimit, hflush, htransport, rfl, rfl, rfl, hquantum, hpage, fun p f => ?_,
    fun d => ?_, fun n => ?_, fun p => ?_, rfl, rfl, rfl, lifeCycle_reset, rfl⟩
  · rw [getF_reset]; rfl
  · rw [getD_reset]
  · rw [getS_reset]
  · rw [getPort_reset]

end Sys2Proof.Machine
end

section
/-! Chapter 2 of the spec, fabric time: what the time base does with PTP messages, and with their absence (R35 to R38). -/

namespace Sys2Proof.Machine

/-! ### Moves of the clock and of the time base's state -/

@[simp] theorem tState_clockTo (s : State) (n : Nat) : tState (clockTo s n) = tState s := by
  rw [tState, clockTo_record, tState]

@[simp] theorem tSource_clockTo (s : State) (n : Nat) : tSource (clockTo s n) = tSource s := by
  rw [tSource, clockTo_record, tSource]

@[simp] theorem masterValid_clockTo (s : State) (n p : Nat) : masterValid (clockTo s n) p = masterValid s p := by
  rw [masterValid, clockTo_time, masterValid]

@[simp] theorem averageIncr_clockTo (s : State) (n : Nat) : averageIncr (clockTo s n).time = averageIncr s.time := by
  rw [clockTo_time, averageIncr, averageIncr]

theorem clockTo_master (s : State) (n : Nat) :
    (clockTo s n).time.master0 = s.time.master0 ∧ (clockTo s n).time.master1 = s.time.master1 := by
  rw [clockTo_time]; exact ⟨rfl, rfl⟩

theorem clockTo_inLock (s : State) (n : Nat) : (clockTo s n).time.inLock = s.time.inLock := by
  rw [clockTo_time]

theorem clockTo_driftRaised (s : State) (n : Nat) : (clockTo s n).time.driftRaised = s.time.driftRaised := by
  rw [clockTo_time]

theorem rf_setTState_other (s : State) (x : Nat) {h l : Nat} (hh : h < 128) (hl : l ≤ h + 1) (hd : 86 < l ∨ h < 85) :
    rf (setTState s x).time.record h l = rf s.time.record h l :=
  rf_rset_other _ _ hh (by decide) hl hd

/-- Two operations in a row that write the time base alone. -/
theorem timeOnly_trans {s t u : State} (a : t = { s with time := t.time }) (b : u = { t with time := u.time }) :
    u = { s with time := u.time } :=
  only_trans (U := fun t s => { s with time := t.time }) (fun _ _ _ => rfl) a b

/-! ### What a message does while the time base is enabled -/

section
variable {s : State} {p : Port}

theorem exec_ptpMessage {n : Nat} {m : PtpMsg} (h : s.time.enabled = true) :
    exec (.ptpMessage p n m) s = .next (ptpOp (clockTo s n) p m) := by
  change execPtpMessage p n m s = _
  rw [execPtpMessage, clockTo_enabled, if_pos h]

theorem exec_announceTimeout {n : Nat} (h : s.time.enabled = true) :
    exec (.announceTimeout n) s = .next (noMaster (clockTo s n)) := by
  change execAnnounceTimeout n s = _
  rw [execAnnounceTimeout, clockTo_enabled, if_pos h]

theorem setMaster_only (s : State) (p : Port) (m : Option Nat) :
    setMaster s p m = { s with time := (setMaster s p m).time } := by
  unfold setMaster; split <;> rfl

theorem tState_setMaster (s : State) (p : Port) (m : Option Nat) : tState (setMaster s p m) = tState s := by
  unfold tState setMaster; split <;> rfl

/-- The first master to qualify is the best one, whatever PORT_PREF says (R36). -/
theorem bestMaster_first {r : Nat} (h0 : s.time.master0 = none) (h1 : s.time.master1 = none) :
    bestMaster (setMaster s p (some r)) = some p.val := by
  rcases port_cases p with rfl | rfl
  · simp [bestMaster, setMaster, h1]
  · simp [bestMaster, setMaster, h0]

/-- R37: with its first master FREE_RUN turns to ACQUIRING. -/
theorem ptpOp_announce_first {r : Nat} (h0 : s.time.master0 = none) (h1 : s.time.master1 = none) (hfree : tState s = 0) :
    ptpOp s p (.announce r) = setTState (setTSource (setMaster s p (some r)) p.val) 1 := by
  have hstate : tState (setTSource (setMaster s p (some r)) p.val) = 0 := by
    rw [tState_setTSource, tState_setMaster, hfree]
  simp [ptpOp, selectMaster, bestMaster_first h0 h1, hstate]

/-- Replace the time base record of R39. -/
def setTimeRecord (s : State) (r : BitVec 128) : State := { s with time := { s.time with record := r } }

theorem setTimeRecord_only (s : State) (r : BitVec 128) :
    setTimeRecord s r = { s with time := (setTimeRecord s r).time } := rfl
theorem setTimeRecord_record (s : State) (r : BitVec 128) : (setTimeRecord s r).time.record = r := rfl
theorem setTimeRecord_inLock (s : State) (r : BitVec 128) : (setTimeRecord s r).time.inLock = s.time.inLock := rfl

/-- The time base as a recorded offset leaves it. -/
def noteOffset (s : State) (x : Int) : State := setTimeRecord s (rset s.time.record 127 96 (unsgn 32 x))

theorem noteOffset_only (s : State) (x : Int) : noteOffset s x = { s with time := (noteOffset s x).time } :=
  setTimeRecord_only ..
theorem noteOffset_inLock (s : State) (x : Int) : (noteOffset s x).time.inLock = s.time.inLock := setTimeRecord_inLock ..

theorem rf_noteOffset_other (s : State) (x : Int) {h l : Nat} (hh : h < 96) (hl : l ≤ h + 1) :
    rf (noteOffset s x).time.record h l = rf s.time.record h l :=
  rf_rset_other _ _ (by omega) (by decide) hl (.inr hh)

theorem unsgn_lt (x : Int) : unsgn 32 x < 2 ^ 32 := by
  have hpos : (0 : Int) < (2 ^ 32 : Nat) := by decide
  have hlt : x % (2 ^ 32 : Nat) < (2 ^ 32 : Nat) := Int.emod_lt_of_pos x hpos
  have hnn : 0 ≤ x % (2 ^ 32 : Nat) := Int.emod_nonneg x (by decide)
  unfold unsgn
  omega

theorem rf_noteOffset (s : State) (x : Int) : rf (noteOffset s x).time.record 127 96 = unsgn 32 x := by
  rw [noteOffset, setTimeRecord_record, rf_rset _ _ _ _ (by decide) (by decide), Nat.mod_eq_of_lt (unsgn_lt x)]

/-- The time base that is about to lock for the first time, or again. -/
def nearLock (s : State) : State := { s with time := { s.time with everLocked := true } }

@[simp] theorem nearLock_record (s : State) : (nearLock s).time.record = s.time.record := rfl
theorem nearLock_only (s : State) : nearLock s = { s with time := (nearLock s).time } := rfl

/-- The 16th offset in a row within LOCK_LIMIT locks the time base (R37). LOCK_LIMIT has 10 bits, so no such offset is one
of those above 100 µs at which fabric time jumps (R38). -/
theorem syncJudge_locks {x : Int} (hacq : tState s = 1) (hin : s.time.inLock = 15) (hx : x.natAbs ≤ rf s.time.record 47 38) :
    syncJudge s x = servo (setTState (nearLock s) 2) := by
  have hsmall : ¬ 100000 < x.natAbs := by
    have hlimit : rf s.time.record 47 38 < 2 ^ 10 := fld_lt _ 47 38
    omega
  have hwithin : ¬ (!decide (x.natAbs ≤ rf s.time.record 47 38)) = true := by simpa using hx
  rw [syncJudge]
  rw [if_pos hacq, if_neg hsmall, if_neg hwithin, if_pos hin]
  rfl

theorem tState_noteOffset (s : State) (x : Int) : tState (noteOffset s x) = tState s :=
  rf_noteOffset_other s x (by decide) (by decide)

theorem syncOp_eq_judge (s : State) (x : Int) : syncOp s x = syncJudge (noteOffset s x) x := rfl

@[simp] theorem servo_record (s : State) : (servo s).time.record = s.time.record := rfl
@[simp] theorem servo_everLocked (s : State) : (servo s).time.everLocked = s.time.everLocked := rfl

/-- A state that differs from another in its time base alone, before the servo's step and after it. -/
theorem servo_only_of {s t : State} (h : t = { s with time := t.time }) :
    servo t = { s with time := (servo t).time, free := s.free + 1 } := by
  generalize t.time = x at h
  subst h
  rfl

theorem ptpOp_sync {x : Int} (hsrc : tSource s = p.val) (hvalid : masterValid s p.val = true) :
    ptpOp s p (.sync x) = syncOp s x := if_pos ⟨hsrc, hvalid⟩

/-- With no master left LOCKED turns to HOLDOVER, at the average of the last increments (R37). -/
theorem noMaster_of_locked (h : tState s = 2) :
    noMaster s = setTState { s with time := { s.time with master0 := none, master1 := none, incr := averageIncr s.time } } 3 := by
  simp [noMaster, h]
  rfl

end

theorem announce_first_acquires (p : Port) (n r : Nat) (s : State) (hon : s.time.enabled = true)
    (h0 : s.time.master0 = none) (h1 : s.time.master1 = none) (hfree : rf s.time.record 86 85 = 0) :
    ∃ t, exec (.ptpMessage p n (.announce r)) s = .next t ∧ rf t.time.record 86 85 = 1 ∧ rf t.time.record 87 87 = p.val
      ∧ t = { s with time := t.time } := by
  obtain ⟨hc0, hc1⟩ := clockTo_master s n
  refine ⟨_, exec_ptpMessage hon, ?_⟩
  rw [ptpOp_announce_first (hc0.trans h0) (hc1.trans h1) ((tState_clockTo s n).trans hfree)]
  refine ⟨tState_setTState _ 1 (by decide), ?_, ?_⟩
  · exact (tSource_setTState _ 1).trans (tSource_setTSource _ p.val p.isLt)
  · rw [setMaster_only, clockTo_only]
    rfl

theorem sync_locks (p : Port) (n : Nat) (x : Int) (s : State) (hon : s.time.enabled = true)
    (hsrc : rf s.time.record 87 87 = p.val) (hvalid : masterValid s p.val = true) (hacq : rf s.time.record 86 85 = 1)
    (hin : s.time.inLock = 15) (hx : x.natAbs ≤ rf s.time.record 47 38) :
    ∃ t, exec (.ptpMessage p n (.sync x)) s = .next t ∧ rf t.time.record 86 85 = 2 ∧ t.time.everLocked = true
      ∧ rf t.time.record 127 96 = unsgn 32 x ∧ t = { s with time := t.time, free := s.free + 1 } := by
  have hjudge : ptpOp (clockTo s n) p (.sync x) = servo (setTState (nearLock (noteOffset (clockTo s n) x)) 2) := by
    rw [ptpOp_sync ((tSource_clockTo s n).trans hsrc) ((masterValid_clockTo s n p.val).trans hvalid), syncOp_eq_judge,
      syncJudge_locks]
    · rw [tState_noteOffset, tState_clockTo]; exact hacq
    · rw [noteOffset_inLock, clockTo_inLock, hin]
    · rw [rf_noteOffset_other _ x (by decide) (by decide), clockTo_record]; exact hx
  refine ⟨_, exec_ptpMessage hon, ?_⟩
  rw [hjudge]
  refine ⟨?_, ?_, ?_, ?_⟩
  · rw [servo_record]
    exact tState_setTState _ 2 (by decide)
  · rw [servo_everLocked]
    rfl
  · rw [servo_record, rf_setTState_other _ 2 (by decide) (by decide) (by decide), nearLock_record, rf_noteOffset]
  · refine servo_only_of (timeOnly_trans ?_ (setTState_only _ 2))
    exact timeOnly_trans (timeOnly_trans (clockTo_only s n) (noteOffset_only _ x)) (nearLock_only _)

theorem announceTimeout_holds_over (n : Nat) (s : State) (hon : s.time.enabled = true) (hlocked : rf s.time.record 86 85 = 2) :
    ∃ t, exec (.announceTimeout n) s = .next t ∧ rf t.time.record 86 85 = 3 ∧ t.time.master0 = none ∧ t.time.master1 = none
      ∧ t.time.incr = averageIncr s.time ∧ t = { s with time := t.time } := by
  refine ⟨_, exec_announceTimeout hon, ?_⟩
  rw [noMaster_of_locked ((tState_clockTo s n).trans hlocked)]
  refine ⟨tState_setTState _ 3 (by decide), rfl, rfl, averageIncr_clockTo s n, ?_⟩
  rw [clockTo_only]
  rfl

theorem holdoverDriftWarning_raises (n x : Nat) (s : State) (hon : s.time.enabled = true) (hhold : rf s.time.record 86 85 = 3)
    (hdrift : rf s.time.record 63 48 < x) (hfirst : s.time.driftRaised = false) :
    exec (.holdoverDriftWarning n x) s = .next (raiseNode
      { clockTo s n with time := { (clockTo s n).time with driftRaised := true } } 0x0002 0x0102 39 0
      (marginPayload 0 x (rf s.time.record 63 48))) := by
  change execHoldoverDriftWarning n x s = _
  have hstate : tState s = 3 := hhold
  simp [execHoldoverDriftWarning, hon, hstate, hdrift, clockTo_driftRaised, hfirst]

/-- R35: each TCLK cycle adds the increment, its fraction included. -/
theorem tclkCycle_adds (s : State) (hon : s.time.enabled = true) : (tclkCycle s).time.fabric = BitVec.ofNat 80
    ((s.time.fabric.toNat * 65536 + s.time.sub.toNat + s.time.incr.toNat) / 65536) := by
  rw [tclkCycle, if_pos hon]

/-- Settles O7, message by message. It rests on assumptions 11 (the servo's increment is a free value) and 53
(ANNOUNCE_TIMEOUT takes the masters of both ports). -/
theorem timeFollowsItsMaster : Obligations.TimeFollowsItsMaster :=
  ⟨fun _ _ _ hon => ⟨exec_ptpMessage hon, exec_ptpMessage hon⟩, announce_first_acquires, sync_locks, announceTimeout_holds_over,
    holdoverDriftWarning_raises, tclkCycle_adds⟩

end Sys2Proof.Machine
end

section
/-! Chapter 2 of the spec, decode steps: rows go into the bank that they address, and a step mark is admitted, held or
rejected (R46, R47, R431). -/

namespace Sys2Proof.Machine

/-! ### Step-window writes (R46, R431) -/

@[simp] theorem getBank_setBank (h : HeatSt) (b : Nat) (v : Bank) : getBank (setBank h b v) b = v := by
  unfold getBank setBank; split <;> rfl

@[simp] theorem writeRows_none (s : State) (p : Port) (f : Func) (off data fuel : Nat) :
    writeRows s p f off data 0 fuel = s := by
  cases fuel <;> rfl

/-- A write within one granule is that granule's write. -/
theorem writeRows_within {s : State} {p : Port} {f : Func} {off data len : Nat} (hlen : 0 < len) (hfit : off % 64 + len ≤ 64) :
    writeRows s p f off data len (len + 1) = writeGranule s p f off len (data % 2 ^ (8 * len)) := by
  have hmin : min len (64 - off % 64) = len := by omega
  have hpos : len ≠ 0 := by omega
  simp [writeRows, hmin, hpos]

section
variable {s : State} {p : Port} {f : Func} {off len data k : Nat} {h : HeatSt}

theorem writeGranule_busy (hat : heatAt s p f off = some k) (hk : getH s k = some h)
    (hbusy : bankBusy h ((off - h.stepBase) / h.bankBytes) = true) :
    writeGranule s p f off len data = count (setH s k (setBank h ((off - h.stepBase) / h.bankBytes)
      { getBank h ((off - h.stepBase) / h.bankBytes) with poisoned := true })) 1 ((domainOf s p f).getD 0) 3 := by
  simp [writeGranule, hat, hk, hbusy]

/-- A bank with some bytes of a granule replaced. -/
def fillGranule (b : Bank) (g lo len v : Nat) : Bank :=
  { b with granules := b.granules.upd g 0 fun w => putBytes w lo len v }

theorem writeGranule_idle (hat : heatAt s p f off = some k) (hk : getH s k = some h)
    (hidle : bankBusy h ((off - h.stepBase) / h.bankBytes) = false) :
    writeGranule s p f off len data = setH s k (setBank h ((off - h.stepBase) / h.bankBytes)
      (fillGranule (getBank h ((off - h.stepBase) / h.bankBytes)) ((off - h.stepBase) % h.bankBytes / 64) (off % 64) len data)) := by
  simp [writeGranule, hat, hk, hidle, fillGranule]

theorem exec_stepRowWrite_within (hin : inStepWindow f off = true) (hlen : 0 < len) (hfit : off % 64 + len ≤ 64) :
    exec (.stepRowWrite p f off len data) s = .next (writeGranule s p f off len (data % 2 ^ (8 * len))) := by
  change execStepRowWrite p f off len data s = _
  rw [execStepRowWrite, if_pos hin, writeRows_within hlen hfit]

end

/-- R46: a write outside the step window reaches no bank. -/
theorem stepRowWrite_outside (p : Port) (f : Func) (off len data : Nat) (s : State) (hout : inStepWindow f off = false) :
    exec (.stepRowWrite p f off len data) s = .next s := by
  change execStepRowWrite p f off len data s = _
  rw [execStepRowWrite, hout, if_neg Bool.false_ne_true]

/-- R46: a write into a free bank replaces the bytes that it addresses and no others. -/
theorem stepRowWrite_fills (p : Port) (f : Func) (off len data k : Nat) (h : HeatSt) (s : State)
    (hin : inStepWindow f off = true) (hlen : 0 < len) (hfit : off % 64 + len ≤ 64) (hat : heatAt s p f off = some k)
    (hk : getH s k = some h) (hidle : bankBusy h ((off - h.stepBase) / h.bankBytes) = false) :
    let b := (off - h.stepBase) / h.bankBytes
    let g := (off - h.stepBase) % h.bankBytes / 64
    ∃ t x, exec (.stepRowWrite p f off len data) s = .next t ∧ getH t k = some x
      ∧ (getBank x b).granules.getD g 0 = putBytes ((getBank h b).granules.getD g 0) (off % 64) len (data % 2 ^ (8 * len))
      ∧ (∀ i, i ≠ g → (getBank x b).granules.get? i = (getBank h b).granules.get? i)
      ∧ (getBank x b).poisoned = (getBank h b).poisoned
      ∧ t = { s with heats := t.heats } ∧ ∀ j, j ≠ k → getH t j = getH s j := by
  intro b g
  refine ⟨_, setBank h b (fillGranule (getBank h b) g (off % 64) len (data % 2 ^ (8 * len))),
    exec_stepRowWrite_within hin hlen hfit, ?_⟩
  rw [writeGranule_idle hat hk hidle]
  refine ⟨getH_setH .., ?_, fun i hi => ?_, ?_, rfl, fun j hj => getH_setH_ne _ hj _⟩
  · rw [getBank_setBank]; exact Map.getD_upd ..
  · rw [getBank_setBank]; exact Map.get?_set_ne _ hi _
  · rw [getBank_setBank]; rfl

/-- R431: a write into a bank whose lap still runs poisons the bank and is counted. -/
theorem stepRowWrite_poisons (p : Port) (f : Func) (off len data k : Nat) (h : HeatSt) (s : State)
    (hin : inStepWindow f off = true) (hlen : 0 < len) (hfit : off % 64 + len ≤ 64) (hat : heatAt s p f off = some k)
    (hk : getH s k = some h) (hbusy : bankBusy h ((off - h.stepBase) / h.bankBytes) = true) :
    let b := (off - h.stepBase) / h.bankBytes
    exec (.stepRowWrite p f off len data) s
      = .next (count (setH s k (setBank h b { getBank h b with poisoned := true })) 1 ((domainOf s p f).getD 0) 3) := by
  intro b
  rw [exec_stepRowWrite_within hin hlen hfit, writeGranule_busy hat hk hbusy]

/-! ### Step marks, in the order of R47 -/

theorem stepMark_in_error (p : Port) (f : Func) (now k size : Nat) (v : Word) (s : State) (herr : s.sec.mod = .error) :
    exec (.stepMark p f now k size v) s = .next s := by
  change execStepMark p f now k size v s = _
  rw [execStepMark, if_pos herr]

theorem exec_stepMark {s : State} {p : Port} {f : Func} {now k size : Nat} {v : Word} (hmod : s.sec.mod ≠ .error) :
    exec (.stepMark p f now k size v) s = .next (markOp (clockTo s now) p f k size v) := by
  change execStepMark p f now k size v s = _
  rw [execStepMark, if_neg hmod]

/-- R47 order 1. -/
theorem stepMark_malformed (p : Port) (f : Func) (now k size : Nat) (v : Word) (s : State) (hmod : s.sec.mod ≠ .error)
    (hbad : size ≠ 8 ∨ rf v 31 12 ≠ 0 ∨ rf v 11 0 ≠ k) :
    exec (.stepMark p f now k size v) s = .next (raiseRing (clockTo s now) p f 0x0030 (0x10000 + 64 * k) v.toNat) := by
  rw [exec_stepMark hmod, markOp, if_pos hbad]

/-- The heat that a doorbell names, while it is not to be destroyed. -/
theorem rungHeat {s : State} {k : Nat} {h : HeatSt} (hk : getH s k = some h) (halive : h.doomed = false) :
    ((getH s k).filter fun h => !h.doomed) = some h := by
  rw [hk, Option.filter_some, halive]
  rfl

section
variable {s : State} {p : Port} {f : Func} {k : Nat} {v : Word} {h : HeatSt} (hrsv : rf v 31 12 = 0) (hheat : rf v 11 0 = k)
  (hk : getH s k = some h) (halive : h.doomed = false) (hvis : heatVisible s p f h = true) (hport : hCtrlPort h.record = p)
include hrsv hheat hk halive hvis hport

/-- R47 order 4: the number of the last step is a repetition, which is only counted. -/
theorem markOp_repeated (hlast : h.last = some (BitVec.ofNat 32 (rf v 63 32))) :
    markOp s p f k 8 v = count s 1 (hDomain h.record) 4 := by
  simp [markOp, hrsv, hheat, rungHeat hk halive, hvis, hport, hlast]

variable (hnew : h.last ≠ some (BitVec.ofNat 32 (rf v 63 32)))
include hnew

/-- R47 order 5, on a node that is partition-fenced. -/
theorem markOp_fenced (hfence : s.fenced = true) :
    markOp s p f k 8 v = rejectResult s k h (BitVec.ofNat 32 (rf v 63 32)) .fenced := by
  simp [markOp, hrsv, hheat, rungHeat hk halive, hvis, hport, hnew, hfence]

/-- R47 orders 8 and 9: a mark that no earlier order turns away is admitted. -/
theorem markOp_admits (hfence : s.fenced = false) (hnext : BitVec.ofNat 32 (rf v 63 32) = h.expected)
    (hrun : h.state = .running) (hclean : (getBank h (h.expected.toNat % 2)).poisoned = false)
    (hquar : claimsQuarantined s h = false) (hfail : s.boot.failed = false) (hheld : h.held = none) :
    markOp s p f k 8 v = admitMark s k h h.expected := by
  rw [hnext] at hnew
  simp [markOp, hrsv, hheat, rungHeat hk halive, hvis, hport, hnext, hnew, hfence, hrun, hclean, hquar, hfail, hheld]

end

/-! ### Admission (R43, R47) -/

/-- A heat whose expected mark is admitted. -/
def admitted (s : State) (h : HeatSt) : HeatSt :=
  { h with expected := h.expected + 1, layer := (h.layer + 1) % mLayers (heatModel s h), last := some h.expected,
           admitted := h.admitted + 1 }

/-- The expected mark of a heat as it is held, after the marks that the node holds already. -/
def markToHold (s : State) (h : HeatSt) : HeldMark :=
  { step := h.expected, order := s.heldNext, layer := h.layer, entry := h.admitted % hDepth h.record }

theorem admitMark_accepts {s : State} {k : Nat} {h : HeatSt} (hhold : mustHold s h = false) :
    admitMark s k h h.expected
      = acceptMark (setH s k (admitted s h)) k h.expected h.layer (h.admitted % hDepth h.record) := by
  simp [admitMark, hhold, admitted]

theorem admitMark_holds {s : State} {k : Nat} {h : HeatSt} (hhold : mustHold s h = true) :
    admitMark s k h h.expected = { setH s k { admitted s h with held := some (markToHold s h) } with
      heldNext := s.heldNext + 1 } := by
  simp [admitMark, hhold, admitted, markToHold]

theorem stepMark_admits (p : Port) (f : Func) (now k : Nat) (v : Word) (h : HeatSt) (s : State) (hmod : s.sec.mod ≠ .error)
    (hrsv : rf v 31 12 = 0) (hheat : rf v 11 0 = k) (hk : getH (clockTo s now) k = some h) (halive : h.doomed = false)
    (hvis : heatVisible (clockTo s now) p f h = true) (hport : hCtrlPort h.record = p)
    (hnew : h.last ≠ some (BitVec.ofNat 32 (rf v 63 32))) (hfence : (clockTo s now).fenced = false)
    (hnext : BitVec.ofNat 32 (rf v 63 32) = h.expected) (hrun : h.state = .running)
    (hclean : (getBank h (h.expected.toNat % 2)).poisoned = false) (hquar : claimsQuarantined (clockTo s now) h = false)
    (hfail : (clockTo s now).boot.failed = false) (hheld : h.held = none) :
    let e := h.admitted % hDepth h.record
    ∃ h' : HeatSt, h'.expected = h.expected + 1 ∧ h'.last = some h.expected ∧ h'.admitted = h.admitted + 1
      ∧ h'.layer = (h.layer + 1) % mLayers (heatModel (clockTo s now) h) ∧ h'.lap = h.lap ∧ h'.slots = h.slots
      ∧ (mustHold (clockTo s now) h = false → exec (.stepMark p f now k 8 v) s
          = .next (acceptMark (setH (clockTo s now) k h') k h.expected h.layer e))
      ∧ (mustHold (clockTo s now) h = true →
          let m : HeldMark := { step := h.expected, order := (clockTo s now).heldNext, layer := h.layer, entry := e }
          exec (.stepMark p f now k 8 v) s = .next { setH (clockTo s now) k { h' with held := some m } with
            heldNext := (clockTo s now).heldNext + 1 }) := by
  intro e
  have hadmit : exec (.stepMark p f now k 8 v) s = .next (admitMark (clockTo s now) k h h.expected) := by
    rw [exec_stepMark hmod,
      markOp_admits hrsv hheat hk halive hvis hport hnew hfence hnext hrun hclean hquar hfail hheld]
  refine ⟨admitted (clockTo s now) h, rfl, rfl, rfl, rfl, rfl, rfl, fun hhold => ?_, fun hhold => ?_⟩
  · rw [hadmit, admitMark_accepts hhold]
  · rw [hadmit, admitMark_holds hhold]
    rfl

/-- Settles O32: the writes of R46 granule by granule, and the marks in the order of R47. It rests on assumption 5 (a row whose
condition is not met leaves the state as it is, but for the clock). -/
theorem stepsAreMarked : Obligations.StepsAreMarked :=
  ⟨stepRowWrite_outside, stepRowWrite_fills, stepRowWrite_poisons, stepMark_in_error, stepMark_malformed,
    fun _ _ _ _ _ _ _ hmod hrsv hheat hk halive hvis hport hlast => by
      rw [exec_stepMark hmod, markOp_repeated hrsv hheat hk halive hvis hport hlast],
    stepMark_admits,
    fun _ _ _ _ _ _ _ hmod hrsv hheat hk halive hvis hport hnew hfence => by
      rw [exec_stepMark hmod, markOp_fenced hrsv hheat hk halive hvis hport hnew hfence]⟩

end Sys2Proof.Machine
end

section
/-! Chapters 2 and 3 of the spec: a lap starts in a cluster that is free for it, passes hurdles, replays, parks and ends
(R50, R84 to R90, R251). -/

namespace Sys2Proof.Machine

/-! ### The lap of a heat in a cluster -/

section
variable {s : State} {k c : Nat} {v : LapCl}

theorem getCl_some (h : getCl s k c = some v) :
    ∃ x l, getH s k = some x ∧ x.lap = some l ∧ l.cls.get? c = some v := by
  obtain ⟨l, hlap, hc⟩ := Option.bind_eq_some_iff.1 h
  obtain ⟨x, hx, hl⟩ := Option.bind_eq_some_iff.1 hlap
  exact ⟨x, l, hx, hl, hc⟩

theorem getH_congr {t : State} (h : t.heats = s.heats) (k : Nat) : getH t k = getH s k := by rw [getH, getH, h]

theorem getCl_congr {t : State} (h : t.heats = s.heats) (k c : Nat) : getCl t k c = getCl s k c := by
  rw [getCl, getCl, getH_congr h]

theorem setCl_only (s : State) (k c : Nat) (v : LapCl) : setCl s k c v = { s with heats := (setCl s k c v).heats } := rfl

theorem modCl_some (g : LapCl → LapCl) (h : getCl s k c = some v) : modCl s k c g = setCl s k c (g v) := by
  rw [modCl, h]

theorem getH_setCl_ne {j : Nat} (hj : j ≠ k) (v : LapCl) : getH (setCl s k c v) j = getH s j := getH_modH_ne _ hj _

@[simp] theorem getC_setCl (s : State) (k c : Nat) (v : LapCl) (d : Nat) : getC (setCl s k c v) d = getC s d := rfl

end

@[simp] theorem getCl_raiseNode (s : State) (a b i d x k c : Nat) : getCl (raiseNode s a b i d x) k c = getCl s k c :=
  getCl_congr (raiseNode_heats ..) ..

theorem wf_setCl {s : State} (h : s.heats.wf = true) (k c : Nat) (v : LapCl) : (setCl s k c v).heats.wf = true :=
  Map.wf_modify h ..

/-! ### Lap start (R50, R86) -/

theorem raisePage_only (s : State) (reason c d : Nat) (p : Port) (a id y g i f : Nat) :
    raisePage s reason c d p a id y g i f = { s with
      funcs := (raisePage s reason c d p a id y g i f).funcs, out := (raisePage s reason c d p a id y g i f).out } :=
  raiseObj_only ..

theorem startLap_runs {s : State} {k c : Nat} {v : LapCl} (wait : Nat) (hv : getCl s k c = some v) :
    ∃ x : LapCl, x.phase = .running ∧ x.start = s.ns ∧ x.work = x.savedWork
      ∧ startLap s k c wait = { setC (setCl s k c x) c { getC s c with holder := some k, granted := none } with
          funcs := (startLap s k c wait).funcs, out := (startLap s k c wait).out } := by
  obtain ⟨h, l, hk, hl, hc⟩ := getCl_some hv
  refine ⟨{ v with
    phase := .running, start := s.ns
    wait := if (match heatSlice s h with | some sl => sliceSealed s sl | none => false) then 0 else wait
    work := (startWork s h l.layer c (ttIndex s h c)).1, savedWork := (startWork s h l.layer c (ttIndex s h c)).1
    savedScratch := .empty, lastAt := 0 }, rfl, rfl, rfl, ?_⟩
  unfold startLap
  simp only [hk, hl, modCl_some _ hv]
  exact foldl_only (U := fun t s => { s with funcs := t.funcs, out := t.out }) (fun _ => rfl) (fun _ _ _ => rfl) _
    (fun _ _ => raisePage_only ..) _ _

theorem getCl_of_canStart {s : State} {k c : Nat} (h : canStart s k c = true) : ∃ v, getCl s k c = some v := by
  unfold canStart at h
  cases hv : getCl s k c with
  | none => rw [hv] at h; cases h
  | some v => exact ⟨v, rfl⟩

theorem lapStart_waits (k : Nat) (c : Cluster) (n w : Nat) (s : State) (h : canStart (clockTo s n) k c.val = false) :
    exec (.lapStart k c n w) s = .next (clockTo s n) := by
  change execLapStart k c n w s = _
  simp [execLapStart, h]

theorem lapStart_runs (k : Nat) (c : Cluster) (n w : Nat) (s : State) (h : canStart (clockTo s n) k c.val = true) :
    ∃ t v, exec (.lapStart k c n w) s = .next t ∧ getCl t k c.val = some v ∧ v.phase = .running
      ∧ v.start = (clockTo s n).ns ∧ v.work = v.savedWork ∧ (getC t c.val).holder = some k ∧ (getC t c.val).granted = none
      ∧ t.scratch = (clockTo s n).scratch ∧ t.buffer = (clockTo s n).buffer ∧ t.mem = (clockTo s n).mem
      ∧ t.seqs = (clockTo s n).seqs ∧ ∀ j, j ≠ k → getH t j = getH (clockTo s n) j := by
  obtain ⟨v, hv⟩ := getCl_of_canStart h
  obtain ⟨x, hphase, hstart, hwork, hlap⟩ := startLap_runs w hv
  have hexec : exec (.lapStart k c n w) s = .next (startLap (clockTo s n) k c.val w) := by
    change execLapStart k c n w s = _
    simp [execLapStart, h]
  refine ⟨_, x, hexec, ?_⟩
  generalize clockTo s n = u at *
  rw [hlap]
  refine ⟨getCl_setCl hv, hphase, hstart, hwork, ?_, ?_, rfl, rfl, rfl, rfl, fun j hj => getH_setCl_ne hj x⟩
  · exact congrArg ClusterSt.holder (getC_setC (setCl u k c.val x) c.val _)
  · exact congrArg ClusterSt.granted (getC_setC (setCl u k c.val x) c.val _)

/-! ### Holding a cluster (R251, R252, R255) -/

/-- What a lap has held its cluster for is charged: deficits and accounts, nothing else. -/
theorem holdFor_only (s : State) (k c n : Nat) :
    holdFor s k c n = { s with deficits := (holdFor s k c n).deficits, acct := (holdFor s k c n).acct } := by
  unfold holdFor
  split
  · rfl
  · dsimp only
    refine only_trans (U := fun t s => { s with deficits := t.deficits, acct := t.acct }) (fun _ _ _ => rfl) ?_
      (foldl_only (U := fun t s => { s with deficits := t.deficits, acct := t.acct }) (fun _ => rfl) (fun _ _ _ => rfl) _
        (fun s e => ?_) _ _)
    · rw [chargeEnergy_only, charge_only, charge_only]
      rfl
    · split
      · rfl
      · rw [charge_only]

@[simp] theorem holdFor_heats (s : State) (k c n : Nat) : (holdFor s k c n).heats = s.heats := by rw [holdFor_only]
@[simp] theorem getH_holdFor (s : State) (k c n j : Nat) : getH (holdFor s k c n) j = getH s j := by rw [holdFor_only]; rfl
@[simp] theorem getC_holdFor (s : State) (k c n d : Nat) : getC (holdFor s k c n) d = getC s d := by rw [holdFor_only]; rfl
@[simp] theorem getCl_holdFor (s : State) (k c n j d : Nat) : getCl (holdFor s k c n) j d = getCl s j d :=
  getCl_congr (holdFor_heats ..) ..

/-! ### The end of a segment (R87, R90) -/

section
variable {s : State} {k c : Nat} {v : LapCl}

theorem segmentEnd_passes (hv : getCl s k c = some v) (hpar : v.parity = false) (hfaults : v.faults = []) :
    segmentEnd s k c = (s, true) := by
  obtain ⟨h, l, hk, hl, hc⟩ := getCl_some hv
  simp [segmentEnd, hv, hk, hpar, hfaults]

theorem segmentEnd_replays (hv : getCl s k c = some v) (hpar : v.parity = true) (hfaults : v.faults = [])
    (hfew : v.attempts < 3) :
    segmentEnd s k c = (noteReplay (restoreCheckpoint (setCl s k c { v with attempts := v.attempts + 1 }) k c) c, false) := by
  obtain ⟨h, l, hk, hl, hc⟩ := getCl_some hv
  have hlow : ¬ 3 < v.attempts + 1 := by omega
  simp [segmentEnd, hv, hk, hpar, hfaults, hlow]

theorem segmentEnd_quarantines {h : HeatSt} (hv : getCl s k c = some v) (hk : getH s k = some h) (hpar : v.parity = true)
    (hmany : v.attempts = 3) :
    segmentEnd s k c = (raiseNode (quarantineCluster (setCl s k c { v with attempts := 4 }) c 1) 0x0001 0x0022 c
      (hDomain h.record) (otherPayload 0 k v.hurdle), false) := by
  simp [segmentEnd, hv, hk, hpar, hmany]

theorem getCl_restoreCheckpoint (hv : getCl s k c = some v) :
    getCl (restoreCheckpoint s k c) k c = some { v with work := v.savedWork, parity := false } := by
  rw [restoreCheckpoint, hv]
  exact getCl_setCl (s := { s with scratch := _ }) hv

@[simp] theorem getC_restoreCheckpoint (s : State) (k c d : Nat) : getC (restoreCheckpoint s k c) d = getC s d := by
  unfold restoreCheckpoint; split <;> rfl

@[simp] theorem getCl_noteReplay (s : State) (c k d : Nat) : getCl (noteReplay s c) k d = getCl s k d := by
  unfold noteReplay
  dsimp only
  split
  · rfl
  · rw [getCl_raiseNode]; rfl

/-- R90: a replay is counted, whether or not it is the first of its epoch. -/
theorem replays_noteReplay (s : State) (c : Nat) : (getC (noteReplay s c) c).replays = (getC s c).replays + 1 := by
  unfold noteReplay
  dsimp only
  split
  · rw [getC_setC]
  · rw [getC_raiseNode, getC_setC]

theorem quarantineCluster_quarantines (reason : Nat) (h : (getC s c).quarantined = false) :
    (getC (quarantineCluster s c reason) c).quarantined = true ∧ (getC (quarantineCluster s c reason) c).holder = none := by
  have hon : ¬ (getC s c).quarantined = true := by rw [h]; exact Bool.false_ne_true
  unfold quarantineCluster
  rw [if_neg hon]
  dsimp only
  rw [getC_raiseNode]
  exact ⟨congrArg ClusterSt.quarantined (getC_setC (loseFrames (awaitRollback s c) c) c _),
    congrArg ClusterSt.holder (getC_setC (loseFrames (awaitRollback s c) c) c _)⟩

/-! ### Checkpoints (R85) -/

/-- A table filled from a list of keys holds each key's own value. -/
theorem foldl_set_self {α : Type} {f : Nat → α} {i : Nat} (l : List Nat) (m : Map α) (h : i ∈ l ∨ m.get? i = some (f i)) :
    (l.foldl (fun m u => m.set u (f u)) m).get? i = some (f i) := by
  induction l generalizing m with
  | nil => simpa using h
  | cons a l ih =>
    refine ih (m.set a (f a)) ?_
    by_cases ha : i = a
    · exact .inr (by rw [ha, Map.get?_set])
    · rw [Map.get?_set_ne m ha]
      exact h.imp_left fun hm => (List.mem_cons.1 hm).resolve_left ha

/-- A lap past a hurdle, with its live ranges saved. -/
def passHurdle (v : LapCl) (saved : Map Scr) (e : Nat) : LapCl :=
  { v with savedScratch := saved, savedWork := v.work, hurdle := v.hurdle + 1, attempts := 0, lastAt := hOffset e }

theorem writeCheckpoint_saves (image e : Nat) (hv : getCl s k c = some v) :
    ∃ saved : Map Scr, (∀ i, i ∈ liveUnits image c e → saved.getD i {} = s.scratch.getD i {})
      ∧ writeCheckpoint s k c image e = setCl s k c (passHurdle v saved e) := by
  refine ⟨_, fun i hi => ?_, modCl_some _ hv⟩
  rw [Map.getD, foldl_set_self (f := fun u => s.scratch.getD u {}) _ _ (.inl hi)]
  rfl

end

/-! ### MAR.HURDLE (R87) -/

/-- A lap with the parity error that its operation saw, if any. -/
def noteParity (v : LapCl) (u : Uop) : LapCl := { v with parity := v.parity || u.parity }

/-- What the segment before a hurdle is judged on: its parity errors are noted, and its time is charged. -/
def judged (s : State) (u : Uop) (v : LapCl) (cycles : Nat) : State :=
  holdFor (setCl s u.heat u.cl.val (noteParity v u)) u.heat u.cl.val cycles

section
variable {s : State} {u : Uop} {n e : Nat} {v : LapCl} {h : HeatSt}

theorem judged_only (s : State) (u : Uop) (v : LapCl) (n : Nat) : judged s u v n = { s with
    heats := (judged s u v n).heats, deficits := (judged s u v n).deficits, acct := (judged s u v n).acct } := by
  unfold judged
  rw [holdFor_only, setCl_only]

theorem getCl_judged (hv : getCl s u.heat u.cl.val = some v) :
    getCl (judged s u v n) u.heat u.cl.val = some (noteParity v u) := by
  rw [judged, getCl_holdFor, getCl_setCl hv]

@[simp] theorem getC_judged (s : State) (u : Uop) (v : LapCl) (n d : Nat) : getC (judged s u v n) d = getC s d := by
  rw [judged, getC_holdFor, getC_setCl]

theorem getH_judged_ne {j : Nat} (hj : j ≠ u.heat) : getH (judged s u v n) j = getH s j := by
  rw [judged, getH_holdFor, getH_setCl_ne hj]

theorem wf_judged (hwf : s.heats.wf = true) : (judged s u v n).heats.wf = true := by
  rw [judged, holdFor_heats]
  exact wf_setCl hwf ..

theorem judged_scratch (s : State) (u : Uop) (v : LapCl) (n : Nat) : (judged s u v n).scratch = s.scratch := by
  rw [judged_only]

theorem parity_or_of_either (hpar : v.parity = true ∨ u.parity = true) : (v.parity || u.parity) = true := by
  simpa using hpar

/-- R17: an operation of a lap that does not run in the cluster does nothing. -/
theorem hurdleOp_idle (hv : getCl s u.heat u.cl.val = some v)
    (hidle : v.phase ≠ .running ∨ (getC s u.cl.val).holder ≠ some u.heat) : hurdleOp u n s = s := by
  obtain ⟨x, l, hx, hl, hc⟩ := getCl_some hv
  have hnot : ¬ (v.phase = .running ∧ (getC s u.cl.val).holder = some u.heat ∧ u.a.toNat = v.hurdle) := by tauto
  simp only [hurdleOp, hv, hx]
  rw [if_neg hnot]

theorem marEndOp_idle (hv : getCl s u.heat u.cl.val = some v)
    (hidle : v.phase ≠ .running ∨ (getC s u.cl.val).holder ≠ some u.heat) : marEndOp u n s = s := by
  obtain ⟨x, l, hx, hl, hc⟩ := getCl_some hv
  have hnot : ¬ (v.phase = .running ∧ (getC s u.cl.val).holder = some u.heat) := by tauto
  simp only [marEndOp, hv, hx]
  rw [if_neg hnot]

section
variable (hv : getCl s u.heat u.cl.val = some v) (hk : getH s u.heat = some h) (hrun : v.phase = .running)
  (hhold : (getC s u.cl.val).holder = some u.heat)
include hv hk hrun hhold

section
variable (hord : u.a.toNat = v.hurdle) (hentry : hurdleOf (heatImage s h) (ttIndex s h u.cl.val) v.hurdle = some e)
include hord hentry

theorem hurdleOp_eq : hurdleOp u n s =
    let r := segmentEnd (judged s u v (hOffset e - v.lastAt + n)) u.heat u.cl.val
    let t := writeCheckpoint r.1 u.heat u.cl.val (heatImage s h) e
    if r.2 then if hPreempt e then preempt t u.heat u.cl.val else t else r.1 := by
  simp only [hurdleOp, hv, hk]
  rw [if_pos ⟨hrun, hhold, hord⟩]
  simp only [hentry]
  rfl

/-- A hurdle whose segment is not clean does what the segment's end does. -/
theorem hurdleOp_fails {t : State} (hseg : segmentEnd (judged s u v (hOffset e - v.lastAt + n)) u.heat u.cl.val = (t, false)) :
    hurdleOp u n s = t := by
  rw [hurdleOp_eq hv hk hrun hhold hord hentry, hseg]
  rfl

/-- A hurdle whose segment is clean writes a checkpoint, and goes on where pre-emption is not allowed. -/
theorem hurdleOp_passes (hpar : (v.parity || u.parity) = false) (hfaults : v.faults = []) (hkeep : hPreempt e = false) :
    hurdleOp u n s
      = writeCheckpoint (judged s u v (hOffset e - v.lastAt + n)) u.heat u.cl.val (heatImage s h) e := by
  rw [hurdleOp_eq hv hk hrun hhold hord hentry, segmentEnd_passes (getCl_judged hv) hpar hfaults, hkeep]
  rfl

end
end

end

theorem marHurdle_marEnd_idle (u : Uop) (n : Nat) (v : LapCl) (s : State) (hv : getCl s u.heat u.cl.val = some v)
    (hidle : v.phase ≠ .running ∨ (getC s u.cl.val).holder ≠ some u.heat) :
    exec (.marHurdle u n) s = .next s ∧ exec (.marEnd u n) s = .next s :=
  ⟨congrArg Host.Outcome.next (hurdleOp_idle hv hidle), congrArg Host.Outcome.next (marEndOp_idle hv hidle)⟩

theorem marHurdle_passes (u : Uop) (n e : Nat) (v : LapCl) (h : HeatSt) (s : State)
    (hv : getCl s u.heat u.cl.val = some v) (hk : getH s u.heat = some h) (hrun : v.phase = .running)
    (hhold : (getC s u.cl.val).holder = some u.heat) (hord : u.a.toNat = v.hurdle) (hpv : v.parity = false)
    (hpu : u.parity = false) (hfaults : v.faults = [])
    (hentry : hurdleOf (heatImage s h) (ttIndex s h u.cl.val) v.hurdle = some e) (hkeep : hPreempt e = false) :
    ∃ t x, exec (.marHurdle u n) s = .next t ∧ getCl t u.heat u.cl.val = some x ∧ x.hurdle = v.hurdle + 1
      ∧ x.attempts = 0 ∧ x.savedWork = v.work ∧ x.work = v.work ∧ x.phase = .running ∧ x.lastAt = hOffset e
      ∧ (∀ i, i ∈ liveUnits (heatImage s h) u.cl.val e → x.savedScratch.getD i {} = s.scratch.getD i {})
      ∧ t = { s with heats := t.heats, deficits := t.deficits, acct := t.acct } := by
  have hpar : (v.parity || u.parity) = false := by rw [hpv, hpu]; rfl
  have hjudged := getCl_judged (n := hOffset e - v.lastAt + n) hv
  obtain ⟨saved, hsaved, hcheck⟩ := writeCheckpoint_saves (heatImage s h) e hjudged
  have hop := (hurdleOp_passes hv hk hrun hhold hord hentry hpar hfaults hkeep).trans hcheck
  refine ⟨_, _, congrArg Host.Outcome.next hop, getCl_setCl hjudged, rfl, rfl, rfl, rfl, hrun, rfl, fun i hi => ?_, ?_⟩
  · exact (hsaved i hi).trans (by rw [judged_scratch])
  · rw [setCl_only, judged_only]

theorem marHurdle_replays (u : Uop) (n e : Nat) (v : LapCl) (h : HeatSt) (s : State)
    (hv : getCl s u.heat u.cl.val = some v) (hk : getH s u.heat = some h) (hrun : v.phase = .running)
    (hhold : (getC s u.cl.val).holder = some u.heat) (hord : u.a.toNat = v.hurdle)
    (hpar : v.parity = true ∨ u.parity = true) (hfew : v.attempts < 3) (hfaults : v.faults = [])
    (hentry : hurdleOf (heatImage s h) (ttIndex s h u.cl.val) v.hurdle = some e) :
    ∃ t x, exec (.marHurdle u n) s = .next t ∧ getCl t u.heat u.cl.val = some x ∧ x.hurdle = v.hurdle
      ∧ x.attempts = v.attempts + 1 ∧ x.parity = false ∧ x.work = v.savedWork ∧ x.phase = .running
      ∧ (getC t u.cl.val).replays = (getC s u.cl.val).replays + 1 := by
  have hjudged := getCl_judged (n := hOffset e - v.lastAt + n) hv
  have hseg := segmentEnd_replays hjudged (parity_or_of_either hpar) hfaults hfew
  refine ⟨_, _, congrArg Host.Outcome.next (hurdleOp_fails hv hk hrun hhold hord hentry hseg),
    (getCl_noteReplay ..).trans (getCl_restoreCheckpoint (getCl_setCl hjudged)), rfl, rfl, rfl, rfl, hrun, ?_⟩
  rw [replays_noteReplay, getC_restoreCheckpoint, getC_setCl, getC_judged]

theorem marHurdle_quarantines (u : Uop) (n e : Nat) (v : LapCl) (h : HeatSt) (s : State)
    (hv : getCl s u.heat u.cl.val = some v) (hk : getH s u.heat = some h) (hrun : v.phase = .running)
    (hhold : (getC s u.cl.val).holder = some u.heat) (hord : u.a.toNat = v.hurdle)
    (hpar : v.parity = true ∨ u.parity = true) (hmany : v.attempts = 3)
    (hentry : hurdleOf (heatImage s h) (ttIndex s h u.cl.val) v.hurdle = some e)
    (hfree : (getC s u.cl.val).quarantined = false) :
    ∃ t, exec (.marHurdle u n) s = .next t ∧ (getC t u.cl.val).quarantined = true ∧ (getC t u.cl.val).holder = none := by
  have hjudged := getCl_judged (n := hOffset e - v.lastAt + n) hv
  obtain ⟨x, l, hx, hl, hc⟩ := getCl_some hjudged
  have hseg := segmentEnd_quarantines hjudged hx (parity_or_of_either hpar) hmany
  refine ⟨_, congrArg Host.Outcome.next (hurdleOp_fails hv hk hrun hhold hord hentry hseg), ?_⟩
  rw [getC_raiseNode]
  exact quarantineCluster_quarantines 1 (by rw [getC_setCl, getC_judged, hfree])

/-! ### MAR.END (R251) -/

theorem Map.get?_of_mem {α : Type} {m : Map α} (hwf : m.wf = true) {e : Nat × α} (he : e ∈ m.l) : m.get? e.1 = some e.2 := by
  unfold Map.get? Map.wf at *
  generalize m.l = l at *
  induction l with
  | nil => cases he
  | cons b t ih =>
    obtain ⟨habove, hrest⟩ := (risingKeys_cons b t).1 hwf
    rcases List.mem_cons.1 he with rfl | ht
    · rw [lookupKey, if_pos rfl]
    · have hlt : b.1 < e.1 := habove e ht
      rw [lookupKey, if_neg (by omega)]
      exact ih hrest ht

/-- No lap is ready in a cluster in which each has ended. -/
theorem readyLaps_of_ended {s : State} {c : Nat} (hwf : s.heats.wf = true)
    (hended : ∀ k v, getCl s k c = some v → v.phase = .ended) : readyLaps s c = [] := by
  refine List.filterMap_eq_nil_iff.2 fun e he => ?_
  have hk : getH s e.1 = some e.2 := Map.get?_of_mem hwf he
  cases hl : e.2.lap with
  | none => rfl
  | some l =>
    cases hc : l.cls.get? c with
    | none => simp [hc]
    | some v =>
      have hphase : v.phase = .ended := hended e.1 v (by simp [getCl, hk, hl, hc])
      simp [hc, hphase]

theorem arbitrateFree_of_none {s : State} {c : Nat} (h : readyLaps s c = []) : arbitrateFree s c = s := by
  simp [arbitrateFree, h, decide251]

theorem startSwitch_only (s : State) (c : Nat) : startSwitch s c = { s with clusters := (startSwitch s c).clusters } := by
  unfold startSwitch; dsimp only; split <;> rfl

theorem holder_startSwitch (s : State) (c : Nat) : (getC (startSwitch s c) c).holder = (getC s c).holder := by
  unfold startSwitch
  dsimp only
  split
  · rw [getC_setC]
  · rfl

/-- A lap that ends leaves its cluster free, and a CCLK switch that is due begins. -/
def leaveCluster (s : State) (k c : Nat) : State :=
  let t := modCl s k c fun v => { v with phase := .ended }
  startSwitch (setC t c { getC t c with holder := none }) c

theorem leaveCluster_eq {s : State} {k c : Nat} {v : LapCl} (hv : getCl s k c = some v) : leaveCluster s k c
    = startSwitch (setC (setCl s k c { v with phase := .ended }) c { getC s c with holder := none }) c := by
  rw [leaveCluster, modCl_some _ hv]
  rfl

theorem leaveCluster_heats {s : State} {k c : Nat} {v : LapCl} (hv : getCl s k c = some v) :
    (leaveCluster s k c).heats = (setCl s k c { v with phase := .ended }).heats := by
  rw [leaveCluster_eq hv, startSwitch_only]
  rfl

theorem getCl_leaveCluster {s : State} {k c : Nat} {v : LapCl} (hv : getCl s k c = some v) :
    getCl (leaveCluster s k c) k c = some { v with phase := .ended } :=
  (getCl_congr (leaveCluster_heats hv) k c).trans (getCl_setCl hv)

theorem getH_leaveCluster_ne {s : State} {k c j : Nat} {v : LapCl} (hv : getCl s k c = some v) (hj : j ≠ k) :
    getH (leaveCluster s k c) j = getH s j :=
  (getH_congr (leaveCluster_heats hv) j).trans (getH_setCl_ne hj _)

theorem wf_leaveCluster {s : State} {k c : Nat} {v : LapCl} (hv : getCl s k c = some v) (hwf : s.heats.wf = true) :
    (leaveCluster s k c).heats.wf = true := by
  rw [leaveCluster_heats hv]
  exact wf_setCl hwf ..

/-- Where no other heat runs a lap, no lap is ready for the cluster that a lap has left. -/
theorem readyLaps_leaveCluster {s : State} {k c : Nat} {v : LapCl} (hv : getCl s k c = some v) (hwf : s.heats.wf = true)
    (halone : ∀ j x, getH s j = some x → j ≠ k → x.lap = none) : readyLaps (leaveCluster s k c) c = [] := by
  refine readyLaps_of_ended (wf_leaveCluster hv hwf) fun j x hx => ?_
  by_cases hj : j = k
  · rw [hj, getCl_leaveCluster hv] at hx
    cases hx
    rfl
  · obtain ⟨y, l, hy, hl, -⟩ := getCl_some hx
    rw [getH_leaveCluster_ne hv hj] at hy
    rw [halone j y hy hj] at hl
    cases hl

theorem holder_leaveCluster {s : State} {k c : Nat} {v : LapCl} (hv : getCl s k c = some v) :
    (getC (leaveCluster s k c) c).holder = none := by
  rw [leaveCluster_eq hv, holder_startSwitch, getC_setC]

theorem leaveCluster_only {s : State} {k c : Nat} {v : LapCl} (hv : getCl s k c = some v) : leaveCluster s k c
    = { s with heats := (leaveCluster s k c).heats, clusters := (leaveCluster s k c).clusters } := by
  rw [leaveCluster_eq hv, startSwitch_only, setC, setCl_only]

/-- CCLK offset of the last entry of a cluster's timetable. -/
def lastOffset (s : State) (h : HeatSt) (c : Nat) : Nat :=
  eOffset (ttEntry (heatImage s h) (ttIndex s h c) (ttCount (heatImage s h) (ttIndex s h c) - 1))

theorem marEndOp_eq {s : State} {u : Uop} {n : Nat} {v : LapCl} {h : HeatSt} (hv : getCl s u.heat u.cl.val = some v)
    (hk : getH s u.heat = some h) (hrun : v.phase = .running) (hhold : (getC s u.cl.val).holder = some u.heat) :
    marEndOp u n s =
      let r := segmentEnd (judged s u v (lastOffset s h u.cl.val - v.lastAt + n)) u.heat u.cl.val
      if r.2 then arbitrateFree (leaveCluster r.1 u.heat u.cl.val) u.cl.val else r.1 := by
  simp only [marEndOp, hv, hk]
  rw [if_pos ⟨hrun, hhold⟩]
  rfl

theorem marEnd_ends (u : Uop) (n : Nat) (v : LapCl) (h : HeatSt) (s : State) (hv : getCl s u.heat u.cl.val = some v)
    (hk : getH s u.heat = some h) (hrun : v.phase = .running) (hhold : (getC s u.cl.val).holder = some u.heat)
    (hpv : v.parity = false) (hpu : u.parity = false) (hfaults : v.faults = [])
    (halone : ∀ k x, getH s k = some x → k ≠ u.heat → x.lap = none) (hwf : s.heats.wf = true) :
    ∃ t x, exec (.marEnd u n) s = .next t ∧ getCl t u.heat u.cl.val = some x ∧ x.phase = .ended
      ∧ (getC t u.cl.val).holder = none
      ∧ t = { s with heats := t.heats, clusters := t.clusters, deficits := t.deficits, acct := t.acct } := by
  have hjudged := getCl_judged (n := lastOffset s h u.cl.val - v.lastAt + n) hv
  have hend := marEndOp_eq (n := n) hv hk hrun hhold
  generalize lastOffset s h u.cl.val - v.lastAt + n = cycles at hjudged hend
  rw [segmentEnd_passes hjudged (by rw [noteParity, hpv, hpu]; rfl) hfaults] at hend
  have hnone := readyLaps_leaveCluster hjudged (wf_judged hwf) fun j x hx hj =>
    halone j x (by rwa [getH_judged_ne hj] at hx) hj
  refine ⟨_, _, congrArg Host.Outcome.next (hend.trans (arbitrateFree_of_none hnone)), getCl_leaveCluster hjudged, rfl,
    holder_leaveCluster hjudged, ?_⟩
  rw [leaveCluster_only hjudged, judged_only]

/-! ### Page faults (R84, R87) -/

theorem pageFaultResolved_idle (k : Nat) (c : Cluster) (b : Bool) (n : Nat) (v : LapCl) (s : State)
    (hv : getCl (clockTo s n) k c.val = some v) (hphase : v.phase ≠ .faultPark) :
    exec (.pageFaultResolved k c b n) s = .next (clockTo s n) := by
  obtain ⟨h, l, hk, hl, hc⟩ := getCl_some hv
  change execPageFaultResolved k c b n s = _
  simp only [execPageFaultResolved, faultResolvedOp, hv, hk]
  rw [if_neg hphase]

/-- The absent pages of a segment are in the buffer now, and its lap is ready again. -/
theorem faultResolvedOp_resumes {s : State} {k c : Nat} {v : LapCl} (hv : getCl s k c = some v) (hpark : v.phase = .faultPark)
    (hheld : (getC s c).holder.isSome) :
    ∃ buffer, faultResolvedOp s k c false
      = setCl { s with buffer := buffer } k c { v with phase := .preemptPark, faults := [] } := by
  obtain ⟨h, l, hk, hl, hc⟩ := getCl_some hv
  have hbusy : ¬ ((getC s c).holder.isNone = true ∧ (getC s c).granted.isNone = true) := by
    rintro ⟨hnone, -⟩
    rw [Option.isNone_iff_eq_none.1 hnone] at hheld
    cases hheld
  simp only [faultResolvedOp, hv, hk, hpark, if_true, Bool.false_eq_true, if_false]
  exact ⟨_, if_neg hbusy⟩

theorem pageFaultResolved_resumes (k : Nat) (c : Cluster) (n : Nat) (v : LapCl) (s : State)
    (hv : getCl (clockTo s n) k c.val = some v) (hpark : v.phase = .faultPark)
    (hheld : (getC (clockTo s n) c.val).holder.isSome) :
    ∃ t x, exec (.pageFaultResolved k c false n) s = .next t ∧ getCl t k c.val = some x ∧ x.phase = .preemptPark
      ∧ x.faults = [] ∧ x.work = v.work ∧ t = { clockTo s n with heats := t.heats, buffer := t.buffer } := by
  obtain ⟨buffer, hop⟩ := faultResolvedOp_resumes hv hpark hheld
  exact ⟨_, _, congrArg Host.Outcome.next hop, getCl_setCl (s := { clockTo s n with buffer := buffer }) hv, rfl, rfl, rfl, rfl⟩

/-- Settles O33, from lap start to the page fault that parks a lap. It rests on assumptions 5 (a row whose condition is not met
leaves the state as it is, but for the clock) and 134 (each MAR.HURDLE row ends a segment, and a replayed entry is given
again as a row). -/
theorem lapsRunInClusters : Obligations.LapsRunInClusters :=
  ⟨lapStart_waits, lapStart_runs, marHurdle_marEnd_idle, marHurdle_passes, marHurdle_replays, marHurdle_quarantines,
    marEnd_ends, pageFaultResolved_idle, pageFaultResolved_resumes⟩

end Sys2Proof.Machine
end

section
/-! Chapters 2, 6 and 9 of the spec: batons are sent and folded at the relay stage, the result is written, and the lap ends
(R51, R163, R170, R173, R176 to R178, R244 to R249, R314). -/

namespace Sys2Proof.Machine

/-! ### The running lap of a heat -/

section
variable {s : State} {k : Nat} {l : LapSt}

theorem modLap_only (s : State) (k : Nat) (g : LapSt → LapSt) : modLap s k g = { s with heats := (modLap s k g).heats } := rfl

theorem lap_modH {g : HeatSt → HeatSt} {f : LapSt → LapSt} (hg : ∀ h, (g h).lap = h.lap.map f)
    (h : (getH s k).bind (·.lap) = some l) : (getH (modH s k g) k).bind (·.lap) = some (f l) := by
  obtain ⟨x, hx, hl⟩ := Option.bind_eq_some_iff.1 h
  simp [hx, hg, hl]

theorem lap_modLap (g : LapSt → LapSt) (h : (getH s k).bind (·.lap) = some l) :
    (getH (modLap s k g) k).bind (·.lap) = some (g l) := lap_modH (fun _ => rfl) h

theorem lap_setCl (c : Nat) (v : LapCl) (h : (getH s k).bind (·.lap) = some l) :
    (getH (setCl s k c v) k).bind (·.lap) = some { l with cls := l.cls.set c v } :=
  lap_modH (f := fun l => { l with cls := l.cls.set c v }) (fun _ => rfl) h

/-- A change of the lap that leaves its clusters alone. -/
theorem getCl_modLap {g : LapSt → LapSt} (c : Nat) (hg : (g l).cls = l.cls) (h : (getH s k).bind (·.lap) = some l) :
    getCl (modLap s k g) k c = getCl s k c := by
  rw [getCl, lap_modLap g h, getCl, h, Option.bind_some, Option.bind_some, hg]

theorem lap_of_runOf {u : Uop} {r : Run} (h : runOf s u = some r) : (getH s u.heat).bind (·.lap) = some r.l := by
  unfold runOf at h
  split at h
  · cases h
  rename_i x hx
  split at h
  · cases h
  rename_i y hy
  split at h
  · cases h
  split at h
  · cases h
    simp [hx, hy]
  · cases h

theorem withRun_of_runOf {u : Uop} {r : Run} (h : runOf s u = some r) (hpar : u.parity = false) (f : Run → State → State) :
    withRun s u f = f r s := by
  simp [withRun, h, hpar]

theorem relayRun_some {r : Run} (h : relayRun s k = some r) : getH s k = some r.h ∧ r.h.lap = some r.l := by
  unfold relayRun at h
  split at h
  · cases h
  rename_i x hx
  obtain ⟨y, hy, rfl⟩ := Option.map_eq_some_iff.1 h
  exact ⟨hx, hy⟩

theorem lap_of_relayRun {r : Run} (h : relayRun s k = some r) : (getH s k).bind (·.lap) = some r.l := by
  obtain ⟨hk, hl⟩ := relayRun_some h
  rw [hk, Option.bind_some, hl]

end

/-! ### NET.BTN (R24, R170, R173, R176) -/

theorem length_elems (w x n : Nat) : (elems w x n).length = n := by
  induction n generalizing x with
  | zero => rfl
  | succ n ih => rw [elems, List.length_cons, ih]

/-- A table filled from a list of entries lists each entry's key. -/
theorem isSome_foldl_set {α β : Type} {key : α → Nat} {f : α → β} {i : Nat} (l : List α) (m : Map β)
    (h : (∃ e ∈ l, key e = i) ∨ (m.get? i).isSome = true) :
    ((l.foldl (fun m e => m.set (key e) (f e)) m).get? i).isSome = true := by
  induction l generalizing m with
  | nil => simpa using h
  | cons a l ih =>
    refine ih (m.set (key a) (f a)) ?_
    by_cases ha : i = key a
    · exact .inr (by rw [ha, Map.get?_set]; rfl)
    · rw [Map.get?_set_ne m ha]
      refine h.imp_left ?_
      rintro ⟨e, he, hkey⟩
      rcases List.mem_cons.1 he with rfl | hl
      · exact absurd hkey.symm ha
      · exact ⟨e, hl, hkey⟩

/-- The heads that a NET.BTN of statistics names. -/
def btnHeads (u : Uop) : List Nat := bitsOf (fld u.a.toNat 31 16) 16

/-- The statistics that it reads for them, with what they belong to. -/
def btnStats (s : State) (r : Run) (u : Uop) : List Stat × Option Nat :=
  readStats s u u.core.val (fld u.a.toNat 13 0) r.dv (btnHeads u).length

theorem length_btnStats (s : State) (r : Run) (u : Uop) : (btnStats s r u).1.length = (btnHeads u).length := by
  rw [btnStats, readStats, List.length_map, length_elems]

section
variable {s : State} {u : Uop} {r : Run}

/-- The relay stage's batons, with one for each head of a list from the operation's cluster. -/
def addBatons (m : Map Baton) (u : Uop) (slot group : Nat) (f : Nat × Stat → Baton) (l : List (Nat × Stat)) : Map Baton :=
  l.foldl (fun m e => m.set (termKey (headKey slot group e.1) u.cl.val) (f e)) m

theorem isSome_addBatons {m : Map Baton} {u : Uop} {slot group i : Nat} {f : Nat × Stat → Baton} {heads : List Nat}
    {l : List Stat} (hlen : heads.length ≤ l.length) (hi : i ∈ heads) :
    ((addBatons m u slot group f (heads.zip l)).get? (termKey (headKey slot group i) u.cl.val)).isSome = true := by
  rw [← List.map_fst_zip hlen] at hi
  obtain ⟨e, he, rfl⟩ := List.mem_map.1 hi
  exact isSome_foldl_set _ _ (.inl ⟨e, he, rfl⟩)

/-- R170: a baton for each head of the mask goes to the relay stage, and the heads count as sent. -/
theorem sendBatons_sends {k : Nat} (htag : u.tagBad = false) (hown : (btnStats s r u).2 = some k) :
    ∃ batons : Map Baton,
      (∀ i, i ∈ btnHeads u → (batons.get? (termKey (headKey (k / 1024) (k / 16 % 64) i) u.cl.val)).isSome = true)
      ∧ sendBatons r s u = modCl (modLap s u.heat fun x => { x with batons := batons }) u.heat u.cl.val fun v =>
        { v with sent := (v.sent ++ (btnHeads u).map (headKey (k / 1024) (k / 16 % 64))).eraseDups } := by
  have hfill (f : Nat × Stat → Baton) (i : Nat) (hi : i ∈ btnHeads u) :=
    isSome_addBatons (m := r.l.batons) (u := u) (slot := k / 1024) (group := k / 16 % 64) (f := f)
      (length_btnStats s r u).ge hi
  unfold btnStats btnHeads at *
  simp only [sendBatons, hown, htag]
  exact ⟨_, hfill _, rfl⟩

/-- The elements of an FP32 operand, as FP32 bits. -/
def columnShare (x : List Scr) : List Nat :=
  (elems 32 (unitBytes x) (x.length * 512 / 32)).map fun e => toBits32 (decodeElem 7 e)

/-- R174: a column share of a slot's projected heads goes to the relay stage. -/
theorem sendShare_keeps (htag : u.tagBad = false)
    (hfmt : ((operandUnits s u r u.core.val (fld u.a.toNat 13 0) false (fld u.b.toNat 15 0)).headD {}).fmt = 7) :
    let x := operandUnits s u r u.core.val (fld u.a.toNat 13 0) false (fld u.b.toNat 15 0)
    sendShare r s u = modLap s u.heat fun y =>
      { y with shares := y.shares.set (termKey ((unitOwn x).getD 0 / 1024) u.cl.val) (columnShare x) } := by
  have hgood : ¬ (u.tagBad = true ∨ (7 : Nat) ≠ 0 ∧ (7 : Nat) ≠ 7) := by simp [htag]
  have hbits : fmtBits 7 = 32 := rfl
  simp only [sendShare, hfmt, hbits]
  exact if_neg hgood

end

theorem netBtn_sends (u : Uop) (r : Run) (k : Nat) (s : State) (hrun : runOf s u = some r) (hpar : u.parity = false)
    (htag : u.tagBad = false) (hstats : bit u.c.toNat 0 = false)
    (hown : (readStats s u u.core.val (fld u.a.toNat 13 0) r.dv (bitsOf (fld u.a.toNat 31 16) 16).length).2 = some k) :
    ∃ t l v, exec (.netBtn u) s = .next t ∧ (getH t u.heat).bind (·.lap) = some l ∧ getCl t u.heat u.cl.val = some v
      ∧ (∀ i, i ∈ bitsOf (fld u.a.toNat 31 16) 16 → headKey (k / 1024) (k / 16 % 64) i ∈ v.sent
          ∧ (l.batons.get? (termKey (headKey (k / 1024) (k / 16 % 64) i) u.cl.val)).isSome)
      ∧ t = { s with heats := t.heats } := by
  have hlap := lap_of_runOf hrun
  have hcl := getCl_of_runOf hrun
  obtain ⟨batons, hbatons, hsend⟩ := sendBatons_sends (r := r) htag hown
  have hexec : exec (.netBtn u) s = .next (sendBatons r s u) := by
    change execNetBtn u s = _
    rw [execNetBtn, withRun_of_runOf hrun hpar, hstats, if_neg Bool.false_ne_true]
  rw [hsend] at hexec
  have hcl' := (getCl_modLap (g := fun x => { x with batons := batons }) u.cl.val rfl hlap).trans hcl
  rw [modCl_some _ hcl'] at hexec
  exact ⟨_, _, _, hexec, lap_setCl _ _ (lap_modLap _ hlap), getCl_setCl hcl', fun i hi =>
    ⟨List.mem_eraseDups.2 (List.mem_append_right _ (List.mem_map_of_mem hi)), hbatons i hi⟩, rfl⟩

theorem netBtn_keeps_share (u : Uop) (r : Run) (s : State) (hrun : runOf s u = some r) (hpar : u.parity = false)
    (htag : u.tagBad = false) (hshare : bit u.c.toNat 0 = true) :
    let x := operandUnits s u r u.core.val (fld u.a.toNat 13 0) false (fld u.b.toNat 15 0)
    (x.headD {}).fmt = 7 →
    ∃ t l, exec (.netBtn u) s = .next t ∧ (getH t u.heat).bind (·.lap) = some l
      ∧ l.shares.get? (termKey ((unitOwn x).getD 0 / 1024) u.cl.val)
        = some ((elems 32 (unitBytes x) (x.length * 512 / 32)).map fun e => toBits32 (decodeElem 7 e))
      ∧ t = { s with heats := t.heats } := by
  intro x hfmt
  have hexec : exec (.netBtn u) s = .next (sendShare r s u) := by
    change execNetBtn u s = _
    rw [execNetBtn, withRun_of_runOf hrun hpar, if_pos hshare]
  rw [sendShare_keeps htag hfmt] at hexec
  exact ⟨_, _, hexec, lap_modLap _ (lap_of_runOf hrun), Map.get?_set .., rfl⟩

/-! ### The relay stage (R163, R176 to R178) -/

section
variable {s : State} {k : Nat} {r : Run}

theorem relayOp_idle (h : relayRun s k = none) : relayOp s k = s := by
  rw [relayOp, h]

theorem relayOp_folded (h : relayRun s k = some r) (hfold : r.l.folded = true) : relayOp s k = s := by
  simp only [relayOp, h]
  rw [if_pos (by rw [hfold]; rfl)]

section
variable (h : relayRun s k = some r) (hfold : r.l.folded = false) (hready : batonsReady s r = true)
include h hfold hready

/-- R176: the normalised heads are multicast before they are projected. -/
theorem relayOp_multicasts (hproj : projects r = true) (hheads : r.l.heads = none) :
    relayOp s k = modLap s k fun l => { l with heads := some (multicastUnits s r) } := by
  simp [relayOp, h, hfold, hready, hproj, hheads]

/-- R178: with every term there, the result is written and the lap is folded. -/
theorem relayOp_writes (hproj : projects r = true → r.l.heads.isSome ∧ sharesReady s r = true) (hmaster : r.h.master = none)
    (hstripes : stripesReady s r = true) :
    relayOp s k = modLap (writeResult s r k) k fun l => { l with folded := true } := by
  cases hp : projects r with
  | false => simp [relayOp, h, hfold, hready, hp, hmaster, hstripes]
  | true =>
    obtain ⟨hheads, hshares⟩ := hproj hp
    have hsome : r.l.heads ≠ none := Option.isSome_iff_ne_none.1 hheads
    simp [relayOp, h, hfold, hready, hp, hsome, hshares, hmaster, hstripes]

end
end

/-! ### Writing a step result (R48, R247) -/

theorem hostPut_only (s : State) (p : Port) (d a n x : Nat) :
    hostPut s p d a n x = { s with acct := (hostPut s p d a n x).acct, out := (hostPut s p d a n x).out } := by
  unfold hostPut
  split
  · rfl
  · rw [chargePcie_only]
    rfl

theorem hostPut_out (s : State) (p : Port) (d a x : Nat) {n : Nat} (hn : n ≠ 0) :
    (hostPut s p d a n x).out = .hostWrite p a n x :: s.out := by
  rw [hostPut, if_neg hn, emit_out, chargePcie_out]

/-- A chain of operations that write to hosts and charge for it, and do nothing else. -/
theorem foldl_hostOnly {α : Type} (f : State → α → State)
    (h : ∀ s a, f s a = { s with acct := (f s a).acct, out := (f s a).out }) (l : List α) (s : State) :
    l.foldl f s = { s with acct := (l.foldl f s).acct, out := (l.foldl f s).out } :=
  foldl_only (U := fun t s => { s with acct := t.acct, out := t.out }) (fun _ => rfl) (fun _ _ _ => rfl) f h l s

theorem hostOnly_trans {s t u : State} (a : t = { s with acct := t.acct, out := t.out })
    (b : u = { t with acct := u.acct, out := u.out }) : u = { s with acct := u.acct, out := u.out } :=
  only_trans (U := fun t s => { s with acct := t.acct, out := t.out }) (fun _ _ _ => rfl) a b

theorem writeAreas_only (s : State) (r : Run) (n base : Nat) (q : SeqSt) : writeAreas s r n base q
    = { s with acct := (writeAreas s r n base q).acct, out := (writeAreas s r n base q).out } := by
  unfold writeAreas
  refine hostOnly_trans ?_ (foldl_hostOnly _ (fun s g => foldl_hostOnly _ (fun s h => ?_) _ _) _ _)
  · split
    · exact hostPut_only ..
    · rfl
  · dsimp only
    split
    · exact hostPut_only ..
    · split
      · rfl
      · exact hostPut_only ..

theorem writeRow_only (s : State) (r : Run) (n : Nat) :
    writeRow s r n = { s with acct := (writeRow s r n).acct, out := (writeRow s r n).out } := by
  unfold writeRow
  dsimp only
  split
  · exact hostPut_only ..
  · exact hostOnly_trans (hostPut_only ..) (writeAreas_only ..)

/-- The rows of a step result. -/
def writeSlotRows (s : State) (r : Run) : State :=
  (List.range (hSlots r.h.record)).foldl (fun s n => writeRow s r n) s

theorem writeSlotRows_only (s : State) (r : Run) :
    writeSlotRows s r = { s with acct := (writeSlotRows s r).acct, out := (writeSlotRows s r).out } :=
  foldl_hostOnly _ (fun s n => writeRow_only s r n) _ _

/-- Without INT a result is its rows and, last, its header. -/
theorem writeResult_quiet {r : Run} (hquiet : hInt r.h.record = false) (s : State) (k : Nat) :
    writeResult s r k = hostPut (writeSlotRows s r) (hCtrlPort r.h.record) (hDomain r.h.record) (entryAddr r.h r.l.entry) 64
      (resultHeader (lowStart r).1 r.l.accept (lowStart r).2 0 (hSlots r.h.record) r.l.layer k r.l.step.toNat) := by
  simp only [writeResult, hquiet]
  exact if_neg Bool.false_ne_true

theorem relayFold_multicasts (k n : Nat) (r : Run) (s : State) (h : relayRun (clockTo s n) k = some r)
    (hfold : r.l.folded = false) (hready : batonsReady (clockTo s n) r = true) (hproj : projects r = true)
    (hheads : r.l.heads = none) :
    ∃ t l, exec (.relayFold k n) s = .next t ∧ (getH t k).bind (·.lap) = some l
      ∧ l = { r.l with heads := some (multicastUnits (clockTo s n) r) } ∧ t = { clockTo s n with heats := t.heats } :=
  ⟨_, _, congrArg Host.Outcome.next (relayOp_multicasts h hfold hready hproj hheads), lap_modLap _ (lap_of_relayRun h), rfl,
    rfl⟩

theorem relayFold_writes (k n : Nat) (r : Run) (s : State) (h : relayRun (clockTo s n) k = some r)
    (hfold : r.l.folded = false) (hready : batonsReady (clockTo s n) r = true)
    (hproj : projects r = true → r.l.heads.isSome ∧ sharesReady (clockTo s n) r = true) (hmaster : r.h.master = none)
    (hstripes : stripesReady (clockTo s n) r = true) (hquiet : hInt r.h.record = false) :
    ∃ t, exec (.relayFold k n) s = .next t ∧ ((getH t k).bind (·.lap)).map (·.folded) = some true
      ∧ t.out.head? = some (.hostWrite (hCtrlPort r.h.record) (entryAddr r.h r.l.entry) 64
          (resultHeader (lowStart r).1 r.l.accept (lowStart r).2 0 (hSlots r.h.record) r.l.layer k r.l.step.toNat))
      ∧ t = { clockTo s n with heats := t.heats, out := t.out, acct := t.acct } := by
  have hop := relayOp_writes h hfold hready hproj hmaster hstripes
  rw [writeResult_quiet hquiet] at hop
  refine ⟨_, congrArg Host.Outcome.next hop, ?_⟩
  generalize hres : hostPut (writeSlotRows (clockTo s n) r) _ _ _ _ _ = t
  have honly : t = { clockTo s n with acct := t.acct, out := t.out } := by
    rw [← hres]
    exact hostOnly_trans (writeSlotRows_only ..) (hostPut_only ..)
  have hout : t.out.head? = some (.hostWrite (hCtrlPort r.h.record) (entryAddr r.h r.l.entry) 64
      (resultHeader (lowStart r).1 r.l.accept (lowStart r).2 0 (hSlots r.h.record) r.l.layer k r.l.step.toNat)) := by
    rw [← hres, hostPut_out _ _ _ _ _ (by decide)]
    rfl
  have hlap : (getH t k).bind (·.lap) = some r.l := by
    rw [honly]
    exact lap_of_relayRun h
  refine ⟨?_, hout, ?_⟩
  · rw [lap_modLap _ hlap]
    rfl
  · rw [modLap_only, honly]

/-! ### BATON (R249, R314) -/

theorem batonOp_dropped {s : State} {m : MsgRef} (h : deliverable s m 10 = none) : batonOp s m = s := by
  rw [batonOp, h]

section
variable {s : State} {m : MsgRef} {q : QueueSt} {x : RecvMsg} (hmsg : deliverable s m 10 = some (q, x))
include hmsg

theorem batonOp_without_lap (hrun : relayRun s (fld x.ext 23 12) = none) : batonOp s m = delivered s m.queue := by
  simp only [batonOp, hmsg, hrun]

theorem batonOp_takes {r : Run} {sq : SeqSt} {i : Nat} (hrun : relayRun s (fld x.ext 23 12) = some r)
    (hseq : (getSlot r.h (fld x.ext 33 24)).seq.bind (getQ s) = some sq)
    (hstripe : (sq.stripes.findIdx? fun n => n == qPeerNode q) = some i) (hmaster : r.h.master = none)
    (hstep : r.l.step.toNat = fld x.ext 127 96) (hdom : hDomain r.h.record = q.domain) :
    batonOp s m = delivered (takeBaton s r (fld x.ext 23 12) (fld x.ext 33 24) i x) m.queue := by
  simp only [batonOp, hmsg, hrun, hseq, hstripe]
  rw [if_pos ⟨by rw [hmaster]; rfl, hstep, hdom⟩]

end

/-- A contribution's summary is kept for its slot and stripe node. -/
theorem takeBaton_remote {s : State} {r : Run} {k : Nat} (h : relayRun s k = some r) (n idx : Nat) (x : RecvMsg) :
    ∃ l, (getH (takeBaton s r k n idx x) k).bind (·.lap) = some l ∧ l.remote.get? (n * 64 + idx) = some (x.ext / 2 ^ 128) :=
  ⟨_, lap_modLap _ (lap_of_relayRun h), Map.get?_set ..⟩

theorem takeBaton_only (s : State) (r : Run) (k n idx : Nat) (x : RecvMsg) :
    takeBaton s r k n idx x = { s with heats := (takeBaton s r k n idx x).heats } := modLap_only ..

/-! ### What the lap's end leaves of the heats -/

theorem foldl_heats {α : Type} (f : State → α → State) (h : ∀ s a, (f s a).heats = s.heats) (l : List α) (s : State) :
    (l.foldl f s).heats = s.heats := by
  induction l generalizing s with
  | nil => rfl
  | cons a l ih => rw [List.foldl_cons, ih, h]

@[simp] theorem modFr_heats (s : State) (f : Nat) (g : FrameSt → FrameSt) : (modFr s f g).heats = s.heats := rfl

theorem ite_heats {p : Prop} [Decidable p] {s t u : State} (ht : t.heats = s.heats) (hu : u.heats = s.heats) :
    (if p then t else u).heats = s.heats := by
  split
  · exact ht
  · exact hu

theorem mapFold_heats {α : Type} (m : Map α) (f : State → Nat → α → State) (h : ∀ s k v, (f s k v).heats = s.heats)
    (s : State) : (m.fold f s).heats = s.heats :=
  foldl_heats (fun s (e : Nat × α) => f s e.1 e.2) (fun s e => h s e.1 e.2) _ _

theorem unsealFrames_heats (s : State) (r : Run) : (unsealFrames s r).heats = s.heats := by
  unfold unsealFrames
  exact mapFold_heats _ _ (fun _ _ _ => mapFold_heats _ _ (fun _ _ _ =>
    foldl_heats _ (fun _ _ => ite_heats (modFr_heats ..) rfl) _ _) _) _

theorem fillHoles_heats (s : State) (q : SeqSt) (p : Nat) : (fillHoles s q p).heats = s.heats := by
  unfold fillHoles
  exact ite_heats rfl (mapFold_heats _ _ (fun _ _ _ => ite_heats (modFr_heats ..) rfl) _)

theorem recordChanged_heats (s : State) (id : Nat) : (recordChanged s id).heats = s.heats := by
  unfold recordChanged
  split
  · rfl
  · exact ite_heats (sendMgmt_heats ..) rfl

theorem launchInternal_heats (s : State) (k : Nat) (m : SendMsg) : (launchInternal s k m).heats = s.heats := by
  unfold launchInternal
  split
  · rfl
  · exact ite_heats (launch_heats ..) rfl

theorem internalQueue_heats (s : State) (purpose node heat domain cls : Nat) :
    (internalQueue s purpose node heat domain cls).2.heats = s.heats := by
  unfold internalQueue
  split
  · rfl
  · split
    · rfl
    · exact sendMgmt_heats ..

theorem toPartner_heats (s : State) (domain : Nat) (m : SendMsg) : (toPartner s domain m).heats = s.heats := by
  unfold toPartner
  dsimp only
  split
  · rw [launchInternal_heats, internalQueue_heats]
  · exact internalQueue_heats ..

theorem sendBatch_heats (s : State) (id : Nat) : (sendBatch s id).heats = s.heats := by
  unfold sendBatch
  split
  · rfl
  · refine ite_heats ?_ rfl
    exact foldl_heats _ (fun _ _ => mapFold_heats _ _ (fun _ _ _ => ite_heats (toPartner_heats ..) rfl) _) _ _

theorem endDecode_heats (s : State) (k n : Nat) : (endDecode s k n).heats = s.heats := by
  unfold endDecode
  split
  · rfl
  dsimp only
  split
  · rfl
  split
  · rfl
  refine ite_heats ?_ rfl
  have hfill := fillHoles_heats
  have hrecord := recordChanged_heats
  refine ite_heats ?_ ?_
  · rw [sendBatch_heats, hrecord]
    exact hfill ..
  · rw [hrecord]
    exact hfill ..

theorem overSlots_heats {f : State → Nat → State} (h : ∀ s n, (f s n).heats = s.heats) (k slots : Nat) (s : State) :
    (overSlots k slots f s).heats = s.heats :=
  foldl_heats _ (fun s n => ite_heats (h s n) rfl) _ _

/-! ### A heat without a lap on a node without held marks -/

/-- The heat runs no lap, and no mark is held on the node. -/
def Settled (s : State) (k : Nat) : Prop := (getH s k).bind (·.lap) = none ∧ ∀ j h, getH s j = some h → h.held = none

section
variable {s : State} {k : Nat}

theorem settled_congr {t : State} (hheats : t.heats = s.heats) (h : Settled s k) : Settled t k := by
  rwa [Settled, getH_congr hheats, funext (getH_congr hheats)]

/-- A change of a heat that starts no lap and holds no mark. -/
theorem settled_modH {j : Nat} {g : HeatSt → HeatSt} (hlap : ∀ x, x.lap = none → (g x).lap = none)
    (hheld : ∀ x, (g x).held = x.held) (h : Settled s k) : Settled (modH s j g) k := by
  obtain ⟨hidle, hnone⟩ := h
  refine ⟨?_, fun i y hy => ?_⟩
  · by_cases hk : k = j
    · subst hk
      cases hx : getH s k with
      | none => simp [hx]
      | some x => simpa [hx] using hlap x (by simpa [hx] using hidle)
    · rwa [getH_modH_ne _ hk]
  · by_cases hi : i = j
    · subst hi
      rw [getH_modH] at hy
      obtain ⟨x, hx, rfl⟩ := Option.map_eq_some_iff.1 hy
      rw [hheld, hnone i x hx]
    · exact hnone i y (by rwa [getH_modH_ne _ hi] at hy)

theorem settled_setCl (h : Settled s k) (j c : Nat) (v : LapCl) : Settled (setCl s j c v) k :=
  settled_modH (fun x hx => by simp [hx]) (fun _ => rfl) h

theorem settled_modCl (h : Settled s k) (j c : Nat) (g : LapCl → LapCl) : Settled (modCl s j c g) k := by
  unfold modCl
  split
  · exact settled_setCl h ..
  · exact h

/-- The lap of a heat ends while no mark is held. -/
theorem settled_endLap (hnone : ∀ j h, getH s j = some h → h.held = none) :
    Settled (modH s k fun h => { h with lap := none }) k := by
  refine ⟨?_, fun i y hy => ?_⟩
  · rw [getH_modH]
    cases getH s k <;> rfl
  · by_cases hi : i = k
    · subst hi
      rw [getH_modH] at hy
      obtain ⟨x, hx, rfl⟩ := Option.map_eq_some_iff.1 hy
      exact hnone i x hx
    · exact hnone i y (by rwa [getH_modH_ne _ hi] at hy)

theorem settled_setH {x y : HeatSt} (hx : getH s k = some x) (hlap : y.lap = x.lap) (hheld : y.held = x.held)
    (h : Settled s k) : Settled (setH s k y) k := by
  obtain ⟨hidle, hnone⟩ := h
  refine ⟨?_, fun i z hz => ?_⟩
  · rw [getH_setH, Option.bind_some, hlap]
    simpa [hx] using hidle
  · by_cases hi : i = k
    · subst hi
      rw [getH_setH] at hz
      cases hz
      rw [hheld, hnone i x hx]
    · exact hnone i z (by rwa [getH_setH_ne _ hi] at hz)

theorem settled_settleHeat (h : Settled s k) (halive : ∀ x, getH s k = some x → x.doomed = false) :
    Settled (settleHeat s k) k := by
  unfold settleHeat
  split
  · exact h
  rename_i x hx
  have hlive : ¬ x.doomed = true := by rw [halive x hx]; exact Bool.false_ne_true
  dsimp only
  rw [if_neg hlive]
  split
  · exact settled_congr (finishWhere_heats ..) (settled_setH (y := { x with state := .stopped }) hx rfl rfl h)
  · exact h

/-! ### Arbitration at the lap's end (R251) -/

theorem setDeficit_heats (s : State) (c d : Nat) (x : Int) : (setDeficit s c d x).heats = s.heats := rfl

theorem decide251_heats {c d : Nat} {doms : List Nat} {t : State} (h : decide251 s c doms = some (d, t)) :
    t.heats = s.heats := by
  unfold decide251 at h
  split at h
  · cases h
  obtain ⟨b, hb, hbt⟩ := Option.map_eq_some_iff.1 h
  cases hbt
  exact ite_heats rfl (foldl_heats _ (fun _ _ => setDeficit_heats ..) _ _)

theorem settled_restoreCheckpoint (h : Settled s k) (j c : Nat) : Settled (restoreCheckpoint s j c) k := by
  unfold restoreCheckpoint
  split
  · exact h
  · exact settled_setCl (s := { s with scratch := _ }) (settled_congr rfl h) ..

theorem settled_grant (h : Settled s k) (j c : Nat) : Settled (grant s j c) k := by
  unfold grant
  split
  · exact h
  split
  · exact settled_congr rfl (settled_modCl (settled_restoreCheckpoint h j c) j c _)
  · exact settled_congr rfl h

theorem settled_arbitrateFree (h : Settled s k) (c : Nat) : Settled (arbitrateFree s c) k := by
  unfold arbitrateFree
  dsimp only
  split
  · exact h
  rename_i d t hd
  have ht : Settled t k := settled_congr (decide251_heats hd) h
  split
  · exact ht
  · exact settled_grant ht ..

theorem settled_foldl {α : Type} (f : State → α → State) (hf : ∀ t a, Settled t k → Settled (f t a) k) (l : List α)
    (h : Settled s k) : Settled (l.foldl f s) k := by
  induction l generalizing s with
  | nil => exact h
  | cons a l ih => exact ih (hf s a h)

/-! ### Held marks at the lap's end (R51) -/

theorem acceptHeld_of_settled (h : Settled s k) (j : Nat) : acceptHeld s j = s := by
  obtain ⟨-, hnone⟩ := h
  unfold acceptHeld
  split
  · rfl
  rename_i x hx
  rw [hnone j x hx]

/-- Where no mark is held, none is accepted. -/
theorem acceptHeldIn_of_settled (h : Settled s k) (sl : Nat) : acceptHeldIn s sl = s := by
  unfold acceptHeldIn
  split
  · split
    · exact acceptHeld_of_settled h _
    · rfl
  · refine List.foldl_fixed' (fun e => ?_) _
    dsimp only
    rw [acceptHeld_of_settled h, ite_self]

/-! ### The lap's end (R51) -/

variable {r : Run}

theorem lapEndOp_idle (h : relayRun s k = none) : lapEndOp s k = s := by
  rw [lapEndOp, h]

theorem lapEndOp_waits (h : relayRun s k = some r)
    (hwait : r.l.folded = false ∨ (r.l.cls.all fun _ v => clusterDone v) = false) : lapEndOp s k = s := by
  have hcond : (!r.l.folded || !(r.l.cls.all fun _ v => clusterDone v)) = true := by
    rcases hwait with hw | hw <;> simp [hw]
  simp only [lapEndOp, h]
  rw [if_pos hcond]

/-- The work of a step that ends: frames whose seal never came stay OPEN, the decode step is over at the last layer, and the
starting blocks of sequences that left go back. -/
def closeStep (s : State) (k : Nat) (r : Run) : State :=
  freeReserved (if mLayers r.m ≤ r.l.layer + 1 then
    overSlots k (hSlots r.h.record) (fun s n => endDecode s k n) (unsealFrames s r) else unsealFrames s r) r.l.leaving

theorem closeStep_heats (s : State) (k : Nat) (r : Run) : (closeStep s k r).heats = s.heats := by
  rw [closeStep, freeReserved_heats]
  exact ite_heats ((overSlots_heats (fun s n => endDecode_heats s k n) ..).trans (unsealFrames_heats s r))
    (unsealFrames_heats s r)

/-- The heat's lap is over, and its clusters are decided on. -/
def freeClusters (s : State) (k : Nat) (r : Run) : State :=
  r.l.cls.fold (fun s c _ => if (getC s c).holder.isNone && (getC s c).granted.isNone then arbitrateFree s c else s)
    (settleHeat (modH (closeStep s k r) k fun h => { h with lap := none }) k)

theorem settled_freeClusters (h : relayRun s k = some r) (halive : r.h.doomed = false)
    (hnone : ∀ j x, getH s j = some x → x.held = none) : Settled (freeClusters s k r) k := by
  have hsame (j : Nat) : getH (closeStep s k r) j = getH s j := getH_congr (closeStep_heats s k r) j
  have hend : Settled (modH (closeStep s k r) k fun h => { h with lap := none }) k :=
    settled_endLap fun j x hx => hnone j x (by rwa [hsame] at hx)
  have hlive : ∀ x, getH (modH (closeStep s k r) k fun h => { h with lap := none }) k = some x → x.doomed = false := by
    intro x hx
    rw [getH_modH, hsame, (relayRun_some h).1] at hx
    cases hx
    exact halive
  refine settled_foldl _ (fun t e ht => ?_) _ (settled_settleHeat hend hlive)
  dsimp only
  split
  · exact settled_arbitrateFree ht _
  · exact ht

theorem lapEndOp_ends (h : relayRun s k = some r) (hfold : r.l.folded = true)
    (hdone : (r.l.cls.all fun _ v => clusterDone v) = true) (hsettled : Settled (freeClusters s k r) k) :
    lapEndOp s k = freeClusters s k r := by
  have hcond : ¬ (!r.l.folded || !(r.l.cls.all fun _ v => clusterDone v)) = true := by simp [hfold, hdone]
  simp only [lapEndOp, h]
  rw [if_neg hcond]
  split
  · exact acceptHeldIn_of_settled hsettled _
  · rfl

end

theorem lapEnd_ends (k n : Nat) (r : Run) (s : State) (h : relayRun (clockTo s n) k = some r) (hfold : r.l.folded = true)
    (hdone : (r.l.cls.all fun _ v => clusterDone v) = true) (halive : r.h.doomed = false)
    (hnone : ∀ j h, getH (clockTo s n) j = some h → h.held = none) :
    ∃ t, exec (.lapEnd k n) s = .next t ∧ (getH t k).bind (·.lap) = none
      ∧ t.pending = s.pending ∧ t.bulk = s.bulk ∧ t.sec.fuses = s.sec.fuses := by
  have hsettled := settled_freeClusters h halive hnone
  have hend := lapEndOp_ends h hfold hdone hsettled
  have hkeep : keep (lapEndOp (clockTo s n) k) = keep s := (lapEndOp_keep ..).trans (clockTo_keep ..)
  obtain ⟨hpending, hbulk, hfuses⟩ : _ ∧ _ ∧ _ := by simpa only [keep, Prod.mk.injEq] using hkeep
  exact ⟨_, rfl, by rw [hend]; exact hsettled.1, hpending, hbulk, hfuses⟩

/-- Settles O34: NET.BTN, then the relay stage, then what stripe nodes send, then the lap's end. It rests on assumptions 5 (a
row whose condition is not met leaves the state as it is, but for the clock) and 21 (a host accepts the result's writes). -/
theorem resultsAreRelayed : Obligations.ResultsAreRelayed :=
  ⟨netBtn_sends, netBtn_keeps_share,
    fun _ _ _ h => ⟨congrArg Host.Outcome.next (relayOp_idle h), congrArg Host.Outcome.next (lapEndOp_idle h)⟩,
    relayFold_multicasts, relayFold_writes, fun _ _ _ _ h hfold => congrArg Host.Outcome.next (relayOp_folded h hfold),
    fun _ _ h => congrArg Host.Outcome.next (batonOp_dropped h),
    fun _ _ _ _ hmsg hrun => congrArg Host.Outcome.next (batonOp_without_lap hmsg hrun),
    fun m q x r sq i s hmsg hrun hseq hstripe hmaster hstep hdom => by
      obtain ⟨l, hl, hremote⟩ := takeBaton_remote hrun (fld x.ext 33 24) i x
      exact ⟨_, l, congrArg Host.Outcome.next (batonOp_takes hmsg hrun hseq hstripe hmaster hstep hdom), hl, hremote,
        takeBaton_only ..⟩,
    fun _ _ _ _ h hwait => congrArg Host.Outcome.next (lapEndOp_waits h hwait), lapEnd_ends⟩

end Sys2Proof.Machine
end

section
/-! Chapters 3 and 9 of the spec: heats are made, changed, started, stopped and destroyed, and courses are loaded, verified
and unloaded (R54, R79, R80, R234 to R236, R430, R466, R524). -/

namespace Sys2Proof.Machine

/-! ### The heat that a command names (R453, R441) -/

theorem getH_of_heatFor {d : Desc} {s : State} {k : Nat} {h : HeatSt} (hfor : heatFor d s k = .ok h) : getH s k = some h := by
  unfold heatFor at hfor
  split at hfor
  · cases hfor
  split at hfor
  · cases hfor
  rename_i x hx
  split at hfor
  · cases hfor
  split at hfor
  · cases hfor
  · cases hfor
    exact hx

/-! ### HEAT_CREATE (R235, R430) -/

/-- Giving a heat its sizes moves its banks and nothing else. -/
theorem sizeHeat_only {s : State} {k image : Nat} {h g : HeatSt} {r : BitVec 192} {m : BitVec 512} {moved : Bool}
    (hsize : sizeHeat s k h r m image = some (g, moved)) :
    g = { h with stepBase := g.stepBase, rowBytes := g.rowBytes, entryBytes := g.entryBytes, bankBytes := g.bankBytes,
                 bank0 := g.bank0, bank1 := g.bank1 } := by
  unfold sizeHeat at hsize
  dsimp only at hsize
  split at hsize
  · cases hsize
    rfl
  · obtain ⟨base, -, hg⟩ := Option.map_eq_some_iff.1 hsize
    cases hg
    rfl

section
variable {d : Desc} {s : State}

theorem heatCreate_badField (hk : 4095 < byt d.body 0 1) : heatCreate d s = (s, .fail .badField) := by
  rw [heatCreate, decide_eq_true hk, failIf_true]

theorem heatCreate_makes {m : ModelSt} {sl : Nat} {h : HeatSt} {moved : Bool} (hk : byt d.body 0 1 ≤ 4095)
    (hfree : s.heats.has (byt d.body 0 1) = false) (hm : getM s d.domain.toNat (hModel (heatRec d)) = some m)
    (hsl : sliceOf s d.domain.toNat = some sl) (hweights : weightsMissing m = false) (hgood : heatBad d.func (heatRec d) = false)
    (hbind : bindCheck s (byt d.body 0 1) d.domain.toNat sl (hCourse (heatRec d)) (hSlots (heatRec d)) m.record = none)
    (hsize : sizeHeat s (byt d.body 0 1) (freshHeat d) (heatRec d) m.record
      (((s.courses.get? (hCourse (heatRec d))).map (·.image)).getD 0) = some (h, moved)) :
    heatCreate d s = (setH s (byt d.body 0 1) h, .done (windowResult h)) := by
  simp only [freshHeat, BitVec.ofNat_eq_ofNat] at hsize
  rw [heatRec] at *
  simp [heatCreate, hk.not_gt, hfree, hm, hsl, hweights, hgood, hbind, hsize]

/-! ### HEAT_SET (R236, R524) -/

/-- A HEAT_SET of a running heat whose locked fields stay is checked against the course only when it binds anew. -/
theorem heatSet_shadows {h : HeatSt} {m : ModelSt} {sl : Nat} (hfor : heatFor d s (byt d.body 0 1) = .ok h)
    (hrun : h.state = .running) (hidle : objBusy s (.heat (byt d.body 0 1)) = false)
    (hgood : heatBad h.func (heatAsked d h) = false) (hlocked : differ h.record (heatAsked d h) heatLocked = false)
    (hm : getM s (hDomain (heatAsked d h)) (hModel (heatAsked d h)) = some m)
    (hsl : sliceOf s (hDomain (heatAsked d h)) = some sl) (hcourse : hCourse (heatAsked d h) = hCourse h.record)
    (hmodel : hModel (heatAsked d h) = hModel h.record) (hslots : hSlots (heatAsked d h) = hSlots h.record)
    (hfree : slotsForbid h (heatAsked d h) = false) :
    heatSet d s = (setH s (byt d.body 0 1)
      { h with record := merge h.record (heatAsked d h) heatLocked, shadow := some (heatAsked d h) }, .done 0) := by
  have hchange : heatChange s (byt d.body 0 1) h (heatAsked d h) m sl = heatWrite s (byt d.body 0 1) h (heatAsked d h) false := by
    simp [heatChange, hcourse, hmodel, hslots]
  have hmove : (hModel (heatAsked d h) != hModel h.record || hCourse (heatAsked d h) != hCourse h.record) = false := by
    simp [hmodel, hcourse]
  rw [heatAsked] at *
  simp [heatSet, withObj_ok hfor, hgood, hrun, hidle, hlocked, hm, hsl, hfree, hmove, hchange, heatWrite]

theorem heatSet_busy {h : HeatSt} (hfor : heatFor d s (byt d.body 0 1) = .ok h) (hrun : h.state = .running)
    (hidle : objBusy s (.heat (byt d.body 0 1)) = false) (hgood : heatBad h.func (heatAsked d h) = false)
    (hlocked : differ h.record (heatAsked d h) heatLocked = true) : heatSet d s = (s, .fail .busy) := by
  rw [heatAsked] at *
  simp [heatSet, withObj_ok hfor, hgood, hrun, hidle, hlocked, failIf_true]

/-! ### HEAT_QUERY, HEAT_START, HEAT_STOP, HEAT_DESTROY (R236) -/

theorem heatQuery_reads {h : HeatSt} (hfor : heatFor d s (byt d.body 0 1) = .ok h) (hstill : h.state ≠ .stopping) :
    bodyHeatQuery d s = (s, .done ((heatWord h).toNat % 2 ^ 128) (heatAux h)) := by
  simp [bodyHeatQuery, withObj_ok hfor, hstill]

theorem heatStart_runs {h : HeatSt} (hfor : heatFor d s (byt d.body 0 1) = .ok h) (hstop : h.state = .stopped) :
    bodyHeatStart d s = (setH s (byt d.body 0 1) { h with state := .running }, .done) := by
  simp [bodyHeatStart, withObj_ok hfor, hstop]

theorem heatStart_badState {h : HeatSt} (hfor : heatFor d s (byt d.body 0 1) = .ok h) (hrun : h.state = .running) :
    bodyHeatStart d s = (s, .fail .badState) := by
  have hstill : (h.state == .stopping) = false := by rw [hrun]; rfl
  have hbad : (h.state != .stopped) = true := by rw [hrun]; rfl
  rw [bodyHeatStart, withObj_ok hfor, hstill, failIf_false, hbad, failIf_true]

section
variable {h : HeatSt} (hfor : heatFor d s (byt d.body 0 1) = .ok h) (hrun : h.state = .running) (hlayer : h.layer = 0)
  (hheld : h.held = none)
include hfor hrun hlayer hheld

theorem heatStop_stops (hlap : h.lap = none) :
    heatStop d s = (setH s (byt d.body 0 1) { h with state := .stopped }, .done) := by
  simp [heatStop, withObj_ok hfor, hrun, hlayer, hheld, hlap]

/-- R236: while its last lap runs, the heat is STOPPING. -/
theorem heatStop_waits (hlap : h.lap.isSome) : heatStop d s
    = (setH s (byt d.body 0 1) { h with state := .stopping }, .accept (.heat (byt d.body 0 1))) := by
  have hsome : h.lap ≠ none := Option.isSome_iff_ne_none.1 hlap
  simp [heatStop, withObj_ok hfor, hrun, hlayer, hheld, hsome]

end

theorem heatDestroy_destroys {h : HeatSt} (hfor : heatFor d s (byt d.body 0 1) = .ok h) (hstop : h.state = .stopped) :
    bodyHeatDestroy d s = (destroyHeat s (byt d.body 0 1), .done) := by
  simp [bodyHeatDestroy, withObj_ok hfor, hstop]

end

theorem getH_destroyHeat (s : State) (k : Nat) : getH (destroyHeat s k) k = none := by
  unfold destroyHeat
  split
  case h_1 hnone => exact hnone
  case h_2 => exact Map.get?_erase ..

/-- Settles O17, command by command. It rests on assumption 88 (HEAT_QUERY of a heat that is not STOPPING). -/
theorem heatsRunAndStop : Obligations.HeatsRunAndStop := by
  refine ⟨ends_of_body (body := heatCreate) (fun _ _ => rfl) ?_,
    does_of_body (body := heatCreate) (fun _ _ => rfl) fun _ _ => heatCreate_badField,
    ends_of_body (body := heatSet) (fun _ _ => rfl) ?_,
    ends_of_body (body := heatSet) (fun _ _ => rfl) fun d s ⟨h, hfor, hrun, hidle, hgood, hlocked⟩ => ?_,
    ends_of_body (body := bodyHeatQuery) (fun _ _ => rfl) fun d s ⟨h, hfor, hstill⟩ => ?_,
    ends_of_body (body := bodyHeatStart) (fun _ _ => rfl) fun d s ⟨h, hfor, hstop⟩ => ?_,
    ends_of_body (body := bodyHeatStart) (fun _ _ => rfl) fun d s ⟨h, hfor, hrun⟩ => ?_,
    ends_of_body (body := heatStop) (fun _ _ => rfl) fun d s ⟨h, hfor, hrun, hlayer, hheld, hlap⟩ => ?_,
    ends_of_body (body := heatStop) (fun _ _ => rfl) fun d s ⟨h, hfor, hrun, hlayer, hheld, hlap⟩ => ?_,
    ends_of_body (body := bodyHeatDestroy) (fun _ _ => rfl) fun d s ⟨h, hfor, hstop⟩ => ?_⟩
  · rintro d s ⟨hk, hfree, m, sl, h, moved, hm, hsl, hweights, hgood, hbind, hsize⟩
    rw [heatCreate_makes hk hfree hm hsl hweights hgood hbind hsize]
    have honly := sizeHeat_only hsize
    exact ⟨rfl, h, getH_setH .., by rw [honly]; rfl, by rw [honly]; rfl, by rw [honly]; rfl, rfl⟩
  · rintro d s ⟨h, m, sl, hfor, hrun, hidle, hgood, hlocked, hm, hsl, hcourse, hmodel, hslots, hfree⟩
    rw [heatSet_shadows hfor hrun hidle hgood hlocked hm hsl hcourse hmodel hslots hfree]
    exact ⟨rfl, rfl, h, _, getH_of_heatFor hfor, getH_setH .., rfl, rfl, hrun⟩
  · rw [heatSet_busy hfor hrun hidle hgood hlocked]
    exact ⟨rfl, rfl⟩
  · rw [heatQuery_reads hfor hstill]
    exact ⟨rfl, h, getH_of_heatFor hfor, rfl⟩
  · rw [heatStart_runs hfor hstop]
    exact ⟨rfl, h, getH_of_heatFor hfor, rfl⟩
  · rw [heatStart_badState hfor hrun]
    exact ⟨rfl, rfl⟩
  · rw [heatStop_stops hfor hrun hlayer hheld hlap]
    exact ⟨rfl, h, getH_of_heatFor hfor, rfl⟩
  · rw [heatStop_waits hfor hrun hlayer hheld hlap]
    exact ⟨rfl, h, getH_of_heatFor hfor, rfl⟩
  · rw [heatDestroy_destroys hfor hstop]
    exact ⟨rfl, fun _ => getH_destroyHeat .., destroyHeat_only ..⟩

/-! ### Courses (R79, R80, R466) -/

section
variable {d : Desc} {s : State}

theorem courseLoad_exhausted (hfree : s.courses.get? (byt d.body 0 1) = none) (hfull : 256 ≤ s.courses.size) :
    courseLoad d s = (s, .fail .exhausted) := by
  simp [courseLoad, hfree, hfull, failIf_true]

/-- The course that a COURSE_LOAD copies from the host (R80). -/
def copiedCourse (d : Desc) : CourseSt :=
  { domain := d.domain.toNat, image := hostData d % 2 ^ (8 * byt d.body 16 19), length := byt d.body 16 19 }

/-- The copy is charged to the command's domain (R257), as it comes and as it is written. -/
def chargeCopy (d : Desc) (s : State) : State :=
  chargeDram (chargePcie s d.domain.toNat false (byt d.body 16 19)) d.domain.toNat true (byt d.body 16 19)

theorem chargeCopy_only (d : Desc) (s : State) : chargeCopy d s = { s with acct := (chargeCopy d s).acct } := by
  rw [chargeCopy, chargeDram_only, chargePcie_only]

theorem courseLoad_copies (hfree : s.courses.get? (byt d.body 0 1) = none) (hroom : s.courses.size < 256)
    (hhost : hostStatus d.env.host = none) :
    courseLoad d s = ({ chargeCopy d s with courses := (chargeCopy d s).courses.set (byt d.body 0 1) (copiedCourse d) },
      .accept (.course (byt d.body 0 1))) := by
  simp [courseLoad, hfree, hroom.not_ge, withBuffer_none hhost, chargeCopy, copiedCourse]

theorem courseUnload_erases {c : CourseSt} (hunbound : bindCount s (byt d.body 0 1) = 0)
    (hfor : courseFor d s (byt d.body 0 1) = .ok c) (hloaded : c.state = .loaded) :
    courseUnload d s = ({ s with courses := s.courses.erase (byt d.body 0 1) }, .done) := by
  simp [courseUnload, withObj_ok hfor, hloaded, hunbound]

theorem courseUnload_badState {c : CourseSt} (hbound : 0 < bindCount s (byt d.body 0 1))
    (hfor : courseFor d s (byt d.body 0 1) = .ok c) (hloaded : c.state = .loaded) :
    courseUnload d s = (s, .fail .badState) := by
  simp [courseUnload, withObj_ok hfor, hloaded, hbound, failIf_true]

theorem courseQuery_reads {c : CourseSt} (hout : byt d.body 8 15 % 64 = 0)
    (hcourse : s.courses.get? (byt d.body 0 1) = some c) (hown : c.domain = d.domain.toNat) :
    courseQuery d s = (s, .done (courseCode c + 2 ^ 16 * (bindCount s (byt d.body 0 1) % 2 ^ 16)) 0 (byt d.body 8 15) 176
      (c.image % 2 ^ 1024 + 2 ^ 1024 * imgBytes c.image (c.length - 48) 48)) := by
  have hsees : (d.domain != 0 && c.domain != d.domain.toNat) = false := by simp [hown]
  have hok : (!outOk (byt d.body 8 15)) = false := by simp [outOk, hout]
  simp only [courseQuery, hcourse, hsees, hok, failIf_false]

end

/-- R79: a course that passes every rule is LOADED. -/
theorem courseVerifyDone_loads (n t : Nat) (c : CourseSt) (s : State) (hcourse : s.courses.get? n = some c)
    (hwait : c.state = .verifying) (hpass : verifyCourse c.image c.length = none) :
    ∃ u, exec (.courseVerifyDone n t) s = .next u ∧ u.courses = s.courses.set n
        { c with state := .loaded, digest := BitVec.ofNat 384 (imgBytes c.image (c.length - 48) 48) }
      ∧ u.heats = s.heats ∧ u.models = s.models ∧ u.seqs = s.seqs := by
  refine ⟨verifyDone (clockTo s t) n, rfl, ?_⟩
  simp [verifyDone, hcourse, hwait, hpass]

/-- R79: a course that breaks a rule is EMPTY again. -/
theorem courseVerifyDone_rejects (n t : Nat) (c : CourseSt) (r : Rejection) (s : State) (hcourse : s.courses.get? n = some c)
    (hwait : c.state = .verifying) (hfail : verifyCourse c.image c.length = some r) :
    ∃ u, exec (.courseVerifyDone n t) s = .next u ∧ u.courses = s.courses.erase n
      ∧ u.heats = s.heats ∧ u.models = s.models ∧ u.seqs = s.seqs := by
  refine ⟨verifyDone (clockTo s t) n, rfl, ?_⟩
  simp [verifyDone, hcourse, hwait, hfail]

/-- Settles O18, command by command. It rests on assumptions 87 (how the heats bound to a course are counted) and 89 (the
verifier runs when COURSE_VERIFY_DONE is given, over the image cut to the command's length). -/
theorem coursesAreVerified : Obligations.CoursesAreVerified := by
  refine ⟨ends_of_body (body := courseLoad) (fun _ _ => rfl) fun d s ⟨hfree, hroom, hhost⟩ => ?_,
    does_of_body (body := courseLoad) (fun _ _ => rfl) fun _ _ ⟨hfree, hfull⟩ => courseLoad_exhausted hfree hfull,
    courseVerifyDone_loads, courseVerifyDone_rejects,
    ends_of_body (body := courseUnload) (fun _ _ => rfl) fun d s ⟨hunbound, c, hfor, hloaded⟩ => ?_,
    ends_of_body (body := courseUnload) (fun _ _ => rfl) fun d s ⟨hbound, c, hfor, hloaded⟩ => ?_,
    ends_of_body (body := courseQuery) (fun _ _ => rfl) fun d s ⟨hout, c, hcourse, hown⟩ => ?_⟩
  · rw [courseLoad_copies hfree hroom hhost, chargeCopy_only]
    exact ⟨rfl, rfl, copiedCourse d, Map.get?_set .., rfl, rfl, rfl, rfl⟩
  · rw [courseUnload_erases hunbound hfor hloaded]
    exact ⟨rfl, rfl⟩
  · rw [courseUnload_badState hbound hfor hloaded]
    exact ⟨rfl, rfl⟩
  · rw [courseQuery_reads hout hcourse hown]
    exact ⟨rfl, c, hcourse, rfl⟩

end Sys2Proof.Machine
end

section
/-! Chapters 3 and 6 of the spec: a page is expanded, scored against the queries, and taken into the running statistics
(R62, R84, R145, R146, R152, R159 to R166). -/

namespace Sys2Proof.Machine

/-! ### Statistics in the scratch of a core (R161) -/

theorem unitsAt_writeStats (s : State) (u : Uop) (addr dv : Nat) (own : Option Nat) (l : List Stat) :
    UnitsAt (writeStats s u u.core.val addr dv own l) u addr 7 (statUnits dv l.length)
      (packElems (8 * statBytes dv) (l.map statWord)) := by
  rw [writeStats]
  exact unitsAt_writeUnits _ _ _ _ _ _ _

theorem writesOnly_writeStats (s : State) (u : Uop) (addr dv : Nat) (own : Option Nat) (l : List Stat) :
    WritesOnly s (writeStats s u u.core.val addr dv own l) u addr (statUnits dv l.length) := by
  rw [writeStats]
  exact writesOnly_writeUnits _ _ _ _ _ _ _

@[simp] theorem getCl_writeStats (s : State) (u : Uop) (core addr dv : Nat) (own : Option Nat) (l : List Stat) (k c : Nat) :
    getCl (writeStats s u core addr dv own l) k c = getCl s k c := rfl

/-- Which page a core works on does not depend on the scratch. -/
theorem heldPage_writeStats (s : State) (r : Run) (u : Uop) (core addr dv : Nat) (own : Option Nat) (l : List Stat) :
    heldPage (writeStats s u core addr dv own l) r u = heldPage s r u := rfl

/-! ### EXP.PAGE (R62, R84, R145) -/

section
variable {s : State} {u : Uop} {r : Run} {v : LapCl} {x : LapPage}

theorem exec_expPage (hrun : runOf s u = some r) (hpar : u.parity = false) :
    exec (.expPage u) s = .next (expand r s u) := by
  change execExpPage u s = _
  rw [execExpPage, withRun_of_runOf hrun hpar]

theorem setExpander_some (e : ExpSt) (hv : getCl s u.heat u.cl.val = some v) :
    setExpander s u (some e) = setCl s u.heat u.cl.val { v with expander := v.expander.set u.core.val e } := modCl_some _ hv

theorem setExpander_none (hv : getCl s u.heat u.cl.val = some v) :
    setExpander s u none = setCl s u.heat u.cl.val { v with expander := v.expander.erase u.core.val } := modCl_some _ hv

/-- R84: a page fault is noted once for the next hurdle. -/
theorem pageFault_notes (a addr : Nat) (hv : getCl s u.heat u.cl.val = some v) :
    ∃ w, getCl (pageFault s u a addr) u.heat u.cl.val = some w ∧ (refSlot a, refGroup a, refOrd a, addr) ∈ w.faults
      ∧ pageFault s u a addr = { s with heats := (pageFault s u a addr).heats } := by
  rw [pageFault, modCl_some _ hv]
  refine ⟨_, getCl_setCl hv, ?_, setCl_only ..⟩
  dsimp only
  split
  · rename_i hold
    exact List.contains_iff_mem.1 hold
  · exact List.mem_append_right _ (List.mem_singleton_self _)

theorem expand_excluded (href : pageRef r u.a.toNat = some x) (hout : x.excluded = true) :
    expand r s u = setExpander s u none := by
  simp [expand, href, hout]

section
variable (href : pageRef r u.a.toNat = some x) (hin : x.excluded = false) (htag : u.tagBad = false)
include href hin htag

theorem expand_missing (hcopy : pageCopy s u.cl.val u.heat (fld u.b.toNat 16 0) x.frame = none) :
    expand r s u = pageFault (setExpander s u none) u u.a.toNat (fld u.b.toNat 16 0) := by
  simp [expand, href, hin, htag, hcopy]

theorem expand_holds {b : BufPage} (hcopy : pageCopy s u.cl.val u.heat (fld u.b.toNat 16 0) x.frame = some b)
    (hauth : b.authOk = true) (hgood : pageGood s (hDomain r.h.record) b.copy = true)
    (hopen : (pageOpenBytes b.copy (mHeadDim r.m)).isSome) :
    expand r s u = setExpander s u
      (some ⟨refSlot u.a.toNat, refGroup u.a.toNat, refOrd u.a.toNat, fld u.b.toNat 16 0⟩) := by
  simp [expand, href, hin, htag, hcopy, hauth, hgood, hopen]

end
end

theorem expPage_holds (u : Uop) (r : Run) (x : LapPage) (b : BufPage) (s : State) (hrun : runOf s u = some r)
    (hpar : u.parity = false) (htag : u.tagBad = false) (href : pageRef r u.a.toNat = some x) (hin : x.excluded = false)
    (hcopy : pageCopy s u.cl.val u.heat (fld u.b.toNat 16 0) x.frame = some b) (hauth : b.authOk = true)
    (hgood : pageGood s (hDomain r.h.record) b.copy = true) (hopen : (pageOpenBytes b.copy (mHeadDim r.m)).isSome) :
    ∃ t v, exec (.expPage u) s = .next t ∧ getCl t u.heat u.cl.val = some v
      ∧ v.expander.get? u.core.val = some ⟨refSlot u.a.toNat, refGroup u.a.toNat, refOrd u.a.toNat, fld u.b.toNat 16 0⟩
      ∧ t = { s with heats := t.heats } := by
  have hv := getCl_of_runOf hrun
  rw [exec_expPage hrun hpar, expand_holds href hin htag hcopy hauth hgood hopen, setExpander_some _ hv]
  exact ⟨_, _, rfl, getCl_setCl hv, Map.get?_set .., setCl_only ..⟩

theorem expPage_faults (u : Uop) (r : Run) (x : LapPage) (s : State) (hrun : runOf s u = some r)
    (hpar : u.parity = false) (htag : u.tagBad = false) (href : pageRef r u.a.toNat = some x) (hin : x.excluded = false)
    (hcopy : pageCopy s u.cl.val u.heat (fld u.b.toNat 16 0) x.frame = none) :
    ∃ t v, exec (.expPage u) s = .next t ∧ getCl t u.heat u.cl.val = some v
      ∧ (refSlot u.a.toNat, refGroup u.a.toNat, refOrd u.a.toNat, fld u.b.toNat 16 0) ∈ v.faults
      ∧ t = { s with heats := t.heats } := by
  have hv := getCl_of_runOf hrun
  rw [exec_expPage hrun hpar, expand_missing href hin htag hcopy, setExpander_none hv]
  obtain ⟨w, hw, hfault, honly⟩ := pageFault_notes u.a.toNat (fld u.b.toNat 16 0)
    (getCl_setCl (v := { r.v with expander := r.v.expander.erase u.core.val }) hv)
  exact ⟨_, w, rfl, hw, hfault, honly⟩

theorem expPage_skips (u : Uop) (r : Run) (x : LapPage) (s : State) (hrun : runOf s u = some r)
    (hpar : u.parity = false) (href : pageRef r u.a.toNat = some x) (hout : x.excluded = true) :
    ∃ t v, exec (.expPage u) s = .next t ∧ getCl t u.heat u.cl.val = some v
      ∧ v.expander = r.v.expander.erase u.core.val ∧ t = { s with heats := t.heats } := by
  have hv := getCl_of_runOf hrun
  rw [exec_expPage hrun hpar, expand_excluded href hout, setExpander_none hv]
  exact ⟨_, _, rfl, getCl_setCl hv, rfl, setCl_only ..⟩

/-! ### MXE.ATT (R152, R159, R161) -/

/-- The query elements of an attention operation, head after head. -/
def queryElems (s : State) (u : Uop) (r : Run) : Nat × List (Num × Num) × Option Nat :=
  operandElems s u r u.core.val (fld u.b.toNat 13 0) (attInput u.b.toNat) (attHeads u.b.toNat * r.dk)

/-- The scores that an MXE.ATT leaves for its VEC.SMX: every head against the offsets that the page may attend. -/
def scored (s : State) (u : Uop) (r : Run) (p lo hi : Nat) : AttPend :=
  { a := u.a.toNat, b := u.b.toNat, c := u.c.toNat, first := lo,
    scores := (chunks r.dk (attHeads u.b.toNat) (queryElems s u r).2.1).map fun h =>
      (offsets lo hi).map fun j => toBits32 (dotTiles h (keyElems r.shape p j)) }

section
variable {s : State} {u : Uop} {r : Run}

theorem exec_mxeAtt (hrun : runOf s u = some r) (hpar : u.parity = false) :
    exec (.mxeAtt u) s = .next (formScores r (initStats r s u) u) := by
  change execMxeAtt u s = _
  rw [execMxeAtt, withRun_of_runOf hrun hpar]

theorem formScores_without_page (hnone : heldPage s r u = none) : formScores r s u = s := by
  simp [formScores, hnone]

theorem formScores_scores {x : LapPage} {p lo hi : Nat} (htag : u.tagBad = false)
    (hheld : heldPage s r u = some (x, p, lo, hi)) (hfmt : (queryElems s u r).1 ≤ 1) :
    formScores r s u
      = modCl s u.heat u.cl.val fun v => { v with scores := v.scores.set u.core.val (scored s u r p lo hi) } := by
  have hstored : ¬ ((queryElems s u r).1 ≠ 0 ∧ (queryElems s u r).1 ≠ 1 ∧ (queryElems s u r).1 ≠ 3) := by omega
  rw [queryElems] at hstored
  simp only [formScores, hheld, htag, if_neg hstored, Bool.false_eq_true, if_false, List.map_map]
  rfl

/-- R161: C[1] sets the statistics of the operation's heads to their initial value. -/
theorem initStats_sets (hinit : bit u.c.toNat 1 = true) :
    initStats r s u = writeStats s u u.core.val (attStats u.c.toNat) r.dv
      (some (headKey (refSlot u.a.toNat) (refGroup u.a.toNat) (attFirst u.b.toNat)))
      (List.replicate (attHeads u.b.toNat) (statZero r.dv)) := if_pos hinit

theorem initStats_keeps (hkeep : bit u.c.toNat 1 = false) : initStats r s u = s := by
  rw [initStats, hkeep, if_neg Bool.false_ne_true]

end

theorem mxeAtt_scores (u : Uop) (r : Run) (x : LapPage) (p lo hi : Nat) (s : State) (hrun : runOf s u = some r)
    (hpar : u.parity = false) (htag : u.tagBad = false) (hkeep : bit u.c.toNat 1 = false)
    (hheld : heldPage s r u = some (x, p, lo, hi)) (hfmt : (queryElems s u r).1 ≤ 1) :
    ∃ t v y, exec (.mxeAtt u) s = .next t ∧ getCl t u.heat u.cl.val = some v ∧ v.scores.get? u.core.val = some y
      ∧ y.first = lo ∧ y.scores = (scored s u r p lo hi).scores ∧ t = { s with heats := t.heats } := by
  have hv := getCl_of_runOf hrun
  rw [exec_mxeAtt hrun hpar, initStats_keeps hkeep, formScores_scores htag hheld hfmt, modCl_some _ hv]
  exact ⟨_, _, _, rfl, getCl_setCl hv, Map.get?_set .., rfl, rfl, setCl_only ..⟩

theorem mxeAtt_initialises (u : Uop) (r : Run) (s : State) (hrun : runOf s u = some r) (hpar : u.parity = false)
    (hinit : bit u.c.toNat 1 = true) (hnone : heldPage s r u = none) :
    ∃ t, exec (.mxeAtt u) s = .next t
      ∧ UnitsAt t u (attStats u.c.toNat) 7 (statUnits r.dv (attHeads u.b.toNat))
          (packElems (8 * statBytes r.dv) ((List.replicate (attHeads u.b.toNat) (statZero r.dv)).map statWord))
      ∧ t = { s with scratch := t.scratch } := by
  have hstill : heldPage (initStats r s u) r u = none := by rw [initStats_sets hinit, heldPage_writeStats, hnone]
  rw [exec_mxeAtt hrun hpar, formScores_without_page hstill, initStats_sets hinit]
  refine ⟨_, rfl, ?_, rfl⟩
  have hunits := unitsAt_writeStats s u (attStats u.c.toNat) r.dv
    (some (headKey (refSlot u.a.toNat) (refGroup u.a.toNat) (attFirst u.b.toNat)))
    (List.replicate (attHeads u.b.toNat) (statZero r.dv))
  rwa [List.length_replicate] at hunits

/-! ### VEC.SMX (R160 to R166) -/

/-- The scaled scores of one head that are finite (R160). -/
def finiteScores (r : Run) (l : List Nat) : List (Option Num) :=
  l.map fun w => if (scaledScore r.m (ofBits32 w)).isFinite then some (scaledScore r.m (ofBits32 w)) else none

/-- The statistics of every head with one page taken in (R161). -/
def pageStats (s : State) (u : Uop) (r : Run) (y : AttPend) (p lo hi : Nat) : List Stat :=
  ((readStats s u u.core.val (attStats u.c.toNat) r.dv (attHeads u.b.toNat)).1.zip y.scores).map fun e =>
    (pageUpdate e.1 (fun j => if lo ≤ j then (finiteScores r e.2).getD (j - lo) none else none)
      (fun j => ((offsets lo hi).map fun j => valFinite r.shape p j).getD (j - lo) false)
      (fun j => ((offsets lo hi).map fun j => valElems r.shape r.dv p j).getD (j - lo) []) r.shape.t).1

section
variable {s : State} {u : Uop} {r : Run}

theorem exec_vecSmx (hrun : runOf s u = some r) (hpar : u.parity = false) :
    exec (.vecSmx u) s = .next (softmax r s u) := by
  change execVecSmx u s = _
  rw [execVecSmx, withRun_of_runOf hrun hpar]

/-- The paired VEC.SMX writes the statistics back and takes the scores away. -/
theorem softmax_takes {y : AttPend} {x : LapPage} {p lo hi : Nat} (hv : getCl s u.heat u.cl.val = some r.v)
    (hpend : r.v.scores.get? u.core.val = some y) (hheld : heldPage s r u = some (x, p, lo, hi))
    (ha : y.a = u.a.toNat) (hb : y.b = u.b.toNat) (hc : y.c = u.c.toNat) (hfirst : y.first = lo) :
    ∃ w own, softmax r s u
      = setCl (writeStats s u u.core.val (attStats u.c.toNat) r.dv own (pageStats s u r y p lo hi)) u.heat u.cl.val
          { r.v with work := w, scores := r.v.scores.erase u.core.val } := by
  have hpaired : ¬ (y.a ≠ u.a.toNat ∨ y.b ≠ u.b.toNat ∨ y.c ≠ u.c.toNat ∨ y.first ≠ lo) := by tauto
  apply Exists.intro
  apply Exists.intro
  rw [softmax]
  simp only [hpend, hheld]
  rw [if_neg hpaired, List.map_map]
  exact modCl_some _ hv

end

theorem vecSmx_updates (u : Uop) (r : Run) (y : AttPend) (x : LapPage) (p lo hi : Nat) (s : State)
    (hrun : runOf s u = some r) (hpar : u.parity = false) (hpend : r.v.scores.get? u.core.val = some y)
    (hheld : heldPage s r u = some (x, p, lo, hi)) (ha : y.a = u.a.toNat) (hb : y.b = u.b.toNat) (hc : y.c = u.c.toNat)
    (hfirst : y.first = lo) :
    ∃ t v, exec (.vecSmx u) s = .next t ∧ getCl t u.heat u.cl.val = some v ∧ v.scores = r.v.scores.erase u.core.val
      ∧ UnitsAt t u (attStats u.c.toNat) 7 (statUnits r.dv (pageStats s u r y p lo hi).length)
          (packElems (8 * statBytes r.dv) ((pageStats s u r y p lo hi).map statWord))
      ∧ WritesOnly s t u (attStats u.c.toNat) (statUnits r.dv (pageStats s u r y p lo hi).length)
      ∧ t = { s with scratch := t.scratch, heats := t.heats } := by
  have hv := getCl_of_runOf hrun
  obtain ⟨w, own, hsoft⟩ := softmax_takes hv hpend hheld ha hb hc hfirst
  rw [exec_vecSmx hrun hpar, hsoft]
  exact ⟨_, _, rfl, getCl_setCl ((getCl_writeStats ..).trans hv), rfl, unitsAt_writeStats _ _ _ _ own _,
    writesOnly_writeStats _ _ _ _ own _, rfl⟩

/-- Settles O30, operation by operation. It rests on assumption 126 (where scores wait, the layout of the scratch, and C[1]). -/
theorem pagesAreAttended : Obligations.PagesAreAttended :=
  ⟨expPage_holds, expPage_faults, expPage_skips, mxeAtt_scores, mxeAtt_initialises, vecSmx_updates⟩

end Sys2Proof.Machine
end

section
/-! Chapters 4, 5 and 10 of the spec: pages are read into the buffer, appended to, written back and sealed (R66, R67, R82,
R109, R123, R130 to R134, R268). -/

namespace Sys2Proof.Machine

/-! ### Transfers on a channel (R257, R268) -/

/-- A transfer on a channel without a link CRC failure. -/
def transferred (s : State) (d ch : Nat) (write : Bool) (bytes : Nat) : State :=
  (linkFailed (chargeDram s d write bytes) ch 0).1

theorem linkFailed_none (s : State) (d ch : Nat) (write : Bool) (bytes : Nat) :
    linkFailed (chargeDram s d write bytes) ch 0 = (transferred s d ch write bytes, false) := rfl

theorem transferred_only (s : State) (d ch : Nat) (write : Bool) (bytes : Nat) :
    transferred s d ch write bytes = { s with
      acct := (transferred s d ch write bytes).acct, chans := (transferred s d ch write bytes).chans } := by
  have hlink (t : State) : (linkFailed t ch 0).1 = { t with chans := (linkFailed t ch 0).1.chans } := rfl
  rw [transferred, hlink, chargeDram_only]

@[simp] theorem transferred_mem (s : State) (d ch : Nat) (write : Bool) (bytes : Nat) :
    (transferred s d ch write bytes).mem = s.mem := by rw [transferred_only]

@[simp] theorem transferred_buffer (s : State) (d ch : Nat) (write : Bool) (bytes : Nat) :
    (transferred s d ch write bytes).buffer = s.buffer := by rw [transferred_only]

@[simp] theorem getFr_transferred (s : State) (d ch : Nat) (write : Bool) (bytes f : Nat) :
    getFr (transferred s d ch write bytes) f = getFr s f := by
  rw [getFr, transferred_mem, getFr]

/-! ### CHN.RD (R66, R67, R82) -/

section
variable {s : State} {u : Uop} {r : Run} {n : Nat} {ok : Bool}

theorem exec_chnRd (hrun : runOf s u = some r) (hpar : u.parity = false) :
    exec (.chnRd u n ok) s = .next (claimRead r s u n ok) := by
  change execChnRd u n ok s = _
  rw [execChnRd, withRun_of_runOf hrun hpar]

theorem claimRead_without_frame (hnone : claimFrame r s u = none) : claimRead r s u n ok = s := by
  simp only [claimRead, hnone]

/-- Stored bytes of the page in a frame. -/
def frameBytes (r : Run) (v : FrameSt) : Nat :=
  storedBytes v.data (shapeOfHdr v.data.hdr (mHeadDim r.m)) (v.state == .sealed || v.state == .shared)

/-- Bytes that a read claim has room for (R67). -/
def claimBytes (u : Uop) : Nat := 2048 * (fld u.b.toNat 19 17 + 1)

/-- The copy of a frame's page that a read claim brings into the buffer. -/
def fetchedCopy (s : State) (u : Uop) (r : Run) (f : Nat) (ok : Bool) : BufPage :=
  { frame := f, copy := (getFr s f).data, whole := decide (frameBytes r (getFr s f) ≤ claimBytes u), authOk := ok }

theorem claimRead_fetches {f : Nat} (hclaim : claimFrame r s u = some f) (hwhole : (getFr s f).damaged = false)
    (hread : lapReadable (getFr s f) = true) :
    claimRead r s u 0 ok =
      { transferred s (hDomain r.h.record) u.cl.val false (min (frameBytes r (getFr s f)) (claimBytes u)) with
        buffer := s.buffer.set (bufKey u.cl.val u.heat (fld u.b.toNat 16 0)) (fetchedCopy s u r f ok) } := by
  have hgo : ¬ ((getFr s f).damaged || !lapReadable (getFr s f)) = true := by simp [hwhole, hread]
  simp only [claimRead, hclaim, if_neg hgo, linkFailed_none, transferred_buffer, beq_self_eq_true, Bool.and_true,
    fetchedCopy, frameBytes, claimBytes]
  rfl

end

theorem chnRd_fetches (u : Uop) (r : Run) (f : Nat) (ok : Bool) (s : State) (hrun : runOf s u = some r)
    (hpar : u.parity = false) (hclaim : claimFrame r s u = some f) (hwhole : (getFr s f).damaged = false)
    (hread : lapReadable (getFr s f) = true) :
    ∃ t b, exec (.chnRd u 0 ok) s = .next t ∧ t.buffer.get? (bufKey u.cl.val u.heat (fld u.b.toNat 16 0)) = some b
      ∧ b.frame = f ∧ b.copy = (getFr s f).data ∧ b.authOk = ok
      ∧ (∀ k, k ≠ bufKey u.cl.val u.heat (fld u.b.toNat 16 0) → t.buffer.get? k = s.buffer.get? k)
      ∧ t = { s with buffer := t.buffer, acct := t.acct, chans := t.chans } := by
  rw [exec_chnRd hrun hpar, claimRead_fetches hclaim hwhole hread]
  refine ⟨_, fetchedCopy s u r f ok, rfl, Map.get?_set .., rfl, rfl, rfl, fun k hk => Map.get?_set_ne _ hk _, ?_⟩
  rw [transferred_only]

/-! ### CHN.WR (R109, R131) -/

/-- The copy in the buffer as a write claim stores it: a version on, under the page key of the frame's domain. -/
def writtenCopy (s : State) (v : FrameSt) (d : PageData) : PageData :=
  { d with version := v.version + 1, key := (getD s v.domain).key }

/-- The frame of a page and its copy in the buffer, both as a write claim leaves them. -/
def storeCopy (s : State) (u : Uop) (frame : Nat) (b : BufPage) : State :=
  let d := writtenCopy s (getFr s frame) b.copy
  { setFr s frame { getFr s frame with data := d, version := (getFr s frame).version + 1 } with
    buffer := s.buffer.set (bufKey u.cl.val u.heat (fld u.b.toNat 16 0)) { b with copy := d } }

theorem storeCopy_only (s : State) (u : Uop) (frame : Nat) (b : BufPage) :
    storeCopy s u frame b = { s with mem := (storeCopy s u frame b).mem, buffer := (storeCopy s u frame b).buffer } := rfl

theorem getFr_storeCopy (s : State) (u : Uop) (frame : Nat) (b : BufPage) : getFr (storeCopy s u frame b) frame
    = { getFr s frame with data := writtenCopy s (getFr s frame) b.copy, version := (getFr s frame).version + 1 } :=
  getFr_setFr s frame _

theorem getFr_storeCopy_ne {f frame : Nat} (hf : f ≠ frame) (s : State) (u : Uop) (b : BufPage) :
    getFr (storeCopy s u frame b) f = getFr s f := getFr_setFr_ne s hf _

section
variable {s : State} {u : Uop} {r : Run} {n : Nat} {x : LapPage} {b : BufPage}

theorem exec_chnWr (hrun : runOf s u = some r) (hpar : u.parity = false) :
    exec (.chnWr u n) s = .next (claimWrite r s u n) := by
  change execChnWr u n s = _
  rw [execChnWr, withRun_of_runOf hrun hpar]

section
variable (href : pageRef r u.a.toNat = some x)
  (hcopy : pageCopy s u.cl.val u.heat (fld u.b.toNat 16 0) x.frame = some b)
include href hcopy

theorem claimWrite_unchanged (hsame : b.copy = (getFr s x.frame).data) : claimWrite r s u n = s := by
  simp only [claimWrite, href, hcopy, if_pos hsame]

theorem claimWrite_writes (hdirty : b.copy ≠ (getFr s x.frame).data) (hopen : (getFr s x.frame).state = .opened)
    (hdom : (getFr s x.frame).domain = hDomain r.h.record) :
    ∃ bytes, claimWrite r s u 0
      = transferred (storeCopy s u x.frame b) (hDomain r.h.record) u.cl.val true bytes := by
  have hwrites : ¬ (((getFr s x.frame).state ≠ .opened ∧ (getFr s x.frame).state ≠ .sealing)
      ∨ (getFr s x.frame).domain ≠ hDomain r.h.record) := by tauto
  refine ⟨512 * (rowBlocks r.shape (b.copy.hdr.filled - 1)).length + 1024, ?_⟩
  simp only [claimWrite, href, hcopy, if_neg hdirty, if_neg hwrites, linkFailed_none, Bool.false_eq_true, if_false]
  rfl

end
end

theorem chnWr_writes (u : Uop) (r : Run) (x : LapPage) (b : BufPage) (s : State) (hrun : runOf s u = some r)
    (hpar : u.parity = false) (href : pageRef r u.a.toNat = some x)
    (hcopy : pageCopy s u.cl.val u.heat (fld u.b.toNat 16 0) x.frame = some b) (hdirty : b.copy ≠ (getFr s x.frame).data)
    (hopen : (getFr s x.frame).state = .opened) (hdom : (getFr s x.frame).domain = hDomain r.h.record) :
    ∃ t, exec (.chnWr u 0) s = .next t
      ∧ (getFr t x.frame).data
        = { b.copy with version := (getFr s x.frame).version + 1, key := (getD s (getFr s x.frame).domain).key }
      ∧ (getFr t x.frame).version = (getFr s x.frame).version + 1
      ∧ (∀ f, f ≠ x.frame → getFr t f = getFr s f)
      ∧ t = { s with mem := t.mem, buffer := t.buffer, acct := t.acct, chans := t.chans } := by
  obtain ⟨bytes, hwrite⟩ := claimWrite_writes href hcopy hdirty hopen hdom
  rw [exec_chnWr hrun hpar, hwrite]
  refine ⟨_, rfl, ?_, ?_, fun f hf => ?_, ?_⟩
  · rw [getFr_transferred, getFr_storeCopy]
    rfl
  · rw [getFr_transferred, getFr_storeCopy]
  · rw [getFr_transferred, getFr_storeCopy_ne hf]
  · rw [transferred_only, storeCopy_only]

/-! ### QEN.APP (R109, R123, R130, R131) -/

section
variable {s : State} {u : Uop} {r : Run}

theorem exec_qenApp (hrun : runOf s u = some r) (hpar : u.parity = false) :
    exec (.qenApp u) s = .next (appendOp r s u) := by
  change execQenApp u s = _
  rw [execQenApp, withRun_of_runOf hrun hpar]

/-- Where the page that an append writes stands in the buffer (R523). -/
def appendKey (s : State) (u : Uop) (r : Run) : Nat :=
  bufKey u.cl.val u.heat (appendAddr r.image (ttIndex s r.h u.cl.val) u)

/-- The key and value elements that an append takes from its operand, one after another. -/
def appendElems (s : State) (u : Uop) (r : Run) : List Num :=
  (operandElems s u r u.core.val (fld u.b.toNat 13 0) (bit u.b.toNat 14)
    (r.dk + if r.shape.latent then 0 else r.dv)).2.1.map elemValue

/-- A row that does not fill its page is written into the page's copy, and nothing else happens. -/
theorem appendOp_writes {x : LapPage} {b : BufPage} {id : Nat} {q : SeqSt} (htag : u.tagBad = false)
    (href : pageRef r u.a.toNat = some x) (hslot : slotSeq s r (refSlot u.a.toNat) = some (id, q))
    (hpart : (getSlot r.h (refSlot u.a.toNat)).part = .appends) (ht : 0 < r.shape.t) (hpage : x.page = q.length / r.shape.t)
    (hopen : (getFr s x.frame).state = .opened) (hroom : q.length % r.shape.t + 1 ≠ r.shape.t)
    (hcopy : pageCopy s u.cl.val u.heat (appendAddr r.image (ttIndex s r.h u.cl.val) u) x.frame = some b) :
    appendOp r s u = { s with buffer := s.buffer.set (appendKey s u r) { b with
      copy := appendRow r.shape b.copy (q.length % r.shape.t) ((appendElems s u r).take r.dk)
        ((appendElems s u r).drop r.dk) } } := by
  have hhere : ¬ ((getSlot r.h (refSlot u.a.toNat)).part ≠ .appends ∨ r.shape.t = 0 ∨ x.page ≠ q.length / r.shape.t) := by
    rw [hpart, hpage]
    simp [ht.ne']
  have hclean : ¬ u.tagBad = true := by rw [htag]; exact Bool.false_ne_true
  have hstays : ¬ (q.length % r.shape.t + 1 = r.shape.t ∧ sealFollows r (ttIndex s r.h u.cl.val) u = true) :=
    fun hfull => hroom hfull.1
  simp only [appendOp, href, hslot, if_neg hhere, if_neg (not_not.2 hopen), if_neg hclean, hcopy, if_neg hstays,
    appendKey, appendElems]

end

/-! ### What the report of a sealed page leaves alone -/

/-- The frames and the heats of a node. -/
def framesAndHeats (s : State) : Map FrameSt × Map HeatSt := (s.mem.frames, s.heats)

theorem framesAndHeats_congr {s t : State} (hmem : t.mem = s.mem) (hheats : t.heats = s.heats) :
    framesAndHeats t = framesAndHeats s := by
  rw [framesAndHeats, framesAndHeats, hmem, hheats]

theorem ite_framesAndHeats {p : Prop} [Decidable p] {s t v : State} (ht : framesAndHeats t = framesAndHeats s)
    (hv : framesAndHeats v = framesAndHeats s) : framesAndHeats (if p then t else v) = framesAndHeats s := by
  split
  · exact ht
  · exact hv

@[simp] theorem deliverAll_framesAndHeats (s : State) (w : Nat) (l : List (Port × Func)) :
    framesAndHeats (deliverAll s w l) = framesAndHeats s := framesAndHeats_congr (deliverAll_mem ..) (deliverAll_heats ..)

@[simp] theorem raiseNode_framesAndHeats (s : State) (c i o d x : Nat) :
    framesAndHeats (raiseNode s c i o d x) = framesAndHeats s := framesAndHeats_congr (raiseNode_mem ..) (raiseNode_heats ..)

@[simp] theorem sendMgmt_framesAndHeats (s : State) (a b c l x : Nat) :
    framesAndHeats (sendMgmt s a b c l x) = framesAndHeats s := framesAndHeats_congr (sendMgmt_mem ..) (sendMgmt_heats ..)

theorem slackCheck_framesAndHeats (s : State) (ch before : Nat) :
    framesAndHeats (slackCheck s ch before) = framesAndHeats s := by
  unfold slackCheck
  dsimp only
  refine ite_framesAndHeats ?_ rfl
  split
  · rw [deliverAll_framesAndHeats]
    rfl
  · rw [raiseNode_framesAndHeats]
    rfl

theorem commitIndexes_framesAndHeats (s : State) (id : Nat) :
    framesAndHeats (commitIndexes s id) = framesAndHeats s := by
  have hends : ∀ (l : List Nat) (t : State), framesAndHeats (l.foldl (fun t k =>
      finishWhere t (fun g => g.key == .index id (k % 2 ^ 14 / 64) (k % 64)) .ok 0 0) t) = framesAndHeats t := by
    intro l
    induction l with
    | nil => exact fun _ => rfl
    | cons k l ih => exact fun t => (ih _).trans (framesAndHeats_congr (finishWhere_mem ..) (finishWhere_heats ..))
  rw [commitIndexes, hends]
  rfl

theorem idxAdd_framesAndHeats (s : State) (id layer group page cluster sketch : Nat) :
    framesAndHeats (idxAdd s id layer group page cluster sketch) = framesAndHeats s := by
  unfold idxAdd commitIdle
  exact ite_framesAndHeats rfl (commitIndexes_framesAndHeats _ id)

theorem recomputeHeld_framesAndHeats (s : State) (id : Nat) :
    framesAndHeats (recomputeHeld s id) = framesAndHeats s := by
  unfold recomputeHeld
  split
  · rfl
  · exact ite_framesAndHeats (framesAndHeats_congr (raiseObj_mem ..) (raiseObj_heats ..)) rfl

theorem reportHeld_framesAndHeats (s : State) (id : Nat) : framesAndHeats (reportHeld s id) = framesAndHeats s := by
  unfold reportHeld
  split
  · rfl
  · exact ite_framesAndHeats rfl
      (ite_framesAndHeats (recomputeHeld_framesAndHeats _ id) (sendMgmt_framesAndHeats ..))

theorem launchInternal_mem (s : State) (k : Nat) (m : SendMsg) : (launchInternal s k m).mem = s.mem := by
  unfold launchInternal
  split
  · rfl
  · split
    · exact launch_mem ..
    · rfl

theorem internalQueue_mem (s : State) (purpose node heat domain cls : Nat) :
    (internalQueue s purpose node heat domain cls).2.mem = s.mem := by
  unfold internalQueue
  split
  · rfl
  · split
    · rfl
    · exact sendMgmt_mem ..

theorem toPartner_mem (s : State) (domain : Nat) (m : SendMsg) : (toPartner s domain m).mem = s.mem := by
  unfold toPartner
  dsimp only
  split
  · rw [launchInternal_mem, internalQueue_mem]
  · exact internalQueue_mem ..

theorem replicatePage_framesAndHeats (s : State) (id frame : Nat) :
    framesAndHeats (replicatePage s id frame) = framesAndHeats s := by
  unfold replicatePage
  split
  · rfl
  · exact ite_framesAndHeats (framesAndHeats_congr (toPartner_mem ..) (toPartner_heats ..)) rfl

/-! ### QEN.SEAL (R82, R109, R133, R134) -/

/-- A frame that seals with a page. -/
def sealedWith (d : PageData) (v : FrameSt) : FrameSt :=
  { v with state := .sealed, qmap := sealedQmap d, version := v.version + 1, data := d, heldRemote := false }

/-- The page that a seal stores: its sealed form, under the page key of the frame's domain. -/
def sealStored (s : State) (frame : Nat) (m : BitVec 512) (d : PageData) : PageData :=
  { sealData m { d with version := (getFr s frame).version } with key := (getD s (getFr s frame).domain).key }

/-- A seal changes its own frame alone: the index, the report and the replication touch neither frames nor heats. -/
theorem sealFrame_framesAndHeats (s : State) (id frame : Nat) (m : BitVec 512) (d : PageData) :
    framesAndHeats (sealFrame s id frame m d)
      = framesAndHeats (modFr s frame (sealedWith (sealStored s frame m d))) := by
  rw [sealFrame, replicatePage_framesAndHeats, reportHeld_framesAndHeats, idxAdd_framesAndHeats, slackCheck_framesAndHeats]
  rfl

theorem sealFrame_frames (s : State) (id frame : Nat) (m : BitVec 512) (d : PageData) :
    (sealFrame s id frame m d).mem.frames = (modFr s frame (sealedWith (sealStored s frame m d))).mem.frames :=
  congrArg Prod.fst (sealFrame_framesAndHeats s id frame m d)

theorem sealFrame_heats (s : State) (id frame : Nat) (m : BitVec 512) (d : PageData) :
    (sealFrame s id frame m d).heats = s.heats := congrArg Prod.snd (sealFrame_framesAndHeats s id frame m d)

@[simp] theorem getFr_setCl (s : State) (k c : Nat) (v : LapCl) (f : Nat) : getFr (setCl s k c v) f = getFr s f := rfl

@[simp] theorem getFr_chargeDram (s : State) (d : Nat) (write : Bool) (bytes f : Nat) :
    getFr (chargeDram s d write bytes) f = getFr s f := by
  rw [getFr, chargeDram_mem, getFr]

theorem getFr_sealFrame (s : State) (id frame : Nat) (m : BitVec 512) (d : PageData) :
    getFr (sealFrame s id frame m d) frame = sealedWith (sealStored s frame m d) (getFr s frame) := by
  rw [getFr, sealFrame_frames]
  exact getFr_setFr ..

section
variable {s : State} {u : Uop} {r : Run}

theorem exec_qenSeal (hrun : runOf s u = some r) (hpar : u.parity = false) :
    exec (.qenSeal u) s = .next (sealOp r s u) := by
  change execQenSeal u s = _
  rw [execQenSeal, withRun_of_runOf hrun hpar]

/-- R82: a lap seals no more pages than its course allows. -/
theorem sealOp_spent (hspent : maxSeals r.image ≤ r.v.seals) : sealOp r s u = s := if_pos (.inl hspent)

theorem sealOp_seals {id f : Nat} {d : PageData} (htag : u.tagBad = false) (htime : r.v.seals < maxSeals r.image)
    (ht : 0 < r.shape.t) (htarget : sealTarget r s u = some (id, f, d)) :
    ∃ bytes, sealOp r s u = modCl (chargeDram (sealFrame s id f r.m d) (hDomain r.h.record) true bytes) u.heat u.cl.val
      fun v => { v with seals := v.seals + 1 } := by
  have hgo : ¬ (maxSeals r.image ≤ r.v.seals ∨ r.shape.t = 0) := by omega
  have hclean : ¬ u.tagBad = true := by rw [htag]; exact Bool.false_ne_true
  refine ⟨4096 * ((getFr (sealFrame s id f r.m d) f).data.hdr.quartersM1 + 1) + 1024, ?_⟩
  rw [sealOp, if_neg hgo]
  simp only [htarget]
  rw [if_neg hclean]

end

theorem qenSeal_seals (u : Uop) (r : Run) (id f : Nat) (d : PageData) (s : State) (hrun : runOf s u = some r)
    (hpar : u.parity = false) (htag : u.tagBad = false) (htime : r.v.seals < maxSeals r.image) (ht : 0 < r.shape.t)
    (htarget : sealTarget r s u = some (id, f, d)) :
    ∃ t v, exec (.qenSeal u) s = .next t ∧ (getFr t f).state = .sealed ∧ (getFr t f).version = (getFr s f).version + 1
      ∧ getCl t u.heat u.cl.val = some v ∧ v.seals = r.v.seals + 1 := by
  obtain ⟨bytes, hseal⟩ := sealOp_seals htag htime ht htarget
  have hv : getCl (chargeDram (sealFrame s id f r.m d) (hDomain r.h.record) true bytes) u.heat u.cl.val = some r.v := by
    rw [getCl_congr ((chargeDram_heats ..).trans (sealFrame_heats ..)), getCl_of_runOf hrun]
  have hframe : ∀ w, getFr (setCl (chargeDram (sealFrame s id f r.m d) (hDomain r.h.record) true bytes) u.heat u.cl.val w) f
      = sealedWith (sealStored s f r.m d) (getFr s f) := fun w => by
    rw [getFr_setCl, getFr_chargeDram, getFr_sealFrame]
  rw [exec_qenSeal hrun hpar, hseal, modCl_some _ hv]
  exact ⟨_, _, rfl, by rw [hframe]; rfl, by rw [hframe]; rfl, getCl_setCl hv, rfl⟩

/-- Settles O31, operation by operation. It rests on assumptions 5 (a row whose condition is not met leaves the state as it
is), 17 and 126 (where an operand's row stands) and 34 (which page a read claim fetches). -/
theorem pagesAreReadAndWritten : Obligations.PagesAreReadAndWritten :=
  ⟨chnRd_fetches,
    fun _ _ _ _ _ hrun hpar hnone => by rw [exec_chnRd hrun hpar, claimRead_without_frame hnone],
    chnWr_writes,
    fun _ _ _ _ _ _ hrun hpar href hcopy hsame => by rw [exec_chnWr hrun hpar, claimWrite_unchanged href hcopy hsame],
    fun _ _ _ _ _ _ _ hrun hpar htag href hslot hpart ht hpage hopen hroom hcopy => by
      rw [exec_qenApp hrun hpar, appendOp_writes htag href hslot hpart ht hpage hopen hroom hcopy]
      rfl,
    fun _ _ _ hrun hpar hspent => by rw [exec_qenSeal hrun hpar, sealOp_spent hspent],
    qenSeal_seals⟩

end Sys2Proof.Machine
end

section
/-! Chapter 4 of the spec: page memory is carved and configured (R98, R99, R447, R465), and frames are drawn into pools,
reclaimed, tested, copied, repaired, reopened and renewed (R109, R110, R114, R119, R120, R148, R210, R279). -/

namespace Sys2Proof.Machine

/-! ### MEM_CONFIG (R98, R99, R447) -/

/-- A bit that the mask names comes from the new register. -/
theorem rb_merge_named {n : Nat} (old new : BitVec n) {mask i : Nat} (hnamed : mask.testBit i = true) :
    rb (merge old new mask) i = rb new i := by
  rw [rb, rb, bit_eq_testBit, bit_eq_testBit, BitVec.testBit_toNat, BitVec.testBit_toNat]
  by_cases hi : i < n
  · have hmask : (BitVec.ofNat n mask).getLsbD i = true := by simp [BitVec.getLsbD_ofNat, hi, hnamed]
    rw [merge, BitVec.getLsbD_or, BitVec.getLsbD_and, BitVec.getLsbD_and, BitVec.getLsbD_not, hmask]
    simp
  · rw [BitVec.getLsbD_of_ge _ _ (not_lt.1 hi), BitVec.getLsbD_of_ge _ _ (not_lt.1 hi)]

/-- What a carve leaves (R99, R411). -/
theorem carve_eq_some {s t : State} {r : BitVec 64} (h : carve s r = some t) :
    16384 ≤ framesPerChannel (channelBytes s) (rf r 19 9) (rf r 31 20)
      ∧ t = { s with
          mem := { s.mem with
            record := merge s.mem.record r memLocked
            fch := framesPerChannel (channelBytes s) (rf r 19 9) (rf r 31 20)
            bulkShare := bulkShareOf (channelBytes s) (rf r 19 9)
              (framesPerChannel (channelBytes s) (rf r 19 9) (rf r 31 20))
            frames := .empty, pools := .empty, arms := .empty }
          sec := { s.sec with keys := s.sec.keys + 1, metaKey := some s.sec.keys } } := by
  unfold carve at h
  dsimp only at h
  split at h
  · cases h
  · rename_i hroom
    exact ⟨not_lt.1 hroom, (Option.some.inj h).symm⟩

theorem carve_freshKey {s t : State} {r : BitVec 64} (h : carve s r = some t) :
    t.sec.metaKey = some s.sec.keys ∧ t.sec.keys = s.sec.keys + 1 ∧ t.mem.frames = .empty ∧ 16384 ≤ t.mem.fch
      ∧ t.mem.fch ≤ 838860 ∧ t = { s with mem := t.mem, sec := t.sec } := by
  obtain ⟨hroom, rfl⟩ := carve_eq_some h
  exact ⟨rfl, rfl, rfl, hroom, min_le_left .., rfl⟩

theorem carve_enables {s t : State} {r : BitVec 64} (h : carve s r = some t) (hon : rb r 0 = true) : pageOn t = true := by
  obtain ⟨-, rfl⟩ := carve_eq_some h
  exact (rb_merge_named _ _ (by decide +kernel)).trans hon

/-- The record that a MEM_CONFIG asks for (R98). -/
def memAsked (d : Desc) : BitVec 64 := BitVec.ofNat 64 (byt d.body 0 7)

section
variable {d : Desc} {s : State} (hdepth : 64 ≤ rf (memAsked d) 47 34) (hbulk : rf (memAsked d) 31 20 ≤ 3276)
  (hweight : rf (memAsked d) 19 9 ≤ 1638) (hon : pageOn s = true)
include hdepth hbulk hweight hon

/-- R447: while page memory is enabled, the RWS fields wait in the shadow. -/
theorem memConfig_shadows (hsame : differ s.mem.record (memAsked d) memLocked = false) :
    memConfig d s = ({ s with mem := { s.mem with
      shadow := some (merge (s.mem.shadow.getD s.mem.record) (memAsked d) memRws) } }, .acceptDone .ok) := by
  have hstill : ∀ x, pageOn { s with mem := { s.mem with shadow := x } } = true := fun _ => hon
  rw [memAsked] at *
  simp [memConfig, hdepth.not_gt, hbulk.not_gt, hweight.not_gt, hon, hsame, hstill]

/-- R447: the locked fields stay while page memory is enabled. -/
theorem memConfig_busy (hdiff : differ s.mem.record (memAsked d) memLocked = true) :
    memConfig d s = (s, .fail .busy) := by
  rw [memAsked] at *
  simp [memConfig, hdepth.not_gt, hbulk.not_gt, hweight.not_gt, hon, hdiff, failIf_true]

end

/-! ### FRAME_QUERY (R107) -/

theorem frameQuery_reads {d : Desc} {s : State} (hon : pageOn s = true) (hf : frameOk s (byt d.body 0 2) = true)
    (hused : (getFr s (byt d.body 0 2)).state ≠ .free) :
    bodyFrameQuery d s = (s, .done (frameWord s (byt d.body 0 2))) := by
  simp [bodyFrameQuery, hon, hf, hused]

theorem frameQuery_badState {d : Desc} {s : State} (hoff : pageOn s = false) :
    bodyFrameQuery d s = (s, .fail .badState) := by
  simp [bodyFrameQuery, hoff, failIf_true]

/-- Settles O15, command by command; the carve is that of the first ENABLE. -/
theorem pageMemoryIsConfigured : Obligations.PageMemoryIsConfigured :=
  ⟨ends_of_body (body := memConfig) (fun _ _ => rfl) fun d s ⟨hdepth, hbulk, hweight, hon, hsame⟩ => by
      rw [memConfig_shadows hdepth hbulk hweight hon hsame]
      exact ⟨rfl, rfl, rfl, rfl⟩,
    does_of_body (body := memConfig) (fun _ _ => rfl) fun _ _ ⟨hdepth, hbulk, hweight, hon, hdiff⟩ =>
      memConfig_busy hdepth hbulk hweight hon hdiff,
    fun _ _ _ => carve_freshKey,
    fun _ _ _ => carve_enables,
    does_of_body (body := bodyFrameQuery) (fun _ _ => rfl) fun _ _ ⟨hon, hf, hused⟩ => frameQuery_reads hon hf hused,
    does_of_body (body := bodyFrameQuery) (fun _ _ => rfl) fun _ _ hoff => frameQuery_badState hoff⟩

/-! ### Frames other than the one that changes -/

theorem getFr_modFr (s : State) (f : Nat) (g : FrameSt → FrameSt) : getFr (modFr s f g) f = g (getFr s f) := getFr_setFr ..

theorem getFr_modFr_ne (s : State) {f k : Nat} (h : k ≠ f) (g : FrameSt → FrameSt) :
    getFr (modFr s f g) k = getFr s k := getFr_setFr_ne s h _

@[simp] theorem getFr_slackCheck (s : State) (ch before f : Nat) : getFr (slackCheck s ch before) f = getFr s f := by
  have hframes : (slackCheck s ch before).mem.frames = s.mem.frames :=
    congrArg Prod.fst (slackCheck_framesAndHeats s ch before)
  rw [getFr, hframes, getFr]

/-! ### Reserved pools (R114) -/

section
variable {s : State} {sl ch f : Nat}

theorem refillOne_joins (hf : frameOk s f = true) (hch : f % 20 = ch) (hfree : (getFr s f).state = .free)
    (hout : inPool s f = false) (hroom : (poolOf s sl ch).length < reserveDepth s) :
    refillOne s sl ch f = setPool s sl ch (poolOf s sl ch ++ [f]) :=
  if_pos ⟨hf, hch, hfree, by simp [hout], hroom⟩

theorem refillOne_full (hfull : reserveDepth s ≤ (poolOf s sl ch).length) : refillOne s sl ch f = s :=
  if_neg fun ⟨_, _, _, _, hroom⟩ => hroom.not_ge hfull

theorem foldl_refillOne_full (hfull : reserveDepth s ≤ (poolOf s sl ch).length) (l : List Nat) :
    l.foldl (fun s f => refillOne s sl ch f) s = s := by
  induction l with
  | nil => rfl
  | cons f l ih => rw [List.foldl_cons, refillOne_full hfull, ih]

end

theorem poolRefill_joins (sl : Nat) (c : Cluster) (f : Nat) (s : State) (hon : pageOn s = true)
    (hsl : (getS s sl).state = .enabled) (hcl : (sliceClusters s sl).contains c.val = true)
    (hsound : (getC s c.val).quarantined = false) (hf : frameOk s f = true) (hch : f % 20 = c.val)
    (hfree : (getFr s f).state = .free) (hout : inPool s f = false)
    (hroom : (poolOf s sl c.val).length < reserveDepth s) :
    exec (.poolRefill sl c [f]) s = .next (setPool s sl c.val (poolOf s sl c.val ++ [f])) := by
  rw [← refillOne_joins hf hch hfree hout hroom]
  exact congrArg _ (if_pos (by simp only [hon, hsl, hcl, hsound]; rfl))

theorem poolRefill_full (sl : Nat) (c : Cluster) (l : List Nat) (s : State)
    (hfull : reserveDepth s ≤ (poolOf s sl c.val).length) : exec (.poolRefill sl c l) s = .next s := by
  change execPoolRefill sl c l s = _
  rw [execPoolRefill, foldl_refillOne_full hfull, ite_self]

/-! ### What the bookkeeping of frames leaves alone -/

/-- The sequences, the heats and the scratch of a node. -/
def work (s : State) : Map SeqSt × Map HeatSt × Map Scr := (s.seqs, s.heats, s.scratch)

theorem work_congr {s t : State} (hseqs : t.seqs = s.seqs) (hheats : t.heats = s.heats) (hscratch : t.scratch = s.scratch) :
    work t = work s := by
  rw [work, work, hseqs, hheats, hscratch]

theorem of_work {s t : State} (h : work t = work s) :
    t.seqs = s.seqs ∧ t.heats = s.heats ∧ t.scratch = s.scratch := by
  simpa [work] using h

theorem ite_work {p : Prop} [Decidable p] {s t u : State} (ht : work t = work s) (hu : work u = work s) :
    work (if p then t else u) = work s := by
  split
  · exact ht
  · exact hu

theorem foldl_work {α : Type} {f : State → α → State} (h : ∀ s a, work (f s a) = work s) (l : List α) (s : State) :
    work (l.foldl f s) = work s := by
  induction l generalizing s with
  | nil => rfl
  | cons a l ih => rw [List.foldl_cons, ih, h]

theorem mapFold_work {α : Type} (m : Map α) {f : State → Nat → α → State} (h : ∀ s k v, work (f s k v) = work s)
    (s : State) : work (m.fold f s) = work s :=
  foldl_work (fun s (e : Nat × α) => h s e.1 e.2) _ _

theorem modFr_work (s : State) (f : Nat) (g : FrameSt → FrameSt) : work (modFr s f g) = work s := rfl

theorem sendMgmt_work (s : State) (a b c l x : Nat) : work (sendMgmt s a b c l x) = work s :=
  work_congr (sendMgmt_seqs ..) (sendMgmt_heats ..) (sendMgmt_scratch ..)

theorem finishWhere_work (s : State) (q : Flight → Bool) (st : Status) (r a : Nat) :
    work (finishWhere s q st r a) = work s :=
  work_congr (finishWhere_seqs ..) (finishWhere_heats ..) (finishWhere_scratch ..)

/-- SLACK_LOW is an event: it goes to the rings of functions. -/
theorem slackCheck_work (s : State) (ch before : Nat) : work (slackCheck s ch before) = work s := by
  unfold slackCheck
  dsimp only
  refine ite_work ?_ rfl
  split
  · exact work_congr (deliverAll_seqs ..) (deliverAll_heats ..) (deliverAll_scratch ..)
  · exact work_congr (raiseNode_seqs ..) (raiseNode_heats ..) (raiseNode_scratch ..)

theorem idxGone_work (s : State) (id layer group page : Nat) (q : SeqSt) :
    work (idxGone s id layer group page q) = work s := by
  unfold idxGone
  dsimp only
  split <;> rfl

theorem recordChanged_work (s : State) (id : Nat) : work (recordChanged s id) = work s := by
  unfold recordChanged
  split
  · rfl
  · exact ite_work (sendMgmt_work ..) rfl

theorem sendMapUpdate_work (s : State) (id kind length : Nat) : work (sendMapUpdate s id kind length) = work s := by
  unfold sendMapUpdate
  split
  · rfl
  · exact foldl_work (fun s n => (sendMgmt_work ..).trans (rfl : work (ask s (.update id n)).2 = work s)) _ _

theorem unpinAll_work (s : State) (t : Truncate) : work (unpinAll s t) = work s :=
  foldl_work (fun _ _ => modFr_work ..) _ _

theorem setQ_work {s t : State} (h : work t = work s) (id : Nat) (q : SeqSt) : work (setQ t id q) = work (setQ s id q) := by
  obtain ⟨hseqs, hheats, hscratch⟩ := of_work h
  exact work_congr (congrArg (·.set id q) hseqs) hheats hscratch

/-- R118: the leaves that go leave their sequence; the references they held are the frames' own affair. -/
theorem clearLeaves_work {s : State} {id : Nat} {q : SeqSt} (hq : getQ s id = some q) (p : Nat → Leaf → Bool) :
    work (clearLeaves s id p) = work (setQ s id { q with leaves := q.leaves.filter fun k e => !p k e }) := by
  unfold clearLeaves
  simp only [hq]
  refine mapFold_work _ (fun _ _ _ => ?_) _
  exact ite_work (idxGone_work ..) rfl

/-! ### Reclamation (R110, R119) -/

section
variable {s : State} {f : Nat}

theorem reclaimOp_waits (h : (getFr s f).retiring = false ∨ (getFr s f).refs ≠ 0 ∨ (getFr s f).pins ≠ 0
    ∨ (getFr s f).test = true ∨ lapsClear s f = false) : reclaimOp s f = s :=
  if_pos (by simpa using h)

section
variable (hret : (getFr s f).retiring = true) (hrefs : (getFr s f).refs = 0) (hpins : (getFr s f).pins = 0)
  (htest : (getFr s f).test = false) (hlaps : lapsClear s f = true) (hslack : (getFr s f).slack = none)
include hret hrefs hpins htest hlaps hslack

theorem reclaimOp_frees (hgood : (getFr s f).damaged = false) : reclaimOp s f = freeFrame s f := by
  simp [reclaimOp, hret, hrefs, hpins, htest, hlaps, hslack, hgood]

theorem reclaimOp_awaitsTest (hdamaged : (getFr s f).damaged = true) :
    reclaimOp s f = modFr s f fun v => { v with test := true } := by
  simp [reclaimOp, hret, hrefs, hpins, htest, hlaps, hslack, hdamaged]

end

end

theorem getFr_freeFrame (s : State) (f : Nat) :
    getFr (freeFrame s f) f = { version := (getFr s f).version, data := (getFr s f).data } := by
  rw [freeFrame, getFr_slackCheck, getFr_modFr]

theorem getFr_freeFrame_ne (s : State) {f g : Nat} (h : g ≠ f) : getFr (freeFrame s f) g = getFr s g := by
  rw [freeFrame, getFr_slackCheck, getFr_modFr_ne _ h]

theorem freeFrame_work (s : State) (f : Nat) : work (freeFrame s f) = work s := slackCheck_work ..

theorem frameReclaim_frees (f : Nat) (s : State) (hret : (getFr s f).retiring = true) (hrefs : (getFr s f).refs = 0)
    (hpins : (getFr s f).pins = 0) (htest : (getFr s f).test = false) (hlaps : lapsClear s f = true)
    (hslack : (getFr s f).slack = none) (hgood : (getFr s f).damaged = false) :
    ∃ t, exec (.frameReclaim f) s = .next t ∧ (getFr t f).state = .free ∧ (getFr t f).version = (getFr s f).version
      ∧ (getFr t f).domain = 0 ∧ (∀ g, g ≠ f → getFr t g = getFr s g) ∧ t.seqs = s.seqs ∧ t.heats = s.heats := by
  obtain ⟨hseqs, hheats, -⟩ := of_work (freeFrame_work s f)
  refine ⟨freeFrame s f, congrArg _ (reclaimOp_frees hret hrefs hpins htest hlaps hslack hgood), ?_⟩
  rw [getFr_freeFrame]
  exact ⟨rfl, rfl, rfl, fun _ => getFr_freeFrame_ne s, hseqs, hheats⟩

/-! ### The test of a damaged frame (R110, R279) -/

theorem frameTestOp_waits {s : State} {f : Nat} (h : (getFr s f).test = false) (pass : Bool) : frameTestOp s f pass = s :=
  if_pos (by simp [h])

/-- The frame that a test leaves: erased, under its second new identity, and FREE only if it passed. -/
def testedFrame (s : State) (f : Nat) (pass : Bool) : FrameSt where
  version := (getFr s f).version + 3
  state := if pass then .free else .quarantined
  data := { hdr := { identity := (newIdentity (newIdentity s).2).1 }, version := (getFr s f).version + 3 }

section
variable {s : State} {f : Nat} (htest : (getFr s f).test = true)
include htest

theorem frameTestOp_passes : frameTestOp s f true = setFr (newIdentity (newIdentity s).2).2 f (testedFrame s f true) :=
  if_neg (by simp [htest])

theorem frameTestOp_fails : frameTestOp s f false
    = modFr (setFr (newIdentity (newIdentity s).2).2 f (testedFrame s f true)) f
        fun v => { v with state := .quarantined } :=
  if_neg (by simp [htest])

theorem getFr_frameTestOp (pass : Bool) : getFr (frameTestOp s f pass) f = testedFrame s f pass := by
  cases pass with
  | true => rw [frameTestOp_passes htest, getFr_setFr]
  | false => rw [frameTestOp_fails htest, getFr_modFr, getFr_setFr]; rfl

theorem getFr_frameTestOp_ne (pass : Bool) {g : Nat} (hg : g ≠ f) : getFr (frameTestOp s f pass) g = getFr s g := by
  cases pass with
  | true => rw [frameTestOp_passes htest, getFr_setFr_ne _ hg]; rfl
  | false => rw [frameTestOp_fails htest, getFr_modFr_ne _ hg, getFr_setFr_ne _ hg]; rfl

/-- A test reaches beyond its frame only to the serial of content identities. -/
theorem frameTestOp_only (pass : Bool) : frameTestOp s f pass = { s with mem := (frameTestOp s f pass).mem } := by
  cases pass with
  | true => rw [frameTestOp_passes htest, setFr, newIdentity, newIdentity]
  | false => rw [frameTestOp_fails htest, modFr, setFr, setFr, newIdentity, newIdentity]

end

theorem frameTest_settles (f : Nat) (pass : Bool) (s : State) (htest : (getFr s f).test = true) :
    ∃ t, exec (.frameTest f pass) s = .next t ∧ (getFr t f).state = (if pass then .free else .quarantined)
      ∧ (getFr t f).version = (getFr s f).version + 3 ∧ (getFr t f).test = false ∧ (getFr t f).damaged = false
      ∧ (∀ g, g ≠ f → getFr t g = getFr s g) ∧ t = { s with mem := t.mem } := by
  refine ⟨frameTestOp s f pass, rfl, ?_⟩
  rw [getFr_frameTestOp htest]
  exact ⟨rfl, rfl, rfl, rfl, fun _ => getFr_frameTestOp_ne htest pass, frameTestOp_only htest pass⟩

/-! ### Copies (R109) -/

theorem copyCommit_waits {s : State} {f : Nat} (h : destOf s f = none) : copyCommit s f = s := by
  rw [copyCommit, h]

/-- A copy within its channel, of a page that no page map names, moves no index entry and reports to nobody. -/
theorem frameCopyCommit_moves (f d : Nat) (s : State) (hdest : destOf s f = some d) (hch : d % 20 = f % 20) (hne : d ≠ f)
    (hholders : holdersOf s f = []) :
    ∃ t, exec (.frameCopyCommit f) s = .next t ∧ (getFr t d).mig = none ∧ (getFr t d).refs = (getFr s f).refs
      ∧ (getFr t f).retiring = true ∧ (getFr t f).refs = 0 := by
  refine ⟨copyCommit s f, rfl, ?_⟩
  simp only [copyCommit, hdest, hholders, hch, if_true, List.foldl_nil, getFr_modFr, getFr_modFr_ne _ hne, getFr_slackCheck,
    and_self]

/-! ### Repair (R110, R147, R148) -/

theorem repairOp_waits {s : State} {f : Nat}
    (h : (getFr s f).damaged = false ∨ (getFr s f).test = true ∨ (getFr s f).refs = 0) : repairOp s f = s :=
  if_pos (by simpa using h)

/-- R110: the replica of a sealed page is copied into the frame that was drawn, under the page key of the domain. -/
theorem repairOp_copies {s u : State} {f sl d : Nat} (hdamaged : (getFr s f).damaged = true)
    (htest : (getFr s f).test = false) (hrefs : (getFr s f).refs ≠ 0) (hsealed : (getFr s f).state = .sealed)
    (hheld : (getFr s f).heldRemote = true) (hsound : (getC s (f % 20)).quarantined = false) (hdest : destOf s f = none)
    (hsl : sliceOf s (getFr s f).domain = some sl)
    (hdraw : drawFrame s sl (getFr s f).domain .migrating (getFr s f).link.toNat (some (.repair f)) = some (d, u)) :
    repairOp s f = modFr u d fun w => { w with
      version := (getFr s f).version
      data := { (getFr s f).data with
        badBlocks := 0, badSidecar := false, key := (getD u (getFr s f).domain).key } } := by
  simp [repairOp, hdamaged, htest, hrefs, hsealed, hheld, hsound, hdest, hsl, hdraw]

theorem pageRepair_copies (f n sl d : Nat) (u s : State) (hdamaged : (getFr (clockTo s n) f).damaged = true)
    (htest : (getFr (clockTo s n) f).test = false) (hrefs : (getFr (clockTo s n) f).refs ≠ 0)
    (hsealed : (getFr (clockTo s n) f).state = .sealed) (hheld : (getFr (clockTo s n) f).heldRemote = true)
    (hsound : (getC (clockTo s n) (f % 20)).quarantined = false) (hdest : destOf (clockTo s n) f = none)
    (hsl : sliceOf (clockTo s n) (getFr (clockTo s n) f).domain = some sl)
    (hdraw : drawFrame (clockTo s n) sl (getFr (clockTo s n) f).domain .migrating (getFr (clockTo s n) f).link.toNat
      (some (.repair f)) = some (d, u)) :
    ∃ t, exec (.pageRepair f n) s = .next t ∧ (getFr t d).data.badBlocks = 0 ∧ (getFr t d).data.badSidecar = false
      ∧ (getFr t d).data.payload = (getFr (clockTo s n) f).data.payload
      ∧ (getFr t d).version = (getFr (clockTo s n) f).version ∧ t = { u with mem := t.mem } := by
  refine ⟨repairOp (clockTo s n) f, rfl, ?_⟩
  rw [repairOp_copies hdamaged htest hrefs hsealed hheld hsound hdest hsl hdraw, getFr_modFr]
  exact ⟨rfl, rfl, rfl, rfl, rfl⟩

/-! ### Reopening and truncation (R120, R168) -/

theorem reopenOp_waits {s : State} {f : Nat} (h : truncOf s f = none) (streamOk : Bool) : reopenOp s f streamOk = s := by
  unfold reopenOp
  split
  next hsome => rw [h] at hsome; cases hsome
  next => rfl

section
variable {s : State} {f src n id : Nat} {q : SeqSt} {x : Truncate} (hmig : (getFr s f).mig = some (.reopen src n false))
  (htrunc : truncOf s f = some (id, q, x)) (hpinned : x.pinned.contains src = true)
include hmig htrunc hpinned

theorem reopenOp_writes {u : State} (hcopy : reopenInto s src f n (mHeadDim (seqModel s q)) = some u) :
    reopenOp s f true = u := by
  simp only [reopenOp, hmig, htrunc, hpinned, hcopy, Bool.not_true, Bool.false_eq_true, false_and, if_true, if_false]

theorem reopenOp_aborts : reopenOp s f false = abortTruncate s id src x := by
  simp only [reopenOp, hmig, htrunc, hpinned, Bool.not_true, Bool.false_eq_true, false_and, if_true, if_false]

end

/-- A sequence whose map names no page from a position on, `n` positions to a page. -/
def cutLeaves (q : SeqSt) (p n : Nat) : SeqSt :=
  { q with leaves := q.leaves.filter fun k _ => !decide (p ≤ keyPage k * n) }

section
variable {s : State} {id : Nat}

theorem truncCommit_without (h : (getQ s id).bind (·.trunc) = none) : truncCommit s id = s := by
  unfold truncCommit
  split
  next => rfl
  next q hq =>
    have hnone : q.trunc = none := by simpa [hq] using h
    simp only [hnone]

variable {q : SeqSt} {x : Truncate} (hq : getQ s id = some q) (htrunc : q.trunc = some x)
include hq htrunc

theorem truncCommit_unready (h : truncReady s x = false) : truncCommit s id = s := by
  simp only [truncCommit, hq, htrunc, h]
  rfl

/-- Without copies to switch in, a commit cuts the sequence's map and its descriptor, and no other work of the node. -/
theorem truncCommit_cuts (hdests : x.dests = []) :
    ∃ u g, work u = work (setQ s id (cutLeaves q x.position (max 1 (mT (seqModel s q)))))
      ∧ (∀ y : SeqSt, (g y).length = x.position ∧ (g y).trunc = none)
      ∧ work (truncCommit s id) = work (modQ u id g) := by
  have hready : truncReady s x = true := by simp [truncReady, hdests]
  have hq' : getQ (unpinAll s x) id = some q := by
    rw [getQ, (of_work (unpinAll_work s x)).1]
    exact hq
  simp only [truncCommit, hq, htrunc, hready, truncSwitch, hdests, List.foldl_nil, Bool.not_true, Bool.false_eq_true, if_false]
  refine ⟨_, _, ?_, fun y => ⟨rfl, rfl⟩, (finishWhere_work ..).trans ((ite_work rfl (sendMapUpdate_work ..)).trans
    (recordChanged_work ..))⟩
  rw [foldl_work (fun _ _ => ite_work (modFr_work ..) rfl), clearLeaves_work hq']
  exact setQ_work (unpinAll_work s x) ..

end

theorem truncateCommit_cuts (id n : Nat) (q : SeqSt) (x : Truncate) (s : State) (hq : getQ (clockTo s n) id = some q)
    (htrunc : q.trunc = some x) (hdests : x.dests = []) :
    ∃ t, exec (.truncateCommit id n) s = .next t ∧ (getQ t id).map (·.length) = some x.position
      ∧ (getQ t id).map (·.trunc) = some none ∧ t.heats = (clockTo s n).heats ∧ t.scratch = (clockTo s n).scratch := by
  obtain ⟨u, g, hu, hg, ht⟩ := truncCommit_cuts hq htrunc hdests
  obtain ⟨huseqs, huheats, huscratch⟩ := of_work hu
  obtain ⟨htseqs, htheats, htscratch⟩ := of_work ht
  have hcut : getQ (truncCommit (clockTo s n) id) id = some
      (g (cutLeaves q x.position (max 1 (mT (seqModel (clockTo s n) q))))) := by
    rw [getQ, htseqs, ← getQ, getQ_modQ, getQ, huseqs, ← getQ, getQ_setQ]
    rfl
  obtain ⟨hlength, hnone⟩ := hg (cutLeaves q x.position (max 1 (mT (seqModel (clockTo s n) q))))
  exact ⟨_, rfl, by rw [hcut, Option.map_some, hlength], by rw [hcut, Option.map_some, hnone], htheats.trans huheats,
    htscratch.trans huscratch⟩

/-! ### Frames of collections (R210) -/

theorem collectionFrameRenewal_waits (f : Nat) (s : State)
    (h : inCollection s f = false ∨ counterFull (getFr s f) = false) : exec (.collectionFrameRenewal f) s = .next s :=
  congrArg _ (if_neg (by rcases h with h | h <;> simp [h]))

theorem collectionFrameRenewal_renews (f : Nat) (s : State) (hcoll : inCollection s f = true)
    (hfull : counterFull (getFr s f) = true) (hgood : pageGood s (getFr s f).domain (getFr s f).data = true) :
    exec (.collectionFrameRenewal f) s = .next (renewFrame s f) :=
  congrArg _ (if_pos (by simp [hcoll, hfull, hgood]))

/-- Settles O37, row by row. It rests on assumptions 5 (a row whose condition is not met changes nothing but the time), 30
(the frames that join a pool are those the row names), 36 (a truncation at a stripe node), 90 (a repair takes this node's own
data with its marks cleared) and 92 (the sources of a truncation stay pinned until it commits). -/
theorem framesAreKept : Obligations.FramesAreKept :=
  ⟨poolRefill_joins, poolRefill_full,
    fun _ _ h => congrArg _ (reclaimOp_waits h),
    frameReclaim_frees,
    fun _ _ hret hrefs hpins htest hlaps hslack hdamaged =>
      congrArg _ (reclaimOp_awaitsTest hret hrefs hpins htest hlaps hslack hdamaged),
    fun _ pass _ htest => congrArg _ (frameTestOp_waits htest pass),
    frameTest_settles,
    fun _ _ hdest => congrArg _ (copyCommit_waits hdest),
    frameCopyCommit_moves,
    fun _ _ _ h => congrArg _ (repairOp_waits h),
    pageRepair_copies,
    fun _ streamOk _ htrunc => congrArg _ (reopenOp_waits htrunc streamOk),
    fun _ _ _ _ _ _ _ _ hmig htrunc hpinned hcopy => congrArg _ (reopenOp_writes hmig htrunc hpinned hcopy),
    fun _ _ _ _ _ _ _ hmig htrunc hpinned => congrArg _ (reopenOp_aborts hmig htrunc hpinned),
    fun _ _ _ htrunc => congrArg _ (truncCommit_without htrunc),
    fun _ _ _ _ _ hq htrunc hready => congrArg _ (truncCommit_unready hq htrunc hready),
    truncateCommit_cuts, collectionFrameRenewal_waits, collectionFrameRenewal_renews⟩

end Sys2Proof.Machine
end

section
/-! Chapter 5 of the spec, the packed stream: the code words of the table sets (R139, R140), and blocks that are read back as
they were written (R138, R145). -/

namespace Sys2Proof.Machine

/-! ### Fields as bit strings -/

@[simp] theorem length_msbBits (w v : Nat) : (msbBits w v).length = w := by simp [msbBits]

@[simp] theorem length_lsbBits (w v : Nat) : (lsbBits w v).length = w := by simp [lsbBits]

theorem lsbBits_succ (w v : Nat) : lsbBits (w + 1) v = bit v 0 :: lsbBits w (v / 2) := by
  have hshift (i : Nat) : bit v (i + 1) = bit (v / 2) i := by
    rw [bit, bit, Nat.pow_succ', Nat.div_div_eq_div_mul]
  simp [lsbBits, List.range_succ_eq_map, hshift]

theorem b2n_bit_zero (v : Nat) : b2n (bit v 0) = v % 2 := by
  rcases Nat.mod_two_eq_zero_or_one v with h | h <;> simp [b2n, bit, h]

theorem bit_zero_b2n_add (b : Bool) (n : Nat) : bit (b2n b + 2 * n) 0 = b := by
  cases b <;> simp [b2n, bit, Nat.add_mod]

theorem b2n_add_div_two (b : Bool) (n : Nat) : (b2n b + 2 * n) / 2 = n := by
  cases b <;> simp [b2n]; omega

@[simp] theorem ofLsb_lsbBits (w v : Nat) : ofLsb (lsbBits w v) = v % 2 ^ w := by
  induction w generalizing v with
  | zero => simp [lsbBits, ofLsb, Nat.mod_one]
  | succ w ih => rw [lsbBits_succ, ofLsb, ih, b2n_bit_zero, Nat.pow_succ', Nat.mod_mul]

theorem ofLsb_lt (l : List Bool) : ofLsb l < 2 ^ l.length := by
  induction l with
  | nil => simp [ofLsb]
  | cons b t ih =>
    have hb : b2n b ≤ 1 := by cases b <;> decide
    rw [ofLsb, List.length_cons, Nat.pow_succ]
    omega

theorem ofLsb_append (l m : List Bool) : ofLsb (l ++ m) = ofLsb l + 2 ^ l.length * ofLsb m := by
  induction l with
  | nil => simp [ofLsb]
  | cons b t ih => rw [List.cons_append, ofLsb, ofLsb, ih, List.length_cons, Nat.pow_succ']; ring

theorem ofLsb_append_mod (l m : List Bool) : ofLsb (l ++ m) % 2 ^ l.length = ofLsb l := by
  rw [ofLsb_append, Nat.add_mul_mod_self_left, Nat.mod_eq_of_lt (ofLsb_lt l)]

theorem ofLsb_append_div (l m : List Bool) : ofLsb (l ++ m) / 2 ^ l.length = ofLsb m := by
  rw [ofLsb_append, Nat.add_mul_div_left _ _ (by positivity), Nat.div_eq_of_lt (ofLsb_lt l), Nat.zero_add]

theorem lsbBits_zero_eq (w : Nat) : lsbBits w 0 = List.replicate w false := by
  induction w with
  | zero => rfl
  | succ w ih => rw [lsbBits_succ, Nat.zero_div, ih]; rfl

/-- A bit string written into a wider field stands there with zeros above it. -/
theorem lsbBits_ofLsb {w : Nat} {l : List Bool} (h : l.length ≤ w) :
    lsbBits w (ofLsb l) = l ++ List.replicate (w - l.length) false := by
  induction l generalizing w with
  | nil => exact lsbBits_zero_eq w
  | cons b t ih =>
    obtain ⟨w, rfl⟩ := Nat.exists_eq_add_one_of_ne_zero (Nat.ne_zero_of_lt h)
    rw [lsbBits_succ, ofLsb, bit_zero_b2n_add, b2n_add_div_two, ih (Nat.le_of_succ_le_succ h), List.length_cons,
      Nat.add_sub_add_right, List.cons_append]

theorem ofMsb_eq_ofLsb_reverse (l : List Bool) : ofMsb l = ofLsb l.reverse := by
  induction l using List.reverseRecOn with
  | nil => rfl
  | append_singleton t b ih =>
    rw [ofMsb, List.foldl_append, ← ofMsb, ih, List.reverse_append]
    exact Nat.add_comm ..

theorem ofMsb_msbBits {w v : Nat} (h : v < 2 ^ w) : ofMsb (msbBits w v) = v := by
  rw [ofMsb_eq_ofLsb_reverse, msbBits, List.reverse_reverse, ← lsbBits, ofLsb_lsbBits, Nat.mod_eq_of_lt h]

/-! ### Code words (R139, R140) -/

/-- The last of the three tables of a set codes quotients below 8, the others below 2 and 4 (R140). -/
theorem Coder.u_eq {c : Coder} {u : Nat} (h0 : c.tset % 3 = 0 → u = 2) (h1 : c.tset % 3 = 1 → u = 4)
    (h2 : c.tset % 3 = 2 → u = 8) : c.u = u := by
  have hlt : c.tset % 3 < 3 := Nat.mod_lt _ (by decide)
  rw [Coder.u]
  split
  next h => rw [h0 h]
  next h => rw [h1 h]
  next hne0 hne1 =>
    have hne0 : c.tset % 3 ≠ 0 := hne0
    have hne1 : c.tset % 3 ≠ 1 := hne1
    rw [h2 (by omega)]

theorem Coder.u_le (c : Coder) : c.u ≤ 8 := by rw [Coder.u]; split <;> decide

/-- A symbol escapes: it has no code value, or its quotient is too large for its table set. -/
def Coder.escapes (c : Coder) (x : Nat) : Bool :=
  match c.value x with | some d => decide (c.u ≤ d / 2 ^ c.r) | none => true

theorem Coder.escapes_of_value {c : Coder} {x d : Nat} (h : c.value x = some d) :
    c.escapes x = decide (c.u ≤ d / 2 ^ c.r) := by rw [Coder.escapes, h]

theorem Coder.exists_value_of_not_escapes {c : Coder} {x : Nat} (h : c.escapes x = false) :
    ∃ d, c.value x = some d ∧ d / 2 ^ c.r < c.u := by
  cases hv : c.value x with
  | none => simp [Coder.escapes, hv] at h
  | some d => exact ⟨d, rfl, by simpa [Coder.escapes, hv] using h⟩

/-- The mapping is one to one: a code value names its symbol. -/
theorem Coder.symbol_of_value {c : Coder} {x d : Nat} (h : c.value x = some d) : c.symbol d = some x := by
  unfold Coder.value at h
  unfold Coder.symbol
  by_cases hdown : c.down = true
  · simp only [hdown, if_true] at h ⊢
    split at h
    · obtain rfl := Option.some.inj h
      rw [if_pos (Nat.sub_le ..), Nat.sub_sub_self ‹_›]
    · cases h
  · simp only [hdown, if_false, Bool.false_eq_true] at h ⊢
    obtain rfl := Option.some.inj h
    split
    · rw [if_pos (Nat.mul_mod_right ..), Nat.mul_div_cancel_left _ (by decide), Nat.add_sub_cancel' ‹_›]
    · have hodd : ¬ (2 * (c.centre - x) - 1) % 2 = 0 := by omega
      have hhalf : (2 * (c.centre - x) - 1 + 1) / 2 = c.centre - x := by omega
      rw [if_neg hodd, hhalf, if_pos (Nat.sub_le ..), Nat.sub_sub_self (by omega)]

section
variable {c : Coder} {e x d : Nat}

theorem Coder.word_raw (h : c.tset = 15) : c.word e x = msbBits e x := by simp [Coder.word, h]

theorem Coder.word_quotient (ht : c.tset ≠ 15) (hv : c.value x = some d) (hq : d / 2 ^ c.r < c.u) :
    c.word e x = List.replicate (d / 2 ^ c.r) true ++ [false] ++ msbBits c.r (d % 2 ^ c.r) := by
  simp [Coder.word, ht, hv, hq]

theorem Coder.word_escape (ht : c.tset ≠ 15) (h : c.escapes x = true) :
    c.word e x = List.replicate c.u true ++ msbBits e x := by
  cases hv : c.value x with
  | none => simp [Coder.word, ht, hv]
  | some d =>
    have hq : ¬ d / 2 ^ c.r < c.u := by simpa [Coder.escapes_of_value hv] using h
    simp [Coder.word, ht, hv, hq]

theorem Coder.len_raw (h : c.tset = 15) : c.len e x = e := by simp [Coder.len, h]

theorem Coder.len_quotient (ht : c.tset ≠ 15) (hv : c.value x = some d) (hq : d / 2 ^ c.r < c.u) :
    c.len e x = d / 2 ^ c.r + 1 + c.r := by
  simp [Coder.len, ht, hv, hq]

theorem Coder.len_escape (ht : c.tset ≠ 15) (h : c.escapes x = true) : c.len e x = c.u + e := by
  cases hv : c.value x with
  | none => simp [Coder.len, ht, hv]
  | some d =>
    have hq : ¬ d / 2 ^ c.r < c.u := by simpa [Coder.escapes_of_value hv] using h
    simp [Coder.len, ht, hv, hq]

/-- The encoder's length of a code word is the length of the word. -/
theorem Coder.length_word (c : Coder) (e x : Nat) : (c.word e x).length = c.len e x := by
  by_cases ht : c.tset = 15
  · rw [Coder.word_raw ht, Coder.len_raw ht, length_msbBits]
  cases hesc : c.escapes x with
  | true => rw [Coder.word_escape ht hesc, Coder.len_escape ht hesc]; simp
  | false =>
    obtain ⟨d, hv, hq⟩ := Coder.exists_value_of_not_escapes hesc
    rw [Coder.word_quotient ht hv hq, Coder.len_quotient ht hv hq]
    simp
    omega

theorem Coder.len_le (ht : c.tset ≠ 15) : c.len e x ≤ c.u + max e c.r := by
  cases hesc : c.escapes x with
  | true => rw [Coder.len_escape ht hesc]; omega
  | false =>
    obtain ⟨d, hv, hq⟩ := Coder.exists_value_of_not_escapes hesc
    rw [Coder.len_quotient ht hv hq]
    omega

/-! ### Reading a code word (R145) -/

theorem leadingOnes_replicate (n : Nat) (l : List Bool) : leadingOnes n (List.replicate n true ++ l) = n := by
  induction n with
  | zero => rw [leadingOnes]; simp
  | succ n ih => rw [List.replicate_succ, List.cons_append, leadingOnes, ih, Nat.add_comm]

theorem leadingOnes_replicate_false {q n : Nat} (h : q < n) (l : List Bool) :
    leadingOnes n (List.replicate q true ++ false :: l) = q := by
  induction q generalizing n with
  | zero => rw [leadingOnes]; simp
  | succ q ih =>
    obtain ⟨n, rfl⟩ := Nat.exists_eq_add_one_of_ne_zero (Nat.ne_zero_of_lt h)
    rw [List.replicate_succ, List.cons_append, leadingOnes, ih (by omega), Nat.add_comm]

theorem drop_replicate_false (q : Nat) (l : List Bool) : (List.replicate q true ++ false :: l).drop (q + 1) = l := by
  simp [List.drop_append]

theorem Coder.read_raw (ht : c.tset = 15) (hx : x < 2 ^ e) (rest : List Bool) :
    c.read e (msbBits e x ++ rest) = some (x, rest) := by
  simp [Coder.read, ht, ofMsb_msbBits hx]

/-- An escape is read only where one is due. -/
theorem Coder.read_escape (ht : c.tset ≠ 15) (hx : x < 2 ^ e) (rest : List Bool) :
    c.read e (List.replicate c.u true ++ msbBits e x ++ rest) = if c.escapes x then some (x, rest) else none := by
  cases hv : c.value x <;> simp [Coder.read, Coder.escapes, ht, leadingOnes_replicate, ofMsb_msbBits hx, hv]

theorem Coder.read_quotient (ht : c.tset ≠ 15) (hx : x < 2 ^ e) (hv : c.value x = some d) (hq : d / 2 ^ c.r < c.u)
    (rest : List Bool) :
    c.read e (List.replicate (d / 2 ^ c.r) true ++ [false] ++ msbBits c.r (d % 2 ^ c.r) ++ rest) = some (x, rest) := by
  have hrem : ofMsb (msbBits c.r (d % 2 ^ c.r)) = d % 2 ^ c.r := ofMsb_msbBits (Nat.mod_lt _ (by positivity))
  rw [List.append_assoc, List.append_assoc, List.singleton_append, Coder.read, if_neg ht]
  simp only [leadingOnes_replicate_false hq, if_neg hq.ne, drop_replicate_false]
  simp [hrem, Nat.div_add_mod', Coder.symbol_of_value hv, hx]

/-- Every symbol is read back from its code word, whatever follows it. -/
theorem Coder.read_word (c : Coder) (hx : x < 2 ^ e) (rest : List Bool) :
    c.read e (c.word e x ++ rest) = some (x, rest) := by
  by_cases ht : c.tset = 15
  · rw [Coder.word_raw ht, Coder.read_raw ht hx]
  cases hesc : c.escapes x with
  | true => rw [Coder.word_escape ht hesc, Coder.read_escape ht hx, hesc, if_pos rfl]
  | false =>
    obtain ⟨d, hv, hq⟩ := Coder.exists_value_of_not_escapes hesc
    rw [Coder.word_quotient ht hv hq, Coder.read_quotient ht hx hv hq]

end

/-! ### The coder of an area (R140, R142) -/

/-- Table set 15 stands with MAP and CENTRE zero. -/
def Coder.RawIsPlain (c : Coder) : Prop := c.tset = 15 → c.down = false ∧ c.centre = 0

theorem rawIsPlain_of_mem_coders {e : Nat} {c : Coder} (h : c ∈ coders e) : c.RawIsPlain := by
  intro ht
  rcases List.mem_append.1 h with h | h
  · simp only [List.mem_flatMap, List.mem_map, List.mem_range] at h
    obtain ⟨t, hlt, _, _, _, _, rfl⟩ := h
    exact absurd ht hlt.ne
  · rw [List.mem_singleton.1 h]
    exact ⟨rfl, rfl⟩

theorem rawIsPlain_chooseCoder (fmt : Nat) (segs : List Seg) : (chooseCoder fmt segs).RawIsPlain := by
  rw [chooseCoder]
  refine List.foldlRecOn (motive := fun b : Coder × Nat => b.1.RawIsPlain) _ _ (fun _ => ⟨rfl, rfl⟩) ?_
  intro b hb c hc
  dsimp only
  split
  · exact rawIsPlain_of_mem_coders hc
  · exact hb

/-- R140, R139: the code words of the table sets below 15, which code quotients, and their lengths. -/
theorem quotient_codeWords (c : Coder) (e x r u : Nat) (hlt : c.tset < 15) (hr : r = c.tset / 3)
    (h0 : c.tset % 3 = 0 → u = 2) (h1 : c.tset % 3 = 1 → u = 4) (h2 : c.tset % 3 = 2 → u = 8) :
    (∀ d, c.value x = some d → d / 2 ^ r < u →
      c.word e x = List.replicate (d / 2 ^ r) true ++ [false] ++ msbBits r (d % 2 ^ r)
      ∧ ∀ rest, x < 2 ^ e → c.read e (List.replicate u true ++ msbBits e x ++ rest) = none)
    ∧ ((∀ d, c.value x = some d → u ≤ d / 2 ^ r) → c.word e x = List.replicate u true ++ msbBits e x)
    ∧ (c.word e x).length ≤ u + max e r ∧ (e ≤ 8 → (c.word e x).length ≤ 16) := by
  have ht : c.tset ≠ 15 := hlt.ne
  obtain rfl : c.u = u := Coder.u_eq h0 h1 h2
  obtain rfl : r = c.r := hr
  have hlen : (c.word e x).length ≤ c.u + max e c.r := (Coder.length_word c e x).trans_le (Coder.len_le ht)
  refine ⟨fun d hv hq => ⟨Coder.word_quotient ht hv hq, fun rest hx => ?_⟩, fun h => Coder.word_escape ht ?_, hlen,
    fun he => ?_⟩
  · rw [Coder.read_escape ht hx, Coder.escapes_of_value hv, decide_eq_false hq.not_ge, if_neg Bool.false_ne_true]
  · by_contra hesc
    obtain ⟨d, hv, hq⟩ := Coder.exists_value_of_not_escapes (Bool.not_eq_true _ ▸ hesc)
    exact hq.not_ge (h d hv)
  · have hu := c.u_le
    have hr : c.r < 5 := Nat.div_lt_of_lt_mul hlt
    omega

/-- Settles O57: a code word is raw, an escape or a quotient, and each is read back by the lemma about its kind. -/
theorem codeWordsReadBack : Obligations.CodeWordsReadBack :=
  ⟨fun _ _ _ => Coder.word_raw, rawIsPlain_chooseCoder, quotient_codeWords,
    fun c _ _ rest hx => Coder.read_word c hx rest, Coder.length_word⟩

/-! ### Elements and their parts (R138, R139) -/

/-- An element that a row may hold: of its format's width, with the one zero the node writes, and no MXINT8 -128. -/
def StoredElem (fmt x : Nat) : Prop :=
  x < 2 ^ fmtBits fmt ∧ (elemZero fmt x = true → x = 0) ∧ (fmt = 6 → x ≠ 128)

theorem fmtBits_float {fmt : Nat} (hfmt : fmt ≤ 6) (hfloat : fmt ≠ 6) :
    2 ^ fmtBits fmt = 2 * (miniFmt fmt).sign := by
  have hlt : fmt < 6 := by omega
  interval_cases fmt <;> rfl

/-- A magnitude is its leading one and the bits below it. -/
theorem bitLen_split {a : Nat} (h : a ≠ 0) : 2 ^ (bitLen a - 1) + a % 2 ^ (bitLen a - 1) = a := by
  have hlow : 2 ^ Nat.log2 a ≤ a := Nat.log2_self_le h
  have hhigh : a < 2 ^ Nat.log2 a * 2 := Nat.lt_log2_self
  rw [bitLen, if_neg h, Nat.add_sub_cancel, Nat.mod_eq_sub_mod hlow, Nat.mod_eq_of_lt (by omega)]
  omega

theorem bitLen_le {a n : Nat} (h : a < 2 ^ n) : bitLen a ≤ n := by
  rw [bitLen]
  split
  · exact Nat.zero_le _
  · exact (Nat.log2_lt ‹_›).2 h

theorem bitLen_eq_zero_iff {a : Nat} : bitLen a = 0 ↔ a = 0 := by
  rw [bitLen]; split <;> simp [*]

/-- The magnitude of a stored MXINT8 element. -/
theorem natAbs_sgn_lt {x : Nat} (hx : x < 256) (hne : x ≠ 128) : (sgn 8 x).natAbs < 2 ^ 7 := by
  rw [sgn]; split <;> omega

theorem natAbs_sgn_eq_zero_iff {x : Nat} (hx : x < 256) : (sgn 8 x).natAbs = 0 ↔ x = 0 := by
  rw [sgn]; split <;> omega

/-- A sign and a magnitude give an MXINT8 element back. -/
theorem unsgn_natAbs_sgn {x : Nat} (hx : x < 256) :
    unsgn 8 (if decide (128 ≤ x % 256) = true then -((sgn 8 x).natAbs : Int) else ((sgn 8 x).natAbs : Int)) = x := by
  simp only [unsgn, sgn, decide_eq_true_eq]
  split <;> split <;> omega

theorem residualBits_symOf (fmt x : Nat) : residualBits fmt (symOf fmt x) = (residualOf fmt x).1 := by
  unfold residualBits symOf residualOf; split <;> rfl

theorem residualOf_lt (fmt x : Nat) : (residualOf fmt x).2 < 2 ^ (residualOf fmt x).1 := by
  unfold residualOf; split <;> exact Nat.mod_lt _ (by positivity)

theorem elemZero_zero (fmt : Nat) : elemZero fmt 0 = true := by
  unfold elemZero; split <;> simp

theorem elemNeg_zero (fmt : Nat) : elemNeg fmt 0 = false := by
  unfold elemNeg
  split
  · rfl
  · exact decide_eq_false (Nat.not_le.2 (Nat.two_pow_pos _))

section
variable {fmt x : Nat}

theorem symOf_lt (hx : StoredElem fmt x) : symOf fmt x < 2 ^ symBits fmt := by
  obtain ⟨hlt, -, hne⟩ := hx
  unfold symOf symBits
  split
  next h =>
    subst h
    exact Nat.lt_succ_of_le (bitLen_le (natAbs_sgn_lt hlt (hne rfl)))
  next => exact Nat.mod_lt _ (by positivity)

/-- The symbol and the residual of a floating element are the element without its sign. -/
theorem symOf_residualOf_float (hfloat : fmt ≠ 6) :
    symOf fmt x * 2 ^ (miniFmt fmt).mbits + (residualOf fmt x).2 = x % (miniFmt fmt).sign := by
  rw [symOf, if_neg hfloat, residualOf, if_neg hfloat, MiniFmt.sign, Nat.add_comm (miniFmt fmt).ebits, Nat.pow_add,
    Nat.mod_mul]
  ring

/-- The symbol and the residual of an MXINT8 element are its magnitude. -/
theorem symOf_residualOf_int8 (x : Nat) :
    (if symOf 6 x = 0 then 0 else 2 ^ (symOf 6 x - 1) + (residualOf 6 x).2) = (sgn 8 x).natAbs := by
  simp only [symOf, residualOf, if_pos]
  split
  next h => exact (bitLen_eq_zero_iff.1 h).symm
  next h => exact bitLen_split fun hzero => h (bitLen_eq_zero_iff.2 hzero)

theorem elemOf_float (hfloat : fmt ≠ 6) (neg : Bool) :
    elemOf fmt (symOf fmt x) (residualOf fmt x).2 neg
      = x % (miniFmt fmt).sign + if neg then (miniFmt fmt).sign else 0 := by
  rw [elemOf, if_neg hfloat, symOf_residualOf_float hfloat]

theorem elemOf_int8 (x : Nat) (neg : Bool) :
    elemOf 6 (symOf 6 x) (residualOf 6 x).2 neg
      = unsgn 8 (if neg then -((sgn 8 x).natAbs : Int) else ((sgn 8 x).natAbs : Int)) := by
  rw [elemOf, if_pos rfl]
  dsimp only
  rw [symOf_residualOf_int8]

/-- An element is its symbol, its residual and its sign. -/
theorem elemOf_parts (hfmt : fmt ≤ 6) (hx : StoredElem fmt x) :
    elemOf fmt (symOf fmt x) (residualOf fmt x).2 (elemNeg fmt x) = x := by
  obtain ⟨hlt, -, -⟩ := hx
  by_cases h6 : fmt = 6
  · subst h6
    rw [elemOf_int8, elemNeg, if_pos rfl, unsgn_natAbs_sgn hlt]
  · rw [fmtBits_float hfmt h6] at hlt
    rw [elemOf_float h6, elemNeg, if_neg h6]
    by_cases hneg : (miniFmt fmt).sign ≤ x
    · rw [decide_eq_true hneg, if_pos rfl, Nat.mod_eq_sub_mod hneg, Nat.mod_eq_of_lt (by omega), Nat.sub_add_cancel hneg]
    · rw [decide_eq_false hneg, if_neg Bool.false_ne_true, Nat.mod_eq_of_lt (by omega), Nat.add_zero]

/-- Whether an element is zero shows before its sign is read. -/
theorem elemZero_elemOf (hx : StoredElem fmt x) :
    elemZero fmt (elemOf fmt (symOf fmt x) (residualOf fmt x).2 false) = elemZero fmt x := by
  obtain ⟨hlt, -, hne⟩ := hx
  by_cases h6 : fmt = 6
  · subst h6
    have hmag : (sgn 8 x).natAbs < 2 ^ 7 := natAbs_sgn_lt hlt (hne rfl)
    have hzero := natAbs_sgn_eq_zero_iff hlt
    have hlt : x < 256 := hlt
    rw [elemOf_int8, Bool.eq_iff_iff]
    simp only [elemZero, unsgn, if_pos, Bool.false_eq_true, if_false, beq_iff_eq]
    omega
  · rw [elemOf_float h6, elemZero, if_neg h6, elemZero, if_neg h6]
    simp

end

/-! ### The planes of a block (R138) -/

theorem readWords_flatMap {c : Coder} {e : Nat} {xs : List Nat} (h : ∀ x ∈ xs, x < 2 ^ e) (rest : List Bool) :
    readWords c e xs.length (xs.flatMap (c.word e) ++ rest) = some (xs, rest) := by
  induction xs with
  | nil => rfl
  | cons x t ih =>
    obtain ⟨hx, ht⟩ := List.forall_mem_cons.1 h
    rw [List.flatMap_cons, List.append_assoc, List.length_cons, readWords]
    simp only [Coder.read_word c hx, ih ht]

/-- The bits of one element's residual. -/
def residualField (fmt x : Nat) : List Bool := lsbBits (residualOf fmt x).1 (residualOf fmt x).2

theorem readResiduals_flatMap (fmt : Nat) (es : List Nat) (rest : List Bool) :
    readResiduals fmt (es.map (symOf fmt)) (es.flatMap (residualField fmt) ++ rest)
      = (es.map fun x => (symOf fmt x, (residualOf fmt x).2), rest) := by
  induction es with
  | nil => rfl
  | cons x t ih =>
    have hlen : (residualField fmt x).length = residualBits fmt (symOf fmt x) := by
      rw [residualBits_symOf, residualField, length_lsbBits]
    have hval : ofLsb (residualField fmt x) = (residualOf fmt x).2 := by
      rw [residualField, ofLsb_lsbBits, Nat.mod_eq_of_lt (residualOf_lt fmt x)]
    rw [List.flatMap_cons, List.append_assoc, List.map_cons, readResiduals, List.map_cons]
    simp only [List.drop_left' hlen, List.take_left' hlen, ih, hval]

theorem readSigns_map {fmt : Nat} {es : List Nat} (hfmt : fmt ≤ 6) (h : ∀ x ∈ es, StoredElem fmt x) (rest : List Bool) :
    readSigns fmt (es.map fun x => (symOf fmt x, (residualOf fmt x).2))
      ((es.filter fun x => !elemZero fmt x).map (elemNeg fmt) ++ rest) = (es, rest) := by
  induction es with
  | nil => rfl
  | cons x t ih =>
    obtain ⟨hx, ht⟩ := List.forall_mem_cons.1 h
    have hparts := elemOf_parts hfmt hx
    rw [List.map_cons, readSigns]
    cases hz : elemZero fmt x with
    | true =>
      obtain rfl : x = 0 := hx.2.1 hz
      rw [elemNeg_zero] at hparts
      simp [hparts, hz, ih ht]
    | false => simp [elemZero_elemOf hx, hz, ih ht, hparts]

/-- Elements written one after another are read back. -/
theorem elems_ofLsb_flatMap {w : Nat} {l : List Nat} (h : ∀ v ∈ l, v < 2 ^ w) :
    elems w (ofLsb (l.flatMap (lsbBits w))) l.length = l := by
  induction l with
  | nil => rfl
  | cons v t ih =>
    obtain ⟨hv, ht⟩ := List.forall_mem_cons.1 h
    have hmod := ofLsb_append_mod (lsbBits w v) (t.flatMap (lsbBits w))
    have hdiv := ofLsb_append_div (lsbBits w v) (t.flatMap (lsbBits w))
    rw [length_lsbBits] at hmod hdiv
    rw [List.flatMap_cons, List.length_cons, elems, hmod, hdiv, ih ht, ofLsb_lsbBits, Nat.mod_eq_of_lt hv]

/-- Pieces of one size put together and split again. -/
theorem chunks_flatMap {α β : Type} {n fuel : Nat} {f : α → List β} {l : List α} (hn : 0 < n)
    (h : ∀ x ∈ l, (f x).length = n) (hfuel : l.length ≤ fuel) : chunks n fuel (l.flatMap f) = l.map f := by
  induction l generalizing fuel with
  | nil => cases fuel <;> rfl
  | cons x t ih =>
    obtain ⟨hx, ht⟩ := List.forall_mem_cons.1 h
    obtain ⟨fuel, rfl⟩ := Nat.exists_eq_add_one_of_ne_zero (Nat.ne_zero_of_lt hfuel)
    have hne : f x ++ t.flatMap f ≠ [] := List.append_ne_nil_of_left_ne_nil (List.ne_nil_of_length_pos (hx ▸ hn)) _
    rw [List.flatMap_cons, List.map_cons, chunks, List.take_left' hx, List.drop_left' hx,
      ih ht (Nat.le_of_succ_le_succ hfuel)]
    exact hne

/-! ### Blocks (R137, R138, R145) -/

/-- The scale plane of a block. -/
def scalePlane (fmt : Nat) (segs : List Seg) : List Bool :=
  if fmtMx fmt then segs.flatMap fun g => lsbBits 8 g.scale else []

/-- A block's symbols, residuals and signs. -/
def elemPlanes (fmt : Nat) (c : Coder) (es : List Nat) : List Bool :=
  (es.map (symOf fmt)).flatMap (c.word (symBits fmt)) ++ (es.flatMap (residualField fmt)
    ++ (es.filter fun x => !elemZero fmt x).map (elemNeg fmt))

theorem blockBody_eq (fmt : Nat) (c : Coder) (segs : List Seg) :
    blockBody fmt c segs = scalePlane fmt segs ++ elemPlanes fmt c (segs.flatMap (·.els)) := by
  simp only [blockBody, scalePlane, elemPlanes, List.flatMap_map, List.append_assoc]
  rfl

/-- A segment that a block may hold. -/
def StoredSeg (fmt : Nat) (g : Seg) : Prop :=
  g.els.length = 32 ∧ (if fmtMx fmt then g.scale < 256 else g.scale = 0) ∧ ∀ x ∈ g.els, StoredElem fmt x

/-- The scales that the decoder takes from a block's body. -/
def readScales (fmt nseg body : Nat) : List Nat :=
  if fmtMx fmt then elems 8 (body % 2 ^ (8 * nseg)) nseg else List.replicate nseg 0

/-- The bits of a block after its scales. -/
def afterScales (fmt nseg : Nat) (l : List Bool) : List Bool := if fmtMx fmt then l.drop (8 * nseg) else l

section
variable {fmt : Nat} {segs : List Seg}

theorem length_flatMap_scales (segs : List Seg) : (segs.flatMap fun g => lsbBits 8 g.scale).length = 8 * segs.length := by
  simp [List.length_flatMap, Nat.mul_comm]

theorem readScales_scalePlane (h : ∀ g ∈ segs, StoredSeg fmt g) (rest : List Bool) :
    readScales fmt segs.length (ofLsb (scalePlane fmt segs ++ rest)) = segs.map (·.scale) := by
  unfold readScales scalePlane
  cases hmx : fmtMx fmt with
  | true =>
    have hscale : ∀ v ∈ segs.map (·.scale), v < 2 ^ 8 := by
      rintro _ hv
      obtain ⟨g, hg, rfl⟩ := List.mem_map.1 hv
      obtain ⟨-, hlt, -⟩ := h g hg
      simpa [hmx] using hlt
    have hread := elems_ofLsb_flatMap hscale
    rw [List.flatMap_map, List.length_map] at hread
    rw [if_pos rfl, if_pos rfl, ← length_flatMap_scales, ofLsb_append_mod, hread]
  | false =>
    rw [if_neg Bool.false_ne_true]
    refine (List.eq_replicate_iff.2 ⟨List.length_map .., ?_⟩).symm
    rintro _ hv
    obtain ⟨g, hg, rfl⟩ := List.mem_map.1 hv
    obtain ⟨-, hzero, -⟩ := h g hg
    simpa [hmx] using hzero

theorem afterScales_scalePlane (segs : List Seg) (rest : List Bool) :
    afterScales fmt segs.length (scalePlane fmt segs ++ rest) = rest := by
  unfold afterScales scalePlane
  split
  · exact List.drop_left' (length_flatMap_scales segs)
  · rfl

/-- The decoder, when its three readers succeed and the body ends where it says. -/
theorem decodeBlock_of_read {c : Coder} {nseg bits body : Nat} {syms es : List Nat} {rs : List (Nat × Nat)}
    {l1 l2 l3 : List Bool}
    (hwords : readWords c (symBits fmt) (32 * nseg) (afterScales fmt nseg (lsbBits 4032 body)) = some (syms, l1))
    (hres : readResiduals fmt syms l1 = (rs, l2)) (hsigns : readSigns fmt rs l2 = (es, l3))
    (hend : 4032 - l3.length = bits ∧ body / 2 ^ bits = 0 ∧ l3.length ≤ 4032) :
    decodeBlock fmt c nseg bits body
      = some (((readScales fmt nseg body).zip (chunks 32 es.length es)).map fun p => { scale := p.1, els := p.2 }) := by
  rw [afterScales] at hwords
  simp only [decodeBlock, hwords, hres, hsigns, if_pos hend, readScales]

/-- Scales and elements put together again are the segments they came from. -/
theorem zip_scales_els (segs : List Seg) :
    ((segs.map (·.scale)).zip (segs.map (·.els))).map (fun p => ({ scale := p.1, els := p.2 } : Seg)) = segs := by
  rw [List.zip_map', List.map_map]
  exact List.map_id segs

theorem decodeBlock_blockBody (c : Coder) (hfmt : fmt ≤ 6) (h : ∀ g ∈ segs, StoredSeg fmt g)
    (hlen : (blockBody fmt c segs).length ≤ 4032) :
    decodeBlock fmt c segs.length (blockBody fmt c segs).length (ofLsb (blockBody fmt c segs)) = some segs := by
  have hels : ∀ g ∈ segs, g.els.length = 32 := by
    intro g hg
    obtain ⟨hlen, -, -⟩ := h g hg
    exact hlen
  have hstored : ∀ x ∈ segs.flatMap (·.els), StoredElem fmt x := by
    intro x hx
    obtain ⟨g, hg, hmem⟩ := List.mem_flatMap.1 hx
    obtain ⟨-, -, hels⟩ := h g hg
    exact hels x hmem
  have hcount : ((segs.flatMap (·.els)).map (symOf fmt)).length = 32 * segs.length := by
    rw [List.length_map, List.length_flatMap, List.map_congr_left hels]
    simp [Nat.mul_comm]
  have hsyms : ∀ y ∈ (segs.flatMap (·.els)).map (symOf fmt), y < 2 ^ symBits fmt := by
    rintro _ hy
    obtain ⟨x, hx, rfl⟩ := List.mem_map.1 hy
    exact symOf_lt (hstored x hx)
  have hpad : (List.replicate (4032 - (blockBody fmt c segs).length) false).length = 4032 - (blockBody fmt c segs).length :=
    List.length_replicate ..
  have hscales := readScales_scalePlane h (elemPlanes fmt c (segs.flatMap (·.els)))
  have hchunks := chunks_flatMap (fuel := (segs.flatMap (·.els)).length) (by decide) hels
    (by rw [List.length_map] at hcount; omega)
  rw [← blockBody_eq] at hscales
  rw [decodeBlock_of_read (l3 := List.replicate (4032 - (blockBody fmt c segs).length) false) ?_
    (readResiduals_flatMap ..) (readSigns_map hfmt hstored _)
    ⟨by omega, Nat.div_eq_of_lt (ofLsb_lt _), by omega⟩, hscales, hchunks, zip_scales_els]
  rw [lsbBits_ofLsb hlen, blockBody_eq, List.append_assoc, afterScales_scalePlane, ← blockBody_eq, elemPlanes,
    List.append_assoc, List.append_assoc, ← hcount, readWords_flatMap hsyms]

end

/-- Settles O58: the scales, the symbols, the residuals and the signs are read back plane by plane. -/
theorem packedBlocksReadBack : Obligations.PackedBlocksReadBack :=
  fun _ c _ hfmt h hlen => decodeBlock_blockBody c hfmt h hlen

end Sys2Proof.Machine
end

section
/-! Chapter 5 of the spec, rows in the scratch of a core: products, conversions and rotations (R124 to R126, R129, R167), and
statistics normalised, passed on and folded (R59, R163, R166, R177, R178). -/

namespace Sys2Proof.Machine

/-! ### Rows written by an operation of a lap -/

/-- An operation whose meaning is a `withRun` answers with what it does in its lap. -/
theorem next_withRun {s : State} {u : Uop} {r : Run} (hrun : runOf s u = some r) (hpar : u.parity = false)
    (f : Run → State → State) : (.next (withRun s u f) : Res) = .next (f r s) :=
  congrArg _ (withRun_of_runOf hrun hpar f)

/-- What an answer with some units written says of the scratch. -/
theorem next_writeUnits (s : State) (u : Uop) (addr fmt n data : Nat) (own : Nat → Option Nat) :
    ∃ t, (.next (writeUnits s u.cl.val u.core.val addr fmt n data own) : Res) = .next t
      ∧ UnitsAt t u addr fmt n data ∧ WritesOnly s t u addr n ∧ t = { s with scratch := t.scratch } :=
  ⟨_, rfl, unitsAt_writeUnits s u addr fmt n data own, writesOnly_writeUnits s u addr fmt n data own, rfl⟩

theorem next_writeElems (s : State) (u : Uop) (addr fmt : Nat) (l : List Num) (own : Nat → Option Nat) :
    ∃ t, (.next (writeElems s u.cl.val u.core.val addr fmt l own) : Res) = .next t ∧ RowAt t u addr fmt l
      ∧ WritesOnly s t u addr (ceilDiv (rowBytesOf fmt l.length) 64) ∧ t = { s with scratch := t.scratch } :=
  next_writeUnits ..

@[simp] theorem length_decodeRow (fmt n x : Nat) : (decodeRow fmt n x).length = n := by
  unfold decodeRow; split <;> simp [length_elems]

/-! ### VEC.CVT (R129) -/

/-- The elements that a VEC.CVT converts. -/
def cvtElems (s : State) (u : Uop) (r : Run) : List (Num × Num) :=
  (operandElems s u r u.core.val (fld u.a.toNat 13 0) (bit u.a.toNat 14) (fld u.c.toNat 15 0)).2.1

theorem convertOp_writes (s : State) (u : Uop) (r : Run) (hfmt : fld u.c.toNat 19 16 ≤ 7) :
    ∃ own, convertOp r s u = writeElems s u.cl.val u.core.val (fld u.b.toNat 13 0) (fld u.c.toNat 19 16)
      ((cvtElems s u r).map elemValue) own :=
  ⟨_, if_neg hfmt.not_gt⟩

theorem vecCvt_converts (u : Uop) (r : Run) (s : State) (hrun : runOf s u = some r) (hpar : u.parity = false)
    (hfmt : fld u.c.toNat 19 16 ≤ 7) :
    ∃ t, exec (.vecCvt u) s = .next t
      ∧ RowAt t u (fld u.b.toNat 13 0) (fld u.c.toNat 19 16) ((cvtElems s u r).map elemValue)
      ∧ WritesOnly s t u (fld u.b.toNat 13 0) (ceilDiv (rowBytesOf (fld u.c.toNat 19 16) (cvtElems s u r).length) 64)
      ∧ t = { s with scratch := t.scratch } := by
  obtain ⟨own, hop⟩ := convertOp_writes s u r hfmt
  have hexec : exec (.vecCvt u) s = .next (convertOp r s u) := next_withRun hrun hpar _
  rw [hexec, hop]
  simpa only [List.length_map] using
    next_writeElems s u (fld u.b.toNat 13 0) (fld u.c.toNat 19 16) ((cvtElems s u r).map elemValue) own

/-! ### VEC.ROT (R126; assumption 32) -/

/-- The operand of a VEC.ROT of one head. -/
def rotOperand (s : State) (u : Uop) (r : Run) : Nat × List (Num × Num) × Option Nat :=
  operandElems s u r u.core.val (fld u.a.toNat 13 0) (bit u.a.toNat 14) (mHeadDim r.m)

/-- A row of one head's length is the one piece that it splits into. -/
theorem chunks_self {α : Type} {n : Nat} {l : List α} (hn : 0 < n) (hl : l.length = n) : chunks n n l = [l] := by
  simpa using chunks_flatMap (fuel := n) (f := id) (l := [l]) hn (by simpa using hl) hn

/-- A single head is rotated for the causal limit of the slot that its first unit belongs to. -/
theorem rotateOp_writes {s : State} {u : Uop} {r : Run} {id : Nat} {q : SeqSt} (hdim : fld u.c.toNat 15 0 = mHeadDim r.m)
    (hpos : 0 < mHeadDim r.m) (hslot : slotSeq s r ((rotOperand s u r).2.2.getD 0 / 1024) = some (id, q)) :
    ∃ own, rotateOp r s u = writeElems s u.cl.val u.core.val (fld u.b.toNat 13 0) 7
      (rotateHead r.m (slotLimit r ((rotOperand s u r).2.2.getD 0 / 1024) q) ((rotOperand s u r).2.1.map elemValue)) own := by
  have hlen : ((rotOperand s u r).2.1.map elemValue).length = mHeadDim r.m := by simp [rotOperand, operandElems]
  have hone := chunks_self hpos hlen
  simp only [rotOperand, operandElems, unitOwn] at hone hslot ⊢
  simp only [rotateOp, operandElems, hdim, hone, List.zipIdx_cons, List.zipIdx_nil, List.flatMap_cons, List.flatMap_nil,
    List.append_nil, Nat.zero_mul, Nat.zero_div, ← List.headD_eq_getD, hslot]
  exact ⟨_, rfl⟩

theorem vecRot_rotates (u : Uop) (r : Run) (id : Nat) (q : SeqSt) (s : State) (hrun : runOf s u = some r)
    (hpar : u.parity = false) (hdim : fld u.c.toNat 15 0 = mHeadDim r.m) (hpos : 0 < mHeadDim r.m)
    (hslot : slotSeq s r ((rotOperand s u r).2.2.getD 0 / 1024) = some (id, q)) :
    ∃ t, exec (.vecRot u) s = .next t
      ∧ RowAt t u (fld u.b.toNat 13 0) 7
          (rotateHead r.m (slotLimit r ((rotOperand s u r).2.2.getD 0 / 1024) q) ((rotOperand s u r).2.1.map elemValue))
      ∧ t = { s with scratch := t.scratch } := by
  obtain ⟨own, hop⟩ := rotateOp_writes hdim hpos hslot
  have hexec : exec (.vecRot u) s = .next (rotateOp r s u) := next_withRun hrun hpar _
  rw [hexec, hop]
  obtain ⟨t, ht, hrow, -, honly⟩ := next_writeElems s u (fld u.b.toNat 13 0) 7
    (rotateHead r.m (slotLimit r ((rotOperand s u r).2.2.getD 0 / 1024) q) ((rotOperand s u r).2.1.map elemValue)) own
  exact ⟨t, ht, hrow, honly⟩

/-! ### MXE.MM (R124, R125, R167) -/

/-- Rows of a product, the length of each, and its columns. -/
def mmM (u : Uop) : Nat := (fld u.a.toNat 15 14 + 1) * 8
def mmK (u : Uop) : Nat := fld u.extA.toNat 15 0
def mmN (u : Uop) : Nat := fld u.extB.toNat 15 0

/-- The rows of a product's first operand. -/
def mmRows (s : State) (u : Uop) (r : Run) : List (List (Num × Num)) :=
  chunks (mmK u) (mmM u) (decodeRow (fld u.extA.toNat 20 16) (mmM u * mmK u) (unitBytes (operandUnits s u r u.core.val
    (fld u.a.toNat 13 0) (bit u.a.toNat 16) (ceilDiv (rowBytesOf (fld u.extA.toNat 20 16) (mmM u * mmK u)) 64))))

/-- Bytes of one column of a product's second operand. -/
def mmColumnBytes (u : Uop) : Nat := rowBytesOf (fld u.extB.toNat 20 16) (mmK u)

/-- The bytes of a product's second operand when it stands in the scratch. -/
def mmSecond (s : State) (u : Uop) (r : Run) : Nat :=
  unitBytes (operandUnits s u r u.core.val (fld u.b.toNat 13 0) false (ceilDiv (mmN u * mmColumnBytes u) 64))
    % 2 ^ (8 * (mmN u * mmColumnBytes u))

/-- The columns of a product whose second operand stands in the scratch. -/
def mmColumns (s : State) (u : Uop) (r : Run) : List (List (Num × Num)) :=
  (List.range (mmN u)).map fun j =>
    decodeRow (fld u.extB.toNat 20 16) (mmK u) (imgBytes (mmSecond s u r) (j * mmColumnBytes u) (mmColumnBytes u))

/-- The dot products of rows and columns, row by row. -/
def mmProducts (s : State) (u : Uop) (r : Run) : List Num :=
  (mmRows s u r).flatMap fun a => (mmColumns s u r).map fun b => dotTiles a b

section
variable {s : State} {u : Uop} {r : Run}

theorem secondOperand_scratch (hscr : bit u.b.toNat 31 = false) (bytes n : Nat) :
    secondOperand r s u bytes n
      = (unitBytes (operandUnits s u r u.core.val (fld u.b.toNat 13 0) false (ceilDiv bytes 64)) % 2 ^ (8 * bytes),
          List.replicate n Num.zero, s) := by
  simp [secondOperand, hscr]

/-- Columns without biases give the plain dot products. -/
theorem map_zip_zero_bias (n : Nat) (f : Nat → List (Num × Num)) (x : List (Num × Num)) :
    (((List.range n).map f).zip (List.replicate n Num.zero)).map
        (fun y => if y.2.isZero then dotTiles x y.1 else add32 (dotTiles x y.1) y.2)
      = ((List.range n).map f).map fun b => dotTiles x b := by
  have hzeros : List.replicate n Num.zero = (List.range n).map fun _ => Num.zero := by simp
  have hzero : Num.zero.isZero = true := rfl
  rw [hzeros, List.zip_map', List.map_map, List.map_map]
  simp [Function.comp_def, hzero]

theorem matProduct_writes (htag : u.tagBad = false) (hscr : bit u.b.toNat 31 = false) (ha : fld u.extA.toNat 20 16 ≤ 6)
    (hb : fld u.extB.toNat 20 16 ≤ 6) :
    ∃ own, matProduct r s u = writeUnits s u.cl.val u.core.val (fld u.c.toNat 13 0) 7 (ceilDiv (mmM u * mmN u) 16)
      (packElems 32 ((mmProducts s u r).map toBits32)) own := by
  have hstored : ¬ (6 < fld u.extA.toNat 20 16 ∨ 6 < fld u.extB.toNat 20 16) := by omega
  simp only [matProduct, if_neg hstored, htag, hscr, Bool.false_eq_true, if_false, and_false, secondOperand_scratch,
    map_zip_zero_bias]
  exact ⟨_, rfl⟩

/-- R286: a weight block that fails its authentication leaves the scratch and damages the model. -/
theorem matProduct_weightFault (htag : u.tagBad = false) (hweights : bit u.b.toNat 31 = true) (hbad : u.weightBad = true)
    (ha : fld u.extA.toNat 20 16 ≤ 6) (hb : fld u.extB.toNat 20 16 ≤ 6) : matProduct r s u = weightFault r s u := by
  have hstored : ¬ (6 < fld u.extA.toNat 20 16 ∨ 6 < fld u.extB.toNat 20 16) := by omega
  simp [matProduct, if_neg hstored, htag, hweights, hbad]

theorem weightFault_scratch : (weightFault r s u).scratch = s.scratch := by
  rw [weightFault, raisePage_only]
  rfl

theorem getM_weightFault {x : ModelSt} (hx : getM s (hDomain r.h.record) (hModel r.h.record) = some x) :
    getM (weightFault r s u) (hDomain r.h.record) (hModel r.h.record) = some { x with damaged := true } := by
  have hx : s.models.get? (mkey (hDomain r.h.record) (hModel r.h.record)) = some x := hx
  rw [weightFault, raisePage_only]
  simp [getM, modM, hx]

end

theorem mxeMm_multiplies (u : Uop) (r : Run) (s : State) (hrun : runOf s u = some r) (hpar : u.parity = false)
    (htag : u.tagBad = false) (hscr : bit u.b.toNat 31 = false) (ha : fld u.extA.toNat 20 16 ≤ 6)
    (hb : fld u.extB.toNat 20 16 ≤ 6) :
    ∃ t, exec (.mxeMm u) s = .next t
      ∧ UnitsAt t u (fld u.c.toNat 13 0) 7 (ceilDiv (mmM u * mmN u) 16)
          (packElems 32 ((mmProducts s u r).map toBits32))
      ∧ WritesOnly s t u (fld u.c.toNat 13 0) (ceilDiv (mmM u * mmN u) 16)
      ∧ t = { s with scratch := t.scratch } := by
  obtain ⟨own, hop⟩ := matProduct_writes (s := s) (r := r) htag hscr ha hb
  have hexec : exec (.mxeMm u) s = .next (matProduct r s u) := next_withRun hrun hpar _
  rw [hexec, hop]
  exact next_writeUnits ..

theorem mxeMm_damages (u : Uop) (r : Run) (s : State) (hrun : runOf s u = some r) (hpar : u.parity = false)
    (htag : u.tagBad = false) (hweights : bit u.b.toNat 31 = true) (hbad : u.weightBad = true)
    (ha : fld u.extA.toNat 20 16 ≤ 6) (hb : fld u.extB.toNat 20 16 ≤ 6) :
    ∃ t, exec (.mxeMm u) s = .next t ∧ t.scratch = s.scratch
      ∧ (∀ x, getM s (hDomain r.h.record) (hModel r.h.record) = some x →
          getM t (hDomain r.h.record) (hModel r.h.record) = some { x with damaged := true }) := by
  have hexec : exec (.mxeMm u) s = .next (matProduct r s u) := next_withRun hrun hpar _
  rw [hexec, matProduct_weightFault htag hweights hbad ha hb]
  exact ⟨_, rfl, weightFault_scratch, fun _ => getM_weightFault⟩

/-! ### VEC.NRM and VEC.FIN (R59, R166, R178; assumption 33) -/

/-- The elements of normalised heads, one head after another. -/
def normElems (s : State) (u : Uop) (r : Run) : List Num :=
  (readStats s u u.core.val (fld u.a.toNat 13 0) r.dv (fld u.c.toNat 15 0)).1.flatMap normalise

theorem vecNrm_normalises (u : Uop) (r : Run) (s : State) (hrun : runOf s u = some r) (hpar : u.parity = false) :
    ∃ t, exec (.vecNrm u) s = .next t ∧ RowAt t u (fld u.b.toNat 13 0) 7 (normElems s u r)
      ∧ WritesOnly s t u (fld u.b.toNat 13 0) (ceilDiv (rowBytesOf 7 (normElems s u r).length) 64)
      ∧ t = { s with scratch := t.scratch } := by
  have hexec : exec (.vecNrm u) s = .next (normOp r s u) := next_withRun hrun hpar _
  rw [hexec]
  exact next_writeElems ..

/-- The statistics that a VEC.FIN passes on. -/
def finStats (s : State) (u : Uop) (r : Run) : List Stat :=
  (readStats s u u.core.val (fld u.a.toNat 13 0) r.dv (fld u.c.toNat 4 0)).1

theorem vecFin_passes (u : Uop) (r : Run) (s : State) (hrun : runOf s u = some r) (hpar : u.parity = false) :
    ∃ t, exec (.vecFin u) s = .next t
      ∧ UnitsAt t u (fld u.b.toNat 13 0) 7 (statUnits r.dv (finStats s u r).length)
          (packElems (8 * statBytes r.dv) ((finStats s u r).map statWord))
      ∧ WritesOnly s t u (fld u.b.toNat 13 0) (statUnits r.dv (finStats s u r).length)
      ∧ t = { s with scratch := t.scratch } := by
  have hexec : exec (.vecFin u) s = .next (finOp r s u) := next_withRun hrun hpar _
  rw [hexec]
  exact next_writeUnits ..

/-! ### VEC.MRG (R163, R177; assumption 33) -/

/-- The statistics of one head in one core. -/
def coreStat (s : State) (u : Uop) (r : Run) (i k : Nat) : Stat :=
  (readStats s u k (fld u.a.toNat 13 0) r.dv (fld u.c.toNat 4 0)).1.getD i (statZero r.dv)

/-- The statistics of every head, folded over the cluster's four cores. -/
def mergedStats (s : State) (u : Uop) (r : Run) : List Stat :=
  (List.range (fld u.c.toNat 4 0)).map fun i =>
    (foldStats r.dv [coreStat s u r i 0, coreStat s u r i 1, coreStat s u r i 2, coreStat s u r i 3]).1

/-- A change to the lap of a cluster leaves the scratch and all else outside the heats. -/
theorem modCl_only (s : State) (k c : Nat) (g : LapCl → LapCl) :
    modCl s k c g = { s with heats := (modCl s k c g).heats } := by
  unfold modCl; split <;> rfl

/-- The folded statistics are written; only the flags of the lap change beside them. -/
theorem mergeOp_writes (s : State) (u : Uop) (r : Run) :
    ∃ own heats, mergeOp r s u
      = { writeStats s u u.core.val (fld u.b.toNat 13 0) r.dv own (mergedStats s u r) with heats := heats } := by
  have hstats : ((List.range (fld u.c.toNat 4 0)).map fun i => foldStats r.dv
      (((List.range 4).map fun k => readStats s u k (fld u.a.toNat 13 0) r.dv (fld u.c.toNat 4 0)).map
        fun c => c.1.getD i (statZero r.dv))).map (·.1) = mergedStats s u r := List.map_map ..
  simp only [mergeOp, hstats]
  split
  · exact ⟨_, s.heats, rfl⟩
  · rw [modCl_only]
    exact ⟨_, _, rfl⟩

theorem vecMrg_folds (u : Uop) (r : Run) (s : State) (hrun : runOf s u = some r) (hpar : u.parity = false) :
    ∃ t, exec (.vecMrg u) s = .next t
      ∧ UnitsAt t u (fld u.b.toNat 13 0) 7 (statUnits r.dv (mergedStats s u r).length)
          (packElems (8 * statBytes r.dv) ((mergedStats s u r).map statWord))
      ∧ WritesOnly s t u (fld u.b.toNat 13 0) (statUnits r.dv (mergedStats s u r).length)
      ∧ t = { s with scratch := t.scratch, heats := t.heats } := by
  obtain ⟨own, heats, hop⟩ := mergeOp_writes s u r
  have hexec : exec (.vecMrg u) s = .next (mergeOp r s u) := next_withRun hrun hpar _
  rw [hexec, hop]
  exact ⟨_, rfl, unitsAt_writeStats s u _ _ own _, writesOnly_writeStats s u _ _ own _, rfl⟩

/-- Settles O29, operation by operation. It rests on assumptions 17 and 126 (the layout of the scratch), 31 (a second operand
in the scratch has no bias), 32 (a head's position is the causal limit of its slot) and 33 (the order of folding). -/
theorem rowsAreComputed : Obligations.RowsAreComputed :=
  ⟨⟨vecCvt_converts,
    fun u r id q s hrun hpar hdim hpos _ hslot => vecRot_rotates u r id q s hrun hpar hdim hpos hslot,
    mxeMm_multiplies, mxeMm_damages⟩,
    vecNrm_normalises, vecFin_passes, vecMrg_folds⟩

end Sys2Proof.Machine
end

section
/-! Chapter 7 of the spec, the index of a row: it is built, rebuilt and committed (R192, R193, R468). -/

namespace Sys2Proof.Machine

/-! ### INDEX_BUILD (R192, R193) -/

section
variable {id l g : Nat} {s : State}

theorem indexBuildOp_builds {q : SeqSt} (hq : getQ s id = some q) (hhas : s.sel.indexes.has (idxKey id l g) = true)
    (hnone : (getIdx s (idxKey id l g)).state = .none)
    (hmany : sThreshold (mSel (seqModel s q)) ≤ idxCount (getIdx s (idxKey id l g)))
    (hretry : (getIdx s (idxKey id l g)).retryAt ≤ idxCount (getIdx s (idxKey id l g))) :
    indexBuildOp s id l g = idxBegin s (idxKey id l g) .building := by
  simp [indexBuildOp, hq, hhas, hnone, hmany, hretry]

theorem indexBuildOp_rebuilds (hhas : s.sel.indexes.has (idxKey id l g) = true)
    (hactive : (getIdx s (idxKey id l g)).state = .active)
    (hmany : 2 * (getIdx s (idxKey id l g)).nBuild ≤ idxCount (getIdx s (idxKey id l g))) :
    indexBuildOp s id l g = idxBegin s (idxKey id l g) .rebuilding := by
  simp [indexBuildOp, hhas, hactive, hmany]

theorem indexBuildOp_waits (hactive : (getIdx s (idxKey id l g)).state = .active)
    (hfew : idxCount (getIdx s (idxKey id l g)) < 2 * (getIdx s (idxKey id l g)).nBuild) : indexBuildOp s id l g = s := by
  simp [indexBuildOp, hactive, hfew]

/-! ### INDEX_BUILD_COMPLETE (R192, R193; assumption 125) -/

theorem indexDoneOp_idle (room : Bool) (hstill : (getIdx s (idxKey id l g)).state ≠ .building)
    (hstill' : (getIdx s (idxKey id l g)).state ≠ .rebuilding) : indexDoneOp s id l g room = s := by
  simp [indexDoneOp, hstill, hstill']

/-- The indexes of a running sequence do not commit at once. -/
theorem commitIdle_running {q : SeqSt} (hq : getQ s id = some q) (hrun : q.state = .running) : commitIdle s id = s := by
  simp [commitIdle, hq, hrun]

/-- The set of a build of a running sequence stands ready beside the entries. -/
theorem indexDoneOp_readies {q : SeqSt} (hq : getQ s id = some q) (hrun : q.state = .running)
    (hbuild : (getIdx s (idxKey id l g)).state = .building) (hready : (getIdx s (idxKey id l g)).ready = none) :
    ∃ r, indexDoneOp s id l g true
      = setIdx s (idxKey id l g) { getIdx s (idxKey id l g) with ready := some r } := by
  have hcommit (x : IndexSt) : commitIdle (setIdx s (idxKey id l g) x) id = setIdx s (idxKey id l g) x :=
    commitIdle_running hq hrun
  simp only [indexDoneOp, hbuild, hready, hcommit, true_or, Option.isNone_none, and_self, if_true]
  exact ⟨_, rfl⟩

/-- An active set whose rebuild found no room: it stays in use, and the next rebuild waits for twice the pages. -/
def withoutRoom (x : IndexSt) : IndexSt := { x with state := .active, building := [], retryAt := 2 * idxCount x }

theorem getIdx_indexDoneOp_without_room (hrebuild : (getIdx s (idxKey id l g)).state = .rebuilding)
    (hready : (getIdx s (idxKey id l g)).ready = none) :
    getIdx (indexDoneOp s id l g false) (idxKey id l g) = withoutRoom (getIdx s (idxKey id l g)) := by
  have hsel : (indexDoneOp s id l g false).sel
      = (setIdx s (idxKey id l g) (withoutRoom (getIdx s (idxKey id l g)))).sel := by
    simp [indexDoneOp, hrebuild, hready, withoutRoom]
  rw [getIdx, hsel]
  exact getIdx_setIdx ..

end

theorem indexBuildComplete_readies (id l g : Nat) (q : SeqSt) (s : State) (hq : getQ s id = some q) (hrun : q.state = .running)
    (hbuild : (getIdx s (idxKey id l g)).state = .building) (hready : (getIdx s (idxKey id l g)).ready = none) :
    ∃ t r, exec (.indexBuildComplete id l g true) s = .next t ∧ (getIdx t (idxKey id l g)).ready = some r
      ∧ (getIdx t (idxKey id l g)).entries = (getIdx s (idxKey id l g)).entries
      ∧ t = { s with sel := { s.sel with indexes := t.sel.indexes } }
      ∧ ∀ k, k ≠ idxKey id l g → t.sel.indexes.get? k = s.sel.indexes.get? k := by
  obtain ⟨r, hop⟩ := indexDoneOp_readies hq hrun hbuild hready
  refine ⟨_, r, congrArg Host.Outcome.next hop, ?_, ?_, rfl, fun k hk => Map.get?_set_ne _ hk _⟩
  · rw [getIdx_setIdx]
  · rw [getIdx_setIdx]

theorem indexBuildComplete_without_room (id l g : Nat) (s : State) (hrebuild : (getIdx s (idxKey id l g)).state = .rebuilding)
    (hready : (getIdx s (idxKey id l g)).ready = none) :
    ∃ t, exec (.indexBuildComplete id l g false) s = .next t ∧ (getIdx t (idxKey id l g)).state = .active
      ∧ (getIdx t (idxKey id l g)).retryAt = 2 * idxCount (getIdx s (idxKey id l g))
      ∧ (getIdx t (idxKey id l g)).centroids = (getIdx s (idxKey id l g)).centroids := by
  refine ⟨_, rfl, ?_⟩
  rw [getIdx_indexDoneOp_without_room hrebuild hready]
  exact ⟨rfl, rfl, rfl⟩

/-! ### SEL_REBUILD (R193, R468) -/

@[simp] theorem getIdx_renewBy (d : Desc) (s : State) (id k : Nat) : getIdx (renewBy d s id) k = getIdx s k := rfl

@[simp] theorem seqModel_renewBy (d : Desc) (s : State) (id : Nat) (q : SeqSt) :
    seqModel (renewBy d s id) q = seqModel s q := rfl

section
variable {d : Desc} {s : State} {q : SeqSt} (hq : seqFor d (renewBy d s (byt d.body 0 5)) (byt d.body 0 5) = .ok q)
  (hlayer : byt d.body 6 6 < mLayers (seqModel s q)) (hgroup : byt d.body 7 7 < mGroups (seqModel s q))
include hq hlayer hgroup

theorem bodySelRebuild_rebuilds
    (hactive : (getIdx s (idxKey (byt d.body 0 5) (byt d.body 6 6) (byt d.body 7 7))).state = .active) :
    bodySelRebuild d s
      = (idxBegin (renewBy d s (byt d.body 0 5)) (idxKey (byt d.body 0 5) (byt d.body 6 6) (byt d.body 7 7)) .rebuilding,
          .accept (.index (byt d.body 0 5) (byt d.body 6 6) (byt d.body 7 7))) := by
  simp [bodySelRebuild, withObj_ok hq, hlayer.not_ge, hgroup.not_ge, hactive]

theorem bodySelRebuild_badState
    (hnone : (getIdx s (idxKey (byt d.body 0 5) (byt d.body 6 6) (byt d.body 7 7))).state = .none) :
    bodySelRebuild d s = (renewBy d s (byt d.body 0 5), .fail .badState) := by
  simp [bodySelRebuild, withObj_ok hq, hlayer.not_ge, hgroup.not_ge, hnone]

end

/-- Settles O23, command by command. It rests on assumptions 5 (a row whose condition is not met leaves the state as it is,
but for the clock) and 125 (a rebuild without room leaves the index ACTIVE with its old set). -/
theorem indexesAreBuilt : Obligations.IndexesAreBuilt :=
  ⟨fun _ _ _ _ _ hq hhas hnone hmany hretry =>
      congrArg Host.Outcome.next (indexBuildOp_builds hq hhas hnone hmany hretry),
    fun _ _ _ _ hhas hactive hmany => congrArg Host.Outcome.next (indexBuildOp_rebuilds hhas hactive hmany),
    fun _ _ _ _ hactive hfew => congrArg Host.Outcome.next (indexBuildOp_waits hactive hfew),
    fun _ _ _ room _ _ _ hstill hstill' => congrArg Host.Outcome.next (indexDoneOp_idle room hstill hstill'),
    indexBuildComplete_readies, indexBuildComplete_without_room,
    ends_of_body (body := bodySelRebuild) (fun _ _ => rfl) fun _ _ ⟨_, hq, hlayer, hgroup, hactive⟩ => by
      rw [bodySelRebuild_rebuilds hq hlayer hgroup hactive]
      exact ⟨rfl, rfl⟩,
    ends_of_body (body := bodySelRebuild) (fun _ _ => rfl) fun _ _ ⟨_, hq, hlayer, hgroup, hnone⟩ => by
      rw [bodySelRebuild_badState hq hlayer hgroup hnone]
      exact ⟨rfl, rfl⟩⟩

end Sys2Proof.Machine
end

section
/-! Chapter 7 of the spec, the selector's settings: heat records, filters and audit counters (R189, R199, R207, R468). -/

namespace Sys2Proof.Machine

/-! ### SEL_HEAT_SET (R189, R468) -/

section
variable {d : Desc} {s : State} {h : HeatSt} (hfor : heatFor d s (byt d.body 0 1) = .ok h)
include hfor

theorem bodySelHeatSet_shadows
    (hrange : rf (BitVec.ofNat 64 (byt d.body 8 15)) 57 52 ≤ rf (BitVec.ofNat 64 (byt d.body 8 15)) 51 46)
    (hidle : objBusy s (.heat (byt d.body 0 1)) = false) :
    bodySelHeatSet d s
      = (modH s (byt d.body 0 1) fun h => { h with selShadow := some (BitVec.ofNat 64 (byt d.body 8 15)) }, .done) := by
  have hin : ¬ hsProbeMax (BitVec.ofNat 64 (byt d.body 8 15)) < hsProbe (BitVec.ofNat 64 (byt d.body 8 15)) :=
    (Nat.succ_le_succ hrange).not_gt
  simp [bodySelHeatSet, withObj_ok hfor, hin, hidle]

theorem bodySelHeatSet_badField
    (hrange : rf (BitVec.ofNat 64 (byt d.body 8 15)) 51 46 < rf (BitVec.ofNat 64 (byt d.body 8 15)) 57 52) :
    bodySelHeatSet d s = (s, .fail .badField) := by
  have hout : hsProbeMax (BitVec.ofNat 64 (byt d.body 8 15)) < hsProbe (BitVec.ofNat 64 (byt d.body 8 15)) :=
    Nat.succ_lt_succ hrange
  simp [bodySelHeatSet, withObj_ok hfor, hout, failIf_true]

end

/-! ### FILTER_BIND, FILTER_UNBIND (R199, R468) -/

theorem getQ_of_seqFor {d : Desc} {s : State} {id : Nat} {q : SeqSt} (hfor : seqFor d s id = .ok q) : getQ s id = some q := by
  unfold seqFor at hfor
  split at hfor
  · cases hfor
  split at hfor
  · cases hfor
  rename_i x hx
  split at hfor
  · cases hfor
  split at hfor
  · cases hfor
  split at hfor
  · cases hfor
  · cases hfor
    exact hx

@[simp] theorem objBusy_renewBy (d : Desc) (s : State) (id : Nat) (k : ObjKey) : objBusy (renewBy d s id) k = objBusy s k := rfl

@[simp] theorem bitmapOk_renewBy (d : Desc) (s : State) (id off len bits : Nat) :
    bitmapOk (renewBy d s id) off len bits = bitmapOk s off len bits := rfl

/-- R199: a binding waits for the next step mark of a running sequence, and takes effect at once of any other. -/
theorem bindFilter_binds {s : State} {id : Nat} {q : SeqSt} (hq : getQ s id = some q) (b : Option (Nat × Nat)) :
    ∃ x, getQ (bindFilter s id b) id = some x ∧ (x.state = .running → x.filterNext = some b)
      ∧ (x.state ≠ .running → x.filter = b ∧ x.filterNext = none) := by
  rw [bindFilter, getQ_modQ, hq]
  refine ⟨_, rfl, ?_⟩
  dsimp only
  split
  · next hrun => exact ⟨fun _ => rfl, fun hstill => absurd hrun hstill⟩
  · next hstill => exact ⟨fun hrun => absurd hrun hstill, fun _ => ⟨rfl, rfl⟩⟩

section
variable {d : Desc} {s : State} {q : SeqSt} (hidle : objBusy s (.seq (byt d.body 0 5)) = false)
  (hq : seqFor d (renewBy d s (byt d.body 0 5)) (byt d.body 0 5) = .ok q)
include hidle hq

theorem bodyFilterBind_binds
    (hmap : bitmapOk s (byt d.body 8 15) (byt d.body 16 23) (ceilDiv (q.maxCtxM1 + 1) (max 1 (mT (seqModel s q)))) = true) :
    bodyFilterBind d s = (bindFilter (renewBy d s (byt d.body 0 5)) (byt d.body 0 5)
      (some (byt d.body 8 15, byt d.body 16 23)), .done) := by
  simp [bodyFilterBind, withObj_ok hq, hmap, hidle]

theorem bodyFilterUnbind_unbinds (hbound : (q.filterNext.getD q.filter).isSome) :
    bodyFilterUnbind d s = (bindFilter (renewBy d s (byt d.body 0 5)) (byt d.body 0 5) none, .done) := by
  have hsome : (q.filterNext.getD q.filter).isNone = false := Option.isNone_eq_false_iff.2 hbound
  simp only [bodyFilterUnbind, withObj_ok hq, objBusy_renewBy, failIf_neg hidle, failIf_neg hsome]

theorem bodyFilterUnbind_badState (hunbound : q.filterNext.getD q.filter = none) :
    bodyFilterUnbind d s = (renewBy d s (byt d.body 0 5), .fail .badState) := by
  simp [bodyFilterUnbind, withObj_ok hq, hidle, hunbound, failIf_true]

end

/-! ### AUDIT_READ (R207, R468) -/

theorem packElems_zeros {w : Nat} {l : List Nat} (h : ∀ x ∈ l, x = 0) : packElems w l = 0 := by
  induction l with
  | nil => rfl
  | cons x t ih =>
    obtain ⟨hx, ht⟩ := List.forall_mem_cons.1 h
    rw [packElems, hx, ih ht]
    simp

/-- What a filter takes out of a table reads as the default. -/
theorem Map.getD_filter_out {α : Type} {m : Map α} {p : Nat → α → Bool} {k : Nat} (h : ∀ v, p k v = false) (e : α) :
    (m.filter p).getD k e = e := by
  have hnone : (m.filter p).get? k = none := by
    refine Option.eq_none_iff_forall_ne_some.2 fun v hv => ?_
    have hkeep := Map.get?_filter hv
    rw [h v] at hkeep
    exact Bool.false_ne_true hkeep
  rw [Map.getD, hnone]
  rfl

theorem auditWords_clearAudit (s : State) (domain model : Nat) :
    auditWords (clearAudit s domain model) domain model = 0 := by
  refine packElems_zeros fun x hx => ?_
  obtain ⟨i, hi, rfl⟩ := List.mem_map.1 hx
  have hplace : ((domain * 65536 + model) * 4 + i) / 4 = domain * 65536 + model := by
    have hi4 := List.mem_range.1 hi
    omega
  exact Map.getD_filter_out (fun _ => by rw [hplace, bne_self_eq_false]) 0

theorem bodyAuditRead_reads {d : Desc} {s : State} {m : ModelSt} (hfor : modelFor d s (byt d.body 0 1) = .ok m)
    (hout : byt d.body 8 15 % 64 = 0) (hhost : hostStatus d.env.host = none) :
    bodyAuditRead d s =
      let t := emit s (.hostWrite d.port (byt d.body 8 15) 32 (auditWords s d.domain.toNat (byt d.body 0 1)))
      (if bit d.body 16 then clearAudit t d.domain.toNat (byt d.body 0 1) else t, .done) := by
  simp [bodyAuditRead, withObj_ok hfor, outOk, hout, putOut, hhost]

/-- Settles O24, command by command. -/
theorem selectorIsSet : Obligations.SelectorIsSet := by
  refine ⟨ends_of_body (body := bodySelHeatSet) (fun _ _ => rfl) fun d s ⟨⟨h, hfor⟩, hrange, hidle⟩ => ?_,
    ends_of_body (body := bodySelHeatSet) (fun _ _ => rfl) fun d s ⟨⟨h, hfor⟩, hrange⟩ => ?_,
    ends_of_body (body := bodyFilterBind) (fun _ _ => rfl) fun d s ⟨hidle, q, hq, hmap⟩ => ?_,
    ends_of_body (body := bodyFilterUnbind) (fun _ _ => rfl) fun d s ⟨hidle, q, hq, hbound⟩ => ?_,
    ends_of_body (body := bodyFilterUnbind) (fun _ _ => rfl) fun d s ⟨hidle, q, hq, hunbound⟩ => ?_,
    ends_of_body (body := bodyAuditRead) (fun _ _ => rfl) fun d s ⟨⟨m, hfor⟩, hout, hhost⟩ => ?_⟩
  · have hk := getH_of_heatFor hfor
    rw [bodySelHeatSet_shadows hfor hrange hidle]
    exact ⟨rfl, h, hk, by rw [getH_modH, hk]; rfl, rfl⟩
  · rw [bodySelHeatSet_badField hfor hrange]
    exact ⟨rfl, rfl⟩
  · rw [bodyFilterBind_binds hidle hq hmap]
    exact ⟨rfl, rfl, bindFilter_binds (getQ_of_seqFor hq) _⟩
  · rw [bodyFilterUnbind_unbinds hidle hq hbound]
    exact ⟨rfl, rfl, bindFilter_binds (getQ_of_seqFor hq) none⟩
  · rw [bodyFilterUnbind_badState hidle hq hunbound]
    exact ⟨rfl, rfl⟩
  · rw [bodyAuditRead_reads hfor hout hhost]
    cases bit d.body 16 with
    | false => exact ⟨rfl, rfl, fun _ => rfl, fun hclear => absurd hclear Bool.false_ne_true⟩
    | true => exact ⟨rfl, rfl, fun hkeep => absurd hkeep.symm Bool.false_ne_true, fun _ => auditWords_clearAudit ..⟩

end Sys2Proof.Machine
end

section
/-! Chapter 7 of the spec, vector collections: a collection is created over its own frames, filled, thinned and destroyed
(R208, R209, R211, R468). -/

namespace Sys2Proof.Machine

/-! ### What drawing and writing the frames of a collection leaves (R209, R210) -/

theorem drawFrame_sel {s t : State} {sl dom f : Nat} {st : FrameState} (h : drawFrame s sl dom st = some (f, t)) :
    t.sel = s.sel := by
  unfold drawFrame at h
  split at h
  · cases h
  split at h
  · cases h
    rfl
  split at h
  · cases h
  · cases h
    rfl

theorem drawColl_sel {s t : State} {sl dom n ord : Nat} {l : List Nat} (h : drawColl s sl dom n ord = some (l, t)) :
    t.sel = s.sel := by
  induction n generalizing s ord l with
  | zero =>
    cases h
    rfl
  | succ n ih =>
    rw [drawColl] at h
    split at h
    · cases h
    rename_i f u hf
    obtain ⟨r, hr, hrt⟩ := Option.map_eq_some_iff.1 h
    cases hrt
    have hdrawn := drawFrame_sel hf
    exact (ih hr).trans hdrawn

theorem foldl_dropRef_only (l : List Nat) (s : State) : l.foldl dropRef s = { s with mem := (l.foldl dropRef s).mem } :=
  foldl_only (U := fun t s => { s with mem := t.mem }) (fun _ => rfl) (fun _ _ _ => rfl) dropRef (fun _ _ => rfl) l s

theorem collWrite_only (s : State) (f off n v : Nat) :
    collWrite s f off n v = { s with mem := (collWrite s f off n v).mem } := by
  unfold collWrite
  dsimp only
  split <;> rfl

theorem writeEntry_only (s : State) (c : CollSt) (e : IdxEntry) :
    writeEntry s c e = { s with mem := (writeEntry s c e).mem } := collWrite_only ..

theorem writeCents_only (s : State) (c : CollSt) : writeCents s c = { s with mem := (writeCents s c).mem } :=
  foldl_only (U := fun t s => { s with mem := t.mem }) (fun _ => rfl) (fun _ _ _ => rfl) _ (fun _ _ => collWrite_only ..) _ _

@[simp] theorem getColl_writeCents (s : State) (x : CollSt) (dom n : Nat) :
    getColl (writeCents s x) dom n = getColl s dom n := by
  rw [writeCents_only]
  rfl

/-! ### The index of a collection follows its items (R211) -/

section
variable (s : State) (dom n : Nat) (c : CollSt)

theorem getColl_collIndex : ∃ x, getColl (collIndex s dom n c) dom n = some x ∧ x.items = c.items := by
  unfold collIndex
  dsimp only
  split
  · rw [getColl_writeCents, getColl_setColl]
    exact ⟨_, rfl, rfl⟩
  · split
    · exact ⟨_, getColl_setColl .., rfl⟩
    · exact ⟨_, getColl_setColl .., rfl⟩

theorem collIndex_only :
    collIndex s dom n c = { s with mem := (collIndex s dom n c).mem, sel := (collIndex s dom n c).sel } := by
  unfold collIndex
  dsimp only
  split
  · rw [writeCents_only]
    rfl
  · split <;> rfl

end

/-! ### The collection that a command names (R455) -/

section
variable {d : Desc} {s : State} {c : CollSt}

theorem collFor_ok (hc : getColl s d.domain.toNat (byt d.body 0 0) = some c) : collFor d s = .ok (byt d.body 0 0, c) := by
  simp [collFor, hc]

/-- Where no command on a collection runs, none that changes it does. -/
theorem collBusy_of_still {s : State} {dom n : Nat} (h : (s.flights.any fun g => g.key == .coll dom n) = false) :
    collBusy s dom n = false := by
  rw [List.any_eq_false] at h
  refine List.any_eq_false.2 fun g hg => ?_
  simp [h g hg]

/-! ### COLL_CREATE (R208, R209, R468; assumption 42) -/

/-- Item frames, sketch frames and index frames of the collection that a COLL_CREATE asks for. -/
def askedItemFrames (d : Desc) : Nat := ceilDiv (byt d.body 16 18) (collPerFrame (byt d.body 1 1) (byt d.body 2 3))
def askedSketchFrames (d : Desc) : Nat := ceilDiv (byt d.body 16 18) (sketchesPerFrame (256 * 2 ^ byt d.body 4 4))
def askedIndexFrames (d : Desc) : Nat :=
  ceilDiv (centroidCount (byt d.body 16 18) (sTarget (BitVec.ofNat 64 (byt d.body 8 15))))
    (centsPerFrame (256 * 2 ^ byt d.body 4 4))

/-- The collection that a COLL_CREATE makes of its frames. -/
def newColl (d : Desc) (frames : List Nat) : CollSt :=
  { port := d.port, format := byt d.body 1 1, dim := byt d.body 2 3, sketchBits := 256 * 2 ^ byt d.body 4 4,
    params := BitVec.ofNat 64 (byt d.body 8 15), capacity := byt d.body 16 18, frames := frames,
    itemFrames := askedItemFrames d, sketchFrames := askedSketchFrames d }

/-- The fields of a COLL_CREATE are in their ranges (R208). -/
structure AskedInRange (d : Desc) : Prop where
  format : byt d.body 1 1 ≤ 1
  dimPos : 0 < byt d.body 2 3
  dimMax : byt d.body 2 3 ≤ 4096
  bits : byt d.body 4 4 ≤ 2
  capacity : 0 < byt d.body 16 18
  params : selBad (BitVec.ofNat 64 (byt d.body 8 15)) = false

theorem AskedInRange.notBad (h : AskedInRange d) :
    (decide (1 < byt d.body 1 1 ∨ byt d.body 2 3 = 0 ∨ 4096 < byt d.body 2 3 ∨ 1024 < 256 * 2 ^ byt d.body 4 4
      ∨ byt d.body 16 18 = 0) || selBad (BitVec.ofNat 64 (byt d.body 8 15))) = false := by
  obtain ⟨hformat, hpos, hmax, hbits, hcap, hparams⟩ := h
  have hpow : 2 ^ byt d.body 4 4 ≤ 2 ^ 2 := Nat.pow_le_pow_right (by decide) hbits
  rw [hparams, Bool.or_false]
  exact decide_eq_false (by omega)

theorem collCreate_makes {sl : Nat} {l : List Nat} {t : State} (hrange : AskedInRange d)
    (hfree : getColl s d.domain.toNat (byt d.body 0 0) = none) (hidle : collBusy s d.domain.toNat (byt d.body 0 0) = false)
    (hsl : sliceOf s d.domain.toNat = some sl)
    (hdraw : drawColl s sl d.domain.toNat (askedItemFrames d + askedSketchFrames d + askedIndexFrames d) 0 = some (l, t)) :
    collCreate d s = (setColl t d.domain.toNat (byt d.body 0 0) (newColl d l), .acceptDone .ok) := by
  have hnew : (getColl s d.domain.toNat (byt d.body 0 0)).isSome = false := by rw [hfree]; rfl
  have hframes : ((sliceOf s d.domain.toNat).bind fun sl =>
      drawColl s sl d.domain.toNat (askedItemFrames d + askedSketchFrames d + askedIndexFrames d) 0) = some (l, t) := by
    rw [hsl, Option.bind_some, hdraw]
  unfold askedItemFrames askedSketchFrames askedIndexFrames at hframes
  simp only [collCreate, failIf_neg hrange.notBad, failIf_neg hnew, failIf_neg hidle, hframes]
  rfl

theorem collCreate_badState (hrange : AskedInRange d) (hthere : (getColl s d.domain.toNat (byt d.body 0 0)).isSome) :
    collCreate d s = (s, .fail .badState) := by
  simp only [collCreate, failIf_neg hrange.notBad, hthere, failIf_true]

/-! ### COLL_DESTROY (R468) -/

theorem collDestroy_erases (hc : getColl s d.domain.toNat (byt d.body 0 0) = some c)
    (hstill : (s.flights.any fun g => g.key == .coll d.domain.toNat (byt d.body 0 0)) = false) :
    collDestroy d s = ({ s with
      mem := (c.frames.foldl dropRef s).mem
      sel := { s.sel with colls := s.sel.colls.erase (collKey d.domain.toNat (byt d.body 0 0)) } }, .acceptDone .ok) := by
  simp only [collDestroy, withObj_ok (collFor_ok hc), failIf_neg (collBusy_of_still hstill)]
  rw [foldl_dropRef_only]
  simp [hstill]

/-! ### COLL_INSERT (R211, R468; assumption 40) -/

theorem freshFrom_spec {α : Type} {m : Map α} {n i start fuel : Nat} (hn : 0 < n)
    (h : freshFrom m n start fuel = some i) : m.get? i = none ∧ i < n := by
  induction fuel generalizing start with
  | zero => cases h
  | succ fuel ih =>
    rw [freshFrom] at h
    split at h
    · exact ih h
    · rename_i hnot
      cases h
      exact ⟨by simpa [Map.has] using hnot, Nat.mod_lt _ hn⟩

/-- A chosen number is free and below the bound. -/
theorem chooseFree_spec {α : Type} {m : Map α} {n i : Nat} (h : chooseFree s m n = some i) : m.get? i = none ∧ i < n := by
  unfold chooseFree at h
  split at h
  · cases h
  · exact freshFrom_spec (by omega) h

section
variable (hc : getColl s d.domain.toNat (byt d.body 0 0) = some c)
  (hidle : collBusy s d.domain.toNat (byt d.body 0 0) = false)
include hc hidle

theorem collInsert_inserts {i : Nat} (hhost : hostStatus d.env.host = none)
    (hnew : (c.items.any fun _ y => y == byt d.body 8 15) = false) (hplace : chooseFree s c.items c.capacity = some i) :
    ∃ t x, collInsert d s = (collIndex t d.domain.toNat (byt d.body 0 0) x, .acceptDone .ok)
      ∧ x.items = c.items.set i (byt d.body 8 15) := by
  simp only [collInsert, withObj_ok (collFor_ok hc), failIf_neg hidle, failIf_neg hnew, hplace, withBuffer_none hhost]
  exact ⟨_, _, rfl, rfl⟩

theorem collInsert_exhausted (hnew : (c.items.any fun _ y => y == byt d.body 8 15) = false)
    (hfull : chooseFree s c.items c.capacity = none) : collInsert d s = (s, .fail .exhausted) := by
  simp only [collInsert, withObj_ok (collFor_ok hc), failIf_neg hidle, failIf_neg hnew, hfull]

/-! ### COLL_DELETE (R211, R468; assumption 45) -/

theorem collDelete_badState (hnone : c.items.find? (fun _ y => y == byt d.body 8 15) = none) :
    collDelete d s = (s, .fail .badState) := by
  simp only [collDelete, withObj_ok (collFor_ok hc), failIf_neg hidle, hnone]

end

/-- A deleted item leaves the items at once, and no command on the collection begins meanwhile. -/
theorem collDelete_erases {i y : Nat} (hc : getColl s d.domain.toNat (byt d.body 0 0) = some c)
    (hidle : collBusy s d.domain.toNat (byt d.body 0 0) = false)
    (hitem : c.items.find? (fun _ y => y == byt d.body 8 15) = some (i, y)) :
    ∃ t x, let u := collIndex t d.domain.toNat (byt d.body 0 0) x
      collDelete d s = (u, if u.flights.any fun g => g.key == .coll d.domain.toNat (byt d.body 0 0)
          then .accept (.coll d.domain.toNat (byt d.body 0 0)) else .acceptDone .ok)
        ∧ x.items = c.items.erase i ∧ u.flights = s.flights := by
  simp only [collDelete, withObj_ok (collFor_ok hc), failIf_neg hidle, hitem]
  refine ⟨_, _, rfl, rfl, ?_⟩
  rw [collIndex_only]
  split
  · rw [chargeDram_flights, writeEntry_only]
  · rfl

theorem collDelete_deletes {i y : Nat} (hc : getColl s d.domain.toNat (byt d.body 0 0) = some c)
    (hstill : (s.flights.any fun g => g.key == .coll d.domain.toNat (byt d.body 0 0)) = false)
    (hitem : c.items.find? (fun _ y => y == byt d.body 8 15) = some (i, y)) :
    ∃ t x, collDelete d s = (collIndex t d.domain.toNat (byt d.body 0 0) x, .acceptDone .ok)
      ∧ x.items = c.items.erase i := by
  obtain ⟨t, x, hdel, hitems, hflights⟩ := collDelete_erases hc (collBusy_of_still hstill) hitem
  rw [hflights, hstill] at hdel
  exact ⟨t, x, hdel, hitems⟩

end

/-- Settles O25, command by command. It rests on assumptions 40 (the index of a collection is built in the row that asks for
it), 42 (the numbers of frames follow from the entry sizes and the capacity) and 45 (a running COLL_QUERY does not make its
collection BUSY, and a COLL_DELETE or COLL_DESTROY ends after it). -/
theorem collectionsAreKept : Obligations.CollectionsAreKept := by
  refine ⟨ends_of_body (body := collCreate) (fun _ _ => rfl) ?_,
    ends_of_body (body := collCreate) (fun _ _ => rfl) ?_,
    ends_of_body (body := collDestroy) (fun _ _ => rfl) fun d s ⟨c, hc, hstill⟩ => ?_,
    ends_of_body (body := collInsert) (fun _ _ => rfl) fun d s ⟨hhost, c, i, hc, hidle, hnew, hplace⟩ => ?_,
    ends_of_body (body := collInsert) (fun _ _ => rfl) fun d s ⟨c, hc, hidle, hnew, hfull⟩ => ?_,
    ends_of_body (body := collDelete) (fun _ _ => rfl) fun d s ⟨c, i, hc, hstill, hitem⟩ => ?_,
    ends_of_body (body := collDelete) (fun _ _ => rfl) fun d s ⟨c, hc, hidle, hnone⟩ => ?_⟩
  · rintro d s ⟨hformat, hpos, hmax, hbits, hcap, hparams, hfree, hidle, sl, ⟨l, t⟩, hsl, hdraw⟩
    rw [collCreate_makes ⟨hformat, hpos, hmax, hbits, hcap, hparams⟩ hfree hidle hsl hdraw]
    refine ⟨rfl, newColl d l, getColl_setColl .., rfl, rfl, rfl, rfl, rfl, fun k hk => ?_⟩
    rw [← drawColl_sel hdraw]
    exact Map.get?_set_ne _ hk _
  · rintro d s ⟨hformat, hpos, hmax, hbits, hcap, hparams, hthere⟩
    rw [collCreate_badState ⟨hformat, hpos, hmax, hbits, hcap, hparams⟩ hthere]
    exact ⟨rfl, rfl⟩
  · rw [collDestroy_erases hc hstill]
    exact ⟨rfl, rfl, rfl⟩
  · obtain ⟨t, x, hins, hitems⟩ := collInsert_inserts hc hidle hhost hnew hplace
    obtain ⟨y, hy, hsame⟩ := getColl_collIndex t d.domain.toNat (byt d.body 0 0) x
    obtain ⟨hvacant, hin⟩ := chooseFree_spec hplace
    rw [hins]
    exact ⟨rfl, c, y, i, hc, hy, hvacant, hin, hsame.trans hitems⟩
  · rw [collInsert_exhausted hc hidle hnew hfull]
    exact ⟨rfl, rfl⟩
  · obtain ⟨t, x, hdel, hitems⟩ := collDelete_deletes hc hstill hitem
    obtain ⟨y, hy, hsame⟩ := getColl_collIndex t d.domain.toNat (byt d.body 0 0) x
    rw [hdel]
    exact ⟨rfl, c, y, i, byt d.body 8 15, hc, hy, hitem, hsame.trans hitems⟩
  · rw [collDelete_badState hc hidle hnone]
    exact ⟨rfl, rfl⟩

end Sys2Proof.Machine
end

section
/-! Chapter 7 of the spec, queries of a collection: one answers at once, or waits for the other contributors until its
timeout (R212, R213, R316, R469). -/

namespace Sys2Proof.Machine

/-! ### COLL_QUERY (R212, R213, R469) -/

@[simp] theorem putRecords_sel (s : State) (dom : Nat) (p : Port) (addr : Nat) (l : List (Nat × Nat)) :
    (putRecords s dom p addr l).sel = s.sel := by
  unfold putRecords
  split
  · rfl
  · rw [emit_sel, chargePcie_sel]

theorem putRecords_out (s : State) (dom : Nat) (p : Port) (addr : Nat) {l : List (Nat × Nat)} (hl : l ≠ []) :
    (putRecords s dom p addr l).out.head? = some (.hostWrite p addr (12 * l.length) (collBytes l)) := by
  rw [putRecords, if_neg (by rwa [List.isEmpty_iff])]
  rfl

/-- What a query finds in this node's collection. -/
def queryFound (d : Desc) (s : State) (c : CollSt) : List (Nat × Nat) × Bool := collSearch s c d.body (hostData d)

/-- A query's vector and what it reads are charged to its domain. -/
def chargeQuery (d : Desc) (s : State) (c : CollSt) : State :=
  chargeDram (chargePcie s d.domain.toNat false (c.dim * collElem c.format)) d.domain.toNat false
    (c.index.entries.length * sketchEntry c.sketchBits + (queryFound d s c).1.length * collSlot c.format c.dim)

theorem chargeQuery_only (d : Desc) (s : State) (c : CollSt) :
    chargeQuery d s c = { s with acct := (chargeQuery d s c).acct } := by
  rw [chargeQuery, chargeDram_only, chargePcie_only]

theorem chargeQuery_ns (d : Desc) (s : State) (c : CollSt) : (chargeQuery d s c).ns = s.ns := by
  rw [State.ns, State.ns, chargeQuery_only]

/-- A query as it waits at its merge node from a time on, with what it has found there (R213). -/
def newMerge (d : Desc) (now : Nat) (found : List (Nat × Nat) × Bool) : MergeSt :=
  { k := byt d.body 2 3, need := fld d.body 101 96 + 1, deadline := now + byt d.body 14 15 * 1000000,
    outAddr := byt d.body 32 39, port := d.port, got := [byt d.body 13 13], records := found.1, isPartial := found.2 }

section
variable {d : Desc} {s : State} {c : CollSt} (hc : getColl s d.domain.toNat (byt d.body 0 0) = some c)
  (hgood : queryBad s c d.body = false)
include hc hgood

theorem collQuery_busy
    (hwaits : s.sel.merges.has (mergeKey d.domain.toNat (byt d.body 0 0) (byt d.body 16 19)) = true) :
    collQuery d s = (s, .fail .busy) := by
  simp only [collQuery, withObj_ok (collFor_ok hc), failIf_neg hgood, hwaits, failIf_true]

variable (hhost : hostStatus d.env.host = none) (hnode : byt d.body 10 11 = s.nodeNo)
  (hnew : s.sel.merges.has (mergeKey d.domain.toNat (byt d.body 0 0) (byt d.body 16 19)) = false)
include hhost hnode hnew

/-- A query without other contributors is answered at once (assumption 40). -/
theorem collQuery_answers (halone : fld d.body 101 96 = 0) : collQuery d s =
    (putRecords (chargeQuery d s c) d.domain.toNat d.port (byt d.body 32 39) (queryFound d s c).1,
      .acceptDone (mergeStatus (queryFound d s c).2) (queryFound d s c).1.length 1) := by
  have hhere : byt d.body 10 11 = (chargeQuery d s c).nodeNo := by rw [chargeQuery_only, hnode]
  have hone : fld d.body 101 96 + 1 = 1 := by rw [halone]
  simp only [collQuery, withObj_ok (collFor_ok hc), failIf_neg hgood, failIf_neg hnew, withBuffer_none hhost]
  exact (if_pos hhere).trans (if_pos hone)

/-- A query with other contributors waits at its merge node. -/
theorem collQuery_waits (hothers : fld d.body 101 96 ≠ 0) : collQuery d s =
    let t := chargeQuery d s c
    ({ t with sel := { t.sel with
        merges := t.sel.merges.set (mergeKey d.domain.toNat (byt d.body 0 0) (byt d.body 16 19))
          (newMerge d t.ns (queryFound d s c)) } },
      .accept (.coll d.domain.toNat (byt d.body 0 0)) (byt d.body 32 39) (byt d.body 16 19)) := by
  have hhere : byt d.body 10 11 = (chargeQuery d s c).nodeNo := by rw [chargeQuery_only, hnode]
  have hmore : ¬ fld d.body 101 96 + 1 = 1 := by omega
  simp only [collQuery, withObj_ok (collFor_ok hc), failIf_neg hgood, failIf_neg hnew, withBuffer_none hhost]
  exact (if_pos hhere).trans (if_neg hmore)

end

/-! ### SELECT_MERGE, MERGE_TIMEOUT (R213, R316) -/

theorem selectMergeOp_dropped {s : State} {m : MsgRef} (h : deliverable s m 11 = none) : selectMergeOp s m = s := by
  rw [selectMergeOp, h]

/-- A merge with one more contributor's records. -/
def addContributor (x : MergeSt) (r : RecvMsg) : MergeSt :=
  { x with
    got := x.got ++ [fld r.ext 87 82]
    records := bestRecords x.k (x.records ++ (elems 96 r.data (r.total / 12)).map fun w => (w % 2 ^ 64, w / 2 ^ 64))
    isPartial := x.isPartial || fld r.ext 81 66 == Status.partly.code }

theorem length_bestRecords_le (k : Nat) (l : List (Nat × Nat)) : (bestRecords k l).length ≤ k := List.length_take_le ..

/-- R213: a contributor's records are merged, and the merge waits on for the rest. -/
theorem selectMergeOp_merges {s : State} {m : MsgRef} {q : QueueSt} {r : RecvMsg} {x : MergeSt}
    (hmsg : deliverable s m 11 = some (q, r))
    (hx : (delivered s m.queue).sel.merges.get? (mergeKey q.domain (fld r.ext 95 88) (fld r.ext 127 96)) = some x)
    (hmore : x.got.length + 1 < x.need) :
    selectMergeOp s m =
      let t := delivered s m.queue
      { t with sel := { t.sel with
        merges := t.sel.merges.set (mergeKey q.domain (fld r.ext 95 88) (fld r.ext 127 96)) (addContributor x r) } } := by
  have hwait : ¬ x.need ≤ (x.got ++ [fld r.ext 87 82]).length := by
    rw [List.length_append, List.length_singleton]
    exact hmore.not_ge
  simp only [selectMergeOp, hmsg, hx, if_neg hwait]
  rfl

theorem mergeLate_waits {s : State} {dom n id : Nat} {x : MergeSt} (hx : s.sel.merges.get? (mergeKey dom n id) = some x)
    (hearly : s.ns < x.deadline) : mergeLate s dom n id = s := by
  simp only [mergeLate, hx]
  exact if_pos hearly

theorem mergeLate_ends {s : State} {dom n id : Nat} {x : MergeSt} (hx : s.sel.merges.get? (mergeKey dom n id) = some x)
    (hlate : x.deadline ≤ s.ns) : mergeLate s dom n id = endMerge s dom n id x .timeout := by
  simp only [mergeLate, hx]
  exact if_neg hlate.not_gt

/-- Settles O26, command by command. It rests on assumptions 5 (a row whose condition is not met leaves the state as it is,
but for the clock), 40 (a query runs at once in the row that asks for it), 44 (PARTIAL is judged on the whole result) and 45
(a QUERY_ID that waits already is BUSY). -/
theorem collectionsAreSearched : Obligations.CollectionsAreSearched := by
  refine ⟨ends_of_body (body := collQuery) (fun _ _ => rfl) fun d s ⟨hhost, hnode, halone, c, hc, hgood, hnew⟩ => ?_,
    ends_of_body (body := collQuery) (fun _ _ => rfl) fun d s ⟨hhost, hnode, hothers, c, hc, hgood, hnew⟩ => ?_,
    ends_of_body (body := collQuery) (fun _ _ => rfl) fun d s ⟨c, hc, hgood, hwaits⟩ => ?_,
    fun _ _ hmsg => congrArg Host.Outcome.next (selectMergeOp_dropped hmsg),
    fun m s q r x hmsg hx hmore => ?_,
    fun _ _ _ _ _ _ hx hearly => congrArg Host.Outcome.next (mergeLate_waits hx hearly),
    fun _ _ _ _ _ _ hx hlate => congrArg Host.Outcome.next (mergeLate_ends hx hlate)⟩
  · rw [collQuery_answers hc hgood hhost hnode hnew halone]
    refine ⟨c, hc, rfl, fun hfound => putRecords_out _ _ _ _ hfound, ?_⟩
    rw [putRecords_sel, chargeQuery_only]
  · rw [collQuery_waits hc hgood hhost hnode hnew hothers]
    refine ⟨rfl, c, _, hc, Map.get?_set .., rfl, ?_, rfl, rfl⟩
    exact congrArg (· + byt d.body 14 15 * 1000000) (chargeQuery_ns d s c)
  · rw [collQuery_busy hc hgood hwaits]
    exact ⟨rfl, rfl⟩
  · exact ⟨_, addContributor x r, congrArg Host.Outcome.next (selectMergeOp_merges hmsg hx hmore), Map.get?_set .., rfl, rfl,
      length_bestRecords_le .., rfl⟩

end Sys2Proof.Machine
end

section
/-! Chapter 7 of the spec, selection: a request is posted, its query commits a list, a lap takes it, and audits compare it with
an exhaustive search (R186, R195, R201 to R203, R206, R207). -/

namespace Sys2Proof.Machine

/-! ### SEL.REQ (R186, R201) -/

/-- The query elements of a SEL.REQ, head after head. -/
def reqElems (s : State) (u : Uop) (r : Run) : Nat × List (Num × Num) × Option Nat :=
  operandElems s u r u.core.val (fld u.b.toNat 13 0) false (mHpg r.m * r.dk)

/-- The request that a SEL.REQ posts for its row. -/
def rowRequest (s : State) (u : Uop) (r : Run) (id : Nat) (q : SeqSt) : SelReq :=
  let v := (reqElems s u r).2.1.map elemValue
  let c := slotLimit r (refSlot u.a.toNat) q
  { cluster := u.cl.val, heat := u.heat, slot := refSlot u.a.toNat, group := refGroup u.a.toNat, layer := r.l.layer, seq := id,
    c := c, w0 := windowStart c (cWindow r.image) (max 1 (mT r.m)), step := decodeStep r, lap := r.l.number,
    heads := if v.all Num.isFinite then some ((chunks r.dk (mHpg r.m) v).map fun h => h.map toBits32) else none,
    k := cRetrieved r.image, selRec := r.h.selRec }

section
variable {s : State} {u : Uop} {r : Run} {id : Nat} {q : SeqSt}

theorem selReqOp_posts (htag : u.tagBad = false) (hslot : slotSeq s r (refSlot u.a.toNat) = some (id, q))
    (hfmt : (reqElems s u r).1 ≤ 1) : selReqOp r s u = postReq s q.domain (rowRequest s u r id q) := by
  have hstored : ¬ ((reqElems s u r).1 ≠ 0 ∧ (reqElems s u r).1 ≠ 1 ∧ (reqElems s u r).1 ≠ 3) := by omega
  rw [reqElems] at hstored
  simp only [selReqOp, hslot, if_neg hstored, htag, Bool.false_eq_true, if_false]
  rfl

/-- R201: a request joins a queue that has room and holds none for its row. -/
theorem postReq_joins {x : SelReq} (domain : Nat) (hnew : ∀ y ∈ s.sel.queue, y.cluster ≠ x.cluster ∨ y.heat ≠ x.heat)
    (hroom : (s.sel.queue.filter fun y => y.cluster == x.cluster).length < 512) :
    postReq s domain x = { s with sel := { s.sel with queue := s.sel.queue ++ [x] } } := by
  have hnone : ¬ s.sel.queue.any (sameReq x) = true := by
    intro hany
    obtain ⟨y, hy, hsame⟩ := List.any_eq_true.1 hany
    simp only [sameReq, Bool.and_eq_true, beq_iff_eq] at hsame
    obtain ⟨⟨⟨⟨hcluster, hheat⟩, -⟩, -⟩, -⟩ := hsame
    exact (hnew y hy).elim (fun h => h hcluster.symm) fun h => h hheat.symm
  rw [postReq, if_neg hnone, if_neg hroom.not_ge]

end

theorem selReq_queues (u : Uop) (r : Run) (id : Nat) (q : SeqSt) (s : State) (hrun : runOf s u = some r)
    (hpar : u.parity = false) (htag : u.tagBad = false) (hslot : slotSeq s r (refSlot u.a.toNat) = some (id, q))
    (hfmt : (reqElems s u r).1 ≤ 1) (hroom : (s.sel.queue.filter fun x => x.cluster == u.cl.val).length < 512)
    (hnew : ∀ x ∈ s.sel.queue, x.cluster ≠ u.cl.val ∨ x.heat ≠ u.heat) :
    ∃ (t : State) (x : SelReq), exec (.selReq u) s = .next t ∧ t.sel.queue = s.sel.queue ++ [x]
      ∧ x.cluster = u.cl.val ∧ x.heat = u.heat ∧ x.seq = id ∧ x.slot = refSlot u.a.toNat
      ∧ x.group = refGroup u.a.toNat ∧ x.layer = r.l.layer ∧ t = { s with sel := t.sel } := by
  have hexec : exec (.selReq u) s = .next (selReqOp r s u) := next_withRun hrun hpar _
  rw [selReqOp_posts htag hslot hfmt, postReq_joins q.domain hnew hroom] at hexec
  exact ⟨_, rowRequest s u r id q, hexec, rfl, rfl, rfl, rfl, rfl, rfl, rfl, rfl⟩

/-! ### SEL.TAKE (R81, R201, R203) -/

/-- The pages that a SEL.TAKE installs, each with whether its cluster's timetable reaches it. -/
def takenPages (s : State) (r : Run) (u : Uop) (q : SeqSt) (x : SelList) : List (LapPage × Bool) :=
  ((takePages r u.cl.val (refSlot u.a.toNat) (refGroup u.a.toNat) q x.pages).zipIdx).map fun e =>
    let ord := (r.v.work.pages.getD (rowKey (refSlot u.a.toNat) (refGroup u.a.toNat)) []).length + e.2
    let reached := decide (ord < maxPagesPerRow r.image)
      && (attended r.image (ttIndex s r.h u.cl.val)).contains (refWord (refSlot u.a.toNat) (refGroup u.a.toNat) ord)
    ({ e.1 with excluded := !reached || (getFr s e.1.frame).damaged }, reached)

theorem page_takenPages (s : State) (r : Run) (u : Uop) (q : SeqSt) (x : SelList) :
    ((takenPages s r u q x).map (·.1)).map (·.page)
      = (takePages r u.cl.val (refSlot u.a.toNat) (refGroup u.a.toNat) q x.pages).map (·.page) := by
  conv_rhs => rw [← List.zipIdx_map_fst 0 (takePages r u.cl.val (refSlot u.a.toNat) (refGroup u.a.toNat) q x.pages)]
  rw [takenPages, List.map_map, List.map_map, List.map_map]
  rfl

@[simp] theorem getCl_raisePage (s : State) (reason c d : Nat) (p : Port) (a id y g i f k e : Nat) :
    getCl (raisePage s reason c d p a id y g i f) k e = getCl s k e :=
  getCl_congr (by rw [raisePage_only]) ..

section
variable {s : State} {u : Uop} {r : Run} {id : Nat} {q : SeqSt} (hslot : slotSeq s r (refSlot u.a.toNat) = some (id, q))
include hslot

theorem selTakeOp_without_list
    (hnone : s.sel.lists.get? (listKey u.cl.val u.heat (refSlot u.a.toNat) (refGroup u.a.toNat) r.l.layer) = none) :
    selTakeOp r s u = charge s q.domain .selNone 1 := by
  simp only [selTakeOp, hslot, hnone, Option.filter_none]

/-- A committed list is installed in the lap; a page that the timetable does not reach is reported, and the list counts as
FRESH or STALE. -/
theorem selTakeOp_installs {x : SelList} (hv : getCl s u.heat u.cl.val = some r.v)
    (hx : s.sel.lists.get? (listKey u.cl.val u.heat (refSlot u.a.toNat) (refGroup u.a.toNat) r.l.layer) = some x)
    (hseq : x.seq = id) :
    ∃ t v, selTakeOp r s u = charge t q.domain (if x.step = decodeStep r then .selFresh else .selStale) 1
      ∧ getCl t u.heat u.cl.val = some v
      ∧ v.work.pages.getD (rowKey (refSlot u.a.toNat) (refGroup u.a.toNat)) []
        = r.v.work.pages.getD (rowKey (refSlot u.a.toNat) (refGroup u.a.toNat)) [] ++ (takenPages s r u q x).map (·.1)
      ∧ t = { s with heats := t.heats, funcs := t.funcs, out := t.out } := by
  have hmine : (some x).filter (fun x => x.seq == id) = some x := by
    rw [Option.filter_some, hseq, beq_self_eq_true, if_pos rfl]
  simp only [selTakeOp, hslot, hx, hmine, modCl_some _ hv]
  split
  · refine ⟨_, _, rfl, (getCl_raisePage ..).trans (getCl_setCl hv), Map.getD_set .., ?_⟩
    rw [raisePage_only]
    rfl
  · exact ⟨_, _, rfl, getCl_setCl hv, Map.getD_set .., rfl⟩

end

theorem selTake_installs (u : Uop) (r : Run) (id : Nat) (q : SeqSt) (x : SelList) (s : State) (hrun : runOf s u = some r)
    (hpar : u.parity = false) (hslot : slotSeq s r (refSlot u.a.toNat) = some (id, q))
    (hx : s.sel.lists.get? (listKey u.cl.val u.heat (refSlot u.a.toNat) (refGroup u.a.toNat) r.l.layer) = some x)
    (hseq : x.seq = id) :
    ∃ t, exec (.selTake u) s = .next t
      ∧ (getCl t u.heat u.cl.val).map (fun v =>
          (v.work.pages.getD (rowKey (refSlot u.a.toNat) (refGroup u.a.toNat)) []).map (·.page))
        = some ((r.v.work.pages.getD (rowKey (refSlot u.a.toNat) (refGroup u.a.toNat)) []
            ++ takePages r u.cl.val (refSlot u.a.toNat) (refGroup u.a.toNat) q x.pages).map (·.page))
      ∧ t.acct = (charge s q.domain (if x.step = decodeStep r then .selFresh else .selStale) 1).acct
      ∧ t.sel = s.sel ∧ t.seqs = s.seqs ∧ t.mem = s.mem ∧ t.scratch = s.scratch ∧ t.buffer = s.buffer := by
  have hv := getCl_of_runOf hrun
  have hexec : exec (.selTake u) s = .next (selTakeOp r s u) := next_withRun hrun hpar _
  obtain ⟨t, v, hop, hcl, hpages, honly⟩ := selTakeOp_installs hslot hv hx hseq
  rw [hop] at hexec
  refine ⟨_, hexec, ?_, ?_, ?_⟩
  · rw [getCl_congr (charge_heats ..), hcl, Option.map_some, hpages, List.map_append, List.map_append, page_takenPages]
  · rw [honly]
    rfl
  · rw [honly]
    exact ⟨rfl, rfl, rfl, rfl, rfl⟩

/-! ### SELECTOR_QUERY (R195 to R198, R201, R202) -/

theorem runQuery_idle {s : State} {c : Nat} (h : nextReq s c = none) : runQuery s c = s := by
  rw [runQuery, h]

/-- The list that a query commits for its row. -/
def committedList (s : State) (x : SelReq) (q : SeqSt) : SelList :=
  { seq := x.seq, step := x.step, pages := (queryList s x q).1, isPartial := (queryList s x q).2 }

/-- What a query finds does not depend on the requests that wait. -/
theorem queryList_queue (s : State) (l : List SelReq) (x : SelReq) (q : SeqSt) :
    queryList { s with sel := { s.sel with queue := l } } x q = queryList s x q := rfl

theorem runQuery_commits {s : State} {c : Nat} {x : SelReq} {q : SeqSt} (hreq : nextReq s c = some x)
    (hq : getQ s x.seq = some q) :
    ∃ sel bytes, runQuery s c = chargeDram { s with sel := sel } q.domain false bytes
      ∧ sel.queue = s.sel.queue.erase x
      ∧ sel.lists = s.sel.lists.set (listKey c x.heat x.slot x.group x.layer) (committedList s x q) := by
  have hsame : getQ { s with sel := { s.sel with queue := s.sel.queue.erase x } } x.seq = some q := hq
  simp only [runQuery, hreq, hsame, queryList_queue]
  exact ⟨_, _, rfl, rfl, rfl⟩

theorem selectorQuery_commits (cl : Cluster) (n : Nat) (x : SelReq) (q : SeqSt) (s : State)
    (hreq : nextReq (clockTo s n) cl.val = some x) (hq : getQ (clockTo s n) x.seq = some q) :
    ∃ t, exec (.selectorQuery cl n) s = .next t
      ∧ t.sel.queue = (clockTo s n).sel.queue.erase x
      ∧ (t.sel.lists.get? (listKey cl.val x.heat x.slot x.group x.layer)).map (·.pages)
          = some (queryList (clockTo s n) x q).1
      ∧ (t.sel.lists.get? (listKey cl.val x.heat x.slot x.group x.layer)).map (·.step) = some x.step
      ∧ t = { clockTo s n with sel := t.sel, acct := t.acct } := by
  obtain ⟨sel, bytes, hop, hqueue, hlists⟩ := runQuery_commits hreq hq
  refine ⟨_, congrArg Host.Outcome.next hop, ?_⟩
  rw [chargeDram_sel, hlists, Map.get?_set]
  refine ⟨hqueue, rfl, rfl, ?_⟩
  rw [chargeDram_only]

/-! ### RECALL_AUDIT, AUDIT_ABANDON (R206, R207) -/

@[simp] theorem getD_countAudit (s : State) (domain model place n : Nat) :
    (countAudit s domain model place n).sel.auditCounts.getD ((domain * 65536 + model) * 4 + place) 0
      = satAdd 64 (s.sel.auditCounts.getD ((domain * 65536 + model) * 4 + place) 0) n := Map.getD_upd ..

theorem getD_countAudit_ne (s : State) (domain model n : Nat) {i j : Nat} (h : i ≠ j) :
    (countAudit s domain model j n).sel.auditCounts.getD ((domain * 65536 + model) * 4 + i) 0
      = s.sel.auditCounts.getD ((domain * 65536 + model) * 4 + i) 0 :=
  Map.getD_upd_ne _ (fun hkey => h (Nat.add_left_cancel hkey)) ..

/-- A state that differs from another in its selector alone still does once an audit counter has risen. -/
theorem countAudit_only_of {s t : State} (h : t = { s with sel := t.sel }) (domain model place n : Nat) :
    countAudit t domain model place n = { s with sel := (countAudit t domain model place n).sel } := by
  generalize t.sel = x at h
  subst h
  rfl

/-- An audit leaves the queue of those that wait. -/
def takeAudit (s : State) (x : Audit) : State := { s with sel := { s.sel with audits := s.sel.audits.erase x } }

section
variable {s : State} {c : Nat} {x : Audit} {q : SeqSt}

theorem auditOp_busy (hreq : (nextReq s c).isSome) : auditOp s c = s := if_pos hreq

/-- R206, R207: the audit, its exact pages, and those of them that the query listed are counted. -/
theorem auditOp_counts (hidle : nextReq s c = none) (hx : nextAudit s c = some x) (hearly : auditLate s x = false)
    (hq : getQ s x.req.seq = some q) :
    ∃ exact same, auditOp s c = countAudit (countAudit (countAudit (takeAudit s x) q.domain q.model 0 1)
      q.domain q.model 1 exact) q.domain q.model 2 same := by
  have hfree : ¬ (nextReq s c).isSome = true := by simp [hidle]
  have hin : ¬ auditLate s x = true := by simp [hearly]
  have hsame : getQ { s with sel := { s.sel with audits := s.sel.audits.erase x } } x.req.seq = some q := hq
  simp only [auditOp, if_neg hfree, hx, if_neg hin, hsame]
  exact ⟨_, _, rfl⟩

theorem abandonAudit_counts (hx : nextAudit s c = some x) (hlate : auditLate s x = true) (hq : getQ s x.req.seq = some q) :
    abandonAudit s c = count (countAudit (takeAudit s x) q.domain q.model 3 1) 1 q.domain 2 := by
  have hsame : getQ { s with sel := { s.sel with audits := s.sel.audits.erase x } } x.req.seq = some q := hq
  simp only [abandonAudit, hx, if_pos hlate, hsame]
  rfl

theorem abandonAudit_waits (hx : nextAudit s c = some x) (hearly : auditLate s x = false) : abandonAudit s c = s := by
  simp only [abandonAudit, hx, hearly, Bool.false_eq_true, if_false]

end

theorem recallAudit_counts (cl : Cluster) (x : Audit) (q : SeqSt) (s : State) (hidle : nextReq s cl.val = none)
    (hx : nextAudit s cl.val = some x) (hearly : auditLate s x = false) (hq : getQ s x.req.seq = some q) :
    ∃ t, exec (.recallAudit cl) s = .next t ∧ t.sel.audits = s.sel.audits.erase x
      ∧ t.sel.auditCounts.getD ((q.domain * 65536 + q.model) * 4) 0
          = satAdd 64 (s.sel.auditCounts.getD ((q.domain * 65536 + q.model) * 4) 0) 1
      ∧ t = { s with sel := t.sel } := by
  obtain ⟨exact, same, hop⟩ := auditOp_counts hidle hx hearly hq
  refine ⟨_, congrArg Host.Outcome.next hop, rfl, ?_,
    countAudit_only_of (countAudit_only_of (countAudit_only_of rfl ..) ..) ..⟩
  rw [← Nat.add_zero ((q.domain * 65536 + q.model) * 4), getD_countAudit_ne _ _ _ _ (by decide),
    getD_countAudit_ne _ _ _ _ (by decide), getD_countAudit]
  rfl

theorem auditAbandon_counts (cl : Cluster) (x : Audit) (q : SeqSt) (s : State) (hx : nextAudit s cl.val = some x)
    (hlate : auditLate s x = true) (hq : getQ s x.req.seq = some q) :
    ∃ t, exec (.auditAbandon cl) s = .next t ∧ t.sel.audits = s.sel.audits.erase x
      ∧ t.sel.auditCounts.getD ((q.domain * 65536 + q.model) * 4 + 3) 0
          = satAdd 64 (s.sel.auditCounts.getD ((q.domain * 65536 + q.model) * 4 + 3) 0) 1
      ∧ t = { s with sel := t.sel, counters := t.counters } := by
  have honly := countAudit_only_of (s := s) (t := takeAudit s x) rfl q.domain q.model 3 1
  refine ⟨_, congrArg Host.Outcome.next (abandonAudit_counts hx hlate hq), rfl, ?_, ?_⟩
  · rw [count_sel, getD_countAudit]
    rfl
  · rw [honly]
    rfl

/-- Settles O27, from the request to its audit. It rests on assumptions 5 (a row whose condition is not met leaves the state as
it is, but for the clock) and 19 (a request runs at its SELECTOR_QUERY row and an audit at its RECALL_AUDIT row, each as one
step). -/
theorem pagesAreSelected : Obligations.PagesAreSelected :=
  ⟨selReq_queues,
    fun _ _ _ _ _ hrun hpar hslot hnone =>
      (next_withRun hrun hpar _).trans (congrArg Host.Outcome.next (selTakeOp_without_list hslot hnone)),
    selTake_installs, fun _ _ _ hnone => congrArg Host.Outcome.next (runQuery_idle hnone), selectorQuery_commits,
    fun _ _ hreq => congrArg Host.Outcome.next (auditOp_busy hreq), recallAudit_counts, auditAbandon_counts,
    fun _ _ _ hx hearly => congrArg Host.Outcome.next (abandonAudit_waits hx hearly)⟩

end Sys2Proof.Machine
end

section
/-! Chapter 8 of the spec: row records without holders are released, domino shifts move entries within a bank, and a sealed row
is offered for publication (R220, R224 to R226). -/

namespace Sys2Proof.Machine

/-! ### ROW_RECORD_RELEASE (R220) -/

/-- The row records once record `r` is released: it is gone, and its parent has one holder fewer. -/
def recordsWithout (records : Map RowRec) (r : Nat) (v : RowRec) : Map RowRec :=
  match v.parent with
  | some p => (records.erase r).modify p fun x => { x with holds := x.holds - 1 }
  | none => records.erase r

section
variable {records : Map RowRec} {r : Nat} {v : RowRec}

theorem get?_recordsWithout (records : Map RowRec) (r : Nat) (v : RowRec) : (recordsWithout records r v).get? r = none := by
  rw [recordsWithout]
  split
  case h_1 p _ =>
    by_cases hp : r = p
    · rw [← hp, Map.get?_modify, Map.get?_erase, Option.map_none]
    · rw [Map.get?_modify_ne _ hp, Map.get?_erase]
  case h_2 => exact Map.get?_erase ..

theorem get?_recordsWithout_parent {p : Nat} {x : RowRec} (hparent : v.parent = some p) (hp : p ≠ r)
    (hx : records.get? p = some x) : (recordsWithout records r v).get? p = some { x with holds := x.holds - 1 } := by
  simp only [recordsWithout, hparent]
  rw [Map.get?_modify, Map.get?_erase_ne _ hp, hx, Option.map_some]

theorem get?_recordsWithout_ne {k : Nat} (hk : k ≠ r) (hparent : v.parent ≠ some k) :
    (recordsWithout records r v).get? k = records.get? k := by
  rw [recordsWithout]
  split
  case h_1 p hp =>
    have hne : k ≠ p := fun h => hparent (h ▸ hp)
    rw [Map.get?_modify_ne _ hne, Map.get?_erase_ne _ hk]
  case h_2 => exact Map.get?_erase_ne _ hk

end

theorem releaseRecord_held {s : State} {r : Nat} {v : RowRec} (hv : s.dir.records.get? r = some v) (hheld : v.holds ≠ 0) :
    releaseRecord s r = s := by
  simp only [releaseRecord, hv, if_pos hheld]

/-- R220: the release of a record changes the records and, by the frames and the space that it gives back, the page memory. -/
theorem releaseRecord_releases {s : State} {r : Nat} {v : RowRec} (hv : s.dir.records.get? r = some v) (hfree : v.holds = 0) :
    releaseRecord s r = { s with dir := { s.dir with records := recordsWithout s.dir.records r v },
                                 mem := (releaseRecord s r).mem } := by
  have hgo : ¬ v.holds ≠ 0 := not_not_intro hfree
  simp only [releaseRecord, hv, if_neg hgo]
  rw [foldl_dropRef_only, recordsWithout]
  cases v.parent <;> rfl

theorem rowRecordRelease_releases (r : Nat) (v : RowRec) (s : State) (hv : s.dir.records.get? r = some v)
    (hfree : v.holds = 0) :
    ∃ t, exec (.rowRecordRelease r) s = .next t ∧ t.dir.records.get? r = none
      ∧ (∀ p x, v.parent = some p → p ≠ r → s.dir.records.get? p = some x →
          t.dir.records.get? p = some { x with holds := x.holds - 1 })
      ∧ (∀ k, k ≠ r → v.parent ≠ some k → t.dir.records.get? k = s.dir.records.get? k)
      ∧ t = { s with dir := { s.dir with records := t.dir.records }, mem := t.mem } :=
  ⟨_, congrArg Host.Outcome.next (releaseRecord_releases hv hfree), get?_recordsWithout ..,
    fun _ _ hparent hp hx => get?_recordsWithout_parent hparent hp hx,
    fun _ hk hparent => get?_recordsWithout_ne hk hparent, rfl⟩

/-! ### The banks at work (R224) -/

/-- Banks for which nothing waits do nothing. -/
theorem dirRun_of_empty {s : State} (h : s.dir.queues = .empty) : dirRun s = s := by
  have hfuel : dirFuel s = 0 := by
    rw [dirFuel, h]
    rfl
  rw [dirRun, hfuel, dirDrain]

/-- The state once a bank has taken the only job that waits. -/
def soleJobTaken (s : State) (b : Nat) : State := { s with dir := { s.dir with queues := Map.empty.set b [] } }

/-- A publication that waits alone, for a bank that is free, runs at once. -/
theorem dirRun_queueJob_node {s : State} {b id row : Nat} (hempty : s.dir.queues = .empty) (hwalk : attaching s = false)
    (hfree : shifting s b = false) :
    dirRun (queueJob s b (.node id row)) = publishNode (soleJobTaken s b) id row := by
  have hqueues : (queueJob s b (.node id row)).dir.queues = Map.empty.set b [.node id row] := by
    simp only [queueJob, hempty]
    rfl
  have hfuel : dirFuel (queueJob s b (.node id row)) = 1 := by
    rw [dirFuel, hqueues]
    rfl
  have hnext : (queueJob s b (.node id row)).dir.queues.find?
      (fun c l => !l.isEmpty && !shifting (queueJob s b (.node id row)) c) = some (b, [.node id row]) := by
    have hb : shifting (queueJob s b (.node id row)) b = false := hfree
    simp [hqueues, Map.find?, Map.set, Map.empty, insertKey, hb]
  have hstill : ¬ attaching (queueJob s b (.node id row)) = true := by
    rw [Bool.not_eq_true]
    exact hwalk
  have htaken : (Map.empty.set b [DirJob.node id row]).set b [] = Map.empty.set b [] := by simp [Map.set, Map.empty, insertKey]
  rw [dirRun, hfuel, dirDrain, if_neg hstill, hnext]
  simp only [dirDrain, runJob, hqueues, htaken]
  rfl

/-! ### DOMINO_SHIFT (R224) -/

section
variable {s : State} {b : Nat} {x : DirShift}

/-- The entry beside the EMPTY place moves into it, towards the goal, and leaves its own place to be written next. -/
theorem shiftStep_moves {e : DirEntry} {src : Nat} (hx : (dirBank s b).shift = some x)
    (hsrc : (if x.goal < x.hole then x.hole - 1 else x.hole + 1) = src) (hgoal : src ≠ x.goal) (hhole : x.hole ≠ x.goal)
    (he : (dirBank s b).entries.get? src = some e) :
    shiftStep s b = setDirBank s b { dirBank s b with
      entries := (dirBank s b).entries.set x.hole e, shift := some { x with hole := src } } := by
  simp only [shiftStep, hx, hsrc, he, if_neg hhole, if_neg hgoal]

theorem shiftStep_places (hx : (dirBank s b).shift = some x) (hgoal : x.goal = x.hole) (hlast : x.next = none) :
    shiftStep s b = setDirBank s b { dirBank s b with
      entries := (dirBank s b).entries.set x.goal x.entry, shift := none } := by
  simp only [shiftStep, hx, hgoal, hlast, if_true]

theorem dominoShift_of_empty (b : Fin 64) (h : (shiftStep s b.val).dir.queues = .empty) :
    exec (.dominoShift b) s = .next (shiftStep s b.val) := congrArg Host.Outcome.next (dirRun_of_empty h)

end

theorem dominoShift_moves {b : Fin 64} {x : DirShift} {e : DirEntry} {s : State} {src : Nat} (hempty : s.dir.queues = .empty)
    (hx : (dirBank s b.val).shift = some x) (hsrc : (if x.goal < x.hole then x.hole - 1 else x.hole + 1) = src)
    (hgoal : src ≠ x.goal) (hhole : x.hole ≠ x.goal) (he : (dirBank s b.val).entries.get? src = some e) :
    exec (.dominoShift b) s = .next (setDirBank s b.val { dirBank s b.val with
      entries := (dirBank s b.val).entries.set x.hole e, shift := some { x with hole := src } }) := by
  have hstep := shiftStep_moves hx hsrc hgoal hhole he
  rw [dominoShift_of_empty b (hstep ▸ hempty), hstep]

theorem dominoShift_down (b : Fin 64) (x : DirShift) (e : DirEntry) (s : State) (hempty : s.dir.queues = .empty)
    (hx : (dirBank s b.val).shift = some x) (hbelow : x.goal + 1 < x.hole)
    (he : (dirBank s b.val).entries.get? (x.hole - 1) = some e) :
    exec (.dominoShift b) s = .next (setDirBank s b.val { dirBank s b.val with
      entries := (dirBank s b.val).entries.set x.hole e, shift := some { x with hole := x.hole - 1 } }) :=
  dominoShift_moves hempty hx (if_pos (by omega)) (by omega) (by omega) he

theorem dominoShift_up (b : Fin 64) (x : DirShift) (e : DirEntry) (s : State) (hempty : s.dir.queues = .empty)
    (hx : (dirBank s b.val).shift = some x) (habove : x.hole + 1 < x.goal)
    (he : (dirBank s b.val).entries.get? (x.hole + 1) = some e) :
    exec (.dominoShift b) s = .next (setDirBank s b.val { dirBank s b.val with
      entries := (dirBank s b.val).entries.set x.hole e, shift := some { x with hole := x.hole + 1 } }) :=
  dominoShift_moves hempty hx (if_neg (by omega)) (by omega) (by omega) he

theorem dominoShift_places (b : Fin 64) (x : DirShift) (s : State) (hempty : s.dir.queues = .empty)
    (hx : (dirBank s b.val).shift = some x) (hgoal : x.goal = x.hole) (hlast : x.next = none) :
    exec (.dominoShift b) s = .next (setDirBank s b.val { dirBank s b.val with
      entries := (dirBank s b.val).entries.set x.goal x.entry, shift := none }) := by
  have hstep := shiftStep_places hx hgoal hlast
  rw [dominoShift_of_empty b (hstep ▸ hempty), hstep]

/-! ### NODE_PUBLICATION (R225, R226) -/

/-- The state once a row of a sequence is offered for publication or passed over. -/
def triedRow (s : State) (id row : Nat) : State := modQ s id fun q => { q with rowTried := row + 1 }

theorem getQ_triedRow {s : State} {id : Nat} {q : SeqSt} (hq : getQ s id = some q) (row : Nat) :
    getQ (triedRow s id row) id = some { q with rowTried := row + 1 } := by
  rw [triedRow, getQ_modQ, hq, Option.map_some]

/-- A change of a sequence that keeps its own attachment begins no walk. -/
theorem attaching_modQ {s : State} {id : Nat} {q : SeqSt} {g : SeqSt → SeqSt} (hq : getQ s id = some q)
    (hg : (g q).attach = q.attach) (hwalk : attaching s = false) : attaching (modQ s id g) = false := by
  have hnone : ∀ e ∈ s.seqs.l, ¬ e.2.attach.isSome = true := List.any_eq_false.1 hwalk
  have hget : s.seqs.get? id = some q := hq
  simp only [attaching, modQ, Map.modify, hget]
  refine List.any_eq_false.2 fun e he => ?_
  rcases mem_insertKey he with rfl | he
  · have hself := hnone (id, q) (mem_of_lookupKey hget)
    rwa [← hg] at hself
  · exact hnone e he

section
variable {s : State} {id row : Nat} {q : SeqSt} {m : ModelSt} {l : List Nat}

/-- R225: a sealed row of a model that does not publish, or not of the cursor's depth, is passed over. -/
theorem publicationOp_skips (hq : getQ s id = some q) (hm : getM s q.domain q.model = some m)
    (hrow : sealedRow s q q.rowTried = some l) (hskip : dPublish m = false ∨ cursorDepth q ≠ q.rowTried) :
    publicationOp s id = triedRow s id q.rowTried := by
  have hno : ¬ (dPublish m && cursorDepth q == q.rowTried) = true := by
    rw [Bool.and_eq_true, beq_iff_eq]
    rintro ⟨hpublish, hdepth⟩
    exact hskip.elim (fun h => absurd hpublish (Bool.eq_false_iff.1 h)) fun h => h hdepth
  simp only [publicationOp, hq, hm, hrow, if_neg hno, triedRow]

theorem publicationOp_offers (hq : getQ s id = some q) (hm : getM s q.domain q.model = some m)
    (hrow : sealedRow s q q.rowTried = some l) (hpublish : dPublish m = true) (hdepth : cursorDepth q = q.rowTried) :
    publicationOp s id = dirRun (queueJob (triedRow s id q.rowTried) (bankOf m (q.hashes.getD q.rowTried 0))
      (.node id q.rowTried)) := by
  have hyes : (dPublish m && cursorDepth q == q.rowTried) = true := by rw [hpublish, hdepth, beq_self_eq_true, Bool.and_self]
  simp only [publicationOp, hq, hm, hrow, if_pos hyes, triedRow]

/-- R226: a row without a hash is counted under PUB_NO_HASH and clears the cursor. -/
theorem publishNode_noHash (hq : getQ s id = some q) (hm : getM s q.domain q.model = some m)
    (hrow : sealedRow s q row = some l) (hhash : q.hashes.getD row 0 = 0) :
    publishNode s id row = countPub (modQ s id fun q' => { q' with cursor := none }) q.domain q.model .noHash := by
  simp only [publishNode, hq, hm, hrow, if_pos hhash]

end

/-- What a row that is taken at once and then counted leaves of the state. -/
theorem countPub_soleJobTaken (s : State) (id row b domain model : Nat) (g : SeqSt → SeqSt) (c : PubCount) :
    countPub (modQ (soleJobTaken (triedRow s id row) b) id g) domain model c
      = { s with seqs := (triedRow s id row).seqs.modify id g,
                 dir := { s.dir with
                   queues := Map.empty.set b [], counters := (countPub s domain model c).dir.counters } } := by
  simp only [countPub, modQ, soleJobTaken, triedRow]

theorem nodePublication_without_hash (id : Nat) (q : SeqSt) (m : ModelSt) (l : List Nat) (s : State)
    (hq : getQ s id = some q) (hm : getM s q.domain q.model = some m) (hrow : sealedRow s q q.rowTried = some l)
    (hpublish : dPublish m = true) (hdepth : cursorDepth q = q.rowTried) (hempty : s.dir.queues = .empty)
    (hwalk : attaching s = false) (hfree : shifting s (bankOf m (q.hashes.getD q.rowTried 0)) = false)
    (hhash : q.hashes.getD q.rowTried 0 = 0) :
    ∃ t, exec (.nodePublication id) s = .next t
      ∧ getQ t id = some { q with rowTried := q.rowTried + 1, cursor := none }
      ∧ t.dir.counters = (countPub s q.domain q.model .noHash).dir.counters
      ∧ t = { s with seqs := t.seqs, dir := { s.dir with queues := t.dir.queues, counters := t.dir.counters } } := by
  have hstill : attaching (triedRow s id q.rowTried) = false := attaching_modQ hq rfl hwalk
  have htried : getQ (soleJobTaken (triedRow s id q.rowTried) (bankOf m (q.hashes.getD q.rowTried 0))) id
      = some { q with rowTried := q.rowTried + 1 } := getQ_triedRow hq q.rowTried
  have hop := (publicationOp_offers hq hm hrow hpublish hdepth).trans (dirRun_queueJob_node hempty hstill hfree)
  rw [publishNode_noHash htried hm hrow hhash, countPub_soleJobTaken] at hop
  refine ⟨_, congrArg Host.Outcome.next hop, ?_, rfl, rfl⟩
  exact (Map.get?_modify ..).trans (congrArg (Option.map _) htried)

/-- Settles O21, event by event. It rests on assumptions 5 (a command whose condition is not met leaves the state as it is), 114
(which entries a shift moves; a bank's queue waits for attach walks) and 115 (a row is offered for publication once). -/
theorem directoryWorks : Obligations.DirectoryWorks :=
  ⟨fun _ _ _ hv hheld => congrArg Host.Outcome.next (releaseRecord_held hv hheld),
    fun r v s hv hfree _ => rowRecordRelease_releases r v s hv hfree,
    dominoShift_down, dominoShift_up, dominoShift_places,
    fun _ _ _ _ _ hq hm hrow hskip => congrArg Host.Outcome.next (publicationOp_skips hq hm hrow hskip),
    nodePublication_without_hash⟩

end Sys2Proof.Machine
end

section
/-! Chapter 9 of the spec: the decision that gives a free cluster to the ready domain with the largest deficit (R251). -/

namespace Sys2Proof.Machine

/-! ### Deficits (R251) -/

theorem sat40_pos {x : Int} (h : 0 < x) : 0 < sat40 x := by
  unfold sat40
  omega

theorem deficit_setDeficit (s : State) (c d : Nat) (x : Int) : deficit (setDeficit s c d x) c d = sat40 x :=
  Map.getD_set ..

theorem deficit_setDeficit_ne (s : State) (c : Nat) {d e : Nat} (h : e ≠ d) (x : Int) :
    deficit (setDeficit s c d x) c e = deficit s c e :=
  Map.getD_set_ne _ (fun hkey => h (Nat.add_left_cancel hkey)) ..

/-! ### How many refills are due -/

/-- The refills after which a domain with deficit `x` and a share of `w` for each refill is above 0. -/
def refillsDue (x : Int) (w : Nat) : Nat :=
  if 0 < x then 0 else if w = 0 then 0 else ((-x) / (w : Int)).toNat + 1

theorem refillsDue_of_pos {x : Int} (h : 0 < x) (w : Nat) : refillsDue x w = 0 := if_pos h

theorem pos_of_refillsDue_zero {x : Int} {w : Nat} (hw : 0 < w) (h : refillsDue x w = 0) : 0 < x := by
  by_contra hx
  rw [refillsDue, if_neg hx, if_neg hw.ne'] at h
  exact Nat.succ_ne_zero _ h

theorem pos_after_refillsDue (x : Int) {w : Nat} (hw : 0 < w) : 0 < x + (refillsDue x w * w : Nat) := by
  unfold refillsDue
  split
  case isTrue hx => rwa [Nat.zero_mul, Int.natCast_zero, Int.add_zero]
  case isFalse hx =>
    have hquot : 0 ≤ -x / (w : Int) := Int.ediv_nonneg (by omega) (by omega)
    have hover : -x < (-x / (w : Int) + 1) * w := Int.lt_ediv_add_one_mul_self (-x) (by omega)
    rw [if_neg hw.ne', Int.natCast_mul, Int.natCast_add, Int.toNat_of_nonneg hquot, Int.natCast_one]
    omega

theorem refills_eq_min (ds : List (Int × Nat)) : refills ds = (ds.map fun x => refillsDue x.1 x.2).min?.getD 0 := by
  cases ds with
  | nil => rfl
  | cons a ds =>
    rw [List.map_cons, List.min?_cons', List.foldl_map]
    exact congrArg (Option.getD · 0)
      (List.foldl_hom some (g₁ := fun m (x : Int × Nat) => min m (refillsDue x.1 x.2)) fun _ _ => rfl)

/-- The refill loop ends as soon as one domain is above 0. -/
theorem refills_least {ds : List (Int × Nat)} (h : ds ≠ []) :
    (∃ x ∈ ds, refillsDue x.1 x.2 = refills ds) ∧ ∀ x ∈ ds, refills ds ≤ refillsDue x.1 x.2 := by
  obtain ⟨m, hm⟩ : ∃ m, (ds.map fun x => refillsDue x.1 x.2).min? = some m :=
    Option.isSome_iff_exists.1 (List.isSome_min?_iff.2 (List.map_eq_nil_iff.not.2 h))
  have hrefills : refills ds = m := by rw [refills_eq_min, hm, Option.getD_some]
  rw [hrefills]
  obtain ⟨hmem, hleast⟩ := List.min?_eq_some_iff.1 hm
  exact ⟨List.mem_map.1 hmem, fun x hx => hleast _ (List.mem_map_of_mem hx)⟩

/-! ### Deficits after the refills -/

/-- What a domain gains by one refill: its weight times the quantum. -/
def refillShare (s : State) (d : Nat) : Nat := weightOf s d * quantum s

/-- A domain's deficit after `n` refills, before it is held to 40 bits. -/
def refilledBy (s : State) (n d : Nat) (x : Int) : Int :=
  min (x + (n * refillShare s d : Nat)) (refillShare s d : Nat)

theorem refilledBy_pos {s : State} {n d : Nat} {x : Int} (hx : 0 < x + (n * refillShare s d : Nat))
    (hshare : 0 < refillShare s d) : 0 < refilledBy s n d x :=
  lt_min hx (Int.natCast_pos.2 hshare)

/-- The domains of a list refilled `n` times in a cluster, one after the other, by the shares of state `s`. -/
def refillAll (s : State) (c n : Nat) (l : List Nat) (u : State) : State :=
  l.foldl (fun u d => setDeficit u c d (refilledBy s n d (deficit u c d))) u

theorem refillAll_only (s : State) (c n : Nat) (l : List Nat) (u : State) :
    refillAll s c n l u = { u with deficits := (refillAll s c n l u).deficits } :=
  foldl_only (U := fun t s => { s with deficits := t.deficits }) (fun _ => rfl) (fun _ _ _ => rfl) _ (fun _ _ => rfl) l u

theorem deficit_refillAll_of_not_mem (s : State) (c n : Nat) {l : List Nat} {x : Nat} (h : x ∉ l) (u : State) :
    deficit (refillAll s c n l u) c x = deficit u c x := by
  induction l generalizing u with
  | nil => rfl
  | cons d l ih =>
    obtain ⟨hd, hl⟩ := List.ne_and_not_mem_of_not_mem_cons h
    exact (ih hl _).trans (deficit_setDeficit_ne u c hd _)

theorem deficit_refillAll_of_mem (s : State) (c n : Nat) {l : List Nat} (hl : l.Nodup) {x : Nat} (h : x ∈ l) (u : State) :
    deficit (refillAll s c n l u) c x = sat40 (refilledBy s n x (deficit u c x)) := by
  induction l generalizing u with
  | nil => cases h
  | cons d l ih =>
    obtain ⟨hd, hl⟩ := List.nodup_cons.1 hl
    obtain rfl | hx := List.mem_cons.1 h
    · exact (deficit_refillAll_of_not_mem s c n hd _).trans (deficit_setDeficit u c x _)
    · have hne : x ≠ d := fun he => hd (he ▸ hx)
      exact (ih hl hx _).trans (congrArg (fun y => sat40 (refilledBy s n x y)) (deficit_setDeficit_ne u c hne _))

/-- The refills a decision over the domains `l` makes. -/
def refillCount (s : State) (c : Nat) (l : List Nat) : Nat := refills (l.map fun d => (deficit s c d, refillShare s d))

/-- The state a decision over the domains `l` leaves. -/
def refilled (s : State) (c : Nat) (l : List Nat) : State :=
  if refillCount s c l = 0 then s else refillAll s c (refillCount s c l) l s

theorem refilled_only (s : State) (c : Nat) (l : List Nat) :
    refilled s c l = { s with deficits := (refilled s c l).deficits } := by
  unfold refilled
  split
  · rfl
  · exact refillAll_only ..

theorem deficit_refilled_of_not_mem (s : State) (c : Nat) {l : List Nat} {x : Nat} (h : x ∉ l) :
    deficit (refilled s c l) c x = deficit s c x := by
  unfold refilled
  split
  · rfl
  · exact deficit_refillAll_of_not_mem s c _ h s

section
variable {s : State} {c : Nat} {l : List Nat}

theorem refillCount_least (hne : l ≠ []) :
    (∃ d ∈ l, refillsDue (deficit s c d) (refillShare s d) = refillCount s c l)
      ∧ ∀ d ∈ l, refillCount s c l ≤ refillsDue (deficit s c d) (refillShare s d) := by
  obtain ⟨⟨_, hmem, hdue⟩, hleast⟩ := refills_least (fun hnil => hne (List.map_eq_nil_iff.1 hnil))
  obtain ⟨d, hd, rfl⟩ := List.mem_map.1 hmem
  exact ⟨⟨d, hd, hdue⟩, fun d hd => hleast _ (List.mem_map_of_mem hd)⟩

theorem refilled_of_pos (h : ∃ x ∈ l, 0 < deficit s c x) : refilled s c l = s := by
  obtain ⟨x, hx, hpos⟩ := h
  have hle := (refillCount_least (s := s) (c := c) (List.ne_nil_of_mem hx)).2 x hx
  rw [refillsDue_of_pos hpos] at hle
  exact if_pos (Nat.le_zero.1 hle)

/-- The refills leave a domain above 0. -/
theorem exists_pos_refilled (hne : l ≠ []) (hnodup : l.Nodup) (hshare : ∀ x ∈ l, 0 < refillShare s x) :
    ∃ x ∈ l, 0 < deficit (refilled s c l) c x := by
  obtain ⟨⟨x, hx, hdue⟩, -⟩ := refillCount_least (s := s) (c := c) hne
  refine ⟨x, hx, ?_⟩
  unfold refilled
  split
  case isTrue hzero => exact pos_of_refillsDue_zero (hshare x hx) (hdue.trans hzero)
  case isFalse =>
    rw [deficit_refillAll_of_mem s c _ hnodup hx, ← hdue]
    exact sat40_pos (refilledBy_pos (pos_after_refillsDue _ (hshare x hx)) (hshare x hx))

end

/-! ### The domain that is chosen -/

/-- Domain `d` goes before domain `x`: its deficit is larger, or they tie and its number is not higher. -/
def GoesBefore (f : Nat → Int) (d x : Nat) : Prop := f x ≤ f d ∧ (f x = f d → d ≤ x)

/-- The one of two domains that the decision keeps. -/
def preferred (f : Nat → Int) (x d : Nat) : Nat := if f x < f d ∨ (f x = f d ∧ d < x) then d else x

section
variable {f : Nat → Int}

theorem GoesBefore.refl (d : Nat) : GoesBefore f d d := ⟨le_rfl, fun _ => le_rfl⟩

theorem GoesBefore.trans {a b d : Nat} (hab : GoesBefore f a b) (hbd : GoesBefore f b d) : GoesBefore f a d := by
  unfold GoesBefore at *
  omega

theorem preferred_goesBefore (x d : Nat) : GoesBefore f (preferred f x d) x ∧ GoesBefore f (preferred f x d) d := by
  unfold preferred GoesBefore
  split <;> omega

theorem preferred_eq_or (x d : Nat) : preferred f x d = x ∨ preferred f x d = d := (ite_eq_or_eq ..).symm

theorem foldl_preferred_mem (x : Nat) (l : List Nat) : l.foldl (preferred f) x ∈ x :: l := by
  induction l generalizing x with
  | nil => exact List.mem_singleton_self x
  | cons d l ih =>
    obtain hhead | hrest := List.mem_cons.1 (ih (preferred f x d))
    · rw [List.foldl_cons, hhead]
      obtain h | h := preferred_eq_or (f := f) x d
      · rw [h]
        exact List.mem_cons_self
      · rw [h]
        exact List.mem_cons_of_mem _ List.mem_cons_self
    · exact List.mem_cons_of_mem _ (List.mem_cons_of_mem _ hrest)

theorem foldl_preferred_goesBefore (x : Nat) (l : List Nat) : ∀ y ∈ x :: l, GoesBefore f (l.foldl (preferred f) x) y := by
  induction l generalizing x with
  | nil =>
    intro y hy
    rw [List.mem_singleton.1 hy]
    exact .refl x
  | cons d l ih =>
    have hlast := ih (preferred f x d) _ List.mem_cons_self
    obtain ⟨hx, hd⟩ := preferred_goesBefore (f := f) x d
    intro y hy
    obtain rfl | hy := List.mem_cons.1 hy
    · exact hlast.trans hx
    obtain rfl | hy := List.mem_cons.1 hy
    · exact hlast.trans hd
    · exact ih _ y (List.mem_cons_of_mem _ hy)

end

/-- The decision refills the ready domains and keeps the preferred one. -/
theorem decide251_cons (s : State) (c a : Nat) (l : List Nat) :
    decide251 s c (a :: l)
      = some (l.foldl (preferred (deficit (refilled s c (a :: l)) c)) a, refilled s c (a :: l)) :=
  congrArg (Option.map (·, refilled s c (a :: l)))
    (List.foldl_hom some (g₁ := preferred (deficit (refilled s c (a :: l)) c)) fun _ _ => (apply_ite some _ _ _).symm)

/-- Settles O56: the refills end with a domain above 0, and the choice among the domains keeps the preferred of each two. -/
theorem clustersGoToTheLargestDeficit : Obligations.ClustersGoToTheLargestDeficit := by
  refine ⟨fun _ _ => rfl, fun s c l hne hnodup _ hshare => ?_⟩
  obtain ⟨y, hy, hpos⟩ := exists_pos_refilled (s := s) (c := c) hne hnodup hshare
  obtain ⟨a, l, rfl⟩ := List.exists_cons_of_ne_nil hne
  have hfirst := foldl_preferred_goesBefore (f := deficit (refilled s c (a :: l)) c) a l
  exact ⟨_, _, decide251_cons s c a l, foldl_preferred_mem a l, hpos.trans_le (hfirst y hy).1, hfirst,
    fun _ _ hx => deficit_refilled_of_not_mem s c hx, refilled_of_pos, refilled_only s c _⟩

end Sys2Proof.Machine
end

section
/-! Chapter 10 of the spec, row operations: the parts of one group, said once (R272 to R275). -/

namespace Sys2Proof.Machine

/-- The operation that a channel works on next: the earliest that it has not finished (R275). -/
def nextRowOp (s : State) (ch : Nat) : Option RowOpSt := s.rowOps.find? fun o => decide (o.doneRows.getD ch 0 < o.rows)

/-- The spans of an operation's next group in a channel (R274). -/
def rowsNow (s : State) (ch : Nat) (o : RowOpSt) : Nat := min (groupSize s ch o.op) (o.rows - o.doneRows.getD ch 0)

/-- The operation after its next group in a channel. -/
def rowAdvanced (s : State) (ch : Nat) (o : RowOpSt) : RowOpSt :=
  { o with doneRows := o.doneRows.set ch (o.doneRows.getD ch 0 + rowsNow s ch o) }

/-- The traffic of an operation's next group in a channel (R254). -/
def rowCharged (s : State) (ch : Nat) (o : RowOpSt) : State :=
  chargeDram (chargeDram s o.domain true (2048 * rowsNow s ch o)) o.domain false
    (2048 * rowsNow s ch o * (if rowUsesB o.op then 2 else if rowUsesA o.op then 1 else 0))

/-- The spans of an operation's next group are written, but for a FAILED channel (assumption 22). -/
def spansWritten (s : State) (ch : Nat) (o : RowOpSt) : State :=
  if (getCh s ch).state = .failed then s
  else (List.range (rowsNow s ch o)).foldl (fun s i => rowSpan s ch (o.doneRows.getD ch 0 + i) o) (rowCharged s ch o)

/-- The group is written and its operation has advanced. -/
def rowLogged (s : State) (ch : Nat) (o : RowOpSt) : State :=
  { spansWritten s ch o with
    rowOps := (spansWritten s ch o).rowOps.map fun x => if x.id = o.id then rowAdvanced s ch o else x }

theorem rowGroupOp_of_none {s : State} {ch : Nat} (h : nextRowOp s ch = none) : rowGroupOp s ch = s := by
  unfold rowGroupOp
  rw [← nextRowOp, h]

theorem rowGroupOp_of_some {s : State} {ch : Nat} {o : RowOpSt} (h : nextRowOp s ch = some o) :
    rowGroupOp s ch = if rowDone (rowAdvanced s ch o) then rowFinish (rowLogged s ch o) (rowAdvanced s ch o)
      else rowLogged s ch o := by
  unfold rowGroupOp
  rw [← nextRowOp, h]
  rfl

end Sys2Proof.Machine
end

section
/-! Chapter 10 of the spec, the bulk window: whatever the node does, the window's bytes keep their one canonical form
(R269, assumption 4). -/

namespace Sys2Proof.Machine

/-! ### Commands that leave the queue, the window's bytes and the fuses alone -/

/-- The commands that may write the window's bytes or a fuse, and those that reset the node. -/
def writesKept : Instr → Bool
  | .porAssert .. | .railOutOfRange .. | .warmReset .. | .thermalTrip .. | .jtagExtest => true
  | .selftestComplete .. | .cryptoEraseDone .. => true
  | .lcProvision .. | .lcOperate .. | .ownerRotate .. | .lcReturn .. | .lcScrap .. => true
  | .coriskanoPacket .. | .readResp .. | .atomic .. | .atomicResp .. => true
  | .bulkWindowWrite .. | .rowOpGroup .. => true
  | _ => false

/-- Every other command keeps all three: one arm for each, in the order of `exec`. -/
theorem exec_keep {s t : State} : ∀ c : Instr, writesKept c = false → exec c s = .next t → keep t = keep s
  | .porAssert .., hc, _ | .selftestComplete .., hc, _ | .warmReset .., hc, _ | .railOutOfRange .., hc, _ => nomatch hc
  | .thermalTrip .., hc, _ | .jtagExtest, hc, _ | .rowOpGroup .., hc, _ | .cryptoEraseDone .., hc, _ => nomatch hc
  | .coriskanoPacket .., hc, _ | .readResp .., hc, _ | .atomic .., hc, _ | .atomicResp .., hc, _ => nomatch hc
  | .bulkWindowWrite .., hc, _ | .lcProvision .., hc, _ | .lcOperate .., hc, _ | .ownerRotate .., hc, _ => nomatch hc
  | .lcReturn .., hc, _ | .lcScrap .., hc, _ => nomatch hc
  | .porRelease .., _, h => execPorRelease_keep (h := h)
  | .crystalStable .., _, h => execCrystalStable_keep (h := h)
  | .referencePresent .., _, h => execReferencePresent_keep (h := h)
  | .pllLocked .., _, h => execPllLocked_keep (h := h)
  | .pllLockTimeout .., _, h => execPllLockTimeout_keep (h := h)
  | .calWindowTimeout .., _, h => execCalWindowTimeout_keep (h := h)
  | .dramTrainingDone .., _, h => execDramTrainingDone_keep (h := h)
  | .portConventionalReset .., _, h => execPortConventionalReset_keep (h := h)
  | .functionLevelReset .., _, h => execFunctionLevelReset_keep (h := h)
  | .pllLockLost .., _, h => execPllLockLost_keep (h := h)
  | .railRecovered .., _, h => execRailRecovered_keep (h := h)
  | .thermalSample .., _, h => execThermalSample_keep (h := h)
  | .cclkSwitch .., _, h => execCclkSwitch_keep (h := h)
  | .cclkSwitchDone .., _, h => execCclkSwitchDone_keep (h := h)
  | .jtagInstruction .., _, h => execJtagInstruction_keep (h := h)
  | .marginSample .., _, h => execMarginSample_keep (h := h)
  | .epochBoundary .., _, h => execEpochBoundary_keep (h := h)
  | .flushPoint .., _, h => execFlushPoint_keep (h := h)
  | .partnerSilenceTimeout .., _, h => execPartnerSilenceTimeout_keep (h := h)
  | .ptpMessage .., _, h => execPtpMessage_keep (h := h)
  | .announceTimeout .., _, h => execAnnounceTimeout_keep (h := h)
  | .holdoverDriftWarning .., _, h => execHoldoverDriftWarning_keep (h := h)
  | .timeReadLatch .., _, h => execTimeReadLatch_keep (h := h)
  | .stepRowWrite .., _, h => execStepRowWrite_keep (h := h)
  | .stepMark .., _, h => execStepMark_keep (h := h)
  | .lapStart .., _, h => execLapStart_keep (h := h)
  | .mxeAtt .., _, h => execMxeAtt_keep (h := h)
  | .mxeMm .., _, h => execMxeMm_keep (h := h)
  | .vecSmx .., _, h => execVecSmx_keep (h := h)
  | .vecCvt .., _, h => execVecCvt_keep (h := h)
  | .vecRot .., _, h => execVecRot_keep (h := h)
  | .vecNrm .., _, h => execVecNrm_keep (h := h)
  | .vecFin .., _, h => execVecFin_keep (h := h)
  | .vecMrg .., _, h => execVecMrg_keep (h := h)
  | .expPage .., _, h => execExpPage_keep (h := h)
  | .qenApp .., _, h => execQenApp_keep (h := h)
  | .qenSeal .., _, h => execQenSeal_keep (h := h)
  | .selReq .., _, h => execSelReq_keep (h := h)
  | .selTake .., _, h => execSelTake_keep (h := h)
  | .netBtn .., _, h => execNetBtn_keep (h := h)
  | .chnRd .., _, h => execChnRd_keep (h := h)
  | .chnWr .., _, h => execChnWr_keep (h := h)
  | .marHurdle .., _, h => execMarHurdle_keep (h := h)
  | .marEnd .., _, h => execMarEnd_keep (h := h)
  | .pageFaultResolved .., _, h => execPageFaultResolved_keep (h := h)
  | .lapEnd .., _, h => execLapEnd_keep (h := h)
  | .relayFold .., _, h => execRelayFold_keep (h := h)
  | .selectorQuery .., _, h => execSelectorQuery_keep (h := h)
  | .recallAudit .., _, h => execRecallAudit_keep (h := h)
  | .auditAbandon .., _, h => execAuditAbandon_keep (h := h)
  | .indexBuild .., _, h => execIndexBuild_keep (h := h)
  | .indexBuildComplete .., _, h => execIndexBuildComplete_keep (h := h)
  | .poolRefill .., _, h => execPoolRefill_keep (h := h)
  | .frameReclaim .., _, h => execFrameReclaim_keep (h := h)
  | .frameTest .., _, h => execFrameTest_keep (h := h)
  | .frameCopyCommit .., _, h => execFrameCopyCommit_keep (h := h)
  | .pageRepair .., _, h => execPageRepair_keep (h := h)
  | .reopenCopy .., _, h => execReopenCopy_keep (h := h)
  | .truncateCommit .., _, h => execTruncateCommit_keep (h := h)
  | .collectionFrameRenewal .., _, h => execCollectionFrameRenewal_keep (h := h)
  | .metadataRekey .., _, h => execMetadataRekey_keep (h := h)
  | .nodePublication .., _, h => execNodePublication_keep (h := h)
  | .dominoShift .., _, h => execDominoShift_keep (h := h)
  | .rowRecordRelease .., _, h => execRowRecordRelease_keep (h := h)
  | .refreshWindow .., _, h => execRefreshWindow_keep (h := h)
  | .dramRetrainPass .., _, h => execDramRetrainPass_keep (h := h)
  | .dmaFaultResolved .., _, h => execDmaFaultResolved_keep (h := h)
  | .dmaNoRoomTimeout .., _, h => execDmaNoRoomTimeout_keep (h := h)
  | .pcieCompletionTimeout .., _, h => execPcieCompletionTimeout_keep (h := h)
  | .diePersistentFailure .., _, h => execDiePersistentFailure_keep (h := h)
  | .leaseExpiry .., _, h => execLeaseExpiry_keep (h := h)
  | .handoffDeadline .., _, h => execHandoffDeadline_keep (h := h)
  | .forwardTimeout .., _, h => execForwardTimeout_keep (h := h)
  | .mergeTimeout .., _, h => execMergeTimeout_keep (h := h)
  | .pskExpiry .., _, h => execPskExpiry_keep (h := h)
  | .sessionIdleTimeout .., _, h => execSessionIdleTimeout_keep (h := h)
  | .promotion .., _, h => execPromotion_keep (h := h)
  | .reseed .., _, h => execReseed_keep (h := h)
  | .spillRequest .., _, h => execSpillRequest_keep (h := h)
  | .migration .., _, h => execMigration_keep (h := h)
  | .sliceDrainComplete .., _, h => execSliceDrainComplete_keep (h := h)
  | .domainResetContinue .., _, h => execDomainResetContinue_keep (h := h)
  | .courseVerifyDone .., _, h => execCourseVerifyDone_keep (h := h)
  | .revokeDrained .., _, h => execRevokeDrained_keep (h := h)
  | .ethFrameReceived .., _, h => execEthFrameReceived_keep (h := h)
  | .ethLinkDown .., _, h => execEthLinkDown_keep (h := h)
  | .ethLinkUp .., _, h => execEthLinkUp_keep (h := h)
  | .read .., _, h => execRead_keep (h := h)
  | .send .., _, h => execSend_keep (h := h)
  | .flush .., _, h => execFlush_keep (h := h)
  | .flushResp .., _, h => execFlushResp_keep (h := h)
  | .trigger .., _, h => execTrigger_keep (h := h)
  | .baton .., _, h => execBaton_keep (h := h)
  | .selectMerge .., _, h => execSelectMerge_keep (h := h)
  | .pageMove .., _, h => execPageMove_keep (h := h)
  | .pageReplicate .., _, h => execPageReplicate_keep (h := h)
  | .ack .., _, h => execAck_keep (h := h)
  | .nack .., _, h => execNack_keep (h := h)
  | .ackDelayTimer .., _, h => execAckDelayTimer_keep (h := h)
  | .retxTimeout .., _, h => execRetxTimeout_keep (h := h)
  | .rnrRetryTimeout .., _, h => execRnrRetryTimeout_keep (h := h)
  | .reasmIdleTimeout .., _, h => execReasmIdleTimeout_keep (h := h)
  | .mgmtSkipTimeout .., _, h => execMgmtSkipTimeout_keep (h := h)
  | .mgmtReplyTimeout .., _, h => execMgmtReplyTimeout_keep (h := h)
  | .calendarSlot .., _, h => execCalendarSlot_keep (h := h)
  | .egressFrameStart .., _, h => execEgressFrameStart_keep (h := h)
  | .workRequestSend .., _, h => execWorkRequestSend_keep (h := h)
  | .capReport .., _, h => execCapReport_keep (h := h)
  | .stripeReq .., _, h => execStripeReq_keep (h := h)
  | .stripeReply .., _, h => execStripeReply_keep (h := h)
  | .heartbeat .., _, h => execHeartbeat_keep (h := h)
  | .failNotice .., _, h => execFailNotice_keep (h := h)
  | .failAck .., _, h => execFailAck_keep (h := h)
  | .cmdForward .., _, h => execCmdForward_keep (h := h)
  | .cmdAnswer .., _, h => execCmdAnswer_keep (h := h)
  | .leaseRenew .., _, h => execLeaseRenew_keep (h := h)
  | .pairReq .., _, h => execPairReq_keep (h := h)
  | .pairReply .., _, h => execPairReply_keep (h := h)
  | .heldReport .., _, h => execHeldReport_keep (h := h)
  | .replDegraded .., _, h => execReplDegraded_keep (h := h)
  | .recordRepl .., _, h => execRecordRepl_keep (h := h)
  | .mapUpdate .., _, h => execMapUpdate_keep (h := h)
  | .seqLost .., _, h => execSeqLost_keep (h := h)
  | .seqRelease .., _, h => execSeqRelease_keep (h := h)
  | .ackRelease .., _, h => execAckRelease_keep (h := h)
  | .keyExchange .., _, h => execKeyExchange_keep (h := h)
  | .finish .., _, h => execFinish_keep (h := h)
  | .kemExchange .., _, h => execKemExchange_keep (h := h)
  | .pskExchange .., _, h => execPskExchange_keep (h := h)
  | .altSig .., _, h => execAltSig_keep (h := h)
  | .getCertificate .., _, h => execGetCertificate_keep (h := h)
  | .challenge .., _, h => execChallenge_keep (h := h)
  | .getMeasurements .., _, h => execGetMeasurements_keep (h := h)
  | .ideKm .., _, h => execIdeKm_keep (h := h)
  | .lockInterface .., _, h => execLockInterface_keep (h := h)
  | .pldmSetEffecter .., _, h => execPldmSetEffecter_keep (h := h)
  | .pldmReadSensor .., _, h => execPldmReadSensor_keep (h := h)
  | .cmdTailWrite .., _, h => execCmdTailWrite_keep (h := h)
  | .ringEnable .., _, h => execRingEnable_keep (h := h)
  | .ringDisable .., _, h => execRingDisable_keep (h := h)
  | .intCtrlWrite .., _, h => execIntCtrlWrite_keep (h := h)
  | .interruptHoldoffExpiry .., _, h => execInterruptHoldoffExpiry_keep (h := h)
  | .msixUnmask .., _, h => execMsixUnmask_keep (h := h)
  | .registerWrite .., _, h => execRegisterWrite_keep (h := h)
  | .queueDbSqTail .., _, h => execQueueDbSqTail_keep (h := h)
  | .queueDbRqTail .., _, h => execQueueDbRqTail_keep (h := h)
  | .queueDbCqHead .., _, h => execQueueDbCqHead_keep (h := h)
  | .queueDbCqArm .., _, h => execQueueDbCqArm_keep (h := h)
  | .bulkWindowRead .., _, h => execBulkWindowRead_keep (h := h)
  | .deviceQuery .., _, h => execDeviceQuery_keep (h := h)
  | .funcAssign .., _, h => execFuncAssign_keep (h := h)
  | .funcUnassign .., _, h => execFuncUnassign_keep (h := h)
  | .timeConfig .., _, h => execTimeConfig_keep (h := h)
  | .powerLimit .., _, h => execPowerLimit_keep (h := h)
  | .ctrlTransfer .., _, h => execCtrlTransfer_keep (h := h)
  | .ctrlTake .., _, h => execCtrlTake_keep (h := h)
  | .secStatus .., _, h => execSecStatus_keep (h := h)
  | .selftest .., _, h => execSelftest_keep (h := h)
  | .lcNonce .., _, h => execLcNonce_keep (h := h)
  | .zeroise .., _, h => execZeroise_keep (h := h)
  | .debugOpen .., _, h => execDebugOpen_keep (h := h)
  | .domainCreate .., _, h => execDomainCreate_keep (h := h)
  | .domainReset .., _, h => execDomainReset_keep (h := h)
  | .domainDestroy .., _, h => execDomainDestroy_keep (h := h)
  | .domainQuery .., _, h => execDomainQuery_keep (h := h)
  | .sliceCreate .., _, h => execSliceCreate_keep (h := h)
  | .sliceModify .., _, h => execSliceModify_keep (h := h)
  | .sliceDestroy .., _, h => execSliceDestroy_keep (h := h)
  | .sliceQuery .., _, h => execSliceQuery_keep (h := h)
  | .shareSet .., _, h => execShareSet_keep (h := h)
  | .arbSet .., _, h => execArbSet_keep (h := h)
  | .modelRegister .., _, h => execModelRegister_keep (h := h)
  | .modelUnregister .., _, h => execModelUnregister_keep (h := h)
  | .modelQuery .., _, h => execModelQuery_keep (h := h)
  | .weightKeyInstall .., _, h => execWeightKeyInstall_keep (h := h)
  | .weightLoad .., _, h => execWeightLoad_keep (h := h)
  | .weightUnload .., _, h => execWeightUnload_keep (h := h)
  | .memConfig .., _, h => execMemConfig_keep (h := h)
  | .seqCreate .., _, h => execSeqCreate_keep (h := h)
  | .seqFree .., _, h => execSeqFree_keep (h := h)
  | .seqTruncate .., _, h => execSeqTruncate_keep (h := h)
  | .seqQuery .., _, h => execSeqQuery_keep (h := h)
  | .seqGlobal .., _, h => execSeqGlobal_keep (h := h)
  | .frameQuery .., _, h => execFrameQuery_keep (h := h)
  | .heatCreate .., _, h => execHeatCreate_keep (h := h)
  | .heatSet .., _, h => execHeatSet_keep (h := h)
  | .heatQuery .., _, h => execHeatQuery_keep (h := h)
  | .heatStart .., _, h => execHeatStart_keep (h := h)
  | .heatStop .., _, h => execHeatStop_keep (h := h)
  | .heatDestroy .., _, h => execHeatDestroy_keep (h := h)
  | .courseLoad .., _, h => execCourseLoad_keep (h := h)
  | .courseUnload .., _, h => execCourseUnload_keep (h := h)
  | .courseQuery .., _, h => execCourseQuery_keep (h := h)
  | .prefixSearch .., _, h => execPrefixSearch_keep (h := h)
  | .prefixAttach .., _, h => execPrefixAttach_keep (h := h)
  | .prefixPublish .., _, h => execPrefixPublish_keep (h := h)
  | .prefixRetract .., _, h => execPrefixRetract_keep (h := h)
  | .prefixBulkLoad .., _, h => execPrefixBulkLoad_keep (h := h)
  | .prefixStats .., _, h => execPrefixStats_keep (h := h)
  | .selHeatSet .., _, h => execSelHeatSet_keep (h := h)
  | .selRebuild .., _, h => execSelRebuild_keep (h := h)
  | .filterBind .., _, h => execFilterBind_keep (h := h)
  | .filterUnbind .., _, h => execFilterUnbind_keep (h := h)
  | .auditRead .., _, h => execAuditRead_keep (h := h)
  | .collCreate .., _, h => execCollCreate_keep (h := h)
  | .collDestroy .., _, h => execCollDestroy_keep (h := h)
  | .collInsert .., _, h => execCollInsert_keep (h := h)
  | .collDelete .., _, h => execCollDelete_keep (h := h)
  | .collQuery .., _, h => execCollQuery_keep (h := h)
  | .netConfigPort .., _, h => execNetConfigPort_keep (h := h)
  | .netConfigAddresses .., _, h => execNetConfigAddresses_keep (h := h)
  | .netConfigLocality .., _, h => execNetConfigLocality_keep (h := h)
  | .pdCreate .., _, h => execPdCreate_keep (h := h)
  | .pdDestroy .., _, h => execPdDestroy_keep (h := h)
  | .regionRegister .., _, h => execRegionRegister_keep (h := h)
  | .regionRevoke .., _, h => execRegionRevoke_keep (h := h)
  | .queueCreate .., _, h => execQueueCreate_keep (h := h)
  | .queueModify .., _, h => execQueueModify_keep (h := h)
  | .queueReset .., _, h => execQueueReset_keep (h := h)
  | .queueDestroy .., _, h => execQueueDestroy_keep (h := h)
  | .cqCreate .., _, h => execCqCreate_keep (h := h)
  | .cqDestroy .., _, h => execCqDestroy_keep (h := h)
  | .shaperSet .., _, h => execShaperSet_keep (h := h)
  | .domainNetSet .., _, h => execDomainNetSet_keep (h := h)
  | .jobKeyInstall .., _, h => execJobKeyInstall_keep (h := h)
  | .placeConfig .., _, h => execPlaceConfig_keep (h := h)
  | .replQuery .., _, h => execReplQuery_keep (h := h)
  | .ownQuery .., _, h => execOwnQuery_keep (h := h)
  | .ownOffer .., _, h => execOwnOffer_keep (h := h)
  | .ownAccept .., _, h => execOwnAccept_keep (h := h)
  | .ownCommit .., _, h => execOwnCommit_keep (h := h)
  | .ownClaim .., _, h => execOwnClaim_keep (h := h)
  | .fence .., _, h => execFence_keep (h := h)
  | .rowOp .., _, h => execRowOp_keep (h := h)
  | .acctRead .., _, h => execAcctRead_keep (h := h)
  | .counterRead .., _, h => execCounterRead_keep (h := h)
  | .marginConfig .., _, h => execMarginConfig_keep (h := h)
  | .dramConfig .., _, h => execDramConfig_keep (h := h)
  | .dramStatus .., _, h => execDramStatus_keep (h := h)
  | .calLoad .., _, h => execCalLoad_keep (h := h)
  | .calQuery .., _, h => execCalQuery_keep (h := h)
  | .pcieLinkUp .., _, h => execPcieLinkUp_keep (h := h)
  | .getVersion .., _, h => execGetVersion_keep (h := h)
  | .negotiateAlgorithms .., _, h => execNegotiateAlgorithms_keep (h := h)
  | .endSession .., _, h => execEndSession_keep (h := h)
  | .stopInterface .., _, h => execStopInterface_keep (h := h)
  | .recordWalkDone .., _, h => execRecordWalkDone_keep (h := h)
  | .metadataRekeyDone .., _, h => execMetadataRekeyDone_keep (h := h)

/-! ### The canonical form through the shared operations -/

/-- What keeps the queue, the window's bytes and the fuses keeps the canonical form. -/
theorem bulkOk_of_keep {s t : State} (h : keep t = keep s) (hs : s.bulkOk) : t.bulkOk := by
  have hbulk : t.bulk = s.bulk := congrArg (·.2.1) h
  rwa [State.bulkOk, hbulk]

/-- The state in which a packet finds its queue: a management peer's queue is made at its first packet, and any other takes
the packet's domain (assumption 25). -/
def packetQueued (s : State) (k : Packet) : State :=
  let made := if k.mgmt ∧ (getWq s (packetQueue k)).isNone then setWq s (packetQueue k) { record := mgmtRecord k.srcNode } else s
  if k.mgmt then made else adoptDomain made (packetQueue k) k.domain

theorem packetQueued_keep (s : State) (k : Packet) : keep (packetQueued s k) = keep s := by
  have hmade (q : QueueSt) (c : Prop) [Decidable c] : keep (if c then setWq s (packetQueue k) q else s) = keep s := by
    split
    · exact setWq_keep ..
    · rfl
  unfold packetQueued
  dsimp only
  split
  · exact hmade _ _
  · exact (adoptDomain_keep ..).trans (hmade _ _)

/-- A reset of everything clears the window (assumption 96). -/
theorem bulkOk_of_cleared {s : State} (h : s.bulk = []) : s.bulkOk := by
  rw [State.bulkOk, h]
  exact memWf_nil

theorem memWf_foldl_memWriteN {m : List Host.Cell} (hm : memWf m = true) (dst n : Nat) (l : List (Nat × Nat)) :
    memWf (l.foldl (fun m v => memWriteN m (dst + v.1) n v.2) m) = true := by
  induction l generalizing m with
  | nil => exact hm
  | cons a l ih => exact ih (memWf_memWriteN hm ..)

section
variable {s : State} (hs : s.bulkOk)
include hs

theorem bulkPut_bulkOk (off data len : Nat) : (bulkPut s off data len).bulkOk := by
  induction len with
  | zero => exact hs
  | succ n ih =>
    rw [bulkPut]
    split
    · exact ih
    · exact memWf_memWrite ih _ _

theorem regionPut_bulkOk (r : RegionSt) (off len data : Nat) : (regionPut s r off len data).bulkOk := by
  unfold regionPut
  split
  · exact bulkOk_of_keep (by simp) hs
  · exact bulkPut_bulkOk (bulkOk_of_keep (chargeDram_keep ..) hs) _ _ _
  · exact hs

theorem failIf_bulkOk {k : State × Ans} (hk : k.1.bulkOk) (c : Bool) (st : Status) : (failIf c st s k).1.bulkOk := by
  unfold failIf
  split
  · exact hs
  · exact hk

theorem withToken_bulkOk {k : State → State × Ans} (hk : ∀ u : State, u.bulkOk → (k u).1.bulkOk) (d : Desc)
    (listed : Nat → Bool) : (withToken d s listed k).1.bulkOk := by
  have hused : (useNonce s).bulkOk := bulkOk_of_keep (useNonce_keep s) hs
  unfold withToken withBuffer
  split
  · dsimp only
    split
    · exact hs
    split
    · exact hused
    split
    · exact hused
    · exact hk _ hused
  · exact bulkOk_of_keep (hostFault_keep ..) hs

theorem runHuavo_bulkOk {body : Desc → State → State × Ans} (hbody : ∀ d (u : State), u.bulkOk → (body d u).1.bulkOk)
    {r : HRow} {d : Desc} {t : State} (h : runHuavo r body d s = .next t) : t.bulkOk := by
  cases h
  have hfetched : (fetchCmd s d).bulkOk := bulkOk_of_keep (fetchCmd_keep ..) hs
  unfold huavo
  dsimp only
  split
  · split
    · exact bulkOk_of_keep (finishAns_keep ..) hfetched
    split
    · exact bulkOk_of_keep (by simp) hfetched
    · exact bulkOk_of_keep (finishAns_keep ..) (hbody _ _ (bulkOk_of_keep (touchSession_keep ..) hfetched))
  · exact hs

/-! ### Commands that blow fuses (R416 to R420) -/

theorem fuseFault_bulkOk : (fuseFault s).bulkOk := bulkOk_of_keep (fuseFault_keep s) hs

theorem lcProvision_bulkOk (d : Desc) : (lcProvision d s).1.bulkOk := by
  refine failIf_bulkOk hs (failIf_bulkOk hs (withToken_bulkOk hs (fun u hu => ?_) _ _) _ _) _ _
  dsimp only
  split
  · exact bulkOk_of_keep (useFree_keep u) hu
  split
  · exact hu
  · exact fuseFault_bulkOk hu

theorem bodyLcOperate_bulkOk (d : Desc) : (bodyLcOperate d s).1.bulkOk := by
  refine failIf_bulkOk hs ?_ _ _
  dsimp only
  split
  · exact hs
  · exact fuseFault_bulkOk hs

theorem nextOwner_bulkOk {t : State} {ok : Bool} {o : BitVec 384} (h : nextOwner s ok o = some t) : t.bulkOk := by
  unfold nextOwner at h
  split at h <;> cases h <;> exact hs

theorem bodyOwnerRotate_bulkOk (d : Desc) : (bodyOwnerRotate d s).1.bulkOk := by
  refine failIf_bulkOk hs (withToken_bulkOk hs (fun u hu => ?_) _ _) _ _
  split
  · exact hu
  next hnext =>
    split
    · exact nextOwner_bulkOk hu hnext
    · exact fuseFault_bulkOk (nextOwner_bulkOk hu hnext)

theorem lcEnd_bulkOk (scrap : Bool) (d : Desc) : (lcEnd scrap d s).1.bulkOk := by
  refine failIf_bulkOk hs (failIf_bulkOk hs (withToken_bulkOk hs (fun u hu => ?_) _ _) _ _) _ _
  dsimp only
  split
  · exact bulkOk_of_keep (startErase_keep ..) hu
  split
  · exact hu
  · exact fuseFault_bulkOk hu

theorem bootTests_bulkOk (failed : Nat) (f : Flash) : (bootTests s failed f).bulkOk := by
  have hflash (u : State) (hu : u.bulkOk) : (flashRecord u f).bulkOk := bulkOk_of_keep (flashRecord_keep ..) hu
  unfold bootTests
  dsimp only
  split
  · exact bulkOk_of_keep (enterError_keep s failed) hs
  split
  · exact hflash _ hs
  · exact bulkOk_of_keep (startTraining_keep _) (hflash _ hs)

theorem execSelftestComplete_bulkOk (failed : Fin 8) (f : Flash) {t : State}
    (h : execSelftestComplete failed f s = .next t) : t.bulkOk := by
  cases h
  split
  · exact bootTests_bulkOk hs _ _
  split
  · exact bulkOk_of_keep (onDemandTests_keep ..) hs
  · exact hs

/-! ### Resets and the crypto-erase (R420, R501) -/

theorem ite_bulkOk {c : Prop} [Decidable c] {r : State} (hr : r.bulkOk) : (if c then r else s).bulkOk := by
  split
  · exact hr
  · exact hs

/-- A warm reset keeps the window's bytes (R501). -/
theorem warmOp_bulkOk (cycles : Nat) : (warmOp s cycles).bulkOk := by
  unfold warmOp
  split
  · exact hs
  split
  · exact bulkOk_of_cleared rfl
  · exact ite_bulkOk hs hs

theorem execCryptoEraseDone_bulkOk (ok : Bool) {t : State} (h : execCryptoEraseDone ok s = .next t) : t.bulkOk := by
  cases h
  split
  · exact hs
  split
  · exact bulkOk_of_cleared rfl
  · exact bulkOk_of_keep (finishWhere_keep ..) (fuseFault_bulkOk (bulkOk_of_cleared rfl))

/-! ### Messages that place bytes in a region (R306, R311, R313, R320) -/

theorem readRespOp_bulkOk (m : MsgRef) : (readRespOp s m).bulkOk := by
  unfold readRespOp
  split
  · exact hs
  split
  · exact bulkOk_of_keep (by simp) hs
  split
  · exact bulkOk_of_keep (by simp) hs
  · exact bulkOk_of_keep ((closeRequest_keep ..).trans (completeWr_keep ..)) (regionPut_bulkOk hs _ _ _ _)

theorem atomicOp_bulkOk (m : MsgRef) : (atomicOp s m).bulkOk := by
  unfold atomicOp
  split
  · exact hs
  split
  · exact bulkOk_of_keep (refuse_keep ..) hs
  · refine bulkOk_of_keep ((delivered_keep ..).trans (launchAnswer_keep ..)) ?_
    split
    · exact regionPut_bulkOk hs _ _ _ _
    · exact ite_bulkOk hs (regionPut_bulkOk hs _ _ _ _)

theorem atomicRespOp_bulkOk (m : MsgRef) : (atomicRespOp s m).bulkOk := by
  unfold atomicRespOp
  split
  · exact hs
  split
  · exact bulkOk_of_keep (by simp) hs
  · exact bulkOk_of_keep ((closeRequest_keep ..).trans (completeWr_keep ..)) (regionPut_bulkOk hs _ _ _ _)

theorem placePayload_bulkOk (qk : Nat) (k : Packet) (m : RecvMsg) : (placePayload s qk k m).1.bulkOk := by
  unfold placePayload
  split
  · split
    · exact regionPut_bulkOk hs _ _ _ _
    · exact hs
  split
  · split
    · split
      · exact regionPut_bulkOk hs _ _ _ _
      · exact hs
    · exact hs
  · exact hs

theorem openMessage_bulkOk {qk : Nat} {q : QueueSt} {k : Packet} {m : Option RecvMsg} {st : Option Status} {u : State}
    (h : openMessage s qk q k = (m, st, u)) : u.bulkOk := by
  have hkeep := openMessage_keep s qk q k
  rw [h] at hkeep
  exact bulkOk_of_keep hkeep hs

theorem placePacket_bulkOk (qk : Nat) (k : Packet) : (placePacket s qk k).bulkOk := by
  unfold placePacket
  split
  · exact hs
  split
  next hopen => exact bulkOk_of_keep (count_keep ..) (openMessage_bulkOk hs hopen)
  next hopen => exact bulkOk_of_keep (refusePacket_keep ..) (openMessage_bulkOk hs hopen)
  next m _ _ hopen =>
    have hu := openMessage_bulkOk hs hopen
    dsimp only
    split
    · exact bulkOk_of_keep (refusePacket_keep ..) hu
    split
    · exact bulkOk_of_keep (count_keep ..) hu
    split
    · exact bulkOk_of_keep (by simp) hu
    · refine bulkOk_of_keep ?_ (placePayload_bulkOk hu qk k m)
      split
      · simp
      · split <;> simp

theorem packetOp_bulkOk (k : Packet) : (packetOp s k).bulkOk := by
  have hin : (ingress s k).1.bulkOk := bulkOk_of_keep (ingress_keep ..) hs
  have hqueue : (packetQueued (ingress s k).1 k).bulkOk := bulkOk_of_keep (packetQueued_keep ..) hin
  unfold packetOp
  dsimp only
  split
  · exact hin
  split
  · exact hqueue
  split
  · exact bulkOk_of_keep (sendNack_keep ..) hqueue
  split
  · split
    · exact bulkOk_of_keep (refusePacket_keep ..) hqueue
    · exact placePacket_bulkOk hqueue _ _
  · exact bulkOk_of_keep (sendAck_keep ..) hqueue
  · exact bulkOk_of_keep (count_keep ..) hqueue

/-! ### The host's writes and row operations (R271, R274) -/

theorem bulkWriteOp_bulkOk (p : Port) (off len data : Nat) : (bulkWriteOp s p off len data).bulkOk := by
  have hput : (bulkPut (chargePcie (chargeDram s 0 true len) 0 false len) off data len).bulkOk :=
    bulkPut_bulkOk (bulkOk_of_keep (by simp) hs) _ _ _
  unfold bulkWriteOp
  split
  · exact bulkOk_of_keep (by simp) hs
  dsimp only
  split
  · exact bulkOk_of_keep (by simp) hput
  · exact hput

theorem foldl_bulkOk {α : Type} {f : State → α → State} (hf : ∀ (u : State) a, u.bulkOk → (f u a).bulkOk) (l : List α) :
    (l.foldl f s).bulkOk := by
  induction l generalizing s with
  | nil => exact hs
  | cons a l ih => exact ih (hf s a hs)

theorem rowSpan_bulkOk (ch row : Nat) (o : RowOpSt) : (rowSpan s ch row o).bulkOk := by
  unfold rowSpan State.bulkOk
  dsimp only
  exact memWf_foldl_memWriteN hs o.dst 256 _

theorem spansWritten_bulkOk (ch : Nat) (o : RowOpSt) : (spansWritten s ch o).bulkOk := by
  unfold spansWritten
  split
  · exact hs
  · have hcharged : (rowCharged s ch o).bulkOk := bulkOk_of_keep ((chargeDram_keep ..).trans (chargeDram_keep ..)) hs
    exact foldl_bulkOk hcharged (fun _ _ hu => rowSpan_bulkOk hu _ _ _) _

theorem rowGroupOp_bulkOk (ch : Nat) : (rowGroupOp s ch).bulkOk := by
  cases hnext : nextRowOp s ch with
  | none => rwa [rowGroupOp_of_none hnext]
  | some o =>
    have hlogged : (rowLogged s ch o).bulkOk := spansWritten_bulkOk hs ch o
    rw [rowGroupOp_of_some hnext]
    exact ite_bulkOk hlogged (bulkOk_of_keep (rowFinish_keep ..) hlogged)

end

/-! ### Every step -/

theorem exec_bulkOk {c : Instr} {s t : State} (hs : s.bulkOk) (h : exec c s = .next t) : t.bulkOk := by
  cases hc : writesKept c with
  | false => exact bulkOk_of_keep (exec_keep c hc h) hs
  | true =>
    cases c with
    | porAssert | railOutOfRange | thermalTrip => cases h; exact ite_bulkOk hs (bulkOk_of_cleared rfl)
    | jtagExtest => cases h; exact ite_bulkOk (bulkOk_of_cleared rfl) hs
    | warmReset n => cases h; exact warmOp_bulkOk hs n
    | selftestComplete failed f => exact execSelftestComplete_bulkOk hs failed f h
    | cryptoEraseDone ok => exact execCryptoEraseDone_bulkOk hs ok h
    | lcProvision => exact runHuavo_bulkOk hs (fun d _ hu => lcProvision_bulkOk hu d) h
    | lcOperate => exact runHuavo_bulkOk hs (fun d _ hu => bodyLcOperate_bulkOk hu d) h
    | ownerRotate => exact runHuavo_bulkOk hs (fun d _ hu => bodyOwnerRotate_bulkOk hu d) h
    | lcReturn => exact runHuavo_bulkOk hs (fun d _ hu => lcEnd_bulkOk hu false d) h
    | lcScrap => exact runHuavo_bulkOk hs (fun d _ hu => lcEnd_bulkOk hu true d) h
    | coriskanoPacket k => cases h; exact packetOp_bulkOk (bulkOk_of_keep (clockTo_keep ..) hs) k
    | readResp m => cases h; exact readRespOp_bulkOk (bulkOk_of_keep (clockTo_keep ..) hs) m
    | atomic m => cases h; exact atomicOp_bulkOk (bulkOk_of_keep (clockTo_keep ..) hs) m
    | atomicResp m => cases h; exact atomicRespOp_bulkOk (bulkOk_of_keep (clockTo_keep ..) hs) m
    | bulkWindowWrite p off len data => cases h; exact ite_bulkOk hs (bulkWriteOp_bulkOk hs p off len data)
    | rowOpGroup c => cases h; exact rowGroupOp_bulkOk hs c.val
    | _ => nomatch hc

/-- Settles O53: the front command runs over the rest of the queue, which holds the same window, and a cycle of the clock
leaves the window alone. -/
theorem bulkWindowStaysCanonical : Obligations.BulkWindowStaysCanonical := by
  intro s t hs h
  unfold step at h
  split at h
  · cases h
    exact bulkOk_of_keep (tclkCycle_keep s) hs
  · exact exec_bulkOk (s := s.rest) hs h

end Sys2Proof.Machine
end

section
/-! Chapter 10 of the spec, row operations: they are accepted in order, and in each channel the earliest that is not
finished runs (R273 to R275, R472). -/

namespace Sys2Proof.Machine

/-! ### ROW_OP (R273, R472) -/

/-- BAD_FIELD of R273, judged on the fields of a ROW_OP payload. -/
def rowPayloadBad (d : Desc) (s : State) : Bool :=
  rowBad s (fld d.body 2 0) (fld d.body 63 32) (fld d.body 127 64) (fld d.body 191 128) (fld d.body 255 192)

/-- The operation that a ROW_OP payload asks for. -/
def rowAsked (d : Desc) (s : State) : RowOpSt :=
  { op := fld d.body 2 0, rows := fld d.body 63 32, srcA := fld d.body 127 64, srcB := fld d.body 191 128,
    dst := fld d.body 255 192, id := s.rowOpNo, domain := d.domain.toNat }

section
variable {d : Desc} {s : State}

theorem bodyRowOp_accepts (hgood : rowPayloadBad d s = false) (hroom : s.rowOps.length < 16) :
    bodyRowOp d s = ({ s with rowOps := s.rowOps ++ [rowAsked d s], rowOpNo := s.rowOpNo + 1 }, .accept (.row s.rowOpNo)) :=
  (failIf_neg hgood).trans (failIf_neg (decide_eq_false hroom.not_ge))

theorem bodyRowOp_busy (hgood : rowPayloadBad d s = false) (hfull : 16 ≤ s.rowOps.length) :
    bodyRowOp d s = (s, .fail .busy) := by
  refine (failIf_neg hgood).trans ?_
  rw [decide_eq_true hfull, failIf_true]

theorem bodyRowOp_badField (hbad : rowPayloadBad d s = true) : bodyRowOp d s = (s, .fail .badField) := by
  rw [rowPayloadBad] at hbad
  simp only [bodyRowOp, hbad, failIf_true]

end

/-! ### One group of a channel (R274, R275) -/

section
variable (s : State) (ch : Nat) (o : RowOpSt)

/-- R274: a group has at most 8 spans. -/
theorem groupSize_bounds (op : Nat) : 0 < groupSize s ch op ∧ groupSize s ch op ≤ 8 := by
  have hsizes : ∀ usesB sealed : Bool, 0 < (if usesB then (if sealed then 2 else 4) else (if sealed then 3 else 8))
      ∧ (if usesB then (if sealed then 2 else 4) else (if sealed then 3 else 8)) ≤ 8 := by decide
  exact hsizes _ _

theorem rowSpan_only (row : Nat) : rowSpan s ch row o = { s with bulk := (rowSpan s ch row o).bulk } := by
  unfold rowSpan
  dsimp only

theorem foldl_rowSpan_only (row : Nat → Nat) (l : List Nat) (u : State) :
    l.foldl (fun u i => rowSpan u ch (row i) o) u
      = { u with bulk := (l.foldl (fun u i => rowSpan u ch (row i) o) u).bulk } := by
  induction l generalizing u with
  | nil => rfl
  | cons i l ih => rw [List.foldl_cons, ih, rowSpan_only]

theorem rowCharged_only : rowCharged s ch o = { s with acct := (rowCharged s ch o).acct } := by
  unfold rowCharged
  rw [chargeDram_only, chargeDram_only s]

theorem spansWritten_only : spansWritten s ch o
    = { s with bulk := (spansWritten s ch o).bulk, acct := (spansWritten s ch o).acct } := by
  unfold spansWritten
  split
  · rfl
  · have hspans := foldl_rowSpan_only ch o (o.doneRows.getD ch 0 + ·) (List.range (rowsNow s ch o)) (rowCharged s ch o)
    generalize (List.range (rowsNow s ch o)).foldl _ (rowCharged s ch o) = u at hspans
    rw [hspans, rowCharged_only]

theorem rowLogged_only : rowLogged s ch o = { s with
    bulk := (rowLogged s ch o).bulk, acct := (rowLogged s ch o).acct, rowOps := (rowLogged s ch o).rowOps } := by
  unfold rowLogged
  rw [spansWritten_only]

theorem rowLogged_rowOps :
    (rowLogged s ch o).rowOps = s.rowOps.map fun x => if x.id = o.id then rowAdvanced s ch o else x := by
  unfold rowLogged
  rw [spansWritten_only]

@[simp] theorem rowFinish_rowOps : (rowFinish s o).rowOps = s.rowOps.filter fun x => x.id != o.id := by
  simp [rowFinish]

@[simp] theorem rowFinish_bulk : (rowFinish s o).bulk = s.bulk := by
  simp [rowFinish]

/-- Whether or not the operation is finished, the group leaves the same bytes. -/
theorem rowGroupOp_bulk {s : State} {ch : Nat} {o : RowOpSt} (h : nextRowOp s ch = some o) :
    (rowGroupOp s ch).bulk = (spansWritten s ch o).bulk := by
  rw [rowGroupOp_of_some h]
  split
  · rw [rowFinish_bulk]
    rfl
  · rfl

end

/-! ### The earliest operation that the channel has not finished (R275) -/

section
variable {s : State} {ch : Nat} {before after : List RowOpSt} {o : RowOpSt} (hops : s.rowOps = before ++ o :: after)
include hops

theorem nextRowOp_of_split (hbefore : ∀ x ∈ before, x.rows ≤ x.doneRows.getD ch 0) (ho : o.doneRows.getD ch 0 < o.rows) :
    nextRowOp s ch = some o := by
  have hnone : before.find? (fun x => decide (x.doneRows.getD ch 0 < x.rows)) = none :=
    List.find?_eq_none.2 fun x hx => by simpa using hbefore x hx
  rw [nextRowOp, hops, List.find?_append, hnone, Option.none_or, List.find?_cons_of_pos]
  exact decide_eq_true ho

variable (hnodup : (s.rowOps.map (·.id)).Nodup)
include hnodup

theorem rowOps_other_id {x : RowOpSt} (hx : x ∈ before ++ after) : x.id ≠ o.id := by
  rw [hops, List.map_append, List.map_cons, List.nodup_middle, ← List.map_append, List.nodup_cons] at hnodup
  exact fun heq => hnodup.1 (heq ▸ List.mem_map_of_mem hx)

theorem rowLogged_rowOps_of_split :
    (rowLogged s ch o).rowOps = before ++ rowAdvanced s ch o :: after := by
  have hkept (l : List RowOpSt) (hl : ∀ x ∈ l, x ∈ before ++ after) :
      l.map (fun x => if x.id = o.id then rowAdvanced s ch o else x) = l :=
    (List.map_congr_left fun x hx => if_neg (rowOps_other_id hops hnodup (hl x hx))).trans (List.map_id l)
  rw [rowLogged_rowOps, hops, List.map_append, List.map_cons, hkept before fun _ => List.mem_append_left _,
    hkept after fun _ => List.mem_append_right _, if_pos rfl]

/-- A finished operation leaves the list, one that is not stays in its place, and the others stay as they are. -/
theorem rowGroupOp_rowOps (hnext : nextRowOp s ch = some o) : (rowGroupOp s ch).rowOps
    = before ++ (if rowDone (rowAdvanced s ch o) then [] else [rowAdvanced s ch o]) ++ after := by
  have hkept (l : List RowOpSt) (hl : ∀ x ∈ l, x ∈ before ++ after) :
      l.filter (fun x => x.id != (rowAdvanced s ch o).id) = l :=
    List.filter_eq_self.2 fun x hx => bne_iff_ne.2 (rowOps_other_id hops hnodup (hl x hx))
  rw [rowGroupOp_of_some hnext]
  split
  · rw [rowFinish_rowOps, rowLogged_rowOps_of_split hops hnodup, List.filter_append, hkept before fun _ => List.mem_append_left _,
      List.filter_cons_of_neg (by simp), hkept after fun _ => List.mem_append_right _, List.append_nil]
  · rw [rowLogged_rowOps_of_split hops hnodup, List.append_assoc, List.singleton_append]

end

/-- Settles O59: ROW_OP appends the operation that it asks for, and a group of a channel belongs to the earliest operation
of the list that the channel has not finished. -/
theorem rowOperationsRunInOrder : Obligations.RowOperationsRunInOrder := by
  refine ⟨ends_of_body (body := bodyRowOp) (fun _ _ => rfl) fun d s ⟨hgood, hroom⟩ => ?_,
    fun c before after o s hops hnodup hbefore ho => ⟨rowGroupOp s c.val, rfl, ?_⟩⟩
  · rw [bodyRowOp_accepts hgood hroom]
    exact ⟨rfl, rowAsked d s, rfl, rfl⟩
  · rw [rowGroupOp_rowOps hops hnodup (nextRowOp_of_split hops hbefore ho)]
    constructor
    · intro x hx
      obtain hx | hx := List.mem_append.1 hx <;> simp [hx]
    · intro x hx
      by_cases hdone : rowDone (rowAdvanced s c.val o) = true
      · rw [if_pos hdone, List.append_nil] at hx
        exact .inl hx
      · rw [if_neg hdone, List.append_assoc, List.singleton_append, List.mem_append, List.mem_cons] at hx
        obtain hx | rfl | hx := hx
        · exact .inl (List.mem_append_left _ hx)
        · exact .inr ⟨rfl, rfl, rfl, rfl⟩
        · exact .inl (List.mem_append_right _ hx)

end Sys2Proof.Machine
end

section
/-! Chapter 10 of the spec, the bulk window: where its bytes lie, how they are read and written, and what one group of a
row operation leaves in them (R267 to R275, R285, R433). -/

namespace Sys2Proof.Machine

/-! ### Bytes read back -/

theorem memRead_memWriteN (m : List Host.Cell) {a n i : Nat} (hi : i < n) (v : Nat) :
    memRead (memWriteN m a n v) (a + i) = BitVec.ofNat 8 (v / 2 ^ (8 * i)) := by
  induction n generalizing m a v i with
  | zero => omega
  | succ n ih =>
    rw [memWriteN]
    cases i with
    | zero => simp [memRead_memWriteN_ne (.inl a.lt_succ_self)]
    | succ i =>
      have hpow : 2 ^ (8 * (i + 1)) = 256 * 2 ^ (8 * i) := by ring
      rw [Nat.add_comm i 1, ← Nat.add_assoc, ih _ (by omega), Nat.div_div_eq_div_mul, Nat.add_comm 1 i, hpow]

section
variable (dst v : Nat)

theorem memRead_foldl_granules_ne {a : Nat} (l : List Nat) (h : ∀ x ∈ l, a < dst + x ∨ dst + x + 256 ≤ a)
    (m : List Host.Cell) : memRead (l.foldl (fun m x => memWriteN m (dst + x) 256 v) m) a = memRead m a := by
  induction l generalizing m with
  | nil => rfl
  | cons x l ih =>
    rw [List.foldl_cons, ih fun y hy => h y (List.mem_cons_of_mem _ hy), memRead_memWriteN_ne (h x List.mem_cons_self)]

/-- One value written to whole granules reads back in each of them. -/
theorem memRead_foldl_granules (l : List Nat) (hal : ∀ x ∈ l, (dst + x) % 256 = 0) {x i : Nat} (hx : x ∈ l) (hi : i < 256)
    (m : List Host.Cell) :
    memRead (l.foldl (fun m x => memWriteN m (dst + x) 256 v) m) (dst + x + i) = BitVec.ofNat 8 (v / 2 ^ (8 * i)) := by
  induction l generalizing m with
  | nil => cases hx
  | cons y l ih =>
    have haltail : ∀ z ∈ l, (dst + z) % 256 = 0 := fun z hz => hal z (List.mem_cons_of_mem _ hz)
    rw [List.foldl_cons]
    by_cases hxl : x ∈ l
    · exact ih haltail hxl _
    · obtain rfl : x = y := (List.mem_cons.1 hx).resolve_right hxl
      have hxal := hal x List.mem_cons_self
      have hapart : ∀ z ∈ l, dst + x + i < dst + z ∨ dst + z + 256 ≤ dst + x + i := by
        intro z hz
        have hzal := haltail z hz
        have hne : x ≠ z := fun heq => hxl (heq ▸ hz)
        omega
      rw [memRead_foldl_granules_ne dst v l hapart, memRead_memWriteN m hi]

end

/-! ### Granules and channels (R267, R269, R270) -/

/-- A byte lies in the channel of its granule. -/
theorem windowChannel_granule (w : Nat) : windowChannel (w / 256 * 256) = windowChannel w := by
  have hplace : w / 256 * 256 % 40960 / 256 = w % 40960 / 256 := by omega
  have hrow : w / 256 * 256 / 40960 = w / 40960 := by omega
  rw [windowChannel, windowChannel, hplace, hrow]

/-- Every byte of an access lies in one of its granules. -/
theorem granule_mem_granulesOf {off len n : Nat} (hn : n < len) : (off + n) / 256 * 256 ∈ granulesOf off len := by
  rw [granulesOf, if_neg (by omega), List.mem_map]
  refine ⟨(off + n) / 256 - off / 256, List.mem_range.2 ?_, ?_⟩
  · have hlast : (off + n) / 256 ≤ (off + len - 1) / 256 := Nat.div_le_div_right (by omega)
    omega
  · have hfirst : off / 256 ≤ (off + n) / 256 := Nat.div_le_div_right (by omega)
    omega

theorem failedGranule_congr {s t : State} (h : t.chans = s.chans) (off len : Nat) :
    failedGranule t off len = failedGranule s off len := by
  simp only [failedGranule, getCh, h]

/-- No byte of the access lies in a FAILED channel. -/
theorem not_failed_of_failedGranule_none {s : State} {off len n : Nat} (h : failedGranule s off len = none) (hn : n < len) :
    (getCh s (windowChannel (off + n))).state ≠ .failed := by
  have hgranule := List.find?_eq_none.1 h _ (granule_mem_granulesOf hn)
  rw [windowChannel_granule] at hgranule
  exact fun heq => hgranule (beq_iff_eq.2 heq)

/-- The granule of a channel in a window row stands above the row's base, on a multiple of 256 (R270). -/
theorem windowOffset_of_row (ch r : Nat) {j : Nat} (hj : j < 8) :
    windowOffset ch (2048 * r + 256 * j) = 40960 * r + 256 * ((20 * j + ch) ^^^ (r % 8)) := by
  have hrow : (2048 * r + 256 * j) / 2048 = r := by omega
  have hplace : (2048 * r + 256 * j) % 2048 / 256 = j := by omega
  have hbyte : (2048 * r + 256 * j) % 256 = 0 := by omega
  rw [windowOffset, hrow, hplace, hbyte, Nat.add_zero]

/-! ### BULK_WINDOW_WRITE (R267, R271) -/

section
variable (s : State) (off data len : Nat)

theorem bulkPut_only : bulkPut s off data len = { s with bulk := (bulkPut s off data len).bulk } := by
  induction len with
  | zero => rfl
  | succ n ih =>
    rw [bulkPut]
    split
    · exact ih
    · rw [ih]

@[simp] theorem bulkPut_chans : (bulkPut s off data len).chans = s.chans := by rw [bulkPut_only]

/-- A byte whose channel is not FAILED is written. -/
theorem bulkPut_succ {n : Nat} (h : (getCh s (windowChannel (off + n))).state ≠ .failed) : (bulkPut s off data (n + 1)).bulk
    = memWrite (bulkPut s off data n).bulk (off + n) (BitVec.ofNat 8 (data / 2 ^ (8 * n))) := by
  have hch : getCh (bulkPut s off data n) (windowChannel (off + n)) = getCh s (windowChannel (off + n)) := by
    rw [getCh, bulkPut_chans, getCh]
  rw [bulkPut, hch, if_neg h]

variable {s off len} (hlive : ∀ n < len, (getCh s (windowChannel (off + n))).state ≠ .failed)
include hlive

theorem memRead_bulkPut {i : Nat} (hi : i < len) :
    memRead (bulkPut s off data len).bulk (off + i) = BitVec.ofNat 8 (data / 2 ^ (8 * i)) := by
  induction len with
  | zero => omega
  | succ n ih =>
    rw [bulkPut_succ s off data (hlive n n.lt_succ_self)]
    obtain rfl | hlt := Nat.eq_or_lt_of_le (Nat.le_of_lt_succ hi)
    · exact memRead_memWrite ..
    · rw [memRead_memWrite_ne (by omega), ih (fun m hm => hlive m (by omega)) hlt]

theorem memRead_bulkPut_ne {a : Nat} (ha : a < off ∨ off + len ≤ a) :
    memRead (bulkPut s off data len).bulk a = memRead s.bulk a := by
  induction len with
  | zero => rfl
  | succ n ih =>
    rw [bulkPut_succ s off data (hlive n n.lt_succ_self), memRead_memWrite_ne (by omega),
      ih (fun m hm => hlive m (by omega)) (by omega)]

end

section
variable {s : State} {p : Port} {off len : Nat}

theorem execBulkWindowWrite_of_up {d : Nat} (hup : (getPort s p).linkUp = true) :
    execBulkWindowWrite p off len d s = .next (bulkWriteOp s p off len d) := congrArg _ (if_pos hup)

theorem execBulkWindowRead_of_up {n : Nat} (hup : (getPort s p).linkUp = true) :
    execBulkWindowRead p off len n s = .next (bulkReadOp s p off len n) := congrArg _ (if_pos hup)

theorem bulkWriteOp_outside {d : Nat} (hin : inWindow s off len = false) :
    bulkWriteOp s p off len d = count (raiseWindow s p off (d % 2 ^ 64)) 2 0 1 := by
  rw [bulkWriteOp, hin]
  rfl

/-- The traffic of a host's access to the window (R254). -/
def windowCharged (s : State) (write : Bool) (len : Nat) : State :=
  chargePcie (chargeDram s 0 write len) 0 (!write) len

theorem windowCharged_only (s : State) (write : Bool) (len : Nat) :
    windowCharged s write len = { s with acct := (windowCharged s write len).acct } := by
  unfold windowCharged
  rw [chargePcie_only, chargeDram_only]

@[simp] theorem windowCharged_chans (s : State) (write : Bool) (len : Nat) : (windowCharged s write len).chans = s.chans := by
  rw [windowCharged_only]

@[simp] theorem windowCharged_bulk (s : State) (write : Bool) (len : Nat) : (windowCharged s write len).bulk = s.bulk := by
  rw [windowCharged_only]

theorem bulkWriteOp_inside {d : Nat} (hin : inWindow s off len = true) (hlive : failedGranule s off len = none) :
    bulkWriteOp s p off len d = bulkPut (windowCharged s true len) off d len := by
  have hnone : failedGranule (bulkPut (windowCharged s true len) off d len) off len = none := by
    rw [← hlive]
    exact failedGranule_congr (by rw [bulkPut_chans, windowCharged_chans]) off len
  simp only [windowCharged, Bool.not_true] at hnone ⊢
  simp only [bulkWriteOp, hin, Bool.not_true, Bool.false_eq_true, if_false, hnone]

/-! ### BULK_WINDOW_READ (R267, R268, R271, R433) -/

theorem bulkReadOp_outside {n : Nat} (hin : inWindow s off len = false) :
    bulkReadOp s p off len n = emit (raiseWindow s p off 0) (.windowRead p .abort) := by
  rw [bulkReadOp, hin]
  rfl

theorem bulkReadOp_failed {n w : Nat} (hin : inWindow s off len = true) (hfailed : failedGranule s off len = some w) :
    bulkReadOp s p off len n = emit (raiseFailed s w) (.windowRead p .abort) := by
  simp only [bulkReadOp, hin, Bool.not_true, Bool.false_eq_true, if_false, hfailed]

/-- R268: fewer than four link failures are counted, and the transfer is repeated until it succeeds. -/
theorem linkFailed_of_lt {ch n : Nat} (hn : n < 4) : linkFailed s ch n
    = (setCh s ch { getCh s ch with crcRetries := satAdd 8 (getCh s ch).crcRetries n }, false) := if_neg hn.not_ge

theorem bulkReadOp_inside {n : Nat} (hin : inWindow s off len = true) (hlive : failedGranule s off len = none) (hn : n < 4) :
    bulkReadOp s p off len n = emit (linkFailed (windowCharged s false len) (windowChannel off) n).1
      (.windowRead p (.data (memReadN s.bulk off len))) := by
  simp only [bulkReadOp, hin, Bool.not_true, Bool.false_eq_true, if_false, hlive, linkFailed_of_lt hn, windowCharged, Bool.not_false,
    setCh_bulk, chargePcie_bulk, chargeDram_bulk]

end

/-! ### What a group of a row operation leaves (R272, R274) -/

section
variable {s : State} {ch : Nat} {o : RowOpSt}

/-- A channel that lacks more than one whole group does not end the operation. -/
theorem rowDone_rowAdvanced_eq_false (hch : ch < 20) (hmore : o.doneRows.getD ch 0 + 8 < o.rows) :
    rowDone (rowAdvanced s ch o) = false := by
  have hgroup := (groupSize_bounds s ch o.op).2
  have hleft : ¬ o.rows ≤ (o.doneRows.set ch (o.doneRows.getD ch 0 + rowsNow s ch o)).getD ch 0 := by
    rw [Map.getD_set, rowsNow]
    omega
  rw [rowDone, List.all_eq_false]
  exact ⟨ch, List.mem_range.2 hch, by simpa [rowAdvanced] using hleft⟩

theorem rowsNow_of_more (hmore : o.doneRows.getD ch 0 + 8 < o.rows) : rowsNow s ch o = groupSize s ch o.op := by
  have hgroup := (groupSize_bounds s ch o.op).2
  rw [rowsNow]
  omega

theorem nextRowOp_singleton (hops : s.rowOps = [o]) (ho : o.doneRows.getD ch 0 < o.rows) : nextRowOp s ch = some o :=
  nextRowOp_of_split (before := []) hops (fun _ hx => nomatch hx) ho

/-- The granules of a span, as offsets from the destination. -/
def spanGranules (ch row : Nat) (o : RowOpSt) : List Nat :=
  (List.range 8).map fun j => windowOffset ch (2048 * (o.dst / 40960 + row) + 256 * j) - o.dst

/-- FILL writes its pattern to each granule of the span (R272). -/
theorem rowSpan_bulk_of_fill (hop : o.op = 1) (row : Nat) : (rowSpan s ch row o).bulk
    = (spanGranules ch row o).foldl (fun m x => memWriteN m (o.dst + x) 256 (repeat64 o.srcA)) s.bulk := by
  simp only [rowSpan, spanGranules, hop, rowResult, List.foldl_map]

/-- The granules of the span of a whole destination row stand above it, on multiples of 256. -/
theorem add_spanGranule (hdst : o.dst % 40960 = 0) (row : Nat) {j : Nat} (hj : j < 8) :
    o.dst + (windowOffset ch (2048 * (o.dst / 40960 + row) + 256 * j) - o.dst)
        = windowOffset ch (2048 * (o.dst / 40960 + row) + 256 * j)
      ∧ windowOffset ch (2048 * (o.dst / 40960 + row) + 256 * j) % 256 = 0 := by
  have hplace := windowOffset_of_row ch (o.dst / 40960 + row) hj
  generalize (20 * j + ch) ^^^ ((o.dst / 40960 + row) % 8) = k at hplace
  omega

theorem memRead_rowSpan_of_fill (hop : o.op = 1) (hdst : o.dst % 40960 = 0) (row : Nat) {j i : Nat} (hj : j < 8)
    (hi : i < 256) : memRead (rowSpan s ch row o).bulk (windowOffset ch (2048 * (o.dst / 40960 + row) + 256 * j) + i)
      = BitVec.ofNat 8 (repeat64 o.srcA / 2 ^ (8 * i)) := by
  have hal : ∀ x ∈ spanGranules ch row o, (o.dst + x) % 256 = 0 := by
    intro x hx
    obtain ⟨k, hk, rfl⟩ := List.mem_map.1 hx
    obtain ⟨habove, hgranule⟩ := add_spanGranule (ch := ch) hdst row (List.mem_range.1 hk)
    rw [habove, hgranule]
  have hmem : windowOffset ch (2048 * (o.dst / 40960 + row) + 256 * j) - o.dst ∈ spanGranules ch row o :=
    List.mem_map_of_mem (List.mem_range.2 hj)
  rw [rowSpan_bulk_of_fill hop, ← (add_spanGranule (ch := ch) hdst row hj).1]
  exact memRead_foldl_granules o.dst _ _ hal hmem hi _

/-- The only span of an operation on one row, in a channel that is not FAILED. -/
theorem spansWritten_bulk_of_one_row (hrows : o.rows = 1) (hdone : o.doneRows.getD ch 0 = 0)
    (hlive : (getCh s ch).state ≠ .failed) : (spansWritten s ch o).bulk = (rowSpan (rowCharged s ch o) ch 0 o).bulk := by
  have hone : rowsNow s ch o = 1 := by
    have hgroup := (groupSize_bounds s ch o.op).1
    rw [rowsNow, hrows, hdone]
    omega
  rw [spansWritten, if_neg hlive, hone, hdone, List.range_one, List.foldl_cons, List.foldl_nil]

end

/-! ### The clauses of O36 -/

section
variable (p : Port) (off len : Nat) (s : State)

theorem bulkWindowRead_reads (n : Nat) (hup : (getPort s p).linkUp = true) (hin : inWindow s off len = true)
    (hlive : failedGranule s off len = none) (hn : n < 4) :
    ∃ t, exec (.bulkWindowRead p off len n) s = .next t
      ∧ t.out.head? = some (.windowRead p (.data (memReadN s.bulk off len)))
      ∧ t = { s with out := t.out, acct := t.acct, chans := t.chans } := by
  refine ⟨_, execBulkWindowRead_of_up hup, ?_⟩
  rw [bulkReadOp_inside hin hlive hn, linkFailed_of_lt hn, windowCharged_only]
  exact ⟨rfl, rfl⟩

theorem bulkWindowWrite_writes (d : Nat) (hup : (getPort s p).linkUp = true) (hin : inWindow s off len = true)
    (hlive : failedGranule s off len = none) :
    ∃ t, exec (.bulkWindowWrite p off len d) s = .next t
      ∧ (∀ i, i < len → memRead t.bulk (off + i) = BitVec.ofNat 8 (d / 2 ^ (8 * i)))
      ∧ (∀ a, (a < off ∨ off + len ≤ a) → memRead t.bulk a = memRead s.bulk a)
      ∧ t = { s with bulk := t.bulk, acct := t.acct } := by
  refine ⟨_, execBulkWindowWrite_of_up hup, ?_⟩
  rw [bulkWriteOp_inside hin hlive]
  have hbytes : ∀ n < len, (getCh (windowCharged s true len) (windowChannel (off + n))).state ≠ .failed := fun n =>
    not_failed_of_failedGranule_none ((failedGranule_congr (windowCharged_chans s true len) off len).trans hlive)
  refine ⟨fun i hi => memRead_bulkPut d hbytes hi, fun a ha => ?_, ?_⟩
  · rw [memRead_bulkPut_ne d hbytes ha, windowCharged_bulk]
  · generalize hw : windowCharged s true len = w
    rw [bulkPut_only, ← hw, windowCharged_only]

end

section
variable (ch : Cluster) (o : RowOpSt) (s : State) (hops : s.rowOps = [o])
include hops

theorem rowOpGroup_advances (hmore : o.doneRows.getD ch.val 0 + 8 < o.rows) (hwf : memWf s.bulk = true) :
    ∃ t x, exec (.rowOpGroup ch) s = .next t ∧ t.rowOps = [x]
      ∧ x = { o with doneRows := o.doneRows.set ch.val (o.doneRows.getD ch.val 0 + groupSize s ch.val o.op) }
      ∧ t = { s with bulk := t.bulk, acct := t.acct, rowOps := t.rowOps } ∧ memWf t.bulk = true := by
  have hnext : nextRowOp s ch.val = some o := nextRowOp_singleton hops (by omega)
  have hopen := rowDone_rowAdvanced_eq_false (s := s) ch.isLt hmore
  refine ⟨_, rowAdvanced s ch.val o, rfl, ?_, ?_, ?_, rowGroupOp_bulkOk hwf ch.val⟩
  · rw [rowGroupOp_rowOps (before := []) hops (by simp [hops]) hnext, hopen]
    rfl
  · rw [rowAdvanced, rowsNow_of_more hmore]
  · rw [rowGroupOp_of_some hnext, hopen]
    exact rowLogged_only s ch.val o

theorem rowOpGroup_fills (hop : o.op = 1) (hrows : o.rows = 1) (hdone : o.doneRows.getD ch.val 0 = 0)
    (hlive : (getCh s ch.val).state ≠ .failed) (hdst : o.dst % 40960 = 0) :
    ∃ t, exec (.rowOpGroup ch) s = .next t ∧ ∀ j i, j < 8 → i < 256 →
      memRead t.bulk (windowOffset ch.val (2048 * (o.dst / 40960) + 256 * j) + i)
        = BitVec.ofNat 8 (repeat64 o.srcA / 2 ^ (8 * i)) := by
  refine ⟨_, rfl, fun j i hj hi => ?_⟩
  rw [rowGroupOp_bulk (nextRowOp_singleton hops (by omega)), spansWritten_bulk_of_one_row hrows hdone hlive]
  exact memRead_rowSpan_of_fill hop hdst 0 hj hi

end

/-- R285: a new metadata key, while blocks still verify under the old one. -/
theorem metadataRekey_renews (s : State) (hon : pageOn s = true) (hidle : s.sec.metaRekeying = none)
    (hkey : s.sec.metaKey.isSome = true) :
    ∃ t, exec .metadataRekey s = .next t ∧ t.sec.metaRekeying = s.sec.metaKey ∧ t.sec.metaKey = some s.sec.keys
      ∧ t = { s with sec := { s.sec with keys := s.sec.keys + 1, metaKey := t.sec.metaKey,
                                         metaRekeying := t.sec.metaRekeying } } := by
  refine ⟨_, congrArg Host.Outcome.next (if_pos ?_), rfl, rfl, rfl⟩
  simp [hon, hidle, hkey]

theorem metadataRekeyDone_drops (s : State) :
    exec .metadataRekeyDone s = .next { s with sec := { s.sec with metaRekeying := none } } := by
  refine congrArg Host.Outcome.next ?_
  split
  · rfl
  next hidle =>
    rw [← Option.not_isSome_iff_eq_none.1 hidle]

/-- Settles O36, clause by clause. It rests on assumptions 5 (a command whose condition is not met changes nothing), 4 (bytes
never written) and 101 (the order of ROW_OP's refusals). -/
theorem bulkWindowAndRowOperations : Obligations.BulkWindowAndRowOperations := by
  refine ⟨fun p o l n s hup hin => ?_, fun p o l n s => bulkWindowRead_reads p o l s n, fun p o l n w s hup hin hfailed => ?_,
    fun p o l d s hup hin => ?_, fun p o l d s hup hin hlive _ => bulkWindowWrite_writes p o l s d hup hin hlive,
    fun p o l d n s hdown => ⟨congrArg _ (if_neg (by simp [hdown])), congrArg _ (if_neg (by simp [hdown]))⟩,
    ends_of_body (body := bodyRowOp) (fun _ _ => rfl) fun d s ⟨hgood, hroom⟩ => ?_,
    ends_of_body (body := bodyRowOp) (fun _ _ => rfl) fun d s ⟨hgood, hfull⟩ => ?_,
    ends_of_body (body := bodyRowOp) (fun _ _ => rfl) fun d s hbad => ?_,
    fun c s hops => congrArg _ (rowGroupOp_of_none ?_),
    fun c o s hops hmore _ hwf => rowOpGroup_advances c o s hops hmore hwf,
    fun c o s hops hop hrows hdone hlive _ hdst => rowOpGroup_fills c o s hops hop hrows hdone hlive hdst,
    metadataRekey_renews, metadataRekeyDone_drops⟩
  · exact (execBulkWindowRead_of_up hup).trans (congrArg _ (bulkReadOp_outside hin))
  · exact (execBulkWindowRead_of_up hup).trans (congrArg _ (bulkReadOp_failed hin hfailed))
  · exact (execBulkWindowWrite_of_up hup).trans (congrArg _ (bulkWriteOp_outside hin))
  · rw [bodyRowOp_accepts hgood hroom]
    exact ⟨rfl, rfl, rowAsked d s, rfl, rfl, rfl, rfl, rfl, rfl, rfl⟩
  · rw [bodyRowOp_busy hgood hfull]
    exact ⟨rfl, rfl⟩
  · rw [bodyRowOp_badField hbad]
    exact ⟨rfl, rfl⟩
  · rw [nextRowOp, hops, List.find?_nil]

end Sys2Proof.Machine
end

section
/-! Chapter 10 of the spec, DRAM channels: their records, refresh and retraining passes (R263, R265 to R267), and what a
margin reading does (R386, R387). -/

namespace Sys2Proof.Machine

/-! ### Margin readings (R387) -/

section
variable (s : State) (key : Nat) (reason source payload : Nat)

/-- A reading inside its threshold: the warning falls with the eighth in a row. -/
def marginInside : State :=
  let m := s.margins.getD key {}
  { s with margins := s.margins.set key { raised := m.raised && decide (m.good + 1 < 8), good := min (m.good + 1) 8, bad := 0 } }

theorem marginReading_inside (need : Nat) :
    marginReading s key need false reason source payload = marginInside s key := rfl

/-- A single reading outside its threshold, where one is enough. -/
def marginOutside : State :=
  { s with margins := s.margins.set key { raised := true, good := 0, bad := (s.margins.getD key {}).bad + 1 } }

/-- While the warning stands, a reading outside raises none. -/
theorem marginReading_standing (h : (s.margins.getD key {}).raised = true) :
    marginReading s key 1 true reason source payload = marginOutside s key := by
  simp [marginReading, marginOutside, h]

/-- The first reading outside raises the warning; the rails alone also tell the board. -/
theorem marginReading_warns (h : (s.margins.getD key {}).raised = false) (hrail : reason ≠ 0x0106) :
    marginReading s key 1 true reason source payload
      = raiseNode (marginOutside s key) 0x0002 reason source 0 payload := by
  simp [marginReading, marginOutside, h, hrail]

/-- A reading writes no channel. -/
theorem marginReading_chans (need : Nat) (outside : Bool) :
    (marginReading s key need outside reason source payload).chans = s.chans := by
  unfold marginReading
  dsimp only
  split
  · split
    · split
      · rfl
      · split <;> simp
    · rfl
  · rfl

end

/-! ### DRAM_CONFIG and DRAM_STATUS (R266) -/

/-- The RWS fields of a channel's record lie in their ranges. -/
def ChanFieldsOk (r : Nat) : Prop :=
  4 ≤ fld r 23 16 ∧ fld r 23 16 ≤ 96 ∧ 2 ≤ fld r 15 8 ∧ fld r 15 8 ≤ 100 ∧ fld r 7 0 ≠ 0

/-- The RWS fields wait in a channel's shadow. -/
def shadowCh (r : Nat) (s : State) (c : Nat) : State :=
  setCh s c { getCh s c with shadow := some (BitVec.ofNat 24 r) }

section
variable {d : Desc} {s : State}

theorem bodyDramConfig_shadows (hch : byt d.body 0 0 ≤ 19 ∨ byt d.body 0 0 = 255) (hok : ChanFieldsOk (byt d.body 8 10)) :
    bodyDramConfig d s = ((if byt d.body 0 0 = 255 then List.range 20 else [byt d.body 0 0]).foldl
      (shadowCh (byt d.body 8 10)) s, .done) := by
  refine failIf_neg (decide_eq_false ?_)
  unfold ChanFieldsOk at hok
  omega

theorem bodyDramConfig_badField (h : (19 < byt d.body 0 0 ∧ byt d.body 0 0 ≠ 255) ∨ fld (byt d.body 8 10) 23 16 < 4
      ∨ 96 < fld (byt d.body 8 10) 23 16 ∨ fld (byt d.body 8 10) 15 8 < 2 ∨ 100 < fld (byt d.body 8 10) 15 8
      ∨ fld (byt d.body 8 10) 7 0 = 0) : bodyDramConfig d s = (s, .fail .badField) := by
  simp only [bodyDramConfig, decide_eq_true h, failIf_true]

theorem bodyDramStatus_reads (h : byt d.body 0 0 ≤ 19) :
    bodyDramStatus d s = (s, .done (chanWord (getCh s (byt d.body 0 0)))) := failIf_neg (decide_eq_false h.not_gt)

theorem bodyDramStatus_badField (h : 19 < byt d.body 0 0) : bodyDramStatus d s = (s, .fail .badField) := by
  simp only [bodyDramStatus, decide_eq_true h, failIf_true]

end

theorem foldl_shadowCh_only (r : Nat) (l : List Nat) (s : State) :
    l.foldl (shadowCh r) s = { s with chans := (l.foldl (shadowCh r) s).chans } :=
  foldl_only (U := fun t s => { s with chans := t.chans }) (fun _ => rfl) (fun _ _ _ => rfl) (shadowCh r)
    (fun _ _ => rfl) l s

theorem getCh_foldl_shadowCh_ne (r : Nat) {l : List Nat} {c : Nat} (h : c ∉ l) (s : State) :
    getCh (l.foldl (shadowCh r) s) c = getCh s c := by
  induction l generalizing s with
  | nil => rfl
  | cons a l ih =>
    obtain ⟨hne, hrest⟩ := not_or.1 (mt List.mem_cons.2 h)
    rw [List.foldl_cons, ih hrest, shadowCh, getCh_setCh_ne s hne]

theorem getCh_foldl_shadowCh (r : Nat) {l : List Nat} (hnodup : l.Nodup) {c : Nat} (h : c ∈ l) (s : State) :
    getCh (l.foldl (shadowCh r) s) c = { getCh s c with shadow := some (BitVec.ofNat 24 r) } := by
  induction l generalizing s with
  | nil => cases h
  | cons a l ih =>
    obtain ⟨hout, hrest⟩ := List.nodup_cons.1 hnodup
    rw [List.foldl_cons]
    obtain rfl | hin := List.mem_cons.1 h
    · rw [getCh_foldl_shadowCh_ne r hout, shadowCh, getCh_setCh]
    · have hne : c ≠ a := fun heq => hout (heq ▸ hin)
      rw [ih hrest hin, shadowCh, getCh_setCh_ne s hne]

/-! ### REFRESH_WINDOW (R263, R265) -/

/-- The retraining pass of a channel after one more refresh window. -/
def passNext (s : State) (c : ChanSt) : Option Nat :=
  match c.pass with
  | some n => some (min (n + 1) 4096)
  | none => if c.wanted || decide (c.lastPass + retrainNs c ≤ s.ns) then some 1 else none

theorem refreshOp_runs {s : State} {ch : Nat} (h : frameRuns (getCh s ch) = true) : refreshOp s ch
    = setCh s ch { getCh s ch with block := (getCh s ch).block + 1, refreshed := 4 * ((getCh s ch).block % 4),
                                   pass := passNext s (getCh s ch), wanted := false } := if_pos h

theorem refreshOp_idle {s : State} {ch : Nat} (h : frameRuns (getCh s ch) = false) : refreshOp s ch = s :=
  if_neg (by simp [h])

theorem refreshWindow_refreshes (c : Cluster) (s : State) (h : frameRuns (getCh s c.val) = true) :
    ∃ t, exec (.refreshWindow c) s = .next t ∧ (getCh t c.val).block = (getCh s c.val).block + 1
      ∧ (getCh t c.val).refreshed = 4 * ((getCh s c.val).block % 4)
      ∧ ((getCh s c.val).pass = none → (getCh s c.val).wanted = true → (getCh t c.val).pass = some 1)
      ∧ (∀ n, (getCh s c.val).pass = some n → (getCh t c.val).pass = some (min (n + 1) 4096))
      ∧ t = { s with chans := t.chans } ∧ ∀ k, k ≠ c.val → getCh t k = getCh s k := by
  refine ⟨_, congrArg Host.Outcome.next (refreshOp_runs h), ?_⟩
  rw [getCh_setCh]
  refine ⟨rfl, rfl, fun hnone hwanted => ?_, fun n hpass => ?_, rfl, fun k hk => getCh_setCh_ne s hk _⟩
  · simp [passNext, hnone, hwanted]
  · simp [passNext, hpass]

/-! ### DRAM_RETRAIN_PASS (R265, R267) -/

/-- A channel with the eyes and levels that a pass measured. -/
def measured (s : State) (ch eyeRd eyeWr levelMv refMult : Nat) : ChanSt :=
  { getCh s ch with eyeRd := min eyeRd 255, eyeWr := min eyeWr 255, levelMv := min levelMv 255, refMult := refMult % 4,
                    crcRetries := 0, pass := none, wanted := false, lastPass := s.ns }

/-- A measured eye or level lies below its threshold. -/
def lowMargin (c : ChanSt) : Bool := decide (c.eyeRd < warnEye c ∨ c.eyeWr < warnEye c ∨ c.levelMv < warnMv c)

/-- The measured values are stored and judged against their thresholds (R386). -/
def passJudged (s : State) (ch : Nat) (m : ChanSt) : State :=
  marginReading (setCh s ch { m with state := passState m }) (100 + ch) 1 (lowMargin m) 0x0103 ch
    (marginPayload ch (passValue m).1 (passValue m).2)

theorem applyPass_eq (s : State) (ch reason a b l m : Nat) : applyPass s ch reason a b l m
    = if passState (measured s ch a b l m) = .failed then quarantineCluster (passJudged s ch (measured s ch a b l m)) ch reason
      else passJudged s ch (measured s ch a b l m) := rfl

@[simp] theorem getCh_passJudged (s : State) (ch : Nat) (m : ChanSt) :
    getCh (passJudged s ch m) ch = { m with state := passState m } := by
  have hset := getCh_setCh s ch { m with state := passState m }
  rwa [passJudged, getCh, marginReading_chans]

theorem passState_failed {c : ChanSt} (h : 2 * c.eyeRd < warnEye c) : passState c = .failed :=
  if_pos (decide_eq_true (.inl (by omega)))

theorem passState_trained {c : ChanSt} (hstate : c.state ≠ .mismatch) (hlow : lowMargin c = false) :
    passState c = .trained := by
  rw [lowMargin, decide_eq_false_iff_not] at hlow
  rw [passState, if_neg (by rw [decide_eq_true_eq]; omega), if_neg hstate, if_neg (by rw [decide_eq_true_eq]; omega)]

/-- The cluster of a channel that has failed is quarantined, now or since before. -/
theorem quarantined_quarantineCluster (s : State) (c reason : Nat) :
    (getC (quarantineCluster s c reason) c).quarantined = true := by
  cases h : (getC s c).quarantined with
  | false => exact (quarantineCluster_quarantines reason h).1
  | true => rwa [quarantineCluster, if_pos h]

section
variable (c : Cluster) (a b l m : Nat) (s : State) (hruns : frameRuns (getCh s c.val) = true)
include hruns

theorem execDramRetrainPass_runs :
    exec (.dramRetrainPass c a b l m) s = .next (applyPass s c.val 2 a b l m) :=
  congrArg Host.Outcome.next (if_pos hruns)

theorem dramRetrainPass_trains (hstate : (getCh s c.val).state ≠ .mismatch) (ha : warnEye (getCh s c.val) ≤ min a 255)
    (hb : warnEye (getCh s c.val) ≤ min b 255) (hl : warnMv (getCh s c.val) ≤ min l 255) :
    ∃ t, exec (.dramRetrainPass c a b l m) s = .next t ∧ (getCh t c.val).state = .trained
      ∧ (getCh t c.val).eyeRd = min a 255 ∧ (getCh t c.val).eyeWr = min b 255 ∧ (getCh t c.val).levelMv = min l 255
      ∧ (getCh t c.val).crcRetries = 0 ∧ (getCh t c.val).lastPass = s.ns
      ∧ t = { s with chans := t.chans, margins := t.margins } := by
  have hlow : lowMargin (measured s c.val a b l m) = false :=
    decide_eq_false (not_or.2 ⟨ha.not_gt, not_or.2 ⟨hb.not_gt, hl.not_gt⟩⟩)
  have htrained : passState (measured s c.val a b l m) = .trained := passState_trained hstate hlow
  refine ⟨_, execDramRetrainPass_runs c a b l m s hruns, ?_⟩
  rw [applyPass_eq, if_neg (by rw [htrained]; decide), getCh_passJudged]
  refine ⟨htrained, rfl, rfl, rfl, rfl, rfl, ?_⟩
  rw [passJudged, hlow, marginReading_inside]
  rfl

theorem dramRetrainPass_fails (ha : 2 * min a 255 < warnEye (getCh s c.val)) :
    ∃ t, exec (.dramRetrainPass c a b l m) s = .next t ∧ (getCh t c.val).state = .failed
      ∧ (getC t c.val).quarantined = true := by
  have hfailed : passState (measured s c.val a b l m) = .failed := passState_failed ha
  refine ⟨_, execDramRetrainPass_runs c a b l m s hruns, ?_⟩
  rw [applyPass_eq, if_pos hfailed]
  refine ⟨?_, quarantined_quarantineCluster ..⟩
  rw [getCh, quarantineCluster_chans, ← getCh, getCh_passJudged, hfailed]

end

/-- Settles O35, command by command. It rests on assumptions 5 (a command whose condition is not met changes nothing) and
101 (a pass may end at any time). -/
theorem channelsAreKept : Obligations.ChannelsAreKept := by
  refine ⟨does_of_body (body := bodyDramConfig) (fun _ _ => rfl) fun d s ⟨hch, hok⟩ => ?_,
    ends_of_body (body := bodyDramConfig) (fun _ _ => rfl) fun d s ⟨hall, hok⟩ => ?_,
    does_of_body (body := bodyDramConfig) (fun _ _ => rfl) fun _ _ => bodyDramConfig_badField,
    does_of_body (body := bodyDramStatus) (fun _ _ => rfl) fun _ _ => bodyDramStatus_reads,
    does_of_body (body := bodyDramStatus) (fun _ _ => rfl) fun _ _ => bodyDramStatus_badField,
    refreshWindow_refreshes,
    fun c a b l m s hidle => ⟨congrArg _ (refreshOp_idle hidle), congrArg _ (if_neg (by simp [hidle]))⟩,
    dramRetrainPass_trains, fun c a b l m s hruns => dramRetrainPass_fails c a b l m s hruns⟩
  · rw [bodyDramConfig_shadows (.inl hch) hok, if_neg (by omega)]
    rfl
  · rw [bodyDramConfig_shadows (.inr hall) hok, if_pos hall]
    exact ⟨rfl, foldl_shadowCh_only .., fun c hc =>
      getCh_foldl_shadowCh _ List.nodup_range (List.mem_range.2 hc) s⟩

end Sys2Proof.Machine
end

section
/-! How a waiting DMA fault record ends (R290, R291), and the margins of the links (R386, R387, R473, R474). -/

namespace Sys2Proof.Machine

/-! ### DMA fault records (R290, R291) -/

/-- STATE and REASON of a record as they were written. -/
theorem dmaRecord_fields (context len off op domain mover : Nat) {reason state : Nat} (hreason : reason < 256)
    (hstate : state < 4) : rf (dmaRecord context len off reason op domain mover state) 1 0 = state
      ∧ rf (dmaRecord context len off reason op domain mover state) 31 24 = reason := by
  simp only [rf, dmaRecord, BitVec.toNat_ofNat]
  rw [fld_mod 0 (by decide) (by decide), fld_mod 24 (by decide) (by decide)]
  simp only [pack, fld]
  omega

@[simp] theorem dmaRec_clockTo (s : State) (t m : Nat) : dmaRec (clockTo s t) m = dmaRec s m := by
  rw [dmaRec, clockTo_dma, dmaRec]

section
variable (m : Fin 28) (n : Nat) (s : State)

/-- A waiting transfer that is abandoned, at the time `n`. -/
theorem dmaAbandon_clockTo : dmaAbandon (clockTo s n) m.val
    = dmaOwner { clockTo s n with dma := s.dma.set m.val (rset (dmaRec s m.val) 1 0 3) } (dmaRec s m.val) := by
  rw [dmaAbandon, dmaRec_clockTo, clockTo_dma]

variable (hwaits : rf (dmaRec s m.val) 1 0 = 1)
include hwaits

theorem dmaFaultResolved_resumes : exec (.dmaFaultResolved m false n) s
    = .next { clockTo s n with dma := s.dma.set m.val (rset (dmaRec s m.val) 1 0 2) } := by
  refine congrArg Host.Outcome.next ?_
  simp only [dmaRec_clockTo, hwaits, clockTo_dma, ne_eq, not_true_eq_false, if_false, Bool.false_eq_true]

theorem dmaFaultResolved_abandons : exec (.dmaFaultResolved m true n) s
    = .next (dmaOwner { clockTo s n with dma := s.dma.set m.val (rset (dmaRec s m.val) 1 0 3) } (dmaRec s m.val)) := by
  refine congrArg Host.Outcome.next ?_
  simp only [dmaRec_clockTo, hwaits, ne_eq, not_true_eq_false, if_false, if_true, dmaAbandon_clockTo]

theorem dmaNoRoomTimeout_abandons (hroom : rf (dmaRec s m.val) 31 24 = 7) : exec (.dmaNoRoomTimeout m n) s
    = .next (dmaOwner { clockTo s n with dma := s.dma.set m.val (rset (dmaRec s m.val) 1 0 3) } (dmaRec s m.val)) := by
  refine congrArg Host.Outcome.next ?_
  simp only [dmaRec_clockTo, hwaits, hroom, and_self, if_true, dmaAbandon_clockTo]

end

/-- The record that a first timeout leaves: what was read and how far it had come is free (assumption 54). -/
def timeoutRecord (s : State) (m : Nat) (p : Port) (f : Func) : BitVec 128 :=
  dmaRecord (freeVal s % 2 ^ 16) (freeVal s / 2 ^ 16 % 2 ^ 24) 0 6 (if m < 4 then 3 else 7) ((domainOf s p f).getD 0) m 1

theorem hostTimeout_first {s : State} {m : Nat} (p : Port) (f : Func) (h : dmaRec s m = 0) :
    hostTimeout s m p f = dmaFault (useFree s) m (timeoutRecord s m p f) := by
  have hfresh : ¬ (rf (dmaRec s m) 1 0 = 2 ∧ rf (dmaRec s m) 31 24 = 6) := by
    rw [h]
    decide
  exact if_neg hfresh

@[simp] theorem dmaFault_dma (s : State) (m : Nat) (r : BitVec 128) : (dmaFault s m r).dma = s.dma.set m r := by
  rw [dmaFault, raiseNode_dma]

theorem pcieCompletionTimeout_waits (p : Port) (f : Func) (w n : Nat) (s : State) (hw : 50000 ≤ w)
    (hready : s.boot.phase = .ready) (hdma : s.dma = .empty) :
    ∃ r t, exec (.pcieCompletionTimeout 4 p f w n) s = .next t ∧ t.dma = Map.empty.set 4 r
      ∧ rf r 1 0 = 1 ∧ rf r 31 24 = 6
      ∧ t = { s with time := t.time, free := s.free + 1, dma := t.dma, out := t.out, funcs := t.funcs, boot := t.boot } := by
  have hzero : dmaRec (clockTo s n) 4 = 0 := by
    rw [dmaRec_clockTo, dmaRec, hdma]
    rfl
  have hin : 50000 ≤ w ∧ (4 : Fin 28).val < 8 ∧ ((4 : Fin 28).val < 4 → (4 : Fin 28).val / 2 = p.val)
      ∧ (clockTo s n).boot.phase = .ready :=
    ⟨hw, by decide, fun h => absurd h (by decide), by rw [clockTo_boot, hready]⟩
  refine ⟨timeoutRecord (clockTo s n) 4 p f, _,
    congrArg Host.Outcome.next ((if_pos hin).trans (hostTimeout_first p f hzero)), ?_,
    (dmaRecord_fields _ _ _ _ _ _ (by decide) (by decide)).1, (dmaRecord_fields _ _ _ _ _ _ (by decide) (by decide)).2, ?_⟩
  · rw [dmaFault_dma, useFree_dma, clockTo_dma, hdma]
    rfl
  · rw [dmaFault_only, useFree, clockTo_only]

/-- A test that the only running command passes ends it. -/
theorem finishWhere_singleton {s : State} {g : Flight} {q : Flight → Bool} (hfl : s.flights = [g]) (hq : q g = true)
    (st : Status) (r a : Nat) : finishWhere s q st r a = finishFlight { s with flights := [] } g st r a := by
  simp [finishWhere, hfl, hq]

/-- R291: the command whose read of host memory was abandoned ends with TIMEOUT. -/
theorem dmaOwner_times_out (s : State) (g : Flight) (r : BitVec 128) (hfl : s.flights = [g]) (hop : rf r 23 20 = 3)
    (hreason : rf r 31 24 = 6) (htag : g.tag.toNat = rf r 127 96) (hdomain : g.domain = rf r 19 14)
    (hport : portMover g.port / 2 = rf r 13 9 / 2) :
    dmaOwner s r = finishFlight { s with flights := [] } g .timeout 0 0 := by
  have howner : dmaOwner s r = finishWhere s (fun g => g.tag.toNat == rf r 127 96 && g.domain == rf r 19 14
      && portMover g.port / 2 == rf r 13 9 / 2) .timeout 0 0 := by
    simp only [dmaOwner, hreason, dmaStatus, hop, if_true]
  rw [howner]
  exact finishWhere_singleton hfl (by simp [htag, hdomain, hport]) _ _ _

/-! ### MARGIN_CONFIG (R473, R474) -/

theorem bodyMarginConfig_shadows {d : Desc} {s : State} (h : marginRecOk (byt d.body 0 7) = true) :
    bodyMarginConfig d s = ({ s with marginShadow := some (BitVec.ofNat 64 (byt d.body 0 7)) }, .done) :=
  failIf_neg (by rw [h, Bool.not_true])

theorem bodyMarginConfig_badField {d : Desc} {s : State} (h : marginRecOk (byt d.body 0 7) = false) :
    bodyMarginConfig d s = (s, .fail .badField) := by
  rw [bodyMarginConfig, h, Bool.not_false, failIf_true]

/-! ### MARGIN_SAMPLE of a PCIe lane's timing (R386, R387) -/

section
variable (p : Port) (l : Fin 8) (v : Int) (b : Bool) (s : State) (hready : s.boot.phase = .ready)
include hready

/-- The reading is compared with the threshold in effect. -/
theorem marginSample_pcieTiming {outside : Bool} (hout : decide (v < thPcieT s) = outside) :
    exec (.marginSample (.pcieTiming p l) v b) s = .next (marginReading s (p.val * 8 + l.val) 1 outside 0x0104 (34 + p.val)
      (marginPayload l.val v (thPcieT s))) := by
  rw [← hout]
  exact congrArg Host.Outcome.next (if_pos hready)

theorem marginSample_stands (hv : v < thPcieT s) (hraised : (s.margins.getD (p.val * 8 + l.val) {}).raised = true) :
    ∃ t, exec (.marginSample (.pcieTiming p l) v b) s = .next t ∧ t.out = s.out
      ∧ (t.margins.getD (p.val * 8 + l.val) {}).raised = true ∧ t = { s with margins := t.margins } := by
  refine ⟨_, marginSample_pcieTiming p l v b s hready (decide_eq_true hv), ?_⟩
  rw [marginReading_standing _ _ _ _ _ hraised]
  exact ⟨rfl, congrArg _ (Map.getD_set ..), rfl⟩

theorem marginSample_warns (hv : v < thPcieT s) (hclear : (s.margins.getD (p.val * 8 + l.val) {}).raised = false) :
    ∃ t, exec (.marginSample (.pcieTiming p l) v b) s = .next (raiseNode t 0x0002 0x0104 (34 + p.val) 0
        (marginPayload l.val v (thPcieT s)))
      ∧ (t.margins.getD (p.val * 8 + l.val) {}).raised = true ∧ t = { s with margins := t.margins } := by
  refine ⟨marginOutside s (p.val * 8 + l.val), ?_, congrArg _ (Map.getD_set ..), rfl⟩
  rw [marginSample_pcieTiming p l v b s hready (decide_eq_true hv), marginReading_warns _ _ _ _ _ hclear (by decide)]

theorem marginSample_clears (hv : (thPcieT s : Int) ≤ v) (hgood : (s.margins.getD (p.val * 8 + l.val) {}).good = 7) :
    ∃ t, exec (.marginSample (.pcieTiming p l) v b) s = .next t
      ∧ (t.margins.getD (p.val * 8 + l.val) {}).raised = false ∧ t = { s with margins := t.margins } := by
  refine ⟨_, marginSample_pcieTiming p l v b s hready (decide_eq_false hv.not_gt), ?_⟩
  rw [marginReading_inside]
  refine ⟨?_, rfl⟩
  simp [marginInside, hgood]

end

/-- Settles O8, clause by clause. It rests on assumptions 14 (the first mover of a port serves command buffers) and 54 (the
context and length of a timeout's record are free). -/
theorem dmaFaultsEndAndMarginsWarnOnce : Obligations.DmaFaultsEndAndMarginsWarnOnce :=
  ⟨⟨fun m n s h => ⟨dmaFaultResolved_resumes m n s h, dmaFaultResolved_abandons m n s h⟩, dmaNoRoomTimeout_abandons,
      pcieCompletionTimeout_waits, dmaOwner_times_out⟩,
    does_of_body (body := bodyMarginConfig) (fun _ _ => rfl) fun _ _ => bodyMarginConfig_shadows,
    does_of_body (body := bodyMarginConfig) (fun _ _ => rfl) fun _ _ => bodyMarginConfig_badField,
    marginSample_stands, marginSample_warns, marginSample_clears⟩

end Sys2Proof.Machine
end

section
/-! Group 0x09 of the commands, first part: the port records and tables of the network, protection domains, shapers,
policers and job keys (R294, R295, R303, R333, R336, R339, R347, R411). -/

namespace Sys2Proof.Machine

/-! ### Port records (R294) -/

theorem setEth_setEth (s : State) (p : Port) (a b : EthSt) : setEth (setEth s p a) p b = setEth s p b := by
  unfold setEth
  split <;> rfl

section
variable {s : State} {p : Port} {r : BitVec 320}

theorem netPort_enables (hoff : rb (ethOf s p).record 0 = false) (hon : rb r 0 = true) :
    netPort s p r = (setEth s p { ethOf s p with record := merge (ethOf s p).record r ethWritable, link := 1 }, .done) := by
  simp only [netPort, hoff, hon, Bool.false_and, Bool.not_false, Bool.true_and, Bool.false_eq_true, if_false, if_true,
    failIf_false, setEth_setEth]

theorem netPort_busy (hon : rb (ethOf s p).record 0 = true) (hdiff : differ (ethOf s p).record r ethLocked = true) :
    netPort s p r = (s, .fail .busy) := by
  rw [netPort, hon, hdiff, Bool.and_self, failIf_true]

end

section
variable {d : Desc} {s : State}

theorem netConfigBody_port (p : Port) (hkind : byt d.body 0 0 = 0) (hp : byt d.body 1 1 = p.val) :
    netConfigBody d s = netPort s p (BitVec.ofNat 320 (byt d.body 16 55)) := by
  have hport (p : Port) : (if p.val = 0 then 0 else 1 : Port) = p := by
    revert p
    decide
  rw [netConfigBody, if_pos hkind, hp, hport, failIf_neg (by simpa using Nat.le_of_lt_succ p.isLt)]

/-! ### The tables of nodes (R295, R347) -/

theorem netEntries_one (first bits data : Nat) : netEntries first 1 bits data = [(first, data % 2 ^ bits)] := by
  simp [netEntries]

theorem netConfigBody_running (hkind : 0 < byt d.body 0 0) (hlast : byt d.body 0 0 ≤ 2) (hfirst : byt d.body 4 5 ≤ 4095)
    (hroom : byt d.body 4 5 + byt d.body 6 7 ≤ 4096) (hon : placeOn s = true) :
    netConfigBody d s = (s, .fail .badState) := by
  rw [netConfigBody, if_neg (by omega), failIf_neg (by simp; omega), hon, failIf_true]

theorem netConfigBody_addresses (hkind : byt d.body 0 0 = 1) (hfirst : byt d.body 4 5 ≤ 4095) (hone : byt d.body 6 7 = 1)
    (hoff : placeOn s = false) (hdata : hostData d % 2 ^ 256 ≠ 0) :
    netConfigBody d s
      = (modNet s fun n => { n with addrs := n.addrs.set (byt d.body 4 5) (BitVec.ofNat 256 (hostData d)) }, .done) := by
  have hcut : BitVec.ofNat 256 (hostData d % 2 ^ 256) = BitVec.ofNat 256 (hostData d) := BitVec.eq_of_toNat_eq (by simp)
  rw [netConfigBody, hkind, hone, if_neg one_ne_zero, failIf_neg (by simp; omega), failIf_neg hoff, if_pos rfl,
    netEntries_one]
  simp only [List.foldl_cons, List.foldl_nil, if_neg hdata, hcut]

theorem netConfigBody_locality (hkind : byt d.body 0 0 = 2) (hfirst : byt d.body 4 5 ≤ 4095) (hone : byt d.body 6 7 = 1)
    (hoff : placeOn s = false) :
    netConfigBody d s = ({ s with place := { s.place with
      locality := s.place.locality.set (byt d.body 4 5) (BitVec.ofNat 32 (hostData d)) } }, .done) := by
  have hcut : BitVec.ofNat 32 (hostData d % 2 ^ 32) = BitVec.ofNat 32 (hostData d) := BitVec.eq_of_toNat_eq (by simp)
  rw [netConfigBody, hkind, hone, if_neg two_ne_zero, failIf_neg (by simp; omega), failIf_neg hoff,
    if_neg (by decide), netEntries_one]
  simp only [List.foldl_cons, List.foldl_nil, hcut]

/-! ### Protection domains (R303) -/

theorem bodyPdCreate_makes (hpd : byt d.body 0 1 ≤ 4095) (hnew : s.net.pds.has (byt d.body 0 1) = false) :
    bodyPdCreate d s
      = (modNet s fun n => { n with pds := n.pds.set (byt d.body 0 1) { domain := d.domain.toNat } }, .done) := by
  rw [bodyPdCreate, failIf_neg (by simpa using hpd), failIf_neg hnew]

theorem bodyPdDestroy_erases (hpd : byt d.body 0 1 ≤ 4095) (hsees : (visiblePd d s (byt d.body 0 1)).isSome = true)
    (hfree : pdInUse s (byt d.body 0 1) = false) :
    bodyPdDestroy d s = (modNet s fun n => { n with pds := n.pds.erase (byt d.body 0 1) }, .done) := by
  rw [bodyPdDestroy, failIf_neg (by simpa using hpd), failIf_neg (by simp [hfree, hsees])]

theorem bodyPdDestroy_badState (hpd : byt d.body 0 1 ≤ 4095) (huse : pdInUse s (byt d.body 0 1) = true) :
    bodyPdDestroy d s = (s, .fail .badState) := by
  rw [bodyPdDestroy, failIf_neg (by simpa using hpd), huse, Bool.or_true, failIf_true]

/-! ### Shapers and policers (R333, R336) -/

theorem bodyShaperSet_sets (hlow : 0 < byt d.body 0 1) (hhigh : byt d.body 0 1 ≤ 4095)
    (hgood : shaperBad (byt d.body 8 15) = false) :
    bodyShaperSet d s = (setSh s (byt d.body 0 1)
      { getSh s (byt d.body 0 1) with record := BitVec.ofNat 64 (byt d.body 8 15) }, .done) :=
  failIf_neg (by simp [hgood]; omega)

theorem bodyShaperSet_badField (hout : byt d.body 0 1 = 0 ∨ 4095 < byt d.body 0 1) :
    bodyShaperSet d s = (s, .fail .badField) := by
  rw [bodyShaperSet, decide_eq_true hout, Bool.true_or, failIf_true]

/-- The policer that a DOMAIN_NET_SET leaves: brought up to date, its tokens cut to the new depth. -/
def policerSet (d : Desc) (s : State) : PolicerSt :=
  { policerNow s (byt d.body 0 0) with
    rate := byt d.body 16 19
    depth := byt d.body 20 23
    tokens := min (policerNow s (byt d.body 0 0)).tokens (byt d.body 20 23 * 8000) }

theorem bodyDomainNetSet_sets (hdom : byt d.body 0 0 ≤ 63) (hlow : 0 < byt d.body 20 23) (hhigh : byt d.body 20 23 ≤ 1048575)
    (hgood : shaperBad (byt d.body 8 15) = false) :
    bodyDomainNetSet d s
      = (modNet (setSh s (4096 + byt d.body 0 0)
          { getSh s (4096 + byt d.body 0 0) with record := BitVec.ofNat 64 (byt d.body 8 15) }) fun n =>
        { n with policers := n.policers.set (byt d.body 0 0) (policerSet d s) }, .done) := by
  rw [bodyDomainNetSet, failIf_neg (by simp [hgood]; omega)]
  rfl

@[simp] theorem getSh_setSh (s : State) (k : Nat) (v : ShaperSt) : getSh (setSh s k v) k = v := Map.getD_set ..

/-! ### Job keys (R339, R411) -/

theorem bodyJobKeyInstall_installs {p : PdSt} (hpd : byt d.body 0 1 ≤ 4095) (hsees : visiblePd d s (byt d.body 0 1) = some p)
    (hport : domPortOk d s p.domain = true) (hsealed : sealedDomain s p.domain = true) (hphase : fld d.body 16 16 = 0)
    (hnone : p.key0 = none) :
    bodyJobKeyInstall d s = (modNet (newKey s).2 fun n =>
      { n with pds := n.pds.set (byt d.body 0 1) { p with phase := 0, key0 := some s.sec.keys } }, .done) := by
  rw [bodyJobKeyInstall, failIf_neg (by simpa using hpd), hsees]
  simp only [hport, hsealed, hphase, hnone, Bool.not_true, failIf_false, zero_ne_one, if_false, if_true, Option.isSome_none,
    Bool.false_and, newKey]

theorem bodyJobKeyInstall_badField {p : PdSt} (hpd : byt d.body 0 1 ≤ 4095) (hsees : visiblePd d s (byt d.body 0 1) = some p)
    (hport : domPortOk d s p.domain = true) (hopen : sealedDomain s p.domain = false) :
    bodyJobKeyInstall d s = (s, .fail .badField) := by
  rw [bodyJobKeyInstall, failIf_neg (by simpa using hpd), hsees]
  simp only [hport, hopen, Bool.not_true, Bool.not_false, failIf_false, failIf_true]

end

/-- Settles O19, command by command. -/
theorem networkShapersAndJobKeysAreConfigured : Obligations.NetworkShapersAndJobKeysAreConfigured := by
  refine ⟨⟨does_of_body (body := netConfigBody) (fun _ _ => rfl) fun _ _ ⟨hkind, hp, hoff, hon⟩ =>
        (netConfigBody_port 0 hkind hp).trans (netPort_enables hoff hon),
      does_of_body (body := netConfigBody) (fun _ _ => rfl) fun _ _ ⟨hkind, hp, hon, hdiff⟩ =>
        (netConfigBody_port 1 hkind hp).trans (netPort_busy hon hdiff),
      does_of_body (body := netConfigBody) (fun _ _ => rfl) fun _ _ ⟨hkind, hfirst, hone, hoff, hdata⟩ =>
        netConfigBody_addresses hkind hfirst hone hoff hdata,
      does_of_body (body := netConfigBody) (fun _ _ => rfl) fun _ _ ⟨hkind, hfirst, hone, hoff⟩ =>
        netConfigBody_locality hkind hfirst hone hoff,
      does_of_body (body := netConfigBody) (fun _ _ => rfl) fun _ _ ⟨hkind, hfirst, hroom, hon⟩ =>
        netConfigBody_running (by omega) (by omega) hfirst hroom hon,
      does_of_body (body := bodyPdCreate) (fun _ _ => rfl) fun _ _ ⟨hpd, hnew⟩ => bodyPdCreate_makes hpd hnew,
      does_of_body (body := bodyPdDestroy) (fun _ _ => rfl) fun _ _ ⟨hpd, hsees, hfree⟩ =>
        bodyPdDestroy_erases hpd hsees hfree,
      does_of_body (body := bodyPdDestroy) (fun _ _ => rfl) fun _ _ ⟨hpd, huse⟩ => bodyPdDestroy_badState hpd huse⟩,
    does_of_body (body := bodyShaperSet) (fun _ _ => rfl) fun _ _ ⟨hlow, hhigh, hgood⟩ =>
      bodyShaperSet_sets hlow hhigh hgood,
    does_of_body (body := bodyShaperSet) (fun _ _ => rfl) fun _ _ hout => bodyShaperSet_badField hout,
    ends_of_body (body := bodyDomainNetSet) (fun _ _ => rfl) fun d s ⟨hdom, hlow, hhigh, hgood⟩ => ?_,
    ends_of_body (body := bodyJobKeyInstall) (fun _ _ => rfl) fun d s ⟨hpd, p, hsees, hport, hsealed, hphase, hnone⟩ => ?_,
    ends_of_body (body := bodyJobKeyInstall) (fun _ _ => rfl) fun d s ⟨hpd, p, hsees, hport, hopen⟩ => ?_⟩
  · rw [bodyDomainNetSet_sets hdom hlow hhigh hgood]
    exact ⟨rfl, congrArg (·.record) (getSh_setSh ..), ⟨_, Map.get?_set .., rfl, rfl, Nat.min_le_right ..⟩, rfl⟩
  · rw [bodyJobKeyInstall_installs hpd hsees hport hsealed hphase hnone]
    exact ⟨rfl, rfl, ⟨_, Map.get?_set .., rfl, rfl⟩, rfl⟩
  · rw [bodyJobKeyInstall_badField hpd hsees hport hopen]
    exact ⟨rfl, rfl⟩

end Sys2Proof.Machine
end

section
/-! Group 0x09 of the commands, second part: regions, work queues and completion queues (R304, R305, R307 to R310, R331). -/

namespace Sys2Proof.Machine

section
variable {d : Desc} {s : State}

/-! ### Work queues (R307, R308) -/

/-- The record that a QUEUE_CREATE asks for: its payload, as far as a command writes it. -/
def queueAsked (d : Desc) : BitVec 256 := BitVec.ofNat 256 ((BitVec.ofNat 256 (byt d.body 16 47)).toNat &&& queueWritable)

theorem bodyQueueCreate_makes {p : PdSt} (hpd : visiblePd d s (rf (queueAsked d) 99 88) = some p)
    (hcq : ((s.net.cqs.get? (rf (queueAsked d) 87 74)).filter fun c => seesDomain d c.domain).isSome = true)
    (hgood : queueBad p.domain (queueAsked d) = false) (hrange : queueInRange s p.domain (byt d.body 0 1) = true)
    (hnew : getWq s (byt d.body 0 1) = none) (hkey : lacksKey s p = false) :
    bodyQueueCreate d s = (setWq s (byt d.body 0 1)
      { record := queueAsked d, func := funcCode d.port d.func, domain := p.domain }, .done) := by
  obtain ⟨c, hc⟩ := Option.isSome_iff_exists.1 hcq
  unfold queueAsked at hpd hc hgood
  simp only [bodyQueueCreate, hpd, hc, hgood, hrange, hnew, hkey, Option.any_none, Bool.not_true, Bool.or_false, failIf_false,
    queueAsked]

section
variable {q : QueueSt} (hq : visibleQueue d s (byt d.body 0 1) = some q)
include hq

theorem bodyQueueModify_writes (hgood : queueBad q.domain (BitVec.ofNat 256 (byt d.body 16 47)) = false)
    (hfree : q.state = .reset ∨ differ q.record (BitVec.ofNat 256 (byt d.body 16 47)) queueLocked = false) :
    bodyQueueModify d s = (setWq s (byt d.body 0 1)
      { q with record := merge q.record (BitVec.ofNat 256 (byt d.body 16 47)) queueWritable }, .done) := by
  have hopen : (q.state != .reset && differ q.record (BitVec.ofNat 256 (byt d.body 16 47)) queueLocked) = false := by
    rcases hfree with h | h <;> simp [h]
  simp only [bodyQueueModify, hq, hgood, hopen, failIf_false]

theorem bodyQueueModify_busy (hgood : queueBad q.domain (BitVec.ofNat 256 (byt d.body 16 47)) = false)
    (hon : q.state ≠ .reset) (hdiff : differ q.record (BitVec.ofNat 256 (byt d.body 16 47)) queueLocked = true) :
    bodyQueueModify d s = (s, .fail .busy) := by
  have hlocked : (q.state != .reset && differ q.record (BitVec.ofNat 256 (byt d.body 16 47)) queueLocked) = true := by
    simp [hon, hdiff]
  simp only [bodyQueueModify, hq, hgood, hlocked, failIf_false, failIf_true]

theorem bodyQueueReset_resets (herr : q.state = .error) :
    bodyQueueReset d s = (resetQueues s (fun j _ => j == byt d.body 0 1), .done) := by
  rw [bodyQueueReset, hq]
  exact failIf_neg (by simp [herr])

theorem bodyQueueDestroy_erases (hoff : q.state ≠ .ready) :
    bodyQueueDestroy d s = (modNet s fun n => { n with
      queues := n.queues.erase (byt d.body 0 1)
      egress := n.egress.filter fun e => e.queue != byt d.body 0 1 }, .done) := by
  rw [bodyQueueDestroy, hq]
  exact failIf_neg (by simp [hoff])

theorem bodyQueueDestroy_badState (hon : q.state = .ready) : bodyQueueDestroy d s = (s, .fail .badState) := by
  rw [bodyQueueDestroy, hq]
  exact if_pos (by simp [hon])

end

/-! ### Completion queues (R310) -/

theorem bodyCqCreate_makes (hk : byt d.body 0 1 ≤ 16383) (hlow : 6 ≤ byt d.body 2 2) (hhigh : byt d.body 2 2 ≤ 16)
    (hvec : byt d.body 4 5 < vectorsOf d.func) (hbase : byt d.body 8 15 % 4096 = 0)
    (hrange : cqInRange s d.domain.toNat (byt d.body 0 1) = true) (hnew : s.net.cqs.has (byt d.body 0 1) = false) :
    bodyCqCreate d s = (modNet s fun n => { n with cqs := n.cqs.set (byt d.body 0 1) {
        base := byt d.body 8 15, log2 := byt d.body 2 2, vector := byt d.body 4 5, port := d.port, func := d.func,
        domain := d.domain.toNat } }, .done) := by
  have hfields : ¬ (16383 < byt d.body 0 1 ∨ byt d.body 2 2 < 6 ∨ 16 < byt d.body 2 2 ∨ vectorsOf d.func ≤ byt d.body 4 5
      ∨ byt d.body 8 15 % 4096 ≠ 0) := by omega
  simp only [bodyCqCreate, decide_eq_false hfields, hrange, hnew, Bool.not_true, Bool.or_false, failIf_false]

theorem bodyCqDestroy_erases (hk : byt d.body 0 1 ≤ 16383)
    (hsees : ((s.net.cqs.get? (byt d.body 0 1)).filter fun c => seesDomain d c.domain).isSome = true)
    (hidle : (s.net.queues.any fun j q => decide (j < 65536) && q.internal.isNone && qCq q == byt d.body 0 1) = false) :
    bodyCqDestroy d s = (modNet s fun n => { n with cqs := n.cqs.erase (byt d.body 0 1) }, .done) := by
  obtain ⟨c, hc⟩ := Option.isSome_iff_exists.1 hsees
  rw [bodyCqDestroy, failIf_neg (by simpa using hk), hc]
  exact failIf_neg hidle

/-! ### Regions (R304, R305, R331) -/

/-- The region that a REGION_REGISTER makes. -/
def regionAsked (d : Desc) (s : State) : RegionSt where
  record := BitVec.ofNat 256 ((BitVec.ofNat 256 (byt d.body 0 31)).toNat &&& maskOf [(255, 126)])
  func := funcCode d.port d.func
  domain := ((s.net.pds.get? (rf (BitVec.ofNat 256 (byt d.body 0 31)) 143 132)).map (·.domain)).getD 0

section
variable (hpd : (visiblePd d s (rf (BitVec.ofNat 256 (byt d.body 0 31)) 143 132)).isSome = true)
  (hgood : regionBad s (BitVec.ofNat 256 (byt d.body 0 31)) = false)
include hpd hgood

theorem bodyRegionRegister_makes {i : Nat} (hplace : chooseFree s s.net.regions 262144 = some i) :
    bodyRegionRegister d s
      = (modNet (useFree s) fun n => { n with regions := n.regions.set i (regionAsked d s) }, .done (regionKey s i)) := by
  rw [bodyRegionRegister, failIf_neg (by simpa using hpd), failIf_neg hgood, hplace]
  rfl

theorem bodyRegionRegister_exhausted (hfull : chooseFree s s.net.regions 262144 = none) :
    bodyRegionRegister d s = (s, .fail .exhausted) := by
  rw [bodyRegionRegister, failIf_neg (by simpa using hpd), failIf_neg hgood, hfull]

end

theorem bodyRegionRevoke_marks {r : RegionSt} (hr : regionAt s (byt d.body 0 3) = some r)
    (hsees : seesDomain d r.domain = true) (hvalid : r.revoking = false) :
    bodyRegionRevoke d s = (modNet s fun n => { n with
      regions := n.regions.set (fld (byt d.body 0 3) 17 0) { r with revoking := true } },
      .accept (.region (fld (byt d.body 0 3) 17 0))) := by
  have hfound : (regionAt s (byt d.body 0 3)).filter (fun r => seesDomain d r.domain) = some r := by
    rw [hr, Option.filter_some, if_pos hsees]
  rw [bodyRegionRevoke, hfound]
  exact failIf_neg hvalid

end

theorem finishWhere_of_none {s : State} (h : s.flights = []) (p : Flight → Bool) (st : Status) (r a : Nat) :
    finishWhere s p st r a = s := by
  cases s
  cases h
  rfl

theorem drainedOp_frees {i : Nat} {r : RegionSt} {s : State} (hr : s.net.regions.get? i = some r) (hrev : r.revoking = true)
    (hnone : s.flights = []) :
    drainedOp s i = modNet s fun n => { n with
      regions := n.regions.erase i
      regionGen := n.regionGen.set i ((genOf s i + 1) % 2 ^ 14) } := by
  simp only [drainedOp, hr, hrev, Bool.not_true, Bool.false_eq_true, if_false]
  exact finishWhere_of_none (by exact hnone) ..

theorem revokeDrained_frees (i n : Nat) (r : RegionSt) (s : State) (hr : s.net.regions.get? i = some r)
    (hrev : r.revoking = true) (hnone : s.flights = []) :
    exec (.revokeDrained i n) s = .next (modNet (clockTo s n) fun x => { x with
      regions := x.regions.erase i
      regionGen := x.regionGen.set i ((genOf s i + 1) % 2 ^ 14) }) := by
  have hgen : genOf (clockTo s n) i = genOf s i := by rw [genOf, clockTo_net, genOf]
  rw [← hgen]
  exact congrArg Host.Outcome.next (drainedOp_frees (by rwa [clockTo_net]) hrev (by rwa [clockTo_flights]))

/-- Settles O20, command by command. It rests on assumptions 3 (the index of a new region is a free choice) and 110 (a queue
in RESET may change its locked fields). -/
theorem regionsAndQueuesAreMade : Obligations.RegionsAndQueuesAreMade := by
  refine ⟨⟨ends_of_body (body := bodyQueueCreate) (fun _ _ => rfl) fun d s ⟨p, hpd, hcq, hgood, hrange, hnew, hkey⟩ => ?_,
      ends_of_body (body := bodyQueueModify) (fun _ _ => rfl) fun d s ⟨q, hq, hgood, hfree⟩ => ?_,
      ends_of_body (body := bodyQueueModify) (fun _ _ => rfl) fun d s ⟨q, hq, hgood, hon, hdiff⟩ => ?_,
      ends_of_body (body := bodyQueueReset) (fun _ _ => rfl) fun d s ⟨_, q, hq, herr⟩ => ?_,
      ends_of_body (body := bodyQueueDestroy) (fun _ _ => rfl) fun d s ⟨q, hq, hoff⟩ => ?_,
      ends_of_body (body := bodyQueueDestroy) (fun _ _ => rfl) fun d s ⟨q, hq, hon⟩ => ?_,
      does_of_body (body := bodyCqCreate) (fun _ _ => rfl) fun d s ⟨hk, hlow, hhigh, hvec, hbase, hrange, hnew⟩ =>
        bodyCqCreate_makes hk hlow hhigh hvec hbase hrange hnew,
      does_of_body (body := bodyCqDestroy) (fun _ _ => rfl) fun d s ⟨hk, hsees, hidle⟩ =>
        bodyCqDestroy_erases hk hsees hidle⟩,
    fun d s i hreach hpd hgood hplace => ?_,
    does_of_body (body := bodyRegionRegister) (fun _ _ => rfl) fun d s ⟨hpd, hgood, hfull⟩ =>
      bodyRegionRegister_exhausted hpd hgood hfull,
    ends_of_body (body := bodyRegionRevoke) (fun _ _ => rfl) fun d s ⟨r, hr, hsees, hvalid⟩ => ?_,
    revokeDrained_frees⟩
  · rw [bodyQueueCreate_makes hpd hcq hgood hrange hnew hkey]
    exact ⟨rfl, rfl, _, getWq_setWq .., rfl, rfl, rfl⟩
  · rw [bodyQueueModify_writes hq hgood hfree]
    exact ⟨rfl, q, hq, rfl⟩
  · rw [bodyQueueModify_busy hq hgood hon hdiff]
    exact ⟨rfl, rfl⟩
  · rw [bodyQueueReset_resets hq herr]
    exact ⟨rfl, rfl⟩
  · rw [bodyQueueDestroy_erases hq hoff]
    exact ⟨rfl, rfl⟩
  · rw [bodyQueueDestroy_badState hq hon]
    exact ⟨rfl, rfl⟩
  · have hnet : (atBody d s).net = s.net := by simp
    have hfree : (atBody d s).free = s.free := by simp
    have hmade := bodyRegionRegister_makes hpd hgood (hnet.symm ▸ hplace)
    refine ⟨_, (congrArg Host.Outcome.next (huavo_reached hreach)).trans (by rw [hmade]), ?_⟩
    rw [← hfree, ← hnet]
    exact ⟨congrArg _ (Map.get?_set ..), congrArg _ (Map.get?_set ..), rfl⟩
  · rw [bodyRegionRevoke_marks hr hsees hvalid]
    exact ⟨rfl, r, hr, rfl⟩

end Sys2Proof.Machine
end

section
/-! How a message is cut into packets (R300, R319): the frames that a launched message leaves, the work request that is too
long, and the packet that is malformed. -/

namespace Sys2Proof.Machine

/-! ### The frames of a message that is built for the first time -/

/-- A frame carries packet `i` of a message of domain `d` for the first time. -/
structure FirstFrame (s : State) (qk mk d : Nat) (m : SendMsg) (i : Nat) (e : EgrPkt) : Prop where
  kind : e.kind = .data mk i 0 false
  queue : e.queue = qk
  len : e.len = frameLen s d m.extLen (payloadOf m.op m.total i)

/-- A queue of domain `d` holds a message with the fields of `m`, of which no packet from number `n` on was sent. -/
def Unsent (s : State) (qk mk d : Nat) (m : SendMsg) (n : Nat) : Prop :=
  ∃ q x, getWq s qk = some q ∧ q.domain = d ∧ q.sent.get? mk = some x ∧ x.op = m.op ∧ x.total = m.total
    ∧ x.extLen = m.extLen ∧ ∀ j, n ≤ j → x.sent.getD j 0 = 0

theorem frameLen_congr {s t : State} (h : t.domains = s.domains) (d e p : Nat) : frameLen t d e p = frameLen s d e p := by
  rw [frameLen, frameLen, sealedDomain, sealedDomain, h]

section
variable {s : State} {qk mk d n : Nat} {m : SendMsg}

theorem FirstFrame.congr {t : State} {e : EgrPkt} (h : FirstFrame t qk mk d m n e) (hdom : t.domains = s.domains) :
    FirstFrame s qk mk d m n e :=
  ⟨h.kind, h.queue, h.len.trans (frameLen_congr hdom ..)⟩

theorem sendPacket_first (h : Unsent s qk mk d m n) :
    ∃ e, (sendPacket s qk mk n false).net.egress = s.net.egress ++ [e] ∧ FirstFrame s qk mk d m n e
      ∧ Unsent (sendPacket s qk mk n false) qk mk d m (n + 1) := by
  obtain ⟨q, x, hq, rfl, hx, hop, htotal, hext, hnew⟩ := h
  simp only [sendPacket, hq, hx]
  refine ⟨_, rfl, ⟨?_, rfl, ?_⟩, _, _, getWq_setWq .., rfl, Map.get?_set .., hop, htotal, hext, fun j hj => ?_⟩
  · rw [hnew n le_rfl]
  · rw [hop, htotal, hext]
  · exact (Map.getD_set_ne _ (by omega) ..).trans (hnew j (by omega))

theorem sendAll_succ (s : State) (qk mk n : Nat) : sendAll s qk mk (n + 1) = sendPacket (sendAll s qk mk n) qk mk n false := by
  rw [sendAll, sendAll, List.range_succ, List.foldl_append, List.foldl_cons, List.foldl_nil]

theorem sendAll_first (h : Unsent s qk mk d m 0) (n : Nat) :
    (∃ l, (sendAll s qk mk n).net.egress = s.net.egress ++ l ∧ l.length = n
      ∧ ∀ (i : Nat) (hi : i < l.length), FirstFrame s qk mk d m i l[i]) ∧ Unsent (sendAll s qk mk n) qk mk d m n := by
  induction n with
  | zero => exact ⟨⟨[], (List.append_nil _).symm, rfl, fun _ hi => absurd hi (Nat.not_lt_zero _)⟩, h⟩
  | succ n ih =>
    obtain ⟨⟨l, hl, hlen, hframes⟩, hunsent⟩ := ih
    obtain ⟨e, he, hfirst, hnext⟩ := sendPacket_first hunsent
    rw [sendAll_succ]
    refine ⟨⟨l ++ [e], by rw [he, hl, List.append_assoc], by simp [hlen], fun i hi => ?_⟩, hnext⟩
    by_cases hlast : i < l.length
    · rw [List.getElem_append_left hlast]
      exact hframes i hlast
    · obtain rfl : i = n := by
        rw [List.length_append, List.length_singleton] at hi
        omega
      rw [List.getElem_append_right (by omega)]
      simpa using hfirst.congr (by simp)

end

/-! ### Packets and their payloads (R300, R319) -/

/-- Bytes that the packets of a message carry: READ, FLUSH and FLUSH_RESP carry none (R300). -/
def carriedBytes (op total : Nat) : Nat := if op = 2 ∨ op = 7 ∨ op = 8 then 0 else total

theorem packetsOf_eq (op total : Nat) : packetsOf op total = max 1 (ceilDiv (carriedBytes op total) 4096) := by
  unfold packetsOf carriedBytes
  split
  · rfl
  · rfl

theorem payloadOf_eq (op total i : Nat) : payloadOf op total i = min 4096 (carriedBytes op total - 4096 * i) := by
  unfold payloadOf carriedBytes
  split
  · simp
  · rfl

/-- A message as a queue takes it: its packets are counted and its key phase is fixed. -/
def takenMessage (s : State) (q : QueueSt) (m : SendMsg) : SendMsg :=
  { m with packets := packetsOf m.op m.total, timer := s.ns, phase := ((s.net.pds.get? (qPd q)).map (·.phase)).getD 0 }

/-- A queue has taken a message under its next MSG_ID, and none of its packets is built. -/
def messageTaken (s : State) (qk : Nat) (q : QueueSt) (m : SendMsg) : State :=
  emit (setWq s qk { q with nextId := (q.nextId + 1) % 2 ^ 32, sent := q.sent.set (q.nextId % 2 ^ 32) (takenMessage s q m) })
    (.message (qPeerNode q) qk m.op (q.nextId % 2 ^ 32) m.addr m.total m.ext m.data)

section
variable {s : State} {qk : Nat} {q : QueueSt} {m : SendMsg}

theorem launch_eq (hq : getWq s qk = some q) :
    launch s qk m = sendAll (messageTaken s qk q m) qk (q.nextId % 2 ^ 32) (packetsOf m.op m.total) := by
  simp only [launch, hq]
  rfl

theorem messageTaken_unsent (hnew : m.sent = .empty) :
    Unsent (messageTaken s qk q m) qk (q.nextId % 2 ^ 32) q.domain m 0 :=
  ⟨_, takenMessage s q m, getWq_setWq .., rfl, Map.get?_set .., rfl, rfl, rfl, fun j _ => by rw [takenMessage, hnew]; rfl⟩

end

theorem launch_frames (s : State) (qk : Nat) (q : QueueSt) (m : SendMsg) (bytes : Nat) (hq : getWq s qk = some q)
    (hnew : m.sent = .empty) (hbytes : bytes = carriedBytes m.op m.total) :
    ∃ l, (launch s qk m).net.egress = s.net.egress ++ l ∧ l.length = max 1 (ceilDiv bytes 4096)
      ∧ ∀ (i : Nat) (h : i < l.length), l[i].kind = .data (q.nextId % 2 ^ 32) i 0 false ∧ l[i].queue = qk
        ∧ l[i].len = frameLen s q.domain m.extLen (min 4096 (bytes - 4096 * i)) := by
  subst hbytes
  simp only [← payloadOf_eq, ← packetsOf_eq]
  rw [launch_eq hq]
  obtain ⟨⟨l, hl, hlen, hframes⟩, -⟩ := sendAll_first (messageTaken_unsent (s := s) (qk := qk) (q := q) hnew)
    (packetsOf m.op m.total)
  exact ⟨l, hl, hlen, fun i hi => ⟨(hframes i hi).kind, (hframes i hi).queue, (hframes i hi).len⟩⟩

/-! ### A work request that is too long (R319) -/

theorem sendBad_tooLong {s : State} {q : QueueSt} {w : WorkRequest} (hrsv : w.rsv = 0) (hlong : 16777216 < w.length) :
    sendBad s q w = some .badField := by
  unfold sendBad
  rw [if_neg (not_not_intro hrsv), if_pos hlong, ite_self]

/-- What every request at the front of a queue has passed: the queue is READY, the node sends, the peer is reachable. -/
structure SendsNow (s : State) (qk : Nat) (q : QueueSt) (w : WorkRequest) (rest : List WorkRequest) : Prop where
  queue : getWq s qk = some q
  front : q.sq = w :: rest
  ready : q.state = .ready
  traffic : trafficOff s = false
  sound : s.boot.failed = false

/-- The front request of a queue has left its ring. -/
def popped (s : State) (qk : Nat) (rest : List WorkRequest) : State := modWq s qk fun q => { q with sq := rest }

section
variable {s : State} {qk : Nat} {q : QueueSt} {w : WorkRequest} {rest : List WorkRequest} (h : SendsNow s qk q w rest)
include h

theorem sendRequest_bad {st : Status} (host : HostRead) (hpeer : qPeerNode q ∉ s.net.fencedNodes)
    (hbad : sendBad s q w = some st) :
    sendRequest s qk host = completeWr (popped s qk rest) qk w st w.length 0 := by
  obtain ⟨hq, hfront, hready, htraffic, hsound⟩ := h
  simp [sendRequest, hq, hfront, hready, htraffic, hsound, hpeer, hbad, popped]

end

/-! ### A packet that breaks the cut (R302, R319) -/

theorem malformed_of_badCut {k : Packet} {bytes : Nat} (hack : k.op ≠ 16) (hnack : k.op ≠ 17)
    (hbytes : bytes = carriedBytes k.op k.totalLen)
    (hcut : k.offset % 4096 ≠ 0 ∨ 16777216 < k.totalLen ∨ max 1 (ceilDiv bytes 4096) ≤ k.offset / 4096
      ∨ k.payLen ≠ min 4096 (bytes - k.offset)) : malformed k = true := by
  have hcheck : (k.offset % 4096 != 0 || decide (16777216 < k.totalLen)
      || decide (packetsOf k.op k.totalLen ≤ k.offset / 4096)
      || k.payLen != payloadOf k.op k.totalLen (k.offset / 4096)) = true := by
    rw [packetsOf_eq, payloadOf_eq, ← hbytes]
    by_cases haligned : k.offset % 4096 = 0
    · rw [Nat.mul_div_cancel' (Nat.dvd_of_mod_eq_zero haligned)]
      simpa [or_assoc] using hcut
    · simp [haligned]
  unfold malformed
  rw [if_neg (c := k.op = 16 ∨ k.op = 17) (by simp [hack, hnack]), hcheck, Bool.or_true]

section
variable {s : State} {k : Packet} (htraffic : trafficOff s = false) (hsound : (s.boot.failed && !k.mgmt) = false)
  (hup : ethUp s k.port = true) (hframe : k.frameOk = true)
include htraffic hsound hup hframe

theorem ingress_malformed (hbad : malformed k = true) : ingress s k = (count s 0 k.port.val 1, false) := by
  simp [ingress, htraffic, hsound, hup, hframe, hbad]

end

theorem packetOp_dropped {s u : State} {k : Packet} (h : ingress s k = (u, false)) : packetOp s k = u := by
  simp [packetOp, h]

/-- Settles O60: the frames of a launched message by induction on the packets built. It rests on assumption 107 (READ, FLUSH
and FLUSH_RESP are one packet without payload). -/
theorem messagesAreCutIntoPackets : Obligations.MessagesAreCutIntoPackets := by
  refine ⟨launch_frames, fun k n h q w rest s hq hfront hready htraffic hsound hpeer hrsv hlong => ?_,
    fun k s bytes htraffic hsound hup hframe hack hnack hbytes hcut => ?_⟩
  · exact congrArg Host.Outcome.next (sendRequest_bad ⟨hq, hfront, hready, htraffic, by simpa using hsound⟩ h
      (by simpa using hpeer) (sendBad_tooLong hrsv hlong))
  · exact congrArg Host.Outcome.next (packetOp_dropped (ingress_malformed htraffic (by simp [hsound]) hup hframe
      (malformed_of_badCut hack hnack hbytes hcut)))

end Sys2Proof.Machine
end

section
/-! How requests and their answers are served (R311, R312, R313, R315, R329, R330): the message at LOW of a queue is acted
on, and a whole answer completes the request it answers. -/

namespace Sys2Proof.Machine

section
variable {s : State} {m : MsgRef} {op : Nat} {q : QueueSt} {r : RecvMsg} {w : SendMsg}

/-! ### What may be acted on (R311, R329) -/

theorem deliverable_eq_some_iff : deliverable s m op = some (q, r) ↔ AtLow s m op q r := by
  constructor
  · intro h
    unfold deliverable at h
    split at h
    · cases h
    next p hp =>
      split at h
      · cases h
      next hlow =>
        split at h
        · cases h
        next x hx =>
          split at h
          next hgood =>
            cases h
            obtain ⟨hid, hready⟩ : m.msgId = q.low ∧ q.state = .ready := by simpa using hlow
            obtain ⟨⟨hwhole, hop⟩, htaken⟩ : (r.complete = true ∧ r.op = op) ∧ r.refused = none := by simpa using hgood
            exact ⟨hp, hid.symm, hready, hx, hwhole, hop, htaken⟩
          · cases h
  · rintro ⟨hq, hlow, hready, hr, hwhole, hop, htaken⟩
    simp [deliverable, hq, ← hlow, hready, hlow.symm ▸ hr, hwhole, hop, htaken]

theorem answerFor_eq_some_iff : answerFor s m op = some (q, r, w) ↔ AnswerIn s m op q r w := by
  constructor
  · intro h
    unfold answerFor at h
    split at h
    · cases h
    next p hp =>
      split at h
      next x y hx hy =>
        split at h
        next hgood =>
          cases h
          obtain ⟨⟨hwhole, hop⟩, hwaits⟩ : (r.complete = true ∧ r.op = op) ∧ w.completed = false := by simpa using hgood
          exact ⟨hp, hx, hy, hwhole, hop, hwaits⟩
        · cases h
      · cases h
  · rintro ⟨hq, hr, hw, hwhole, hop, hwaits⟩
    simp only [answerFor, hq, hr, hw]
    simp [hwhole, hop, hwaits]

theorem deliverable_eq_none (h : ∀ op q r, ¬ AtLow s m op q r) (op : Nat) : deliverable s m op = none :=
  Option.eq_none_iff_forall_ne_some.2 fun ⟨q, r⟩ hsome => h op q r (deliverable_eq_some_iff.1 hsome)

theorem answerFor_eq_none (h : ∀ op q r w, ¬ AnswerIn s m op q r w) (op : Nat) : answerFor s m op = none :=
  Option.eq_none_iff_forall_ne_some.2 fun ⟨q, r, w⟩ hsome => h op q r w (answerFor_eq_some_iff.1 hsome)

/-! ### READ (R311) -/

theorem readOp_denied (h : AtLow s m 2 q r) (hno : regionAt s r.key = none) : readOp s m = refuse s m.queue q .denied := by
  simp only [readOp, deliverable_eq_some_iff.2 h, hno]

section
variable {g : RegionSt} (h : AtLow s m 2 q r) (hg : regionAt s r.key = some g)
include h hg

theorem readOp_reads_window (hkind : gKind g = 1) :
    readOp s m = delivered (launchAnswer (chargeDram s g.domain false r.total) m.queue m.msgId 3 0 r.total
      (memReadN s.bulk (gBase g + r.addr) r.total)) m.queue := by
  simp [readOp, deliverable_eq_some_iff.2 h, hg, hkind, regionGet]

theorem readOp_reads_host (hkind : gKind g = 0) (hok : m.hostOk = true) :
    readOp s m = delivered (launchAnswer (chargePcie s g.domain false r.total) m.queue m.msgId 3 0 r.total
      (m.hostData % 2 ^ (8 * r.total))) m.queue := by
  simp [readOp, deliverable_eq_some_iff.2 h, hg, hkind, hok, regionGet]

end

/-! ### ATOMIC (R313) -/

theorem fld_low (x hi : Nat) : fld x hi 0 = x % 2 ^ (hi + 1) := by simp [fld]

section
variable {g : RegionSt} (h : AtLow s m 5 q r) (hg : regionAt s r.key = some g)
include h hg

theorem atomicOp_adds (hadd : r.atop = 1) :
    atomicOp s m = delivered (launchAnswer (regionPut s g r.addr 8
      ((regionGet s g r.addr 8 m.hostData + r.data % 2 ^ 64) % 2 ^ 64)) m.queue m.msgId 6 0 8
        (regionGet s g r.addr 8 m.hostData)) m.queue := by
  simp only [atomicOp, deliverable_eq_some_iff.2 h, hg, if_pos hadd, fld_low]

theorem atomicOp_compares (hswap : r.atop = 2) :
    atomicOp s m = delivered (launchAnswer
      (if regionGet s g r.addr 8 m.hostData = r.data / 2 ^ 64 % 2 ^ 64 then regionPut s g r.addr 8 (r.data % 2 ^ 64) else s)
        m.queue m.msgId 6 0 8 (regionGet s g r.addr 8 m.hostData)) m.queue := by
  have hnot : ¬ r.atop = 1 := by omega
  simp only [atomicOp, deliverable_eq_some_iff.2 h, hg, if_neg hnot, fld_low]
  rfl

end

/-! ### FLUSH (R330) -/

theorem flushOp_answers (h : AtLow s m 7 q r) :
    flushOp s m = delivered (launchAnswer (modWq s m.queue fun q => { q with unplaced := none }) m.queue m.msgId 8
      (q.unplaced.getD .ok).code 0 0) m.queue := by
  simp only [flushOp, deliverable_eq_some_iff.2 h]

/-! ### TRIGGER (R312) -/

theorem fireTag_of_none_parked {s : State} {qk tag : Nat} {q : QueueSt} (hq : getWq s qk = some q) (hnone : q.parked = [])
    (fuel : Nat) : fireTag s qk tag fuel = s := by
  cases fuel with
  | zero => rfl
  | succ n => simp [fireTag, hq, hnone]

section
variable (h : AtLow s m 9 q r) (hattn : r.attn = false)
include h hattn

theorem triggerOp_exhausted (hnew : q.tags.has (fld r.ext 31 0) = false) (hfull : 64 ≤ q.tags.size) :
    triggerOp s m = refuse s m.queue q .exhausted := by
  simp [triggerOp, deliverable_eq_some_iff.2 h, hattn, hnew, hfull]

theorem triggerOp_counts (hroom : q.tags.size < 64) (hnone : q.parked = []) :
    triggerOp s m = delivered (modWq s m.queue fun q =>
      { q with tags := q.tags.upd (fld r.ext 31 0) 0 fun n => n + 1 }) m.queue := by
  have hqueue : getWq (modWq s m.queue fun q => { q with tags := q.tags.upd (fld r.ext 31 0) 0 fun n => n + 1 }) m.queue
      = some { q with tags := q.tags.upd (fld r.ext 31 0) 0 fun n => n + 1 } := by
    rw [getWq_modWq, h.queue, Option.map_some]
  have hfull : ¬ 64 ≤ q.tags.size := by omega
  simp only [triggerOp, deliverable_eq_some_iff.2 h, hattn, decide_eq_false hfull, Bool.and_false, Bool.false_eq_true, if_false,
    fireTag_of_none_parked hqueue hnone]

end

/-! ### SEND (R311, R315) -/

section
variable (h : AtLow s m 4 q r)
include h

theorem sendOp_completes {x : WorkRequest} (hrq : r.rq = some x) :
    sendOp s m = delivered (completeWr s m.queue x .ok r.total m.msgId r.solicit) m.queue := by
  simp only [sendOp, deliverable_eq_some_iff.2 h, hrq]

theorem sendOp_steps {k : HeatSt} (hrq : r.rq = none) (hstep : q.internal = some 0) (hattn : r.attn = true)
    (hheat : getH s (fld r.ext 23 12) = some k) (hmaster : k.master = some (qPeerNode q)) :
    sendOp s m = delivered
      (if r.total = 32 ∧ fld r.ext 95 48 = 0 then stripeMark s (fld r.ext 23 12) (BitVec.ofNat 32 (fld r.ext 127 96))
       else stripeRows s (fld r.ext 23 12) (fld r.ext 127 96) r.total r.data) m.queue := by
  simp [sendOp, deliverable_eq_some_iff.2 h, hrq, hstep, hattn, stripeSend, stripeHeat, hheat, hmaster]

end

/-! ### Answers (R311, R330) -/

theorem readRespOp_completes {g : RegionSt} {off : Nat} (h : AnswerIn s m 3 q r w)
    (hbuf : localBuffer s (qPd q) w.wr w.total = some (g, off)) (hhost : gKind g = 0 → m.hostOk = true) :
    readRespOp s m = closeRequest (completeWr (regionPut s g off w.total r.data) m.queue w.wr .ok w.total m.msgId) m.queue
      m.msgId := by
  have hserved : ¬ (gKind g = 0 ∧ (!m.hostOk) = true) := fun ⟨hkind, hbad⟩ => by simp [hhost hkind] at hbad
  simp only [readRespOp, answerFor_eq_some_iff.2 h, hbuf, if_neg hserved]

theorem atomicRespOp_completes {g : RegionSt} {off : Nat} (h : AnswerIn s m 6 q r w)
    (hbuf : localBuffer s (qPd q) w.wr 8 = some (g, off)) :
    atomicRespOp s m = closeRequest (completeWr (regionPut s g off 8 r.data) m.queue w.wr .ok 8 m.msgId) m.queue m.msgId := by
  simp only [atomicRespOp, answerFor_eq_some_iff.2 h, hbuf]

theorem flushRespOp_fails {st : Status} (h : AnswerIn s m 8 q r w) (hhost : w.purpose = .host) (hsmall : r.addr < 65536)
    (hst : Status.ofCode r.addr = some st) (hbad : st ≠ .ok) :
    flushRespOp s m = closeRequest (completeWr (modWq s m.queue fun q => { q with recorded := none }) m.queue w.wr st w.total
      m.msgId) m.queue m.msgId := by
  simp only [flushRespOp, answerFor_eq_some_iff.2 h, Nat.mod_eq_of_lt hsmall, hst, Option.getD_some, if_neg hbad, hhost]

end

/-- Settles O44, operation by operation. It rests on assumptions 5 (a row whose condition is not met changes nothing but the
time), 23 (LOCAL_ADDR counts in the local region's own space) and 109 (a stripe mark that is refused writes nothing). -/
theorem requestsAreServedInOrder : Obligations.RequestsAreServedInOrder := by
  refine ⟨fun m s hnone => ?_,
    fun _ _ _ _ h hno => congrArg Host.Outcome.next (readOp_denied h hno),
    fun m q r g s h hg hkind => ?_,
    fun _ _ _ _ _ h hg hkind hok => congrArg Host.Outcome.next (readOp_reads_host h hg hkind hok),
    fun _ _ _ _ _ h hg hadd => congrArg Host.Outcome.next (atomicOp_adds h hg hadd),
    fun _ _ _ _ _ h hg hswap => congrArg Host.Outcome.next (atomicOp_compares h hg hswap),
    fun _ _ _ _ h => congrArg Host.Outcome.next (flushOp_answers h),
    fun _ _ _ _ h hattn hnew hfull => congrArg Host.Outcome.next (triggerOp_exhausted h hattn hnew hfull),
    fun _ _ _ _ h hattn hroom hparked => congrArg Host.Outcome.next (triggerOp_counts h hattn hroom hparked),
    fun _ _ _ _ _ h hrq => congrArg Host.Outcome.next (sendOp_completes h hrq),
    fun m q r k x s h hrq hstep hattn hk hheat hmaster => ?_,
    fun _ _ _ _ _ _ _ h hbuf hhost => congrArg Host.Outcome.next (readRespOp_completes h hbuf hhost),
    fun _ _ _ _ _ _ _ h hbuf => congrArg Host.Outcome.next (atomicRespOp_completes h hbuf),
    fun _ _ _ _ _ _ h hhost hsmall hst hbad => congrArg Host.Outcome.next (flushRespOp_fails h hhost hsmall hst hbad),
    fun m s hnone => ?_⟩
  · have idle := deliverable_eq_none hnone
    exact ⟨congrArg Host.Outcome.next (by rw [readOp, idle]), congrArg Host.Outcome.next (by rw [atomicOp, idle]),
      congrArg Host.Outcome.next (by rw [flushOp, idle]), congrArg Host.Outcome.next (by rw [triggerOp, idle]),
      congrArg Host.Outcome.next (by rw [sendOp, idle])⟩
  · rw [← clockTo_bulk s m.now]
    exact congrArg Host.Outcome.next (readOp_reads_window h hg hkind)
  · subst hk
    exact congrArg Host.Outcome.next (sendOp_steps h hrq hstep hattn hheat hmaster)
  · have idle := answerFor_eq_none hnone
    exact ⟨congrArg Host.Outcome.next (by rw [readRespOp, idle]), congrArg Host.Outcome.next (by rw [atomicRespOp, idle]),
      congrArg Host.Outcome.next (by rw [flushRespOp, idle])⟩

end Sys2Proof.Machine
end

section
/-! Queues, shapers and links (R292 to R294, R297, R308 to R312, R322, R333 to R335, R428): doorbells, the request at the
front of a queue, the calendar of the shapers, frames that leave and arrive, and links. -/

namespace Sys2Proof.Machine

/-! ### Doorbells (R428) -/

/-- Entries that a doorbell posts: from the ring's old tail to its new one. -/
def postCount (v : Word) (tail : Nat) : Nat := (rf v 31 16 + 65536 - tail) % 65536

section
variable {s : State} {p : Port} {f : Func} {v : Word} {l : List WorkRequest} {q : QueueSt} (hrsv : rf v 61 32 = 0)
include hrsv

section
variable (hq : getWq s (rf v 15 0) = some q) (hfunc : q.func = funcCode p f) (hhost : q.internal = none)
  (hon : q.state ≠ .reset)
include hq hfunc hhost hon

theorem doorbellOp_posts_send (hkind : rf v 63 62 = 0) (hroom : q.sq.length + postCount v q.sqTail ≤ 2 ^ qSqLog2 q) :
    doorbellOp s p f 8 v l = postSend s (rf v 15 0) q (rf v 31 16) (posted l (postCount v q.sqTail)) := by
  simp only [postCount] at hroom
  simp [doorbellOp, hrsv, hkind, hq, hfunc, hhost, hon, hroom.not_gt, postCount]

theorem doorbellOp_overfull (hkind : rf v 63 62 = 0) (hfull : 2 ^ qSqLog2 q < q.sq.length + postCount v q.sqTail) :
    doorbellOp s p f 8 v l = raiseRing s p f 0x0033 0x1000 v.toNat := by
  simp only [postCount] at hfull
  simp [doorbellOp, hrsv, hkind, hq, hfunc, hhost, hon, hfull]

theorem doorbellOp_posts_recv (hkind : rf v 63 62 = 1) (hring : qRqLog2 q ≠ 0)
    (hroom : q.rq.length + postCount v q.rqTail ≤ 2 ^ qRqLog2 q) :
    doorbellOp s p f 8 v l = postRecv s (rf v 15 0) q (rf v 31 16) (posted l (postCount v q.rqTail)) := by
  simp only [postCount] at hroom
  simp [doorbellOp, hrsv, hkind, hq, hfunc, hhost, hon, hring, hroom.not_gt, postCount]

end

theorem doorbellOp_consumes {c : CqSt} (hc : s.net.cqs.get? (rf v 13 0) = some c) (hport : c.port = p) (hfunc : c.func = f)
    (hkind : 2 ≤ rf v 63 62) :
    doorbellOp s p f 8 v l = modNet s fun x => { x with cqs := x.cqs.set (rf v 13 0) { c with
      head := min c.tail (c.head + (rf v 31 16 + 65536 - c.head % 65536) % 65536)
      armed := c.armed || rf v 63 62 == 3 } } := by
  simp [doorbellOp, hrsv, hkind.not_gt, hc, hport, hfunc]

end

theorem postSend_ready {s : State} {qk : Nat} {q : QueueSt} (hready : q.state = .ready) (idx : Nat) (l : List WorkRequest) :
    postSend s qk q idx l = setWq s qk { q with sqTail := idx, sq := q.sq ++ l } :=
  if_neg (by simp [hready])

theorem posted_one (l : List WorkRequest) : posted l 1 = [l.getD 0 {}] := rfl

/-- Whether a receive request is sound depends on the regions alone. -/
theorem recvBad_setWq (s : State) (k : Nat) (p q : QueueSt) (w : WorkRequest) : recvBad (setWq s k p) q w = recvBad s q w := rfl

theorem postRecv_one {s : State} {qk : Nat} {q : QueueSt} {w : WorkRequest} (hready : q.state = .ready)
    (hgood : recvBad s q w = none) (idx : Nat) :
    postRecv s qk q idx [w] = modWq (setWq s qk { q with rqTail := idx }) qk fun q => { q with rq := q.rq ++ [w] } := by
  simp [postRecv, hready, recvBad_setWq, hgood]

theorem modWq_setWq_only (s : State) (k : Nat) (q : QueueSt) (g : QueueSt → QueueSt) :
    modWq (setWq s k q) k g = { s with net := (modWq (setWq s k q) k g).net } := rfl

/-! ### The request at the front of a queue (R309, R312, R322) -/

section
variable {s : State} {qk : Nat} {q : QueueSt} {w : WorkRequest} {rest : List WorkRequest} (h : SendsNow s qk q w rest)
include h

theorem sendRequest_fenced (host : HostRead) (hpeer : qPeerNode q ∈ s.net.fencedNodes) :
    sendRequest s qk host = completeWr (popped s qk rest) qk w .fenced w.length 0 := by
  obtain ⟨hq, hfront, hready, htraffic, hsound⟩ := h
  simp [sendRequest, hq, hfront, hready, htraffic, hsound, hpeer, popped]

section
variable (host : HostRead) (hpeer : qPeerNode q ∉ s.net.fencedNodes) (hgood : sendBad s q w = none)
include hpeer hgood

theorem sendRequest_exhausted (hparked : w.parked = true) (hfull : 64 ≤ q.parked.length) :
    sendRequest s qk host = completeWr (popped s qk rest) qk w .exhausted w.length 0 := by
  obtain ⟨hq, hfront, hready, htraffic, hsound⟩ := h
  simp [sendRequest, hq, hfront, hready, htraffic, hsound, hpeer, hgood, hparked, hfull, popped]

variable (hparked : w.parked = false)
include hparked

theorem sendRequest_waits (hwaits : 64 ≤ unacked q ∨ (w.fence = true ∧ fenceClear q = false)) :
    sendRequest s qk host = s := by
  obtain ⟨hq, hfront, hready, htraffic, hsound⟩ := h
  have hwait : (decide (64 ≤ unacked q) || (w.fence && !fenceClear q) || !keyReady s q) = true := by
    simp [hwaits]
  simp [sendRequest, hq, hfront, hready, htraffic, hsound, hpeer, hgood, hparked, hwait]

theorem sendRequest_launches {g : RegionSt} {off : Nat} (hroom : unacked q < 64) (hfence : w.fence = true → fenceClear q = true)
    (hopen : sealedDomain s q.domain = false) (hbuf : localBuffer s (qPd q) w w.length = some (g, off)) (hkind : gKind g = 1) :
    sendRequest s qk host = launch (popped s qk rest) qk
      (wrMessage w (memReadN s.bulk (gBase g + off) w.length % 2 ^ (8 * w.length))) := by
  obtain ⟨hq, hfront, hready, htraffic, hsound⟩ := h
  have hnowait : (w.fence && !fenceClear q) = false := by
    cases hf : w.fence with
    | false => rfl
    | true => simp [hfence hf]
  simp [sendRequest, hq, hfront, hready, htraffic, hsound, hpeer, hgood, hparked, hroom.not_ge, hnowait, keyReady, idWraps, hopen,
    hbuf, hkind, regionGet, popped]

end

end

/-! ### The calendar of the shapers (R333, R334) -/

section
variable (t : Nat) (v : ShaperSt)

theorem calendarShaper_fields : (calendarShaper t v).e = v.e ∧ (calendarShaper t v).record = v.record := by
  unfold calendarShaper
  cases v.wheel <;> dsimp only <;> split_ifs <;> exact ⟨rfl, rfl⟩

end

section
variable {t : Nat} {v : ShaperSt}

theorem calendarShaper_wheel {j : Nat} (hwheel : v.wheel = some j) (hnear : v.far = false) :
    (calendarShaper t v).wheel = if j ≤ t / 8 then none else some j := by
  unfold calendarShaper
  by_cases hcome : j ≤ t / 8 <;> simp [hwheel, hcome, hnear]

theorem calendarShaper_far (hfar : v.far = true) (hsoon : v.e < t * 256 + 65536 * 256) :
    (calendarShaper t v).wheel = some (ceilDiv v.e 2048) ∧ (calendarShaper t v).far = false := by
  unfold calendarShaper
  cases v.wheel with
  | none => simp [hfar, hsoon]
  | some j => by_cases hcome : j ≤ t / 8 <;> simp [hcome, hfar, hsoon]

end

theorem calendarSlot_turns (n k : Nat) (v : ShaperSt) (s : State) (hv : (clockTo s n).net.shapers.get? k = some v) :
    ∃ t x, exec (.calendarSlot n) s = .next t ∧ t.net.shapers.get? k = some x ∧ x.e = v.e ∧ x.record = v.record
      ∧ (∀ j, v.wheel = some j → v.far = false → x.wheel = if j ≤ (clockTo s n).ns / 8 then none else some j)
      ∧ (v.far = true → v.e < (clockTo s n).ns * 256 + 65536 * 256 → x.wheel = some (ceilDiv v.e 2048) ∧ x.far = false)
      ∧ t = { clockTo s n with net := { (clockTo s n).net with shapers := t.net.shapers } } := by
  obtain ⟨he, hrecord⟩ := calendarShaper_fields (clockTo s n).ns v
  refine ⟨calendarOp (clockTo s n), calendarShaper (clockTo s n).ns v, rfl, ?_, he, hrecord,
    fun _ => calendarShaper_wheel, calendarShaper_far, rfl⟩
  exact (Map.get?_mapVals ..).trans (by rw [hv, Option.map_some])

/-! ### Frames that leave (R335) -/

theorem enterAll_of_control {s : State} {now : Nat} (h : ∀ e ∈ s.net.egress, e.cls = 0) : enterAll s now = s := by
  unfold enterAll
  generalize s.net.egress = l at h
  induction l with
  | nil => rfl
  | cons e l ih =>
    rw [List.foldl_cons, if_pos (h e List.mem_cons_self)]
    exact ih fun x hx => h x (List.mem_cons_of_mem _ hx)

theorem egressOp_idle {s : State} (hnone : s.net.egress = []) (p : Port) (now : Nat) : egressOp s p now = s := by
  rw [egressOp, enterAll_of_control (by simp [hnone])]
  have hchoice : chooseFrame s p now = none := by simp [chooseFrame, hnone]
  simp only [hchoice, ite_self]

theorem ethOf_setEth (s : State) (p : Port) (v : EthSt) : ethOf (setEth s p v) p = v := by
  unfold ethOf setEth
  split <;> rfl

theorem setEth_egress (s : State) (p : Port) (v : EthSt) : (setEth s p v).net.egress = s.net.egress := by
  unfold setEth
  split <;> rfl

section
variable {s : State} {p : Port} {e : EgrPkt} {now : Nat} (honly : s.net.egress = [e]) (hcontrol : e.cls = 0)
include honly hcontrol

theorem chooseFrame_control (hport : e.port = p) (htraffic : trafficOff s = false) (hsound : s.boot.failed = false) :
    chooseFrame s p now = some (0, e) := by
  simp [chooseFrame, honly, hcontrol, hport, firstOfQueue, htraffic, hsound, blocksSealed]

theorem egressOp_control (hport : e.port = p) (hup : ethUp s p = true) (hfree : (ethOf s p).busyUntil ≤ now * 256)
    (htraffic : trafficOff s = false) (hsound : s.boot.failed = false) (hkind : ∀ a b c d, e.kind ≠ .data a b c d) :
    egressOp s p now = emit (setEth (modNet s fun x => { x with egress := [] }) p
      { ethOf s p with busyUntil := now * 256 + wireTime e.len }) (.frame p 0 e.len) := by
  have hstart : (!ethUp s p || decide (now * 256 < (ethOf s p).busyUntil)) = false := by simp [hup, hfree]
  have hempty : (modNet s fun x => { x with egress := x.egress.eraseIdx 0 }) = modNet s fun x => { x with egress := [] } := by
    simp only [modNet, honly, List.eraseIdx_zero, List.tail_cons]
  rw [egressOp, enterAll_of_control (by simp [honly, hcontrol])]
  simp only [hstart, Bool.false_eq_true, if_false, chooseFrame_control honly hcontrol hport htraffic hsound, hempty, hcontrol]
  rfl

end

/-! ### Frames that arrive (R293, R297) -/

section
variable {s : State} {fr : EthFrame}

theorem ethFrameOp_down (hdown : ethUp s fr.port = false) : ethFrameOp s fr = s := by
  simp [ethFrameOp, hdown]

variable (hup : ethUp s fr.port = true)
include hup

theorem ethFrameOp_drops (hbad : frameAccepted s fr = false) : ethFrameOp s fr = count s 0 fr.port.val 0 := by
  simp [ethFrameOp, hup, hbad]

variable (hok : frameAccepted s fr = true) (hip : fr.etherType = 0x86DD)
include hok hip

theorem ethFrameOp_drops_ip (hbad : fr.extHeader = true ∨ fr.lenOk = false) :
    ethFrameOp s fr = count s 0 fr.port.val 0 := by
  simp [ethFrameOp, hup, hok, hip, hbad]

variable (hplain : fr.extHeader = false) (hlen : fr.lenOk = true) (hdst : fr.dstIp = pAddr (ethOf s fr.port))
include hplain hlen hdst

theorem ethFrameOp_advertises (hicmp : fr.nextHeader = 58) (hsum : fr.checksumOk = true) (hsolicit : fr.solicit = true) :
    ethFrameOp s fr = emit s (.neighborAdvert fr.port) := by
  simp [ethFrameOp, hup, hok, hip, hplain, hlen, hdst, hicmp, hsum, hsolicit]

theorem ethFrameOp_ptp_off (hudp : fr.nextHeader = 17) (hptp : fr.udpDst = 319 ∨ fr.udpDst = 320) (hoff : ptpUdp s = false) :
    ethFrameOp s fr = count s 0 fr.port.val 10 := by
  simp [ethFrameOp, hup, hok, hip, hplain, hlen, hdst, hudp, hptp, hoff]

end

/-! ### Links (R292, R294) -/

section
variable {s : State} {p : Port}

theorem ethUpOp_up (hon : rb (ethOf s p).record 0 = true) (hlock : (s.boot.plls.getD (epllKey p) {}).locked = true) :
    ethUpOp s p = setEth s p { ethOf s p with link := 2 } :=
  if_pos (by rw [hon, hlock]; rfl)

theorem ethUpOp_waits (hwaits : rb (ethOf s p).record 0 = false ∨ (s.boot.plls.getD (epllKey p) {}).locked = false) :
    ethUpOp s p = s :=
  if_neg (by rcases hwaits with h | h <;> simp [h])

theorem ethDownOp_down (hdown : (ethOf s p).link = 0) : ethDownOp s p = s := if_pos hdown

theorem otherPort_ne (p : Port) : (if p = 0 then 1 else 0 : Port) ≠ p := by
  revert p
  decide

theorem port_ne_of_moveFrames {e : EgrPkt} (he : e ∈ (moveFrames s p).net.egress) : e.port ≠ p := by
  obtain ⟨x, -, rfl⟩ := List.mem_map.1 he
  split
  · exact otherPort_ne p
  · assumption

theorem length_moveFrames (s : State) (p : Port) : (moveFrames s p).net.egress.length = s.net.egress.length := List.length_map ..

end

/-- A link that went down, and the frames that waited for its port moved to the other one. -/
def linkDropped (s : State) (p : Port) : State :=
  moveFrames (setEth s p { ethOf s p with link := b2n (rb (ethOf s p).record 0) }) p

theorem ethLinkDown_moves (p : Port) (s : State) (hup : (ethOf s p).link ≠ 0) :
    ∃ t, exec (.ethLinkDown p) s = .next t ∧ (ethOf t p).link = b2n (rb (ethOf s p).record 0)
      ∧ (∀ e ∈ t.net.egress, e.port ≠ p) ∧ t.net.egress.length = s.net.egress.length
      ∧ t = { s with net := t.net, boot := t.boot, funcs := t.funcs, out := t.out } := by
  have hnet : (raiseNode (linkDropped s p) 0x0001 0x0040 (36 + p.val) 0 (otherPayload 0 p.val 0)).net = (linkDropped s p).net :=
    raiseNode_net ..
  refine ⟨_, congrArg Host.Outcome.next (if_neg hup), ?_, fun e he => ?_, ?_, ?_⟩
  · exact (congrArg (fun n : NetSt => (if p = 0 then n.eth0 else n.eth1).link) hnet).trans
      (congrArg (·.link) (ethOf_setEth ..))
  · exact port_ne_of_moveFrames (hnet ▸ he)
  · exact (congrArg (·.egress.length) hnet).trans ((length_moveFrames ..).trans (congrArg List.length (setEth_egress ..)))
  · rw [raiseNode_only]
    rfl

/-- Settles O46, clause by clause. It rests on assumptions 5 (a row whose condition is not met changes nothing but the time),
23 (the bytes sent stand at LOCAL_ADDR, counted in the local region's own space) and 103 (what slice and pool shapers start
with). -/
theorem queuesShapersAndLinks : Obligations.QueuesShapersAndLinks := by
  refine ⟨fun p f n size v l q s hmmio hsize hkind hrsv hq hfunc hhost hready hroom => ?_,
    fun p f n size v l q s hmmio hsize hkind hrsv hq hfunc hhost hon hfull => ?_,
    fun p f n size v l q s hmmio hsize hkind hrsv hq hfunc hhost hready hring hone hroom hgood => ?_,
    fun p f n size v c s hmmio hsize hrsv hc hport hfunc => ⟨fun hkind => ?_, fun hkind => ?_⟩,
    fun p f n size v l s hmmio => ?_,
    fun k n h q w rest s hq hfront hready htraffic hsound => ?_,
    fun n k v s => calendarSlot_turns n k v s,
    fun p n s hnone => congrArg Host.Outcome.next (egressOp_idle hnone p _),
    fun p n e s honly hcontrol hport hup hfree htraffic hsound hkind => congrArg Host.Outcome.next
      (egressOp_control honly hcontrol hport hup hfree htraffic (by simpa using hsound) hkind),
    fun fr s hup => ⟨fun hbad => congrArg Host.Outcome.next (ethFrameOp_drops hup hbad),
      fun hok hip hbad => congrArg Host.Outcome.next (ethFrameOp_drops_ip hup hok hip hbad),
      fun hok hip hplain hlen hicmp hdst hsum hsolicit => congrArg Host.Outcome.next
        (ethFrameOp_advertises hup hok hip hplain hlen hdst hicmp hsum hsolicit),
      fun hok hip hplain hlen hudp hdst hptp hoff => congrArg Host.Outcome.next
        (ethFrameOp_ptp_off hup hok hip hplain hlen hdst hudp hptp hoff)⟩,
    fun fr s hdown => congrArg Host.Outcome.next (ethFrameOp_down hdown),
    fun p s hon hlock => congrArg Host.Outcome.next (ethUpOp_up hon hlock),
    fun p s hwaits => congrArg Host.Outcome.next (ethUpOp_waits hwaits),
    ethLinkDown_moves,
    fun p s hdown => congrArg Host.Outcome.next (ethDownOp_down hdown)⟩
  · subst hsize
    refine congrArg Host.Outcome.next ((if_pos hmmio).trans ?_)
    rw [doorbellOp_posts_send hrsv hq hfunc hhost (by simp [hready]) hkind hroom, postSend_ready hready]
    rfl
  · subst hsize
    exact congrArg Host.Outcome.next ((if_pos hmmio).trans (doorbellOp_overfull hrsv hq hfunc hhost hon hkind hfull))
  · subst hsize
    have hposts := doorbellOp_posts_recv (l := l) hrsv hq hfunc hhost (by simp [hready]) hkind hring
      (show q.rq.length + postCount v q.rqTail ≤ _ by rwa [postCount, hone])
    rw [postCount, hone, posted_one, postRecv_one hready hgood] at hposts
    exact ⟨_, _, congrArg Host.Outcome.next ((if_pos hmmio).trans hposts),
      (getWq_modWq ..).trans (congrArg (Option.map _) (getWq_setWq ..)), rfl, rfl, modWq_setWq_only ..⟩
  · subst hsize
    refine congrArg Host.Outcome.next ((if_pos hmmio).trans ?_)
    rw [doorbellOp_consumes hrsv hc hport hfunc (by omega), hkind]
    simp
  · subst hsize
    refine congrArg Host.Outcome.next ((if_pos hmmio).trans ?_)
    rw [doorbellOp_consumes hrsv hc hport hfunc (by omega), hkind]
    simp
  · have hoff : ¬ mmioOk s p f = true := by simp [hmmio]
    exact ⟨congrArg Host.Outcome.next (if_neg hoff), congrArg Host.Outcome.next (if_neg hoff),
      congrArg Host.Outcome.next (if_neg hoff), congrArg Host.Outcome.next (if_neg hoff)⟩
  · have hnow : SendsNow (clockTo s n) k q w rest := ⟨hq, hfront, hready, htraffic, by simpa using hsound⟩
    rw [← clockTo_net s n, ← clockTo_bulk s n]
    exact ⟨fun hpeer => congrArg Host.Outcome.next (sendRequest_fenced hnow h hpeer),
      fun st hpeer hbad => congrArg Host.Outcome.next (sendRequest_bad hnow h hpeer hbad),
      fun hpeer hgood hparked hfull => congrArg Host.Outcome.next (sendRequest_exhausted hnow h hpeer hgood hparked hfull),
      fun hpeer hgood hparked hwaits => congrArg Host.Outcome.next (sendRequest_waits hnow h hpeer hgood hparked hwaits),
      fun g off hpeer hgood hparked hroom hfence hopen hbuf hkind => congrArg Host.Outcome.next
        (sendRequest_launches hnow h hpeer hgood hparked hroom hfence hopen hbuf hkind)⟩

end Sys2Proof.Machine
end

section
/-! What operations leave of the work queues of hosts: management messages and the answers of commands touch only the peers of
the management endpoint (R318), and a queue in ERROR stays in it while its requests complete (R308). -/

namespace Sys2Proof.Machine

/-! ### Queues that are not the one that sends (R318, R319) -/

section
variable {s : State} {j k : Nat} (h : k ≠ j)
include h

theorem getWq_sendPacket_ne (mk i : Nat) (retx : Bool) : getWq (sendPacket s j mk i retx) k = getWq s k := by
  unfold sendPacket
  dsimp only
  split
  · rfl
  · split
    · rfl
    · exact getWq_setWq_ne _ h _

theorem getWq_sendAll_ne (mk n : Nat) : getWq (sendAll s j mk n) k = getWq s k := by
  induction n with
  | zero => rfl
  | succ n ih => rw [sendAll_succ, getWq_sendPacket_ne h, ih]

theorem getWq_launch_ne (m : SendMsg) : getWq (launch s j m) k = getWq s k := by
  unfold launch
  split
  · rfl
  · exact (getWq_sendAll_ne h ..).trans (getWq_setWq_ne _ h _)

end

theorem getWq_sendMgmt_ne {s : State} {dst k : Nat} (h : k ≠ mgmtKey dst) (mtype corr len body : Nat) :
    getWq (sendMgmt s dst mtype corr len body) k = getWq s k := by
  unfold sendMgmt
  dsimp only
  split
  · rfl
  · have hpeer : ∀ t : State, getWq (if (getWq t (mgmtKey dst)).isSome then t
        else setWq t (mgmtKey dst) { record := mgmtRecord dst }) k = getWq t k := fun t => by
      split
      · rfl
      · exact getWq_setWq_ne _ h _
    split
    · exact hpeer _
    · split
      · exact (getWq_launch_ne h _).trans (hpeer _)
      · exact (getWq_setWq_ne _ h _).trans (hpeer _)

/-- Below the peers of the management endpoint stand the work queues of hosts and the internal queues. -/
theorem ne_mgmtKey {k : Nat} (h : k < 65536) (dst : Nat) : k ≠ mgmtKey dst := by
  unfold mgmtKey
  omega

section
variable {k : Nat} (h : k < 65536)
include h

theorem getWq_finishFlight_low (s : State) (g : Flight) (st : Status) (r a : Nat) :
    getWq (finishFlight s g st r a) k = getWq s k := by
  have hends : getWq (serviceEnds s g.session) k = getWq s k := by rw [getWq, serviceEnds_net, getWq]
  unfold finishFlight
  dsimp only
  split
  · exact (getWq_sendMgmt_ne (ne_mgmtKey h _) ..).trans hends
  · rw [getWq, respond_net]
    exact hends

theorem getWq_finishWhere_low (s : State) (p : Flight → Bool) (st : Status) (r a : Nat) :
    getWq (finishWhere s p st r a) k = getWq s k := by
  have hall : ∀ (l : List Flight) (t : State), getWq (l.foldl (fun t g => finishFlight t g st r a) t) k = getWq t k := by
    intro l
    induction l with
    | nil => exact fun _ => rfl
    | cons g l ih => exact fun t => (ih _).trans (getWq_finishFlight_low h ..)
  exact hall ..

theorem getWq_mergeSent_low (s : State) (d c id : Nat) (st : Status) (n : Nat) :
    getWq (mergeSent s d c id st n) k = getWq s k :=
  (getWq_finishWhere_low h ..).trans (getWq_finishWhere_low h ..)

end

/-! ### A queue in ERROR stays in ERROR (R308) -/

/-- A queue is in ERROR. -/
def Failed (s : State) (k : Nat) : Prop := (getWq s k).map (·.state) = some .error

section
variable {s : State} {k : Nat}

theorem Failed.congr {t : State} (h : Failed s k) (hsame : getWq t k = getWq s k) : Failed t k := by
  rwa [Failed, hsame]

theorem Failed.foldl {α : Type} {f : State → α → State} (hstep : ∀ t a, Failed t k → Failed (f t a) k) (l : List α)
    (h : Failed s k) : Failed (l.foldl f s) k := by
  induction l generalizing s with
  | nil => exact h
  | cons a l ih => exact ih (hstep s a h)

theorem Failed.modWq (h : Failed s k) (j : Nat) {g : QueueSt → QueueSt} (hg : ∀ q, q.state = .error → (g q).state = .error) :
    Failed (modWq s j g) k := by
  by_cases hj : k = j
  · subst hj
    obtain ⟨q, hq, hstate⟩ := Option.map_eq_some_iff.1 h
    rw [Failed, getWq_modWq, hq]
    exact congrArg some (hg q hstate)
  · exact h.congr (getWq_modWq_ne _ hj _)

theorem failed_markError {q : QueueSt} (hq : getWq s k = some q) : Failed (markError s k) k := by
  change Failed (Machine.modWq s k fun q => { q with state := .error }) k
  rw [Failed, getWq_modWq, hq]
  rfl

theorem Failed.markError (h : Failed s k) (j : Nat) : Failed (markError s j) k := h.modWq j fun _ _ => rfl

theorem Failed.cqOverflow (h : Failed s k) (cq : Nat) : Failed (cqOverflow s cq) k := by
  unfold Machine.cqOverflow
  split
  · exact h
  · rw [Failed, getWq, raiseObj_net]
    refine Failed.foldl (fun t a ht => ?_) _ h
    dsimp only
    split
    · exact ht.markError _
    · exact ht

theorem Failed.cqPush (h : Failed s k) (cq word : Nat) (solicit : Bool) : Failed (cqPush s cq word solicit) k := by
  unfold Machine.cqPush
  dsimp only
  split
  · exact h
  · split
    · exact h
    · split
      · exact h.cqOverflow _
      · split
        · rw [Failed, getWq, msix_net]
          exact h
        · exact h

theorem Failed.pushFor (h : Failed s k) (qk word : Nat) (solicit : Bool := false) : Failed (pushFor s qk word solicit) k := by
  unfold Machine.pushFor
  split
  · exact h
  · split
    · exact h
    · exact h.cqPush ..

theorem Failed.completeWr (h : Failed s k) (qk : Nat) (w : WorkRequest) (st : Status) (bytes msgId : Nat)
    (solicit : Bool := false) : Failed (completeWr s qk w st bytes msgId solicit) k := by
  unfold Machine.completeWr
  split
  · exact h.pushFor _ _ _
  · exact h

theorem Failed.mergeSent (h : Failed s k) (hk : k < 65536) (d c id : Nat) (st : Status) (n : Nat) :
    Failed (mergeSent s d c id st n) k :=
  h.congr (getWq_mergeSent_low hk ..)

/-- A READY queue that meets an error is in ERROR after its requests have completed (R308). -/
theorem failed_queueError {q : QueueSt} (hq : getWq s k = some q) (hready : q.state = .ready) (hk : k < 65536)
    (failing : Option Nat) (st : Status) : Failed (queueError s k failing st) k := by
  simp only [queueError, hq, hready, ne_eq, not_true_eq_false, if_false]
  refine Failed.foldl (fun t w ht => ht.completeWr ..) _ (Failed.foldl (fun t e ht => ?_) _ ?_)
  · dsimp only
    split
    · split
      · exact ht
      · exact ht.mergeSent hk ..
    · exact ht
  · have hdone : Failed ((openRequests q).foldl (fun s e =>
        Machine.completeWr s k e.2.wr (if some e.1 = failing then st else .badState) e.2.total e.1)
        (Machine.modWq (Machine.markError s k) k fun q => { q with
          sq := [], parked := [], sent := q.sent.mapVals fun _ m => { m with completed := true, whole := true } })) k :=
      Failed.foldl (fun t e ht => ht.completeWr ..) _ ((failed_markError hq).modWq _ fun _ h => h)
    split
    · split
      · exact hdone
      · exact hdone.pushFor ..
    · exact hdone

end

end Sys2Proof.Machine
end

section
/-! Packets and acknowledgements as they arrive, and what is done when they do not (R302, R318, R320 to R326). -/

namespace Sys2Proof.Machine

/-! ### The first failing check of an arriving packet (R302) -/

section
variable {s : State} {k : Packet} (htraffic : trafficOff s = false) (hsound : (s.boot.failed && !k.mgmt) = false)
  (hup : ethUp s k.port = true)
include htraffic hsound hup

theorem ingress_badFrame (hframe : k.frameOk = false) : ingress s k = (count s 0 k.port.val 0, false) := by
  simp [ingress, htraffic, hsound, hup, hframe]

variable (hframe : k.frameOk = true) (hgood : malformed k = false)
include hframe hgood

theorem ingress_foreign (hpart : k.partition ≠ s.partition.toNat) : ingress s k = (count s 0 k.port.val 2, false) := by
  simp [ingress, htraffic, hsound, hup, hframe, hgood, hpart]

variable (hpart : k.partition = s.partition.toNat)
include hpart

theorem ingress_unknown (hnone : s.net.addrs.get? k.srcNode = none) : ingress s k = (count s 0 k.port.val 3, false) := by
  simp [ingress, htraffic, hsound, hup, hframe, hgood, hpart, hnone]

variable {a : BitVec 256} (ha : s.net.addrs.get? k.srcNode = some a)
  (hip : k.ipSrc = rf a (if k.port = 0 then 127 else 255) (if k.port = 0 then 0 else 128))
include ha hip

theorem ingress_fenced (hfence : k.srcNode ∈ s.net.fencedNodes) : ingress s k = (count s 0 k.port.val 4, false) := by
  simp [ingress, htraffic, hsound, hup, hframe, hgood, hpart, ha, hip, hfence]

theorem ingress_badTrailer (hopen : k.srcNode ∉ s.net.fencedNodes) (hbad : k.trailerOk = false) :
    ingress s k = (count s 0 k.port.val (if k.enc then 5 else 6), false) := by
  simp [ingress, htraffic, hsound, hup, hframe, hgood, hpart, ha, hip, hopen, hbad]

end

/-! ### A packet of a work queue that passed the checks (R320 to R322) -/

section
variable {s u : State} {k : Packet} {q : QueueSt} (h : ingress s k = (u, true)) (hmgmt : k.mgmt = false)
  (hack : k.op ≠ 16) (hnack : k.op ≠ 17)
  (hq : getWq (adoptDomain u k.dstQueue k.domain) k.dstQueue = some q)
include h hmgmt hack hnack hq

theorem packetOp_badState (hoff : q.state ≠ .ready) :
    packetOp s k = sendNack (adoptDomain u k.dstQueue k.domain) k.port k.dstQueue k.msgId k.srcNode k.srcQueue k.domain
      .badState := by
  simp [packetOp, h, hmgmt, hack, hnack, packetQueue, hq, hoff]

variable (hready : q.state = .ready)
include hready

theorem packetOp_repeated (hplace : windowPlace q k = 1) :
    packetOp s k = sendAck (adoptDomain u k.dstQueue k.domain) k.port k.dstQueue (recvKey k) k.srcNode k.srcQueue k.domain
      true := by
  simp [packetOp, h, hmgmt, hack, hnack, packetQueue, hq, hready, hplace]

theorem packetOp_outside (hplace : windowPlace q k = 2) :
    packetOp s k = count (adoptDomain u k.dstQueue k.domain) 2 0 2 := by
  simp [packetOp, h, hmgmt, hack, hnack, packetQueue, hq, hready, hplace]

variable (hplace : windowPlace q k = 0)
include hplace

theorem packetOp_refused {st : Status} (hnames : namesRegion k = true)
    (hbad : regionCheck (adoptDomain u k.dstQueue k.domain) (qPd q) k.op k.regionKey k.addr k.totalLen = some st) :
    packetOp s k = refusePacket (adoptDomain u k.dstQueue k.domain) k.dstQueue k st := by
  simp [packetOp, h, hmgmt, hack, hnack, packetQueue, hq, hready, hplace, hnames, hbad]

theorem packetOp_places (hpass : (if namesRegion k then
      regionCheck (adoptDomain u k.dstQueue k.domain) (qPd q) k.op k.regionKey k.addr k.totalLen else none) = none) :
    packetOp s k = placePacket (adoptDomain u k.dstQueue k.domain) k.dstQueue k := by
  simp [packetOp, h, hmgmt, hack, hnack, packetQueue, hq, hready, hplace, hpass]

end

theorem placePacket_duplicate {s : State} {qk : Nat} {k : Packet} {q : QueueSt} {m : RecvMsg} (hq : getWq s qk = some q)
    (hm : q.recv.get? (recvKey k) = some m) (htaken : m.refused = none)
    (hdone : bit m.bitmap (k.offset / 4096) = true ∨ m.complete = true) : placePacket s qk k = count s 0 k.port.val 8 := by
  simp [placePacket, hq, openMessage, hm, htaken, hdone]

/-! ### A WRITE of one packet (R306, R320) -/

/-- What has arrived under a MSG_ID of a queue is complete, where the message is still there. -/
def Arrived (s : State) (k id : Nat) : Prop := ∃ q, getWq s k = some q ∧ ∀ m, q.recv.get? id = some m → m.complete = true

section
variable {s : State} {k id : Nat}

theorem Arrived.modWq (h : Arrived s k id) {g : QueueSt → QueueSt}
    (hg : ∀ q, (∀ m, q.recv.get? id = some m → m.complete = true) → ∀ m, (g q).recv.get? id = some m → m.complete = true) :
    Arrived (modWq s k g) k id := by
  obtain ⟨q, hq, hdone⟩ := h
  exact ⟨g q, by rw [getWq_modWq, hq, Option.map_some], hg q hdone⟩

theorem Arrived.sendAck (h : Arrived s k id) (p : Port) (mk node dq domain : Nat) (complete : Bool) :
    Arrived (sendAck s p k mk node dq domain complete) k id := by
  unfold Machine.sendAck
  dsimp only
  split
  · exact h
  · refine Arrived.modWq h fun q hdone m hm => ?_
    by_cases hid : id = mk
    · subst hid
      obtain ⟨x, hx, rfl⟩ := Option.map_eq_some_iff.1 ((Map.get?_modify ..).symm.trans hm)
      exact hdone x hx
    · exact hdone m ((Map.get?_modify_ne _ hid _).symm.trans hm)

theorem Arrived.advanceLow (h : Arrived s k id) (fuel : Nat) : Arrived (advanceLow s k fuel) k id := by
  induction fuel generalizing s with
  | zero => exact h
  | succ n ih =>
    obtain ⟨q, hq, hdone⟩ := h
    simp only [Machine.advanceLow, hq]
    split
    · exact ⟨q, hq, hdone⟩
    · split
      · refine ih ⟨_, getWq_setWq .., fun m hm => ?_⟩
        by_cases hid : id = q.low
        · subst hid
          rw [Map.get?_erase] at hm
          cases hm
        · exact hdone m ((Map.get?_erase_ne _ hid).symm.trans hm)
      · exact ⟨q, hq, hdone⟩

theorem Arrived.noteGap (h : Arrived s k id) : Arrived (noteGap s k) k id :=
  Arrived.modWq h fun q hdone => by
    split
    · exact hdone
    · exact hdone

end

/-- What an acknowledgement changes: the transport and what left the node. -/
theorem sendAck_only (s : State) (p : Port) (qk mk node dq domain : Nat) (complete : Bool) :
    sendAck s p qk mk node dq domain complete
      = { s with net := (sendAck s p qk mk node dq domain complete).net, out := (sendAck s p qk mk node dq domain complete).out } := by
  unfold sendAck
  dsimp only
  split <;> rfl

theorem advanceLow_only (s : State) (qk fuel : Nat) : advanceLow s qk fuel = { s with net := (advanceLow s qk fuel).net } := by
  induction fuel generalizing s with
  | zero => rfl
  | succ n ih =>
    unfold advanceLow
    split
    · rfl
    · split
      · rfl
      · split
        · rw [ih]
          rfl
        · rfl

/-- A packet completed its message: it is acknowledged, and LOW moves on (R323, R329). -/
def messageWhole (s : State) (qk : Nat) (k : Packet) : State :=
  noteGap (advanceLow (sendAck s k.port qk (recvKey k) k.srcNode k.srcQueue k.domain true) qk 64) qk

theorem messageWhole_only (s : State) (qk : Nat) (k : Packet) :
    messageWhole s qk k = { s with net := (messageWhole s qk k).net, out := (messageWhole s qk k).out } := by
  unfold messageWhole noteGap
  rw [advanceLow_only, sendAck_only]
  rfl

theorem Arrived.messageWhole {s : State} {qk id : Nat} (h : Arrived s qk id) (k : Packet) : Arrived (messageWhole s qk k) qk id :=
  ((h.sendAck ..).advanceLow 64).noteGap

/-- Where bytes of the bulk window land depends on the window and its channels alone. -/
theorem bulkPut_congr {s t : State} (hbulk : t.bulk = s.bulk) (hchans : t.chans = s.chans) (off data len : Nat) :
    (bulkPut t off data len).bulk = (bulkPut s off data len).bulk := by
  induction len with
  | zero => exact hbulk
  | succ n ih =>
    have hch : getCh (bulkPut t off data n) (windowChannel (off + n)) = getCh (bulkPut s off data n) (windowChannel (off + n)) := by
      rw [getCh, getCh, bulkPut_chans, bulkPut_chans, hchans]
    simp only [bulkPut, hch]
    split
    · exact ih
    · exact congrArg (fun b => memWrite b (off + n) _) ih

/-- The message that a WRITE of one packet leaves: it has arrived with that packet. -/
def writtenMessage (s : State) (k : Packet) : RecvMsg :=
  { op := 1, total := k.totalLen, addr := k.addr, key := k.regionKey, atop := k.atop, ext := k.ext, attn := k.attn,
    solicit := k.solicit, bitmap := 1, last := s.ns, complete := true }

theorem placePacket_writes {s : State} {qk : Nat} {k : Packet} {q : QueueSt} {g : RegionSt} (hop : k.op = 1)
    (hq : getWq s qk = some q) (hg : regionAt s k.regionKey = some g) (hnew : q.recv.get? (recvKey k) = none)
    (hshort : k.totalLen ≤ 4096) (hfirst : k.offset = 0) (hdest : k.destOk = true) :
    placePacket s qk k = messageWhole (modWq (regionPut s g k.addr k.payLen k.payload) qk fun q =>
      { q with recv := q.recv.set (recvKey k) (writtenMessage (regionPut s g k.addr k.payLen k.payload) k) }) qk k := by
  have hone : packetsOf 1 k.totalLen = 1 := by
    simp [packetsOf, ceilDiv]
    omega
  simp [placePacket, hq, openMessage, hnew, hop, hone, hfirst, hdest, placePayload, hg, bit, popCount, messageWhole,
    writtenMessage]

theorem bulkPut_acct (s : State) (off data len : Nat) : (bulkPut s off data len).acct = s.acct := by rw [bulkPut_only]

theorem bulkPut_only_acct (s : State) (off data len : Nat) :
    bulkPut s off data len = { s with bulk := (bulkPut s off data len).bulk, acct := (bulkPut s off data len).acct } := by
  rw [bulkPut_acct]
  exact bulkPut_only ..

section
variable {s : State} {g : RegionSt} (hkind : gKind g = 1)
include hkind

theorem regionPut_window (off len data : Nat) :
    regionPut s g off len data = bulkPut (chargeDram s g.domain true len) (gBase g + off) data len := by
  simp only [regionPut, hkind]

theorem regionPut_window_only (off len data : Nat) :
    regionPut s g off len data = { s with bulk := (regionPut s g off len data).bulk, acct := (regionPut s g off len data).acct } := by
  rw [regionPut_window hkind]
  exact only_trans (U := fun t s => { s with bulk := t.bulk, acct := t.acct }) (fun _ _ _ => rfl)
    (chargeDram_only ..) (bulkPut_only_acct ..)

theorem regionPut_window_bulk (off len data : Nat) :
    (regionPut s g off len data).bulk = (bulkPut s (gBase g + off) data len).bulk := by
  rw [regionPut_window hkind]
  exact bulkPut_congr (s := s) (t := chargeDram s g.domain true len) rfl rfl ..

end

/-! ### Acknowledgements in (R324, R325) -/

section
variable {s u : State} {k : Packet}

theorem execAck_passed (h : ingress (clockTo s k.now) k = (u, true)) (hop : k.op = 16) :
    exec (.ack k) s = .next (ackOp u (packetQueue k) k.msgId (k.totalLen == 0) k.payload) := by
  change execAck k s = _
  simp [execAck, h, hop]

theorem execNack_passed (h : ingress (clockTo s k.now) k = (u, true)) (hop : k.op = 17) {st : Status} (hsmall : k.addr < 65536)
    (hst : Status.ofCode k.addr = some st) : exec (.nack k) s = .next (nackOp u (packetQueue k) k.msgId st) := by
  change execNack k s = _
  simp [execNack, h, hop, Nat.mod_eq_of_lt hsmall, hst]

theorem dropped_of_ingress (h : ingress (clockTo s k.now) k = (u, false)) :
    exec (.ack k) s = .next u ∧ exec (.nack k) s = .next u ∧ exec (.coriskanoPacket k) s = .next u := by
  refine ⟨?_, ?_, congrArg Host.Outcome.next (packetOp_dropped h)⟩
  · change execAck k s = _
    simp [execAck, h]
  · change execNack k s = _
    simp [execNack, h]

end

section
variable {s : State} {qk id : Nat} {q : QueueSt} {m : SendMsg} (hq : getWq s qk = some q) (hm : q.sent.get? id = some m)
  (hopen : m.whole = false)
include hm hopen

/-- A request that is not acknowledged is what its MSG_ID names (assumption 24). -/
theorem ackTarget_open : ackTarget q id = id := by
  simp [ackTarget, hm, hopen]

include hq

theorem ackOp_completes (hdone : m.completed = true) (hhost : m.purpose = .host) (hnone : q.later = []) (bitmap : Nat) :
    ackOp s qk id true bitmap = setWq s qk { q with sent := (q.sent.erase id).erase id } := by
  simp [ackOp, hq, ackTarget_open hm hopen, hm, wholeAck, hdone, recordHeld, hhost, hnone]

/-- A message after a selective ACK: what the bitmap shows has arrived. -/
def acknowledged (m : SendMsg) (bitmap : Nat) : SendMsg :=
  { m with
    acked := m.acked ||| (bitmap % 2 ^ m.packets)
    rounds := if (List.range m.packets).any (fun i => bit bitmap i && !bit m.acked i) then 0 else m.rounds }

omit hq hm hopen in
theorem bit_of_missing {m : SendMsg} {bitmap i : Nat} (hi : i ∈ missingPackets (acknowledged m bitmap)) :
    i < m.packets ∧ bit bitmap i = false := by
  obtain ⟨hlt, hbit⟩ : i < m.packets ∧ bit (m.acked ||| bitmap % 2 ^ m.packets) i = false := by
    simpa [missingPackets, acknowledged] using hi
  refine ⟨hlt, ?_⟩
  rw [bit_eq_testBit, Nat.testBit_or, Nat.testBit_mod_two_pow, decide_eq_true hlt, Bool.true_and, Bool.or_eq_false_iff] at hbit
  rw [bit_eq_testBit]
  exact hbit.2

theorem ackOp_selective {bitmap : Nat}
    (hearly : ∀ i, i < m.packets → bit bitmap i = false → s.ns < m.lastSent.getD i 0 + qRto q / 4) :
    ackOp s qk id false bitmap = setWq s qk { q with sent := q.sent.set id (acknowledged m bitmap) } := by
  have hnone : ((missingPackets (acknowledged m bitmap)).filter fun i =>
      decide ((acknowledged m bitmap).lastSent.getD i 0 + qRto q / 4 ≤ s.ns)) = [] := by
    refine List.filter_eq_nil_iff.2 fun i hi => ?_
    obtain ⟨hlt, hbit⟩ := bit_of_missing hi
    rw [decide_eq_true_eq, not_le]
    exact hearly i hlt hbit
  unfold acknowledged at hnone
  simp only [ackOp, hq, ackTarget_open hm hopen, hm, Bool.false_eq_true, if_false]
  rw [show (setWq s qk _).ns = s.ns from rfl, hnone]
  rfl

theorem nackOp_busy (hop : m.op = 4) (hagain : m.rnr < qRnr q) :
    nackOp s qk id .busy = setWq s qk { q with sent := q.sent.set id { m with rnrAt := some s.ns } } := by
  simp [nackOp, hq, ackTarget_open hm hopen, hm, hop, hagain.not_ge]

theorem nackOp_error (hhost : q.internal = none) (hready : q.state = .ready) (hlow : qk < 65536) {st : Status}
    (hst : st = .denied ∨ st = .badField ∨ st = .badState) : Failed (nackOp s qk id st) qk := by
  have hfailed := (failed_queueError hq hready hlow none .badState).pushFor qk (completionWord qk 0 0 id m.wr.op st)
  have hlow' : ¬ 65536 ≤ qk := by omega
  rcases hst with rfl | rfl | rfl <;> simpa [nackOp, hq, ackTarget_open hm hopen, hm, hhost, hlow'] using hfailed

end

/-! ### Timers (R318, R321, R323 to R326) -/

theorem resendAll_one {s : State} {qk mk : Nat} {q : QueueSt} {x : SendMsg} (hq : getWq s qk = some q)
    (hx : q.sent.get? mk = some x) (hroom : x.sent.getD 0 0 < 16) :
    resendAll s qk mk [0] = (sendPacket s qk mk 0 true, true) := by
  simp [resendAll, resend, hq, hx, hroom.not_ge]

section
variable {s : State} {m : MsgRef} {q : QueueSt} {x : SendMsg} (hq : getWq s m.queue = some q)
  (hx : q.sent.get? m.msgId = some x)
include hq hx

section
variable (hopen : x.whole = false)
include hopen

theorem retxOp_early (hearly : retxDue q x s.ns = false) : retxOp s m = s := by
  simp [retxOp, hq, ackTarget_open hx hopen, hx, hearly]

variable (hdue : retxDue q x s.ns = true)
include hdue

theorem retxOp_gives_up (hspent : qRetry q ≤ x.rounds) (hlow : m.queue < 65536) (hready : q.state = .ready) :
    Failed (retxOp s m) m.queue := by
  have hlow' : ¬ 65536 ≤ m.queue := by omega
  have hfail : retxOp s m = queueError s m.queue (some (m.msgId % 2 ^ 32)) .timeout := by
    simp [retxOp, hq, ackTarget_open hx hopen, hx, hdue, hspent, failMessage, hlow']
  rw [hfail]
  exact failed_queueError hq hready hlow ..

theorem retxOp_resends (hagain : x.rounds < qRetry q) (hone : x.packets = 1) (hmissing : bit x.acked 0 = false)
    (hroom : x.sent.getD 0 0 < 16) :
    retxOp s m = sendPacket (setWq s m.queue { q with sent := q.sent.set m.msgId { x with rounds := x.rounds + 1 } }) m.queue
      m.msgId 0 true := by
  have hlist : missingPackets x = [0] := by simp [missingPackets, hone, hmissing]
  have hsend := resendAll_one (getWq_setWq s m.queue
    { q with sent := q.sent.set m.msgId { x with rounds := x.rounds + 1 } }) (Map.get?_set ..) hroom
  simp only [retxOp, hq, ackTarget_open hx hopen, hx, hdue, hagain.not_ge, Bool.not_true, Bool.false_eq_true, if_false, hlist,
    hsend, if_true]

end

variable {at_ : Nat} (hat : x.rnrAt = some at_)
include hat

theorem rnrOp_early (hearly : s.ns < at_ + qRto q) : rnrOp s m = s := by
  simp [rnrOp, hq, hx, hat, hearly]

theorem rnrOp_resends (hdue : at_ + qRto q ≤ s.ns) (hone : x.packets = 1) (hroom : x.sent.getD 0 0 < 16) :
    rnrOp s m = sendPacket (setWq s m.queue
      { q with sent := q.sent.set m.msgId { x with rnr := x.rnr + 1, rnrAt := none, acked := 0 } }) m.queue m.msgId 0 true := by
  have hlist : List.range x.packets = [0] := by rw [hone]; rfl
  have hsend := resendAll_one (getWq_setWq s m.queue
    { q with sent := q.sent.set m.msgId { x with rnr := x.rnr + 1, rnrAt := none, acked := 0 } }) (Map.get?_set ..) hroom
  simp only [rnrOp, hq, hx, hat, hdue.not_gt, if_false, hlist, hsend, if_true]

end

section
variable {s : State} {m : MsgRef} {q : QueueSt} {r : RecvMsg} (hq : getWq s m.queue = some q)
  (hr : q.recv.get? m.msgId = some r)
include hq hr

theorem ackDelayOp_early (hearly : s.ns < r.last + 4000) : ackDelayOp s m = s := by
  simp [ackDelayOp, hq, hr, hearly]

theorem reasmOp_early (hearly : s.ns < r.last + 1000000) : reasmOp s m = s := by
  simp [reasmOp, hq, hr, hearly]

variable (hpart : r.complete = false) (hsome : r.bitmap ≠ 0)
include hpart hsome

theorem ackDelayOp_acks (hdue : r.last + 4000 ≤ s.ns) :
    ackDelayOp s m = sendAck (modWq s m.queue fun q => { q with recv := q.recv.modify m.msgId fun r => { r with last := s.ns } })
      0 m.queue m.msgId (qPeerNode q) (qPeerQueue q) q.domain false := by
  simp [ackDelayOp, hq, hr, hpart, hsome, hdue.not_gt]

theorem reasmOp_releases (hlong : 2 ≤ r.packets) (hdue : r.last + 1000000 ≤ s.ns) :
    reasmOp s m = setWq s m.queue { q with recv := q.recv.set m.msgId { r with bitmap := 0, last := s.ns } } := by
  simp [reasmOp, hq, hr, hpart, hsome, hlong.not_gt, hdue.not_gt]

end

section
variable {s : State} {peer at_ : Nat} {q : QueueSt} (hq : getWq s (mgmtKey peer) = some q) (hgap : q.gapSince = some at_)
include hq hgap

theorem mgmtSkipOp_early (hearly : s.ns < at_ + 10000000) : mgmtSkipOp s peer = s := by
  simp [mgmtSkipOp, hq, hgap, hearly]

theorem mgmtSkipOp_skips (hdue : at_ + 10000000 ≤ s.ns) :
    mgmtSkipOp s peer = advanceLow (count (setWq s (mgmtKey peer)
      { q with recv := q.recv.erase q.low, low := (q.low + 1) % 2 ^ 32, gapSince := none }) 2 0 4) (mgmtKey peer) 64 := by
  simp [mgmtSkipOp, hq, hgap, hdue.not_gt]

end

/-! ### The obligation -/

theorem Arrived.any {s : State} {k id : Nat} (h : Arrived s k id) :
    ((getWq s k).any fun p => !(p.recv.get? id).any fun m => !m.complete) = true := by
  obtain ⟨q, hq, hdone⟩ := h
  rw [hq, Option.any_some]
  cases hm : q.recv.get? id with
  | none => rfl
  | some m => simp [hdone m hm]

theorem getWq_paid (s : State) (b : List Host.Cell) (c : Map Nat) (k : Nat) : getWq { s with bulk := b, acct := c } k = getWq s k := rfl

theorem arrived_written {s : State} {k : Packet} {q : QueueSt} {m : RecvMsg} (hq : getWq s k.dstQueue = some q) (hm : m.complete = true)
    (id : Nat) (hid : recvKey k = id) :
    Arrived (modWq s k.dstQueue fun q => { q with recv := q.recv.set (recvKey k) m }) k.dstQueue id := by
  refine ⟨{ q with recv := q.recv.set (recvKey k) m }, (getWq_modWq ..).trans (congrArg (Option.map _) hq), fun m' hm' => ?_⟩
  rw [hid, Map.get?_set] at hm'
  cases hm'
  exact hm

theorem packet_writes {s u : State} {k : Packet} {q : QueueSt} {g : RegionSt} (h : ingress (clockTo s k.now) k = (u, true))
    (hmgmt : k.mgmt = false) (hop : k.op = 1) (hq : getWq (adoptDomain u k.dstQueue k.domain) k.dstQueue = some q)
    (hready : q.state = .ready) (hplace : windowPlace q k = 0)
    (hpass : regionCheck (adoptDomain u k.dstQueue k.domain) (qPd q) 1 k.regionKey k.addr k.totalLen = none)
    (hg : regionAt (adoptDomain u k.dstQueue k.domain) k.regionKey = some g) (hkind : gKind g = 1)
    (hnew : q.recv.get? (recvKey k) = none) (hshort : k.totalLen ≤ 4096) (hfirst : k.offset = 0) (hdest : k.destOk = true) :
    ∃ t, exec (.coriskanoPacket k) s = .next t ∧ t.bulk = (bulkPut u (gBase g + k.addr) k.payload k.payLen).bulk
      ∧ ((getWq t k.dstQueue).any fun p => !(p.recv.get? k.msgId).any fun m => !m.complete) = true
      ∧ t = { adoptDomain u k.dstQueue k.domain with bulk := t.bulk, acct := t.acct, net := t.net, out := t.out } := by
  have hput := regionPut_window_only (s := adoptDomain u k.dstQueue k.domain) hkind k.addr k.payLen k.payload
  have hbulk := regionPut_window_bulk (s := adoptDomain u k.dstQueue k.domain) hkind k.addr k.payLen k.payload
  have hcheck : (if namesRegion k then
      regionCheck (adoptDomain u k.dstQueue k.domain) (qPd q) k.op k.regionKey k.addr k.totalLen else none) = none := by
    rw [hop, hpass, ite_self]
  have hdone := (packetOp_places h hmgmt (by omega) (by omega) hq hready hplace hcheck).trans
    (placePacket_writes hop hq hg hnew hshort hfirst hdest)
  have hkey : recvKey k = k.msgId := if_neg (by omega)
  have hsame := hbulk.trans (bulkPut_congr (s := u) (t := adoptDomain u k.dstQueue k.domain) rfl rfl (gBase g + k.addr) k.payload
    k.payLen)
  generalize regionPut (adoptDomain u k.dstQueue k.domain) g k.addr k.payLen k.payload = v at hput hsame hdone
  generalize adoptDomain u k.dstQueue k.domain = w at *
  obtain ⟨b, c, rfl⟩ : ∃ b c, v = { w with bulk := b, acct := c } := ⟨_, _, hput⟩
  refine ⟨_, congrArg Host.Outcome.next hdone, ?_, ((arrived_written
    ((getWq_paid ..).trans hq) rfl k.msgId hkey).messageWhole k).any, ?_⟩
  · rw [messageWhole_only]
    exact hsame
  · rw [messageWhole_only]
    rfl

/-- Settles O45, row by row. It rests on assumptions 5 (a row whose condition is not met changes nothing but the time), 24 (an
acknowledgement is for the request while it is not acknowledged) and 25 (the responder of an internal pair takes the domain of
its first packet). -/
theorem packetsAreCheckedAndAcknowledged : Obligations.PacketsAreCheckedAndAcknowledged := by
  refine ⟨fun k s htraffic hsound hup => ?_,
    fun k a s htraffic hsound hup hframe hgood hpart ha hip => ?_,
    fun k u q s h hmgmt hack hnack hq hoff => congrArg Host.Outcome.next (packetOp_badState h hmgmt hack hnack hq hoff),
    fun k u q s h hmgmt hack hnack hq hready => ?_,
    fun _ _ _ _ _ h hmgmt hop hq hready hplace hpass hg hkind hnew hshort hfirst hdest =>
      packet_writes h hmgmt hop hq hready hplace hpass hg hkind hnew hshort hfirst hdest,
    fun _ _ _ h hop => execAck_passed h hop,
    fun _ _ _ h => dropped_of_ingress h,
    fun k u q m s h hop hwhole hq hm hopen hdone hhost hnone => ?_,
    fun k u q m s h hop hpart hq hm hopen hearly => ?_,
    fun k u q m s h hop hsmall hst hq hm hopen hsend hagain => ?_,
    fun k u q m st s h hop hsmall hst hkind hlow hq hhost hm hopen hready =>
      ⟨_, execNack_passed h hop hsmall hst, nackOp_error hq hm hopen hhost hready hlow hkind⟩,
    fun _ _ _ _ hq hx hopen hearly => congrArg Host.Outcome.next (retxOp_early hq hx hopen hearly),
    fun _ _ _ _ hq hx hopen hdue hspent hlow hready => ⟨_, rfl, retxOp_gives_up hq hx hopen hdue hspent hlow hready⟩,
    fun _ _ _ _ hq hx hopen hdue hagain hone hmissing hroom =>
      congrArg Host.Outcome.next (retxOp_resends hq hx hopen hdue hagain hone hmissing hroom),
    fun _ _ _ _ _ hq hx hat => ⟨fun hearly => congrArg Host.Outcome.next (rnrOp_early hq hx hat hearly),
      fun hdue hone hroom => congrArg Host.Outcome.next (rnrOp_resends hq hx hat hdue hone hroom)⟩,
    fun _ _ _ _ hq hr hpart hsome => ⟨fun hearly => congrArg Host.Outcome.next (ackDelayOp_early hq hr hearly),
      fun hdue => congrArg Host.Outcome.next (ackDelayOp_acks hq hr hpart hsome hdue)⟩,
    fun _ _ _ _ hq hr hpart hlong hsome => ⟨fun hearly => congrArg Host.Outcome.next (reasmOp_early hq hr hearly),
      fun hdue => congrArg Host.Outcome.next (reasmOp_releases hq hr hpart hsome hlong hdue)⟩,
    fun _ _ _ _ _ hq hgap => ⟨fun hearly => congrArg Host.Outcome.next (mgmtSkipOp_early hq hgap hearly),
      fun hdue => congrArg Host.Outcome.next (mgmtSkipOp_skips hq hgap hdue)⟩⟩
  · have hnode : ((clockTo s k.now).boot.failed && !k.mgmt) = false := by
      rw [clockTo_boot]
      rcases hsound with h | h <;> simp [h]
    rw [← clockTo_partition s k.now, ← clockTo_net s k.now]
    exact ⟨fun hframe => congrArg Host.Outcome.next (packetOp_dropped (ingress_badFrame htraffic hnode hup hframe)),
      fun hframe hbad => congrArg Host.Outcome.next (packetOp_dropped (ingress_malformed htraffic hnode hup hframe hbad)),
      fun hframe hgood hpart =>
        congrArg Host.Outcome.next (packetOp_dropped (ingress_foreign htraffic hnode hup hframe hgood hpart)),
      fun hframe hgood hpart hnone =>
        congrArg Host.Outcome.next (packetOp_dropped (ingress_unknown htraffic hnode hup hframe hgood hpart hnone))⟩
  · have hnode : ((clockTo s k.now).boot.failed && !k.mgmt) = false := by simp [hsound]
    rw [← clockTo_partition s k.now] at hpart
    rw [← clockTo_net s k.now] at ha ⊢
    exact ⟨fun hfence => congrArg Host.Outcome.next
        (packetOp_dropped (ingress_fenced htraffic hnode hup hframe hgood hpart ha hip hfence)),
      fun hopen _ hbad => congrArg Host.Outcome.next
        (packetOp_dropped (ingress_badTrailer htraffic hnode hup hframe hgood hpart ha hip hopen hbad))⟩
  · exact ⟨fun hplace => congrArg Host.Outcome.next (packetOp_repeated h hmgmt hack hnack hq hready hplace),
      fun hplace => congrArg Host.Outcome.next (packetOp_outside h hmgmt hack hnack hq hready hplace),
      fun m hplace hnone hm htaken hdone => congrArg Host.Outcome.next
        ((packetOp_places h hmgmt hack hnack hq hready hplace (by rw [hnone]; rfl)).trans
          (placePacket_duplicate hq hm htaken hdone)),
      fun st hplace hnames hbad => congrArg Host.Outcome.next
        (packetOp_refused h hmgmt hack hnack hq hready hplace hnames hbad)⟩
  · refine ⟨_, execAck_passed h hop, ?_⟩
    rw [hwhole, beq_self_eq_true, ackOp_completes hq hm hopen hdone hhost hnone, getWq_setWq, Option.map_some, Map.get?_erase]
    exact ⟨rfl, rfl⟩
  · refine ⟨_, acknowledged m k.payload, execAck_passed h hop, ?_⟩
    rw [beq_false_of_ne hpart, ackOp_selective hq hm hopen hearly, getWq_setWq, Option.bind_some, Map.get?_set]
    exact ⟨rfl, rfl, rfl⟩
  · rw [execNack_passed h hop hsmall hst, nackOp_busy hq hm hopen hsend hagain]

end Sys2Proof.Machine
end

section
/-! What a node knows of the other nodes: which have failed, which it has fenced and what they have reported (R341, R350, R375).
Few operations touch it, so that the work after a failure leaves the failure itself on record. -/

namespace Sys2Proof.Machine

/-- The failures on record, the capacity reports, and the fenced nodes. -/
def nodesKnown (s : State) : Map Nat × Map CapReport × List Nat := (s.place.failed, s.place.reports, s.net.fencedNodes)

theorem nodesKnown_congr {s t : State} (hplace : t.place = s.place) (hfenced : t.net.fencedNodes = s.net.fencedNodes) :
    nodesKnown t = nodesKnown s := by
  rw [nodesKnown, nodesKnown, hplace, hfenced]

theorem of_nodesKnown {s t : State} (h : nodesKnown t = nodesKnown s) :
    t.place.failed = s.place.failed ∧ t.place.reports = s.place.reports ∧ t.net.fencedNodes = s.net.fencedNodes := by
  simpa [nodesKnown] using h

theorem ite_nodesKnown {p : Prop} [Decidable p] {s t u : State} (ht : nodesKnown t = nodesKnown s)
    (hu : nodesKnown u = nodesKnown s) : nodesKnown (if p then t else u) = nodesKnown s := by
  split
  · exact ht
  · exact hu

theorem foldl_nodesKnown {α : Type} {f : State → α → State} (h : ∀ s a, nodesKnown (f s a) = nodesKnown s) (l : List α)
    (s : State) : nodesKnown (l.foldl f s) = nodesKnown s := by
  induction l generalizing s with
  | nil => rfl
  | cons a l ih => rw [List.foldl_cons, ih, h]

theorem mapFold_nodesKnown {α : Type} (m : Map α) {f : State → Nat → α → State}
    (h : ∀ s k v, nodesKnown (f s k v) = nodesKnown s) (s : State) : nodesKnown (m.fold f s) = nodesKnown s :=
  foldl_nodesKnown (fun s (e : Nat × α) => h s e.1 e.2) _ _

/-! ### Messages, packets and completions -/

theorem sendPacket_nodesKnown (s : State) (k mk i : Nat) (retx : Bool) :
    nodesKnown (sendPacket s k mk i retx) = nodesKnown s := by
  unfold sendPacket
  dsimp only
  split
  · rfl
  · split <;> rfl

theorem sendAll_nodesKnown (s : State) (k mk n : Nat) : nodesKnown (sendAll s k mk n) = nodesKnown s :=
  foldl_nodesKnown (fun _ _ => sendPacket_nodesKnown ..) _ _

theorem launch_nodesKnown (s : State) (k : Nat) (m : SendMsg) : nodesKnown (launch s k m) = nodesKnown s := by
  unfold launch
  split
  · rfl
  · exact sendAll_nodesKnown ..

theorem sendMgmt_nodesKnown (s : State) (dst mtype corr len body : Nat) :
    nodesKnown (sendMgmt s dst mtype corr len body) = nodesKnown s := by
  unfold sendMgmt
  dsimp only
  refine ite_nodesKnown rfl ?_
  have hpeer : ∀ t : State, nodesKnown (if (getWq t (mgmtKey dst)).isSome then t
      else setWq t (mgmtKey dst) { record := mgmtRecord dst }) = nodesKnown t := fun t => ite_nodesKnown rfl rfl
  split
  · exact hpeer _
  · exact ite_nodesKnown ((launch_nodesKnown ..).trans (hpeer _)) (hpeer _)

theorem raiseObj_nodesKnown (s : State) (c r o d : Nat) (p : Port) (x : Nat) (b : Bool) :
    nodesKnown (raiseObj s c r o d p x b) = nodesKnown s := nodesKnown_congr (raiseObj_place ..) (by rw [raiseObj_net])

theorem cqOverflow_nodesKnown (s : State) (cq : Nat) : nodesKnown (cqOverflow s cq) = nodesKnown s := by
  unfold cqOverflow
  split
  · rfl
  · refine (raiseObj_nodesKnown ..).trans (mapFold_nodesKnown _ (fun _ _ _ => ?_) _)
    exact ite_nodesKnown rfl rfl

theorem cqPush_nodesKnown (s : State) (cq word : Nat) (solicit : Bool) : nodesKnown (cqPush s cq word solicit) = nodesKnown s := by
  unfold cqPush
  dsimp only
  split
  · rfl
  · refine ite_nodesKnown rfl (ite_nodesKnown (cqOverflow_nodesKnown ..) (ite_nodesKnown ?_ rfl))
    exact nodesKnown_congr (msix_place ..) (by rw [msix_net]; rfl)

theorem completeWr_nodesKnown (s : State) (k : Nat) (w : WorkRequest) (st : Status) (bytes id : Nat) (solicit : Bool) :
    nodesKnown (completeWr s k w st bytes id solicit) = nodesKnown s := by
  unfold completeWr pushFor
  refine ite_nodesKnown ?_ rfl
  split
  · rfl
  · exact ite_nodesKnown rfl (cqPush_nodesKnown ..)

theorem finishFlight_nodesKnown (s : State) (g : Flight) (st : Status) (r a : Nat) :
    nodesKnown (finishFlight s g st r a) = nodesKnown s := by
  have hends : nodesKnown (serviceEnds s g.session) = nodesKnown s :=
    nodesKnown_congr (serviceEnds_place ..) (by rw [serviceEnds_net])
  unfold finishFlight
  dsimp only
  split
  · exact (sendMgmt_nodesKnown ..).trans hends
  · exact (nodesKnown_congr (respond_place ..) (by rw [respond_net])).trans hends

theorem finishWhere_nodesKnown (s : State) (p : Flight → Bool) (st : Status) (r a : Nat) :
    nodesKnown (finishWhere s p st r a) = nodesKnown s :=
  foldl_nodesKnown (fun _ _ => finishFlight_nodesKnown ..) _ _

/-! ### Sequences and their frames -/

theorem recordChanged_nodesKnown (s : State) (id : Nat) : nodesKnown (recordChanged s id) = nodesKnown s := by
  unfold recordChanged
  split
  · rfl
  · exact ite_nodesKnown (sendMgmt_nodesKnown ..) rfl

theorem removeFromHeat_nodesKnown (s : State) (id : Nat) (st : Status) :
    nodesKnown (removeFromHeat s id st) = nodesKnown s := by
  unfold removeFromHeat
  split
  · rfl
  · exact ite_nodesKnown rfl rfl

theorem endSeqWork_nodesKnown (s : State) (id : Nat) (st : Status) : nodesKnown (endSeqWork s id st) = nodesKnown s :=
  finishWhere_nodesKnown ..

theorem freeReserved_nodesKnown (s : State) (l : List Nat) : nodesKnown (freeReserved s l) = nodesKnown s := by
  refine foldl_nodesKnown (fun _ _ => ?_) _ _
  rfl

theorem releaseBlock_nodesKnown (s : State) (id : Nat) : nodesKnown (releaseBlock s id) = nodesKnown s := by
  unfold releaseBlock
  split
  · rfl
  · exact freeReserved_nodesKnown ..

theorem idxGone_nodesKnown (s : State) (id layer group page : Nat) (q : SeqSt) :
    nodesKnown (idxGone s id layer group page q) = nodesKnown s := by
  unfold idxGone
  dsimp only
  split <;> rfl

theorem clearLeaves_nodesKnown (s : State) (id : Nat) (p : Nat → Leaf → Bool) :
    nodesKnown (clearLeaves s id p) = nodesKnown s := by
  unfold clearLeaves
  split
  · rfl
  · refine mapFold_nodesKnown _ (fun _ _ _ => ?_) _
    exact ite_nodesKnown (idxGone_nodesKnown ..) rfl

theorem loseSeq_nodesKnown (s : State) (id pos reason : Nat) : nodesKnown (loseSeq s id pos reason) = nodesKnown s := by
  unfold loseSeq
  dsimp only
  split
  · rfl
  · refine ite_nodesKnown rfl ?_
    have hrows : nodesKnown (clearLeaves (releaseBlock (endSeqWork (removeFromHeat s id .lost) id .lost) id) id fun _ _ => true)
        = nodesKnown s := by
      rw [clearLeaves_nodesKnown, releaseBlock_nodesKnown, endSeqWork_nodesKnown, removeFromHeat_nodesKnown]
    refine ite_nodesKnown ((recordChanged_nodesKnown ..).trans ?_) hrows
    exact (foldl_nodesKnown (fun _ _ => sendMgmt_nodesKnown ..) _ _).trans ((raiseObj_nodesKnown ..).trans hrows)

theorem recomputeHeld_nodesKnown (s : State) (id : Nat) : nodesKnown (recomputeHeld s id) = nodesKnown s := by
  unfold recomputeHeld
  dsimp only
  split
  · rfl
  · exact ite_nodesKnown (raiseObj_nodesKnown ..) rfl

theorem reportHeld_nodesKnown (s : State) (id : Nat) : nodesKnown (reportHeld s id) = nodesKnown s := by
  unfold reportHeld
  dsimp only
  split
  · rfl
  · exact ite_nodesKnown rfl (ite_nodesKnown (recomputeHeld_nodesKnown ..) (sendMgmt_nodesKnown ..))

/-! ### What follows a failure (R341, R363, R375, R377) -/

theorem abandonPeer_nodesKnown (s : State) (node : Nat) : nodesKnown (abandonPeer s node) = nodesKnown s := by
  refine foldl_nodesKnown (fun t k => ?_) _ _
  dsimp only
  split
  · rfl
  · exact (foldl_nodesKnown (fun _ _ => completeWr_nodesKnown ..) _ _).trans
      (foldl_nodesKnown (fun _ _ => completeWr_nodesKnown ..) _ _)

theorem dropHeats_nodesKnown (s : State) (p : HeatSt → Bool) : nodesKnown (dropHeats s p) = nodesKnown s :=
  nodesKnown_congr (dropHeats_place ..) (by rw [dropHeats_net])

theorem seqsAfterFailure_nodesKnown (s : State) (node : Nat) : nodesKnown (seqsAfterFailure s node) = nodesKnown s := by
  refine mapFold_nodesKnown _ (fun _ _ _ => ?_) _
  exact ite_nodesKnown rfl (ite_nodesKnown (loseSeq_nodesKnown ..) rfl)

theorem replicasGone_nodesKnown (s : State) (node : Nat) : nodesKnown (replicasGone s node) = nodesKnown s := by
  unfold replicasGone
  refine ite_nodesKnown rfl (foldl_nodesKnown (fun _ _ => ?_) _ _)
  exact reportHeld_nodesKnown ..

theorem markFailed_known {s : State} {node : Nat} (h : s.place.failed.has node = true) (acting : Nat) :
    markFailed s node acting = s := if_pos h

theorem fenceNode_fences (s : State) (node : Nat) :
    (fenceNode s node).place.failed = s.place.failed ∧ node ∈ (fenceNode s node).net.fencedNodes := by
  unfold fenceNode
  split
  · rename_i hin
    exact ⟨rfl, List.contains_iff_mem.1 hin⟩
  · obtain ⟨hfailed, -, hfenced⟩ := of_nodesKnown (abandonPeer_nodesKnown
      (modNet s fun n => { n with fencedNodes := n.fencedNodes ++ [node] }) node)
    rw [hfailed, hfenced]
    exact ⟨rfl, List.mem_append_right _ (List.mem_singleton_self _)⟩

theorem movesAbandoned_nodesKnown (s : State) (node : Nat) : nodesKnown (movesAbandoned s node) = nodesKnown s := rfl

/-- A failure that is new is on record, and its node is fenced. -/
theorem markFailed_fences {s : State} {node : Nat} (h : s.place.failed.has node = false) (acting : Nat) :
    (markFailed s node acting).place.failed = s.place.failed.set node acting
      ∧ node ∈ (markFailed s node acting).net.fencedNodes := by
  obtain ⟨hfailed, hfenced⟩ := fenceNode_fences
    (modPl s fun p => { p with failed := p.failed.set node acting, heard := p.heard.erase node }) node
  unfold markFailed
  rw [if_neg (by simp [h])]
  dsimp only
  generalize fenceNode (modPl s fun p => { p with failed := p.failed.set node acting, heard := p.heard.erase node }) node = u
    at hfailed hfenced ⊢
  have hafter : nodesKnown (replicasGone (seqsAfterFailure (movesAbandoned
      (dropHeats u fun h => h.master == some node) node) node) node) = nodesKnown u := by
    rw [replicasGone_nodesKnown, seqsAfterFailure_nodesKnown, movesAbandoned_nodesKnown, dropHeats_nodesKnown]
  obtain ⟨hplace, -, hnet⟩ := of_nodesKnown hafter
  rw [hplace, hnet]
  exact ⟨hfailed, hfenced⟩

/-! ### Spill rows (R355) -/

theorem spillStep_nodesKnown (s : State) (id : Nat) (x : Search) : nodesKnown (spillStep s id x) = nodesKnown s := by
  unfold spillStep
  split
  · split
    · rfl
    · exact sendMgmt_nodesKnown ..
  · rfl

theorem spillOp_nodesKnown (s : State) (id : Nat) : nodesKnown (spillOp s id) = nodesKnown s := by
  unfold spillOp
  dsimp only
  split
  · rfl
  · exact ite_nodesKnown rfl (ite_nodesKnown rfl (spillStep_nodesKnown ..))

theorem spillAll_nodesKnown (s : State) : nodesKnown (spillAll s) = nodesKnown s := by
  refine mapFold_nodesKnown _ (fun _ _ _ => ?_) _
  exact ite_nodesKnown (spillOp_nodesKnown ..) rfl

end Sys2Proof.Machine
end

section
/-! Nodes speak of themselves (R341, R350, R352, R355, R374, R375): capacity reports, stripe searches, heartbeats and failures. -/

namespace Sys2Proof.Machine

/-! ### A message that is delivered and keeps R348 -/

theorem runMgmt_passed {m : Mgmt} {s : State} {len : Nat} {named : List (Nat × Nat)} (htraffic : trafficOff (clockTo s m.now) = false)
    (hreach : nodeReachable (clockTo s m.now) m.src = true) (hok : mgmtOk m len named = true) (op : State → State) :
    runMgmt m len named op s = .next (op (clockTo s m.now)) := by
  simp [runMgmt, htraffic, hreach, hok]

/-- The rows of management messages all run as R348 says; what remains is what each does. -/
theorem onMessage_of_row {run : Mgmt → Instr} {len : Mgmt → Nat} {named : Mgmt → List (Nat × Nat)} {pre : Mgmt → State → Prop}
    {effect op : Mgmt → State → State} (row : Mgmt → State → Res) (hexec : ∀ m s, exec (run m) s = row m s)
    (hrow : ∀ m s, row m s = runMgmt m (len m) (named m) (op m) s) (hop : ∀ m s, pre m s → op m s = effect m s) :
    OnMessage run len named pre effect := fun m s htraffic hreach hok hpre => by
  rw [hexec, hrow, runMgmt_passed htraffic hreach hok, hop m _ hpre]

/-! ### Capacity reports (R350, R351) -/

theorem fld_div (x n hi lo : Nat) : fld (x / 2 ^ n) hi lo = fld x (n + hi) (n + lo) := by
  rw [fld, fld, Nat.div_div_eq_div_mul, ← pow_add, show n + hi + 1 - (n + lo) = hi + 1 - lo by omega]

theorem bit_div (x n i : Nat) : bit (x / 2 ^ n) i = bit x (n + i) := by
  rw [bit, bit, Nat.div_div_eq_div_mul, ← pow_add]

theorem bit_mod {x n i : Nat} (h : i < n) : bit (x % 2 ^ n) i = bit x i := by
  rw [bit_eq_testBit, bit_eq_testBit, Nat.testBit_mod_two_pow, decide_eq_true h, Bool.true_and]

/-- What a filter keeps whatever it holds reads as before. -/
theorem Map.get?_filter_in {α : Type} {m : Map α} {p : Nat → α → Bool} {k : Nat} (h : ∀ v, p k v = true) :
    (m.filter p).get? k = m.get? k := by
  obtain ⟨l⟩ := m
  change lookupKey k (l.filter fun e => p e.1 e.2) = lookupKey k l
  induction l with
  | nil => rfl
  | cons e l ih =>
    by_cases hk : e.1 = k
    · have hp : p e.1 e.2 = true := hk ▸ h e.2
      rw [List.filter_cons, if_pos hp, lookupKey, lookupKey, if_pos hk, if_pos hk]
    · rw [List.filter_cons]
      split
      · rw [lookupKey, lookupKey, if_neg hk, if_neg hk, ih]
      · rw [lookupKey, if_neg hk, ih]

/-- What one entry of a report says of a domain of its sender. -/
def reported (s : State) (m : Mgmt) : CapReport :=
  { free := fld m.body 183 160, total := fld m.body 215 192, sealed := bit m.body 134, arrival := epochOf s.ns }

theorem capOp_reports {m : Mgmt} (hone : byt m.body 8 8 = 1) (s : State) :
    (capOp s m).place.reports
      = (s.place.reports.filter fun k _ => k / 64 != m.src).set (m.src * 64 + fld m.body 133 128) (reported s m) := by
  obtain ⟨-, hreports, -⟩ := of_nodesKnown (spillAll_nodesKnown (modPl s fun p => { p with
    reports := (elems 128 (m.body / 2 ^ 128) (byt m.body 8 8)).foldl (fun (r : Map CapReport) e =>
      r.set (m.src * 64 + fld e 5 0) { free := fld e 55 32, total := fld e 87 64, sealed := bit e 6, arrival := epochOf s.ns })
        (s.place.reports.filter fun k _ => k / 64 != m.src) }))
  refine hreports.trans ?_
  rw [hone, elems, elems]
  change Map.set _ (m.src * 64 + fld (m.body / 2 ^ 128 % 2 ^ 128) 5 0) _ = _
  rw [fld_mod 0 (by omega) (by omega), fld_mod 32 (by omega) (by omega), fld_mod 64 (by omega) (by omega), bit_mod (by omega),
    fld_div, fld_div, fld_div, bit_div]
  rfl

theorem capReport_replaces {m : Mgmt} {s : State} (htraffic : trafficOff (clockTo s m.now) = false)
    (hreach : nodeReachable (clockTo s m.now) m.src = true) (hone : byt m.body 8 8 = 1) (hok : mgmtOk m 32 (capNamed 1) = true) :
    ∃ t, exec (.capReport m) s = .next t
      ∧ t.place.reports.get? (m.src * 64 + fld m.body 133 128) = some (reported (clockTo s m.now) m)
      ∧ ∀ k, k / 64 ≠ m.src → t.place.reports.get? k = (clockTo s m.now).place.reports.get? k := by
  have hexec : exec (.capReport m) s = runMgmt m 32 (capNamed 1) (fun s => capOp s m) s := by
    change execCapReport m s = _
    simp [execCapReport, hone]
  refine ⟨_, hexec.trans (runMgmt_passed htraffic hreach hok _), ?_, fun k hk => ?_⟩
  · rw [capOp_reports hone, Map.get?_set]
  · have hdomain : fld m.body 133 128 < 64 := fld_lt ..
    rw [capOp_reports hone, Map.get?_set_ne _ (by omega), Map.get?_filter_in (p := fun k _ => k / 64 != m.src) fun _ => bne_iff_ne.2 hk]

/-! ### Stripe searches (R349, R352) -/

/-- The verdict of this node on a stripe that a message asks it for. -/
abbrev verdictOn (m : Mgmt) (s : State) : Status :=
  stripeVerdict s (byt m.body 6 6) (byt m.body 8 9) (fld m.body 191 128) (fld m.body 127 96) (fld m.body 575 192)

theorem stripeReq_refuses : OnMessage .stripeReq (fun _ => 72) (fun _ => [(87, 0), (575, 96)]) (fun m s => verdictOn m s ≠ .ok)
    (fun m s => stripeReply s m (verdictOn m s) 0) := by
  refine onMessage_of_row execStripeReq (fun _ _ => rfl) (fun _ _ => rfl) fun m s h => ?_
  split
  · contradiction
  · rfl

theorem stripeReq_takes : OnMessage .stripeReq (fun _ => 72) (fun _ => [(87, 0), (575, 96)])
    (fun m s => verdictOn m s = .ok ∧ byt m.body 7 7 = 0 ∧ byt m.body 6 6 ≤ 63 ∧ (getQ s (byt m.body 0 5)).isSome)
    (fun m s => stripeReply (modQ s (byt m.body 0 5) fun q => { q with groupMask := q.groupMask ||| fld m.body 191 128 }) m .ok 0) := by
  refine onMessage_of_row execStripeReq (fun _ _ => rfl) (fun _ _ => rfl) fun m s ⟨hok, hkind, hdomain, hq⟩ => ?_
  rw [verdictOn] at hok
  rw [hok]
  dsimp only
  rw [if_neg (by omega), stripeTake]
  dsimp only
  rw [if_pos hq, if_pos hkind]

theorem stripeReply_answers : OnMessage .stripeReply (fun _ => 8) (fun _ => [(15, 0), (63, 32)])
    (fun m s => ∃ x, s.place.asked.get? m.corr = some x ∧ ∃ id, x.what = .stripe id m.src)
    (fun m s => match (s.place.asked.get? m.corr).map (·.what) with
      | some (Asked.stripe id n) => candidateSays (answered s m.corr) id n false (replyStatus (byt m.body 0 1))
      | _ => s) := by
  refine onMessage_of_row execStripeReply (fun _ _ => rfl) (fun _ _ => rfl) fun m s ⟨x, hx, id, hwhat⟩ => ?_
  simp [hx, hwhat]

theorem stripeReply_unasked : OnMessage .stripeReply (fun _ => 8) (fun _ => [(15, 0), (63, 32)])
    (fun m s => s.place.asked.get? m.corr = none) (fun _ s => s) := by
  refine onMessage_of_row execStripeReply (fun _ _ => rfl) (fun _ _ => rfl) fun m s h => ?_
  rw [h]

/-! ### Failures (R374, R375) -/

theorem failNotice_marks {m : Mgmt} {s : State} (htraffic : trafficOff (clockTo s m.now) = false)
    (hreach : nodeReachable (clockTo s m.now) m.src = true) (hok : mgmtOk m 16 [(11, 0), (27, 16), (39, 32), (127, 64)] = true)
    (hother : byt m.body 0 1 ≠ (clockTo s m.now).nodeNo) :
    ∃ t, exec (.failNotice m) s = .next t ∧ t.place.failed.has (byt m.body 0 1) = true
      ∧ ((clockTo s m.now).place.failed.has (byt m.body 0 1) = false → byt m.body 0 1 ∈ t.net.fencedNodes) := by
  obtain ⟨hfailed, -, hfenced⟩ := of_nodesKnown (sendMgmt_nodesKnown
    (markFailed (clockTo s m.now) (byt m.body 0 1) (byt m.body 2 3)) m.src 0x0006 m.corr 2 (byt m.body 0 1))
  have hexec : exec (.failNotice m) s
      = .next (failAck (markFailed (clockTo s m.now) (byt m.body 0 1) (byt m.body 2 3)) m) := by
    change execFailNotice m s = _
    rw [execFailNotice, runMgmt_passed htraffic hreach hok, if_neg hother]
  refine ⟨_, hexec, ?_, fun hnew => ?_⟩
  · rw [failAck, hfailed]
    cases hknown : (clockTo s m.now).place.failed.has (byt m.body 0 1) with
    | true => rwa [markFailed_known hknown]
    | false =>
      rw [(markFailed_fences hknown _).1, Map.has, Map.get?_set]
      rfl
  · rw [failAck, hfenced]
    exact (markFailed_fences hnew _).2

section
variable {s : State} (hon : placeOn s = true) {k at_ : Nat} (hheard : s.place.heard.l = [(k, at_)])
include hon hheard

theorem silenceOp_declares (hdue : at_ + failNs s ≤ s.ns) : silenceOp s = declareFailed s k s.nodeNo 1 := by
  simp [silenceOp, hon, Map.fold, hheard, hdue]

theorem silenceOp_early (hearly : s.ns < at_ + failNs s) : silenceOp s = s := by
  simp [silenceOp, hon, Map.fold, hheard, hearly.not_ge]

end

/-! ### Spill rows (R355) -/

section
variable {s : State} {id : Nat} {q : SeqSt} (hq : getQ s id = some q)
include hq

theorem spillOp_idle (h : q.state ≠ .running ∨ q.sb ≠ 0 ∨ placeOn s = false) : spillOp s id = s := by
  unfold spillOp
  rw [hq]
  refine if_pos ?_
  rcases h with h | h | h
  · exact Or.inl h
  · exact Or.inr (Or.inl h)
  · exact Or.inr (Or.inr (Or.inr (by rw [h]; rfl)))

/-- Nobody can be asked: the search fails at once. -/
theorem spillOp_nobody (hrun : q.state = .running) (hsb : q.sb = 0) (hon : placeOn s = true)
    (hidle : s.place.searches.has (spillKey id) = false) (hfew : q.stripes.length < 64)
    (hself : ∀ x ∈ candidates s q.domain false, x = s.nodeNo) :
    spillOp s id = searchFailed (modPl s fun p => { p with searches := p.searches.erase (spillKey id) }) q.domain := by
  have hnone : (candidates s q.domain false).filter (fun n => n != s.nodeNo) = [] :=
    List.filter_eq_nil_iff.2 fun x hx => by simp [hself x hx]
  simp [spillOp, hq, hrun, hsb, hon, hidle, hfew.not_ge, hnone, spillStep]

end

theorem searchFailed_mem (s : State) (d : Nat) : d ∈ (searchFailed s d).place.failedSearch := by
  change d ∈ if s.place.failedSearch.contains d then s.place.failedSearch else s.place.failedSearch ++ [d]
  split
  · rename_i h
    exact List.contains_iff_mem.1 h
  · exact List.mem_append_right _ (List.mem_singleton_self _)

/-! ### The obligation -/

/-- Settles O41, row by row. It rests on assumptions 5 (a row whose condition is not met changes nothing but the time), 28 (a
stripe node's descriptor sets no limit of its own), 37 (what answers a STRIPE_REQ for a model or a domain not known here) and 121
(a spill search that would make a 65th stripe counts as failed). -/
theorem nodesSpeakOfThemselves : Obligations.NodesSpeakOfThemselves := by
  refine ⟨fun _ _ htraffic hreach hone hok => capReport_replaces htraffic hreach hone hok, stripeReq_refuses, stripeReq_takes,
    stripeReply_answers, stripeReply_unasked,
    onMessage_of_row execHeartbeat (fun _ _ => rfl) (fun _ _ => rfl) fun _ _ hhealthy => if_neg hhealthy,
    onMessage_of_row execHeartbeat (fun _ _ => rfl) (fun _ _ => rfl) fun _ _ hfailed => if_pos hfailed,
    onMessage_of_row execFailNotice (fun _ _ => rfl) (fun _ _ => rfl) fun _ _ hself => if_pos hself,
    fun _ _ htraffic hreach hok hother => failNotice_marks htraffic hreach hok hother,
    onMessage_of_row execFailAck (fun _ _ => rfl) (fun _ _ => rfl) fun _ _ _ => rfl,
    fun n s hoff => congrArg Host.Outcome.next ?_,
    fun n k at_ s htraffic hon hheard hdue =>
      congrArg Host.Outcome.next ((if_neg (by simp [htraffic])).trans (silenceOp_declares hon hheard hdue)),
    fun n k at_ s htraffic hon hheard hearly =>
      congrArg Host.Outcome.next ((if_neg (by simp [htraffic])).trans (silenceOp_early hon hheard hearly)),
    fun _ _ _ _ hq hidle => congrArg Host.Outcome.next (spillOp_idle hq hidle),
    fun _ _ _ _ hq hrun hsb hon hidle hfew hself =>
      ⟨_, congrArg Host.Outcome.next (spillOp_nobody hq hrun hsb hon hidle hfew hself), searchFailed_mem .., rfl⟩⟩
  rcases hoff with hoff | hoff
  · exact if_pos hoff
  · simp [silenceOp, hoff]

end Sys2Proof.Machine
end

section
/-! Messages keep their promises (R307, R348, R349, R356, R360, R362, R366, R370, R371, R377, R381, R456, R465): leases, pairs,
replication reports, changes of the page map, forwarded commands, and silence. -/

namespace Sys2Proof.Machine

/-! ### Leases (R370) -/

theorem getQ_recordChanged (s : State) (id k : Nat) : getQ (recordChanged s id) k = getQ s k :=
  congrArg (·.get? k) (of_work (recordChanged_work s id)).1

section
variable {s : State} {m : Mgmt} {q : SeqSt} (hq : getQ s (byt m.body 0 5) = some q)
include hq

theorem leaseRenewOp_renews (hhome : homeOf s (byt m.body 0 5) = s.nodeNo) (hlive : q.own.state ≠ .abandoned)
    (hnode : q.own.ownerNode = byt m.body 12 13) (hfunc : q.own.ownerFunc = byt m.body 14 14) (htime : s.ns < q.own.expiry) :
    leaseRenewOp s m = recordChanged (modQ s (byt m.body 0 5) fun q =>
      { q with own := { q.own with expiry := s.ns + q.own.leaseMs * 1000000 } }) (byt m.body 0 5) := by
  unfold leaseRenewOp
  dsimp only
  rw [hq]
  exact if_pos ⟨hhome, hlive, hnode, hfunc, htime⟩

theorem leaseRenewOp_late (hlate : q.own.expiry ≤ s.ns ∨ q.own.state = .abandoned) : leaseRenewOp s m = s := by
  unfold leaseRenewOp
  dsimp only
  rw [hq]
  refine if_neg fun ⟨_, hlive, _, _, htime⟩ => ?_
  rcases hlate with h | h
  · exact absurd htime h.not_gt
  · exact hlive h

end

theorem leaseRenew_renews {m : Mgmt} {q : SeqSt} {s : State} (htraffic : trafficOff (clockTo s m.now) = false)
    (hreach : nodeReachable (clockTo s m.now) m.src = true)
    (hok : mgmtOk m 24 [(47, 0), (107, 64), (119, 112), (191, 128)] = true)
    (hq : getQ (clockTo s m.now) (byt m.body 0 5) = some q)
    (hhome : homeOf (clockTo s m.now) (byt m.body 0 5) = (clockTo s m.now).nodeNo) (hlive : q.own.state ≠ .abandoned)
    (hnode : q.own.ownerNode = byt m.body 12 13) (hfunc : q.own.ownerFunc = byt m.body 14 14)
    (htime : (clockTo s m.now).ns < q.own.expiry) :
    ∃ t, exec (.leaseRenew m) s = .next t
      ∧ (getQ t (byt m.body 0 5)).map (·.own) = some { q.own with expiry := (clockTo s m.now).ns + q.own.leaseMs * 1000000 } := by
  have hexec : exec (.leaseRenew m) s = .next (leaseRenewOp (clockTo s m.now) m) := by
    change execLeaseRenew m s = _
    exact runMgmt_passed htraffic hreach hok _
  refine ⟨_, hexec, ?_⟩
  rw [leaseRenewOp_renews hq hhome hlive hnode hfunc htime, getQ_recordChanged, getQ_modQ, hq]
  rfl

/-! ### Internal queue pairs (R307, R349) -/

theorem freeInternal_lt {s : State} {n k : Nat} (h : freeInternal s n = some k) : k < n := by
  induction n with
  | zero => cases h
  | succ n ih =>
    rw [freeInternal] at h
    split at h
    · exact (ih h).trans (Nat.lt_succ_self _)
    · cases h
      exact Nat.lt_succ_self _

/-- The responder's queue stands as PAIR_REQ asks; the reply goes over a peer of the management endpoint. -/
theorem getWq_pairOp {s : State} {m : Mgmt} {k : Nat} (hfree : freeInternal s 65536 = some k) :
    getWq (pairOp s m) k = some { record := internalRecord m.src (byt m.body 0 1) (byt m.body 3 3)
                                  internal := some (byt m.body 2 2)
                                  heat := if byt m.body 2 2 = 0 then byt m.body 4 5 else 0 } := by
  unfold pairOp
  dsimp only
  rw [hfree]
  dsimp only
  rw [getWq_sendMgmt_ne (ne_mgmtKey (freeInternal_lt hfree) _)]
  split <;> exact getWq_setWq ..

theorem pairReq_pairs {m : Mgmt} {k : Nat} {s : State} (htraffic : trafficOff (clockTo s m.now) = false)
    (hreach : nodeReachable (clockTo s m.now) m.src = true) (hok : mgmtOk m 6 [(47, 0)] = true) (hkind : byt m.body 2 2 ≤ 2)
    (hfree : freeInternal (clockTo s m.now) 65536 = some k) :
    ∃ t q, exec (.pairReq m) s = .next t ∧ getWq t k = some q ∧ q.internal = some (byt m.body 2 2)
      ∧ q.record = internalRecord m.src (byt m.body 0 1) (byt m.body 3 3) := by
  have hexec : exec (.pairReq m) s = .next (pairOp (clockTo s m.now) m) := by
    change execPairReq m s = _
    rw [execPairReq, runMgmt_passed htraffic hreach hok, if_neg hkind.not_gt]
  exact ⟨_, _, hexec, getWq_pairOp hfree, rfl, rfl⟩

theorem pairReply_refused : OnMessage .pairReply (fun _ => 4) (fun _ => [(31, 0)])
    (fun m s => ∃ x, s.place.asked.get? m.corr = some x ∧ (∃ k, x.what = .pair k m.src) ∧ byt m.body 0 1 ≠ 0)
    (fun m s => match (s.place.asked.get? m.corr).map (·.what) with
      | some (Asked.pair k _) => modNet (answered s m.corr) fun n => { n with queues := n.queues.erase k }
      | _ => s) := by
  refine onMessage_of_row execPairReply (fun _ _ => rfl) (fun _ _ => rfl) fun m s ⟨x, hx, ⟨k, hwhat⟩, hbad⟩ => ?_
  simp [hx, hwhat, hbad, unpaired]

theorem getWq_answered (s : State) (corr k : Nat) : getWq (answered s corr) k = getWq s k := rfl

/-- A ready queue with another record. -/
def readyWith (q : QueueSt) (r : BitVec 256) : QueueSt := { q with state := .ready, record := r }

theorem later_readyWith (q : QueueSt) (r : BitVec 256) : (readyWith q r).later = q.later := rfl

/-- A queue once its peer has named its own queue. -/
def pairedTo (q : QueueSt) (peer : Nat) : QueueSt := readyWith q (rset q.record 115 100 peer)

theorem pairReply_pairs {s : State} {m : Mgmt} {x : Request} {k : Nat} {q : QueueSt}
    (htraffic : trafficOff (clockTo s m.now) = false) (hreach : nodeReachable (clockTo s m.now) m.src = true)
    (hok : mgmtOk m 4 [(31, 0)] = true) (hx : (clockTo s m.now).place.asked.get? m.corr = some x) (hwhat : x.what = .pair k m.src)
    (hgood : byt m.body 0 1 = 0) (hq : getWq (clockTo s m.now) k = some q) (hlater : q.later = []) :
    ∃ t p, exec (.pairReply m) s = .next t ∧ getWq t k = some p ∧ p.state = .ready ∧ rf p.record 115 100 = byt m.body 2 3 := by
  have hpaired : getWq (modWq (answered (clockTo s m.now) m.corr) k fun q => pairedTo q (byt m.body 2 3)) k
      = some (pairedTo q (byt m.body 2 3)) := by
    rw [getWq_modWq, getWq_answered, hq, Option.map_some]
  have hempty : (pairedTo q (byt m.body 2 3)).later = [] := (later_readyWith ..).trans hlater
  have hexec : exec (.pairReply m) s
      = .next (modWq (answered (clockTo s m.now) m.corr) k fun q => pairedTo q (byt m.body 2 3)) := by
    change execPairReply m s = _
    rw [execPairReply, runMgmt_passed htraffic hreach hok, hx]
    simp only [hwhat, hgood, ne_eq, not_true_eq_false, if_false]
    change Host.Outcome.next (drainLater _ k (((getWq (modWq (answered (clockTo s m.now) m.corr) k fun q =>
      pairedTo q (byt m.body 2 3)) k).map fun q => q.later.length).getD 0)) = _
    rw [hpaired, Option.map_some, hempty]
    rfl
  have hpeer : rf (rset q.record 115 100 (byt m.body 2 3)) 115 100 = byt m.body 2 3 := by
    have hsmall : byt m.body 2 3 < 2 ^ (115 + 1 - 100) := fld_lt ..
    rw [rf_rset _ _ _ _ (by omega) (by omega), Nat.mod_eq_of_lt hsmall]
  exact ⟨_, _, hexec, hpaired, rfl, hpeer⟩

/-! ### Replication reports (R360, R362, R366, R371) -/

theorem heldReportOp_home {s : State} {m : Mgmt} {q : SeqSt} (hq : getQ s (byt m.body 0 5) = some q)
    (hnone : ∀ n ∈ q.stripes, s.place.failed.get? n ≠ some m.src) :
    heldReportOp s m = recomputeHeld (modQ s (byt m.body 0 5) fun q => { q with
      reports := q.reports.set m.src { held := byt m.body 8 10, missing := byt m.body 12 14, late := byt m.body 16 17 } })
        (byt m.body 0 5) := by
  have hfind : q.stripes.find? (fun n => s.place.failed.get? n == some m.src) = none :=
    List.find?_eq_none.2 fun n hn => by simpa using hnone n hn
  unfold heldReportOp
  dsimp only
  rw [hq]
  dsimp only
  rw [hfind]

theorem heldReport_counts {m : Mgmt} {q : SeqSt} {s : State} (htraffic : trafficOff (clockTo s m.now) = false)
    (hreach : nodeReachable (clockTo s m.now) m.src = true)
    (hok : mgmtOk m 18 [(47, 0), (88, 64), (119, 96), (143, 128)] = true)
    (hq : getQ (clockTo s m.now) (byt m.body 0 5) = some q)
    (hnone : ∀ n ∈ q.stripes, (clockTo s m.now).place.failed.get? n ≠ some m.src) :
    exec (.heldReport m) s = .next (recomputeHeld (modQ (clockTo s m.now) (byt m.body 0 5) fun q => { q with
      reports := q.reports.set m.src { held := byt m.body 8 10, missing := byt m.body 12 14, late := byt m.body 16 17 } })
        (byt m.body 0 5)) := by
  change execHeldReport m s = _
  rw [execHeldReport, runMgmt_passed htraffic hreach hok, heldReportOp_home hq hnone]

theorem replDegraded_one {m : Mgmt} {s : State} (htraffic : trafficOff (clockTo s m.now) = false)
    (hreach : nodeReachable (clockTo s m.now) m.src = true) (hone : byt m.body 0 0 = 1)
    (hok : mgmtOk m 14 [(16, 0), (111, 64)] = true) :
    exec (.replDegraded m) s
      = .next (degradedSeq (clockTo s m.now) (fld m.body 111 64) (byt m.body 1 1) (bit m.body 16)) := by
  have hlen : mgmtOk m (8 + 6 * 1) [(16, 0), (63 + 48 * 1, 64)] = true := hok
  change execReplDegraded m s = _
  rw [execReplDegraded, hone]
  rw [if_neg (by omega), runMgmt_passed htraffic hreach hlen]
  rfl

theorem execRecordRepl_eq (m : Mgmt) (s : State) : execRecordRepl m s
    = runMgmt m (304 + 16 * fld m.body 2383 2368) (replNamed (fld m.body 2383 2368)) (fun s => replicaOp s m) s := rfl

theorem recordRepl_free : OnMessage .recordRepl (fun m => 304 + 16 * fld m.body 2383 2368)
    (fun m => replNamed (fld m.body 2383 2368)) (fun m _ => fld (fld m.body 2111 64) 72 70 = 0)
    (fun m s => modPl s fun p => { p with replicas := p.replicas.erase (byt m.body 0 5) }) := by
  refine onMessage_of_row execRecordRepl (fun _ _ => rfl) execRecordRepl_eq fun m s hfree => ?_
  simp only [replicaOp, if_pos hfree]

theorem recordRepl_holds {m : Mgmt} {s : State} (htraffic : trafficOff (clockTo s m.now) = false)
    (hreach : nodeReachable (clockTo s m.now) m.src = true)
    (hok : mgmtOk m (304 + 16 * fld m.body 2383 2368) (replNamed (fld m.body 2383 2368)) = true)
    (hlive : fld (fld m.body 2111 64) 72 70 ≠ 0) :
    ∃ t q, exec (.recordRepl m) s = .next t ∧ t.place.replicas.get? (byt m.body 0 5) = some q
      ∧ q.own = ownOfWord (fld m.body 2367 2112) ∧ t = { clockTo s m.now with place := t.place } := by
  have hexec : exec (.recordRepl m) s = .next (replicaOp (clockTo s m.now) m) := by
    exact (execRecordRepl_eq m s).trans (runMgmt_passed htraffic hreach hok _)
  simp only [replicaOp, if_neg hlive] at hexec
  exact ⟨_, _, hexec, Map.get?_set .., rfl, rfl⟩

/-! ### Changes of the page map (R356, R377, R465) -/

/-- The change that a MAP_UPDATE carries. -/
def changeOf (m : Mgmt) : MapChange :=
  { kind := byt m.body 8 8
    heat := byt m.body 10 11
    length := byt m.body 12 14
    groupMask := fld m.body 191 128
    stripes := stripesOfWord (fld m.body 1215 192) }

section
variable {s : State} {m : Mgmt}

theorem mapUpdateOp_unknown (hq : getQ s (byt m.body 0 5) = none) :
    mapUpdateOp s m = ackReleaseTo s m (byt m.body 0 5) .badState := by
  simp [mapUpdateOp, hq]

theorem mapUpdateOp_waits {q : SeqSt} (hq : getQ s (byt m.body 0 5) = some q) (hrun : byt m.body 8 8 ≠ 2 ∨ q.state = .running) :
    mapUpdateOp s m = ackReleaseTo (modQ s (byt m.body 0 5) fun q =>
      { q with change := some (changeOf m), awaiting := q.awaiting || (changeOf m).kind == 2 }) m (byt m.body 0 5) .ok := by
  unfold mapUpdateOp
  dsimp only
  rw [hq, Option.isNone_some, if_neg Bool.false_ne_true, Option.any_some, if_neg]
  · rfl
  · rintro ⟨hkind, hidle⟩
    rcases hrun with h | h
    · exact h hkind
    · simp [h] at hidle

theorem getQ_ackReleaseTo (s : State) (m : Mgmt) (id : Nat) (st : Status) (k : Nat) :
    getQ (ackReleaseTo s m id st) k = getQ s k := getQ_sendMgmt ..

end

theorem mapUpdate_waits {m : Mgmt} {q : SeqSt} {s : State} (htraffic : trafficOff (clockTo s m.now) = false)
    (hreach : nodeReachable (clockTo s m.now) m.src = true)
    (hok : mgmtOk m 152 [(47, 0), (71, 64), (119, 80), (1215, 128)] = true)
    (hq : getQ (clockTo s m.now) (byt m.body 0 5) = some q) (hrun : byt m.body 8 8 ≠ 2 ∨ q.state = .running) :
    ∃ t p c, exec (.mapUpdate m) s = .next t ∧ getQ t (byt m.body 0 5) = some p ∧ p.change = some c
      ∧ c.kind = byt m.body 8 8 ∧ c.length = byt m.body 12 14 ∧ c.groupMask = fld m.body 191 128
      ∧ (byt m.body 8 8 = 2 → p.awaiting = true) ∧ p.length = q.length := by
  have hexec : exec (.mapUpdate m) s = .next (mapUpdateOp (clockTo s m.now) m) := by
    change execMapUpdate m s = _
    exact runMgmt_passed htraffic hreach hok _
  refine ⟨_, { q with change := some (changeOf m), awaiting := q.awaiting || (changeOf m).kind == 2 }, changeOf m, hexec, ?_, rfl,
    rfl, rfl, rfl, fun hkind => ?_, rfl⟩
  · rw [mapUpdateOp_waits hq hrun, getQ_ackReleaseTo, getQ_modQ, hq]
    rfl
  · simp [changeOf, hkind]

theorem seqRelease_unknown : OnMessage .seqRelease (fun _ => 11) (fun _ => [(55, 0), (87, 64)])
    (fun m s => getQ s (byt m.body 0 5) = none) (fun m s => ackReleaseTo s m (byt m.body 0 5) .ok) := by
  refine onMessage_of_row execSeqRelease (fun _ _ => rfl) (fun _ _ => rfl) fun m s hq => ?_
  simp [hq]

theorem seqRelease_frees : OnMessage .seqRelease (fun _ => 11) (fun _ => [(55, 0), (87, 64)])
    (fun m s => (getQ s (byt m.body 0 5)).isSome ∧ byt m.body 6 6 = 0)
    (fun m s => ackReleaseTo (freeSeq (removeFromHeat s (byt m.body 0 5) .badState) (byt m.body 0 5)) m (byt m.body 0 5) .ok) := by
  refine onMessage_of_row execSeqRelease (fun _ _ => rfl) (fun _ _ => rfl) fun m s ⟨hsome, hall⟩ => ?_
  obtain ⟨q, hq⟩ := Option.isSome_iff_exists.1 hsome
  simp [hq, hall]

theorem ackRelease_ends : OnMessage .ackRelease (fun _ => 8) (fun _ => [(63, 0)])
    (fun m s => ∃ x, s.place.asked.get? m.corr = some x ∧ ∃ id, x.what = .release id m.src)
    (fun m s => match (s.place.asked.get? m.corr).map (·.what) with
      | some (Asked.release id _) => releaseEnds (answered s m.corr) id .ok
      | _ => s) := by
  refine onMessage_of_row execAckRelease (fun _ _ => rfl) (fun _ _ => rfl) fun m s ⟨x, hx, id, hwhat⟩ => ?_
  simp [hx, hwhat]

theorem ackRelease_updated : OnMessage .ackRelease (fun _ => 8) (fun _ => [(63, 0)])
    (fun m s => ∃ x, s.place.asked.get? m.corr = some x ∧ ∃ id, x.what = .update id m.src) (fun m s => answered s m.corr) := by
  refine onMessage_of_row execAckRelease (fun _ _ => rfl) (fun _ _ => rfl) fun m s ⟨x, hx, id, hwhat⟩ => ?_
  simp [hx, hwhat]

/-! ### Forwarded commands (R344, R349, R456) -/

/-- The length of a CMD_FORWARD body, and the bits that a field of it names. -/
abbrev forwardLen (m : Mgmt) : Nat := 80 + (if bit m.body 40 then byt m.body 6 7 else 0)
abbrev forwardNamed (m : Mgmt) : List (Nat × Nat) := [(543, 0), (8 * forwardLen m - 1, 576)]

theorem execCmdForward_eq (m : Mgmt) (s : State) :
    execCmdForward m s = runMgmt m (forwardLen m) (forwardNamed m) (fun s => forwardedOp s m) s := rfl

theorem cmdForward_unknown : OnMessage .cmdForward forwardLen forwardNamed (fun m _ => forwardedBody (byt m.body 0 1) = none)
    (fun m s => answerForward s m.src m.corr (responseWord 0 0 .badOpcode (byt m.body 0 1) (forwardedDesc m).tag.toNat
      (forwardedDesc m).domain.toNat true (approvedNow s)) 0 0) := by
  refine onMessage_of_row execCmdForward (fun _ _ => rfl) execCmdForward_eq fun m s hnone => ?_
  unfold forwardedOp
  dsimp only
  rw [hnone]
  rfl

theorem cmdForward_queries : OnMessage .cmdForward forwardLen forwardNamed
    (fun m _ => byt m.body 0 1 = 0x0A02 ∧ (forwardedDesc m).domain = 0)
    (fun m s => answerAns (replQuery (forwardedDesc m) (renewBy (forwardedDesc m) s (byt (forwardedDesc m).body 0 5))).1 m
      (forwardedDesc m) 0x0A02 (replQuery (forwardedDesc m) (renewBy (forwardedDesc m) s (byt (forwardedDesc m).body 0 5))).2) := by
  refine onMessage_of_row execCmdForward (fun _ _ => rfl) execCmdForward_eq fun m s ⟨hopcode, hdomain⟩ => ?_
  have hzero : ¬(forwardedDesc m).domain.toNat ≠ 0 := by simp [hdomain]
  have hbody : forwardedBody 0x0A02 = some replQuery := rfl
  unfold forwardedOp
  dsimp only
  rw [hopcode, hbody]
  dsimp only
  rw [if_neg fun h => hzero h.1, if_neg fun h => hzero h.1]

/-- Without output, or with a failure, the response alone ends the command. -/
theorem answerTo_plain {s : State} {corr : Nat} (hflight : (s.flights.find? fun g => g.key == fwdKey corr).isSome) {st : Status}
    {len : Nat} (hplain : len = 0 ∨ st ≠ .ok) (result aux data : Nat) (host : HostRead) :
    answerTo s corr st result aux len data host
      = finishWhere (answered s corr) (fun g => g.key == fwdKey corr) st result aux := by
  obtain ⟨g, hg⟩ := Option.isSome_iff_exists.1 hflight
  have hg' : (answered s corr).flights.find? (fun g => g.key == fwdKey corr) = some g := hg
  unfold answerTo
  dsimp only
  rw [hg']
  exact if_pos hplain

theorem cmdAnswer_unasked : OnMessage .cmdAnswer (fun m => 40 + byt m.body 32 35)
    (fun m => [(287, 0), (8 * (40 + byt m.body 32 35) - 1, 320)])
    (fun m s => s.place.asked.get? m.corr = none) (fun _ s => s) := by
  intro m s htraffic hreach hok hnone
  change execCmdAnswer m s = _
  rw [execCmdAnswer, runMgmt_passed htraffic hreach hok, hnone]

theorem cmdAnswer_ends : OnMessage .cmdAnswer (fun m => 40 + byt m.body 32 35)
    (fun m => [(287, 0), (8 * (40 + byt m.body 32 35) - 1, 320)])
    (fun m s => byt m.body 32 35 = 0 ∧ (∃ x, s.place.asked.get? m.corr = some x ∧ ∃ k, x.what = .forward k)
      ∧ (s.flights.find? fun g => g.key == fwdKey m.corr).isSome)
    (fun m s => finishWhere (answered s m.corr) (fun g => g.key == fwdKey m.corr) (replyStatus (byt m.body 6 7))
      (byt m.body 16 31) (byt m.body 8 15)) := by
  intro m s htraffic hreach hok ⟨hempty, ⟨x, hx, k, hwhat⟩, hflight⟩
  change execCmdAnswer m s = _
  rw [execCmdAnswer, runMgmt_passed htraffic hreach hok, hx]
  simp only [hwhat]
  exact congrArg Host.Outcome.next (answerTo_plain hflight (Or.inl hempty) ..)

/-! ### Silence (R348, R352, R456) -/

section
variable {s : State} {corr : Nat} {x : Request} (hx : s.place.asked.get? corr = some x)
include hx

theorem forwardLate_early {k : Nat} (hwhat : x.what = .forward k) (hearly : s.ns < x.sent + 100000000) :
    forwardLate s corr = s := by
  simp [forwardLate, hx, hwhat, hearly]

theorem forwardLate_ends {k : Nat} (hwhat : x.what = .forward k) (hdue : x.sent + 100000000 ≤ s.ns)
    (hflight : (s.flights.find? fun g => g.key == fwdKey corr).isSome) :
    forwardLate s corr = finishWhere (answered s corr) (fun g => g.key == fwdKey corr) .timeout 0 0 := by
  have hlate : forwardLate s corr = answerTo s corr .timeout 0 0 0 0 (.data 0) := by
    simp [forwardLate, hx, hwhat, hdue.not_gt]
  rw [hlate, answerTo_plain hflight (Or.inl rfl)]

theorem silent_early (hearly : s.ns < x.sent + replyTime x.what) : silent s corr = s := by
  simp [silent, hx, hearly]

theorem silent_update {id k : Nat} (hwhat : x.what = .update id k) (hdue : x.sent + 10000000 ≤ s.ns) :
    silent s corr = answered s corr := by
  simp [silent, hx, hwhat, replyTime, hdue.not_gt]

/-- R352: the silence of a candidate counts as a refusal. -/
theorem silent_stripe {id k : Nat} (hwhat : x.what = .stripe id k) (hdue : x.sent + 1000000 ≤ s.ns) :
    silent s corr = candidateSays (answered s corr) id k false .timeout := by
  simp [silent, hx, hwhat, replyTime, hdue.not_gt]

end

/-! ### The obligation -/

/-- Settles O42, row by row. It rests on assumptions 5 (a row whose condition is not met changes nothing but the time), 25 (how
internal queues are paired), 36 (a rollback waits only where its sequence runs) and 119 (a renewal ignores EPOCH). -/
theorem messagesKeepTheirPromises : Obligations.MessagesKeepTheirPromises :=
  ⟨fun _ _ _ htraffic hreach hok hq hhome hlive hnode hfunc htime =>
      leaseRenew_renews htraffic hreach hok hq hhome hlive hnode hfunc htime,
    onMessage_of_row execLeaseRenew (fun _ _ => rfl) (fun _ _ => rfl) fun _ _ ⟨_, hq, hlate⟩ => leaseRenewOp_late hq hlate,
    fun _ _ _ htraffic hreach hok hkind hfree => pairReq_pairs htraffic hreach hok hkind hfree,
    onMessage_of_row execPairReq (fun _ _ => rfl) (fun _ _ => rfl) fun _ _ hkind => if_pos hkind,
    pairReply_refused,
    fun _ _ _ _ _ htraffic hreach hok hx hwhat hgood hq hlater => pairReply_pairs htraffic hreach hok hx hwhat hgood hq hlater,
    fun _ _ _ htraffic hreach hok hq hnone => heldReport_counts htraffic hreach hok hq hnone,
    fun _ _ htraffic hreach hone hok => replDegraded_one htraffic hreach hone hok,
    recordRepl_free,
    fun _ _ htraffic hreach hok hlive => recordRepl_holds htraffic hreach hok hlive,
    onMessage_of_row execMapUpdate (fun _ _ => rfl) (fun _ _ => rfl) fun _ _ hq => mapUpdateOp_unknown hq,
    fun _ _ _ htraffic hreach hok hq hrun => mapUpdate_waits htraffic hreach hok hq hrun,
    onMessage_of_row execSeqLost (fun _ _ => rfl) (fun _ _ => rfl) fun _ _ _ => rfl,
    seqRelease_unknown, seqRelease_frees, ackRelease_ends, ackRelease_updated, cmdForward_unknown, cmdForward_queries,
    cmdAnswer_unasked, cmdAnswer_ends,
    fun _ _ _ _ hx ⟨_, hwhat⟩ hearly => congrArg Host.Outcome.next (forwardLate_early hx hwhat hearly),
    fun _ _ _ _ hx ⟨_, hwhat⟩ hdue hflight => congrArg Host.Outcome.next (forwardLate_ends hx hwhat hdue hflight),
    fun _ _ _ _ hx hearly => congrArg Host.Outcome.next (silent_early hx hearly),
    fun _ _ _ _ _ _ hx hwhat hdue => congrArg Host.Outcome.next (silent_update hx hwhat hdue),
    fun _ _ _ _ _ _ hx hwhat hdue => congrArg Host.Outcome.next (silent_stripe hx hwhat hdue)⟩

end Sys2Proof.Machine
end

section
/-! What no step does: a command changes the queue of commands, or a fuse that was blown is whole again (R415, R419, R436,
R437). -/

namespace Sys2Proof.Machine

/-! ### Commands that write the window's bytes leave the queue and the fuses alone -/

/-- The queue of commands and the fuses. -/
def queueFuses (s : State) : List Instr × Fuses := (s.pending, s.sec.fuses)

theorem queueFuses_of_keep {s t : State} (h : keep t = keep s) : queueFuses t = queueFuses s :=
  congrArg (fun k => (k.1, k.2.2)) h

theorem queueFuses_bulkPut (s : State) (off data len : Nat) : queueFuses (bulkPut s off data len) = queueFuses s := by
  rw [bulkPut_only]; rfl

theorem queueFuses_regionPut (s : State) (r : RegionSt) (off len data : Nat) :
    queueFuses (regionPut s r off len data) = queueFuses s := by
  unfold regionPut
  split
  · exact queueFuses_of_keep (by simp)
  · exact (queueFuses_bulkPut ..).trans (queueFuses_of_keep (chargeDram_keep ..))
  · rfl

theorem queueFuses_readRespOp (s : State) (m : MsgRef) : queueFuses (readRespOp s m) = queueFuses s := by
  unfold readRespOp
  split
  · rfl
  split
  · exact queueFuses_of_keep (by simp)
  split
  · exact queueFuses_of_keep (by simp)
  · exact (queueFuses_of_keep ((closeRequest_keep ..).trans (completeWr_keep ..))).trans (queueFuses_regionPut ..)

theorem queueFuses_atomicOp (s : State) (m : MsgRef) : queueFuses (atomicOp s m) = queueFuses s := by
  unfold atomicOp
  split
  · rfl
  split
  · exact queueFuses_of_keep (refuse_keep ..)
  · refine (queueFuses_of_keep ((delivered_keep ..).trans (launchAnswer_keep ..))).trans ?_
    split
    · exact queueFuses_regionPut ..
    split
    · exact queueFuses_regionPut ..
    · rfl

theorem queueFuses_atomicRespOp (s : State) (m : MsgRef) : queueFuses (atomicRespOp s m) = queueFuses s := by
  unfold atomicRespOp
  split
  · rfl
  split
  · exact queueFuses_of_keep (by simp)
  · exact (queueFuses_of_keep ((closeRequest_keep ..).trans (completeWr_keep ..))).trans (queueFuses_regionPut ..)

theorem queueFuses_placePayload (s : State) (qk : Nat) (k : Packet) (m : RecvMsg) :
    queueFuses (placePayload s qk k m).1 = queueFuses s := by
  unfold placePayload
  split
  · split
    · exact queueFuses_regionPut ..
    · rfl
  split
  · split
    · split
      · exact queueFuses_regionPut ..
      · rfl
    · rfl
  · rfl

theorem queueFuses_openMessage {s u : State} {qk : Nat} {q : QueueSt} {k : Packet} {m : Option RecvMsg} {st : Option Status}
    (h : openMessage s qk q k = (m, st, u)) : queueFuses u = queueFuses s := by
  have hkeep := openMessage_keep s qk q k
  rw [h] at hkeep
  exact queueFuses_of_keep hkeep

theorem queueFuses_placePacket (s : State) (qk : Nat) (k : Packet) : queueFuses (placePacket s qk k) = queueFuses s := by
  unfold placePacket
  split
  · rfl
  split
  next hopen => exact (queueFuses_of_keep (count_keep ..)).trans (queueFuses_openMessage hopen)
  next hopen => exact (queueFuses_of_keep (refusePacket_keep ..)).trans (queueFuses_openMessage hopen)
  next m _ u hopen =>
    refine Eq.trans ?_ (queueFuses_openMessage hopen)
    dsimp only
    split
    · exact queueFuses_of_keep (refusePacket_keep ..)
    split
    · exact queueFuses_of_keep (count_keep ..)
    split
    · exact queueFuses_of_keep (by simp)
    · refine (queueFuses_of_keep ?_).trans (queueFuses_placePayload u qk k m)
      split
      · simp
      · split <;> simp

theorem queueFuses_packetOp (s : State) (k : Packet) : queueFuses (packetOp s k) = queueFuses s := by
  have hin : queueFuses (ingress s k).1 = queueFuses s := queueFuses_of_keep (ingress_keep ..)
  have hqueue : queueFuses (packetQueued (ingress s k).1 k) = queueFuses s :=
    (queueFuses_of_keep (packetQueued_keep ..)).trans hin
  unfold packetOp
  dsimp only
  split
  · exact hin
  refine Eq.trans ?_ hqueue
  split
  · rfl
  split
  · exact queueFuses_of_keep (sendNack_keep ..)
  split
  · split
    · exact queueFuses_of_keep (refusePacket_keep ..)
    · exact queueFuses_placePacket ..
  · exact queueFuses_of_keep (sendAck_keep ..)
  · exact queueFuses_of_keep (count_keep ..)

theorem queueFuses_bulkWriteOp (s : State) (p : Port) (off len data : Nat) :
    queueFuses (bulkWriteOp s p off len data) = queueFuses s := by
  unfold bulkWriteOp
  split
  · exact queueFuses_of_keep (by simp)
  dsimp only
  have hput : queueFuses (bulkPut (chargePcie (chargeDram s 0 true len) 0 false len) off data len) = queueFuses s :=
    (queueFuses_bulkPut ..).trans (queueFuses_of_keep (by simp))
  split
  · exact (queueFuses_of_keep (by simp)).trans hput
  · exact hput

theorem queueFuses_rowGroupOp (s : State) (ch : Nat) : queueFuses (rowGroupOp s ch) = queueFuses s := by
  cases hnext : nextRowOp s ch with
  | none => rw [rowGroupOp_of_none hnext]
  | some o =>
    have hlogged : queueFuses (rowLogged s ch o) = queueFuses s := by rw [rowLogged_only]; rfl
    rw [rowGroupOp_of_some hnext]
    split
    · exact (queueFuses_of_keep (rowFinish_keep ..)).trans hlogged
    · exact hlogged

/-! ### Fuses that are blown (R415, R419) -/

theorem BitsKept.refl {n : Nat} (x : BitVec n) : BitsKept x x := BitVec.and_self

theorem BitsKept.trans {n : Nat} {x y z : BitVec n} (hxy : BitsKept x y) (hyz : BitsKept y z) : BitsKept x z := by
  unfold BitsKept at *
  rw [← hxy, BitVec.and_assoc, hyz]

theorem FusesKept.refl (x : Fuses) : FusesKept x x :=
  ⟨.refl _, .refl _, .refl _, .refl _, .refl _, .refl _, .refl _, .refl _, .refl _, rfl, rfl, rfl⟩

theorem FusesKept.trans {x y z : Fuses} (hxy : FusesKept x y) (hyz : FusesKept y z) : FusesKept x z where
  prov := hxy.prov.trans hyz.prov
  oper := hxy.oper.trans hyz.oper
  ret := hxy.ret.trans hyz.ret
  scrap := hxy.scrap.trans hyz.scrap
  owner0 := hxy.owner0.trans hyz.owner0
  owner1 := hxy.owner1.trans hyz.owner1
  owner2 := hxy.owner2.trans hyz.owner2
  owner3 := hxy.owner3.trans hyz.owner3
  root := hxy.root.trans hyz.root
  wafer := ⟨hyz.wafer.1.trans hxy.wafer.1, hyz.wafer.2.1.trans hxy.wafer.2.1, hyz.wafer.2.2.trans hxy.wafer.2.2⟩

theorem bitsKept_or {n : Nat} (x y : BitVec n) : BitsKept x (x ||| y) := by
  unfold BitsKept
  ext i
  simp +contextual

/-- Whether or not the read-back agrees, blowing only adds bits. -/
theorem bitsKept_blow {w : Nat} (s : State) (ok : Bool) (old new : BitVec w) : BitsKept old (blow s ok old new) := by
  unfold blow
  split <;> exact bitsKept_or _ _

theorem bitsKept_mendBit (b : BitVec 3) : BitsKept b (mendBit b) := by
  revert b; unfold BitsKept; decide

theorem fusesKept_mendFuses (x : Fuses) : FusesKept x (mendFuses x) :=
  { FusesKept.refl x with
    prov := bitsKept_mendBit _, oper := bitsKept_mendBit _, ret := bitsKept_mendBit _, scrap := bitsKept_mendBit _ }

/-- A bit of the life cycle that is set stays set (R415). -/
theorem lcSet_mono {x y : BitVec 3} (h : BitsKept x y) : lcSet x = true → lcSet y = true := by
  revert x y; unfold BitsKept; decide

/-- The life cycle is the highest bit that is set, and no bit is ever cleared. -/
theorem lifeCycle_mono {s t : State} (h : FusesKept s.sec.fuses t.sec.fuses) : (lifeCycle s).code ≤ (lifeCycle t).code := by
  have hprov := lcSet_mono h.prov
  have hoper := lcSet_mono h.oper
  have hret := lcSet_mono h.ret
  have hscrap := lcSet_mono h.scrap
  unfold lifeCycle
  revert hprov hoper hret hscrap
  generalize lcSet s.sec.fuses.lcProv = p, lcSet s.sec.fuses.lcOper = o, lcSet s.sec.fuses.lcRet = r,
    lcSet s.sec.fuses.lcScrap = c, lcSet t.sec.fuses.lcProv = p', lcSet t.sec.fuses.lcOper = o',
    lcSet t.sec.fuses.lcRet = r', lcSet t.sec.fuses.lcScrap = c'
  revert p o r c p' o' r' c'
  decide

/-! ### A state that was reached with the same queue, and with no fuse made whole -/

/-- The queue is as it was, and no fuse that was blown is whole again. -/
structure Onward (s t : State) : Prop where
  queue : t.pending = s.pending
  fuses : FusesKept s.sec.fuses t.sec.fuses

theorem Onward.refl (s : State) : Onward s s := ⟨rfl, .refl _⟩

theorem Onward.trans {s t u : State} (hst : Onward s t) (htu : Onward t u) : Onward s u :=
  ⟨htu.queue.trans hst.queue, hst.fuses.trans htu.fuses⟩

theorem onward_of_queueFuses {s t : State} (h : queueFuses t = queueFuses s) : Onward s t :=
  have hfuses : t.sec.fuses = s.sec.fuses := congrArg (·.2) h
  ⟨congrArg (·.1) h, hfuses ▸ .refl _⟩

theorem onward_of_keep {s t : State} (h : keep t = keep s) : Onward s t := onward_of_queueFuses (queueFuses_of_keep h)

theorem Onward.then_keep {s t u : State} (h : Onward s t) (hu : keep u = keep t) : Onward s u := h.trans (onward_of_keep hu)

theorem onward_ite {c : Prop} [Decidable c] {s t : State} (h : Onward s t) : Onward s (if c then t else s) := by
  split
  · exact h
  · exact .refl s

theorem onward_failIf {s : State} {k : State × Ans} (h : Onward s k.1) (c : Bool) (st : Status) :
    Onward s (failIf c st s k).1 := by
  unfold failIf
  split
  · exact .refl s
  · exact h

theorem onward_withToken {s : State} {k : State → State × Ans} (hk : ∀ u, Onward u (k u).1) (d : Desc) (listed : Nat → Bool) :
    Onward s (withToken d s listed k).1 := by
  have hused : Onward s (useNonce s) := onward_of_keep (useNonce_keep s)
  unfold withToken withBuffer
  split
  · dsimp only
    split
    · exact .refl s
    split
    · exact hused
    split
    · exact hused
    · exact hused.trans (hk _)
  · exact onward_of_keep (hostFault_keep ..)

theorem onward_runHuavo {body : Desc → State → State × Ans} (hbody : ∀ d u, Onward u (body d u).1) {r : HRow} {d : Desc}
    {s t : State} (h : runHuavo r body d s = .next t) : Onward s t := by
  cases h
  have hfetched : Onward s (fetchCmd s d) := onward_of_keep (fetchCmd_keep ..)
  unfold huavo
  dsimp only
  split
  · split
    · exact hfetched.then_keep (finishAns_keep ..)
    split
    · exact hfetched.then_keep (by simp)
    · exact ((hfetched.then_keep (touchSession_keep ..)).trans (hbody _ _)).then_keep (finishAns_keep ..)
  · exact .refl s

/-! ### Commands that blow fuses (R415 to R420) -/

theorem onward_setFuses {s : State} {x : Fuses} (h : FusesKept s.sec.fuses x) : Onward s (setFuses s x) := ⟨rfl, h⟩

theorem onward_lcProvision (d : Desc) (s : State) : Onward s (lcProvision d s).1 := by
  refine onward_failIf (onward_failIf (onward_withToken (fun u => ?_) _ _) _ _) _ _
  have hfree : Onward u (useFree u) := onward_of_keep (useFree_keep u)
  have hdrawn : Onward u (draw (useFree u)).2 := hfree.then_keep (draw_keep ..)
  have hblown : FusesKept (draw (useFree u)).2.sec.fuses { (draw (useFree u)).2.sec.fuses with
      fuseRoot := blow (draw (useFree u)).2 d.env.fuseOk (draw (useFree u)).2.sec.fuses.fuseRoot (draw (useFree u)).1,
      lcProv := blow (draw (useFree u)).2 d.env.fuseOk (draw (useFree u)).2.sec.fuses.lcProv 7 } :=
    { FusesKept.refl (draw (useFree u)).2.sec.fuses with root := bitsKept_blow .., prov := bitsKept_blow .. }
  have hset := hdrawn.trans (onward_setFuses hblown)
  dsimp only
  split
  · exact hfree
  split
  · exact hset.then_keep ((emit_keep ..).trans (useFree_keep _))
  · exact hset.then_keep (fuseFault_keep _)

theorem onward_bodyLcOperate (d : Desc) (s : State) : Onward s (bodyLcOperate d s).1 := by
  refine onward_failIf ?_ _ _
  have hblown : FusesKept s.sec.fuses { s.sec.fuses with
      owner0 := blow s d.env.fuseOk s.sec.fuses.owner0 (BitVec.ofNat 384 (((sessionOf s d).map (·.requester)).getD 0)),
      lcOper := blow s d.env.fuseOk s.sec.fuses.lcOper 7 } :=
    { FusesKept.refl s.sec.fuses with owner0 := bitsKept_blow .., oper := bitsKept_blow .. }
  dsimp only
  split
  · exact onward_setFuses hblown
  · exact (onward_setFuses hblown).then_keep (fuseFault_keep _)

theorem onward_nextOwner {s t : State} {ok : Bool} {o : BitVec 384} (h : nextOwner s ok o = some t) : Onward s t := by
  unfold nextOwner at h
  split at h <;> cases h
  · exact onward_setFuses { FusesKept.refl s.sec.fuses with owner1 := bitsKept_blow .. }
  · exact onward_setFuses { FusesKept.refl s.sec.fuses with owner2 := bitsKept_blow .. }
  · exact onward_setFuses { FusesKept.refl s.sec.fuses with owner3 := bitsKept_blow .. }

theorem onward_bodyOwnerRotate (d : Desc) (s : State) : Onward s (bodyOwnerRotate d s).1 := by
  refine onward_failIf (onward_withToken (fun u => ?_) _ _) _ _
  split
  · exact .refl u
  next hnext =>
    split
    · exact onward_nextOwner hnext
    · exact (onward_nextOwner hnext).then_keep (fuseFault_keep _)

theorem onward_blowEnd (s : State) (ok scrap : Bool) : Onward s (blowEnd s ok scrap) := by
  unfold blowEnd
  refine onward_setFuses ?_
  split
  · exact { FusesKept.refl s.sec.fuses with scrap := bitsKept_blow .. }
  · exact { FusesKept.refl s.sec.fuses with ret := bitsKept_blow .. }

theorem onward_lcEnd (scrap : Bool) (d : Desc) (s : State) : Onward s (lcEnd scrap d s).1 := by
  refine onward_failIf (onward_failIf (onward_withToken (fun u => ?_) _ _) _ _) _ _
  dsimp only
  split
  · exact onward_of_keep (startErase_keep ..)
  split
  · exact onward_blowEnd ..
  · exact (onward_blowEnd ..).then_keep (fuseFault_keep _)

/-- The node once the boot's self-tests have passed: fuses mended, and the module state that follows (R391, R415). -/
def testsPassed (s : State) : State :=
  let mended : State := { s with sec := { s.sec with fuses := mendFuses s.sec.fuses } }
  { mended with sec := { mended.sec with mod := modAfterTests mended } }

theorem onward_bootTests (s : State) (failed : Nat) (f : Flash) : Onward s (bootTests s failed f) := by
  have hmended : Onward s (flashRecord (testsPassed s) f) :=
    Onward.then_keep (t := testsPassed s) ⟨rfl, fusesKept_mendFuses _⟩ (flashRecord_keep ..)
  unfold bootTests
  dsimp only
  split
  · exact onward_of_keep (enterError_keep s failed)
  split
  · exact ⟨hmended.queue, hmended.fuses⟩
  · exact hmended.then_keep (startTraining_keep _)

theorem onward_selftestComplete {s t : State} {failed : Fin 8} {f : Flash} (h : execSelftestComplete failed f s = .next t) :
    Onward s t := by
  cases h
  split
  · exact onward_bootTests ..
  split
  · exact onward_of_keep (onDemandTests_keep ..)
  · exact .refl s

/-! ### Resets and the crypto-erase (R420, R501) -/

/-- A reset of the whole node keeps the queue, which is the model's own, and the fuses. -/
theorem onward_coldReset (s : State) (porLow railHold : Bool) : Onward s (coldReset s porLow railHold) := ⟨rfl, .refl _⟩

theorem onward_warmOp (s : State) (cycles : Nat) : Onward s (warmOp s cycles) := by
  unfold warmOp
  split
  · exact .refl s
  split
  · exact onward_coldReset ..
  · exact onward_ite ⟨rfl, .refl _⟩

theorem onward_cryptoEraseDone {s t : State} {ok : Bool} (h : execCryptoEraseDone ok s = .next t) : Onward s t := by
  cases h
  split
  · exact .refl s
  next e _ =>
    have hblown := onward_blowEnd { s with bulk := [], mem := { s.mem with frames := .empty } } ok e.scrap
    have hblown : Onward s (blowEnd { s with bulk := [], mem := { s.mem with frames := .empty } } ok e.scrap) :=
      ⟨hblown.queue, hblown.fuses⟩
    dsimp only
    split
    · exact (hblown.then_keep (zeroiseKeys_keep _)).trans (onward_coldReset ..)
    · exact Onward.then_keep ⟨hblown.queue, hblown.fuses⟩ ((finishWhere_keep ..).trans (fuseFault_keep _))

/-! ### Every command, and every step -/

theorem exec_onward {c : Instr} {s t : State} (h : exec c s = .next t) : Onward s t := by
  cases hc : writesKept c with
  | false => exact onward_of_keep (exec_keep c hc h)
  | true =>
    have hclock (n : Nat) : queueFuses (clockTo s n) = queueFuses s := queueFuses_of_keep (clockTo_keep ..)
    cases c with
    | porAssert | railOutOfRange => cases h; exact onward_ite (onward_coldReset ..)
    | thermalTrip => cases h; exact onward_ite ⟨rfl, .refl _⟩
    | jtagExtest =>
      cases h
      split
      · exact .refl s
      · exact ⟨rfl, .refl _⟩
    | warmReset n => cases h; exact onward_warmOp s n
    | selftestComplete => exact onward_selftestComplete h
    | cryptoEraseDone => exact onward_cryptoEraseDone h
    | lcProvision => exact onward_runHuavo onward_lcProvision h
    | lcOperate => exact onward_runHuavo onward_bodyLcOperate h
    | ownerRotate => exact onward_runHuavo onward_bodyOwnerRotate h
    | lcReturn => exact onward_runHuavo (onward_lcEnd false) h
    | lcScrap => exact onward_runHuavo (onward_lcEnd true) h
    | coriskanoPacket k => cases h; exact onward_of_queueFuses ((queueFuses_packetOp ..).trans (hclock _))
    | readResp m => cases h; exact onward_of_queueFuses ((queueFuses_readRespOp ..).trans (hclock _))
    | atomic m => cases h; exact onward_of_queueFuses ((queueFuses_atomicOp ..).trans (hclock _))
    | atomicResp m => cases h; exact onward_of_queueFuses ((queueFuses_atomicRespOp ..).trans (hclock _))
    | bulkWindowWrite => cases h; exact onward_ite (onward_of_queueFuses (queueFuses_bulkWriteOp ..))
    | rowOpGroup => cases h; exact onward_of_queueFuses (queueFuses_rowGroupOp ..)
    | _ => nomatch hc

theorem step_fusesKept {s t : State} (h : step s = .next t) : FusesKept s.sec.fuses t.sec.fuses := by
  unfold step at h
  split at h
  · cases h
    exact (onward_of_keep (tclkCycle_keep s)).fuses
  · exact (exec_onward (s := s.rest) h).fuses

/-- Settles O51. It rests on assumption 1 (the queue is the model's own). -/
theorem commandsLeaveTheQueue : Obligations.CommandsLeaveTheQueue := fun _ _ _ h => (exec_onward h).queue

/-- Settles O52: every step keeps what is blown, and the life cycle is read from it. -/
theorem lifeCycleNeverGoesBack : Obligations.LifeCycleNeverGoesBack :=
  ⟨fun _ _ h => step_fusesKept h, fun _ _ _ hn h => hn.trans (lifeCycle_mono (step_fusesKept h))⟩

end Sys2Proof.Machine
end

section
/-! Chapter 14 of the spec, the host's registers: the rings start and stop and take descriptors (R436 to R438, R450), the other
registers of BAR0, and interrupts (R426, R427, R434, R447). -/

namespace Sys2Proof.Machine

/-! ### Accesses that the function answers -/

section
variable {s : State} {p : Port} {f : Func} (hok : mmioOk s p f = true)
include hok

theorem exec_ringEnable (v : Word) : exec (.ringEnable p f v) s = .next (ringEnableOp s p f v) := congrArg Host.Outcome.next (if_pos hok)

theorem exec_ringDisable (v : Word) : exec (.ringDisable p f v) s = .next (ringDisableOp s p f v) := congrArg Host.Outcome.next (if_pos hok)

theorem exec_cmdTailWrite (n : Nat) (v : BitVec 32) (l : List OddDesc) :
    exec (.cmdTailWrite p f n v l) s = .next (cmdTailOp (clockTo s n) p f v l) := congrArg Host.Outcome.next (if_pos hok)

theorem exec_registerWrite (off size : Nat) (v : Word) :
    exec (.registerWrite p f off size v) s = .next (registerOp s p f off size v) := congrArg Host.Outcome.next (if_pos hok)

theorem exec_timeReadLatch (size : Nat) : exec (.timeReadLatch p f size) s = .next (timeLatchOp s p f size) :=
  congrArg Host.Outcome.next (if_pos hok)

theorem exec_intCtrlWrite (v : Word) : exec (.intCtrlWrite p f v) s = .next (intCtrlOp s p f v) := congrArg Host.Outcome.next (if_pos hok)

theorem exec_msixUnmask (v : Option Nat) (mask : Bool) : exec (.msixUnmask p f v mask) s = .next (msixMaskOp s p f v mask) :=
  congrArg Host.Outcome.next (if_pos hok)

end

/-! ### RING_CTRL (R438) -/

section
variable {s : State} {p : Port} {f : Func} {v : Word}

theorem log2Ok_iff {n : Nat} : log2Ok n = true ↔ 6 ≤ n ∧ n ≤ 12 := by simp [log2Ok]

theorem ringsOn_of_idle {e : FuncSt} (h : ringsIdle e = true) : ringsOn e = false := by
  simp only [ringsIdle, Bool.and_eq_true, Bool.not_eq_true'] at h
  exact h.1

theorem ringsIdle_of_on {e : FuncSt} (h : ringsOn e = true) : ringsIdle e = false := by simp [ringsIdle, h]

theorem ringSizes_idle {e : FuncSt} (h : ringsIdle e = true) : ringSizes e v = merge e.ringCtrl v ringSizeMask := if_pos h

theorem ringSizes_locked {e : FuncSt} (h : ringsIdle e = false) : ringSizes e v = e.ringCtrl := by simp [ringSizes, h]

/-- In the calibration window only the physical function has rings (R500). -/
theorem windowShut_eq_false (hwindow : s.boot.phase = .window → f = 0) : (s.boot.phase == .window && decide (f ≠ 0)) = false := by
  by_cases h : s.boot.phase = .window
  · simp [hwindow h]
  · simp [h]

theorem ringEnableOp_starts (hoff : ringsOn (getF s p f) = false) (hwindow : s.boot.phase = .window → f = 0)
    (hevt : log2Ok (rf (ringSizes (getF s p f) v) 15 12) = true) (hrsp : log2Ok (rf (ringSizes (getF s p f) v) 11 8) = true)
    (hcmd : log2Ok (rf (ringSizes (getF s p f) v) 7 4) = true) :
    ringEnableOp s p f v = setF s p f (ringStart (getF s p f) (ringSizes (getF s p f) v)) := by
  have hopen := windowShut_eq_false (s := s) (f := f) hwindow
  simp only [ringEnableOp, hoff, hopen, hevt, hrsp, hcmd, Bool.false_eq_true, if_false, Bool.and_self, if_true]

theorem ringEnableOp_refuses (hoff : ringsOn (getF s p f) = false) (hwindow : s.boot.phase = .window → f = 0)
    (hevt : log2Ok (rf (ringSizes (getF s p f) v) 15 12) = false) :
    ringEnableOp s p f v = setF s p f { getF s p f with cfgErr := true } := by
  have hopen := windowShut_eq_false (s := s) (f := f) hwindow
  simp only [ringEnableOp, hoff, hopen, hevt, Bool.false_eq_true, if_false, Bool.false_and]

theorem ringEnableOp_running (hon : ringsOn (getF s p f) = true) : ringEnableOp s p f v = s := if_pos hon

theorem ringDisableOp_running (hon : ringsOn (getF s p f) = true) :
    ringDisableOp s p f v = setF s p f { getF s p f with ringCtrl := rset (getF s p f).ringCtrl 0 0 0 } := by
  rw [ringDisableOp, ringSizes_locked (ringsIdle_of_on hon)]

end

/-! ### CMD_TAIL (R437, R450) -/

section
variable {s : State} {p : Port} {f : Func} {v : BitVec 32} {l : List OddDesc} (hon : ringsOn (getF s p f) = true)
include hon

theorem cmdTailOp_posts (hroom : between (BitVec.ofNat 16 (rf v 15 0)) (getF s p f).cmdHead ≤ 2 ^ cmdLog2 (getF s p f)) :
    cmdTailOp s p f v l = l.foldl oddCmd (setF s p f { getF s p f with cmdTail := BitVec.ofNat 16 (rf v 15 0) }) := by
  simp only [cmdTailOp, hon, Bool.not_true, Bool.false_eq_true, if_false, if_pos hroom]

theorem cmdTailOp_refuses (hfull : 2 ^ cmdLog2 (getF s p f) < between (BitVec.ofNat 16 (rf v 15 0)) (getF s p f).cmdHead) :
    cmdTailOp s p f v l = raiseRing (setF s p f { getF s p f with cmdErr := true }) p f 0x0034 0x60 v.toNat := by
  simp only [cmdTailOp, hon, Bool.not_true, Bool.false_eq_true, if_false, if_neg hfull.not_ge]

end

/-- R450: a descriptor of no row is refused once its reserved bits are good. -/
theorem oddCmd_badOpcode {s : State} {o : OddDesc} (hphase : s.boot.phase = .ready) (hsec : s.sec.mod ≠ .error)
    (hrsv : o.desc.rsv = 0) (hfetch : fetchable s o.desc = true) :
    oddCmd s o = respond (fetchCmd s o.desc) o.desc.port o.desc.func (fetchCmd s o.desc).ns o.opcode.toNat o.desc.tag.toNat
      o.desc.domain.toNat .badOpcode 0 0 true false := by
  simp [oddCmd, hfetch, hphase, hsec, hrsv]

/-- Settles O4. It rests on assumptions 5 (a write that a register does not take changes nothing but the time) and 15
(descriptors without a row are answered as the tail is written). -/
theorem ringsAreFed : Obligations.RingsAreFed := by
  refine ⟨⟨fun p f v s hok hidle hwindow he1 he2 hr1 hr2 hc1 hc2 => ?_, fun p f v s hok hoff hwindow hevt => ?_,
    fun p f v s hok hon => ⟨?_, ?_⟩⟩, fun p f n v s hok hon hroom => ?_, fun p f n v l s hok hon hfull => ?_,
    fun p f n v o s hok hon hroom hphase hsec hrsv => ?_⟩
  · rw [exec_ringEnable hok, ringEnableOp_starts (ringsOn_of_idle hidle) hwindow (log2Ok_iff.2 ⟨he1, he2⟩)
      (log2Ok_iff.2 ⟨hr1, hr2⟩) (log2Ok_iff.2 ⟨hc1, hc2⟩), ringSizes_idle hidle]
    rfl
  · rw [exec_ringEnable hok, ringEnableOp_refuses hoff hwindow hevt]
  · rw [exec_ringEnable hok, ringEnableOp_running hon]
  · rw [exec_ringDisable hok, ringDisableOp_running hon]
  · rw [← getF_clockTo s n] at hon hroom ⊢
    rw [exec_cmdTailWrite hok, cmdTailOp_posts hon hroom]
    rfl
  · rw [← getF_clockTo s n] at hon hfull ⊢
    rw [exec_cmdTailWrite hok, cmdTailOp_refuses hon hfull]
  · rw [← getF_clockTo s n] at hon hroom ⊢
    intro u hfetch
    rw [exec_cmdTailWrite hok, cmdTailOp_posts hon hroom]
    exact congrArg Host.Outcome.next (oddCmd_badOpcode (by rw [clockTo_only]; exact hphase) (by rw [clockTo_only]; exact hsec) hrsv hfetch)

/-! ### The other registers (R426, R427, R447) -/

section
variable {s : State} {p : Port} {f : Func} {v : Word}

theorem baseWrite_idle {e : FuncSt} (h : ringsIdle e = true) (old : BitVec 64) (base : Nat) :
    baseWrite e old base base 8 v = merge 0 v (maskOf [(63, 12)]) := by simp [baseWrite, h, word64]

theorem baseWrite_locked {e : FuncSt} (h : ringsIdle e = false) (old : BitVec 64) (base off size : Nat) :
    baseWrite e old base off size v = old := by simp [baseWrite, h]

theorem registerOp_cmdBase : registerOp s p f 0x40 8 v
    = setF s p f { getF s p f with cmdBase := baseWrite (getF s p f) (getF s p f).cmdBase 0x40 0x40 8 v } := by
  simp [registerOp, accessOk]

theorem registerOp_rspBase : registerOp s p f 0x48 8 v
    = setF s p f { getF s p f with rspBase := baseWrite (getF s p f) (getF s p f).rspBase 0x48 0x48 8 v } := by
  simp [registerOp, accessOk]

theorem registerOp_evtBase : registerOp s p f 0x50 8 v
    = setF s p f { getF s p f with evtBase := baseWrite (getF s p f) (getF s p f).evtBase 0x50 0x50 8 v } := by
  simp [registerOp, accessOk]

theorem registerOp_rspHead :
    registerOp s p f 0x68 4 v = setF s p f { getF s p f with rspHead := BitVec.ofNat 16 (rf v 31 0) } := by
  simp [registerOp, accessOk, lane32]

theorem registerOp_evtHead :
    registerOp s p f 0x6C 4 v = setF s p f { getF s p f with evtHead := BitVec.ofNat 16 (rf v 31 0) } := by
  simp [registerOp, accessOk, lane32]

/-- RING_STATUS: writing 1 clears. -/
theorem registerOp_status : registerOp s p f 0x70 4 v = setF s p f { getF s p f with
    cfgErr := (getF s p f).cfgErr && !rb v 3, cmdErr := (getF s p f).cmdErr && !rb v 2,
    evtOvf := (getF s p f).evtOvf && !rb v 1 } := by
  simp [registerOp, accessOk]

theorem intCtrlOp_sets (hevt : rf v 26 16 < vectorsOf f) (hrsp : rf v 10 0 < vectorsOf f) :
    intCtrlOp s p f v = setF s p f { getF s p f with intCtrl := merge 0 v intCtrlMask } := by
  simp [intCtrlOp, hevt, hrsp]

theorem intCtrlOp_refuses (hout : vectorsOf f ≤ rf v 26 16 ∨ vectorsOf f ≤ rf v 10 0) :
    intCtrlOp s p f v = setF s p f { getF s p f with cfgErr := true } := by
  have hbad : ¬ (rf v 26 16 < vectorsOf f ∧ rf v 10 0 < vectorsOf f) := by omega
  simp [intCtrlOp, hbad]

end

/-! ### Interrupts (R434) -/

section
variable {s : State} {p : Port} {f : Func} {n : Nat}

theorem msix_sends (hall : (getF s p f).maskAll = false) (hvec : n ∉ (getF s p f).masked) : msix s p f n = emit s (.msix p f n) := by
  simp [msix, hall, hvec]

theorem msix_pends (hvec : n ∈ (getF s p f).masked) (hnew : n ∉ (getF s p f).msixPending) :
    msix s p f n = setF s p f { getF s p f with msixPending := n :: (getF s p f).msixPending } := by
  simp [msix, hvec, hnew]

theorem holdoffOp_signals (hheld : n ∈ (getF s p f).heldVecs)
    (hpast : (getF s p f).signalled.getD n 0 + holdoff (getF s p f) ≤ s.ns) (hall : (getF s p f).maskAll = false)
    (hnone : (getF s p f).masked = []) :
    holdoffOp s p f n = emit (setF s p f { getF s p f with
      heldVecs := (getF s p f).heldVecs.erase n, signalled := (getF s p f).signalled.set n s.ns }) (.msix p f n) := by
  have hsend := msix_sends (s := setF s p f { getF s p f with
    heldVecs := (getF s p f).heldVecs.erase n, signalled := (getF s p f).signalled.set n s.ns }) (p := p) (f := f) (n := n)
    (by rw [getF_setF]; exact hall) (by rw [getF_setF]; simp [hnone])
  simp [holdoffOp, hheld, hpast, hsend]

theorem msixMaskOp_unmasks (hn : n < vectorsOf f) (hall : (getF s p f).maskAll = false) (hmask : (getF s p f).masked = [n])
    (hpend : (getF s p f).msixPending = [n]) :
    msixMaskOp s p f (some n) false
      = emit (setF (setF s p f { getF s p f with masked := [] }) p f { getF s p f with masked := [], msixPending := [] })
        (.msix p f n) := by
  simp [msixMaskOp, hn, msixFlush, hall, hmask, hpend]

end

/-- Settles O5. -/
theorem registersAndInterrupts : Obligations.RegistersAndInterrupts := by
  refine ⟨⟨fun p f v s hok hidle => ⟨?_, ?_, ?_⟩, fun p f v s hok hbusy => ?_, fun p f v s hok => ⟨?_, ?_, ?_⟩,
    fun p f s hok => ?_⟩, fun p f v s hok hevt hrsp => ?_, fun p f v s hok hout => ?_,
    fun p f n t s hheld hpast hall hnone => ?_, fun p f n s hok hn hall hmask hpend => ?_, fun p f n s hmask hpend => ?_⟩
  · rw [exec_registerWrite hok, registerOp_cmdBase, baseWrite_idle hidle]
  · rw [exec_registerWrite hok, registerOp_rspBase, baseWrite_idle hidle]
  · rw [exec_registerWrite hok, registerOp_evtBase, baseWrite_idle hidle]
  · rw [exec_registerWrite hok, registerOp_cmdBase, baseWrite_locked hbusy]
  · rw [exec_registerWrite hok, registerOp_rspHead]
  · rw [exec_registerWrite hok, registerOp_evtHead]
  · rw [exec_registerWrite hok, registerOp_status]
  · rw [exec_timeReadLatch hok, timeLatchOp, if_pos (Or.inr rfl)]
  · rw [exec_intCtrlWrite hok, intCtrlOp_sets hevt hrsp]
  · rw [exec_intCtrlWrite hok, intCtrlOp_refuses hout]
  · rw [← getF_clockTo s t] at hheld hpast hall hnone ⊢
    refine ⟨_, congrArg Host.Outcome.next (holdoffOp_signals (List.contains_iff_mem.1 hheld) hpast hall hnone), ?_, ?_, ?_⟩
    · rw [emit_out, setF_out, clockTo_out]
    · rw [getF_emit, getF_setF]
    · rfl
  · refine ⟨_, (exec_msixUnmask hok _ _).trans (congrArg Host.Outcome.next (msixMaskOp_unmasks hn hall hmask hpend)), ?_, ?_, ?_, ?_⟩
    · rfl
    · rw [getF_emit, getF_setF]
    · rw [getF_emit, getF_setF]
    · rfl
  · rw [msix_pends (List.contains_iff_mem.1 hmask) (by simp [hpend]), hpend]
    exact ⟨rfl, by rw [getF_setF]⟩

end Sys2Proof.Machine
end

section
/-! Chapter 16 of the spec: resets of the whole node (R492, R495, R501, R516, R517), the boot from the clocks to the ready node
(R394 to R396, R481 to R484, R499, R500), the calibration record's commands, and the test port (R418, R476, R505, R506). -/

namespace Sys2Proof.Machine

/-! ### Resets of the whole node (R501) -/

/-- A reset leaves its own boot record beside the base of every reset, and what it has said. -/
theorem cleared_resetBase (s : State) (b : Boot) (o : List Output) : Cleared s { resetBase s with boot := b, out := o } := rfl

theorem cleared_coldReset (s : State) (porLow railHold : Bool) : Cleared s (coldReset s porLow railHold) := rfl

theorem coldReset_held {s : State} {porLow railHold : Bool} (h : (porLow || railHold) = true) :
    (coldReset s porLow railHold).boot.phase = .held := if_pos h

theorem warmOp_in_error {s : State} {n : Nat} (hn : 25 ≤ n) (herr : s.sec.mod = .error) :
    warmOp s n = coldReset s s.boot.porLow s.boot.railHold := by
  rw [warmOp, if_neg hn.not_gt, if_pos herr]

theorem warmOp_ready {s : State} {n : Nat} (hn : 25 ≤ n) (hsec : s.sec.mod ≠ .error) (hready : s.boot.phase = .ready) :
    warmOp s n = warmReset s := by
  rw [warmOp, if_neg hn.not_gt, if_neg hsec, if_pos (Or.inl hready)]

/-- Settles O1. It rests on assumptions 7 and 96 (what the resets keep and clear) and 95 (the thermal trip and EXTEST act on the
node as a reset does). -/
theorem resetsClearTheNode : Obligations.ResetsClearTheNode := by
  refine ⟨fun n s hn => ?_, fun r v us s hv hus => ?_, fun k v s hv hheld htrip => ?_, fun s hheld htrip => ?_,
    fun n s hn herr => ?_, fun n s hn hsec hready => ?_⟩
  · exact ⟨_, congrArg Host.Outcome.next (if_pos hn), cleared_coldReset .., rfl, coldReset_held rfl, rfl⟩
  · exact ⟨_, congrArg Host.Outcome.next (if_pos ⟨hv, hus⟩), cleared_coldReset .., rfl, coldReset_held (Bool.or_true _), rfl⟩
  · exact ⟨_, congrArg Host.Outcome.next (if_pos ⟨hv, hheld, htrip⟩), cleared_resetBase .., rfl, rfl, rfl⟩
  · exact ⟨_, congrArg Host.Outcome.next (if_neg (not_or.2 ⟨hheld, htrip⟩)), cleared_resetBase .., rfl, rfl⟩
  · exact ⟨_, congrArg Host.Outcome.next (warmOp_in_error hn herr), cleared_coldReset ..⟩
  · exact ⟨_, congrArg Host.Outcome.next (warmOp_ready hn hsec hready), rfl, rfl, rfl, rfl, rfl, rfl, rfl, rfl, rfl, rfl, rfl,
      rfl, quantum_pageOn_reset.2⟩

/-! ### Clocks (R481, R483, R484) -/

theorem afterPlls_only (s : State) : afterPlls s = { s with boot := (afterPlls s).boot } := by
  unfold afterPlls
  split <;> rfl

@[simp] theorem getPll_afterPlls (s : State) (k : Nat) : getPll (afterPlls s) k = getPll s k := by
  unfold afterPlls
  split <;> rfl

@[simp] theorem pllsDone_afterPlls (s : State) : pllsDone (afterPlls s) = pllsDone s := by
  simp only [pllsDone, getPll_afterPlls]

theorem afterPlls_done {s : State} (hphase : s.boot.phase = .plls) (hdone : pllsDone s = true) :
    (afterPlls s).boot.phase = .selfTest := by rw [afterPlls, if_pos ⟨hphase, hdone⟩]

theorem afterPlls_waits {s : State} (h : s.boot.phase ≠ .plls ∨ pllsDone s = false) : afterPlls s = s := by
  refine if_neg fun ⟨hphase, hdone⟩ => ?_
  rcases h with h | h
  · exact h hphase
  · rw [h] at hdone
    exact Bool.false_ne_true hdone

section
variable {p : Pll} {s : State} (hrun : clocksRun s = true) (href : hasReference s p = true)
include hrun href

theorem exec_pllLocked {n : Nat} (hn : 65536 ≤ n) (hgood : (getPll s (pllKey p)).failed = false) :
    exec (.pllLocked p n) s = .next (afterPlls (setPll s (pllKey p) { getPll s (pllKey p) with locked := true })) :=
  congrArg Host.Outcome.next (if_pos ⟨hrun, href, hn, by rw [hgood]; rfl⟩)

/-- R484: the attempt is counted; the third gives the PLL up. -/
theorem exec_pllLockTimeout (hopen : (getPll s (pllKey p)).locked = false) (hgood : (getPll s (pllKey p)).failed = false) :
    exec (.pllLockTimeout p) s =
      .next (if 3 ≤ (getPll s (pllKey p)).attempts + 1 then
          pllGivenUp (setPll s (pllKey p) { getPll s (pllKey p) with
            attempts := (getPll s (pllKey p)).attempts + 1, failed := decide (3 ≤ (getPll s (pllKey p)).attempts + 1) }) p
        else setPll s (pllKey p) { getPll s (pllKey p) with
            attempts := (getPll s (pllKey p)).attempts + 1, failed := decide (3 ≤ (getPll s (pllKey p)).attempts + 1) }) :=
  congrArg Host.Outcome.next (if_pos ⟨hrun, href, by rw [hopen]; rfl, by rw [hgood]; rfl⟩)

theorem pllLocked_locks {n : Nat} (hn : 65536 ≤ n) (hgood : (getPll s (pllKey p)).failed = false) :
    ∃ t, exec (.pllLocked p n) s = .next t ∧ (getPll t (pllKey p)).locked = true
      ∧ (s.boot.phase = .plls → pllsDone t = true → t.boot.phase = .selfTest)
      ∧ (s.boot.phase = .plls → pllsDone t = false → t.boot.phase = .plls)
      ∧ (s.boot.phase ≠ .plls → t.boot.phase = s.boot.phase) ∧ t = { s with boot := t.boot } := by
  refine ⟨_, exec_pllLocked hrun href hn hgood, ?_, fun hphase hdone => ?_, fun hphase hdone => ?_, fun hphase => ?_, ?_⟩
  · rw [getPll_afterPlls, getPll_setPll]
  · rw [pllsDone_afterPlls] at hdone
    exact afterPlls_done hphase hdone
  · rw [pllsDone_afterPlls] at hdone
    rw [afterPlls_waits (.inr hdone)]
    exact hphase
  · exact congrArg (·.boot.phase) (afterPlls_waits (s := setPll s (pllKey p) _) (.inl hphase))
  · rw [afterPlls_only]
    rfl

end

/-! ### The ready node (R499) -/

@[simp] theorem foldl_deliverAll_boot (l : List Nat) (s : State) (b : List (Port × Func)) :
    (l.foldl (fun s w => deliverAll s w b) s).boot = s.boot := by
  rw [deliverEach_only]

theorem becomeReady_boot (s : State) : (becomeReady s).boot = { s.boot with phase := .ready, deferred := [] } := by
  simp [becomeReady]

/-! ### Self-tests (R394 to R396) -/

theorem enterError_sec (s : State) (code : Nat) : (enterError s code).sec.mod = .error ∧ (enterError s code).sec.failCode = code
    ∧ (enterError s code).sec.sessions = .empty ∧ (enterError s code).sec.metaKey = none := by
  unfold enterError
  dsimp only
  rw [emit_sec]
  refine ⟨?_, ?_, finishWhere_empty _ _ _ _ _ rfl, ?_⟩
  · rw [finishWhere_sec]
  · rw [finishWhere_sec]
  · rw [finishWhere_sec]
    rfl

theorem enterError_rowOps (s : State) (code : Nat) : (enterError s code).rowOps = [] := by
  simp [enterError, stopAll, abandonDma, modNet]

theorem bootTests_passes (s : State) (f : Flash) :
    ((bootTests s 0 f).boot.phase = .window ∨ (bootTests s 0 f).boot.phase = .training)
      ∧ (bootTests s 0 f).sec.fuses = mendFuses s.sec.fuses := by
  unfold bootTests
  rw [if_neg (not_not_intro rfl)]
  dsimp only
  split
  · refine ⟨.inl rfl, ?_⟩
    rw [flashRecord_only]
  · refine ⟨.inr rfl, ?_⟩
    rw [startTraining_only, flashRecord_only]

theorem bootTests_fails {k : Nat} (hk : k ≠ 0) (s : State) (f : Flash) :
    bootTests s k f = { enterError s k with boot := { (enterError s k).boot with phase := .stopped } } := if_pos hk

theorem onDemandTests_fails {k : Nat} (hk : k ≠ 0) (s : State) :
    onDemandTests s k = enterError (finishWhere { s with sec := { s.sec with testing := false } } (fun g => g.key == .selftest)
      .badState k 0) k := if_neg hk

/-- Settles O2. -/
theorem bootAndSelfTests : Obligations.BootAndSelfTests := by
  refine ⟨⟨fun m0 m1 s hlow hhold => ?_, fun us s hhold hus hlow htest => ?_, fun n s hphase hn => ?_,
    fun n v s hrun hn hlow hhigh => ⟨?_, ?_, ?_⟩, fun p n s hrun href hn hgood => pllLocked_locks hrun href hn hgood,
    fun p s hrun href hopen hgood hfew => ?_, fun us s hphase hus => ?_, fun l ok s hphase => ?_⟩,
    fun f s hphase => ?_, fun k f s hk hphase => ?_, fun k f s hk hphase htest => ?_⟩
  · refine ⟨_, congrArg Host.Outcome.next (if_pos hlow), ?_⟩
    simp [hhold]
  · refine congrArg Host.Outcome.next ((if_pos ⟨hhold, hus⟩).trans ?_)
    simp [hlow, htest]
  · exact congrArg Host.Outcome.next (if_pos ⟨hphase, hn⟩)
  · exact congrArg Host.Outcome.next (if_pos ⟨hrun, hn, hlow, hhigh⟩)
  · exact congrArg Host.Outcome.next (if_pos ⟨hrun, hn, hlow, hhigh⟩)
  · exact congrArg Host.Outcome.next (if_pos ⟨hrun, hn, hlow, hhigh⟩)
  · have hthird : ¬ 3 ≤ (getPll s (pllKey p)).attempts + 1 := by omega
    rw [exec_pllLockTimeout hrun href hopen hgood, if_neg hthird, decide_eq_false hthird]
  · exact ⟨_, congrArg Host.Outcome.next (if_pos ⟨hphase, hus⟩), rfl, rfl, rfl, rfl, rfl⟩
  · refine ⟨_, congrArg Host.Outcome.next (if_pos hphase), ?_⟩
    rw [trainingDoneOp, becomeReady_boot]
    exact ⟨rfl, rfl⟩
  · exact ⟨_, congrArg Host.Outcome.next (if_pos hphase), bootTests_passes s f⟩
  · have hk' : k.val ≠ 0 := fun h => hk (Fin.ext h)
    obtain ⟨hmod, hcode, hsessions, hkey⟩ := enterError_sec s k.val
    refine ⟨_, congrArg Host.Outcome.next ((if_pos hphase).trans (bootTests_fails hk' s f)), rfl, hmod, hcode, hsessions, hkey, ?_⟩
    exact enterError_rowOps s k.val
  · have hk' : k.val ≠ 0 := fun h => hk (Fin.ext h)
    have hnot : ¬ s.boot.phase = .selfTest := by rw [hphase]; decide
    refine ⟨_, congrArg Host.Outcome.next ((if_neg hnot).trans ((if_pos ⟨hphase, htest⟩).trans (onDemandTests_fails hk' s))), ?_⟩
    obtain ⟨hmod, hcode, -, -⟩ := enterError_sec (finishWhere { s with sec := { s.sec with testing := false } }
      (fun g => g.key == .selftest) .badState k.val 0) k.val
    exact ⟨hmod, hcode⟩

/-! ### The calibration record and the test port (R418, R476, R505, R506, R517) -/

section
variable {d : Desc} {s : State}

theorem bodyCalLoad_closed (h : s.boot.phase ≠ .window) : bodyCalLoad d s = (s, .fail .badState) := by
  simp [bodyCalLoad, failIf, h]

theorem bodyCalLoad_skips (h : s.boot.phase = .window) (hlen : byt d.body 8 11 = 0) :
    bodyCalLoad d s = (startTraining s, .acceptDone .ok) := by
  simp [bodyCalLoad, failIf, h, hlen]

theorem bodyCalLoad_badLength (h : s.boot.phase = .window) (hzero : byt d.body 8 11 ≠ 0) (hlen : byt d.body 8 11 ≠ 512)
    (hhost : hostStatus d.env.host = none) : bodyCalLoad d s = (startTraining (rejectCal s), .acceptDone .badField) := by
  have hstate : (rejectCal s).cal.state = 2 := by
    unfold rejectCal
    dsimp only
    split <;> rfl
  unfold bodyCalLoad
  rw [failIf_neg (by rw [h]; rfl)]
  dsimp only
  rw [if_neg hzero, hhost]
  dsimp only
  rw [if_neg hlen, hstate]
  rfl

theorem bodyCalLoad_takes (h : s.boot.phase = .window) (hlen : byt d.body 8 11 = 512) (hhost : hostStatus d.env.host = none)
    (hgood : calOk s (hostData d % 2 ^ 4096) = true) : bodyCalLoad d s =
      (startTraining (calTime { s with cal := { state := 0, record := some (BitVec.ofNat 4096 (hostData d % 2 ^ 4096)),
                                                digest := digestOf (hostData d % 2 ^ 4096) 512 } } (hostData d % 2 ^ 4096)),
        .acceptDone .ok) := by
  have htake : takeCal s (hostData d % 2 ^ 4096) (digestOf (hostData d % 2 ^ 4096) 512) = calTime { s with cal :=
      { state := 0, record := some (BitVec.ofNat 4096 (hostData d % 2 ^ 4096)),
        digest := digestOf (hostData d % 2 ^ 4096) 512 } } (hostData d % 2 ^ 4096) := if_pos hgood
  unfold bodyCalLoad
  rw [failIf_neg (by rw [h]; rfl)]
  dsimp only
  rw [if_neg (by omega), hhost]
  dsimp only
  rw [if_pos hlen, htake]
  rfl

end

theorem debugIsOpen_of_sealed {s : State} (h : lifeCycle s = .operational ∨ lifeCycle s = .scrapped) : debugIsOpen s = false := by
  rcases h with h | h <;> rw [debugIsOpen, h]

/-- Settles O11, command by command. -/
theorem calibrationAndTestPorts : Obligations.CalibrationAndTestPorts :=
  ⟨⟨does_of_body (fun _ _ => rfl) fun _ _ ⟨hwindow, hlen⟩ => bodyCalLoad_skips hwindow hlen,
    does_of_body (fun _ _ => rfl) fun _ _ hshut => bodyCalLoad_closed hshut,
    does_of_body (fun _ _ => rfl) fun _ _ ⟨hwindow, hzero, hlen, hhost⟩ => bodyCalLoad_badLength hwindow hzero hlen hhost,
    does_of_body (fun _ _ => rfl) fun _ _ ⟨hwindow, hlen, hhost, hgood⟩ => bodyCalLoad_takes hwindow hlen hhost hgood,
    does_of_body (fun _ _ => rfl) fun _ _ haddr => failIf_neg (by simp [outOk, haddr]),
    does_of_body (fun _ _ => rfl) fun _ _ hidle => failIf_neg hidle,
    does_of_body (fun _ _ => rfl) fun _ s hbusy => by rw [bodySelftest, hbusy, failIf_true]⟩,
    fun _ => rfl, fun _ => rfl, fun _ h => debugIsOpen_of_sealed h⟩

end Sys2Proof.Machine
end

section
/-! Chapter 16 of the spec: functions and ports are reset, links come up, and parts of the node fail for good (R289, R421, R424,
R481, R485, R501). -/

namespace Sys2Proof.Machine

section
variable (s : State) (p : Port) (f : Func)

theorem getF_dropHeats (q : HeatSt → Bool) (r : Port) (g : Func) : getF (dropHeats s q) r g = getF s r g := by
  rw [dropHeats_only]; rfl

theorem getF_resetFunc : getF (resetFunc s p f) p f = freshFunc (getF s p f) := by
  change getF (dropHeats _ _) p f = _
  rw [getF_dropHeats]
  exact getF_setF s p f _

theorem resetFunc_flights : (resetFunc s p f).flights = s.flights.filter fun g => g.remote.isSome || g.port != p || g.func != f := by
  simp [resetFunc]

theorem resetFunc_delayed : (resetFunc s p f).delayed = s.delayed.filter fun g => g.port != p || g.func != f := by
  simp [resetFunc]

end

theorem flrOp_virtual {s : State} {p : Port} {f : Func} (hf : f ≠ 0) : flrOp s p f = resetFunc s p f := if_neg hf

theorem getPort_portResetOp (s : State) (p : Port) :
    (getPort (portResetOp s p) p).linkUp = false ∧ (getPort (portResetOp s p) p).vfEnabled = false := by
  rw [portResetOp, getPort_setPort]
  exact ⟨rfl, rfl⟩

/-- Only the records of the port's own functions go. -/
theorem getPort_portResetOp_ne {s : State} {p q : Port} (h : q ≠ p) : getPort (portResetOp s p) q = getPort s q := by
  rw [portResetOp, getPort_setPort_ne _ h]
  simp [getPort]

theorem linkUpOp_trains {s : State} {p : Port} {w g : Nat} (hlock : (s.boot.plls.getD (26 + p.val) {}).locked = true)
    (hstrap : refModeOf s p ≠ 3) : linkUpOp s p w g =
      if w = 8 ∧ g = 64 then setPort s p { getPort s p with linkUp := true, width := w, gtps := g, vfEnabled := true }
      else raiseNode (setPort s p { getPort s p with linkUp := true, width := w, gtps := g, vfEnabled := true })
        0x0001 0x0042 (34 + p.val) 0 (otherPayload 0 p.val 0) := by
  have hup : ((s.boot.plls.getD (ppllKey p) {}).locked && refModeOf s p ≠ 3) = true := by
    rw [ppllKey, hlock]
    exact decide_eq_true hstrap
  rw [linkUpOp, if_pos hup]

@[simp] theorem getPll_raiseNode (s : State) (c r o d x k : Nat) : getPll (raiseNode s c r o d x) k = getPll s k := by
  rw [getPll, raiseNode_boot]; rfl

theorem nodeFail_fails (s : State) (n : Nat) : (nodeFail s n).boot.failed = true := by
  unfold nodeFail
  dsimp only
  rw [emit_boot, raiseNode_boot]

theorem getPll_nodeFail (s : State) (n k : Nat) : getPll (nodeFail s n) k = getPll s k := by
  unfold nodeFail
  dsimp only
  rw [getPll_emit, getPll_raiseNode]
  rfl

theorem getC_quarantineCluster_ne {s : State} {c k : Nat} (h : k ≠ c) (reason : Nat) :
    getC (quarantineCluster s c reason) k = getC s k := by
  unfold quarantineCluster
  split
  · rfl
  · dsimp only
    rw [getC_raiseNode]
    exact getC_setC_ne (loseFrames (awaitRollback s c) c) h _

/-- Settles O9. It rests on assumptions 10 (a link that comes up enables the virtual functions of its port) and 112 (a
function-level reset leaves the TDISP state). -/
theorem partsOfTheNodeFailAndReset : Obligations.PartsOfTheNodeFailAndReset := by
  refine ⟨fun p f s hrun hf => ?_, fun p s hrun => ?_, fun p s hlock hstrap => ⟨?_, ?_⟩, fun s hready hlock => ?_,
    fun p s hready hlock => ?_, fun u s hu hsound => ?_, fun u s hu hsound => ?_, fun p s hrun href hopen hgood hlast hp => ?_⟩
  · refine ⟨_, congrArg Host.Outcome.next ((if_pos hrun).trans (flrOp_virtual hf)), getF_resetFunc s p f, resetFunc_flights s p f,
      resetFunc_delayed s p f, resetFunc_only s p f⟩
  · obtain ⟨hdown, hvf⟩ := getPort_portResetOp s p
    exact ⟨_, congrArg Host.Outcome.next (if_pos hrun), hdown, hvf, fun q hq => getPort_portResetOp_ne hq, portResetOp_only s p⟩
  · exact congrArg Host.Outcome.next ((linkUpOp_trains hlock hstrap).trans (if_pos ⟨rfl, rfl⟩))
  · exact congrArg Host.Outcome.next ((linkUpOp_trains hlock hstrap).trans (if_neg (by decide)))
  · refine ⟨_, congrArg Host.Outcome.next (if_pos ⟨hready, hlock⟩), ?_, nodeFail_fails _ _, ?_⟩
    · exact (congrArg PllSt.locked ((getPll_nodeFail _ _ _).trans (getPll_setPll s 0 {})))
    · exact nodeFail_only (setPll s 0 {}) 38
  · exact ⟨_, congrArg Host.Outcome.next (if_pos ⟨hready, hlock⟩), (getPort_portResetOp (setPll s (26 + p.val) {}) p).1⟩
  · have hsound' : ¬ s.boot.failed = true := by rw [hsound]; exact Bool.false_ne_true
    refine ⟨_, congrArg Host.Outcome.next ((if_neg hu.not_gt).trans (if_neg hsound')), nodeFail_fails s u, rfl, ?_⟩
    exact nodeFail_only s u
  · obtain ⟨hquar, hholder⟩ := quarantineCluster_quarantines 1 hsound
    exact ⟨_, congrArg Host.Outcome.next (if_pos hu), hquar, hholder, fun c hc => getC_quarantineCluster_ne hc 1, quarantineCluster_only s u 1⟩
  · subst hp
    refine ⟨_, (exec_pllLockTimeout hrun href hopen hgood).trans (congrArg Host.Outcome.next (if_pos (by omega))), rfl, rfl, rfl⟩

end Sys2Proof.Machine
end

section
/-! R348: a management message that does not reach this node has no effect, and one that breaks the rules of its header or its own
length is dropped and counted. -/

namespace Sys2Proof.Machine

theorem runMgmt_unreached {m : Mgmt} {s : State} (h : trafficOff (clockTo s m.now) = true
      ∨ nodeReachable (clockTo s m.now) m.src = false) (len : Nat) (named : List (Nat × Nat)) (op : State → State) :
    runMgmt m len named op s = .next (clockTo s m.now) := by
  rcases h with h | h <;> simp [runMgmt, h]

theorem runMgmt_bad {m : Mgmt} {s : State} {len : Nat} {named : List (Nat × Nat)} (htraffic : trafficOff (clockTo s m.now) = false)
    (hreach : nodeReachable (clockTo s m.now) m.src = true) (hbad : mgmtOk m len named = false) (op : State → State) :
    runMgmt m len named op s = .next (count (clockTo s m.now) 2 0 3) := by
  simp [runMgmt, htraffic, hreach, hbad]

/-- A row that runs as R348 says drops what breaks it, whatever the message would do. -/
theorem dropsBad_of_row {run : Mgmt → Instr} {len : Mgmt → Nat} {named : Mgmt → List (Nat × Nat)} {op : Mgmt → State → State}
    (row : Mgmt → State → Res) (hexec : ∀ m s, exec (run m) s = row m s)
    (hrow : ∀ m s, row m s = runMgmt m (len m) (named m) (op m) s) : DropsBad run len named := fun m s => by
  rw [hexec, hrow]
  exact ⟨fun h => runMgmt_unreached h _ _ _, fun htraffic hreach hbad => runMgmt_bad htraffic hreach hbad _⟩

theorem dropsBad_cmdAnswer : DropsBad .cmdAnswer (fun m => 40 + byt m.body 32 35)
    (fun m => [(287, 0), (8 * (40 + byt m.body 32 35) - 1, 320)]) := fun m s => by
  change (_ → execCmdAnswer m s = _) ∧ (_ → _ → _ → execCmdAnswer m s = _)
  rw [execCmdAnswer]
  exact ⟨fun h => runMgmt_unreached h _ _ _, fun htraffic hreach hbad => runMgmt_bad htraffic hreach hbad _⟩

/-- Settles O40, row by row. It rests on assumptions 5 (a message that does not reach the node changes nothing but the time) and
116 (the length of a body is exact). -/
theorem badMessagesAreDropped : Obligations.BadMessagesAreDropped :=
  ⟨dropsBad_of_row execStripeReq (fun _ _ => rfl) fun _ _ => rfl,
    dropsBad_of_row execStripeReply (fun _ _ => rfl) fun _ _ => rfl,
    dropsBad_of_row execHeartbeat (fun _ _ => rfl) fun _ _ => rfl,
    dropsBad_of_row execFailNotice (fun _ _ => rfl) fun _ _ => rfl,
    dropsBad_of_row execFailAck (fun _ _ => rfl) fun _ _ => rfl,
    dropsBad_of_row execLeaseRenew (fun _ _ => rfl) fun _ _ => rfl,
    dropsBad_of_row execPairReq (fun _ _ => rfl) fun _ _ => rfl,
    dropsBad_of_row execPairReply (fun _ _ => rfl) fun _ _ => rfl,
    dropsBad_of_row execHeldReport (fun _ _ => rfl) fun _ _ => rfl,
    dropsBad_of_row execRecordRepl (fun _ _ => rfl) execRecordRepl_eq,
    dropsBad_of_row execMapUpdate (fun _ _ => rfl) fun _ _ => rfl,
    dropsBad_of_row execSeqLost (fun _ _ => rfl) fun _ _ => rfl,
    dropsBad_of_row execSeqRelease (fun _ _ => rfl) fun _ _ => rfl,
    dropsBad_of_row execAckRelease (fun _ _ => rfl) fun _ _ => rfl,
    dropsBad_of_row execCmdForward (fun _ _ => rfl) execCmdForward_eq,
    dropsBad_cmdAnswer⟩

end Sys2Proof.Machine
end

section
/-! R317, R359, R360, R366: the replicas and the moved pages that arrive from another node. -/

namespace Sys2Proof.Machine

/-! ### Tables searched by value -/

/-- A search by value that finds nothing also finds nothing once one value gives way to another that fails the test. -/
theorem Map.find?_set_none {α : Type} {m : Map α} {p : Nat → α → Bool} {k : Nat} {v : α} (h : m.find? p = none)
    (hv : p k v = false) : (m.set k v).find? p = none := by
  rw [Map.find?, List.find?_eq_none] at h ⊢
  intro e he
  rcases mem_insertKey he with rfl | he
  · exact Bool.eq_false_iff.1 hv
  · exact h e he

theorem Map.not_of_find?_none {α : Type} {m : Map α} {p : Nat → α → Bool} (h : m.find? p = none) {k : Nat} {d : α}
    (hd : p k d = false) : p k (m.getD k d) = false := by
  rw [Map.getD]
  cases hget : m.get? k with
  | none => exact hd
  | some v => exact Bool.eq_false_iff.2 (List.find?_eq_none.1 h _ (mem_of_lookupKey hget))

/-! ### A sealed replica goes into slack (R111, R366) -/

@[simp] theorem slackCheck_frames (s : State) (ch before : Nat) : (slackCheck s ch before).mem.frames = s.mem.frames :=
  congrArg Prod.fst (slackCheck_framesAndHeats s ch before)

theorem getFr_occupy_slack (s : State) (f : Nat) (r : SlackRec) : (getFr (occupy s f r) f).slack = some r := by
  rw [occupy, getFr_slackCheck, getFr_modFr]

/-- An occupant leaves the page of its frame, so it makes no frame a replica. -/
theorem replicaFrame_occupy_none {s : State} {origin id e : Nat} (h : replicaFrame s origin id e = none) (f : Nat) (r : SlackRec) :
    replicaFrame (occupy s f r) origin id e = none := by
  rw [replicaFrame, Option.map_eq_none_iff] at h ⊢
  rw [occupy, slackCheck_frames]
  have hfree := Map.not_of_find?_none h (k := f) (d := {}) rfl
  exact Map.find?_set_none h hfree

theorem placeSlack_hosted {s : State} {sl f : Nat} {r : SlackRec} (h : slackHost s sl r = some f) :
    placeSlack s sl r = occupy s f r := by
  rw [placeSlack, h]

/-- The occupant a sealed page of another node becomes. -/
def replicaRec (s : State) (origin id dom e data : Nat) : SlackRec where
  kind := 1
  quarters := fld e 154 153 + 1
  domain := dom
  origin := origin
  age := s.ns / 1000000 % 2 ^ 32
  seq := id
  data := arrivedSealed data 1 (getD s dom).key (fld e 152 89)

/-- Where every occupant is a prefetched page no replica gives way, and the page takes the slack that is found for it. -/
theorem takeSealed_hosted {s : State} {origin id sl dom e data f : Nat}
    (hprefetched : (occupants s sl).all (fun o => o.2.kind == 2) = true)
    (hhost : slackHost s sl (replicaRec s origin id dom e data) = some f) (hopen : replicaFrame s origin id e = none) :
    takeSealed s origin id sl dom e data = occupy s f (replicaRec s origin id dom e data) := by
  have hold : ((occupants s sl).find? fun o =>
      o.2.kind == 1 && o.2.origin == origin && o.2.seq == id && samePage o.2.data.hdr e) = none := by
    refine List.find?_eq_none.2 fun o ho => ?_
    have hkind : o.2.kind = 2 := beq_iff_eq.1 (List.all_eq_true.1 hprefetched o ho)
    simp [hkind]
  unfold takeSealed
  simp only [hold]
  rw [← replicaRec, placeSlack_hosted hhost, replicaFrame_occupy_none hopen]

/-- Open positions are put into the page of the REPLICA frame that holds it. -/
theorem takeOpen_held {s : State} {origin id e f : Nat} (h : replicaFrame s origin id e = some f) (sl dom data : Nat)
    (m : BitVec 512) :
    takeOpen s origin id sl dom e data m = modFr s f fun v => { v with
      version := v.version + 1
      data := withPositions (shapeOf m) v.data (fld e 173 166) (fld e 165 157) data (v.version + 1) (getD s dom).key } := by
  simp only [takeOpen, h]

/-! ### PAGE_REPLICATE and PAGE_MOVE by their cases -/

section
variable {s : State} {m : MsgRef} {q : QueueSt} {x : RecvMsg} {sl : Nat}

theorem replicateOp_undelivered (h : deliverable s m 13 = none) : replicateOp s m = s := by
  rw [replicateOp, h]

theorem replicateOp_unbound (h : deliverable s m 13 = some (q, x)) (hsl : sliceOf s q.domain = none) :
    replicateOp s m = refuse s m.queue q .badState := by
  simp only [replicateOp, h, hsl]

theorem replicateOp_sealed (h : deliverable s m 13 = some (q, x)) (hsl : sliceOf s q.domain = some sl)
    (hkind : fld (pageExtOf x) 156 155 = 0) : replicateOp s m
      = delivered (takeSealed s (qPeerNode q) (fld (pageExtOf x) 255 208) sl q.domain (pageExtOf x) x.data) m.queue := by
  simp only [replicateOp, h, hsl, if_pos hkind]

theorem replicateOp_open {md : ModelSt} (h : deliverable s m 13 = some (q, x)) (hsl : sliceOf s q.domain = some sl)
    (hkind : fld (pageExtOf x) 156 155 = 1) (hmodel : modelHere s (fld (pageExtOf x) 255 208) = some md) : replicateOp s m
      = delivered (takeOpen s (qPeerNode q) (fld (pageExtOf x) 255 208) sl q.domain (pageExtOf x) x.data md.record) m.queue := by
  simp [replicateOp, h, hsl, hkind, hmodel]

theorem replicateOp_badKind (h : deliverable s m 13 = some (q, x)) (hsl : sliceOf s q.domain = some sl)
    (hkind : 1 < fld (pageExtOf x) 156 155) : replicateOp s m = refuse s m.queue q .badField := by
  simp only [replicateOp, h, hsl, if_neg (Nat.ne_zero_of_lt hkind), if_neg hkind.ne']

theorem moveOp_undelivered (h : deliverable s m 12 = none) : moveOp s m = s := by
  rw [moveOp, h]

theorem moveOp_unbound (h : deliverable s m 12 = some (q, x)) (hsl : sliceOf s q.domain = none) :
    moveOp s m = refuse s m.queue q .badState := by
  simp only [moveOp, h, hsl]

/-- A sealed page as it is written into the frame it moves to. -/
def movedFrame (s : State) (q : QueueSt) (x : RecvMsg) (v : FrameSt) : FrameSt :=
  let d := arrivedSealed x.data (v.version + 1) (getD s q.domain).key (fld (pageExtOf x) 152 89)
  { v with version := v.version + 1, data := d, mig := some (.incoming (qPeerNode q) true), qmap := sealedQmap d }

theorem moveOp_sealed {f : Nat} {md : ModelSt} (h : deliverable s m 12 = some (q, x)) (hsl : sliceOf s q.domain = some sl)
    (hmodel : modelHere s (fld (pageExtOf x) 255 208) = some md) (hkind : fld (pageExtOf x) 156 155 = 2)
    (hframe : incomingFrame s (fld (pageExtOf x) 255 208) (pageExtOf x) = some f) :
    moveOp s m = moveProgress (delivered (modFr s f (movedFrame s q x)) m.queue) (fld (pageExtOf x) 255 208) := by
  simp only [moveOp, h, hsl, hmodel, hkind, hframe, if_neg (fun h : 2 ≠ 2 ∧ 2 ≠ 3 => h.1 rfl), if_true, beq_self_eq_true]
  rfl

end

/-- Settles O38. It rests on assumptions 5, 39 (the model under which a descriptor's pages are read) and 91 (which frame hosts a
replica); no clause states the refusal of assumption 37. -/
theorem replicasAndMovesArrive : Obligations.ReplicasAndMovesArrive := by
  refine ⟨fun m s h => ?_, fun m q x s h hsl => ?_, fun m q x sl f s h hsl hkind hprefetched hhost hopen => ⟨?_, ?_⟩,
    fun m q x sl f md s h hsl hkind hmodel hframe => ?_, fun m q x sl s h hsl hkind => ?_, fun m s h => ?_,
    fun m q x s h hsl => ?_, fun m q x sl f md s h hsl hmodel hkind hframe => ?_⟩
  · exact congrArg Host.Outcome.next (replicateOp_undelivered h)
  · exact congrArg Host.Outcome.next (replicateOp_unbound h hsl)
  · exact congrArg Host.Outcome.next ((replicateOp_sealed h hsl hkind).trans
      (congrArg (delivered · m.queue) (takeSealed_hosted hprefetched hhost hopen)))
  · exact getFr_occupy_slack ..
  · refine ⟨_, congrArg Host.Outcome.next ((replicateOp_open h hsl hkind hmodel).trans
      (congrArg (delivered · m.queue) (takeOpen_held hframe ..))), ?_, ?_, fun g hg => getFr_modFr_ne _ hg _, rfl⟩
    · rw [getFr_modFr]
    · rw [getFr_modFr]
  · exact congrArg Host.Outcome.next (replicateOp_badKind h hsl hkind)
  · exact congrArg Host.Outcome.next (moveOp_undelivered h)
  · exact congrArg Host.Outcome.next (moveOp_unbound h hsl)
  · refine ⟨_, congrArg Host.Outcome.next (moveOp_sealed h hsl hmodel hkind hframe), ?_, ?_, rfl⟩
    · rw [getFr_modFr]
      rfl
    · rw [getFr_modFr]
      rfl

end Sys2Proof.Machine
end

section
/-! R41, R42, R358, R359, R369, R372, R377 to R379: moves between nodes, promotion, re-seeding, leases, handoffs and flush
points. -/

namespace Sys2Proof.Machine

/-! ### Sequences that stay listed -/

theorem modQ_listed {s : State} {id : Nat} (h : (getQ s id).isSome) (f : SeqSt → SeqSt) : (getQ (modQ s id f) id).isSome := by
  rw [getQ_modQ, Option.isSome_map]
  exact h

/-- What leaves the sequences as they are leaves one listed. -/
theorem listed_of_seqs {s t : State} (h : t.seqs = s.seqs) {id : Nat} (hid : (getQ s id).isSome) : (getQ t id).isSome := by
  rw [getQ, h]
  exact hid

theorem removeFromHeat_seqs (s : State) (id : Nat) (st : Status) : (removeFromHeat s id st).seqs = s.seqs := by
  unfold removeFromHeat
  split
  · rfl
  · split <;> rfl

theorem endSeqWork_listed {s : State} {id : Nat} (h : (getQ s id).isSome) (st : Status) :
    (getQ (endSeqWork s id st) id).isSome :=
  modQ_listed (listed_of_seqs (finishWhere_seqs ..) h) _

theorem releaseBlock_listed {s : State} {id : Nat} (h : (getQ s id).isSome) : (getQ (releaseBlock s id) id).isSome := by
  unfold releaseBlock
  split
  · exact h
  · rw [getQ_setQ]
    rfl

theorem clearLeaves_listed {s : State} {id : Nat} (h : (getQ s id).isSome) (p : Nat → Leaf → Bool) :
    (getQ (clearLeaves s id p) id).isSome := by
  obtain ⟨q, hq⟩ := Option.isSome_iff_exists.1 h
  refine listed_of_seqs (of_work (clearLeaves_work hq p)).1 ?_
  rw [getQ_setQ]
  rfl

theorem freeOpenRows_listed {s : State} {id : Nat} (h : (getQ s id).isSome) (resume : Nat) :
    (getQ (freeOpenRows s id resume) id).isSome := by
  unfold freeOpenRows
  split
  · exact h
  · exact modQ_listed (clearLeaves_listed (releaseBlock_listed h) _) _

/-- What each step of a fold leaves alone, the fold leaves alone. -/
theorem foldl_same {α β : Type} {p : State → β} {f : State → α → State} (h : ∀ s a, p (f s a) = p s) (l : List α) (s : State) :
    p (l.foldl f s) = p s := by
  induction l generalizing s with
  | nil => rfl
  | cons a l ih => rw [List.foldl_cons, ih, h]

/-- R372: an ABANDONED sequence keeps its descriptor. -/
theorem abandonSeq_listed {s : State} {id : Nat} (h : (getQ s id).isSome) : (getQ (abandonSeq s id) id).isSome := by
  unfold abandonSeq
  split
  · exact h
  · have hended := endSeqWork_listed (listed_of_seqs (removeFromHeat_seqs s id .badState) h) .badState
    refine listed_of_seqs (foldl_same (p := State.seqs) (fun s n => ?_) _ _) (modQ_listed (freeOpenRows_listed hended _) _)
    exact (sendMgmt_seqs ..).trans (rfl : (ask s (.release id n)).2.seqs = s.seqs)

/-! ### Leases and handoffs (R42, R369, R372) -/

section
variable {s : State} {id : Nat} {q : SeqSt} (hq : getQ s id = some q)
include hq

theorem leaseOp_runs (h : homeOf s id ≠ s.nodeNo ∨ q.own.state = .abandoned ∨ s.ns < q.own.expiry) : leaseOp s id = s := by
  simp only [leaseOp, hq]
  exact if_pos (h.imp_right (Or.imp_right .inl))

/-- The record of a lease that has expired. -/
theorem getQ_leaseOp_expired (hhome : homeOf s id = s.nodeNo) (hlive : q.own.state ≠ .abandoned) (htime : q.own.expiry ≤ s.ns)
    (hidle : q.state = .idle) :
    (getQ (leaseOp s id) id).map (·.own) = some (bumpEpoch { clearOffer q.own with state := .abandoned }) := by
  have hlisted := abandonSeq_listed (Option.isSome_iff_exists.2 ⟨q, hq⟩)
  obtain ⟨p, hp⟩ := Option.isSome_iff_exists.1 hlisted
  have hlapsed : ¬(homeOf s id ≠ s.nodeNo ∨ q.own.state = .abandoned ∨ s.ns < q.own.expiry
      ∨ (q.state ≠ .idle ∧ q.state ≠ .running)) := by simp [hhome, hlive, htime, hidle]
  simp only [leaseOp, hq, if_neg hlapsed]
  split <;> simp only [getQ_raiseObj, getQ_recordChanged, getQ_modQ, hp, Option.map_some]

theorem handoffOp_waits (h : homeOf s id ≠ s.nodeNo ∨ q.own.state ≠ .offered ∨ s.ns < q.own.deadline) : handoffOp s id = s := by
  simp only [handoffOp, hq]
  exact if_pos h

/-- The record of an offer that has lapsed. -/
theorem getQ_handoffOp_lapsed (hhome : homeOf s id = s.nodeNo) (hoffered : q.own.state = .offered)
    (htime : q.own.deadline ≤ s.ns) :
    getQ (handoffOp s id) id = some { q with own := bumpEpoch { clearOffer q.own with state := .held } } := by
  have hlapsed : ¬(homeOf s id ≠ s.nodeNo ∨ q.own.state ≠ .offered ∨ s.ns < q.own.deadline) := by
    simp [hhome, hoffered, htime]
  simp only [handoffOp, hq, if_neg hlapsed, getQ_raiseObj, getQ_recordChanged, getQ_setQ]

end

/-! ### Migration (R358, R359) -/

section
variable {s : State} {k id g : Nat} {h : HeatSt} {q : SeqSt}

theorem migrationOp_no_heat (hh : getH s k = none) : migrationOp s k id g = s := by
  simp only [migrationOp, hh]

theorem migrationOp_taken (hh : getH s k = some h) (hq : getQ s id = some q) (hmaster : h.master = none) :
    migrationOp s k id g
      = if mayMove s h id g q then moveProgress (setQ s id { q with moving := some (g, []) }) id else s := by
  simp only [migrationOp, hh, hq, hmaster]

theorem migrationOp_sent {dst : Nat} (hh : getH s k = some h) (hq : getQ s id = some q) (hmaster : h.master = some dst)
    (hheld : bit q.groupMask g = true) (hown : ∀ e ∈ groupPages q g, (getFr s e.2.frame).state ≠ .shared) :
    migrationOp s k id g = sendMove s h id g dst q := by
  have hany : ((groupPages q g).any fun e => (getFr s e.2.frame).state == .shared) = false :=
    List.any_eq_false.2 fun e he => by simpa using hown e he
  simp [migrationOp, hh, hq, hmaster, hheld, hany]

end

/-! ### Promotion and re-seeding (R377, R379) -/

theorem promotionOp_elsewhere {s : State} {f id : Nat} (h : s.place.failed.get? f ≠ some s.nodeNo) : promotionOp s f id = s :=
  if_pos (.inl h)

/-- A sequence of which no page was held is taken over as its descriptor stands. -/
theorem promotionOp_pageless {s : State} {f id sl : Nat} {q : SeqSt} (hacting : s.place.failed.get? f = some s.nodeNo)
    (hheld : id ∈ promotable s f) (hfirst : ∀ x ∈ promotable s f, seqIndex id ≤ seqIndex x)
    (hdesc : promotedDesc s f id = some q) (hsl : sliceOf s q.domain = some sl) (hopen : openFrom s f id = [])
    (hsealed : sealedFrom s f id = []) :
    promotionOp s f id = takeOver (setQ s id { q with groupMask := q.groupMask ||| 0 }) f id 0 := by
  have hlowest : ((promotable s f).any fun x => decide (seqIndex x < seqIndex id)) = false :=
    List.any_eq_false.2 fun x hx => by simpa using hfirst x hx
  have hmine : ¬(s.place.failed.get? f ≠ some s.nodeNo ∨ (!(promotable s f).contains id) = true
      ∨ ((promotable s f).any fun x => decide (seqIndex x < seqIndex id)) = true) := by
    simp [hacting, hheld, hlowest]
  unfold promotionOp
  simp only [if_neg hmine, hdesc, hsl, hopen, hsealed]
  rfl

theorem reseedOp_other {s : State} {p : Nat} (h : placeOn s = false ∨ seedPartner s ≠ some p) : reseedOp s p = s :=
  if_pos (h.imp_left fun h => by rw [h]; rfl)

/-- A node without sequences takes the next partner and has nothing to copy to it. -/
theorem reseedOp_empty {s : State} {p : Nat} (hon : placeOn s = true) (hseed : seedPartner s = some p) (hnew : partnerOf s ≠ p)
    (hseqs : s.seqs = .empty) : reseedOp s p = modPl s fun x => { x with partner := some p, absent := [] } := by
  have hmine : ¬((!placeOn s) = true ∨ seedPartner s ≠ some p) := by simp [hon, hseed]
  have hids : (modPl s fun x => { x with partner := some p, absent := [] }).seqs = .empty := hseqs
  unfold reseedOp
  simp only [if_neg hmine, if_neg hnew.symm, hids]
  rfl

/-! ### Flush points (R41, R361) -/

section
variable {s : State}

theorem flushPointOp_none (h : placeOn s = false ∨ flushPeriod s = 0 ∨ s.ns % flushPeriod s ≠ 0 ∨ s.fenced = true
    ∨ s.sec.mod = .error) : flushPointOp s = s :=
  if_pos (h.imp_left fun h => by rw [h]; rfl)

theorem resendEvicted_none (h : s.place.degraded = []) : resendEvicted s = s := if_pos (by rw [h]; rfl)

variable (hon : placeOn s = true) (hperiod : flushPeriod s ≠ 0) (hpoint : s.ns % flushPeriod s = 0) (hfence : s.fenced = false)
  (hmod : s.sec.mod ≠ .error) (hdegraded : s.place.degraded = [])
include hon hperiod hpoint hfence hmod hdegraded

/-- With no replica to send again, a flush point is a FLUSH on each queue with writes outstanding, or the heartbeat. -/
theorem flushPointOp_at {ks : List Nat} (hks : ((s.net.queues.l.filter fun e => e.2.internal == some 2 && outstanding e.2
      && e.2.state == .ready && decide (e.1 < 65536) && qPeerNode e.2 == partnerOf s).map (·.1)) = ks) :
    flushPointOp s = if ks.isEmpty ∨ s.place.stopped then
        if partnerOf s = s.nodeNo ∨ !nodeReachable s (partnerOf s) then s
        else sendMgmt s (partnerOf s) 0x0004 0 9 (pack [(0, 64, s.ns), (64, 8, b2n s.place.stopped)])
      else ks.foldl (fun s k => launchInternal s k { op := 7, total := 0, purpose := .flush }) s := by
  have hdue : ¬((!placeOn s) = true ∨ flushPeriod s = 0 ∨ s.ns % flushPeriod s ≠ 0 ∨ s.fenced = true ∨ s.sec.mod = .error) := by
    simp [hon, hperiod, hpoint, hfence, hmod]
  subst hks
  unfold flushPointOp
  simp only [if_neg hdue, resendEvicted_none hdegraded, ite_self]

theorem flushPointOp_heartbeat (hqueues : s.net.queues = .empty) (hother : partnerOf s ≠ s.nodeNo)
    (hreach : nodeReachable s (partnerOf s) = true) :
    flushPointOp s = sendMgmt s (partnerOf s) 0x0004 0 9 (pack [(0, 64, s.ns), (64, 8, b2n s.place.stopped)]) := by
  rw [flushPointOp_at hon hperiod hpoint hfence hmod hdegraded (ks := []) (by rw [hqueues]; rfl), if_pos (.inl rfl),
    if_neg (by simp [hother, hreach])]

theorem flushPointOp_flushes {k : Nat} {q : QueueSt} (hrun : s.place.stopped = false) (hqueues : s.net.queues.l = [(k, q)])
    (hk : k < 65536) (hinternal : q.internal = some 2) (hout : outstanding q = true) (hready : q.state = .ready)
    (hpeer : qPeerNode q = partnerOf s) :
    flushPointOp s = launchInternal s k { op := 7, total := 0, purpose := .flush } := by
  rw [flushPointOp_at hon hperiod hpoint hfence hmod hdegraded (ks := [k]) (by simp [hqueues, hk, hinternal, hout, hready, hpeer]),
    if_neg (by simp [hrun])]
  rfl

end

theorem of_map_own {o : Option SeqSt} {w : OwnRec} (h : o.map (·.own) = some w) {β : Type} (f : OwnRec → β) :
    o.map (fun q => f q.own) = some (f w) := by
  obtain ⟨q, rfl, rfl⟩ := Option.map_eq_some_iff.1 h
  rfl

/-- Settles O39. It rests on assumptions 5, 38 (which node moves what) and 94 (the order of promotion). -/
theorem placementLeasesAndFlushPoints : Obligations.PlacementLeasesAndFlushPoints := by
  refine ⟨⟨?_, ?_, ?_, ?_, ?_, ?_, ?_, ?_⟩, ?_, ?_, ?_, ?_, ?_, ?_, ?_⟩
  · exact fun k id g n s hh => congrArg Host.Outcome.next (migrationOp_no_heat hh)
  · exact fun k id g n h q s hh hq hmaster hmay =>
      congrArg Host.Outcome.next ((migrationOp_taken hh hq hmaster).trans (if_neg (Bool.eq_false_iff.1 hmay)))
  · exact fun k id g n h q s hh hq hmaster hmay =>
      ⟨congrArg Host.Outcome.next ((migrationOp_taken hh hq hmaster).trans (if_pos hmay)), by rw [getQ_setQ]; rfl⟩
  · exact fun k id g n dst h q s hh hq hmaster hheld hown =>
      congrArg Host.Outcome.next (migrationOp_sent hh hq hmaster hheld hown)
  · exact fun f id n s h => congrArg Host.Outcome.next (promotionOp_elsewhere h)
  · exact fun f id n sl q s hacting hheld hfirst hdesc hsl hopen hsealed =>
      congrArg Host.Outcome.next (promotionOp_pageless hacting hheld hfirst hdesc hsl hopen hsealed)
  · exact fun p n s h => congrArg Host.Outcome.next (reseedOp_other h)
  · exact fun p n s hon hseed hnew hseqs =>
      ⟨_, congrArg Host.Outcome.next (reseedOp_empty hon hseed hnew hseqs), rfl, rfl, rfl⟩
  · exact fun id n q s hq h => congrArg Host.Outcome.next (leaseOp_runs hq h)
  · intro id n q s hq hhome hlive htime hidle
    have hown := getQ_leaseOp_expired hq hhome hlive htime hidle
    have hkeep : keep (leaseOp (clockTo s n) id) = keep s := (leaseOp_keep ..).trans (clockTo_keep ..)
    obtain ⟨hpending, hbulk, hfuses⟩ : _ ∧ _ ∧ _ := by simpa only [keep, Prod.mk.injEq] using hkeep
    exact ⟨_, rfl, of_map_own hown (·.state), of_map_own hown (·.epoch), hpending, hbulk, hfuses⟩
  · exact fun id n q s hq h => congrArg Host.Outcome.next (handoffOp_waits hq h)
  · intro id n q s hq hhome hoffered htime
    have hown := getQ_handoffOp_lapsed hq hhome hoffered htime
    refine ⟨_, rfl, ?_⟩
    rw [hown]
    exact ⟨rfl, rfl, rfl, rfl, rfl⟩
  · exact fun n s h => congrArg Host.Outcome.next (flushPointOp_none h)
  · exact fun n s hon hperiod hpoint hfence hmod hdegraded hqueues hother hreach => congrArg Host.Outcome.next
      (flushPointOp_heartbeat hon hperiod hpoint hfence hmod hdegraded hqueues hother hreach)
  · exact fun n k q s hon hperiod hpoint hfence hmod hdegraded hrun hqueues hk hinternal hout hready hpeer =>
      congrArg Host.Outcome.next
        (flushPointOp_flushes hon hperiod hpoint hfence hmod hdegraded hrun hqueues hk hinternal hout hready hpeer)

end Sys2Proof.Machine
end

section
/-! R346, R364, R367 to R371, R383, R384, R445, R447: the placement record, ownership records and their handover, and fences. -/

namespace Sys2Proof.Machine

/-! ### PLACE_CONFIG (R346, R447) -/

section
variable {d : Desc} {s : State}

theorem placeConfig_bad (h : placeBad s (BitVec.ofNat 64 (byt d.body 0 7)) = true) : placeConfig d s = (s, .fail .badField) := by
  simp only [placeConfig, h, failIf_true]

theorem placeConfig_busy (h : placeBad s (BitVec.ofNat 64 (byt d.body 0 7)) = false) (hon : placeOn s = true)
    (hlocked : differ s.place.record (BitVec.ofNat 64 (byt d.body 0 7)) placeLocked = true) :
    placeConfig d s = (s, .fail .busy) := by
  simp only [placeConfig, h, hon, hlocked, failIf_neg, Bool.and_self, failIf_true]

theorem placeConfig_off (h : placeBad s (BitVec.ofNat 64 (byt d.body 0 7)) = false) (hoff : placeOn s = false) :
    placeConfig d s = (modPl s fun p => { p with
      record := merge p.record (BitVec.ofNat 64 (byt d.body 0 7)) placeLocked
      shadow := some (merge (p.shadow.getD p.record) (BitVec.ofNat 64 (byt d.body 0 7)) placeRws) }, .done) := by
  simp only [placeConfig, h, hoff, failIf_neg, Bool.false_and]

end

/-! ### A sequence's home and the lease its owner renews (R344, R370) -/

theorem atHome_here {d : Desc} {s : State} (h : homeOf s (byt d.body 0 5) = s.nodeNo) (opcode : Nat) (async : Bool)
    (out : Nat → Nat) (body : Desc → State → State × Ans) :
    atHome opcode async out body d s = body d (renewBy d s (byt d.body 0 5)) := if_pos (.inr h)

/-- A renewal writes the expiry of the lease and nothing else of the sequence. -/
theorem getQ_of_renewBy {d : Desc} {s : State} {id : Nat} {q : SeqSt} (h : getQ (renewBy d s id) id = some q) :
    ∃ p t, getQ s id = some p ∧ q = { p with own := { p.own with expiry := t } } := by
  have hmap : getQ (renewBy d s id) id = (getQ s id).map _ := Map.get?_modify ..
  rw [hmap] at h
  obtain ⟨p, hp, rfl⟩ := Option.map_eq_some_iff.1 h
  split
  · exact ⟨p, _, hp, rfl⟩
  · exact ⟨p, p.own.expiry, hp, rfl⟩

/-- Whether or not a LOST sequence and a command of the other port are let through. -/
theorem getQ_of_seqFor_ok {d : Desc} {s : State} {id : Nat} {q : SeqSt} {lostOk anyPort : Bool}
    (hfor : seqFor d s id lostOk anyPort = .ok q) : getQ s id = some q := by
  unfold seqFor at hfor
  split at hfor
  · cases hfor
  split at hfor
  · cases hfor
  rename_i x hx
  repeat' split at hfor
  all_goals cases hfor
  exact hx

/-! ### Ownership commands (R367 to R371) -/

section
variable {d : Desc} {s : State} {q : SeqSt}

theorem replQuery_reads (hfor : seqFor d s (byt d.body 0 5) = .ok q) :
    replQuery d s = (s, .done (replWord (byt d.body 0 5) q)) := by
  rw [replQuery, withObj_ok hfor]

theorem ownQuery_reads (hfor : seqFor d s (byt d.body 0 5) false true = .ok q) (hout : byt d.body 8 15 % 64 = 0) :
    ownQuery d s = (s, .done 0 0 (byt d.body 8 15) 32 (ownWord (byt d.body 0 5) q.own)) := by
  have hok : outOk (byt d.body 8 15) = true := by simp [outOk, hout]
  simp only [ownQuery, withObj_ok hfor, hok, Bool.not_true, failIf_false]

/-- A changed record is the sequence's, one EPOCH on, whether or not the partner has still to hold it. -/
theorem getQ_ownDone (s : State) (id : Nat) (q : SeqSt) (o : OwnRec) :
    getQ (ownDone s id q o).1 id = some { q with own := bumpEpoch o } := by
  simp only [ownDone, apply_ite Prod.fst, ite_self, getQ_recordChanged, getQ_setQ]

variable (hfor : seqFor d s (byt d.body 0 5) = .ok q)
include hfor

theorem ownCommand_stale (hepoch : byt d.body 8 11 ≠ q.own.epoch) (k : Nat → SeqSt → State × Ans) :
    ownCommand d s k = (s, .fail .notOwner) := by
  simp only [ownCommand, withObj_ok hfor, bne_iff_ne.2 hepoch, failIf_true]

variable (hepoch : byt d.body 8 11 = q.own.epoch) (hfree : objBusy s (.seq (byt d.body 0 5)) = false)
include hepoch hfree

theorem ownCommand_decides (k : Nat → SeqSt → State × Ans) : ownCommand d s k = k (byt d.body 0 5) q := by
  simp only [ownCommand, withObj_ok hfor, hepoch, bne_self_eq_false, hfree, failIf_false]

/-- R369: the owner of a HELD record offers it. -/
theorem ownOffer_offers (hheld : q.own.state = .held) (hmine : byOwner d s q.own = true)
    (hto : offerBad s q (byt d.body 12 13) (byt d.body 14 14) = false) :
    ownOffer d s = ownDone s (byt d.body 0 5) q { q.own with
      state := .offered
      accepted := false
      offerNode := byt d.body 12 13
      offerFunc := byt d.body 14 14
      deadline := s.ns + rf s.place.record 45 32 * 1000000 } := by
  rw [ownOffer, ownCommand_decides hfor hepoch hfree]
  simp only [hheld, hmine, hto, bne_self_eq_false, Bool.not_true, Bool.and_false, failIf_false]

theorem ownAccept_accepts (hoffered : q.own.state = .offered) (hopen : q.own.accepted = false)
    (hmine : byOffer d s q.own = true) :
    ownAccept d s = ownDone s (byt d.body 0 5) q { q.own with accepted := true } := by
  rw [ownAccept, ownCommand_decides hfor hepoch hfree]
  simp only [hoffered, hmine, hopen, bne_self_eq_false, Bool.not_true, failIf_false]

theorem ownAccept_badState (hstate : q.own.state ≠ .offered) : ownAccept d s = (s, .fail .badState) := by
  rw [ownAccept, ownCommand_decides hfor hepoch hfree, bne_iff_ne.2 hstate, failIf_true]

/-- R369: with the offer accepted, the owner hands the record over. -/
theorem ownCommit_commits (hoffered : q.own.state = .offered) (haccepted : q.own.accepted = true)
    (hmine : byOwner d s q.own = true) (hstill : q.state ≠ .running) :
    ownCommit d s = ownDone (ownerDescriptor s (byt d.body 0 5) q.own.offerNode) (byt d.body 0 5)
      { q with ctrlPort := codePort q.own.offerFunc }
      { clearOffer q.own with
        state := .held
        ownerNode := q.own.offerNode
        ownerFunc := q.own.offerFunc
        expiry := (ownerDescriptor s (byt d.body 0 5) q.own.offerNode).ns + q.own.leaseMs * 1000000 } := by
  rw [ownCommit, ownCommand_decides hfor hepoch hfree]
  simp only [hoffered, hmine, haccepted, beq_eq_false_iff_ne.2 hstill, bne_self_eq_false, Bool.not_true, Bool.or_false, failIf_false]

theorem ownCommit_notOwner (hoffered : q.own.state = .offered) (hother : byOwner d s q.own = false) :
    ownCommit d s = (s, .fail .notOwner) := by
  rw [ownCommit, ownCommand_decides hfor hepoch hfree]
  simp only [hoffered, hother, bne_self_eq_false, Bool.not_false, failIf_false, failIf_true]

/-- R106, R369: an ABANDONED record is claimed by the function that asks. -/
theorem ownClaim_claims (hgone : q.own.state = .abandoned) :
    ownClaim d s = ownDone (ownerDescriptor s (byt d.body 0 5) (senderOf d s).1) (byt d.body 0 5)
      { q with state := if q.state = .abandoned then .idle else q.state, ctrlPort := d.port }
      { q.own with
        state := .held
        ownerNode := (senderOf d s).1
        ownerFunc := (senderOf d s).2
        expiry := (ownerDescriptor s (byt d.body 0 5) (senderOf d s).1).ns + q.own.leaseMs * 1000000 } := by
  rw [ownClaim, ownCommand_decides hfor hepoch hfree]
  simp only [hgone, bne_self_eq_false, failIf_false]

theorem ownClaim_badState (hstate : q.own.state ≠ .abandoned) : ownClaim d s = (s, .fail .badState) := by
  rw [ownClaim, ownCommand_decides hfor hepoch hfree, bne_iff_ne.2 hstate, failIf_true]

end

theorem ownerDescriptor_ns (s : State) (id node : Nat) : (ownerDescriptor s id node).ns = s.ns := by
  unfold ownerDescriptor
  split
  · rfl
  · split
    · rfl
    · split
      · rfl
      · exact (congrArg State.ns (sendMgmt_only (ask s (.stripe id node)).2 ..)).trans rfl

/-! ### FENCE (R383, R384) -/

/-- A rejected mark writes to the host: whatever the host's writes and interrupts leave alone, it leaves alone. -/
theorem rejectResult_same {β : Type} {p : State → β} (hemit : ∀ s o, p (emit s o) = p s)
    (hmsix : ∀ s port f v, p (msix s port f v) = p s) (s : State) (k : Nat) (h : HeatSt) (step : BitVec 32) (st : Status) :
    p (rejectResult s k h step st) = p s := by
  unfold rejectResult
  dsimp only
  split
  · exact (hmsix ..).trans ((hemit ..).trans (foldl_same (fun _ _ => hemit ..) _ _))
  · exact (hemit ..).trans (foldl_same (fun _ _ => hemit ..) _ _)

/-- The fence itself, the sequences and the memory of a node. -/
def fencedWork (s : State) : Bool × Map SeqSt × PageMem := (s.fenced, s.seqs, s.mem)

theorem fencePartition_fencedWork (s : State) : fencedWork (fencePartition s) = (true, s.seqs, s.mem) := by
  have hmsix : ∀ s port f v, fencedWork (msix s port f v) = fencedWork s := fun s port f v => by simp [fencedWork]
  refine (foldl_same (p := fencedWork) (fun s (e : Nat × HeatSt) => ?_) s.heats.l { s with fenced := true }).trans rfl
  dsimp only
  split
  · rfl
  · exact rejectResult_same (p := fencedWork) (fun _ _ => rfl) hmsix ..

theorem fencePartition_fences (s : State) : (fencePartition s).fenced = true ∧ (fencePartition s).net.egress = []
    ∧ (fencePartition s).seqs = s.seqs ∧ (fencePartition s).mem = s.mem := by
  obtain ⟨hfenced, hseqs, hmem⟩ : _ ∧ _ ∧ _ := by simpa only [fencedWork, Prod.mk.injEq] using fencePartition_fencedWork s
  exact ⟨hfenced, rfl, hseqs, hmem⟩

section
variable {d : Desc} {s : State}

theorem fenceBody_partition (h : byt d.body 0 0 = 3) : fenceBody d s = (fencePartition s, .done) := by
  simp [fenceBody, h]

theorem fenceBody_badField (h : 3 < byt d.body 0 0) : fenceBody d s = (s, .fail .badField) := by
  simp [fenceBody, h, failIf_true]

/-- A node that a fence names alone stops itself when the name is its own. -/
theorem fenceBody_self (hscope : byt d.body 0 0 = 0) (hone : byt d.body 1 1 = 1) (hself : fld d.body 79 64 = s.nodeNo)
    (hnode : s.nodeNo ≤ 4095) : fenceBody d s = (stopSelf s, .done) := by
  have hnames : elems 16 (d.body / 2 ^ 64) 1 = [s.nodeNo] := by rw [← hself]; rfl
  simp only [fenceBody, hscope, hone, hnames]
  simp [hnode.not_gt, fenceOne]

end

/-- Settles O43. It rests on assumptions 99 (the controlling port after a handover) and 100 (EPOCH
compares before the table of R369). -/
theorem ownershipIsHandedOver : Obligations.OwnershipIsHandedOver := by
  refine ⟨?_, ?_, ?_, ?_, ?_, ?_, ?_, ?_, ?_, ?_, ?_, ?_, ?_, ?_, ?_, ?_⟩
  · refine ends_of_body (fun _ _ => rfl) fun d s ⟨hgood, hoff⟩ => ?_
    rw [placeConfig_off hgood hoff]
    exact ⟨rfl, rfl, rfl, rfl⟩
  · refine ends_of_body (fun _ _ => rfl) fun d s ⟨hgood, hon, hlocked⟩ => ?_
    rw [placeConfig_busy hgood hon hlocked]
    exact ⟨rfl, rfl⟩
  · refine ends_of_body (fun _ _ => rfl) fun d s hbad => ?_
    rw [placeConfig_bad hbad]
    exact ⟨rfl, rfl⟩
  · refine ends_of_body (fun _ _ => rfl) fun d s ⟨hhome, q, hfor⟩ => ?_
    rw [atHome_here hhome, replQuery_reads hfor]
    exact ⟨rfl, q, getQ_of_seqFor_ok hfor, rfl⟩
  · refine ends_of_body (fun _ _ => rfl) fun d s ⟨hhome, hout, q, hfor⟩ => ?_
    rw [atHome_here hhome, ownQuery_reads hfor hout]
    exact ⟨rfl, q, getQ_of_seqFor_ok hfor, rfl⟩
  · refine ends_of_body (fun _ _ => rfl) fun d s ⟨hhome, hfree, q, hfor, hepoch, hheld, hmine, hto⟩ => ?_
    rw [atHome_here hhome, ownOffer_offers hfor hepoch hfree hheld hmine hto]
    obtain ⟨p, t, hp, rfl⟩ := getQ_of_renewBy (getQ_of_seqFor_ok hfor)
    exact ⟨p, _, hp, getQ_ownDone .., rfl, rfl, rfl, rfl, rfl, rfl, rfl, rfl⟩
  · refine ends_of_body (fun _ _ => rfl) fun d s ⟨hhome, q, hfor, hepoch⟩ => ?_
    rw [atHome_here hhome, ownOffer, ownCommand_stale hfor hepoch]
    exact ⟨rfl, rfl⟩
  · refine ends_of_body (fun _ _ => rfl) fun d s ⟨hhome, hfree, q, hfor, hepoch, hoffered, hopen, hmine⟩ => ?_
    rw [atHome_here hhome, ownAccept_accepts hfor hepoch hfree hoffered hopen hmine]
    obtain ⟨p, t, hp, rfl⟩ := getQ_of_renewBy (getQ_of_seqFor_ok hfor)
    exact ⟨p, _, hp, getQ_ownDone .., hoffered, rfl, rfl, rfl⟩
  · refine ends_of_body (fun _ _ => rfl) fun d s ⟨hhome, hfree, q, hfor, hepoch, hstate⟩ => ?_
    rw [atHome_here hhome, ownAccept_badState hfor hepoch hfree hstate]
    exact ⟨rfl, rfl⟩
  · refine ends_of_body (fun _ _ => rfl) fun d s ⟨hhome, hfree, q, hfor, hepoch, hoffered, haccepted, hmine, hstill⟩ => ?_
    rw [atHome_here hhome, ownCommit_commits hfor hepoch hfree hoffered haccepted hmine hstill, ownerDescriptor_ns]
    exact ⟨q, _, getQ_of_seqFor_ok hfor, getQ_ownDone .., rfl, rfl, rfl, rfl, rfl, rfl, rfl⟩
  · refine ends_of_body (fun _ _ => rfl) fun d s ⟨hhome, hfree, q, hfor, hepoch, hoffered, hother⟩ => ?_
    rw [atHome_here hhome, ownCommit_notOwner hfor hepoch hfree hoffered hother]
    exact ⟨rfl, rfl⟩
  · refine ends_of_body (fun _ _ => rfl) fun d s ⟨hhome, hfree, q, hfor, hepoch, hgone⟩ => ?_
    rw [atHome_here hhome, ownClaim_claims hfor hepoch hfree hgone]
    obtain ⟨p, t, hp, rfl⟩ := getQ_of_renewBy (getQ_of_seqFor_ok hfor)
    exact ⟨p, _, hp, getQ_ownDone .., rfl, rfl, rfl, rfl, rfl⟩
  · refine ends_of_body (fun _ _ => rfl) fun d s ⟨hhome, hfree, q, hfor, hepoch, hstate⟩ => ?_
    rw [atHome_here hhome, ownClaim_badState hfor hepoch hfree hstate]
    exact ⟨rfl, rfl⟩
  · refine ends_of_body (fun _ _ => rfl) fun d s hscope => ?_
    rw [fenceBody_partition hscope]
    exact ⟨rfl, fencePartition_fences s⟩
  · refine ends_of_body (fun _ _ => rfl) fun d s ⟨hscope, hone, hself, hnode⟩ => ?_
    rw [fenceBody_self hscope hone hself hnode]
    exact ⟨rfl, rfl⟩
  · refine ends_of_body (fun _ _ => rfl) fun d s hscope => ?_
    rw [fenceBody_badField hscope]
    exact ⟨rfl, rfl⟩

end Sys2Proof.Machine
end

section
/-! R398, R399, R401 to R406: SPDM connections, certificates, sessions, measurements, link keys and interfaces. -/

namespace Sys2Proof.Machine

/-! ### The lowest number that is no key -/

theorem Map.fresh_unused {α : Type} {m : Map α} {start fuel k : Nat} (h : m.fresh start fuel = some k) : m.get? k = none := by
  induction fuel generalizing start with
  | zero => cases h
  | succ fuel ih =>
    rw [Map.fresh] at h
    split at h
    · exact ih h
    · rename_i hnot
      cases h
      simpa [Map.has] using hnot

theorem Map.has_of_fresh_none {α : Type} {m : Map α} {start fuel i : Nat} (h : m.fresh start fuel = none) (hlo : start ≤ i)
    (hhi : i < start + fuel) : m.has i = true := by
  induction fuel generalizing start with
  | zero => omega
  | succ fuel ih =>
    rw [Map.fresh] at h
    split at h
    · rename_i hstart
      rcases hlo.eq_or_lt with rfl | hlt
      · exact hstart
      · exact ih h hlt (by omega)
    · cases h

/-- A table of `n` entries leaves one of `n + 1` numbers unused. -/
theorem Map.fresh_exists {α : Type} (m : Map α) : ∃ k, m.fresh 0 (m.size + 1) = some k := by
  refine Option.ne_none_iff_exists'.1 fun hnone => ?_
  have hkeys : List.range (m.size + 1) ⊆ m.l.map Prod.fst := fun i hi => by
    have hhas := Map.has_of_fresh_none hnone (Nat.zero_le i) (by simpa using hi)
    obtain ⟨v, hv⟩ := Option.isSome_iff_exists.1 hhas
    exact List.mem_map_of_mem (mem_of_lookupKey hv)
  have hlength := (List.nodup_range.subperm hkeys).length_le
  rw [List.length_range, List.length_map] at hlength
  exact absurd hlength (Nat.not_succ_le_self _)

/-! ### Connections (R401) -/

section
variable {s : State} {p q : Port} {c : SpdmConn}

@[simp] theorem getConn_setConn : getConn (setConn s p c) p = c := by
  by_cases hp : p = 0 <;> simp [getConn, setConn, hp]

theorem getConn_setConn_ne (h : q ≠ p) : getConn (setConn s p c) q = getConn s q := by
  by_cases hp : p = 0
  · have hq : q ≠ 0 := hp ▸ h
    simp [getConn, setConn, hp, hq]
  · have hq : q = 0 := not_not.1 fun hq => h ((Fin.eq_one_of_ne_zero q hq).trans (Fin.eq_one_of_ne_zero p hp).symm)
    simp [getConn, setConn, hp, hq]

theorem setConn_only : setConn s p c
    = { s with sec := { s.sec with conn0 := (setConn s p c).sec.conn0, conn1 := (setConn s p c).sec.conn1 } } := by
  unfold setConn
  split <;> rfl

@[simp] theorem setConn_sessions : (setConn s p c).sec.sessions = s.sec.sessions := by rw [setConn_only]

@[simp] theorem getConn_clockTo (n : Nat) : getConn (clockTo s n) p = getConn s p := by simp [getConn]

theorem spdmUp_of_full (h : spdmFull s = true) : spdmUp s = true := by
  simp only [spdmFull, Bool.and_eq_true] at h
  exact h.1.1.1

theorem Negotiated.clockTo (h : Negotiated s p) (n : Nat) : Negotiated (clockTo s n) p := by
  obtain ⟨hfull, hidentity, hnegotiated, hexpected⟩ := h
  rw [clockTo_only]
  exact ⟨hfull, hidentity, hnegotiated, hexpected⟩

/-! ### Requests that need a connection (R398, R401, R416) -/

theorem spdmReq_negotiated (h : Negotiated s p) (k : State) : spdmReq s p k = k := by
  simp [spdmReq, spdmUp_of_full h.full, h.identity, h.full, h.negotiated, h.expected]

theorem spdmReq_unexpected (hup : spdmUp s = true) (hid : s.boot.identityFault = false)
    (h : (getConn s p).negotiated = false ∨ (getConn s p).unexpected = true) (k : State) :
    spdmReq s p k = spdmAns s p .unexpectedRequest := by
  rcases h with h | h <;> simp [spdmReq, hup, hid, h]

theorem spdmReq_denied (hup : spdmUp s = true) (hid : s.boot.identityFault = true) (k : State) :
    spdmReq s p k = spdmAns s p .denied := by
  simp [spdmReq, hup, hid]

theorem spdmUp_clockTo (n : Nat) : spdmUp (clockTo s n) = spdmUp s := by simp [spdmUp]

theorem execNegotiateAlgorithms_answers (hfull : spdmFull s = true) (hid : s.boot.identityFault = false)
    (hexpected : (getConn s p).unexpected = false) (o : SpdmOffer) : execNegotiateAlgorithms p o s
      = .next (spdmAns (setConn s p { getConn s p with negotiated := offerOk o, unexpected := !offerOk o }) p .ok) := by
  simp [execNegotiateAlgorithms, spdmUp_of_full hfull, hid, hfull, hexpected]

end

/-- A request is served: it wrote the security block, and an answer. -/
def Served (s t : State) : Prop := ∃ x o, t = { s with sec := x, out := o }

theorem Served.refl (s : State) : Served s s := ⟨s.sec, s.out, rfl⟩

theorem Served.only {s t : State} (h : Served s t) : t = { s with sec := t.sec, out := t.out } := by
  obtain ⟨x, o, rfl⟩ := h
  rfl

theorem Served.ans {s t : State} (h : Served s t) (p : Port) (a : SpdmAns) (l : List Nat) : Served s (spdmAns t p a l) := by
  obtain ⟨x, o, rfl⟩ := h
  exact ⟨x, _, rfl⟩

theorem Served.sec {s t : State} (h : Served s t) (y : Security) : Served s { t with sec := y } := by
  obtain ⟨x, o, rfl⟩ := h
  exact ⟨y, o, rfl⟩

theorem Served.setConn {s t : State} (h : Served s t) (p : Port) (c : SpdmConn) : Served s (setConn t p c) := by
  rw [setConn_only]
  exact h.sec _

/-! ### Sessions (R402 to R404) -/

section
variable {s : State} {p : Port} {k : Nat}

theorem sessionCount_clockTo (s : State) (n : Nat) (b : Bool) : sessionCount (clockTo s n) b = sessionCount s b := by
  simp [sessionCount]

/-- A new session takes a number that no session has. -/
theorem newSession_spec (s : State) (x : Session) : ∃ k, s.sec.sessions.get? k = none
    ∧ newSession s x = (k, { s with sec := { s.sec with sessions := s.sec.sessions.set k x } }) := by
  obtain ⟨k, hk⟩ := Map.fresh_exists s.sec.sessions
  exact ⟨k, Map.fresh_unused hk, by simp only [newSession, hk, Option.getD_some]⟩

theorem sessionAt_some {x : Session} (h : s.sec.sessions.get? k = some x) (hport : x.port = p) : sessionAt s p k = some x := by
  rw [sessionAt, h, Option.filter_some, if_pos (beq_iff_eq.2 hport)]

theorem get?_modSession {x : Session} (h : s.sec.sessions.get? k = some x) (f : Session → Session) :
    (modSession s k f).sec.sessions.get? k = some (f x) :=
  (Map.get?_modify ..).trans (congrArg (Option.map f) h)

/-- The session that a KEY_EXCHANGE opens. -/
def setupSession (s : State) (p : Port) (r : Nat) : Session := { port := p, requester := r, lastMsg := s.ns }

/-- The session that a PSK_EXCHANGE opens under a PSK of a requester. -/
def pskSession (s : State) (p : Port) (r : Nat) : Session :=
  { setup := false, port := p, requester := r, finished := true, lastMsg := s.ns }

/-- A PSK that is used up. -/
def withoutPsk (s : State) (hint : Nat) : State := { s with sec := { s.sec with psks := s.sec.psks.erase hint } }

theorem withoutPsk_sessions (s : State) (hint : Nat) : (withoutPsk s hint).sec.sessions = s.sec.sessions := rfl

variable (h : Negotiated s p)
include h

theorem execKeyExchange_busy (n r : Nat) (hfull : 4 ≤ sessionCount s true) :
    execKeyExchange p n r s = .next (spdmAns (clockTo s n) p .busy) := by
  refine congrArg Host.Outcome.next ((spdmReq_negotiated (h.clockTo n) _).trans (if_pos ?_))
  rwa [sessionCount_clockTo]

theorem execKeyExchange_opens (n r : Nat) (hroom : sessionCount s true < 4) : ∃ t k, execKeyExchange p n r s = .next t
    ∧ s.sec.sessions.get? k = none ∧ t.sec.sessions = s.sec.sessions.set k (setupSession (clockTo s n) p r)
    ∧ Served (clockTo s n) t := by
  obtain ⟨k, hfree, hnew⟩ := newSession_spec (clockTo s n) (setupSession (clockTo s n) p r)
  rw [clockTo_sec] at hfree
  have hroom' : ¬4 ≤ sessionCount (clockTo s n) true := by rwa [sessionCount_clockTo, Nat.not_le]
  refine ⟨_, k, congrArg Host.Outcome.next ((spdmReq_negotiated (h.clockTo n) _).trans (if_neg hroom')), hfree, ?_, ?_⟩
  · rw [← setupSession, hnew]
    simp [spdmAns, emit, signed]
  · rw [← setupSession, hnew]
    exact ((((Served.refl _).sec _).setConn ..).setConn ..).ans ..

theorem execFinish_ends {n : Nat} {x : Session} (hx : s.sec.sessions.get? k = some x) (hport : x.port = p) (hsetup : x.setup = true)
    (hopen : x.finished = false) (a b : Bool) : execFinish p n k a b s = .next (
      if a && b && (getConn s p).supplied then
        spdmAns (setConn (modSession (clockTo s n) k fun x => { x with finished := true, lastMsg := (clockTo s n).ns }) p
          { getConn s p with supplied := false }) p .ok
      else spdmAns (dropSession (clockTo s n) k) p .decryptError) := by
  have hat : sessionAt (clockTo s n) p k = some x := sessionAt_some (by rwa [clockTo_sec]) hport
  have hwaits : ¬((!x.setup) = true ∨ x.finished = true) := by simp [hsetup, hopen]
  refine congrArg Host.Outcome.next ((spdmReq_negotiated (h.clockTo n) _).trans ?_)
  simp only [hat, getConn_clockTo]
  exact if_neg hwaits

theorem execPskExchange_none {n hint : Nat} (hx : s.sec.psks.get? hint = none) :
    execPskExchange p n hint s = .next (spdmAns (clockTo s n) p .unexpectedRequest) := by
  refine congrArg Host.Outcome.next ((spdmReq_negotiated (h.clockTo n) _).trans ?_)
  simp only [clockTo_sec, hx]

section
variable {n hint : Nat} {x : Psk} (hx : s.sec.psks.get? hint = some x)
include hx

theorem execPskExchange_busy (hfull : 16 ≤ sessionCount s false) :
    execPskExchange p n hint s = .next (spdmAns (clockTo s n) p .busy) := by
  refine congrArg Host.Outcome.next ((spdmReq_negotiated (h.clockTo n) _).trans ?_)
  simp only [clockTo_sec, hx, sessionCount_clockTo, if_pos hfull]

theorem execPskExchange_opens (hroom : sessionCount s false < 16) : ∃ t k, execPskExchange p n hint s = .next t
    ∧ t.sec.psks = s.sec.psks.erase hint ∧ s.sec.sessions.get? k = none
    ∧ t.sec.sessions = s.sec.sessions.set k (pskSession (clockTo s n) p x.requester) ∧ Served (clockTo s n) t := by
  obtain ⟨k, hfree, hnew⟩ := newSession_spec (withoutPsk (clockTo s n) hint) (pskSession (clockTo s n) p x.requester)
  have hserved : Served (clockTo s n) (withoutPsk (clockTo s n) hint) := (Served.refl _).sec _
  rw [withoutPsk_sessions, clockTo_sec] at hfree hnew
  refine ⟨spdmAns { withoutPsk (clockTo s n) hint with sec := { (withoutPsk (clockTo s n) hint).sec with
      sessions := s.sec.sessions.set k (pskSession (clockTo s n) p x.requester) } } p .ok [k], k,
    congrArg Host.Outcome.next ((spdmReq_negotiated (h.clockTo n) _).trans ?_), ?_, hfree, rfl, (hserved.sec _).ans ..⟩
  · have hx' : (clockTo s n).sec.psks.get? hint = some x := by rwa [clockTo_sec]
    simp only [hx', sessionCount_clockTo, if_neg hroom.not_ge]
    exact congrArg (fun y : Nat × State => spdmAns y.2 p .ok [y.1]) hnew
  · change (clockTo s n).sec.psks.erase hint = _
    rw [clockTo_sec]

end

end

theorem execPskExpiry_ages {s : State} {n hint : Nat} {x : Psk} (hx : (clockTo s n).sec.psks.get? hint = some x) :
    execPskExpiry hint n s
      = .next (if x.madeAt + 10000000000 ≤ (clockTo s n).ns then withoutPsk (clockTo s n) hint else clockTo s n) := by
  simp only [execPskExpiry, hx]
  rfl

/-! ### KEM_EXCHANGE (R403) -/

section
variable {s : State} {p : Port} {k : Nat} {x : Session} (hx : s.sec.sessions.get? k = some x) (hport : x.port = p)
  (hsetup : x.setup = true) (hdone : x.finished = true)
include hx hport hsetup hdone

/-- Step 1 draws the hint. -/
theorem kemOp_hints : kemOp s p k false = spdmAns (modSession (draw s).2 k fun x =>
    { x with hint := some ((draw s).1.toNat % 2 ^ 128), lastMsg := s.ns }) p .ok [(draw s).1.toNat % 2 ^ 128] := by
  have hruns : ¬((!x.setup) = true ∨ (!x.finished) = true) := by simp [hsetup, hdone]
  simp only [kemOp, sessionAt_some hx hport, if_neg hruns, Bool.not_false, if_true]
  rfl

theorem kemOp_unasked (hhint : x.hint = none) : kemOp s p k true = spdmAns s p .unexpectedRequest := by
  simp [kemOp, sessionAt_some hx hport, hsetup, hdone, hhint]

/-- Step 2 makes the PSK under the hint. -/
theorem kemOp_makes {g : Nat} (hhint : x.hint = some g) : ∃ t, kemOp s p k true = t
    ∧ t.sec.psks = s.sec.psks.set g { requester := x.requester, madeAt := s.ns, setup := k }
    ∧ t.sec.sessions.get? k = some { x with hint := none, lastMsg := s.ns } ∧ Served s t := by
  refine ⟨_, rfl, ?_⟩
  have hruns : ¬((!x.setup) = true ∨ (!x.finished) = true) := by simp [hsetup, hdone]
  simp only [kemOp, sessionAt_some hx hport, if_neg hruns, hhint, Bool.not_true, Bool.false_eq_true, if_false]
  exact ⟨rfl, get?_modSession hx _, (((Served.refl s).sec _).sec _).ans ..⟩

end

/-! ### Sessions end (R403, R404) -/

section
variable {s : State} {k : Nat}

theorem endSession_idle (h : ∀ g ∈ s.flights, g.session ≠ some k) : endSession s k = dropSession s k :=
  if_neg (by simpa using h)

theorem endSession_busy (h : ∃ g ∈ s.flights, g.session = some k) :
    endSession s k = modSession s k fun x => { x with ending := true } :=
  if_pos (by simpa using h)

theorem execSessionIdleTimeout_ends {n : Nat} {x : Session} (hx : (clockTo s n).sec.sessions.get? k = some x)
    (hop : x.setup = false) (hold : x.lastMsg + 60000000000 ≤ (clockTo s n).ns) :
    execSessionIdleTimeout k n s = .next (endSession (clockTo s n) k) := by
  simp only [execSessionIdleTimeout, hx, hop, Bool.not_false, hold, and_self, if_true]

theorem execSessionIdleTimeout_stays {n : Nat} {x : Session} (hx : (clockTo s n).sec.sessions.get? k = some x)
    (h : x.setup = true ∨ (clockTo s n).ns < x.lastMsg + 60000000000) :
    execSessionIdleTimeout k n s = .next (clockTo s n) := by
  have hstays : ¬((!x.setup) = true ∧ x.lastMsg + 60000000000 ≤ (clockTo s n).ns) := by
    rcases h with h | h <;> simp [h]
  simp only [execSessionIdleTimeout, hx, if_neg hstays]

/-- With a session go the PSKs it made. -/
theorem dropSession_psks {h : Nat} {y : Psk} (hy : (dropSession s k).sec.psks.get? h = some y) : y.setup ≠ k :=
  bne_iff_ne.1 (Map.get?_filter (p := fun _ (x : Psk) => x.setup != k) hy)

end

/-! ### Measurements (R405) -/

theorem lifeCycle_code_lt (s : State) : (lifeCycle s).code < 8 := by
  cases lifeCycle s <;> decide

theorem b2n_lt (b : Bool) : b2n b < 2 := by
  cases b <;> decide

theorem modeBytes_debug (s : State) : modeBytes s / 256 % 2 = b2n s.sec.debugOpened := by
  have hcode := lifeCycle_code_lt s
  have hdebug := b2n_lt s.sec.debugOpened
  simp only [modeBytes, pack]
  omega

theorem measAnswer_rom (s : State) : measAnswer s none 1 = [1, s.sec.fuses.romDigest.toNat] := rfl

theorem measAnswer_cal (s : State) : measAnswer s none 4 = [4, s.cal.digest.toNat] := rfl

theorem measAnswer_debug (s : State) : measAnswer s none 0xFE = [0xFE, b2n s.sec.debugOpened] :=
  congrArg (fun v => [0xFE, v]) (modeBytes_debug s)

theorem execGetMeasurements_signs {s : State} {p : Port} (h : Negotiated s p) (n i : Nat) :
    execGetMeasurements p n none i s
      = .next (spdmAns (signed (clockTo s n) p) p .ok (measAnswer (clockTo s n) none i)) :=
  congrArg Host.Outcome.next (spdmReq_negotiated (h.clockTo n) _)

/-! ### Link keys and interfaces (R406) -/

/-- A TDISP state that a session sets is the function's, and an answer. -/
theorem spdmAns_setTdisp_only (u : State) (k : Nat) (g : Session → Session) (p : Port) (f : Func) (d : Tdisp) (a : SpdmAns) :
    spdmAns (setTdisp (modSession u k g) p f d) p a = { u with
      sec := (modSession u k g).sec
      funcs := (setTdisp (modSession u k g) p f d).funcs
      out := .spdm p a [] :: u.out } := rfl

theorem domainOf_clockTo (s : State) (n : Nat) (p : Port) (f : Func) : domainOf (clockTo s n) p f = domainOf s p f := by
  rw [clockTo_only]
  rfl

theorem isOfficer_clockTo (s : State) (n : Nat) (x : Session) : isOfficer (clockTo s n) x = isOfficer s x := by
  rw [clockTo_only]
  rfl

section
variable {s : State} {p : Port} {k : Nat} {x : Session} (h : Negotiated s p) (hx : s.sec.sessions.get? k = some x)
  (hport : x.port = p) (hop : x.setup = false)
include h hx hport hop

theorem officerReq_asks (n : Nat) (f : State → State) : officerReq (clockTo s n) p k f = if isOfficer s x then
    f (modSession (clockTo s n) k fun x => { x with lastMsg := (clockTo s n).ns }) else spdmAns (clockTo s n) p .denied := by
  have hat : opSession (clockTo s n) p k = some x := by
    rw [opSession, sessionAt_some (by rwa [clockTo_sec]) hport, Option.filter_some, if_pos (by rw [hop]; rfl)]
  refine (spdmReq_negotiated (h.clockTo n) _).trans ?_
  simp only [hat, isOfficer_clockTo]

end

@[simp] theorem getF_unassign_ne {s : State} {p : Port} {f v : Func} (h : f ≠ v) :
    getF (unassign s p v) p f = getF s p f :=
  getF_setF_ne s (fun hkey => h (Fin.ext (Nat.add_left_cancel hkey))) _

/-- R424: a function that is reset keeps its domain and its TDISP state, and nothing else. -/
theorem getF_flrOp (s : State) (p : Port) (f : Func) : getF (flrOp s p f) p f = freshFunc (getF s p f) := by
  rw [← getF_resetFunc]
  by_cases hf : f = 0
  · subst hf
    have hothers : ∀ v ∈ virtualFuncs, v ≠ 0 := fun v hv => by simpa [virtualFuncs] using hv
    rw [flrOp, if_pos rfl]
    generalize resetFunc s p 0 = t
    generalize virtualFuncs = l at hothers ⊢
    induction l generalizing t with
    | nil => rfl
    | cons v l ih =>
      rw [List.foldl_cons, ih _ (fun w hw => hothers w (List.mem_cons_of_mem _ hw)),
        getF_unassign_ne (hothers v (List.mem_cons_self ..)).symm]
  · rw [flrOp_virtual hf]

section
variable {s : State} {p : Port} {f : Func} (hrun : running s = true)
include hrun

theorem execStopInterface_unlocks (ht : (getF s p f).tdisp = .configLocked) :
    execStopInterface p f false s = .next (setTdisp s p f .unlocked) := by
  simp [execStopInterface, hrun, ht]

theorem execStopInterface_leavesRun (ht : (getF s p f).tdisp = .run) :
    execStopInterface p f false s = .next (setTdisp (flrOp s p f) p f .unlocked) := by
  simp [execStopInterface, hrun, ht]

theorem execStopInterface_errs (ht : (getF s p f).tdisp = .configLocked) :
    execStopInterface p f true s = .next (setTdisp (flrOp s p f) p f .error) := by
  simp [execStopInterface, hrun, ht]

end

theorem getF_setTdisp (s : State) (p : Port) (f : Func) (t : Tdisp) :
    getF (setTdisp s p f t) p f = { getF s p f with tdisp := t } := getF_setF ..

/-- Settles O47. It rests on assumptions 5, 60 (requests with an unknown slot, session or hint, and measurement index 0xFE) and
61 (an interface without a tenant domain, and one that stays locked). -/
theorem sessionsOpenAndEnd : Obligations.SessionsOpenAndEnd := by
  refine ⟨?_, ?_, ?_, ?_, ?_, ?_, ?_, ?_, ?_, ?_, ?_, ?_, ?_, ?_, ?_, ?_, ?_⟩
  · intro p s hup
    refine ⟨_, congrArg Host.Outcome.next (if_pos hup), getConn_setConn, fun q hq => getConn_setConn_ne hq, ?_⟩
    rw [setConn_only]
    rfl
  · intro p o s hfull hid hexpected
    refine ⟨_, execNegotiateAlgorithms_answers hfull hid hexpected o, ?_, ?_, (((Served.refl s).setConn ..).ans ..).only⟩
    · exact congrArg SpdmConn.negotiated getConn_setConn
    · exact congrArg SpdmConn.unexpected getConn_setConn
  · intro p n k s hup hid h
    refine ⟨congrArg Host.Outcome.next (spdmReq_unexpected hup hid h _), congrArg Host.Outcome.next (spdmReq_unexpected hup hid h _),
      congrArg Host.Outcome.next (spdmReq_unexpected ?_ ?_ ?_ _)⟩
    · rwa [spdmUp_clockTo]
    · rwa [clockTo_boot]
    · rwa [getConn_clockTo]
  · intro p n k s hup hid
    refine ⟨congrArg Host.Outcome.next (spdmReq_denied hup hid _), congrArg Host.Outcome.next (spdmReq_denied ?_ ?_ _)⟩
    · rwa [spdmUp_clockTo]
    · rwa [clockTo_boot]
  · exact fun p s h => ⟨congrArg Host.Outcome.next (spdmReq_negotiated h _), congrArg Host.Outcome.next (spdmReq_negotiated h _)⟩
  · intro p n s h
    rw [← getConn_clockTo n]
    refine ⟨congrArg Host.Outcome.next (spdmReq_negotiated (h.clockTo n) _),
      congrArg Host.Outcome.next ((spdmReq_negotiated (h.clockTo n) _).trans ?_)⟩
    exact (apply_ite (spdmAns (clockTo s n) p) ..).symm
  · intro p n r s h
    refine ⟨execKeyExchange_busy h n r, fun hroom => ?_⟩
    obtain ⟨t, k, hexec, hfree, hsessions, hserved⟩ := execKeyExchange_opens h n r hroom
    refine ⟨t, k, hexec, hfree, ?_, fun j hj => ?_, hserved.only⟩
    · rw [hsessions]
      exact Map.get?_set ..
    · rw [hsessions, Map.get?_set_ne _ hj]
  · intro p n k a b x s h hx hport hsetup hopen
    have hx' : (clockTo s n).sec.sessions.get? k = some x := by rwa [clockTo_sec]
    have hends := execFinish_ends h (n := n) hx hport hsetup hopen a b
    refine ⟨fun ha hb hsupplied => ?_, fun hfails => ?_⟩
    · rw [if_pos (by simp [ha, hb, hsupplied])] at hends
      refine ⟨_, hends, ?_, congrArg SpdmConn.supplied getConn_setConn, ((((Served.refl _).sec _).setConn ..).ans ..).only⟩
      exact (congrArg (·.get? k) setConn_sessions).trans (get?_modSession hx' _)
    · rw [if_neg (by rcases hfails with hf | hf | hf <;> simp [hf])] at hends
      exact ⟨_, hends, Map.get?_erase .., fun g y hy => dropSession_psks hy, rfl, (((Served.refl _).sec _).ans ..).only⟩
  · intro p n k g x s h hx hport hsetup hdone
    have hx' : (clockTo s n).sec.sessions.get? k = some x := by rwa [clockTo_sec]
    refine ⟨?_, fun hhint => ?_, fun hhint => ?_⟩
    · refine ⟨_, _, congrArg Host.Outcome.next ((spdmReq_negotiated (h.clockTo n) _).trans
        (kemOp_hints hx' hport hsetup hdone)), get?_modSession (s := (draw (clockTo s n)).2) hx' _, ?_⟩
      exact ((((Served.refl _).sec _).sec _).ans ..).only
    · obtain ⟨t, hmakes, hpsks, hsession, hserved⟩ := kemOp_makes hx' hport hsetup hdone hhint
      refine ⟨t, congrArg Host.Outcome.next ((spdmReq_negotiated (h.clockTo n) _).trans hmakes), ?_, hsession, hserved.only⟩
      rw [hpsks]
      exact Map.get?_set ..
    · exact congrArg Host.Outcome.next ((spdmReq_negotiated (h.clockTo n) _).trans (kemOp_unasked hx' hport hsetup hdone hhint))
  · intro p n g x s h hx
    refine ⟨execPskExchange_busy h hx, fun hroom => ?_⟩
    obtain ⟨t, k, hexec, hpsks, hfree, hsessions, hserved⟩ := execPskExchange_opens h (n := n) hx hroom
    refine ⟨t, k, hexec, ?_, hfree, ?_, hserved.only⟩
    · rw [hpsks]
      exact Map.get?_erase ..
    · rw [hsessions]
      exact Map.get?_set ..
  · exact fun p n g s h hx => execPskExchange_none h hx
  · intro g n x s hx
    have hx' : (clockTo s n).sec.psks.get? g = some x := by rwa [clockTo_sec]
    have hages := execPskExpiry_ages hx'
    refine ⟨fun hold => ⟨_, hages.trans (congrArg Host.Outcome.next (if_pos hold)), Map.get?_erase .., ?_⟩,
      fun hyoung => hages.trans (congrArg Host.Outcome.next (if_neg hyoung.not_ge))⟩
    rw [withoutPsk, clockTo_sec]
  · intro k n x s hx
    have hx' : (clockTo s n).sec.sessions.get? k = some x := by rwa [clockTo_sec]
    rw [← clockTo_flights s n]
    refine ⟨execSessionIdleTimeout_stays hx', fun hop hold hidle => ?_, fun hop hold hbusy => ?_⟩
    · exact ⟨_, (execSessionIdleTimeout_ends hx' hop hold).trans (congrArg Host.Outcome.next (endSession_idle hidle)),
        Map.get?_erase .., rfl⟩
    · exact ⟨_, (execSessionIdleTimeout_ends hx' hop hold).trans (congrArg Host.Outcome.next (endSession_busy hbusy)),
        get?_modSession hx' _, rfl⟩
  · intro p n k x s h hx hport hidle
    have hat : sessionAt (clockTo s n) p k = some x := sessionAt_some (by rwa [clockTo_sec]) hport
    have hnow : endSession (clockTo s n) k = dropSession (clockTo s n) k := endSession_idle (by rwa [clockTo_flights])
    refine ⟨spdmAns (dropSession (clockTo s n) k) p .ok, congrArg Host.Outcome.next ((spdmReq_negotiated (h.clockTo n) _).trans ?_),
      Map.get?_erase .., fun j hj => ?_, fun g y hy => dropSession_psks hy, (((Served.refl _).sec _).ans ..).only⟩
    · simp only [hat, hnow]
    · rw [← clockTo_sec s n]
      exact Map.get?_erase_ne _ hj
  · intro p n s h
    refine ⟨?_, ?_, ?_⟩
    · exact (execGetMeasurements_signs h n 1).trans (by rw [measAnswer_rom, clockTo_sec])
    · exact (execGetMeasurements_signs h n 4).trans (by rw [measAnswer_cal, clockTo_cal])
    · exact (execGetMeasurements_signs h n 0xFE).trans (by rw [measAnswer_debug, clockTo_sec])
  · intro p f n k stream key x s h hx hport hop
    have hasks := officerReq_asks h hx hport hop n
    refine ⟨fun hno => ?_, fun hyes hstream => ?_, fun hyes hdom hlocked => ?_, fun hyes hbad => ?_⟩
    · simp only [hno, Bool.false_eq_true, if_false] at hasks
      exact ⟨congrArg Host.Outcome.next (hasks _), congrArg Host.Outcome.next (hasks _)⟩
    · simp only [hyes, if_true] at hasks
      exact ⟨_, congrArg Host.Outcome.next ((hasks _).trans (if_neg hstream.not_gt)), Map.get?_set ..,
        ((((Served.refl _).sec _).sec _).ans ..).only⟩
    · simp only [hyes, if_true] at hasks
      refine ⟨_, congrArg Host.Outcome.next ((hasks _).trans (if_neg (not_or.2 ⟨?_, not_not.2 ?_⟩))), ?_,
        spdmAns_setTdisp_only ..⟩
      · rwa [← domainOf_clockTo s n] at hdom
      · rwa [← getF_clockTo s n] at hlocked
      · exact (getF_setTdisp ..).trans (congrArg (fun e : FuncSt => { e with tdisp := .configLocked }) (getF_clockTo s n p f))
    · simp only [hyes, if_true] at hasks
      rw [← domainOf_clockTo s n, ← getF_clockTo s n] at hbad
      exact ⟨_, congrArg Host.Outcome.next ((hasks _).trans (if_pos hbad)), getF_clockTo s n p f, rfl⟩
  · intro p f s hrun
    refine ⟨fun ht => ⟨_, execStopInterface_unlocks hrun ht, getF_setTdisp .., rfl⟩,
      fun ht => ⟨_, execStopInterface_leavesRun hrun ht, ?_⟩, fun ht => ⟨_, execStopInterface_errs hrun ht, ?_⟩⟩
    · rw [getF_setTdisp, getF_flrOp, freshFunc]
    · rw [getF_setTdisp, getF_flrOp, freshFunc]

end Sys2Proof.Machine
end

section
/-! R415 to R420, R459: the life cycle, its tokens and requests, the fuses, and the end of the keys; R448, R449: the BMC. -/

namespace Sys2Proof.Machine

/-! ### Fuses and the life cycle (R415, R419) -/

theorem lcSet_blown (x : BitVec 3) : lcSet (x ||| 7) = true := by
  revert x
  decide

theorem or_seven (x : BitVec 3) : x ||| 7 = 7 := by
  revert x
  decide

theorem and_or_self {w : Nat} (x y : BitVec w) : x &&& (x ||| y) = x := by
  ext i
  simp only [BitVec.getElem_and, BitVec.getElem_or]
  cases x[i] <;> rfl

theorem of_lifeCycle_manufacture {s : State} (h : lifeCycle s = .manufacture) : lcSet s.sec.fuses.lcScrap = false
    ∧ lcSet s.sec.fuses.lcRet = false ∧ lcSet s.sec.fuses.lcOper = false := by
  unfold lifeCycle at h
  generalize lcSet s.sec.fuses.lcScrap = c, lcSet s.sec.fuses.lcRet = r, lcSet s.sec.fuses.lcOper = o,
    lcSet s.sec.fuses.lcProv = p at h ⊢
  revert c r o p
  decide

theorem of_lifeCycle_provisioned {s : State} (h : lifeCycle s = .provisioned) : lcSet s.sec.fuses.lcScrap = false
    ∧ lcSet s.sec.fuses.lcRet = false := by
  unfold lifeCycle at h
  generalize lcSet s.sec.fuses.lcScrap = c, lcSet s.sec.fuses.lcRet = r, lcSet s.sec.fuses.lcOper = o,
    lcSet s.sec.fuses.lcProv = p at h ⊢
  revert c r o p
  decide

theorem lifeCycle_scrapped {s : State} (h : lcSet s.sec.fuses.lcScrap = true) : lifeCycle s = .scrapped := if_pos h

theorem lifeCycle_operational {s : State} (hscrap : lcSet s.sec.fuses.lcScrap = false) (hret : lcSet s.sec.fuses.lcRet = false)
    (hoper : lcSet s.sec.fuses.lcOper = true) : lifeCycle s = .operational := by
  simp [lifeCycle, hscrap, hret, hoper]

theorem lifeCycle_provisioned {s : State} (hscrap : lcSet s.sec.fuses.lcScrap = false) (hret : lcSet s.sec.fuses.lcRet = false)
    (hoper : lcSet s.sec.fuses.lcOper = false) (hprov : lcSet s.sec.fuses.lcProv = true) : lifeCycle s = .provisioned := by
  simp [lifeCycle, hscrap, hret, hoper, hprov]

/-! ### Tokens and requests (R417) -/

section
variable {d : Desc} {s : State} {listed : Nat → Bool} {k : State → State × Ans} (hhost : hostStatus d.env.host = none)
include hhost

theorem withToken_operational (hop : lifeCycle s = .operational) (htoken : isToken (hostData d) = true) :
    withToken d s listed k = (s, .fail .denied) := by
  rw [withToken, withBuffer_none hhost]
  exact if_pos ⟨hop, htoken⟩

variable (hevent : ¬(lifeCycle s = .operational ∧ isToken (hostData d) = true))
include hevent

theorem withToken_unverified (hbad : verifies s d = false) : withToken d s listed k = (useNonce s, .fail .authFail) := by
  rw [withToken, withBuffer_none hhost]
  simp only [if_neg hevent, hbad, Bool.not_false, if_true]

theorem withToken_unlisted (hgood : verifies s d = true) (hother : listed (hostData d) = false) :
    withToken d s listed k = (useNonce s, .fail .denied) := by
  rw [withToken, withBuffer_none hhost]
  simp only [if_neg hevent, hgood, hother, Bool.not_true, Bool.not_false, Bool.false_eq_true, if_false, if_true]

theorem withToken_runs (hgood : verifies s d = true) (hlisted : listed (hostData d) = true) :
    withToken d s listed k = k (useNonce s) := by
  rw [withToken, withBuffer_none hhost]
  simp only [if_neg hevent, hgood, hlisted, Bool.not_true, Bool.false_eq_true, if_false]

end

/-! ### SEC_STATUS, LC_NONCE -/

theorem ownerSlot_lt (s : State) : ((ownerSlot s).map (·.1)).getD 0 < 4 := by
  unfold ownerSlot
  dsimp only
  repeat' split
  all_goals simp

theorem bodySecStatus_reads (d : Desc) (s : State) : bodySecStatus d s = (s, .done (s.sec.mod.code + 2 ^ 8 * (lifeCycle s).code
    + 2 ^ 16 * ((ownerSlot s).map (·.1)).getD 0 % 2 ^ 18 + 2 ^ 18 * b2n s.sec.debugOpened + 2 ^ 24 * (sessionCount s true % 8)
    + 2 ^ 32 * (sessionCount s false % 32)) s.sec.failCode) := by
  have hmod : s.sec.mod.code < 8 := by cases s.sec.mod <;> decide
  have hlife := lifeCycle_code_lt s
  have hdebug := b2n_lt s.sec.debugOpened
  have howner := ownerSlot_lt s
  refine congrArg (fun v => (s, Ans.done v s.sec.failCode)) ?_
  simp only [pack]
  omega

theorem bodyLcNonce_draws {d : Desc} {s : State} (hout : byt d.body 0 7 % 64 = 0) : bodyLcNonce d s
    = ({ s with sec := { s.sec with nonce := some (draw s).1, draws := s.sec.draws + 1 } },
      .done 0 0 (byt d.body 0 7) 32 (draw s).1.toNat) :=
  failIf_neg (by simp [outOk, hout])

/-! ### LC_PROVISION, LC_OPERATE (R416, R419) -/

section
variable {d : Desc} {s : State}

theorem lcProvision_denied (h : lifeCycle s ≠ .manufacture) : lcProvision d s = (s, .fail .denied) := by
  rw [lcProvision, bne_iff_ne.2 h, failIf_true]

section
variable (hlife : lifeCycle s = .manufacture) (hout : byt d.body 8 15 % 64 = 0) (hhost : hostStatus d.env.host = none)
include hlife hout hhost

theorem lcProvision_unverified (hbad : verifies s d = false) : lcProvision d s = (useNonce s, .fail .authFail) := by
  have hok : outOk (byt d.body 8 15) = true := by simp [outOk, hout]
  rw [lcProvision, withToken_unverified hhost (by simp [hlife]) hbad]
  simp only [hlife, hok, bne_self_eq_false, Bool.not_true, failIf_false]

/-- The fuses of a part that is provisioned. -/
def provisionedFuses (x : Fuses) (root : BitVec 256) : Fuses :=
  { x with fuseRoot := x.fuseRoot ||| root, lcProv := x.lcProv ||| 7 }

theorem lcProvision_provisions (hlen : 4532 ≤ byt d.body 16 19) (hgood : verifies s d = true) (htoken : isToken (hostData d) = true)
    (hscope : bit (tokenScope (hostData d)) 0 = true) (hfuse : d.env.fuseOk = true) :
    ∃ root w, (lcProvision d s).1 = { s with
        sec := { s.sec with fuses := provisionedFuses s.sec.fuses root, nonce := none, draws := s.sec.draws + 1 }
        out := w :: s.out
        free := s.free + 2 }
      ∧ (lcProvision d s).2 = .acceptDone .ok := by
  have hok : outOk (byt d.body 8 15) = true := by simp [outOk, hout]
  have hroom : ¬byt d.body 16 19 < 436 + freeVal (useNonce s) % 4096 := by omega
  rw [lcProvision, withToken_runs hhost (by simp [hlife]) hgood (by simp [htoken, hscope])]
  simp only [hlife, hok, bne_self_eq_false, Bool.not_true, failIf_false, if_neg hroom, hfuse, if_true]
  exact ⟨_, _, rfl, trivial⟩

end

theorem bodyLcOperate_denied (h : lifeCycle s ≠ .provisioned ∨ s.sec.debugOpened = true) :
    bodyLcOperate d s = (s, .fail .denied) := by
  have hshut : (lifeCycle s != .provisioned || s.sec.debugOpened) = true := by simpa using h
  rw [bodyLcOperate, hshut, failIf_true]

/-- The fuses of a part that its first owner takes into operation. -/
def operatedFuses (x : Fuses) (owner : BitVec 384) : Fuses := { x with owner0 := x.owner0 ||| owner, lcOper := x.lcOper ||| 7 }

theorem bodyLcOperate_operates (hlife : lifeCycle s = .provisioned) (hclosed : s.sec.debugOpened = false)
    (hfuse : d.env.fuseOk = true) : bodyLcOperate d s = (setFuses s (operatedFuses s.sec.fuses
      (BitVec.ofNat 384 (((sessionOf s d).map (·.requester)).getD 0))), .done) := by
  simp only [bodyLcOperate, hlife, hclosed, hfuse, bne_self_eq_false, Bool.or_self, failIf_false, if_true]
  rfl

/-! ### OWNER_ROTATE (R419) -/

theorem bodyOwnerRotate_denied (h : lifeCycle s ≠ .operational) : bodyOwnerRotate d s = (s, .fail .denied) := by
  rw [bodyOwnerRotate, bne_iff_ne.2 h, failIf_true]

theorem ownerSlot_first (h0 : s.sec.fuses.owner0 ≠ 0) (h1 : s.sec.fuses.owner1 = 0) (h2 : s.sec.fuses.owner2 = 0)
    (h3 : s.sec.fuses.owner3 = 0) : ownerSlot s = some (0, s.sec.fuses.owner0) :=
  (if_neg (not_not.2 h3)).trans ((if_neg (not_not.2 h2)).trans ((if_neg (not_not.2 h1)).trans (if_pos h0)))

theorem nextOwner_second {ok : Bool} {o : BitVec 384} (h0 : s.sec.fuses.owner0 ≠ 0) (h1 : s.sec.fuses.owner1 = 0)
    (h2 : s.sec.fuses.owner2 = 0) (h3 : s.sec.fuses.owner3 = 0) :
    nextOwner s ok o = some (setFuses s { s.sec.fuses with owner1 := blow s ok s.sec.fuses.owner1 o }) := by
  simp only [nextOwner, ownerSlot_first h0 h1 h2 h3, Option.map_some]

theorem nextOwner_none {ok : Bool} {o : BitVec 384} (h3 : s.sec.fuses.owner3 ≠ 0) : nextOwner s ok o = none := by
  have hlast : ownerSlot s = some (3, s.sec.fuses.owner3) := if_pos h3
  simp only [nextOwner, hlast, Option.map_some]

section
variable (hlife : lifeCycle s = .operational) (hhost : hostStatus d.env.host = none)
include hlife hhost

theorem bodyOwnerRotate_token (htoken : isToken (hostData d) = true) : bodyOwnerRotate d s = (s, .fail .denied) := by
  rw [bodyOwnerRotate, withToken_operational hhost hlife htoken, hlife, bne_self_eq_false, failIf_false]

section
variable (hgood : verifies s d = true) (htoken : isToken (hostData d) = false) (hrequest : isRequest (hostData d) = true)
  (hop : tokenScope (hostData d) = 1)
include hgood htoken hrequest hop

theorem bodyOwnerRotate_rotates {t : State} (hfuse : d.env.fuseOk = true)
    (hnext : nextOwner (useNonce s) true (BitVec.ofNat 384 (byt (hostData d) 64 111)) = some t) :
    bodyOwnerRotate d s = (t, .done) := by
  rw [bodyOwnerRotate, withToken_runs hhost (by simp [htoken]) hgood (by simp [hrequest, hop]), hlife, bne_self_eq_false,
    failIf_false]
  simp only [hfuse, hnext, if_true]

theorem bodyOwnerRotate_full
    (hnext : nextOwner (useNonce s) d.env.fuseOk (BitVec.ofNat 384 (byt (hostData d) 64 111)) = none) :
    bodyOwnerRotate d s = (useNonce s, .fail .exhausted) := by
  rw [bodyOwnerRotate, withToken_runs hhost (by simp [htoken]) hgood (by simp [hrequest, hop]), hlife, bne_self_eq_false,
    failIf_false]
  simp only [hnext]

end

end

/-! ### LC_RETURN, LC_SCRAP (R419, R420) -/

theorem lcEnd_return_denied (hprov : lifeCycle s ≠ .provisioned) (hoper : lifeCycle s ≠ .operational) :
    lcEnd false d s = (s, .fail .denied) := by
  simp only [lcEnd, beq_eq_false_iff_ne.2 hprov, beq_eq_false_iff_ne.2 hoper, Bool.false_and, Bool.or_self, Bool.not_false,
    failIf_true]

theorem lcEnd_scrap_denied (hlife : lifeCycle s = .scrapped) : lcEnd true d s = (s, .fail .denied) := by
  rw [lcEnd, hlife]
  rfl

section
variable (herase : s.sec.erase = none) (hhost : hostStatus d.env.host = none) (hgood : verifies s d = true)
include herase hhost hgood

/-- An owner request ends a part in operation. -/
theorem lcEnd_requested (hlife : lifeCycle s = .operational) (htoken : isToken (hostData d) = false)
    (hrequest : isRequest (hostData d) = true) (hop : tokenScope (hostData d) = 2) :
    lcEnd false d s = (startErase (useNonce s) false, .accept (.other 0)) := by
  rw [lcEnd, withToken_runs hhost (by simp [htoken]) hgood (by simp [hlife, hrequest, hop])]
  simp [hlife, herase]

section
variable (htoken : isToken (hostData d) = true) (hscope : bit (tokenScope (hostData d)) 3 = true)
include htoken hscope

/-- A vendor token scraps a part that was provisioned, once its memory is erased. -/
theorem lcEnd_scraps_provisioned (hlife : lifeCycle s = .provisioned) :
    lcEnd true d s = (startErase (useNonce s) true, .accept (.other 0)) := by
  rw [lcEnd, withToken_runs hhost (by simp [hlife]) hgood (by simp [hlife, htoken, hscope])]
  simp [hlife, herase]

/-- A part still in manufacture holds nothing to erase. -/
theorem lcEnd_scraps_manufacture (hlife : lifeCycle s = .manufacture) (hfuse : d.env.fuseOk = true) :
    lcEnd true d s = (blowEnd (useNonce s) true true, .acceptDone .ok) := by
  rw [lcEnd, withToken_runs hhost (by simp [hlife]) hgood (by simp [hlife, htoken, hscope])]
  simp [hlife, herase, hfuse]

end

end

/-! ### CRYPTO_ERASE_DONE, ZEROISE (R397, R420) -/

theorem execCryptoEraseDone_idle {ok : Bool} (h : s.sec.erase = none) : execCryptoEraseDone ok s = .next s := by
  simp only [execCryptoEraseDone, h]

/-- The node once every span is erased and its fuse is blown. -/
def erasedNode (s : State) (ok scrap : Bool) : State := blowEnd { s with bulk := [], mem := { s.mem with frames := .empty } } ok scrap

theorem execCryptoEraseDone_resets {e : Erase} (h : s.sec.erase = some e) :
    execCryptoEraseDone true s = .next (coldReset (zeroiseKeys (erasedNode s true e.scrap)) s.boot.porLow s.boot.railHold) := by
  simp only [execCryptoEraseDone, h, if_true]
  rfl

theorem execCryptoEraseDone_fails {e : Erase} (h : s.sec.erase = some e) : execCryptoEraseDone false s = .next
    (finishWhere (fuseFault { erasedNode s false e.scrap with sec := { (erasedNode s false e.scrap).sec with erase := none } })
      (fun g => g.key == .other 0) .badState 0 0) := by
  simp only [execCryptoEraseDone, h, Bool.false_eq_true, if_false]
  rfl

theorem execZeroise_zeroises (h : reaches rowZeroise d s = true) : ∃ t, execZeroise d s
    = .next { zeroiseKeys t with sec := { (zeroiseKeys t).sec with mod := .zeroised } } :=
  ⟨_, congrArg Host.Outcome.next (if_pos h)⟩

/-- Every key is overwritten. -/
theorem zeroiseKeys_keyless (s : State) : (∀ k x, (zeroiseKeys s).domains.get? k = some x → x.key = none)
    ∧ ∀ k x, (zeroiseKeys s).models.get? k = some x → x.key = none := by
  refine ⟨fun k x hx => ?_, fun k x hx => ?_⟩
  · obtain ⟨y, -, rfl⟩ := Option.map_eq_some_iff.1 ((Map.get?_mapVals ..).symm.trans hx)
    rfl
  · obtain ⟨y, -, rfl⟩ := Option.map_eq_some_iff.1 ((Map.get?_mapVals ..).symm.trans hx)
    rfl

/-! ### DEBUG_OPEN (R418) -/

theorem debugOpen_denied (h : lifeCycle s = .operational ∨ lifeCycle s = .scrapped) : debugOpen d s = (s, .fail .denied) := by
  rcases h with h | h <;> simp [debugOpen, h, failIf_true]

theorem debugIsOpen_of_opened {t : State} (hlife : lifeCycle s = .provisioned) (hfuses : t.sec.fuses = s.sec.fuses)
    (hopen : t.sec.debugOpened = true) : debugIsOpen t = true := by
  have hstill : lifeCycle t = .provisioned := by
    rw [← hlife, lifeCycle, hfuses, ← lifeCycle]
  simp only [debugIsOpen, hstill, hopen]

section
variable (hlife : lifeCycle s = .provisioned) (hhost : hostStatus d.env.host = none) (hgood : verifies s d = true)
include hlife hhost hgood

theorem debugOpen_opens (htoken : isToken (hostData d) = true) (hscope : bit (tokenScope (hostData d)) 1 = true) :
    debugOpen d s = ({ s with
      sec := { s.sec with debugOpened := true, identity := false, mod := .nonApproved, nonce := none }
      out := .debugPort true :: s.out }, .done) := by
  rw [debugOpen, withToken_runs hhost (by simp [hlife]) hgood (by simp [hlife, htoken, hscope])]
  simp only [hlife, if_true]
  rfl

theorem debugOpen_unlisted (hscope : bit (tokenScope (hostData d)) 1 = false) :
    debugOpen d s = (useNonce s, .fail .denied) := by
  rw [debugOpen, withToken_unlisted hhost (by simp [hlife]) hgood (by simp [hlife, hscope])]
  simp only [hlife]
  rfl

end

end

/-! ### The BMC (R448, R449) -/

section
variable {s : State} (hup : s.boot.sideband = true)
include hup

theorem execPldmSetEffecter_sets {e : Effecter} (h : effecterOk e = true) :
    execPldmSetEffecter e s = .next { s with thermal := setEffecter s.thermal e, out := .pldm true 0 :: s.out } := by
  simp [execPldmSetEffecter, hup, h, emit]

theorem execPldmSetEffecter_refuses {e : Effecter} (h : effecterOk e = false) :
    execPldmSetEffecter e s = .next { s with out := .pldm false 0 :: s.out } := by
  simp [execPldmSetEffecter, hup, h, emit]

theorem execPldmReadSensor_reads (o : PldmObj) :
    execPldmReadSensor o s = .next { s with out := .pldm true (pldmValue s o) :: s.out, free := s.free + 1 } := by
  simp [execPldmReadSensor, hup, emit, useFree]

end

/-- Settles O48. It rests on assumptions 5, 58 (when a nonce is consumed) and 63 (the final OK of ZEROISE comes before
the keys go). -/
theorem lifeCycleCommandsActOnFuses : Obligations.LifeCycleCommandsActOnFuses := by
  refine ⟨?_, ?_, ?_, ?_, ?_, ?_, ?_, ?_, ?_, ?_, ?_, ?_, ?_, ?_, ?_, ?_, ?_, ?_, ?_, ?_, ?_, ?_, ?_, ?_, ?_, ?_⟩
  · exact does_of_body (fun _ _ => rfl) fun d s _ => bodySecStatus_reads d s
  · refine ends_of_body (fun _ _ => rfl) fun d s hout => ?_
    rw [bodyLcNonce_draws hout]
    exact ⟨_, rfl, rfl, rfl⟩
  · exact does_of_body (fun _ _ => rfl) fun d s h => lcProvision_denied h
  · refine ends_of_body (fun _ _ => rfl) fun d s ⟨hlife, hout, hlen, hhost, hgood, htoken, hscope, hfuse⟩ => ?_
    obtain ⟨root, w, hstate, hanswer⟩ := lcProvision_provisions hlife hout hhost hlen hgood htoken hscope hfuse
    obtain ⟨hscrap, hret, hoper⟩ := of_lifeCycle_manufacture hlife
    rw [hstate, hanswer]
    exact ⟨rfl, lifeCycle_provisioned hscrap hret hoper (lcSet_blown _), rfl, and_or_self .., rfl⟩
  · exact does_of_body (fun _ _ => rfl) fun d s ⟨hlife, hout, hhost, hbad⟩ => lcProvision_unverified hlife hout hhost hbad
  · exact does_of_body (fun _ _ => rfl) fun d s h => bodyLcOperate_denied h
  · refine ends_of_body (fun _ _ => rfl) fun d s ⟨hlife, hclosed, hfuse, howner⟩ => ?_
    obtain ⟨hscrap, hret⟩ := of_lifeCycle_provisioned hlife
    rw [bodyLcOperate_operates hlife hclosed hfuse]
    refine ⟨rfl, lifeCycle_operational hscrap hret (lcSet_blown _), ?_, rfl⟩
    exact (congrArg (· ||| _) howner).trans BitVec.zero_or
  · exact does_of_body (fun _ _ => rfl) fun d s h => bodyOwnerRotate_denied h
  · exact does_of_body (fun _ _ => rfl) fun d s ⟨hlife, hhost, htoken⟩ => bodyOwnerRotate_token hlife hhost htoken
  · refine ends_of_body (fun _ _ => rfl) fun d s ⟨hlife, hhost, hgood, htoken, hrequest, hop, hfuse, h0, h1, h2, h3⟩ => ?_
    rw [bodyOwnerRotate_rotates hlife hhost hgood htoken hrequest hop hfuse (nextOwner_second h0 h1 h2 h3)]
    refine ⟨rfl, ?_, rfl, rfl, rfl⟩
    exact (congrArg (· ||| _) h1).trans BitVec.zero_or
  · exact does_of_body (fun _ _ => rfl) fun d s ⟨hlife, hhost, hgood, htoken, hrequest, hop, h3⟩ =>
      bodyOwnerRotate_full hlife hhost hgood htoken hrequest hop (nextOwner_none h3)
  · exact does_of_body (fun _ _ => rfl) fun d s ⟨hprov, hoper⟩ => lcEnd_return_denied hprov hoper
  · exact does_of_body (fun _ _ => rfl) fun d s ⟨hlife, herase, hhost, hgood, htoken, hrequest, hop⟩ =>
      lcEnd_requested herase hhost hgood hlife htoken hrequest hop
  · exact does_of_body (fun _ _ => rfl) fun d s h => lcEnd_scrap_denied h
  · exact does_of_body (fun _ _ => rfl) fun d s ⟨hlife, herase, hhost, hgood, htoken, hscope⟩ =>
      lcEnd_scraps_provisioned herase hhost hgood htoken hscope hlife
  · refine ends_of_body (fun _ _ => rfl) fun d s ⟨hlife, herase, hhost, hgood, htoken, hscope, hfuse⟩ => ?_
    rw [lcEnd_scraps_manufacture herase hhost hgood htoken hscope hlife hfuse]
    exact ⟨rfl, lifeCycle_scrapped (lcSet_blown _), rfl, rfl⟩
  · exact fun ok s h => execCryptoEraseDone_idle h
  · intro e s h
    refine ⟨_, execCryptoEraseDone_resets h, rfl, rfl, rfl, rfl, fun hscrap => ?_, fun hreturn => ?_, rfl, rfl, rfl, rfl, ?_⟩
    · rw [hscrap]
      exact lifeCycle_scrapped (lcSet_blown _)
    · rw [hreturn]
      exact or_seven _
    · cases e with | mk scrap => cases scrap <;> rfl
  · intro e s h
    refine ⟨_, execCryptoEraseDone_fails h, ?_, ?_⟩
    · rw [finishWhere_sec, fuseFault, raiseNode_sec]
      rfl
    · rw [finishWhere_bulk, fuseFault, raiseNode_bulk]
      rfl
  · intro d s h
    obtain ⟨t, ht⟩ := execZeroise_zeroises h
    have hkeep := execZeroise_keep d s _ ht
    obtain ⟨hdomains, hmodels⟩ := zeroiseKeys_keyless t
    exact ⟨_, ht, rfl, rfl, rfl, rfl, rfl, hdomains, hmodels, congrArg (fun x => x.2.2) hkeep⟩
  · exact does_of_body (fun _ _ => rfl) fun d s h => debugOpen_denied h
  · refine ends_of_body (fun _ _ => rfl) fun d s ⟨hlife, hhost, hgood, htoken, hscope⟩ => ?_
    rw [debugOpen_opens hlife hhost hgood htoken hscope]
    refine ⟨rfl, rfl, rfl, rfl, ?_, rfl⟩
    exact debugIsOpen_of_opened hlife rfl rfl
  · exact does_of_body (fun _ _ => rfl) fun d s ⟨hlife, hhost, hgood, _, hscope⟩ => debugOpen_unlisted hlife hhost hgood hscope
  · intro w c b s hup
    refine ⟨fun hlo hhi => ?_, fun hout => ?_, fun hlo hhi => ?_, fun hout => ?_, execPldmSetEffecter_sets hup rfl⟩
    · exact execPldmSetEffecter_sets hup (decide_eq_true ⟨hlo, hhi⟩)
    · exact execPldmSetEffecter_refuses hup (decide_eq_false (by omega))
    · exact execPldmSetEffecter_sets hup (decide_eq_true ⟨hlo, hhi⟩)
    · exact execPldmSetEffecter_refuses hup (decide_eq_false (by omega))
  · intro o s hup
    refine ⟨_, _, execPldmReadSensor_reads hup o, rfl, rfl, ?_, ?_, ?_⟩
    · rintro rfl
      rfl
    · rintro rfl
      rfl
    · rintro rfl
      rfl
  · exact fun o e s hdown => ⟨congrArg Host.Outcome.next (if_pos (by rw [hdown]; rfl)),
      congrArg Host.Outcome.next (if_pos (by rw [hdown]; rfl))⟩

end Sys2Proof.Machine
end

section
/-! R411, R412, R461 to R463: models and their weights, and the directory entries that go with a model (R217, R229). -/

namespace Sys2Proof.Machine

/-! ### Registration and queries (R461, R463) -/

section
variable {d : Desc} {s : State} {n : Nat} {m : ModelSt}

theorem modelFor_own (hm : getM s d.domain.toNat n = some m) : modelFor d s n = .ok m := by
  rw [modelFor, hm]

theorem modelSeen_own (hm : getM s d.domain.toNat n = some m) : modelSeen d s n = .ok m := by
  rw [modelSeen, modelFor_own hm]

theorem modelRegister_bad (h : modelBad (modelOf d) = true) : modelRegister d s = (s, .fail .badField) := by
  rw [modelRegister, h, failIf_true]

section
variable (hgood : modelBad (modelOf d) = false) (hnew : getM s d.domain.toNat (mModel (modelOf d).record) = none)
include hgood hnew

theorem modelRegister_full (hfull : 256 ≤ s.models.size) : modelRegister d s = (s, .fail .exhausted) := by
  simp only [modelRegister, hgood, hnew, Option.isSome_none, hfull, decide_true, failIf_false, failIf_true]

/-- A model that is registered without a directory. -/
def registeredModel (d : Desc) : ModelSt := { modelOf d with record := rset (modelOf d).record 397 392 0, bankBase := 0 }

/-- A model without a directory takes no bank. -/
theorem modelRegister_bankless (hroom : s.models.size < 256) (hbanks : mBanks (modelOf d).record = 0) :
    modelRegister d s = ({ s with
      models := s.models.set (mkey d.domain.toNat (mModel (modelOf d).record)) (registeredModel d) },
      .done (mT (registeredModel d).record * 2 ^ 8)) := by
  have hchoose : chooseBanks s d.domain.toNat (mBanks (modelOf d).record) = some 0 := if_pos hbanks
  simp only [modelRegister, hgood, hnew, Option.isSome_none, decide_eq_false hroom.not_ge, failIf_false, hchoose, Nat.zero_add]
  rfl

end

theorem modelQuery_reads (hm : getM s d.domain.toNat (byt d.body 0 1) = some m) (hout : byt d.body 8 15 % 64 = 0) :
    modelQuery d s = (s, .done (pack [(0, 1, b2n m.loaded), (1, 1, b2n m.damaged), (2, 1, b2n m.key.isSome)]) 0 (byt d.body 8 15)
      64 m.record.toNat) := by
  have hok : outOk (byt d.body 8 15) = true := by simp [outOk, hout]
  rw [modelQuery, withObj_ok (modelSeen_own hm), hok]
  rfl

theorem getM_modM (hm : getM s d.domain.toNat n = some m) (g : ModelSt → ModelSt) :
    getM (modM s d.domain.toNat n g) d.domain.toNat n = some (g m) :=
  (Map.get?_modify ..).trans (congrArg (Option.map g) hm)

/-! ### Keys and packages (R411, R412, R462) -/

theorem weightKeyInstall_installs (hport : domPortOk d s d.domain.toNat = true)
    (hm : getM s d.domain.toNat (byt d.body 0 1) = some m) (hproj : mProjection m.record = true) (hempty : m.loaded = false) :
    weightKeyInstall d s
      = (modM (newKey s).2 d.domain.toNat (byt d.body 0 1) fun m => { m with key := some s.sec.keys }, .done) := by
  rw [weightKeyInstall, withObj_ok (modelFor_own hm)]
  simp only [hport, hproj, hempty, Bool.not_true, Bool.false_and, Bool.or_self, failIf_false]
  rfl

theorem weightUnload_unloads (hm : getM s d.domain.toNat (byt d.body 0 1) = some m)
    (hheat : modelHasHeat s d.domain.toNat (byt d.body 0 1) = false) :
    weightUnload d s = (modM s d.domain.toNat (byt d.body 0 1) fun m =>
      { m with loaded := false, damaged := false, weights := 0, weightBytes := 0, digest := 0 }, .done) := by
  rw [weightUnload, withObj_ok (modelFor_own hm), hheat, failIf_false]

section
variable (hm : getM s d.domain.toNat (byt d.body 0 1) = some m) (hsome : byt d.body 16 23 ≠ 0)
  (hblocks : byt d.body 16 23 % 528 = 0)
  (hroom : packageRoom (byt d.body 16 23 / 528 * 512) ≤ weightRoom s (mkey d.domain.toNat (byt d.body 0 1)))
  (hhost : hostStatus d.env.host = none) (hkey : m.key.isSome = true) (hempty : m.loaded = false)
include hm hsome hblocks hroom hhost hkey hempty

/-- A package that may be loaded is read. -/
theorem weightLoad_reads : weightLoad d s = keepPackage d s d.domain.toNat (byt d.body 0 1) (byt d.body 16 23) m := by
  have hlength : (byt d.body 16 23 == 0 || byt d.body 16 23 % 528 != 0) = false := by simp [hsome, hblocks]
  have hready : (m.key.isNone || (m.loaded && !m.damaged)) = false := by
    rw [hempty, Bool.false_and, Bool.or_false, Option.isNone_eq_false_iff]
    exact hkey
  rw [weightLoad, withObj_ok (modelFor_own hm)]
  simp only [hlength, hready, decide_eq_false hroom.not_gt, failIf_false, hhost]

end

/-- The traffic of a package is charged. -/
def packageRead (s : State) (dom bytes : Nat) : State :=
  chargeDram (chargePcie s dom false bytes) dom true (packageRoom (bytes / 528 * 512))

theorem packageRead_only (s : State) (dom bytes : Nat) :
    packageRead s dom bytes = { s with acct := (packageRead s dom bytes).acct } :=
  (chargeDram_only ..).trans
    (congrArg (fun u : State => { u with acct := (packageRead s dom bytes).acct }) (chargePcie_only s dom false bytes))

theorem packageRead_models (s : State) (dom bytes : Nat) : (packageRead s dom bytes).models = s.models := by
  rw [packageRead_only]

theorem getM_packageRead (s : State) (dom bytes n : Nat) : getM (packageRead s dom bytes) dom n = getM s dom n := by
  rw [getM, packageRead_models, getM]

theorem modM_packageRead_only (s : State) (dom bytes n : Nat) (g : ModelSt → ModelSt) :
    modM (packageRead s dom bytes) dom n g = { s with
      acct := (packageRead s dom bytes).acct
      models := (modM (packageRead s dom bytes) dom n g).models } :=
  congrArg (fun u : State => { u with models := (modM (packageRead s dom bytes) dom n g).models }) (packageRead_only s dom bytes)

theorem keepPackage_unverified (dom bytes : Nat) (htags : d.env.tagsOk = false) :
    keepPackage d s dom n bytes m = (packageRead s dom bytes, .acceptDone .authFail) := by
  simp only [keepPackage, htags, Bool.not_false, if_true]
  rfl

/-- A model whose package is loaded. -/
def loadedModel (d : Desc) (bytes : Nat) (m : ModelSt) : ModelSt :=
  let plain := d.env.plain % 2 ^ (8 * (bytes / 528 * 512))
  { m with loaded := true, damaged := false, weights := plain, weightBytes := bytes / 528 * 512,
           digest := digestOf plain (bytes / 528 * 512), generation := m.generation + 1 }

theorem keepPackage_loads {dom bytes : Nat} (htags : d.env.tagsOk = true)
    (hheader : headerAgrees m.record n (d.env.plain % 2 ^ (8 * (bytes / 528 * 512))) bytes = true) :
    keepPackage d s dom n bytes m = (modM (packageRead s dom bytes) dom n (loadedModel d bytes), .acceptDone .ok) := by
  simp only [keepPackage, htags, hheader, Bool.not_true, Bool.false_eq_true, if_false]
  rfl

end

/-! ### The directory entries of a model go (R217, R229) -/

theorem nextItem_models (s : State) (w index : Nat) (l : List PubItem) : (nextItem s w index l).models = s.models := by
  cases l with
  | nil => exact finishWhere_models ..
  | cons i t => rfl

theorem shiftStep_models (s : State) (b : Nat) : (shiftStep s b).models = s.models := by
  unfold shiftStep
  dsimp only
  split
  · rfl
  · rw [apply_ite State.models]
    refine (if_congr Iff.rfl ?_ rfl).trans (ite_self _)
    split
    · exact nextItem_models ..
    · rfl

theorem settleBank_models (s : State) (b fuel : Nat) : (settleBank s b fuel).models = s.models := by
  induction fuel generalizing s with
  | zero => rfl
  | succ fuel ih =>
    rw [settleBank]
    split
    · rw [ih, shiftStep_models]
    · rfl

theorem removeEntry_models (s : State) (b a : Nat) : (removeEntry s b a).models = s.models := by
  unfold removeEntry
  dsimp only
  split <;> rfl

theorem retractModel_models (s : State) (domain model : Nat) : (retractModel s domain model).models = s.models :=
  foldl_same (p := State.models) (fun _ _ => (foldl_same (p := State.models) (fun _ _ => removeEntry_models ..) _ _).trans
    (settleBank_models ..)) _ _

/-- A state that differs from another in its directory alone, and in which no bank is shifting. -/
def QuietDir (s t : State) : Prop := t = { s with dir := t.dir } ∧ ∀ b, shifting t b = false

theorem QuietDir.refl {s : State} (h : (s.dir.banks.any fun _ v => v.shift.isSome) = false) : QuietDir s s := by
  refine ⟨rfl, fun b => ?_⟩
  rw [shifting, dirBank, Map.getD]
  cases hget : s.dir.banks.get? b with
  | none => rfl
  | some v => exact Bool.eq_false_iff.2 (List.any_eq_false.1 h _ (mem_of_lookupKey hget))

theorem QuietDir.removeEntry {s t : State} (h : QuietDir s t) (b a : Nat) : QuietDir s (removeEntry t b a) := by
  obtain ⟨honly, hquiet⟩ := h
  unfold Machine.removeEntry
  dsimp only
  split
  · exact ⟨honly, hquiet⟩
  · refine ⟨?_, fun c => ?_⟩
    · rw [honly]
      rfl
    · by_cases hc : c = b
      · subst hc
        exact (congrArg (fun v : DirBank => v.shift.isSome) (Map.getD_set ..)).trans (hquiet c)
      · exact (congrArg (fun v : DirBank => v.shift.isSome) (Map.getD_set_ne _ hc ..)).trans (hquiet c)

/-- With no shift to carry to its end, a bank is as it stands. -/
theorem settleBank_quiet {s : State} {b : Nat} (h : shifting s b = false) (fuel : Nat) : settleBank s b fuel = s := by
  cases fuel with
  | zero => rfl
  | succ fuel => rw [settleBank, h, if_neg Bool.false_ne_true]

theorem foldl_quietDir {α : Type} {s : State} {f : State → α → State} (hf : ∀ t a, QuietDir s t → QuietDir s (f t a))
    (l : List α) {t : State} (h : QuietDir s t) : QuietDir s (l.foldl f t) := by
  induction l generalizing t with
  | nil => exact h
  | cons a l ih => exact ih (hf t a h)

theorem retractModel_quietDir {s : State} (h : (s.dir.banks.any fun _ v => v.shift.isSome) = false) (domain model : Nat) :
    QuietDir s (retractModel s domain model) := by
  refine foldl_quietDir (fun t b ht => ?_) _ (QuietDir.refl h)
  dsimp only
  rw [settleBank_quiet (ht.2 b)]
  exact foldl_quietDir (fun u e hu => hu.removeEntry b e.1) _ ht

section
variable {d : Desc} {s : State} {m : ModelSt} (hm : getM s d.domain.toNat (byt d.body 0 1) = some m)
include hm

theorem modelUnregister_heated (hheat : modelHasHeat s d.domain.toNat (byt d.body 0 1) = true) :
    modelUnregister d s = (s, .fail .badState) := by
  rw [modelUnregister, withObj_ok (modelFor_own hm), hheat, Bool.true_or, failIf_true]

theorem modelUnregister_retracts (hheat : modelHasHeat s d.domain.toNat (byt d.body 0 1) = false)
    (hseqs : (s.seqs.any fun _ q => q.domain == d.domain.toNat && q.model == byt d.body 0 1) = false) :
    modelUnregister d s = ({ clearAudit (retractModel s d.domain.toNat (byt d.body 0 1)) d.domain.toNat (byt d.body 0 1) with
      models := s.models.erase (mkey d.domain.toNat (byt d.body 0 1)) }, .acceptDone .ok) := by
  have hmodels : (clearAudit (retractModel s d.domain.toNat (byt d.body 0 1)) d.domain.toNat (byt d.body 0 1)).models = s.models :=
    retractModel_models ..
  rw [modelUnregister, withObj_ok (modelFor_own hm)]
  simp only [hheat, hseqs, Bool.or_self, failIf_false, hmodels]

end

/-- Settles O14. It rests on assumptions 75 (which checks of WEIGHT_LOAD come before ACCEPTED), 76 (the room for weights) and
78 (the generation of a load). -/
theorem modelsAndWeights : Obligations.ModelsAndWeights := by
  refine ⟨?_, ?_, ?_, ?_, ?_, ?_, ?_, ?_, ?_, ?_⟩
  · exact does_of_body (fun _ _ => rfl) fun d s ⟨hgood, hnew, hroom, hbanks⟩ => modelRegister_bankless hgood hnew hroom hbanks
  · exact does_of_body (fun _ _ => rfl) fun d s ⟨hgood, hnew, hfull⟩ => modelRegister_full hgood hnew hfull
  · exact does_of_body (fun _ _ => rfl) fun d s hbad => modelRegister_bad hbad
  · refine ends_of_body (fun _ _ => rfl) fun d s ⟨hthere, hheat, hseqs⟩ => ?_
    obtain ⟨m, hm⟩ := Option.isSome_iff_exists.1 hthere
    rw [modelUnregister_retracts hm hheat hseqs]
    refine ⟨rfl, rfl, fun hquiet => ?_⟩
    have honly := (retractModel_quietDir hquiet d.domain.toNat (byt d.body 0 1)).1
    rw [honly]
    rfl
  · refine does_of_body (fun _ _ => rfl) fun d s ⟨hthere, hheat⟩ => ?_
    obtain ⟨m, hm⟩ := Option.isSome_iff_exists.1 hthere
    exact modelUnregister_heated hm hheat
  · refine ends_of_body (fun _ _ => rfl) fun d s ⟨hthere, hout⟩ => ?_
    obtain ⟨m, hm⟩ := Option.isSome_iff_exists.1 hthere
    rw [modelQuery_reads hm hout]
    exact ⟨rfl, m, hm, rfl⟩
  · refine ends_of_body (fun _ _ => rfl) fun d s ⟨hport, m, hm, hproj, hempty⟩ => ?_
    rw [weightKeyInstall_installs hport hm hproj hempty]
    refine ⟨rfl, ?_, rfl, rfl⟩
    exact congrArg (·.bind (·.key)) (getM_modM (s := (newKey s).2) hm _)
  · refine ends_of_body (fun _ _ => rfl) fun d s ⟨hsome, hblocks, hroom, hhost, htags, m, hm, hkey, hempty⟩ => ?_
    rw [weightLoad_reads hm hsome hblocks hroom hhost hkey hempty, keepPackage_unverified _ _ htags]
    exact ⟨rfl, packageRead_models .., packageRead_only ..⟩
  · refine ends_of_body (fun _ _ => rfl) fun d s ⟨hsome, hblocks, hroom, hhost, htags, m, hm, hkey, hempty, hheader⟩ => ?_
    rw [weightLoad_reads hm hsome hblocks hroom hhost hkey hempty, keepPackage_loads htags hheader]
    rw [← getM_packageRead s d.domain.toNat (byt d.body 16 23)] at hm
    exact ⟨rfl, modM_packageRead_only .., _, getM_modM hm _, rfl, rfl, rfl, rfl, rfl⟩
  · refine ends_of_body (fun _ _ => rfl) fun d s ⟨hthere, hheat⟩ => ?_
    obtain ⟨m, hm⟩ := Option.isSome_iff_exists.1 hthere
    rw [weightUnload_unloads hm hheat]
    exact ⟨rfl, rfl, _, getM_modM hm _, rfl, rfl, rfl⟩

end Sys2Proof.Machine
end
